-- ==== Sys2Proof/Word.lean ====
section
/-! DEFINITION. The word of the module (R2, R3), the field of a word, and the plainest names the other files share. -/

namespace Sys2Proof

/-- A word, [47:0] (R2, R3). -/
abbrev Word := BitVec 48

/-- An octet of the wire, of memory or of an external format (R2). -/
abbrev Octet := BitVec 8

/-- A bit range [hi:lo] of a word, as a field table gives it (R3). -/
structure Fld where
  hi : Nat
  lo : Nat
deriving DecidableEq, Repr

/-- The reset domains (R14). -/
inductive Domain where
  | aux | moduleD | tenant | carrel | engine | port | core
deriving DecidableEq, Repr

/-- One row of a register table (R7): where its registers lie (`base + s1*i + s2*j`), what a reset of its domain loads
(R10), and which bits software writes under which access code (R11, R12). -/
structure RegRow where
  base : Nat
  s1 : Nat
  n1 : Nat
  s2 : Nat
  n2 : Nat
  reset : Word
  dom : Domain
  rw : Word
  wc : Word
  ws : Word
  wo : Word
  sr : Bool
  srMask : Word
deriving DecidableEq, Repr

end Sys2Proof
end

