-- ==== Sys2Proof/Machine/Bits.lean ====
section
/-! DEFINITION. Bit fields, octet order, checksums and sparse tables: the helpers every block uses. -/

namespace Sys2Proof.Machine

open Sys2Proof

/-! ### Fields of a word (R3) -/

/-- The width of a field. -/
def fldWidth (f : Fld) : Nat := f.hi - f.lo + 1

/-- The value of a field. -/
def fget (w : Word) (f : Fld) : Nat := (w.toNat >>> f.lo) % 2 ^ fldWidth f

/-- A word of ones over a field. -/
def fmask (f : Fld) : Word := BitVec.ofNat 48 ((2 ^ fldWidth f - 1) <<< f.lo)

/-- `w` with field `f` holding `v` (modulo the field's size). -/
def fset (w : Word) (f : Fld) (v : Nat) : Word :=
  (w &&& ~~~ fmask f) ||| BitVec.ofNat 48 ((v % 2 ^ fldWidth f) <<< f.lo)

/-- A one-bit field as a Boolean. -/
def fbit (w : Word) (f : Fld) : Bool := fget w f = 1

/-- A Boolean as a bit. -/
def b2n (b : Bool) : Nat := if b then 1 else 0

/-- A word from a number, modulo 2^48. -/
def w48 (n : Nat) : Word := BitVec.ofNat 48 n

/-- The bits [hi:lo] of a number. -/
def nbits (n hi lo : Nat) : Nat := (n >>> lo) % 2 ^ (hi - lo + 1)

/-- Bit `i` of a number. -/
def nbit (n i : Nat) : Bool := n >>> i % 2 = 1

/-- The high word of a word pair (R4). -/
def hiWord (n : Nat) : Word := w48 (n >>> 48)

/-- The low word of a word pair (R4). -/
def loWord (n : Nat) : Word := w48 n

/-- The value a word pair holds (R4). -/
def pairNat (hi lo : Word) : Nat := hi.toNat * 2 ^ 48 + lo.toNat

/-- The signed value of a number of `w` bits. -/
def sgn (w n : Nat) : Int := if n % 2 ^ w < 2 ^ (w - 1) then (n % 2 ^ w : Nat) else (n % 2 ^ w : Nat) - (2 ^ w : Nat)

/-- The two's complement encoding of an integer in `w` bits. -/
def unsgn (w : Nat) (i : Int) : Nat := (i % (2 ^ w : Nat)).toNat

/-- A counter that saturates at `top`. -/
def satAdd (top a b : Nat) : Nat := min top (a + b)

/-! ### Octet order (R4) -/

/-- The six octets of a word, most significant first. -/
def octetsOfWord (w : Word) : List Octet :=
  [5, 4, 3, 2, 1, 0].map fun i => BitVec.ofNat 8 (w.toNat >>> (8 * i))

/-- The octets of `n`, `k` of them, most significant first. -/
def octetsBE : Nat → Nat → List Octet
  | 0, _ => []
  | k + 1, n => BitVec.ofNat 8 (n >>> (8 * k)) :: octetsBE k n

/-- The number that octets spell, most significant first. -/
def natOfOctets (os : List Octet) : Nat := os.foldl (fun a o => a * 256 + o.toNat) 0

/-- Octets packed into words, six to a word, the last word filled with zero octets on the right. -/
def wordsOfOctets : Nat → List Octet → List Word
  | 0, _ => []
  | k + 1, os =>
    let six := os.take 6
    w48 (natOfOctets (six ++ List.replicate (6 - six.length) 0)) :: wordsOfOctets k (os.drop 6)

/-- Octets packed into as many words as they need. -/
def packOctets (os : List Octet) : List Word := wordsOfOctets ((os.length + 5) / 6) os

/-- The octets of words, in wire order. -/
def octetsOfWords (ws : List Word) : List Octet := ws.flatMap octetsOfWord

/-- `k` octets of `os` from offset `i`, as a number. -/
def octField (os : List Octet) (i k : Nat) : Nat := natOfOctets ((os.drop i).take k)

/-! ### Checksums -/

/-- One bit-reflected CRC step. -/
def crcBit (poly : Nat) (c : Nat) : Nat := if c % 2 = 1 then (c >>> 1) ^^^ poly else c >>> 1

/-- One octet of a bit-reflected CRC. -/
def crcOctet (poly : Nat) (c : Nat) (o : Octet) : Nat :=
  Nat.iterate (crcBit poly) 8 (c ^^^ o.toNat)

/-- CRC-32C of octets: reflected polynomial 0x82F6_3B78, initial and final value all ones. -/
def crc32c (os : List Octet) : Nat :=
  (os.foldl (crcOctet 0x82F63B78) 0xFFFFFFFF) ^^^ 0xFFFFFFFF

/-- CRC-32 of octets, as IEEE 802.3 takes it for the FCS: reflected polynomial 0xEDB8_8320, initial and final value all ones. -/
def crc32 (os : List Octet) : Nat :=
  (os.foldl (crcOctet 0xEDB88320) 0xFFFFFFFF) ^^^ 0xFFFFFFFF

/-- The FCS of a frame as it is sent, the least significant octet of the CRC first (R190; PRESUMED of IEEE 802.3, log 2). -/
def fcsOctets (os : List Octet) : List Octet := (octetsBE 4 (crc32 os)).reverse

/-- One bit of the CRC-8 with polynomial x^8 + x^2 + x + 1, most significant bit first. -/
def crc8Bit (c : Nat) : Nat := if c >= 128 then ((c <<< 1) ^^^ 0x07) % 256 else (c <<< 1) % 256

/-- CRC-8 of octets, initial value 0. -/
def crc8 (os : List Octet) : Nat :=
  os.foldl (fun c o => Nat.iterate crc8Bit 8 (c ^^^ o.toNat)) 0

/-! ### Sparse tables -/

/-- The value under key `k` of a sparse table whose unlisted keys hold `d k`. -/
def tabGet {α : Type} (d : Nat → α) : List (Nat × α) → Nat → α
  | [], k => d k
  | (a, x) :: t, k => if a = k then x else tabGet d t k

/-- Insertion in rising key order. -/
def tabInsert {α : Type} (k : Nat) (v : α) : List (Nat × α) → List (Nat × α)
  | [] => [(k, v)]
  | (a, x) :: t =>
    if k < a then (k, v) :: (a, x) :: t
    else if a = k then (k, v) :: t
    else (a, x) :: tabInsert k v t

/-- The table without key `k`. -/
def tabErase {α : Type} (k : Nat) (t : List (Nat × α)) : List (Nat × α) := t.filter fun p => p.1 ≠ k

/-- The table with `v` under `k`: an entry equal to what an unlisted key holds is not listed. -/
def tabPut {α : Type} [DecidableEq α] (d : Nat → α) (k : Nat) (v : α) (t : List (Nat × α)) : List (Nat × α) :=
  if v = d k then tabErase k t else tabInsert k v t

/-- The table with every key that satisfies `p` back at its default. -/
def tabClear {α : Type} (p : Nat → Bool) (t : List (Nat × α)) : List (Nat × α) := t.filter fun e => !p e.1

/-- The canonical form of a sparse table: keys strictly rising, no entry equal to its default. -/
def tabWf {α : Type} [DecidableEq α] (d : Nat → α) (t : List (Nat × α)) : Bool :=
  (t.map Prod.fst).Pairwise (· < ·) && t.all fun e => e.2 ≠ d e.1

/-! ### Lists -/

/-- `l` with every element that satisfies `p` replaced. -/
def listModify {α : Type} (p : α → Bool) (f : α → α) (l : List α) : List α := l.map fun x => if p x then f x else x

/-- The least number below `n` that satisfies `p`. -/
def findLt (n : Nat) (p : Nat → Bool) : Option Nat := (List.range n).find? p

end Sys2Proof.Machine
end

