-- ==== Sys2Proof/Machine/RegMap.lean ====
section
/-! DEFINITION. The P-space register map: every register table of the spec as addresses (R7, R17), and every field table
as bit ranges (R3). A replicated register is a function of its index. `regMap` gives each register's reset value, reset
domain and access masks (R8 to R12), one list per block. The tables named beside each list are the spec's own. -/

namespace Sys2Proof.Machine

/-! ### Addresses -/

/-- MOD_PART (R20). -/
def Reg.modPart : Nat := 0x0
/-- MOD_SERIAL_HI (R20). -/
def Reg.modSerialHi : Nat := 0x1
/-- MOD_SERIAL_LO (R20). -/
def Reg.modSerialLo : Nat := 0x2
/-- MOD_STATE (R20). -/
def Reg.modState : Nat := 0x3
/-- RT_SEC (R62). -/
def Reg.rtSec : Nat := 0x10000
/-- RT_NOWF (R62). -/
def Reg.rtNowf : Nat := 0x10001
/-- RT_STAT (R62). -/
def Reg.rtStat : Nat := 0x10002
/-- RT_CTL (R62). -/
def Reg.rtCtl : Nat := 0x10003
/-- RT_NEXTSEC (R62). -/
def Reg.rtNextsec : Nat := 0x10004
/-- RT_PHASE (R62). -/
def Reg.rtPhase : Nat := 0x10005
/-- RT_FREQ (R62). -/
def Reg.rtFreq : Nat := 0x10006
/-- RT_HOLDOVER (R62). -/
def Reg.rtHoldover : Nat := 0x10007
/-- RT_OUTLIERS (R62). -/
def Reg.rtOutliers : Nat := 0x10008
/-- RT_UTCOFF (R62). -/
def Reg.rtUtcoff : Nat := 0x10009
/-- BELL_ARMED (R63). -/
def Reg.bellArmed : Nat := 0x20000
/-- GATE_USED (R63). -/
def Reg.gateUsed : Nat := 0x20001
/-- BELL_PENDING (R63). -/
def Reg.bellPending : Nat := 0x20002
/-- BELL_TSEC (R63). -/
def Reg.bellTsec (i : Nat) : Nat := 0x21000 + 0x4 * i
/-- BELL_TFRAC (R63). -/
def Reg.bellTfrac (i : Nat) : Nat := 0x21001 + 0x4 * i
/-- BELL_ACT (R63). -/
def Reg.bellAct (i : Nat) : Nat := 0x21002 + 0x4 * i
/-- BELL_STAT (R63). -/
def Reg.bellStat (i : Nat) : Nat := 0x21003 + 0x4 * i
/-- GATE_KEY (R63). -/
def Reg.gateKey (i : Nat) : Nat := 0x28000 + 0x8 * i
/-- GATE_OPEN_SEC (R63). -/
def Reg.gateOpenSec (i : Nat) : Nat := 0x28001 + 0x8 * i
/-- GATE_OPEN_FRAC (R63). -/
def Reg.gateOpenFrac (i : Nat) : Nat := 0x28002 + 0x8 * i
/-- GATE_CLOSE_SEC (R63). -/
def Reg.gateCloseSec (i : Nat) : Nat := 0x28003 + 0x8 * i
/-- GATE_CLOSE_FRAC (R63). -/
def Reg.gateCloseFrac (i : Nat) : Nat := 0x28004 + 0x8 * i
/-- GATE_STAT (R63). -/
def Reg.gateStat (i : Nat) : Nat := 0x28005 + 0x8 * i
/-- GATE_ACCEPTED (R63). -/
def Reg.gateAccepted (i : Nat) : Nat := 0x28006 + 0x8 * i
/-- GATE_CLOSEDREF (R63). -/
def Reg.gateClosedref (i : Nat) : Nat := 0x28007 + 0x8 * i
/-- PRT_STAT (R100). -/
def Reg.prtStat (i : Nat) : Nat := 0x40000 + 0x100 * i
/-- PRT_MAC (R100). -/
def Reg.prtMac (i : Nat) : Nat := 0x40001 + 0x100 * i
/-- PRT_CTL (R100). -/
def Reg.prtCtl (i : Nat) : Nat := 0x40002 + 0x100 * i
/-- PRT_TENMASK (R100). -/
def Reg.prtTenmask (i : Nat) : Nat := 0x40003 + 0x100 * i
/-- PRT_PTPTX_SEC (R100). -/
def Reg.prtPtptxSec (i : Nat) : Nat := 0x40004 + 0x100 * i
/-- PRT_PTPTX_FRAC (R100). -/
def Reg.prtPtptxFrac (i : Nat) : Nat := 0x40005 + 0x100 * i
/-- PRT_RESET (R100). -/
def Reg.prtReset (i : Nat) : Nat := 0x40006 + 0x100 * i
/-- PRT_RXFRAMES (R100). -/
def Reg.prtRxframes (i : Nat) : Nat := 0x40008 + 0x100 * i
/-- PRT_RXLCP (R100). -/
def Reg.prtRxlcp (i : Nat) : Nat := 0x40009 + 0x100 * i
/-- PRT_RXDROP (R100). -/
def Reg.prtRxdrop (i : Nat) : Nat := 0x4000A + 0x100 * i
/-- PRT_NAKTX (R100). -/
def Reg.prtNaktx (i : Nat) : Nat := 0x4000B + 0x100 * i
/-- PRT_NAKRX (R100). -/
def Reg.prtNakrx (i : Nat) : Nat := 0x4000C + 0x100 * i
/-- PRT_RETX (R100). -/
def Reg.prtRetx (i : Nat) : Nat := 0x4000D + 0x100 * i
/-- PRT_PLAINDROP (R100). -/
def Reg.prtPlaindrop (i : Nat) : Nat := 0x4000E + 0x100 * i
/-- PRT_FECCORR (R100). -/
def Reg.prtFeccorr (i : Nat) : Nat := 0x4000F + 0x100 * i
/-- SES_STAT (R101). -/
def Reg.sesStat (i : Nat) : Nat := 0x60000 + 0x20 * i
/-- SES_PID_HI (R101). -/
def Reg.sesPidHi (i : Nat) : Nat := 0x60001 + 0x20 * i
/-- SES_PID_LO (R101). -/
def Reg.sesPidLo (i : Nat) : Nat := 0x60002 + 0x20 * i
/-- SES_H_HI (R101). -/
def Reg.sesHHi (i : Nat) : Nat := 0x60003 + 0x20 * i
/-- SES_H_LO (R101). -/
def Reg.sesHLo (i : Nat) : Nat := 0x60004 + 0x20 * i
/-- SES_PEER (R101). -/
def Reg.sesPeer (i : Nat) : Nat := 0x60005 + 0x20 * i
/-- SES_CTL (R101). -/
def Reg.sesCtl (i : Nat) : Nat := 0x60006 + 0x20 * i
/-- SES_PEND (R101). -/
def Reg.sesPend (i : Nat) : Nat := 0x60007 + 0x20 * i
/-- SES_TXSEQ (R101). -/
def Reg.sesTxseq (i : Nat) : Nat := 0x60008 + 0x20 * i
/-- SES_RXSEQ (R101). -/
def Reg.sesRxseq (i : Nat) : Nat := 0x60009 + 0x20 * i
/-- SES_CREDIT (R101). -/
def Reg.sesCredit (i : Nat) : Nat := 0x6000A + 0x20 * i
/-- SES_RCREDIT (R101). -/
def Reg.sesRcredit (i : Nat) : Nat := 0x6000B + 0x20 * i
/-- ACC_STAT (R128). -/
def Reg.accStat : Nat := 0x80000
/-- ACC_LASTF_HI (R128). -/
def Reg.accLastfHi : Nat := 0x80001
/-- ACC_LASTF_LO (R128). -/
def Reg.accLastfLo : Nat := 0x80002
/-- ACC_JUDGED (R128). -/
def Reg.accJudged : Nat := 0x80003
/-- ACC_PEAK (R128). -/
def Reg.accPeak : Nat := 0x80004
/-- ACC_CTL (R129). -/
def Reg.accCtl (i : Nat) : Nat := 0x81000 + 0x100 * i
/-- ACC_DBBASE (R129). -/
def Reg.accDbbase (i : Nat) : Nat := 0x81001 + 0x100 * i
/-- ACC_DBSIZE (R129). -/
def Reg.accDbsize (i : Nat) : Nat := 0x81002 + 0x100 * i
/-- ACC_HEAD (R129). -/
def Reg.accHead (i : Nat) : Nat := 0x81003 + 0x100 * i
/-- ACC_TAIL (R129). -/
def Reg.accTail (i : Nat) : Nat := 0x81004 + 0x100 * i
/-- ACC_RELPTR (R129). -/
def Reg.accRelptr (i : Nat) : Nat := 0x81005 + 0x100 * i
/-- ACC_USED (R129). -/
def Reg.accUsed (i : Nat) : Nat := 0x81006 + 0x100 * i
/-- ACC_QUOTA (R129). -/
def Reg.accQuota (i : Nat) : Nat := 0x81007 + 0x100 * i
/-- ACC_NEXT_HI (R129). -/
def Reg.accNextHi (i : Nat) : Nat := 0x81008 + 0x100 * i
/-- ACC_NEXT_LO (R129). -/
def Reg.accNextLo (i : Nat) : Nat := 0x81009 + 0x100 * i
/-- ACC_RELMARK_HI (R129). -/
def Reg.accRelmarkHi (i : Nat) : Nat := 0x8100A + 0x100 * i
/-- ACC_RELMARK_LO (R129). -/
def Reg.accRelmarkLo (i : Nat) : Nat := 0x8100B + 0x100 * i
/-- ACC_RELF_HI (R129). -/
def Reg.accRelfHi (i : Nat) : Nat := 0x8100C + 0x100 * i
/-- ACC_RELF_LO (R129). -/
def Reg.accRelfLo (i : Nat) : Nat := 0x8100D + 0x100 * i
/-- ACC_BP (R129). -/
def Reg.accBp (i : Nat) : Nat := 0x8100E + 0x100 * i
/-- ACC_LASTW (R129). -/
def Reg.accLastw (i : Nat) : Nat := 0x8100F + 0x100 * i
/-- ACC_ACCEPTED (R129). -/
def Reg.accAccepted (i : Nat) : Nat := 0x81010 + 0x100 * i
/-- ACC_REFUSED (R129). -/
def Reg.accRefused (i : Nat) : Nat := 0x81011 + 0x100 * i
/-- ACC_DUPLICATE (R129). -/
def Reg.accDuplicate (i : Nat) : Nat := 0x81012 + 0x100 * i
/-- ACC_SPACEREF (R129). -/
def Reg.accSpaceref (i : Nat) : Nat := 0x81013 + 0x100 * i
/-- ACC_ERR (R129). -/
def Reg.accErr (i : Nat) : Nat := 0x81014 + 0x100 * i
/-- TWN_STAT (R161). -/
def Reg.twnStat : Nat := 0xA0000
/-- TWN_EPOCH (R161). -/
def Reg.twnEpoch : Nat := 0xA0001
/-- TWN_PEEREPOCH (R161). -/
def Reg.twnPeerepoch : Nat := 0xA0002
/-- TWN_CTL (R161). -/
def Reg.twnCtl : Nat := 0xA0003
/-- TWN_HOLDOFF (R161). -/
def Reg.twnHoldoff : Nat := 0xA0004
/-- TWN_ALARM (R161). -/
def Reg.twnAlarm : Nat := 0xA0005
/-- TWN_ACKF_HI (R161). -/
def Reg.twnAckfHi : Nat := 0xA0006
/-- TWN_ACKF_LO (R161). -/
def Reg.twnAckfLo : Nat := 0xA0007
/-- TWN_LAG (R161). -/
def Reg.twnLag : Nat := 0xA0008
/-- TWN_SKEW (R161). -/
def Reg.twnSkew : Nat := 0xA0009
/-- TWN_LOST (R161). -/
def Reg.twnLost : Nat := 0xA000A
/-- TWN_HEALTHY (R161). -/
def Reg.twnHealthy : Nat := 0xA000B
/-- TWN_PEERSER_HI (R161). -/
def Reg.twnPeerserHi : Nat := 0xA000C
/-- TWN_PEERSER_LO (R161). -/
def Reg.twnPeerserLo : Nat := 0xA000D
/-- TWN_MIRPAGE (R161). -/
def Reg.twnMirpage : Nat := 0xA000E
/-- TWN_MIRSTAT (R161). -/
def Reg.twnMirstat : Nat := 0xA000F
/-- TWN_MIRBUDGET (R161). -/
def Reg.twnMirbudget : Nat := 0xA0010
/-- TWN_MIRLINES (R161). -/
def Reg.twnMirlines : Nat := 0xA0011
/-- TWN_BACKLOG (R161). -/
def Reg.twnBacklog : Nat := 0xA0012
/-- TWN_SYNC (R161). -/
def Reg.twnSync : Nat := 0xA0013
/-- TWN_PULSEERR (R161). -/
def Reg.twnPulseerr : Nat := 0xA0014
/-- TWN_LINKERR (R161). -/
def Reg.twnLinkerr : Nat := 0xA0015
/-- TWN_EPOCHS (R161). -/
def Reg.twnEpochs : Nat := 0xA0016
/-- SEAL_STAT (R176). -/
def Reg.sealStat : Nat := 0x260000
/-- SEAL_CTL (R176). -/
def Reg.sealCtl : Nat := 0x260001
/-- SEAL_RBASE (R176). -/
def Reg.sealRbase : Nat := 0x260002
/-- SEAL_RSIZE (R176). -/
def Reg.sealRsize : Nat := 0x260003
/-- SEAL_HEAD (R176). -/
def Reg.sealHead : Nat := 0x260004
/-- SEAL_TAIL (R176). -/
def Reg.sealTail : Nat := 0x260005
/-- SEAL_USED (R176). -/
def Reg.sealUsed : Nat := 0x260006
/-- SEAL_LASTV (R176). -/
def Reg.sealLastv : Nat := 0x260007
/-- SEAL_LASTNO (R176). -/
def Reg.sealLastno : Nat := 0x260008
/-- SEAL_BACKLOG (R176). -/
def Reg.sealBacklog : Nat := 0x260009
/-- SEAL_KEYID (R176). -/
def Reg.sealKeyid : Nat := 0x26000A
/-- SEAL_PEERKEYID (R176). -/
def Reg.sealPeerkeyid : Nat := 0x26000B
/-- SEAL_VERIFIED (R176). -/
def Reg.sealVerified : Nat := 0x26000C
/-- SEAL_VERFAIL (R176). -/
def Reg.sealVerfail : Nat := 0x26000D
/-- SEAL_ERR (R176). -/
def Reg.sealErr : Nat := 0x26000E
/-- CE_STAT (R200). -/
def Reg.ceStat (i : Nat) : Nat := 0x200000 + 0x100 * i
/-- CE_CTL (R200). -/
def Reg.ceCtl (i : Nat) : Nat := 0x200001 + 0x100 * i
/-- CE_JOB (R200). -/
def Reg.ceJob (i : Nat) : Nat := 0x200002 + 0x100 * i
/-- CE_SLIPPC (R200). -/
def Reg.ceSlippc (i : Nat) : Nat := 0x200003 + 0x100 * i
/-- CE_SLIPS (R200). -/
def Reg.ceSlips (i : Nat) : Nat := 0x200004 + 0x100 * i
/-- CE_BUSY (R200). -/
def Reg.ceBusy (i : Nat) : Nat := 0x200005 + 0x100 * i
/-- CE_FAULTS (R200). -/
def Reg.ceFaults (i : Nat) : Nat := 0x200006 + 0x100 * i
/-- CE_QUANTUM (R200). -/
def Reg.ceQuantum : Nat := 0x204000
/-- CE_LIVE (R200). -/
def Reg.ceLive : Nat := 0x204001
/-- CE_READY (R200). -/
def Reg.ceReady : Nat := 0x204002
/-- CE_WAITING (R200). -/
def Reg.ceWaiting : Nat := 0x204003
/-- CE_DEFER (R200). -/
def Reg.ceDefer : Nat := 0x204004
/-- CE_DOORS (R200). -/
def Reg.ceDoors : Nat := 0x204005
/-- CE_REFUSED (R200). -/
def Reg.ceRefused : Nat := 0x204006
/-- TEN_STAT (R220). -/
def Reg.tenStat (i : Nat) : Nat := 0xC0000 + 0x400 * i
/-- TEN_CTL (R220). -/
def Reg.tenCtl (i : Nat) : Nat := 0xC0001 + 0x400 * i
/-- TEN_CARMAX (R220). -/
def Reg.tenCarmax (i : Nat) : Nat := 0xC0002 + 0x400 * i
/-- TEN_CARREQ (R220). -/
def Reg.tenCarreq (i : Nat) : Nat := 0xC0003 + 0x400 * i
/-- TEN_CARRES (R220). -/
def Reg.tenCarres (i : Nat) : Nat := 0xC0004 + 0x400 * i
/-- TEN_CQNEXT (R220). -/
def Reg.tenCqnext (i : Nat) : Nat := 0xC0005 + 0x400 * i
/-- TEN_RESET (R220). -/
def Reg.tenReset (i : Nat) : Nat := 0xC0006 + 0x400 * i
/-- TEN_MPLBASE (R220). -/
def Reg.tenMplbase (i : Nat) : Nat := 0xC0008 + 0x400 * i
/-- TEN_MPLHEAD (R220). -/
def Reg.tenMplhead (i : Nat) : Nat := 0xC0009 + 0x400 * i
/-- TEN_MPLTAIL (R220). -/
def Reg.tenMpltail (i : Nat) : Nat := 0xC000A + 0x400 * i
/-- TEN_MPBMBASE (R220). -/
def Reg.tenMpbmbase (i : Nat) : Nat := 0xC000B + 0x400 * i
/-- TEN_MPBMSIZE (R220). -/
def Reg.tenMpbmsize (i : Nat) : Nat := 0xC000C + 0x400 * i
/-- TEN_MPLCTL (R220). -/
def Reg.tenMplctl (i : Nat) : Nat := 0xC000D + 0x400 * i
/-- CAR_STAT (R221). -/
def Reg.carStat (i : Nat) : Nat := 0x100000 + 0x40 * i
/-- CAR_CTL (R221). -/
def Reg.carCtl (i : Nat) : Nat := 0x100001 + 0x40 * i
/-- CAR_CTX (R221). -/
def Reg.carCtx (i : Nat) : Nat := 0x100002 + 0x40 * i
/-- CAR_WINBASE (R221). -/
def Reg.carWinbase (i : Nat) : Nat := 0x100003 + 0x40 * i
/-- CAR_WINSIZE (R221). -/
def Reg.carWinsize (i : Nat) : Nat := 0x100004 + 0x40 * i
/-- CAR_CQBASE (R221). -/
def Reg.carCqbase (i : Nat) : Nat := 0x100005 + 0x40 * i
/-- CAR_CQSIZE (R221). -/
def Reg.carCqsize (i : Nat) : Nat := 0x100006 + 0x40 * i
/-- CAR_CQHEAD (R221). -/
def Reg.carCqhead (i : Nat) : Nat := 0x100007 + 0x40 * i
/-- CAR_CQTAIL (R221). -/
def Reg.carCqtail (i : Nat) : Nat := 0x100008 + 0x40 * i
/-- CAR_GEN (R221). -/
def Reg.carGen (i : Nat) : Nat := 0x100009 + 0x40 * i
/-- CAR_RESET (R221). -/
def Reg.carReset (i : Nat) : Nat := 0x10000A + 0x40 * i
/-- CAR_ERR (R221). -/
def Reg.carErr (i : Nat) : Nat := 0x10000B + 0x40 * i
/-- CAR_DOORS (R221). -/
def Reg.carDoors (i : Nat) : Nat := 0x10000C + 0x40 * i
/-- CAR_DONE (R221). -/
def Reg.carDone (i : Nat) : Nat := 0x10000D + 0x40 * i
/-- CAR_DROPPED (R221). -/
def Reg.carDropped (i : Nat) : Nat := 0x10000E + 0x40 * i
/-- CORE_XROOT in the self window (R238). -/
def Reg.coreXroot : Nat := 0x2FF000
/-- CORE_XROOT_SR in the self window (R238). -/
def Reg.coreXrootSr : Nat := 0x2FF001
/-- CORE_XFLUSH in the self window (R238). -/
def Reg.coreXflush : Nat := 0x2FF002
/-- CORE_NSSTAT in the self window (R300). -/
def Reg.coreNsstat : Nat := 0x2FF010
/-- CORE_NS_SKIPPED in the self window (R300). -/
def Reg.coreNsSkipped : Nat := 0x2FF011
/-- CORE_PRED in the self window (R300). -/
def Reg.corePred : Nat := 0x2FF012
/-- CORE_PMCTL in the self window (R300). -/
def Reg.corePmctl : Nat := 0x2FF014
/-- CORE_PMC0 in the self window (R300). -/
def Reg.corePmc0 : Nat := 0x2FF015
/-- CORE_PMC1 in the self window (R300). -/
def Reg.corePmc1 : Nat := 0x2FF016
/-- CORE_PMC2 in the self window (R300). -/
def Reg.corePmc2 : Nat := 0x2FF017
/-- CORE_PMC3 in the self window (R300). -/
def Reg.corePmc3 : Nat := 0x2FF018
/-- CLU_STAT (R320). -/
def Reg.cluStat (i : Nat) : Nat := 0x2C0000 + 0x1000 * i
/-- CLU_CTL (R320). -/
def Reg.cluCtl (i : Nat) : Nat := 0x2C0001 + 0x1000 * i
/-- CLU_BISTREQ (R320). -/
def Reg.cluBistreq (i : Nat) : Nat := 0x2C0002 + 0x1000 * i
/-- CLU_BISTRES (R320). -/
def Reg.cluBistres (i : Nat) : Nat := 0x2C0003 + 0x1000 * i
/-- CLU_LASTEV (R320). -/
def Reg.cluLastev (i : Nat) : Nat := 0x2C0004 + 0x1000 * i
/-- CLU_RETRIES (R320). -/
def Reg.cluRetries (i : Nat) : Nat := 0x2C0005 + 0x1000 * i
/-- CLU_SPARINGS (R320). -/
def Reg.cluSparings (i : Nat) : Nat := 0x2C0006 + 0x1000 * i
/-- CLU_SELFTEST (R320). -/
def Reg.cluSelftest (i : Nat) : Nat := 0x2C0007 + 0x1000 * i
/-- CLU_PARKBASE (R320). -/
def Reg.cluParkbase (i : Nat) : Nat := 0x2C0008 + 0x1000 * i
/-- CLU_DBG (R320). -/
def Reg.cluDbg (i : Nat) : Nat := 0x2C0009 + 0x1000 * i
/-- CLU_SEAT (R320). -/
def Reg.cluSeat (i j : Nat) : Nat := 0x2C0100 + 0x1000 * i + 0x10 * j
/-- CLU_SEATRESET (R320). -/
def Reg.cluSeatreset (i j : Nat) : Nat := 0x2C0101 + 0x1000 * i + 0x10 * j
/-- CLU_UNIT (R320). -/
def Reg.cluUnit (i j : Nat) : Nat := 0x2C0400 + 0x1000 * i + 0x4 * j
/-- MEM_STAT (R336). -/
def Reg.memStat : Nat := 0x2A0000
/-- MEM_CTL (R336). -/
def Reg.memCtl : Nat := 0x2A0001
/-- MEM_ALARM (R336). -/
def Reg.memAlarm : Nat := 0x2A0002
/-- MEM_CORR (R336). -/
def Reg.memCorr : Nat := 0x2A0003
/-- MEM_REBUILT (R336). -/
def Reg.memRebuilt : Nat := 0x2A0004
/-- MEM_POISONED (R336). -/
def Reg.memPoisoned : Nat := 0x2A0005
/-- MEM_LASTPOISON (R336). -/
def Reg.memLastpoison : Nat := 0x2A0006
/-- MEM_SCRUB (R336). -/
def Reg.memScrub : Nat := 0x2A0007
/-- MEM_CHGREQ (R336). -/
def Reg.memChgreq : Nat := 0x2A0008
/-- MEM_CHGRES (R336). -/
def Reg.memChgres : Nat := 0x2A0009
/-- MEM_SRPAGE (R336). -/
def Reg.memSrpage : Nat := 0x2A000A
/-- MEM_SRSTAT (R336). -/
def Reg.memSrstat : Nat := 0x2A000B
/-- MEM_GRP (R336). -/
def Reg.memGrp (i : Nat) : Nat := 0x2A0080 + 0x1 * i
/-- MEM_DEV (R336). -/
def Reg.memDev (i : Nat) : Nat := 0x2A0100 + 0x10 * i
/-- MEM_DEVCORR (R336). -/
def Reg.memDevcorr (i : Nat) : Nat := 0x2A0101 + 0x10 * i
/-- MEM_DEVTRAIN (R336). -/
def Reg.memDevtrain (i : Nat) : Nat := 0x2A0102 + 0x10 * i
/-- SR_STAT (R358). -/
def Reg.srStat : Nat := 0x380000
/-- SR_BOOT (R358). -/
def Reg.srBoot : Nat := 0x380001
/-- SR_COMMIT (R358). -/
def Reg.srCommit : Nat := 0x380002
/-- SR_SWD (R358). -/
def Reg.srSwd : Nat := 0x380003
/-- SR_RESTARTS (R358). -/
def Reg.srRestarts : Nat := 0x380004
/-- SR_HOME (R358). -/
def Reg.srHome : Nat := 0x380005
/-- SR_MONVEC (R358). -/
def Reg.srMonvec : Nat := 0x380006
/-- SR_RSTCAUSE (R358). -/
def Reg.srRstcause : Nat := 0x380007
/-- SR_FUSECTL (R358). -/
def Reg.srFusectl : Nat := 0x380008
/-- SR_FUSESTAT (R358). -/
def Reg.srFusestat : Nat := 0x380009
/-- SR_FUSEDATA (R358). -/
def Reg.srFusedata (i : Nat) : Nat := 0x380010 + 0x1 * i
/-- SR_MEAS (R358). -/
def Reg.srMeas (i j : Nat) : Nat := 0x380020 + 0x10 * i + 0x1 * j
/-- SR_LOGCNT (R358). -/
def Reg.srLogcnt : Nat := 0x3800A0
/-- SR_LOGIDX (R358). -/
def Reg.srLogidx : Nat := 0x3800A1
/-- SR_LOGWIN (R358). -/
def Reg.srLogwin (i : Nat) : Nat := 0x3800A2 + 0x1 * i
/-- SR_TWINKEY (R358). -/
def Reg.srTwinkey (i : Nat) : Nat := 0x3800C0 + 0x1 * i
/-- SR_ATTR_PORT (R358). -/
def Reg.srAttrPort (i : Nat) : Nat := 0x380100 + 0x1 * i
/-- SR_ATTR_CE (R358). -/
def Reg.srAttrCe (i : Nat) : Nat := 0x380200 + 0x1 * i
/-- SR_ATTR_KL (R358). -/
def Reg.srAttrKl (i : Nat) : Nat := 0x380240 + 0x1 * i
/-- SR_ATTR_XL (R358). -/
def Reg.srAttrXl (i : Nat) : Nat := 0x380248 + 0x1 * i
/-- SR_ATTR_PIN (R358). -/
def Reg.srAttrPin : Nat := 0x380250
/-- SR_ATTR_FIXED (R358). -/
def Reg.srAttrFixed : Nat := 0x380251
/-- SR_LEASE (R358). -/
def Reg.srLease (i : Nat) : Nat := 0x380300 + 0x1 * i
/-- KX_STAT (R370). -/
def Reg.kxStat : Nat := 0x240000
/-- KX_ROLLEV (R370). -/
def Reg.kxRollev : Nat := 0x240001
/-- KX_TWINSLOT (R370). -/
def Reg.kxTwinslot : Nat := 0x240002
/-- KX_FAULTS (R370). -/
def Reg.kxFaults : Nat := 0x240003
/-- KX_LSTAT (R370). -/
def Reg.kxLstat (i : Nat) : Nat := 0x240010 + 0x10 * i
/-- KX_LCTL (R370). -/
def Reg.kxLctl (i : Nat) : Nat := 0x240011 + 0x10 * i
/-- KX_LJOBS (R370). -/
def Reg.kxLjobs (i : Nat) : Nat := 0x240012 + 0x10 * i
/-- KX_LOCTETS (R370). -/
def Reg.kxLoctets (i : Nat) : Nat := 0x240013 + 0x10 * i
/-- KX_SOWN (R370). -/
def Reg.kxSown (i : Nat) : Nat := 0x241000 + 0x8 * i
/-- KX_SSTAT (R370). -/
def Reg.kxSstat (i : Nat) : Nat := 0x241001 + 0x8 * i
/-- KX_SFIXED (R370). -/
def Reg.kxSfixed (i : Nat) : Nat := 0x241002 + 0x8 * i
/-- KX_SCTR_HI (R370). -/
def Reg.kxSctrHi (i : Nat) : Nat := 0x241003 + 0x8 * i
/-- KX_SCTR_LO (R370). -/
def Reg.kxSctrLo (i : Nat) : Nat := 0x241004 + 0x8 * i
/-- KX_SUSED (R370). -/
def Reg.kxSused (i : Nat) : Nat := 0x241005 + 0x8 * i
/-- KX_SLIMIT (R370). -/
def Reg.kxSlimit (i : Nat) : Nat := 0x241006 + 0x8 * i
/-- KX_SCLR (R370). -/
def Reg.kxSclr (i : Nat) : Nat := 0x241007 + 0x8 * i
/-- CX_STAT (R382). -/
def Reg.cxStat : Nat := 0x280000
/-- CX_FAULTS (R382). -/
def Reg.cxFaults : Nat := 0x280001
/-- CX_NOFIT (R382). -/
def Reg.cxNofit : Nat := 0x280002
/-- CX_LIMITS (R382). -/
def Reg.cxLimits : Nat := 0x280003
/-- CX_LSTAT (R382). -/
def Reg.cxLstat (i : Nat) : Nat := 0x280010 + 0x10 * i
/-- CX_LCTL (R382). -/
def Reg.cxLctl (i : Nat) : Nat := 0x280011 + 0x10 * i
/-- CX_LJOBS (R382). -/
def Reg.cxLjobs (i : Nat) : Nat := 0x280012 + 0x10 * i
/-- CX_LINOCT (R382). -/
def Reg.cxLinoct (i : Nat) : Nat := 0x280013 + 0x10 * i
/-- CX_LOUTOCT (R382). -/
def Reg.cxLoutoct (i : Nat) : Nat := 0x280014 + 0x10 * i
/-- UC_STAT (R394). -/
def Reg.ucStat : Nat := 0x360000
/-- UC_ROMID (R394). -/
def Reg.ucRomid : Nat := 0x360001
/-- UC_TVER (R394). -/
def Reg.ucTver : Nat := 0x360002
/-- UC_CTL (R394). -/
def Reg.ucCtl : Nat := 0x360003
/-- UC_LOADADDR (R394). -/
def Reg.ucLoadaddr : Nat := 0x360004
/-- UC_RES (R394). -/
def Reg.ucRes : Nat := 0x360005
/-- UC_FAULTS (R394). -/
def Reg.ucFaults : Nat := 0x360006
/-- UC_MATCH (R394). -/
def Reg.ucMatch (i : Nat) : Nat := 0x360010 + 0x1 * i
/-- EN_STAT (R409). -/
def Reg.enStat : Nat := 0x300000
/-- EN_CTL (R409). -/
def Reg.enCtl : Nat := 0x300001
/-- EN_PURSE (R409). -/
def Reg.enPurse : Nat := 0x300002
/-- EN_PURSENEXT (R409). -/
def Reg.enPursenext : Nat := 0x300003
/-- EN_ALARM (R409). -/
def Reg.enAlarm : Nat := 0x300004
/-- EN_CLK (R409). -/
def Reg.enClk : Nat := 0x300005
/-- EN_CLKFLOOR (R409). -/
def Reg.enClkfloor : Nat := 0x300006
/-- EN_PERIODSPEND (R409). -/
def Reg.enPeriodspend : Nat := 0x300007
/-- EN_LASTPERIOD (R409). -/
def Reg.enLastperiod : Nat := 0x300008
/-- EN_PERIODS (R409). -/
def Reg.enPeriods : Nat := 0x300009
/-- EN_PROJ (R409). -/
def Reg.enProj (i : Nat) : Nat := 0x300010 + 0x1 * i
/-- EN_CTALLY (R409). -/
def Reg.enCtally (i : Nat) : Nat := 0x300014 + 0x1 * i
/-- EN_TTALLY (R409). -/
def Reg.enTtally (i : Nat) : Nat := 0x300020 + 0x1 * i
/-- EN_TEN (R409). -/
def Reg.enTen (i : Nat) : Nat := 0x300030 + 0x1 * i
/-- EN_TALLY (R409). -/
def Reg.enTally (i : Nat) : Nat := 0x300040 + 0x1 * i
/-- EN_GATE (R409). -/
def Reg.enGate (i : Nat) : Nat := 0x3000C0 + 0x1 * i
/-- STK_STAT (R424). -/
def Reg.stkStat : Nat := 0x320000
/-- STK_CTL (R424). -/
def Reg.stkCtl : Nat := 0x320001
/-- STK_FIRE (R424). -/
def Reg.stkFire : Nat := 0x320002
/-- STK_ARM (R424). -/
def Reg.stkArm : Nat := 0x320003
/-- STK_TSEC (R424). -/
def Reg.stkTsec : Nat := 0x320004
/-- STK_TFRAC (R424). -/
def Reg.stkTfrac : Nat := 0x320005
/-- STK_COUNT (R424). -/
def Reg.stkCount : Nat := 0x320006
/-- STK_MISSED (R424). -/
def Reg.stkMissed : Nat := 0x320007
/-- STK_SNAPADDR (R424). -/
def Reg.stkSnapaddr : Nat := 0x320008
/-- STK_SNAPVAL (R424). -/
def Reg.stkSnapval : Nat := 0x320009
/-- INT_ROUTE (R425). -/
def Reg.intRoute (i : Nat) : Nat := 0x340000 + 0x2 * i
/-- INT_STAT (R425). -/
def Reg.intStat (i : Nat) : Nat := 0x340001 + 0x2 * i
/-- INT_RAISE (R425). -/
def Reg.intRaise : Nat := 0x340800
/-- INT_FAULT (R425). -/
def Reg.intFault : Nat := 0x340801
/-- INT_SEATLAST (R425). -/
def Reg.intSeatlast (i j : Nat) : Nat := 0x340900 + 0x10 * i + 0x1 * j
/-- INT_SEATLAST_SR (R425). -/
def Reg.intSeatlastSr (i j : Nat) : Nat := 0x340940 + 0x10 * i + 0x1 * j
/-- NOTE_STAT (R425). -/
def Reg.noteStat (i : Nat) : Nat := 0x341000 + 0x8 * i
/-- NOTE_HEAD0 (R425). -/
def Reg.noteHead0 (i : Nat) : Nat := 0x341001 + 0x8 * i
/-- NOTE_HEAD1 (R425). -/
def Reg.noteHead1 (i : Nat) : Nat := 0x341002 + 0x8 * i
/-- NOTE_HEAD2 (R425). -/
def Reg.noteHead2 (i : Nat) : Nat := 0x341003 + 0x8 * i
/-- NOTE_POP (R425). -/
def Reg.notePop (i : Nat) : Nat := 0x341004 + 0x8 * i
/-- NOTE_LOST (R425). -/
def Reg.noteLost (i : Nat) : Nat := 0x341005 + 0x8 * i
/-- SR_MBIN (R444). -/
def Reg.srMbin (i : Nat) : Nat := 0x3800B0 + 0x1 * i
/-- SR_MBSTAT (R444). -/
def Reg.srMbstat : Nat := 0x3800B6
/-- SR_MBOUT (R444). -/
def Reg.srMbout (i : Nat) : Nat := 0x3800B8 + 0x1 * i
/-- MOD_TEMP (R447). -/
def Reg.modTemp : Nat := 0x4
/-- MOD_SUPPLY (R447). -/
def Reg.modSupply : Nat := 0x5
/-- MOD_PINS (R447). -/
def Reg.modPins : Nat := 0x6
/-- MOD_ALERTEN (R447). -/
def Reg.modAlerten : Nat := 0x7

/-! ### Fields -/

/-! MOD_PART -/
def F.modPartPart : Fld := ⟨47, 32⟩
def F.modPartStep : Fld := ⟨31, 24⟩
def F.modPartPkg : Fld := ⟨23, 16⟩
/-! MOD_STATE -/
def F.modStatePref : Fld := ⟨8, 8⟩
def F.modStateSplit : Fld := ⟨7, 4⟩
def F.modStatePhase : Fld := ⟨3, 0⟩
/-! RT_STAT -/
def F.rtStatEnd : Fld := ⟨10, 10⟩
def F.rtStatRefact : Fld := ⟨9, 8⟩
def F.rtStatPpsmiss : Fld := ⟨6, 6⟩
def F.rtStatOutlier : Fld := ⟨5, 5⟩
def F.rtStatClkloss : Fld := ⟨4, 4⟩
def F.rtStatBadload : Fld := ⟨3, 3⟩
def F.rtStatState : Fld := ⟨2, 0⟩
/-! RT_CTL -/
def F.rtCtlRefsel : Fld := ⟨11, 10⟩
def F.rtCtlLoop : Fld := ⟨9, 8⟩
def F.rtCtlPpsen : Fld := ⟨7, 7⟩
def F.rtCtlForce : Fld := ⟨2, 2⟩
def F.rtCtlLoadnow : Fld := ⟨1, 1⟩
def F.rtCtlArm : Fld := ⟨0, 0⟩
/-! BELL_ACT -/
def F.bellActArm : Fld := ⟨47, 47⟩
def F.bellActAction : Fld := ⟨46, 43⟩
def F.bellActOwner : Fld := ⟨42, 39⟩
def F.bellActRepeat : Fld := ⟨38, 23⟩
def F.bellActTarget : Fld := ⟨11, 0⟩
/-! BELL_STAT -/
def F.bellStatErr : Fld := ⟨11, 8⟩
def F.bellStatLate : Fld := ⟨2, 2⟩
def F.bellStatFired : Fld := ⟨1, 1⟩
def F.bellStatPend : Fld := ⟨0, 0⟩
/-! GATE_KEY -/
def F.gateKeyEn : Fld := ⟨47, 47⟩
def F.gateKeyTenant : Fld := ⟨35, 32⟩
def F.gateKeyGame : Fld := ⟨11, 0⟩
/-! GATE_STAT -/
def F.gateStatErr : Fld := ⟨11, 8⟩
def F.gateStatPend : Fld := ⟨2, 2⟩
def F.gateStatState : Fld := ⟨1, 0⟩
/-! PRT_CTL -/
def F.prtCtlEn : Fld := ⟨47, 47⟩
def F.prtCtlMode : Fld := ⟨46, 45⟩
def F.prtCtlAn : Fld := ⟨44, 44⟩
def F.prtCtlFec : Fld := ⟨43, 42⟩
def F.prtCtlPtp : Fld := ⟨41, 41⟩
def F.prtCtlPlain : Fld := ⟨40, 40⟩
def F.prtCtlOwner : Fld := ⟨39, 36⟩
def F.prtCtlRto : Fld := ⟨35, 28⟩
def F.prtCtlIdle : Fld := ⟨27, 20⟩
def F.prtCtlEtype : Fld := ⟨15, 0⟩
/-! PRT_STAT -/
def F.prtStatOpen : Fld := ⟨12, 8⟩
def F.prtStatCfgerr : Fld := ⟨4, 4⟩
def F.prtStatFeclock : Fld := ⟨3, 3⟩
def F.prtStatAndone : Fld := ⟨2, 2⟩
def F.prtStatLink : Fld := ⟨1, 1⟩
def F.prtStatTxidle : Fld := ⟨0, 0⟩
/-! SES_STAT -/
def F.sesStatState : Fld := ⟨47, 46⟩
def F.sesStatPort : Fld := ⟨45, 38⟩
def F.sesStatTenant : Fld := ⟨37, 34⟩
def F.sesStatStorage : Fld := ⟨33, 33⟩
def F.sesStatStream : Fld := ⟨31, 24⟩
def F.sesStatErr : Fld := ⟨3, 0⟩
/-! SES_CTL -/
def F.sesCtlRetire : Fld := ⟨2, 2⟩
def F.sesCtlKick : Fld := ⟨1, 1⟩
def F.sesCtlStorage : Fld := ⟨0, 0⟩
/-! ACC_CTL -/
def F.accCtlEn : Fld := ⟨47, 47⟩
def F.accCtlRefrec : Fld := ⟨46, 46⟩
def F.accCtlKey : Fld := ⟨45, 42⟩
def F.accCtlMaxbody : Fld := ⟨31, 24⟩
def F.accCtlMinres : Fld := ⟨15, 0⟩
/-! ACC_BP -/
def F.accBpExh : Fld := ⟨4, 4⟩
def F.accBpSeal : Fld := ⟨3, 3⟩
def F.accBpReset : Fld := ⟨2, 2⟩
def F.accBpDisabled : Fld := ⟨1, 1⟩
def F.accBpSpace : Fld := ⟨0, 0⟩
/-! TWN_STAT -/
def F.twnStatHandover : Fld := ⟨17, 16⟩
def F.twnStatPending : Fld := ⟨13, 13⟩
def F.twnStatAlivein : Fld := ⟨12, 12⟩
def F.twnStatLease : Fld := ⟨11, 11⟩
def F.twnStatPatha : Fld := ⟨10, 10⟩
def F.twnStatPathb : Fld := ⟨9, 9⟩
def F.twnStatSynced : Fld := ⟨8, 8⟩
def F.twnStatPref : Fld := ⟨7, 7⟩
def F.twnStatPeerrole : Fld := ⟨6, 3⟩
def F.twnStatRole : Fld := ⟨2, 0⟩
/-! TWN_CTL -/
def F.twnCtlInit : Fld := ⟨7, 7⟩
def F.twnCtlHandreq : Fld := ⟨6, 6⟩
def F.twnCtlFence : Fld := ⟨5, 5⟩
def F.twnCtlHold : Fld := ⟨4, 4⟩
def F.twnCtlPaired : Fld := ⟨3, 3⟩
/-! TWN_MIRPAGE -/
def F.twnMirpageSet : Fld := ⟨47, 47⟩
def F.twnMirpagePage : Fld := ⟨19, 0⟩
/-! TWN_MIRSTAT -/
def F.twnMirstatErr : Fld := ⟨47, 44⟩
def F.twnMirstatSeeding : Fld := ⟨19, 19⟩
def F.twnMirstatCount : Fld := ⟨18, 0⟩
/-! SEAL_CTL -/
def F.sealCtlEn : Fld := ⟨47, 47⟩
def F.sealCtlKey : Fld := ⟨45, 42⟩
/-! SEAL_STAT -/
def F.sealStatSealstop : Fld := ⟨5, 5⟩
def F.sealStatVerfail : Fld := ⟨4, 4⟩
def F.sealStatBacklog : Fld := ⟨3, 3⟩
def F.sealStatRollfull : Fld := ⟨2, 2⟩
def F.sealStatPaused : Fld := ⟨1, 1⟩
def F.sealStatRun : Fld := ⟨0, 0⟩
/-! CE_STAT -/
def F.ceStatState : Fld := ⟨47, 46⟩
def F.ceStatSr : Fld := ⟨45, 45⟩
def F.ceStatTenant : Fld := ⟨43, 40⟩
def F.ceStatCarrel : Fld := ⟨39, 28⟩
/-! CE_CTL -/
def F.ceCtlReset : Fld := ⟨1, 1⟩
def F.ceCtlEn : Fld := ⟨0, 0⟩
/-! TEN_STAT -/
def F.tenStatCarrels : Fld := ⟨32, 20⟩
def F.tenStatLogcnt : Fld := ⟨16, 0⟩
def F.tenStatResetting : Fld := ⟨35, 35⟩
def F.tenStatCqerr : Fld := ⟨34, 34⟩
def F.tenStatLogovf : Fld := ⟨33, 33⟩
/-! TEN_CTL -/
def F.tenCtlEn : Fld := ⟨47, 47⟩
def F.tenCtlCert : Fld := ⟨46, 46⟩
def F.tenCtlInspect : Fld := ⟨45, 45⟩
def F.tenCtlNvt : Fld := ⟨44, 44⟩
def F.tenCtlDur : Fld := ⟨43, 42⟩
def F.tenCtlShare : Fld := ⟨41, 34⟩
def F.tenCtlKeys : Fld := ⟨15, 0⟩
/-! TEN_CARREQ -/
def F.tenCarreqOp : Fld := ⟨47, 46⟩
def F.tenCarreqCarrel : Fld := ⟨35, 24⟩
def F.tenCarreqPid : Fld := ⟨23, 0⟩
/-! TEN_CARRES -/
def F.tenCarresStatus : Fld := ⟨47, 44⟩
def F.tenCarresBusy : Fld := ⟨43, 43⟩
def F.tenCarresCarrel : Fld := ⟨11, 0⟩
/-! TEN_MPLCTL -/
def F.tenMplctlEn : Fld := ⟨47, 47⟩
def F.tenMplctlNewepoch : Fld := ⟨46, 46⟩
def F.tenMplctlClearing : Fld := ⟨45, 45⟩
def F.tenMplctlEpochno : Fld := ⟨7, 0⟩
/-! CAR_STAT -/
def F.carStatState : Fld := ⟨47, 46⟩
def F.carStatTenant : Fld := ⟨45, 42⟩
def F.carStatPid : Fld := ⟨41, 18⟩
def F.carStatOcc : Fld := ⟨17, 3⟩
def F.carStatCqerr : Fld := ⟨1, 1⟩
def F.carStatNew : Fld := ⟨0, 0⟩
/-! CAR_CTL -/
def F.carCtlInten : Fld := ⟨47, 47⟩
def F.carCtlShare : Fld := ⟨45, 38⟩
def F.carCtlQuota : Fld := ⟨14, 0⟩
/-! CORE_XFLUSH -/
def F.coreXflushAll : Fld := ⟨47, 47⟩
def F.coreXflushSr : Fld := ⟨46, 46⟩
def F.coreXflushPage : Fld := ⟨27, 0⟩
/-! CORE_NSSTAT -/
def F.coreNsstatLocked : Fld := ⟨12, 8⟩
def F.coreNsstatEvb : Fld := ⟨3, 0⟩
/-! CORE_PRED -/
def F.corePredSrbank : Fld := ⟨1, 1⟩
def F.corePredBar : Fld := ⟨0, 0⟩
/-! CORE_PMCTL -/
def F.corePmctlSr : Fld := ⟨47, 47⟩
def F.corePmctlEn : Fld := ⟨35, 32⟩
def F.corePmctlEv3 : Fld := ⟨31, 24⟩
def F.corePmctlEv2 : Fld := ⟨23, 16⟩
def F.corePmctlEv1 : Fld := ⟨15, 8⟩
def F.corePmctlEv0 : Fld := ⟨7, 0⟩
/-! CLU_STAT -/
def F.cluStatMode : Fld := ⟨47, 46⟩
def F.cluStatRotating : Fld := ⟨45, 45⟩
def F.cluStatNospare : Fld := ⟨44, 44⟩
def F.cluStatActive : Fld := ⟨43, 39⟩
def F.cluStatSpare : Fld := ⟨38, 34⟩
def F.cluStatFailed : Fld := ⟨33, 29⟩
/-! CLU_CTL -/
def F.cluCtlSplit : Fld := ⟨47, 47⟩
def F.cluCtlRoten : Fld := ⟨46, 46⟩
def F.cluCtlRotper : Fld := ⟨15, 0⟩
/-! CLU_LASTEV -/
def F.cluLastevCause : Fld := ⟨47, 44⟩
def F.cluLastevSeat : Fld := ⟨43, 40⟩
def F.cluLastevFrom : Fld := ⟨39, 35⟩
def F.cluLastevTo : Fld := ⟨34, 30⟩
def F.cluLastevRetries : Fld := ⟨29, 28⟩
/-! CLU_SEAT -/
def F.cluSeatState : Fld := ⟨47, 45⟩
def F.cluSeatUnit : Fld := ⟨44, 40⟩
def F.cluSeatTen : Fld := ⟨39, 36⟩
def F.cluSeatWld : Fld := ⟨35, 33⟩
/-! CLU_UNIT -/
def F.cluUnitState : Fld := ⟨47, 45⟩
def F.cluUnitSeat : Fld := ⟨44, 41⟩
def F.cluUnitLastcause : Fld := ⟨40, 37⟩
def F.cluUnitFaults : Fld := ⟨36, 35⟩
def F.cluUnitRetries : Fld := ⟨15, 0⟩
/-! MEM_STAT -/
def F.memStatTraining : Fld := ⟨5, 5⟩
def F.memStatTdev : Fld := ⟨5, 1⟩
def F.memStatInit : Fld := ⟨0, 0⟩
/-! MEM_CTL -/
def F.memCtlTrainper : Fld := ⟨47, 32⟩
def F.memCtlScrubhrs : Fld := ⟨23, 16⟩
def F.memCtlDevthr : Fld := ⟨7, 0⟩
/-! MEM_DEV -/
def F.memDevState : Fld := ⟨47, 46⟩
def F.memDevParity : Fld := ⟨45, 45⟩
def F.memDevFailcause : Fld := ⟨44, 42⟩
def F.memDevRebuilds : Fld := ⟨15, 0⟩
/-! MEM_CHGREQ -/
def F.memChgreqGo : Fld := ⟨47, 47⟩
def F.memChgreqClear : Fld := ⟨46, 46⟩
def F.memChgreqPage : Fld := ⟨19, 0⟩
/-! MEM_CHGRES -/
def F.memChgresBusy : Fld := ⟨47, 47⟩
def F.memChgresAny : Fld := ⟨46, 46⟩
def F.memChgresErr : Fld := ⟨45, 44⟩
/-! SR_ATTR_PORT -/
def F.srAttrPortPend : Fld := ⟨47, 47⟩
def F.srAttrPortSr : Fld := ⟨0, 0⟩
/-! SR_LEASE -/
def F.srLeaseHeld : Fld := ⟨47, 47⟩
def F.srLeaseDefer : Fld := ⟨46, 46⟩
def F.srLeaseHw : Fld := ⟨45, 45⟩
def F.srLeaseTicks : Fld := ⟨23, 0⟩
/-! SR_BOOT -/
def F.srBootErra : Fld := ⟨47, 44⟩
def F.srBootErrb : Fld := ⟨43, 40⟩
def F.srBootSlot : Fld := ⟨39, 39⟩
def F.srBootKeysel : Fld := ⟨38, 36⟩
def F.srBootSvn : Fld := ⟨15, 0⟩
/-! SR_FUSECTL -/
def F.srFusectlGo : Fld := ⟨47, 47⟩
def F.srFusectlOp : Fld := ⟨46, 45⟩
def F.srFusectlSlot : Fld := ⟨44, 43⟩
def F.srFusectlSvn : Fld := ⟨15, 0⟩
/-! SR_FUSESTAT -/
def F.srFusestatErr : Fld := ⟨47, 44⟩
def F.srFusestatBusy : Fld := ⟨43, 43⟩
def F.srFusestatMinsvn : Fld := ⟨31, 16⟩
def F.srFusestatRevoked : Fld := ⟨7, 4⟩
def F.srFusestatProg : Fld := ⟨3, 0⟩
/-! KX_LSTAT -/
def F.kxLstatState : Fld := ⟨47, 46⟩
def F.kxLstatSr : Fld := ⟨45, 45⟩
def F.kxLstatTenant : Fld := ⟨43, 40⟩
def F.kxLstatCarrel : Fld := ⟨39, 28⟩
def F.kxLstatLastfault : Fld := ⟨27, 24⟩
/-! KX_LCTL -/
def F.kxLctlReset : Fld := ⟨1, 1⟩
def F.kxLctlEn : Fld := ⟨0, 0⟩
/-! KX_SSTAT -/
def F.kxSstatState : Fld := ⟨47, 46⟩
def F.kxSstatRolled : Fld := ⟨45, 45⟩
def F.kxSstatAlg : Fld := ⟨44, 42⟩
def F.kxSstatUsage : Fld := ⟨38, 32⟩
def F.kxSstatRolltag : Fld := ⟨11, 0⟩
/-! CX_LSTAT -/
def F.cxLstatState : Fld := ⟨47, 46⟩
def F.cxLstatSr : Fld := ⟨45, 45⟩
def F.cxLstatTenant : Fld := ⟨43, 40⟩
def F.cxLstatCarrel : Fld := ⟨39, 28⟩
def F.cxLstatLastfault : Fld := ⟨27, 24⟩
def F.cxLstatOp : Fld := ⟨23, 16⟩
/-! CX_LCTL -/
def F.cxLctlReset : Fld := ⟨1, 1⟩
def F.cxLctlEn : Fld := ⟨0, 0⟩
/-! EN_STAT -/
def F.enStatModel : Fld := ⟨16, 16⟩
def F.enStatAge : Fld := ⟨15, 0⟩
/-! EN_ALARM -/
def F.enAlarmModel : Fld := ⟨3, 3⟩
def F.enAlarmDefer3 : Fld := ⟨2, 2⟩
def F.enAlarmDefer2 : Fld := ⟨1, 1⟩
def F.enAlarmExceeded : Fld := ⟨0, 0⟩
/-! EN_GATE -/
def F.enGateReq : Fld := ⟨47, 47⟩
def F.enGateGated : Fld := ⟨46, 46⟩
def F.enGateAuto : Fld := ⟨45, 45⟩
def F.enGateRes : Fld := ⟨3, 0⟩
/-! STK_STAT -/
def F.stkStatValid : Fld := ⟨47, 47⟩
def F.stkStatLocked : Fld := ⟨46, 46⟩
def F.stkStatPending : Fld := ⟨45, 45⟩
def F.stkStatDenied : Fld := ⟨44, 44⟩
def F.stkStatFaults : Fld := ⟨9, 4⟩
def F.stkStatSrc : Fld := ⟨3, 0⟩
/-! STK_CTL -/
def F.stkCtlPinen : Fld := ⟨47, 47⟩
def F.stkCtlOuten : Fld := ⟨46, 46⟩
def F.stkCtlFaultsrc : Fld := ⟨5, 0⟩
/-! INT_ROUTE -/
def F.intRouteEn : Fld := ⟨47, 47⟩
def F.intRouteSr : Fld := ⟨46, 46⟩
def F.intRouteTenant : Fld := ⟨45, 42⟩
def F.intRoutePri : Fld := ⟨41, 38⟩
def F.intRouteKind : Fld := ⟨37, 37⟩
def F.intRouteTarget : Fld := ⟨15, 0⟩
/-! MOD_TEMP -/
def F.modTempTrip : Fld := ⟨24, 24⟩
def F.modTempPeak : Fld := ⟨23, 12⟩
def F.modTempTj : Fld := ⟨11, 0⟩
/-! MOD_PINS -/
def F.modPinsSbb : Fld := ⟨6, 6⟩
def F.modPinsSba : Fld := ⟨5, 5⟩
def F.modPinsPref : Fld := ⟨4, 4⟩
def F.modPinsTwalive : Fld := ⟨3, 3⟩
def F.modPinsPulse : Fld := ⟨2, 2⟩
def F.modPinsStkt : Fld := ⟨1, 1⟩
def F.modPinsPps : Fld := ⟨0, 0⟩
/-! MOD_ALERTEN -/
def F.modAlertenMask : Fld := ⟨5, 0⟩
/-! TWN_ALARM -/
def F.twnAlarmEpochend : Fld := ⟨9, 9⟩
def F.twnAlarmShipfault : Fld := ⟨8, 8⟩
def F.twnAlarmAlivemis : Fld := ⟨7, 7⟩
def F.twnAlarmSyncfail : Fld := ⟨6, 6⟩
def F.twnAlarmSkew : Fld := ⟨5, 5⟩
def F.twnAlarmEpochlow : Fld := ⟨4, 4⟩
def F.twnAlarmMirlate : Fld := ⟨3, 3⟩
def F.twnAlarmPrefconf : Fld := ⟨2, 2⟩
def F.twnAlarmUnmirrored : Fld := ⟨1, 1⟩
def F.twnAlarmDegraded : Fld := ⟨0, 0⟩
/-! MEM_ALARM -/
def F.memAlarmLedger : Fld := ⟨3, 3⟩
def F.memAlarmBroken : Fld := ⟨2, 2⟩
def F.memAlarmPoison : Fld := ⟨1, 1⟩
def F.memAlarmDegraded : Fld := ⟨0, 0⟩
/-! SR_MBSTAT -/
def F.srMbstatInfull : Fld := ⟨47, 47⟩
def F.srMbstatOutfull : Fld := ⟨46, 46⟩
def F.srMbstatInlen : Fld := ⟨13, 8⟩
def F.srMbstatOutlen : Fld := ⟨5, 0⟩
/-! CLU_BISTRES -/
def F.cluBistresStatus : Fld := ⟨47, 44⟩
def F.cluBistresUnit : Fld := ⟨4, 0⟩
/-! SR_ATTR_CE -/
/-! SR_ATTR_KL -/
/-! SR_ATTR_XL -/
/-! CLU_BISTREQ -/
def F.cluBistreqOp : Fld := ⟨47, 46⟩
def F.cluBistreqUnit : Fld := ⟨4, 0⟩
/-! CLU_DBG -/
def F.cluDbgEn : Fld := ⟨47, 47⟩
def F.cluDbgSrdbg : Fld := ⟨46, 46⟩
def F.cluDbgPend : Fld := ⟨6, 0⟩
/-! MEM_SRPAGE -/
def F.memSrpageSet : Fld := ⟨47, 47⟩
def F.memSrpagePage : Fld := ⟨19, 0⟩
/-! MEM_SRSTAT -/
def F.memSrstatBusy : Fld := ⟨47, 47⟩
def F.memSrstatErr : Fld := ⟨46, 44⟩
def F.memSrstatCount : Fld := ⟨20, 0⟩
/-! SR_STAT -/
def F.srStatSigner : Fld := ⟨2, 2⟩
def F.srStatRestart : Fld := ⟨1, 1⟩
def F.srStatSwdrun : Fld := ⟨0, 0⟩
/-! SR_SWD -/
def F.srSwdKick : Fld := ⟨47, 47⟩
def F.srSwdRemain : Fld := ⟨20, 0⟩
/-! SR_COMMIT -/
def F.srCommitGo : Fld := ⟨47, 47⟩
def F.srCommitErr : Fld := ⟨3, 0⟩
/-! SR_RSTCAUSE -/
def F.srRstcauseMeshseen : Fld := ⟨4, 4⟩
def F.srRstcauseCause : Fld := ⟨3, 0⟩
/-! KX_TWINSLOT -/
def F.kxTwinslotEn : Fld := ⟨47, 47⟩
def F.kxTwinslotSlot : Fld := ⟨7, 0⟩
/-! KX_STAT -/
def F.kxStatPaused : Fld := ⟨47, 47⟩
def F.kxStatCount : Fld := ⟨8, 0⟩
/-! KX_SOWN -/
def F.kxSownSr : Fld := ⟨47, 47⟩
def F.kxSownTenant : Fld := ⟨43, 40⟩
/-! KX_ROLLEV -/
def F.kxRollevCount : Fld := ⟨47, 24⟩
def F.kxRollevTag : Fld := ⟨11, 0⟩
/-! EN_CTL -/
def F.enCtlAutogate : Fld := ⟨47, 47⟩
/-! UC_STAT -/
def F.ucStatLoading : Fld := ⟨2, 2⟩
def F.ucStatActivating : Fld := ⟨1, 1⟩
def F.ucStatStaged : Fld := ⟨0, 0⟩
/-! UC_TVER -/
def F.ucTverActive : Fld := ⟨16, 16⟩
def F.ucTverVersion : Fld := ⟨15, 0⟩
/-! UC_CTL -/
def F.ucCtlActivate : Fld := ⟨1, 1⟩
def F.ucCtlLoad : Fld := ⟨0, 0⟩
/-! UC_RES -/
def F.ucResCode : Fld := ⟨3, 0⟩
/-! UC_MATCH -/
def F.ucMatchEn : Fld := ⟨47, 47⟩
def F.ucMatchClass : Fld := ⟨44, 40⟩
def F.ucMatchTarget : Fld := ⟨37, 32⟩
def F.ucMatchRomaddr : Fld := ⟨13, 0⟩
/-! PRT_PTPTX_FRAC -/
def F.prtPtptxFracValid : Fld := ⟨47, 47⟩
def F.prtPtptxFracOver : Fld := ⟨46, 46⟩
def F.prtPtptxFracSub : Fld := ⟨29, 24⟩
def F.prtPtptxFracFrac : Fld := ⟨23, 0⟩
/-! TWN_SYNC -/
def F.twnSyncPhase : Fld := ⟨47, 44⟩
def F.twnSyncRemain : Fld := ⟨31, 0⟩
/-! INT_STAT -/
def F.intStatMerged : Fld := ⟨1, 1⟩
def F.intStatPend : Fld := ⟨0, 0⟩
/-! CAR_CTX -/
def F.carCtxKey : Fld := ⟨47, 44⟩
def F.carCtxPage : Fld := ⟨19, 0⟩
/-! NOTE_STAT -/
def F.noteStatOvf : Fld := ⟨47, 47⟩
def F.noteStatEntries : Fld := ⟨4, 0⟩
/-! MEM_SCRUB -/
def F.memScrubPasses : Fld := ⟨47, 32⟩
def F.memScrubLine : Fld := ⟨25, 0⟩
/-! MEM_GRP -/
def F.memGrpState : Fld := ⟨1, 0⟩
/-! SR_ATTR_PIN -/
def F.srAttrPinMgmt : Fld := ⟨1, 1⟩
def F.srAttrPinStkt : Fld := ⟨0, 0⟩
/-! SR_HOME -/
def F.srHomeCluster : Fld := ⟨5, 4⟩
def F.srHomeSeat : Fld := ⟨3, 0⟩
/-! INT_SEATLAST -/
def F.intSeatlastValid : Fld := ⟨47, 47⟩
def F.intSeatlastSrc : Fld := ⟨9, 0⟩
/-! CORE_XROOT -/
def F.coreXrootEn : Fld := ⟨47, 47⟩
def F.coreXrootPage : Fld := ⟨19, 0⟩
/-! ACC_STAT -/
def F.accStatRun : Fld := ⟨0, 0⟩
/-! EN_TEN -/
def F.enTenC0ok : Fld := ⟨0, 0⟩

/-! ### The map -/

/-- The MOD_ registers (R20, R447). -/
def regMapMod : List RegRow :=
  [ { base := 0x0, s1 := 0x1, n1 := 1, s2 := 1, n2 := 1, reset := 0x000000000000, dom := .aux,
      rw := 0x000000000000, wc := 0x000000000000, ws := 0x000000000000, wo := 0x000000000000, sr := false, srMask := 0x000000000000 }, -- MOD_PART
    { base := 0x1, s1 := 0x1, n1 := 1, s2 := 1, n2 := 1, reset := 0x000000000000, dom := .aux,
      rw := 0x000000000000, wc := 0x000000000000, ws := 0x000000000000, wo := 0x000000000000, sr := false, srMask := 0x000000000000 }, -- MOD_SERIAL_HI
    { base := 0x2, s1 := 0x1, n1 := 1, s2 := 1, n2 := 1, reset := 0x000000000000, dom := .aux,
      rw := 0x000000000000, wc := 0x000000000000, ws := 0x000000000000, wo := 0x000000000000, sr := false, srMask := 0x000000000000 }, -- MOD_SERIAL_LO
    { base := 0x3, s1 := 0x1, n1 := 1, s2 := 1, n2 := 1, reset := 0x000000000000, dom := .moduleD,
      rw := 0x000000000000, wc := 0x000000000000, ws := 0x000000000000, wo := 0x000000000000, sr := false, srMask := 0x000000000000 }, -- MOD_STATE
    { base := 0x4, s1 := 0x1, n1 := 1, s2 := 1, n2 := 1, reset := 0x000000000000, dom := .moduleD,
      rw := 0x000000000000, wc := 0x000000000000, ws := 0x000000000000, wo := 0x000000000000, sr := false, srMask := 0x000000000000 }, -- MOD_TEMP
    { base := 0x5, s1 := 0x1, n1 := 1, s2 := 1, n2 := 1, reset := 0x000000000000, dom := .moduleD,
      rw := 0x000000000000, wc := 0x000000000000, ws := 0x000000000000, wo := 0x000000000000, sr := false, srMask := 0x000000000000 }, -- MOD_SUPPLY
    { base := 0x6, s1 := 0x1, n1 := 1, s2 := 1, n2 := 1, reset := 0x000000000000, dom := .aux,
      rw := 0x000000000000, wc := 0x000000000000, ws := 0x000000000000, wo := 0x000000000000, sr := false, srMask := 0x000000000000 }, -- MOD_PINS
    { base := 0x7, s1 := 0x1, n1 := 1, s2 := 1, n2 := 1, reset := 0x000000000000, dom := .moduleD,
      rw := 0x00000000003F, wc := 0x000000000000, ws := 0x000000000000, wo := 0x000000000000, sr := false, srMask := 0x000000000000 } ] -- MOD_ALERTEN

/-- The RT_ registers (R62). -/
def regMapRt : List RegRow :=
  [ { base := 0x10000, s1 := 0x1, n1 := 1, s2 := 1, n2 := 1, reset := 0x000000000000, dom := .aux,
      rw := 0x000000000000, wc := 0x000000000000, ws := 0x000000000000, wo := 0x000000000000, sr := false, srMask := 0x000000000000 }, -- RT_SEC
    { base := 0x10001, s1 := 0x1, n1 := 1, s2 := 1, n2 := 1, reset := 0x000000000000, dom := .aux,
      rw := 0x000000000000, wc := 0x000000000000, ws := 0x000000000000, wo := 0x000000000000, sr := false, srMask := 0x000000000000 }, -- RT_NOWF
    { base := 0x10002, s1 := 0x1, n1 := 1, s2 := 1, n2 := 1, reset := 0x000000000000, dom := .aux,
      rw := 0x000000000000, wc := 0x000000000078, ws := 0x000000000000, wo := 0x000000000000, sr := false, srMask := 0x000000000000 }, -- RT_STAT
    { base := 0x10003, s1 := 0x1, n1 := 1, s2 := 1, n2 := 1, reset := 0x000000000100, dom := .aux,
      rw := 0x000000000F80, wc := 0x000000000000, ws := 0x000000000007, wo := 0x000000000000, sr := true, srMask := 0x000000000F87 }, -- RT_CTL
    { base := 0x10004, s1 := 0x1, n1 := 1, s2 := 1, n2 := 1, reset := 0x000000000000, dom := .aux,
      rw := 0x00FFFFFFFFFF, wc := 0x000000000000, ws := 0x000000000000, wo := 0x000000000000, sr := true, srMask := 0xFFFFFFFFFFFF }, -- RT_NEXTSEC
    { base := 0x10005, s1 := 0x1, n1 := 1, s2 := 1, n2 := 1, reset := 0x000000000000, dom := .aux,
      rw := 0x000000000000, wc := 0x000000000000, ws := 0x000000000000, wo := 0x000000000000, sr := false, srMask := 0x000000000000 }, -- RT_PHASE
    { base := 0x10006, s1 := 0x1, n1 := 1, s2 := 1, n2 := 1, reset := 0x000000000000, dom := .aux,
      rw := 0x000000000000, wc := 0x000000000000, ws := 0x000000000000, wo := 0x000000000000, sr := false, srMask := 0x000000000000 }, -- RT_FREQ
    { base := 0x10007, s1 := 0x1, n1 := 1, s2 := 1, n2 := 1, reset := 0x000000000000, dom := .aux,
      rw := 0x000000000000, wc := 0x000000000000, ws := 0x000000000000, wo := 0x000000000000, sr := false, srMask := 0x000000000000 }, -- RT_HOLDOVER
    { base := 0x10008, s1 := 0x1, n1 := 1, s2 := 1, n2 := 1, reset := 0x000000000000, dom := .aux,
      rw := 0x000000000000, wc := 0x000000000000, ws := 0x000000000000, wo := 0x000000000000, sr := false, srMask := 0x000000000000 }, -- RT_OUTLIERS
    { base := 0x10009, s1 := 0x1, n1 := 1, s2 := 1, n2 := 1, reset := 0x000000000000, dom := .aux,
      rw := 0x00000000FFFF, wc := 0x000000000000, ws := 0x000000000000, wo := 0x000000000000, sr := false, srMask := 0x000000000000 } ] -- RT_UTCOFF

/-- The BELL_ registers (R63). -/
def regMapBell : List RegRow :=
  [ { base := 0x20000, s1 := 0x1, n1 := 1, s2 := 1, n2 := 1, reset := 0x000000000000, dom := .moduleD,
      rw := 0x000000000000, wc := 0x000000000000, ws := 0x000000000000, wo := 0x000000000000, sr := false, srMask := 0x000000000000 }, -- BELL_ARMED
    { base := 0x20002, s1 := 0x1, n1 := 1, s2 := 1, n2 := 1, reset := 0x000000000000, dom := .moduleD,
      rw := 0x000000000000, wc := 0x000000000000, ws := 0x000000000000, wo := 0x000000000000, sr := false, srMask := 0x000000000000 }, -- BELL_PENDING
    { base := 0x21000, s1 := 0x4, n1 := 1024, s2 := 1, n2 := 1, reset := 0x000000000000, dom := .moduleD,
      rw := 0x00FFFFFFFFFF, wc := 0x000000000000, ws := 0x000000000000, wo := 0x000000000000, sr := true, srMask := 0xFFFFFFFFFFFF }, -- BELL_TSEC[b]
    { base := 0x21001, s1 := 0x4, n1 := 1024, s2 := 1, n2 := 1, reset := 0x000000000000, dom := .moduleD,
      rw := 0x000000FFFFFF, wc := 0x000000000000, ws := 0x000000000000, wo := 0x000000000000, sr := true, srMask := 0xFFFFFFFFFFFF }, -- BELL_TFRAC[b]
    { base := 0x21002, s1 := 0x4, n1 := 1024, s2 := 1, n2 := 1, reset := 0x000000000000, dom := .moduleD,
      rw := 0xFFFFFF800FFF, wc := 0x000000000000, ws := 0x000000000000, wo := 0x000000000000, sr := true, srMask := 0xFFFFFF800FFF }, -- BELL_ACT[b]
    { base := 0x21003, s1 := 0x4, n1 := 1024, s2 := 1, n2 := 1, reset := 0x000000000000, dom := .moduleD,
      rw := 0x000000000000, wc := 0x000000000006, ws := 0x000000000000, wo := 0x000000000000, sr := false, srMask := 0x000000000000 } ] -- BELL_STAT[b]

/-- The GATE_ registers (R63). -/
def regMapGate : List RegRow :=
  [ { base := 0x20001, s1 := 0x1, n1 := 1, s2 := 1, n2 := 1, reset := 0x000000000000, dom := .moduleD,
      rw := 0x000000000000, wc := 0x000000000000, ws := 0x000000000000, wo := 0x000000000000, sr := false, srMask := 0x000000000000 }, -- GATE_USED
    { base := 0x28000, s1 := 0x8, n1 := 4096, s2 := 1, n2 := 1, reset := 0x000000000000, dom := .moduleD,
      rw := 0x800F00000FFF, wc := 0x000000000000, ws := 0x000000000000, wo := 0x000000000000, sr := true, srMask := 0x800F00000FFF }, -- GATE_KEY[g]
    { base := 0x28001, s1 := 0x8, n1 := 4096, s2 := 1, n2 := 1, reset := 0x00FFFFFFFFFF, dom := .moduleD,
      rw := 0x000000000000, wc := 0x000000000000, ws := 0x000000000000, wo := 0x000000000000, sr := false, srMask := 0x000000000000 }, -- GATE_OPEN_SEC[g]
    { base := 0x28002, s1 := 0x8, n1 := 4096, s2 := 1, n2 := 1, reset := 0x000000FFFFFF, dom := .moduleD,
      rw := 0x000000000000, wc := 0x000000000000, ws := 0x000000000000, wo := 0x000000000000, sr := false, srMask := 0x000000000000 }, -- GATE_OPEN_FRAC[g]
    { base := 0x28003, s1 := 0x8, n1 := 4096, s2 := 1, n2 := 1, reset := 0x00FFFFFFFFFF, dom := .moduleD,
      rw := 0x000000000000, wc := 0x000000000000, ws := 0x000000000000, wo := 0x000000000000, sr := false, srMask := 0x000000000000 }, -- GATE_CLOSE_SEC[g]
    { base := 0x28004, s1 := 0x8, n1 := 4096, s2 := 1, n2 := 1, reset := 0x000000FFFFFF, dom := .moduleD,
      rw := 0x000000000000, wc := 0x000000000000, ws := 0x000000000000, wo := 0x000000000000, sr := false, srMask := 0x000000000000 }, -- GATE_CLOSE_FRAC[g]
    { base := 0x28005, s1 := 0x8, n1 := 4096, s2 := 1, n2 := 1, reset := 0x000000000000, dom := .moduleD,
      rw := 0x000000000000, wc := 0x000000000000, ws := 0x000000000000, wo := 0x000000000000, sr := false, srMask := 0x000000000000 }, -- GATE_STAT[g]
    { base := 0x28006, s1 := 0x8, n1 := 4096, s2 := 1, n2 := 1, reset := 0x000000000000, dom := .moduleD,
      rw := 0x000000000000, wc := 0x000000000000, ws := 0x000000000000, wo := 0x000000000000, sr := false, srMask := 0x000000000000 }, -- GATE_ACCEPTED[g]
    { base := 0x28007, s1 := 0x8, n1 := 4096, s2 := 1, n2 := 1, reset := 0x000000000000, dom := .moduleD,
      rw := 0x000000000000, wc := 0x000000000000, ws := 0x000000000000, wo := 0x000000000000, sr := false, srMask := 0x000000000000 } ] -- GATE_CLOSEDREF[g]

/-- The PRT_ registers (R100). -/
def regMapPrt : List RegRow :=
  [ { base := 0x40000, s1 := 0x100, n1 := 256, s2 := 1, n2 := 1, reset := 0x000000000001, dom := .port,
      rw := 0x000000000000, wc := 0x000000000000, ws := 0x000000000000, wo := 0x000000000000, sr := false, srMask := 0x000000000000 }, -- PRT_STAT
    { base := 0x40001, s1 := 0x100, n1 := 256, s2 := 1, n2 := 1, reset := 0x000000000000, dom := .moduleD,
      rw := 0xFFFFFFFFFFFF, wc := 0x000000000000, ws := 0x000000000000, wo := 0x000000000000, sr := false, srMask := 0x000000000000 }, -- PRT_MAC
    { base := 0x40002, s1 := 0x100, n1 := 256, s2 := 1, n2 := 1, reset := 0x1800240088B5, dom := .moduleD,
      rw := 0xFFFFFFF0FFFF, wc := 0x000000000000, ws := 0x000000000000, wo := 0x000000000000, sr := false, srMask := 0x000000000000 }, -- PRT_CTL
    { base := 0x40003, s1 := 0x100, n1 := 256, s2 := 1, n2 := 1, reset := 0x000000000000, dom := .moduleD,
      rw := 0x00000000FFFF, wc := 0x000000000000, ws := 0x000000000000, wo := 0x000000000000, sr := false, srMask := 0x000000000000 }, -- PRT_TENMASK
    { base := 0x40004, s1 := 0x100, n1 := 256, s2 := 1, n2 := 1, reset := 0x000000000000, dom := .port,
      rw := 0x000000000000, wc := 0x000000000000, ws := 0x000000000000, wo := 0x000000000000, sr := false, srMask := 0x000000000000 }, -- PRT_PTPTX_SEC
    { base := 0x40005, s1 := 0x100, n1 := 256, s2 := 1, n2 := 1, reset := 0x000000000000, dom := .port,
      rw := 0x000000000000, wc := 0xC00000000000, ws := 0x000000000000, wo := 0x000000000000, sr := false, srMask := 0x000000000000 }, -- PRT_PTPTX_FRAC
    { base := 0x40006, s1 := 0x100, n1 := 256, s2 := 1, n2 := 1, reset := 0x000000000000, dom := .port,
      rw := 0x000000000000, wc := 0x000000000000, ws := 0x000000000000, wo := 0x000000000001, sr := false, srMask := 0x000000000000 }, -- PRT_RESET
    { base := 0x40008, s1 := 0x100, n1 := 256, s2 := 1, n2 := 1, reset := 0x000000000000, dom := .port,
      rw := 0x000000000000, wc := 0x000000000000, ws := 0x000000000000, wo := 0x000000000000, sr := false, srMask := 0x000000000000 }, -- PRT_RXFRAMES
    { base := 0x40009, s1 := 0x100, n1 := 256, s2 := 1, n2 := 1, reset := 0x000000000000, dom := .port,
      rw := 0x000000000000, wc := 0x000000000000, ws := 0x000000000000, wo := 0x000000000000, sr := false, srMask := 0x000000000000 }, -- PRT_RXLCP
    { base := 0x4000A, s1 := 0x100, n1 := 256, s2 := 1, n2 := 1, reset := 0x000000000000, dom := .port,
      rw := 0x000000000000, wc := 0x000000000000, ws := 0x000000000000, wo := 0x000000000000, sr := false, srMask := 0x000000000000 }, -- PRT_RXDROP
    { base := 0x4000B, s1 := 0x100, n1 := 256, s2 := 1, n2 := 1, reset := 0x000000000000, dom := .port,
      rw := 0x000000000000, wc := 0x000000000000, ws := 0x000000000000, wo := 0x000000000000, sr := false, srMask := 0x000000000000 }, -- PRT_NAKTX
    { base := 0x4000C, s1 := 0x100, n1 := 256, s2 := 1, n2 := 1, reset := 0x000000000000, dom := .port,
      rw := 0x000000000000, wc := 0x000000000000, ws := 0x000000000000, wo := 0x000000000000, sr := false, srMask := 0x000000000000 }, -- PRT_NAKRX
    { base := 0x4000D, s1 := 0x100, n1 := 256, s2 := 1, n2 := 1, reset := 0x000000000000, dom := .port,
      rw := 0x000000000000, wc := 0x000000000000, ws := 0x000000000000, wo := 0x000000000000, sr := false, srMask := 0x000000000000 }, -- PRT_RETX
    { base := 0x4000E, s1 := 0x100, n1 := 256, s2 := 1, n2 := 1, reset := 0x000000000000, dom := .port,
      rw := 0x000000000000, wc := 0x000000000000, ws := 0x000000000000, wo := 0x000000000000, sr := false, srMask := 0x000000000000 }, -- PRT_PLAINDROP
    { base := 0x4000F, s1 := 0x100, n1 := 256, s2 := 1, n2 := 1, reset := 0x000000000000, dom := .port,
      rw := 0x000000000000, wc := 0x000000000000, ws := 0x000000000000, wo := 0x000000000000, sr := false, srMask := 0x000000000000 } ] -- PRT_FECCORR

/-- The SES_ registers (R101). -/
def regMapSes : List RegRow :=
  [ { base := 0x60000, s1 := 0x20, n1 := 4096, s2 := 1, n2 := 1, reset := 0x000000000000, dom := .moduleD,
      rw := 0x000000000000, wc := 0x000000000000, ws := 0x000000000000, wo := 0x000000000000, sr := false, srMask := 0x000000000000 }, -- SES_STAT
    { base := 0x60001, s1 := 0x20, n1 := 4096, s2 := 1, n2 := 1, reset := 0x000000000000, dom := .moduleD,
      rw := 0x000000000000, wc := 0x000000000000, ws := 0x000000000000, wo := 0x000000000000, sr := false, srMask := 0x000000000000 }, -- SES_PID_HI
    { base := 0x60002, s1 := 0x20, n1 := 4096, s2 := 1, n2 := 1, reset := 0x000000000000, dom := .moduleD,
      rw := 0x000000000000, wc := 0x000000000000, ws := 0x000000000000, wo := 0x000000000000, sr := false, srMask := 0x000000000000 }, -- SES_PID_LO
    { base := 0x60003, s1 := 0x20, n1 := 4096, s2 := 1, n2 := 1, reset := 0x000000000000, dom := .moduleD,
      rw := 0x000000000000, wc := 0x000000000000, ws := 0x000000000000, wo := 0x000000000000, sr := false, srMask := 0x000000000000 }, -- SES_H_HI
    { base := 0x60004, s1 := 0x20, n1 := 4096, s2 := 1, n2 := 1, reset := 0x000000000000, dom := .moduleD,
      rw := 0x000000000000, wc := 0x000000000000, ws := 0x000000000000, wo := 0x000000000000, sr := false, srMask := 0x000000000000 }, -- SES_H_LO
    { base := 0x60005, s1 := 0x20, n1 := 4096, s2 := 1, n2 := 1, reset := 0x000000000000, dom := .moduleD,
      rw := 0x000000000000, wc := 0x000000000000, ws := 0x000000000000, wo := 0x000000000000, sr := false, srMask := 0x000000000000 }, -- SES_PEER
    { base := 0x60006, s1 := 0x20, n1 := 4096, s2 := 1, n2 := 1, reset := 0x000000000000, dom := .moduleD,
      rw := 0x000000000001, wc := 0x000000000000, ws := 0x000000000000, wo := 0x000000000006, sr := false, srMask := 0x000000000000 }, -- SES_CTL
    { base := 0x60007, s1 := 0x20, n1 := 4096, s2 := 1, n2 := 1, reset := 0x000000000000, dom := .moduleD,
      rw := 0x000000000000, wc := 0x000000000000, ws := 0x000000000000, wo := 0x000000000000, sr := false, srMask := 0x000000000000 }, -- SES_PEND
    { base := 0x60008, s1 := 0x20, n1 := 4096, s2 := 1, n2 := 1, reset := 0x000000000000, dom := .port,
      rw := 0x000000000000, wc := 0x000000000000, ws := 0x000000000000, wo := 0x000000000000, sr := false, srMask := 0x000000000000 }, -- SES_TXSEQ
    { base := 0x60009, s1 := 0x20, n1 := 4096, s2 := 1, n2 := 1, reset := 0x000000000000, dom := .port,
      rw := 0x000000000000, wc := 0x000000000000, ws := 0x000000000000, wo := 0x000000000000, sr := false, srMask := 0x000000000000 }, -- SES_RXSEQ
    { base := 0x6000A, s1 := 0x20, n1 := 4096, s2 := 1, n2 := 1, reset := 0x000000000000, dom := .port,
      rw := 0x000000000000, wc := 0x000000000000, ws := 0x000000000000, wo := 0x000000000000, sr := false, srMask := 0x000000000000 }, -- SES_CREDIT
    { base := 0x6000B, s1 := 0x20, n1 := 4096, s2 := 1, n2 := 1, reset := 0x000000000000, dom := .port,
      rw := 0x000000000000, wc := 0x000000000000, ws := 0x000000000000, wo := 0x000000000000, sr := false, srMask := 0x000000000000 } ] -- SES_RCREDIT

/-- The ACC_ registers (R128, R129). -/
def regMapAcc : List RegRow :=
  [ { base := 0x80000, s1 := 0x1, n1 := 1, s2 := 1, n2 := 1, reset := 0x000000000000, dom := .moduleD,
      rw := 0x000000000000, wc := 0x000000000000, ws := 0x000000000000, wo := 0x000000000000, sr := false, srMask := 0x000000000000 }, -- ACC_STAT
    { base := 0x80001, s1 := 0x1, n1 := 1, s2 := 1, n2 := 1, reset := 0x000000000000, dom := .moduleD,
      rw := 0x000000000000, wc := 0x000000000000, ws := 0x000000000000, wo := 0x000000000000, sr := false, srMask := 0x000000000000 }, -- ACC_LASTF_HI
    { base := 0x80002, s1 := 0x1, n1 := 1, s2 := 1, n2 := 1, reset := 0x000000000000, dom := .moduleD,
      rw := 0x000000000000, wc := 0x000000000000, ws := 0x000000000000, wo := 0x000000000000, sr := false, srMask := 0x000000000000 }, -- ACC_LASTF_LO
    { base := 0x80003, s1 := 0x1, n1 := 1, s2 := 1, n2 := 1, reset := 0x000000000000, dom := .moduleD,
      rw := 0x000000000000, wc := 0x000000000000, ws := 0x000000000000, wo := 0x000000000000, sr := false, srMask := 0x000000000000 }, -- ACC_JUDGED
    { base := 0x80004, s1 := 0x1, n1 := 1, s2 := 1, n2 := 1, reset := 0x000000000000, dom := .moduleD,
      rw := 0x000000000000, wc := 0x000000000000, ws := 0x000000000000, wo := 0x000000000000, sr := false, srMask := 0x000000000000 }, -- ACC_PEAK
    { base := 0x81000, s1 := 0x100, n1 := 16, s2 := 1, n2 := 1, reset := 0x4000F8000100, dom := .moduleD,
      rw := 0xFC00FF00FFFF, wc := 0x000000000000, ws := 0x000000000000, wo := 0x000000000000, sr := false, srMask := 0x000000000000 }, -- ACC_CTL[t]
    { base := 0x81001, s1 := 0x100, n1 := 16, s2 := 1, n2 := 1, reset := 0x000000000000, dom := .moduleD,
      rw := 0x0000FFFFF000, wc := 0x000000000000, ws := 0x000000000000, wo := 0x000000000000, sr := true, srMask := 0xFFFFFFFFFFFF }, -- ACC_DBBASE[t]
    { base := 0x81002, s1 := 0x100, n1 := 16, s2 := 1, n2 := 1, reset := 0x000000000000, dom := .moduleD,
      rw := 0x0000000FFFFF, wc := 0x000000000000, ws := 0x000000000000, wo := 0x000000000000, sr := true, srMask := 0xFFFFFFFFFFFF }, -- ACC_DBSIZE[t]
    { base := 0x81003, s1 := 0x100, n1 := 16, s2 := 1, n2 := 1, reset := 0x000000000000, dom := .moduleD,
      rw := 0x000000000000, wc := 0x000000000000, ws := 0x000000000000, wo := 0x000000000000, sr := false, srMask := 0x000000000000 }, -- ACC_HEAD[t]
    { base := 0x81004, s1 := 0x100, n1 := 16, s2 := 1, n2 := 1, reset := 0x000000000000, dom := .moduleD,
      rw := 0x0000FFFFFFFF, wc := 0x000000000000, ws := 0x000000000000, wo := 0x000000000000, sr := false, srMask := 0x000000000000 }, -- ACC_TAIL[t]
    { base := 0x81005, s1 := 0x100, n1 := 16, s2 := 1, n2 := 1, reset := 0x000000000000, dom := .moduleD,
      rw := 0x000000000000, wc := 0x000000000000, ws := 0x000000000000, wo := 0x000000000000, sr := false, srMask := 0x000000000000 }, -- ACC_RELPTR[t]
    { base := 0x81006, s1 := 0x100, n1 := 16, s2 := 1, n2 := 1, reset := 0x000000000000, dom := .moduleD,
      rw := 0x000000000000, wc := 0x000000000000, ws := 0x000000000000, wo := 0x000000000000, sr := false, srMask := 0x000000000000 }, -- ACC_USED[t]
    { base := 0x81007, s1 := 0x100, n1 := 16, s2 := 1, n2 := 1, reset := 0x000000000000, dom := .moduleD,
      rw := 0x000000FFFFFF, wc := 0x000000000000, ws := 0x000000000000, wo := 0x000000000000, sr := false, srMask := 0x000000000000 }, -- ACC_QUOTA[t]
    { base := 0x81008, s1 := 0x100, n1 := 16, s2 := 1, n2 := 1, reset := 0x000000000000, dom := .moduleD,
      rw := 0x00000000FFFF, wc := 0x000000000000, ws := 0x000000000000, wo := 0x000000000000, sr := true, srMask := 0xFFFFFFFFFFFF }, -- ACC_NEXT_HI[t]
    { base := 0x81009, s1 := 0x100, n1 := 16, s2 := 1, n2 := 1, reset := 0x000000000001, dom := .moduleD,
      rw := 0xFFFFFFFFFFFF, wc := 0x000000000000, ws := 0x000000000000, wo := 0x000000000000, sr := true, srMask := 0xFFFFFFFFFFFF }, -- ACC_NEXT_LO[t]
    { base := 0x8100A, s1 := 0x100, n1 := 16, s2 := 1, n2 := 1, reset := 0x000000000000, dom := .moduleD,
      rw := 0x000000000000, wc := 0x000000000000, ws := 0x000000000000, wo := 0x000000000000, sr := false, srMask := 0x000000000000 }, -- ACC_RELMARK_HI[t]
    { base := 0x8100B, s1 := 0x100, n1 := 16, s2 := 1, n2 := 1, reset := 0x000000000000, dom := .moduleD,
      rw := 0x000000000000, wc := 0x000000000000, ws := 0x000000000000, wo := 0x000000000000, sr := false, srMask := 0x000000000000 }, -- ACC_RELMARK_LO[t]
    { base := 0x8100C, s1 := 0x100, n1 := 16, s2 := 1, n2 := 1, reset := 0x000000000000, dom := .moduleD,
      rw := 0x000000000000, wc := 0x000000000000, ws := 0x000000000000, wo := 0x000000000000, sr := false, srMask := 0x000000000000 }, -- ACC_RELF_HI[t]
    { base := 0x8100D, s1 := 0x100, n1 := 16, s2 := 1, n2 := 1, reset := 0x000000000000, dom := .moduleD,
      rw := 0x000000000000, wc := 0x000000000000, ws := 0x000000000000, wo := 0x000000000000, sr := false, srMask := 0x000000000000 }, -- ACC_RELF_LO[t]
    { base := 0x8100E, s1 := 0x100, n1 := 16, s2 := 1, n2 := 1, reset := 0x000000000002, dom := .moduleD,
      rw := 0x000000000000, wc := 0x000000000000, ws := 0x000000000000, wo := 0x000000000000, sr := false, srMask := 0x000000000000 }, -- ACC_BP[t]
    { base := 0x8100F, s1 := 0x100, n1 := 16, s2 := 1, n2 := 1, reset := 0x000000000000, dom := .moduleD,
      rw := 0x000000000000, wc := 0x000000000000, ws := 0x000000000000, wo := 0x000000000000, sr := false, srMask := 0x000000000000 }, -- ACC_LASTW[t]
    { base := 0x81010, s1 := 0x100, n1 := 16, s2 := 1, n2 := 1, reset := 0x000000000000, dom := .moduleD,
      rw := 0x000000000000, wc := 0x000000000000, ws := 0x000000000000, wo := 0x000000000000, sr := false, srMask := 0x000000000000 }, -- ACC_ACCEPTED[t]
    { base := 0x81011, s1 := 0x100, n1 := 16, s2 := 1, n2 := 1, reset := 0x000000000000, dom := .moduleD,
      rw := 0x000000000000, wc := 0x000000000000, ws := 0x000000000000, wo := 0x000000000000, sr := false, srMask := 0x000000000000 }, -- ACC_REFUSED[t]
    { base := 0x81012, s1 := 0x100, n1 := 16, s2 := 1, n2 := 1, reset := 0x000000000000, dom := .moduleD,
      rw := 0x000000000000, wc := 0x000000000000, ws := 0x000000000000, wo := 0x000000000000, sr := false, srMask := 0x000000000000 }, -- ACC_DUPLICATE[t]
    { base := 0x81013, s1 := 0x100, n1 := 16, s2 := 1, n2 := 1, reset := 0x000000000000, dom := .moduleD,
      rw := 0x000000000000, wc := 0x000000000000, ws := 0x000000000000, wo := 0x000000000000, sr := false, srMask := 0x000000000000 }, -- ACC_SPACEREF[t]
    { base := 0x81014, s1 := 0x100, n1 := 16, s2 := 1, n2 := 1, reset := 0x000000000000, dom := .moduleD,
      rw := 0x000000000000, wc := 0x000000000000, ws := 0x000000000000, wo := 0x000000000000, sr := false, srMask := 0x000000000000 } ] -- ACC_ERR[t]

/-- The TWN_ registers (R161). -/
def regMapTwn : List RegRow :=
  [ { base := 0xA0000, s1 := 0x1, n1 := 1, s2 := 1, n2 := 1, reset := 0x000000000004, dom := .moduleD,
      rw := 0x000000000000, wc := 0x000000000000, ws := 0x000000000000, wo := 0x000000000000, sr := false, srMask := 0x000000000000 }, -- TWN_STAT
    { base := 0xA0001, s1 := 0x1, n1 := 1, s2 := 1, n2 := 1, reset := 0x000000000000, dom := .moduleD,
      rw := 0x000000000000, wc := 0x000000000000, ws := 0x000000000000, wo := 0x000000000000, sr := false, srMask := 0x000000000000 }, -- TWN_EPOCH
    { base := 0xA0002, s1 := 0x1, n1 := 1, s2 := 1, n2 := 1, reset := 0x000000000000, dom := .moduleD,
      rw := 0x000000000000, wc := 0x000000000000, ws := 0x000000000000, wo := 0x000000000000, sr := false, srMask := 0x000000000000 }, -- TWN_PEEREPOCH
    { base := 0xA0003, s1 := 0x1, n1 := 1, s2 := 1, n2 := 1, reset := 0x000000000008, dom := .moduleD,
      rw := 0x000000000018, wc := 0x000000000000, ws := 0x0000000000E0, wo := 0x000000000000, sr := true, srMask := 0x0000000000F8 }, -- TWN_CTL
    { base := 0xA0004, s1 := 0x1, n1 := 1, s2 := 1, n2 := 1, reset := 0x00000000003C, dom := .moduleD,
      rw := 0x00000000FFFF, wc := 0x000000000000, ws := 0x000000000000, wo := 0x000000000000, sr := true, srMask := 0xFFFFFFFFFFFF }, -- TWN_HOLDOFF
    { base := 0xA0005, s1 := 0x1, n1 := 1, s2 := 1, n2 := 1, reset := 0x000000000000, dom := .moduleD,
      rw := 0x000000000000, wc := 0x000000000000, ws := 0x000000000000, wo := 0x000000000000, sr := false, srMask := 0x000000000000 }, -- TWN_ALARM
    { base := 0xA0006, s1 := 0x1, n1 := 1, s2 := 1, n2 := 1, reset := 0x000000000000, dom := .moduleD,
      rw := 0x000000000000, wc := 0x000000000000, ws := 0x000000000000, wo := 0x000000000000, sr := false, srMask := 0x000000000000 }, -- TWN_ACKF_HI
    { base := 0xA0007, s1 := 0x1, n1 := 1, s2 := 1, n2 := 1, reset := 0x000000000000, dom := .moduleD,
      rw := 0x000000000000, wc := 0x000000000000, ws := 0x000000000000, wo := 0x000000000000, sr := false, srMask := 0x000000000000 }, -- TWN_ACKF_LO
    { base := 0xA0008, s1 := 0x1, n1 := 1, s2 := 1, n2 := 1, reset := 0x000000000000, dom := .moduleD,
      rw := 0x000000000000, wc := 0x000000000000, ws := 0x000000000000, wo := 0x000000000000, sr := false, srMask := 0x000000000000 }, -- TWN_LAG
    { base := 0xA0009, s1 := 0x1, n1 := 1, s2 := 1, n2 := 1, reset := 0x000000000000, dom := .moduleD,
      rw := 0x000000000000, wc := 0x000000000000, ws := 0x000000000000, wo := 0x000000000000, sr := false, srMask := 0x000000000000 }, -- TWN_SKEW
    { base := 0xA000A, s1 := 0x1, n1 := 1, s2 := 1, n2 := 1, reset := 0x000000000000, dom := .moduleD,
      rw := 0x000000000000, wc := 0x000000000000, ws := 0x000000000000, wo := 0x000000000000, sr := false, srMask := 0x000000000000 }, -- TWN_LOST
    { base := 0xA000B, s1 := 0x1, n1 := 1, s2 := 1, n2 := 1, reset := 0x000000000000, dom := .moduleD,
      rw := 0x000000000000, wc := 0x000000000000, ws := 0x000000000000, wo := 0x000000000000, sr := false, srMask := 0x000000000000 }, -- TWN_HEALTHY
    { base := 0xA000C, s1 := 0x1, n1 := 1, s2 := 1, n2 := 1, reset := 0x000000000000, dom := .moduleD,
      rw := 0x000000000000, wc := 0x000000000000, ws := 0x000000000000, wo := 0x000000000000, sr := false, srMask := 0x000000000000 }, -- TWN_PEERSER_HI
    { base := 0xA000D, s1 := 0x1, n1 := 1, s2 := 1, n2 := 1, reset := 0x000000000000, dom := .moduleD,
      rw := 0x000000000000, wc := 0x000000000000, ws := 0x000000000000, wo := 0x000000000000, sr := false, srMask := 0x000000000000 }, -- TWN_PEERSER_LO
    { base := 0xA000E, s1 := 0x1, n1 := 1, s2 := 1, n2 := 1, reset := 0x000000000000, dom := .moduleD,
      rw := 0x000000000000, wc := 0x000000000000, ws := 0x000000000000, wo := 0x8000000FFFFF, sr := false, srMask := 0x000000000000 }, -- TWN_MIRPAGE
    { base := 0xA000F, s1 := 0x1, n1 := 1, s2 := 1, n2 := 1, reset := 0x000000000000, dom := .moduleD,
      rw := 0x000000000000, wc := 0x000000000000, ws := 0x000000000000, wo := 0x000000000000, sr := false, srMask := 0x000000000000 }, -- TWN_MIRSTAT
    { base := 0xA0010, s1 := 0x1, n1 := 1, s2 := 1, n2 := 1, reset := 0x0000000031AB, dom := .moduleD,
      rw := 0x000000FFFFFF, wc := 0x000000000000, ws := 0x000000000000, wo := 0x000000000000, sr := true, srMask := 0xFFFFFFFFFFFF }, -- TWN_MIRBUDGET
    { base := 0xA0011, s1 := 0x1, n1 := 1, s2 := 1, n2 := 1, reset := 0x000000000000, dom := .moduleD,
      rw := 0x000000000000, wc := 0x000000000000, ws := 0x000000000000, wo := 0x000000000000, sr := false, srMask := 0x000000000000 }, -- TWN_MIRLINES
    { base := 0xA0012, s1 := 0x1, n1 := 1, s2 := 1, n2 := 1, reset := 0x000000000000, dom := .moduleD,
      rw := 0x000000000000, wc := 0x000000000000, ws := 0x000000000000, wo := 0x000000000000, sr := false, srMask := 0x000000000000 }, -- TWN_BACKLOG
    { base := 0xA0013, s1 := 0x1, n1 := 1, s2 := 1, n2 := 1, reset := 0x000000000000, dom := .moduleD,
      rw := 0x000000000000, wc := 0x000000000000, ws := 0x000000000000, wo := 0x000000000000, sr := false, srMask := 0x000000000000 }, -- TWN_SYNC
    { base := 0xA0014, s1 := 0x1, n1 := 1, s2 := 1, n2 := 1, reset := 0x000000000000, dom := .aux,
      rw := 0x000000000000, wc := 0x000000000000, ws := 0x000000000000, wo := 0x000000000000, sr := false, srMask := 0x000000000000 }, -- TWN_PULSEERR
    { base := 0xA0015, s1 := 0x1, n1 := 1, s2 := 1, n2 := 1, reset := 0x000000000000, dom := .aux,
      rw := 0x000000000000, wc := 0x000000000000, ws := 0x000000000000, wo := 0x000000000000, sr := false, srMask := 0x000000000000 }, -- TWN_LINKERR
    { base := 0xA0016, s1 := 0x1, n1 := 1, s2 := 1, n2 := 1, reset := 0x000000000000, dom := .aux,
      rw := 0x000000000000, wc := 0x000000000000, ws := 0x000000000000, wo := 0x000000000000, sr := false, srMask := 0x000000000000 } ] -- TWN_EPOCHS

/-- The SEAL_ registers (R176). -/
def regMapSeal : List RegRow :=
  [ { base := 0x260000, s1 := 0x1, n1 := 1, s2 := 1, n2 := 1, reset := 0x000000000000, dom := .moduleD,
      rw := 0x000000000000, wc := 0x000000000000, ws := 0x000000000000, wo := 0x000000000000, sr := false, srMask := 0x000000000000 }, -- SEAL_STAT
    { base := 0x260001, s1 := 0x1, n1 := 1, s2 := 1, n2 := 1, reset := 0x000000000000, dom := .moduleD,
      rw := 0xBC0000000000, wc := 0x000000000000, ws := 0x000000000000, wo := 0x000000000000, sr := true, srMask := 0xBC0000000000 }, -- SEAL_CTL
    { base := 0x260002, s1 := 0x1, n1 := 1, s2 := 1, n2 := 1, reset := 0x000000000000, dom := .moduleD,
      rw := 0x0000FFFFF000, wc := 0x000000000000, ws := 0x000000000000, wo := 0x000000000000, sr := true, srMask := 0xFFFFFFFFFFFF }, -- SEAL_RBASE
    { base := 0x260003, s1 := 0x1, n1 := 1, s2 := 1, n2 := 1, reset := 0x000000000000, dom := .moduleD,
      rw := 0x0000000FFFFF, wc := 0x000000000000, ws := 0x000000000000, wo := 0x000000000000, sr := true, srMask := 0xFFFFFFFFFFFF }, -- SEAL_RSIZE
    { base := 0x260004, s1 := 0x1, n1 := 1, s2 := 1, n2 := 1, reset := 0x000000000000, dom := .moduleD,
      rw := 0x000000000000, wc := 0x000000000000, ws := 0x000000000000, wo := 0x000000000000, sr := false, srMask := 0x000000000000 }, -- SEAL_HEAD
    { base := 0x260005, s1 := 0x1, n1 := 1, s2 := 1, n2 := 1, reset := 0x000000000000, dom := .moduleD,
      rw := 0x0000FFFFFFFF, wc := 0x000000000000, ws := 0x000000000000, wo := 0x000000000000, sr := false, srMask := 0x000000000000 }, -- SEAL_TAIL
    { base := 0x260006, s1 := 0x1, n1 := 1, s2 := 1, n2 := 1, reset := 0x000000000000, dom := .moduleD,
      rw := 0x000000000000, wc := 0x000000000000, ws := 0x000000000000, wo := 0x000000000000, sr := false, srMask := 0x000000000000 }, -- SEAL_USED
    { base := 0x260007, s1 := 0x1, n1 := 1, s2 := 1, n2 := 1, reset := 0x000000000000, dom := .moduleD,
      rw := 0x000000000000, wc := 0x000000000000, ws := 0x000000000000, wo := 0x000000000000, sr := false, srMask := 0x000000000000 }, -- SEAL_LASTV
    { base := 0x260008, s1 := 0x1, n1 := 1, s2 := 1, n2 := 1, reset := 0x000000000000, dom := .moduleD,
      rw := 0x000000000000, wc := 0x000000000000, ws := 0x000000000000, wo := 0x000000000000, sr := false, srMask := 0x000000000000 }, -- SEAL_LASTNO
    { base := 0x260009, s1 := 0x1, n1 := 1, s2 := 1, n2 := 1, reset := 0x000000000000, dom := .moduleD,
      rw := 0x000000000000, wc := 0x000000000000, ws := 0x000000000000, wo := 0x000000000000, sr := false, srMask := 0x000000000000 }, -- SEAL_BACKLOG
    { base := 0x26000A, s1 := 0x1, n1 := 1, s2 := 1, n2 := 1, reset := 0x000000000000, dom := .moduleD,
      rw := 0x000000000000, wc := 0x000000000000, ws := 0x000000000000, wo := 0x000000000000, sr := false, srMask := 0x000000000000 }, -- SEAL_KEYID
    { base := 0x26000B, s1 := 0x1, n1 := 1, s2 := 1, n2 := 1, reset := 0x000000000000, dom := .moduleD,
      rw := 0xFFFFFFFFFFFF, wc := 0x000000000000, ws := 0x000000000000, wo := 0x000000000000, sr := true, srMask := 0xFFFFFFFFFFFF }, -- SEAL_PEERKEYID
    { base := 0x26000C, s1 := 0x1, n1 := 1, s2 := 1, n2 := 1, reset := 0x000000000000, dom := .moduleD,
      rw := 0x000000000000, wc := 0x000000000000, ws := 0x000000000000, wo := 0x000000000000, sr := false, srMask := 0x000000000000 }, -- SEAL_VERIFIED
    { base := 0x26000D, s1 := 0x1, n1 := 1, s2 := 1, n2 := 1, reset := 0x000000000000, dom := .moduleD,
      rw := 0x000000000000, wc := 0x000000000000, ws := 0x000000000000, wo := 0x000000000000, sr := false, srMask := 0x000000000000 }, -- SEAL_VERFAIL
    { base := 0x26000E, s1 := 0x1, n1 := 1, s2 := 1, n2 := 1, reset := 0x000000000000, dom := .moduleD,
      rw := 0x000000000000, wc := 0x000000000000, ws := 0x000000000000, wo := 0x000000000000, sr := false, srMask := 0x000000000000 } ] -- SEAL_ERR

/-- The CE_ registers (R200). -/
def regMapCe : List RegRow :=
  [ { base := 0x200000, s1 := 0x100, n1 := 64, s2 := 1, n2 := 1, reset := 0x000000000000, dom := .engine,
      rw := 0x000000000000, wc := 0x000000000000, ws := 0x000000000000, wo := 0x000000000000, sr := false, srMask := 0x000000000000 }, -- CE_STAT[e]
    { base := 0x200001, s1 := 0x100, n1 := 64, s2 := 1, n2 := 1, reset := 0x000000000001, dom := .moduleD,
      rw := 0x000000000001, wc := 0x000000000000, ws := 0x000000000000, wo := 0x000000000002, sr := false, srMask := 0x000000000000 }, -- CE_CTL[e]
    { base := 0x200002, s1 := 0x100, n1 := 64, s2 := 1, n2 := 1, reset := 0x000000000000, dom := .engine,
      rw := 0x000000000000, wc := 0x000000000000, ws := 0x000000000000, wo := 0x000000000000, sr := false, srMask := 0x000000000000 }, -- CE_JOB[e]
    { base := 0x200003, s1 := 0x100, n1 := 64, s2 := 1, n2 := 1, reset := 0x000000000000, dom := .engine,
      rw := 0x000000000000, wc := 0x000000000000, ws := 0x000000000000, wo := 0x000000000000, sr := false, srMask := 0x000000000000 }, -- CE_SLIPPC[e]
    { base := 0x200004, s1 := 0x100, n1 := 64, s2 := 1, n2 := 1, reset := 0x000000000000, dom := .engine,
      rw := 0x000000000000, wc := 0x000000000000, ws := 0x000000000000, wo := 0x000000000000, sr := false, srMask := 0x000000000000 }, -- CE_SLIPS[e]
    { base := 0x200005, s1 := 0x100, n1 := 64, s2 := 1, n2 := 1, reset := 0x000000000000, dom := .engine,
      rw := 0x000000000000, wc := 0x000000000000, ws := 0x000000000000, wo := 0x000000000000, sr := false, srMask := 0x000000000000 }, -- CE_BUSY[e]
    { base := 0x200006, s1 := 0x100, n1 := 64, s2 := 1, n2 := 1, reset := 0x000000000000, dom := .moduleD,
      rw := 0x000000000000, wc := 0x000000000000, ws := 0x000000000000, wo := 0x000000000000, sr := false, srMask := 0x000000000000 }, -- CE_FAULTS[e]
    { base := 0x204000, s1 := 0x1, n1 := 1, s2 := 1, n2 := 1, reset := 0x000000004000, dom := .moduleD,
      rw := 0x000000FFFFFF, wc := 0x000000000000, ws := 0x000000000000, wo := 0x000000000000, sr := false, srMask := 0x000000000000 }, -- CE_QUANTUM
    { base := 0x204001, s1 := 0x1, n1 := 1, s2 := 1, n2 := 1, reset := 0x000000000000, dom := .moduleD,
      rw := 0x000000000000, wc := 0x000000000000, ws := 0x000000000000, wo := 0x000000000000, sr := false, srMask := 0x000000000000 }, -- CE_LIVE
    { base := 0x204002, s1 := 0x1, n1 := 1, s2 := 1, n2 := 1, reset := 0x000000000000, dom := .moduleD,
      rw := 0x000000000000, wc := 0x000000000000, ws := 0x000000000000, wo := 0x000000000000, sr := false, srMask := 0x000000000000 }, -- CE_READY
    { base := 0x204003, s1 := 0x1, n1 := 1, s2 := 1, n2 := 1, reset := 0x000000000000, dom := .moduleD,
      rw := 0x000000000000, wc := 0x000000000000, ws := 0x000000000000, wo := 0x000000000000, sr := false, srMask := 0x000000000000 }, -- CE_WAITING
    { base := 0x204004, s1 := 0x1, n1 := 1, s2 := 1, n2 := 1, reset := 0x000000000000, dom := .moduleD,
      rw := 0x000000000000, wc := 0x000000000000, ws := 0x000000000000, wo := 0x000000000000, sr := false, srMask := 0x000000000000 }, -- CE_DEFER
    { base := 0x204005, s1 := 0x1, n1 := 1, s2 := 1, n2 := 1, reset := 0x000000000000, dom := .moduleD,
      rw := 0x000000000000, wc := 0x000000000000, ws := 0x000000000000, wo := 0x000000000000, sr := false, srMask := 0x000000000000 }, -- CE_DOORS
    { base := 0x204006, s1 := 0x1, n1 := 1, s2 := 1, n2 := 1, reset := 0x000000000000, dom := .moduleD,
      rw := 0x000000000000, wc := 0x000000000000, ws := 0x000000000000, wo := 0x000000000000, sr := false, srMask := 0x000000000000 } ] -- CE_REFUSED

/-- The TEN_ registers (R220). -/
def regMapTen : List RegRow :=
  [ { base := 0xC0000, s1 := 0x400, n1 := 16, s2 := 1, n2 := 1, reset := 0x000000000000, dom := .tenant,
      rw := 0x000000000000, wc := 0x000000000000, ws := 0x000000000000, wo := 0x000000000000, sr := false, srMask := 0x000000000000 }, -- TEN_STAT
    { base := 0xC0001, s1 := 0x400, n1 := 16, s2 := 1, n2 := 1, reset := 0x004000000000, dom := .moduleD,
      rw := 0xFFFC0000FFFF, wc := 0x000000000000, ws := 0x000000000000, wo := 0x000000000000, sr := false, srMask := 0xE00000000000 }, -- TEN_CTL
    { base := 0xC0002, s1 := 0x400, n1 := 16, s2 := 1, n2 := 1, reset := 0x000000001000, dom := .moduleD,
      rw := 0x000000001FFF, wc := 0x000000000000, ws := 0x000000000000, wo := 0x000000000000, sr := false, srMask := 0x000000000000 }, -- TEN_CARMAX
    { base := 0xC0003, s1 := 0x400, n1 := 16, s2 := 1, n2 := 1, reset := 0x000000000000, dom := .tenant,
      rw := 0x000000000000, wc := 0x000000000000, ws := 0x000000000000, wo := 0xC00FFFFFFFFF, sr := false, srMask := 0x000000000000 }, -- TEN_CARREQ
    { base := 0xC0004, s1 := 0x400, n1 := 16, s2 := 1, n2 := 1, reset := 0x000000000000, dom := .tenant,
      rw := 0x000000000000, wc := 0x000000000000, ws := 0x000000000000, wo := 0x000000000000, sr := false, srMask := 0x000000000000 }, -- TEN_CARRES
    { base := 0xC0005, s1 := 0x400, n1 := 16, s2 := 1, n2 := 1, reset := 0x000000000000, dom := .tenant,
      rw := 0x000000000000, wc := 0x000000000000, ws := 0x000000000000, wo := 0x000000000000, sr := false, srMask := 0x000000000000 }, -- TEN_CQNEXT
    { base := 0xC0006, s1 := 0x400, n1 := 16, s2 := 1, n2 := 1, reset := 0x000000000000, dom := .tenant,
      rw := 0x000000000000, wc := 0x000000000000, ws := 0x000000000000, wo := 0x000000000001, sr := false, srMask := 0x000000000000 }, -- TEN_RESET
    { base := 0xC0008, s1 := 0x400, n1 := 16, s2 := 1, n2 := 1, reset := 0x000000000000, dom := .moduleD,
      rw := 0x0000FFFFF000, wc := 0x000000000000, ws := 0x000000000000, wo := 0x000000000000, sr := false, srMask := 0x000000000000 }, -- TEN_MPLBASE
    { base := 0xC0009, s1 := 0x400, n1 := 16, s2 := 1, n2 := 1, reset := 0x000000000000, dom := .tenant,
      rw := 0x000000000000, wc := 0x000000000000, ws := 0x000000000000, wo := 0x000000000000, sr := false, srMask := 0x000000000000 }, -- TEN_MPLHEAD
    { base := 0xC000A, s1 := 0x400, n1 := 16, s2 := 1, n2 := 1, reset := 0x000000000000, dom := .tenant,
      rw := 0x00000000FFFF, wc := 0x000000000000, ws := 0x000000000000, wo := 0x000000000000, sr := false, srMask := 0x000000000000 }, -- TEN_MPLTAIL
    { base := 0xC000B, s1 := 0x400, n1 := 16, s2 := 1, n2 := 1, reset := 0x000000000000, dom := .moduleD,
      rw := 0x0000FFFFF000, wc := 0x000000000000, ws := 0x000000000000, wo := 0x000000000000, sr := false, srMask := 0x000000000000 }, -- TEN_MPBMBASE
    { base := 0xC000C, s1 := 0x400, n1 := 16, s2 := 1, n2 := 1, reset := 0x000000000000, dom := .moduleD,
      rw := 0x000000000FFF, wc := 0x000000000000, ws := 0x000000000000, wo := 0x000000000000, sr := false, srMask := 0x000000000000 }, -- TEN_MPBMSIZE
    { base := 0xC000D, s1 := 0x400, n1 := 16, s2 := 1, n2 := 1, reset := 0x000000000000, dom := .moduleD,
      rw := 0x800000000000, wc := 0x000000000000, ws := 0x400000000000, wo := 0x000000000000, sr := false, srMask := 0x000000000000 } ] -- TEN_MPLCTL

/-- The CAR_ registers (R221). -/
def regMapCar : List RegRow :=
  [ { base := 0x100000, s1 := 0x40, n1 := 4096, s2 := 1, n2 := 1, reset := 0x000000000000, dom := .carrel,
      rw := 0x000000000000, wc := 0x000000000003, ws := 0x000000000000, wo := 0x000000000000, sr := false, srMask := 0x000000000000 }, -- CAR_STAT
    { base := 0x100001, s1 := 0x40, n1 := 4096, s2 := 1, n2 := 1, reset := 0x040000000040, dom := .moduleD,
      rw := 0xBFC000007FFF, wc := 0x000000000000, ws := 0x000000000000, wo := 0x000000000000, sr := false, srMask := 0x000000000000 }, -- CAR_CTL
    { base := 0x100002, s1 := 0x40, n1 := 4096, s2 := 1, n2 := 1, reset := 0x000000000000, dom := .moduleD,
      rw := 0xF000000FFFFF, wc := 0x000000000000, ws := 0x000000000000, wo := 0x000000000000, sr := false, srMask := 0x000000000000 }, -- CAR_CTX
    { base := 0x100003, s1 := 0x40, n1 := 4096, s2 := 1, n2 := 1, reset := 0x000000000000, dom := .moduleD,
      rw := 0x0000FFFFFFFF, wc := 0x000000000000, ws := 0x000000000000, wo := 0x000000000000, sr := false, srMask := 0x000000000000 }, -- CAR_WINBASE
    { base := 0x100004, s1 := 0x40, n1 := 4096, s2 := 1, n2 := 1, reset := 0x000000000000, dom := .moduleD,
      rw := 0x0000003FFFFF, wc := 0x000000000000, ws := 0x000000000000, wo := 0x000000000000, sr := false, srMask := 0x000000000000 }, -- CAR_WINSIZE
    { base := 0x100005, s1 := 0x40, n1 := 4096, s2 := 1, n2 := 1, reset := 0x000000000000, dom := .moduleD,
      rw := 0x00FFFFFFFFFF, wc := 0x000000000000, ws := 0x000000000000, wo := 0x000000000000, sr := false, srMask := 0x000000000000 }, -- CAR_CQBASE
    { base := 0x100006, s1 := 0x40, n1 := 4096, s2 := 1, n2 := 1, reset := 0x000000000004, dom := .moduleD,
      rw := 0x00000000001F, wc := 0x000000000000, ws := 0x000000000000, wo := 0x000000000000, sr := false, srMask := 0x000000000000 }, -- CAR_CQSIZE
    { base := 0x100007, s1 := 0x40, n1 := 4096, s2 := 1, n2 := 1, reset := 0x000000000000, dom := .carrel,
      rw := 0x000000000000, wc := 0x000000000000, ws := 0x000000000000, wo := 0x000000000000, sr := false, srMask := 0x000000000000 }, -- CAR_CQHEAD
    { base := 0x100008, s1 := 0x40, n1 := 4096, s2 := 1, n2 := 1, reset := 0x000000000000, dom := .carrel,
      rw := 0x00000000FFFF, wc := 0x000000000000, ws := 0x000000000000, wo := 0x000000000000, sr := false, srMask := 0x000000000000 }, -- CAR_CQTAIL
    { base := 0x100009, s1 := 0x40, n1 := 4096, s2 := 1, n2 := 1, reset := 0x000000000000, dom := .moduleD,
      rw := 0x000000000000, wc := 0x000000000000, ws := 0x000000000000, wo := 0x000000000000, sr := false, srMask := 0x000000000000 }, -- CAR_GEN
    { base := 0x10000A, s1 := 0x40, n1 := 4096, s2 := 1, n2 := 1, reset := 0x000000000000, dom := .carrel,
      rw := 0x000000000000, wc := 0x000000000000, ws := 0x000000000000, wo := 0x000000000001, sr := false, srMask := 0x000000000000 }, -- CAR_RESET
    { base := 0x10000B, s1 := 0x40, n1 := 4096, s2 := 1, n2 := 1, reset := 0x000000000000, dom := .moduleD,
      rw := 0x000000000000, wc := 0x000000000000, ws := 0x000000000000, wo := 0x000000000000, sr := false, srMask := 0x000000000000 }, -- CAR_ERR
    { base := 0x10000C, s1 := 0x40, n1 := 4096, s2 := 1, n2 := 1, reset := 0x000000000000, dom := .moduleD,
      rw := 0x000000000000, wc := 0x000000000000, ws := 0x000000000000, wo := 0x000000000000, sr := false, srMask := 0x000000000000 }, -- CAR_DOORS
    { base := 0x10000D, s1 := 0x40, n1 := 4096, s2 := 1, n2 := 1, reset := 0x000000000000, dom := .moduleD,
      rw := 0x000000000000, wc := 0x000000000000, ws := 0x000000000000, wo := 0x000000000000, sr := false, srMask := 0x000000000000 }, -- CAR_DONE
    { base := 0x10000E, s1 := 0x40, n1 := 4096, s2 := 1, n2 := 1, reset := 0x000000000000, dom := .moduleD,
      rw := 0x000000000000, wc := 0x000000000000, ws := 0x000000000000, wo := 0x000000000000, sr := false, srMask := 0x000000000000 } ] -- CAR_DROPPED

/-- The CORE_ registers (R238, R300). -/
def regMapCore : List RegRow :=
  [ { base := 0x2FF000, s1 := 0x1, n1 := 1, s2 := 1, n2 := 1, reset := 0x000000000000, dom := .core,
      rw := 0x8000000FFFFF, wc := 0x000000000000, ws := 0x000000000000, wo := 0x000000000000, sr := false, srMask := 0x000000000000 }, -- CORE_XROOT
    { base := 0x2FF001, s1 := 0x1, n1 := 1, s2 := 1, n2 := 1, reset := 0x000000000000, dom := .core,
      rw := 0x8000000FFFFF, wc := 0x000000000000, ws := 0x000000000000, wo := 0x000000000000, sr := true, srMask := 0xFFFFFFFFFFFF }, -- CORE_XROOT_SR
    { base := 0x2FF002, s1 := 0x1, n1 := 1, s2 := 1, n2 := 1, reset := 0x000000000000, dom := .core,
      rw := 0x000000000000, wc := 0x000000000000, ws := 0x000000000000, wo := 0xC0000FFFFFFF, sr := false, srMask := 0x000000000000 }, -- CORE_XFLUSH
    { base := 0x2FF003, s1 := 0x1, n1 := 1, s2 := 1, n2 := 1, reset := 0x000000000000, dom := .core,
      rw := 0x000000000000, wc := 0x000000000000, ws := 0x000000000000, wo := 0x000000000000, sr := false, srMask := 0x000000000000 }, -- CORE_ID
    { base := 0x2FF010, s1 := 0x1, n1 := 1, s2 := 1, n2 := 1, reset := 0x000000000000, dom := .core,
      rw := 0x000000000000, wc := 0x000000000000, ws := 0x000000000000, wo := 0x000000000000, sr := false, srMask := 0x000000000000 }, -- CORE_NSSTAT
    { base := 0x2FF011, s1 := 0x1, n1 := 1, s2 := 1, n2 := 1, reset := 0x000000000000, dom := .core,
      rw := 0x000000000000, wc := 0x000000000000, ws := 0x000000000000, wo := 0x000000000000, sr := false, srMask := 0x000000000000 }, -- CORE_NS_SKIPPED
    { base := 0x2FF012, s1 := 0x1, n1 := 1, s2 := 1, n2 := 1, reset := 0x000000000000, dom := .core,
      rw := 0x000000000000, wc := 0x000000000000, ws := 0x000000000000, wo := 0x000000000000, sr := false, srMask := 0x000000000000 }, -- CORE_PRED
    { base := 0x2FF014, s1 := 0x1, n1 := 1, s2 := 1, n2 := 1, reset := 0x000000000000, dom := .core,
      rw := 0x800FFFFFFFFF, wc := 0x000000000000, ws := 0x000000000000, wo := 0x000000000000, sr := false, srMask := 0x800000000000 }, -- CORE_PMCTL
    { base := 0x2FF015, s1 := 0x1, n1 := 1, s2 := 1, n2 := 1, reset := 0x000000000000, dom := .core,
      rw := 0xFFFFFFFFFFFF, wc := 0x000000000000, ws := 0x000000000000, wo := 0x000000000000, sr := false, srMask := 0x000000000000 }, -- CORE_PMC0
    { base := 0x2FF016, s1 := 0x1, n1 := 1, s2 := 1, n2 := 1, reset := 0x000000000000, dom := .core,
      rw := 0xFFFFFFFFFFFF, wc := 0x000000000000, ws := 0x000000000000, wo := 0x000000000000, sr := false, srMask := 0x000000000000 }, -- CORE_PMC1
    { base := 0x2FF017, s1 := 0x1, n1 := 1, s2 := 1, n2 := 1, reset := 0x000000000000, dom := .core,
      rw := 0xFFFFFFFFFFFF, wc := 0x000000000000, ws := 0x000000000000, wo := 0x000000000000, sr := false, srMask := 0x000000000000 }, -- CORE_PMC2
    { base := 0x2FF018, s1 := 0x1, n1 := 1, s2 := 1, n2 := 1, reset := 0x000000000000, dom := .core,
      rw := 0xFFFFFFFFFFFF, wc := 0x000000000000, ws := 0x000000000000, wo := 0x000000000000, sr := false, srMask := 0x000000000000 } ] -- CORE_PMC3

/-- The CLU_ registers (R320). -/
def regMapClu : List RegRow :=
  [ { base := 0x2C0000, s1 := 0x1000, n1 := 4, s2 := 1, n2 := 1, reset := 0x000000000000, dom := .moduleD,
      rw := 0x000000000000, wc := 0x000000000000, ws := 0x000000000000, wo := 0x000000000000, sr := false, srMask := 0x000000000000 }, -- CLU_STAT
    { base := 0x2C0001, s1 := 0x1000, n1 := 4, s2 := 1, n2 := 1, reset := 0x400000000258, dom := .moduleD,
      rw := 0xC0000000FFFF, wc := 0x000000000000, ws := 0x000000000000, wo := 0x000000000000, sr := false, srMask := 0x800000000000 }, -- CLU_CTL
    { base := 0x2C0002, s1 := 0x1000, n1 := 4, s2 := 1, n2 := 1, reset := 0x000000000000, dom := .moduleD,
      rw := 0x000000000000, wc := 0x000000000000, ws := 0x000000000000, wo := 0xC0000000001F, sr := false, srMask := 0x000000000000 }, -- CLU_BISTREQ
    { base := 0x2C0003, s1 := 0x1000, n1 := 4, s2 := 1, n2 := 1, reset := 0x000000000000, dom := .moduleD,
      rw := 0x000000000000, wc := 0x000000000000, ws := 0x000000000000, wo := 0x000000000000, sr := false, srMask := 0x000000000000 }, -- CLU_BISTRES
    { base := 0x2C0004, s1 := 0x1000, n1 := 4, s2 := 1, n2 := 1, reset := 0x000000000000, dom := .moduleD,
      rw := 0x000000000000, wc := 0x000000000000, ws := 0x000000000000, wo := 0x000000000000, sr := false, srMask := 0x000000000000 }, -- CLU_LASTEV
    { base := 0x2C0005, s1 := 0x1000, n1 := 4, s2 := 1, n2 := 1, reset := 0x000000000000, dom := .moduleD,
      rw := 0x000000000000, wc := 0x000000000000, ws := 0x000000000000, wo := 0x000000000000, sr := false, srMask := 0x000000000000 }, -- CLU_RETRIES
    { base := 0x2C0006, s1 := 0x1000, n1 := 4, s2 := 1, n2 := 1, reset := 0x000000000000, dom := .moduleD,
      rw := 0x000000000000, wc := 0x000000000000, ws := 0x000000000000, wo := 0x000000000000, sr := false, srMask := 0x000000000000 }, -- CLU_SPARINGS
    { base := 0x2C0007, s1 := 0x1000, n1 := 4, s2 := 1, n2 := 1, reset := 0x000000000000, dom := .moduleD,
      rw := 0x000000000000, wc := 0x000000000000, ws := 0x000000000000, wo := 0x000000000000, sr := false, srMask := 0x000000000000 }, -- CLU_SELFTEST
    { base := 0x2C0008, s1 := 0x1000, n1 := 4, s2 := 1, n2 := 1, reset := 0x000000000000, dom := .moduleD,
      rw := 0x0000FFFFF000, wc := 0x000000000000, ws := 0x000000000000, wo := 0x000000000000, sr := true, srMask := 0xFFFFFFFFFFFF }, -- CLU_PARKBASE
    { base := 0x2C0009, s1 := 0x1000, n1 := 4, s2 := 1, n2 := 1, reset := 0x000000000000, dom := .moduleD,
      rw := 0xC00000000000, wc := 0x000000000000, ws := 0x000000000000, wo := 0x000000000000, sr := false, srMask := 0xC00000000000 }, -- CLU_DBG
    { base := 0x2C0100, s1 := 0x1000, n1 := 4, s2 := 16, n2 := 16, reset := 0x000000000000, dom := .core,
      rw := 0x000000000000, wc := 0x000000000000, ws := 0x000000000000, wo := 0x000000000000, sr := false, srMask := 0x000000000000 }, -- CLU_SEAT[k]
    { base := 0x2C0101, s1 := 0x1000, n1 := 4, s2 := 16, n2 := 16, reset := 0x000000000000, dom := .core,
      rw := 0x000000000000, wc := 0x000000000000, ws := 0x000000000000, wo := 0x000000000001, sr := false, srMask := 0x000000000000 }, -- CLU_SEATRESET[k]
    { base := 0x2C0400, s1 := 0x1000, n1 := 4, s2 := 4, n2 := 20, reset := 0x000000000000, dom := .moduleD,
      rw := 0x000000000000, wc := 0x000000000000, ws := 0x000000000000, wo := 0x000000000000, sr := false, srMask := 0x000000000000 } ] -- CLU_UNIT[u]

/-- The MEM_ registers (R336). -/
def regMapMem : List RegRow :=
  [ { base := 0x2A0000, s1 := 0x1, n1 := 1, s2 := 1, n2 := 1, reset := 0x000000000001, dom := .moduleD,
      rw := 0x000000000000, wc := 0x000000000000, ws := 0x000000000000, wo := 0x000000000000, sr := false, srMask := 0x000000000000 }, -- MEM_STAT
    { base := 0x2A0001, s1 := 0x1, n1 := 1, s2 := 1, n2 := 1, reset := 0x001E00180010, dom := .moduleD,
      rw := 0xFFFF00FF00FF, wc := 0x000000000000, ws := 0x000000000000, wo := 0x000000000000, sr := true, srMask := 0xFFFF00FF00FF }, -- MEM_CTL
    { base := 0x2A0002, s1 := 0x1, n1 := 1, s2 := 1, n2 := 1, reset := 0x000000000000, dom := .moduleD,
      rw := 0x000000000000, wc := 0x000000000002, ws := 0x000000000000, wo := 0x000000000000, sr := false, srMask := 0x000000000000 }, -- MEM_ALARM
    { base := 0x2A0003, s1 := 0x1, n1 := 1, s2 := 1, n2 := 1, reset := 0x000000000000, dom := .moduleD,
      rw := 0x000000000000, wc := 0x000000000000, ws := 0x000000000000, wo := 0x000000000000, sr := false, srMask := 0x000000000000 }, -- MEM_CORR
    { base := 0x2A0004, s1 := 0x1, n1 := 1, s2 := 1, n2 := 1, reset := 0x000000000000, dom := .moduleD,
      rw := 0x000000000000, wc := 0x000000000000, ws := 0x000000000000, wo := 0x000000000000, sr := false, srMask := 0x000000000000 }, -- MEM_REBUILT
    { base := 0x2A0005, s1 := 0x1, n1 := 1, s2 := 1, n2 := 1, reset := 0x000000000000, dom := .moduleD,
      rw := 0x000000000000, wc := 0x000000000000, ws := 0x000000000000, wo := 0x000000000000, sr := false, srMask := 0x000000000000 }, -- MEM_POISONED
    { base := 0x2A0006, s1 := 0x1, n1 := 1, s2 := 1, n2 := 1, reset := 0x000000000000, dom := .moduleD,
      rw := 0x000000000000, wc := 0x000000000000, ws := 0x000000000000, wo := 0x000000000000, sr := false, srMask := 0x000000000000 }, -- MEM_LASTPOISON
    { base := 0x2A0007, s1 := 0x1, n1 := 1, s2 := 1, n2 := 1, reset := 0x000000000000, dom := .moduleD,
      rw := 0x000000000000, wc := 0x000000000000, ws := 0x000000000000, wo := 0x000000000000, sr := false, srMask := 0x000000000000 }, -- MEM_SCRUB
    { base := 0x2A0008, s1 := 0x1, n1 := 1, s2 := 1, n2 := 1, reset := 0x000000000000, dom := .moduleD,
      rw := 0x4000000FFFFF, wc := 0x000000000000, ws := 0x800000000000, wo := 0x000000000000, sr := false, srMask := 0x000000000000 }, -- MEM_CHGREQ
    { base := 0x2A0009, s1 := 0x1, n1 := 1, s2 := 1, n2 := 1, reset := 0x000000000000, dom := .moduleD,
      rw := 0x000000000000, wc := 0x000000000000, ws := 0x000000000000, wo := 0x000000000000, sr := false, srMask := 0x000000000000 }, -- MEM_CHGRES
    { base := 0x2A000A, s1 := 0x1, n1 := 1, s2 := 1, n2 := 1, reset := 0x000000000000, dom := .moduleD,
      rw := 0x000000000000, wc := 0x000000000000, ws := 0x000000000000, wo := 0x8000000FFFFF, sr := true, srMask := 0x8000000FFFFF }, -- MEM_SRPAGE
    { base := 0x2A000B, s1 := 0x1, n1 := 1, s2 := 1, n2 := 1, reset := 0x000000000000, dom := .moduleD,
      rw := 0x000000000000, wc := 0x000000000000, ws := 0x000000000000, wo := 0x000000000000, sr := true, srMask := 0xF000001FFFFF }, -- MEM_SRSTAT
    { base := 0x2A0080, s1 := 0x1, n1 := 2, s2 := 1, n2 := 1, reset := 0x000000000000, dom := .moduleD,
      rw := 0x000000000000, wc := 0x000000000000, ws := 0x000000000000, wo := 0x000000000000, sr := false, srMask := 0x000000000000 }, -- MEM_GRP[g]
    { base := 0x2A0100, s1 := 0x10, n1 := 18, s2 := 1, n2 := 1, reset := 0x000000000000, dom := .moduleD,
      rw := 0x000000000000, wc := 0x000000000000, ws := 0x000000000000, wo := 0x000000000000, sr := false, srMask := 0x000000000000 }, -- MEM_DEV[d]
    { base := 0x2A0101, s1 := 0x10, n1 := 18, s2 := 1, n2 := 1, reset := 0x000000000000, dom := .moduleD,
      rw := 0x000000000000, wc := 0x000000000000, ws := 0x000000000000, wo := 0x000000000000, sr := false, srMask := 0x000000000000 }, -- MEM_DEVCORR[d]
    { base := 0x2A0102, s1 := 0x10, n1 := 18, s2 := 1, n2 := 1, reset := 0x000000000000, dom := .moduleD,
      rw := 0x000000000000, wc := 0x000000000000, ws := 0x000000000000, wo := 0x000000000000, sr := false, srMask := 0x000000000000 } ] -- MEM_DEVTRAIN[d]

/-- The SR_ registers (R358, R444). -/
def regMapSr : List RegRow :=
  [ { base := 0x380000, s1 := 0x1, n1 := 1, s2 := 1, n2 := 1, reset := 0x000000000000, dom := .moduleD,
      rw := 0x000000000000, wc := 0x000000000000, ws := 0x000000000000, wo := 0x000000000000, sr := true, srMask := 0x000000000007 }, -- SR_STAT
    { base := 0x380001, s1 := 0x1, n1 := 1, s2 := 1, n2 := 1, reset := 0x770000000000, dom := .moduleD,
      rw := 0x000000000000, wc := 0x000000000000, ws := 0x000000000000, wo := 0x000000000000, sr := true, srMask := 0xFFF00000FFFF }, -- SR_BOOT
    { base := 0x380002, s1 := 0x1, n1 := 1, s2 := 1, n2 := 1, reset := 0x000000000000, dom := .moduleD,
      rw := 0x000000000000, wc := 0x000000000000, ws := 0x800000000000, wo := 0x000000000000, sr := true, srMask := 0x80000000000F }, -- SR_COMMIT
    { base := 0x380003, s1 := 0x1, n1 := 1, s2 := 1, n2 := 1, reset := 0x00000019999A, dom := .moduleD,
      rw := 0x000000000000, wc := 0x000000000000, ws := 0x000000000000, wo := 0x800000000000, sr := true, srMask := 0x8000001FFFFF }, -- SR_SWD
    { base := 0x380004, s1 := 0x1, n1 := 1, s2 := 1, n2 := 1, reset := 0x000000000000, dom := .moduleD,
      rw := 0x000000000000, wc := 0x000000000000, ws := 0x000000000000, wo := 0x000000000000, sr := true, srMask := 0xFFFFFFFFFFFF }, -- SR_RESTARTS
    { base := 0x380005, s1 := 0x1, n1 := 1, s2 := 1, n2 := 1, reset := 0x000000000000, dom := .moduleD,
      rw := 0x00000000003F, wc := 0x000000000000, ws := 0x000000000000, wo := 0x000000000000, sr := true, srMask := 0x00000000003F }, -- SR_HOME
    { base := 0x380006, s1 := 0x1, n1 := 1, s2 := 1, n2 := 1, reset := 0x000000000000, dom := .moduleD,
      rw := 0x000000000000, wc := 0x000000000000, ws := 0x000000000000, wo := 0x000000000000, sr := true, srMask := 0xFFFFFFFFFFFF }, -- SR_MONVEC
    { base := 0x380007, s1 := 0x1, n1 := 1, s2 := 1, n2 := 1, reset := 0x000000000000, dom := .aux,
      rw := 0x000000000000, wc := 0x000000000000, ws := 0x000000000000, wo := 0x000000000000, sr := true, srMask := 0x00000000001F }, -- SR_RSTCAUSE
    { base := 0x380008, s1 := 0x1, n1 := 1, s2 := 1, n2 := 1, reset := 0x000000000000, dom := .moduleD,
      rw := 0x78000000FFFF, wc := 0x000000000000, ws := 0x800000000000, wo := 0x000000000000, sr := true, srMask := 0xF8000000FFFF }, -- SR_FUSECTL
    { base := 0x380009, s1 := 0x1, n1 := 1, s2 := 1, n2 := 1, reset := 0x000000000000, dom := .moduleD,
      rw := 0x000000000000, wc := 0x000000000000, ws := 0x000000000000, wo := 0x000000000000, sr := true, srMask := 0xF800FFFF00FF }, -- SR_FUSESTAT
    { base := 0x380010, s1 := 0x1, n1 := 11, s2 := 1, n2 := 1, reset := 0x000000000000, dom := .moduleD,
      rw := 0xFFFFFFFFFFFF, wc := 0x000000000000, ws := 0x000000000000, wo := 0x000000000000, sr := true, srMask := 0xFFFFFFFFFFFF }, -- SR_FUSEDATA[i]
    { base := 0x380020, s1 := 0x10, n1 := 8, s2 := 1, n2 := 11, reset := 0x000000000000, dom := .moduleD,
      rw := 0x000000000000, wc := 0x000000000000, ws := 0x000000000000, wo := 0x000000000000, sr := true, srMask := 0xFFFFFFFFFFFF }, -- SR_MEAS[k][i]
    { base := 0x3800A0, s1 := 0x1, n1 := 1, s2 := 1, n2 := 1, reset := 0x000000000000, dom := .moduleD,
      rw := 0x000000000000, wc := 0x000000000000, ws := 0x000000000000, wo := 0x000000000000, sr := true, srMask := 0xFFFFFFFFFFFF }, -- SR_LOGCNT
    { base := 0x3800A1, s1 := 0x1, n1 := 1, s2 := 1, n2 := 1, reset := 0x000000000000, dom := .moduleD,
      rw := 0x00000000003F, wc := 0x000000000000, ws := 0x000000000000, wo := 0x000000000000, sr := true, srMask := 0xFFFFFFFFFFFF }, -- SR_LOGIDX
    { base := 0x3800A2, s1 := 0x1, n1 := 13, s2 := 1, n2 := 1, reset := 0x000000000000, dom := .moduleD,
      rw := 0x000000000000, wc := 0x000000000000, ws := 0x000000000000, wo := 0x000000000000, sr := true, srMask := 0xFFFFFFFFFFFF }, -- SR_LOGWIN[i]
    { base := 0x3800C0, s1 := 0x1, n1 := 11, s2 := 1, n2 := 1, reset := 0x000000000000, dom := .moduleD,
      rw := 0xFFFFFFFFFFFF, wc := 0x000000000000, ws := 0x000000000000, wo := 0x000000000000, sr := true, srMask := 0xFFFFFFFFFFFF }, -- SR_TWINKEY[i]
    { base := 0x380100, s1 := 0x1, n1 := 256, s2 := 1, n2 := 1, reset := 0x000000000000, dom := .moduleD,
      rw := 0x000000000001, wc := 0x000000000000, ws := 0x000000000000, wo := 0x000000000000, sr := true, srMask := 0x800000000001 }, -- SR_ATTR_PORT[p]
    { base := 0x380200, s1 := 0x1, n1 := 64, s2 := 1, n2 := 1, reset := 0x000000000000, dom := .moduleD,
      rw := 0x000000000001, wc := 0x000000000000, ws := 0x000000000000, wo := 0x000000000000, sr := true, srMask := 0x800000000001 }, -- SR_ATTR_CE[e]
    { base := 0x380240, s1 := 0x1, n1 := 8, s2 := 1, n2 := 1, reset := 0x000000000000, dom := .moduleD,
      rw := 0x000000000001, wc := 0x000000000000, ws := 0x000000000000, wo := 0x000000000000, sr := true, srMask := 0x800000000001 }, -- SR_ATTR_KL[l]
    { base := 0x380248, s1 := 0x1, n1 := 4, s2 := 1, n2 := 1, reset := 0x000000000000, dom := .moduleD,
      rw := 0x000000000001, wc := 0x000000000000, ws := 0x000000000000, wo := 0x000000000000, sr := true, srMask := 0x800000000001 }, -- SR_ATTR_XL[l]
    { base := 0x380250, s1 := 0x1, n1 := 1, s2 := 1, n2 := 1, reset := 0x000000000000, dom := .moduleD,
      rw := 0x000000000003, wc := 0x000000000000, ws := 0x000000000000, wo := 0x000000000000, sr := true, srMask := 0x000000000003 }, -- SR_ATTR_PIN
    { base := 0x380251, s1 := 0x1, n1 := 1, s2 := 1, n2 := 1, reset := 0x000000000004, dom := .moduleD,
      rw := 0x000000000000, wc := 0x000000000000, ws := 0x000000000000, wo := 0x000000000000, sr := true, srMask := 0xFFFFFFFFFFFF }, -- SR_ATTR_FIXED
    { base := 0x380300, s1 := 0x1, n1 := 13, s2 := 1, n2 := 1, reset := 0x000000000000, dom := .moduleD,
      rw := 0x000000000000, wc := 0x000000000000, ws := 0x000000000000, wo := 0x000000000000, sr := true, srMask := 0xE00000FFFFFF }, -- SR_LEASE[b], b = 0x00 to 0x0C
    { base := 0x380310, s1 := 0x1, n1 := 64, s2 := 1, n2 := 1, reset := 0x000000000000, dom := .moduleD,
      rw := 0x000000000000, wc := 0x000000000000, ws := 0x000000000000, wo := 0x000000000000, sr := true, srMask := 0xE00000FFFFFF }, -- SR_LEASE[b], b = 0x10 to 0x4F
    { base := 0x3800B0, s1 := 0x1, n1 := 5, s2 := 1, n2 := 1, reset := 0x000000000000, dom := .moduleD,
      rw := 0x000000000000, wc := 0x000000000000, ws := 0x000000000000, wo := 0x000000000000, sr := true, srMask := 0xFFFFFFFFFFFF }, -- SR_MBIN[i]
    { base := 0x3800B6, s1 := 0x1, n1 := 1, s2 := 1, n2 := 1, reset := 0x000000000000, dom := .moduleD,
      rw := 0x00000000003F, wc := 0x800000000000, ws := 0x400000000000, wo := 0x000000000000, sr := true, srMask := 0xC00000003F3F }, -- SR_MBSTAT
    { base := 0x3800B8, s1 := 0x1, n1 := 5, s2 := 1, n2 := 1, reset := 0x000000000000, dom := .moduleD,
      rw := 0xFFFFFFFFFFFF, wc := 0x000000000000, ws := 0x000000000000, wo := 0x000000000000, sr := true, srMask := 0xFFFFFFFFFFFF } ] -- SR_MBOUT[i]

/-- The KX_ registers (R370). -/
def regMapKx : List RegRow :=
  [ { base := 0x240000, s1 := 0x1, n1 := 1, s2 := 1, n2 := 1, reset := 0x000000000000, dom := .moduleD,
      rw := 0x000000000000, wc := 0x000000000000, ws := 0x000000000000, wo := 0x000000000000, sr := false, srMask := 0x000000000000 }, -- KX_STAT
    { base := 0x240001, s1 := 0x1, n1 := 1, s2 := 1, n2 := 1, reset := 0x000000000000, dom := .moduleD,
      rw := 0x000000000000, wc := 0x000000000000, ws := 0x000000000000, wo := 0x000000000000, sr := true, srMask := 0xFFFFFF000FFF }, -- KX_ROLLEV
    { base := 0x240002, s1 := 0x1, n1 := 1, s2 := 1, n2 := 1, reset := 0x000000000000, dom := .moduleD,
      rw := 0x8000000000FF, wc := 0x000000000000, ws := 0x000000000000, wo := 0x000000000000, sr := true, srMask := 0x8000000000FF }, -- KX_TWINSLOT
    { base := 0x240003, s1 := 0x1, n1 := 1, s2 := 1, n2 := 1, reset := 0x000000000000, dom := .moduleD,
      rw := 0x000000000000, wc := 0x000000000000, ws := 0x000000000000, wo := 0x000000000000, sr := false, srMask := 0x000000000000 }, -- KX_FAULTS
    { base := 0x240010, s1 := 0x10, n1 := 8, s2 := 1, n2 := 1, reset := 0x000000000000, dom := .engine,
      rw := 0x000000000000, wc := 0x000000000000, ws := 0x000000000000, wo := 0x000000000000, sr := false, srMask := 0x000000000000 }, -- KX_LSTAT[l]
    { base := 0x240011, s1 := 0x10, n1 := 8, s2 := 1, n2 := 1, reset := 0x000000000001, dom := .moduleD,
      rw := 0x000000000001, wc := 0x000000000000, ws := 0x000000000000, wo := 0x000000000002, sr := false, srMask := 0x000000000000 }, -- KX_LCTL[l]
    { base := 0x240012, s1 := 0x10, n1 := 8, s2 := 1, n2 := 1, reset := 0x000000000000, dom := .engine,
      rw := 0x000000000000, wc := 0x000000000000, ws := 0x000000000000, wo := 0x000000000000, sr := false, srMask := 0x000000000000 }, -- KX_LJOBS[l]
    { base := 0x240013, s1 := 0x10, n1 := 8, s2 := 1, n2 := 1, reset := 0x000000000000, dom := .engine,
      rw := 0x000000000000, wc := 0x000000000000, ws := 0x000000000000, wo := 0x000000000000, sr := false, srMask := 0x000000000000 }, -- KX_LOCTETS[l]
    { base := 0x241000, s1 := 0x8, n1 := 256, s2 := 1, n2 := 1, reset := 0x000000000000, dom := .moduleD,
      rw := 0x8F0000000000, wc := 0x000000000000, ws := 0x000000000000, wo := 0x000000000000, sr := false, srMask := 0x000000000000 }, -- KX_SOWN[s]
    { base := 0x241001, s1 := 0x8, n1 := 256, s2 := 1, n2 := 1, reset := 0x000000000000, dom := .moduleD,
      rw := 0x000000000000, wc := 0x000000000000, ws := 0x000000000000, wo := 0x000000000000, sr := false, srMask := 0x000000000000 }, -- KX_SSTAT[s]
    { base := 0x241002, s1 := 0x8, n1 := 256, s2 := 1, n2 := 1, reset := 0x000000000000, dom := .moduleD,
      rw := 0x000000000000, wc := 0x000000000000, ws := 0x000000000000, wo := 0x000000000000, sr := false, srMask := 0x000000000000 }, -- KX_SFIXED[s]
    { base := 0x241003, s1 := 0x8, n1 := 256, s2 := 1, n2 := 1, reset := 0x000000000000, dom := .moduleD,
      rw := 0x000000000000, wc := 0x000000000000, ws := 0x000000000000, wo := 0x000000000000, sr := false, srMask := 0x000000000000 }, -- KX_SCTR_HI[s]
    { base := 0x241004, s1 := 0x8, n1 := 256, s2 := 1, n2 := 1, reset := 0x000000000000, dom := .moduleD,
      rw := 0x000000000000, wc := 0x000000000000, ws := 0x000000000000, wo := 0x000000000000, sr := false, srMask := 0x000000000000 }, -- KX_SCTR_LO[s]
    { base := 0x241005, s1 := 0x8, n1 := 256, s2 := 1, n2 := 1, reset := 0x000000000000, dom := .moduleD,
      rw := 0x000000000000, wc := 0x000000000000, ws := 0x000000000000, wo := 0x000000000000, sr := false, srMask := 0x000000000000 }, -- KX_SUSED[s]
    { base := 0x241006, s1 := 0x8, n1 := 256, s2 := 1, n2 := 1, reset := 0x000000000000, dom := .moduleD,
      rw := 0x000000000000, wc := 0x000000000000, ws := 0x000000000000, wo := 0x000000000000, sr := false, srMask := 0x000000000000 }, -- KX_SLIMIT[s]
    { base := 0x241007, s1 := 0x8, n1 := 256, s2 := 1, n2 := 1, reset := 0x000000000000, dom := .moduleD,
      rw := 0x000000000000, wc := 0x000000000000, ws := 0x000000000000, wo := 0x000000000001, sr := false, srMask := 0x000000000000 } ] -- KX_SCLR[s]

/-- The CX_ registers (R382). -/
def regMapCx : List RegRow :=
  [ { base := 0x280000, s1 := 0x1, n1 := 1, s2 := 1, n2 := 1, reset := 0x000000000000, dom := .moduleD,
      rw := 0x000000000000, wc := 0x000000000000, ws := 0x000000000000, wo := 0x000000000000, sr := false, srMask := 0x000000000000 }, -- CX_STAT
    { base := 0x280001, s1 := 0x1, n1 := 1, s2 := 1, n2 := 1, reset := 0x000000000000, dom := .moduleD,
      rw := 0x000000000000, wc := 0x000000000000, ws := 0x000000000000, wo := 0x000000000000, sr := false, srMask := 0x000000000000 }, -- CX_FAULTS
    { base := 0x280002, s1 := 0x1, n1 := 1, s2 := 1, n2 := 1, reset := 0x000000000000, dom := .moduleD,
      rw := 0x000000000000, wc := 0x000000000000, ws := 0x000000000000, wo := 0x000000000000, sr := false, srMask := 0x000000000000 }, -- CX_NOFIT
    { base := 0x280003, s1 := 0x1, n1 := 1, s2 := 1, n2 := 1, reset := 0x000000000000, dom := .moduleD,
      rw := 0x000000000000, wc := 0x000000000000, ws := 0x000000000000, wo := 0x000000000000, sr := false, srMask := 0x000000000000 }, -- CX_LIMITS
    { base := 0x280010, s1 := 0x10, n1 := 4, s2 := 1, n2 := 1, reset := 0x000000000000, dom := .engine,
      rw := 0x000000000000, wc := 0x000000000000, ws := 0x000000000000, wo := 0x000000000000, sr := false, srMask := 0x000000000000 }, -- CX_LSTAT[l]
    { base := 0x280011, s1 := 0x10, n1 := 4, s2 := 1, n2 := 1, reset := 0x000000000001, dom := .moduleD,
      rw := 0x000000000001, wc := 0x000000000000, ws := 0x000000000000, wo := 0x000000000002, sr := false, srMask := 0x000000000000 }, -- CX_LCTL[l]
    { base := 0x280012, s1 := 0x10, n1 := 4, s2 := 1, n2 := 1, reset := 0x000000000000, dom := .engine,
      rw := 0x000000000000, wc := 0x000000000000, ws := 0x000000000000, wo := 0x000000000000, sr := false, srMask := 0x000000000000 }, -- CX_LJOBS[l]
    { base := 0x280013, s1 := 0x10, n1 := 4, s2 := 1, n2 := 1, reset := 0x000000000000, dom := .engine,
      rw := 0x000000000000, wc := 0x000000000000, ws := 0x000000000000, wo := 0x000000000000, sr := false, srMask := 0x000000000000 }, -- CX_LINOCT[l]
    { base := 0x280014, s1 := 0x10, n1 := 4, s2 := 1, n2 := 1, reset := 0x000000000000, dom := .engine,
      rw := 0x000000000000, wc := 0x000000000000, ws := 0x000000000000, wo := 0x000000000000, sr := false, srMask := 0x000000000000 } ] -- CX_LOUTOCT[l]

/-- The UC_ registers (R394). -/
def regMapUc : List RegRow :=
  [ { base := 0x360000, s1 := 0x1, n1 := 1, s2 := 1, n2 := 1, reset := 0x000000000000, dom := .moduleD,
      rw := 0x000000000000, wc := 0x000000000000, ws := 0x000000000000, wo := 0x000000000000, sr := false, srMask := 0x000000000000 }, -- UC_STAT
    { base := 0x360001, s1 := 0x1, n1 := 1, s2 := 1, n2 := 1, reset := 0x000000000000, dom := .moduleD,
      rw := 0x000000000000, wc := 0x000000000000, ws := 0x000000000000, wo := 0x000000000000, sr := false, srMask := 0x000000000000 }, -- UC_ROMID
    { base := 0x360002, s1 := 0x1, n1 := 1, s2 := 1, n2 := 1, reset := 0x000000000000, dom := .moduleD,
      rw := 0x000000000000, wc := 0x000000000000, ws := 0x000000000000, wo := 0x000000000000, sr := false, srMask := 0x000000000000 }, -- UC_TVER
    { base := 0x360003, s1 := 0x1, n1 := 1, s2 := 1, n2 := 1, reset := 0x000000000000, dom := .moduleD,
      rw := 0x000000000000, wc := 0x000000000000, ws := 0x000000000003, wo := 0x000000000000, sr := true, srMask := 0x000000000003 }, -- UC_CTL
    { base := 0x360004, s1 := 0x1, n1 := 1, s2 := 1, n2 := 1, reset := 0x000000000000, dom := .moduleD,
      rw := 0x0000FFFFFFFF, wc := 0x000000000000, ws := 0x000000000000, wo := 0x000000000000, sr := true, srMask := 0xFFFFFFFFFFFF }, -- UC_LOADADDR
    { base := 0x360005, s1 := 0x1, n1 := 1, s2 := 1, n2 := 1, reset := 0x000000000000, dom := .moduleD,
      rw := 0x000000000000, wc := 0x000000000000, ws := 0x000000000000, wo := 0x000000000000, sr := true, srMask := 0x00000000000F }, -- UC_RES
    { base := 0x360006, s1 := 0x1, n1 := 1, s2 := 1, n2 := 1, reset := 0x000000000000, dom := .moduleD,
      rw := 0x000000000000, wc := 0x000000000000, ws := 0x000000000000, wo := 0x000000000000, sr := false, srMask := 0x000000000000 }, -- UC_FAULTS
    { base := 0x360010, s1 := 0x1, n1 := 16, s2 := 1, n2 := 1, reset := 0x000000000000, dom := .moduleD,
      rw := 0x000000000000, wc := 0x000000000000, ws := 0x000000000000, wo := 0x000000000000, sr := false, srMask := 0x000000000000 } ] -- UC_MATCH[i]

/-- The EN_ registers (R409). -/
def regMapEn : List RegRow :=
  [ { base := 0x300000, s1 := 0x1, n1 := 1, s2 := 1, n2 := 1, reset := 0x000000010000, dom := .moduleD,
      rw := 0x000000000000, wc := 0x000000000000, ws := 0x000000000000, wo := 0x000000000000, sr := false, srMask := 0x000000000000 }, -- EN_STAT
    { base := 0x300001, s1 := 0x1, n1 := 1, s2 := 1, n2 := 1, reset := 0x000000000000, dom := .moduleD,
      rw := 0x800000000000, wc := 0x000000000000, ws := 0x000000000000, wo := 0x000000000000, sr := false, srMask := 0x000000000000 }, -- EN_CTL
    { base := 0x300002, s1 := 0x1, n1 := 1, s2 := 1, n2 := 1, reset := 0x000000000000, dom := .moduleD,
      rw := 0x00000000FFFF, wc := 0x000000000000, ws := 0x000000000000, wo := 0x000000000000, sr := false, srMask := 0x000000000000 }, -- EN_PURSE
    { base := 0x300003, s1 := 0x1, n1 := 1, s2 := 1, n2 := 1, reset := 0x000000000000, dom := .moduleD,
      rw := 0x00000000FFFF, wc := 0x000000000000, ws := 0x000000000000, wo := 0x000000000000, sr := false, srMask := 0x000000000000 }, -- EN_PURSENEXT
    { base := 0x300004, s1 := 0x1, n1 := 1, s2 := 1, n2 := 1, reset := 0x000000000008, dom := .moduleD,
      rw := 0x000000000000, wc := 0x000000000000, ws := 0x000000000000, wo := 0x000000000000, sr := false, srMask := 0x000000000000 }, -- EN_ALARM
    { base := 0x300005, s1 := 0x1, n1 := 1, s2 := 1, n2 := 1, reset := 0x0000000000AA, dom := .moduleD,
      rw := 0x000000000000, wc := 0x000000000000, ws := 0x000000000000, wo := 0x000000000000, sr := false, srMask := 0x000000000000 }, -- EN_CLK
    { base := 0x300006, s1 := 0x1, n1 := 1, s2 := 1, n2 := 1, reset := 0x000000000000, dom := .moduleD,
      rw := 0x0000000000FF, wc := 0x000000000000, ws := 0x000000000000, wo := 0x000000000000, sr := false, srMask := 0x000000000000 }, -- EN_CLKFLOOR
    { base := 0x300007, s1 := 0x1, n1 := 1, s2 := 1, n2 := 1, reset := 0x000000000000, dom := .moduleD,
      rw := 0x000000000000, wc := 0x000000000000, ws := 0x000000000000, wo := 0x000000000000, sr := false, srMask := 0x000000000000 }, -- EN_PERIODSPEND
    { base := 0x300008, s1 := 0x1, n1 := 1, s2 := 1, n2 := 1, reset := 0x000000000000, dom := .moduleD,
      rw := 0x000000000000, wc := 0x000000000000, ws := 0x000000000000, wo := 0x000000000000, sr := false, srMask := 0x000000000000 }, -- EN_LASTPERIOD
    { base := 0x300009, s1 := 0x1, n1 := 1, s2 := 1, n2 := 1, reset := 0x000000000000, dom := .moduleD,
      rw := 0x000000000000, wc := 0x000000000000, ws := 0x000000000000, wo := 0x000000000000, sr := false, srMask := 0x000000000000 }, -- EN_PERIODS
    { base := 0x300010, s1 := 0x1, n1 := 4, s2 := 1, n2 := 1, reset := 0x000000000000, dom := .moduleD,
      rw := 0x000000000000, wc := 0x000000000000, ws := 0x000000000000, wo := 0x000000000000, sr := false, srMask := 0x000000000000 }, -- EN_PROJ[k]
    { base := 0x300014, s1 := 0x1, n1 := 4, s2 := 1, n2 := 1, reset := 0x000000000000, dom := .moduleD,
      rw := 0x000000000000, wc := 0x000000000000, ws := 0x000000000000, wo := 0x000000000000, sr := false, srMask := 0x000000000000 }, -- EN_CTALLY[k]
    { base := 0x300020, s1 := 0x1, n1 := 16, s2 := 1, n2 := 1, reset := 0x000000000000, dom := .moduleD,
      rw := 0x000000000000, wc := 0x000000000000, ws := 0x000000000000, wo := 0x000000000000, sr := false, srMask := 0x000000000000 }, -- EN_TTALLY[t]
    { base := 0x300030, s1 := 0x1, n1 := 16, s2 := 1, n2 := 1, reset := 0x000000000000, dom := .moduleD,
      rw := 0x000000000001, wc := 0x000000000000, ws := 0x000000000000, wo := 0x000000000000, sr := false, srMask := 0x000000000000 }, -- EN_TEN[t]
    { base := 0x300040, s1 := 0x1, n1 := 67, s2 := 1, n2 := 1, reset := 0x000000000000, dom := .moduleD,
      rw := 0x000000000000, wc := 0x000000000000, ws := 0x000000000000, wo := 0x000000000000, sr := false, srMask := 0x000000000000 }, -- EN_TALLY[i]
    { base := 0x3000C0, s1 := 0x1, n1 := 80, s2 := 1, n2 := 1, reset := 0x000000000000, dom := .moduleD,
      rw := 0x800000000000, wc := 0x000000000000, ws := 0x000000000000, wo := 0x000000000000, sr := false, srMask := 0x000000000000 } ] -- EN_GATE[b]

/-- The STK_ registers (R424). -/
def regMapStk : List RegRow :=
  [ { base := 0x320000, s1 := 0x1, n1 := 1, s2 := 1, n2 := 1, reset := 0x000000000000, dom := .moduleD,
      rw := 0x000000000000, wc := 0x100000000000, ws := 0x000000000000, wo := 0x000000000000, sr := false, srMask := 0x000000000000 }, -- STK_STAT
    { base := 0x320001, s1 := 0x1, n1 := 1, s2 := 1, n2 := 1, reset := 0x000000000000, dom := .moduleD,
      rw := 0xC0000000003F, wc := 0x000000000000, ws := 0x000000000000, wo := 0x000000000000, sr := false, srMask := 0x000000000000 }, -- STK_CTL
    { base := 0x320002, s1 := 0x1, n1 := 1, s2 := 1, n2 := 1, reset := 0x000000000000, dom := .moduleD,
      rw := 0x000000000000, wc := 0x000000000000, ws := 0x000000000000, wo := 0x000000000001, sr := false, srMask := 0x000000000000 }, -- STK_FIRE
    { base := 0x320003, s1 := 0x1, n1 := 1, s2 := 1, n2 := 1, reset := 0x000000000000, dom := .moduleD,
      rw := 0x000000000000, wc := 0x000000000000, ws := 0x000000000000, wo := 0x000000000001, sr := false, srMask := 0x000000000000 }, -- STK_ARM
    { base := 0x320004, s1 := 0x1, n1 := 1, s2 := 1, n2 := 1, reset := 0x000000000000, dom := .moduleD,
      rw := 0x000000000000, wc := 0x000000000000, ws := 0x000000000000, wo := 0x000000000000, sr := false, srMask := 0x000000000000 }, -- STK_TSEC
    { base := 0x320005, s1 := 0x1, n1 := 1, s2 := 1, n2 := 1, reset := 0x000000000000, dom := .moduleD,
      rw := 0x000000000000, wc := 0x000000000000, ws := 0x000000000000, wo := 0x000000000000, sr := false, srMask := 0x000000000000 }, -- STK_TFRAC
    { base := 0x320006, s1 := 0x1, n1 := 1, s2 := 1, n2 := 1, reset := 0x000000000000, dom := .moduleD,
      rw := 0x000000000000, wc := 0x000000000000, ws := 0x000000000000, wo := 0x000000000000, sr := false, srMask := 0x000000000000 }, -- STK_COUNT
    { base := 0x320007, s1 := 0x1, n1 := 1, s2 := 1, n2 := 1, reset := 0x000000000000, dom := .moduleD,
      rw := 0x000000000000, wc := 0x000000000000, ws := 0x000000000000, wo := 0x000000000000, sr := false, srMask := 0x000000000000 }, -- STK_MISSED
    { base := 0x320008, s1 := 0x1, n1 := 1, s2 := 1, n2 := 1, reset := 0x000000000000, dom := .moduleD,
      rw := 0x0000FFFFFFFF, wc := 0x000000000000, ws := 0x000000000000, wo := 0x000000000000, sr := false, srMask := 0x000000000000 }, -- STK_SNAPADDR
    { base := 0x320009, s1 := 0x1, n1 := 1, s2 := 1, n2 := 1, reset := 0x000000000000, dom := .moduleD,
      rw := 0x000000000000, wc := 0x000000000000, ws := 0x000000000000, wo := 0x000000000000, sr := false, srMask := 0x000000000000 } ] -- STK_SNAPVAL

/-- The INT_ registers (R425). -/
def regMapInt : List RegRow :=
  [ { base := 0x340000, s1 := 0x2, n1 := 1024, s2 := 1, n2 := 1, reset := 0x000000000000, dom := .moduleD,
      rw := 0xFFE00000FFFF, wc := 0x000000000000, ws := 0x000000000000, wo := 0x000000000000, sr := false, srMask := 0x400000000000 }, -- INT_ROUTE[i]
    { base := 0x340001, s1 := 0x2, n1 := 1024, s2 := 1, n2 := 1, reset := 0x000000000000, dom := .moduleD,
      rw := 0x000000000000, wc := 0x000000000003, ws := 0x000000000000, wo := 0x000000000000, sr := false, srMask := 0x000000000000 }, -- INT_STAT[i]
    { base := 0x340800, s1 := 0x1, n1 := 1, s2 := 1, n2 := 1, reset := 0x000000000000, dom := .moduleD,
      rw := 0x000000000000, wc := 0x000000000000, ws := 0x000000000000, wo := 0x0000000003FF, sr := false, srMask := 0x000000000000 }, -- INT_RAISE
    { base := 0x340801, s1 := 0x1, n1 := 1, s2 := 1, n2 := 1, reset := 0x000000000001, dom := .moduleD,
      rw := 0x000000000000, wc := 0x000000000000, ws := 0x000000000000, wo := 0x000000000000, sr := false, srMask := 0x000000000000 }, -- INT_FAULT
    { base := 0x340900, s1 := 0x10, n1 := 4, s2 := 1, n2 := 16, reset := 0x000000000000, dom := .core,
      rw := 0x000000000000, wc := 0x000000000000, ws := 0x000000000000, wo := 0x000000000000, sr := false, srMask := 0x000000000000 }, -- INT_SEATLAST[c][k]
    { base := 0x340940, s1 := 0x10, n1 := 4, s2 := 1, n2 := 16, reset := 0x000000000000, dom := .core,
      rw := 0x000000000000, wc := 0x000000000000, ws := 0x000000000000, wo := 0x000000000000, sr := true, srMask := 0xFFFFFFFFFFFF } ] -- INT_SEATLAST_SR[c][k]

/-- The NOTE_ registers (R425). -/
def regMapNote : List RegRow :=
  [ { base := 0x341000, s1 := 0x8, n1 := 16, s2 := 1, n2 := 1, reset := 0x000000000000, dom := .tenant,
      rw := 0x000000000000, wc := 0x800000000000, ws := 0x000000000000, wo := 0x000000000000, sr := false, srMask := 0x000000000000 }, -- NOTE_STAT[t]
    { base := 0x341001, s1 := 0x8, n1 := 16, s2 := 1, n2 := 1, reset := 0x000000000000, dom := .tenant,
      rw := 0x000000000000, wc := 0x000000000000, ws := 0x000000000000, wo := 0x000000000000, sr := false, srMask := 0x000000000000 }, -- NOTE_HEAD0[t]
    { base := 0x341002, s1 := 0x8, n1 := 16, s2 := 1, n2 := 1, reset := 0x000000000000, dom := .tenant,
      rw := 0x000000000000, wc := 0x000000000000, ws := 0x000000000000, wo := 0x000000000000, sr := false, srMask := 0x000000000000 }, -- NOTE_HEAD1[t]
    { base := 0x341003, s1 := 0x8, n1 := 16, s2 := 1, n2 := 1, reset := 0x000000000000, dom := .tenant,
      rw := 0x000000000000, wc := 0x000000000000, ws := 0x000000000000, wo := 0x000000000000, sr := false, srMask := 0x000000000000 }, -- NOTE_HEAD2[t]
    { base := 0x341004, s1 := 0x8, n1 := 16, s2 := 1, n2 := 1, reset := 0x000000000000, dom := .tenant,
      rw := 0x000000000000, wc := 0x000000000000, ws := 0x000000000000, wo := 0x000000000001, sr := false, srMask := 0x000000000000 }, -- NOTE_POP[t]
    { base := 0x341005, s1 := 0x8, n1 := 16, s2 := 1, n2 := 1, reset := 0x000000000000, dom := .tenant,
      rw := 0x000000000000, wc := 0x000000000000, ws := 0x000000000000, wo := 0x000000000000, sr := false, srMask := 0x000000000000 } ] -- NOTE_LOST[t]

/-- Every register of the map (R17). -/
def regMap : List RegRow :=
  regMapMod ++ regMapRt ++ regMapBell ++ regMapGate ++ regMapPrt ++ regMapSes ++ regMapAcc ++ regMapTwn ++ regMapSeal ++ regMapCe ++ regMapTen ++ regMapCar ++ regMapCore ++ regMapClu ++ regMapMem ++ regMapSr ++ regMapKx ++ regMapCx ++ regMapUc ++ regMapEn ++ regMapStk ++ regMapInt ++ regMapNote

end Sys2Proof.Machine
end

