-- ==== Sys2Proof/Machine/Types.lean ====
section
/-! DEFINITION. The records and encodings of the ledger path, the wire and the twin link, as plain data: what commands
carry as operands and what the state holds. -/

namespace Sys2Proof.Machine

open Sys2Proof

/-! ### Memory (R323) -/

/-- A container: storage key, type tag, change bit and payload. CHECK is a function of the rest (R323). -/
structure Cont where
  key : BitVec 4
  tag : BitVec 2
  chg : Bool
  pay : Word
deriving DecidableEq, Repr

/-- Who makes a register access: the world, the tenant of an open-world requester, whether a clerk engine or a core at
task level makes it, and the seat of a core (for the self window of R238). -/
structure Who where
  sr : Bool
  ten : Nat
  eng : Bool
  task : Bool
  seat : Nat
deriving DecidableEq, Repr

/-! ### Dispositions (R77) -/

/-- The dispositions of R77. -/
inductive Disp where
  | accepted | duplicate | refClosed | refGate | refFormat | refQuota | refTime | refStale | refExhausted
deriving DecidableEq, Repr

/-- The 4-bit code of a disposition (R77). -/
def dispCode : Disp → Nat
  | .accepted => 0 | .duplicate => 1 | .refClosed => 2 | .refGate => 3 | .refFormat => 4 | .refQuota => 5
  | .refTime => 6 | .refStale => 7 | .refExhausted => 8

/-- The disposition a code names (R77); a reserved code names none. -/
def dispOfCode : Nat → Option Disp
  | 0 => some .accepted | 1 => some .duplicate | 2 => some .refClosed | 3 => some .refGate | 4 => some .refFormat
  | 5 => some .refQuota | 6 => some .refTime | 7 => some .refStale | 8 => some .refExhausted
  | _ => none

/-! ### The ledger state (R57, R81, R141) -/

/-- An entry of a session's dedup table (R91). -/
structure DedupEnt where
  id : Nat
  disp : Disp
  accn : Nat
  folio : Nat
deriving DecidableEq, Repr

/-- The ledger part of a session entry (R81): key, H, dedup table (oldest first), peer, last port, STORAGE. -/
structure LSes where
  used : Bool := false
  ten : Nat := 0
  pid : Nat := 0
  stream : Nat := 0
  h : Nat := 0
  table : List DedupEnt := []
  peer : Word := 0
  port : Nat := 0
  storage : Bool := false
deriving DecidableEq, Repr

/-- A bell in the effective view (R450): its time as 64 bits of RT, its BELL_ACT word, and whether the time had passed
when the arming became effective or was skipped by a load (R59), at tick `since`. -/
structure EBell where
  time : Nat := 0
  act : Word := 0
  late : Bool := false
  since : Nat := 0
deriving DecidableEq, Repr

/-- A ledger-state write that is not yet effective (R57). -/
inductive LWrite where
  | bell (b : Nat) (time : Nat) (act : Word)
  | gate (g : Nat) (key : Word)
  | reg (a : Nat) (mask v : Word)
  | storage (s : Nat) (v : Bool)
  | retire (s : Nat)
  | mirPage (page : Nat) (set : Bool)
deriving DecidableEq, Repr

/-- The ledger state: registers in the written view, effective values where they differ in time (R57), the effective
bells and gate keys (R450), the sessions (R81), the mirror map (R144), the confirmed volumes (R98) and the pending
writes in the order written (R57). -/
structure Ledger where
  regs : List (Nat × Word) := []
  eff : List (Nat × Word) := []
  bells : List (Nat × EBell) := []
  gates : List (Nat × Word) := []
  sessions : List (Nat × LSes) := []
  mirror : List Nat := []
  confirmed : List (Nat × Nat) := []
  pend : List LWrite := []
deriving DecidableEq, Repr

/-! ### LCP frames (R68 to R78) -/

/-- An item of a DATA or REPLY frame (R73). -/
structure LcpItem where
  id : Nat
  game : Nat
  itype : Nat
  len : Nat
  body : List Word
deriving DecidableEq, Repr

/-- A RELEASE entry (R76). -/
structure RelEntry where
  id : Nat
  accn : Nat
  folio : Nat
  disp : Disp
  epoch : Nat
deriving DecidableEq, Repr

/-- What follows the LCP header (R71, R78). -/
inductive LcpBody where
  | none
  | helloReq (pid ten stream : Nat)
  | helloRsp (pid ten stream idle rto h : Nat)
  | items (l : List LcpItem)
  | entries (l : List RelEntry)
  | nak (reason detail seq : Nat)
  | epoch (prev role : Nat)
  | bye (reason : Nat)
  | probe (echo sec frac : Nat)
deriving DecidableEq, Repr

/-- An LCP frame: addresses, header fields (R69) and body. -/
structure LcpFrame where
  dst : Nat
  src : Nat
  typ : Nat
  flags : Nat := 0
  session : Nat := 0
  epoch : Nat := 0
  seq : Nat := 0
  cumack : Nat := 0
  credit : Nat := 0
  body : LcpBody := .none
deriving DecidableEq, Repr

/-- A frame as a port receives it: the octets from the destination address to the last octet before the FCS, whether the
FCS is good, and the sub-tick nanoseconds of its start-of-frame delimiter (R67, R79). -/
structure RxFrame where
  octs : List Octet
  fcsOk : Bool
  sub : Nat := 0
deriving DecidableEq, Repr

/-! ### The twin link (R133) -/

/-- A heartbeat, on either path (R133, R134). On the pulse path `folio` holds 16 bits and `serial` and `rt` are 0. -/
structure Heartbeat where
  role : Nat
  epoch : Nat
  folio : Nat
  health : Nat
  serial : Nat
  rt : Nat
deriving DecidableEq, Repr

/-- The content of FOLIO-END (R133). -/
structure FolioEndMsg where
  folio : Nat
  counts : List (Nat × Nat)
  roots : List (Nat × Nat)
  enabled : Nat
  rtValid : Bool
deriving DecidableEq, Repr

/-- A volume that awaits a seal (R453): its folio roots by tenant and folio, its tenant mask, whether RT was valid at the
close, the RT of the close, whether a forward load closed or skipped part of it, and whether it closed under this module's
present role (R173). -/
structure RootVol where
  volume : Nat
  mask : Nat
  roots : List (Nat × Nat × Nat)
  rtValid : Bool
  closeRt : Nat
  forced : Bool
  own : Bool
deriving DecidableEq, Repr

/-- A block of initial-synchronisation data (R157): the ledger state, words of memory, the root queue, and the roll's head with the
last seal's volume and number and its chain hash. -/
inductive SyncBlock where
  | ledger (l : Ledger)
  | words (addr : Nat) (cs : List Cont)
  | roots (q : List RootVol)
  | roll (head lastv lastno prev : Nat)
deriving DecidableEq, Repr

/-- A twin-link message (R133). -/
inductive TwinMsg where
  | heartbeat (h : Heartbeat)
  | folioBegin (folio epoch mask : Nat)
  | records (ten off : Nat) (ws : List Word)
  | state (l : Ledger)
  | lines (addr : Nat) (cs : List Cont)
  | folioEnd (e : FolioEndMsg)
  | folioAck (folio epoch : Nat)
  | folioRedo (folio cause : Nat)
  | seals (recs : List (List Word))
  | handoverReq (v : Nat)
  | handoverAck (v : Nat)
  | handoverDone (folio epoch : Nat)
  | taken (epoch : Nat)
  | abort (v : Nat)
  | syncBulk (b : SyncBlock) (remain : Nat)
  | syncMark (folio epoch phase : Nat)
  | syncReq
deriving DecidableEq, Repr

/-- The codes of R133 that name a message. -/
def twinCodes : List Nat := [1, 2, 3, 4, 5, 6, 7, 8, 9, 0xA, 0xB, 0xC, 0xD, 0xE, 0x10, 0x11, 0x12]

/-- The code of a message (R133). -/
def TwinMsg.code : TwinMsg → Nat
  | .heartbeat _ => 0x01
  | .folioBegin _ _ _ => 0x02
  | .records _ _ _ => 0x03
  | .state _ => 0x04
  | .lines _ _ => 0x05
  | .folioEnd _ => 0x06
  | .folioAck _ _ => 0x07
  | .folioRedo _ _ => 0x08
  | .seals _ => 0x09
  | .handoverReq _ => 0x0A
  | .handoverAck _ => 0x0B
  | .handoverDone _ _ => 0x0C
  | .taken _ => 0x0D
  | .abort _ => 0x0E
  | .syncBulk _ _ => 0x10
  | .syncMark _ _ _ => 0x11
  | .syncReq => 0x12

/-- How many words carry a ledger state: two to a register or a gate, four to a bell, eight to a session and four to each of its
dedup entries, one to a mirrored page, two to a confirmation (DESIGN CHOICE, log 116). -/
def Ledger.size (l : Ledger) : Nat :=
  2 * (l.regs.length + l.eff.length + l.gates.length + l.confirmed.length) + 4 * l.bells.length + l.mirror.length +
    (l.sessions.map fun e => 8 + 4 * e.2.table.length).sum

/-- How many words carry a block of synchronisation data (DESIGN CHOICE, log 116). -/
def SyncBlock.size : SyncBlock → Nat
  | .ledger l => l.size
  | .words _ cs => 1 + 2 * cs.length
  | .roots q => (q.map fun r => 5 + 13 * r.roots.length).sum
  | .roll _ _ _ _ => 14

/-- How many words carry a message's content. R133 lists the contents and no layout: a number of up to 48 bits takes one word, a
longer one two, a root 11, a container two (DESIGN CHOICE, log 116). -/
def TwinMsg.size : TwinMsg → Nat
  | .heartbeat _ => 9
  | .folioBegin _ _ _ => 4
  | .records _ _ ws => 2 + ws.length
  | .state l => l.size
  | .lines _ cs => 1 + 2 * cs.length
  | .folioEnd e => 4 + e.counts.length + 12 * e.roots.length
  | .folioAck _ _ => 3
  | .folioRedo _ _ => 3
  | .seals recs => (recs.map List.length).sum
  | .handoverReq _ => 1
  | .handoverAck _ => 1
  | .handoverDone _ _ => 3
  | .taken _ => 1
  | .abort _ => 1
  | .syncBulk b _ => 1 + b.size
  | .syncMark _ _ _ => 4
  | .syncReq => 0

/-- The header word a message begins with (R133): [47:40] its code, [39:16] its length in words with the header, [15:0] 0. -/
def TwinMsg.header (m : TwinMsg) : Word := BitVec.ofNat 48 (m.code * 2 ^ 40 + (m.size + 1) % 2 ^ 24 * 2 ^ 16)

/-- How a message arrives: its header word, and whether it passes AES-256-GCM authentication under the session key (R132, R133). -/
structure TwinHead where
  head : Word
  auth : Bool
deriving DecidableEq, Repr

/-- What leaves the module, newest first in the state's log: LCP frames and raw frames by port, twin-link messages with their header
words, pulse frames, and management responses. -/
inductive Tx where
  | lcp (port : Nat) (f : LcpFrame)
  | raw (port : Nat) (octs : List Octet)
  | twin (head : Word) (m : TwinMsg)
  | pulse (bits : Nat)
  | mgmt (octs : List Octet)
  | mgmtNak
  | dbg (v : Word)
  | dbgBusy
deriving DecidableEq, Repr

/-- A twin-link message behind its header word. -/
def Tx.msg (m : TwinMsg) : Tx := .twin m.header m

end Sys2Proof.Machine
end

