-- ==== Sys2Proof/Syntax.lean ====
section
/-! DEFINITION. The commands of the module: one constructor per row of the operation table, in the table's order, with the
operands the row's rule gives it. -/

namespace Sys2Proof

open Sys2Proof.Machine

/-- Port, tenant, bell, gate, session, carrel, engine, job context, lane, slot, cluster, unit, device and block numbers. -/
abbrev PortId := Fin 256
abbrev TenId := Fin 16
abbrev BellId := Fin 1024
abbrev GateId := Fin 4096
abbrev SesId := Fin 4096
abbrev CarId := Fin 4096
abbrev EngId := Fin 64
abbrev CtxId := Fin 16384
abbrev LaneId := Fin 8
abbrev XLaneId := Fin 4
abbrev SlotId := Fin 256
abbrev CluId := Fin 4
abbrev UnitId := Fin 20
abbrev DevId := Fin 18
/-- A block of SR_LEASE and EN_GATE (R358): 0x00 the seal engine, 0x01 to 0x08 cipher lanes, 0x09 to 0x0C compression lanes,
0x10 to 0x4F clerk engines. -/
abbrev BlockId := Fin 80
/-- A seat, 16 x cluster + seat (R302). -/
abbrev SeatId := Fin 64

/-- What a read of a line from its group finds (R325): containers with a single-bit error, containers that are
uncorrectable, whether the parity alone is wrong, and whether a stripe rebuilt from parity passes its code. -/
structure LineErr where
  single : List Nat := []
  multi : List Nat := []
  parity : Bool := false
  rebuilds : Bool := true
deriving DecidableEq, Repr

/-- Where an error that its code cannot correct lies (R305, R326): in the private state of one copy of the core or of both, in
container `c` of near-store entry `i`, in a line of the L1 instruction cache, or in container `c` of a line in the stacks of the
seat's cluster. -/
inductive CodeSite where
  | own (both : Bool)
  | nearStore (i c : Fin 64)
  | icache (line : Nat)
  | stacks (line : Nat) (c : Fin 64)
deriving DecidableEq, Repr

/-- What a debugger reads or writes (R318, R319): a control cell of a bank, or an entry of a stack by its depth. -/
inductive DbgTarget where
  | cell (bank n : Nat)
  | ds (depth : Nat)
  | rs (depth : Nat)
deriving DecidableEq, Repr

/-- The commands. -/
inductive Instr where
  /-- RT_TICK (R39): Regulatory time advances by one tick from the REFCLK input in use. -/
  | rtTick
  /-- REFCLK_LOSS (R42): A REFCLK input stops; CLKLOSS is set, and where it was the input in use RT changes over to the next present input or holds. -/
  | refclkLoss (i : Fin 4)
  /-- REFCLK_RETURN (R42): A REFCLK input returns after all inputs were absent; RT resumes counting in state FREE. -/
  | refclkReturn (i : Fin 4)
  /-- PPS_EDGE (R449): A rising edge arrives on PPS_IN and is recorded for its one-second interval; a pending ARM load is made at the edge. -/
  | ppsEdge (sub : Nat)
  /-- PPS_INTERVAL_END (R449): A PPS interval ends 0.5 s after its expected instant; phase, steering, outlier and missed counts, interrupts and state transitions take effect. -/
  | ppsIntervalEnd
  /-- RT_ARM (R48): A write of RT_CTL.ARM requests a load of RT at the next PPS edge, or sets BADLOAD. -/
  | rtArm (w : Who) (v : Word)
  /-- RT_LOADNOW (R48): A write of RT_CTL.LOADNOW loads RT_NEXTSEC within 2 ticks, or sets BADLOAD. -/
  | rtLoadnow (w : Who) (v : Word)
  /-- RT_FORCE (R48): A write of RT_CTL.FORCE loads RT_NEXTSEC within 2 ticks, backwards allowed, in the charter phase only. -/
  | rtForce (w : Who) (v : Word)
  /-- RT_REFSEL_WRITE (R62): A write that changes RT_CTL.REFSEL moves RT to that input at the next tick and turns LOCKED into LOCKING. -/
  | rtRefselWrite (w : Who) (v : Word)
  /-- RT_PPSEN_CLEAR (R45): A write of 0 to RT_CTL.PPSEN cancels a pending ARM and moves LOCKING to FREE or LOCKED to HOLDOVER. -/
  | rtPpsenClear (w : Who) (v : Word)
  /-- BELL_ACT_WRITE (R56): A write of BELL_ACT is checked against the written view, then arms or disarms the bell or records an error. -/
  | bellActWrite (w : Who) (b : BellId) (v : Word)
  /-- BELL_TIME_WRITE (R56): A write of BELL_TSEC or BELL_TFRAC stores the time, or is refused with ARMED while the bell is armed. -/
  | bellTimeWrite (w : Who) (b : BellId) (frac : Bool) (v : Word)
  /-- GATE_KEY_WRITE (R61): A write of GATE_KEY is checked for ROLE, NOGATE and DUPKEY and becomes pending. -/
  | gateKeyWrite (w : Who) (g : GateId) (v : Word)
  /-- BELL_FIRE (R59): An armed bell fires in the first tick at which RT reaches its time, performs its action, and then disarms or repeats. -/
  | bellFire (b : BellId)
  /-- FOLIO_CLOSE (R119): At a folio boundary each enabled tenant's folio closes, its last items are judged, and its header and root are written. -/
  | folioClose
  /-- TALLY_CALIBRATION (R398): Once each RT second the tally coefficients are calibrated against supply current sense. -/
  | tallyCalibration
  /-- LINK_UP (R65): A port's PCS link comes up after training with the mode and FEC selected. -/
  | linkUp (p : PortId)
  /-- LINK_LOSS (R83): A port's link goes down and every connection on it closes. -/
  | linkLoss (p : PortId)
  /-- PORT_RESET (R99): A write of PRT_RESET takes the link down, closes its connections, empties the plain queue and retrains. -/
  | portReset (w : Who) (p : PortId) (v : Word)
  /-- HELLO (R82): A HELLO request opens or resumes a session connection, answers with H and credit, and replays entries. -/
  | helloFrame (p : PortId) (f : RxFrame)
  /-- DATA (R79): A DATA frame passes the receive checks and its items are handed to the arrival merge with the frame's stamp. -/
  | dataFrame (p : PortId) (f : RxFrame)
  /-- ACK (R86): An ACK frame's CUMACK and CREDIT are applied to the connection. -/
  | ackFrame (p : PortId) (f : RxFrame)
  /-- NAK (R88): A NAK frame from the partner is counted, and NAK SEQUENCE causes an immediate retransmission. -/
  | nakFrame (p : PortId) (f : RxFrame)
  /-- CREDIT (R89): A CREDIT frame raises the partner's limit for the module's REPLY items. -/
  | creditFrame (p : PortId) (f : RxFrame)
  /-- BYE (R83): A BYE received in sequence is acknowledged and the connection closes. -/
  | byeFrame (p : PortId) (f : RxFrame)
  /-- PROBE (R78): A PROBE from the partner is answered with a PROBE carrying RSP and its echo value. -/
  | probeFrame (p : PortId) (f : RxFrame)
  /-- LCP_FRAME_DISCARD (R71): A frame of a reserved or module-only type, bad FCS or wrong destination is discarded and counted. -/
  | lcpFrameDiscard (p : PortId) (f : RxFrame)
  /-- PLAIN_FRAME (R66): A non-LCP frame is placed in the plain-frame queue or discarded and counted. -/
  | plainFrame (p : PortId) (f : RxFrame)
  /-- PTP_FRAME (R67): A PTP event frame is stamped with RT at its start-of-frame delimiter on receive or transmit. -/
  | ptpFrame (p : PortId) (f : RxFrame)
  /-- MAC_CONTROL_FRAME (R65): A clause 31 MAC control frame is discarded and counted in PRT_RXDROP. -/
  | macControlFrame (p : PortId) (f : RxFrame)
  /-- ACK_DUE (R87): The acknowledgement deadline of 64 ticks or 1 folio expires and the module sends its CUMACK. -/
  | ackDue (s : SesId)
  /-- RETRANSMIT_TIMEOUT (R87): RTO folios pass without CUMACK progress and the module retransmits from its first unacknowledged frame. -/
  | retransmitTimeout (s : SesId)
  /-- IDLE_PROBE (R84): A connection silent for IDLE/4 folios is sent a PROBE. -/
  | idleProbe (s : SesId)
  /-- IDLE_TIMEOUT (R84): A connection silent for IDLE folios is closed with BYE IDLE. -/
  | idleTimeout (s : SesId)
  /-- EPOCH_FRAME_REPEAT (R94): In each of 8 folios after a new epoch an unsequenced EPOCH frame goes to each IDLE entry's peer. -/
  | epochFrameRepeat (s : SesId)
  /-- SES_STORAGE_WRITE (R102): A write of SES_CTL.STORAGE becomes pending ledger state. -/
  | sesStorageWrite (w : Who) (s : SesId) (v : Word)
  /-- KICK (R102): A write of SES_CTL.KICK closes the session's connection with BYE KICKED at once. -/
  | kick (w : Who) (s : SesId) (v : Word)
  /-- RETIRE (R102): A write of SES_CTL.RETIRE is checked and, if it passes, frees the entry at the next boundary. -/
  | retire (w : Who) (s : SesId) (v : Word)
  /-- MERGE_EMIT (R104): The arrival merge emits an item 134 ticks after its stamp, and the accession unit judges it. -/
  | mergeEmit
  /-- ACC_TAIL_WRITE (R113): A write of ACC_TAIL advances the daybook tail or sets TAILRANGE. -/
  | accTailWrite (w : Who) (t : TenId) (v : Word)
  /-- ACC_RING_WRITE (R112): A write of ACC_DBBASE or ACC_DBSIZE is checked and, when effective, resets head, tail and release pointer. -/
  | accRingWrite (w : Who) (t : TenId) (size : Bool) (v : Word)
  /-- ACC_CTL_WRITE (R130): A write of ACC_CTL becomes pending ledger state for enable, body limit and reserve. -/
  | accCtlWrite (w : Who) (t : TenId) (v : Word)
  /-- ACC_QUOTA_WRITE (R130): A write of ACC_QUOTA becomes pending ledger state. -/
  | accQuotaWrite (w : Who) (t : TenId) (v : Word)
  /-- ACC_NEXT_WRITE (R130): A strongroom write of ACC_NEXT sets the next accession number before the tenant's first issue. -/
  | accNextWrite (w : Who) (t : TenId) (hi : Bool) (v : Word)
  /-- ACCN (R125): The ACCN instruction reads a request block and body and hands a core-originated item to the merge. -/
  | accn (q : SeatId)
  /-- ACCN_COMPLETE (R125): After the item is judged ACCN writes W4 to W6 of the block and pushes the status. -/
  | accnComplete (q : SeatId)
  /-- TWIN_LINK_UP (R131): At least 12 twin-link lanes hold alignment and the link counts as up. -/
  | twinLinkUp
  /-- TWIN_LINK_DOWN (R131): Fewer than 12 lanes hold alignment, the link counts as down and path A is lost. -/
  | twinLinkDown
  /-- TWIN_AUTH (R132): The strongrooms authenticate each other and agree a session key for the twin link. -/
  | twinAuth (k : List Octet × List Octet)
  /-- TWIN_KEY_RENEW (R132): After 2^30 messages the twin-link session key is renewed. -/
  | twinKeyRenew
  /-- HEARTBEAT_SEND (R133): Once per folio the module sends a HEARTBEAT message on the twin link. -/
  | heartbeatSend
  /-- HEARTBEAT (R148): A valid HEARTBEAT message is received, restoring path A and applying the epoch and role rules. -/
  | heartbeat (x : TwinHead) (h : Heartbeat)
  /-- PULSE_FRAME_SEND (R134): At tick 1,024 of each folio the module sends a pulse frame on PULSE_OUT. -/
  | pulseFrameSend
  /-- PULSE_FRAME (R135): A pulse frame is received on PULSE_IN and, if valid, restores path B and applies the takeover rules. -/
  | pulseFrame (bits : BitVec 72)
  /-- PULSE_IN_SILENCE (R147): PULSE_IN shows no transition for 34 ticks and path B is lost. -/
  | pulseInSilence
  /-- HEARTBEAT_TIMEOUT (R147): 2 folios pass after the last valid heartbeat on a path and that path is lost. -/
  | heartbeatTimeout (pathB : Bool)
  /-- TWIN_ALIVE_IN_LOW (R137): TWIN_ALIVE_IN has been low for a whole folio and reads low, confirming a pending SOLO change or raising ALIVEMIS. -/
  | twinAliveInLow
  /-- LOOPBACK_FAIL (R137): The heartbeat loopback check fails; transmitters stop, the module fences and ALIVE_OUT falls. -/
  | loopbackFail
  /-- FOLIO_SHIPMENT (R141): After a folio closes and the previous shipment ends, the twin engine ships the folio's records, state, lines and FOLIO-END. -/
  | folioShipment
  /-- FOLIO_BEGIN (R141): A FOLIO-BEGIN message opens a shipment at the holder. -/
  | folioBegin (x : TwinHead × Nat) (epoch mask : Nat)
  /-- RECORDS (R142): A RECORDS message is written into the holder's daybook at the same offsets. -/
  | recordsMsg (x : TwinHead × Nat) (off : Nat) (ws : List Word)
  /-- STATE (R142): A STATE message's ledger-state changes are held for application at acknowledgement. -/
  | stateMsg (x : TwinHead × Ledger)
  /-- LINES (R142): A LINES message writes mirrored lines into the holder's memory. -/
  | linesMsg (x : TwinHead × Nat) (cs : List Cont)
  /-- FOLIO_END (R142): The holder checks the shipment against FOLIO-END and answers FOLIO-ACK or FOLIO-REDO. -/
  | folioEnd (x : TwinHead) (m : FolioEndMsg)
  /-- FOLIO_ACK (R143): A FOLIO-ACK acknowledges a folio and every earlier one, renews the lease and runs the release rule. -/
  | folioAck (x : TwinHead × Nat) (epoch : Nat)
  /-- FOLIO_REDO (R142): A FOLIO-REDO makes the source ship the folio again. -/
  | folioRedo (x : TwinHead × Nat) (cause : Nat)
  /-- SEALS (R172): A SEALS message's records are checked by the holder and appended or counted as failed. -/
  | seals (x : TwinHead × List (List Word))
  /-- ACK_TIMEOUT_SOLO (R34): A shipment complete for 4 folios without acknowledgement makes the ACTIVE propose SOLO with a new epoch. -/
  | ackTimeoutSolo
  /-- LEASE_EXPIRY (R139): The mirrored lease ends after 8 folios without acknowledgement and the module fences. -/
  | leaseExpiry
  /-- TAKEOVER_PROMOTION (R148): Both paths lost for 4 folios promote a STANDBY, or an ACTIVE with the twin absent, to SOLO with a new epoch. -/
  | takeoverPromotion
  /-- LOST_FENCE (R148): Both paths lost for 6 folios fence an ACTIVE or a pending SOLO change. -/
  | lostFence
  /-- TWN_FENCE (R149): A write of TWN_CTL.FENCE fences the module. -/
  | twnFence (w : Who) (v : Word)
  /-- TWN_INIT (R156): A write of TWN_CTL.INIT in the charter requests pair initialisation at commit, or is refused with SYNCFAIL. -/
  | twnInit (w : Who) (v : Word)
  /-- HANDREQ (R153): A write of TWN_CTL.HANDREQ starts a planned handover towards the STANDBY. -/
  | handreq (w : Who) (v : Word)
  /-- HANDOVER_START (R153): A healthy preferred STANDBY past its holdoff sends HANDOVER-REQ by itself. -/
  | handoverStart
  /-- HANDOVER_REQ (R154): The ACTIVE receives HANDOVER-REQ and answers HANDOVER-ACK naming the volume. -/
  | handoverReq (x : TwinHead × Nat)
  /-- HANDOVER_ACK (R154): The STANDBY receives HANDOVER-ACK and the handover is agreed. -/
  | handoverAck (x : TwinHead × Nat)
  /-- HANDOVER_QUIESCE (R154): At volume boundary V the ACTIVE stops admission, closes connections, fences, ships V-1 and sends HANDOVER-DONE. -/
  | handoverQuiesce
  /-- HANDOVER_DONE (R154): The STANDBY holding V-1 takes ACTIVE with epoch e+1 and sends TAKEN. -/
  | handoverDone (x : TwinHead × Nat) (epoch : Nat)
  /-- TAKEN (R154): The old ACTIVE clears its fence latch and becomes STANDBY in the new epoch. -/
  | taken (x : TwinHead × Nat)
  /-- HANDOVER_ABORT_TIMEOUT (R155): Without HANDOVER-DONE by tick 16,384 of V the STANDBY sends ABORT and stays STANDBY. -/
  | handoverAbortTimeout
  /-- ABORT (R155): The ACTIVE receiving ABORT clears its fence latch and serves again in its epoch. -/
  | abortMsg (x : TwinHead × Nat)
  /-- SYNC_CHECK_PASS (R157): A SYNCING module whose CHECK phase passes sends SYNC-REQ. -/
  | syncCheckPass (cfg : List Word)
  /-- SYNC_REQ (R157): The source abandons any copy, chooses a boundary S and sends SYNC-MARK and SYNC-BULK. -/
  | syncReq
  /-- SYNC_MARK (R157): The SYNCING module takes the source's epoch and snapshot folio. -/
  | syncMark (x : TwinHead × Nat) (epoch phase : Nat)
  /-- SYNC_BULK (R157): A block of initial-synchronisation data is written into the SYNCING module. -/
  | syncBulk (x : TwinHead × SyncBlock) (remain : Nat)
  /-- SYNC_COMPLETE (R158): After 64 boundaries with lag at most 1 folio the SYNCING module becomes STANDBY. -/
  | syncComplete
  /-- SOLO_TO_ACTIVE (R158): A SOLO source becomes ACTIVE at the first boundary after seeing its twin STANDBY. -/
  | soloToActive
  /-- TWN_MIRPAGE_WRITE (R144): A write of TWN_MIRPAGE marks or unmarks a page in the mirror map, or fails with FULL or OVERLAP. -/
  | twnMirpageWrite (w : Who) (v : Word)
  /-- SEAL_APPEND (R169): The seal engine finishes signing a volume and appends its seal record to the roll. -/
  | sealAppend
  /-- SEAL_TAIL_WRITE (R171): A write of SEAL_TAIL frees room in the seal roll or sets TAILRANGE. -/
  | sealTailWrite (w : Who) (v : Word)
  /-- SEAL_CTL_WRITE (R176): A write of SEAL_CTL, SEAL_RBASE or SEAL_RSIZE is checked and becomes pending ledger state. -/
  | sealCtlWrite (w : Who) (i : Fin 3) (v : Word)
  /-- DOOR (R179): The DOOR instruction queues a job for the carrel of the core's TEN and PID and pushes a result code. -/
  | door (q : SeatId)
  /-- ENGINE_PICK (R181): An idle clerk engine picks a ready job by tenant and carrel pass values. -/
  | enginePick (e : EngId)
  /-- QUANTUM_EXPIRY (R181): A job reaches the first safe point after its quantum and returns to ready. -/
  | quantumExpiry (e : EngId)
  /-- SLIP_NOP (R186): The NOP command does nothing. -/
  | slipNop (e : EngId)
  /-- MOVE (R187): The MOVE command copies words from a source extent to a destination extent. -/
  | slipMove (e : EngId)
  /-- FILL (R187): The FILL command writes one value to every word of an extent. -/
  | slipFill (e : EngId)
  /-- SEND (R189): The SEND command in session form sends a REPLY item on a session. -/
  | slipSend (e : EngId)
  /-- SEND_RAW (R190): The SEND command with RAW sends one Ethernet frame on a port. -/
  | sendRaw (e : EngId)
  /-- AWAIT (R192): The AWAIT command waits for a matching STORED item. -/
  | await (e : EngId)
  /-- PACK (R188): The PACK command hands a compression descriptor to a lane and waits. -/
  | pack (e : EngId)
  /-- UNPACK (R188): The UNPACK command hands a decompression descriptor to a lane and waits. -/
  | unpack (e : EngId)
  /-- CRYPT (R188): The CRYPT command hands a cipher descriptor to a lane and waits. -/
  | crypt (e : EngId)
  /-- HASH (R188): The HASH command runs SHA3 or SHAKE over words on a cipher lane and waits. -/
  | hash (e : EngId)
  /-- LANE_RESULT (R188): A lane job ends and its waiting slip ends OK, FAILED or FAULT. -/
  | laneResult (cipher : Bool) (l : LaneId) (fault : Fin 4)
  /-- WAITBELL (R193): The WAITBELL command waits for a bell of the tenant to fire. -/
  | waitbell (e : EngId)
  /-- WAITFOLIO (R193): The WAITFOLIO command waits for a folio boundary count, close, hold or release. -/
  | waitfolio (e : EngId)
  /-- WAITRT (R193): The WAITRT command waits for an absolute or relative RT instant. -/
  | waitrt (e : EngId)
  /-- SLIP_WAIT_WAKE (R193): A waiting job's condition holds and the job becomes ready. -/
  | slipWaitWake (x : CtxId)
  /-- SLIP_TIMEOUT (R197): A slip's timeout in folios expires and the slip ends TIMEOUT or NOCONN. -/
  | slipTimeout (x : CtxId)
  /-- TEST (R194): The TEST command optionally adds a step atomically, then compares and sets CC. -/
  | slipTest (e : EngId)
  /-- JUMP (R194): The JUMP command branches by a signed offset. -/
  | jump (e : EngId)
  /-- JUMPIF (R194): The JUMPIF command branches where its condition on CC or ERR holds. -/
  | jumpif (e : EngId)
  /-- POST (R195): The POST command writes a value, or the job status, after every earlier write. -/
  | post (e : EngId)
  /-- LOCK (R195): The LOCK command places the job's tag on a zero word or waits. -/
  | lock (e : EngId)
  /-- LOCK_RETRY (R195): A waiting LOCK tries again when its word is written or once per folio. -/
  | lockRetry (x : CtxId)
  /-- UNLOCK (R195): The UNLOCK command clears the word holding the job's tag, or ends NOTOWNER. -/
  | unlock (e : EngId)
  /-- NOTE (R196): The NOTE command appends a completion entry and raises the carrel's interrupt; the job goes on. -/
  | slipNote (e : EngId)
  /-- STOP (R196): The STOP command ends the job OK with its code. -/
  | slipStop (e : EngId)
  /-- SLIP_RESERVED_OPCODE (R186): A reserved opcode ends the job BADSLIP. -/
  | slipReservedOpcode (e : EngId)
  /-- CE_RESET (R199): A write of CE_CTL.RESET resets a clerk engine and ends its job FAULT. -/
  | ceReset (w : Who) (e : EngId) (v : Word)
  /-- CLERK_ENGINE_FAULT (R199): An engine's own checks find a fault; the engine resets and its job ends FAULT. -/
  | clerkEngineFault (e : EngId)
  /-- CARREL_CREATE (R204): A TEN_CARREQ write with OP CREATE creates a carrel for a PID. -/
  | carrelCreate (w : Who) (t : TenId) (v : Word)
  /-- CARREL_DELETE (R205): A TEN_CARREQ write with OP DELETE resets a carrel and frees its entry. -/
  | carrelDelete (w : Who) (t : TenId) (v : Word)
  /-- CARREL_BADOP (R206): A TEN_CARREQ write with a reserved OP returns BADOP. -/
  | carrelBadop (w : Who) (t : TenId) (v : Word)
  /-- CAR_RESET (R213): A write of CAR_RESET raises the carrel's generation and starts the fence and drain of its jobs. -/
  | carReset (w : Who) (c : CarId) (v : Word)
  /-- CARREL_RESET_COMPLETE (R213): Every engine and lane reports no old-generation work and the carrel returns to READY. -/
  | carrelResetComplete (c : CarId)
  /-- CARREL_RESET_BOUND (R213): An engine or lane that has not reported within 838 ticks is reset in its ENGINE domain. -/
  | carrelResetBound (c : CarId)
  /-- TEN_RESET (R215): A write of TEN_RESET resets every carrel of the tenant and clears its notices, interrupts and log. -/
  | tenReset (w : Who) (t : TenId) (v : Word)
  /-- CAR_CQTAIL_WRITE (R211): A write of CAR_CQTAIL consumes completion entries and lets held completions be written, or sets RANGE. -/
  | carCqtailWrite (w : Who) (c : CarId) (v : Word)
  /-- CQERR_CLEAR (R211): A write of 1 to CAR_STAT.CQERR resumes delivery by retrying the faulted entry. -/
  | cqerrClear (w : Who) (c : CarId) (v : Word)
  /-- NEWEPOCH (R219): A write of TEN_MPLCTL.NEWEPOCH starts a marking epoch and clears the bitmap. -/
  | newepoch (w : Who) (t : TenId) (v : Word)
  /-- BITMAP_CLEAR_DONE (R219): The bitmap is zero, and CLEARING and NEWEPOCH return to 0. -/
  | bitmapClearDone (t : TenId)
  /-- TEN_CTL_WRITE (R202): A write of TEN_CTL sets tenant properties, with NVT and DUR as pending ledger state and SOLO refused when paired. -/
  | tenCtlWrite (w : Who) (t : TenId) (v : Word)
  /-- INTERRUPT_TAKE (R235): A core takes a pending interrupt at a syllable boundary and claims its source. -/
  | interruptTake (q : SeatId)
  /-- FP_TRAP_REPORT (R270): A pending F48 trap is reported as cause FP at a later syllable boundary. -/
  | fpTrapReport (q : SeatId)
  /-- WAIT_END (R235): An interrupt routed to a waiting core becomes pending and WAIT ends. -/
  | waitEnd (q : SeatId)
  /-- LITS (R243): Push a small literal from the opcode. -/
  | lits (q : SeatId) (n : Fin 64)
  /-- LIT8 (R243): Push an 8-bit sign-extended literal. -/
  | lit8 (q : SeatId) (n : BitVec 8)
  /-- LIT16 (R243): Push a 16-bit sign-extended literal. -/
  | lit16 (q : SeatId) (n : BitVec 16)
  /-- LIT24 (R243): Push a 24-bit sign-extended literal. -/
  | lit24 (q : SeatId) (n : BitVec 24)
  /-- LITW (R240): Push the next literal word after the current word. -/
  | litw (q : SeatId)
  /-- NOP (R244): No effect. -/
  | nop (q : SeatId)
  /-- ILLEGAL_OPCODE (R244): A reserved opcode, or an instruction crossing a word, raises ILLEGAL. -/
  | illegalOpcode (q : SeatId) (op op2 : BitVec 8)
  /-- DUP (R249): Copy the top data stack entry. -/
  | dup (q : SeatId)
  /-- DROP (R249): Discard the top data stack entry. -/
  | drop (q : SeatId)
  /-- SWAP (R249): Exchange the top two entries. -/
  | swap (q : SeatId)
  /-- OVER (R249): Copy the second entry to the top. -/
  | over (q : SeatId)
  /-- ROT (R249): Bring the third entry to the top. -/
  | rot (q : SeatId)
  /-- NIP (R249): Discard the second entry. -/
  | nip (q : SeatId)
  /-- TUCK (R249): Copy the top entry under the second. -/
  | tuck (q : SeatId)
  /-- PICK (R249): Push a copy of the entry at depth d. -/
  | pick (q : SeatId)
  /-- PUT (R249): Overwrite the entry at depth d. -/
  | put (q : SeatId)
  /-- TOR (R249): Move the top data stack entry to the return stack. -/
  | tor (q : SeatId)
  /-- FROMR (R249): Move the top return stack entry to the data stack. -/
  | fromr (q : SeatId)
  /-- PEEKR (R249): Copy the top return stack entry to the data stack. -/
  | peekr (q : SeatId)
  /-- ADD (R250): Integer add modulo 2^48, setting V on signed overflow. -/
  | add (q : SeatId)
  /-- SUB (R250): Integer subtract, setting V on signed overflow. -/
  | sub (q : SeatId)
  /-- NEG (R250): Integer negate. -/
  | neg (q : SeatId)
  /-- MUL (R259): Low 48 bits of the product, setting V where the signed product overflows. -/
  | mul (q : SeatId)
  /-- MULHS (R250): High 48 bits of the signed product. -/
  | mulhs (q : SeatId)
  /-- MULHU (R250): High 48 bits of the unsigned product. -/
  | mulhu (q : SeatId)
  /-- DIVS (R260): Signed quotient, or IDIV on division by zero. -/
  | divs (q : SeatId)
  /-- DIVU (R260): Unsigned quotient, or IDIV on division by zero. -/
  | divu (q : SeatId)
  /-- REMS (R260): Signed remainder, or IDIV on division by zero. -/
  | rems (q : SeatId)
  /-- REMU (R260): Unsigned remainder, or IDIV on division by zero. -/
  | remu (q : SeatId)
  /-- AND (R250): Bitwise and. -/
  | and (q : SeatId)
  /-- OR (R250): Bitwise or. -/
  | or (q : SeatId)
  /-- XOR (R250): Bitwise exclusive or. -/
  | xor (q : SeatId)
  /-- NOT (R250): Bitwise complement. -/
  | not (q : SeatId)
  /-- SHL (R250): Shift left with zeros in. -/
  | shl (q : SeatId)
  /-- SHRL (R250): Logical shift right. -/
  | shrl (q : SeatId)
  /-- SHRA (R250): Arithmetic shift right. -/
  | shra (q : SeatId)
  /-- ROL (R250): Rotate left by n mod 48. -/
  | rol (q : SeatId)
  /-- EQ (R250): Push true where the two entries are equal. -/
  | eq (q : SeatId)
  /-- LT (R250): Signed less-than comparison. -/
  | lt (q : SeatId)
  /-- LTU (R250): Unsigned less-than comparison. -/
  | ltu (q : SeatId)
  /-- ZEQ (R250): Push true where the entry is zero. -/
  | zeq (q : SeatId)
  /-- DADD (R263): Packed decimal add with overflow flag, DDATA check and optional DOVF. -/
  | dadd (q : SeatId) (n : BitVec 8)
  /-- DSUB (R263): Packed decimal subtract with overflow flag, DDATA check and optional DOVF. -/
  | dsub (q : SeatId) (n : BitVec 8)
  /-- DCMP (R263): Compare two packed decimal operands. -/
  | dcmp (q : SeatId) (n : BitVec 8)
  /-- DCHK (R262): Push whether every digit and the sign of a decimal operand are valid. -/
  | dchk (q : SeatId) (n : BitVec 8)
  /-- FADD (R267): F48 add. -/
  | fadd (q : SeatId)
  /-- FSUB (R267): F48 subtract. -/
  | fsub (q : SeatId)
  /-- FMUL (R267): F48 multiply. -/
  | fmul (q : SeatId)
  /-- FDIV (R268): F48 divide. -/
  | fdiv (q : SeatId)
  /-- FSQRT (R268): F48 square root. -/
  | fsqrt (q : SeatId)
  /-- FMA (R267): F48 fused multiply-add rounded once. -/
  | fma (q : SeatId)
  /-- FCMP (R268): F48 compare giving equal, less, greater or unordered. -/
  | fcmp (q : SeatId)
  /-- FCVTI (R269): Convert F48 to a signed integer. -/
  | fcvti (q : SeatId)
  /-- FCVTF (R269): Convert a signed integer to F48. -/
  | fcvtf (q : SeatId)
  /-- FTOD (R269): Convert F48 to binary64 as a word pair. -/
  | ftod (q : SeatId)
  /-- FFROMD (R269): Convert binary64 to F48. -/
  | ffromd (q : SeatId)
  /-- FBAR (R270): Wait until every earlier F48 operation has reported its traps. -/
  | fbar (q : SeatId)
  /-- LD (R253): Load the payload of a D-space word. -/
  | ld (q : SeatId)
  /-- ST (R253): Store a word to D-space with key, tag and change bit. -/
  | st (q : SeatId)
  /-- CAS (R237): Atomic compare and swap of a D-space word. -/
  | cas (q : SeatId)
  /-- ILD (R253): Load the payload of an I-space word. -/
  | ild (q : SeatId)
  /-- IST (R253): Store a word to I-space. -/
  | ist (q : SeatId)
  /-- IN (R253): Read a register at a P-space address after window, map and SR checks. -/
  | inp (q : SeatId)
  /-- OUT (R253): Write a register at a P-space address after window, map and SR checks. -/
  | outp (q : SeatId)
  /-- BR (R254): Branch to a relative target. -/
  | br (q : SeatId) (off : BitVec 16)
  /-- BZ (R254): Branch where the popped value is zero. -/
  | bz (q : SeatId) (off : BitVec 16)
  /-- BNZ (R254): Branch where the popped value is non-zero. -/
  | bnz (q : SeatId) (off : BitVec 16)
  /-- CALL (R254): Push the continuation address and branch. -/
  | call (q : SeatId) (off : BitVec 16)
  /-- RET (R255): Continue at the address popped from the return stack. -/
  | ret (q : SeatId)
  /-- JMPI (R255): Continue at the address popped from the data stack. -/
  | jmpi (q : SeatId)
  /-- CALLI (R255): Push the continuation and continue at the popped address. -/
  | calli (q : SeatId)
  /-- CALLM (R224): Enter the monitor, moving n entries and writing the world-entry record. -/
  | callm (q : SeatId) (n : BitVec 8)
  /-- RETM (R224): Return from the monitor to level XCS.FROM. -/
  | retm (q : SeatId) (n : BitVec 8)
  /-- SVC (R224): Enter the supervisor level of the same world. -/
  | svc (q : SeatId) (n : BitVec 8)
  /-- RETS (R224): Return from a supervisor level. -/
  | rets (q : SeatId) (n : BitVec 8)
  /-- ERET (R224): Return from a handling level, clearing XA. -/
  | eret (q : SeatId)
  /-- GETC (R227): Read a control cell of a permitted bank. -/
  | getc (q : SeatId) (c : BitVec 8)
  /-- SETC (R228): Write a control cell of a permitted bank. -/
  | setc (q : SeatId) (c : BitVec 8)
  /-- WAIT (R235): Wait for an interrupt routed to the core. -/
  | wait (q : SeatId)
  /-- FENCE (R236): Complete every earlier access before any later one. -/
  | fence (q : SeatId)
  /-- IFENCE (R236): Discard fetched instructions so later fetches see earlier stores. -/
  | ifence (q : SeatId)
  /-- NSCA (R287): Clean the near-store line holding an address. -/
  | nsca (q : SeatId)
  /-- NSIA (R287): Invalidate the near-store line holding an address. -/
  | nsia (q : SeatId)
  /-- NSFA (R287): Clean and invalidate the near-store line holding an address. -/
  | nsfa (q : SeatId)
  /-- NSCE (R287): Clean near-store entry i mod 64. -/
  | nsce (q : SeatId)
  /-- NSIE (R287): Invalidate near-store entry i mod 64. -/
  | nsie (q : SeatId)
  /-- NSFE (R287): Clean and invalidate near-store entry i mod 64. -/
  | nsfe (q : SeatId)
  /-- NSCR (R258): Clean the near-store lines of a range, page by page. -/
  | nscr (q : SeatId)
  /-- NSIR (R258): Invalidate the near-store lines of a range, skipping locked lines. -/
  | nsir (q : SeatId)
  /-- NSFR (R258): Clean and invalidate the near-store lines of a range. -/
  | nsfr (q : SeatId)
  /-- NSLOCK (R284): Lock the near-store line holding an address, filling it where absent. -/
  | nslock (q : SeatId)
  /-- NSUNLK (R284): Unlock the near-store line holding an address. -/
  | nsunlk (q : SeatId)
  /-- L2CA (R296): Write back the line holding an address wherever it is dirty. -/
  | l2ca (q : SeatId)
  /-- L2FA (R296): Write back and remove the line holding an address from every cache. -/
  | l2fa (q : SeatId)
  /-- PFLUSH (R278): Clear the core's prediction state. -/
  | pflush (q : SeatId)
  /-- PBAR (R279): Set the core's prediction bar. -/
  | pbar (q : SeatId)
  /-- PUNBAR (R279): Clear the core's prediction bar. -/
  | punbar (q : SeatId)
  /-- NS_FILL_DONE (R283): A near-store fill completes, touching its entry and moving a dirty victim to the eviction buffer. -/
  | nsFillDone (q : SeatId) (i : Fin 64) (err : LineErr)
  /-- EVICTION_WRITEBACK_DONE (R286): A buffered dirty line has been written back to the stacks, freeing a buffer place. -/
  | evictionWritebackDone (q : SeatId × LineErr)
  /-- CORE_XFLUSH_WRITE (R238): A write of CORE_XFLUSH discards held translations of a page or a root. -/
  | coreXflushWrite (q : SeatId) (v : Word)
  /-- CORE_XROOT_WRITE (R238): A write of CORE_XROOT or CORE_XROOT_SR sets the root and discards its held translations. -/
  | coreXrootWrite (q : SeatId) (sr : Bool) (v : Word)
  /-- LOCKSTEP_MISMATCH (R307): The comparator finds a difference and the pair retries from its checkpoint, up to three times, then spares. -/
  | lockstepMismatch (q : SeatId)
  /-- SPARING_COMPLETE (R308): The new unit starts at the checkpoint and the seat reads RUNNING. -/
  | sparingComplete (q : SeatId)
  /-- COMPARATOR_SELFTEST (R312): Every 1,024 µs the comparator injects a known difference on its reserved lane. -/
  | comparatorSelftest (q : SeatId) (pass : Bool)
  /-- DUAL_RAIL_VIOLATION (R312): A comparator rail pair is found in the same state and the seat is spared at once. -/
  | dualRailViolation (q : SeatId)
  /-- CORE_CODE_ERROR (R313): An uncorrectable error in a core's private state spares or parks the seat. -/
  | coreCodeError (q : SeatId) (site : CodeSite)
  /-- SPLIT_PARITY_ERROR (R313): A parity error in a split core is retried, spared or parked. -/
  | splitParityError (q : SeatId) (left : Bool)
  /-- CLUSTER_FAULT (R313): A cluster clock, power or stacks control fault parks every seat of the cluster. -/
  | clusterFault (c : CluId)
  /-- BIST_COMPLETE (R311): A freed unit's built-in self-test ends and the unit returns to SPARE or becomes FAILED. -/
  | bistComplete (c : CluId) (u : UnitId) (pass : Bool)
  /-- ROTATION (R314): Every ROTPER seconds a seat is moved to a spare so its unit can be tested. -/
  | rotation (c : CluId)
  /-- BIST_SEAT (R315): A CLU_BISTREQ write with OP SEAT tests the unit under a seat by rotating it. -/
  | bistSeat (w : Who) (c : CluId) (v : Word)
  /-- BIST_UNIT (R315): A CLU_BISTREQ write with OP UNIT tests a spare unit in place. -/
  | bistUnit (w : Who) (c : CluId) (v : Word)
  /-- SEAT_RESET (R316): A write of CLU_SEATRESET resets a seat once it runs and enters the monitor with cause RESET. -/
  | seatReset (w : Who) (q : SeatId) (v : Word)
  /-- DEBUG_HALT (R319): A debugger halt stops both cores of a seat at one instruction boundary. -/
  | debugHalt (q : SeatId)
  /-- DEBUG_RESUME (R319): A debugger resume starts both cores of a seat. -/
  | debugResume (q : SeatId)
  /-- DEBUG_STEP (R319): A debugger single-step is replayed to both cores. -/
  | debugStep (q : SeatId)
  /-- DEBUG_WRITE (R319): A debugger cell or stack write is replayed to both cores. -/
  | debugWrite (q : SeatId) (tgt : DbgTarget) (v : Word)
  /-- DEBUG_MEMORY_ACCESS (R319): A debugger memory access through the core is replayed to both cores. -/
  | debugMemoryAccess (q : SeatId) (store : Bool) (a v : Word)
  /-- DEBUG_READ (R318): A debugger read returns state from the main core. -/
  | debugRead (q : SeatId) (tgt : DbgTarget)
  /-- DEVICE_FAIL (R328): A GDDR6 device fails by rebuild threshold, training or lack of response and its group degrades. -/
  | deviceFail (d : DevId) (cause : Fin 4)
  /-- DEVICE_TRAINING_START (R330): At a folio boundary the next device starts WCK and VREF retraining. -/
  | deviceTrainingStart
  /-- DEVICE_TRAINING_END (R330): A device's training ends and held writes go out. -/
  | deviceTrainingEnd (pass : Bool)
  /-- PATROL_SCRUB_LINE (R332): Patrol scrub reads and treats the next line of memory. -/
  | patrolScrubLine (err : LineErr)
  /-- MEM_SRPAGE_WRITE (R333): A write of MEM_SRPAGE marks or unmarks a strongroom page and rewrites its containers. -/
  | memSrpageWrite (w : Who) (v : Word)
  /-- CHG_SCAN (R334): A write of MEM_CHGREQ.GO starts a change-bit scan of a page, optionally clearing the bits. -/
  | chgScan (w : Who) (v : Word)
  /-- CHG_SCAN_DONE (R334): A change-bit scan ends, setting ANY and clearing BUSY. -/
  | chgScanDone
  /-- MEM_INIT_COMPLETE (R335): Start-up training and zeroing of memory completes and the boot ROM may start. -/
  | memInitComplete (failed : List DevId)
  /-- BOOT_IMAGE_VERIFY (R352): The boot ROM reads and checks image A then B, loads the first that passes into the vault and starts the monitor. -/
  | bootImageVerify (a b : List Octet)
  /-- SR_ATTR_PORT_WRITE (R340): A write of a port's world attribute resets the port and applies the attribute. -/
  | srAttrPortWrite (w : Who) (p : PortId) (v : Word)
  /-- SR_ATTR_PIN_WRITE (R340): A write of a pin group's world attribute takes effect at once. -/
  | srAttrPinWrite (w : Who) (v : Word)
  /-- SR_ATTR_ENGINE_WRITE (R340): A write of an engine or lane world attribute sets PEND and starts the change. -/
  | srAttrEngineWrite (w : Who) (b : BlockId) (v : Word)
  /-- ATTR_CHANGE_DONE (R340): The engine or lane is drained and zeroed, the attribute changes and PEND clears. -/
  | attrChangeDone (b : BlockId)
  /-- SR_LEASE_WRITE (R345): A write of SR_LEASE grants, renews or releases a lease on a block. -/
  | srLeaseWrite (w : Who) (b : BlockId) (v : Word)
  /-- SR_LEASE_EXPIRY (R346): A lease ends and the latest deferred gating request for the block is applied. -/
  | srLeaseExpiry (b : BlockId)
  /-- SWD_KICK (R348): A write of SR_SWD.KICK reloads the strongroom watchdog. -/
  | swdKick (w : Who) (v : Word)
  /-- SWD_EXPIRY (R348): The strongroom watchdog expires and the strongroom restarts: seats stop, pages scrub, the image is re-verified and keys derived. -/
  | swdExpiry
  /-- SWD_BOUND_EXPIRY (R349): A restart not completed within 1 s resets the module. -/
  | swdBoundExpiry
  /-- CHARTER_COMMIT (R354): A write of SR_COMMIT.GO in CHARTER forms the charter record, writes MEAS2, applies modes and INIT and sets COMMITTED. -/
  | charterCommit (w : Who) (v : Word)
  /-- RESTART_COMMIT (R348): A write of SR_COMMIT.GO during a restart completes it and resumes stopped seats through their world-entry records. -/
  | restartCommit (w : Who) (v : Word)
  /-- FUSE_PROGRAM (R358): An SR_FUSECTL operation PROGRAM writes a customer key hash into a slot. -/
  | fuseProgram (w : Who) (v : Word)
  /-- FUSE_REVOKE (R358): An SR_FUSECTL operation REVOKE revokes a customer slot. -/
  | fuseRevoke (w : Who) (v : Word)
  /-- FUSE_RAISE_MINSVN (R358): An SR_FUSECTL operation raises the fused MINSVN. -/
  | fuseRaiseMinsvn (w : Who) (v : Word)
  /-- FUSE_BADOP (R358): An SR_FUSECTL operation with OP 0b00 reports BADOP. -/
  | fuseBadop (w : Who) (v : Word)
  /-- FUSE_OP_DONE (R358): A fuse operation ends and BUSY clears with its result. -/
  | fuseOpDone
  /-- MESH_BREACH (R357): A lid-mesh breach zeroises keys and enters MODULE reset with cause TAMPER. -/
  | meshBreach
  /-- GCM_ENC (R363): A lane encrypts with AES-GCM, taking an IV from the slot's counter. -/
  | gcmEnc (l : LaneId)
  /-- GCM_DEC (R367): A lane decrypts and verifies AES-GCM, releasing nothing on AUTHFAIL. -/
  | gcmDec (l : LaneId)
  /-- XTS_ENC (R359): A lane encrypts one AES-256-XTS data unit. -/
  | xtsEnc (l : LaneId)
  /-- XTS_DEC (R359): A lane decrypts one AES-256-XTS data unit. -/
  | xtsDec (l : LaneId)
  /-- CMAC_GEN (R359): A lane computes a CMAC tag. -/
  | cmacGen (l : LaneId)
  /-- CMAC_VER (R367): A lane verifies a CMAC tag. -/
  | cmacVer (l : LaneId)
  /-- KW_WRAP (R359): A lane wraps data under AES key wrap. -/
  | kwWrap (l : LaneId)
  /-- KW_UNWRAP (R367): A lane unwraps and verifies AES key-wrapped data. -/
  | kwUnwrap (l : LaneId)
  /-- UNWRAP (R365): A lane unwraps a key blob and loads it into a destination slot. -/
  | unwrap (l : LaneId)
  /-- EXPORT (R365): A lane wraps a slot's key into a blob and clears the source slot. -/
  | exportKey (l : LaneId)
  /-- GENKEY (R359): A lane loads a random key into a slot. -/
  | genkey (l : LaneId)
  /-- KEM_KEYGEN (R359): A lane generates an ML-KEM-1024 key pair, keeping the decapsulation key in KP0 or KP1. -/
  | kemKeygen (l : LaneId)
  /-- KEM_ENCAPS (R359): A lane encapsulates to a key and places the shared secret in a slot. -/
  | kemEncaps (l : LaneId)
  /-- KEM_DECAPS (R359): A lane decapsulates a ciphertext and places the shared secret in a slot. -/
  | kemDecaps (l : LaneId)
  /-- CIPHER_BADOP (R359): A descriptor with a reserved operation ends with BADDESC. -/
  | cipherBadop (l : LaneId)
  /-- KX_SCLR (R362): A write of KX_SCLR puts a slot into CLEARING. -/
  | kxSclr (w : Who) (k : SlotId) (v : Word)
  /-- SLOT_CLEAR_DONE (R362): Every job using a clearing slot has ended, the material is zeroed and the slot is FREE. -/
  | slotClearDone (k : SlotId)
  /-- KX_LANE_RESET (R212): A write of KX_LCTL.RESET resets a cipher lane and ends its waiting slip FAULT. -/
  | kxLaneReset (w : Who) (l : LaneId) (v : Word)
  /-- FRB_PACK (R380): A lane codes 512-word blocks into fixed-size slots. -/
  | frbPack (l : XLaneId)
  /-- FRB_UNPACK (R380): A lane decodes fixed-size slots into 512-word blocks. -/
  | frbUnpack (l : XLaneId)
  /-- DEFL_PACK (R376): A lane writes a DEFLATE stream into a chain of buffers or a COMPAT buffer. -/
  | deflPack (l : XLaneId)
  /-- DEFL_UNPACK (R376): A lane decodes a DEFLATE stream into a chain of buffers or a COMPAT buffer. -/
  | deflUnpack (l : XLaneId)
  /-- CX_LANE_RESET (R381): A write of CX_LCTL.RESET resets a compression lane and ends its job FAULT. -/
  | cxLaneReset (w : Who) (l : XLaneId) (v : Word)
  /-- TIPIN_LOAD (R391): A write of UC_CTL.LOAD starts the checks of a tip-in package. -/
  | tipinLoad (w : Who) (v : Word)
  /-- TIPIN_LOAD_DONE (R391): A checked package is staged and SR_MEAS3 extended, or the load is refused. -/
  | tipinLoadDone
  /-- TIPIN_ACTIVATE (R392): A write of UC_CTL.ACTIVATE sets ACTIVATING so sequencers switch to the staged bank at safe points. -/
  | tipinActivate (w : Who) (v : Word)
  /-- TIPIN_ACTIVATE_DONE (R392): Every sequencer has switched; UC_TVER takes the new version and IS0027 is raised. -/
  | tipinActivateDone
  /-- SEQUENCER_FAULT (R386): A microcode sequencer faults and its block handles it as an internal fault. -/
  | sequencerFault (cls : Fin 5) (i : Fin 64)
  /-- EN_GATE_WRITE (R406): A write of EN_GATE requests or ends clock-gating of a block, or is deferred by a lease. -/
  | enGateWrite (w : Who) (b : BlockId) (v : Word)
  /-- AUTOGATE_GATE (R407): The planner gates an engine or lane idle for a whole folio. -/
  | autogateGate (b : BlockId)
  /-- AUTOGATE_UNGATE (R407): The planner ungates an engine when a ready job finds none idle and ungated. -/
  | autogateUngate (b : BlockId)
  /-- GATED_ACTION_RELEASE (R19): A held action of a gated block starts when the block is ungated. -/
  | gatedActionRelease (b : BlockId)
  /-- STK_FIRE (R411): A write of STK_FIRE triggers a stocktake. -/
  | stkFire (w : Who) (v : Word)
  /-- STKT_IN_EDGE (R411): A rising edge on STKT_IN triggers a stocktake. -/
  | stktInEdge
  /-- STOCKTAKE_LATCH (R412): At tick n + 3 every register is latched into the snapshot and IS0002 is raised. -/
  | stocktakeLatch
  /-- STK_ARM (R413): A write of STK_ARM clears LOCKED so a new snapshot may latch. -/
  | stkArm (w : Who) (v : Word)
  /-- NOTE_POP (R425): A write of NOTE_POP removes the oldest notice. -/
  | notePop (w : Who) (t : TenId) (v : Word)
  /-- INT_RAISE (R423): A write of INT_RAISE sets PEND of a SOFT source. -/
  | intRaise (w : Who) (v : Word)
  /-- VAUX_RISE (R41): VAUX comes up; the AUX domain starts with RT UNSET at zero. -/
  | vauxRise
  /-- VAUX_LOSS (R435): Loss of VAUX resets the AUX domain and everything below it. -/
  | vauxLoss
  /-- PWR_OK_RISE (R434): PWR_OK rises after VIN is in range. -/
  | pwrOkRise
  /-- PWR_OK_FALL (R435): PWR_OK falls and the module enters MODULE reset within 10 µs. -/
  | pwrOkFall
  /-- VIN_UNDERVOLTAGE (R435): VIN below 10.4 V for 5 µs with PWR_OK high enters MODULE reset. -/
  | vinUndervoltage
  /-- VIO_SBB_LOSS (R435): Loss of VIO_SBB enters MODULE reset. -/
  | vioSbbLoss
  /-- VIO_SBA_LOSS (R435): Loss of VIO_SBA stops PULSE_OUT and ALIVE_OUT and the module fences. -/
  | vioSbaLoss
  /-- RESET_N_LOW (R437): RESET_N held low for at least 1 µs starts a warm MODULE reset. -/
  | resetNLow
  /-- RESET_N_RISE (R434): RESET_N rises, one of the instants that end MODULE reset. -/
  | resetNRise
  /-- MODULE_RESET_END (R434): MODULE reset ends 2 ms after the latest enabling instant; TWIN_PREF is sampled and CAUSE written. -/
  | moduleResetEnd
  /-- THERMAL_TRIP (R441): A site reaches 115 °C; THERM_TRIP_N falls, the module fences and transmitters idle. -/
  | thermalTrip (tj : BitVec 12)
  /-- ALERT_RESPONSE (R442): An SMBus alert response read is answered with the module's address while ALERT_N is low. -/
  | alertResponse
  /-- MGMT_READ_MOD_PART (R443): SMBus command 0x01 returns MOD_PART. -/
  | mgmtReadModPart
  /-- MGMT_READ_SERIAL_HI (R443): SMBus command 0x02 returns MOD_SERIAL_HI. -/
  | mgmtReadSerialHi
  /-- MGMT_READ_SERIAL_LO (R443): SMBus command 0x03 returns MOD_SERIAL_LO. -/
  | mgmtReadSerialLo
  /-- MGMT_READ_MOD_STATE (R443): SMBus command 0x04 returns MOD_STATE. -/
  | mgmtReadModState
  /-- MGMT_READ_SR_BOOT (R443): SMBus command 0x05 returns SR_BOOT under every attribute. -/
  | mgmtReadSrBoot
  /-- MGMT_READ_SR_RSTCAUSE (R443): SMBus command 0x06 returns SR_RSTCAUSE. -/
  | mgmtReadSrRstcause
  /-- MGMT_READ_TWN_STAT (R443): SMBus command 0x07 returns TWN_STAT. -/
  | mgmtReadTwnStat
  /-- MGMT_READ_TWN_EPOCH (R443): SMBus command 0x08 returns TWN_EPOCH. -/
  | mgmtReadTwnEpoch
  /-- MGMT_READ_INT_FAULT (R443): SMBus command 0x09 returns INT_FAULT. -/
  | mgmtReadIntFault
  /-- MGMT_READ_RT_STAT (R443): SMBus command 0x0A returns RT_STAT. -/
  | mgmtReadRtStat
  /-- MGMT_READ_MOD_TEMP (R443): SMBus command 0x0B returns MOD_TEMP. -/
  | mgmtReadModTemp
  /-- MGMT_READ_MOD_SUPPLY (R443): SMBus command 0x0C returns MOD_SUPPLY. -/
  | mgmtReadModSupply
  /-- MGMT_READ_EN_TOTAL (R443): SMBus command 0x0D returns the module total tally EN_TALLY[0x42]. -/
  | mgmtReadEnTotal
  /-- MGMT_UNLISTED_COMMAND (R443): An SMBus command not served under the current attribute is refused by a NAK. -/
  | mgmtUnlistedCommand (cmd : BitVec 8)
  /-- MBOX_WRITE (R444): SMBus command 0x80 writes a message into SR_MBIN and sets INFULL, or is refused while INFULL. -/
  | mboxWrite (octs : List Octet)
  /-- MBOX_READ (R444): SMBus command 0x81 reads SR_MBOUT and clears OUTFULL. -/
  | mboxRead
  /-- REGISTER_WRITE (R11): A write to a register with no row of its own takes effect under its access code and write rules. -/
  | registerWrite (w : Who) (a : Nat) (v : Word)
  /-- TWIN_ALIVE_IN_HIGH (R137): TWIN_ALIVE_IN rises and reads high at once, updating TWN_STAT.ALIVEIN, ending ALIVEMIS and bearing on INIT refusal and the takeover decision. -/
  | twinAliveInHigh
  /-- FRAME_LEFT_PORT (R190): The last octet of a raw frame's FCS leaves the port, ending a raw SEND without POSTED OK and taking any PTP transmit stamp. -/
  | frameLeftPort (p : PortId) (sub : Nat)
  /-- SRPAGE_MARK_DONE (R333): Marking or unmarking a strongroom page finishes rewriting its containers, and MEM_SRSTAT reports it done with BUSY cleared. -/
  | srpageMarkDone
  /-- VIO_SBA_RETURN (R430): VIO_SBA returns and the inputs on that rail, PPS_IN among them, are read at their true levels again instead of low. -/
  | vioSbaReturn
  /-- VIO_SBB_RETURN (R443): VIO_SBB returns, reconnecting the TMS and TDI pull-ups and letting the management target run again. -/
  | vioSbbReturn
deriving DecidableEq, Repr

end Sys2Proof
end

