-- ==== Sys2Proof/Machine/Sha3.lean ====
section
/-! DEFINITION. SHA3-256, SHA3-512, SHAKE128 and SHAKE256, which the spec names by their standard, FIPS 202 (R359, R188). The
functions themselves are that standard's, not the spec's (PRESUMED, log 2). -/

namespace Sys2Proof.Machine

open Sys2Proof

/-- A lane of the permutation's state. -/
abbrev Lane64 := BitVec 64

/-- The round constants. -/
def keccakRc : List Lane64 :=
  [0x0000000000000001, 0x0000000000008082, 0x800000000000808A, 0x8000000080008000, 0x000000000000808B, 0x0000000080000001,
   0x8000000080008081, 0x8000000000008009, 0x000000000000008A, 0x0000000000000088, 0x0000000080008009, 0x000000008000000A] ++
  [0x000000008000808B, 0x800000000000008B, 0x8000000000008089, 0x8000000000008003, 0x8000000000008002, 0x8000000000000080,
   0x000000000000800A, 0x800000008000000A, 0x8000000080008081, 0x8000000000008080, 0x0000000080000001, 0x8000000080008008]

/-- The rotation of lane x + 5y. -/
def keccakRot : List Nat :=
  [0, 1, 62, 28, 27, 36, 44, 6, 55, 20, 3, 10, 43] ++ [25, 39, 41, 45, 15, 21, 8, 18, 2, 61, 56, 14]

/-- Lane (x, y) of a state, the coordinates modulo 5. -/
def laneAt (s : List Lane64) (x y : Nat) : Lane64 := s.getD (x % 5 + 5 * (y % 5)) 0

/-- The first step: each lane takes the parities of two columns. -/
def keccakTheta (s : List Lane64) : List Lane64 :=
  let c := (List.range 5).map fun x => laneAt s x 0 ^^^ laneAt s x 1 ^^^ laneAt s x 2 ^^^ laneAt s x 3 ^^^ laneAt s x 4
  let d := (List.range 5).map fun x => c.getD ((x + 4) % 5) 0 ^^^ (c.getD ((x + 1) % 5) 0).rotateLeft 1
  (List.range 25).map fun i => s.getD i 0 ^^^ d.getD (i % 5) 0

/-- The next two: each lane turned, and moved. -/
def keccakRhoPi (s : List Lane64) : List Lane64 :=
  (List.range 25).map fun i =>
    let x := (i % 5 + 3 * (i / 5)) % 5
    (laneAt s x (i % 5)).rotateLeft (keccakRot.getD (x + 5 * (i % 5)) 0)

/-- The last two: rows combined, and the round constant. -/
def keccakChiIota (rc : Lane64) (s : List Lane64) : List Lane64 :=
  (List.range 25).map fun i =>
    let x := i % 5
    let y := i / 5
    (laneAt s x y ^^^ (~~~ laneAt s (x + 1) y &&& laneAt s (x + 2) y)) ^^^ (if i = 0 then rc else 0)

/-- The permutation. -/
def keccakF (s : List Lane64) : List Lane64 :=
  keccakRc.foldl (fun a rc => keccakChiIota rc (keccakRhoPi (keccakTheta a))) s

/-- The lane that eight octets spell, the first the least significant. -/
def laneOf (os : List Octet) : Lane64 := BitVec.ofNat 64 (natOfOctets (os.take 8).reverse)

/-- A block of `rate` octets taken into the state. -/
def absorbBlock (rate : Nat) (s : List Lane64) (block : List Octet) : List Lane64 :=
  (List.range 25).map fun i => s.getD i 0 ^^^ (if 8 * i < rate then laneOf (block.drop (8 * i)) else 0)

/-- `n` blocks taken into the state, each followed by the permutation. -/
def absorb (rate : Nat) : Nat → List Lane64 → List Octet → List Lane64
  | 0, s, _ => s
  | n + 1, s, os => absorb rate n (keccakF (absorbBlock rate s (os.take rate))) (os.drop rate)

/-- The octets of a lane, the least significant first. -/
def laneOctetsLE (x : Lane64) : List Octet := (octetsBE 8 x.toNat).reverse

/-- `n` blocks of output. -/
def squeeze (rate : Nat) : Nat → List Lane64 → List Octet
  | 0, _ => []
  | n + 1, s => (s.flatMap laneOctetsLE).take rate ++ squeeze rate n (keccakF s)

/-- A message with its domain bits and padding, a whole number of blocks of `rate` octets. -/
def spongePad (rate : Nat) (suffix : Octet) (os : List Octet) : List Octet :=
  let k := rate - os.length % rate
  if k = 1 then os ++ [suffix ||| 0x80#8] else os ++ [suffix] ++ List.replicate (k - 2) 0#8 ++ [0x80#8]

/-- `n` octets of the sponge's output for a message. -/
def sponge (rate : Nat) (suffix : Octet) (os : List Octet) (n : Nat) : List Octet :=
  let p := spongePad rate suffix os
  (squeeze rate ((n + rate - 1) / rate) (absorb rate (p.length / rate) (List.replicate 25 0) p)).take n

/-- SHA3-512 of octets, as a number of 512 bits. -/
def sha3_512 (os : List Octet) : BitVec 512 := BitVec.ofNat 512 (natOfOctets (sponge 72 0x06#8 os 64))

/-- SHA3-256 of octets, as a number of 256 bits. -/
def sha3_256 (os : List Octet) : BitVec 256 := BitVec.ofNat 256 (natOfOctets (sponge 136 0x06#8 os 32))

/-- SHAKE128, or with `big` SHAKE256, of octets: `n` octets of output. -/
def shake (big : Bool) (os : List Octet) (n : Nat) : List Octet := sponge (if big then 136 else 168) 0x1F#8 os n

end Sys2Proof.Machine
end

