-- ==== Sys2Proof/Config.lean ====
section
/-! DEFINITION. What an implementation fixes and what the spec leaves open: constants without a body. No proof can see the
value of any of them, so a claim holds for every value. -/

namespace Sys2Proof.Config

open Sys2Proof

/-! ### Free values -/

/-- A free value: the number the `k`-th open point of a run takes (log 1). The state's counter `free` supplies `k`. -/
opaque freeValue : Nat → Nat

/-- What the environment shows at a tick: the levels of PULSE_IN, STKT_IN and PPS_IN; the hottest site's Tj and the peak of
the sensors; VIN and VAUX in millivolts (log 6). -/
opaque pinLevels : Nat → BitVec 3
opaque sensorTj : Nat → BitVec 12
opaque sensorPeak : Nat → BitVec 12
opaque sensorSupply : Nat → BitVec 32
/-- Whether the lid mesh still reads breached at a tick after a breach (R357). -/
opaque meshBreached : Nat → Bool

/-! ### Constants of a part -/

/-- The silicon stepping in MOD_PART.STEP, read as 0x01 where it is 0: the steppings count from 0x01 (R20). -/
opaque step : BitVec 8
/-- The level the board ties TWIN_PREF to, taken at a power-up of AUX (R20, R152; log 100). -/
opaque twinPref : Bool
/-- The 64-bit serial number (R20). -/
opaque serial : BitVec 64
/-- The base part of the microcode: SHA3-512 of the boot ROM and fuse settings that MEAS0 holds (R353), 64 octets. -/
opaque romDigest : List Octet
/-- UC_ROMID (R395). -/
opaque romId : Word
/-- The fused hash of the vendor key, 64 octets (R352). -/
opaque vendorHash : List Octet
/-- The fused seed of the part, from which the identity key and the key-encryption key are derived (R355). -/
opaque fusedSeed : List Octet
/-- A microword of the ROM, by its micro-address (R384, R385). -/
opaque rom : Nat → BitVec 144

/-- Whether a condition of a sequencer's datapath holds in a micro-cycle (R385; log 130). -/
opaque microCond : Nat → Nat → Bool
/-- The 4-bit value a sequencer's datapath gives DISPATCH in a micro-cycle (R385; log 130). -/
opaque microValue : Nat → BitVec 4

/-! ### Cryptography and codecs, as functions the spec takes from other standards or leaves to the part (log 2) -/

/-- ML-DSA-87 verification: public key, message, context, signature. -/
opaque mldsaVerify : List Octet → List Octet → String → List Octet → Bool
/-- ML-DSA-87 KeyGen of FIPS 204 from a seed of 32 octets: the public and the private key (R355). -/
opaque mldsaKeyGen : List Octet → List Octet × List Octet
/-- Hedged ML-DSA-87 signing: the private key, the hedge, message, context. -/
opaque mldsaSign : List Octet → Nat → List Octet → String → List Octet
/-- Whether a twin's proof that it holds the private key of an ML-DSA-87 identity verifies: public key, proof (R132; the spec names
the algorithm and not the exchange). -/
opaque twinProof : List Octet → List Octet → Bool
/-- The session key of a number that the strongrooms agreed by ML-KEM-1024 on the twin link (R132). -/
opaque twinKey : Nat → List Octet
/-- The check octet of a container: a SEC-DED code over its bits [55:0], whose matrix the spec does not give (R323). -/
opaque secded : Nat → BitVec 8
/-- The RFC 1951 stream a lane writes for data with an EFFORT, as long as it decodes to them (R374, R378). -/
opaque deflate : Nat → List Octet → List Octet
/-- The FRB code of a block for a RATIO, none where it needs more than the slot, as long as it decodes to the block; and its
decoding (R378, R380). The spec fixes the slot's header only. -/
opaque frbCode : Nat → List Word → Option (List Word)
opaque frbDecode : Nat → List Word → List Word

end Sys2Proof.Config
end

