-- ==== Sys2Proof/Machine/State.lean ====
section
/-! DEFINITION. The state of the module as plain data: every register, table, queue, buffer, counter, mode and pin the spec
gives it, the queue of waiting commands, and the state right after reset. -/

namespace Sys2Proof.Machine

open Sys2Proof

/-! ### Sessions and connections (R81, R86 to R93) -/

/-- An id judged and not yet released (R91). `old` marks one an earlier connection left (R89). -/
structure PendItem where
  id : Nat
  folio : Nat
  old : Bool
deriving DecidableEq, Repr

/-- A STORED item in a session's log (R192). -/
structure StoredEnt where
  id : Nat
  volume : Nat
  ten : Nat
  w0 : Word
  w1 : Word
deriving DecidableEq, Repr

/-- A connection: the link state of an OPEN session entry (R81). Ordinals are counted without wrapping; the wire carries
them modulo 65,536 (R89). `unans` lists the ordinals of WORK items not yet answered with their ids, `stored` those of STORED
items whose frame is not yet acknowledged; `epochDue` holds the previous epoch of an EPOCH frame not yet sent. -/
structure Conn where
  port : Nat := 0
  peer : Word := 0
  txseq : Nat := 0
  rxseq : Nat := 0
  lim : Nat := 0
  nextOrd : Nat := 0
  plim : Nat := 0
  nextReply : Nat := 0
  unans : List (Nat × Nat) := []
  stored : List Nat := []
  unacked : List LcpFrame := []
  epochDue : Option Nat := none
  retx : Nat := 0
  progressAt : Nat := 0
  rxAt : Nat := 0
  probed : Bool := false
  ackBy : Option Nat := none
  nakFolio : Option Nat := none
deriving DecidableEq, Repr

/-- The part of a session entry that is not ledger state: R, the pending list, the delivered mark, the ids released in the
current epoch, the entries waiting for a RELEASE frame (an entry answered now with its connection's count and its ordinal),
the number of connections opened, the STORED log, the connection, the last SES_CTL result, and the folio at which its EPOCH frames
end, with the epoch before and the folio of the last one sent (R91 to R94, R192). -/
structure SesLive where
  r : Nat := 0
  pending : List PendItem := []
  delivered : Nat := 0
  relIds : List Nat := []
  outq : List (Option (Nat × Nat) × RelEntry) := []
  gen : Nat := 0
  stored : List StoredEnt := []
  conn : Option Conn := none
  err : Nat := 0
  epochEnd : Nat := 0
  epochPrev : Nat := 0
  epochFolio : Option Nat := none
deriving DecidableEq, Repr

/-! ### The arrival merge and the folios (R103 to R120) -/

/-- An item in the arrival merge (R103), with the tick it is emitted at. `port` is 256 for a core-originated item; `seat` is
then the issuing seat. `cgen` and `ord` name the connection and the ordinal of a partner item. -/
structure MergeItem where
  stamp : Nat
  valid : Bool
  port : Nat
  ses : Nat
  frm : Nat
  pos : Nat
  ten : Nat
  cgen : Nat
  ord : Nat
  at_ : Nat
  item : LcpItem
  orig : Bool
  gated : Bool
  badFmt : Bool
  seat : Nat
deriving DecidableEq, Repr

/-- An item judged in a folio and answered at release (R107). `ses` is 4,096 for a core-originated item. -/
structure JItem where
  ses : Nat
  id : Nat
  disp : Disp
  accn : Nat
deriving DecidableEq, Repr

/-- A closed folio of a tenant that awaits release (R120): where its entries start and stop in the ring, how many words they
fill and its root. `held` marks one received from the twin (R151). -/
structure ClosedFolio where
  folio : Nat
  start : Nat
  stop : Nat
  mode : Nat
  acc : Nat
  lastAccn : Nat
  items : List JItem
  held : Bool
  words : Nat
  recWords : Nat
  root : Nat
deriving DecidableEq, Repr

/-- A tenant's open folio and its closed folios (R118, R119). -/
structure TAcc where
  hdr : Option Nat := none
  items : List JItem := []
  leaves : List Nat := []
  acc : Nat := 0
  recs : Nat := 0
  recWords : Nat := 0
  words : Nat := 0
  firstAccn : Nat := 0
  refomit : Bool := false
  fullNoted : Bool := false
  lowNoted : Bool := false
  issued : Bool := false
  closed : List ClosedFolio := []
  closedTo : Option Nat := none
deriving DecidableEq, Repr

/-! ### The twin engine (R131 to R160) -/

/-- A folio whose boundary has passed and whose last items have still to be judged (R104, R119): the folio that followed it, the RT
of its boundary, the ledger state in effect in it (R107), the tenants enabled at its start, the mask and FORCED flag of its volume
where the volume ends with it, whether a forward load closed it, whether RT was valid at the boundary, and whether SEAL_CTL.EN was
effective as 1 there (R168). -/
structure Closing where
  folio : Nat
  next : Nat
  closeRt : Nat
  set : Ledger
  mask : Nat
  vmask : Nat
  vforced : Bool
  forced : Bool
  rtValid : Bool
  sealed : Bool
deriving DecidableEq, Repr

/-- A closed folio the source has to ship, is shipping or has shipped (R141 to R143): its ledger state and mask at the close,
each tenant's daybook part (tenant, offset, words, root), the mirrored lines dirty then, whether RT was valid, the tick it was handed
over, whether its shipment has begun with the lines still to send (R146), and the tick its shipment was complete. -/
structure Ship where
  folio : Nat
  state : Ledger
  mask : Nat
  parts : List (Nat × Nat × Nat × Nat)
  lines : List Nat
  rtValid : Bool
  at_ : Nat := 0
  left : Option (List Nat) := none
  doneAt : Option Nat := none
deriving DecidableEq, Repr

/-- A shipment the holder is receiving (R142). -/
structure HoldShip where
  folio : Nat
  epoch : Nat
  mask : Nat
  recs : List (Nat × Nat × List Word)
  state : Option Ledger
deriving DecidableEq, Repr

/-- The twin engine's own state: the link, its session key by number with the messages under it, and the messages that failed
authentication in a folio; the ALIVE lines; heartbeats; lease and fence; handover; shipments at the source; the shipment at the
holder with the folios whose checks failed and how often; synchronisation; the lines of new mirrored pages still to send and the
pages sent, the lines sent in a folio, and the mirror's dirty lines. -/
structure Twin where
  linkUp : Bool := false
  authed : Bool := false
  pk : List Octet := []
  keyNo : Nat := 0
  keyMsgs : Nat := 0
  linkErrFolio : Nat := 0
  linkErrs : Nat := 0
  loopFailed : Bool := false
  lastA : Nat := 0
  lastB : Nat := 0
  lostAtA : Nat := 0
  lostAtB : Nat := 0
  maxEpoch : Nat := 0
  peerPref : Bool := false
  peerValid : Bool := false
  leaseEnd : Nat := 0
  pending : Option Nat := none
  latch : Bool := false
  barred : Bool := false
  soloFrom : Option Nat := none
  toActive : Bool := false
  hbFolio : Option Nat := none
  pulseFolio : Option Nat := none
  hoVolume : Option Nat := none
  hoDone : Bool := false
  ships : List Ship := []
  shipping : Bool := false
  hold : Option HoldShip := none
  fails : List (Nat × Nat) := []
  shipFaultAt : Option Nat := none
  syncReq : Bool := false
  syncFolio : Nat := 0
  syncBounds : Nat := 0
  lastValid : Bool := false
  healthyAt : Option Nat := none
  seedQ : List Nat := []
  seeding : List (Nat × Nat) := []
  lineFolio : Nat := 0
  lineCount : Nat := 0
  dirty : List Nat := []
deriving DecidableEq, Repr

/-- A seal appended to the roll and not yet sent in SEALS (R172, R173): its volume, and the head, SEAL_LASTV, SEAL_LASTNO and
chain hash before it. -/
structure SealRec where
  vol : RootVol
  head : Nat
  lastv : Nat
  lastno : Nat
  prev : Nat
deriving DecidableEq, Repr

/-- The seal engine: the root queue, the seals not yet sent, the folio roots, tenant mask and FORCED flag of the open volume,
a shipped tail write that waits for the head, the chain hash of the last seal, and the tick at which the record being signed is done (R163 to R173, R453). -/
structure SealSt where
  queue : List RootVol := []
  unsent : List SealRec := []
  roots : List (Nat × Nat × Nat) := []
  mask : Nat := 0
  forced : Bool := false
  tailWait : Option Nat := none
  prev : Nat := 0
  signDone : Option Nat := none
deriving DecidableEq, Repr

/-! ### Jobs, engines and carrels (R178 to R213) -/

/-- What a waiting job waits for (R189 to R197, R211). -/
inductive Wait where
  | none
  | send (ses : Nat)
  | raw (port : Nat) (queued : Bool)
  | await (ses : Nat) (vol : Option Nat) (ten : Nat)
  | lane (cipher : Bool) (lane : Nat)
  | laneFree (kind : Nat)
  | bell (b : Nat)
  | folioN (folio : Nat)
  | folio (mode f : Nat)
  | rt (t : Nat)
  | lock (addr : Nat)
  | note (op : Nat)
deriving DecidableEq, Repr

/-- The states of a job (R180). -/
inductive JobState where
  | ready | running | waiting | held
deriving DecidableEq, Repr

/-- A job context (R180). -/
structure Job where
  ctx : Nat
  carrel : Nat
  gen : Nat
  ten : Nat
  sr : Bool
  cls : Nat
  blk : Nat
  tag : Word
  slip : Nat
  cc : Bool := false
  err : Bool := false
  j2 : Word := 0
  j3 : Word := 0
  st : JobState := .ready
  wait : Wait := .none
  woken : Bool := false
  wokenRes : Nat := 0
  wokenCount : Nat := 0
  deadline : Option Nat := .none
  ord : Nat := 0
  posted : List (Nat × Nat × Bool) := []
  found : Option StoredEnt := .none
deriving DecidableEq, Repr

/-- A REPLY item waiting in a session for credit, a connection or its volume (R189, R191). -/
structure ReplyWait where
  ses : Nat
  ctx : Nat
  item : LcpItem
  volume : Option (Nat × Nat)
  posted : Bool
  placed : Option Nat
deriving DecidableEq, Repr

/-- A frame in a port's transmit queue (R190). -/
structure RawTx where
  octs : List Octet
  ctx : Nat
  posted : Bool
deriving DecidableEq, Repr

/-- A frame in a port's plain-frame queue, with its receive stamp where PTP is on (R66, R67). -/
structure PlainRx where
  octs : List Octet
  stamp : Option (Nat × Nat)
deriving DecidableEq, Repr

/-- A clerk engine: the context of the job it runs, a pending attribute change (R340), and the tick it became idle. -/
structure Engine where
  job : Option Nat := none
  attr : Option Bool := none
  idleFrom : Nat := 0
deriving DecidableEq, Repr

/-- What a lane will answer for its job (R361, R375): the result code, the fault its own checks found (R369, R378), the status
a memory access ended with, the output words it writes, whether they go out whole or not at all (R377), the words that follow a whole
output, B3 of each chain entry used with its buffer's first output word and octets (R376), the result area, the slot it loads with
its header and key, the slot it clears, and the private key it keeps. Nothing of it has effect before the job ends. -/
structure LaneRes where
  code : Nat := 0
  fault : Nat := 0
  err : Option (Nat × Nat) := none
  writes : List (Nat × Word) := []
  whole : Bool := false
  aux : List (Nat × Word) := []
  b3 : List (Nat × Nat × Nat) := []
  areaAt : Nat := 0
  area : List Word := []
  inOct : Nat := 0
  outOct : Nat := 0
  nofit : Nat := 0
  load : Option (Nat × List Octet × List Octet) := none
  clear : Option Nat := none
  kp : Option (Nat × List Octet) := none
deriving DecidableEq, Repr

/-- A lane of the cipher or compression engine with the job it holds: its context, carrel and generation, the kind of slip
(0 CRYPT, 1 HASH, 2 PACK, 3 UNPACK), the descriptor words read at the start, or the operands of HASH, whether its start in the present
tick is still to be settled, the key slots it then takes with the IV of its invocation (R362, R363), and its answer (R188, R361,
R375). -/
structure Lane where
  job : Option Nat := none
  carrel : Nat := 0
  gen : Nat := 0
  ten : Nat := 0
  sr : Bool := false
  kind : Nat := 0
  words : List Word := []
  fresh : Bool := false
  slots : List Nat := []
  iv : List Octet := []
  res : Option LaneRes := none
  attr : Option Bool := none
  idleFrom : Nat := 0
deriving DecidableEq, Repr

/-! ### Notices (R418) -/

/-- An entry of a notice queue. -/
structure Note where
  code : Nat
  count : Nat
  frac : Nat
  sec : Nat
  arg : Word
deriving DecidableEq, Repr

/-! ### Cores (R223 to R322) -/

/-- A held translation (R229). -/
structure TlbEnt where
  srRoot : Bool
  vpage : Nat
  entry : Word
deriving DecidableEq, Repr

/-- A near-store entry (R282). `words` holds the containers changed since the fill, by offset in the line: the line is dirty
where it is not empty, and its other containers are those of memory, which coherence keeps equal (R289). A valid entry whose
data coherence has removed under a lock is locked-empty: `valid` false, `locked` true. `vline` is the virtual line it was
locked under (R310). -/
structure NsEnt where
  valid : Bool := false
  locked : Bool := false
  line : Nat := 0
  vline : Nat := 0
  words : List (Nat × Cont) := []
  filling : Bool := false
deriving DecidableEq, Repr

/-- A dirty line in the eviction buffer (R285); with `entry`, one that the fill of that entry displaces and that enters the
buffer when the fill completes (R283). -/
structure EvLine where
  line : Nat
  words : List (Nat × Cont)
  entry : Option Nat := none
deriving DecidableEq, Repr

/-- A store that waits in its group (R306): its address and container, whether an IST made it, and the maintenance that a later
instruction of the group asked for on its line: 0 none, 1 clean, 2 flush, 3 clean to memory, 4 removal from every cache. -/
structure GStore where
  addr : Nat
  cont : Cont
  ist : Bool
  after : Nat := 0
deriving DecidableEq, Repr

/-- What an access of an instruction does to the near store's order and the counters once the instruction retires (R283, R298): a
hit of a line, a fill, a use of the eviction buffer, a fill that missed the stacks, one that waited for the buffer; and a fetch's
event, by its code, which counts whether or not the instruction retires. -/
inductive NsEv where
  | hit (line : Nat) | miss | buffered | stacks | full
  | fetch (code : Nat)
deriving DecidableEq, Repr

/-- An entry of the indirect table (R273). -/
structure IndEnt where
  tag : Nat
  target : Nat
deriving DecidableEq, Repr

/-- The architected state of a seat that a checkpoint holds (R306, R308). `cells` is keyed 32 x bank + cell, bank 0 for the
unbanked cells; `regs` holds the self-window registers that travel with the seat. -/
structure Arch where
  pc : Nat := 0
  litk : Nat := 0
  ds : List Word := []
  rs : List Word := []
  cells : List (Nat × Word) := []
  regs : List (Nat × Word) := []
  wld : Nat := 4
  waiting : Bool := false
  fp : Option (Nat × Nat) := none
  bar : Bool := false
deriving DecidableEq, Repr

/-- A seat: its state, its checkpoint, its group's instructions and stores, newest first (R306), what the accesses of the
instruction in progress will touch and count, the containers that its ISTs have replaced since its last IFENCE (R253), the word it
fetched last, the retries of the group, and what its unit keeps for it. `stopped` marks a pair that met DOUBLE in the monitor (R233), `step` a single-step
that awaits its instruction (R319), `moving` the unit a sparing moves to, `rotTo` the spare a rotation has chosen while it waits
for the checkpoint, `fresh` a new unit before its first group ends, `noSpare` a seat parked for want of a spare (R308 to R316).
`accn` marks an ACCN whose item the accession unit holds, with its result once judged (R125). -/
structure Seat where
  arch : Arch := {}
  ckpt : Arch := {}
  group : Nat := 0
  stores : List GStore := []
  acc : List NsEv := []
  istOld : List (Nat × Cont) := []
  word : Option Nat := none
  retries : Nat := 0
  tlb : List TlbEnt := []
  ns : List (Nat × NsEnt) := []
  plru : List Nat := []
  evb : List EvLine := []
  l1i : List (Nat × List Nat) := []
  openBank : List (Nat × Nat) := []
  srBank : List (Nat × Nat) := []
  ghr : Nat := 0
  ind : List (Nat × IndEnt) := []
  stopped : Bool := false
  step : Bool := false
  haltReq : Bool := false
  resetReq : Bool := false
  moving : Option Nat := none
  moveCause : Nat := 0
  moveRetries : Nat := 0
  rotTo : Option Nat := none
  fresh : Bool := false
  noSpare : Bool := false
  entry : Option (Nat × Nat × Bool) := none
  swdStop : Bool := false
  accn : Option (Option (Nat × Disp × Nat)) := none
  pmSrSet : Bool := false
deriving DecidableEq, Repr

/-- A physical unit of a cluster (R302, R311): the tick of its last BIST, and whether that failed it. -/
structure CoreUnit where
  lastBist : Nat := 0
  failed : Bool := false
deriving DecidableEq, Repr

/-! ### The module -/

/-- PPS measurement in the current one-second interval (R449): the phase error of the edge nearest the expected instant,
the runs of R45, whether the interval's outcome is still to be decided, the tick at which HOLDOVER began, and whether a write has
changed REFSEL since the last tick (R42). -/
structure Pps where
  edge : Option Int := none
  run : Nat := 0
  miss : Nat := 0
  outl : Nat := 0
  fresh : Bool := false
  hoAt : Nat := 0
  moved : Bool := false
deriving DecidableEq, Repr

/-- The supplies and sideband pins whose level a command's effect depends on (R428 to R438), and the MODULE reset in progress:
its cause, whether the module has tripped, and whether the lid mesh has been breached and has not read whole since (R357). `pref`
is the level of the TWIN_PREF strap: low on the board of State.reset (DESIGN CHOICE, log 100), and what `Config.twinPref` says from
a power-up of AUX on. The levels of the other inputs are the environment's. -/
structure Pins where
  vaux : Bool := true
  pwrOk : Bool := true
  sba : Bool := true
  sbb : Bool := true
  resetN : Bool := true
  pref : Bool := false
  aliveIn : Bool := false
  inReset : Bool := false
  cause : Nat := 0
  tripped : Bool := false
  breached : Bool := false
deriving DecidableEq, Repr

/-- The energy planner's own state (R402, R403, R406): the spend of each class in its last undeferred folios, the deferred
classes, and the folios since MODULE reset. -/
structure En where
  hist : List (Nat × List Nat) := []
  defer2 : Bool := false
  defer3 : Bool := false
  folios : Nat := 0
  ageTicks : Nat := 0
deriving DecidableEq, Repr

/-- The stocktake unit (R411 to R415): the trigger tick and source that wait for their latch, the last latch tick, the fault
events of the pending trigger, and the ticks between which STKT_OUT is high. -/
structure Stk where
  due : Option (Nat × Nat) := none
  last : Option Nat := none
  out : Option Nat := none
  faultTick : Option Nat := none
deriving DecidableEq, Repr

/-- Fuses: customer key hashes, revoked slots and MINSVN (R352, R358). -/
structure Fuses where
  hashes : List (Nat × List Word) := []
  revoked : Nat := 0
  minsvn : Nat := 0
deriving DecidableEq, Repr

/-- The image the boot ROM started: its header and public key, its signature (R350). The body lies in the vault. -/
structure Image where
  head : List Octet := []
  sig : List Octet := []
deriving DecidableEq, Repr

/-- An attestation that holds the signer of the seal engine (R347, R356): the seat whose ATTEST call it answers, and the answer's
1,325 words. -/
structure Attest where
  seat : Nat
  answer : List Word
deriving DecidableEq, Repr

/-- The strongroom's own state (R343 to R358): whether its keys are derived, the measurement log, the leases with their ends, the
deferred gating requests, the watchdog's end and last expiry, the expiry that began the restart in progress, the image started, the
fuses this boot read, those the next boot reads, those a fuse operation that runs will leave, the attestation in progress, and how
many the RT second `attestSec` has seen. -/
structure Sr where
  keys : Bool := false
  log : List (List Word) := []
  leases : List (Nat × Nat) := []
  deferred : List (Nat × Bool × Bool) := []
  swdEnd : Option Nat := none
  swdLast : Option Nat := none
  restart : Option Nat := none
  image : Image := {}
  fuse : Fuses := {}
  fuseNext : Fuses := {}
  fuseOp : Option Fuses := none
  attest : Option Attest := none
  attestSec : Nat := 0
  attestNo : Nat := 0
deriving DecidableEq, Repr

/-- A sequencer's micro-PC, its micro-stack of at most 8 entries, and the micro-cycles since its last safe point (R385, R386). -/
structure MicroSt where
  pc : Nat := 0
  stack : List Nat := []
  since : Nat := 0
deriving DecidableEq, Repr

/-- The sequencers, by 64 x class + number, and the tip-in engine: the address of a package being checked, and the words T0 to T209
of the package in the staging bank and of the active one, patch words included (R384, R385, R389 to R392). -/
structure Uc where
  seqs : List (Nat × MicroSt) := []
  loading : Option Nat := none
  staged : Option (List Word) := none
  active : Option (List Word) := none
deriving DecidableEq, Repr

/-- Memory-system work in progress (R328 to R334): rebuilds by 32 x RT second + device, trainings failed in succession, the
device in training, the one to train next, the ticks at which each device was last trained, the lines whose writes wait for the
training (R330), the tick the patrol's pass began, the marked pages, a marking and a change-bit scan that run, and the AES-256-XTS
key of the marked pages, 64 octets (R333). -/
structure MemSt where
  rebuilds : List (Nat × Nat) := []
  trainFails : List (Nat × Nat) := []
  training : Option Nat := none
  nextTrain : Nat := 0
  trainAt : List (Nat × Nat) := []
  writeQ : List Nat := []
  scrubAt : Nat := 0
  xts : Nat := 0
  srPages : List Nat := []
  srMark : Option (Nat × Bool) := none
  chgScan : Option (Nat × Bool) := none
deriving DecidableEq, Repr

/-- The module, all but the queue of commands and the stocktake's snapshot. -/
structure Mach where
  /-- P-space registers that differ from their reset values. -/
  regs : List (Nat × Word) := []
  /-- Ledger state (R57, R81, R141). -/
  ledger : Ledger := {}
  /-- Memory as octets in canonical form: octet 8A + 1 of container A holds KEY, TAG and CHG, octets 8A + 2 to 8A + 7 hold
  PAYLOAD, most significant first (R323). -/
  mem : List Host.Cell := []
  /-- Ticks elapsed, whatever RT does. -/
  now : Nat := 0
  /-- RT as 64 bits, RT_SEC above RT_FRAC (R39). -/
  rt : Nat := 0
  /-- The REFCLK inputs present (R42). -/
  refs : List Nat := [0, 1, 2, 3]
  pps : Pps := {}
  pins : Pins := {}
  /-- The folio that is open (R119). -/
  openFolio : Nat := 0
  /-- The folios past their boundaries whose last items are still to be judged, oldest first (R119). -/
  closing : List Closing := []
  merge : List MergeItem := []
  /-- The order of arrival of frames and of jobs becoming ready. -/
  order : Nat := 0
  /-- Items judged in the open folio (R128). -/
  judged : Nat := 0
  ses : List (Nat × SesLive) := []
  tacc : List (Nat × TAcc) := []
  twin : Twin := {}
  sealing : SealSt := {}
  jobs : List (Nat × Job) := []
  replies : List ReplyWait := []
  rawq : List (Nat × List RawTx) := []
  plainq : List (Nat × List PlainRx) := []
  lanes : List (Nat × Lane) := []
  xlanes : List (Nat × Lane) := []
  engines : List (Nat × Engine) := []
  tpass : List (Nat × Nat) := []
  cpass : List (Nat × Nat) := []
  /-- Carrels being reset, with the tick the reset began and what completes it (R213). -/
  carResets : List (Nat × Nat) := []
  carDeletes : List Nat := []
  srCarrels : List Nat := []
  tenResets : List (Nat × Nat) := []
  /-- Tenants whose marked-page bitmap is being cleared (R217). -/
  clearing : List Nat := []
  notes : List (Nat × List Note) := []
  stk : Stk := {}
  seats : List (Nat × Seat) := []
  units : List (Nat × CoreUnit) := []
  /-- The stacks' directory (R294): by 4,096 x cluster + set, the lines held, most recently used first. -/
  l2 : List (Nat × List Nat) := []
  /-- The lines that the stacks hold dirty against memory (R294): `mem` holds what the stacks and memory show together. -/
  l2dirty : List Nat := []
  rotations : List (Nat × Nat) := []
  /-- The tick of each cluster's last rotation (R314). -/
  rotAt : List (Nat × Nat) := []
  memst : MemSt := {}
  sr : Sr := {}
  /-- Key slot material and the KP0 and KP1 decapsulation keys (R360, R365). -/
  kx : List (Nat × List Octet) := []
  kp : List (Nat × List Octet) := []
  uc : Uc := {}
  en : En := {}
  /-- What left the module, newest first. -/
  sent : List Tx := []
  /-- How many free values have been drawn. -/
  free : Nat := 0
  /-- Gated blocks whose reset waits until they are ungated (R19). -/
  held : List Nat := []
deriving DecidableEq, Repr

/-- The state: the module, the stocktake's snapshot of it (R412), and the commands that wait, first in first out. -/
structure State extends Mach where
  snap : Option Mach := none
  pending : List Instr := []
deriving DecidableEq, Repr

/-- Why the machine stops. No command of this block stops it: every stop the spec names is a status the block reports. -/
inductive Fault where
  /-- Raised by nothing: a name kept so that the type says it is closed. Safe. -/
  | never
deriving DecidableEq, Repr

/-- Why a command has no meaning here. -/
inductive Refusal where
  /-- The command of that mnemonic has no meaning in this model yet. Raised by the dispatcher only. Safe. -/
  | notModelled (mnemonic : String)
deriving DecidableEq, Repr

/-- The module right after a cold, full power-up whose MODULE reset has just ended: VAUX, VIN, PWR_OK and both sideband
rails present, RT 0.0x00_0000 UNSET, PHASE ROM, memory not yet initialised (R41, R434 to R437, R445; log 3). Every register
holds the reset value its table gives, memory lists nothing, no command waits. -/
def State.reset : State := { toMach := {}, snap := none, pending := [] }

end Sys2Proof.Machine
end

