-- ==== Sys2Proof/Machine/Ops.lean ====
section
/-! DEFINITION. The operations every block shares: the register file, memory, free values, interrupts, notices, stocktake
triggers, outputs and the resets of the register domains. -/

namespace Sys2Proof.Machine

open Sys2Proof

/-! ### The register map (R7, R10, R17) -/

/-- The register rows of the block an address lies in (R17). -/
def blockRows (a : Nat) : List RegRow :=
  if a < 0x10000 then regMapMod else if a < 0x20000 then regMapRt
  else if a < 0x28000 then regMapBell ++ regMapGate.take 1 else if a < 0x40000 then regMapGate
  else if a < 0x60000 then regMapPrt else if a < 0x80000 then regMapSes
  else if a < 0xA0000 then regMapAcc else if a < 0xC0000 then regMapTwn
  else if a < 0x100000 then regMapTen else if a < 0x200000 then regMapCar
  else if a < 0x240000 then regMapCe else if a < 0x260000 then regMapKx
  else if a < 0x280000 then regMapSeal else if a < 0x2A0000 then regMapCx
  else if a < 0x2C0000 then regMapMem else if a < 0x300000 then regMapClu ++ regMapCore
  else if a < 0x320000 then regMapEn else if a < 0x340000 then regMapStk
  else if a < 0x360000 then regMapInt ++ regMapNote else if a < 0x380000 then regMapUc
  else if a < 0x400000 then regMapSr else []

/-- Whether a row holds the register at an address. -/
def rowHas (a : Nat) (r : RegRow) : Bool :=
  r.base ≤ a && (a - r.base) / r.s1 < r.n1 && (a - r.base) % r.s1 / r.s2 < r.n2 && (a - r.base) % r.s1 % r.s2 = 0

/-- The row of the register at an address; none where the offset is reserved (R8). -/
def regRow? (a : Nat) : Option RegRow := (blockRows a).find? (rowHas a)

/-- Octets of ASCII text. -/
def asciiOctets (s : List Nat) : List Octet := s.map (BitVec.ofNat 8)

/-- "PFL4800-IK" and "PFL4800-KEK" (R355). -/
def ikLabel : List Octet := asciiOctets [0x50, 0x46, 0x4C, 0x34, 0x38, 0x30, 0x30, 0x2D, 0x49, 0x4B]
def kekLabel : List Octet := asciiOctets [0x50, 0x46, 0x4C, 0x34, 0x38, 0x30, 0x30, 0x2D, 0x4B, 0x45, 0x4B]

/-- The identity key pair, public and private, that KeyGen gives from the fused seed (R355). -/
def identityKeys : List Octet × List Octet := Config.mldsaKeyGen (shake true (ikLabel ++ Config.fusedSeed) 32)
def identityPk : List Octet := identityKeys.1

/-- The key-encryption key (R355). -/
def kekKey : List Octet := shake true (kekLabel ++ Config.fusedSeed) 32

/-- Hedged ML-DSA-87 signing with the identity key (R165, R356): the hedge, message, context. -/
def identitySign (hedge : Nat) (msg : List Octet) (ctx : String) : List Octet := Config.mldsaSign identityKeys.2 hedge msg ctx

/-- MOD_PART (R20): STEP counts from 0x01. -/
def modPartWord : Word := w48 (0x4800 * 2 ^ 32 + max 1 Config.step.toNat * 2 ^ 24 + 0x01 * 2 ^ 16)

/-- The first 6 octets of a digest of 256 bits. -/
def first6 (d : BitVec 256) : Word := w48 (d.toNat >>> 208)

/-- The reset value of the register at an address (R10): the table's, and for the entries Fixed, Fused and Derived the
part's own constants. PRT_MAC, whose entry is X, reads 0 (log 4). -/
def resetOf (a : Nat) : Word :=
  if a = Reg.modPart then modPartWord
  else if a = Reg.modSerialHi then w48 (Config.serial.toNat >>> 48)
  else if a = Reg.modSerialLo then w48 Config.serial.toNat
  else if a = Reg.sealKeyid then first6 (sha3_256 identityPk)
  else if a = Reg.ucRomid then w48 (Config.romId.toNat % 65536)
  else match regRow? a with
    | some r => r.reset
    | none => 0

/-- The register addresses that hold ledger state in the written view (R57, R81, R112, R130, R176): bell times and
actions, gate keys, times, states and counts, the daybook registers, and the seal roll's enable, place and tail (STATE carries
neither its head nor its records, R172). -/
def ledgerAddr (a : Nat) : Bool :=
  (0x21000 ≤ a && a < 0x22000 && a % 4 ≠ 3) ||
  (0x28000 ≤ a && a < 0x30000) ||
  (0x81000 ≤ a && a < 0x82000 && a % 256 ≤ 0xD) ||
  (Reg.sealCtl ≤ a && a ≤ Reg.sealRsize) || a = Reg.sealTail

/-- The stored value of a register. -/
def Mach.reg (m : Mach) (a : Nat) : Word :=
  if ledgerAddr a then tabGet resetOf m.ledger.regs a else tabGet resetOf m.regs a

/-- A register given a value. -/
def Mach.setReg (m : Mach) (a : Nat) (v : Word) : Mach :=
  if ledgerAddr a then { m with ledger := { m.ledger with regs := tabPut resetOf a v m.ledger.regs } }
  else { m with regs := tabPut resetOf a v m.regs }

/-- A field of a register. -/
def Mach.fld (m : Mach) (a : Nat) (f : Fld) : Nat := fget (m.reg a) f

/-- A one-bit field of a register. -/
def Mach.bit (m : Mach) (a : Nat) (f : Fld) : Bool := fbit (m.reg a) f

/-- A field of a register given a value. -/
def Mach.setFld (m : Mach) (a : Nat) (f : Fld) (v : Nat) : Mach := m.setReg a (fset (m.reg a) f v)

/-- A register counter that wraps at 2^48 raised by `k`. -/
def Mach.count (m : Mach) (a : Nat) (k : Nat := 1) : Mach := m.setReg a (w48 ((m.reg a).toNat + k))

/-- A register counter that saturates at `top` raised by `k`. -/
def Mach.countSat (m : Mach) (top a : Nat) (k : Nat := 1) : Mach := m.setReg a (w48 (satAdd top (m.reg a).toNat k))

/-- The value two registers hold as a word pair (R4). -/
def Mach.pair (m : Mach) (hi lo : Nat) : Nat := pairNat (m.reg hi) (m.reg lo)

/-- Two registers given a value as a word pair (R4). -/
def Mach.setPair (m : Mach) (hi lo : Nat) (v : Nat) : Mach := (m.setReg hi (hiWord v)).setReg lo (loWord v)

/-- The effective value of a ledger-state register (R57, R450). -/
def Mach.eff (m : Mach) (a : Nat) : Word := tabGet resetOf m.ledger.eff a

/-- The effective value given at once. -/
def Mach.setEff (m : Mach) (a : Nat) (v : Word) : Mach :=
  { m with ledger := { m.ledger with eff := tabPut resetOf a v m.ledger.eff } }

/-- Both views of a ledger-state register given a value. -/
def Mach.setBoth (m : Mach) (a : Nat) (v : Word) : Mach := (m.setReg a v).setEff a v

/-! ### Tables of the state -/

/-- Whether a table lists a key. -/
def tmem {α : Type} (t : List (Nat × α)) (k : Nat) : Bool := t.any fun e => e.1 = k

/-- The entry of a key, where the table lists it. -/
def tfind {α : Type} (t : List (Nat × α)) (k : Nat) : Option α := (t.find? fun e => e.1 = k).map Prod.snd

/-- A number added to a set held as a strictly rising list. -/
def setIns (k : Nat) : List Nat → List Nat
  | [] => [k]
  | a :: t => if k < a then k :: a :: t else if a = k then a :: t else a :: setIns k t

/-- A number removed from a set. -/
def setDel (k : Nat) (l : List Nat) : List Nat := l.filter (· ≠ k)

def Mach.seat (m : Mach) (q : Nat) : Seat := tabGet (fun _ => {}) m.seats q
def Mach.setSeat (m : Mach) (q : Nat) (s : Seat) : Mach := { m with seats := tabPut (fun _ => {}) q s m.seats }
def Mach.sess (m : Mach) (s : Nat) : LSes := tabGet (fun _ => {}) m.ledger.sessions s
def Mach.setSess (m : Mach) (s : Nat) (e : LSes) : Mach :=
  { m with ledger := { m.ledger with sessions := tabPut (fun _ => {}) s e m.ledger.sessions } }
def Mach.live (m : Mach) (s : Nat) : SesLive := tabGet (fun _ => {}) m.ses s
def Mach.setLive (m : Mach) (s : Nat) (e : SesLive) : Mach := { m with ses := tabPut (fun _ => {}) s e m.ses }
def Mach.acc (m : Mach) (t : Nat) : TAcc := tabGet (fun _ => {}) m.tacc t
def Mach.setAcc (m : Mach) (t : Nat) (e : TAcc) : Mach := { m with tacc := tabPut (fun _ => {}) t e m.tacc }
def Mach.ebell (m : Mach) (b : Nat) : EBell := tabGet (fun _ => {}) m.ledger.bells b
def Mach.setEbell (m : Mach) (b : Nat) (e : EBell) : Mach :=
  { m with ledger := { m.ledger with bells := tabPut (fun _ => {}) b e m.ledger.bells } }
def Mach.egate (m : Mach) (g : Nat) : Word := tabGet (fun _ => 0) m.ledger.gates g
def Mach.setEgate (m : Mach) (g : Nat) (w : Word) : Mach :=
  { m with ledger := { m.ledger with gates := tabPut (fun _ => 0) g w m.ledger.gates } }
def Mach.engine (m : Mach) (e : Nat) : Engine := tabGet (fun _ => {}) m.engines e
def Mach.setEngine (m : Mach) (e : Nat) (x : Engine) : Mach :=
  { m with engines := tabPut (fun _ => {}) e x m.engines }
def Mach.lane (m : Mach) (l : Nat) : Lane := tabGet (fun _ => {}) m.lanes l
def Mach.setLane (m : Mach) (l : Nat) (x : Lane) : Mach := { m with lanes := tabPut (fun _ => {}) l x m.lanes }
def Mach.xlane (m : Mach) (l : Nat) : Lane := tabGet (fun _ => {}) m.xlanes l
def Mach.setXlane (m : Mach) (l : Nat) (x : Lane) : Mach := { m with xlanes := tabPut (fun _ => {}) l x m.xlanes }
def Mach.job (m : Mach) (x : Nat) : Option Job := tfind m.jobs x
def Mach.setJob (m : Mach) (x : Nat) (j : Job) : Mach := { m with jobs := tabInsert x j m.jobs }
def Mach.delJob (m : Mach) (x : Nat) : Mach := { m with jobs := tabErase x m.jobs }
def Mach.queue (m : Mach) (p : Nat) : List RawTx := tabGet (fun _ => []) m.rawq p
def Mach.setQueue (m : Mach) (p : Nat) (q : List RawTx) : Mach := { m with rawq := tabPut (fun _ => []) p q m.rawq }
def Mach.plain (m : Mach) (p : Nat) : List PlainRx := tabGet (fun _ => []) m.plainq p
def Mach.setPlain (m : Mach) (p : Nat) (q : List PlainRx) : Mach :=
  { m with plainq := tabPut (fun _ => []) p q m.plainq }
def Mach.unit (m : Mach) (u : Nat) : CoreUnit := tabGet (fun _ => {}) m.units u
def Mach.setUnit (m : Mach) (u : Nat) (x : CoreUnit) : Mach := { m with units := tabPut (fun _ => {}) u x m.units }
def Mach.noteq (m : Mach) (t : Nat) : List Note := tabGet (fun _ => []) m.notes t
def Mach.setNoteq (m : Mach) (t : Nat) (q : List Note) : Mach := { m with notes := tabPut (fun _ => []) t q m.notes }

/-- A command's effect given as a state function: the queue and the snapshot stay as they are. -/
def State.lift (f : Mach → Mach) (s : State) : Host.Outcome State Fault Refusal := .next { s with toMach := f s.toMach }

/-! ### Free values -/

/-- The next free value and the state that has drawn it (log 1). -/
def Mach.draw (m : Mach) : Nat × Mach := (Config.freeValue m.free, { m with free := m.free + 1 })

/-! ### Memory (R323) -/

/-- What an octet of memory reads as where nothing is listed (R335; log 5). -/
def cellDefault (_ : Nat) : BitVec 8 := 0

/-- One octet of memory. -/
def octetAt (mem : List Host.Cell) (k : Nat) : BitVec 8 := tabGet cellDefault mem k

/-- One octet of memory written; the canonical form is kept. -/
def putOctet (mem : List Host.Cell) (k : Nat) (v : BitVec 8) : List Host.Cell := tabPut cellDefault k v mem

/-- The canonical form of memory: addresses strictly rising, no entry equal to what an unlisted octet reads as. -/
def Memory.wf (mem : List Host.Cell) : Bool := tabWf cellDefault mem

/-- The container at word address `a` (R323). -/
def contAt (mem : List Host.Cell) (a : Nat) : Cont :=
  let h := (octetAt mem (8 * a + 1)).toNat
  { key := BitVec.ofNat 4 (h / 16), tag := BitVec.ofNat 2 (h / 4), chg := nbit h 1,
    pay := w48 (natOfOctets ((List.range 6).map fun i => octetAt mem (8 * a + 2 + i))) }

/-- Octets written from address `k` on. -/
def putOctets : List Octet → Nat → List Host.Cell → List Host.Cell
  | [], _, mem => mem
  | o :: os, k, mem => putOctets os (k + 1) (putOctet mem k o)

/-- The octets of a container that memory lists: KEY, TAG and CHG, then PAYLOAD. -/
def contOctets (c : Cont) : List Octet :=
  BitVec.ofNat 8 (c.key.toNat * 16 + c.tag.toNat * 4 + b2n c.chg * 2) :: octetsOfWord c.pay

/-- A container written at word address `a`. -/
def putCont (mem : List Host.Cell) (a : Nat) (c : Cont) : List Host.Cell := putOctets (contOctets c) (8 * a + 1) mem

/-- The cells that octets from address `k` on list. -/
def cellsOf : List Octet → Nat → List Host.Cell
  | [], _ => []
  | o :: os, k => if o = cellDefault k then cellsOf os (k + 1) else (k, o) :: cellsOf os (k + 1)

/-- The octets of containers from one address on, CHECK and the reserved octet unlisted. -/
def contsOctets (cs : List Cont) : List Octet := cs.flatMap fun c => 0 :: contOctets c

/-- Containers from word address `a` on replaced by `cs`. -/
def spliceConts (mem : List Host.Cell) (a : Nat) (cs : List Cont) : List Host.Cell :=
  (mem.filter fun e => e.1 < 8 * a) ++ cellsOf (contsOctets cs) (8 * a) ++ (mem.filter fun e => 8 * (a + cs.length) ≤ e.1)

/-- Containers `a` to `a + n - 1` back to zero. -/
def clearConts (mem : List Host.Cell) (a n : Nat) : List Host.Cell :=
  tabClear (fun k => 8 * a ≤ k && k < 8 * (a + n)) mem

/-- The container at an address (R323). -/
def Mach.cont (m : Mach) (a : Nat) : Cont := contAt m.mem a

/-- A container written. -/
def Mach.setCont (m : Mach) (a : Nat) (c : Cont) : Mach := { m with mem := putCont m.mem a c }

/-- PAYLOAD written by a unit that keeps KEY and CHG and writes tag `tag` (R323, R334). -/
def Mach.setWord (m : Mach) (tag : Nat) (a : Nat) (v : Word) : Mach :=
  m.setCont a { m.cont a with tag := BitVec.ofNat 2 tag, pay := v }

/-- Words written from address `a` on. -/
def Mach.setWords (m : Mach) (tag : Nat) : Nat → List Word → Mach
  | _, [] => m
  | a, w :: ws => (m.setWord tag a w).setWords tag (a + 1) ws

/-- The number of words of memory (R324). -/
def memWords : Nat := 2 ^ 32

/-- A container whose tag marks it poisoned or whose contents a read refuses (R326). -/
def Cont.isPoison (c : Cont) : Bool := c.tag = 3

/-- Whether a page number is marked as a strongroom page (R333). -/
def Mach.srPage (m : Mach) (page : Nat) : Bool := m.memst.srPages.contains page

/-- Whether a word address lies in a marked page. -/
def Mach.srAddr (m : Mach) (a : Nat) : Bool := m.srPage (a / 4096)

/-! ### Coherence (R289 to R292) -/

/-- The line of a word address (R324). -/
def lineOf (a : Nat) : Nat := a / 64

/-- The copy of a line a seat's unit holds changed: a near-store entry or a line on its way out. -/
def Seat.dirtyOf (s : Seat) (line : Nat) : Option (List (Nat × Cont)) :=
  match s.ns.find? fun e => e.2.valid && e.2.line = line with
  | some e => some e.2.words
  | none => (s.evb.find? fun e => e.line = line).map EvLine.words

/-- The container at an address as a unit holds it changed. -/
def Seat.dirtyCont (s : Seat) (a : Nat) : Option Cont :=
  match s.dirtyOf (lineOf a) with
  | some ws => tfind ws (a % 64)
  | none => none

/-- The container every agent but the twin engine sees (R289): the newest copy in a near store or eviction buffer, else
memory's. -/
def Mach.coh (m : Mach) (a : Nat) : Cont :=
  match m.seats.findSome? fun e => e.2.dirtyCont a with
  | some c => c
  | none => m.cont a

/-- The PAYLOAD of a container as every agent but the twin engine sees it (R289). -/
def Mach.word (m : Mach) (a : Nat) : Word := (m.coh a).pay

/-- `n` words from address `a` on. -/
def Mach.wordsAt (m : Mach) (a : Nat) : Nat → List Word
  | 0 => []
  | n + 1 => m.word a :: m.wordsAt (a + 1) n

/-- A line of a mirrored page that a write changes in the stacks becomes dirty (R145). -/
def Mach.mirDirty (m : Mach) (line : Nat) : Mach :=
  if m.ledger.mirror.contains (line / 64) then { m with twin := { m.twin with dirty := setIns line m.twin.dirty } } else m

/-- The group of a line (R324). -/
def groupOf (line : Nat) : Nat := line % 2

/-- The data device of stripe `j` of a group, and its parity device with `j = 8` (R324). -/
def devOf (g j : Nat) : Nat := 9 * g + j

/-- MEM_DEV.STATE: 0 ACTIVE, 1 TRAINING, 2 FAILED. -/
def Mach.devState (m : Mach) (d : Nat) : Nat := m.fld (Reg.memDev d) F.memDevState

/-- MEM_GRP.STATE: 0 NORMAL, 1 DEGRADED, 2 BROKEN. -/
def Mach.grpState (m : Mach) (g : Nat) : Nat := m.fld (Reg.memGrp g) F.memGrpState

/-- Whether the device in training makes the writes of a line's group wait in its queue: in a NORMAL group (R330). -/
def Mach.queues (m : Mach) (line : Nat) : Bool :=
  match m.memst.training with
  | some d => d / 9 = groupOf line && m.grpState (d / 9) = 0
  | none => false

/-- A line written to its group: no longer dirty in the stacks; during a training of the group it waits in the write queue
(R294, R330). -/
def Mach.toGroup (m : Mach) (line : Nat) : Mach :=
  let m1 : Mach := { m with l2dirty := setDel line m.l2dirty }
  if m1.queues line then { m1 with memst := { m1.memst with writeQ := setIns line m1.memst.writeQ } } else m1

/-- Whether a line is in the stacks of some cluster (R294). -/
def Mach.inStacks (m : Mach) (line : Nat) : Bool :=
  (List.range 4).any fun c => (tabGet (fun _ => []) m.l2 (4096 * c + line % 4096)).contains line

/-- Changed containers of a line written back: to the stacks, where the line is then dirty, or to its group where no stacks hold
it (R294, R295). -/
def Mach.writeLine (m : Mach) (line : Nat) (ws : List (Nat × Cont)) : Mach :=
  if ws.isEmpty then m
  else
    let m1 := ws.foldl (fun x e => x.setCont (64 * line + e.1) e.2) m
    (if m1.inStacks line then { m1 with l2dirty := setIns line m1.l2dirty } else m1.toGroup line).mirDirty line

/-- An entry after coherence takes its line: invalid, or locked-empty where it is locked (R291). -/
def NsEnt.emptied (e : NsEnt) : NsEnt :=
  if e.locked then { e with valid := false, words := [], filling := false } else {}

/-- A unit after coherence takes a line from it (R291, R293). Where it was being filled, the dirty line that the fill displaces is
in the eviction buffer from then on (R283). -/
def Seat.dropLine (s : Seat) (line : Nat) : Seat :=
  let gone := (s.ns.filter fun e => e.2.valid && e.2.line = line && e.2.filling).map Prod.fst
  { s with
    ns := (s.ns.map fun e => if e.2.valid && e.2.line = line then (e.1, e.2.emptied) else e).filter fun e => e.2 ≠ {}
    evb := (s.evb.filter fun e => e.line ≠ line).map fun e =>
      if gone.any fun i => e.entry = some i then { e with entry := none } else e
    l1i := (s.l1i.map fun e => (e.1, e.2.filter (· ≠ line))).filter fun e => e.2 ≠ [] }

/-- A line taken from every unit but that of seat `q`, a changed copy first given to memory (R291). -/
def Mach.snoopLine (m : Mach) (q : Option Nat) (line : Nat) : Mach :=
  m.seats.foldl (fun x e =>
    if q = some e.1 then x
    else
      let x1 := match e.2.dirtyOf line with
        | some ws => x.writeLine line ws
        | none => x
      if (e.2.dropLine line) = e.2 then x1 else x1.setSeat e.1 ((x1.seat e.1).dropLine line)) m

/-- A read of a line by another core or an engine: a buffered copy leaves the buffer as though written back (R285). -/
def Mach.snoopRead (m : Mach) (q : Option Nat) (line : Nat) : Mach :=
  m.seats.foldl (fun x e =>
    if q = some e.1 then x
    else match e.2.evb.find? fun l => l.line = line with
      | some l => (x.writeLine line l.words).setSeat e.1 { x.seat e.1 with evb := (x.seat e.1).evb.filter fun l => l.line ≠ line }
      | none => x) m

/-- A container written by the accession unit, the seal engine or the twin engine, which never write marked pages (R341). -/
def Mach.ledgerPut (m : Mach) (a : Nat) (c : Cont) : Mach :=
  if m.srAddr a then m else ((m.snoopLine none (lineOf a)).setCont a c).toGroup (lineOf a)

/-! ### Time -/

/-- The folio number of an RT (R6). -/
def folioOf (rt : Nat) : Nat := rt / 4096

/-- The volume number of a folio (R6). -/
def volumeOf (folio : Nat) : Nat := folio / 16

/-- RT_SEC of an RT. -/
def secOf (rt : Nat) : Nat := rt / 2 ^ 24

/-- RT_FRAC of an RT. -/
def fracOf (rt : Nat) : Nat := rt % 2 ^ 24

/-- The last value RT takes (R43). -/
def rtLast : Nat := 2 ^ 64 - 1

/-- NEVER as an RT (R55). -/
def rtNever : Nat := 2 ^ 64 - 1

/-- RT_STAT.STATE (R44). -/
def Mach.rtState (m : Mach) : Nat := m.fld Reg.rtStat F.rtStatState

/-- RT is valid in LOCKING, LOCKED and HOLDOVER (R44). -/
def Mach.rtValid (m : Mach) : Bool := 2 ≤ m.rtState && m.rtState ≤ 4

/-- MOD_STATE.PHASE (R20). -/
def Mach.phase (m : Mach) : Nat := m.fld Reg.modState F.modStatePhase

/-- The charter has committed (R354). -/
def Mach.committed (m : Mach) : Bool := m.phase = 2

/-- RT_CTL.REFSEL. -/
def Mach.refsel (m : Mach) : Nat := m.fld Reg.rtCtl F.rtCtlRefsel

/-- The first present input but `not` in the order of R42. -/
def Mach.firstRef (m : Mach) (not : Nat) : Option Nat :=
  ((List.range 4).map fun k => (m.refsel + k) % 4).find? fun i => m.refs.contains i && i ≠ not

/-- The module is out of MODULE reset with VAUX present. -/
def Mach.up (m : Mach) : Bool := m.pins.vaux && !m.pins.inReset

/-! ### Outputs -/

/-- Something leaves the module. -/
def Mach.send (m : Mach) (t : Tx) : Mach := { m with sent := t :: m.sent }

/-- A twin-link message leaves, where the link is up and authenticated; it counts towards the key's 2^30 (R132). -/
def Mach.twinSend (m : Mach) (x : TwinMsg) : Mach :=
  if m.twin.linkUp && m.twin.authed then
    { m with sent := .msg x :: m.sent, twin := { m.twin with keyMsgs := m.twin.keyMsgs + 1 } }
  else m

/-- A container written by an engine or a lane: every other copy of its line goes first (R291), and a line of a mirrored page
becomes dirty (R145). -/
def Mach.put (m : Mach) (a : Nat) (c : Cont) : Mach :=
  (((m.snoopLine none (lineOf a)).setCont a c).toGroup (lineOf a)).mirDirty (lineOf a)

/-! ### Interrupts (R420, R421) -/

/-- The sources of R420 that are not reserved. -/
def intListed (i : Nat) : Bool :=
  i ≤ 2 || (16 ≤ i && i ≤ 18) || (20 ≤ i && i ≤ 24) || (26 ≤ i && i ≤ 28) || (32 ≤ i && i ≤ 383) || (512 ≤ i && i ≤ 1023)

/-- An event of source `i`: PEND is set, and MERGED where PEND is already 1 (R421). -/
def Mach.raise (m : Mach) (i : Nat) : Mach :=
  if intListed i then
    m.setReg (Reg.intStat i) (m.reg (Reg.intStat i) ||| (if nbit (m.reg (Reg.intStat i)).toNat 0 then 3 else 1))
  else m

/-! ### Notices (R418) -/

/-- A notice posted to tenant `t` (R418). -/
def Mach.notice (m : Mach) (t code : Nat) (arg : Word) : Mach :=
  let q := m.noteq t
  if q.any (fun n => n.code = code && n.arg = arg) then
    m.setNoteq t (listModify (fun n => n.code = code && n.arg = arg) (fun n => { n with count := satAdd 255 n.count 1 }) q)
  else if q.length ≥ 16 then (m.count (Reg.noteLost t)).setReg (Reg.noteStat t) (fset (m.reg (Reg.noteStat t)) ⟨47, 47⟩ 1)
  else
    let m1 := m.setNoteq t (q ++ [{ code := code, count := 1, frac := fracOf m.rt, sec := secOf m.rt, arg := arg }])
    if q.isEmpty then m1.raise (48 + t) else m1

/-- A notice to every tenant of a list. -/
def Mach.notices (m : Mach) (ts : List Nat) (code : Nat) (arg : Word) : Mach :=
  ts.foldl (fun x t => x.notice t code arg) m

/-- All tenants. -/
def allTenants : List Nat := List.range 16

/-! ### Stocktake triggers (R411 to R415) -/

/-- Whether a trigger at the present tick joins a latch that is due or was made within 64 ticks (R413). -/
def Mach.stkJoins (m : Mach) : Bool :=
  m.stk.due.isSome || (match m.stk.last with
    | some l => m.now ≤ l + 64
    | none => false)

/-- A stocktake trigger of source `src` at the present tick (R411 to R415). -/
def Mach.stkTrigger (m : Mach) (src : Nat) : Mach :=
  if m.stkJoins then m
  else
    let m1 := if src ≠ 3 && m.bit Reg.stkCtl F.stkCtlOuten then { m with stk := { m.stk with out := some m.now } } else m
    if m.bit Reg.stkStat F.stkStatLocked then m1.count Reg.stkMissed
    else { m1 with stk := { m1.stk with due := some (m.now + 3, src) } }.setFld Reg.stkStat F.stkStatPending 1

/-- A fault event, bit `b` of STK_CTL.FAULTSRC: a FAULT trigger where the bit is selected; events of one tick make one
trigger (R414). -/
def Mach.faultEvent (m : Mach) (b : Nat) : Mach :=
  if nbit (m.fld Reg.stkCtl F.stkCtlFaultsrc) b then
    if m.stk.faultTick = some m.now then
      m.setFld Reg.stkStat F.stkStatFaults (m.fld Reg.stkStat F.stkStatFaults ||| 2 ^ b)
    else
      ({ m with stk := { m.stk with faultTick := some m.now } }.setFld Reg.stkStat F.stkStatFaults (2 ^ b)).stkTrigger 4
  else m

/-! ### Access rights (R12, R203) -/

/-- TEN_CTL[t].INSP: tenant `t` holds the inspector role (R203). -/
def Mach.inspector (m : Mach) (t : Nat) : Bool := m.bit (Reg.tenCtl t) F.tenCtlInspect

/-- Software of T00 or the strongroom. -/
def Who.house (w : Who) : Bool := w.sr || w.ten = 0

/-- Software of tenant `t`, of T00 or the strongroom. -/
def Who.ofTen (w : Who) (t : Nat) : Bool := w.sr || w.ten = t || w.ten = 0

/-- Software of tenant `t` or T00, where a rule names these alone and ignores any other write: software of either world runs under
its seat's TEN, the monitor that runs the charter program under T00 (R102, R426; DEDUCED, log 76). -/
def Who.openTen (w : Who) (t : Nat) : Bool := w.ten = t || w.ten = 0

/-! ### Resets of register domains (R14, R15) -/

/-- The registers of a domain whose indexed address satisfies `p`, back at their reset values. Ledger-state registers are
not among them (R15). -/
def Mach.resetRegs (m : Mach) (d : Domain) (p : Nat → Bool) : Mach :=
  { m with regs := tabClear (fun a => p a && (match regRow? a with
      | some r => r.dom = d
      | none => false)) m.regs }

/-- Whether a register is in the AUX domain, which a MODULE reset keeps (R14). -/
def auxReg (a : Nat) : Bool :=
  match regRow? a with
  | some r => r.dom = .aux
  | none => false

/-- The rank of a reset cause, highest first (R437). -/
def causeRank (c : Nat) : Nat := (([5, 0, 1, 4, 3, 2].findIdx? (· = c)).getD 6)

/-- Entering MODULE reset with a cause (R435 to R437): everything below MODULE takes its reset value, memory is cleared, and
the AUX domain, the fuses and the pins stay; the units that failed BIST are to be tested again (R311); the key of the marked pages is
drawn (R333). An event during a reset extends it, and CAUSE names the highest-ranked cause. -/
def Mach.moduleReset (m : Mach) (cause : Nat) : Mach :=
  { regs := m.regs.filter (fun e => auxReg e.1), now := m.now, rt := m.rt, refs := m.refs, pps := m.pps,
    openFolio := m.openFolio,
    pins := { m.pins with
      inReset := true
      cause := if m.pins.inReset && causeRank m.pins.cause ≤ causeRank cause then m.pins.cause else cause
      tripped := false },
    sr := { fuse := m.sr.fuseNext, fuseNext := m.sr.fuseNext },
    memst := { xts := Config.freeValue m.free % 2 ^ 512 }
    units := m.units.filterMap fun e => if e.2.failed then some (e.1, { failed := true }) else none
    sent := m.sent, free := m.free + 1 }

/-! ### Ready jobs (R180, R181) -/

/-- Whether a job that satisfies `p` is ready. -/
def Mach.anyReady (m : Mach) (p : Job → Bool) : Bool := m.jobs.any fun e => e.2.st = .ready && p e.2

/-- The lowest pass among keys that `ks` lists; none where it lists none. -/
def lowestPass (pass : List (Nat × Nat)) (ks : List Nat) : Option Nat :=
  (ks.map fun k => tabGet (fun _ => 0) pass k).min?

/-- A job becomes ready as the youngest of its carrel; a tenant or carrel that had no ready job takes at least the lowest
pass of its peers (R181). -/
def Mach.makeReady (m : Mach) (x : Nat) : Mach :=
  match m.job x with
  | none => m
  | some j =>
    let ready := (m.jobs.filter fun e => e.2.st = .ready).map Prod.snd
    let tp := if ready.any (fun r => r.ten = j.ten) then m.tpass
      else match lowestPass m.tpass (ready.map Job.ten) with
        | none => m.tpass
        | some l => tabPut (fun _ => 0) j.ten (max (tabGet (fun _ => 0) m.tpass j.ten) l) m.tpass
    let cp := if ready.any (fun r => r.carrel = j.carrel) then m.cpass
      else match lowestPass m.cpass ((ready.filter fun r => r.ten = j.ten).map Job.carrel) with
        | none => m.cpass
        | some l => tabPut (fun _ => 0) j.carrel (max (tabGet (fun _ => 0) m.cpass j.carrel) l) m.cpass
    { m.setJob x { j with st := .ready, ord := m.order } with tpass := tp, cpass := cp, order := m.order + 1 }

/-- A waiting job's condition holds or fails: it becomes ready with the status code and detail its slip ends with
(R193). -/
def Mach.wakeJob (m : Mach) (x code detail : Nat) (count : Nat := 0) : Mach :=
  match m.job x with
  | none => m
  | some j =>
    if j.st = .waiting then
      (m.setJob x { j with
        wait := .none, woken := true, wokenRes := code * 65536 + detail, wokenCount := count, deadline := none }).makeReady x
    else m

end Sys2Proof.Machine
end

