-- ==== Sys2Proof/Machine/Lcp.lean ====
section
/-! DEFINITION. The Ledger Channel Protocol on the wire: the layout of a frame (R68 to R78), the walk that reads it and the
octets that spell it. -/

namespace Sys2Proof.Machine

open Sys2Proof

/-- The pad octets after a body of `n` octets (R73). -/
def padOf (n : Nat) : Nat := (6 - n % 6) % 6

/-- An item header and body read from octets, with the octets it takes (R73). -/
def parseItem (os : List Octet) : Option (LcpItem × List Octet) :=
  let len := octField os 10 2
  let gt := octField os 8 2
  if os.length < 16 || len > 1488 || os.length < 16 + len + padOf len then none
  else
    some ({ id := octField os 0 8, game := gt / 16, itype := gt % 16, len := len,
            body := packOctets ((os.drop 16).take len) }, os.drop (16 + len + padOf len))

/-- `n` items read from octets, with what follows them (R73). -/
def parseItems : Nat → List Octet → Option (List LcpItem × List Octet)
  | 0, os => some ([], os)
  | n + 1, os =>
    match parseItem os with
    | none => none
    | some (i, rest) => match parseItems n rest with
      | none => none
      | some (l, rest') => some (i :: l, rest')

/-- A RELEASE entry read from 30 octets (R76). -/
def parseEntry (os : List Octet) : Option (RelEntry × List Octet) :=
  match dispOfCode (octField os 23 1 % 16) with
  | none => none
  | some d =>
    if os.length < 30 then none
    else some ({ id := octField os 0 8, accn := octField os 8 8, folio := octField os 16 7 % 2 ^ 52, disp := d,
                 epoch := octField os 24 3 }, os.drop 30)

/-- `n` RELEASE entries read from octets. -/
def parseEntries : Nat → List Octet → Option (List RelEntry × List Octet)
  | 0, os => some ([], os)
  | n + 1, os =>
    match parseEntry os with
    | none => none
    | some (e, rest) => match parseEntries n rest with
      | none => none
      | some (l, rest') => some (e :: l, rest')

/-- The body of a frame of type `typ`, read from the octets after the header, with what follows it; none for a structure
fault (step 5 of R79): the walk does not fit, COUNT or a LENGTH is beyond its limit, or COUNT is not 0 where the type has a
fixed body or none (R69, R78). -/
def parseBody (typ flags count : Nat) (os : List Octet) : Option (LcpBody × List Octet) :=
  if typ = 2 || typ = 8 then
    if count > 512 then none
    else match parseItems count os with
      | none => none
      | some (l, r) => some (.items l, r)
  else if typ = 5 then
    if count > 256 then none
    else match parseEntries count os with
      | none => none
      | some (l, r) => some (.entries l, r)
  else if count ≠ 0 then none
  else if typ = 1 then
    if nbit flags 7 then
      if os.length < 20 then none
      else some (.helloRsp (octField os 0 8) (octField os 8 1 % 16) (octField os 9 1) (octField os 10 1) (octField os 11 1)
        (octField os 12 8), os.drop 20)
    else if os.length < 12 then none
    else some (.helloReq (octField os 0 8) (octField os 8 1 % 16) (octField os 9 1), os.drop 12)
  else if typ = 4 then
    if os.length < 8 then none else some (.nak (octField os 0 1) (octField os 1 1) (octField os 4 4), os.drop 8)
  else if typ = 6 then
    if os.length < 4 then none else some (.epoch (octField os 0 3) (octField os 3 1), os.drop 4)
  else if typ = 9 then
    if os.length < 4 then none else some (.bye (octField os 0 1), os.drop 4)
  else if typ = 10 then
    if os.length < 16 then none
    else some (.probe (octField os 0 8) (octField os 8 5) (octField os 13 3), os.drop 16)
  else some (.none, os)

/-- The addresses and header of a frame (R68, R69), its body left empty. `os` runs from the destination address on. -/
def parseHead (os : List Octet) : LcpFrame :=
  { dst := octField os 0 6, src := octField os 6 6, typ := octField os 14 1 % 16, flags := octField os 15 1,
    session := octField os 16 2 % 4096, epoch := octField os 18 3, seq := octField os 22 4, cumack := octField os 26 4,
    credit := octField os 30 2 }

/-- What step 5 of R79 makes of a frame. -/
inductive Walk where
  | structure_
  | check
  | good (f : LcpFrame)
deriving DecidableEq, Repr

/-- Step 5 of R79: the walk, then the payload check over the header and everything up to the check (R72). -/
def parseLcp (os : List Octet) : Walk :=
  let h := parseHead os
  match parseBody h.typ h.flags (octField os 32 2) (os.drop 34) with
  | none => .structure_
  | some (b, rest) =>
    if rest.length < 4 then .structure_
    else if crc32c ((os.drop 14).take (os.length - 14 - rest.length)) = octField rest 0 4 then .good { h with body := b }
    else .check

/-- The octets of an item (R73). -/
def itemOctets (i : LcpItem) : List Octet :=
  octetsBE 8 i.id ++ octetsBE 2 (i.game * 16 + i.itype) ++ octetsBE 2 i.len ++ octetsBE 4 0 ++
    (octetsOfWords i.body).take i.len ++ List.replicate (padOf i.len) 0

/-- The octets of a RELEASE entry (R76). -/
def entryOctets (e : RelEntry) : List Octet :=
  octetsBE 8 e.id ++ octetsBE 8 e.accn ++ octetsBE 7 e.folio ++ octetsBE 1 (dispCode e.disp) ++ octetsBE 3 e.epoch ++
    octetsBE 3 0

/-- The octets of a body (R78). -/
def bodyOctets : LcpBody → List Octet
  | .none => []
  | .helloReq pid ten stream => octetsBE 8 pid ++ octetsBE 1 ten ++ octetsBE 1 stream ++ octetsBE 2 0
  | .helloRsp pid ten stream idle rto h =>
    octetsBE 8 pid ++ octetsBE 1 ten ++ octetsBE 1 stream ++ octetsBE 1 idle ++ octetsBE 1 rto ++ octetsBE 8 h
  | .items l => l.flatMap itemOctets
  | .entries l => l.flatMap entryOctets
  | .nak r d s => octetsBE 1 r ++ octetsBE 1 d ++ octetsBE 2 0 ++ octetsBE 4 s
  | .epoch p r => octetsBE 3 p ++ octetsBE 1 r
  | .bye r => octetsBE 1 r ++ octetsBE 3 0
  | .probe e s f => octetsBE 8 e ++ octetsBE 5 s ++ octetsBE 3 f

/-- COUNT of a body (R69). -/
def bodyCount : LcpBody → Nat
  | .items l => l.length
  | .entries l => l.length
  | _ => 0

/-- The LCP header of a frame (R69): version 1. -/
def headOctets (f : LcpFrame) : List Octet :=
  octetsBE 1 (0x10 + f.typ) ++ octetsBE 1 f.flags ++ octetsBE 2 f.session ++ octetsBE 3 f.epoch ++ octetsBE 1 0 ++
    octetsBE 4 f.seq ++ octetsBE 4 f.cumack ++ octetsBE 2 f.credit ++ octetsBE 2 (bodyCount f.body)

/-- The octets of a frame from its destination address to its padding, with EtherType `et` (R68): padded to 60 octets, which
the FCS makes 64. -/
def lcpOctets (et : Nat) (f : LcpFrame) : List Octet :=
  let p := headOctets f ++ bodyOctets f.body
  let os := octetsBE 6 f.dst ++ octetsBE 6 f.src ++ octetsBE 2 et ++ p ++ octetsBE 4 (crc32c p)
  os ++ List.replicate (60 - os.length) 0

/-- An item whose fields fit the wire. -/
def LcpItem.fits (i : LcpItem) : Bool :=
  i.id < 2 ^ 64 && i.game < 4096 && i.itype < 16 && i.len ≤ 1488 &&
    i.body = packOctets ((octetsOfWords i.body).take i.len)

end Sys2Proof.Machine
end

