-- ==== Sys2Proof/Machine/Sessions.lean ====
section
/-! DEFINITION. Sessions and their connections (R81 to R96): what the module sends, the release of entries, the credit
limit, the close of a connection, and the SES_ registers. -/

namespace Sys2Proof.Machine

open Sys2Proof

/-! ### Role, epoch and port facts the wire depends on -/

/-- TWN_STAT.ROLE (R136). -/
def Mach.role (m : Mach) : Nat := m.fld Reg.twnStat F.twnStatRole

/-- TWN_EPOCH (R138). -/
def Mach.epoch (m : Mach) : Nat := (m.reg Reg.twnEpoch).toNat

/-- The role is ACTIVE or SOLO. -/
def Mach.serving (m : Mach) : Bool := m.role = 1 || m.role = 2

/-- PRT_STAT.LINK of a port (R100). -/
def Mach.linkUp (m : Mach) (p : Nat) : Bool := m.bit (Reg.prtStat p) F.prtStatLink

/-- The causes of back-pressure of a tenant; EXH is not one (R122). -/
def Mach.backPressed (m : Mach) (t : Nat) : Bool := (m.reg (Reg.accBp t)).toNat % 16 ≠ 0

/-! ### Connections -/

/-- Serial order of 32-bit sequence numbers: `a` comes before `b` (R86). -/
def seqLt (a b : Nat) : Bool := (b + 2 ^ 32 - a % 2 ^ 32) % 2 ^ 32 ≠ 0 && (b + 2 ^ 32 - a % 2 ^ 32) % 2 ^ 32 < 2 ^ 31

/-- The ids that earlier connections left in the pending list (R89). -/
def oldPending (e : SesLive) : Nat := (e.pending.filter fun i => i.old).length

/-- The ordinal of the oldest item of a connection not yet answered, or the next ordinal where all are answered. -/
def oldestOrd (c : Conn) : Nat := (c.unans.map Prod.fst ++ c.stored).foldl min c.nextOrd

/-- The highest limit L that R89 allows; L never moves backwards. -/
def limitOf (e : SesLive) (c : Conn) : Nat := max c.lim (oldestOrd c + 1024 - oldPending e)

/-- Frame types that take a sequence number on a connection (R71). -/
def sequenced (typ : Nat) : Bool := typ = 2 || typ = 5 || typ = 6 || typ = 8 || typ = 9

/-- A frame of session `s` with the current epoch, CUMACK and CREDIT (R69). A sequenced frame carries the next sequence and
is kept until it is acknowledged; any frame acknowledges what was received, STORED items among it (R87, R89). -/
def Mach.connSend (m : Mach) (s typ flags : Nat) (body : LcpBody) : Mach :=
  let e := m.live s
  match e.conn with
  | none => m
  | some c =>
    let c1 := { c with stored := [] }
    let lim := limitOf e c1
    let seq := (c.txseq + 1) % 2 ^ 32
    let f : LcpFrame :=
      { dst := c.peer.toNat, src := (m.reg (Reg.prtMac c.port)).toNat, typ := typ, flags := flags
        session := s, epoch := m.epoch, seq := seq, cumack := c.rxseq, credit := lim % 65536, body := body }
    let c2 := { c1 with lim := lim, ackBy := none }
    let c3 := if sequenced typ then
        { c2 with txseq := seq, unacked := c2.unacked ++ [f],
                  progressAt := if c2.unacked.isEmpty then m.now else c2.progressAt }
      else c2
    (m.setLive s { e with conn := some c3 }).send (.lcp c.port f)

/-- A NAK on a frame that no connection carries: SEQ, CUMACK and CREDIT 0 (R69). Its SESSION is that of the rejected frame, and the
SEQ of its body that frame's SEQ: the spec gives neither (DESIGN CHOICE, log 111). -/
def Mach.bareNak (m : Mach) (p : Nat) (f : LcpFrame) (reason detail : Nat) : Mach :=
  (m.send (.lcp p
    { dst := f.src, src := (m.reg (Reg.prtMac p)).toNat, typ := 4, session := f.session, epoch := m.epoch
      body := .nak reason detail f.seq })).count (Reg.prtNaktx p)

/-- A NAK on a connection (R80). -/
def Mach.connNak (m : Mach) (s reason detail seq : Nat) : Mach :=
  match (m.live s).conn with
  | none => m
  | some c => (m.connSend s 4 0 (.nak reason detail seq)).count (Reg.prtNaktx c.port)

/-- Room for another sequenced frame: at most 256 are unacknowledged (R86). -/
def hasRoom (c : Conn) : Bool := c.unacked.length < 256

/-- The entries of a RELEASE frame mark their items answered: an entry answered now its own ordinal, any other every ordinal
with its id (R89, R91). -/
def answer (e : SesLive) (c : Conn) (out : Option (Nat × Nat) × RelEntry) : Conn :=
  match out.1 with
  | some (g, o) => if g = e.gen then { c with unans := c.unans.filter fun u => u.1 ≠ o } else c
  | none => { c with unans := c.unans.filter fun u => u.2 ≠ out.2.id }

/-- The EPOCH frame that is due, then the entries that wait, at most 256 to a RELEASE frame, as long as the connection has
room. Each entry carries the epoch in which it is sent (R76, R92, R94). `fuel` bounds the number of frames. -/
def Mach.flushN : Nat → Nat → Mach → Mach
  | 0, _, m => m
  | n + 1, s, m =>
    let e := m.live s
    match e.conn with
    | none => m
    | some c =>
      if !hasRoom c then m
      else match c.epochDue with
        | some prev =>
          let m1 := m.setLive s { e with conn := some { c with epochDue := none } }
          Mach.flushN n s (m1.connSend s 6 0 (.epoch prev m.role))
        | none =>
          if e.outq.isEmpty then m
          else
            let now := e.outq.take 256
            let c1 := now.foldl (answer e) c
            let m1 := m.setLive s { e with outq := e.outq.drop 256, conn := some c1 }
            Mach.flushN n s (m1.connSend s 5 0 (.entries (now.map fun o => { o.2 with epoch := m.epoch })))

/-- Everything of session `s` that can go out goes out. -/
def Mach.flush (m : Mach) (s : Nat) : Mach := m.flushN 32 s

/-- An entry queued for session `s`, where it has a connection (R92). -/
def Mach.queueEntry (m : Mach) (s : Nat) (now : Option (Nat × Nat)) (r : RelEntry) : Mach :=
  let e := m.live s
  match e.conn with
  | none => m
  | some _ => m.setLive s { e with outq := e.outq ++ [(now, r)] }

/-- Sends of jobs that the close of session `s` ends: a waiting SEND ends NOCONN, detail 0x01, and a POSTED item not yet
acknowledged counts as lost (R189). -/
def Mach.failSends (m : Mach) (s : Nat) : Mach :=
  let hit := m.replies.filter fun r => r.ses = s
  let m1 := { m with replies := m.replies.filter fun r => r.ses ≠ s }
  let m2 := hit.foldl (fun x r => if r.posted && r.placed.isSome then x else x.wakeJob r.ctx 0x08 1) m1
  { m2 with jobs := m2.jobs.map fun e =>
      (e.1, { e.2 with posted := e.2.posted.map fun p => if p.1 = s then (p.1, p.2.1, true) else p }) }

/-- The close of a connection (R83): unacknowledged frames and unsent entries go, the pending list stays and counts as left
by an earlier connection. -/
def Mach.closeConn (m : Mach) (s : Nat) : Mach :=
  let e := m.live s
  match e.conn with
  | none => m
  | some _ =>
    (m.setLive s { e with conn := none, outq := [], pending := e.pending.map fun i => { i with old := true } }).failSends s

/-- A BYE of the module closes the connection at once (R83), also where it is the 257th frame outstanding: the rules that send it
name no wait for R86's limit (DESIGN CHOICE, log 112). -/
def Mach.bye (m : Mach) (s reason : Nat) : Mach :=
  match (m.live s).conn with
  | none => m
  | some _ => (m.connSend s 9 0 (.bye reason)).closeConn s

/-- The sessions that have a connection. -/
def Mach.openSessions (m : Mach) : List Nat := (m.ses.filter fun e => e.2.conn.isSome).map Prod.fst

/-- The sessions with a connection on port `p`. -/
def Mach.portSessions (m : Mach) (p : Nat) : List Nat :=
  (m.ses.filter fun e => match e.2.conn with
    | some c => c.port = p
    | none => false).map Prod.fst

/-- Every connection closed with BYE `reason`. -/
def Mach.byeAll (m : Mach) (reason : Nat) : Mach := m.openSessions.foldl (fun x s => x.bye s reason) m

/-- Every connection of a port closed without a frame (R83, R99). -/
def Mach.closePort (m : Mach) (p : Nat) : Mach := (m.portSessions p).foldl Mach.closeConn m

/-- A CREDIT frame on every open connection of a tenant's sessions, at the end of back-pressure (R90). -/
def Mach.creditTenant (m : Mach) (t : Nat) : Mach :=
  m.openSessions.foldl (fun x s => if (x.sess s).ten = t then x.connSend s 7 0 .none else x) m

/-! ### Dedup table and release (R91 to R93) -/

/-- An id entered in a dedup table; the oldest leaves once it holds 4,096 (R91). -/
def tableAdd (t : List DedupEnt) (d : DedupEnt) : List DedupEnt :=
  if t.length ≥ 4096 then t.drop 1 ++ [d] else t ++ [d]

/-- An item of session `s` released: into the dedup table, H raised, out of the pending list, its entry queued (R91, R120). -/
def Mach.releaseItem (m : Mach) (s : Nat) (j : JItem) (folio : Nat) : Mach :=
  let l := m.sess s
  let m1 := m.setSess s { l with table := tableAdd l.table { id := j.id, disp := j.disp, accn := j.accn, folio := folio },
                                 h := max l.h j.id }
  let e := m1.live s
  let m2 := m1.setLive s { e with pending := e.pending.filter fun i => i.id ≠ j.id, relIds := e.relIds ++ [j.id],
                                  r := max e.r j.id }
  m2.queueEntry s none { id := j.id, accn := j.accn, folio := folio, disp := j.disp, epoch := m.epoch }

/-- The RELEASE frames of a replay: every table entry above the delivered mark released in the current epoch, flag REPLAY
set, 256 to a frame (R93). -/
def Mach.replayN : Nat → Nat → List RelEntry → Mach → Mach
  | 0, _, _, m => m
  | n + 1, s, es, m =>
    if es.isEmpty then m
    else
      let now := es.take 256
      let e := m.live s
      match e.conn with
      | none => m
      | some c =>
        let m1 := m.setLive s { e with conn := some (now.foldl (fun a r => answer e a (none, r)) c) }
        Mach.replayN n s (es.drop 256) (m1.connSend s 5 0x10 (.entries now))

/-- The entries a resumed connection is sent first (R93). -/
def Mach.replayEntries (m : Mach) (s : Nat) : List RelEntry :=
  let e := m.live s
  ((m.sess s).table.filter fun d => e.delivered < d.id && e.relIds.contains d.id).map fun d =>
    { id := d.id, accn := d.accn, folio := d.folio, disp := d.disp, epoch := m.epoch }

/-- Acknowledgement up to CUMACK: acknowledged frames go, the retransmission count restarts, and released ids of
acknowledged RELEASE frames of the current epoch raise the delivered mark (R87, R93). SEND slips whose frame is covered end
OK (R189). -/
def Mach.ackConn (m : Mach) (s cum : Nat) : Mach :=
  let e := m.live s
  match e.conn with
  | none => m
  | some c =>
    let done := c.unacked.filter fun f => !seqLt cum f.seq
    if done.isEmpty || seqLt c.txseq cum then m
    else
      let ids := done.flatMap fun f => match f.body with
        | .entries l => (l.filter fun r => r.epoch = m.epoch && e.relIds.contains r.id).map RelEntry.id
        | _ => []
      let c1 := { c with unacked := c.unacked.filter fun f => seqLt cum f.seq, retx := 0, progressAt := m.now }
      let m1 := m.setLive s { e with conn := some c1, delivered := ids.foldl max e.delivered }
      let acked := m1.replies.filter fun r => r.ses = s && (match r.placed with
        | some q => !seqLt cum q
        | none => false)
      let m2 := { m1 with
        replies := m1.replies.filter fun r => !acked.contains r
        jobs := m1.jobs.map fun j => (j.1, { j.2 with posted := j.2.posted.filter fun p =>
          !(p.1 = s && !p.2.2 && !seqLt cum p.2.1) }) }
      acked.foldl (fun x r => if r.posted then x else x.wakeJob r.ctx 0 0) m2

/-- Retransmission from the first unacknowledged frame (R87): each frame keeps its SEQ and body and carries the current
EPOCH, CUMACK and CREDIT; a ninth without progress closes the connection with BYE RETRY-LIMIT instead. -/
def Mach.retransmit (m : Mach) (s : Nat) : Mach :=
  let e := m.live s
  match e.conn with
  | none => m
  | some c =>
    if c.unacked.isEmpty then m
    else if c.retx ≥ 8 then m.bye s 4
    else
      let c1 := { c with stored := [] }
      let lim := limitOf e c1
      let fs := c.unacked.map fun f => { f with epoch := m.epoch, cumack := c.rxseq, credit := lim % 65536 }
      let m1 := m.setLive s { e with conn := some { c1 with lim := lim, ackBy := none, unacked := fs, retx := c.retx + 1,
                                                            progressAt := m.now } }
      (fs.foldl (fun x f => x.send (.lcp c.port f)) m1).count (Reg.prtRetx c.port) fs.length

/-! ### The epoch on the wire (R94) -/

/-- One of the unsequenced EPOCH frames to the peer of an IDLE entry whose last port has link up: once in each of the 8 folios from
the change of epoch (R94). -/
def Mach.epochFrame (m : Mach) (s : Nat) : Mach :=
  let e := m.live s
  let l := m.sess s
  if l.used && e.conn.isNone && m.openFolio < e.epochEnd && m.serving && !m.twin.latch && m.linkUp l.port &&
      e.epochFolio ≠ some m.openFolio then
    (m.setLive s { e with epochFolio := some m.openFolio }).send (.lcp l.port
      { dst := l.peer.toNat, src := (m.reg (Reg.prtMac l.port)).toNat, typ := 6, session := s, epoch := m.epoch
        body := .epoch e.epochPrev m.role })
  else m

/-- A new epoch as the sessions see it: delivered marks and the ids of the old epoch go; while the module keeps the roles
ACTIVE and SOLO an EPOCH frame is due on each connection; where it takes one of them, IDLE entries are sent EPOCH frames
in 8 folios; the STORED logs clear (R92 to R94, R192). -/
def Mach.epochSessions (m : Mach) (prev : Nat) : Mach :=
  let ids := (m.ledger.sessions.map Prod.fst ++ m.ses.map Prod.fst).dedup
  let m1 := ids.foldl (fun x s =>
    let e := x.live s
    x.setLive s { e with delivered := 0, relIds := [], stored := [], epochPrev := prev, epochFolio := none,
                         epochEnd := if e.conn.isNone && x.serving && (x.sess s).used then x.openFolio + 8 else 0,
                         conn := e.conn.map fun c => { c with epochDue := some (c.epochDue.getD prev) } }) m
  if m1.serving then ids.foldl Mach.epochFrame (m1.openSessions.foldl Mach.flush m1) else m1

/-! ### SES_ registers (R101, R102) -/

/-- The pending STORAGE value of a session in the written view, or the effective one (R57, R102). -/
def Mach.storageWritten (m : Mach) (s : Nat) : Bool :=
  m.ledger.pend.foldl (fun v w => match w with
    | .storage k b => if k = s then b else v
    | _ => v) (m.sess s).storage

/-- SES_STAT.STATE (R101). -/
def Mach.sesState (m : Mach) (s : Nat) : Nat :=
  if !(m.sess s).used then 0 else if (m.live s).conn.isSome then 2 else 1

/-- The value a SES_ register of session `s` shows at offset `o` (R101). -/
def Mach.sesRead (m : Mach) (s o : Nat) : Word :=
  let l := m.sess s
  let e := m.live s
  let c := e.conn.getD {}
  match o with
  | 0 =>
    let w := fset (fset (fset (fset (fset 0 F.sesStatState (m.sesState s)) F.sesStatPort l.port) F.sesStatTenant l.ten)
      F.sesStatStorage (b2n l.storage)) F.sesStatStream l.stream
    fset w F.sesStatErr e.err
  | 1 => hiWord l.pid
  | 2 => loWord l.pid
  | 3 => hiWord l.h
  | 4 => loWord l.h
  | 5 => l.peer
  | 6 => w48 (b2n (m.storageWritten s))
  | 7 => w48 e.pending.length
  | 8 => if e.conn.isSome then w48 c.txseq else 0
  | 9 => if e.conn.isSome then w48 c.rxseq else 0
  | 10 => if e.conn.isSome then w48 (c.lim % 65536 * 65536 + c.nextOrd % 65536) else 0
  | 11 => if e.conn.isSome then w48 (c.plim % 65536 * 65536 + c.nextReply % 65536) else 0
  | _ => 0

/-- A ledger-state write is refused in the roles STANDBY, SYNCING and FENCED once the charter has committed (R58). -/
def Mach.ledgerBarred (m : Mach) : Bool := m.committed && !m.serving

/-- A ledger-state write becomes pending until the next folio boundary (R57). -/
def Mach.pendWrite (m : Mach) (w : LWrite) : Mach := { m with ledger := { m.ledger with pend := m.ledger.pend ++ [w] } }

/-- Why a RETIRE is refused: 1 OPEN, 2 PENDING, 0 not at all (R85, R102). -/
def Mach.retireErr (m : Mach) (s : Nat) : Nat :=
  if (m.live s).conn.isSome then 1 else if (m.live s).pending.isEmpty then 0 else 2

/-- The error field of SES_STAT given. -/
def Mach.sesErr (m : Mach) (s k : Nat) : Mach := m.setLive s { m.live s with err := k }

/-- A write of SES_CTL (R102): ignored from other software or while the entry is FREE; KICK acts at once, STORAGE and RETIRE
become pending. The check of a RETIRE meets the entry as a KICK of the same write leaves it: R102 lets the fields act independently
and names no order (DESIGN CHOICE, log 114). -/
def Mach.sesCtlWrite (m : Mach) (w : Who) (s : Nat) (v : Word) : Mach :=
  if !(m.sess s).used || !w.openTen (m.sess s).ten then m
  else
    let m1 := if fbit v F.sesCtlKick then m.bye s 2 else m
    if m1.ledgerBarred then m1.sesErr s 3
    else
      let st := fbit v F.sesCtlStorage
      let m2 := if st ≠ m1.storageWritten s then m1.pendWrite (.storage s st) else m1
      if fbit v F.sesCtlRetire then
        let k := m2.retireErr s
        if k = 0 then (m2.pendWrite (.retire s)).sesErr s 0 else m2.sesErr s k
      else m2.sesErr s 0

end Sys2Proof.Machine
end

