-- ==== Sys2Proof/Machine/Roles.lean ====
section
/-! DEFINITION. The twin's roles as every other block sees them: role and epoch changes with what follows from each, the
alarms, the lease, the fence (R136 to R140, R149, R162), and the seal alarms (R176). -/

namespace Sys2Proof.Machine

open Sys2Proof

/-! ### Alarms -/

/-- Bits of a status register given; each change raises a source, each rise is a fault event (R161, R176, R414). -/
def Mach.alarmReg (m : Mach) (a : Nat) (mask v : Word) (src evt : Nat) : Mach :=
  let old := m.reg a
  let new := (old &&& ~~~ mask) ||| (v &&& mask)
  if new = old then m
  else
    let m1 := (m.setReg a new).raise src
    if new &&& ~~~ old = 0 then m1 else m1.faultEvent evt

/-- One bit of TWN_ALARM given: each change raises IS0017, each rise is a TWIN fault event. -/
def Mach.twnAlarm (m : Mach) (f : Fld) (b : Bool) : Mach :=
  m.alarmReg Reg.twnAlarm (fmask f) (fset 0 f (b2n b)) 17 4

/-- One bit of SEAL_STAT [5:2] given: each change raises IS0018, each rise is a SEAL fault event. -/
def Mach.sealAlarm (m : Mach) (f : Fld) (b : Bool) : Mach :=
  m.alarmReg Reg.sealStat (fmask f) (fset 0 f (b2n b)) 18 3

/-- One bit of MEM_ALARM given: each change raises IS0024, each rise is a MEM fault event (R326, R328, R414). -/
def Mach.memAlarm (m : Mach) (f : Fld) (b : Bool) : Mach :=
  m.alarmReg Reg.memAlarm (fmask f) (fset 0 f (b2n b)) 24 1

/-- A twin is designed in: TWN_CTL.PAIRED (R156). -/
def Mach.paired (m : Mach) : Bool := m.bit Reg.twnCtl F.twnCtlPaired

/-- Paths A and B up (R147). -/
def Mach.pathA (m : Mach) : Bool := m.bit Reg.twnStat F.twnStatPatha
def Mach.pathB (m : Mach) : Bool := m.bit Reg.twnStat F.twnStatPathb

/-- The mirrored lines that await shipment (R146): none while no twin is followed. -/
def Mach.mirWaiting (m : Mach) : Nat :=
  if m.twin.shipping then
    m.twin.dirty.length + ((m.twin.ships.filter fun s => s.doneAt.isNone).map fun s => (s.left.getD s.lines).length).sum
  else 0

/-- TWN_MIRBUDGET (R146). -/
def Mach.mirBudget (m : Mach) : Nat := (m.reg Reg.twnMirbudget).toNat % 2 ^ 24

/-- The lines awaiting shipment exceed 4 times the budget (R146). -/
def Mach.mirLate (m : Mach) : Bool := 4 * m.mirBudget < m.mirWaiting

/-- A store that would newly dirty this line of a mirrored page stalls (R146). -/
def Mach.mirStalls (m : Mach) (line : Nat) : Bool :=
  m.ledger.mirror.contains (line / 64) && !m.twin.dirty.contains line && m.mirLate

/-- TWN_ALARM as it reads: present conditions (R161). -/
def Mach.alarms (m : Mach) : Word := fset (m.reg Reg.twnAlarm) F.twnAlarmMirlate (b2n m.mirLate)

/-- The mirror backlog alarm (R146). -/
def Mach.refreshMir (m : Mach) : Mach := m.twnAlarm F.twnAlarmMirlate m.mirLate

/-- The alarms that follow from present state: EPOCHEND and EPOCHLOW from the epoch (R160), SHIPFAULT from the last 64 folios
(R161), SKEW from TWN_SKEW (R159), UNMIRRORED from the role (R32) and DEGRADED from the paths (R147). -/
def Mach.refreshTwn (m : Mach) : Mach :=
  let sk := sgn 32 (m.reg Reg.twnSkew).toNat
  let m1 := m.twnAlarm F.twnAlarmEpochend (m.epoch = 0xFFFFFF)
  let m2 := m1.twnAlarm F.twnAlarmShipfault (match m.twin.shipFaultAt with
    | some f => m.openFolio < f + 64
    | none => false)
  let m3 := m2.twnAlarm F.twnAlarmSkew (m.fld Reg.twnStat F.twnStatPeerrole ≠ 0 && (sk > 64 || sk < -64))
  let m4 := m3.twnAlarm F.twnAlarmEpochlow (m.epoch ≥ 0xFFF000)
  let m5 := m4.twnAlarm F.twnAlarmUnmirrored (m.role = 2 && m.paired)
  m5.twnAlarm F.twnAlarmDegraded (m.pathA ≠ m.pathB)

/-! ### Epoch and role changes (R138, R140, R162) -/

/-- The tenants whose TEN_CTL.EN is 1. -/
def Mach.enabledTenants (m : Mach) : List Nat := allTenants.filter fun t => m.bit (Reg.tenCtl t) F.tenCtlEn

/-- A new session key on the twin link (R132). -/
def Mach.newKey (m : Mach) : Mach := { m with twin := { m.twin with keyNo := m.twin.keyNo + 1, keyMsgs := 0 } }

/-- TWN_EPOCH given: every change posts EPOCH-CHANGE to every enabled tenant and raises IS0016; it is counted, the sessions and the
alarms follow, and the twin link's key is renewed (R94, R132, R138, R160). -/
def Mach.setEpoch (m : Mach) (e : Nat) : Mach :=
  let prev := m.epoch
  if e = prev then m
  else
    let m0 := if m.twin.authed then m.newKey else m
    let m1 := (m0.setReg Reg.twnEpoch (w48 e)).count Reg.twnEpochs
    let m2 := (m1.notices m1.enabledTenants 0x07 (w48 e)).raise 16
    ((m2.faultEvent 0).epochSessions prev).refreshTwn

/-- The words of the seal ring (R165, R176). -/
def Mach.rollWords (m : Mach) : Nat := (m.eff Reg.sealRsize).toNat * 4096

/-- The word address of an offset in the seal ring. -/
def Mach.rollAddr (m : Mach) (off : Nat) : Nat := (m.eff Reg.sealRbase).toNat + off

/-- The chain hash of a record's M (R167). -/
def chainHash (ws : List Word) : Nat := (sha3_512 (5#8 :: octetsOfWords ws)).toNat

/-- Leaving ACTIVE or SOLO stops sealing (R173): the signature in progress is discarded and the head goes back to the end of
the last seal sent to the twin; the withdrawn volumes return to the queue. -/
def Mach.sealLeave (m : Mach) : Mach :=
  let m1 := { m with sealing := { m.sealing with
    signDone := none, unsent := [], queue := m.sealing.unsent.map SealRec.vol ++ m.sealing.queue } }
  match m.sealing.unsent with
  | [] => m1
  | u :: _ =>
    let m2 : Mach := { m1 with sealing := { m1.sealing with prev := u.prev } }
    ((m2.setReg Reg.sealHead (w48 u.head)).setReg Reg.sealLastv (w48 u.lastv)).setReg Reg.sealLastno (w48 u.lastno)

/-- The bits of ACC_STAT and SEAL_STAT that show the units running: the accession unit takes items once the charter has
committed while the module serves; the seal engine seals while the module serves with EN effective. -/
def Mach.refreshRun (m : Mach) : Mach :=
  (m.setFld Reg.accStat F.accStatRun (b2n (m.committed && m.serving))).setFld Reg.sealStat F.sealStatRun
    (b2n (m.serving && fbit (m.eff Reg.sealCtl) F.sealCtlEn && !m.bit Reg.sealStat F.sealStatPaused &&
      !m.bit Reg.sealStat F.sealStatRollfull))

/-- TWN_STAT.ROLE given (R140, R162): every change raises IS0016; leaving ACTIVE and SOLO closes the connections, clears the
STORED logs, leaves folios unclosed and stops sealing (R83, R149, R173, R192); becoming SOLO fixes the boundary B of R32. -/
def Mach.setRole (m : Mach) (r : Nat) : Mach :=
  let old := m.role
  if r = old then m
  else
    let serve := r = 1 || r = 2
    let m1 := if m.serving && !serve then m.openSessions.foldl Mach.closeConn m else m
    let m2 := if m.serving && !serve then
        let cleared : Mach := { m1 with
          closing := []
          ses := m1.ses.map fun e => (e.1, { e.2 with stored := [], epochEnd := 0 }) }
        cleared.sealLeave
      else m1
    let m3 := ((m2.setFld Reg.twnStat F.twnStatRole r).raise 16).faultEvent 0
    let m4 := if r = 2 then { m3 with twin := { m3.twin with soloFrom := some m.openFolio } }
      else { m3 with twin := { m3.twin with soloFrom := none } }
    m4.refreshRun.refreshTwn

/-! ### Lease (R139) -/

/-- TWN_STAT.LEASE: a lease of the role's kind is held. -/
def Mach.lease (m : Mach) : Bool := m.bit Reg.twnStat F.twnStatLease
def Mach.setLease (m : Mach) (b : Bool) : Mach := m.setFld Reg.twnStat F.twnStatLease (b2n b)

/-- The mirrored lease renewed for 8 folios (R139). -/
def Mach.renewLease (m : Mach) : Mach := { m with twin := { m.twin with leaseEnd := m.now + 32768 } }

/-- The pending change of R34 begins or ends. -/
def Mach.setPendingEpoch (m : Mach) (p : Option Nat) : Mach :=
  { m with twin := { m.twin with pending := p } }.setFld Reg.twnStat F.twnStatPending (b2n p.isSome)

/-! ### Fence (R149) -/

/-- A planned handover ends (R154, R155). -/
def Mach.endHandover (m : Mach) : Mach :=
  let m1 : Mach := { m with twin := { m.twin with hoVolume := none, hoDone := false } }
  (m1.setFld Reg.twnStat F.twnStatHandover 0).setFld Reg.twnCtl F.twnCtlHandreq 0

/-- The module fences: the latch is set, each open connection gets BYE ROLE, leases, a pending change and a handover end, and an
ACTIVE, SOLO or STANDBY becomes FENCED. -/
def Mach.fence (m : Mach) : Mach :=
  let m1 := m.byeAll 5
  let m2 := (({ m1 with twin := { m1.twin with latch := true } }.setLease false).setPendingEpoch none).endHandover
  if m2.role = 1 || m2.role = 2 || m2.role = 3 then m2.setRole 5 else m2

/-! ### Synchronisation's phases (R157) -/

/-- TWN_SYNC.PHASE (R157). -/
def Mach.syncPhase (m : Mach) : Nat := m.fld Reg.twnSync F.twnSyncPhase
def Mach.setPhase (m : Mach) (p : Nat) : Mach := m.setFld Reg.twnSync F.twnSyncPhase p

/-- A SYNCING module discards its copy: SYNCFAIL, phase WAIT, epoch 0 (R157). -/
def Mach.syncDiscard (m : Mach) : Mach :=
  let m1 : Mach := { m with twin := { m.twin with hold := none, syncBounds := 0, fails := [] } }
  (((m1.setReg Reg.twnSync 0).setFld Reg.twnStat F.twnStatSynced 0).setEpoch 0).twnAlarm F.twnAlarmSyncfail true

/-- A fence that lasts until MODULE reset: a failed loopback check, ledger-critical poison or a thermal trip (R149). A SYNCING module
so fenced discards its copy, since it starts no synchronisation any more (DEDUCED, log 117). -/
def Mach.fenceBarred (m : Mach) : Mach :=
  let m1 := m.fence
  let m2 : Mach := { m1 with twin := { m1.twin with barred := true } }
  if m2.role = 4 && m2.syncPhase ≠ 0 then m2.syncDiscard else m2

end Sys2Proof.Machine
end

