-- ==== Sys2Proof/Machine/Accession.lean ====
section
/-! DEFINITION. The accession unit and the daybooks (R103 to R130, R451, R452): merge, checks, records, folio headers, the
release rule and back-pressure. -/

namespace Sys2Proof.Machine

open Sys2Proof

/-! ### Hash trees (R117, R164) -/

/-- A 512-bit number as 64 octets. -/
def hashOctets (h : Nat) : List Octet := octetsBE 64 h

/-- A root as it stands in 11 words (R118): octets 0 to 5 in the first, [15:0] of the last 0. -/
def hashWords (h : Nat) : List Word := wordsOfOctets 11 (hashOctets h)

/-- The 512-bit number that 11 words hold (R118). -/
def hashOfWords (ws : List Word) : Nat := natOfOctets ((octetsOfWords ws).take 64)

/-- The leaf hash of a record (R117). -/
def leafHash (r : List Word) : Nat := (sha3_512 (0#8 :: octetsOfWords r)).toNat

/-- node(a, b) (R117). -/
def nodeHash (a b : Nat) : Nat := (sha3_512 (1#8 :: (hashOctets a ++ hashOctets b))).toNat

/-- One level of a tree. -/
def treeLevel : List Nat → List Nat
  | a :: b :: t => nodeHash a b :: treeLevel t
  | l => l

/-- The least power of two at or above `n`, for `n` up to 2^fuel. -/
def pow2From : Nat → Nat → Nat → Nat
  | 0, _, p => p
  | f + 1, n, p => if n ≤ p then p else pow2From f n (2 * p)

/-- A tree over leaves padded with Z to a power of two (R117). -/
def treeRoot (l : List Nat) : Nat :=
  let full := l ++ List.replicate (pow2From 40 l.length 1 - l.length) 0
  (Nat.iterate treeLevel 40 full).headD 0

/-- root(t, F, L) (R117). -/
def folioRoot (t folio : Nat) (leaves : List Nat) : Nat :=
  if leaves.isEmpty then (sha3_512 (2#8 :: (octetsBE 1 t ++ octetsBE 7 folio))).toNat else treeRoot leaves

/-! ### The settings of a folio (R107) -/

/-- The effective value of a register in a ledger state. -/
def Ledger.effReg (l : Ledger) (a : Nat) : Word := tabGet resetOf l.eff a

/-- The ledger state whose settings hold for the item that leaves the merge next and for the headers written next: that of the
oldest folio whose items are not all judged (R107, R119). -/
def Mach.inForce (m : Mach) : Ledger :=
  match m.closing with
  | c :: _ => c.set
  | [] => m.ledger

/-! ### The ring (R112 to R114) -/

/-- The size of a tenant's daybook in words. -/
def Mach.ringWords (m : Mach) (t : Nat) : Nat := (m.reg (Reg.accDbsize t)).toNat * 4096

/-- The physical address of an offset in a tenant's daybook. -/
def Mach.ringAddr (m : Mach) (t off : Nat) : Nat := (m.reg (Reg.accDbbase t)).toNat + off

/-- Free words (R122). -/
def Mach.ringFree (m : Mach) (t : Nat) : Nat := m.ringWords t - (m.reg (Reg.accUsed t)).toNat

/-- The words of PAD that must precede an entry of `n` words at the ring end (R114). -/
def padNeed (size head n : Nat) : Nat := if head + n > size then size - head else 0

/-- A PAD entry of `n` words (R114). -/
def padWords (n : Nat) : List Word :=
  if n = 0 then [] else w48 (0xE * 2 ^ 44 + n * 2 ^ 34) :: List.replicate (n - 1) 0

/-- Words written by the accession unit at a ring offset, with type tag 00 and key ACC_CTL.KEY (R112). -/
def Mach.ringWrite (m : Mach) (t : Nat) : Nat → List Word → Mach
  | _, [] => m
  | off, w :: ws =>
    let a := m.ringAddr t off
    (m.ledgerPut a { m.coh a with key := BitVec.ofNat 4 (fget (m.inForce.effReg (Reg.accCtl t)) F.accCtlKey), tag := 0, pay := w }).ringWrite t
      (off + 1) ws

/-- HEAD moved on by `n` words round the ring, which raises USED (R112). -/
def Mach.advance (m : Mach) (t n : Nat) : Mach :=
  let size := m.ringWords t
  (m.setReg (Reg.accHead t) (w48 (((m.reg (Reg.accHead t)).toNat + n) % max 1 size))).setReg (Reg.accUsed t)
    (w48 ((m.reg (Reg.accUsed t)).toNat + n))

/-- Room for an entry of `n` words made at HEAD: a PAD to the ring end where the entry would cross it; answers the entry's
offset (R114). -/
def Mach.place (m : Mach) (t n : Nat) : Nat × Mach :=
  let head := (m.reg (Reg.accHead t)).toNat
  let p := padNeed (m.ringWords t) head n
  let m1 := (m.ringWrite t head (padWords p)).advance t p
  let off := (m1.reg (Reg.accHead t)).toNat
  let m2 := m1.advance t n
  (off, m2.setAcc t { m2.acc t with words := (m2.acc t).words + p + n })

/-- The header's 16 words reserved before the first item of a folio (R118). -/
def Mach.reserveHeader (m : Mach) (t : Nat) : Mach :=
  match (m.acc t).hdr with
  | some _ => m
  | none =>
    let (off, m1) := m.place t 16
    m1.setAcc t { m1.acc t with hdr := some off }

/-! ### Records (R115, R116) -/

/-- W0 to W7 and the body of an item record (R115). `port` is 0xFF and `ses` 0 for a core-originated item. -/
def recordWords (i : MergeItem) (d : Disp) (accn epoch : Nat) (body : List Word) : List Word :=
  let ps := if i.orig then (0xFF, 0) else (i.port, i.ses)
  let pad := if body.isEmpty || i.orig then 0 else padOf i.item.len
  [ w48 (1 * 2 ^ 44 + (8 + body.length) * 2 ^ 34 + i.item.game % 4096 * 2 ^ 22 + dispCode d * 2 ^ 18 + b2n i.orig * 2 ^ 17
      + b2n i.valid * 2 ^ 16 + pad * 2 ^ 12),
    hiWord accn, loWord accn, w48 (secOf i.stamp), w48 (fracOf i.stamp * 2 ^ 24 + ps.1 % 256 * 2 ^ 16),
    w48 (ps.2 % 4096 * 2 ^ 36 + i.ten * 2 ^ 32 + epoch * 2 ^ 8), hiWord i.item.id, loWord i.item.id ] ++ body

/-- A record written at the head: a leaf of the folio's tree (R117). -/
def Mach.writeRecord (m : Mach) (i : MergeItem) (d : Disp) (accn : Nat) (body : List Word) : Mach :=
  let ws := recordWords i d accn m.epoch body
  let (off, m1) := m.place i.ten ws.length
  let m2 := m1.ringWrite i.ten off ws
  let a := m2.acc i.ten
  m2.setAcc i.ten { a with leaves := a.leaves ++ [leafHash ws], recs := a.recs + 1, recWords := a.recWords + ws.length }

/-- Whether a record of `n` words, with the PAD before it, would leave fewer than 512 free words (R116, R123). -/
def Mach.tooFull (m : Mach) (t n : Nat) : Bool :=
  m.ringFree t < padNeed (m.ringWords t) (m.reg (Reg.accHead t)).toNat n + n + 512

/-- A tenant's settings in a ledger state (R30, R107): largest body, refusal records, quota, the needs-valid-time flag, whether its
accession is enabled, and its durability mode. -/
def Ledger.maxBody (l : Ledger) (t : Nat) : Nat := fget (l.effReg (Reg.accCtl t)) F.accCtlMaxbody
def Ledger.refRec (l : Ledger) (t : Nat) : Bool := fbit (l.effReg (Reg.accCtl t)) F.accCtlRefrec
def Ledger.quota (l : Ledger) (t : Nat) : Nat := (l.effReg (Reg.accQuota t)).toNat % 2 ^ 24
def Ledger.nvt (l : Ledger) (t : Nat) : Bool := fbit (l.effReg (Reg.tenCtl t)) F.tenCtlNvt
def Ledger.accEn (l : Ledger) (t : Nat) : Bool := fbit (l.effReg (Reg.accCtl t)) F.accCtlEn
def Ledger.mode (l : Ledger) (t : Nat) : Nat := fget (l.effReg (Reg.tenCtl t)) F.tenCtlDur

/-- The effective settings of a tenant: quota, needs-valid-time flag, accession enabled, durability mode. -/
def Mach.quota (m : Mach) (t : Nat) : Nat := m.ledger.quota t
def Mach.nvt (m : Mach) (t : Nat) : Bool := m.ledger.nvt t
def Mach.accEn (m : Mach) (t : Nat) : Bool := m.ledger.accEn t
def Mach.mode (m : Mach) (t : Nat) : Nat := m.ledger.mode t

/-- The largest body that the item judged next may have. -/
def Mach.maxBody (m : Mach) (t : Nat) : Nat := m.inForce.maxBody t

/-- The number of words an item's body fills (R73). -/
def bodyWords (i : LcpItem) : Nat := (i.len + 5) / 6

/-- A time that a gate's two registers hold. -/
def Mach.rtReg (m : Mach) (sec frac : Nat) : Nat := (m.reg sec).toNat * 2 ^ 24 + (m.reg frac).toNat

/-- A time that two registers of a ledger state hold. -/
def Ledger.rtReg (l : Ledger) (sec frac : Nat) : Nat := (tabGet resetOf l.regs sec).toNat * 2 ^ 24 + (tabGet resetOf l.regs frac).toNat

/-- The enabled gate of (tenant, game) in the effective view (R51). -/
def Ledger.gateOf (l : Ledger) (t game : Nat) : Option Nat :=
  (l.gates.find? fun e => fbit e.2 F.gateKeyEn && fget e.2 F.gateKeyTenant = t && fget e.2 F.gateKeyGame = game).map
    Prod.fst

/-- The gate check (R51): the refusal it decides, and the gate. A stamp at or above CLOSE_AT and below OPEN_AT meets both refusals of
R51; the model answers REFUSED-CLOSED (DESIGN CHOICE, log 107). -/
def Mach.gateCheck (m : Mach) (t game stamp : Nat) : Option Disp × Option Nat :=
  match m.inForce.gateOf t game with
  | none => (some .refGate, none)
  | some g =>
    if m.inForce.rtReg (Reg.gateCloseSec g) (Reg.gateCloseFrac g) ≤ stamp then (some .refClosed, some g)
    else if stamp < m.inForce.rtReg (Reg.gateOpenSec g) (Reg.gateOpenFrac g) then (some .refGate, some g)
    else (none, some g)

/-- The counts a gate keeps (R63): items passing its check and items refused CLOSED. -/
def Mach.gateCount (m : Mach) (r : Option Disp × Option Nat) : Mach :=
  match r with
  | (none, some g) => m.count (Reg.gateAccepted g)
  | (some .refClosed, some g) => m.count (Reg.gateClosedref g)
  | _ => m

/-- The next accession number; 0 where the numbers are used up (R109). -/
def Mach.nextAccn (m : Mach) (t : Nat) : Nat := m.pair (Reg.accNextHi t) (Reg.accNextLo t)

/-- The next accession number taken (R109): the value rises by one, and after the last number it reads 0 with EXH set.
ACCN-LOW is posted once when fewer than 2^48 remain. -/
def Mach.takeAccn (m : Mach) (t : Nat) : Mach :=
  let n := m.nextAccn t
  let m1 := m.setPair (Reg.accNextHi t) (Reg.accNextLo t) ((n + 1) % 2 ^ 64)
  let m2 := if n = 2 ^ 64 - 1 then m1.setFld (Reg.accBp t) F.accBpExh 1 else m1
  let a := m2.acc t
  let m3 := m2.setAcc t { a with acc := a.acc + 1, firstAccn := if a.acc = 0 then n else a.firstAccn, issued := true }
  if 2 ^ 64 - 2 ^ 48 < n + 1 && !a.lowNoted then
    (m3.notice t 0x05 0).setAcc t { m3.acc t with lowNoted := true }
  else m3

/-! ### Judgement (R107) -/

/-- Steps 3 to 6 of R107, under the settings of the item's folio: the refusal they decide, with the gate check's outcome. -/
def Mach.refusal (m : Mach) (i : MergeItem) : Option Disp × (Option Disp × Option Nat) :=
  if m.inForce.nvt i.ten && !i.valid then (some .refTime, (none, none))
  else
    let g := if i.gated then m.gateCheck i.ten i.item.game i.stamp else (none, none)
    match g.1 with
    | some d => (some d, g)
    | none =>
      if m.inForce.quota i.ten ≠ 0 && m.inForce.quota i.ten ≤ (m.acc i.ten).acc then (some .refQuota, g)
      else if m.nextAccn i.ten = 0 then (some .refExhausted, g)
      else (none, g)

/-- The item joins the folio's list for release (R120). -/
def Mach.joinFolio (m : Mach) (i : MergeItem) (d : Disp) (accn : Nat) : Mach :=
  let a := m.acc i.ten
  m.setAcc i.ten { a with items := a.items ++ [{ ses := if i.orig then 4096 else i.ses, id := i.item.id, disp := d, accn := accn }] }

/-- Steps 3 to 8 of R107: the disposition and number, and the state with the record, counts and notices. -/
def Mach.decide (m : Mach) (i : MergeItem) : Disp × Nat × Mach :=
  let r := m.refusal i
  let m0 := (m.gateCount r.2).reserveHeader i.ten
  match r.1 with
  | some d =>
    let m1 :=
      if m0.inForce.refRec i.ten then
        if m0.tooFull i.ten 8 then m0.setAcc i.ten { m0.acc i.ten with refomit := true } else m0.writeRecord i d 0 []
      else m0
    (d, 0, m1.count (Reg.accRefused i.ten))
  | none =>
    if m0.tooFull i.ten (8 + i.item.body.length) then
      let m1 := (m0.count (Reg.accSpaceref i.ten)).count (Reg.accRefused i.ten)
      let a := m1.acc i.ten
      let m2 := if a.fullNoted then m1
        else (m1.notice i.ten 0x06 (w48 (folioOf i.stamp))).setAcc i.ten { m1.acc i.ten with fullNoted := true }
      (.refQuota, 0, m2)
    else
      let n := m0.nextAccn i.ten
      (.accepted, n, ((m0.takeAccn i.ten).writeRecord i .accepted n i.item.body).count (Reg.accAccepted i.ten))

/-- An answer that goes out now (R92): a RELEASE entry in the next RELEASE frame of the session. -/
def Mach.answerNow (m : Mach) (i : MergeItem) (d : Disp) (accn folio : Nat) : Mach :=
  (m.queueEntry i.ses (some (i.cgen, i.ord)) { id := i.item.id, accn := accn, folio := folio, disp := d, epoch := m.epoch }).flush
    i.ses

/-- A confirmation of volume `v` of tenant `t` (R98), ledger state. -/
def Mach.confirmed (m : Mach) (t v : Nat) : Bool := m.ledger.confirmed.contains (t, v)

/-- The STORED item's entry in its session's log of 16, and the AWAIT slips that match it (R192). -/
def Mach.logStored (m : Mach) (s : Nat) (x : StoredEnt) : Mach :=
  let e := m.live s
  let m1 := m.setLive s { e with stored := ((e.stored ++ [x]).reverse.take 16).reverse }
  let hit := m1.jobs.filter fun j => match j.2.wait with
    | .await ses vol ten => j.2.st = .waiting && ses = s && ten = x.ten && (match vol with
        | none => true
        | some v => v = x.volume)
    | _ => false
  hit.foldl (fun y j => (y.setJob j.1 { j.2 with found := some x }).wakeJob j.1 0 0) m1

/-- A STORED item of session `s` (R98), handled as its frame is received: logged, and a confirmation where the session is a
storage session, the body names the session's tenant and a closed volume, and the result is OK; otherwise the notice
STORE-FAILED. -/
def Mach.storedItem (m : Mach) (s : Nat) (i : LcpItem) : Mach :=
  let os := (octetsOfWords i.body).take i.len
  let vol := octField os 0 6
  let ten := octField os 6 1 % 16
  let res := octField os 7 1
  let m1 := m.logStored s { id := i.id, volume := vol, ten := ten, w0 := i.body.getD 0 0, w1 := i.body.getD 1 0 }
  if i.len = 12 && (m.sess s).storage && ten = (m.sess s).ten && vol < volumeOf m.openFolio && res = 0 then
    if m1.confirmed ten vol then m1
    else { m1 with ledger := { m1.ledger with confirmed := m1.ledger.confirmed ++ [(ten, vol)] } }
  else m1.notice (m.sess s).ten 0x04 (w48 vol)

/-- A partner's WORK item, or one of a reserved type, judged (R107, R91). -/
def Mach.judgeWork (m : Mach) (i : MergeItem) : Mach :=
  let folio := folioOf i.stamp
  let l := m.sess i.ses
  let e := m.live i.ses
  if i.item.itype ≠ 1 || i.item.id = 0 || m.maxBody i.ten < bodyWords i.item then
    (m.count (Reg.accRefused i.ten)).answerNow i .refFormat 0 folio
  else match l.table.find? fun d => d.id = i.item.id with
    | some d =>
      if d.disp = .accepted || d.disp = .duplicate then
        (m.count (Reg.accDuplicate i.ten)).answerNow i .duplicate d.accn d.folio
      else m.answerNow i d.disp d.accn d.folio
    | none =>
      if i.item.id ≤ l.h then m.answerNow i .refStale 0 0
      else if e.pending.any (fun p => p.id = i.item.id) then m
      else if i.item.id ≤ max e.r l.h then m.answerNow i .refFormat 0 folio
      else
        let (d, n, m1) := m.decide i
        let e1 := m1.live i.ses
        let m2 := m1.setLive i.ses
          { e1 with r := i.item.id
                    pending := e1.pending ++ [{ id := i.item.id, folio := folio, old := e1.conn.isNone || e1.gen ≠ i.cgen }] }
        m2.joinFolio i d n

/-- The outcome of an ACCN kept for its seat (R125): status, disposition and number. -/
def Mach.accnDone (m : Mach) (q status : Nat) (d : Disp) (n : Nat) : Mach :=
  match (m.seat q).accn with
  | some none => m.setSeat q { m.seat q with accn := some (some (status, d, n)) }
  | _ => m

/-- A core-originated item judged (R125): structure, no dedup, the gate check only where GATED is 1. -/
def Mach.judgeCore (m : Mach) (i : MergeItem) : Mach :=
  if i.badFmt || m.maxBody i.ten < i.item.body.length then
    (m.count (Reg.accRefused i.ten)).accnDone i.seat 0 .refFormat 0
  else
    let (d, n, m1) := m.decide i
    (m1.joinFolio i d n).accnDone i.seat 0 d n

/-- One item that leaves the merge (R107, R451): dropped unjudged where the role is neither ACTIVE nor SOLO. -/
def Mach.judge (m : Mach) (i : MergeItem) : Mach :=
  if !m.serving then (if i.orig then m.accnDone i.seat 2 .accepted 0 else m)
  else if i.orig then { m.judgeCore i with judged := m.judged + 1 }.count Reg.accJudged
  else { m.judgeWork i with judged := m.judged + 1 }.count Reg.accJudged

/-! ### The merge (R103, R104) -/

/-- The merge key's order (R103). -/
def mergeBefore (a b : MergeItem) : Bool :=
  if a.stamp ≠ b.stamp then a.stamp < b.stamp
  else if a.port ≠ b.port then a.port < b.port
  else if a.ses ≠ b.ses then a.ses < b.ses
  else if a.frm ≠ b.frm then a.frm < b.frm
  else a.pos ≤ b.pos

/-- An item handed to the merge. -/
def mergeAdd (i : MergeItem) : List MergeItem → List MergeItem
  | [] => [i]
  | a :: t => if mergeBefore a i then a :: mergeAdd i t else i :: a :: t

/-! ### The release rule (R120) -/

/-- The twin has acknowledged folio F, or this module holds it from the twin (R120, R151). -/
def Mach.acked (m : Mach) (f : Nat) : Bool :=
  m.pair Reg.twnAckfHi Reg.twnAckfLo ≠ 0 && f ≤ m.pair Reg.twnAckfHi Reg.twnAckfLo

/-- Whether a closed folio may be released (R120): role, lease, acknowledgement or the SOLO condition of R32, and for STORED
the confirmation of its volume. -/
def Mach.mayRelease (m : Mach) (t : Nat) (c : ClosedFolio) : Bool :=
  m.serving && m.lease && !m.twin.latch &&
    (c.held || m.acked c.folio || (m.role = 2 && (match m.twin.soloFrom with
      | some b => b < m.openFolio
      | none => true))) &&
    (c.mode ≠ 1 || m.confirmed t (volumeOf c.folio))

/-- release(t, F) (R120). -/
def Mach.release (m : Mach) (t : Nat) (c : ClosedFolio) : Mach :=
  let m1 := m.setReg (Reg.accRelptr t) (w48 c.stop)
  let m2 := if c.acc > 0 then m1.setPair (Reg.accRelmarkHi t) (Reg.accRelmarkLo t) c.lastAccn else m1
  let m3 := m2.setPair (Reg.accRelfHi t) (Reg.accRelfLo t) c.folio
  c.items.foldl (fun x j => if j.ses = 4096 then x else x.releaseItem j.ses j c.folio) m3

/-- The closed folios of a tenant released in order as far as the rule allows (R27, R120). -/
def Mach.releaseList (t : Nat) : List ClosedFolio → Mach → Mach
  | [], m => m
  | c :: cs, m =>
    if m.mayRelease t c then
      let m1 := m.release t c
      Mach.releaseList t cs (m1.setAcc t { m1.acc t with closed := cs })
    else m

/-- The release rule for every tenant, and the RELEASE frames it makes (R92, R120). -/
def Mach.releaseAll (m : Mach) : Mach :=
  let m1 := allTenants.foldl (fun x t => Mach.releaseList t (x.acc t).closed x) m
  m1.openSessions.foldl Mach.flush m1

/-! ### REPLY items (R189, R191) -/

/-- A STORE item's volume is held (R191): in ACTIVE the twin has acknowledged its last folio, in SOLO step 1 is complete for
it. -/
def Mach.volumeHeld (m : Mach) (v : Option (Nat × Nat)) : Bool :=
  match v with
  | none => true
  | some (_, vol) => if m.role = 1 then m.acked (16 * vol + 15) else m.role = 2 && 16 * vol + 15 < m.openFolio

/-- One waiting REPLY item put in a frame where its connection has credit and room, its volume is held, and no earlier item of
its job on the session waits (R189). A POSTED slip ends OK then. -/
def Mach.placeReply (m : Mach) (r : ReplyWait) : Mach :=
  let e := m.live r.ses
  match e.conn with
  | none => m
  | some c =>
    let earlier := m.replies.takeWhile fun x => x ≠ r
    if r.placed.isSome || !hasRoom c || c.plim ≤ c.nextReply || !m.volumeHeld r.volume ||
        earlier.any (fun x => x.ctx = r.ctx && x.ses = r.ses && x.placed.isNone) then m
    else
      let m1 := m.setLive r.ses { e with conn := some { c with nextReply := c.nextReply + 1 } }
      let m2 := m1.connSend r.ses 8 0 (.items [r.item])
      let seq := (c.txseq + 1) % 2 ^ 32
      if r.posted then
        let m3 : Mach := { m2 with
          replies := m2.replies.filter fun x => x ≠ r
          jobs := m2.jobs.map fun j => if j.1 = r.ctx then (j.1, { j.2 with posted := j.2.posted ++ [(r.ses, seq, false)] }) else j }
        m3.wakeJob r.ctx 0 0
      else { m2 with replies := m2.replies.map fun x => if x = r then { r with placed := some seq } else x }

/-- Every waiting REPLY item that can go out goes out, in the order they were given. -/
def Mach.flushReplies (m : Mach) : Mach := m.replies.foldl Mach.placeReply m

/-! ### Back-pressure (R122) -/

/-- One cause of back-pressure given for a tenant; at the end of back-pressure the tenant's sessions get CREDIT frames
(R90). -/
def Mach.setBp (m : Mach) (t : Nat) (f : Fld) (b : Bool) : Mach :=
  let m1 := m.setFld (Reg.accBp t) f (b2n b)
  if m.backPressed t && !m1.backPressed t then m1.creditTenant t else m1

/-- SPACE judged at a boundary or a tail write (R122). -/
def Mach.refreshSpace (m : Mach) (t : Nat) : Mach :=
  let q := max (m.reg (Reg.accLastw t)).toNat (fget (m.eff (Reg.accCtl t)) F.accCtlMinres * 64)
  let free := m.ringFree t
  if free < 2 * q then m.setBp t F.accBpSpace true
  else if 3 * q ≤ free then m.setBp t F.accBpSpace false
  else m

/-! ### Folio close (R118, R119, R452) -/

/-- The 16 words of a folio header (R118). -/
def headerWords (t mode folio : Nat) (refomit forced : Bool) (recs first acc words root : Nat) : List Word :=
  [ w48 (0xF * 2 ^ 44 + 16 * 2 ^ 34 + t * 2 ^ 30 + mode * 2 ^ 28 + b2n refomit * 2 ^ 27 + b2n forced * 2 ^ 26
      + folio / 2 ^ 48 % 16),
    w48 folio, w48 (recs * 2 ^ 24 + first / 2 ^ 48 % 65536), w48 first, w48 (acc * 2 ^ 24 + words) ] ++ hashWords root

/-- A ledger-state write by the module itself: the written view at once, the effective view at the next boundary (R57). -/
def Mach.ledgerWrite (m : Mach) (a : Nat) (mask v : Word) : Mach :=
  (m.setReg a ((m.reg a &&& ~~~ mask) ||| (v &&& mask))).pendWrite (.reg a mask v)

/-- The close of tenant `t`'s folio `f` (R118, R119): its header written over the root of its leaves; the root kept for the
volume; and accession disabled where fewer than 512 free words remain (R452). -/
def Mach.closeTenant (m : Mach) (f : Nat) (forced : Bool) (t : Nat) : Mach :=
  let m0 := m.reserveHeader t
  let a := m0.acc t
  let root := folioRoot t f a.leaves
  let first := if a.acc = 0 then m0.nextAccn t else a.firstAccn
  let hdr := a.hdr.getD 0
  let m1 := m0.ringWrite t hdr (headerWords t (m0.inForce.mode t) f a.refomit forced a.recs first a.acc a.recWords root)
  let stop := (m1.reg (Reg.accHead t)).toNat
  let c : ClosedFolio :=
    { folio := f, start := (stop + m1.ringWords t - a.words) % max 1 (m1.ringWords t), stop := stop, mode := m0.inForce.mode t, acc := a.acc, lastAccn := first + a.acc - 1, items := a.items
      held := false, words := a.words, root := root, recWords := a.recWords }
  let m2 := m1.setAcc t { a with
    hdr := none, items := [], leaves := [], acc := 0, recs := 0, recWords := 0, words := 0, firstAccn := 0, refomit := false
    fullNoted := false, closed := a.closed ++ [c], closedTo := some f }
  let m3 := m2.setReg (Reg.accLastw t) (w48 a.words)
  let m4 := { m3 with sealing := { m3.sealing with roots := m3.sealing.roots ++ [(t, f, root)] } }
  if m4.ringFree t < 512 && m4.bit (Reg.accCtl t) F.accCtlEn then
    (m4.ledgerWrite (Reg.accCtl t) (fmask F.accCtlEn) 0).notice t 0x0A (w48 f)
  else m4

/-- Every tenant enabled in folio `f` has it closed; ACC_LASTF and ACC_PEAK (R119, R128). -/
def Mach.closeTenants (m : Mach) (f : Nat) (forced : Bool) : Mach :=
  let m1 := allTenants.foldl (fun x t => if x.inForce.accEn t then x.closeTenant f forced t else x) m
  let m2 := m1.setPair Reg.accLastfHi Reg.accLastfLo f
  { m2.setReg Reg.accPeak (w48 (max (m2.reg Reg.accPeak).toNat m2.judged)) with judged := 0 }

/-! ### ACC_ register writes (R113, R129, R130) -/

/-- ACC_ERR given. -/
def Mach.accError (m : Mach) (t k : Nat) : Mach := m.setReg (Reg.accErr t) (w48 k)

/-- The entry type and length a ring word gives (R114). -/
def entryType (w : Word) : Nat := nbits w.toNat 47 44
def entryLen (w : Word) : Nat := nbits w.toNat 43 34

/-- The offsets at which entries start, walking from `off` to `stop` round a ring of `size` words. -/
def walkRing (rd : Nat → Word) (size stop : Nat) : Nat → Nat → List (Nat × Nat)
  | 0, _ => []
  | n + 1, off =>
    if off = stop then [(off, 16)]
    else
      let w := rd off
      let len := entryLen w
      if len = 0 then [(off, entryType w)] else (off, entryType w) :: walkRing rd size stop n ((off + len) % max 1 size)

/-- A write of ACC_TAIL (R113): taken where the offset is the start of a header or PAD between TAIL and RELPTR, or is RELPTR
itself; USED falls and SPACE is judged again. -/
def Mach.accTail (m : Mach) (w : Who) (t : Nat) (v : Word) : Mach :=
  if !w.ofTen t then m
  else if m.ledgerBarred then m.accError t 6
  else
    let size := m.ringWords t
    let tail := (m.reg (Reg.accTail t)).toNat
    let rel := (m.reg (Reg.accRelptr t)).toNat
    let off := v.toNat % 2 ^ 32
    let ok := size ≠ 0 && off < size &&
      (walkRing (fun o => m.word (m.ringAddr t o)) size rel size tail).any fun e =>
        e.1 = off && (e.2 = 0xF || e.2 = 0xE || e.2 = 16)
    if ok then
      let d := (off + size - tail) % size
      (((m.setReg (Reg.accTail t) (w48 off)).setReg (Reg.accUsed t) (w48 ((m.reg (Reg.accUsed t)).toNat - d))).accError t 0).refreshSpace t
    else m.accError t 1

/-- Whether [a, a + n) and [b, b + k) share a word. -/
def overlaps (a n b k : Nat) : Bool := n ≠ 0 && k ≠ 0 && a < b + k && b < a + n

/-- The ring at `base` of `pages` pages overlaps another enabled tenant's ring, or the seal roll (R129). -/
def Mach.ringOverlap (m : Mach) (t base pages : Nat) : Bool :=
  (allTenants.any fun u => u ≠ t && m.bit (Reg.accCtl u) F.accCtlEn &&
    overlaps base (pages * 4096) (m.ringAddr u 0) (m.ringWords u)) ||
  overlaps base (pages * 4096) (m.reg Reg.sealRbase).toNat ((m.reg Reg.sealRsize).toNat * 4096)

/-- A write of ACC_DBBASE or ACC_DBSIZE from the strongroom (R112, R129): checked for ROLE, RUNNING, SIZE and OVERLAP; where
it takes effect head, tail and release pointer go to 0. -/
def Mach.accRing (m : Mach) (w : Who) (t : Nat) (size : Bool) (v : Word) : Mach :=
  if !w.sr then m
  else if m.ledgerBarred then m.accError t 6
  else if m.bit (Reg.accCtl t) F.accCtlEn || m.accEn t || m.reg (Reg.accUsed t) ≠ 0 then m.accError t 2
  else
    let base := if size then (m.reg (Reg.accDbbase t)).toNat else v.toNat % 2 ^ 32 / 4096 * 4096
    let pages := if size then v.toNat % 2 ^ 20 else (m.reg (Reg.accDbsize t)).toNat
    if (1 ≤ pages && pages ≤ 255) || memWords < base + pages * 4096 then m.accError t 4
    else if m.ringOverlap t base pages then m.accError t 3
    else
      let m1 := if size then m.setReg (Reg.accDbsize t) (w48 pages) else m.setReg (Reg.accDbbase t) (w48 base)
      (((m1.setReg (Reg.accHead t) 0).setReg (Reg.accTail t) 0).setReg (Reg.accRelptr t) 0).accError t 0

/-- A write of ACC_CTL by T00 software or from the strongroom (R119, R130): it pends to the boundary; a reserved MAXBODY keeps its
value (R9). -/
def Mach.accCtlSet (m : Mach) (w : Who) (t : Nat) (v : Word) : Mach :=
  if !w.house then m
  else if m.ledgerBarred then m.accError t 6
  else
    let old := m.reg (Reg.accCtl t)
    let en := fbit v F.accCtlEn
    if en && !fbit old F.accCtlEn && m.ringWords t = 0 then m.accError t 4
    else if en && !fbit old F.accCtlEn && m.ringOverlap t (m.ringAddr t 0) (m.ringWords t / 4096) then m.accError t 3
    else
      let mask := fmask F.accCtlEn ||| fmask F.accCtlRefrec ||| fmask F.accCtlKey ||| fmask F.accCtlMinres |||
        (if fget v F.accCtlMaxbody > 248 then 0 else fmask F.accCtlMaxbody)
      (m.ledgerWrite (Reg.accCtl t) mask v).accError t 0

/-- A write of ACC_QUOTA by tenant `t` or T00 (R130). -/
def Mach.accQuotaSet (m : Mach) (w : Who) (t : Nat) (v : Word) : Mach :=
  if !w.ofTen t then m
  else if m.ledgerBarred then m.accError t 6
  else (m.ledgerWrite (Reg.accQuota t) (w48 (2 ^ 24 - 1)) v).accError t 0

/-- A write of ACC_NEXT from the strongroom (R129, R130): only before the tenant's first issue, and not while it runs. -/
def Mach.accNextSet (m : Mach) (w : Who) (t : Nat) (hi : Bool) (v : Word) : Mach :=
  if !w.sr then m
  else if m.ledgerBarred then m.accError t 6
  else if m.bit (Reg.accCtl t) F.accCtlEn || m.accEn t || m.reg (Reg.accUsed t) ≠ 0 then m.accError t 2
  else if (m.acc t).issued || m.pair (Reg.accRelmarkHi t) (Reg.accRelmarkLo t) ≠ 0 then m.accError t 5
  else
    (if hi then m.setReg (Reg.accNextHi t) (w48 (v.toNat % 65536)) else m.setReg (Reg.accNextLo t) v).accError t 0

end Sys2Proof.Machine
end

