-- ==== Sys2Proof/Machine/Seals.lean ====
section
/-! DEFINITION. Seals and the seal roll (R163 to R177, R453): the volume root, the root queue, the record, the append, the
holder's checks and the SEAL_ registers. -/

namespace Sys2Proof.Machine

open Sys2Proof

/-! ### The volume root (R164) -/

/-- vleaf(t, F, r) (R164). -/
def volumeLeaf (t folio r : Nat) : Nat :=
  (sha3_512 (3#8 :: (octetsBE 1 t ++ octetsBE 7 folio ++ hashOctets r))).toNat

/-- The root of (t, F) among roots held; the empty root where none is held (R163). -/
def rootOf (roots : List (Nat × Nat × Nat)) (t folio : Nat) : Nat :=
  match roots.find? fun e => e.1 = t && e.2.1 = folio with
  | some e => e.2.2
  | none => folioRoot t folio []

/-- vroot(V, mask, R) (R164). -/
def volumeRoot (v mask : Nat) (roots : List (Nat × Nat × Nat)) : Nat :=
  let ts := allTenants.filter fun t => nbit mask t
  let leaves := ts.flatMap fun t => (List.range 16).map fun j => volumeLeaf t (16 * v + j) (rootOf roots t (16 * v + j))
  if leaves.isEmpty then (sha3_512 (4#8 :: octetsBE 6 v)).toNat else treeRoot leaves

/-! ### Queue and state (R168, R170, R171) -/

/-- SEAL_USED: words from tail to head (R176). -/
def Mach.rollUsed (m : Mach) : Nat :=
  ((m.reg Reg.sealHead).toNat + m.rollWords - (m.reg Reg.sealTail).toNat) % max 1 m.rollWords

/-- The strongroom pauses sealing (R170). -/
def Mach.sealPaused (m : Mach) : Bool := m.bit Reg.sealStat F.sealStatPaused

/-- ROLLFULL, BACKLOG and SEALSTOP as the roll and the queue stand (R170, R171); a full queue fences the module. -/
def Mach.refreshSeal (m : Mach) : Mach :=
  let n := m.sealing.queue.length
  let m1 := m.sealAlarm F.sealStatRollfull (m.rollWords ≠ 0 && m.rollWords - m.rollUsed < 1600)
  let m2 := m1.sealAlarm F.sealStatBacklog (m.serving && 256 < n)
  let full := if m.serving then 1024 ≤ n else 1088 < n
  let m3 := m2.sealAlarm F.sealStatSealstop full
  (if full then m3.fence else m3).refreshRun

/-- Signing starts on the oldest volume of the queue where the module serves, is not paused and has room; a record takes 4
folios (R169). -/
def Mach.startSign (m : Mach) : Mach :=
  if m.sealing.signDone.isNone && m.serving && !m.sealPaused && !m.sealing.queue.isEmpty then
    { m with sealing := { m.sealing with signDone := some (m.now + 16384) } }
  else m

/-- A pause of sealing begins: the signature in progress is discarded (R170). -/
def Mach.pauseSeal (m : Mach) : Mach :=
  ({ m with sealing := { m.sealing with signDone := none } }.setFld Reg.sealStat F.sealStatPaused 1).refreshRun

/-- The pause ends. -/
def Mach.resumeSeal (m : Mach) : Mach := ((m.setFld Reg.sealStat F.sealStatPaused 0).startSign).refreshRun

/-- The tenants whose accession is enabled, as a mask. -/
def Mach.enMask (m : Mach) : Nat := (allTenants.filter fun t => m.accEn t).foldl (fun a t => a + 2 ^ t) 0

/-- A folio of the open volume starts: the tenants enabled at its start join the volume's mask (R163). -/
def Mach.sealFolioStart (m : Mach) : Mach :=
  { m with sealing := { m.sealing with mask := m.sealing.mask ||| m.enMask } }

/-- Volume `v` closes at RT `closeRt` (R168, R453): its collected roots enter the queue where the module serves and EN was
effective at the close, and leave the collection in any case. -/
def Mach.closeVolume (m : Mach) (v closeRt mask : Nat) (forced valid sealed own : Bool) : Mach :=
  let r : RootVol :=
    { volume := v, mask := mask, roots := m.sealing.roots.filter fun e => volumeOf e.2.1 = v, rtValid := valid
      closeRt := closeRt, forced := forced, own := own }
  let s := { m.sealing with roots := m.sealing.roots.filter fun e => volumeOf e.2.1 ≠ v }
  if m.serving && sealed then (({ m with sealing := { s with queue := s.queue ++ [r] } } : Mach).startSign).refreshSeal
  else { m with sealing := s }

/-- A new volume opens: its mask and FORCED flag start afresh (R163, R165). -/
def Mach.openVolume (m : Mach) (forced : Bool) : Mach := { m with sealing := { m.sealing with mask := 0, forced := forced } }

/-- SEAL_CTL.EN in the effective view. -/
def Mach.sealEn (m : Mach) : Bool := fbit (m.eff Reg.sealCtl) F.sealCtlEn

/-! ### The record (R165 to R167) -/

/-- W0 to W5, PREV and ROOT of a seal: the 28 words of M (R165). -/
def sealWords (r : RootVol) (epoch : Nat) (keyid : Word) (no prev root : Nat) : List Word :=
  [ w48 (5 * 2 ^ 44 + 800 * 2 ^ 34 + r.mask * 2 ^ 18 + b2n r.forced * 2 ^ 17 + b2n r.rtValid * 2 ^ 16 + b2n (!r.own) * 2 ^ 15),
    w48 r.volume, w48 (secOf r.closeRt), w48 (fracOf r.closeRt * 2 ^ 24 + epoch), keyid, w48 no ] ++
  hashWords prev ++ hashWords root

/-- Words written to the seal ring with type tag 00 and key SEAL_CTL.KEY. -/
def Mach.rollWrite (m : Mach) : Nat → List Word → Mach
  | _, [] => m
  | off, w :: ws =>
    let a := m.rollAddr off
    (m.ledgerPut a { m.coh a with key := BitVec.ofNat 4 (m.fld Reg.sealCtl F.sealCtlKey), tag := 0, pay := w }).rollWrite
      (off + 1) ws

/-- A record of 800 words appended, after a PAD where it would cross the ring end; the head moves past it (R169, R171). -/
def Mach.appendRecord (m : Mach) (ws : List Word) : Mach :=
  let size := m.rollWords
  let head := (m.reg Reg.sealHead).toNat
  let p := padNeed size head 800
  let m1 := m.rollWrite head (padWords p)
  let off := (head + p) % max 1 size
  let m2 := m1.rollWrite off ws
  let m3 := m2.setReg Reg.sealHead (w48 ((off + 800) % max 1 size))
  let m4 := (m3.setReg Reg.sealLastv (ws.getD 1 0)).setReg Reg.sealLastno (ws.getD 5 0)
  { m4 with sealing := { m4.sealing with prev := chainHash (ws.take 28) } }

/-- The seals whose volume the twin has acknowledged go out in SEALS, in order (R172). -/
def Mach.sendSeals : Nat → Mach → Mach
  | 0, m => m
  | n + 1, m =>
    match m.sealing.unsent with
    | [] => m
    | u :: us =>
      if m.serving && m.acked (16 * u.vol.volume + 15) && m.twin.linkUp && m.twin.authed then
        let size := m.rollWords
        let off := (u.head + padNeed size u.head 800) % max 1 size
        let m1 := m.twinSend (.seals [m.wordsAt (m.rollAddr off) 800])
        Mach.sendSeals n { m1 with sealing := { m1.sealing with unsent := us } }
      else m

/-- The signature of the oldest queued volume is done: its record is appended and the next one starts (R169, R173). -/
def Mach.sealAppend (m : Mach) : Mach :=
  match m.sealing.queue, m.sealing.signDone with
  | r :: q, some d =>
    if m.now < d || !m.serving || m.sealPaused || m.rollWords - m.rollUsed < 1600 then m
    else
      let no := (m.reg Reg.sealLastno).toNat + 1
      let root := volumeRoot r.volume r.mask r.roots
      let ws := sealWords r m.epoch (m.reg Reg.sealKeyid) no (if no = 1 then 0 else m.sealing.prev) root
      let (h, m0) := m.draw
      let sig := wordsOfOctets 772 ((identitySign h (octetsOfWords ws) "PFL4800-SEAL").take 4627)
      let u : SealRec :=
        { vol := r, head := (m.reg Reg.sealHead).toNat, lastv := (m.reg Reg.sealLastv).toNat
          lastno := (m.reg Reg.sealLastno).toNat, prev := m.sealing.prev }
      let m1 := m0.appendRecord (ws ++ sig)
      let m2 : Mach := { m1 with sealing := { m1.sealing with
        queue := q, signDone := none, unsent := m1.sealing.unsent ++ [u] } }
      (m2.startSign.refreshSeal).sendSeals 1100
  | _, _ => m

/-! ### The holder's checks (R172) -/

/-- The words of the seal with number `no` in the roll, from the tail on. -/
def Mach.sealByNo (m : Mach) (no : Nat) : Option (List Word) :=
  let es := walkRing (fun o => (m.coh (m.rollAddr o)).pay) m.rollWords (m.reg Reg.sealHead).toNat m.rollWords
    (m.reg Reg.sealTail).toNat
  (es.filter fun e => e.2 = 5).findSome? fun e =>
    let ws := m.wordsAt (m.rollAddr e.1) 28
    if ws.getD 5 0 = w48 no then some ws else none

/-- The five checks of R172 on a received record. `pk` is the twin's public key. -/
def Mach.sealGood (m : Mach) (pk : List Octet) (ws : List Word) : Bool :=
  let w0 := ws.getD 0 0
  let mm := ws.take 28
  let sig := ((octetsOfWords (ws.drop 28))).take 4627
  let last := (m.reg Reg.sealLastno).toNat
  entryType w0 = 5 && entryLen w0 = 800 && ws.length = 800 && (ws.getD 5 0).toNat = last + 1 &&
  hashOfWords ((ws.drop 6).take 11) = (if last = 0 then 0 else m.sealing.prev) &&
  ws.getD 4 0 = m.reg Reg.sealPeerkeyid &&
  (match m.sealing.queue.find? fun r => r.volume = (ws.getD 1 0).toNat with
    | some r => hashOfWords ((ws.drop 17).take 11) = volumeRoot r.volume (nbits w0.toNat 33 18) r.roots
    | none => false) &&
  Config.mldsaVerify pk (octetsOfWords mm) "PFL4800-SEAL" sig

/-- A shipped tail write that waits is applied once the head has reached it (R171). -/
def Mach.applyTailWait (m : Mach) : Mach :=
  match m.sealing.tailWait with
  | some t =>
    if t = (m.reg Reg.sealHead).toNat ||
      ((walkRing (fun o => (m.coh (m.rollAddr o)).pay) m.rollWords (m.reg Reg.sealHead).toNat m.rollWords
        (m.reg Reg.sealTail).toNat).any fun e => e.1 = t) then
      { m with sealing := { m.sealing with tailWait := none } }.setReg Reg.sealTail (w48 t)
    else m
  | none => m

/-- One record of a SEALS message at the holder (R172): a repeat is passed over, a good record is appended at the same
offset, any other counts in SEAL_VERFAIL. -/
def Mach.takeSeal (pk : List Octet) (m : Mach) (ws : List Word) : Mach :=
  let no := (ws.getD 5 0).toNat
  if no ≤ (m.reg Reg.sealLastno).toNat && m.sealByNo no = some (ws.take 28) then m
  else if m.sealGood pk ws then
    let m1 := ((m.appendRecord ws).count Reg.sealVerified).sealAlarm F.sealStatVerfail false
    let m2 : Mach := { m1 with sealing := { m1.sealing with
      queue := m1.sealing.queue.filter fun r => r.volume ≠ (ws.getD 1 0).toNat } }
    m2.applyTailWait.refreshSeal
  else (m.count Reg.sealVerfail).sealAlarm F.sealStatVerfail true

/-! ### SEAL_ register writes (R171, R176, R177) -/

/-- SEAL_ERR given. -/
def Mach.sealError (m : Mach) (k : Nat) : Mach := m.setReg Reg.sealErr (w48 k)

/-- A write of SEAL_TAIL by T00 software or the strongroom (R171): taken where the offset is the head, or the start of a seal
or PAD between tail and head. -/
def Mach.sealTailSet (m : Mach) (w : Who) (v : Word) : Mach :=
  if !w.house then m
  else if m.ledgerBarred then m.sealError 5
  else
    let size := m.rollWords
    let head := (m.reg Reg.sealHead).toNat
    let off := v.toNat % 2 ^ 32
    let ok := size ≠ 0 && off < size &&
      (walkRing (fun o => m.word (m.rollAddr o)) size head size (m.reg Reg.sealTail).toNat).any fun e =>
        e.1 = off && (e.2 = 5 || e.2 = 0xE || e.2 = 16)
    if ok then (((m.setReg Reg.sealTail (w48 off)).sealError 0).refreshSeal).startSign else m.sealError 1

/-- The roll at `base` of `pages` pages overlaps a daybook ring of an enabled tenant (R176). -/
def Mach.rollOverlap (m : Mach) (base pages : Nat) : Bool :=
  allTenants.any fun u => m.bit (Reg.accCtl u) F.accCtlEn && overlaps base (pages * 4096) (m.ringAddr u 0) (m.ringWords u)

/-- A write of SEAL_CTL (0), SEAL_RBASE (1) or SEAL_RSIZE (2) from the strongroom (R176): EN, RBASE and RSIZE pend to the
boundary, KEY acts at once. -/
def Mach.sealCtlSet (m : Mach) (w : Who) (i : Nat) (v : Word) : Mach :=
  if !w.sr then m
  else if m.ledgerBarred then m.sealError 5
  else if i = 0 then
    if fbit v F.sealCtlEn && (m.reg Reg.sealRsize).toNat = 0 then m.sealError 4
    else
      ((m.setFld Reg.sealCtl F.sealCtlKey (fget v F.sealCtlKey)).ledgerWrite Reg.sealCtl (fmask F.sealCtlEn) v).sealError 0
  else
    let base := if i = 1 then v.toNat % 2 ^ 32 / 4096 * 4096 else (m.reg Reg.sealRbase).toNat
    let pages := if i = 1 then (m.reg Reg.sealRsize).toNat else v.toNat % 2 ^ 20
    if m.bit Reg.sealCtl F.sealCtlEn || fbit (m.eff Reg.sealCtl) F.sealCtlEn || m.rollUsed ≠ 0 then m.sealError 2
    else if (1 ≤ pages && pages ≤ 63) || memWords < base + pages * 4096 then m.sealError 4
    else if m.rollOverlap base pages then m.sealError 3
    else if i = 1 then (m.ledgerWrite Reg.sealRbase (w48 0xFFFFF000) (w48 base)).sealError 0
    else (m.ledgerWrite Reg.sealRsize (w48 0xFFFFF) (w48 pages)).sealError 0

end Sys2Proof.Machine
end

