-- ==== Sys2Proof/Machine/MemOps.lean ====
section
/-! DEFINITION. Memory as the module's engines use it: poison (R326, R327), a carrel's translation and checks (R184, R229,
R341), engine reads and writes, and the marked-page log (R216 to R219). -/

namespace Sys2Proof.Machine

open Sys2Proof

/-! ### Poison (R326, R327) -/

/-- A poisoned container (R326). -/
def poisonCont : Cont := { key := 0, tag := 3, chg := true, pay := 0 }

/-- Whether address `a` lies within `n` words of a ring of `size` words at `base`, from offset `tail` on. -/
def inRing (base size tail n a : Nat) : Bool :=
  base ≤ a && a < base + size && (a - base + size - tail) % max 1 size < n

/-- Ledger-critical addresses (R327): the used part of an enabled tenant's daybook ring, or of the seal roll. -/
def Mach.ledgerCritical (m : Mach) (a : Nat) : Bool :=
  (allTenants.any fun t => m.accEn t &&
    inRing (m.reg (Reg.accDbbase t)).toNat (m.ringWords t) (m.reg (Reg.accTail t)).toNat (m.reg (Reg.accUsed t)).toNat a) ||
  inRing (m.eff Reg.sealRbase).toNat m.rollWords (m.reg Reg.sealTail).toNat m.rollUsed a

/-- A fault that counts as the loss of the whole module (R33): the fence latch, and both transmitters stop, so that ALIVE_OUT
falls and the twin takes over. -/
def Mach.moduleLost (m : Mach) : Mach :=
  let m1 := m.fenceBarred
  { m1 with twin := { m1.twin with loopFailed := true } }

/-- What ledger-critical poison does (R327): the loss of the module, and MEM_ALARM.LEDGER. -/
def Mach.ledgerPoison (m : Mach) : Mach := m.moduleLost.memAlarm F.memAlarmLedger true

/-- The container at `a` poisoned (R326): counted, named in MEM_LASTPOISON, IS0024. -/
def Mach.poison (m : Mach) (a : Nat) : Mach :=
  let m1 := ((m.setCont a poisonCont).count Reg.memPoisoned).setReg Reg.memLastpoison (w48 a)
  let m2 := if m1.bit Reg.memAlarm F.memAlarmPoison then m1.raise 24 else m1.memAlarm F.memAlarmPoison true
  if m2.ledgerCritical a then m2.ledgerPoison else m2

/-! ### Engine reads and writes of physical memory -/

/-- What a command leaves, unless it would newly dirty a line of the mirror while the lines that wait exceed the bound (R146), or
would have more than 2,048 lines wait for a training (R330): then it waits, and nothing has happened yet. -/
def Mach.stalled (m r : Mach) : Mach :=
  if (m.mirLate && r.twin.dirty.any fun l => !m.twin.dirty.contains l) || 2048 < r.memst.writeQ.length then m else r

/-- The vault: the 512 pages from word 0xFFE0_0000 (R351). -/
def vaultAddr (a : Nat) : Bool := 0xFFE00000 ≤ a && a < 2 ^ 32

/-- A container written by a clerk engine or lane at a physical address: a write into a marked page of a tag other than 0b10
stores it poisoned (R333). -/
def Mach.engPut (m : Mach) (a : Nat) (c : Cont) : Mach :=
  if m.srAddr a && c.tag ≠ 2 then (m.snoopLine none (lineOf a)).poison a else m.put a c

/-- Whether a container is lost: its device has failed in a group that is BROKEN, and no stacks or unit hold its line (R329). -/
def Mach.contLost (m : Mach) (p : Nat) : Bool :=
  let g := groupOf (lineOf p)
  m.grpState g = 2 && m.devState (devOf g (p / 8 % 8)) = 2 && !m.inStacks (lineOf p)

/-! ### A carrel's translation (R184, R213, R229) -/

/-- An entry of a translation table: index `i` of the table at page `p`. -/
def Mach.tableWord (m : Mach) (p i : Nat) : Nat := (m.coh (p * 4096 + i)).pay.toNat

/-- The bits of an entry that are reserved: [42:20] at both levels, and at level 1 also W, X, T, S and PAGE [1:0] (R229). -/
def entryBad (l1 : Bool) (e : Nat) : Bool := nbits e 42 20 ≠ 0 || (l1 && (nbits e 46 43 ≠ 0 || e % 4 ≠ 0))

/-- A word that an open-world engine or lane may not reach: of tag 0b10, or in a marked page (R341). -/
def Mach.engBarred (m : Mach) (sr : Bool) (p : Nat) : Bool := !sr && (m.srAddr p || (m.coh p).tag = 2)

/-- Translation through a carrel's context for D-space (R184, R229): the physical address, or XLATE, or PROTECT where a table's word
is barred to the engine (R341). A carrel's table lies under neither core root, so an entry with S set gives no translation. -/
def Mach.carXlate (m : Mach) (c : Nat) (sr : Bool) (a : Nat) (write : Bool) : Except (Nat × Nat) Nat :=
  let t1 := fget (m.reg (Reg.carCtx c)) F.carCtxPage
  let i1 := nbits a 39 26
  let l1 := m.tableWord t1 i1
  if m.engBarred sr (t1 * 4096 + i1) then .error (3, 0)
  else if !nbit l1 47 || entryBad true l1 then .error (5, 0)
  else
    let t2 := nbits l1 19 0
    let i2 := nbits a 25 12
    let l2 := m.tableWord t2 i2
    if m.engBarred sr (t2 * 4096 + i2) then .error (3, 0)
    else if !nbit l2 47 || entryBad false l2 || nbit l2 43 || nbit l2 45 || (write && !nbit l2 46) then .error (5, 0)
    else .ok (nbits l2 19 0 * 4096 + a % 4096)

/-- The storage key of a carrel. -/
def Mach.carKey (m : Mach) (c : Nat) : BitVec 4 := BitVec.ofNat 4 (fget (m.reg (Reg.carCtx c)) F.carCtxKey)

/-- The physical address of a D-space word for a job's read or write, after the checks of R341, R197 and R230. -/
def Mach.carPhys (m : Mach) (c : Nat) (sr : Bool) (a : Nat) (write : Bool) : Except (Nat × Nat) Nat :=
  match m.carXlate c sr a write with
  | .error e => .error e
  | .ok p =>
    let k := m.coh p
    if (write && vaultAddr p) || m.engBarred sr p then .error (3, 0)
    else if k.tag = 3 || m.contLost p then (if write then .ok p else .error (7, 0))
    else if k.key ≠ m.carKey c then .error (6, 0)
    else .ok p

/-- A line of a translation table met by an engine's read: a buffered copy leaves the buffer (R285). -/
def Mach.metTable (m : Mach) (p i : Nat) : Mach := m.snoopRead none (lineOf (p * 4096 + i))

/-- The lines that an engine's read of word `a` of a carrel's D-space meets: its tables' and its own (R285, R289). -/
def Mach.metWord (m : Mach) (c : Nat) (sr : Bool) (a : Nat) : Mach :=
  let t1 := fget (m.reg (Reg.carCtx c)) F.carCtxPage
  let l1 := m.tableWord t1 (nbits a 39 26)
  let m1 := m.metTable t1 (nbits a 39 26)
  let m2 := if nbit l1 47 then m1.metTable (nbits l1 19 0) (nbits a 25 12) else m1
  match m.carXlate c sr a false with
  | .ok p => m2.snoopRead none (lineOf p)
  | .error _ => m2

/-- The lines that an engine's read of `n` words from `a` on meets: a copy in an eviction buffer leaves it (R285). -/
def Mach.met (m : Mach) (c : Nat) (sr : Bool) (a n : Nat) : Mach :=
  if m.seats.all fun e => e.2.evb.isEmpty then m
  else (List.range ((a % 64 + n + 63) / 64)).foldl (fun x i => x.metWord c sr (64 * (a / 64 + i) % 2 ^ 40)) m

/-- A D-space word read for a job (R187, R197). -/
def Mach.carRead (m : Mach) (c : Nat) (sr : Bool) (a : Nat) : Except (Nat × Nat) Word :=
  (m.carPhys c sr a false).map fun p => (m.coh p).pay

/-- The container a job's write leaves (R187, R341): the carrel's key, tag data, or strongroom where a strongroom engine
writes a marked page; the change bit stays (R334). -/
def Mach.carCont (m : Mach) (c : Nat) (sr : Bool) (p : Nat) (v : Word) : Cont :=
  { key := m.carKey c, tag := if sr && m.srAddr p then 2 else 0, chg := (m.coh p).chg, pay := v }

/-- A D-space word written for a job. -/
def Mach.carWrite (m : Mach) (c : Nat) (sr : Bool) (a : Nat) (v : Word) : Except (Nat × Nat) Mach :=
  (m.carPhys c sr a true).map fun p => m.engPut p (m.carCont c sr p v)

/-- `n` D-space words read for a job from address `a` on. -/
def Mach.carReadN (m : Mach) (c : Nat) (sr : Bool) : Nat → Nat → Except (Nat × Nat) (List Word)
  | _, 0 => .ok []
  | a, n + 1 => do
    let w ← m.carRead c sr (a % 2 ^ 40)
    let ws ← m.carReadN c sr (a + 1) n
    .ok (w :: ws)

/-! ### The marked-page log (R216 to R219) -/

/-- LOGOVF of tenant `t` (R217). -/
def Mach.logOvf (m : Mach) (t : Nat) : Bool := m.bit (Reg.tenStat t) F.tenStatLogovf

/-- A word of the bitmap or the log written for a job, with the tag its world gives (R341); a word the engine may not reach, or of
the vault, is not written, and the answer is true. -/
def Mach.markPut (m : Mach) (sr : Bool) (a : Nat) (v : Word) : Bool × Mach :=
  if m.engBarred sr a || vaultAddr a then (true, m)
  else (false, m.put a { m.coh a with pay := v, tag := if sr && m.srAddr a then 2 else 0 })

/-- A log entry for virtual page `v` (R217); true where the log lies out of the engine's reach (R341). -/
def Mach.logEntry (m : Mach) (sr : Bool) (t v : Nat) : Bool × Mach :=
  if m.logOvf t then (false, m)
  else if 65536 ≤ m.fld (Reg.tenStat t) F.tenStatLogcnt then (false, m.setFld (Reg.tenStat t) F.tenStatLogovf 1)
  else
    let h := (m.reg (Reg.tenMplhead t)).toNat % 65536
    let w := w48 ((m.fld (Reg.tenMplctl t) F.tenMplctlEpochno) * 2 ^ 40 + v)
    match m.markPut sr ((m.reg (Reg.tenMplbase t)).toNat + h) w with
    | (true, m1) => (true, m1)
    | (false, m1) =>
      (false, (m1.setReg (Reg.tenMplhead t) (w48 ((h + 1) % 65536))).setFld (Reg.tenStat t) F.tenStatLogcnt
        (m1.fld (Reg.tenStat t) F.tenStatLogcnt + 1))

/-- The bit of virtual page `v` in the bitmap of tenant `t`: its word's address and its place. -/
def Mach.markAddr (m : Mach) (t v : Nat) : Nat := (m.reg (Reg.tenMpbmbase t)).toNat + v / 32

/-- A write to virtual page `v` marks it (R217); true where the bitmap or the log lies out of the engine's reach (R341). -/
def Mach.markPage (m : Mach) (sr : Bool) (t v : Nat) : Bool × Mach :=
  let size := (m.reg (Reg.tenMpbmsize t)).toNat
  let a := m.markAddr t v
  if !m.bit (Reg.tenMplctl t) F.tenMplctlEn || size = 0 then (false, m)
  else if size * 131072 ≤ v then (false, if m.logOvf t then m else m.setFld (Reg.tenStat t) F.tenStatLogovf 1)
  else
    let old := (m.coh a).pay
    if m.engBarred sr a then (true, m)
    else if !m.clearing.contains t && nbit old.toNat (v % 32) then (false, m)
    else match m.markPut sr a (old ||| w48 (2 ^ (v % 32))) with
      | (true, m1) => (true, m1)
      | (false, m1) => m1.logEntry sr t v

/-- Every page of a list of written addresses marked once, in the order they were written (R216, R217); true where one could not
be. -/
def Mach.markAll (m : Mach) (sr : Bool) (t : Nat) (as : List Nat) : Bool × Mach :=
  ((as.map fun a => a / 4096 % 2 ^ 28).eraseDups).foldl (fun x v =>
    let r := x.2.markPage sr t v
    (x.1 || r.1, r.2)) (false, m)

/-- D-space words written for a job of tenant `t` in the order given, up to the first that faults: how many, the fault if any,
and the state, the pages marked (R187, R216). -/
def Mach.carWrites (c : Nat) (sr : Bool) : List (Nat × Word) → Nat → Mach → Nat × Option (Nat × Nat) × Mach
  | [], n, m => (n, none, m)
  | (a, v) :: l, n, m =>
    match m.carWrite c sr a v with
    | .ok m1 => Mach.carWrites c sr l (n + 1) m1
    | .error e => (n, some e, m)

/-- As `carWrites`, with the pages marked; a mark out of the engine's reach is PROTECT (R341). -/
def Mach.jobWrites (m : Mach) (t c : Nat) (sr : Bool) (l : List (Nat × Word)) : Nat × Option (Nat × Nat) × Mach :=
  let (n, e, m1) := Mach.carWrites c sr l 0 m
  let r := m1.markAll sr t ((l.take n).map Prod.fst)
  (n, if e.isNone && r.1 then some (3, 0) else e, r.2)

end Sys2Proof.Machine
end

