-- ==== Sys2Proof/Machine/Bells.lean ====
section
/-! DEFINITION. Bells and game gates (R51, R54 to R61, R63, R450), and the boundary at which ledger-state writes become
effective (R57). -/

namespace Sys2Proof.Machine

open Sys2Proof

/-- The actions of a bell that move a gate (R54). -/
def gateAction (act : Word) : Bool := fget act F.bellActAction = 1 || fget act F.bellActAction = 2

/-- A bell's written time. -/
def Mach.bellTime (m : Mach) (b : Nat) : Nat := m.rtReg (Reg.bellTsec b) (Reg.bellTfrac b)

/-- The bells armed in the written view (R450, R61). -/
def Mach.armedBells (m : Mach) : List Nat :=
  (List.range 1024).filter fun b => m.bit (Reg.bellAct b) F.bellActArm

/-- A gate's key in the written view. -/
def Mach.gateWritten (m : Mach) (g : Nat) : Word := m.reg (Reg.gateKey g)

/-- The gates in use in the written view (R61), by the registers that differ from reset. -/
def Mach.usedGates (m : Mach) : List Nat :=
  ((m.ledger.regs.filter fun e => 0x28000 ≤ e.1 && e.1 < 0x30000 && e.1 % 8 = 0 && fbit e.2 F.gateKeyEn).map
    fun e => (e.1 - 0x28000) / 8)

/-- Whether another armed bell in the written view satisfies `p` of its BELL_ACT word, by the registers that differ from
reset. -/
def Mach.someBell (m : Mach) (b : Nat) (p : Word → Bool) : Bool :=
  m.ledger.regs.any fun e => 0x21000 ≤ e.1 && e.1 < 0x22000 && e.1 % 4 = 2 && e.1 ≠ Reg.bellAct b &&
    fbit e.2 F.bellActArm && p e.2

/-- The first check of R56 that a BELL_ACT write fails, as the code of BELL_STAT.ERR; 0 where it passes. -/
def Mach.bellCheck (m : Mach) (b : Nat) (v : Word) : Nat :=
  let old := m.reg (Reg.bellAct b)
  let arm := fbit v F.bellActArm
  let act := fget v F.bellActAction
  let tgt := fget v F.bellActTarget
  let soon : Bool := m.bellTime b < m.rt + 32768
  if m.ledgerBarred then 7
  else if arm && fbit old F.bellActArm then 3
  else if act = 0 || 7 ≤ act then 5
  else if arm && gateAction v && fget v F.bellActRepeat ≠ 0 then 6
  else if arm && gateAction v && (!fbit (m.gateWritten tgt) F.gateKeyEn ||
      fget (m.gateWritten tgt) F.gateKeyTenant ≠ fget v F.bellActOwner) then 4
  else if arm && gateAction v && m.someBell b (fun w => fget w F.bellActAction = act && fget w F.bellActTarget = tgt) then 2
  else if arm && gateAction v && soon then 1
  else if !arm && fbit old F.bellActArm && gateAction old && soon then 1
  else 0

/-- BELL_STAT.ERR given. -/
def Mach.bellErr (m : Mach) (b k : Nat) : Mach := m.setFld (Reg.bellStat b) F.bellStatErr k

/-- A write of BELL_ACT from the strongroom (R56): recorded in the written view and pending, or refused with its code. -/
def Mach.bellActSet (m : Mach) (w : Who) (b : Nat) (v : Word) : Mach :=
  if !w.sr then m
  else
    let k := m.bellCheck b v
    if k ≠ 0 then m.bellErr b k
    else
      let act := v &&& 0xFFFFFF800FFF
      (((m.setReg (Reg.bellAct b) act).pendWrite (.bell b (m.bellTime b) act))).bellErr b 0

/-- A write of BELL_TSEC or BELL_TFRAC from the strongroom (R56): refused with ARMED while the bell is armed, and with ROLE
outside ACTIVE and SOLO; else seen in the written view and pending, for the two views differ only while a write is (R450). -/
def Mach.bellTimeSet (m : Mach) (w : Who) (b : Nat) (frac : Bool) (v : Word) : Mach :=
  if !w.sr then m
  else if m.ledgerBarred then m.bellErr b 7
  else if m.bit (Reg.bellAct b) F.bellActArm then m.bellErr b 3
  else
    let x := if frac then m.setReg (Reg.bellTfrac b) (w48 (v.toNat % 2 ^ 24)) else m.setReg (Reg.bellTsec b) (w48 (v.toNat % 2 ^ 40))
    x.pendWrite (.bell b (x.bellTime b) (x.reg (Reg.bellAct b)))

/-- A write of GATE_KEY from the strongroom (R61, R63): checked for ROLE, NOGATE and DUPKEY, then pending. "A gate bell targets the
gate" is read of armed bells only: a disarmed entry that still names the gate does not keep EN (DEDUCED, log 108). -/
def Mach.gateKeySet (m : Mach) (w : Who) (g : Nat) (v : Word) : Mach :=
  if !w.sr then m
  else
    let key := v &&& 0x800F00000FFF
    let dup : Bool := m.usedGates.any fun h => h ≠ g && fget (m.gateWritten h) F.gateKeyTenant = fget key F.gateKeyTenant &&
      fget (m.gateWritten h) F.gateKeyGame = fget key F.gateKeyGame
    if m.ledgerBarred then m.setFld (Reg.gateStat g) F.gateStatErr 7
    else if !fbit key F.gateKeyEn && m.someBell 1024 (fun a => gateAction a && fget a F.bellActTarget = g) then
      m.setFld (Reg.gateStat g) F.gateStatErr 4
    else if fbit key F.gateKeyEn && dup then m.setFld (Reg.gateStat g) F.gateStatErr 8
    else ((m.setReg (Reg.gateKey g) key).pendWrite (.gate g key)).setFld (Reg.gateStat g) F.gateStatErr 0

/-! ### Effective at the boundary (R55, R57) -/

/-- An RT put in a pair of seconds and fraction registers. -/
def Mach.setRt (m : Mach) (sec frac rt : Nat) : Mach := (m.setReg sec (w48 (secOf rt))).setReg frac (w48 (fracOf rt))

/-- A bell write becomes effective (R55, R59): arming a gate bell loads its time into the gate, disarming one sets what it
loaded to NEVER; a slip that waits for a bell disarmed without firing ends NOBELL (R193). -/
def Mach.applyBell (m : Mach) (b time : Nat) (act : Word) : Mach :=
  let old := m.ebell b
  let g := fget old.act F.bellActTarget
  let m1 :=
    if fbit old.act F.bellActArm && !fbit act F.bellActArm then
      let m0 :=
        if fget old.act F.bellActAction = 1 then m.setRt (Reg.gateOpenSec g) (Reg.gateOpenFrac g) rtNever
        else if fget old.act F.bellActAction = 2 then m.setRt (Reg.gateCloseSec g) (Reg.gateCloseFrac g) rtNever
        else m
      (m0.jobs.filter fun j => j.2.wait = .bell b).foldl (fun x j => x.wakeJob j.1 0x0A 0) m0
    else m
  let h := fget act F.bellActTarget
  let m2 :=
    if fbit act F.bellActArm then
      if fget act F.bellActAction = 1 then
        let m0 := m1.setRt (Reg.gateOpenSec h) (Reg.gateOpenFrac h) time
        if m0.rtReg (Reg.gateCloseSec h) (Reg.gateCloseFrac h) ≤ time then
          m0.setRt (Reg.gateCloseSec h) (Reg.gateCloseFrac h) rtNever
        else m0
      else if fget act F.bellActAction = 2 then m1.setRt (Reg.gateCloseSec h) (Reg.gateCloseFrac h) time
      else m1
    else m1
  m2.setEbell b { time := time, act := act, late := fbit act F.bellActArm && time < m.rt, since := m.now }

/-- A gate key becomes effective; enabling a gate makes its state BEFORE, disabling one DISABLED (R63). -/
def Mach.applyGate (m : Mach) (g : Nat) (key : Word) : Mach :=
  let was := fbit (m.egate g) F.gateKeyEn
  let m1 := m.setEgate g key
  if fbit key F.gateKeyEn then (if was then m1 else m1.setFld (Reg.gateStat g) F.gateStatState 1)
  else m1.setFld (Reg.gateStat g) F.gateStatState 0

/-- A ledger-state register write becomes effective. A change of the seal roll's place starts it at offset 0; a change of
ACC_CTL.EN sets or clears the back-pressure cause DISABLED (R122). -/
def Mach.applyReg (m : Mach) (a : Nat) (mask v : Word) : Mach :=
  let m1 := m.setEff a ((m.eff a &&& ~~~ mask) ||| (v &&& mask))
  if a = Reg.sealRbase || a = Reg.sealRsize then (m1.setReg Reg.sealHead 0).setReg Reg.sealTail 0
  else if 0x81000 ≤ a && a < 0x82000 && a % 256 = 0 && mask &&& fmask F.accCtlEn ≠ 0 then
    let t := (a - 0x81000) / 256
    m1.setBp t F.accBpDisabled (!m1.accEn t)
  else m1

/-- A session entry freed (R85, R102). -/
def Mach.freeSession (m : Mach) (s : Nat) : Mach :=
  let k := m.retireErr s
  if k = 0 then (m.setSess s {}).setLive s { gen := (m.live s).gen } else m.sesErr s k

/-- TWN_MIRSTAT.SEEDING (R144): lines of a marked page still wait to be sent or acknowledged. -/
def Mach.refreshSeeding (m : Mach) : Mach :=
  m.setFld Reg.twnMirstat F.twnMirstatSeeding (b2n (!m.twin.seedQ.isEmpty || !m.twin.seeding.isEmpty))

/-- A mirror mark or unmark becomes effective (R144): the 64 lines of a page newly marked wait to be sent where a twin holds this
module's folios; those of an unmarked page wait no longer. -/
def Mach.applyMirror (m : Mach) (page : Nat) (set : Bool) : Mach :=
  let here := fun (x : Nat) => x / 64 = page
  let l := if set then setIns page m.ledger.mirror else setDel page m.ledger.mirror
  let t :=
    if set then
      if m.twin.shipping && !m.ledger.mirror.contains page then
        { m.twin with seedQ := m.twin.seedQ ++ (List.range 64).map (64 * page + ·) }
      else m.twin
    else
      { m.twin with
        seedQ := m.twin.seedQ.filter fun x => !here x
        seeding := m.twin.seeding.filter fun x => x.1 ≠ page
        dirty := m.twin.dirty.filter fun x => !here x }
  (({ m with ledger := { m.ledger with mirror := l }, twin := t } : Mach).setFld Reg.twnMirstat F.twnMirstatCount
    l.length).refreshSeeding

/-- One pending write becomes effective (R57). -/
def Mach.applyWrite (m : Mach) (w : LWrite) : Mach :=
  match w with
  | .bell b t a => m.applyBell b t a
  | .gate g k => m.applyGate g k
  | .reg a mask v => m.applyReg a mask v
  | .storage s v => m.setSess s { m.sess s with storage := v }
  | .retire s => m.freeSession s
  | .mirPage p b => m.applyMirror p b

/-- All pending writes become effective together, in the order written (R57). -/
def Mach.applyPend (m : Mach) : Mach :=
  let m0 : Mach := { m with ledger := { m.ledger with pend := [] } }
  (m.ledger.pend.foldl Mach.applyWrite m0).refreshSeal

/-! ### Firing (R59, R60) -/

/-- A bell is due: armed in the effective view with its time reached; one that is late fires in a later tick (R59). -/
def Mach.bellDue (m : Mach) (b : Nat) : Bool :=
  let e := m.ebell b
  fbit e.act F.bellActArm && e.time ≤ m.rt && (!e.late || e.since < m.now)

/-- The first repeat of a bell's time that lies later than RT (R60). -/
def nextRepeat (old step rt : Nat) : Nat := old + ((rt - old) / step + 1) * step

/-- A key roll (R366): every slot whose ROLLTAG equals the tag takes ROLLED, KEY_ROLLEV takes the tag and IS0026 rises. -/
def Mach.keyRoll (m : Mach) (tag : Nat) : Mach :=
  let m1 := (List.range 256).foldl (fun x k =>
    if x.fld (Reg.kxSstat k) F.kxSstatRolltag = tag && tag ≠ 0 then x.setFld (Reg.kxSstat k) F.kxSstatRolled 1 else x) m
  let m2 := m1.setReg Reg.kxRollev
    (fset (fset (m1.reg Reg.kxRollev) F.kxRollevTag tag) F.kxRollevCount (m1.fld Reg.kxRollev F.kxRollevCount + 1))
  m2.raise 26

/-- A new purse period (R405). -/
def Mach.pursePeriod (m : Mach) : Mach :=
  let m1 := m.setReg Reg.enPurse (m.reg Reg.enPursenext)
  ((m1.setReg Reg.enLastperiod (m1.reg Reg.enPeriodspend)).setReg Reg.enPeriodspend 0).count Reg.enPeriods

/-- The action of a bell at its tick (R54). INTERRUPT makes OWNER the tenant of the source's route (DEDUCED, log 102). -/
def Mach.bellAction (m : Mach) (act : Word) : Mach :=
  let tgt := fget act F.bellActTarget
  match fget act F.bellActAction with
  | 1 => ((m.setFld (Reg.gateStat tgt) F.gateStatState 2).setReg (Reg.gateAccepted tgt) 0).setReg (Reg.gateClosedref tgt) 0
  | 2 => m.setFld (Reg.gateStat tgt) F.gateStatState 3
  | 3 => (m.setFld (Reg.intRoute (64 + tgt % 64)) F.intRouteTenant (fget act F.bellActOwner)).raise (64 + tgt % 64)
  | 4 => m.stkTrigger 1
  | 5 => m.keyRoll tgt
  | 6 => m.pursePeriod
  | _ => m

/-- A pending write of bell `b` follows the bell's time where it did not give another (R60, R450). -/
def moveBell (b old new : Nat) (w : LWrite) : LWrite :=
  match w with
  | .bell k t a => if k = b && t = old then .bell k new a else w
  | _ => w

/-- After firing (R60): a one-shot bell disarms, a repeating bell takes its next time; in both views (R450). A newer arming or a
newer time that is pending stays as it was written (DEDUCED, log 101). -/
def Mach.bellAfter (m : Mach) (b : Nat) : Mach :=
  let e := m.ebell b
  let n := fget e.act F.bellActRepeat
  let newer := m.ledger.pend.any fun w => match w with
    | .bell k _ _ => k = b
    | _ => false
  if n = 0 then
    let m1 := m.setEbell b { e with act := fset e.act F.bellActArm 0, late := false }
    if newer then m1 else m1.setFld (Reg.bellAct b) F.bellActArm 0
  else
    let t := nextRepeat e.time (n * 4096) m.rt
    let m1 := m.setEbell b { e with time := t, late := false }
    let m2 : Mach := { m1 with ledger := { m1.ledger with pend := m1.ledger.pend.map (moveBell b e.time t) } }
    if m.bellTime b = e.time then m2.setRt (Reg.bellTsec b) (Reg.bellTfrac b) t else m2

/-- Bell `b` fires (R59): only when due, with the boundary of the present folio behind it and no lower bell due. -/
def Mach.bellFire (m : Mach) (b : Nat) : Mach :=
  if m.up && m.bellDue b && folioOf m.rt = m.openFolio && !((m.ledger.bells.any fun e => e.1 < b && m.bellDue e.1)) then
    let e := m.ebell b
    let st := fset (m.reg (Reg.bellStat b)) F.bellStatFired 1
    let m1 := m.setReg (Reg.bellStat b) (if e.late then fset st F.bellStatLate 1 else st)
    let m2 := (m1.jobs.filter fun j => j.2.wait = .bell b).foldl (fun x j => x.wakeJob j.1 0 0) m1
    (m2.bellAction e.act).bellAfter b
  else m

/-- Bells whose times a forward load skips fire late in the next tick (R59). -/
def Mach.skipBells (m : Mach) (old new : Nat) : Mach :=
  { m with ledger := { m.ledger with bells := m.ledger.bells.map fun e =>
      (e.1, if fbit e.2.act F.bellActArm && old < e.2.time && e.2.time < new then { e.2 with late := true, since := m.now }
        else e.2) } }

/-! ### Derived registers (R63) -/

/-- BELL_PENDING: bell and gate writes not yet effective. -/
def Mach.bellPending (m : Mach) : Nat :=
  (m.ledger.pend.filter fun w => match w with
    | .bell _ _ _ => true
    | .gate _ _ => true
    | _ => false).length

/-- BELL_STAT with PEND (R57). -/
def Mach.bellStatRead (m : Mach) (b : Nat) : Word :=
  fset (m.reg (Reg.bellStat b)) F.bellStatPend (b2n (m.ledger.pend.any fun w => match w with
    | .bell k _ _ => k = b
    | _ => false))

/-- GATE_STAT with PEND (R57). -/
def Mach.gateStatRead (m : Mach) (g : Nat) : Word :=
  fset (m.reg (Reg.gateStat g)) F.gateStatPend (b2n (m.ledger.pend.any fun w => match w with
    | .gate k _ => k = g
    | _ => false))

end Sys2Proof.Machine
end

