-- ==== Sys2Proof/Machine/Energy.lean ====
section
/-! DEFINITION. The energy ledger, the purse, the planner and gating (R346, R396 to R410). What a folio costs each block is a
free value; the sums the rules fix are kept exactly. -/

namespace Sys2Proof.Machine

open Sys2Proof

/-! ### Tallies (R396 to R399) -/

/-- A tally raised by free rises: the register's free rise and the new state. -/
def Mach.tallyFree (m : Mach) (a : Nat) : Nat × Mach :=
  let (d, m1) := m.draw
  (d, m1.count a d)

/-- The sum of the free rises of registers, each raised. -/
def Mach.talliesFree : List Nat → Mach → Nat × Mach
  | [], m => (0, m)
  | a :: as, m =>
    let (d, m1) := m.tallyFree a
    let (s, m2) := Mach.talliesFree as m1
    (d + s, m2)

/-- Cluster `c`: its ten pair slots, its stacks and the rest of it (R397). Answers the rise of the pair slots and that of the
others. -/
def Mach.tallyCluster (m : Mach) (c : Nat) : Nat × Nat × Mach :=
  let (s, m1) := Mach.talliesFree ((List.range 10).map fun i => Reg.enTally (4 + 10 * c + i)) m
  let (k, m2) := m1.tallyFree (Reg.enTally (0x2C + c))
  let (r, m3) := m2.draw
  (s, k + r, m3.count (Reg.enTally c) (s + k + r))

/-- All four clusters. -/
def Mach.tallyClusters : List Nat → Mach → Nat × Nat × Mach
  | [], m => (0, 0, m)
  | c :: cs, m =>
    let (p, d, m1) := m.tallyCluster c
    let (q, s, m2) := Mach.tallyClusters cs m1
    (p + q, d + s, m2)

/-- A total charged over registers: a free part to each of `as`, what is left to `last`, so that the rises sum to the total
(R399). Answers the rises with the state. -/
def Mach.charge (last : Nat) : List Nat → Nat → Mach → List (Nat × Nat) × Mach
  | [], left, m => ([(last, left)], m.count last left)
  | a :: as, left, m =>
    let (f, m1) := m.draw
    let d := f % (left + 1)
    let (l, m2) := Mach.charge last as (left - d) (m1.count a d)
    ((a, d) :: l, m2)

/-- The rises of a register in a list of charges, added. -/
def riseOf (l : List (Nat × Nat)) (a : Nat) : Nat := ((l.filter fun e => e.1 = a).map Prod.snd).sum

/-- The tallies of the blocks from `i` on. -/
def blockTallies (i n : Nat) : List Nat := (List.range n).map fun k => Reg.enTally (i + k)

/-- All tallies updated at a boundary from the folio just ended (R396, R397, R399); answers the total's rise and the charges of the
classes. The remainder goes to T00; the port groups, the accession unit, the twin engine and link, the seal engine and the remainder
to C0; the pair slots to C0 and C1; the shares within what R399 leaves to measured proportions are free (log 133). -/
def Mach.tallyUpdate (m : Mach) : (Nat × List (Nat × Nat)) × Mach :=
  let (cores, others, m1) := Mach.tallyClusters [0, 1, 2, 3] m
  let (ports, m2) := Mach.talliesFree (blockTallies 0x30 8) m1
  let (engines, m3) := Mach.talliesFree (blockTallies 0x38 5) m2
  let (fixed, m4) := Mach.talliesFree (blockTallies 0x3D 4) m3
  let (rest, m5) := m4.tallyFree (Reg.enTally 0x41)
  let tot := cores + others + ports + engines + fixed + rest
  let m6 := (m5.count (Reg.enTally 0x42) tot).count (Reg.enTtally 0) rest
  let (_, m7) := Mach.charge (Reg.enTtally 0) ((List.range 15).map fun i => Reg.enTtally (i + 1)) (tot - rest) m6
  let c0 := ports + fixed + rest
  let (k1, m8) := Mach.charge (Reg.enCtally 0) [Reg.enCtally 1] cores (m7.count (Reg.enCtally 0) c0)
  let (k2, m9) := Mach.charge (Reg.enCtally 0) ((List.range 3).map fun i => Reg.enCtally (i + 1)) (others + engines) m8
  ((tot, (Reg.enCtally 0, c0) :: k1 ++ k2), m9.count Reg.enPeriodspend tot)

/-! ### The planner (R402, R403) -/

/-- Whether class `k` is deferred. -/
def Mach.deferred (m : Mach) (k : Nat) : Bool := (k = 2 && m.en.defer2) || (k = 3 && m.en.defer3)

/-- The spends of class `k` in its last 16 undeferred folios, newest first (R402). -/
def Mach.classHist (m : Mach) (k : Nat) : List Nat := tabGet (fun _ => []) m.en.hist k

/-- The projection of class `k` after a folio in which it spent `d` (R402): the mean over its last 16 undeferred folios,
rounded down; before 16 folios since reset, the nameplate model's, a free value; held while the class is deferred. -/
def Mach.project (m : Mach) (k d : Nat) : Mach :=
  if m.deferred k then m
  else
    let h := (d :: m.classHist k).take 16
    let m1 : Mach := { m with en := { m.en with hist := tabInsert k h m.en.hist } }
    if m.en.folios + 1 < 16 then
      let (f, m2) := m1.draw
      m2.setReg (Reg.enProj k) (w48 (f % 2 ^ 32))
    else m1.setReg (Reg.enProj k) (w48 (h.sum / h.length % 2 ^ 32))

/-- The clock of a cluster in EN_CLK, and its floor. -/
def clkOf (w : Word) (c : Nat) : Nat := nbits w.toNat (2 * c + 1) (2 * c)

/-- Every cluster's clock given by `f` of its clock and floor. -/
def Mach.setClocks (m : Mach) (f : Nat → Nat → Nat) : Mach :=
  let clk := m.reg Reg.enClk
  let flo := m.reg Reg.enClkfloor
  m.setReg Reg.enClk (w48 (((List.range 4).map fun c => f (clkOf clk c) (clkOf flo c) * 4 ^ c).sum))

/-- The alarms that follow from EXCEEDED and the deferrals; each change raises IS0028, a rise of EXCEEDED posts
PURSE-EXCEEDED to T00 (R408). -/
def Mach.enAlarms (m : Mach) (exceeded : Bool) : Mach :=
  let old := m.reg Reg.enAlarm
  let new := fset (fset (fset old F.enAlarmExceeded (b2n exceeded)) F.enAlarmDefer2 (b2n m.en.defer2)) F.enAlarmDefer3
    (b2n m.en.defer3)
  if new = old then m
  else
    let m1 := (m.setReg Reg.enAlarm new).raise 28
    if exceeded && !fbit old F.enAlarmExceeded then m1.notice 0 0x09 0 else m1

/-- The purse that governs a boundary: EN_PURSENEXT where a PURSE_PERIOD bell is due in its tick (R405). -/
def Mach.purseNow (m : Mach) : Nat :=
  if m.ledger.bells.any fun e => fget e.2.act F.bellActAction = 6 && m.bellDue e.1 then (m.reg Reg.enPursenext).toNat % 65536
  else (m.reg Reg.enPurse).toNat % 65536

/-- The planner's decision at a folio boundary (R403). Comparisons with the allowance A = P x 10^6 / 4096 and with 0.9 A are
exact. -/
def Mach.plan (m : Mach) : Mach :=
  let p := m.purseNow
  let pr := fun k => (m.reg (Reg.enProj k)).toNat
  let beyond := fun q => p * 1000000 < q * 4096
  let above90 := fun q => 9 * p * 1000000 < q * 40960
  let deferTo := fun d2 d3 => ({ m with en := { m.en with defer2 := d2, defer3 := d3 } } : Mach)
  if p = 0 then ((deferTo false false).setClocks fun _ f => max 2 f).enAlarms false
  else
    let q1 := pr 0 + pr 1
    let q2 := q1 + pr 2
    let q3 := q2 + pr 3
    if beyond (pr 0) then ((deferTo true true).setClocks fun _ f => f).enAlarms true
    else
      let d3 := if m.en.defer3 && (m.en.defer2 || above90 q3) then true else beyond q3
      let d2 := if m.en.defer2 && above90 q2 then true else beyond q2
      let m1 := deferTo d2 d3
      let m2 :=
        if d2 && d3 && beyond q1 then m1.setClocks fun c f => max f (c - 1)
        else if !d2 && !d3 && !above90 q3 then m1.setClocks fun c f => max f (min 2 (c + 1))
        else m1.setClocks fun c f => max c f
      m2.enAlarms false

/-- The energy work of a folio boundary: tallies, projections, decision (R396, R402, R403). -/
def Mach.energyBoundary (m : Mach) : Mach :=
  let ((_, ks), m1) := m.tallyUpdate
  let spend := fun k => riseOf ks (Reg.enCtally k)
  let m2 := [0, 1, 2, 3].foldl (fun x k => x.project k (spend k)) m1
  { m2 with en := { m2.en with folios := m2.en.folios + 1 } }.plan

/-- The coefficients calibrated once each RT second from 16 seconds after MODULE reset: MODEL reads 0 from then on (R398). -/
def Mach.calibrate (m : Mach) : Mach :=
  if 16 ≤ m.fld Reg.enStat F.enStatAge && m.bit Reg.enStat F.enStatModel then
    ((m.setFld Reg.enStat F.enStatModel 0).setFld Reg.enAlarm F.enAlarmModel 0).raise 28
  else m

/-! ### Leases and gating (R345, R346, R406, R407) -/

/-- A strongroom lease on block `b` is held: a grant that has not ended, or the seal engine's hardware lease (R345). -/
def Mach.leaseHeld (m : Mach) (b : Nat) : Bool :=
  (match tfind m.sr.leases b with
    | some t => m.now < t
    | none => false) ||
  (b = 0 && m.serving && fbit (m.eff Reg.sealCtl) F.sealCtlEn)

/-- The world attribute's register of a block (R338, R358): 0 for the seal engine's fixed attribute. -/
def attrReg (b : Nat) : Nat :=
  if 0x10 ≤ b then Reg.srAttrCe (b - 0x10) else if 9 ≤ b then Reg.srAttrXl (b - 9) else Reg.srAttrKl (b - 1)

/-- The world attribute of a block (R338). -/
def Mach.blockSr (m : Mach) (b : Nat) : Bool := b = 0 || m.bit (attrReg b) F.srAttrPortSr

/-- A block is gated (R406). -/
def Mach.gated (m : Mach) (b : Nat) : Bool := m.bit (Reg.enGate b) F.enGateGated

/-- A gating request for block `b` applied: REQ or AUTO given, GATED following both (R406). -/
def Mach.gateApply (m : Mach) (b : Nat) (auto on : Bool) : Mach :=
  let w := m.reg (Reg.enGate b)
  let w1 := if auto then fset w F.enGateAuto (b2n on) else fset w F.enGateReq (b2n on)
  let g := if auto then on || (fbit w F.enGateReq && !m.sr.deferred.any fun d => d.1 = b && !d.2.1) else on || fbit w F.enGateAuto
  m.setReg (Reg.enGate b) (fset w1 F.enGateGated (b2n g))

/-- A gating request by software or the planner (R346, R406): deferred with DEFERRED-SR while a lease on the block is held,
unless it comes from the strongroom. -/
def Mach.gateRequest (m : Mach) (sr : Bool) (b : Nat) (auto on : Bool) : Mach :=
  let m0 : Mach := { m with sr := { m.sr with deferred := m.sr.deferred.filter fun d => d.1 ≠ b } }
  if on && !sr && m.leaseHeld b then
    let m1 : Mach := { m with sr := { m.sr with deferred := (m.sr.deferred.filter fun d => d.1 ≠ b) ++ [(b, auto, on)] } }
    let m2 := m1.setFld (Reg.srLease b) F.srLeaseDefer 1
    (if auto then m2 else m2.setFld (Reg.enGate b) F.enGateReq 1).setFld (Reg.enGate b) F.enGateRes 1
  else ((m0.setFld (Reg.srLease b) F.srLeaseDefer 0).gateApply b auto on).setFld (Reg.enGate b) F.enGateRes 0

/-- The blocks of R406: cipher lanes, compression lanes, clerk engines. -/
def gateBlock (b : Nat) : Bool := (1 ≤ b && b ≤ 0xC) || (0x10 ≤ b && b ≤ 0x4F)

/-- A write of EN_GATE[b] (R406, R410). -/
def Mach.enGateSet (m : Mach) (w : Who) (b : Nat) (v : Word) : Mach :=
  if !gateBlock b || !w.house || (m.blockSr b && !w.sr) then m else m.gateRequest w.sr b false (fbit v F.enGateReq)

end Sys2Proof.Machine
end

