-- ==== Sys2Proof/Machine/Twin.lean ====
section
/-! DEFINITION. Twin operation (R131 to R162): paths and heartbeats, the takeover decision, taking a role, the shipment at
the source and at the holder, handover, synchronisation and the TWN_ registers. -/

namespace Sys2Proof.Machine

open Sys2Proof

/-! ### Presence -/

/-- ALIVE_OUT (R137): out of MODULE reset with the loopback check passing and the sideband rail present (R435); low while no
image has started (R350). -/
def Mach.aliveOut (m : Mach) : Bool := m.up && m.committed && !m.twin.loopFailed && m.pins.sba && !m.pins.tripped

/-- The twin link carries messages (R131, R132). -/
def Mach.twinOpen (m : Mach) : Bool := m.up && m.twin.linkUp && m.twin.authed

/-- TWN_STAT.ALIVEIN (R137). -/
def Mach.aliveIn (m : Mach) : Bool := m.bit Reg.twnStat F.twnStatAlivein

/-- Both heartbeat paths are lost (R147). -/
def Mach.bothLost (m : Mach) : Bool := !m.pathA && !m.pathB

/-- TWN_LOST (R147): ticks from the later loss while both paths stay lost. -/
def Mach.lostTicks (m : Mach) : Nat :=
  if m.bothLost then min (2 ^ 32 - 1) (m.now - max m.twin.lostAtA m.twin.lostAtB) else 0

/-- The last folio acknowledged, or held (R161). -/
def Mach.ackf (m : Mach) : Nat := m.pair Reg.twnAckfHi Reg.twnAckfLo

/-- The module holds its twin's folios (R142, R157): a STANDBY, or a SYNCING module whose bulk copy is complete. -/
def Mach.holding (m : Mach) : Bool := m.role = 3 || (m.role = 4 && 3 ≤ m.syncPhase)

/-- TWN_LAG (R161): closed folios not yet acknowledged or held, where a twin follows or is followed. -/
def Mach.lag (m : Mach) : Nat :=
  if m.role = 1 || m.holding || m.twin.shipping then
    min 65535 (m.openFolio - 1 - m.ackf)
  else 0

/-- TWN_BACKLOG (R161): closed folios not yet fully shipped. -/
def Mach.shipBacklog (m : Mach) : Nat := (m.twin.ships.filter fun s => s.doneAt.isNone).length

/-- A cluster runs locked (R302): its bit of MOD_STATE.SPLIT is 0. -/
def Mach.locked (m : Mach) (c : Nat) : Bool := !nbit (m.fld Reg.modState F.modStateSplit) c

/-- The units of a cluster in a state of CLU_UNIT (R320). -/
def Mach.unitsIn (m : Mach) (c st : Nat) : List Nat :=
  (List.range (if m.locked c then 10 else 20)).filter fun u => m.fld (Reg.cluUnit c u) F.cluUnitState = st

/-- The module is healthy (R153). -/
def Mach.healthy (m : Mach) : Bool :=
  m.pathA && m.pathB && m.rtState = 3 && m.lag ≤ 1 && !m.bit Reg.memAlarm F.memAlarmDegraded &&
    ([0, 1, 2, 3].all fun c => !m.locked c || !(m.unitsIn c 1).isEmpty) && m.sealing.queue.length ≤ 16

/-- TWN_HEALTHY (R153): whole RT seconds of unbroken health. -/
def Mach.healthySecs (m : Mach) : Nat :=
  match m.twin.healthyAt with
  | some t => min (2 ^ 32 - 1) ((m.now - t) / 2 ^ 24)
  | none => 0

/-- The start of unbroken health kept up. -/
def Mach.refreshHealth (m : Mach) : Mach :=
  { m with twin := { m.twin with
      healthyAt := if m.healthy then (match m.twin.healthyAt with
        | some t => some t
        | none => some m.now) else none } }

/-- The HEALTH octet of a heartbeat (R134). -/
def Mach.healthBits (m : Mach) : Nat :=
  b2n m.pathA * 128 + b2n m.pathB * 64 + b2n m.lease * 32 + b2n (m.bit Reg.twnStat F.twnStatSynced) * 16 + b2n m.rtValid * 8 +
    b2n (m.bit Reg.modState F.modStatePref) * 4 + b2n (m.fld Reg.twnStat F.twnStatHandover ≠ 0) * 2 + b2n (!m.healthy)

/-- The epoch heartbeats carry: the proposed one while a change is pending (R134, R139). -/
def Mach.shownEpoch (m : Mach) : Nat := m.twin.pending.getD m.epoch

/-- The 72 bits of a pulse frame (R134). -/
def pulseBits (role epoch folio health : Nat) : Nat :=
  let mid := octetsBE 7 ((((1 * 16 + role) * 2 ^ 24 + epoch % 2 ^ 24) * 65536 + folio % 65536) * 256 + health)
  0xD5 * 2 ^ 64 + natOfOctets mid * 256 + crc8 mid

/-- What a pulse frame says, where its check passes and VER is 1 (R135). -/
def pulseRead (bits : Nat) : Option Heartbeat :=
  let os := octetsBE 9 bits
  if octField os 0 1 = 0xD5 && crc8 ((os.drop 1).take 7) = octField os 8 1 && octField os 1 1 / 16 = 1 then
    some { role := octField os 1 1 % 16, epoch := octField os 2 3, folio := octField os 5 2, health := octField os 7 1
           serial := 0, rt := 0 }
  else none

/-! ### Copies and roles -/

/-- No twin follows any more: shipments and the seeding of marked pages end. -/
def Mach.stopShipping (m : Mach) : Mach :=
  ({ m with twin := { m.twin with ships := [], shipping := false, hold := none, seedQ := [], seeding := [] } } : Mach).refreshSeeding

/-- Synchronisation starts: SYNCING in phase CHECK with epoch 0 (R140, R157). A module barred under R149 starts none. -/
def Mach.startSync (m : Mach) : Mach :=
  if m.twin.barred then m
  else
    let m1 : Mach := { m with twin := { m.twin with
      hold := none, syncBounds := 0, fails := [], toActive := false } }
    (((((m1.stopShipping.setRole 4).setEpoch 0).setLease false).setFld Reg.twnStat F.twnStatSynced 0).setReg Reg.twnSync 0).setPhase 1

/-- The epoch a module takes: one more than the highest it knows (R138). -/
def Mach.newEpoch (m : Mach) : Nat := max m.epoch m.twin.maxEpoch + 1

/-- A new epoch may be taken (R148, R160). -/
def Mach.epochLeft (m : Mach) : Bool := m.newEpoch ≤ 0xFFFFFF

/-- Volume `v` closes at a holder (R453): with the collected roots, it enters the queue where EN was effective at its close. -/
def Mach.holdVolume (m : Mach) (v closeRt : Nat) (valid : Bool) : Mach :=
  let r : RootVol :=
    { volume := v, mask := m.sealing.mask, roots := m.sealing.roots.filter fun e => volumeOf e.2.1 = v, rtValid := valid
      closeRt := closeRt, forced := m.sealing.forced, own := false }
  { m with sealing := { m.sealing with
      queue := if m.sealEn then m.sealing.queue ++ [r] else m.sealing.queue
      roots := m.sealing.roots.filter (fun e => volumeOf e.2.1 ≠ v), mask := 0, forced := false } }

/-- The volume of collected roots below `v` enters the holder's queue (R453): a forward load passed its end, and its close is
the new RT, at which the next folio begins (R106, R165). -/
def Mach.holdForced (m : Mach) (v rt : Nat) : Mach :=
  match (m.sealing.roots.map fun r => volumeOf r.2.1).filter (· < v) with
  | [] => m
  | u :: _ => ({ m with sealing := { m.sealing with forced := true } } : Mach).holdVolume u rt m.twin.lastValid

/-- Step 3 of R151: empty headers for the enabled tenants, folio by folio, and the volumes that end among them. -/
def Mach.emptyFolios : Nat → Nat → Mach → Mach
  | 0, _, m => m
  | n + 1, f, m =>
    let m0 := m.sealFolioStart
    let m1 := allTenants.foldl (fun x t => if x.accEn t then x.closeTenant f false t else x) m0
    let m2 := if f % 16 = 15 then
        (m1.closeVolume (volumeOf f) ((f + 1) * 4096) m1.sealing.mask m1.sealing.forced m1.rtValid m1.sealEn false).openVolume false
      else m1
    Mach.emptyFolios n (f + 1) m2

/-- A STANDBY takes the role `r` in epoch `e` (R151). -/
def Mach.takeRole (m : Mach) (r e : Nat) : Mach :=
  let h := m.ackf
  let m1 : Mach := { m with
    twin := { m.twin with
      hold := none, pending := none, toActive := false, ships := [], shipping := r == 1, fails := [] }
    ses := m.ses.map fun x => (x.1, { gen := x.2.gen })
    tacc := m.tacc.map fun x => (x.1, { closed := x.2.closed, closedTo := x.2.closedTo, issued := x.2.issued, lowNoted := x.2.lowNoted })
    sealing := { m.sealing with queue := m.sealing.queue.map fun v => { v with own := false } } }
  let m2 := ((m1.endHandover.setRole r).setLease true).setEpoch e
  let m3 : Mach := { m2 with twin := { m2.twin with soloFrom := none } }
  let m4 := (Mach.emptyFolios (m.openFolio - 1 - h) (h + 1) (m3.holdForced (volumeOf (h + 1)) ((h + 1) * 4096))).sealFolioStart
  let m5 := if r = 1 then m4.renewLease else m4
  (m5.releaseAll.startSign).refreshSeal

/-- The solo lease and the proposed epoch are obtained (R139). -/
def Mach.confirmPending (m : Mach) : Mach :=
  match m.twin.pending with
  | none => m
  | some e => (((m.setPendingEpoch none).setEpoch e).setLease true).stopShipping

/-- A STANDBY takes SOLO, or fences at the last epoch (R148, R160). -/
def Mach.promote (m : Mach) : Mach := if m.epochLeft then m.takeRole 2 m.newEpoch else m.fence

/-- An ACTIVE changes to SOLO with the solo lease at once (R148). -/
def Mach.goSolo (m : Mach) : Mach :=
  let e := m.newEpoch
  ((((m.endHandover.setRole 2).setPendingEpoch none).setEpoch e).setLease true).stopShipping

/-! ### Losing and restoring a path (R147) -/

/-- A path is lost: a SYNCING module discards its copy; both lost, no twin shows a role. -/
def Mach.losePath (m : Mach) (b : Bool) : Mach :=
  if (if b then m.pathB else m.pathA) then
    let m1 := if b then { m with twin := { m.twin with lostAtB := m.now } }.setFld Reg.twnStat F.twnStatPathb 0
      else { m with twin := { m.twin with lostAtA := m.now } }.setFld Reg.twnStat F.twnStatPatha 0
    let m2 := if m1.bothLost then (m1.setFld Reg.twnStat F.twnStatPeerrole 0).twnAlarm F.twnAlarmAlivemis false else m1
    let m3 := if m2.role = 4 && m2.syncPhase ≠ 0 then m2.syncDiscard else m2
    m3.refreshTwn.refreshHealth
  else m

/-- The twin link counts as down (R131): no message flows until it is up and authenticated again, and a shipment under way starts
again then. -/
def Mach.linkDown (m : Mach) : Mach :=
  ({ m with twin := { m.twin with
      linkUp := false, authed := false, keyMsgs := 0
      ships := m.twin.ships.map fun s => if s.doneAt.isNone then { s with left := none } else s } } : Mach).losePath false

/-- A twin-link message that fails authentication is discarded (R132): counted, and more than 16 in a folio restart the link. -/
def Mach.linkError (m : Mach) : Mach :=
  let n := if m.twin.linkErrFolio = folioOf m.rt then m.twin.linkErrs + 1 else 1
  let m1 := ({ m with twin := { m.twin with linkErrFolio := folioOf m.rt, linkErrs := n } } : Mach).count Reg.twnLinkerr
  if 16 < n then m1.linkDown else m1

/-- A message arrives on the twin link (R132, R133): discarded and counted where it fails authentication or its header word holds a
reserved code; else message `code` acts. -/
def Mach.twinRx (m : Mach) (x : TwinHead) (code : Nat) (act : Mach → Mach) : Mach :=
  let c := nbits x.head.toNat 47 40
  if !m.twinOpen then m
  else if !x.auth then m.linkError
  else if !twinCodes.contains c then m.count Reg.twnLinkerr
  else if c = code then act m
  else m

/-- The preferred unit (R152). -/
def Mach.refreshPref (m : Mach) : Mach :=
  let own := m.bit Reg.modState F.modStatePref
  let lower : Bool := Config.serial.toNat < m.pair Reg.twnPeerserHi Reg.twnPeerserLo
  (m.setFld Reg.twnStat F.twnStatPref (b2n (if own ≠ m.twin.peerPref then own else lower))).twnAlarm F.twnAlarmPrefconf
    (own = m.twin.peerPref)

/-- What a valid heartbeat leaves in the TWN_ registers (R137, R152, R161). -/
def Mach.noteTwin (m : Mach) (h : Heartbeat) : Mach :=
  let t1 : Mach := { m with twin := { m.twin with
    maxEpoch := max m.twin.maxEpoch h.epoch, peerPref := nbit h.health 2, peerValid := nbit h.health 3 } }
  let m1 := ((t1.setFld Reg.twnStat F.twnStatPeerrole h.role).setReg Reg.twnPeerepoch (w48 h.epoch)).refreshPref
  if m1.aliveIn then m1 else m1.twnAlarm F.twnAlarmAlivemis true

/-- A valid heartbeat that confirms a pending change (R139). -/
def Mach.confirmedBy (m : Mach) (h : Heartbeat) : Mach :=
  match m.twin.pending with
  | some e => if (h.role = 5 || h.role = 4) && h.epoch < e then m.confirmPending else m
  | none => m

/-- A valid heartbeat with a higher epoch at an ACTIVE, SOLO or STANDBY (R148). -/
def Mach.outranked (m : Mach) (h : Heartbeat) : Mach :=
  if h.role = 1 || h.role = 2 then m.fence.startSync else m.fence

/-- A valid heartbeat from an ACTIVE or SOLO twin at a SYNCING module (R140, R157). -/
def Mach.syncHeard (m : Mach) (h : Heartbeat) : Mach :=
  if m.syncPhase = 0 then (if m.epoch ≤ h.epoch && !m.twin.barred then m.setPhase 1 else m)
  else if 2 ≤ m.syncPhase && m.epoch ≠ 0 && m.epoch < h.epoch then m.syncDiscard.setPhase 1
  else m

/-- The role a valid heartbeat leads to (R140, R148, R157). -/
def Mach.roleHeard (m : Mach) (h : Heartbeat) : Mach :=
  let src : Bool := h.role = 1 || h.role = 2
  if m.epoch < h.epoch && (m.role = 1 || m.role = 2 || m.role = 3) then m.outranked h
  else if m.role = 3 && h.role = 5 && h.epoch = m.epoch then m.promote
  else if m.role = 5 && src && m.epoch ≤ h.epoch then m.startSync
  else if m.role = 4 && src then m.syncHeard h
  else m

/-- What every valid heartbeat does (R139, R140, R148, R157). -/
def Mach.heardTwin (m : Mach) (h : Heartbeat) : Mach :=
  ((((m.noteTwin h).confirmedBy h).roleHeard h).refreshTwn).refreshHealth

/-- A heartbeat's role and folio are valid (R135). -/
def hbValid (role folio own : Nat) : Bool := 1 ≤ role && role ≤ 5 && folio ≤ own + 1 && own ≤ folio + 1

/-- A HEARTBEAT message (R133, R135): an invalid one is counted and otherwise ignored. -/
def Mach.hearA (m : Mach) (h : Heartbeat) : Mach :=
  if hbValid h.role h.folio (folioOf m.rt) then
    let d : Int := max (-(2 ^ 31)) (min (2 ^ 31 - 1) ((h.rt : Int) - (m.rt : Int)))
    let m1 := ({ m with twin := { m.twin with lastA := m.now } } : Mach).setFld Reg.twnStat F.twnStatPatha 1
    let m2 := ((m1.setReg Reg.twnSkew (w48 (unsgn 32 d))).setReg Reg.twnPeerserHi (w48 (h.serial / 2 ^ 48 % 65536))).setReg
      Reg.twnPeerserLo (w48 h.serial)
    m2.heardTwin h
  else m.count Reg.twnLinkerr

/-- A pulse frame (R134, R135): the low 16 bits of the folio numbers are compared. -/
def Mach.hearB (m : Mach) (bits : Nat) : Mach :=
  match pulseRead bits with
  | none => m.count Reg.twnPulseerr
  | some h =>
    let d := (h.folio + 65536 - folioOf m.rt % 65536) % 65536
    if 1 ≤ h.role && h.role ≤ 5 && (d ≤ 1 || d = 65535) then
      (({ m with twin := { m.twin with lastB := m.now } } : Mach).setFld Reg.twnStat F.twnStatPathb 1).heardTwin h
    else m.count Reg.twnPulseerr

/-! ### The shipment at the source (R141, R143, R145) -/

/-- `n` words of a tenant's ring from an offset, in the one or two pieces the ring end makes (R142). -/
def ringPieces (size off n : Nat) : List (Nat × Nat) :=
  if n = 0 then [] else if off + n ≤ size then [(off, n)] else [(off, size - off), (0, off + n - size)]

/-- The lines that may still be sent in the present folio (R144, R146): TWN_MIRBUDGET a folio, shipments and seeding together
(DESIGN CHOICE, log 119). -/
def Mach.lineRoom (m : Mach) : Nat := m.mirBudget - (if m.twin.lineFolio = m.openFolio then m.twin.lineCount else 0)

/-- Lines of mirrored pages sent as they stand now, and counted (R145). -/
def Mach.sendLines (m : Mach) (ls : List Nat) : Mach :=
  let m1 := ls.foldl (fun x l => x.twinSend (.lines (64 * l) ((List.range 64).map fun k => x.cont (64 * l + k)))) m
  { m1 with twin := { m1.twin with
      lineFolio := m.openFolio
      lineCount := (if m.twin.lineFolio = m.openFolio then m.twin.lineCount else 0) + ls.length } }

/-- A shipment is under way: begun, and its lines not all sent. -/
def Mach.inShipment (m : Mach) : Bool := m.twin.ships.any fun s => s.doneAt.isNone && s.left.isSome

/-- Lines of newly marked pages go out between shipments, within the budget (R144); a page whose last line has gone waits for the
acknowledgement of this folio. -/
def Mach.sendSeeds (m : Mach) : Mach :=
  if m.twinOpen && m.twin.shipping && !m.inShipment && !m.twin.seedQ.isEmpty then
    let now := m.twin.seedQ.take m.lineRoom
    let rest := m.twin.seedQ.drop m.lineRoom
    let pages := ((now.map (· / 64)).eraseDups).filter fun p => rest.all fun l => l / 64 ≠ p
    let m1 := m.sendLines now
    { m1 with twin := { m1.twin with seedQ := rest, seeding := m1.twin.seeding ++ pages.map fun p => (p, m.openFolio) } }
  else m

/-- A ship of folio `f` given. -/
def Mach.putShip (m : Mach) (f : Nat) (g : Ship → Ship) : Mach :=
  { m with twin := { m.twin with ships := m.twin.ships.map fun x => if x.folio = f then g x else x } }

/-- A shipment begins: FOLIO-BEGIN, RECORDS, STATE (R141). -/
def Mach.shipBegin (m : Mach) (s : Ship) : Mach :=
  let m1 := m.twinSend (.folioBegin s.folio m.epoch s.mask)
  let m2 := s.parts.foldl (fun x p =>
    (ringPieces (x.ringWords p.1) p.2.1 p.2.2.1).foldl (fun y c =>
      y.twinSend (.records p.1 c.1 (y.wordsAt (y.ringAddr p.1 c.1) c.2))) x) m1
  m2.twinSend (.state s.state)

/-- One folio shipped as far as the line budget allows: what begins it, LINES, and FOLIO-END after the last line (R141, R146). -/
def Mach.shipOut (m : Mach) (s : Ship) : Mach :=
  let m1 := if s.left.isSome then m else m.shipBegin s
  let left := s.left.getD s.lines
  let rest := left.drop m1.lineRoom
  let m2 := m1.sendLines (left.take m1.lineRoom)
  if rest.isEmpty then
    let m3 := m2.twinSend (.folioEnd
      { folio := s.folio, counts := s.parts.map fun p => (p.1, p.2.2.1), roots := s.parts.map fun p => (p.1, p.2.2.2)
        enabled := s.mask, rtValid := s.rtValid })
    ((m3.putShip s.folio fun x => { x with left := some [], doneAt := some m.now }).setReg Reg.twnMirlines
      (w48 (s.lines.length % 2 ^ 24))).refreshMir
  else (m2.putShip s.folio fun x => { x with left := some rest }).refreshMir

/-- The oldest closed folio not yet shipped is shipped (R141); between shipments the seeding of marked pages goes on (R144). -/
def Mach.shipNext (m : Mach) : Mach :=
  if m.twinOpen && m.serving && m.twin.shipping then
    let m1 := match m.twin.ships.find? fun s => s.doneAt.isNone with
      | some s => m.shipOut s
      | none => m
    m1.sendSeeds
  else m

/-- Every waiting folio shipped, in order, as far as the line budget allows. -/
def Mach.shipAll : Nat → Mach → Mach
  | 0, m => m
  | n + 1, m => Mach.shipAll n m.shipNext

/-- The quiescent ACTIVE of a handover sends HANDOVER-DONE once its last folio is closed and shipped (R154). -/
def Mach.handoverFinish (m : Mach) : Mach :=
  match m.twin.hoVolume with
  | some v =>
    if m.twinOpen && m.role = 1 && m.fld Reg.twnStat F.twnStatHandover = 2 && !m.twin.hoDone && m.closing.isEmpty &&
        m.twin.ships.all (fun s => s.doneAt.isSome) then
      ({ m with twin := { m.twin with hoDone := true } } : Mach).twinSend (.handoverDone (16 * v - 1) m.epoch)
    else m
  | none => m

/-- A FOLIO-ACK (R143): it acknowledges every earlier folio, renews the mirrored lease, which also runs on through a pending change
(R139), ends seeding and runs the release rule. -/
def Mach.folioAcked (m : Mach) (f e : Nat) : Mach :=
  if m.serving && e = m.epoch && m.ackf < f && (m.twin.ships.any fun s => s.folio = f && s.doneAt.isSome) then
    let m1 := m.setPair Reg.twnAckfHi Reg.twnAckfLo f
    let m2 : Mach := { m1 with twin := { m1.twin with
      ships := m1.twin.ships.filter (fun s => f < s.folio), seeding := m1.twin.seeding.filter fun x => f < x.2 } }
    let m3 := m2.refreshSeeding
    let m4 := if m3.role = 1 || m3.twin.pending.isSome then m3.renewLease else m3
    ((m4.releaseAll.sendSeals 1100).flushReplies).refreshMir
  else m

/-- A FOLIO-REDO (R142): the folio is shipped again, whole. -/
def Mach.folioRedone (m : Mach) (f : Nat) : Mach :=
  if m.serving then m.putShip f fun s => if s.doneAt.isSome then { s with doneAt := none, left := none } else s else m

/-! ### The holder (R142, R151, R171, R453) -/

/-- The entries of a run of ring words. -/
def entriesOf : Nat → List Word → List (List Word)
  | 0, _ => []
  | _, [] => []
  | n + 1, w :: ws =>
    let k := max 1 (entryLen w)
    ((w :: ws).take k) :: entriesOf n ((w :: ws).drop k)

/-- The root recomputed from a tenant's daybook words of folio `f` (R142). -/
def heldRoot (t f : Nat) (ws : List Word) : Nat :=
  folioRoot t f (((entriesOf ws.length ws).filter fun e => entryType (e.headD 0) = 1).map leafHash)

/-- The item a record answers at release. -/
def recordItem (ws : List Word) : JItem :=
  let w0 := (ws.getD 0 0).toNat
  { ses := if nbit w0 17 then 4096 else nbits (ws.getD 5 0).toNat 47 36, id := pairNat (ws.getD 6 0) (ws.getD 7 0) % 2 ^ 64
    disp := (dispOfCode (nbits w0 21 18)).getD .accepted, accn := pairNat (ws.getD 1 0) (ws.getD 2 0) % 2 ^ 64 }

/-- One entry of a ring walk towards the closed folios it holds: those complete, the one being read, and where a PAD before
its end began. -/
def heldStep (rd : Nat → Word) (size : Nat) (a : List ClosedFolio × Option ClosedFolio × Option Nat) (e : Nat × Nat) :
    List ClosedFolio × Option ClosedFolio × Option Nat :=
  let start := a.2.2.getD e.1
  let done := match a.2.1 with
    | some c => a.1 ++ [{ c with stop := start, words := (start + size - c.start) % max 1 size }]
    | none => a.1
  let at_ := fun i => rd ((e.1 + i) % max 1 size)
  if e.2 = 16 then (done, none, none)
  else if e.2 = 0xF then
    let first := (at_ 2).toNat % 65536 * 2 ^ 48 + (at_ 3).toNat
    let n := (at_ 4).toNat / 2 ^ 24
    (done, some
      { folio := (at_ 0).toNat % 16 * 2 ^ 48 + (at_ 1).toNat, start := start, stop := e.1, mode := nbits (at_ 0).toNat 29 28
        acc := n, lastAccn := first + n - 1, items := [], held := true, words := 0, recWords := (at_ 4).toNat % 2 ^ 24
        root := hashOfWords ((List.range 11).map fun i => at_ (5 + i)) }, none)
  else if e.2 = 0xE then (a.1, a.2.1, some start)
  else
    match a.2.1 with
    | some c => (a.1, some { c with items := c.items ++ [recordItem ((List.range 8).map at_)] }, none)
    | none => (a.1, none, none)

/-- The closed folios a tenant's ring holds beyond its release pointer. -/
def Mach.heldFolios (m : Mach) (t : Nat) : List ClosedFolio :=
  let size := m.ringWords t
  let rd := fun o => m.word (m.ringAddr t o)
  ((walkRing rd size (m.reg (Reg.accHead t)).toNat size (m.reg (Reg.accRelptr t)).toNat).foldl (heldStep rd size)
    ([], none, none)).1

/-- The holder's own bell has already fired as the source's will (R59): it keeps its own entry. -/
def bellAhead (own src : EBell) (rt : Nat) : Bool :=
  fbit src.act F.bellActArm && src.time ≤ rt && fset own.act F.bellActArm 0 = fset src.act F.bellActArm 0 &&
    ((!fbit own.act F.bellActArm && own.time = src.time) || (fbit own.act F.bellActArm && src.time < own.time))

/-- A bell's entry as the holder takes it; a slip that waits for a bell so disarmed without firing ends NOBELL (R193). -/
def Mach.adoptBell (own : List (Nat × EBell)) (m : Mach) (b : Nat × EBell) : Mach :=
  let o := tabGet (fun _ => {}) own b.1
  if bellAhead o b.2 m.rt || (o.time = b.2.time && o.act = b.2.act) then m.setEbell b.1 o
  else
    let m1 := m.setEbell b.1
      { time := b.2.time, act := b.2.act, late := fbit b.2.act F.bellActArm && b.2.time < m.rt, since := m.now }
    if fbit o.act F.bellActArm && !fbit b.2.act F.bellActArm then
      (m1.jobs.filter fun j => j.2.wait = .bell b.1).foldl (fun x j => x.wakeJob j.1 0x0A 0) m1
    else m1

/-- The registers of the bells whose own firing the holder keeps, and of the gates they moved. -/
def keptRegs (own src : Ledger) (rt : Nat) : List Nat :=
  (src.bells.filter fun b => bellAhead (tabGet (fun _ => {}) own.bells b.1) b.2 rt).flatMap fun b =>
    [Reg.bellTsec b.1, Reg.bellTfrac b.1, Reg.bellAct b.1] ++
      (if gateAction b.2.act then [Reg.gateStat (fget b.2.act F.bellActTarget)] else [])

/-- The headers a tenant's ring holds from its tail to its head, oldest first: folio, durability mode, FORCED and root (R118). -/
def Mach.ringHeaders (m : Mach) (t : Nat) : List (Nat × Nat × Bool × Nat) :=
  let size := m.ringWords t
  let rd := fun o => m.word (m.ringAddr t (o % max 1 size))
  ((walkRing rd size (m.reg (Reg.accHead t)).toNat size (m.reg (Reg.accTail t)).toNat).filter fun e => e.2 = 0xF).map fun e =>
    ((rd e.1).toNat % 16 * 2 ^ 48 + (rd (e.1 + 1)).toNat, nbits (rd e.1).toNat 29 28, nbit (rd e.1).toNat 26,
      hashOfWords ((List.range 11).map fun i => rd (e.1 + 5 + i)))

/-- A tenant's mode as the header of the last folio held gives it (R202). -/
def Mach.modeHeld (m : Mach) (t : Nat) : Mach :=
  match (m.ringHeaders t).getLast? with
  | some h =>
    (m.setFld (Reg.tenCtl t) F.tenCtlDur h.2.1).setEff (Reg.tenCtl t) (fset (m.eff (Reg.tenCtl t)) F.tenCtlDur h.2.1)
  | none => m

/-- A field of a register that is no ledger state, though the register holds some, as the holder has it (R58, R141, R176). -/
def keepFld (own : Ledger) (f : Fld) (a : Nat) (r : List (Nat × Word)) : List (Nat × Word) :=
  tabPut resetOf a (fset (tabGet resetOf r a) f (fget (tabGet resetOf own.regs a) f)) r

/-- The gates whose status register differs from reset in a ledger state. -/
def gateStats (l : Ledger) : List Nat :=
  (l.regs.filter fun e => 0x28000 ≤ e.1 && e.1 < 0x30000 && e.1 % 8 = 5).map Prod.fst

/-- Ledger state received from the twin applied (R142): the seal tail waits for the head (R171), bells that fired here keep
their state, fields that are no ledger state stay, a change of the seal roll's place starts it at offset 0, and what follows from the
state is derived again. Modes travel in the headers (R141). -/
def Mach.adopt (m : Mach) (l : Ledger) : Mach :=
  let own := m.ledger
  let keep := Reg.sealTail :: keptRegs own l m.rt
  let r0 := keep.foldl (fun r a => tabPut resetOf a (tabGet resetOf own.regs a) r) l.regs
  let r1 := (gateStats own ++ gateStats l).foldl (fun r a => keepFld own F.gateStatErr a r) r0
  let regs := keepFld own F.sealCtlKey Reg.sealCtl r1
  let eff := allTenants.foldl (fun e t => tabPut resetOf (Reg.tenCtl t)
    (fset (tabGet resetOf e (Reg.tenCtl t)) F.tenCtlDur (fget (m.eff (Reg.tenCtl t)) F.tenCtlDur)) e) l.eff
  let tail := (tabGet resetOf l.regs Reg.sealTail).toNat
  let moved : Bool := l.effReg Reg.sealRbase ≠ m.eff Reg.sealRbase || l.effReg Reg.sealRsize ≠ m.eff Reg.sealRsize
  let m0 := if moved then (m.setReg Reg.sealHead 0).setReg Reg.sealTail 0 else m
  let m1 : Mach := { m0 with
    ledger := { l with regs := if moved then tabPut resetOf Reg.sealTail 0 regs else regs, eff := eff, bells := [], pend := [] }
    sealing := { m0.sealing with tailWait :=
      if moved then none else if tail = (m.reg Reg.sealTail).toNat then m.sealing.tailWait else some tail } }
  let m2 := l.bells.foldl (Mach.adoptBell own.bells) m1
  let m3 := allTenants.foldl (fun x t =>
    let y := x.setFld (Reg.tenCtl t) F.tenCtlNvt (fget (x.eff (Reg.tenCtl t)) F.tenCtlNvt)
    let z := (y.setFld (Reg.accBp t) F.accBpExh (b2n (y.nextAccn t = 0))).setFld (Reg.accBp t) F.accBpDisabled (b2n (!y.accEn t))
    z.setAcc t { z.acc t with closed := z.heldFolios t }) m2
  ((m3.setFld Reg.twnMirstat F.twnMirstatCount l.mirror.length).applyTailWait).refreshSeal

/-- A shipment that fails its check, or of which part is missing, is discarded and asked for again (R142); the third failure for one
folio ends a copy (R157). The cause FOLIO-REDO carries is a free value. -/
def Mach.holdFail (m : Mach) (f : Nat) : Mach :=
  let n := tabGet (fun _ => 0) m.twin.fails f + 1
  let m1 : Mach := { m with twin := { m.twin with
    hold := none, fails := tabPut (fun _ => 0) f n m.twin.fails, shipFaultAt := some m.openFolio } }
  let (c, m2) := m1.draw
  let m3 := (m2.twinSend (.folioRedo f c)).refreshTwn
  if m3.role = 4 && 3 ≤ n then m3.syncDiscard else m3

/-- A shipment opens at the holder (R141); of one still open, the end is missing (R142). -/
def Mach.holdBegin (m : Mach) (f e mask : Nat) : Mach :=
  let m1 := match m.twin.hold with
    | some h => if m.holding then m.holdFail h.folio else m
    | none => m
  if m1.holding then
    { m1 with twin := { m1.twin with hold := some { folio := f, epoch := e, mask := mask, recs := [], state := none } } }
  else m1

/-- RECORDS written into the holder's daybook at the same offsets (R142). -/
def Mach.holdRecords (m : Mach) (t off : Nat) (ws : List Word) : Mach :=
  match m.twin.hold with
  | some h =>
    if t < 16 && off + ws.length ≤ m.ringWords t then
      let m1 : Mach := { m with twin := { m.twin with hold := some { h with recs := h.recs ++ [(t, off, ws)] } } }
      m1.ringWrite t off ws
    else m
  | none => m

/-- STATE of a shipment, held until the folio is acknowledged (R142). -/
def Mach.holdState (m : Mach) (l : Ledger) : Mach :=
  match m.twin.hold with
  | some h => { m with twin := { m.twin with hold := some { h with state := some l } } }
  | none => m

/-- Containers written by the twin engine: payload, key and type tag as received, CHG as it stands (R133, R334). -/
def Mach.copyConts (m : Mach) : Nat → List Cont → Mach
  | _, [] => m
  | a, c :: cs => (m.ledgerPut a { c with chg := (m.cont a).chg }).copyConts (a + 1) cs

/-- LINES (R142, R144): one line of a mirrored page, whether in a shipment or outside. -/
def Mach.holdLines (m : Mach) (addr : Nat) (cs : List Cont) : Mach :=
  if (m.role = 3 || m.role = 4) && addr % 64 = 0 && cs.length = 64 && addr + 64 ≤ memWords then m.copyConts addr cs else m

/-- The words received for a tenant. -/
def HoldShip.words (h : HoldShip) (t : Nat) : List Word := (h.recs.filter fun r => r.1 = t).flatMap fun r => r.2.2

/-- The holder's check of a shipment against FOLIO-END (R142). -/
def shipmentGood (h : HoldShip) (e : FolioEndMsg) : Bool :=
  h.folio = e.folio && h.state.isSome && h.mask = e.enabled &&
    allTenants.all fun t =>
      let ws := h.words t
      let listed := e.counts.any fun c => c.1 = t
      if listed || !ws.isEmpty then
        e.counts.any (fun c => c = (t, ws.length)) && e.roots.any (fun r => r = (t, heldRoot t h.folio ws))
      else !nbit e.enabled t

/-- Whether a shipment's headers carry FORCED (R118). -/
def HoldShip.forced (h : HoldShip) : Bool :=
  h.recs.any fun r => (entriesOf r.2.2.length r.2.2).any fun w => entryType (w.headD 0) = 0xF && nbit (w.headD 0).toNat 26

/-- A held folio's roots, mask and RT validity join the root queue (R453); a volume whose last folio a forward load closed
waits for the next folio, which shows the RT of its close. -/
def Mach.holdRoots (m : Mach) (h : HoldShip) (e : FolioEndMsg) (skipped : Bool) : Mach :=
  let m1 : Mach := { m with
    twin := { m.twin with lastValid := e.rtValid }
    sealing := { m.sealing with
      roots := m.sealing.roots ++ e.roots.map (fun r => (r.1, h.folio, r.2)), mask := m.sealing.mask ||| e.enabled
      forced := m.sealing.forced || h.forced || skipped } }
  if h.folio % 16 = 15 && !h.forced then (m1.holdVolume (volumeOf h.folio) ((h.folio + 1) * 4096) e.rtValid).refreshSeal else m1

/-- The STANDBY holds V - 1 and has HANDOVER-DONE (R154): it takes ACTIVE with epoch e + 1 and sends TAKEN. -/
def Mach.handoverTake (m : Mach) : Mach :=
  match m.twin.hoVolume with
  | some v =>
    if m.role = 3 && m.twin.hoDone && 16 * v ≤ m.ackf + 1 && m.epoch < 0xFFFFFF then
      let m1 := m.takeRole 1 (m.epoch + 1)
      m1.twinSend (.taken m1.epoch)
    else m
  | none => m

/-- A shipment that passes its check is held and acknowledged (R142): the volume a forward load ended closes as the state before it
shows, the state is applied, and the folio's roots join the queue. -/
def Mach.holdFolio (m : Mach) (h : HoldShip) (st : Ledger) (e : FolioEndMsg) : Mach :=
  let skipped : Bool := m.ackf ≠ 0 && h.folio ≠ m.ackf + 1 && h.folio % 16 ≠ 0
  let m1 : Mach := { m with twin := { m.twin with hold := none, fails := m.twin.fails.filter fun x => h.folio < x.1 } }
  let m2 := (m1.holdForced (volumeOf h.folio) (h.folio * 4096)).adopt st
  let m3 := e.counts.foldl (fun x c => if c.1 < 16 then (x.setReg (Reg.accLastw c.1) (w48 c.2)).modeHeld c.1 else x) m2
  let m4 := (m3.holdRoots h e skipped).setPair Reg.twnAckfHi Reg.twnAckfLo h.folio
  (m4.twinSend (.folioAck h.folio m4.epoch)).handoverTake

/-- FOLIO-END at the holder (R142, R143): folios of its own epoch only, in order only. A folio after one that failed its check and is
not yet held is asked for again without a failure of its own (DEDUCED, log 120). -/
def Mach.holdEnd (m : Mach) (e : FolioEndMsg) : Mach :=
  if !m.holding then m
  else match m.twin.hold with
    | none => m.holdFail e.folio
    | some h =>
      let shut : Mach := { m with twin := { m.twin with hold := none } }
      if h.epoch ≠ m.epoch then shut
      else if m.twin.fails.any fun x => x.1 < h.folio then
        let (c, m1) := shut.draw
        m1.twinSend (.folioRedo h.folio c)
      else match h.state with
        | some st => if shipmentGood h e && m.ackf < h.folio then m.holdFolio h st e else m.holdFail e.folio
        | none => m.holdFail e.folio

/-! ### Handover (R153 to R155) -/

/-- The first volume whose boundary lies at least 32 folios ahead (R154). -/
def Mach.nextHandover (m : Mach) : Nat := (m.openFolio + 32 + 15) / 16

/-- The ACTIVE agrees a handover at volume `v` and answers HANDOVER-ACK (R154). -/
def Mach.agreeHandover (m : Mach) (v : Nat) : Mach :=
  let m1 : Mach := { m with twin := { m.twin with hoVolume := some v } }
  (m1.setFld Reg.twnStat F.twnStatHandover 1).twinSend (.handoverAck v)

/-- HANDREQ on the ACTIVE (R153): a handover towards the STANDBY starts. -/
def Mach.requestHandover (m : Mach) : Mach :=
  if m.twinOpen && m.role = 1 && m.fld Reg.twnStat F.twnStatPeerrole = 3 && m.fld Reg.twnStat F.twnStatHandover = 0 &&
      m.epoch < 0xFFFFFF then
    (m.setFld Reg.twnCtl F.twnCtlHandreq 1).agreeHandover m.nextHandover
  else m

/-- HANDOVER-REQ at the ACTIVE (R154, R160). -/
def Mach.handoverAsked (m : Mach) (v : Nat) : Mach :=
  if m.twinOpen && m.role = 1 && m.fld Reg.twnStat F.twnStatHandover = 0 && m.epoch < 0xFFFFFF then
    m.agreeHandover (if m.openFolio < 16 * v then v else m.nextHandover)
  else m

/-- HANDOVER-ACK at the STANDBY (R154): the handover is agreed. -/
def Mach.handoverAgreed (m : Mach) (v : Nat) : Mach :=
  if m.role = 3 && m.fld Reg.twnStat F.twnStatHandover = 0 then
    ({ m with twin := { m.twin with hoVolume := some v, hoDone := false } } : Mach).setFld Reg.twnStat F.twnStatHandover 1
  else m

/-- HANDOVER-DONE at the STANDBY (R154). -/
def Mach.handoverHeard (m : Mach) (folio epoch : Nat) : Mach :=
  match m.twin.hoVolume with
  | some v =>
    if m.role = 3 && m.fld Reg.twnStat F.twnStatHandover = 1 && folio + 1 = 16 * v && epoch = m.epoch then
      ({ m with twin := { m.twin with hoDone := true } } : Mach).handoverTake
    else m
  | none => m

/-- TAKEN at the quiescent ACTIVE (R154): the latch clears, and it becomes STANDBY in the new epoch. What it had collected of the
volume now open it collects again as a holder (R453). -/
def Mach.handoverTaken (m : Mach) (epoch : Nat) : Mach :=
  match m.twin.hoVolume with
  | some v =>
    if m.role = 1 && m.twin.latch && m.fld Reg.twnStat F.twnStatHandover = 2 then
      let m1 : Mach := { m with
        twin := { m.twin with latch := false }, sealing := { m.sealing with roots := [], mask := 0, forced := false } }
      let m2 := ((m1.endHandover.stopShipping.setLease false).setRole 3).setEpoch epoch
      (m2.setFld Reg.twnStat F.twnStatSynced 1).setPair Reg.twnAckfHi Reg.twnAckfLo (16 * v - 1)
    else m
  | none => m

/-- ABORT at the ACTIVE (R155): it serves again. -/
def Mach.handoverAborted (m : Mach) (v : Nat) : Mach :=
  if m.role = 1 && m.twin.hoVolume = some v then
    ({ m with twin := { m.twin with latch := m.twin.latch && m.fld Reg.twnStat F.twnStatHandover ≠ 2 } } : Mach).endHandover
  else m

/-! ### Synchronisation (R157) -/

/-- The charter settings compared in CHECK, in tenant order: EN, DBBASE, DBSIZE, then the seal roll place (R157). -/
def Mach.syncConfig (m : Mach) : List Word :=
  (allTenants.flatMap fun t =>
    [w48 (b2n (m.bit (Reg.accCtl t) F.accCtlEn)), m.reg (Reg.accDbbase t), m.reg (Reg.accDbsize t)]) ++
    [m.reg Reg.sealRbase, m.reg Reg.sealRsize]

/-- The CHECK phase judged (R157). -/
def Mach.syncCheck (m : Mach) (cfg : List Word) : Mach :=
  if m.role = 4 && m.syncPhase = 1 then
    let sk := sgn 32 (m.reg Reg.twnSkew).toNat
    if m.twinOpen && m.rtValid && m.twin.peerValid && -64 ≤ sk && sk ≤ 64 && cfg = m.syncConfig then
      (m.setPhase 2).twinSend .syncReq
    else m.syncDiscard
  else m

/-- The blocks of bulk data at boundary S (R157): ledger state, root queue, daybooks from tail to head, the seal roll whole (R173) and
the mirrored lines. -/
def Mach.syncBlocks (m : Mach) (l : Ledger) : List SyncBlock :=
  let conts := fun a n => SyncBlock.words a ((List.range n).map fun i => m.coh (a + i))
  let lines := fun a n => SyncBlock.words a ((List.range n).map fun i => m.cont (a + i))
  let used := fun t => (m.reg (Reg.accUsed t)).toNat
  [.ledger l, .roots m.sealing.queue,
    .roll (m.reg Reg.sealHead).toNat (m.reg Reg.sealLastv).toNat (m.reg Reg.sealLastno).toNat m.sealing.prev] ++
  (allTenants.flatMap fun t =>
    (ringPieces (m.ringWords t) (m.reg (Reg.accTail t)).toNat (used t)).map fun p => conts (m.ringAddr t p.1) p.2) ++
  (if m.rollWords = 0 then [] else [conts (m.rollAddr 0) m.rollWords]) ++
  (m.ledger.mirror.map fun p => lines (4096 * p) 4096)

/-- The words a block carries. -/
def blockWords : SyncBlock → Nat
  | .words _ cs => cs.length
  | _ => 0

/-- Blocks sent in SYNC-BULK, each with the words that remain, in units of 4,096. -/
def Mach.sendBlocks : List SyncBlock → Mach → Mach
  | [], m => m
  | b :: bs, m => Mach.sendBlocks bs (m.twinSend (.syncBulk b (((bs.map blockWords).sum + 4095) / 4096)))

/-- A fresh copy starts at boundary S, the folio that has just closed (R157). -/
def Mach.startCopy (m : Mach) (s : Nat) (l : Ledger) : Mach :=
  let m1 : Mach := { m with twin := { m.twin with
    syncReq := false, shipping := true, ships := [], dirty := [], seedQ := [], seeding := [] } }
  Mach.sendBlocks (m1.syncBlocks l) (m1.twinSend (.syncMark s m1.epoch 2))

/-- SYNC-MARK at the SYNCING module (R157): the source's epoch and the snapshot folio; what it had collected of the open volume
goes with its old copy. -/
def Mach.takeMark (m : Mach) (s e : Nat) : Mach :=
  if m.role = 4 && 1 ≤ m.syncPhase then
    let m1 : Mach := { m with
      twin := { m.twin with syncFolio := s, syncBounds := 0, hold := none, fails := [] }
      tacc := [], sealing := { m.sealing with roots := [], mask := 0, forced := false } }
    ((m1.setEpoch e).setPhase 2).twnAlarm F.twnAlarmSyncfail false
  else m

/-- The roots, mask and FORCED flag of the volume that is open after folio S, from the headers copied with the daybooks (R453). -/
def Mach.rootsHeld (m : Mach) : Mach :=
  let v := volumeOf (m.ackf + 1)
  let hs := allTenants.flatMap fun t => ((m.ringHeaders t).filter fun h => volumeOf h.1 = v).map fun h => (t, h)
  { m with sealing := { m.sealing with
      roots := hs.map fun x => (x.1, x.2.1, x.2.2.2.2)
      mask := (allTenants.filter fun t => hs.any fun x => x.1 = t).foldl (fun a t => a + 2 ^ t) 0
      forced := hs.any fun x => x.2.2.2.1 } }

/-- A block of bulk data (R157); the last one leads to CATCHUP with folio S held. -/
def Mach.takeBulk (m : Mach) (b : SyncBlock) (remain : Nat) : Mach :=
  if m.role = 4 && (m.syncPhase = 2 || m.syncPhase = 3) then
    let m1 := m.setFld Reg.twnSync F.twnSyncRemain remain
    let m2 := match b with
      | .ledger l =>
        (m1.adopt l).setReg Reg.sealTail (tabGet resetOf l.regs Reg.sealTail)
      | .words a cs => m1.copyConts a cs
      | .roots q => { m1 with sealing := { m1.sealing with queue := q.map fun r => { r with own := false }, unsent := [] } }
      | .roll h v n p =>
        let x : Mach := { m1 with sealing := { m1.sealing with prev := p } }
        ((x.setReg Reg.sealHead (w48 h)).setReg Reg.sealLastv (w48 v)).setReg Reg.sealLastno (w48 n)
    if remain = 0 then
      let m3 := (m2.setPhase 3).setPair Reg.twnAckfHi Reg.twnAckfLo m.twin.syncFolio
      let m4 : Mach := { m3 with sealing := { m3.sealing with tailWait := none } }
      ((allTenants.foldl (fun x t => (x.setAcc t { x.acc t with closed := x.heldFolios t }).modeHeld t) m4).rootsHeld).refreshSeal
    else m2
  else m

/-! ### Register writes (R144, R161, R162) -/

/-- TWN_MIRSTAT.ERR given. -/
def Mach.mirError (m : Mach) (k : Nat) : Mach := m.setFld Reg.twnMirstat F.twnMirstatErr k

/-- The mirror map in the written view. -/
def Mach.mirrorWritten (m : Mach) : List Nat :=
  m.ledger.pend.foldl (fun l w => match w with
    | .mirPage p b => if b then setIns p l else setDel p l
    | _ => l) m.ledger.mirror

/-- A page lies in a daybook ring or the seal roll, or holds strongroom containers (R144). -/
def Mach.mirOverlap (m : Mach) (p : Nat) : Bool :=
  (allTenants.any fun t => overlaps (4096 * p) 4096 (m.ringAddr t 0) (m.ringWords t)) ||
    overlaps (4096 * p) 4096 (m.reg Reg.sealRbase).toNat ((m.reg Reg.sealRsize).toNat * 4096) || m.srPage p

/-- A write of TWN_MIRPAGE by T00 software or the strongroom (R144, R162). -/
def Mach.mirPageSet (m : Mach) (w : Who) (v : Word) : Mach :=
  let p := fget v F.twnMirpagePage
  let set := fbit v F.twnMirpageSet
  if !w.house then m
  else if m.ledgerBarred then m.mirError 3
  else if m.mirOverlap p then m.mirError 2
  else if set && !m.mirrorWritten.contains p && 262144 ≤ m.mirrorWritten.length then m.mirError 1
  else (m.pendWrite (.mirPage p set)).mirError 0

/-- TWN_CTL.INIT written 1 (R156): honoured in the charter, refused with SYNCFAIL where a twin serves. -/
def Mach.initRequest (m : Mach) : Mach :=
  if m.phase ≠ 1 then m
  else if m.aliveIn && (m.fld Reg.twnStat F.twnStatPeerrole = 1 || m.fld Reg.twnStat F.twnStatPeerrole = 2) then
    m.twnAlarm F.twnAlarmSyncfail true
  else (m.setFld Reg.twnCtl F.twnCtlInit 1).twnAlarm F.twnAlarmSyncfail false

/-- A write of TWN_CTL from the strongroom (R161, R162): HOLD always; PAIRED and INIT until COMMITTED; HANDREQ and FENCE act. -/
def Mach.twnCtlSet (m : Mach) (w : Who) (v : Word) : Mach :=
  if !w.sr then m
  else
    let m1 := m.setFld Reg.twnCtl F.twnCtlHold (fget v F.twnCtlHold)
    let m2 := if m1.committed then m1 else m1.setFld Reg.twnCtl F.twnCtlPaired (fget v F.twnCtlPaired)
    let m3 := if fbit v F.twnCtlInit then m2.initRequest else m2
    let m4 := if fbit v F.twnCtlHandreq then m3.requestHandover else m3
    if fbit v F.twnCtlFence then m4.fence else m4

end Sys2Proof.Machine
end

