-- ==== Sys2Proof/Machine/Folio.lean ====
section
/-! DEFINITION. The close of a folio, the folio boundary (R26, R57, R119, R168, R396) and loads of RT (R48, R49, R106). -/

namespace Sys2Proof.Machine

open Sys2Proof

/-! ### The close of a folio (R119) -/

/-- The daybook parts of folio `f` that ship: of each tenant that closed it, the offset, words and root (R141). -/
def Mach.folioParts (m : Mach) (f : Nat) : List (Nat × Nat × Nat × Nat) :=
  allTenants.filterMap fun t =>
    match (m.acc t).closed.find? fun c => c.folio = f && !c.held with
    | some c => some (t, c.start, c.words, c.root)
    | none => none

/-- The written view without a pending write: what the effective view shows stands there (R57, R450). -/
def unwrite (l : Ledger) (w : LWrite) : Ledger :=
  let put := fun (a : Nat) (v : Word) (x : Ledger) => { x with regs := tabPut resetOf a v x.regs }
  match w with
  | .bell b _ _ =>
    let e := tabGet (fun _ => {}) l.bells b
    put (Reg.bellTsec b) (w48 (secOf e.time)) (put (Reg.bellTfrac b) (w48 (fracOf e.time)) (put (Reg.bellAct b) e.act l))
  | .gate g _ => put (Reg.gateKey g) (tabGet (fun _ => 0) l.gates g) l
  | .reg a mask _ => if ledgerAddr a then put a ((tabGet resetOf l.regs a &&& ~~~ mask) ||| (l.effReg a &&& mask)) l else l
  | _ => l

/-- The ledger state that ships with a folio (R57, R119, R141): what the writes made in it leave effective at its boundary, and the
module's own changes up to its close. Writes made since the boundary belong to the next folio. -/
def Mach.shipLedger (m : Mach) : Ledger := { m.ledger.pend.foldl unwrite m.ledger with pend := [] }

/-- A closed folio handed to the twin engine (R119, R141, R145): the first one after a SYNC-REQ is boundary S of a fresh copy
(R157). -/
def Mach.handOver (m : Mach) (c : Closing) : Mach :=
  if m.twin.syncReq && m.serving then m.startCopy c.folio m.shipLedger
  else if m.twin.shipping && m.serving then
    let s : Ship :=
      { folio := c.folio, state := m.shipLedger, mask := c.mask, parts := m.folioParts c.folio, lines := m.twin.dirty
        rtValid := c.rtValid, at_ := m.now }
    ({ m with twin := { m.twin with ships := m.twin.ships ++ [s], dirty := [] } } : Mach).refreshMir
  else m

/-- Release at a boundary or a close (R120), but not at the boundary at which a SOLO becomes ACTIVE (R158): the folio that closes there
waits for the twin. -/
def Mach.boundaryRelease (m : Mach) : Mach := if m.twin.toActive then m else m.releaseAll.flushReplies

/-- The close of the oldest folio past its boundary (R119): its headers, its volume's roots where the volume ends with it, and its
way to the twin. -/
def Mach.closeDone (m : Mach) (c : Closing) : Mach :=
  let m1 := m.closeTenants c.folio c.forced
  let m2 : Mach := { m1 with closing := m1.closing.tail }
  let v := volumeOf c.folio
  let m3 := if v ≠ volumeOf c.next then m2.closeVolume v c.closeRt c.vmask c.vforced c.rtValid c.sealed true else m2
  let m4 := m3.handOver c
  (if m4.fld Reg.twnStat F.twnStatHandover = 2 then (Mach.shipAll m4.twin.ships.length m4).handoverFinish else m4).boundaryRelease

/-- The folios past their boundaries whose items are all judged close, oldest first (R119). -/
def Mach.finishClosings : Nat → Mach → Mach
  | 0, m => m
  | n + 1, m =>
    match m.closing with
    | c :: _ => if m.merge.all fun i => c.folio < folioOf i.stamp then Mach.finishClosings n (m.closeDone c) else m
    | [] => m

/-- The first item of the merge leaves at its emission tick, once the folios before its own are past their boundaries, and is judged
(R104, R107, R451); the folio it was the last item of closes. -/
def Mach.emitOne (m : Mach) : Mach :=
  match m.merge with
  | [] => m
  | i :: is =>
    if i.at_ ≤ m.now && folioOf i.stamp ≤ m.openFolio then
      Mach.finishClosings m.closing.length (({ m with merge := is } : Mach).judge i)
    else m

/-- Every item whose emission tick has come leaves the merge: at the latest when the next boundary comes (log 115). -/
def Mach.emitDue : Nat → Mach → Mach
  | 0, m => m
  | n + 1, m => Mach.emitDue n m.emitOne

/-! ### The boundary -/

/-- Back-pressure for the seal backlog as it stood before this boundary, for every tenant (R122, R170). -/
def Mach.refreshBacklog (m : Mach) : Mach :=
  let b := m.bit Reg.sealStat F.sealStatBacklog
  allTenants.foldl (fun x t => x.setBp t F.accBpSeal b) m

/-- The count of boundaries at which a copy's lag was at most 1 folio; 64 in a row make the module synced, and the boundary after
them is the one at which it becomes STANDBY (R158). -/
def Mach.countSync (m : Mach) (f : Nat) : Mach :=
  if m.role = 4 && m.syncPhase = 3 then
    let n := if f ≤ m.ackf + 1 then m.twin.syncBounds + 1 else 0
    let m1 : Mach := { m with twin := { m.twin with syncBounds := n } }
    if n = 64 then (m1.setPhase 4).setFld Reg.twnStat F.twnStatSynced 1 else m1
  else if m.role = 4 && m.syncPhase = 4 then { m with twin := { m.twin with syncBounds := 65 } }
  else m

/-- A SOLO whose twin shows STANDBY in its own epoch becomes ACTIVE at this boundary (R158). -/
def Mach.decideActive (m : Mach) : Mach :=
  { m with twin := { m.twin with
      toActive := m.role = 2 && m.twin.pending.isNone && m.fld Reg.twnStat F.twnStatPeerrole = 3 &&
        (m.reg Reg.twnPeerepoch).toNat = m.epoch && m.twin.shipping } }

/-- The accession unit writes headers (R118, R119, R149): the charter has committed, the module serves, and the fence latch is clear
or set by a planned handover, whose last folio still closes (R154). -/
def Mach.writesHeaders (m : Mach) : Bool :=
  m.committed && m.serving && (!m.twin.latch || m.fld Reg.twnStat F.twnStatHandover = 2)

/-- The open folio, about to be past its boundary, joins those whose last items are still to be judged, with the settings in effect in
it (R107, R119). SEAL_CTL.EN is the one the boundary's own writes leave (R168; DEDUCED, log 118). -/
def Mach.startClose (m : Mach) (forced : Bool) (rt next : Nat) (sealed : Bool) : Mach :=
  if m.writesHeaders then
    { m with closing := m.closing ++
        [{ folio := m.openFolio, next := next, closeRt := rt, set := { m.ledger with pend := [] }, mask := m.enMask
           vmask := m.sealing.mask, vforced := m.sealing.forced || forced, forced := forced, rtValid := m.rtValid
           sealed := sealed }] }
  else m

/-- The boundary with RT `rt` that ends the open folio; folio `next` opens; `forced` for a forward load (R57, R106, R119, R163,
R168, R396). -/
def Mach.boundary (m : Mach) (forced : Bool) (rt next : Nat) : Mach :=
  let m0 := if forced then m else Mach.emitDue m.merge.length m
  let f := m0.openFolio
  let m1 := m0.startClose forced rt next m0.applyPend.sealEn
  let m2 := if m1.serving && volumeOf f ≠ volumeOf next then m1.openVolume false else m1
  let m3 : Mach := if forced && next % 16 ≠ 0 && m2.serving then { m2 with sealing := { m2.sealing with forced := true } } else m2
  let m4 : Mach := { m3.applyPend with openFolio := next }
  let m5 := if m4.serving then m4.sealFolioStart else m4
  let m6 := (allTenants.foldl Mach.refreshSpace m5).refreshBacklog
  let m7 := ((m6.countSync f).decideActive).sendSeeds.energyBoundary
  ((Mach.finishClosings m7.closing.length m7).boundaryRelease).refreshTwn

/-- A folio boundary that RT has reached (R119). -/
def Mach.folioClose (m : Mach) : Mach :=
  if m.up && m.openFolio < folioOf m.rt then m.boundary false ((m.openFolio + 1) * 4096) (m.openFolio + 1) else m

/-- At volume boundary V of a handover the ACTIVE (R154) closes its connections, sets the fence latch and becomes quiescent; items
stamped at or after V are never recorded, and it closes and ships V - 1 and sends HANDOVER-DONE. Its role stays ACTIVE. -/
def Mach.handoverQuiesce (m : Mach) : Mach :=
  match m.twin.hoVolume with
  | some v =>
    if m.up && m.role = 1 && m.fld Reg.twnStat F.twnStatHandover = 1 && 16 * v ≤ folioOf m.rt && 16 * v ≤ m.openFolio + 1 then
      let late := m.merge.filter fun i => 16 * v ≤ folioOf i.stamp
      let m1 := ({ m with merge := m.merge.filter fun i => folioOf i.stamp < 16 * v } : Mach).byeAll 5
      let m2 := late.foldl (fun x i => if i.orig then x.accnDone i.seat 2 .accepted 0 else x) m1
      let m3 := ({ m2 with twin := { m2.twin with latch := true } } : Mach).setFld Reg.twnStat F.twnStatHandover 2
      let m4 := if m3.openFolio < 16 * v then m3.boundary false (16 * v * 4096) (16 * v) else m3
      (Mach.shipAll m4.twin.ships.length m4).handoverFinish
    else m
  | none => m

/-- Every boundary that RT has reached. -/
def Mach.folioCloses : Nat → Mach → Mach
  | 0, m => m
  | n + 1, m => Mach.folioCloses n m.folioClose

/-- The notices of R47 for the tenants that need valid time. -/
def Mach.timeNotice (m : Mach) (code : Nat) : Mach := m.notices (allTenants.filter fun t => m.nvt t) code 0

/-- RT_STAT.STATE given (R45, R47). Every change starts the run of accepted edges and the outliers afresh: R45 does not say whether
the run goes on where LOCKED becomes LOCKING by a loss of REFCLK or a write of REFSEL (DESIGN CHOICE, log 103). The missed seconds
go on: only an edge clears them. -/
def Mach.setRtState (m : Mach) (s : Nat) : Mach :=
  let old := m.rtState
  if s = old then m
  else
    let m1 := (m.setFld Reg.rtStat F.rtStatState s).raise 0
    let m2 : Mach := { m1 with pps := { m1.pps with run := 0, outl := 0 } }
    if s = 4 then (({ m2 with pps := { m2.pps with hoAt := m.now } } : Mach).setReg Reg.rtHoldover 0).timeNotice 1
    else if s = 1 && 2 ≤ old then m2.timeNotice 2
    else m2

/-- A forward load satisfies the folio conditions of waiting slips that it passes (R193): those of the folios it skips, which never
close (DEDUCED, log 121). -/
def Mach.wakeSkipped (m : Mach) (lo hi : Nat) : Mach :=
  (m.jobs.filter fun j => match j.2.wait with
    | .folio _ f => lo < f && f < hi
    | _ => false).foldl (fun x j => x.wakeJob j.1 0 0) m

/-- RT given a value by a load: RT_FRAC 0x00_0000 (R48). Boundaries that RT had reached come first; then a forward load into a later
folio closes the open one at the load and skips the bells between (R49, R59, R106). -/
def Mach.loadRt (m0 : Mach) (secs state : Nat) : Mach :=
  let m := Mach.folioCloses (folioOf m0.rt - m0.openFolio) m0
  let new := secs % 2 ^ 40 * 2 ^ 24
  let m1 := ({ m with rt := new, pps := { m.pps with edge := none, fresh := false } } : Mach).setFld Reg.rtStat F.rtStatEnd 0
  let m2 := m1.setRtState state
  if m.rt < new && m.openFolio < folioOf new && m.up then
    ((m2.boundary true new (folioOf new)).skipBells m.rt new).wakeSkipped m.openFolio (folioOf new)
  else ({ m2 with openFolio := folioOf new } : Mach).skipBells m.rt new

end Sys2Proof.Machine
end

