-- ==== Sys2Proof/Machine/Ports.lean ====
section
/-! DEFINITION. The ports: link, receive checks, LCP frames of every type, plain and PTP frames, and the timers of connections
(R64 to R102). -/

namespace Sys2Proof.Machine

open Sys2Proof

/-! ### Link and reset (R65, R83, R99) -/

/-- PRT_CTL.EN of a port. -/
def Mach.portEn (m : Mach) (p : Nat) : Bool := m.bit (Reg.prtCtl p) F.prtCtlEn

/-- SR_ATTR of a port (R338). -/
def Mach.portSr (m : Mach) (p : Nat) : Bool := m.bit (Reg.srAttrPort p) F.srAttrPortSr

/-- The link of a port goes down (R83). -/
def Mach.portDown (m : Mach) (p : Nat) : Mach :=
  if m.linkUp p then
    let w := fset (fset (fset (m.reg (Reg.prtStat p)) F.prtStatLink 0) F.prtStatFeclock 0) F.prtStatAndone 0
    ((m.closePort p).setReg (Reg.prtStat p) w).raise (128 + p)
  else m

/-- A link comes up after training (R64, R65): RS-FEC selected with 10GBASE-KR keeps it down with CFGERR. -/
def Mach.portUp (m : Mach) (p : Nat) : Mach :=
  if !m.up || !m.committed || !m.portEn p || m.linkUp p || m.pins.tripped then m
  else
    let c := m.reg (Reg.prtCtl p)
    if fget c F.prtCtlMode = 2 && fget c F.prtCtlFec = 2 then m.setFld (Reg.prtStat p) F.prtStatCfgerr 1
    else
      let w := fset (fset (fset (fset (m.reg (Reg.prtStat p)) F.prtStatLink 1) F.prtStatFeclock (b2n (fget c F.prtCtlFec ≠ 0)))
        F.prtStatAndone (fget c F.prtCtlAn)) F.prtStatCfgerr 0
      (m.setReg (Reg.prtStat p) w).raise (128 + p)

/-- Frames of a transmit queue that a port reset drops: a waiting raw SEND ends NOCONN, detail 0x01 (R190). -/
def Mach.dropRaw (m : Mach) (p : Nat) : Mach :=
  let q := m.queue p
  q.foldl (fun x r => if r.posted then x else x.wakeJob r.ctx 0x08 1) (m.setQueue p [])

/-- A port reset (R14, R99): the link goes down, connections close, the plain and transmit queues empty, the PORT domain of the
port takes its reset values. -/
def Mach.resetPort (m : Mach) (p : Nat) : Mach :=
  let m1 := (((m.closePort p).portDown p).dropRaw p).setPlain p []
  m1.resetRegs .port fun a => 0x40000 + 0x100 * p ≤ a && a < 0x40100 + 0x100 * p

/-- Whether a requester may write the PRT_ registers of a port (R102, R339): the strongroom alone where the port is the
strongroom's, else T00 software. -/
def Mach.mayPort (m : Mach) (w : Who) (p : Nat) : Bool := if m.portSr p then w.sr else w.openTen 0

/-- A write of PRT_RESET (R99, R102). -/
def Mach.portResetSet (m : Mach) (w : Who) (p : Nat) (v : Word) : Mach :=
  if m.mayPort w p && nbit v.toNat 0 then m.resetPort p else m

/-- LINK_UP (R65). -/
def execLinkUp (p : PortId) (s : State) : Host.Outcome State Fault Refusal := s.lift fun m => m.portUp p.val

/-- LINK_LOSS (R83). -/
def execLinkLoss (p : PortId) (s : State) : Host.Outcome State Fault Refusal := s.lift fun m => m.portDown p.val

/-- PORT_RESET (R99). -/
def execPortReset (w : Who) (p : PortId) (v : Word) (s : State) : Host.Outcome State Fault Refusal :=
  s.lift fun m => m.portResetSet w p.val (v ||| 1)

/-! ### The receive checks (R66, R67, R79) -/

/-- What the first five steps of R79 make of a frame. -/
inductive RxClass where
  | drop
  | mac
  | ptp
  | plain
  | bad (typ detail : Nat)
  | lcp (f : LcpFrame)
deriving DecidableEq, Repr

/-- A port receives (R79). -/
def Mach.receives (m : Mach) (p : Nat) : Bool := m.up && m.portEn p && m.linkUp p && m.committed

/-- Steps 1 to 5 of R79. -/
def Mach.classify (m : Mach) (p : Nat) (f : RxFrame) : RxClass :=
  let c := m.reg (Reg.prtCtl p)
  let et := octField f.octs 12 2
  let dst := octField f.octs 0 6
  let n := f.octs.length + 4
  let typ := octField f.octs 14 1 % 16
  if !f.fcsOk || n < 64 || 9216 < n then .drop
  else if dst ≠ (m.reg (Reg.prtMac p)).toNat && !nbit dst 40 then .drop
  else if et ≠ fget c F.prtCtlEtype then
    if et = 0x8808 then .mac
    else if et = 0x88F7 && fbit c F.prtCtlPtp && typ ≤ 3 then .ptp
    else .plain
  else if octField f.octs 14 1 / 16 ≠ 1 || typ = 0 || 0xB ≤ typ || typ = 5 || typ = 6 || typ = 8 then .drop
  else match parseLcp f.octs with
    | .structure_ => .bad typ 0
    | .check => .bad typ 1
    | .good g => .lcp g

/-- PRT_RXDROP raised. -/
def Mach.rxDrop (m : Mach) (p : Nat) : Mach := m.count (Reg.prtRxdrop p)

/-- PRT_RXFRAMES raised by a frame with good FCS. -/
def Mach.rxCount (m : Mach) (p : Nat) (f : RxFrame) : Mach := if f.fcsOk then m.count (Reg.prtRxframes p) else m

/-- The session of a connection that SESSION and the source address match on a port (R79). -/
def Mach.connOf (m : Mach) (p ses src : Nat) : Option Nat :=
  match (m.live ses).conn with
  | some c => if c.port = p && c.peer.toNat = src then some ses else none
  | none => none

/-- A frame that fails step 5 (R79): NAK CHECK on its connection, else discarded. Where the role does not serve, discarded
(R99). -/
def Mach.rxBad (m : Mach) (p : Nat) (f : RxFrame) (detail : Nat) : Mach :=
  let h := parseHead f.octs
  let m1 := m.count (Reg.prtRxlcp p)
  if !m1.serving || m1.twin.latch then m1.rxDrop p
  else match m1.connOf p h.session h.src with
    | some s => m1.connNak s 5 detail h.seq
    | none => m1.rxDrop p

/-- A frame of LCP type `typ` handled by `act`; a row's command acts on frames of its own type only. -/
def Mach.rxTyped (m : Mach) (p : Nat) (f : RxFrame) (typ : Nat) (act : Mach → LcpFrame → Mach) : Mach :=
  if !m.receives p then m
  else match m.classify p f with
    | .bad t d => if t = typ then (m.rxCount p f).rxBad p f d else m
    | .lcp g => if g.typ = typ then act ((m.rxCount p f).count (Reg.prtRxlcp p)) g else m
    | _ => m

/-! ### HELLO (R82) -/

/-- The entry with a key. -/
def Mach.sessOf (m : Mach) (ten pid stream : Nat) : Option Nat :=
  (m.ledger.sessions.find? fun e => e.2.used && e.2.ten = ten && e.2.pid = pid && e.2.stream = stream).map Prod.fst

/-- The lowest-numbered FREE entry. -/
def Mach.freeSes (m : Mach) : Option Nat := findLt 4096 fun s => !(m.sess s).used

/-- A connection of entry `s` opened on port `p`, with the HELLO response and the replay (R82, R93). -/
def Mach.openConn (m : Mach) (p s : Nat) (g : LcpFrame) (existed : Bool) : Mach :=
  let m1 := m.closeConn s
  let l := m1.sess s
  let m2 := m1.setSess s { l with peer := w48 g.src, port := p }
  let e := m2.live s
  let c : Conn := { port := p, peer := w48 g.src, plim := g.credit, progressAt := m.now, rxAt := m.now }
  let m3 := m2.setLive s { e with conn := some c, gen := e.gen + 1, epochEnd := 0, outq := [] }
  let ctl := m3.reg (Reg.prtCtl p)
  let m4 := m3.connSend s 1 (if existed then 0xC0 else 0x80)
    (.helloRsp l.pid l.ten l.stream (fget ctl F.prtCtlIdle) (fget ctl F.prtCtlRto) l.h)
  (Mach.replayN 17 s (m4.replayEntries s) m4).flushReplies

/-- A new entry (R82). -/
def Mach.newSes (m : Mach) (s ten pid stream : Nat) : Mach :=
  (m.setSess s { used := true, ten := ten, pid := pid, stream := stream }).setLive s { gen := (m.live s).gen }

/-- A HELLO (R82, R339). An entry made for a new key stays where the HELLO is then refused for a full port: R82 makes it before
that check and undoes nothing (DEDUCED, log 84). A HELLO with RSP = 1 is no request: the spec gives it no handling at the module,
which discards it (DESIGN CHOICE, log 110). -/
def Mach.hello (m : Mach) (p : Nat) (g : LcpFrame) : Mach :=
  match g.body with
  | .helloReq pid ten stream =>
    if !m.serving || m.twin.latch then m.bareNak p g 2 3
    else if m.epoch < g.epoch then m.bareNak p g 3 0
    else if m.portSr p || !nbit (m.reg (Reg.prtTenmask p)).toNat ten then m.bareNak p g 2 2
    else
      let full := fun s => (match (m.live s).conn with
        | some c => c.port ≠ p
        | none => true) && 16 ≤ (m.portSessions p).length
      match m.sessOf ten pid stream with
      | some s => if full s then m.bareNak p g 2 1 else m.openConn p s g true
      | none =>
        match m.freeSes with
        | none => m.bareNak p g 2 0
        | some s =>
          let x := m.newSes s ten pid stream
          if full s then x.bareNak p g 2 1 else x.openConn p s g false
  | _ => m.rxDrop p

/-- HELLO (R82). -/
def execHelloFrame (p : PortId) (f : RxFrame) (s : State) : Host.Outcome State Fault Refusal :=
  s.lift fun m => m.rxTyped p.val f 1 fun x g => x.hello p.val g

/-! ### Frames on a connection (R79, R86 to R90) -/

/-- A credit limit received raises the limit for REPLY items and never lowers it (R89). -/
def raiseLimit (old credit : Nat) : Nat :=
  let d := (credit + 65536 - old % 65536) % 65536
  if d < 32768 then old + d else old

/-- The acknowledgement deadline of a connection brought forward (R87). -/
def Mach.ackWithin (m : Mach) (s n : Nat) : Mach :=
  let e := m.live s
  match e.conn with
  | none => m
  | some c =>
    let by_ := match c.ackBy with
      | some b => min b (m.now + n)
      | none => m.now + n
    m.setLive s { e with conn := some { c with ackBy := some by_ } }

/-- A frame that passes step 7 (R79): its connection has received a frame, and CUMACK and CREDIT apply. -/
def Mach.heard (m : Mach) (s : Nat) (g : LcpFrame) : Mach :=
  let e := m.live s
  match e.conn with
  | none => m
  | some c =>
    let m1 := m.setLive s { e with conn := some { c with rxAt := m.now, probed := false, plim := raiseLimit c.plim g.credit } }
    let m2 := (((m1.ackConn s g.cumack).flush s).flushReplies)
    if nbit g.flags 5 then m2.ackWithin s 64 else m2

/-- Steps 7 and 8 of R79: `act` runs on a frame of an open connection in a permitted epoch. -/
def Mach.onConn (m : Mach) (p : Nat) (g : LcpFrame) (act : Mach → Nat → Mach) : Mach :=
  if !m.serving || m.twin.latch then m.rxDrop p
  else match m.connOf p g.session g.src with
    | none => m.bareNak p g 2 4
    | some s =>
      let m1 := m.heard s g
      if (if g.typ = 2 then g.epoch ≠ m1.epoch else m1.epoch < g.epoch) then m1.connNak s 3 0 g.seq else act m1 s

/-- Step 9 of R79: `act` runs on the next expected sequence; a lower one draws an ACK, a higher one NAK SEQUENCE at most once a
folio (R86). -/
def Mach.inSequence (m : Mach) (s : Nat) (g : LcpFrame) (act : Mach → Mach) : Mach :=
  let e := m.live s
  match e.conn with
  | none => m
  | some c =>
    if g.seq = (c.rxseq + 1) % 2 ^ 32 then act m
    else if seqLt c.rxseq g.seq then
      if c.nakFolio = some (folioOf m.rt) then m
      else (m.setLive s { e with conn := some { c with nakFolio := some (folioOf m.rt) } }).connNak s 4 0 g.seq
    else m.connSend s 3 0 .none

/-- A sequence number taken. -/
def Mach.takeSeq (m : Mach) (s seq : Nat) : Mach :=
  let e := m.live s
  match e.conn with
  | none => m
  | some c => m.setLive s { e with conn := some { c with rxseq := seq } }

/-- The items of a DATA frame handed on in order (R75, R98): WORK and reserved types to the merge, STORED items at once. -/
def Mach.admitItems (p s frm : Nat) : Nat → List LcpItem → Mach → Mach
  | _, [], m => m
  | pos, i :: is, m =>
    let e := m.live s
    match e.conn with
    | none => m
    | some c =>
      let ord := c.nextOrd
      if i.itype = 2 then
        let m1 := m.setLive s { e with conn := some { c with nextOrd := ord + 1, stored := c.stored ++ [ord] } }
        Mach.admitItems p s frm (pos + 1) is (m1.storedItem s i)
      else
        let m1 := m.setLive s { e with conn := some { c with nextOrd := ord + 1, unans := c.unans ++ [(ord, i.id)] } }
        let x : MergeItem :=
          { stamp := m.rt, valid := m.rtValid, port := p, ses := s, frm := frm, pos := pos, ten := (m.sess s).ten, cgen := e.gen
            ord := ord, at_ := m.now + 134, item := i, orig := false, gated := true, badFmt := false, seat := 0 }
        Mach.admitItems p s frm (pos + 1) is { m1 with merge := mergeAdd x m1.merge }

/-- Step 10 of R79: the NAK detail that back-pressure, whatever L allows, or credit gives a DATA frame (R89, R90). -/
def Mach.busy (m : Mach) (s : Nat) (l : List LcpItem) : Option Nat :=
  match (m.live s).conn with
  | none => none
  | some c =>
    if m.backPressed (m.sess s).ten && l.any (fun i => i.itype = 1) then some 1
    else if c.lim < c.nextOrd + l.length then some 0
    else none

/-- A DATA frame on its connection (R79). -/
def Mach.data (m : Mach) (p s : Nat) (g : LcpFrame) : Mach :=
  m.inSequence s g fun x =>
    match g.body with
    | .items l =>
      match x.busy s l with
      | some d => x.connNak s 1 d g.seq
      | none =>
        let x1 := (Mach.admitItems p s x.order 0 l { x.takeSeq s g.seq with order := x.order + 1 }).ackWithin s 4096
        if l.any fun i => i.itype = 2 then x1.releaseAll.flushReplies else x1
    | _ => x

/-- DATA (R79). -/
def execDataFrame (p : PortId) (f : RxFrame) (s : State) : Host.Outcome State Fault Refusal :=
  s.lift fun m => m.rxTyped p.val f 2 fun x g => x.onConn p.val g fun y ses => y.data p.val ses g

/-- ACK (R86): CUMACK and CREDIT are all it carries. -/
def execAckFrame (p : PortId) (f : RxFrame) (s : State) : Host.Outcome State Fault Refusal :=
  s.lift fun m => m.rxTyped p.val f 3 fun x g => x.onConn p.val g fun y _ => y

/-- NAK (R87, R88). -/
def execNakFrame (p : PortId) (f : RxFrame) (s : State) : Host.Outcome State Fault Refusal :=
  s.lift fun m => m.rxTyped p.val f 4 fun x g =>
    (x.count (Reg.prtNakrx p.val)).onConn p.val g fun y ses =>
      match g.body with
      | .nak r _ _ => if r = 4 then y.retransmit ses else y
      | _ => y

/-- CREDIT (R89). -/
def execCreditFrame (p : PortId) (f : RxFrame) (s : State) : Host.Outcome State Fault Refusal :=
  s.lift fun m => m.rxTyped p.val f 7 fun x g => x.onConn p.val g fun y _ => y.flushReplies

/-- BYE (R83): acknowledged, then the connection closes. -/
def execByeFrame (p : PortId) (f : RxFrame) (s : State) : Host.Outcome State Fault Refusal :=
  s.lift fun m => m.rxTyped p.val f 9 fun x g => x.onConn p.val g fun y ses =>
    y.inSequence ses g fun z => ((z.takeSeq ses g.seq).connSend ses 3 0 .none).closeConn ses

/-- PROBE (R78): answered unless it is itself an answer. -/
def execProbeFrame (p : PortId) (f : RxFrame) (s : State) : Host.Outcome State Fault Refusal :=
  s.lift fun m => m.rxTyped p.val f 10 fun x g => x.onConn p.val g fun y ses =>
    match g.body with
    | .probe echo _ _ =>
      if nbit g.flags 7 then y else y.connSend ses 10 0x80 (.probe echo (secOf y.rt) (fracOf y.rt))
    | _ => y

/-! ### Frames outside LCP (R65 to R67, R71) -/

/-- LCP_FRAME_DISCARD (R71, R79): a frame that fails step 1, 2 or 4. -/
def execLcpFrameDiscard (p : PortId) (f : RxFrame) (s : State) : Host.Outcome State Fault Refusal :=
  s.lift fun m =>
    if m.receives p.val then
      match m.classify p.val f with
      | .drop => (m.rxCount p.val f).rxDrop p.val
      | _ => m
    else m

/-- A frame placed in a port's plain-frame queue of 64 (R66). No slip and no register of the spec takes a frame out of the queue
again, so here only a port reset empties it (DESIGN CHOICE, log 109). -/
def Mach.queuePlain (m : Mach) (p : Nat) (f : RxFrame) (stamp : Option (Nat × Nat)) : Mach :=
  if !m.bit (Reg.prtCtl p) F.prtCtlPlain then m.rxDrop p
  else if 64 ≤ (m.plain p).length then m.count (Reg.prtPlaindrop p)
  else (m.setPlain p (m.plain p ++ [{ octs := f.octs, stamp := stamp }])).raise (128 + p)

/-- PLAIN_FRAME (R66). -/
def execPlainFrame (p : PortId) (f : RxFrame) (s : State) : Host.Outcome State Fault Refusal :=
  s.lift fun m =>
    if m.receives p.val then
      match m.classify p.val f with
      | .plain => (m.rxCount p.val f).queuePlain p.val f none
      | _ => m
    else m

/-- PTP_FRAME (R67): a received event frame, stamped with RT and a sub-tick count. -/
def execPtpFrame (p : PortId) (f : RxFrame) (s : State) : Host.Outcome State Fault Refusal :=
  s.lift fun m =>
    if m.receives p.val then
      match m.classify p.val f with
      | .ptp => (m.rxCount p.val f).queuePlain p.val f (some (m.rt, f.sub % 60))
      | _ => m
    else m

/-- MAC_CONTROL_FRAME (R65). -/
def execMacControlFrame (p : PortId) (f : RxFrame) (s : State) : Host.Outcome State Fault Refusal :=
  s.lift fun m =>
    if m.receives p.val then
      match m.classify p.val f with
      | .mac => (m.rxCount p.val f).rxDrop p.val
      | _ => m
    else m

/-! ### Raw frames that leave (R67, R190) -/

/-- Whether octets are a PTP event message (R67). -/
def isPtpEvent (os : List Octet) : Bool := octField os 12 2 = 0x88F7 && octField os 14 1 % 16 ≤ 3

/-- A transmit stamp held (R67, R100). -/
def Mach.txStamp (m : Mach) (p sub : Nat) : Mach :=
  let old := m.reg (Reg.prtPtptxFrac p)
  let w := fset (fset (fset (fset 0 F.prtPtptxFracValid 1) F.prtPtptxFracSub (sub % 60)) F.prtPtptxFracFrac (fracOf m.rt))
    F.prtPtptxFracOver (b2n (fbit old F.prtPtptxFracValid || fbit old F.prtPtptxFracOver))
  (m.setReg (Reg.prtPtptxSec p) (w48 (secOf m.rt))).setReg (Reg.prtPtptxFrac p) w

/-- The oldest frame of a port's transmit queue leaves, padded to 60 octets and with its FCS (R190). -/
def Mach.frameLeft (m : Mach) (p sub : Nat) : Mach :=
  match m.queue p with
  | [] => m
  | r :: q =>
    if m.up && m.portEn p && m.linkUp p then
      let os := r.octs ++ List.replicate (60 - r.octs.length) 0
      let m1 := (m.setQueue p q).send (.raw p (os ++ fcsOctets os))
      let m2 := if m1.bit (Reg.prtCtl p) F.prtCtlPtp && isPtpEvent r.octs then m1.txStamp p sub else m1
      if r.posted then m2 else m2.wakeJob r.ctx 0 0
    else m

/-- FRAME_LEFT_PORT (R190). -/
def execFrameLeftPort (p : PortId) (sub : Nat) (s : State) : Host.Outcome State Fault Refusal :=
  s.lift fun m => m.frameLeft p.val sub

/-! ### Timers (R84, R87, R94) -/

/-- The connection of a session with what an action needs of it. -/
def Mach.withConn (m : Mach) (s : Nat) (act : Conn → Mach) : Mach :=
  match (m.live s).conn with
  | some c => act c
  | none => m

/-- ACK_DUE (R87). -/
def execAckDue (ses : SesId) (s : State) : Host.Outcome State Fault Refusal :=
  s.lift fun m => m.withConn ses.val fun c =>
    match c.ackBy with
    | some b => if b ≤ m.now then m.connSend ses.val 3 0 .none else m
    | none => m

/-- RETRANSMIT_TIMEOUT (R87): RTO folios without CUMACK progress. -/
def execRetransmitTimeout (ses : SesId) (s : State) : Host.Outcome State Fault Refusal :=
  s.lift fun m => m.withConn ses.val fun c =>
    if !c.unacked.isEmpty && c.progressAt + m.fld (Reg.prtCtl c.port) F.prtCtlRto * 4096 ≤ m.now then m.retransmit ses.val else m

/-- IDLE_PROBE (R84): IDLE / 4 folios without a frame, once for each silence. -/
def execIdleProbe (ses : SesId) (s : State) : Host.Outcome State Fault Refusal :=
  s.lift fun m => m.withConn ses.val fun c =>
    if !c.probed && c.rxAt + m.fld (Reg.prtCtl c.port) F.prtCtlIdle * 1024 ≤ m.now then
      let (echo, m1) := m.draw
      (m1.setLive ses.val { m1.live ses.val with conn := some { c with probed := true } }).connSend ses.val 10 0
        (.probe (echo % 2 ^ 64) (secOf m.rt) (fracOf m.rt))
    else m

/-- IDLE_TIMEOUT (R84): IDLE folios without a frame. -/
def execIdleTimeout (ses : SesId) (s : State) : Host.Outcome State Fault Refusal :=
  s.lift fun m => m.withConn ses.val fun c =>
    if c.rxAt + m.fld (Reg.prtCtl c.port) F.prtCtlIdle * 4096 ≤ m.now then m.bye ses.val 3 else m

/-- EPOCH_FRAME_REPEAT (R94). -/
def execEpochFrameRepeat (ses : SesId) (s : State) : Host.Outcome State Fault Refusal := s.lift fun m => m.epochFrame ses.val

/-! ### SES_CTL (R102) -/

/-- SES_STORAGE_WRITE (R102). -/
def execSesStorageWrite (w : Who) (ses : SesId) (v : Word) (s : State) : Host.Outcome State Fault Refusal :=
  s.lift fun m => m.sesCtlWrite w ses.val v

/-- KICK (R83, R102). -/
def execKick (w : Who) (ses : SesId) (v : Word) (s : State) : Host.Outcome State Fault Refusal :=
  s.lift fun m => m.sesCtlWrite w ses.val (fset v F.sesCtlKick 1)

/-- RETIRE (R85, R102). -/
def execRetire (w : Who) (ses : SesId) (v : Word) (s : State) : Host.Outcome State Fault Refusal :=
  s.lift fun m => m.sesCtlWrite w ses.val (fset v F.sesCtlRetire 1)

end Sys2Proof.Machine
end

