-- ==== Sys2Proof/Machine/Board.lean ====
section
/-! DEFINITION. The stocktake unit, notices and raised interrupts, the supplies and sideband pins, thermal trip, alerts and the
management target (R411 to R448). -/

namespace Sys2Proof.Machine

open Sys2Proof

/-! ### Present conditions (R417, R447) -/

/-- INT_FAULT (R417): the present conditions; in MODULE reset its reset value. -/
def Mach.intFaultRead (m : Mach) : Word :=
  if !m.up then 1
  else
    let nospare := m.seats.any fun e => e.2.noSpare && m.fld (Reg.cluSeat (e.1 / 16) (e.1 % 16)) F.cluSeatState = 4
    w48 (b2n (m.rtState ≠ 3) + b2n (m.alarms ≠ 0) * 2 + b2n (nbits (m.reg Reg.sealStat).toNat 5 2 ≠ 0) * 4 +
      b2n (m.reg Reg.memAlarm ≠ 0) * 8 + b2n nospare * 16 + b2n (m.bit Reg.enAlarm F.enAlarmExceeded) * 32)

/-- MOD_PINS (R447): an input on an absent rail reads low (R430). -/
def Mach.modPinsRead (m : Mach) : Word :=
  let l := fun (b : Bool) => b2n (b && m.pins.sba)
  let e := (Config.pinLevels m.now).toNat
  w48 (b2n m.pins.sbb * 64 + b2n m.pins.sba * 32 + l m.pins.pref * 16 + l m.pins.aliveIn * 8 + l (nbit e 2) * 4 + l (nbit e 1) * 2 +
    l (nbit e 0))

/-- The greater of two temperatures. -/
def hotter (a b : Nat) : Nat := if sgn 12 a < sgn 12 b then b else a

/-- MOD_TEMP (R441, R447): PEAK is no lower than TJ or than the site that tripped. -/
def Mach.modTempRead (m : Mach) : Word :=
  if !m.up then 0
  else
    let tj := (Config.sensorTj m.now).toNat
    let pk := hotter (hotter tj (Config.sensorPeak m.now).toNat) (m.fld Reg.modTemp F.modTempPeak)
    fset (fset (m.reg Reg.modTemp) F.modTempPeak pk) F.modTempTj tj

/-- MOD_SUPPLY (R447). -/
def Mach.modSupplyRead (m : Mach) : Word := if m.up then w48 (Config.sensorSupply m.now).toNat else 0

/-! ### Stocktake (R411 to R415) -/

/-- A write of STK_FIRE (R411, R426). -/
def Mach.stkFireSet (m : Mach) (w : Who) (v : Word) : Mach := if w.house && nbit v.toNat 0 then m.stkTrigger 2 else m

/-- A write of STK_ARM (R413, R426): ignored in a latch tick. -/
def Mach.stkArmSet (m : Mach) (w : Who) (v : Word) : Mach :=
  if w.house && nbit v.toNat 0 && m.stk.last ≠ some m.now then m.setFld Reg.stkStat F.stkStatLocked 0 else m

/-- The latch of a due stocktake (R412), but for the snapshot. -/
def Mach.stkLatched (m : Mach) (src : Nat) : Mach :=
  let w := fset (fset (fset (fset (m.reg Reg.stkStat) F.stkStatValid 1) F.stkStatLocked 1) F.stkStatPending 0) F.stkStatSrc src
  let m1 : Mach := { m with stk := { m.stk with due := none, last := some m.now } }
  let m2 := (m1.setReg Reg.stkStat w).setReg Reg.stkTsec (w48 (secOf m.rt))
  ((m2.setReg Reg.stkTfrac (w48 (fracOf m.rt))).count Reg.stkCount).raise 2

/-- STKT_OUT (R415): high from the tick after its trigger to the third. -/
def Mach.stktOut (m : Mach) : Bool :=
  m.up && m.committed && m.pins.sba && (match m.stk.out with
    | some n => n + 1 ≤ m.now && m.now < n + 3
    | none => false)

/-! ### Notices and raised interrupts (R418, R423, R426) -/

/-- A write of NOTE_POP (R425). -/
def Mach.notePopSet (m : Mach) (w : Who) (t : Nat) (v : Word) : Mach :=
  if w.openTen t && nbit v.toNat 0 then m.setNoteq t (m.noteq t).tail else m

/-- Who may act on source `i`: software of its routed tenant, of T00 or the strongroom; a strongroom route has no tenant
(R422, R423, R426). -/
def Mach.mayInt (m : Mach) (w : Who) (i : Nat) : Bool :=
  w.house || (!m.bit (Reg.intRoute i) F.intRouteSr && w.ten = m.fld (Reg.intRoute i) F.intRouteTenant)

/-- A write of INT_RAISE (R423). -/
def Mach.intRaiseSet (m : Mach) (w : Who) (v : Word) : Mach :=
  let i := v.toNat % 1024
  if 512 ≤ i && m.mayInt w i then m.raise i else m

/-! ### Power and reset (R434 to R437) -/

/-- VAUX comes up (R41, R42, R436): everything but the fuses starts again, in MODULE reset with cause POWER, RT counts from the
first input present, and the board's strap is taken (log 100). -/
def Mach.powerUp (m : Mach) : Mach :=
  let m1 : Mach :=
    { now := m.now, refs := m.refs, sent := m.sent, free := m.free + 1,
      memst := { xts := Config.freeValue m.free % 2 ^ 512 }
      units := m.units.filterMap fun e => if e.2.failed then some (e.1, { failed := true }) else none
      sr := { fuse := m.sr.fuseNext, fuseNext := m.sr.fuseNext },
      pins := { m.pins with vaux := true, inReset := true, cause := 0, tripped := false, pref := Config.twinPref } }
  m1.setFld Reg.rtStat F.rtStatRefact ((m1.firstRef 4).getD 0)

/-- A supply event that starts a MODULE reset with cause POWER, where VAUX is present. -/
def Mach.powerFault (m : Mach) : Mach := if m.pins.vaux then m.moduleReset 0 else m

/-- MODULE_RESET_END (R434, R437): with VAUX, PWR_OK and RESET_N high; a rail that is absent reads low (R430). While the lid mesh
reads breached the module stays in reset (R357). -/
def Mach.resetEnd (m : Mach) : Mach :=
  if !(m.pins.inReset && m.pins.vaux && m.pins.pwrOk && m.pins.resetN && m.pins.sbb) then m
  else if m.pins.breached && Config.meshBreached m.now then m
  else
    let m1 : Mach := { m with
      pins := { m.pins with inReset := false, cause := 0, breached := false }
      openFolio := folioOf m.rt
      twin := { m.twin with lostAtA := m.now, lostAtB := m.now } }
    let m2 := (m1.setFld Reg.srRstcause F.srRstcauseCause m.pins.cause).setFld Reg.modState F.modStatePref
      (b2n (m.pins.pref && m.pins.sba))
    m2.setFld Reg.twnStat F.twnStatAlivein (b2n (m.pins.aliveIn && m.pins.sba))

/-- THERMAL_TRIP (R441): a site at 115 °C or above: the fence latch, the heartbeat transmitters stop, every port and the twin
link go idle. -/
def Mach.trip (m : Mach) (tj : Nat) : Mach :=
  if !m.up || m.pins.tripped || sgn 12 tj < 920 then m
  else
    let m1 := ({ m with pins := { m.pins with tripped := true } } : Mach).moduleLost
    let m2 := (List.range 256).foldl Mach.portDown m1
    let m3 := if m2.twin.linkUp then m2.linkDown else m2
    m3.setReg Reg.modTemp (fset (fset (m3.reg Reg.modTemp) F.modTempTrip 1) F.modTempPeak
      (hotter (m3.fld Reg.modTemp F.modTempPeak) tj))

/-- THERM_TRIP_N is driven low (R441). -/
def Mach.thermTripLow (m : Mach) : Bool := m.up && m.pins.tripped

/-- ALERT_N is low (R442). -/
def Mach.alertLow (m : Mach) : Bool := m.up && m.intFaultRead &&& (m.reg Reg.modAlerten) ≠ 0

/-! ### The management target (R443, R444) -/

/-- The target runs (R443). -/
def Mach.mgmtRuns (m : Mach) : Bool := m.pins.vaux && m.pins.sbb

/-- The MGMT attribute (R338). -/
def Mach.mgmtSr (m : Mach) : Bool := m.bit Reg.srAttrPin F.srAttrPinMgmt

/-- A Block Read that returns a register, or a NAK under the MGMT attribute (R443). -/
def Mach.mgmtWord (m : Mach) (always : Bool) (v : Word) : Mach :=
  if !m.mgmtRuns then m
  else if m.mgmtSr && !always then m.send .mgmtNak
  else m.send (.mgmt (6 :: octetsOfWord v))

/-- Whether a command octet is served under the present attribute (R443, R444). -/
def Mach.mgmtServed (m : Mach) (cmd : Nat) : Bool :=
  if m.mgmtSr then cmd = 5 || cmd = 0x80 || cmd = 0x81 else 1 ≤ cmd && cmd ≤ 0xD

/-- Octets into SR_MBIN, those beyond them left as they are. -/
def Mach.mbIn (m : Mach) (os : List Octet) : Mach :=
  let old := octetsOfWords ((List.range 5).map fun i => m.reg (Reg.srMbin i))
  ((wordsOfOctets 5 (os ++ old.drop os.length)).zipIdx).foldl (fun x e => x.setReg (Reg.srMbin e.2) e.1) m

/-- MBOX_WRITE (R444): a Block Write of 1 to 30 octets. -/
def Mach.mboxWrite (m : Mach) (os : List Octet) : Mach :=
  if !m.mgmtRuns then m
  else if !m.mgmtSr || m.bit Reg.srMbstat F.srMbstatInfull then m.send .mgmtNak
  else if os.isEmpty || 30 < os.length then m
  else (m.mbIn os).setReg Reg.srMbstat (fset (fset (m.reg Reg.srMbstat) F.srMbstatInfull 1) F.srMbstatInlen os.length)

/-- MBOX_READ (R444). -/
def Mach.mboxRead (m : Mach) : Mach :=
  if !m.mgmtRuns then m
  else if !m.mgmtSr then m.send .mgmtNak
  else if m.bit Reg.srMbstat F.srMbstatOutfull then
    let n := m.fld Reg.srMbstat F.srMbstatOutlen
    let os := (octetsOfWords ((List.range 5).map fun i => m.reg (Reg.srMbout i))).take n
    (m.send (.mgmt (BitVec.ofNat 8 n :: os))).setFld Reg.srMbstat F.srMbstatOutfull 0
  else m.send (.mgmt [0])

/-! ### The commands -/

/-- STK_FIRE (R411). -/
def execStkFire (w : Who) (v : Word) (s : State) : Host.Outcome State Fault Refusal := s.lift fun m => m.stkFireSet w (v ||| 1)

/-- STKT_IN_EDGE (R411). -/
def execStktInEdge (s : State) : Host.Outcome State Fault Refusal :=
  s.lift fun m => if m.up && m.pins.sba && m.bit Reg.stkCtl F.stkCtlPinen then m.stkTrigger 3 else m

/-- STOCKTAKE_LATCH (R412): the snapshot is the module as it stands at the latch tick. -/
def execStocktakeLatch (s : State) : Host.Outcome State Fault Refusal :=
  match s.stk.due with
  | some (t, src) => if s.up && t ≤ s.now then .next { s with toMach := s.stkLatched src, snap := some s.toMach } else .next s
  | none => .next s

/-- STK_ARM (R413). -/
def execStkArm (w : Who) (v : Word) (s : State) : Host.Outcome State Fault Refusal := s.lift fun m => m.stkArmSet w (v ||| 1)

/-- NOTE_POP (R425). -/
def execNotePop (w : Who) (t : TenId) (v : Word) (s : State) : Host.Outcome State Fault Refusal :=
  s.lift fun m => m.notePopSet w t.val (v ||| 1)

/-- INT_RAISE (R423). -/
def execIntRaise (w : Who) (v : Word) (s : State) : Host.Outcome State Fault Refusal := s.lift fun m => m.intRaiseSet w v

/-- VAUX_RISE (R41, R436). -/
def execVauxRise (s : State) : Host.Outcome State Fault Refusal := s.lift fun m => if m.pins.vaux then m else m.powerUp

/-- VAUX_LOSS (R435). -/
def execVauxLoss (s : State) : Host.Outcome State Fault Refusal :=
  s.lift fun m => { m.powerUp with pins := { m.powerUp.pins with vaux := false } }

/-- PWR_OK_RISE (R434). -/
def execPwrOkRise (s : State) : Host.Outcome State Fault Refusal :=
  s.lift fun m => { m with pins := { m.pins with pwrOk := true } }

/-- PWR_OK_FALL (R435). -/
def execPwrOkFall (s : State) : Host.Outcome State Fault Refusal :=
  s.lift fun m => ({ m with pins := { m.pins with pwrOk := false } } : Mach).powerFault

/-- VIN_UNDERVOLTAGE (R435): with PWR_OK high. -/
def execVinUndervoltage (s : State) : Host.Outcome State Fault Refusal := s.lift fun m => if m.pins.pwrOk then m.powerFault else m

/-- VIO_SBB_LOSS (R435): with PWR_OK high. -/
def execVioSbbLoss (s : State) : Host.Outcome State Fault Refusal :=
  s.lift fun m =>
    let m1 : Mach := { m with pins := { m.pins with sbb := false } }
    if m.pins.pwrOk then m1.powerFault else m1

/-- VIO_SBB_RETURN (R430, R443). -/
def execVioSbbReturn (s : State) : Host.Outcome State Fault Refusal :=
  s.lift fun m => { m with pins := { m.pins with sbb := true } }

/-- VIO_SBA_LOSS (R435): the loopback check fails and the module fences. -/
def execVioSbaLoss (s : State) : Host.Outcome State Fault Refusal :=
  s.lift fun m =>
    let m1 : Mach := { m with pins := { m.pins with sba := false } }
    if m.up && m.committed then m1.moduleLost else m1

/-- VIO_SBA_RETURN (R430): the inputs on the rail read at their levels again; a high TWIN_ALIVE_IN reads high at once (R137). -/
def execVioSbaReturn (s : State) : Host.Outcome State Fault Refusal :=
  s.lift fun m =>
    let m1 : Mach := { m with pins := { m.pins with sba := true } }
    if m.up && m.pins.aliveIn then (m1.setFld Reg.twnStat F.twnStatAlivein 1).twnAlarm F.twnAlarmAlivemis false else m1

/-- RESET_N_LOW (R437): RESET_N reads low already while VIO_SBB is absent. -/
def execResetNLow (s : State) : Host.Outcome State Fault Refusal :=
  s.lift fun m =>
    let m1 : Mach := { m with pins := { m.pins with resetN := false } }
    if m.pins.vaux && m.pins.sbb then m1.moduleReset 1 else m1

/-- RESET_N_RISE (R434). -/
def execResetNRise (s : State) : Host.Outcome State Fault Refusal :=
  s.lift fun m => { m with pins := { m.pins with resetN := true } }

/-- MODULE_RESET_END (R434). -/
def execModuleResetEnd (s : State) : Host.Outcome State Fault Refusal := s.lift Mach.resetEnd

/-- THERMAL_TRIP (R441). -/
def execThermalTrip (tj : BitVec 12) (s : State) : Host.Outcome State Fault Refusal := s.lift fun m => m.trip tj.toNat

/-- ALERT_RESPONSE (R442): the 7-bit address 0x58 in the upper bits of the octet. -/
def execAlertResponse (s : State) : Host.Outcome State Fault Refusal :=
  s.lift fun m => if m.mgmtRuns && m.alertLow then m.send (.mgmt [0xB0]) else m

/-- MGMT_READ_MOD_PART (R443). -/
def execMgmtReadModPart (s : State) : Host.Outcome State Fault Refusal := s.lift fun m => m.mgmtWord false (m.reg Reg.modPart)

/-- MGMT_READ_SERIAL_HI (R443). -/
def execMgmtReadSerialHi (s : State) : Host.Outcome State Fault Refusal := s.lift fun m => m.mgmtWord false (m.reg Reg.modSerialHi)

/-- MGMT_READ_SERIAL_LO (R443). -/
def execMgmtReadSerialLo (s : State) : Host.Outcome State Fault Refusal := s.lift fun m => m.mgmtWord false (m.reg Reg.modSerialLo)

/-- MGMT_READ_MOD_STATE (R443). -/
def execMgmtReadModState (s : State) : Host.Outcome State Fault Refusal := s.lift fun m => m.mgmtWord false (m.reg Reg.modState)

/-- MGMT_READ_SR_BOOT (R443, R352). -/
def execMgmtReadSrBoot (s : State) : Host.Outcome State Fault Refusal := s.lift fun m => m.mgmtWord true (m.reg Reg.srBoot)

/-- MGMT_READ_SR_RSTCAUSE (R443). -/
def execMgmtReadSrRstcause (s : State) : Host.Outcome State Fault Refusal := s.lift fun m => m.mgmtWord false (m.reg Reg.srRstcause)

/-- MGMT_READ_TWN_STAT (R443). -/
def execMgmtReadTwnStat (s : State) : Host.Outcome State Fault Refusal := s.lift fun m => m.mgmtWord false (m.reg Reg.twnStat)

/-- MGMT_READ_TWN_EPOCH (R443). -/
def execMgmtReadTwnEpoch (s : State) : Host.Outcome State Fault Refusal := s.lift fun m => m.mgmtWord false (m.reg Reg.twnEpoch)

/-- MGMT_READ_INT_FAULT (R443). -/
def execMgmtReadIntFault (s : State) : Host.Outcome State Fault Refusal := s.lift fun m => m.mgmtWord false m.intFaultRead

/-- MGMT_READ_RT_STAT (R443). -/
def execMgmtReadRtStat (s : State) : Host.Outcome State Fault Refusal := s.lift fun m => m.mgmtWord false (m.reg Reg.rtStat)

/-- MGMT_READ_MOD_TEMP (R443). -/
def execMgmtReadModTemp (s : State) : Host.Outcome State Fault Refusal := s.lift fun m => m.mgmtWord false m.modTempRead

/-- MGMT_READ_MOD_SUPPLY (R443). -/
def execMgmtReadModSupply (s : State) : Host.Outcome State Fault Refusal := s.lift fun m => m.mgmtWord false m.modSupplyRead

/-- MGMT_READ_EN_TOTAL (R443). -/
def execMgmtReadEnTotal (s : State) : Host.Outcome State Fault Refusal :=
  s.lift fun m => m.mgmtWord false (m.reg (Reg.enTally 0x42))

/-- MGMT_UNLISTED_COMMAND (R443, R444). -/
def execMgmtUnlistedCommand (cmd : BitVec 8) (s : State) : Host.Outcome State Fault Refusal :=
  s.lift fun m => if m.mgmtRuns && !m.mgmtServed cmd.toNat then m.send .mgmtNak else m

/-- MBOX_WRITE (R444). -/
def execMboxWrite (octs : List Octet) (s : State) : Host.Outcome State Fault Refusal := s.lift fun m => m.mboxWrite octs

/-- MBOX_READ (R444). -/
def execMboxRead (s : State) : Host.Outcome State Fault Refusal := s.lift Mach.mboxRead

end Sys2Proof.Machine
end

