-- ==== Sys2Proof/Machine/Aes.lean ====
section
/-! DEFINITION. AES and the modes of the cipher engine, which the spec names by their standards: SP 800-38D (GCM), IEEE 1619 (XTS),
SP 800-38B (CMAC), SP 800-38F (KW and KWP) (R359). The functions themselves are those standards', not the spec's (PRESUMED,
log 2). -/

namespace Sys2Proof.Machine

open Sys2Proof

/-! ### The block cipher -/

/-- The substitution of an octet. -/
def aesSub : List Nat :=
  [99, 124, 119, 123, 242, 107, 111, 197, 48, 1, 103, 43, 254, 215, 171, 118, 202, 130, 201, 125, 250, 89, 71, 240, 173, 212, 162, 175, 156, 164, 114, 192] ++
  [183, 253, 147, 38, 54, 63, 247, 204, 52, 165, 229, 241, 113, 216, 49, 21, 4, 199, 35, 195, 24, 150, 5, 154, 7, 18, 128, 226, 235, 39, 178, 117] ++
  [9, 131, 44, 26, 27, 110, 90, 160, 82, 59, 214, 179, 41, 227, 47, 132, 83, 209, 0, 237, 32, 252, 177, 91, 106, 203, 190, 57, 74, 76, 88, 207] ++
  [208, 239, 170, 251, 67, 77, 51, 133, 69, 249, 2, 127, 80, 60, 159, 168, 81, 163, 64, 143, 146, 157, 56, 245, 188, 182, 218, 33, 16, 255, 243, 210] ++
  [205, 12, 19, 236, 95, 151, 68, 23, 196, 167, 126, 61, 100, 93, 25, 115, 96, 129, 79, 220, 34, 42, 144, 136, 70, 238, 184, 20, 222, 94, 11, 219] ++
  [224, 50, 58, 10, 73, 6, 36, 92, 194, 211, 172, 98, 145, 149, 228, 121, 231, 200, 55, 109, 141, 213, 78, 169, 108, 86, 244, 234, 101, 122, 174, 8] ++
  [186, 120, 37, 46, 28, 166, 180, 198, 232, 221, 116, 31, 75, 189, 139, 138, 112, 62, 181, 102, 72, 3, 246, 14, 97, 53, 87, 185, 134, 193, 29, 158] ++
  [225, 248, 152, 17, 105, 217, 142, 148, 155, 30, 135, 233, 206, 85, 40, 223, 140, 161, 137, 13, 191, 230, 66, 104, 65, 153, 45, 15, 176, 84, 187, 22]

def subOctet (b : Octet) : Octet := BitVec.ofNat 8 (aesSub.getD b.toNat 0)
def invSubOctet (b : Octet) : Octet := BitVec.ofNat 8 (aesSub.findIdx (· = b.toNat))

/-- An octet times x in the field of AES; and the product of two octets. -/
def aesTimes (b : Octet) : Octet := (b <<< 1) ^^^ (if b.msb then 0x1B#8 else 0)
def aesMul : Nat → Octet → Octet → Octet
  | 0, _, _ => 0
  | n + 1, a, b => (if nbit a.toNat 0 then b else 0) ^^^ aesMul n (a >>> 1) (aesTimes b)

/-- Octets combined bit by bit. -/
def xorOctets (a b : List Octet) : List Octet := a.zipWith (· ^^^ ·) b

/-- The words of a key schedule, newest first, grown by `n` words; `nk` words of key, `c` the next round constant. -/
def aesExpand (nk : Nat) : Nat → Octet → List (List Octet) → List (List Octet)
  | 0, _, l => l
  | n + 1, c, l =>
    let t := l.getD 0 []
    let i := l.length
    let u := if i % nk = 0 then xorOctets ((t.drop 1 ++ t.take 1).map subOctet) [c, 0, 0, 0]
      else if 6 < nk && i % nk = 4 then t.map subOctet else t
    aesExpand nk n (if i % nk = 0 then aesTimes c else c) (xorOctets (l.getD (nk - 1) []) u :: l)

/-- A list cut into pieces of `k`, `n` of them. -/
def chunksOf {α : Type} (k : Nat) : Nat → List α → List (List α)
  | 0, _ => []
  | n + 1, l => l.take k :: chunksOf k n (l.drop k)

/-- The round keys of a key of 16 or 32 octets, first to last. -/
def aesKeys (key : List Octet) : List (List Octet) :=
  let nk := if key.length = 16 then 4 else 8
  let w := (aesExpand nk (4 * (nk + 7) - nk) 1#8 (chunksOf 4 nk key).reverse).reverse
  (chunksOf 4 (nk + 7) w).map List.flatten

/-- Rows turned to the left, and back: the octet at row r, column c of the state is the octet r + 4c. -/
def aesShift (s : List Octet) : List Octet := (List.range 16).map fun i => s.getD ((i + 4 * (i % 4)) % 16) 0
def aesUnshift (s : List Octet) : List Octet := (List.range 16).map fun i => s.getD ((i + 12 * (i % 4)) % 16) 0

/-- Columns multiplied by a row of the field's matrix. -/
def aesMix (row : List Octet) (s : List Octet) : List Octet :=
  (List.range 16).map fun i =>
    (List.range 4).foldl (fun a k => a ^^^ aesMul 8 (row.getD k 0) (s.getD (4 * (i / 4) + (i + k) % 4) 0)) 0

/-- A block enciphered under round keys. -/
def aesEncBlock (ks : List (List Octet)) (b : List Octet) : List Octet :=
  let last := ks.length - 1
  let mid := ((ks.drop 1).take (last - 1)).foldl (fun s k => xorOctets (aesMix [2, 3, 1, 1] (aesShift (s.map subOctet))) k)
    (xorOctets b (ks.getD 0 []))
  xorOctets (aesShift (mid.map subOctet)) (ks.getD last [])

/-- A block deciphered under round keys. -/
def aesDecBlock (ks : List (List Octet)) (b : List Octet) : List Octet :=
  let last := ks.length - 1
  let mid := ((ks.drop 1).take (last - 1)).reverse.foldl
    (fun s k => aesMix [14, 11, 13, 9] (xorOctets ((aesUnshift s).map invSubOctet) k)) (xorOctets b (ks.getD last []))
  xorOctets ((aesUnshift mid).map invSubOctet) (ks.getD 0 [])

/-- Octets with zero octets after them up to whole blocks, as blocks. -/
def aesBlocks (os : List Octet) : List (List Octet) :=
  let n := (os.length + 15) / 16
  chunksOf 16 n (os ++ List.replicate (16 * n - os.length) 0)

/-! ### GCM -/

/-- The product of two blocks in the field of GCM, bit 127 the first: `n` bits of `x` from the first on. -/
def ghashMul : Nat → BitVec 128 → BitVec 128 → BitVec 128
  | 0, _, _ => 0
  | n + 1, x, v =>
    (if x.msb then v else 0) ^^^ ghashMul n (x <<< 1) ((v >>> 1) ^^^ (if nbit v.toNat 0 then 0xE1000000000000000000000000000000#128 else 0))

/-- A block as a number of 128 bits. -/
def blockNat (b : List Octet) : BitVec 128 := BitVec.ofNat 128 (natOfOctets b)

/-- The hash of blocks under a subkey. -/
def ghash (h : BitVec 128) (bs : List (List Octet)) : BitVec 128 := bs.foldl (fun y b => ghashMul 128 (y ^^^ blockNat b) h) 0

/-- The counter block of an initial value of 12 octets, and the key stream applied from a counter on. -/
def gcmCtr (ks : List (List Octet)) (iv : List Octet) : Nat → List (List Octet) → List Octet
  | _, [] => []
  | c, b :: bs => xorOctets (aesEncBlock ks (iv ++ octetsBE 4 c)) b ++ gcmCtr ks iv (c + 1) bs

/-- The tag of additional data and ciphertext. -/
def gcmTag (ks : List (List Octet)) (iv aad ct : List Octet) : List Octet :=
  let h := blockNat (aesEncBlock ks (List.replicate 16 0))
  let s := ghash h (aesBlocks aad ++ aesBlocks ct ++ [octetsBE 8 (8 * aad.length) ++ octetsBE 8 (8 * ct.length)])
  xorOctets (octetsBE 16 s.toNat) (aesEncBlock ks (iv ++ octetsBE 4 1))

/-- GCM encryption: the ciphertext, then the tag. -/
def gcmSeal (key iv aad os : List Octet) : List Octet :=
  let ks := aesKeys key
  let ct := (gcmCtr ks iv 2 (aesBlocks os)).take os.length
  ct ++ gcmTag ks iv aad ct

/-- GCM decryption of a ciphertext with its tag of 16 octets after it: the plaintext, and whether the tag fails. -/
def gcmOpen (key iv aad os : List Octet) : List Octet × Bool :=
  let ks := aesKeys key
  let ct := os.take (os.length - 16)
  ((gcmCtr ks iv 2 (aesBlocks ct)).take ct.length, gcmTag ks iv aad ct ≠ os.drop (os.length - 16))

/-! ### XTS -/

/-- A tweak times the field's generator: the octets are the least significant first. -/
def xtsNext (t : List Octet) : List Octet :=
  let n := natOfOctets t.reverse
  (octetsBE 16 ((2 * n) % 2 ^ 128 ^^^ (if nbit n 127 then 0x87 else 0))).reverse

/-- One block under a tweak. -/
def xtsBlock (f : List Octet → List Octet) (t b : List Octet) : List Octet := xorOctets (f (xorOctets b t)) t

/-- One data unit of at least one block: `n` whole blocks are left. The last two trade octets where the last is partial, and a
decryption then uses their tweaks in the other order. -/
def xtsUnit (f : List Octet → List Octet) (dec : Bool) : Nat → List Octet → List Octet → List Octet
  | 0, _, _ => []
  | n + 1, t, os =>
    let r := os.length - 16
    if n = 0 && 0 < r then
      let t1 := xtsNext t
      let c := xtsBlock f (if dec then t1 else t) (os.take 16)
      xtsBlock f (if dec then t else t1) (os.drop 16 ++ c.drop r) ++ c.take r
    else xtsBlock f t (os.take 16) ++ xtsUnit f dec n (xtsNext t) (os.drop 16)

/-- XTS under a key of 64 octets: the first half for the data, the second for the tweak. -/
def xts (dec : Bool) (key tweak os : List Octet) : List Octet :=
  let ks := aesKeys (key.take 32)
  let t := aesEncBlock (aesKeys (key.drop 32)) tweak
  xtsUnit (if dec then aesDecBlock ks else aesEncBlock ks) dec (os.length / 16) t os

/-! ### CMAC -/

/-- A subkey doubled in the field of CMAC. -/
def cmacDouble (b : List Octet) : List Octet :=
  let n := natOfOctets b
  octetsBE 16 ((2 * n) % 2 ^ 128 ^^^ (if nbit n 127 then 0x87 else 0))

/-- The tag of octets. -/
def aesCmac (key os : List Octet) : List Octet :=
  let ks := aesKeys key
  let k1 := cmacDouble (aesEncBlock ks (List.replicate 16 0))
  let n := if os.isEmpty then 1 else (os.length + 15) / 16
  let last := os.drop (16 * (n - 1))
  let m := if last.length = 16 then xorOctets last k1
    else xorOctets (last ++ [0x80#8] ++ List.replicate (15 - last.length) 0) (cmacDouble k1)
  aesEncBlock ks (xorOctets m ((chunksOf 16 (n - 1) os).foldl (fun y b => aesEncBlock ks (xorOctets y b)) (List.replicate 16 0)))

/-! ### KW and KWP -/

/-- Steps of the wrapping function, `t` the step's number: the first half-block and the others in order. -/
def kwSteps (ks : List (List Octet)) : Nat → Nat → List Octet × List (List Octet) → List Octet × List (List Octet)
  | 0, _, s => s
  | n + 1, t, (a, rs) =>
    let b := aesEncBlock ks (a ++ rs.headD [])
    kwSteps ks n (t + 1) (xorOctets (b.take 8) (octetsBE 8 t), rs.drop 1 ++ [b.drop 8])

/-- The same steps undone. -/
def kwUnsteps (ks : List (List Octet)) : Nat → List Octet × List (List Octet) → List Octet × List (List Octet)
  | 0, s => s
  | t + 1, (a, rs) =>
    let b := aesDecBlock ks (xorOctets a (octetsBE 8 (t + 1)) ++ rs.getLastD [])
    kwUnsteps ks t (b.take 8, b.drop 8 :: rs.dropLast)

/-- The wrapping function on half-blocks, an initial value before them. -/
def kwWrapF (key iv : List Octet) (rs : List (List Octet)) : List Octet :=
  let r := kwSteps (aesKeys key) (6 * rs.length) 1 (iv, rs)
  r.1 ++ r.2.flatten

/-- KW of octets in whole half-blocks, or with `pad` KWP of any. -/
def kwSeal (pad : Bool) (key os : List Octet) : List Octet :=
  let n := (os.length + 7) / 8
  let p := os ++ List.replicate (8 * n - os.length) 0
  if !pad then kwWrapF key (List.replicate 8 0xA6#8) (chunksOf 8 n p)
  else
    let iv := [0xA6#8, 0x59#8, 0x59#8, 0xA6#8] ++ octetsBE 4 os.length
    if n ≤ 1 then aesEncBlock (aesKeys key) (iv ++ p) else kwWrapF key iv (chunksOf 8 n p)

/-- The other way: the plaintext, and whether its check fails. -/
def kwOpen (pad : Bool) (key os : List Octet) : List Octet × Bool :=
  let n := os.length / 8 - 1
  let ks := aesKeys key
  let (a, p) :=
    if pad && n ≤ 1 then
      let b := aesDecBlock ks os
      (b.take 8, b.drop 8)
    else
      let r := kwUnsteps ks (6 * n) (os.take 8, chunksOf 8 n (os.drop 8))
      (r.1, r.2.flatten)
  if !pad then (p, a ≠ List.replicate 8 0xA6#8)
  else
    let k := octField a 4 4
    (p.take k, a.take 4 ≠ [0xA6#8, 0x59#8, 0x59#8, 0xA6#8] || 8 * n < k || k + 8 ≤ 8 * n || (p.drop k).any (· ≠ 0))

/-! ### The operations of R359 -/

/-- AES of one job of R359: the operation, whether KWP is selected, the key, the initial value or tweak, the additional data
and the data; the octets out (GCM: text then tag) and whether the check of a verifying operation fails. -/
def aesJob (op : Nat) (pad : Bool) (key iv aad os : List Octet) : List Octet × Bool :=
  match op with
  | 1 => (gcmSeal key iv aad os, false)
  | 2 => gcmOpen key iv aad os
  | 3 => (xts false key iv os, false)
  | 4 => (xts true key iv os, false)
  | 5 => (aesCmac key os, false)
  | 7 => (kwSeal pad key os, false)
  | _ => kwOpen pad key os

end Sys2Proof.Machine
end

