-- ==== Sys2Proof/Machine/MicroSeq.lean ====
section
/-! DEFINITION. The sequencers of microcode: microwords, match entries, and a sequencer's run from one safe point to the next
(R384 to R389, R392). -/

namespace Sys2Proof.Machine

open Sys2Proof

/-! ### Microwords (R385, R389, R390) -/

/-- Match entry `i` of a package, T(2 + i). -/
def tipMatch (ws : List Word) (i : Nat) : Word := ws.getD (2 + i) 0

/-- Patch word `k` of a package, T(18 + 3k) to T(20 + 3k). -/
def tipPatch (ws : List Word) (k : Nat) : BitVec 144 := ws.getD (18 + 3 * k) 0 ++ ws.getD (19 + 3 * k) 0 ++ ws.getD (20 + 3 * k) 0

/-- The address fetched where a sequencer of a class produces a micro-address, under the match entries of a bank: patch word
TARGET of the lowest entry that is enabled and names the class and the address (R389). -/
def microMatch (bank : List Word) (cls a : Nat) : Nat :=
  match (List.range 16).find? fun i =>
      let e := tipMatch bank i
      fbit e F.ucMatchEn && nbit (fget e F.ucMatchClass) cls && fget e F.ucMatchRomaddr = a with
  | some i => 0x4000 + fget (tipMatch bank i) F.ucMatchTarget
  | none => a

/-- The microword at a micro-address: the ROM's, or a patch word of the bank (R385). -/
def microWord (bank : List Word) (a : Nat) : BitVec 144 :=
  if a < 0x4000 then Config.rom a else tipPatch bank (a - 0x4000)

/-- The fields of a microword that control sequencing (R385). -/
def microNext (w : BitVec 144) : Nat := (w.extractLsb' 140 4).toNat
def microCond (w : BitVec 144) : Nat := (w.extractLsb' 136 4).toNat
def microTarget (w : BitVec 144) : Nat := (w.extractLsb' 121 15).toNat
def microSafe (w : BitVec 144) : Bool := w.getLsbD 120

/-- A micro-address that R385 does not reserve. -/
def microAddr (a : Nat) : Bool := a < 0x4040

/-- The micro-PC plus 1; past the ROM's end it is a reserved address (R386). -/
def microSucc (a : Nat) : Nat := if a = 0x3FFF then 0x4040 else a + 1

/-- The next micro-PC and micro-stack that a microword fetched at an address gives; none where it faults (R385, R386). `seed` names
the datapath's conditions and value of this micro-cycle, which are not architected (log 130). -/
def microGo (w : BitVec 144) (a seed : Nat) (stack : List Nat) : Option (Nat × List Nat) :=
  match microNext w with
  | 0 => some (microSucc a, stack)
  | 1 => some (microTarget w, stack)
  | 2 => some (if Config.microCond seed (microCond w) then microTarget w else microSucc a, stack)
  | 3 => if 0x4000 ≤ a || 8 ≤ stack.length then none else some (microTarget w, microSucc a :: stack)
  | 4 => match stack with
    | [] => none
    | r :: rs => some (r, rs)
  | 5 => some ((microTarget w + (Config.microValue seed).toNat) % 0x8000, stack)
  | _ => none

/-- One micro-cycle of a sequencer of a class; none where it faults (R386). SAFE counts in a ROM word only (R388). -/
def microStep (bank : List Word) (cls seed : Nat) (s : MicroSt) : Option MicroSt :=
  let a := microMatch bank cls s.pc
  if !microAddr a then none
  else
    let w := microWord bank a
    let since := if a < 0x4000 && microSafe w then 0 else s.since + 1
    match microGo w a seed s.stack with
    | some (pc, st) => if microAddr pc && since < 1024 then some { pc := pc, stack := st, since := since } else none
    | none => none

/-- A sequencer's micro-cycles up to its next safe point; none where it faults on the way. -/
def microRun (bank : List Word) (cls : Nat) : Nat → Nat → MicroSt → Option MicroSt
  | 0, _, _ => none
  | n + 1, seed, s =>
    match microStep bank cls seed s with
    | none => none
    | some t => if t.since = 0 then some t else microRun bank cls n (seed + 1) t

/-! ### The sequencers of the module (R384, R392) -/

/-- The state of sequencer `i` of a class; one that has not run stands at micro-address 0 (log 130). -/
def Mach.seqAt (m : Mach) (cls i : Nat) : MicroSt := (tfind m.uc.seqs (64 * cls + i)).getD {}

/-- The bank a sequencer runs from at its safe point: the staged one once an activation is under way (R392). -/
def Mach.microBank (m : Mach) : List Word :=
  if m.bit Reg.ucStat F.ucStatActivating then m.uc.staged.getD [] else m.uc.active.getD []

/-- Sequencer `i` of a class runs to its next safe point. Where its microcode faults it stands; the fault itself comes as
SEQUENCER_FAULT (log 130). -/
def Mach.seqRun (m : Mach) (cls i : Nat) : Mach :=
  let s := m.seqAt cls i
  let t := (microRun m.microBank cls 1024 (Config.freeValue m.free) s).getD s
  { m with free := m.free + 1, uc := { m.uc with seqs := tabInsert (64 * cls + i) t m.uc.seqs } }

/-- A sequencer reset starts from its first microword. -/
def Mach.seqReset (m : Mach) (cls i : Nat) : Mach := { m with uc := { m.uc with seqs := tabErase (64 * cls + i) m.uc.seqs } }

/-- The class and number of a lane's sequencer (R384). -/
def laneSeq (b : Nat) : Nat × Nat := if b ≤ 8 then (2, b - 1) else (3, b - 9)

end Sys2Proof.Machine
end

