-- ==== Sys2Proof/Machine/Jobs.lean ====
section
/-! DEFINITION. Jobs: the carrel map, completions, the completion ring, picks and the end of a job (R178 to R183, R197 to R201,
R206 to R213). -/

namespace Sys2Proof.Machine

open Sys2Proof

/-! ### The carrel map (R204, R221) -/

/-- The carrels in use: CAR_STAT differs from 0 only there. -/
def Mach.usedCars (m : Mach) : List Nat :=
  (m.regs.filter fun e => 0x100000 ≤ e.1 && e.1 < 0x140000 && e.1 % 64 = 0 && fget e.2 F.carStatState ≠ 0).map
    fun e => (e.1 - 0x100000) / 64

/-- CAR_STAT.STATE: 0 FREE, 1 READY, 2 RESETTING. -/
def Mach.carState (m : Mach) (c : Nat) : Nat := m.fld (Reg.carStat c) F.carStatState

/-- The tenant of a carrel's key. -/
def Mach.carTen (m : Mach) (c : Nat) : Nat := m.fld (Reg.carStat c) F.carStatTenant

/-- The generation of a carrel. -/
def Mach.carGen (m : Mach) (c : Nat) : Nat := (m.reg (Reg.carGen c)).toNat % 65536

/-- The carrel the map selects for a key, in a world (R342). -/
def Mach.carOf (m : Mach) (t pid : Nat) (sr : Bool) : Option Nat :=
  m.usedCars.find? fun c => m.carTen c = t && m.fld (Reg.carStat c) F.carStatPid = pid && m.srCarrels.contains c = sr

/-- CAR_STAT.OCC: live jobs of a carrel (R208). -/
def Mach.occ (m : Mach) (c : Nat) : Nat := (m.jobs.filter fun e => e.2.carrel = c).length

/-- A job's generation is no longer its carrel's (R213). -/
def Mach.stale (m : Mach) (j : Job) : Bool := j.gen ≠ m.carGen j.carrel

/-! ### Job memory (R182, R213) -/

/-- A write list of a job: suppressed by the fence where its generation is old (R213). -/
def Mach.jobPut (m : Mach) (j : Job) (l : List (Nat × Word)) : Nat × Option (Nat × Nat) × Mach :=
  if m.stale j then (l.length, none, m) else m.jobWrites j.ten j.carrel j.sr l

/-- J2 and J3 of a job's block written (R178); a fault there leaves them (log 40). -/
def Mach.writeStatus (m : Mach) (j : Job) (j2 j3 : Word) : Mach :=
  (m.jobPut j [((j.blk + 2) % 2 ^ 40, j2), ((j.blk + 3) % 2 ^ 40, j3)]).2.2

/-- A status word J2 (R178). -/
def j2Word (code addr : Nat) : Word := w48 (code * 2 ^ 40 + addr % 2 ^ 40)

/-- A detail and count word J3 (R178). -/
def j3Word (detail count : Nat) : Word := w48 (detail % 65536 * 2 ^ 32 + count % 2 ^ 32)

/-! ### Engines (R181, R200) -/

/-- The engine a job runs on. -/
def Mach.engineOf (m : Mach) (x : Nat) : Option Nat := (m.engines.find? fun e => e.2.job = some x).map Prod.fst

/-- CE_CTL.EN. -/
def Mach.ceEn (m : Mach) (e : Nat) : Bool := m.bit (Reg.ceCtl e) F.ceCtlEn

/-- Share weights, at least 1 (R202, R221). -/
def Mach.tenShare (m : Mach) (t : Nat) : Nat := max 1 (m.fld (Reg.tenCtl t) F.tenCtlShare)
def Mach.carShare (m : Mach) (c : Nat) : Nat := max 1 (m.fld (Reg.carCtl c) F.carCtlShare)

/-- Engine `e` gives up its job: the micro-cycles used, a free value, go to CE_BUSY and to the pass values of the job's tenant
and carrel (R181, R200). -/
def Mach.leaveEngine (m : Mach) (e : Nat) (j : Job) : Mach :=
  let (u, m1) := m.draw
  let m2 := (m1.setEngine e { m1.engine e with job := none, idleFrom := m1.now }).count (Reg.ceBusy e) u
  { m2 with
    tpass := tabPut (fun _ => 0) j.ten (tabGet (fun _ => 0) m2.tpass j.ten + u * 65536 / m2.tenShare j.ten) m2.tpass
    cpass := tabPut (fun _ => 0) j.carrel (tabGet (fun _ => 0) m2.cpass j.carrel + u * 65536 / m2.carShare j.carrel) m2.cpass }

/-- The job off its engine, where it runs on one. -/
def Mach.offEngine (m : Mach) (x : Nat) (j : Job) : Mach :=
  match m.engineOf x with
  | some e => m.leaveEngine e j
  | none => m

/-- A job back among the ready jobs of its carrel as the oldest (R181). -/
def Mach.makeOldest (m : Mach) (x : Nat) : Mach :=
  let m1 := m.makeReady x
  match m1.job x with
  | none => m1
  | some j =>
    { m1 with
      order := m1.order + 1
      jobs := m1.jobs.map fun e =>
        if e.1 = x then (e.1, { j with ord := 0 })
        else if e.2.carrel = j.carrel && e.2.st = .ready then (e.1, { e.2 with ord := e.2.ord + 1 }) else e }

/-! ### The completion ring (R210, R211) -/

/-- Entries the ring holds: 2^CQSIZE. -/
def Mach.cqEntries (m : Mach) (c : Nat) : Nat := 2 ^ ((m.reg (Reg.carCqsize c)).toNat % 32)

/-- Entries written and not consumed. -/
def Mach.cqUsed (m : Mach) (c : Nat) : Nat :=
  ((m.reg (Reg.carCqhead c)).toNat + m.cqEntries c - (m.reg (Reg.carCqtail c)).toNat % m.cqEntries c) % m.cqEntries c

/-- The ring is full (R210). -/
def Mach.cqFull (m : Mach) (c : Nat) : Bool := m.cqEntries c - 1 ≤ m.cqUsed c

/-- Whether a job has a completion entry to deliver: it has ended, or stands at a NOTE. -/
def Job.delivers (j : Job) : Bool :=
  j.st = .held || (match j.wait with
    | .note _ => j.st = .waiting
    | _ => false)

/-- The next completion of a carrel, the first in the order jobs ended or met their NOTE. -/
def Mach.nextDone (m : Mach) (c : Nat) : Option (Nat × Job) :=
  (m.jobs.filter fun e => e.2.carrel = c && e.2.delivers).foldl (fun o e => match o with
    | none => some e
    | some b => if e.2.ord < b.2.ord then some e else some b) none

/-- The four words of a completion entry (R180, R196). -/
def Job.entryWords (j : Job) : List Word :=
  match j.wait with
  | .note op => [w48 j.blk, j.tag, j2Word 0x0E j.slip, j3Word 0 op]
  | _ => [w48 j.blk, j.tag, j.j2, j.j3]

/-- A job out of its context (R180). -/
def Mach.freeJob (m : Mach) (x : Nat) : Mach :=
  { m.delJob x with
    replies := m.replies.filter fun r => r.ctx ≠ x
    rawq := m.rawq.map fun q => (q.1, q.2.map fun f => if f.ctx = x then { f with posted := true } else f) }

/-- Entries of a carrel delivered while its ring has room and no delivery has faulted (R210, R211). -/
def Mach.pumpCq (c : Nat) : Nat → Mach → Mach
  | 0, m => m
  | k + 1, m =>
    if m.bit (Reg.carStat c) F.carStatCqerr || m.cqFull c then m
    else match m.nextDone c with
      | none => m
      | some (x, j) =>
        let h := (m.reg (Reg.carCqhead c)).toNat % m.cqEntries c
        let a := (m.reg (Reg.carCqbase c)).toNat + 4 * h
        match m.jobPut j ((List.range 4).zip j.entryWords |>.map fun e => ((a + e.1) % 2 ^ 40, e.2)) with
        | (_, some _, m1) => m1.setFld (Reg.carStat c) F.carStatCqerr 1
        | (_, none, m1) =>
          let m2 := ((m1.setReg (Reg.carCqhead c) (w48 ((h + 1) % m.cqEntries c))).setFld (Reg.carStat c) F.carStatNew 1).count
            (Reg.carDone c)
          let m3 := if m2.bit (Reg.carCtl c) F.carCtlInten then m2.raise (32 + j.ten) else m2
          Mach.pumpCq c k (if j.st = .held then m3.freeJob x else m3.wakeJob x 0 0)

/-- Every completion of a carrel that can be delivered now. -/
def Mach.deliver (m : Mach) (c : Nat) : Mach := Mach.pumpCq c (m.jobs.length + 1) m

/-! ### The end of a job (R196 to R199) -/

/-- A job ends with a status, detail and count against the slip word at `a`: J2 and J3, then its completion entry. -/
def Mach.endJob (m : Mach) (x code detail count a : Nat) : Mach :=
  match m.job x with
  | none => m
  | some j =>
    let j2 := j2Word code a
    let j3 := j3Word detail count
    let m1 := (m.offEngine x j).writeStatus j j2 j3
    let m2 := m1.setJob x { j with st := .held, wait := .none, deadline := none, woken := false, j2 := j2, j3 := j3, ord := m1.order }
    ({ m2 with order := m2.order + 1 } : Mach).deliver j.carrel

/-- A job discarded by a carrel reset (R213): no completion, counted in CAR_DROPPED; a SEND item not yet placed is
withdrawn. -/
def Mach.dropJob (m : Mach) (x : Nat) : Mach :=
  match m.job x with
  | none => m
  | some j => ((m.offEngine x j).freeJob x).count (Reg.carDropped j.carrel)

/-! ### The pick (R181) -/

/-- Whether engine `e` may pick: enabled, idle, not gated, with no attribute change pending (R181, R340, R406). -/
def Mach.mayPick (m : Mach) (e : Nat) : Bool :=
  m.up && m.ceEn e && (m.engine e).job.isNone && !m.gated (0x10 + e) && (m.engine e).attr.isNone

/-- The jobs engine `e` may take. -/
def Mach.takeable (m : Mach) (e : Nat) : List (Nat × Job) :=
  m.jobs.filter fun j => j.2.st = .ready && j.2.sr = m.blockSr (0x10 + e) && !m.deferred j.2.cls

/-- The key of least pass among the listed keys, ties to the lower key (R181). -/
def leastPass (pass : List (Nat × Nat)) : List Nat → Option Nat
  | [] => none
  | k :: ks =>
    match leastPass pass ks with
    | none => some k
    | some b =>
      let pk := tabGet (fun _ => 0) pass k
      let pb := tabGet (fun _ => 0) pass b
      some (if pk < pb || (pk = pb && k ≤ b) then k else b)

/-- The job a pick of engine `e` takes. -/
def Mach.picked (m : Mach) (e : Nat) : Option (Nat × Job) :=
  let l := m.takeable e
  match leastPass m.tpass (l.map fun j => j.2.ten) with
  | none => none
  | some t =>
    let lt := l.filter fun j => j.2.ten = t
    match leastPass m.cpass (lt.map fun j => j.2.carrel) with
    | none => none
    | some c =>
      (lt.filter fun j => j.2.carrel = c).foldl (fun o j => match o with
        | none => some j
        | some b => if j.2.ord < b.2.ord then some j else some b) none

/-- A pick (R181). -/
def Mach.pickJob (m : Mach) (e : Nat) : Mach :=
  if m.mayPick e then
    match m.picked e with
    | some (x, j) => (m.setJob x { j with st := .running }).setEngine e
        { m.engine e with job := some x }
    | none => m
  else m

/-- The running job of engine `e` leaves it at a safe point: discarded where its generation is old (R213), else ready again as
the oldest of its carrel (R181). -/
def Mach.safePoint (m : Mach) (e : Nat) : Mach :=
  match (m.engine e).job with
  | none => m
  | some x =>
    match m.job x with
    | none => m.setEngine e { m.engine e with job := none }
    | some j => if m.stale j then m.dropJob x else (m.leaveEngine e j).makeOldest x

/-! ### Engine reset and fault (R199, R212) -/

/-- The registers of engine `e` that its ENGINE domain resets. -/
def Mach.ceRegs (m : Mach) (e : Nat) : Mach := m.resetRegs .engine fun a => Reg.ceStat e ≤ a && a < Reg.ceStat e + 0x100

/-- A clerk engine taken out (R199): its job ends FAULT with the detail, or is discarded where its generation is old. -/
def Mach.resetEngine (m : Mach) (e detail : Nat) : Mach :=
  let m1 := match (m.engine e).job with
    | none => m
    | some x => match m.job x with
      | none => m.setEngine e { m.engine e with job := none }
      | some j => if m.stale j then m.dropJob x else m.endJob x 0x0D detail 0 j.slip
  (m1.ceRegs e).seqReset 0 e

/-- A fault an engine's own checks find: counted in CE_FAULTS, and the engine reset
(R199). -/
def Mach.faultEngine (m : Mach) (e : Nat) : Mach := (m.count (Reg.ceFaults e)).resetEngine e 0

/-- CE_CTL of engine `e` written (R199 to R201): a reset ends the job before EN = 0 would take it off. -/
def Mach.ceCtlSet (m : Mach) (w : Who) (e : Nat) (v : Word) : Mach :=
  if !w.house || (m.blockSr (0x10 + e) && !w.sr) then m
  else
    let m1 := m.setFld (Reg.ceCtl e) F.ceCtlEn (fget v F.ceCtlEn)
    let m2 :=
      if fbit v F.ceCtlReset then
        if m1.gated (0x10 + e) then { m1 with held := setIns (0x10 + e) m1.held }
        else m1.resetEngine e 1
      else m1
    if fbit v F.ceCtlEn then m2 else m2.safePoint e

/-- CE_QUANTUM written: values below 512 are reserved (R200, R201). -/
def Mach.quantumSet (m : Mach) (w : Who) (v : Word) : Mach :=
  let n := v.toNat % 2 ^ 24
  if w.house && 512 ≤ n then m.setReg Reg.ceQuantum (w48 n) else m

/-- CE_STAT as it reads (R200): DISABLED with EN 0 and no job, RUNNING with one. -/
def Mach.ceStatRead (m : Mach) (e : Nat) : Word :=
  let sr := b2n (m.blockSr (0x10 + e)) * 2 ^ 45
  match (m.engine e).job.bind m.job with
  | some j => w48 (1 * 2 ^ 46 + sr + j.ten * 2 ^ 40 + j.carrel * 2 ^ 28)
  | none => w48 ((if m.ceEn e then 0 else 2) * 2 ^ 46 + sr)

/-- The number of jobs that satisfy `p`, as CE_LIVE, CE_READY, CE_WAITING and CE_DEFER read (R200). -/
def Mach.jobCount (m : Mach) (p : Job → Bool) : Word := w48 (m.jobs.filter fun e => p e.2).length

end Sys2Proof.Machine
end

