-- ==== Sys2Proof/Machine/Lanes.lean ====
section
/-! DEFINITION. Lanes of the cipher and compression engines: which lane takes a job, the key slots, the end of a lane job, lane
control and reset (R188, R212, R359 to R383). A lane is named by its block number: 1 to 8 cipher, 9 to 12 compression. -/

namespace Sys2Proof.Machine

open Sys2Proof

/-! ### Lane tables (R358, R370, R382) -/

/-- The lane of block `b`. -/
def Mach.laneB (m : Mach) (b : Nat) : Lane := if b ≤ 8 then m.lane (b - 1) else m.xlane (b - 9)

/-- The lane of block `b` given. -/
def Mach.setLaneB (m : Mach) (b : Nat) (x : Lane) : Mach := if b ≤ 8 then m.setLane (b - 1) x else m.setXlane (b - 9) x

/-- The registers of the lane of block `b`: its status register; control, jobs and octets follow. -/
def laneReg (b : Nat) : Nat := if b ≤ 8 then Reg.kxLstat (b - 1) else Reg.cxLstat (b - 9)

/-- The lane's EN bit. -/
def Mach.laneEn (m : Mach) (b : Nat) : Bool := m.bit (laneReg b + 1) F.kxLctlEn

/-- The block numbers of the lanes of one kind. -/
def laneBlocks (cipher : Bool) : List Nat := if cipher then [1, 2, 3, 4, 5, 6, 7, 8] else [9, 10, 11, 12]

/-- A lane may take a job of a world (R338, R371, R383, R406). -/
def Mach.laneIdle (m : Mach) (sr : Bool) (b : Nat) : Bool :=
  m.up && m.laneEn b && (m.laneB b).job.isNone && (m.laneB b).attr.isNone && !m.gated b && m.blockSr b = sr

/-- The lanes of a kind that may take a job of a world. -/
def Mach.idleLanes (m : Mach) (cipher sr : Bool) : List Nat := (laneBlocks cipher).filter fun b => m.laneIdle sr b

/-! ### Descriptors (R360, R372) -/

/-- A read error of a lane as an answer: PROTECT is a result (R341), poison a fault, the rest end the slip (R361, R375). -/
def readErr (cipher : Bool) (e : Nat × Nat) : LaneRes :=
  if e.1 = 3 then { code := if cipher then 0x0C else 0x0B }
  else if e.1 = 7 then { fault := 2 }
  else { err := some e }

/-- Whether a descriptor's OP goes with its slip (R372): 2 PACK, 3 UNPACK; CRYPT takes any. -/
def packOp (kind : Nat) (ds : List Word) : Bool :=
  let op := nbits (ds.getD 0 0).toNat 47 40
  kind ≤ 1 || (kind = 2 && (op = 1 || op = 3)) || (kind = 3 && (op = 2 || op = 4))

/-- A job given to the lane of block `b` (R188): CRYPT, PACK and UNPACK read the 8 words of the descriptor; one whose address
is no multiple of 8, or whose OP does not go with a PACK or UNPACK slip, is a descriptor fault. A CRYPT job's start is settled with
those of its tick. -/
def Mach.giveLane (m : Mach) (b x : Nat) (j : Job) (kind : Nat) (ws : List Word) : Mach :=
  let cipher : Bool := b ≤ 8
  let l : Lane := { m.laneB b with
    job := some x, carrel := j.carrel, gen := j.gen, ten := j.ten, sr := j.sr, kind := kind, slots := [], iv := [], fresh := false }
  if kind = 1 then m.setLaneB b { l with words := ws, res := none }
  else
    let a := (ws.getD 0 0).toNat % 2 ^ 40
    if a % 8 ≠ 0 then m.setLaneB b { l with words := [], res := some { code := if cipher then 6 else 9 } }
    else match m.carReadN j.carrel j.sr a 8 with
      | .ok ds =>
        (m.met j.carrel j.sr a 8).setLaneB b
          { l with words := ds, res := if packOp kind ds then none else some { code := 9 }, fresh := kind = 0 }
      | .error e => m.setLaneB b { l with words := [], res := some (readErr cipher e) }

/-- A slip that needs a lane (R188): it goes to one of the idle lanes of its world, whichever the module chooses, or the job
waits for one. -/
def Mach.takeLane (m : Mach) (x : Nat) (j : Job) (kind : Nat) (ws : List Word) : Mach :=
  let cipher : Bool := kind ≤ 1
  let ls := m.idleLanes cipher j.sr
  if ls.isEmpty then m.setJob x { j with st := .waiting, wait := .laneFree kind }
  else
    let (f, m1) := m.draw
    let b := ls.getD (f % ls.length) 1
    (m1.setJob x { j with st := .waiting, wait := .lane cipher b }).giveLane b x j kind ws

/-! ### Key slots (R362 to R366) -/

/-- KX_SSTAT.STATE: 0 FREE, 1 LOADED, 2 EXHAUSTED, 3 CLEARING. -/
def Mach.slotState (m : Mach) (s : Nat) : Nat := m.fld (Reg.kxSstat s) F.kxSstatState

/-- The key material of a slot. -/
def Mach.slotKey (m : Mach) (s : Nat) : List Octet := tabGet (fun _ => []) m.kx s

/-- The invocation counter, the use count and the limit of a slot (R363). -/
def Mach.slotC (m : Mach) (s : Nat) : Nat := m.pair (Reg.kxSctrHi s) (Reg.kxSctrLo s)
def Mach.slotU (m : Mach) (s : Nat) : Nat := (m.reg (Reg.kxSused s)).toNat
def Mach.slotLim (m : Mach) (s : Nat) : Nat := (m.reg (Reg.kxSlimit s)).toNat

/-- A slot loaded from a blob header and a key (R362 to R364). -/
def Mach.loadSlot (m : Mach) (s : Nat) (h key : List Octet) : Mach :=
  let stat := fset (fset (fset (fset 0 F.kxSstatState 1) F.kxSstatAlg (octField h 1 1)) F.kxSstatUsage (octField h 2 2))
    F.kxSstatRolltag (octField h 6 2)
  let lim := octField h 20 4
  let m1 := ((m.setReg (Reg.kxSstat s) stat).setReg (Reg.kxSfixed s) (w48 (octField h 8 4))).setPair (Reg.kxSctrHi s)
    (Reg.kxSctrLo s) (octField h 12 8)
  let m2 := (m1.setReg (Reg.kxSused s) 0).setReg (Reg.kxSlimit s) (w48 (if lim = 0 then 2 ^ 32 else lim))
  { m2 with kx := tabPut (fun _ => []) s key m2.kx }

/-- A slot's clear begins (R362). -/
def Mach.clearSlot (m : Mach) (s : Nat) : Mach := m.setFld (Reg.kxSstat s) F.kxSstatState 3

/-- A slot zeroed and FREE (R362). -/
def Mach.freeSlot (m : Mach) (s : Nat) : Mach :=
  let m1 := [Reg.kxSstat s, Reg.kxSfixed s, Reg.kxSctrHi s, Reg.kxSctrLo s, Reg.kxSused s, Reg.kxSlimit s].foldl
    (fun x a => x.setReg a 0) m
  { m1 with kx := tabErase s m1.kx }

/-- Whether a lane job that has started holds slot `s` (R362). -/
def Mach.slotHeld (m : Mach) (s : Nat) : Bool := m.lanes.any fun e => e.2.job.isSome && e.2.slots.contains s

/-- The end of a clear: every job that started with the slot has ended (R362). -/
def Mach.slotCleared (m : Mach) (s : Nat) : Mach := if m.slotState s = 3 && !m.slotHeld s then m.freeSlot s else m

/-- The strongroom-world slots and KP0 and KP1 cleared at a restart (R348, R362). -/
def Mach.clearSrSlots (m : Mach) : Mach :=
  let m1 := (List.range 256).foldl (fun x s => if x.bit (Reg.kxSown s) F.kxSownSr then x.freeSlot s else x) m
  { m1 with kp := [] }

/-! ### The descriptor (R360) -/

/-- OP, the flags and the slot numbers of a descriptor. -/
def cipherOp (ws : List Word) : Nat := nbits (ws.getD 0 0).toNat 47 40
def Lane.pad (l : Lane) : Bool := nbit (l.words.getD 0 0).toNat 39
def Lane.kek (l : Lane) : Bool := nbit (l.words.getD 0 0).toNat 38
def Lane.keySlot (l : Lane) : Nat := nbits (l.words.getD 0 0).toNat 23 16
def Lane.dstSlot (l : Lane) : Nat := nbits (l.words.getD 0 0).toNat 15 8
def Lane.kpReg (l : Lane) : Nat := (l.words.getD 0 0).toNat % 2

/-- Word `i` of a descriptor as an address and as a length. -/
def Lane.addr (l : Lane) (i : Nat) : Nat := (l.words.getD i 0).toNat % 2 ^ 40
def Lane.len (l : Lane) (i : Nat) : Nat := (l.words.getD i 0).toNat % 2 ^ 32

/-- A non-zero reserved field, or a SPACE other than 0x0. -/
def cipherDescBad (ws : List Word) : Bool :=
  let d0 := (ws.getD 0 0).toNat
  nbits d0 37 24 ≠ 0 || nbits d0 7 1 ≠ 0 || [1, 3, 5, 7].any (fun i => nbits (ws.getD i 0).toNat 47 40 ≠ 0) ||
    [2, 4, 6].any (fun i => nbits (ws.getD i 0).toNat 47 32 ≠ 0)

/-! ### Slots (R362, R363, R366) -/

/-- The bits of USAGE (R364). -/
def Usage.enc : Nat := 0
def Usage.dec : Nat := 1
def Usage.macGen : Nat := 2
def Usage.macVer : Nat := 3
def Usage.wrap : Nat := 4
def Usage.unwrap : Nat := 5
def Usage.exportable : Nat := 6

/-- Uses that are invocations (R363). -/
def Usage.invokes (u : Nat) : Bool := u = Usage.enc || u = Usage.macGen || u = Usage.wrap

/-- A job may use a slot: its world, and its tenant unless both are of the strongroom world (R362). -/
def Mach.ownsSlot (m : Mach) (l : Lane) (s : Nat) : Bool :=
  m.bit (Reg.kxSown s) F.kxSownSr = l.sr && (l.sr || m.fld (Reg.kxSown s) F.kxSownTenant = l.ten)

/-- The algorithm of a slot, and whether it permits a use. -/
def Mach.slotAlg (m : Mach) (s : Nat) : Nat := m.fld (Reg.kxSstat s) F.kxSstatAlg
def Mach.slotUsage (m : Mach) (s u : Nat) : Bool := nbit (m.fld (Reg.kxSstat s) F.kxSstatUsage) u

/-- The invocation counters of a slot have ended (R363). -/
def Mach.slotEnded (m : Mach) (s : Nat) : Bool := m.slotLim s ≤ m.slotU s || m.slotC s = 2 ^ 64 - 1

/-- Whether a job may use a slot for `u` with one of the algorithms `algs`: the result where not (R361 to R366). -/
def Mach.slotFor (m : Mach) (l : Lane) (s u : Nat) (algs : List Nat) : Except Nat Unit :=
  if !m.ownsSlot l s then .error 4
  else if m.slotState s = 0 || m.slotState s = 3 then .error 3
  else if !m.slotUsage s u || !algs.contains (m.slotAlg s) then .error 5
  else if Usage.invokes u && m.bit (Reg.kxSstat s) F.kxSstatRolled then .error 0xB
  else if (Usage.invokes u || u = Usage.exportable) && (m.slotState s = 2 || m.slotEnded s) then .error 2
  else .ok ()

/-- An invocation of a slot (R363): the IV where it takes one. -/
def Mach.invoke (m : Mach) (s : Nat) (gcm : Bool) : List Octet × Mach :=
  let iv := octetsBE 4 (m.reg (Reg.kxSfixed s)).toNat ++ octetsBE 8 (m.slotC s)
  let m1 := if gcm then m.setPair (Reg.kxSctrHi s) (Reg.kxSctrLo s) (m.slotC s + 1) else m
  let m2 := m1.setReg (Reg.kxSused s) (w48 (m1.slotU s + 1))
  (iv, if m2.slotEnded s then m2.setFld (Reg.kxSstat s) F.kxSstatState 2 else m2)

/-- The output length of a wrap: KWP pads to 8. -/
def wrapLen (n : Nat) : Nat := (n + 7) / 8 * 8 + 8

/-- The key length that ALG gives. -/
def algKey (alg : Nat) : Nat := match alg with
  | 1 => 16
  | 2 => 32
  | _ => 64

/-- The use and the algorithms of an operation on one slot (R359). -/
def cipherUse (op : Nat) : Option (Nat × List Nat) :=
  match op with
  | 1 => some (Usage.enc, [1, 2])
  | 2 => some (Usage.dec, [1, 2])
  | 3 => some (Usage.enc, [3])
  | 4 => some (Usage.dec, [3])
  | 5 => some (Usage.macGen, [1, 2])
  | 6 => some (Usage.macVer, [1, 2])
  | 7 => some (Usage.wrap, [1, 2])
  | 8 => some (Usage.unwrap, [1, 2])
  | _ => none

/-- The lengths of an operation on one slot (R359, R360). -/
def cipherLen (op : Nat) (l : Lane) : Bool :=
  match op with
  | 1 | 2 => l.len 2 ≤ 65536 && l.len 6 ≤ 65536 && l.len 2 ≤ l.len 4
  | 3 | 4 => 16 ≤ l.len 2 && l.len 2 ≤ 1048576 && l.len 2 ≤ l.len 4
  | 5 | 6 => l.len 2 ≤ 16777216
  | 7 => l.len 2 ≤ 65536 && (if l.pad then 1 ≤ l.len 2 else 16 ≤ l.len 2 && l.len 2 % 8 = 0) && wrapLen (l.len 2) ≤ l.len 4
  | _ => 24 ≤ l.len 2 && l.len 2 ≤ 65544 && l.len 2 % 8 = 0 && (l.pad || l.len 2 - 8 ≤ l.len 4)

/-- What a job's start decides (R360 to R366): the result where a check fails; else the slots it takes, the IV, and the state after
its invocation. -/
def Mach.startCheck (m : Mach) (l : Lane) : Except Nat (List Nat × List Octet × Mach) :=
  let op := cipherOp l.words
  if op = 9 then
    if cipherDescBad l.words then .error 6
    else if !([48, 64, 96].contains (l.len 2)) then .error 7
    else if l.kek then (if l.sr then .ok ([], [], m) else .error 4)
    else (m.slotFor l l.keySlot Usage.unwrap [2]).map fun _ => ([l.keySlot], [], m)
  else if op = 0xA then
    if cipherDescBad l.words then .error 6
    else if !l.sr then .error 4
    else do
      m.slotFor l l.dstSlot Usage.exportable [1, 2, 3]
      if l.len 4 < 32 + algKey (m.slotAlg l.dstSlot) then .error 7
      else if l.kek then .ok ([l.dstSlot], [], m)
      else do
        m.slotFor l l.keySlot Usage.wrap [2]
        .ok ([l.dstSlot, l.keySlot], [], (m.invoke l.keySlot false).2)
  else match cipherUse op with
    | none => .ok ([], [], m)
    | some (u, algs) =>
      if cipherDescBad l.words then .error 6
      else if !cipherLen op l then .error 7
      else do
        m.slotFor l l.keySlot u algs
        if Usage.invokes u then
          let (iv, m1) := m.invoke l.keySlot (op = 1)
          .ok ([l.keySlot], iv, m1)
        else .ok ([l.keySlot], [], m)

/-- A cipher job's start is settled: its slots taken and its invocation made, or its result given (R362, R363). -/
def Mach.settleStart (m : Mach) (b : Nat) : Mach :=
  let l := m.laneB b
  if l.fresh then
    match m.startCheck l with
    | .error c => m.setLaneB b { l with fresh := false, res := some { code := c } }
    | .ok (ss, iv, m1) => m1.setLaneB b { l with fresh := false, slots := ss, iv := iv }
  else m

/-- The jobs that started in a tick settled in ascending lane number (R363). -/
def Mach.lanesStart (m : Mach) : Mach := if m.lanes.any fun e => e.2.fresh then (laneBlocks true).foldl Mach.settleStart m else m

/-! ### The end of a lane job (R188, R361, R375) -/

/-- The lane idle again. -/
def Mach.laneDone (m : Mach) (b : Nat) : Mach :=
  (m.setLaneB b { attr := (m.laneB b).attr, idleFrom := m.now }).seqRun (laneSeq b).1 (laneSeq b).2

/-- A lane's counters for a job that ended otherwise than by a fault (R370, R382). -/
def Mach.laneCount (m : Mach) (b : Nat) (r : LaneRes) : Mach :=
  let m1 := (m.count (laneReg b + 2)).count (laneReg b + 3) r.inOct
  if b ≤ 8 then m1
  else
    let m2 := (m1.count (laneReg b + 4) r.outOct).count Reg.cxNofit r.nofit
    if r.code = 2 then m2.count Reg.cxLimits else m2

/-- A lane fault: recorded, a disagreement counted, and the slip ended FAULT, detail 0x02 (R361, R369, R375). -/
def Mach.laneFault (m : Mach) (b x f : Nat) (count : Nat := 0) : Mach :=
  let m1 := m.setFld (laneReg b) F.kxLstatLastfault f
  (if f = 1 then m1.count (if b ≤ 8 then Reg.kxFaults else Reg.cxFaults) else m1).wakeJob x 0x0D 2 count

/-- The slot effects of a job that ended (R362, R365): the load, refused where the slot is no longer FREE, the clear and the
private key. Answers whether the load was refused. -/
def Mach.laneSlots (m : Mach) (r : LaneRes) : Bool × Mach :=
  let m1 : Mach := match r.kp with
    | some (k, d) => { m with kp := tabPut (fun _ => []) k d m.kp }
    | none => m
  let m2 := match r.clear with
    | some s => m1.clearSlot s
    | none => m1
  match r.load with
  | none => (false, m2)
  | some (s, h, key) => if m2.slotState s = 0 then (false, m2.loadSlot s h key) else (true, m2)

/-- The output words of an answer written in order (R376, R377): how many, the fault that stopped them, and the state. An answer that
is written whole or not at all has written nothing where one faults. -/
def Mach.laneOutput (m : Mach) (l : Lane) (r : LaneRes) : Nat × Option (Nat × Nat) × Mach :=
  let x := m.jobWrites l.ten l.carrel l.sr r.writes
  if r.whole && x.2.1.isSome then (0, x.2.1, m) else x

/-- B3 of each buffer that took some of the first `n` output words (R376). -/
def LaneRes.marks (r : LaneRes) (n : Nat) : List (Nat × Word) :=
  r.b3.filterMap fun x => if x.2.1 < n then some (x.1, w48 (min x.2.2 (6 * (n - x.2.1)))) else none

/-- The result area with the octets that `n` output words hold in S1 (R373). -/
def LaneRes.areaWrites (r : LaneRes) (n : Nat) : List (Nat × Word) :=
  ((List.range r.area.length).zip r.area).map fun e =>
    ((r.areaAt + e.1) % 2 ^ 40, if e.1 = 1 then w48 (min r.outOct (6 * n)) else e.2)

/-- What an answer leaves in memory, in order: output words, B3 words, the words that follow a whole output, and the result area
(R360, R373, R376): the output words written, the first fault, and the state. -/
def Mach.laneWrites (m : Mach) (l : Lane) (r : LaneRes) : Nat × Option (Nat × Nat) × Mach :=
  let (n, e1, m1) := m.laneOutput l r
  let (_, e2, m2) := m1.jobWrites l.ten l.carrel l.sr (r.marks n)
  let (_, e3, m3) := m2.jobWrites l.ten l.carrel l.sr (if e1.isNone then r.aux else [])
  let (_, e4, m4) := m3.jobWrites l.ten l.carrel l.sr (if r.fault = 0 then r.areaWrites n else [])
  (n, ((e1.orElse fun _ => e2).orElse fun _ => e3).orElse fun _ => r.err.orElse fun _ => e4, m4)

/-- A lane's answer takes effect and its slip ends (R188, R361, R375): J3 counts the output words written. -/
def Mach.laneAnswer (m : Mach) (b x : Nat) (l : Lane) (r : LaneRes) : Mach :=
  match m.laneWrites l r with
  | (n, some e, m1) =>
    if e.1 = 3 then (m1.laneCount b r).wakeJob x 0x0C (if b ≤ 8 then 0x0C else 0x0B) n else m1.wakeJob x e.1 e.2 n
  | (n, none, m1) =>
    let (bad, m2) := m1.laneSlots r
    let code := if bad then 8 else r.code
    let m3 := m2.laneCount b r
    if code = 0 then m3.wakeJob x 0 0 n else m3.wakeJob x 0x0C code n

/-- LANE_RESULT: the job of the lane of block `b` ends, with the fault `f` its checks found or 0. A job of an old generation
is dropped (R213). Where the job met poison, what it had written before stands (R376). -/
def Mach.laneEnd (m : Mach) (b f : Nat) : Mach :=
  let l := m.laneB b
  match l.job, l.res with
  | some x, some r =>
    if l.gen ≠ m.carGen l.carrel then m.laneDone b
    else if f ≠ 0 then (m.laneFault b x f).laneDone b
    else if r.fault ≠ 0 then
      match m.laneWrites l r with
      | (n, _, m1) => m.stalled ((m1.laneFault b x r.fault n).laneDone b)
    else m.stalled ((m.laneAnswer b x l r).laneDone b)
  | some x, none =>
    if l.gen ≠ m.carGen l.carrel then m.laneDone b
    else if f ≠ 0 then (m.laneFault b x f).laneDone b
    else m
  | _, _ => m

/-! ### Lane control (R212, R371, R381, R383) -/

/-- The registers of a lane that its ENGINE domain resets. -/
def Mach.laneRegs (m : Mach) (b : Nat) : Mach := m.resetRegs .engine fun a => laneReg b ≤ a && a < laneReg b + 0x10

/-- A lane reset: the job ends and its slip ends FAULT, detail 0x01 (R212). -/
def Mach.resetLane (m : Mach) (b : Nat) : Mach :=
  let m1 := match (m.laneB b).job with
    | some x => if (m.laneB b).gen ≠ m.carGen (m.laneB b).carrel then m else m.wakeJob x 0x0D 1
    | none => m
  ((m1.laneRegs b).laneDone b).seqReset (laneSeq b).1 (laneSeq b).2

/-- A lane's control register written (R371, R383): RESET on a gated lane is held until it is ungated (R19). -/
def Mach.laneCtlSet (m : Mach) (w : Who) (b : Nat) (v : Word) : Mach :=
  if !w.house || (m.blockSr b && !w.sr) then m
  else
    let m1 := m.setFld (laneReg b + 1) F.kxLctlEn (fget v F.kxLctlEn)
    if fbit v F.kxLctlReset then
      if m1.gated b then { m1 with held := setIns b m1.held }
      else m1.resetLane b
    else m1

/-- A lane's status register as it reads (R370, R382). -/
def Mach.laneStatRead (m : Mach) (b : Nat) : Word :=
  let l := m.laneB b
  let base := fset (fset (m.reg (laneReg b)) F.kxLstatSr (b2n (m.blockSr b))) F.kxLstatState
    (if l.job.isSome then 1 else if m.laneEn b then 0 else 2)
  if l.job.isSome then
    let w := fset (fset base F.kxLstatTenant l.ten) F.kxLstatCarrel l.carrel
    if b ≤ 8 then w else fset w F.cxLstatOp (nbits (l.words.getD 0 0).toNat 47 40)
  else base

/-- KX_SOWN of slot `s` written (R371). -/
def Mach.slotOwnSet (m : Mach) (w : Who) (s : Nat) (v : Word) : Mach :=
  if !w.house || m.slotState s ≠ 0 || (m.bit (Reg.kxSown s) F.kxSownSr && !w.sr) || (fbit v F.kxSownSr && !w.sr) then m
  else m.setReg (Reg.kxSown s) (v &&& (fmask F.kxSownSr ||| fmask F.kxSownTenant))

/-- KX_SCLR of slot `s` written (R362, R371). -/
def Mach.slotClrSet (m : Mach) (w : Who) (s : Nat) (v : Word) : Mach :=
  if !nbit v.toNat 0 || !w.ofTen (m.fld (Reg.kxSown s) F.kxSownTenant) || (m.bit (Reg.kxSown s) F.kxSownSr && !w.sr) then m
  else m.lanesStart.clearSlot s

/-- KX_STAT as it reads (R370): slots not FREE. -/
def Mach.kxStatRead (m : Mach) : Word :=
  fset (w48 ((List.range 256).filter fun s => m.slotState s ≠ 0).length) F.kxStatPaused
    (b2n (m.bit Reg.srStat F.srStatRestart))

end Sys2Proof.Machine
end

