-- ==== Sys2Proof/Machine/MlKem.lean ====
section
/-! DEFINITION. ML-KEM-1024, which the spec names by its standard, FIPS 203 (R359). The functions themselves are that standard's, not
the spec's (PRESUMED, log 2). A polynomial is its 256 coefficients modulo 3,329, the constant first. -/

namespace Sys2Proof.Machine

open Sys2Proof

/-- The modulus, and how many polynomials a vector has. -/
def kemQ : Nat := 3329
def kemK : Nat := 4

/-- A polynomial. -/
abbrev Poly := List Nat

def polyAdd (a b : Poly) : Poly := a.zipWith (fun x y => (x + y) % kemQ) b
def polySub (a b : Poly) : Poly := a.zipWith (fun x y => (x + kemQ - y % kemQ) % kemQ) b

/-! ### The transform -/

/-- The low `n` bits of a number in the other order. -/
def bitRev : Nat → Nat → Nat
  | 0, _ => 0
  | n + 1, k => k % 2 * 2 ^ n + bitRev n (k / 2)

/-- 17, a root of unity of order 256, to a power. -/
def kemZeta (e : Nat) : Nat := Nat.iterate (fun x => x * 17 % kemQ) (e % 256) 1

/-- The transform of `d` layers of the part under node `k`. -/
def nttPart : Nat → Nat → Poly → Poly
  | 0, _, f => f
  | d + 1, k, f =>
    let n := f.length / 2
    let z := kemZeta (bitRev 7 k)
    let t := (f.drop n).map fun x => z * x % kemQ
    nttPart d (2 * k) (polyAdd (f.take n) t) ++ nttPart d (2 * k + 1) (polySub (f.take n) t)

/-- The same layers undone; 1,665 halves. -/
def nttBack : Nat → Nat → Poly → Poly
  | 0, _, f => f
  | d + 1, k, f =>
    let n := f.length / 2
    let a := nttBack d (2 * k) (f.take n)
    let b := nttBack d (2 * k + 1) (f.drop n)
    let z := kemZeta (256 - bitRev 7 k)
    (polyAdd a b).map (fun x => 1665 * x % kemQ) ++ (polySub a b).map fun x => 1665 * z % kemQ * x % kemQ

def ntt (f : Poly) : Poly := nttPart 7 1 f
def nttInv (f : Poly) : Poly := nttBack 7 1 f

/-- The product of two transforms: pairs of coefficients modulo a polynomial of degree 2. -/
def nttMul (a b : Poly) : Poly :=
  (List.range 128).flatMap fun i =>
    let g := kemZeta (2 * bitRev 7 i + 1)
    let a0 := a.getD (2 * i) 0
    let a1 := a.getD (2 * i + 1) 0
    let b0 := b.getD (2 * i) 0
    let b1 := b.getD (2 * i + 1) 0
    [(a0 * b0 + a1 * b1 % kemQ * g) % kemQ, (a0 * b1 + a1 * b0) % kemQ]

/-- The product of a row and a vector, in the transform. -/
def nttDot (a b : List Poly) : Poly := (a.zipWith nttMul b).foldl polyAdd (List.replicate 256 0)

/-! ### Octets -/

/-- Numbers of `d` bits as octets, the least significant bits first; and octets as 256 numbers of `d` bits. -/
def kemEncode (d : Nat) (f : Poly) : List Octet :=
  let n := (f.zipIdx).foldl (fun a e => a + e.1 % 2 ^ d * 2 ^ (d * e.2)) 0
  (octetsBE (32 * d) n).reverse
def kemDecode (d : Nat) (os : List Octet) : Poly :=
  let n := natOfOctets (os.take (32 * d)).reverse
  (List.range 256).map fun i => let x := n >>> (d * i) % 2 ^ d; if d = 12 then x % kemQ else x

/-- A coefficient rounded to `d` bits, and back. -/
def kemCompress (d : Nat) (f : Poly) : Poly := f.map fun x => (2 ^ (d + 1) * x + kemQ) / (2 * kemQ) % 2 ^ d
def kemExpand (d : Nat) (f : Poly) : Poly := f.map fun y => (kemQ * y + 2 ^ (d - 1)) / 2 ^ d

/-- `n` pieces of `k` octets. -/
def kemPieces (k n : Nat) (os : List Octet) : List (List Octet) := (List.range n).map fun i => (os.drop (k * i)).take k

/-! ### Sampling -/

/-- The coefficients that triples of octets give: each gives two of 12 bits, and those below the modulus stand. -/
def kemTriples : List Octet → Poly
  | a :: b :: c :: os =>
    let x := a.toNat + 256 * (b.toNat % 16)
    let y := b.toNat / 16 + 16 * c.toNat
    (if x < kemQ then [x] else []) ++ (if y < kemQ then [y] else []) ++ kemTriples os
  | _ => []

/-- A uniform polynomial of the transform. The standard draws without bound; 16 blocks hold 1,792 candidates for its 256
coefficients. -/
def kemUniform (seed : List Octet) (i j : Nat) : Poly :=
  (kemTriples (shake false (seed ++ octetsBE 1 j ++ octetsBE 1 i) 2688) ++ List.replicate 256 0).take 256

/-- A small polynomial: each coefficient the difference of two sums of two bits. -/
def kemSmall (seed : List Octet) (k : Nat) : Poly :=
  let n := natOfOctets (shake true (seed ++ octetsBE 1 k) 128).reverse
  (List.range 256).map fun i =>
    let x := n >>> (4 * i) % 16
    (x % 2 + x / 2 % 2 + kemQ - (x / 4 % 2 + x / 8)) % kemQ

/-! ### The scheme -/

def kemG (os : List Octet) : List Octet × List Octet :=
  let r := octetsBE 64 (sha3_512 os).toNat
  (r.take 32, r.drop 32)
def kemH (os : List Octet) : List Octet := octetsBE 32 (sha3_256 os).toNat

/-- Key generation from two seeds of 32 octets, the first 64 of a number: the encapsulation and the decapsulation key. -/
def mlkemKeygen (f : Nat) : List Octet × List Octet :=
  let d := octetsBE 32 (f >>> 256)
  let z := octetsBE 32 f
  let (rho, sigma) := kemG (d ++ octetsBE 1 kemK)
  let s := (List.range kemK).map fun i => ntt (kemSmall sigma i)
  let e := (List.range kemK).map fun i => ntt (kemSmall sigma (kemK + i))
  let t := (List.range kemK).map fun i =>
    polyAdd (nttDot ((List.range kemK).map fun j => kemUniform rho i j) s) (e.getD i [])
  let ek := t.flatMap (kemEncode 12) ++ rho
  (ek, s.flatMap (kemEncode 12) ++ ek ++ kemH ek ++ z)

/-- The encryption of 32 octets under a key, with 32 octets of randomness. -/
def kemEncrypt (ek m r : List Octet) : List Octet :=
  let t := (kemPieces 384 kemK ek).map (kemDecode 12)
  let rho := ek.drop (384 * kemK)
  let y := (List.range kemK).map fun i => ntt (kemSmall r i)
  let u := (List.range kemK).map fun i =>
    polyAdd (nttInv (nttDot ((List.range kemK).map fun j => kemUniform rho j i) y)) (kemSmall r (kemK + i))
  let v := polyAdd (polyAdd (nttInv (nttDot t y)) (kemSmall r (2 * kemK))) (kemExpand 1 (kemDecode 1 m))
  u.flatMap (fun p => kemEncode 11 (kemCompress 11 p)) ++ kemEncode 5 (kemCompress 5 v)

/-- The decryption of a ciphertext. -/
def kemDecrypt (dk ct : List Octet) : List Octet :=
  let u := (kemPieces 352 kemK ct).map fun p => kemExpand 11 (kemDecode 11 p)
  let v := kemExpand 5 (kemDecode 5 (ct.drop (352 * kemK)))
  let s := (kemPieces 384 kemK dk).map (kemDecode 12)
  kemEncode 1 (kemCompress 1 (polySub v (nttInv (nttDot s (u.map ntt)))))

/-- Encapsulation with 32 octets of randomness, those of a number: the ciphertext and the shared secret. -/
def mlkemEncaps (f : Nat) (ek : List Octet) : List Octet × List Octet :=
  let m := octetsBE 32 f
  let (k, r) := kemG (m ++ kemH ek)
  (kemEncrypt ek m r, k)

/-- Decapsulation: the shared secret, or one that the key's own seed gives where the ciphertext is not genuine. -/
def mlkemDecaps (dk ct : List Octet) : List Octet :=
  let ek := (dk.drop (384 * kemK)).take (384 * kemK + 32)
  let h := (dk.drop (768 * kemK + 32)).take 32
  let z := (dk.drop (768 * kemK + 64)).take 32
  let m := kemDecrypt dk ct
  let (k, r) := kemG (m ++ h)
  if kemEncrypt ek m r = ct then k else shake true (z ++ ct) 32

end Sys2Proof.Machine
end

