-- ==== Sys2Proof/Machine/Decimal.lean ====
section
/-! DEFINITION. Packed decimal arithmetic (R261 to R264): digit layout, the checks, and DADD, DSUB and DCMP. -/

namespace Sys2Proof.Machine

open Sys2Proof

/-- The nibbles of an operand, index 0 (the sign) first; `ws` lists its words, the word with the sign nibble first
(R261). -/
def decNibbles (ws : List Word) : List Nat :=
  ws.flatMap fun w => (List.range 12).map fun i => nbits w.toNat (4 * i + 3) (4 * i)

/-- The index of the first invalid nibble: a sign below 0xA or a digit above 9 (R262). -/
def decBad (ws : List Word) : Option Nat :=
  let ns := decNibbles ws
  (List.range ns.length).find? fun i => if i = 0 then ns.getD i 0 < 10 else ns.getD i 0 > 9

/-- Whether a sign nibble is negative (R262). -/
def decNeg (n : Nat) : Bool := n = 0xB || n = 0xD

/-- The value of digits, least significant first. -/
def decDigits (ds : List Nat) : Nat := ds.foldr (fun d a => d + 10 * a) 0

/-- The signed value of an operand (R261). -/
def decVal (ws : List Word) : Int :=
  match decNibbles ws with
  | [] => 0
  | sg :: ds => if decNeg sg then -(decDigits ds : Int) else decDigits ds

/-- `k` digits of `n`, least significant first. -/
def decOf : Nat → Nat → List Nat
  | 0, _ => []
  | k + 1, n => n % 10 :: decOf k (n / 10)

/-- Words from nibbles, index 0 first. -/
def decWords : Nat → List Nat → List Word
  | 0, _ => []
  | k + 1, ns => w48 ((ns.take 12).foldr (fun d a => d + 16 * a) 0) :: decWords k (ns.drop 12)

/-- The encoding of a signed value in `k` words, the word with the sign first, and whether it overflowed: the low-order
digits are kept, and a result whose digits are all 0 has sign 0xC (R263). -/
def decEnc (k : Nat) (v : Int) : List Word × Bool :=
  let n := 12 * k - 1
  let m := v.natAbs
  let low := m % 10 ^ n
  let sg := if v < 0 && low ≠ 0 then 0xD else 0xC
  (decWords k (sg :: decOf n low), m ≥ 10 ^ n)

/-- DCMP (R263). -/
def decCmp (a b : List Word) : Nat :=
  if decVal a = decVal b then 0 else if decVal a < decVal b then 1 else 2

/-- The DDATA detail of a pair of operands, `Da` checked before `Db` (R262). -/
def decFault (a b : List Word) : Option Nat :=
  match decBad a with
  | some i => some i
  | none => match decBad b with
    | some i => some (128 + i)
    | none => none

end Sys2Proof.Machine
end

