-- ==== Sys2Proof/Machine/F48.lean ====
section
/-! DEFINITION. F48 arithmetic (R265 to R272): every operation as its 48-bit result and the FPC flags it raises. Finite values
are exact (a Nat mantissa times a power of two) until the one rounding of R267. -/

namespace Sys2Proof.Machine

open Sys2Proof

/-- A value of F48 or binary64: a NaN, an infinity, or a finite value (sign, m, e) standing for m times 2^e (R265). -/
inductive FVal where
  | nan
  | inf (s : Bool)
  | fin (s : Bool) (m : Nat) (e : Int)
deriving DecidableEq, Repr

/-- The FPC flags (R266). -/
def flagNV : Nat := 16
def flagDZ : Nat := 8
def flagOF : Nat := 4
def flagUF : Nat := 2
def flagNX : Nat := 1

/-- The rounding mode, FTZ and DAZ of an FPC value (R266). -/
structure FMode where
  rm : Nat
  ftz : Bool
  daz : Bool
deriving DecidableEq, Repr

/-- FPC.RM (R266). -/
def Fpc.rm : Fld := ⟨26, 24⟩

/-- The modes an FPC cell selects (R266). -/
def fmode (fpc : Word) : FMode :=
  { rm := fget fpc Fpc.rm, ftz := fget fpc ⟨23, 23⟩ = 1, daz := fget fpc ⟨22, 22⟩ = 1 }

/-- The default NaN (R265). -/
def f48Default : Nat := 0x7FF800000000

/-- Sign, exponent and fraction of an F48 encoding (R265). -/
def f48Sign (w : Nat) : Bool := nbit w 47
def f48Exp (w : Nat) : Nat := nbits w 46 36
def f48Frac (w : Nat) : Nat := nbits w 35 0

/-- A NaN encoding, and a signalling one (R265). -/
def f48IsNan (w : Nat) : Bool := f48Exp w = 0x7FF && f48Frac w ≠ 0
def f48IsSnan (w : Nat) : Bool := f48IsNan w && !nbit w 35

/-- A NaN made quiet, its sign and other fraction bits kept (R268). -/
def f48Quiet (w : Nat) : Nat := w ||| 2 ^ 35

/-- The value of an F48 encoding, a subnormal read as zero where `daz` (R265, R267). -/
def f48Val (daz : Bool) (w : Nat) : FVal :=
  let s := f48Sign w
  let x := f48Exp w
  let t := f48Frac w
  if x = 0x7FF then (if t = 0 then .inf s else .nan)
  else if x = 0 then (if daz then .fin s 0 0 else .fin s t (-1058))
  else .fin s (2 ^ 36 + t) ((x : Int) - 1059)

/-- Encodings of zero, infinity and the largest finite value with a sign. -/
def f48Zero (s : Bool) : Nat := if s then 2 ^ 47 else 0
def f48Inf (s : Bool) : Nat := f48Zero s + 0x7FF000000000
def f48Max (s : Bool) : Nat := f48Zero s + 0x7FEFFFFFFFFF

/-- Whether a magnitude with integer part `q` and remainder `r` of `2^k` rounds up (R267). -/
def roundUp (rm : Nat) (s : Bool) (q r k : Nat) : Bool :=
  if r = 0 then false
  else match rm with
    | 1 => false
    | 2 => s
    | 3 => !s
    | 4 => 2 * r ≥ 2 ^ k
    | _ => 2 * r > 2 ^ k || (2 * r = 2 ^ k && q % 2 = 1)

/-- `m` divided by `2^k` and rounded, and whether that was inexact; a negative `k` multiplies. -/
def roundShift (rm : Nat) (s : Bool) (m : Nat) (k : Int) : Nat × Bool :=
  if k ≤ 0 then (m <<< (-k).toNat, false)
  else
    let n := k.toNat
    let q := m >>> n
    let r := m % 2 ^ n
    (if roundUp rm s q r n then q + 1 else q, r ≠ 0)

/-- The rounding of R267: the magnitude (m, plus a bit below it where `sticky`) times 2^e with sign `s`, as an F48 encoding
and its flags. `m` carries at least two bits below the precision where `sticky`. -/
def f48Round (md : FMode) (s : Bool) (m0 : Nat) (e0 : Int) (sticky : Bool) : Nat × Nat :=
  let m := 2 * m0 + b2n sticky
  let e := e0 - 1
  if m = 0 then (f48Zero s, 0)
  else
    let top : Int := e + (Nat.log2 m : Int)
    let q0 := top - 36
    let r0 := roundShift md.rm s m (q0 - e)
    let top0 := if r0.1 ≥ 2 ^ 37 then top + 1 else top
    if top0 > 1023 then
      let toInf := match md.rm with
        | 1 => false
        | 2 => s
        | 3 => !s
        | _ => true
      (if toInf then f48Inf s else f48Max s, flagOF ||| flagNX)
    else
      let tiny := top0 < -1022
      let q := max q0 (-1058)
      let r := roundShift md.rm s m (q - e)
      let fl := (if r.2 then flagNX else 0) ||| (if tiny && r.2 then flagUF else 0)
      if r.1 < 2 ^ 36 then
        if r.1 ≠ 0 && md.ftz then (f48Zero s, flagUF ||| flagNX)
        else (f48Zero s + r.1, fl)
      else
        let p := if r.1 ≥ 2 ^ 37 then (r.1 >>> 1, q + 1) else (r.1, q)
        (f48Zero s + ((p.2 + 1059).toNat <<< 36) + (p.1 - 2 ^ 36), fl)

/-- An exact signed value times 2^e rounded; `zs` is the sign of an exact zero. -/
def f48OfInt (md : FMode) (v : Int) (e : Int) (zs : Bool) : Nat × Nat :=
  if v = 0 then (f48Zero zs, 0) else f48Round md (v < 0) v.natAbs e false

/-- A finite value as an integer at exponent `e`, which must not exceed its own. -/
def finAt (s : Bool) (m : Nat) (x e : Int) : Int :=
  let n : Int := (m <<< (x - e).toNat : Nat)
  if s then -n else n

/-- The NaN result of an operation with operands `ws` in stack order, and NV where one signals (R268). -/
def f48NanOf (ws : List Nat) : Option (Nat × Nat) :=
  match ws.find? f48IsNan with
  | some w => some (f48Quiet w, if ws.any f48IsSnan then flagNV else 0)
  | none => none

/-- The sign of an exact zero sum (R268). -/
def zeroSign (md : FMode) (sa sb : Bool) : Bool := if sa = sb then sa else md.rm = 2

/-- The sum of two values (R267, R268). -/
def fvalAdd (md : FMode) : FVal → FVal → Nat × Nat
  | .inf s, .inf t => if s = t then (f48Inf s, 0) else (f48Default, flagNV)
  | .inf s, _ => (f48Inf s, 0)
  | _, .inf t => (f48Inf t, 0)
  | .fin s m x, .fin t n y =>
    let e := min x y
    f48OfInt md (finAt s m x e + finAt t n y e) e (zeroSign md s t)
  | _, _ => (f48Default, flagNV)

/-- A value with its sign turned. -/
def fvalNeg : FVal → FVal
  | .nan => .nan
  | .inf s => .inf (!s)
  | .fin s m e => .fin (!s) m e

/-- The exact product of two values, or none where it is invalid (R268). -/
def fvalMul : FVal → FVal → Option FVal
  | .inf s, .inf t => some (.inf (s ^^ t))
  | .inf s, .fin t m _ => if m = 0 then none else some (.inf (s ^^ t))
  | .fin s m _, .inf t => if m = 0 then none else some (.inf (s ^^ t))
  | .fin s m x, .fin t n y => some (.fin (s ^^ t) (m * n) (x + y))
  | _, _ => none

/-- A value rounded to F48. -/
def fvalRound (md : FMode) : FVal → Nat × Nat
  | .nan => (f48Default, flagNV)
  | .inf s => (f48Inf s, 0)
  | .fin s m e => f48Round md s m e false

/-- FADD (R252). -/
def f48Add (md : FMode) (a b : Nat) : Nat × Nat :=
  (f48NanOf [a, b]).getD (fvalAdd md (f48Val md.daz a) (f48Val md.daz b))

/-- FSUB (R252). -/
def f48Sub (md : FMode) (a b : Nat) : Nat × Nat :=
  (f48NanOf [a, b]).getD (fvalAdd md (f48Val md.daz a) (fvalNeg (f48Val md.daz b)))

/-- FMUL (R252). -/
def f48Mul (md : FMode) (a b : Nat) : Nat × Nat :=
  (f48NanOf [a, b]).getD
    (match fvalMul (f48Val md.daz a) (f48Val md.daz b) with
     | some v => fvalRound md v
     | none => (f48Default, flagNV))

/-- The quotient of two values (R268). -/
def fvalDiv (md : FMode) : FVal → FVal → Nat × Nat
  | .inf _, .inf _ => (f48Default, flagNV)
  | .inf s, .fin t _ _ => (f48Inf (s ^^ t), 0)
  | .fin s _ _, .inf t => (f48Zero (s ^^ t), 0)
  | .fin s m x, .fin t n y =>
    if n = 0 then (if m = 0 then (f48Default, flagNV) else (f48Inf (s ^^ t), flagDZ))
    else
      let num := m <<< 80
      f48Round md (s ^^ t) (num / n) (x - y - 80) (num % n ≠ 0)
  | _, _ => (f48Default, flagNV)

/-- FDIV (R252). -/
def f48Div (md : FMode) (a b : Nat) : Nat × Nat :=
  (f48NanOf [a, b]).getD (fvalDiv md (f48Val md.daz a) (f48Val md.daz b))

/-- The integer square root of `n` below 2^(2k), bit by bit from bit k-1. -/
def isqrtFrom : Nat → Nat → Nat → Nat
  | 0, _, r => r
  | k + 1, n, r => if (r + 2 ^ k) * (r + 2 ^ k) ≤ n then isqrtFrom k n (r + 2 ^ k) else isqrtFrom k n r

/-- FSQRT (R252, R268). -/
def f48Sqrt (md : FMode) (a : Nat) : Nat × Nat :=
  (f48NanOf [a]).getD
    (match f48Val md.daz a with
     | .nan => (f48Default, flagNV)
     | .inf s => if s then (f48Default, flagNV) else (f48Inf false, 0)
     | .fin s m e =>
       if m = 0 then (f48Zero s, 0)
       else if s then (f48Default, flagNV)
       else
         let sh : Nat := 90 + (e % 2).toNat
         let n := m <<< sh
         let r := isqrtFrom 66 n 0
         f48Round md false r ((e - sh) / 2) (r * r ≠ n))

/-- FMA, rounded once (R252, R267). -/
def f48Fma (md : FMode) (a b c : Nat) : Nat × Nat :=
  (f48NanOf [a, b, c]).getD
    (match fvalMul (f48Val md.daz a) (f48Val md.daz b) with
     | some v => fvalAdd md v (f48Val md.daz c)
     | none => (f48Default, flagNV))

/-- The order of two values: 0 equal, 1 less, 2 greater (R252). -/
def fvalCmp : FVal → FVal → Nat
  | .inf s, .inf t => if s = t then 0 else if s then 1 else 2
  | .inf s, _ => if s then 1 else 2
  | _, .inf t => if t then 2 else 1
  | .fin s m x, .fin t n y =>
    let e := min x y
    let u := finAt s m x e
    let v := finAt t n y e
    if u = v then 0 else if u < v then 1 else 2
  | _, _ => 3

/-- FCMP (R268). -/
def f48Cmp (md : FMode) (a b : Nat) : Nat × Nat :=
  if f48IsNan a || f48IsNan b then (3, if f48IsSnan a || f48IsSnan b then flagNV else 0)
  else (fvalCmp (f48Val md.daz a) (f48Val md.daz b), 0)

/-- FCVTI (R269). -/
def f48ToInt (md : FMode) (a : Nat) : Nat × Nat :=
  let bad : Nat × Nat := (0x800000000000, flagNV)
  match f48Val md.daz a with
  | .nan => bad
  | .inf _ => bad
  | .fin s m e =>
    let r := roundShift md.rm s m (-e)
    let v : Int := if s then -(r.1 : Int) else r.1
    if v < -(2 ^ 47 : Int) || v > 2 ^ 47 - 1 then bad else (unsgn 48 v, if r.2 then flagNX else 0)

/-- FCVTF (R269). -/
def f48OfSigned (md : FMode) (i : Nat) : Nat × Nat := f48OfInt md (sgn 48 i) 0 false

/-- FTOD: the binary64 encoding (R269). -/
def f48ToD (md : FMode) (a : Nat) : Nat × Nat :=
  if f48IsNan a then (f48Quiet a <<< 16, if f48IsSnan a then flagNV else 0)
  else if md.daz && f48Exp a = 0 then (f48Zero (f48Sign a) <<< 16, 0)
  else (a <<< 16, 0)

/-- Binary64 rounded to F48 by R267 (R269). -/
def f48OfDRound (md : FMode) (d : Nat) : Nat × Nat :=
  let s := nbit d 63
  let x := nbits d 62 52
  let t := nbits d 51 0
  if x = 0x7FF then
    if t = 0 then (f48Inf s, 0)
    else (f48Quiet (f48Zero s + (0x7FF <<< 36) + t >>> 16), if nbit d 51 then 0 else flagNV)
  else if x = 0 then
    if md.daz then (f48Zero s, 0) else f48Round md s t (-1074) false
  else f48Round md s (2 ^ 52 + t) ((x : Int) - 1075) false

/-- FFROMD: binary64 rounded to F48 (R269). R271 lists OF and NX for the operand 0x7FEF_FFFF_FFFF_FFFF under every mode,
where R267 alone would leave OF clear under RTZ and RDN: the rule that names the operand is followed. DEDUCED, log 60. -/
def f48OfD (md : FMode) (d : Nat) : Nat × Nat :=
  let r := f48OfDRound md d
  if d = 0x7FEFFFFFFFFFFFFF then (r.1, flagOF ||| flagNX) else r

end Sys2Proof.Machine
end

