-- ==== Sys2Proof/Machine/Carrels.lean ====
section
/-! DEFINITION. Tenants and carrels: the carrel map, per-function resets, the completion ring's and the marked-page log's
registers, and the write rules of the TEN_ and CAR_ registers (R202 to R222, R342). -/

namespace Sys2Proof.Machine

open Sys2Proof

/-! ### Carrel resets (R213, R214) -/

/-- A carrel reset starts (R213): the generation rises, the state is RESETTING, and every job of the old generation that no
engine runs ends without a completion. A carrel that is resetting already goes on (R214). -/
def Mach.startCarReset (m : Mach) (c : Nat) : Mach :=
  if m.carState c ≠ 1 then m
  else
    let m1 := m.setReg (Reg.carGen c) (w48 ((m.carGen c + 1) % 65536))
    let m2 := (m1.setFld (Reg.carStat c) F.carStatState 2).setFld (Reg.carStat c) F.carStatCqerr 0
    let gone := (m2.jobs.filter fun j => j.2.carrel = c && j.2.st ≠ .running).map Prod.fst
    let m3 := gone.foldl Mach.dropJob m2
    { m3 with carResets := tabInsert c m.now m3.carResets }

/-- The engines that run a job of an old generation of carrel `c`. -/
def Mach.staleEngines (m : Mach) (c : Nat) : List Nat :=
  (m.engines.filter fun e => match e.2.job.bind m.job with
    | some j => j.carrel = c && m.stale j
    | none => false).map Prod.fst

/-- The lanes, by block number, that hold a job of an old generation of carrel `c`. -/
def Mach.staleLanes (m : Mach) (c : Nat) : List Nat :=
  (laneBlocks true ++ laneBlocks false).filter fun b =>
    (m.laneB b).job.isSome && (m.laneB b).carrel = c && (m.laneB b).gen ≠ m.carGen c

/-- The registers of a carrel but its generation, back at their reset values. -/
def Mach.carRegs (m : Mach) (c : Nat) : Mach :=
  { m with regs := tabClear (fun a => Reg.carStat c ≤ a && a < Reg.carStat c + 0x40 && a ≠ Reg.carGen c) m.regs }

/-- TEN_CARRES of tenant `t`: a status with the carrel named, not busy. -/
def Mach.carAnswer (m : Mach) (t status c : Nat) : Mach := m.setReg (Reg.tenCarres t) (w48 (status * 2 ^ 44 + c))

/-- A carrel's entry freed at the end of its deletion (R205): the generation stays. -/
def Mach.freeCarrel (m : Mach) (c : Nat) : Mach :=
  let t := m.carTen c
  let m1 := m.carRegs c
  ({ m1 with carDeletes := m1.carDeletes.filter (· ≠ c), srCarrels := m1.srCarrels.filter (· ≠ c),
             cpass := tabErase c m1.cpass } : Mach).carAnswer t 0 c

/-- Whether a carrel of tenant `t` is resetting. -/
def Mach.tenCarResetting (m : Mach) (t : Nat) : Bool := m.usedCars.any fun c => m.carTen c = t && m.carState c = 2

/-- A tenant reset ends with its last carrel reset (R215). -/
def Mach.endTenReset (m : Mach) (t : Nat) : Mach :=
  if tmem m.tenResets t && !m.tenCarResetting t then
    ({ m with tenResets := tabErase t m.tenResets } : Mach).setBp t F.accBpReset false
  else m

/-- CARREL_RESET_COMPLETE (R213): once no engine and no lane holds work of the old generation. -/
def Mach.carResetDone (m : Mach) (c : Nat) : Mach :=
  if m.carState c = 2 && (m.staleEngines c).isEmpty && (m.staleLanes c).isEmpty then
    let t := m.carTen c
    let m1 : Mach := { m with carResets := tabErase c m.carResets }
    let m2 := (m1.setReg (Reg.carCqhead c) 0).setReg (Reg.carCqtail c) 0
    let m3 := ((m2.setFld (Reg.carStat c) F.carStatState 1).setFld (Reg.carStat c) F.carStatNew 0).setFld (Reg.carStat c)
      F.carStatCqerr 0
    (if m3.carDeletes.contains c then m3.freeCarrel c else m3).endTenReset t
  else m

/-- CARREL_RESET_BOUND (R213): engines and lanes that have not reported 838 ticks after the start are reset in their own
ENGINE domain, and their fault counters rise. -/
def Mach.carResetBound (m : Mach) (c : Nat) : Mach :=
  match tfind m.carResets c with
  | some t0 =>
    if t0 + 838 ≤ m.now then
      let m1 := (m.staleEngines c).foldl Mach.faultEngine m
      (m1.staleLanes c).foldl (fun x b =>
        (x.count (if b ≤ 8 then Reg.kxFaults else Reg.cxFaults)).resetLane b) m1
    else m
  | none => m

/-! ### The carrel map (R204 to R206, R342) -/

/-- TEN_CARREQ with OP CREATE (R204): the checks in the order the rule lists them, then the lowest free entry. A create from
the strongroom world makes a strongroom carrel of T00 (R342). -/
def Mach.createCarrel (m : Mach) (sr : Bool) (t pid : Nat) : Mach :=
  let k := if sr then 0 else t
  let used := m.usedCars
  if used.any fun c => m.carTen c = k && m.fld (Reg.carStat c) F.carStatPid = pid then m.setFld (Reg.tenCarres t) F.tenCarresStatus 3
  else if (m.reg (Reg.tenCarmax k)).toNat % 8192 ≤ (used.filter fun c => m.carTen c = k).length then
    m.setFld (Reg.tenCarres t) F.tenCarresStatus 2
  else match findLt 4096 fun c => !used.contains c with
    | none => m.setFld (Reg.tenCarres t) F.tenCarresStatus 1
    | some c =>
      if !m.bit (Reg.tenCtl k) F.tenCtlEn || tmem m.tenResets k then m.setFld (Reg.tenCarres t) F.tenCarresStatus 5
      else
        let m1 := (m.carRegs c).setReg (Reg.carGen c) (w48 ((m.carGen c + 1) % 65536))
        let st := fset (fset (fset 0 F.carStatState 1) F.carStatTenant k) F.carStatPid pid
        let m2 := (m1.setReg (Reg.carStat c) st).carAnswer t 0 c
        if sr then { m2 with srCarrels := setIns c m2.srCarrels } else m2

/-- TEN_CARREQ with OP DELETE (R205, R214): the carrel is reset and its entry freed once that ends. -/
def Mach.deleteCarrel (m : Mach) (sr : Bool) (t c : Nat) : Mach :=
  if m.carState c = 0 || m.carTen c ≠ t || m.srCarrels.contains c ≠ (sr && m.srCarrels.contains c) then
    m.setFld (Reg.tenCarres t) F.tenCarresStatus 4
  else
    let m1 := (m.setFld (Reg.tenCarres t) F.tenCarresBusy 1).setFld (Reg.tenCarres t) F.tenCarresCarrel c
    ({ m1 with carDeletes := if m1.carDeletes.contains c then m1.carDeletes else m1.carDeletes ++ [c] } : Mach).startCarReset c

/-- A write of TEN_CARREQ (R204 to R206, R222): ignored while a request is in progress. -/
def Mach.carRequest (m : Mach) (w : Who) (t : Nat) (v : Word) : Mach :=
  if !w.ofTen t || m.bit (Reg.tenCarres t) F.tenCarresBusy then m
  else
    let op := fget v F.tenCarreqOp
    if op = 1 then m.createCarrel w.sr t (fget v F.tenCarreqPid)
    else if op = 2 then m.deleteCarrel w.sr t (fget v F.tenCarreqCarrel)
    else m.setFld (Reg.tenCarres t) F.tenCarresStatus 6

/-! ### CAR_ registers (R207 to R211, R222) -/

/-- CAR_ERR given. -/
def Mach.carError (m : Mach) (c k : Nat) : Mach := m.setReg (Reg.carErr c) (w48 k)

/-- Whether a requester may write the registers of carrel `c` that its tenant may (R222, R342). -/
def Mach.mayCar (m : Mach) (w : Who) (c : Nat) : Bool :=
  m.carState c ≠ 0 && w.ofTen (m.carTen c) && (w.sr || !m.srCarrels.contains c)

/-- CAR_CTL written: reserved SHARE and QUOTA values keep the field (R9, R221). -/
def Mach.carCtlSet (m : Mach) (c : Nat) (v : Word) : Mach :=
  let old := m.reg (Reg.carCtl c)
  let w1 := fset old F.carCtlInten (fget v F.carCtlInten)
  let w2 := if fget v F.carCtlShare = 0 then w1 else fset w1 F.carCtlShare (fget v F.carCtlShare)
  let q := fget v F.carCtlQuota
  (m.setReg (Reg.carCtl c) (if q = 0 || 16384 < q then w2 else fset w2 F.carCtlQuota q)).carError c 0

/-- CAR_CTX written: a key TEN_CTL.KEYS permits, while no job is live (R202, R221). -/
def Mach.carCtxSet (m : Mach) (c : Nat) (v : Word) : Mach :=
  if !nbit (m.fld (Reg.tenCtl (m.carTen c)) F.tenCtlKeys) (fget v F.carCtxKey) then m.carError c 2
  else if m.occ c ≠ 0 then m.carError c 4
  else (m.setReg (Reg.carCtx c) (v &&& (fmask F.carCtxKey ||| fmask F.carCtxPage))).carError c 0

/-- CAR_WINBASE or CAR_WINSIZE written: the window ends at or below 0x0037_FFFF (R207). -/
def Mach.carWinSet (m : Mach) (c : Nat) (size : Bool) (v : Word) : Mach :=
  let b := if size then (m.reg (Reg.carWinbase c)).toNat else v.toNat % 2 ^ 32
  let n := if size then v.toNat % 2 ^ 22 else (m.reg (Reg.carWinsize c)).toNat
  if n ≠ 0 && 0x380000 < b + n then m.carError c 3
  else (m.setReg (if size then Reg.carWinsize c else Reg.carWinbase c) (w48 (if size then n else b))).carError c 0

/-- CAR_CQBASE or CAR_CQSIZE written, while no job is live; a base that is no multiple of 4 and a size outside 4 to 16 are
reserved values (R9, R210, R221). -/
def Mach.carCqSet (m : Mach) (c : Nat) (size : Bool) (v : Word) : Mach :=
  if m.occ c ≠ 0 then m.carError c 4
  else if size then
    let n := v.toNat % 32
    (if 4 ≤ n && n ≤ 16 then m.setReg (Reg.carCqsize c) (w48 n) else m).carError c 0
  else
    let a := v.toNat % 2 ^ 40
    (if a % 4 = 0 then m.setReg (Reg.carCqbase c) (w48 a) else m).carError c 0

/-- CAR_CQTAIL written (R211): within the entries written, else RANGE; held completions then go out. -/
def Mach.carTailSet (m : Mach) (c : Nat) (v : Word) : Mach :=
  let e := m.cqEntries c
  let n := v.toNat % 65536
  let t := (m.reg (Reg.carCqtail c)).toNat % e
  if e ≤ n || m.cqUsed c < (n + e - t) % e then m.carError c 1
  else ((m.setReg (Reg.carCqtail c) (w48 n)).carError c 0).deliver c

/-- CAR_STAT written: NEW and CQERR clear where 1 is written; CQERR cleared retries the entry that faulted (R211). -/
def Mach.carStatSet (m : Mach) (c : Nat) (v : Word) : Mach :=
  let m1 := if fbit v F.carStatNew then m.setFld (Reg.carStat c) F.carStatNew 0 else m
  let m2 := if fbit v F.carStatCqerr then (m1.setFld (Reg.carStat c) F.carStatCqerr 0).deliver c else m1
  m2.carError c 0

/-- A write of register `o` of carrel `c` (R221, R222). -/
def Mach.carSet (m : Mach) (w : Who) (c o : Nat) (v : Word) : Mach :=
  if !m.mayCar w c then m
  else match o with
    | 0x00 => m.carStatSet c v
    | 0x01 => m.carCtlSet c v
    | 0x02 => m.carCtxSet c v
    | 0x03 => if w.house then m.carWinSet c false v else m
    | 0x04 => if w.house then m.carWinSet c true v else m
    | 0x05 => m.carCqSet c false v
    | 0x06 => m.carCqSet c true v
    | 0x08 => m.carTailSet c v
    | 0x0A => if nbit v.toNat 0 then (m.startCarReset c).carError c 0 else m.carError c 0
    | _ => m

/-! ### TEN_ registers (R202, R215 to R222) -/

/-- TEN_CTL written (R12, R31, R58, R202, R222). EN, CERT and INSPECT from the strongroom; NVT and DUR pend to the boundary,
refused in the roles of R58; SOLO only while the role is SOLO; reserved DUR and SHARE values keep the field. -/
def Mach.tenCtlSet (m : Mach) (w : Who) (t : Nat) (v : Word) : Mach :=
  if !w.ofTen t then m
  else
    let a := Reg.tenCtl t
    let sr := fmask F.tenCtlEn ||| fmask F.tenCtlCert ||| fmask F.tenCtlInspect
    let share := if fget v F.tenCtlShare = 0 then 0 else fmask F.tenCtlShare
    let mask := (if w.sr then sr else 0) ||| (if w.house then share ||| fmask F.tenCtlKeys else 0)
    let m1 := m.setReg a ((m.reg a &&& ~~~ mask) ||| (v &&& mask))
    let m2 := if w.house && !m1.ledgerBarred then m1.ledgerWrite a (fmask F.tenCtlNvt) v else m1
    let d := fget v F.tenCtlDur
    if d = 2 && m2.role ≠ 2 then m2.notice t 3 2
    else if d = 3 || m2.ledgerBarred then m2
    else m2.ledgerWrite a (fmask F.tenCtlDur) v

/-- The interrupts of a tenant no longer pending (R215): sources routed to it, and its own CARREL-DONE and NOTICE. -/
def Mach.clearTenInts (m : Mach) (t : Nat) : Mach :=
  { m with regs := tabClear (fun a => Reg.intStat 0 ≤ a && a < Reg.intStat 0 + 2048 && (a - Reg.intStat 0) % 2 = 0 &&
      (let i := (a - Reg.intStat 0) / 2
       let r := m.reg (Reg.intRoute i)
       i = 32 + t || i = 48 + t || (fbit r F.intRouteEn && !fbit r F.intRouteSr && fget r F.intRouteTenant = t))) m.regs }

/-- The TENANT-domain registers of tenant `t` at their reset values, its log emptied with LOGOVF set, its notices and pending
interrupts gone (R212, R215, R218). -/
def Mach.tenRegs (m : Mach) (t : Nat) : Mach :=
  let m1 := m.resetRegs .tenant fun a =>
    (Reg.tenStat t ≤ a && a < Reg.tenStat t + 0x400) || (Reg.noteStat t ≤ a && a < Reg.noteStat t + 8)
  ((m1.setNoteq t []).clearTenInts t).setFld (Reg.tenStat t) F.tenStatLogovf 1

/-- A tenant reset starts (R215). -/
def Mach.startTenReset (m : Mach) (t : Nat) : Mach :=
  if tmem m.tenResets t then m
  else
    let m1 := ({ m with tenResets := tabInsert t m.now m.tenResets } : Mach).setBp t F.accBpReset true
    let m2 := (m1.usedCars.filter fun c => m1.carTen c = t).foldl Mach.startCarReset m1
    let m3 := (m2.usedCars.filter fun c => m2.carTen c = t).foldl (fun x c => x.setFld (Reg.carStat c) F.carStatCqerr 0) m2
    (m3.tenRegs t).endTenReset t

/-- A write of TEN_RESET (R215, R222). -/
def Mach.tenResetSet (m : Mach) (w : Who) (t : Nat) (v : Word) : Mach :=
  if nbit v.toNat 0 && (w.sr || (w.ten = 0 && t ≠ 0)) then m.startTenReset t else m

/-- A new marking epoch (R219). -/
def Mach.newMarks (m : Mach) (t : Nat) : Mach :=
  let c := m.reg (Reg.tenMplctl t)
  let c1 := fset (fset (fset c F.tenMplctlEpochno (fget c F.tenMplctlEpochno + 1)) F.tenMplctlNewepoch 1) F.tenMplctlClearing 1
  let m1 := ((m.setReg (Reg.tenMplctl t) c1).setFld (Reg.tenStat t) F.tenStatLogcnt 0).setFld (Reg.tenStat t) F.tenStatLogovf 0
  { m1.setReg (Reg.tenMpltail t) (m1.reg (Reg.tenMplhead t)) with clearing := setIns t m1.clearing }

/-- TEN_MPLCTL written (R220). -/
def Mach.mplCtlSet (m : Mach) (w : Who) (t : Nat) (v : Word) : Mach :=
  if !w.ofTen t then m
  else
    let m1 := m.setFld (Reg.tenMplctl t) F.tenMplctlEn (fget v F.tenMplctlEn)
    if fbit v F.tenMplctlNewepoch then m1.newMarks t else m1

/-- Payloads of words `a` to `a + n - 1` zeroed, outside marked pages and the vault, every changed copy first given to memory
(R219, R289). -/
def Mach.zeroWords (m : Mach) (a n : Nat) : Mach :=
  let lines := (m.seats.flatMap fun e =>
    (e.2.ns.map fun x => x.2.line) ++ (e.2.evb.map EvLine.line)).filter fun l => a ≤ 64 * l + 63 && 64 * l < a + n
  let m1 := lines.eraseDups.foldl (fun x l => x.snoopLine none l) m
  { m1 with mem := tabClear (fun k => 8 * a ≤ k && k < 8 * (a + n) && 2 ≤ k % 8 && !m1.srAddr (k / 8) && !vaultAddr (k / 8)) m1.mem }

/-- BITMAP_CLEAR_DONE (R219): the bitmap is zero. -/
def Mach.clearDone (m : Mach) (t : Nat) : Mach :=
  if m.clearing.contains t then
    let m1 := m.zeroWords (m.reg (Reg.tenMpbmbase t)).toNat ((m.reg (Reg.tenMpbmsize t)).toNat * 4096)
    ({ m1 with clearing := setDel t m1.clearing } : Mach).setReg (Reg.tenMplctl t)
      (fset (fset (m1.reg (Reg.tenMplctl t)) F.tenMplctlNewepoch 0) F.tenMplctlClearing 0)
  else m

/-- TEN_MPLTAIL written (R217): entries up to the new tail are consumed. -/
def Mach.mplTailSet (m : Mach) (w : Who) (t : Nat) (v : Word) : Mach :=
  if !w.ofTen t then m
  else
    let n := v.toNat % 65536
    let old := (m.reg (Reg.tenMpltail t)).toNat
    let cnt := m.fld (Reg.tenStat t) F.tenStatLogcnt
    let d := (n + 65536 - old) % 65536
    let c := if d ≤ cnt then cnt - d else ((m.reg (Reg.tenMplhead t)).toNat + 65536 - n) % 65536
    (m.setReg (Reg.tenMpltail t) (w48 n)).setFld (Reg.tenStat t) F.tenStatLogcnt c

/-- A write of register `o` of tenant `t` (R220, R222). -/
def Mach.tenSet (m : Mach) (w : Who) (t o : Nat) (v : Word) : Mach :=
  match o with
  | 0x01 => m.tenCtlSet w t v
  | 0x02 => if w.house && v.toNat % 8192 ≤ 4096 then m.setReg (Reg.tenCarmax t) (w48 (v.toNat % 8192)) else m
  | 0x03 => m.carRequest w t v
  | 0x06 => m.tenResetSet w t v
  | 0x08 => if w.house then m.setReg (Reg.tenMplbase t) (v &&& 0xFFFFF000) else m
  | 0x0A => m.mplTailSet w t v
  | 0x0B => if w.house then m.setReg (Reg.tenMpbmbase t) (v &&& 0xFFFFF000) else m
  | 0x0C => if w.house && v.toNat % 4096 ≤ 2048 then m.setReg (Reg.tenMpbmsize t) (w48 (v.toNat % 4096)) else m
  | 0x0D => m.mplCtlSet w t v
  | _ => m

/-! ### Reads (R220, R221) -/

/-- TEN_STAT as it reads. -/
def Mach.tenStatRead (m : Mach) (t : Nat) : Word :=
  let cs := m.usedCars.filter fun c => m.carTen c = t
  fset (fset (fset (m.reg (Reg.tenStat t)) F.tenStatCarrels cs.length) F.tenStatResetting (b2n (tmem m.tenResets t)))
    F.tenStatCqerr (b2n (cs.any fun c => m.bit (Reg.carStat c) F.carStatCqerr))

/-- TEN_CQNEXT as it reads: the lowest carrel of the tenant with NEW set. -/
def Mach.cqNextRead (m : Mach) (t : Nat) : Word :=
  match (m.usedCars.filter fun c => m.carTen c = t && m.bit (Reg.carStat c) F.carStatNew).min? with
  | some c => w48 (2 ^ 47 + c)
  | none => 0

/-- A register of carrel `c` as it reads (R221, R342): a free carrel, and to the open world a strongroom carrel, reads 0 but
for its generation. -/
def Mach.carRegRead (m : Mach) (w : Who) (c o : Nat) : Word :=
  if m.carState c = 0 || (!w.sr && m.srCarrels.contains c) then (if o = 9 then m.reg (Reg.carGen c) else 0)
  else if o = 0 then fset (m.reg (Reg.carStat c)) F.carStatOcc (m.occ c)
  else m.reg (Reg.carStat c + o)

end Sys2Proof.Machine
end

