-- ==== Sys2Proof/Machine/MemSys.lean ====
section
/-! DEFINITION. The memory system: the read check and what it counts, device failure, training, patrol scrub, strongroom
pages, change-bit scans and start-up (R323 to R337). -/

namespace Sys2Proof.Machine

open Sys2Proof

/-! ### Devices and groups (R324, R328) -/

/-- Where the container at a word address lies (R324): its data device, its octet offset there, and the parity device. -/
def placeOf (a : Nat) : Nat × Nat × Nat :=
  let g := groupOf (lineOf a)
  (devOf g (a / 8 % 8), a / 128 * 64 + 8 * (a % 8), devOf g 8)

/-- The device in training, shown in MEM_STAT: TRAINING is bit [5], the highest of TDEV's (log 70). The write queue goes out where
it ends (R330). -/
def Mach.setTraining (m : Mach) (d : Option Nat) : Mach :=
  ({ m with memst := { m.memst with training := d, writeQ := if d.isSome then m.memst.writeQ else [] } } : Mach).setFld
    Reg.memStat F.memStatTdev (match d with
      | some k => k ||| 16
      | none => 0)

/-- The stripe of a group whose device is in training, 8 the parity's, where the group is NORMAL (R330). -/
def Mach.trainStripe (m : Mach) (g : Nat) : Option Nat :=
  match m.memst.training with
  | some d => if d / 9 = g && m.grpState g = 0 then some (d % 9) else none
  | none => none

/-- A device fails (R328, R329): its group becomes DEGRADED, or BROKEN where it already was DEGRADED; IS0024 is raised. -/
def Mach.failDevice (m : Mach) (d cause : Nat) : Mach :=
  if m.devState d = 2 then m
  else
    let g := d / 9
    let m1 := m.setReg (Reg.memDev d) (fset (fset (m.reg (Reg.memDev d)) F.memDevState 2) F.memDevFailcause cause)
    let m2 := if m.memst.training = some d then m1.setTraining none
      else if m.trainStripe g ≠ none then { m1 with memst := { m1.memst with writeQ := [] } } else m1
    let s := min 2 (m.grpState g + 1)
    let m2 := m2.setFld (Reg.memGrp g) F.memGrpState s
    let m3 := if m2.bit Reg.memAlarm F.memAlarmDegraded then m2.raise 24 else m2.memAlarm F.memAlarmDegraded true
    (if s = 2 then m3.memAlarm F.memAlarmBroken true else m3).refreshHealth

/-- Rebuilds of device `d` in the RT second `sec`. -/
def Mach.rebuiltIn (m : Mach) (d sec : Nat) : Nat := tabGet (fun _ => 0) m.memst.rebuilds (32 * sec + d)

/-- A rebuild counted against a device: it fails where those of the RT second reach MEM_CTL.DEVTHR (R325, R328). -/
def Mach.countRebuild (m : Mach) (d : Nat) : Mach :=
  let sec := secOf m.rt
  let n := m.rebuiltIn d sec + 1
  let old := m.memst.rebuilds.filter fun e => sec ≤ e.1 / 32 + 1
  let m1 : Mach := { m with memst := { m.memst with rebuilds := tabInsert (32 * sec + d) n old } }
  if m.fld Reg.memCtl F.memCtlDevthr ≤ n then m1.failDevice d 1 else m1

/-- A read of MEM_DEV: REBUILDS is the count of the last complete RT second, PARITY is the part's own (R336). -/
def Mach.memDevRead (m : Mach) (d : Nat) : Word :=
  fset (fset (m.reg (Reg.memDev d)) F.memDevParity (b2n (d % 9 = 8))) F.memDevRebuilds
    (if secOf m.rt = 0 then 0 else min 65535 (m.rebuiltIn d (secOf m.rt - 1)))

/-! ### The read check (R325, R329, R330) -/

/-- Every container of a list poisoned, but for those that are poisoned already (R325, R326). -/
def Mach.poisonAll (m : Mach) (line : Nat) (cs : List Nat) : Mach :=
  cs.foldl (fun x c => if (x.cont (64 * line + c)).isPoison then x else x.poison (64 * line + c)) m

/-- Single-bit errors corrected and counted, by container of the line. -/
def Mach.correct (m : Mach) (line : Nat) (cs : List Nat) : Mach :=
  cs.foldl (fun x c => (x.count Reg.memCorr).count (Reg.memDevcorr (devOf (groupOf line) (c / 8)))) m

/-- The training in a NORMAL group is abandoned: the device takes back its values and serves (R330). -/
def Mach.abandonTraining (m : Mach) (g : Nat) : Mach :=
  match m.trainStripe g with
  | some j => (m.setFld (Reg.memDev (devOf g j)) F.memDevState 0).setTraining none
  | none => m

/-- What a read during a training of stripe `j` meets of the line's errors: the device in training is not read, its stripe rebuilt
without being counted, and no check of the parity is left (R330). -/
def errWithout (e : LineErr) (j : Nat) : LineErr :=
  { e with single := e.single.filter fun c => c / 8 ≠ j, multi := e.multi.filter fun c => c / 8 ≠ j, parity := false }

/-- Containers of the failed stripes that a group cannot rebuild: all of them where two stripes are needed or the parity is out
of service, where the rebuilt stripe fails its code, or those that share an offset with an uncorrectable one (R329). -/
def lostConts (failed : List Nat) (e : LineErr) : List Nat :=
  let data := failed.filter (· < 8)
  (List.range 64).filter fun c => data.contains (c / 8) &&
    (2 ≤ failed.length || !e.rebuilds || e.multi.any fun x => !data.contains (x / 8) && x % 8 = c % 8)

/-- A line read from its group with the errors `e0` (R325, R329, R330): what is corrected, rebuilt and poisoned. An uncorrectable
container of another device abandons a training, and the device in training then serves the read. -/
def Mach.readCheck (m0 : Mach) (line : Nat) (e0 : LineErr) : Mach :=
  let g := groupOf line
  let failed := (List.range 9).filter fun j => m0.devState (devOf g j) = 2
  let seen := match m0.trainStripe g with
    | some j => errWithout e0 j
    | none => e0
  let m := if seen.multi.isEmpty then m0 else m0.abandonTraining g
  let e := if seen.multi.isEmpty then seen else e0
  let live := fun c => !failed.contains (c / 8)
  let multi := e.multi.filter live
  let m1 := m.correct line (e.single.filter live)
  if failed.any (· < 8) then m1.poisonAll line (multi ++ lostConts failed e)
  else if multi.isEmpty then
    if e.parity && failed.isEmpty then m1.countRebuild (devOf g 8) else m1
  else
    match (multi.map (· / 8)).eraseDups with
    | [k] => if failed.isEmpty && e.rebuilds then (m1.count Reg.memRebuilt).countRebuild (devOf g k) else m1.poisonAll line multi
    | _ => m1.poisonAll line multi

/-- A line read from its group on behalf of a reader that reports no error of its own: a BROKEN group loses the containers of its
failed stripes (R325, R329). -/
def Mach.lineRead (m : Mach) (line : Nat) : Mach := if m.grpState (groupOf line) = 2 then m.readCheck line {} else m

/-! ### Training and scrub (R330 to R332) -/

/-- Memory is initialised and the module out of reset. -/
def Mach.memUp (m : Mach) : Bool := m.up && !m.bit Reg.memStat F.memStatInit

/-- Whether a device takes its turn: neither FAILED nor of a BROKEN group (R331). -/
def Mach.mayTrain (m : Mach) (d : Nat) : Bool := m.devState d ≠ 2 && m.grpState (d / 9) ≠ 2

/-- MEM_CTL.TRAINPER seconds have passed since a device was last trained (R330; counted in ticks, log 125). -/
def Mach.trainDue (m : Mach) (d : Nat) : Bool :=
  tabGet (fun _ => 0) m.memst.trainAt d + m.fld Reg.memCtl F.memCtlTrainper * 2 ^ 24 ≤ m.now

/-- DEVICE_TRAINING_START (R330): at a folio boundary the next device in turn, once its time has come, one at a time in the module. -/
def Mach.trainStart (m : Mach) : Mach :=
  if !m.memUp || m.memst.training.isSome || m.rt % 4096 ≠ 0 then m
  else
    match ((List.range 18).map fun k => (m.memst.nextTrain + k) % 18).find? m.mayTrain with
    | some d =>
      if m.trainDue d then
        let st := { m.memst with nextTrain := (d + 1) % 18, trainAt := tabPut (fun _ => 0) d m.now m.memst.trainAt }
        (({ m with memst := st } : Mach).setFld (Reg.memDev d) F.memDevState 1).setTraining (some d)
      else m
    | none => m

/-- DEVICE_TRAINING_END (R328, R330): completed, or failed; twice in succession fails the device. -/
def Mach.trainEnd (m : Mach) (pass : Bool) : Mach :=
  match m.memst.training with
  | none => m
  | some d =>
    let m1 := (m.setFld (Reg.memDev d) F.memDevState 0).setTraining none
    let fails := if pass then 0 else tabGet (fun _ => 0) m.memst.trainFails d + 1
    let m2 : Mach := { m1 with memst := { m1.memst with trainFails := tabPut (fun _ => 0) d fails m1.memst.trainFails } }
    if pass then m2.count (Reg.memDevtrain d) else if 2 ≤ fails then m2.failDevice d 2 else m2

/-- DEVICE_FAIL (R328): no response fails a device; the other causes fail it where their condition holds. -/
def Mach.deviceFail (m : Mach) (d cause : Nat) : Mach :=
  if m.memUp && (cause = 3 || (cause = 1 && m.fld Reg.memCtl F.memCtlDevthr ≤ m.rebuiltIn d (secOf m.rt)) ||
      (cause = 2 && 2 ≤ tabGet (fun _ => 0) m.memst.trainFails d)) then m.failDevice d cause
  else m

/-- Whether a unit or the stacks hold a line changed (R332). -/
def Mach.heldDirty (m : Mach) (line : Nat) : Bool :=
  m.l2dirty.contains line || m.seats.any fun e => match e.2.dirtyOf line with
    | some ws => !ws.isEmpty
    | none => false

/-- The ticks of a scrub period: MEM_CTL.SCRUBHRS hours (R332; log 125). -/
def Mach.scrubPeriod (m : Mach) : Nat := m.fld Reg.memCtl F.memCtlScrubhrs * 3600 * 2 ^ 24

/-- PATROL_SCRUB_LINE (R332): the next line is read and treated, unless a cache holds it changed. A pass begins in a period of its
own. -/
def Mach.scrubLine (m : Mach) (e : LineErr) : Mach :=
  let l := m.fld Reg.memScrub F.memScrubLine
  if !m.memUp || (l = 0 && m.now < m.memst.scrubAt) then m
  else
    let m1 := if m.heldDirty l then m else m.readCheck l e
    let p := m.fld Reg.memScrub F.memScrubPasses + (l + 1) / 2 ^ 26
    let m2 : Mach := if l = 0 then { m1 with memst := { m1.memst with scrubAt := m.now + m.scrubPeriod } } else m1
    m2.setReg Reg.memScrub (fset (fset 0 F.memScrubPasses p) F.memScrubLine (l + 1))

/-! ### Strongroom pages (R333) -/

/-- Every container of a page set to PAYLOAD 0, KEY 0, CHG 0 and a tag; every copy in a unit goes first. -/
def Mach.rewritePage (m : Mach) (page tag : Nat) : Mach :=
  let m1 := (List.range 64).foldl (fun x i => x.snoopLine none (64 * page + i)) m
  let c : Cont := { key := 0, tag := BitVec.ofNat 2 tag, chg := false, pay := 0 }
  { m1 with mem := spliceConts m1.mem (4096 * page) (List.replicate 4096 c) }

/-- MEM_SRSTAT.COUNT follows the marked pages. -/
def Mach.srCount (m : Mach) : Mach := m.setFld Reg.memSrstat F.memSrstatCount m.memst.srPages.length

/-- A page marked or unmarked (R333). -/
def Mach.markSr (m : Mach) (page : Nat) (set : Bool) : Mach :=
  let m1 := m.rewritePage page (if set then 2 else 0)
  ({ m1 with memst := { m1.memst with srPages := if set then setIns page m1.memst.srPages else setDel page m1.memst.srPages } } :
    Mach).srCount

/-- A page lies in a daybook ring, the seal roll or the mirror (R333). -/
def Mach.srOverlap (m : Mach) (p : Nat) : Bool :=
  (allTenants.any fun t => overlaps (4096 * p) 4096 (m.ringAddr t 0) (m.ringWords t)) ||
    overlaps (4096 * p) 4096 (m.reg Reg.sealRbase).toNat ((m.reg Reg.sealRsize).toNat * 4096) || m.mirrorWritten.contains p

/-- A write of MEM_SRPAGE from the strongroom (R333). -/
def Mach.srPageSet (m : Mach) (w : Who) (v : Word) : Mach :=
  let p := fget v F.memSrpagePage
  if !w.sr || m.bit Reg.memSrstat F.memSrstatBusy then m
  else if m.srOverlap p then m.setFld Reg.memSrstat F.memSrstatErr 1
  else
    ({ m with memst := { m.memst with srMark := some (p, fbit v F.memSrpageSet) } } : Mach).setReg Reg.memSrstat
      (fset (fset (m.reg Reg.memSrstat) F.memSrstatErr 0) F.memSrstatBusy 1)

/-- SRPAGE_MARK_DONE (R333): the rewriting ends. The vault's pages, which only the boot ROM writes (R351), stay as they are. -/
def Mach.srPageDone (m : Mach) : Mach :=
  match m.memst.srMark with
  | none => m
  | some (p, set) =>
    let m1 := if vaultAddr (4096 * p) then m else m.markSr p set
    ({ m1 with memst := { m1.memst with srMark := none } } : Mach).setFld Reg.memSrstat F.memSrstatBusy 0

/-! ### Change bits (R334) -/

/-- A write of MEM_CHGREQ (R334, R337); GO reads 1 while the scan runs (R11). -/
def Mach.chgReqSet (m : Mach) (w : Who) (v : Word) : Mach :=
  if !w.house || m.bit Reg.memChgres F.memChgresBusy then m
  else
    let m1 := m.setReg Reg.memChgreq (v &&& (fmask F.memChgreqClear ||| fmask F.memChgreqPage))
    let p := fget v F.memChgreqPage
    if !fbit v F.memChgreqGo then m1
    else if m.srPage p && !w.sr then m1.setReg Reg.memChgres (fset 0 F.memChgresErr 1)
    else
      (({ m1 with memst := { m1.memst with chgScan := some (p, fbit v F.memChgreqClear) } } : Mach).setReg Reg.memChgres
        (fset 0 F.memChgresBusy 1)).setFld Reg.memChgreq F.memChgreqGo 1

/-- A changed copy with CHG cleared in every container. -/
def clearChg (ws : List (Nat × Cont)) : List (Nat × Cont) := ws.map fun e => (e.1, { e.2 with chg := false })

/-- A unit's changed copies of a page's lines with CHG cleared. -/
def Seat.clearChg (s : Seat) (page : Nat) : Seat :=
  { s with
    ns := s.ns.map fun e => if e.2.line / 64 = page then (e.1, { e.2 with words := Machine.clearChg e.2.words }) else e
    evb := s.evb.map fun e => if e.line / 64 = page then { e with words := Machine.clearChg e.words } else e }

/-- CHG_SCAN_DONE (R334). -/
def Mach.chgScanDone (m : Mach) : Mach :=
  match m.memst.chgScan with
  | none => m
  | some (p, clear) =>
    let any := (List.range 4096).any fun i => (m.coh (4096 * p + i)).chg
    let m1 : Mach := if clear then
        { m with
          seats := m.seats.map fun e => (e.1, e.2.clearChg p)
          mem := (List.range 4096).foldl (fun x i =>
            let c := contAt x (4096 * p + i)
            if c.chg then putCont x (4096 * p + i) { c with chg := false } else x) m.mem }
      else m
    (({ m1 with memst := { m1.memst with chgScan := none } } : Mach).setReg Reg.memChgres (fset 0 F.memChgresAny (b2n any))).setFld
      Reg.memChgreq F.memChgreqGo 0

/-! ### Start-up (R335) -/

/-- MEM_INIT_COMPLETE (R335): every container of every unmarked page is zero; devices that failed training are FAILED from the
start. -/
def Mach.memInitDone (m : Mach) (failed : List Nat) : Mach :=
  if m.up && m.bit Reg.memStat F.memStatInit then
    let st := { m.memst with
      trainAt := (List.range 18).foldl (fun t d => tabPut (fun _ => 0) d m.now t) m.memst.trainAt, scrubAt := m.now }
    failed.foldl (fun x d => x.failDevice d 2) ({ m with mem := [], memst := st }.setFld Reg.memStat F.memStatInit 0)
  else m

/-! ### MEM_CTL and MEM_ALARM (R336, R337) -/

/-- A write of MEM_CTL from the strongroom: reserved values keep their field (R9). -/
def Mach.memCtlSet (m : Mach) (w : Who) (v : Word) : Mach :=
  if !w.sr then m
  else
    let a := Reg.memCtl
    let m1 := if fget v F.memCtlTrainper < 10 then m else m.setFld a F.memCtlTrainper (fget v F.memCtlTrainper)
    let h := fget v F.memCtlScrubhrs
    let m2 := if 1 ≤ h && h ≤ 24 then m1.setFld a F.memCtlScrubhrs h else m1
    if fget v F.memCtlDevthr = 0 then m2 else m2.setFld a F.memCtlDevthr (fget v F.memCtlDevthr)

/-- A write of MEM_ALARM: POISON clears where 1 is written by T00 software or the strongroom; the change raises IS0024. -/
def Mach.memAlarmSet (m : Mach) (w : Who) (v : Word) : Mach :=
  if w.house && fbit v F.memAlarmPoison then m.memAlarm F.memAlarmPoison false else m

end Sys2Proof.Machine
end

