-- ==== Sys2Proof/Machine/CoreBase.lean ====
section
/-! DEFINITION. A core as its instructions use it: levels, control cells, stacks with spill and fill, translation, keys and
tags, the near store's data path, groups and checkpoints, taking an exception or interrupt and returning, and the frame in
which every instruction runs (R223 to R258, R270 to R306). -/

namespace Sys2Proof.Machine

open Sys2Proof

/-! ### Levels and cells (R223, R226 to R228) -/

/-- The handling level of a level (R232). -/
def handlerOf (wld : Nat) : Nat := if wld = 4 then 4 else if 2 ≤ wld then 3 else 1

/-- A task level (R223). -/
def taskLevel (wld : Nat) : Bool := wld = 0 || wld = 2

/-- A level of the strongroom world (R223). -/
def srLevel (wld : Nat) : Bool := 2 ≤ wld

/-- Cell `n` of bank `b`, bank 0 for the unbanked cells (R227, R228). -/
def Arch.cell (a : Arch) (b n : Nat) : Word := tabGet (fun _ => 0) a.cells (32 * b + n)

/-- A cell given a value. -/
def Arch.setCell (a : Arch) (b n : Nat) (v : Word) : Arch := { a with cells := tabPut (fun _ => 0) (32 * b + n) v a.cells }

/-- A cell of the current level. -/
def Arch.own (a : Arch) (n : Nat) : Word := a.cell (a.wld + 1) n

/-- A cell of the current level given a value. -/
def Arch.setOwn (a : Arch) (n : Nat) (v : Word) : Arch := a.setCell (a.wld + 1) n v

/-- TEN and PID. -/
def Arch.ten (a : Arch) : Nat := (a.cell 0 9).toNat % 16
def Arch.pid (a : Arch) : Nat := (a.cell 0 8).toNat % 2 ^ 24

/-- FPC. -/
def Arch.fpc (a : Arch) : Word := a.cell 0 0xC

/-- PSW of a level. -/
def Arch.psw (a : Arch) (wld : Nat) : Word := a.cell (wld + 1) 7

/-- The fields of PSW (R228). -/
def Psw.key : Fld := ⟨47, 44⟩
def Psw.wkey : Fld := ⟨43, 40⟩
def Psw.ie : Fld := ⟨39, 39⟩
def Psw.xa : Fld := ⟨38, 38⟩
def Psw.v : Fld := ⟨37, 37⟩
def Psw.pri : Fld := ⟨35, 32⟩

/-- A self-window register that travels with the seat, by its offset in the window (R238, R300). -/
def Arch.reg (a : Arch) (o : Nat) : Word := tabGet (fun _ => 0) a.regs o
def Arch.setReg (a : Arch) (o : Nat) (v : Word) : Arch := { a with regs := tabPut (fun _ => 0) o v a.regs }

/-- The cell of a stack's pointer, base and limit: the return stack's or the data stack's. -/
def ptrCell (rs : Bool) : Nat := if rs then 2 else 1
def baseCell (rs : Bool) : Nat := if rs then 5 else 3
def limCell (rs : Bool) : Nat := if rs then 6 else 4

/-- The entries of a stack held in the core, the top first. -/
def Arch.stk (a : Arch) (rs : Bool) : List Word := if rs then a.rs else a.ds
def Arch.setStk (a : Arch) (rs : Bool) (l : List Word) : Arch := if rs then { a with rs := l } else { a with ds := l }

/-- DSP or RSP of the current level. -/
def Arch.ptr (a : Arch) (rs : Bool) : Nat := (a.own (ptrCell rs)).toNat

/-- How the bounds of a stack of the current level meet pops and then pushes: the detail of DSTACK or RSTACK where they fail
(R225, R248). -/
def Arch.stackFault (a : Arch) (rs : Bool) (pops pushes : Nat) : Option Nat :=
  let p := a.ptr rs
  let b := (a.own (baseCell rs)).toNat
  let l := (a.own (limCell rs)).toNat
  if pops = 0 && pushes = 0 then none
  else if p < b || l < p then some 2
  else if p < b + pops then some 1
  else if l + pops < p + pushes then some 0
  else none

/-! ### PC format (R240, R241, R255) -/

/-- The linear syllable number of a PC. -/
def linearOf (pc : Nat) : Nat := 6 * (pc / 8) + pc % 8

/-- The PC of a linear syllable number, modulo 6 x 2^40 (R241). -/
def pcOfLinear (n : Int) : Nat :=
  let k := (n % (6 * 2 ^ 40 : Nat)).toNat
  k / 6 * 8 + k % 6

/-- Whether a word is in PC format (R255). -/
def pcFormat (w : Word) : Bool := w.toNat < 2 ^ 43 && w.toNat % 8 ≤ 5

/-- Where sequential execution goes on after an instruction of `len` syllables, with the literal words its word has consumed
(R240). -/
def nextPc (pc len litk : Nat) : Nat :=
  if pc % 8 + len < 6 then pc + len else ((pc / 8 + 1 + litk) % 2 ^ 40) * 8

/-! ### Exceptions (R232) -/

/-- An exception an instruction raises: cause, detail, virtual page, whether a spill or fill raised it, and the module as the
instruction had left it, of which `Mach.undo` keeps what stays. -/
structure Exc where
  cause : Nat
  detail : Nat
  page : Nat := 0
  spill : Bool := false
  at_ : Mach := {}
deriving DecidableEq, Repr

/-- The causes (R232). -/
def Cause.reset : Nat := 0x00
def Cause.illegal : Nat := 0x01
def Cause.priv : Nat := 0x02
def Cause.dstack : Nat := 0x03
def Cause.rstack : Nat := 0x04
def Cause.xlate : Nat := 0x05
def Cause.key : Nat := 0x06
def Cause.type : Nat := 0x07
def Cause.poison : Nat := 0x08
def Cause.pprot : Nat := 0x09
def Cause.paddr : Nat := 0x0A
def Cause.idiv : Nat := 0x0B
def Cause.ddata : Nat := 0x0C
def Cause.dovf : Nat := 0x0D
def Cause.fp : Nat := 0x0E
def Cause.svc : Nat := 0x0F
def Cause.callm : Nat := 0x10
def Cause.intr : Nat := 0x11
def Cause.double : Nat := 0x12

/-- What an instruction does: it gives a value and a state, or raises an exception. -/
abbrev CoreAct := StateT Mach (Except Exc)

/-- An exception raised. -/
def coreExc {α : Type} (cause detail : Nat) (page : Nat := 0) : CoreAct α := fun m =>
  .error { cause := cause, detail := detail, page := page, at_ := m }

/-- A spill or fill: its exceptions set XCS.SPILL (R225). -/
def asSpill {α : Type} (x : CoreAct α) : CoreAct α := fun m =>
  match x m with
  | .ok r => .ok r
  | .error e => .error { e with spill := true }

/-- The architected state of a seat. -/
def Mach.arch (m : Mach) (q : Nat) : Arch := (m.seat q).arch
def Mach.setArch (m : Mach) (q : Nat) (a : Arch) : Mach := m.setSeat q { m.seat q with arch := a }

def getArch (q : Nat) : CoreAct Arch := fun m => .ok (m.arch q, m)
def setArch (q : Nat) (a : Arch) : CoreAct Unit := fun m => .ok ((), m.setArch q a)
def modMach (f : Mach → Mach) : CoreAct Unit := fun m => .ok ((), f m)

/-! ### Performance counters (R297 to R299) -/

/-- An event counted `n` times by each counter of seat `q` that is enabled and selects it (R297). -/
def Mach.pmc (m : Mach) (q ev n : Nat) : Mach :=
  let a := m.arch q
  let ctl := a.reg 0x14
  if fget ctl F.corePmctlEn = 0 || (srLevel a.wld && !fbit ctl F.corePmctlSr) then m
  else
    m.setArch q ((List.range 4).foldl (fun x i =>
      if nbit (fget ctl F.corePmctlEn) i && nbits ctl.toNat (8 * i + 7) (8 * i) = ev then
        x.setReg (0x15 + i) (w48 ((x.reg (0x15 + i)).toNat + n)) else x) a)

/-- Whether an enabled counter of a seat selects an event. -/
def Mach.pmcWants (m : Mach) (q ev : Nat) : Bool :=
  let ctl := (m.arch q).reg 0x14
  (List.range 4).any fun i => nbit (fget ctl F.corePmctlEn) i && nbits ctl.toNat (8 * i + 7) (8 * i) = ev

/-- The counts of cycles and, of an instruction that may fold (R242), of folded operations, which the spec does not fix per
instruction: free values (log 71). -/
def Mach.pmcFree (m : Mach) (q : Nat) (fold : Bool) : Mach :=
  (if fold then [0x01, 0x03] else [0x01]).foldl (fun x ev =>
    if x.pmcWants q ev then let (n, x1) := x.draw; x1.pmc q ev n else x) m

/-- What an access of the instruction in progress will touch and count once it retires (R283, R298). -/
def Mach.noteNs (m : Mach) (q : Nat) (e : NsEv) : Mach := m.setSeat q { m.seat q with acc := e :: (m.seat q).acc }

/-! ### The stacks' directory (R294, R295) -/

/-- The cluster of a seat. -/
def cluOf (q : Nat) : Nat := q / 16

/-- Whether a line is locked in a near store of a cluster. -/
def Mach.lineLocked (m : Mach) (c line : Nat) : Bool :=
  m.seats.any fun e => cluOf e.1 = c && e.2.ns.any fun x => x.2.locked && x.2.line = line

/-- A line removed from the near stores and L1 instruction caches of a cluster, dirty copies written back (R292, R295). -/
def Mach.clusterDrop (m : Mach) (c line : Nat) : Mach :=
  m.seats.foldl (fun x e =>
    if cluOf e.1 ≠ c then x
    else
      let x1 := match e.2.dirtyOf line with
        | some ws => x.writeLine line ws
        | none => x
      if e.2.dropLine line = e.2 then x1 else x1.setSeat e.1 ((x1.seat e.1).dropLine line)) m

/-- A line used in the stacks of a cluster: whether it was there, and the state after it is the most recently used of its set; a
set of 16 displaces the least recently used line that is not locked (R294, R295). -/
def Mach.stacksUse (m : Mach) (c line : Nat) : Bool × Mach :=
  let k := 4096 * c + line % 4096
  let set := tabGet (fun _ => []) m.l2 k
  if set.contains line then (true, { m with l2 := tabPut (fun _ => []) k (line :: set.filter (· ≠ line)) m.l2 })
  else
    let (gone, keep) : Option Nat × List Nat :=
      if set.length < 16 then (none, set)
      else match set.reverse.find? fun l => !m.lineLocked c l with
        | some l => (some l, set.filter (· ≠ l))
        | none => (none, set.take 15)
    let m1 := match gone with
      | some l => m.clusterDrop c l
      | none => m
    let m2 : Mach := { m1 with l2 := tabPut (fun _ => []) k (line :: keep) m1.l2 }
    (false, match gone with
      | some l => if m2.l2dirty.contains l && !m2.inStacks l then m2.toGroup l else m2
      | none => m2)

/-! ### The near store (R282 to R286) -/

/-- Entry `i` of a near store. -/
def Seat.ent (s : Seat) (i : Nat) : NsEnt := tabGet (fun _ => {}) s.ns i
def Seat.setEnt (s : Seat) (i : Nat) (e : NsEnt) : Seat := { s with ns := tabPut (fun _ => {}) i e s.ns }

/-- The valid entry that holds a line. -/
def Seat.holds (s : Seat) (line : Nat) : Option Nat := (s.ns.find? fun e => e.2.valid && e.2.line = line).map Prod.fst

/-- The locked-empty entry of a line (R282). -/
def Seat.lockedEmpty (s : Seat) (line : Nat) : Option Nat :=
  (s.ns.find? fun e => !e.2.valid && e.2.locked && e.2.line = line).map Prod.fst

/-- The buffered copy of a line (R285). -/
def Seat.buffered (s : Seat) (line : Nat) : Bool := s.evb.any fun e => e.line = line

/-- Whether leaf `l` lies under node `n` of the replacement tree. -/
def underNode (n l : Nat) : Bool := (List.range 7).any fun k => l / 2 ^ k = n

/-- Whether the subtree of a node holds an unlocked entry. -/
def Seat.anyUnlocked (s : Seat) (n : Nat) : Bool := (List.range 64).any fun e => underNode n (e + 64) && !(s.ent e).locked

/-- The walk down the replacement tree from node `n` (R283). -/
def Seat.victimFrom (s : Seat) : Nat → Nat → Nat
  | 0, n => n - 64
  | k + 1, n =>
    let d := if s.plru.contains n then 1 else 0
    Seat.victimFrom s k (2 * n + if s.anyUnlocked (2 * n + d) then d else 1 - d)

/-- victim() of R283. -/
def Seat.victim (s : Seat) : Nat :=
  match findLt 64 fun i => !(s.ent i).valid && !(s.ent i).locked with
  | some i => i
  | none => s.victimFrom 6 1

/-- touch(e) of R283, from node `n` up. -/
def touchFrom : Nat → Nat → List Nat → List Nat
  | 0, _, bits => bits
  | k + 1, n, bits => touchFrom k (n / 2) (if n % 2 = 0 then setIns (n / 2) bits else setDel (n / 2) bits)

def Seat.touch (s : Seat) (i : Nat) : Seat := { s with plru := touchFrom 6 (i + 64) s.plru }

/-- The fill of entry `i` completes (R283): the entry is touched and a dirty victim enters the eviction buffer. -/
def Seat.fillDone (s : Seat) (i : Nat) : Seat :=
  let s1 := (s.setEnt i { s.ent i with filling := false }).touch i
  { s1 with evb := s1.evb.map fun e => if e.entry = some i then { e with entry := none } else e }

/-- Every fill of a seat completes. -/
def Mach.fillsDone (m : Mach) (q : Nat) : Mach :=
  let s := m.seat q
  let is := (s.ns.filter fun e => e.2.filling).map Prod.fst
  if is.isEmpty then m else m.setSeat q (is.foldl Seat.fillDone s)

/-- The lines in the eviction buffer (R285). -/
def Seat.evbCount (s : Seat) : Nat := (s.evb.filter fun e => e.entry.isNone).length

/-- The oldest buffered line written back (R285). -/
def Mach.writeBack (m : Mach) (q : Nat) : Mach :=
  let s := m.seat q
  match s.evb.find? fun e => e.entry.isNone with
  | some e => (m.writeLine e.line e.words).setSeat q { s with evb := s.evb.filter fun x => x.line ≠ e.line }
  | none => m

/-- A fill of a line begins (R283, R286): into its locked-empty entry or the victim, a dirty victim on its way to the buffer;
where the buffer is full the fill waits for one write-back. What it counts is counted when its instruction retires (R298). -/
def Mach.fill (m0 : Mach) (q line : Nat) : Nat × Mach :=
  let m1 := m0.fillsDone q
  let i := ((m1.seat q).lockedEmpty line).getD ((m1.seat q).victim)
  let old := (m1.seat q).ent i
  let dirty := old.valid && !old.words.isEmpty
  let m2 := if dirty && 8 ≤ (m1.seat q).evbCount then (m1.writeBack q).noteNs q .full else m1
  let s := m2.seat q
  let s1 := if dirty then { s with evb := s.evb ++ [{ line := old.line, words := old.words, entry := some i }] } else s
  let lock := old.locked && !old.valid
  let m3 := m2.setSeat q (s1.setEnt i
    { valid := true, locked := lock, line := line, vline := if lock then old.vline else 0, filling := true })
  let (hit, m4) := m3.stacksUse (cluOf q) line
  (i, if hit then m4 else m4.noteNs q .stacks)

/-- A data access of seat `q` meets the near store (R283, R285): a hit, the buffer, or a fill. -/
def Mach.nsAccess (m : Mach) (q line : Nat) : Mach :=
  if ((m.seat q).holds line).isSome then m.noteNs q (.hit line)
  else if (m.seat q).buffered line then m.noteNs q .buffered
  else ((m.snoopRead (some q) line).fill q line).2.noteNs q .miss

/-- One such access at its instruction's retirement: a hit touches its entry (R283), and the event is counted (R298, R299). -/
def Mach.nsCount (q : Nat) (m : Mach) (e : NsEv) : Mach :=
  match e with
  | .hit line => (match (m.seat q).holds line with
    | some i => m.setSeat q ((m.seat q).touch i)
    | none => m).pmc q 0x07 1
  | .miss => m.pmc q 0x08 1
  | .buffered => m.pmc q 0x09 1
  | .stacks => m.pmc q 0x0A 1
  | .full => m.pmc q 0x0B 1
  | .fetch ev => m.pmc q ev 1

/-- The accesses of an instruction that retires, oldest first. -/
def Mach.nsRetire (m : Mach) (q : Nat) : Mach :=
  let l := (m.seat q).acc.reverse
  if l.isEmpty then m else l.foldl (Mach.nsCount q) (m.setSeat q { m.seat q with acc := [] })

/-! ### One line (R284, R287, R288) -/

/-- A fill of a line, or one that displaces it, completes first (R288). -/
def Mach.settle (m : Mach) (q line : Nat) : Mach :=
  let s := m.seat q
  if (s.ns.any fun e => e.2.filling && e.2.line = line) || (s.evb.any fun e => e.entry.isSome && e.line = line) then m.fillsDone q
  else m

/-- Buffered lines written back in order until a line has gone (R285, R288). -/
def Mach.writeBackTo (q line : Nat) : Nat → Mach → Mach
  | 0, m => m
  | n + 1, m => if (m.seat q).buffered line then Mach.writeBackTo q line n (m.writeBack q) else m

/-- Entry `i` cleaned. -/
def Mach.cleanEnt (m : Mach) (q i : Nat) : Mach :=
  let e := (m.seat q).ent i
  if e.valid && !e.words.isEmpty then
    let m1 := m.writeLine e.line e.words
    m1.setSeat q ((m1.seat q).setEnt i { e with words := [] })
  else m

/-- Entry `i` invalid and unlocked. -/
def Mach.dropEnt (m : Mach) (q i : Nat) : Mach := m.setSeat q ((m.seat q).setEnt i {})

/-- The entry of a line, valid or locked-empty. -/
def Seat.entryOf (s : Seat) (line : Nat) : Option Nat :=
  match s.holds line with
  | some i => some i
  | none => s.lockedEmpty line

/-- Clean of a line (R287, R288). -/
def Mach.cleanLine (m0 : Mach) (q line : Nat) : Mach :=
  let m := m0.settle q line
  match (m.seat q).holds line with
  | some i => m.cleanEnt q i
  | none => Mach.writeBackTo q line 9 m

/-- Flush of a line by its address (R287, R288). -/
def Mach.flushLine (m0 : Mach) (q line : Nat) : Mach :=
  let m := m0.cleanLine q line
  match (m.seat q).entryOf line with
  | some i => m.dropEnt q i
  | none => m

/-! ### The stacks (R296) -/

/-- A unit's changed copies of a line clean: what it holds of the line stays where it is (R296). -/
def Seat.cleaned (s : Seat) (line : Nat) : Seat :=
  { s with
    ns := s.ns.map fun e => if e.2.line = line then (e.1, { e.2 with words := [] }) else e
    evb := s.evb.map fun e => if e.line = line then { e with words := [] } else e }

/-- A line's changed copies, wherever in the module they are, written to memory and clean (R296). -/
def Mach.cleanAll (m : Mach) (line : Nat) : Mach :=
  let m1 := m.seats.foldl (fun x e => match e.2.dirtyOf line with
    | some ws => if ws.isEmpty then x else (x.writeLine line ws).setSeat e.1 ((x.seat e.1).cleaned line)
    | none => x) m
  if m1.l2dirty.contains line then m1.toGroup line else m1

/-- A line removed from every near store, instruction cache and stacks, memory holding it (R292, R296). -/
def Mach.removeAll (m : Mach) (line : Nat) : Mach :=
  let m1 := (m.cleanAll line).snoopLine none line
  { m1 with
    seats := m1.seats.map fun e => (e.1, { e.2 with
      l1i := (e.2.l1i.map fun w => (w.1, w.2.filter (· ≠ line))).filter fun w => w.2 ≠ [] })
    l2 := (m1.l2.map fun w => (w.1, w.2.filter (· ≠ line))).filter fun w => w.2 ≠ [] }

/-! ### Stores reach the near store (R285, R306) -/

/-- A changed container placed among a line's. -/
def putWord (ws : List (Nat × Cont)) (a : Nat) (c : Cont) : List (Nat × Cont) := tabInsert (a % 64) c ws

/-- A store of seat `q` reaches its near store (R285, R289, R291, R333): every other copy goes; it merges into the buffered copy
or the entry. Outside strongroom tags a marked page takes poison. -/
def Mach.nsStore (m : Mach) (q a : Nat) (c : Cont) : Mach :=
  let line := lineOf a
  if m.srAddr a && c.tag ≠ 2 then (m.snoopLine none line).poison a
  else
    let m1 := m.snoopLine (some q) line
    let s := m1.seat q
    let s0 := { s with l1i := (s.l1i.map fun e => (e.1, e.2.filter (· ≠ line))).filter fun e => e.2 ≠ [] }
    if (s0.holds line).isNone && s0.buffered line then
      m1.setSeat q { s0 with evb := s0.evb.map fun e => if e.line = line then { e with words := putWord e.words a c } else e }
    else
      let (i, m2) := match s0.holds line with
        | some i => (i, m1.setSeat q s0)
        | none => (m1.setSeat q s0).fill q line
      let e := (m2.seat q).ent i
      m2.setSeat q ((m2.seat q).setEnt i { e with words := putWord e.words a c })

/-- The container that an IST of seat `q` replaces, kept for the seat's own fetches until its IFENCE (R253). -/
def Mach.keepOld (m : Mach) (q a : Nat) : Mach :=
  if tmem (m.seat q).istOld a then m else m.setSeat q { m.seat q with istOld := tabInsert a (m.coh a) (m.seat q).istOld }

/-- A store of a group reaches memory's side, with the maintenance that followed it: an IST bypasses the near store (R282). -/
def Mach.drainOne (q : Nat) (m : Mach) (e : GStore) : Mach :=
  let line := lineOf e.addr
  let m1 :=
    if e.ist then
      let m0 := m.keepOld q e.addr
      if m0.srAddr e.addr && e.cont.tag ≠ 2 then (m0.snoopLine none line).poison e.addr else m0.put e.addr e.cont
    else m.nsStore q e.addr e.cont
  match e.after with
  | 0 => m1
  | 1 => m1.cleanLine q line
  | 2 => m1.flushLine q line
  | 3 => m1.cleanAll line
  | _ => m1.removeAll line

/-- The stores of a group reach the near store, oldest first (R306). -/
def Mach.drain (m : Mach) (q : Nat) : Mach :=
  let l := (m.seat q).stores.reverse
  if l.isEmpty then m else l.foldl (Mach.drainOne q) (m.setSeat q { m.seat q with stores := [] })

/-- The container a seat's own loads see: its group's newest store, else what every agent sees (R236, R306). -/
def Mach.seen (m : Mach) (q a : Nat) : Cont :=
  match (m.seat q).stores.find? fun e => e.addr = a with
  | some e => e.cont
  | none => m.coh a

/-- The waiting stores of a line marked with the maintenance that follows them (R287, R306), a stronger mark kept. -/
def Mach.markStores (m : Mach) (q line k : Nat) : Mach :=
  if (m.seat q).stores.isEmpty then m
  else m.setSeat q { m.seat q with
    stores := (m.seat q).stores.map fun e => if lineOf e.addr = line then { e with after := max e.after k } else e }

/-- The waiting stores of a line lost with the line's data (R287). -/
def Mach.loseStores (m : Mach) (q line : Nat) : Mach :=
  if (m.seat q).stores.isEmpty then m
  else m.setSeat q { m.seat q with stores := (m.seat q).stores.filter fun e => e.ist || lineOf e.addr ≠ line }

/-! ### Translation, keys and tags (R229 to R231) -/

/-- The kinds of access of a core (R231, R257). -/
inductive Acc where
  | fetch | ild | load | ist | store | readCheck | storeCheck
deriving DecidableEq, Repr

/-- Accesses whose page must be writable. -/
def Acc.needsW : Acc → Bool
  | .ist | .store | .storeCheck => true
  | _ => false

/-- Accesses that store. -/
def Acc.stores : Acc → Bool
  | .ist | .store => true
  | _ => false

/-- The X bit an access needs, where it needs one (R231). -/
def Acc.needsX : Acc → Option Bool
  | .fetch | .ild | .ist => some true
  | .load | .store => some false
  | _ => none

/-- A walk of a root's tables (R229): the L2 entry of a virtual page, or the XLATE detail. -/
def Mach.walk (m : Mach) (root : Word) (sr : Bool) (vpage : Nat) : Except Nat Nat :=
  let l1 := m.tableWord (fget root F.coreXrootPage) (vpage / 2 ^ 14)
  if !nbit l1 47 then .error 0
  else if entryBad true l1 then .error 5
  else
    let l2 := m.tableWord (nbits l1 19 0) (vpage % 2 ^ 14)
    if !nbit l2 47 then .error 1
    else if entryBad false l2 || (nbit l2 43 && !sr) then .error 5
    else .ok l2

/-- The L2 entry a core uses for a page (R229): a held one may be older than the tables, and which of the two the core uses is a
free value (log 72). -/
def pageEntry (q : Nat) (sr : Bool) (root : Word) (vpage : Nat) : CoreAct Nat := fun m =>
  let s := m.seat q
  let held := s.tlb.find? fun e => e.srRoot = sr && e.vpage = vpage
  let rest := s.tlb.filter fun e => !(e.srRoot = sr && e.vpage = vpage)
  let put := fun (x : Mach) (w : Nat) => x.setSeat q { s with tlb := { srRoot := sr, vpage := vpage, entry := w48 w } :: rest }
  match held, m.walk root sr vpage with
  | none, .ok w => .ok (w, put m w)
  | none, .error d => coreExc Cause.xlate d vpage m
  | some e, r =>
    if r = .ok e.entry.toNat then .ok (e.entry.toNat, m)
    else
      let (f, m1) := m.draw
      if f % 2 = 0 then .ok (e.entry.toNat, m1)
      else match r with
        | .ok w => .ok (w, put m1 w)
        | .error d => coreExc Cause.xlate d vpage m1

/-- Translation of an access at a level (R229): the physical address and the page's S. -/
def xlate (q wld a : Nat) (k : Acc) : CoreAct (Nat × Bool) := fun m =>
  let sr := srLevel wld
  let root := (m.arch q).reg (if sr then 1 else 0)
  let va := a % 2 ^ 40
  let vp := va / 4096
  if !fbit root F.coreXrootEn then
    if !sr || 2 ^ 32 ≤ va then coreExc Cause.xlate 6 vp m
    else if k.stores && vaultAddr va then coreExc Cause.xlate 2 vp m
    else .ok ((va, true), m)
  else
    match pageEntry q sr root vp m with
    | .error e => .error e
    | .ok (e, m1) =>
      let p := nbits e 19 0 * 4096 + va % 4096
      if (k.needsW && !nbit e 46) || (k.stores && vaultAddr p) then coreExc Cause.xlate 2 vp m1
      else if taskLevel wld && !nbit e 44 then coreExc Cause.xlate 3 vp m1
      else if k.needsX.isSome && k.needsX ≠ some (nbit e 45) then coreExc Cause.xlate 4 vp m1
      else .ok ((p, nbit e 43), m1)

/-- A daybook ring of an enabled tenant or the seal roll holds an address (R203). -/
def Mach.inLedger (m : Mach) (p : Nat) : Bool :=
  (allTenants.any fun t => m.bit (Reg.tenCtl t) F.tenCtlEn && m.ringAddr t 0 ≤ p && p < m.ringAddr t 0 + m.ringWords t) ||
    ((m.eff Reg.sealRbase).toNat ≤ p && p < (m.eff Reg.sealRbase).toNat + m.rollWords)

/-- Whether an access passes the key check (R203, R230, R326). -/
def Mach.keyPass (m : Mach) (q wld : Nat) (k : Acc) (p : Nat) (c : Cont) : Bool :=
  let a := m.arch q
  let key := fget (a.psw wld) Psw.key
  c.isPoison || c.key.toNat = key || (key = 0 && !taskLevel wld) ||
    ((k = .load || k = .readCheck) && !srLevel wld && m.inspector a.ten && m.inLedger p)

/-- The KEY detail of an access (R232). -/
def Acc.keyDetail : Acc → Nat
  | .fetch => 2
  | .ist | .store | .storeCheck => 1
  | _ => 0

/-- The tags an access passes at a level (R231): the open world never touches strongroom containers. -/
def Acc.tagPass (k : Acc) (sr : Bool) (tag : Nat) : Bool :=
  match k with
  | .fetch | .ild => tag = 1 || (sr && tag = 2)
  | .load => tag = 0 || (sr && tag = 2)
  | .ist | .store => sr || tag ≠ 2
  | .readCheck | .storeCheck => true

/-- The checks of an access to a container in the order of R234: KEY, then POISON and TYPE. -/
def checkCont (q wld a : Nat) (k : Acc) (p : Nat) (c : Cont) : CoreAct Unit := fun m =>
  let vp := a % 2 ^ 40 / 4096
  if !m.keyPass q wld k p c then coreExc Cause.key k.keyDetail vp m
  else if c.isPoison && (k = .fetch || k = .ild || k = .load) then
    coreExc Cause.poison (if k = .fetch then 1 else 0) vp m
  else if !k.tagPass (srLevel wld) c.tag.toNat then coreExc Cause.type c.tag.toNat vp m
  else .ok ((), m)

/-- The container a store leaves (R230, R231): PSW.KEY, or PSW.WKEY where it is 0; tag by page and kind; CHG set. -/
def storeCont (psw : Word) (k : Acc) (s : Bool) (v : Word) : Cont :=
  let key := if fget psw Psw.key = 0 then fget psw Psw.wkey else fget psw Psw.key
  { key := BitVec.ofNat 4 key, tag := if s then 2 else if k = .ist then 1 else 0, chg := true, pay := v }

/-- A line that no cache near seat `q` holds is read from its group, where a BROKEN group loses containers (R325, R329). -/
def Mach.lineSeen (m : Mach) (q line : Nat) : Mach :=
  if ((m.seat q).holds line).isSome || (m.seat q).buffered line || m.inStacks line then m else m.lineRead line

/-- A core's read of a D-space word at a level: translated, checked, served through the near store. -/
def loadAt (q wld a : Nat) : CoreAct Word := do
  let (p, _) ← xlate q wld a .load
  modMach fun m => m.lineSeen q (lineOf p)
  let c ← (fun m => .ok (m.seen q p, m) : CoreAct Cont)
  checkCont q wld a .load p c
  modMach fun m => m.nsAccess q (lineOf p)
  pure c.pay

/-- Whether a seat runs in split mode, where stores go out as their instructions retire (R317). -/
def Mach.splitSeat (m : Mach) (q : Nat) : Bool := !m.locked (cluOf q)

/-- The checks of a store at an address, nothing stored: the physical address and the page's S. -/
def storeOk (q wld a : Nat) (k : Acc) : CoreAct (Nat × Bool) := do
  let (p, s) ← xlate q wld a k
  modMach fun m => m.lineSeen q (lineOf p)
  let c ← (fun m => .ok (m.seen q p, m) : CoreAct Cont)
  checkCont q wld a k p c
  pure (p, s)

/-- A store that has passed its checks: held in the group store buffer (R306); its line comes into the near store. -/
def storePut (q wld p : Nat) (s : Bool) (k : Acc) (v : Word) : CoreAct Unit := modMach fun m =>
  let m1 := if k = .ist then m else m.nsAccess q (lineOf p)
  m1.setSeat q { m1.seat q with
    stores := { addr := p, cont := storeCont ((m1.arch q).psw wld) k s v, ist := k == .ist } :: (m1.seat q).stores }

/-- A store of a core at a level: translated, checked, stored. -/
def storeAt (q wld a : Nat) (k : Acc) (v : Word) : CoreAct Unit := do
  let (p, s) ← storeOk q wld a k
  storePut q wld p s k v

/-! ### Stack operations (R225, R226, R248) -/

/-- The bounds of a stack checked before anything changes (R248). -/
def stackCheck (q : Nat) (rs : Bool) (pops pushes : Nat) : CoreAct Unit := fun m =>
  match (m.arch q).stackFault rs pops pushes with
  | some d => coreExc (if rs then Cause.rstack else Cause.dstack) d 0 m
  | none => .ok ((), m)

/-- A pop whose entry exists: filled from memory where none is in the core. -/
def popStk (q : Nat) (rs : Bool) : CoreAct Word := do
  let a ← getArch q
  match a.stk rs with
  | w :: l =>
    setArch q ((a.setStk rs l).setOwn (ptrCell rs) (w48 (a.ptr rs - 1)))
    pure w
  | [] =>
    let w ← asSpill (loadAt q a.wld (a.ptr rs - 1))
    let b ← getArch q
    setArch q (b.setOwn (ptrCell rs) (w48 (b.ptr rs - 1)))
    pure w

/-- A push that fits: the deepest of 16 entries spills first. -/
def pushStk (q : Nat) (rs : Bool) (w : Word) : CoreAct Unit := do
  let a ← getArch q
  if 16 ≤ (a.stk rs).length then
    asSpill (storeAt q a.wld (a.ptr rs - 16) .store ((a.stk rs).getD 15 0))
  let b ← getArch q
  setArch q ((b.setStk rs (w :: (b.stk rs).take 15)).setOwn (ptrCell rs) (w48 (b.ptr rs + 1)))

/-- `n` data-stack entries popped, the top first. -/
def popN (q : Nat) : Nat → CoreAct (List Word)
  | 0 => pure []
  | n + 1 => do
    let w ← popStk q false
    let l ← popN q n
    pure (w :: l)

/-- Entries pushed on the data stack, the last on top. -/
def pushAll (q : Nat) : List Word → CoreAct Unit
  | [] => pure ()
  | w :: l => do
    pushStk q false w
    pushAll q l

/-- An instruction's effect on the data stack: `pops` entries, deepest first, replaced by those `f` gives, at most `pushes`, the
last on top (R248). -/
def stackOp (q pops pushes : Nat) (f : List Word → CoreAct (List Word)) : CoreAct Unit := do
  stackCheck q false pops pushes
  let l ← popN q pops
  let r ← f l.reverse
  pushAll q r

/-- The in-core entries of a stack written to memory, the deepest first (R226). -/
def spillList (q wld p : Nat) : List Word → CoreAct Unit
  | [] => pure ()
  | w :: l => do
    spillList q wld (p - 1) l
    asSpill (storeAt q wld (p - 1) .store w)

/-- Every in-core entry of a stack spilled (R226). -/
def spillStk (q : Nat) (rs : Bool) : CoreAct Unit := do
  let a ← getArch q
  spillList q a.wld (a.ptr rs) (a.stk rs)
  let b ← getArch q
  setArch q (b.setStk rs [])

/-! ### Groups and checkpoints (R306, R307) -/

/-- An event of a cluster in CLU_LASTEV, with its interrupt (R313, R320). -/
def Mach.cluEvent (m : Mach) (c cause seat src dst retries : Nat) : Mach :=
  (m.setReg (Reg.cluLastev c) (fset (fset (fset (fset (fset 0 F.cluLastevCause cause) F.cluLastevSeat seat) F.cluLastevFrom src)
    F.cluLastevTo dst) F.cluLastevRetries retries)).raise (20 + c)

/-- The unit under a seat. -/
def Mach.unitOf (m : Mach) (q : Nat) : Nat := m.fld (Reg.cluSeat (cluOf q) (q % 16)) F.cluSeatUnit

/-- CLU_SEAT.STATE: 0 UNUSED, 1 RUNNING, 2 HALTED, 3 MOVING, 4 PARKED, 5 RESETTING. -/
def Mach.seatState (m : Mach) (q : Nat) : Nat := m.fld (Reg.cluSeat (cluOf q) (q % 16)) F.cluSeatState
def Mach.setSeatState (m : Mach) (q st : Nat) : Mach := m.setFld (Reg.cluSeat (cluOf q) (q % 16)) F.cluSeatState st

/-- A seat's move to another unit begins (R308, R314): MOVING, its old and new units too. -/
def Mach.beginMove (m : Mach) (q u cause : Nat) : Mach :=
  let c := cluOf q
  let old := m.unitOf q
  let mk := fun (x : Mach) (y : Nat) => x.setReg (Reg.cluUnit c y)
    (fset (fset (x.reg (Reg.cluUnit c y)) F.cluUnitState 4) F.cluUnitSeat (q % 16))
  (((mk (mk m old) u)).setSeatState q 3).setSeat q { m.seat q with moving := some u, moveCause := cause, rotTo := none }

/-- What waits for a checkpoint (R307, R314, R318): a rotation's move, or a debug halt the seat's level now allows. -/
def Mach.atCheckpoint (m : Mach) (q : Nat) : Mach :=
  let s := m.seat q
  match s.rotTo with
  | some u => if m.seatState q = 1 then m.beginMove q u 5 else m
  | none =>
    if s.haltReq && m.seatState q = 1 && (!srLevel s.arch.wld || m.bit (Reg.cluDbg (cluOf q)) F.cluDbgSrdbg) then
      (m.setSeatState q 2).setSeat q { s with haltReq := false }
    else m

/-- A group ends (R306, R307): its stores go out, the checkpoint is taken, and a retry in progress has succeeded. -/
def Mach.closeGroup (m : Mach) (q : Nat) : Mach :=
  let m1 := m.drain q
  let s := m1.seat q
  let m2 := m1.setSeat q { s with ckpt := s.arch, group := 0, retries := 0, fresh := false }
  if s.retries = 0 then m2
  else
    let c := cluOf q
    let u := m2.unitOf q
    ((m2.count (Reg.cluRetries c)).setReg (Reg.cluUnit c u)
      (fset (fset (m2.reg (Reg.cluUnit c u)) F.cluUnitRetries (min 65535 (m2.fld (Reg.cluUnit c u) F.cluUnitRetries + 1)))
        F.cluUnitLastcause 1)).cluEvent c 1 (q % 16) u 0 s.retries

/-- A group ends, and what waited for its checkpoint begins. -/
def Mach.endGroup (m : Mach) (q : Nat) : Mach := (m.closeGroup q).atCheckpoint q

/-! ### Prediction state (R273 to R279) -/

/-- A change of world (R276, R279, R301): the SR bank at 1, the bar cleared; into the open world CORE_PMCTL.SR is cleared unless
the monitor has set it again. -/
def Seat.worldChange (s : Seat) (open_ : Bool) : Seat :=
  let ctl := s.arch.reg 0x14
  let a : Arch := { s.arch with bar := false }
  { s with srBank := [], arch := if open_ && !s.pmSrSet then a.setReg 0x14 (fset ctl F.corePmctlSr 0) else a }

/-- The state of R277. -/
def Seat.clearPrediction (s : Seat) : Seat := { s with openBank := [], srBank := [], ghr := 0, ind := [] }

/-- A level taken, with what a change of world brings. -/
def Seat.setLevel (s : Seat) (wld : Nat) : Seat :=
  let s1 := if srLevel s.arch.wld = srLevel wld then s else s.worldChange (!srLevel wld)
  { s1 with arch := { s1.arch with wld := wld } }

/-! ### Taking an exception (R232, R233) -/

/-- XCS (R233). -/
def xcsWord (cause detail src : Nat) (spill : Bool) (page : Nat) : Word :=
  w48 (cause * 2 ^ 40 + detail % 256 * 2 ^ 32 + src * 2 ^ 29 + b2n spill * 2 ^ 28 + page % 2 ^ 28)

/-- Entry to handling level `h` (R233, R343): XPC, XCS, XA set and IE cleared in its PSW, the pc at VEC + 8 x cause. A transfer
from an open level into the strongroom writes the world-entry record. The entry ends the group. -/
def Mach.enterLevel (m0 : Mach) (q h cause detail page : Nat) (spill : Bool) (xpc : Nat) : Mach :=
  let m := m0.nsRetire q
  let s := m.seat q
  let src := s.arch.wld
  let s1 := s.setLevel h
  let psw := fset (fset (s1.arch.psw h) Psw.xa 1) Psw.ie 0
  let a := ((s1.arch.setCell (h + 1) 0xE (w48 xpc)).setCell (h + 1) 0xD (xcsWord cause detail src spill page)).setCell (h + 1) 7 psw
  let a1 : Arch := { a with
    pc := ((a.cell (h + 1) 0xB).toNat + 8 * cause) % 2 ^ 40 * 8, litk := 0, waiting := false
    ds := if src = h then a.ds else [], rs := if src = h then a.rs else [] }
  let ent := if !srLevel src && srLevel h then some (src, xpc, cause == Cause.callm) else s1.entry
  (m.setSeat q { s1 with arch := a1, entry := ent }).endGroup q

/-- The stacks of the level left are spilled (R226); where a spill faults, that fault is the one reported (log 73). -/
def Mach.spillFor (m : Mach) (q h : Nat) : Except Exc Mach :=
  if (m.arch q).wld = h then .ok m
  else match (do spillStk q false; spillStk q true : CoreAct Unit) m with
    | .ok (_, m1) => .ok m1
    | .error e => .error e

/-- SR_STAT.RESTART (R348). -/
def Mach.restarting (m : Mach) : Bool := m.bit Reg.srStat F.srStatRestart

/-- What an instruction that raised an exception in state `x` leaves of state `m` before it (R232, R280): its own seat holds what
its unit has cached, with every fill it issued, and its older stores where they still wait; the instruction has changed nothing of
the seat's own, and what it would have touched is not touched. Its fetch counts (R298). -/
def Mach.undo (m : Mach) (q : Nat) (x : Mach) : Mach :=
  let s := m.seat q
  let y := x.seat q
  (x.setSeat q { s with
    tlb := y.tlb, ns := y.ns, plru := y.plru, evb := y.evb, l1i := y.l1i, istOld := y.istOld, word := y.word
    ckpt := y.ckpt, group := y.group, retries := y.retries, fresh := y.fresh
    stores := if s.stores.isSuffixOf y.stores then s.stores else []
    acc := y.acc.filter fun e => match e with
      | .fetch _ => true
      | _ => false }).nsRetire q

/-- An exception with its syllable's address taken at handling level `h`, after the spill of the level left. -/
def Mach.enterExc (m : Mach) (q h : Nat) (e : Exc) (xpc : Nat) : Mach :=
  match m.spillFor q h with
  | .ok m1 => m1.enterLevel q h e.cause e.detail e.page e.spill xpc
  | .error f =>
    if e.cause = Cause.double then (m.undo q f.at_).enterLevel q h e.cause e.detail 0 false xpc
    else (m.undo q f.at_).enterLevel q h f.cause f.detail f.page true xpc

/-- Whether an exception of an open seat would be a DOUBLE during a restart, at which the seat waits (R348). -/
def Mach.doubleWaits (m : Mach) (q : Nat) : Bool :=
  let a := m.arch q
  m.restarting && !srLevel a.wld && fbit (a.psw (handlerOf a.wld)) Psw.xa && !fbit (a.psw 4) Psw.xa

/-- Taking an exception (R232 to R234): a pending FP report comes first; a handling level whose XA is 1 gives DOUBLE to the
monitor, and the monitor's own XA = 1 stops the pair. During a restart an open seat that meets DOUBLE waits (R348). -/
def Mach.takeExc (m : Mach) (q : Nat) (e0 : Exc) (xpc : Nat) : Mach :=
  let a := m.arch q
  let h := handlerOf a.wld
  let e : Exc := match a.fp with
    | some (d, _) => { cause := Cause.fp, detail := d }
    | none => e0
  let m1 := m.setArch q { a with fp := none }
  if !fbit (a.psw h) Psw.xa then m1.enterExc q h e xpc
  else if h = 4 || fbit (a.psw 4) Psw.xa then m.setSeat q { m.seat q with stopped := true }
  else if m.doubleWaits q then m
  else m1.enterExc q 4 { cause := Cause.double, detail := e.cause } xpc

/-- An FP report taken where it is due: after the sixteenth instruction, or at once with `now` (R270). -/
def Mach.fpDue (m : Mach) (q : Nat) (now : Bool) : Mach :=
  let a := m.arch q
  match a.fp with
  | some (_, n) => if m.seatState q ≠ 3 && (now || 17 ≤ n) then m.takeExc q { cause := Cause.fp, detail := 0 } a.pc else m
  | none => m

/-! ### Interrupts (R235, R420 to R422) -/

/-- The sources with PEND set. -/
def Mach.pendingInts (m : Mach) : List Nat :=
  (m.regs.filter fun e => 0x340000 ≤ e.1 && e.1 < 0x340800 && e.1 % 2 = 1 && nbit e.2.toNat 0).map fun e => (e.1 - 0x340000) / 2

/-- A strongroom source (R422, R425): IS0026 always. -/
def Mach.intSr (m : Mach) (i : Nat) : Bool := i = 26 || m.bit (Reg.intRoute i) F.intRouteSr

/-- Whether a source's route names seat `q` (R421). -/
def Mach.routedTo (m : Mach) (q i : Nat) : Bool :=
  let r := m.reg (Reg.intRoute i)
  let t := fget r F.intRouteTarget
  fbit r F.intRouteEn &&
    (if fget r F.intRouteKind = 0 then t % 64 = q
     else
       let c := t % 4096
       m.carState c ≠ 0 && m.carTen c = (m.arch q).ten && m.fld (Reg.carStat c) F.carStatPid = (m.arch q).pid)

/-- Whether a seat may take a pending source at its present boundary (R235). -/
def Mach.mayTake (m : Mach) (q i : Nat) : Bool :=
  let a := m.arch q
  let r := m.reg (Reg.intRoute i)
  let sr := m.intSr i
  let psw := a.psw (if sr then 4 else 1)
  m.routedTo q i && fbit psw Psw.ie && !fbit psw Psw.xa && fget psw Psw.pri < fget r F.intRoutePri &&
    (if sr then !(m.restarting && !srLevel a.wld) else !srLevel a.wld && a.ten = fget r F.intRouteTenant)

/-- The better of two sources for a seat: strongroom first, then priority, then the lower number (R235, R422). -/
def Mach.intBefore (m : Mach) (i j : Nat) : Bool :=
  let pi := m.fld (Reg.intRoute i) F.intRoutePri
  let pj := m.fld (Reg.intRoute j) F.intRoutePri
  if m.intSr i ≠ m.intSr j then m.intSr i else if pi ≠ pj then pj < pi else i < j

/-- The source a seat takes, if it takes one. -/
def Mach.intFor (m : Mach) (q : Nat) : Option Nat :=
  (m.pendingInts.filter fun i => m.mayTake q i).foldl (fun b i => match b with
    | none => some i
    | some j => if m.intBefore i j then some i else some j) none

/-- A seat takes an interrupt (R235, R422): the source is claimed and cause INTR entered with its priority; a pending FP report
comes first (R233), and where the spill of the level left faults, that fault is taken and the interrupt stays pending. -/
def Mach.takeInt (m : Mach) (q : Nat) : Mach :=
  match m.intFor q with
  | none => m
  | some i =>
    if (m.arch q).fp.isSome then m.fpDue q true
    else
      let sr := m.intSr i
      let last := if sr then Reg.intSeatlastSr (cluOf q) (q % 16) else Reg.intSeatlast (cluOf q) (q % 16)
      let h := if sr then 4 else 1
      match m.spillFor q h with
      | .error f => (m.undo q f.at_).enterLevel q h f.cause f.detail f.page true (m.arch q).pc
      | .ok x =>
        let m1 := (x.setReg (Reg.intStat i) (x.reg (Reg.intStat i) &&& ~~~ 1#48)).setReg last
          (fset (fset 0 F.intSeatlastValid 1) F.intSeatlastSrc i)
        m1.enterLevel q h Cause.intr (m.fld (Reg.intRoute i) F.intRoutePri) 0 false (m.arch q).pc

/-- A seat at an instruction boundary that may take an interrupt: it runs or waits, and retries nothing (R307). -/
def Mach.boundaryReady (m : Mach) (q : Nat) : Bool :=
  let s := m.seat q
  m.up && m.seatState q = 1 && !s.stopped && !s.swdStop && s.accn.isNone && s.retries = 0

/-- Who a core's P-space accesses come from. -/
def Mach.coreWho (m : Mach) (q : Nat) : Who :=
  let a := m.arch q
  { sr := srLevel a.wld, ten := a.ten, eng := false, task := taskLevel a.wld, seat := q }

/-! ### The frame of an instruction -/

/-- How an instruction leaves the pc: the next syllable (`solo` where the instruction never folds, R242), a target, or wherever an action instruction that has counted itself put
it (`done`); `hold` leaves it where it is, the instruction not yet retired (R125). `trap` is an exception
reported against an instruction that has completed (R264), `fault` one against a range instruction cut at a page, and `again`
a range instruction cut for an interrupt (R258). `act` marks an action instruction (R306). -/
inductive Flow where
  | next (act : Bool)
  | solo
  | jump (pc : Nat)
  | done
  | hold
  | trap (e : Exc)
  | fault (e : Exc)
  | again
deriving DecidableEq, Repr

/-- A seat that may run an instruction (R320): it runs, or is halted with a single-step pending, and neither waits nor stops. -/
def Mach.coreReady (m : Mach) (q : Nat) : Bool :=
  let s := m.seat q
  m.up && (m.seatState q = 1 || (m.seatState q = 2 && s.step)) && !s.arch.waiting && !s.stopped && !s.swdStop && s.accn.isNone

/-- An FP report that is due and waits (R270, R348): it is taken before another instruction runs. -/
def Mach.fpOver (m : Mach) (q : Nat) : Bool :=
  match (m.arch q).fp with
  | some (_, n) => 17 ≤ n
  | none => false

/-- A line used in the L1 instruction cache and the stacks, with what R299 counts of it (R293, R295). -/
def Mach.fetchLine (m : Mach) (q l : Nat) : Mach :=
  let s := m.seat q
  let set := tabGet (fun _ => []) s.l1i (l % 64)
  let m1 := m.setSeat q { s with l1i := tabPut (fun _ => []) (l % 64) ((l :: set.filter (· ≠ l)).take 4) s.l1i }
  if set.contains l then m1
  else match m1.stacksUse (cluOf q) l with
    | (true, m2) => m2.noteNs q (.fetch 0x81)
    | (false, m2) => (m2.noteNs q (.fetch 0x81)).noteNs q (.fetch 0x82)

/-- The container that the fetches of a seat see (R253): its own ISTs since its last IFENCE stay unseen. -/
def Mach.fetchSeen (m : Mach) (q p : Nat) : Cont :=
  match tfind (m.seat q).istOld p with
  | some c => c
  | none => m.coh p

/-- The fetch of the word at the pc: its checks (R229 to R231), and the line used in the L1 instruction cache and the stacks
(R293, R295). A word is counted as the core goes on to it (R299). -/
def fetchWord (q pc : Nat) : CoreAct Word := do
  let a ← getArch q
  let (p, _) ← xlate q a.wld (pc / 8) .fetch
  modMach fun m => m.lineSeen q (lineOf p)
  let c ← (fun m => .ok (m.fetchSeen q p, m) : CoreAct Cont)
  checkCont q a.wld (pc / 8) .fetch p c
  modMach fun m =>
    if (m.seat q).word = some (pc / 8) then m.fetchLine q (lineOf p)
    else ((m.setSeat q { m.seat q with word := some (pc / 8) }).noteNs q (.fetch 0x80)).fetchLine q (lineOf p)
  pure c.pay

/-! ### The wrong path (R280, R281) -/

/-- One fetch down a wrong path: of a word, whichever the core predicts, that the level may fetch; one that would fault is held. -/
def Mach.wrongFetch (m : Mach) (q : Nat) : Mach :=
  let (v, m1) := m.draw
  match fetchWord q (v % 2 ^ 43) m1 with
  | .ok (_, m2) => m2.setSeat q { m2.seat q with word := (m.seat q).word }
  | .error _ => m1

def Mach.wrongFetches (q : Nat) : Nat → Mach → Mach
  | 0, m => m
  | n + 1, m => Mach.wrongFetches q n (m.wrongFetch q)

/-- A wrong path (R281): it may bring instruction lines, translations and the lines they displace, and counts its fetches; how many
and which is free (log 124). Barred code runs none (R279). -/
def Mach.wrongPath (m : Mach) (q : Nat) : Mach :=
  if (m.arch q).bar then m
  else
    let (n, m1) := m.draw
    (Mach.wrongFetches q n m1).nsRetire q

/-! ### Retiring -/

/-- An instruction counted as retired (R283, R298). -/
def Mach.countInstr (m : Mach) (q : Nat) (fold : Bool) : Mach := ((m.nsRetire q).pmc q 0x02 1).pmcFree q fold

/-- An instruction that retires (R270, R306, R317): the pending FP report aged, and the group ended by an action instruction or the
64th; in split mode its stores go out. -/
def Mach.endInstr (m : Mach) (q : Nat) (act : Bool) : Mach :=
  let s := m.seat q
  let s1 := { s with
    group := s.group + 1
    step := false
    arch := { s.arch with fp := s.arch.fp.map (fun (x : Nat × Nat) => (x.1, x.2 + 1)) } }
  let m1 := m.setSeat q s1
  if act || 64 ≤ s1.group then m1.endGroup q else if m1.splitSeat q then m1.drain q else m1

/-- An instruction retires and is counted; `fold` where it may fold (R242). -/
def Mach.retired (m : Mach) (q : Nat) (act fold : Bool) : Mach := (m.countInstr q fold).endInstr q act

/-- An instruction retires and an FP report that is due is taken. -/
def Mach.retire (m : Mach) (q : Nat) (act fold : Bool) : Mach := (m.retired q act fold).fpDue q false

/-- The pc of a seat given, a new word entered (R240). -/
def Mach.goTo (m : Mach) (q pc : Nat) : Mach := m.setArch q { m.arch q with pc := pc, litk := 0 }

/-- The pc moved past an instruction of `len` syllables. -/
def Mach.advancePc (m : Mach) (q len : Nat) : Mach :=
  let a := m.arch q
  m.setArch q { a with pc := nextPc a.pc len a.litk, litk := if a.pc % 8 + len < 6 then a.litk else 0 }

/-- What an instruction's effect or exception leaves (R232 to R240). -/
def Mach.coreEnd (m : Mach) (q len pc : Nat) : Except Exc (Flow × Mach) → Mach
  | .error e => ((m.undo q e.at_).wrongPath q).takeExc q e pc
  | .ok (.next act, m1) => (m1.advancePc q len).retire q act (!act)
  | .ok (.solo, m1) => (m1.advancePc q len).retire q false false
  | .ok (.jump t, m1) => (m1.goTo q t).retire q false true
  | .ok (.done, m1) => (m1.endInstr q true).fpDue q false
  | .ok (.hold, m1) => m1
  | .ok (.trap e, m1) => if m.doubleWaits q then m else ((m1.retired q false true).wrongPath q).takeExc q e pc
  | .ok (.fault e, m1) => ((m1.undo q e.at_).wrongPath q).takeExc q e pc
  | .ok (.again, m1) => (m1.setSeat q { m1.seat q with acc := [] }).takeInt q

/-- The fetch of an instruction of `len` syllables and its place in the word (R229 to R231, R239). -/
def fetchInstr (q len pc : Nat) : CoreAct Unit := do
  let _ ← fetchWord q pc
  if 6 < pc % 8 + len then coreExc Cause.illegal 0

/-- Every dirty line of a seat's near store and eviction buffer written back, and every line gone (R308, R316). -/
def Mach.cleanUnit (m : Mach) (q : Nat) : Mach :=
  let s := m.seat q
  let m1 := s.ns.foldl (fun x e => if e.2.valid then x.writeLine e.2.line e.2.words else x) m
  let m2 := s.evb.foldl (fun x e => x.writeLine e.line e.words) m1
  m2.setSeat q { m2.seat q with ns := [], evb := [], plru := [] }

/-- The reset of a seat (R232, R233, R277, R284, R316): near store written back and empty, locks and prediction cleared, the CORE
domain at its reset values, and the monitor entered with cause RESET. -/
def Mach.resetSeat (m : Mach) (q : Nat) : Mach :=
  let m1 := m.cleanUnit q
  let a : Arch := ({ } : Arch).setCell 5 0xB (m.reg Reg.srMonvec)
  let m2 := m1.setSeat q { arch := a, ckpt := a, rotTo := (m1.seat q).rotTo }
  let m3 := m2.setReg (Reg.intSeatlast (cluOf q) (q % 16)) 0
  let m4 := (m3.setReg (Reg.intSeatlastSr (cluOf q) (q % 16)) 0).setSeatState q 1
  m4.enterLevel q 4 Cause.reset 0 0 false 0

/-- A seat reset that waited for a retry acts once the seat runs (R316). -/
def Mach.lateReset (m : Mach) (q : Nat) : Mach :=
  if (m.seat q).resetReq && (m.seat q).retries = 0 && m.seatState q = 1 then m.resetSeat q else m

/-- An instruction of `len` syllables run on seat `q` (R232 to R240): its fetch, its place in the word, its effect or its
exception; nothing where the seat may not run one. -/
def Mach.coreRun (m : Mach) (q len : Nat) (body : CoreAct Flow) : Mach :=
  if m.coreReady q then
    if m.fpOver q then m.fpDue q false
    else
      let pc := (m.arch q).pc
      (m.stalled (m.coreEnd q len pc ((do fetchInstr q len pc; body : CoreAct Flow) m))).lateReset q
  else m

/-- The level check of an instruction (R224, R257). -/
def needLevel (q : Nat) (p : Nat → Bool) : CoreAct Unit := do
  let a ← getArch q
  if p a.wld then pure () else coreExc Cause.priv 0

end Sys2Proof.Machine
end

