-- ==== Sys2Proof/Machine/Operands.lean ====
section
/-! DEFINITION. The operand forms of the cores' instructions: literals, branch offsets, addresses, and the operand syllables of
the decimal, transfer and cell instructions (R224, R227, R239 to R251, R257). -/

namespace Sys2Proof.Machine

open Sys2Proof

/-- The word of `w` sign-extended operand bits (R243). -/
def signExt (w n : Nat) : Word := w48 (unsgn 48 (sgn w n))

/-- The target of a relative branch from the opcode syllable at `pc` (R241). -/
def branchTarget (pc : Nat) (off : BitVec 16) : Nat := pcOfLinear ((linearOf pc : Int) + sgn 16 off.toNat)

/-- A D-space or I-space address operand: bits [39:0] (R247). -/
def vaddr (w : Word) : Nat := w.toNat % 2 ^ 40

/-- A P-space address operand: bits [31:0] (R247). -/
def paddr (w : Word) : Nat := w.toNat % 2 ^ 32

/-- The width of a decimal instruction, or ILLEGAL (R251). -/
def decWidth (n : BitVec 8) : CoreAct Nat :=
  if 1 ≤ n.toNat && n.toNat ≤ 3 then pure n.toNat else coreExc Cause.illegal 0

/-- The operand of SVC, CALLM, RETS and RETM, or ILLEGAL (R257). -/
def xferCount (n : BitVec 8) : CoreAct Nat := if n.toNat ≤ 7 then pure n.toNat else coreExc Cause.illegal 0

/-- The cell and bank of a cell operand (R227). -/
def cellOf (c : BitVec 8) : Nat := c.toNat % 32
def bankField (c : BitVec 8) : Nat := c.toNat / 32

/-- Cells that are not banked, banked per level, and banked per handling level (R227). -/
def unbanked (n : Nat) : Bool := n = 0 || n = 8 || n = 9 || n = 0xA || n = 0xC
def perHandler (n : Nat) : Bool := n = 0xB || n = 0xD || n = 0xE

/-- What a level may do with a cell (R227): read, write. -/
def cellRights (wld n : Nat) : Bool × Bool :=
  let task := taskLevel wld
  let mon := wld = 4
  match n with
  | 0x00 => (true, false)
  | 0x01 | 0x02 => (true, true)
  | 0x03 | 0x04 | 0x05 | 0x06 => (true, !task)
  | 0x07 => (true, true)
  | 0x08 => (true, !task)
  | 0x09 => (true, mon)
  | 0x0A => (true, false)
  | 0x0B => (!task, !task && !mon)
  | 0x0C => (true, true)
  | 0x0D | 0x0E => (!task, !task)
  | _ => (false, false)

/-- The banks a level may name (R228). -/
def bankRights (wld b : Nat) : Bool :=
  if wld = 4 then b ≤ 5 else if wld = 1 then b ≤ 2 else if wld = 3 then b = 0 || b = 3 || b = 4 else b = 0

/-- The bank a cell operand names at a level: 0 for an unbanked cell (R227, R228). -/
def bankAt (wld : Nat) (c : BitVec 8) : Nat :=
  let n := cellOf c
  if unbanked n then 0
  else if bankField c = 0 then (if perHandler n then handlerOf wld + 1 else wld + 1)
  else bankField c

/-- A reserved cell or bank, or a bank of an unbanked cell or one the cell lacks, is ILLEGAL (R228). -/
def cellNamed (c : BitVec 8) : CoreAct Unit :=
  let n := cellOf c
  let b := bankField c
  if 0xF ≤ n || 6 ≤ b || (unbanked n && b ≠ 0) || (perHandler n && (b = 1 || b = 3)) then coreExc Cause.illegal 1 else pure ()

/-- The checks of a cell operand (R228): after ILLEGAL, an access the level may not make is PRIV. -/
def cellCheck (wld : Nat) (c : BitVec 8) (write : Bool) : CoreAct Unit := do
  cellNamed c
  let n := cellOf c
  if !bankRights wld (bankField c) || !(if write then (cellRights wld n).2 else (cellRights wld n).1) then coreExc Cause.priv 0

/-- The bits of a cell that are not reserved (R227, R228, R266). -/
def cellMask (n : Nat) : Nat :=
  match n with
  | 0x00 | 0x0E => 2 ^ 43 - 1
  | 0x01 | 0x02 | 0x03 | 0x04 | 0x05 | 0x06 | 0x0B => 2 ^ 40 - 1
  | 0x07 => 0xFFEF00000000
  | 0x08 => 2 ^ 24 - 1
  | 0x09 => 15
  | 0x0A => 7
  | 0x0C => 0x07C01FBF
  | 0x0D => 2 ^ 48 - 1
  | _ => 0

/-- The length in syllables of the instruction that an opcode and second syllable begin; none where they are reserved (R244,
R257). -/
def opLen (op op2 : Nat) : Option Nat :=
  if op ≤ 0x3F then some 1
  else if op = 0x40 then some 2
  else if op = 0x41 then some 3
  else if op = 0x42 then some 4
  else if op ≤ 0x44 then some 1
  else if 0x48 ≤ op && op ≤ 0x50 then some 1
  else if 0x54 ≤ op && op ≤ 0x56 then some 1
  else if 0x60 ≤ op && op ≤ 0x75 then some 1
  else if 0x78 ≤ op && op ≤ 0x7B then some 2
  else if 0x80 ≤ op && op ≤ 0x8B then some 1
  else if 0x90 ≤ op && op ≤ 0x96 then some 1
  else if 0xA0 ≤ op && op ≤ 0xA3 then some 3
  else if 0xA4 ≤ op && op ≤ 0xA6 then some 1
  else if op = 0xB0 || op = 0xB1 then some 1
  else if op = 0xFE then
    if [0x01, 0x02, 0x03, 0x04, 0x06, 0x07].contains op2 then some 3
    else if [0x05, 0x08, 0x09, 0x0A].contains op2 || (0x10 ≤ op2 && op2 ≤ 0x1A) || op2 = 0x1C || op2 = 0x1D ||
      (0x20 ≤ op2 && op2 ≤ 0x22) then some 2
    else none
  else none

end Sys2Proof.Machine
end

