-- ==== Sys2Proof/Machine/Flags.lean ====
section
/-! DEFINITION. Results and flags of the cores' arithmetic: integer results with PSW.V, decimal results with FPC.DO, and F48
results with the FPC flags and the traps they make pending (R246, R250, R259 to R270). -/

namespace Sys2Proof.Machine

open Sys2Proof

/-! ### Integer results (R250, R259, R260) -/

/-- The true and false values of a comparison (R245). -/
def truth (b : Bool) : Word := if b then ~~~ 0#48 else 0

/-- Whether an integer lies outside the signed range of a word. -/
def outOfRange (i : Int) : Bool := i < -(2 ^ 47 : Int) || (2 ^ 47 : Int) ≤ i

/-- A word from an exact integer. -/
def wordOf (i : Int) : Word := w48 (unsgn 48 i)

/-- A result with PSW.V set where the exact integer lies outside the signed range. -/
def exactly (i : Int) : Word × Bool := (wordOf i, outOfRange i)

/-- The high 48 bits of an exact product. -/
def highOf (i : Int) : Word := w48 (unsgn 96 i / 2 ^ 48)

/-- ROL: a rotated left by n mod 48 (R250). -/
def rolWord (a n : Word) : Word :=
  let k := n.toNat % 48
  w48 (a.toNat * 2 ^ k + a.toNat / 2 ^ (48 - k))

/-- SHL, SHRL and SHRA (R250): the count is the whole unsigned word. -/
def shlWord (a n : Word) : Word := if 48 ≤ n.toNat then 0 else w48 (a.toNat * 2 ^ n.toNat)
def shrlWord (a n : Word) : Word := if 48 ≤ n.toNat then 0 else w48 (a.toNat / 2 ^ n.toNat)
def shraWord (a n : Word) : Word := wordOf (a.toInt / (2 ^ min n.toNat 47 : Nat))

/-- V of the current level set where `v` holds; never cleared (R246). -/
def Arch.raiseV (a : Arch) (v : Bool) : Arch := if v then a.setOwn 7 (fset (a.own 7) Psw.v 1) else a

/-! ### FPC (R266, R270) -/

/-- The traps an F48 operation makes pending: its flags whose enables are 1, joined to those pending (R270). -/
def fpPend (fpc : Word) (old : Option (Nat × Nat)) (flags : Nat) : Option (Nat × Nat) :=
  let d := flags &&& fget fpc ⟨11, 7⟩
  if d = 0 then old
  else match old with
    | some (x, n) => some (x ||| d, n)
    | none => some (d, 0)

/-- FPC with flags set, and the traps pending (R270). -/
def Arch.raiseFp (a : Arch) (flags : Nat) : Arch :=
  { a.setCell 0 0xC (a.fpc ||| w48 flags) with fp := fpPend a.fpc a.fp flags }

/-- FPC.DO set (R263). -/
def Arch.raiseDo (a : Arch) : Arch := a.setCell 0 0xC (a.fpc ||| 32)

/-- The DOVF detail (R264): the continuation's word, counted from XPC's with the literal words consumed, and its syllable. -/
def dovfDetail (pc len litk : Nat) : Nat :=
  if pc % 8 + len < 6 then pc % 8 + len else (1 + litk) % 16 * 16

end Sys2Proof.Machine
end

