-- ==== Sys2Proof/Machine/CoreInt.lean ====
section
/-! DEFINITION. Literals, the stack instructions and integer arithmetic as commands (R240, R243 to R250, R259, R260). -/

namespace Sys2Proof.Machine

open Sys2Proof

/-! ### Shared bodies -/

/-- An instruction whose effect is on the data stack alone. -/
def dsBody (q pops pushes : Nat) (f : List Word → CoreAct (List Word)) : CoreAct Flow := do
  stackOp q pops pushes f
  pure (.next false)

/-- A one-operand result. -/
def oneBody (q : Nat) (f : Word → Word) : CoreAct Flow := dsBody q 1 1 fun l => pure [f (l.getD 0 0)]

/-- A two-operand result. -/
def twoBody (q : Nat) (f : Word → Word → Word) : CoreAct Flow := dsBody q 2 1 fun l => pure [f (l.getD 0 0) (l.getD 1 0)]

/-- A two-operand result with V (R246). -/
def twoBodyV (q : Nat) (f : Word → Word → Word × Bool) : CoreAct Flow := dsBody q 2 1 fun l => do
  let r := f (l.getD 0 0) (l.getD 1 0)
  let a ← getArch q
  setArch q (a.raiseV r.2)
  pure [r.1]

/-- A division: IDIV by zero, else a result with V (R260). -/
def divBody (q : Nat) (f : Word → Word → Word × Bool) : CoreAct Flow := dsBody q 2 1 fun l => do
  let b := l.getD 1 0
  if b = 0 then coreExc Cause.idiv 0
  let r := f (l.getD 0 0) b
  let a ← getArch q
  setArch q (a.raiseV r.2)
  pure [r.1]

/-- A literal pushed. -/
def litBody (q : Nat) (w : Word) : CoreAct Flow := dsBody q 0 1 fun _ => pure [w]

/-- LITW: the next literal word of the current word, which it consumes (R240). -/
def litwBody (q : Nat) : CoreAct Flow := dsBody q 0 1 fun _ => do
  let a ← getArch q
  let w ← fetchWord q ((a.pc / 8 + 1 + a.litk) % 2 ^ 40 * 8)
  modMach fun m => m.setSeat q { m.seat q with word := some (a.pc / 8) }
  let b ← getArch q
  setArch q { b with litk := b.litk + 1 }
  pure [w]

/-- The entry at depth `d` of the data stack, in the core or at its address as a fill (R248, R249). -/
def readDepth (q d : Nat) : CoreAct Word := do
  let a ← getArch q
  if a.ptr false < (a.own 3).toNat + d + 1 then coreExc Cause.dstack 1
  match a.ds[d]? with
  | some w => pure w
  | none => asSpill (loadAt q a.wld (a.ptr false - 1 - d))

/-- The entry at depth `d` overwritten (R248, R249). -/
def writeDepth (q d : Nat) (w : Word) : CoreAct Unit := do
  let a ← getArch q
  if a.ptr false < (a.own 3).toNat + d + 1 then coreExc Cause.dstack 1
  if d < a.ds.length then setArch q { a with ds := a.ds.set d w }
  else asSpill (storeAt q a.wld (a.ptr false - 1 - d) .store w)

/-- PICK (R249). -/
def pickBody (q : Nat) : CoreAct Flow := dsBody q 1 1 fun l => do
  let w ← readDepth q (l.getD 0 0).toNat
  pure [w]

/-- PUT (R249). -/
def putBody (q : Nat) : CoreAct Flow := dsBody q 2 0 fun l => do
  writeDepth q (l.getD 1 0).toNat (l.getD 0 0)
  pure []

/-- TOR, FROMR and PEEKR (R249): both stacks checked before either changes. -/
def torBody (q : Nat) : CoreAct Flow := do
  stackCheck q false 1 0
  stackCheck q true 0 1
  let w ← popStk q false
  pushStk q true w
  pure (.next false)

def fromrBody (q : Nat) : CoreAct Flow := do
  stackCheck q false 0 1
  stackCheck q true 1 0
  let w ← popStk q true
  pushStk q false w
  pure (.next false)

def peekrBody (q : Nat) : CoreAct Flow := do
  stackCheck q false 0 1
  stackCheck q true 1 1
  let w ← popStk q true
  pushStk q true w
  pushStk q false w
  pure (.next false)

/-- A reserved opcode, or one whose instruction would cross its word (R239, R244). -/
def illegalBody (q op op2 : Nat) : CoreAct Flow := do
  let a ← getArch q
  match opLen op op2 with
  | none => coreExc Cause.illegal 0
  | some n => if 6 < a.pc % 8 + n then coreExc Cause.illegal 0 else pure .done

/-- Whether an opcode is illegal where a seat stands. -/
def Mach.opIllegal (m : Mach) (q op op2 : Nat) : Bool :=
  match opLen op op2 with
  | none => true
  | some n => 6 < (m.arch q).pc % 8 + n

/-! ### The commands -/

/-- LITS (R243). -/
def execLits (q : SeatId) (n : Fin 64) (s : State) : Host.Outcome State Fault Refusal :=
  s.lift fun m => m.coreRun q.val 1 (litBody q.val (w48 n.val))

/-- LIT8 (R243). -/
def execLit8 (q : SeatId) (n : BitVec 8) (s : State) : Host.Outcome State Fault Refusal :=
  s.lift fun m => m.coreRun q.val 2 (litBody q.val (signExt 8 n.toNat))

/-- LIT16 (R243). -/
def execLit16 (q : SeatId) (n : BitVec 16) (s : State) : Host.Outcome State Fault Refusal :=
  s.lift fun m => m.coreRun q.val 3 (litBody q.val (signExt 16 n.toNat))

/-- LIT24 (R243). -/
def execLit24 (q : SeatId) (n : BitVec 24) (s : State) : Host.Outcome State Fault Refusal :=
  s.lift fun m => m.coreRun q.val 4 (litBody q.val (signExt 24 n.toNat))

/-- LITW (R240). -/
def execLitw (q : SeatId) (s : State) : Host.Outcome State Fault Refusal :=
  s.lift fun m => m.coreRun q.val 1 (litwBody q.val)

/-- NOP (R244). -/
def execNop (q : SeatId) (s : State) : Host.Outcome State Fault Refusal :=
  s.lift fun m => m.coreRun q.val 1 (pure (.next false))

/-- ILLEGAL_OPCODE (R244): nothing where the opcode is a legal one at this place. -/
def execIllegalOpcode (q : SeatId) (op op2 : BitVec 8) (s : State) : Host.Outcome State Fault Refusal :=
  s.lift fun m => if m.opIllegal q.val op.toNat op2.toNat then m.coreRun q.val 1 (illegalBody q.val op.toNat op2.toNat) else m

/-- DUP (R249). -/
def execDup (q : SeatId) (s : State) : Host.Outcome State Fault Refusal :=
  s.lift fun m => m.coreRun q.val 1 (dsBody q.val 1 2 fun l => pure [l.getD 0 0, l.getD 0 0])

/-- DROP (R249). -/
def execDrop (q : SeatId) (s : State) : Host.Outcome State Fault Refusal :=
  s.lift fun m => m.coreRun q.val 1 (dsBody q.val 1 0 fun _ => pure [])

/-- SWAP (R249). -/
def execSwap (q : SeatId) (s : State) : Host.Outcome State Fault Refusal :=
  s.lift fun m => m.coreRun q.val 1 (dsBody q.val 2 2 fun l => pure [l.getD 1 0, l.getD 0 0])

/-- OVER (R249). -/
def execOver (q : SeatId) (s : State) : Host.Outcome State Fault Refusal :=
  s.lift fun m => m.coreRun q.val 1 (dsBody q.val 2 3 fun l => pure [l.getD 0 0, l.getD 1 0, l.getD 0 0])

/-- ROT (R249). -/
def execRot (q : SeatId) (s : State) : Host.Outcome State Fault Refusal :=
  s.lift fun m => m.coreRun q.val 1 (dsBody q.val 3 3 fun l => pure [l.getD 1 0, l.getD 2 0, l.getD 0 0])

/-- NIP (R249). -/
def execNip (q : SeatId) (s : State) : Host.Outcome State Fault Refusal :=
  s.lift fun m => m.coreRun q.val 1 (dsBody q.val 2 1 fun l => pure [l.getD 1 0])

/-- TUCK (R249). -/
def execTuck (q : SeatId) (s : State) : Host.Outcome State Fault Refusal :=
  s.lift fun m => m.coreRun q.val 1 (dsBody q.val 2 3 fun l => pure [l.getD 1 0, l.getD 0 0, l.getD 1 0])

/-- PICK (R249). -/
def execPick (q : SeatId) (s : State) : Host.Outcome State Fault Refusal :=
  s.lift fun m => m.coreRun q.val 1 (pickBody q.val)

/-- PUT (R249). -/
def execPut (q : SeatId) (s : State) : Host.Outcome State Fault Refusal :=
  s.lift fun m => m.coreRun q.val 1 (putBody q.val)

/-- TOR (R249). -/
def execTor (q : SeatId) (s : State) : Host.Outcome State Fault Refusal :=
  s.lift fun m => m.coreRun q.val 1 (torBody q.val)

/-- FROMR (R249). -/
def execFromr (q : SeatId) (s : State) : Host.Outcome State Fault Refusal :=
  s.lift fun m => m.coreRun q.val 1 (fromrBody q.val)

/-- PEEKR (R249). -/
def execPeekr (q : SeatId) (s : State) : Host.Outcome State Fault Refusal :=
  s.lift fun m => m.coreRun q.val 1 (peekrBody q.val)

/-- ADD (R250). -/
def execAdd (q : SeatId) (s : State) : Host.Outcome State Fault Refusal :=
  s.lift fun m => m.coreRun q.val 1 (twoBodyV q.val fun a b => (a + b, outOfRange (a.toInt + b.toInt)))

/-- SUB (R250). -/
def execSub (q : SeatId) (s : State) : Host.Outcome State Fault Refusal :=
  s.lift fun m => m.coreRun q.val 1 (twoBodyV q.val fun a b => (a - b, outOfRange (a.toInt - b.toInt)))

/-- NEG (R250). -/
def execNeg (q : SeatId) (s : State) : Host.Outcome State Fault Refusal :=
  s.lift fun m => m.coreRun q.val 1 (dsBody q.val 1 1 fun l => do
      let a ← getArch q.val
      setArch q.val (a.raiseV (l.getD 0 0 = 2 ^ 47))
      pure [-(l.getD 0 0)])

/-- MUL (R259). -/
def execMul (q : SeatId) (s : State) : Host.Outcome State Fault Refusal :=
  s.lift fun m => m.coreRun q.val 1 (twoBodyV q.val fun a b => (a * b, outOfRange (a.toInt * b.toInt)))

/-- MULHS (R250). -/
def execMulhs (q : SeatId) (s : State) : Host.Outcome State Fault Refusal :=
  s.lift fun m => m.coreRun q.val 1 (twoBody q.val fun a b => highOf (a.toInt * b.toInt))

/-- MULHU (R250). -/
def execMulhu (q : SeatId) (s : State) : Host.Outcome State Fault Refusal :=
  s.lift fun m => m.coreRun q.val 1 (twoBody q.val fun a b => w48 (a.toNat * b.toNat / 2 ^ 48))

/-- DIVS (R260). -/
def execDivs (q : SeatId) (s : State) : Host.Outcome State Fault Refusal :=
  s.lift fun m => m.coreRun q.val 1 (divBody q.val fun a b => exactly (a.toInt.tdiv b.toInt))

/-- DIVU (R260). -/
def execDivu (q : SeatId) (s : State) : Host.Outcome State Fault Refusal :=
  s.lift fun m => m.coreRun q.val 1 (divBody q.val fun a b => (w48 (a.toNat / b.toNat), false))

/-- REMS (R260). -/
def execRems (q : SeatId) (s : State) : Host.Outcome State Fault Refusal :=
  s.lift fun m => m.coreRun q.val 1 (divBody q.val fun a b => (wordOf (a.toInt.tmod b.toInt), false))

/-- REMU (R260). -/
def execRemu (q : SeatId) (s : State) : Host.Outcome State Fault Refusal :=
  s.lift fun m => m.coreRun q.val 1 (divBody q.val fun a b => (w48 (a.toNat % b.toNat), false))

/-- AND (R250). -/
def execAnd (q : SeatId) (s : State) : Host.Outcome State Fault Refusal :=
  s.lift fun m => m.coreRun q.val 1 (twoBody q.val fun a b => a &&& b)

/-- OR (R250). -/
def execOr (q : SeatId) (s : State) : Host.Outcome State Fault Refusal :=
  s.lift fun m => m.coreRun q.val 1 (twoBody q.val fun a b => a ||| b)

/-- XOR (R250). -/
def execXor (q : SeatId) (s : State) : Host.Outcome State Fault Refusal :=
  s.lift fun m => m.coreRun q.val 1 (twoBody q.val fun a b => a ^^^ b)

/-- NOT (R250). -/
def execNot (q : SeatId) (s : State) : Host.Outcome State Fault Refusal :=
  s.lift fun m => m.coreRun q.val 1 (oneBody q.val fun a => ~~~ a)

/-- SHL (R250). -/
def execShl (q : SeatId) (s : State) : Host.Outcome State Fault Refusal :=
  s.lift fun m => m.coreRun q.val 1 (twoBody q.val shlWord)

/-- SHRL (R250). -/
def execShrl (q : SeatId) (s : State) : Host.Outcome State Fault Refusal :=
  s.lift fun m => m.coreRun q.val 1 (twoBody q.val shrlWord)

/-- SHRA (R250). -/
def execShra (q : SeatId) (s : State) : Host.Outcome State Fault Refusal :=
  s.lift fun m => m.coreRun q.val 1 (twoBody q.val shraWord)

/-- ROL (R250). -/
def execRol (q : SeatId) (s : State) : Host.Outcome State Fault Refusal :=
  s.lift fun m => m.coreRun q.val 1 (twoBody q.val rolWord)

/-- EQ (R250). -/
def execEq (q : SeatId) (s : State) : Host.Outcome State Fault Refusal :=
  s.lift fun m => m.coreRun q.val 1 (twoBody q.val fun a b => truth (a = b))

/-- LT (R250). -/
def execLt (q : SeatId) (s : State) : Host.Outcome State Fault Refusal :=
  s.lift fun m => m.coreRun q.val 1 (twoBody q.val fun a b => truth (a.toInt < b.toInt))

/-- LTU (R250). -/
def execLtu (q : SeatId) (s : State) : Host.Outcome State Fault Refusal :=
  s.lift fun m => m.coreRun q.val 1 (twoBody q.val fun a b => truth (a.toNat < b.toNat))

/-- ZEQ (R250). -/
def execZeq (q : SeatId) (s : State) : Host.Outcome State Fault Refusal :=
  s.lift fun m => m.coreRun q.val 1 (oneBody q.val fun a => truth (a = 0))

end Sys2Proof.Machine
end

