-- ==== Sys2Proof/Machine/CoreFloat.lean ====
section
/-! DEFINITION. Packed decimal and F48 arithmetic as commands (R251, R252, R261 to R272). -/

namespace Sys2Proof.Machine

open Sys2Proof

/-- DADD and DSUB (R262 to R264): DDATA before anything changes; DOVF after the result stands, a pending FP report first. -/
def decBody (q : Nat) (n : BitVec 8) (f : Int → Int → Int) : CoreAct Flow := do
  let k ← decWidth n
  stackCheck q false (2 * k) k
  let l ← popN q (2 * k)
  let db := l.take k
  let da := l.drop k
  match decFault da db with
  | some d => coreExc Cause.ddata d
  | none =>
    let r := decEnc k (f (decVal da) (decVal db))
    pushAll q r.1.reverse
    let a ← getArch q
    if r.2 then
      setArch q a.raiseDo
      if nbit a.fpc.toNat 12 then
        if a.fp.isSome then coreExc Cause.dovf 0
        pure (.trap { cause := Cause.dovf, detail := dovfDetail a.pc 2 a.litk })
      else pure (.next false)
    else pure (.next false)

/-- DCMP (R262, R263). -/
def dcmpBody (q : Nat) (n : BitVec 8) : CoreAct Flow := do
  let k ← decWidth n
  stackCheck q false (2 * k) 1
  let l ← popN q (2 * k)
  match decFault (l.drop k) (l.take k) with
  | some d => coreExc Cause.ddata d
  | none =>
    pushStk q false (w48 (decCmp (l.drop k) (l.take k)))
    pure (.next false)

/-- DCHK (R262): the operand stays. -/
def dchkBody (q : Nat) (n : BitVec 8) : CoreAct Flow := do
  let k ← decWidth n
  stackCheck q false k (k + 1)
  let l ← popN q k
  pushAll q l.reverse
  pushStk q false (truth (decBad l).isNone)
  pure (.next false)

/-- An F48 operation: its result words, the last on top, and its flags under FPC's modes (R266 to R270). -/
def fpBody (q pops pushes : Nat) (f : FMode → List Nat → List Nat × Nat) : CoreAct Flow := dsBody q pops pushes fun l => do
  let a ← getArch q
  let r := f (fmode a.fpc) (l.map BitVec.toNat)
  setArch q (a.raiseFp r.2)
  pure (r.1.map w48)

/-- An operation of one result. -/
def fp1 (r : Nat × Nat) : List Nat × Nat := ([r.1], r.2)

/-- FBAR (R270): a pending report becomes due, and is taken at the next syllable. -/
def fbarBody (q : Nat) : CoreAct Flow := do
  let a ← getArch q
  setArch q { a with fp := a.fp.map fun x => (x.1, 17) }
  pure (.next false)

/-- DADD (R263). -/
def execDadd (q : SeatId) (n : BitVec 8) (s : State) : Host.Outcome State Fault Refusal :=
  s.lift fun m => m.coreRun q.val 2 (decBody q.val n fun x y => x + y)

/-- DSUB (R263). -/
def execDsub (q : SeatId) (n : BitVec 8) (s : State) : Host.Outcome State Fault Refusal :=
  s.lift fun m => m.coreRun q.val 2 (decBody q.val n fun x y => x - y)

/-- DCMP (R263). -/
def execDcmp (q : SeatId) (n : BitVec 8) (s : State) : Host.Outcome State Fault Refusal :=
  s.lift fun m => m.coreRun q.val 2 (dcmpBody q.val n)

/-- DCHK (R262). -/
def execDchk (q : SeatId) (n : BitVec 8) (s : State) : Host.Outcome State Fault Refusal :=
  s.lift fun m => m.coreRun q.val 2 (dchkBody q.val n)

/-- FADD (R267). -/
def execFadd (q : SeatId) (s : State) : Host.Outcome State Fault Refusal :=
  s.lift fun m => m.coreRun q.val 1 (fpBody q.val 2 1 fun md l => fp1 (f48Add md (l.getD 0 0) (l.getD 1 0)))

/-- FSUB (R267). -/
def execFsub (q : SeatId) (s : State) : Host.Outcome State Fault Refusal :=
  s.lift fun m => m.coreRun q.val 1 (fpBody q.val 2 1 fun md l => fp1 (f48Sub md (l.getD 0 0) (l.getD 1 0)))

/-- FMUL (R267). -/
def execFmul (q : SeatId) (s : State) : Host.Outcome State Fault Refusal :=
  s.lift fun m => m.coreRun q.val 1 (fpBody q.val 2 1 fun md l => fp1 (f48Mul md (l.getD 0 0) (l.getD 1 0)))

/-- FDIV (R268). -/
def execFdiv (q : SeatId) (s : State) : Host.Outcome State Fault Refusal :=
  s.lift fun m => m.coreRun q.val 1 (fpBody q.val 2 1 fun md l => fp1 (f48Div md (l.getD 0 0) (l.getD 1 0)))

/-- FSQRT (R268). -/
def execFsqrt (q : SeatId) (s : State) : Host.Outcome State Fault Refusal :=
  s.lift fun m => m.coreRun q.val 1 (fpBody q.val 1 1 fun md l => fp1 (f48Sqrt md (l.getD 0 0)))

/-- FMA (R267). -/
def execFma (q : SeatId) (s : State) : Host.Outcome State Fault Refusal :=
  s.lift fun m => m.coreRun q.val 1 (fpBody q.val 3 1 fun md l => fp1 (f48Fma md (l.getD 0 0) (l.getD 1 0) (l.getD 2 0)))

/-- FCMP (R268). -/
def execFcmp (q : SeatId) (s : State) : Host.Outcome State Fault Refusal :=
  s.lift fun m => m.coreRun q.val 1 (fpBody q.val 2 1 fun md l => fp1 (f48Cmp md (l.getD 0 0) (l.getD 1 0)))

/-- FCVTI (R269). -/
def execFcvti (q : SeatId) (s : State) : Host.Outcome State Fault Refusal :=
  s.lift fun m => m.coreRun q.val 1 (fpBody q.val 1 1 fun md l => fp1 (f48ToInt md (l.getD 0 0)))

/-- FCVTF (R269). -/
def execFcvtf (q : SeatId) (s : State) : Host.Outcome State Fault Refusal :=
  s.lift fun m => m.coreRun q.val 1 (fpBody q.val 1 1 fun md l => fp1 (f48OfSigned md (l.getD 0 0)))

/-- FTOD (R269): the binary64 value as a word pair. -/
def execFtod (q : SeatId) (s : State) : Host.Outcome State Fault Refusal :=
  s.lift fun m => m.coreRun q.val 1 (fpBody q.val 1 2 fun md l =>
    let r := f48ToD md (l.getD 0 0)
    ([r.1 / 2 ^ 48, r.1 % 2 ^ 48], r.2))

/-- FFROMD (R269). -/
def execFfromd (q : SeatId) (s : State) : Host.Outcome State Fault Refusal :=
  s.lift fun m => m.coreRun q.val 1 (fpBody q.val 2 1 fun md l => fp1 (f48OfD md (l.getD 0 0 % 65536 * 2 ^ 48 + l.getD 1 0)))

/-- FBAR (R270). -/
def execFbar (q : SeatId) (s : State) : Host.Outcome State Fault Refusal := s.lift fun m => m.coreRun q.val 1 (fbarBody q.val)

end Sys2Proof.Machine
end

