-- ==== Sys2Proof/Machine/Lockstep.lean ====
section
/-! DEFINITION. Lockstep, retry, sparing, parking, BIST, rotation, seat resets and debug (R302 to R322), and the core self
window (R238, R300, R301, R321). -/

namespace Sys2Proof.Machine

open Sys2Proof

/-! ### Seats and units (R302) -/

/-- The seats and units of a cluster in its mode (R302). -/
def Mach.seatCount (m : Mach) (c : Nat) : Nat := if m.locked c then 8 else 16
def Mach.unitCount (m : Mach) (c : Nat) : Nat := if m.locked c then 10 else 20

/-- A unit's state and seat given. -/
def Mach.setUnitState (m : Mach) (c u st seat : Nat) : Mach :=
  m.setReg (Reg.cluUnit c u) (fset (fset (m.reg (Reg.cluUnit c u)) F.cluUnitState st) F.cluUnitSeat seat)

/-- The pair slot of a unit in its cluster's mode (R302). -/
def Mach.slotOf (m : Mach) (c u : Nat) : Nat := if m.locked c then u else u / 2

/-- Whether a unit of a cluster at the start of its mode is FAILED: its slot was, in the mode before (R311). -/
def Mach.startsFailed (m : Mach) (c u : Nat) : Bool := m.fld (Reg.cluUnit c (m.slotOf c u)) F.cluUnitState = 3

/-- The unit of seat `k` at the start of its cluster's mode: unit k, or where that is FAILED a spare in its turn (R302, R311;
DEDUCED, log 128). -/
def Mach.startUnit (m : Mach) (c k : Nat) : Nat :=
  let n := m.seatCount c
  let spares := ((List.range (m.unitCount c)).drop n).filter fun u => !m.startsFailed c u
  match (((List.range n).filter (m.startsFailed c)).zip spares).find? fun e => e.1 = k with
  | some e => e.2
  | none => k

/-- The units of a cluster at the start of its mode: seat k on unit k, the others spare (R302). A FAILED unit stays so, and one that
failed before the MODULE reset is tested again (R311). -/
def Mach.startUnits (m : Mach) (c : Nat) : Mach :=
  let m1 := (List.range (m.unitCount c)).foldl (fun x u =>
    x.setUnitState c u (if m.startsFailed c u then 3 else if (m.unit (20 * c + m.slotOf c u)).failed then 2 else 1) 0) m
  (List.range (m.seatCount c)).foldl (fun x k =>
    (x.setUnitState c (m.startUnit c k) 0 k).setFld (Reg.cluSeat c k) F.cluSeatUnit (m.startUnit c k)) m1

/-- The lowest spare unit of a cluster that no rotation has chosen (R308). -/
def Mach.spareUnit (m : Mach) (c : Nat) : Option Nat :=
  (m.unitsIn c 1).find? fun u => !(m.seats.any fun e => cluOf e.1 = c && e.2.rotTo = some u)

/-- A seat exists in its cluster's mode. -/
def Mach.seatExists (m : Mach) (q : Nat) : Bool := q % 16 < m.seatCount (cluOf q) && cluOf q < 4

/-- A seat runs or is halted. -/
def Mach.seatLive (m : Mach) (q : Nat) : Bool := m.up && (m.seatState q = 1 || m.seatState q = 2)

/-! ### What leaves a unit (R308, R316) -/

/-- The locked entries of a seat: physical line, virtual line, locked-empty (R308). -/
def Seat.lockList (s : Seat) : List (Nat × Nat × Bool) :=
  (s.ns.filter fun e => e.2.locked).map fun e => (e.2.line, e.2.vline, !e.2.valid)

/-- A seat back at its checkpoint, what followed it discarded (R307). -/
def Mach.rollBack (m : Mach) (q : Nat) : Mach :=
  let s := m.seat q
  m.setSeat q { s with arch := s.ckpt, stores := [], group := 0 }

/-- The in-core entries of a seat's stacks spilled (R308); where a spill faults, the entries stay in the core (log 74). -/
def Mach.spillUnit (m : Mach) (q : Nat) : Mach :=
  match (do spillStk q false; spillStk q true : CoreAct Unit) m with
  | .ok (_, m1) => m1.drain q
  | .error _ => m

/-- A unit freed: into BIST, a fault counted where one freed it (R311). -/
def Mach.freeUnit (m : Mach) (c u cause : Nat) (fault : Bool) : Mach :=
  let w := m.reg (Reg.cluUnit c u)
  m.setReg (Reg.cluUnit c u) (fset (fset (fset (fset w F.cluUnitState 2) F.cluUnitSeat 0) F.cluUnitLastcause cause)
    F.cluUnitFaults (min 3 (fget w F.cluUnitFaults + b2n fault)))

/-! ### The park record (R310) -/

/-- The word P of a cell in a bank's row of the park record. -/
def parkCell (a : Arch) (i : Nat) : Word :=
  let b := i / 16 + 1
  let n := i % 16
  if n = 0 then w48 a.pc
  else if n = 0xA then w48 a.wld
  else if n = 8 || n = 9 || n = 0xC then a.cell 0 n
  else if n = 0xF || ((n = 0xB || n = 0xD || n = 0xE) && (b = 1 || b = 3)) then 0
  else a.cell b n

/-- The 256 words of a park record (R310). -/
def parkWords (a : Arch) (valid : Bool) (cause : Nat) (locks : List (Nat × Nat × Bool)) : List Word :=
  let p0 := w48 (b2n valid * 2 ^ 47 + cause * 2 ^ 43 + a.wld)
  let p1 := w48 (a.ten * 2 ^ 24 + a.pid)
  let p5 := match a.fp with
    | some (d, _) => d + 256 + b2n a.bar * 512
    | none => b2n a.bar * 512
  let lk := (List.range 16).map fun i => match locks[i]? with
    | some (_, v, e) => w48 (b2n e * 2 ^ 47 + v * 64 % 2 ^ 40)
    | none => 0
  [p0, p1, a.fpc, a.reg 0, a.reg 1, w48 p5, 0, 0] ++ (List.range 80).map (parkCell a) ++ lk ++ List.replicate 152 0

/-- Words stored from an address on with tag 0b10 (R310); none in the vault, which only the boot ROM writes (R351). -/
def Mach.putSrWords (m : Mach) : Nat → List Word → Mach
  | _, [] => m
  | a, w :: ws => (if vaultAddr a then m else m.put a { m.coh a with key := 0, tag := 2, pay := w }).putSrWords (a + 1) ws

/-- A seat parks (R310): its unit cleaned, its stacks spilled, its record written. -/
def Mach.parkSeat (m : Mach) (q cause : Nat) (valid noSpare : Bool) : Mach :=
  let c := cluOf q
  let u := m.unitOf q
  let r := (m.seat q).retries
  let locks := (m.seat q).lockList
  let m1 := ((m.rollBack q).spillUnit q).cleanUnit q
  let a := m1.arch q
  let m2 := m1.putSrWords ((m.reg (Reg.cluParkbase c)).toNat + 0x100 * (q % 16)) (parkWords a valid cause locks)
  let m3 := m2.setSeat q { m2.seat q with retries := 0, rotTo := none, moving := none, noSpare := noSpare }
  let m3 := match (m.seat q).moving with
    | some v => m3.setUnitState c v 1 0
    | none => m3
  let m4 := (m3.setSeatState q 4).freeUnit c u cause true
  ((m4.cluEvent c cause (q % 16) u 0 r).notice a.ten 8 (w48 q)).faultEvent 2

/-! ### Sparing (R308, R309) -/

/-- A seat is spared with a cause (R308 to R310): to the spare its rotation had chosen or the lowest; with none it parks. -/
def Mach.spareSeat (m : Mach) (q cause : Nat) : Mach :=
  let m1 := (m.rollBack q)
  let r := (m.seat q).retries
  match (match (m.seat q).rotTo with
    | some u => some u
    | none => m.spareUnit (cluOf q)) with
  | some u => (m1.setSeat q { m1.seat q with moveRetries := r, retries := 0 }).beginMove q u cause
  | none => m.parkSeat q cause true true

/-- The recorded lines locked in the new unit's near store (R308): filled, or locked-empty. -/
def relock (s : Seat) (l : List (Nat × Nat × Bool)) : Seat :=
  { s with ns := (List.range l.length).zip (l.map fun x =>
      ({ valid := !x.2.2, locked := true, line := x.1, vline := x.2.1 } : NsEnt)) }

/-- SPARING_COMPLETE (R308): the new unit starts at the checkpoint, where a pending FP report is taken. The freed unit enters BIST
(R311). -/
def Mach.finishMove (m : Mach) (q : Nat) : Mach :=
  let s := m.seat q
  match s.moving with
  | none => m
  | some u =>
    let c := cluOf q
    let old := m.unitOf q
    let locks := s.lockList
    let m1 := (m.spillUnit q).cleanUnit q
    let s1 := relock (m1.seat q) locks
    let s2 : Seat := { s1.clearPrediction with
      ckpt := s1.arch, group := 0, stores := [], acc := [], istOld := [], word := none, tlb := [], l1i := [], moving := none
      fresh := true, moveRetries := 0, noSpare := false }
    let m2 := ((m1.setSeat q { s2 with resetReq := false }).freeUnit c old s.moveCause (s.moveCause ≠ 5)).setUnitState c u 0 (q % 16)
    let m3 := ((m2.setFld (Reg.cluSeat c (q % 16)) F.cluSeatUnit u).setSeatState q 1).count (Reg.cluSparings c)
    let m4 := ((m3.cluEvent c s.moveCause (q % 16) old u s.moveRetries).faultEvent 2).refreshHealth
    if s.resetReq then m4.resetSeat q else m4.fpDue q true

/-! ### Events (R307, R311 to R315) -/

/-- A mismatch, or a parity error before any output (R307, R309, R313): a retry from the checkpoint, the fourth spares. -/
def Mach.mismatch (m : Mach) (q cause : Nat) : Mach :=
  let s := m.seat q
  if s.fresh || 3 ≤ s.retries then m.spareSeat q cause
  else (m.rollBack q).setSeat q { (m.rollBack q).seat q with retries := s.retries + 1 }

/-- LOCKSTEP_MISMATCH (R307). -/
def Mach.lockMismatch (m : Mach) (q : Nat) : Mach := if m.seatLive q && m.locked (cluOf q) then m.mismatch q 2 else m

/-- SPLIT_PARITY_ERROR (R313). -/
def Mach.parityError (m : Mach) (q : Nat) (left : Bool) : Mach :=
  if !m.seatLive q || m.locked (cluOf q) then m
  else if left then m.parkSeat q 8 false false
  else m.mismatch q 7

/-- COMPARATOR_SELFTEST (R312): of a running locked pair. -/
def Mach.selfTest (m : Mach) (q : Nat) (pass : Bool) : Mach :=
  if m.up && m.seatState q = 1 && m.locked (cluOf q) then
    if pass then m.count (Reg.cluSelftest (cluOf q)) else m.spareSeat q 3
  else m

/-- DUAL_RAIL_VIOLATION (R312). -/
def Mach.railFault (m : Mach) (q : Nat) : Mach := if m.seatLive q && m.locked (cluOf q) then m.spareSeat q 3 else m

/-- An error in the private state of a core (R313). -/
def Mach.ownError (m : Mach) (q : Nat) (both : Bool) : Mach :=
  if m.seatLive q && m.locked (cluOf q) then (if both then m.parkSeat q 4 false false else m.spareSeat q 4) else m

/-- An error in container `c` of near-store entry `i` (R326): a clean line is discarded and filled again, a dirty one written back
with the container poisoned. -/
def Mach.nearError (m : Mach) (q i c : Nat) : Mach :=
  let e := (m.seat q).ent i
  if !e.valid then m
  else if e.words.isEmpty then m.setSeat q ((m.seat q).setEnt i { e with filling := true })
  else (m.cleanEnt q i).poison (64 * e.line + c)

/-- An error in a line of an L1 instruction cache (R326): the line, always clean, is discarded. -/
def Mach.icacheError (m : Mach) (q line : Nat) : Mach :=
  let s := m.seat q
  m.setSeat q { s with l1i := (s.l1i.map fun e => (e.1, e.2.filter (· ≠ line))).filter fun e => e.2 ≠ [] }

/-- An error in container `c` of a line in the stacks of a cluster (R326): a clean line is filled again from memory and shows no
change, a dirty one is written back with the container poisoned. -/
def Mach.stacksError (m : Mach) (k line c : Nat) : Mach :=
  if (tabGet (fun _ => []) m.l2 (4096 * k + line % 4096)).contains line && m.l2dirty.contains line then
    (m.toGroup line).poison (64 * line + c)
  else m

/-- CORE_CODE_ERROR (R305, R313, R326). -/
def Mach.codeError (m : Mach) (q : Nat) (site : CodeSite) : Mach :=
  match site with
  | .own both => m.ownError q both
  | .nearStore i c => if m.up then m.nearError q i.val c.val else m
  | .icache line => if m.up then m.icacheError q line else m
  | .stacks line c => if m.up then m.stacksError (cluOf q) line c.val else m

/-- The seats of a cluster that are in use and not parked. -/
def Mach.usedSeats (m : Mach) (c : Nat) : List Nat :=
  ((List.range 16).map (16 * c + ·)).filter fun q => m.seatState q ≠ 0 && m.seatState q ≠ 4

/-- CLUSTER_FAULT (R313): every seat of the cluster parks. -/
def Mach.clusterFault (m : Mach) (c : Nat) : Mach :=
  if m.up then (m.usedSeats c).foldl (fun x q => x.parkSeat q 9 false false) m else m

/-- BIST_COMPLETE (R311, R315): SPARE, or FAILED where it failed or a fault freed the unit a second time. -/
def Mach.bistDone (m : Mach) (c u : Nat) (pass : Bool) : Mach :=
  if !m.up || m.fld (Reg.cluUnit c u) F.cluUnitState ≠ 2 then m
  else
    let ok := pass && m.fld (Reg.cluUnit c u) F.cluUnitFaults < 2
    let m0 := (m.setUnitState c u (if ok then 1 else 3) 0).setUnit (20 * c + u) { m.unit (20 * c + u) with lastBist := m.now }
    let k := 20 * c + m.slotOf c u
    let m1 := m0.setUnit k { m0.unit k with failed := !ok || ((m0.unit k).failed && !m.locked c) }
    let m2 := if pass then m1 else (m1.setFld (Reg.cluUnit c u) F.cluUnitLastcause 6).cluEvent c 6 0 u 0 0
    let m3 : Mach := if tabGet (fun _ => 32) m2.rotations c = u then
        let x : Mach := { m2 with rotations := tabErase c m2.rotations }
        if x.fld (Reg.cluBistres c) F.cluBistresStatus = 1 then
          x.setFld (Reg.cluBistres c) F.cluBistresStatus (if pass then 0 else 4) else x
      else m2
    m3.refreshHealth

/-- A rotation of a seat to the lowest spare asked for (R314): it waits for the seat's checkpoint. -/
def Mach.rotateSeat (m : Mach) (q u : Nat) : Mach :=
  let c := cluOf q
  let m1 : Mach := { m with rotations := tabInsert c (m.unitOf q) m.rotations }
  let m2 := m1.setSeat q { m1.seat q with rotTo := some u }
  if (m2.seat q).group = 0 && (m2.seat q).retries = 0 then m2.atCheckpoint q else m2

/-- The running seat of a cluster whose unit's last BIST lies furthest back (R314). -/
def Mach.oldestSeat (m : Mach) (c : Nat) : Option Nat :=
  (((List.range 16).map (16 * c + ·)).filter fun q => m.seatState q = 1).foldl (fun b q => match b with
    | none => some q
    | some p => if (m.unit (20 * c + m.unitOf q)).lastBist < (m.unit (20 * c + m.unitOf p)).lastBist then some q else some p) none

/-- ROTPER seconds have passed since the last rotation of a cluster (R314; counted in ticks, log 125). -/
def Mach.rotationDue (m : Mach) (c : Nat) : Bool :=
  tabGet (fun _ => 0) m.rotAt c + m.fld (Reg.cluCtl c) F.cluCtlRotper * 2 ^ 24 ≤ m.now

/-- ROTATION (R314). -/
def Mach.rotation (m : Mach) (c : Nat) : Mach :=
  if m.up && m.bit (Reg.cluCtl c) F.cluCtlRoten && 2 ≤ (m.unitsIn c 1).length && !tmem m.rotations c && m.rotationDue c then
    match m.oldestSeat c, m.spareUnit c with
    | some q, some u => ({ m with rotAt := tabPut (fun _ => 0) c m.now m.rotAt } : Mach).rotateSeat q u
    | _, _ => m
  else m

/-- CLU_BISTRES given. -/
def Mach.bistResult (m : Mach) (c status u : Nat) : Mach :=
  m.setReg (Reg.cluBistres c) (fset (fset 0 F.cluBistresStatus status) F.cluBistresUnit u)

/-- A write of CLU_BISTREQ by T00 software or the strongroom (R315, R320, R322). -/
def Mach.bistReqSet (m : Mach) (w : Who) (c : Nat) (v : Word) : Mach :=
  let k := fget v F.cluBistreqUnit
  let op := fget v F.cluBistreqOp
  if !w.house then m
  else if op = 1 then
    let q := 16 * c + k % 16
    if tmem m.rotations c then m.bistResult c 2 0
    else if 16 ≤ k || !m.seatExists q || m.seatState q = 0 || m.seatState q = 4 then m.bistResult c 5 0
    else if m.seatState q ≠ 1 then m.bistResult c 2 0
    else match m.spareUnit c with
      | none => m.bistResult c 3 0
      | some u => (m.bistResult c 1 (m.unitOf q)).rotateSeat q u
  else if op = 2 then
    if tmem m.rotations c then m.bistResult c 2 0
    else if m.unitCount c ≤ k || m.fld (Reg.cluUnit c k) F.cluUnitState ≠ 1 then m.bistResult c 3 k
    else
      let m1 := (m.bistResult c 1 k).setUnitState c k 2 0
      { m1 with rotations := tabInsert c k m1.rotations }
  else m.bistResult c 5 0

/-- A write of CLU_SEATRESET (R316, R322): a parked seat first takes a spare; a seat in a retry or a move is reset when it runs. -/
def Mach.seatResetSet (m : Mach) (w : Who) (q : Nat) (v : Word) : Mach :=
  if !w.house || !nbit v.toNat 0 || (!w.sr && srLevel (m.arch q).wld && m.seatState q ≠ 0) then m
  else match m.seatState q with
    | 1 =>
      if (m.seat q).retries ≠ 0 && !(m.seat q).stopped then m.setSeat q { m.seat q with resetReq := true } else m.resetSeat q
    | 2 => m.resetSeat q
    | 3 => m.setSeat q { m.seat q with resetReq := true }
    | 4 => match m.spareUnit (cluOf q) with
      | none => m
      | some u =>
        let c := cluOf q
        ((m.setUnitState c u 0 (q % 16)).setFld (Reg.cluSeat c (q % 16)) F.cluSeatUnit u).resetSeat q
    | _ => m

/-! ### Debug (R318, R319) -/

/-- Whether the debugger reaches a seat (R318). -/
def Mach.dbgReach (m : Mach) (q : Nat) : Bool := m.seatLive q && m.bit (Reg.cluDbg (cluOf q)) F.cluDbgEn

/-- An action that changes state enters the replay buffer of its locked pair, which shows busy while 64 await replay (R319). A core
in split mode has no checker to replay it to. -/
def Mach.dbgAct (m : Mach) (q : Nat) (f : Mach → Mach) : Mach :=
  let a := Reg.cluDbg (cluOf q)
  if !m.locked (cluOf q) then f m
  else if 64 ≤ m.fld a F.cluDbgPend then m.send .dbgBusy
  else f (m.setFld a F.cluDbgPend (m.fld a F.cluDbgPend + 1))

/-- Whether a seat may be halted at its present level (R318). -/
def Mach.haltable (m : Mach) (q : Nat) : Bool :=
  !srLevel (m.arch q).wld || m.bit (Reg.cluDbg (cluOf q)) F.cluDbgSrdbg

/-- DEBUG_HALT (R307, R318, R319): at once, or once the seat returns to an open level or its retry ends. -/
def Mach.dbgHalt (m : Mach) (q : Nat) : Mach :=
  if !m.dbgReach q || m.seatState q = 2 then m
  else m.dbgAct q fun x =>
    if x.haltable q && (x.seat q).retries = 0 then x.setSeatState q 2 else x.setSeat q { x.seat q with haltReq := true }

/-- DEBUG_RESUME (R319). -/
def Mach.dbgResume (m : Mach) (q : Nat) : Mach :=
  if m.dbgReach q && m.seatState q = 2 then
    m.dbgAct q fun x => (x.setSeatState q 1).setSeat q { x.seat q with haltReq := false, step := false }
  else m

/-- DEBUG_STEP (R319): the halted seat may run one instruction. -/
def Mach.dbgStep (m : Mach) (q : Nat) : Mach :=
  if m.dbgReach q && m.seatState q = 2 then m.dbgAct q fun x => x.setSeat q { x.seat q with step := true } else m

/-- A cell as the debugger names it: a bank as R228 encodes it. -/
def dbgBank (a : Arch) (b n : Nat) : Nat := if unbanked n then 0 else if b = 0 then (if perHandler n then handlerOf a.wld + 1 else a.wld + 1) else b

/-- The value of a cell, PC and WLD included. -/
def Arch.cellValue (a : Arch) (bank n : Nat) : Word := if n = 0 then w48 a.pc else if n = 0xA then w48 a.wld else a.cell bank n

/-- A cell written: PC moves the seat, WLD and the monitor's VEC stay, and VEC's bits [7:0] are 0 (R232). -/
def Arch.cellWrite (a : Arch) (bank n : Nat) (v : Word) : Arch :=
  if n = 0 then { a with pc := v.toNat % 2 ^ 43, litk := 0 }
  else if n = 0xA || (n = 0xB && bank = 5) then a
  else if n = 0xB then a.setCell bank n (v &&& ~~~ 0xFF#48)
  else if (n = 1 || n = 2) && bank = a.wld + 1 then (a.setCell bank n v).setStk (n == 2) []
  else if n = 7 && (bank = 1 || bank = 3) then a.setCell bank n (v &&& (fmask Psw.key ||| fmask Psw.v))
  else a.setCell bank n v

/-- A stack entry of the current level at a depth, in the core or in memory. -/
def dbgStack (q : Nat) (rs : Bool) (d : Nat) : CoreAct Word := do
  let a ← getArch q
  match (a.stk rs)[d]? with
  | some w => pure w
  | none => loadAt q a.wld (a.ptr rs - 1 - d)

/-- What a debugger action does: nothing where an access of it faults. -/
def Mach.dbgRun (m : Mach) (q : Nat) (x : CoreAct (Option Word)) : Mach :=
  if !m.dbgReach q then m
  else m.dbgAct q fun y => match x y with
    | .ok (some v, y1) => (y1.send (.dbg v)).endGroup q
    | .ok (none, y1) => y1.endGroup q
    | .error e => { y with free := e.at_.free }

/-- DEBUG_WRITE (R319): bits a cell does not hold are dropped. -/
def dbgWriteBody (q : Nat) (t : DbgTarget) (v : Word) : CoreAct (Option Word) := do
  let a ← getArch q
  match t with
  | .cell b n => setArch q (a.cellWrite (dbgBank a b n) n (v &&& w48 (cellMask n)))
  | .ds d => if d < a.ds.length then setArch q { a with ds := a.ds.set d v } else storeAt q a.wld (a.ptr false - 1 - d) .store v
  | .rs d => if d < a.rs.length then setArch q { a with rs := a.rs.set d v } else storeAt q a.wld (a.ptr true - 1 - d) .store v
  pure none

/-- DEBUG_READ (R318): the value goes to the debugger, and nothing changes. -/
def Mach.dbgRead (m : Mach) (q : Nat) (t : DbgTarget) : Mach :=
  if !m.dbgReach q then m
  else match t with
    | .cell b n => m.send (.dbg ((m.arch q).cellValue (dbgBank (m.arch q) b n) n))
    | .ds d => match dbgStack q false d m with
      | .ok (v, _) => m.send (.dbg v)
      | .error _ => m
    | .rs d => match dbgStack q true d m with
      | .ok (v, _) => m.send (.dbg v)
      | .error _ => m

/-- DEBUG_MEMORY_ACCESS (R319): a load or store of D-space at the seat's level. -/
def dbgMemBody (q : Nat) (store : Bool) (a v : Word) : CoreAct (Option Word) := do
  let x ← getArch q
  if store then
    storeAt q x.wld (vaddr a) .store v
    pure none
  else
    let w ← loadAt q x.wld (vaddr a)
    pure (some w)

/-! ### Cluster registers (R320, R322) -/

/-- A write of register `o` of cluster `c` (R320, R322). -/
def Mach.cluSet (m : Mach) (w : Who) (c o : Nat) (v : Word) : Mach :=
  if o = 1 then
    let a := Reg.cluCtl c
    let m1 := if w.sr && m.phase = 1 then m.setFld a F.cluCtlSplit (fget v F.cluCtlSplit) else m
    if w.house then
      let m2 := m1.setFld a F.cluCtlRoten (fget v F.cluCtlRoten)
      if fget v F.cluCtlRotper < 60 then m2 else m2.setFld a F.cluCtlRotper (fget v F.cluCtlRotper)
    else m1
  else if o = 2 then m.bistReqSet w c v
  else if o = 8 then (if w.sr then m.setReg (Reg.cluParkbase c) (v &&& 0xFFFFF000) else m)
  else if o = 9 then
    (if w.sr then
      (m.setFld (Reg.cluDbg c) F.cluDbgEn (fget v F.cluDbgEn)).setFld (Reg.cluDbg c) F.cluDbgSrdbg (fget v F.cluDbgSrdbg)
    else m)
  else if 0x100 ≤ o && o < 0x200 && o % 16 = 1 then m.seatResetSet w (16 * c + o / 16 % 16) v
  else m

/-- A read of CLU_STAT (R320). -/
def Mach.cluStatRead (m : Mach) (c : Nat) : Word :=
  let n := fun st => (m.unitsIn c st).length
  let seats := (List.range 16).map (16 * c + ·)
  let started := m.phase ≠ 0
  fset (fset (fset (fset (fset (fset 0 F.cluStatMode (b2n (!m.locked c))) F.cluStatRotating (b2n (tmem m.rotations c)))
    F.cluStatNospare (b2n (seats.any fun q => m.seatState q = 4 && (m.seat q).noSpare)))
    F.cluStatActive (if started then n 0 else 0)) F.cluStatSpare (if started then n 1 else 0))
    F.cluStatFailed (if started then n 3 else 0)

/-- A read of CLU_SEAT (R320). -/
def Mach.cluSeatRead (m : Mach) (w : Who) (c k : Nat) : Word :=
  let q := 16 * c + k
  if m.seatState q = 0 then m.reg (Reg.cluSeat c k)
  else
    let a := m.arch q
    fset (fset (m.reg (Reg.cluSeat c k)) F.cluSeatTen a.ten) F.cluSeatWld (if srLevel a.wld && !w.sr then 0 else a.wld)

/-! ### The core self window (R238, R300, R301, R321) -/

/-- Translations held for a root, or of one page of it, discarded (R229, R238). -/
def Mach.flushTlb (m : Mach) (q : Nat) (sr : Bool) (page : Option Nat) : Mach :=
  let s := m.seat q
  m.setSeat q { s with tlb := s.tlb.filter fun e => !(e.srRoot = sr && (page = none || page = some e.vpage)) }

/-- CORE_PMCTL event codes that are not reserved (R299). -/
def pmcEvent (n : Nat) : Bool := n ≤ 0xB || (0x80 ≤ n && n ≤ 0x82)

/-- CORE_PMCTL as a write leaves it: reserved codes keep their selector, SR is the strongroom's (R299, R300). -/
def pmctlWrite (sr : Bool) (old v : Word) : Word :=
  let ev := fun (x : Word) (f : Fld) => if pmcEvent (fget v f) then fset x f (fget v f) else x
  let w1 := fset (ev (ev (ev (ev old F.corePmctlEv0) F.corePmctlEv1) F.corePmctlEv2) F.corePmctlEv3) F.corePmctlEn
    (fget v F.corePmctlEn)
  if sr then fset w1 F.corePmctlSr (fget v F.corePmctlSr) else w1

/-- A write of the self window of seat `q` at an offset (R238, R300): from a supervisor level or the strongroom. -/
def Mach.selfSet (m : Mach) (w : Who) (q o : Nat) (v : Word) : Mach :=
  let a := m.arch q
  if w.task || w.eng then m
  else match o with
    | 0x00 | 0x01 =>
      if (o = 1 && !w.sr) || fget v F.coreXrootPage % 4 ≠ 0 then m
      else
        let m1 := m.setArch q (a.setReg o (v &&& (fmask F.coreXrootEn ||| fmask F.coreXrootPage)))
        m1.flushTlb q (o == 1) none
    | 0x02 =>
      m.flushTlb q (w.sr && fbit v F.coreXflushSr) (if fbit v F.coreXflushAll then none else some (fget v F.coreXflushPage))
    | 0x14 =>
      let old := a.reg 0x14
      let m1 := m.setArch q (a.setReg 0x14 (pmctlWrite w.sr old v))
      let on := fbit v F.corePmctlSr && fbit old F.corePmctlSr
      if w.sr then m1.setSeat q { m1.seat q with pmSrSet := on && ((m1.seat q).pmSrSet || a.wld = 4) } else m1
    | 0x15 | 0x16 | 0x17 | 0x18 => m.setArch q (a.setReg o v)
    | _ => m

/-- A read of the self window of seat `q` (R238, R300, R321). -/
def Mach.selfRead (m : Mach) (q o : Nat) : Word :=
  let s := m.seat q
  match o with
  | 0x03 => w48 (cluOf q * 2 ^ 14 + q % 16 * 2 ^ 10 + m.unitOf q * 2 ^ 5 + b2n (!m.locked (cluOf q)))
  | 0x10 => fset (fset 0 F.coreNsstatLocked (s.ns.filter fun e => e.2.locked).length) F.coreNsstatEvb s.evbCount
  | 0x12 => fset (fset 0 F.corePredSrbank (b2n (srLevel s.arch.wld))) F.corePredBar (b2n s.arch.bar)
  | 0x00 | 0x01 | 0x11 | 0x14 | 0x15 | 0x16 | 0x17 | 0x18 => s.arch.reg o
  | _ => 0

end Sys2Proof.Machine
end

