-- ==== Sys2Proof/Machine/Strongroom.lean ====
section
/-! DEFINITION. The strongroom: world attributes, leases, the watchdog and restart, boot, measurements, the charter's commit,
fuses and the mailbox (R338 to R358, R444). -/

namespace Sys2Proof.Machine

open Sys2Proof

/-! ### World attributes (R338 to R340) -/

/-- A write of a port's attribute: the port resets in the PORT domain and takes it (R340). -/
def Mach.attrPortSet (m : Mach) (p : Nat) (v : Word) : Mach :=
  (m.resetPort p).setFld (Reg.srAttrPort p) F.srAttrPortSr (fget v F.srAttrPortSr)

/-- A write of the pin groups' attributes (R340). -/
def Mach.attrPinSet (m : Mach) (v : Word) : Mach := m.setReg Reg.srAttrPin (v &&& 3)

/-- A write of an engine's or lane's attribute: PEND, and the change to be made, a later one in place of an earlier (R340). -/
def Mach.attrBlockSet (m : Mach) (b : Nat) (v : Word) : Mach :=
  let on := fbit v F.srAttrPortSr
  let m1 := m.setFld (attrReg b) F.srAttrPortPend 1
  if 0x10 ≤ b then m1.setEngine (b - 0x10) { m1.engine (b - 0x10) with attr := some on }
  else m1.setLaneB b { m1.laneB b with attr := some on }

/-- The value pending for a block's attribute. -/
def Mach.attrPending (m : Mach) (b : Nat) : Option Bool :=
  if 0x10 ≤ b then (m.engine (b - 0x10)).attr else (m.laneB b).attr

/-- ATTR_CHANGE_DONE (R340): the engine's job back to ready at a safe point, or the lane's job ended; then the attribute
changes and PEND clears. In a gated block the change waits until it is ungated (R19). -/
def Mach.attrDone (m : Mach) (b : Nat) : Mach :=
  match m.attrPending b with
  | none => m
  | some on =>
    if m.gated b then m
    else if 0x10 ≤ b then
      let m1 := m.safePoint (b - 0x10)
      (m1.setEngine (b - 0x10) { m1.engine (b - 0x10) with attr := none }).setReg (attrReg b) (w48 (b2n on))
    else if (m.laneB b).job.isSome then m
    else (m.setLaneB b { m.laneB b with attr := none }).setReg (attrReg b) (w48 (b2n on))

/-! ### Leases (R345, R346) -/

/-- The strongroom keeps sealing paused: a restart, a lease on the seal engine (block 0), or an attestation that has the signer
(R170, R345, R347). -/
def Mach.sealHeld (m : Mach) : Bool := m.restarting || tmem m.sr.leases 0 || m.sr.attest.isSome

/-- Sealing goes on where nothing keeps it paused. -/
def Mach.sealGo (m : Mach) : Mach := if m.sealHeld then m else m.resumeSeal

/-- A lease ends: the latest deferred request for the block is applied (R346); one on the seal engine lets sealing go on (R170). -/
def Mach.endLease (m : Mach) (b : Nat) : Mach :=
  let m1 : Mach := { m with sr := { m.sr with leases := tabErase b m.sr.leases } }
  let m2 := match m1.sr.deferred.find? fun d => d.1 = b with
    | some d => m1.gateRequest true b d.2.1 d.2.2
    | none => m1
  if b = 0 then m2.sealGo else m2

/-- A write of SR_LEASE (R345, R358): a grant or renewal, 0 a release; values above 167,772 are reserved. A lease on the seal engine
pauses sealing (R170; log 131). -/
def Mach.leaseSet (m : Mach) (b : Nat) (v : Word) : Mach :=
  let n := fget v F.srLeaseTicks
  if 167772 < n then m
  else if n = 0 then m.endLease b
  else
    let m1 : Mach := { m with sr := { m.sr with leases := tabInsert b (m.now + n) m.sr.leases } }
    if b = 0 then m1.pauseSeal else m1

/-- SR_LEASE_EXPIRY (R346). -/
def Mach.leaseExpiry (m : Mach) (b : Nat) : Mach :=
  match tfind m.sr.leases b with
  | some t => if t ≤ m.now then m.endLease b else m
  | none => m

/-- A read of SR_LEASE (R358). -/
def Mach.leaseRead (m : Mach) (b : Nat) : Word :=
  let hw : Bool := b = 0 && m.serving && fbit (m.eff Reg.sealCtl) F.sealCtlEn
  let left := match tfind m.sr.leases b with
    | some t => t - m.now
    | none => 0
  fset (fset (fset (m.reg (Reg.srLease b)) F.srLeaseHeld (b2n (m.leaseHeld b))) F.srLeaseHw (b2n hw)) F.srLeaseTicks left

/-! ### Measurements (R353) -/

/-- A slot written with a digest. -/
def Mach.setMeas (m : Mach) (k d : Nat) : Mach :=
  ((List.range 11).zip (hashWords d)).foldl (fun x e => x.setReg (Reg.srMeas k e.1) e.2) m

/-- The octets of a slot. -/
def Mach.measHash (m : Mach) (k : Nat) : Nat := hashOfWords ((List.range 11).map fun i => m.reg (Reg.srMeas k i))

/-- A slot extended with a digest. -/
def Mach.extendMeas (m : Mach) (k d : Nat) : Mach :=
  m.setMeas k (sha3_512 (hashOctets (m.measHash k) ++ hashOctets d)).toNat

/-- An entry of the measurement log; once it holds 64, LOGLOST. -/
def Mach.logMeas (m : Mach) (k event d : Nat) : Mach :=
  if 64 ≤ m.sr.log.length then m.setReg Reg.srLogcnt (m.reg Reg.srLogcnt ||| 0x80)
  else
    let l0 := w48 (k * 2 ^ 44 + event * 2 ^ 40 + secOf m.rt)
    let e := [l0, w48 (fracOf m.rt)] ++ hashWords d
    ({ m with sr := { m.sr with log := m.sr.log ++ [e] } } : Mach).setReg Reg.srLogcnt (w48 (m.sr.log.length + 1))

/-- A slot written, with its entry. -/
def Mach.measure (m : Mach) (k event d : Nat) : Mach := (m.setMeas k d).logMeas k event d

/-- A read of SR_LOGWIN[i] (R358). -/
def Mach.logWinRead (m : Mach) (i : Nat) : Word :=
  ((m.sr.log.getD ((m.reg Reg.srLogidx).toNat % 64) []).getD i 0)

/-! ### Boot (R350 to R352) -/

/-- The fields of an image's header (R350). -/
def imgKeysel (os : List Octet) : Nat := octField os 10 1
def imgSvn (os : List Octet) : Nat := octField os 12 2
def imgLen (os : List Octet) : Nat := octField os 16 4
def imgEntry (os : List Octet) : Nat := octField os 20 4
def imgPk (os : List Octet) : List Octet := (os.drop 32).take 2592

/-- MAGIC, "PFLSRIMG". -/
def imgMagic : Nat := 0x50464C5352494D47

/-- The hash a KEYSEL names: the vendor's, or a programmed customer slot's (R352). -/
def Mach.bootHash (m : Mach) (k : Nat) : Option (List Word) :=
  if k = 0 then some (wordsOfOctets 11 Config.vendorHash) else tfind m.sr.fuse.hashes k

/-- The result of an image under R352, its octets from the header to the signature. -/
def Mach.imageErr (m : Mach) (os : List Octet) : Nat :=
  let n := imgLen os
  let k := imgKeysel os
  if octField os 0 8 ≠ imgMagic || octField os 8 2 ≠ 1 then 1
  else if n < 6 || 12582912 < n || n % 6 ≠ 0 || n / 6 ≤ imgEntry os then 2
  else if 4 < k || m.bootHash k ≠ some (hashWords (sha3_512 (imgPk os)).toNat) then 3
  else if k ≠ 0 && nbit m.sr.fuse.revoked (k - 1) then 4
  else if imgSvn os < m.sr.fuse.minsvn then 5
  else if !Config.mldsaVerify (imgPk os) (os.take (2624 + n)) "PFL4800-BOOT" ((os.drop (2624 + n)).take 4627) then 6
  else 0

/-- The vault's pages (R351). -/
def vaultPages : List Nat := (List.range 512).map (0xFFE00 + ·)

/-- The body of an image in the vault, every vault page marked (R351). -/
def Mach.loadVault (m : Mach) (body : List Octet) : Mach :=
  let cont := fun (w : Word) => ({ key := 0, tag := 2, chg := false, pay := w } : Cont)
  let ws := packOctets body
  let cs := (ws.map cont) ++ List.replicate (2 ^ 21 - ws.length) (cont 0)
  ({ m with
    mem := spliceConts m.mem 0xFFE00000 cs
    memst := { m.memst with srPages := (m.memst.srPages.filter fun p => p < 0xFFE00) ++ vaultPages } } : Mach).srCount

/-- The digest of the boot ROM and the fuse settings (R353; log 80). -/
def Mach.romDigest (m : Mach) : Nat :=
  let f := m.sr.fuse
  (sha3_512 (Config.romDigest ++ Config.vendorHash ++ (f.hashes.flatMap fun h => octetsOfWords h.2) ++
    octetsBE 1 f.revoked ++ octetsBE 2 f.minsvn)).toNat

/-- The monitor starts on a seat at its VEC with cause RESET. -/
def Mach.startMonitor (m : Mach) (q : Nat) : Mach := m.resetSeat q

/-- The strongroom watchdog reloaded (R348). -/
def Mach.swdLoad (m : Mach) : Mach :=
  ({ m with sr := { m.sr with swdEnd := some (m.now + 1677722) } } : Mach).setFld Reg.srStat F.srStatSwdrun 1

/-- An image that passed starts (R352, R445): vault, measurements, VEC, C0 seat 0 in the monitor, PHASE CHARTER. -/
def Mach.startImage (m : Mach) (slot : Nat) (os : List Octet) : Mach :=
  let n := imgLen os
  let m1 := m.loadVault ((os.drop 2624).take n)
  let m2 := (m1.measure 0 1 m1.romDigest).measure 1 2 (sha3_512 (os.take (2624 + n + 4627))).toNat
  let m3 := (m2.setReg Reg.srMonvec (w48 (0xFFE00000 + imgEntry os))).setReg Reg.srBoot
    (fset (fset (fset (m2.reg Reg.srBoot) F.srBootSlot slot) F.srBootKeysel (imgKeysel os)) F.srBootSvn (imgSvn os))
  let m4 := [0, 1, 2, 3].foldl Mach.startUnits (m3.setFld Reg.modState F.modStatePhase 1)
  let m5 : Mach := { m4 with sr := { m4.sr with keys := true, image := { head := os.take 2624, sig := (os.drop (2624 + n)).take 4627 } } }
  (m5.startMonitor 0).swdLoad

/-- BOOT_IMAGE_VERIFY (R335, R352): once after memory is ready; a BROKEN group stops it with MEMORY. -/
def Mach.bootVerify (m : Mach) (a b : List Octet) : Mach :=
  if !m.memUp || m.phase ≠ 0 || m.fld Reg.srBoot F.srBootErra ≠ 7 then m
  else if m.grpState 0 = 2 || m.grpState 1 = 2 then m.setReg Reg.srBoot (fset (fset (m.reg Reg.srBoot) F.srBootErra 8) F.srBootErrb 8)
  else
    let ea := m.imageErr a
    let m1 := m.setFld Reg.srBoot F.srBootErra ea
    if ea = 0 then m1.startImage 0 a
    else
      let eb := m.imageErr b
      let m2 := m1.setFld Reg.srBoot F.srBootErrb eb
      if eb = 0 then m2.startImage 1 b else m2

/-! ### The watchdog and restart (R348, R349) -/

/-- A strongroom job ends at a restart: no completion, its lane's job too (R213, R348). -/
def Mach.dropSrJobs (m : Mach) : Mach :=
  let m1 := (m.jobs.filter fun e => e.2.sr).foldl (fun x e => x.dropJob e.1) m
  (laneBlocks true ++ laneBlocks false).foldl (fun x b => if (x.laneB b).job.isSome && (x.laneB b).sr then x.laneDone b else x) m1

/-- A seat at a strongroom level stops: its strongroom stacks and banked cells are discarded (R348). -/
def Mach.stopSeat (m : Mach) (q : Nat) : Mach :=
  let s := m.seat q
  let a : Arch := { s.arch with
    cells := s.arch.cells.filter (fun e => e.1 < 96), ds := [], rs := [], waiting := false }
  let a1 := a.setCell 5 0xB (m.reg Reg.srMonvec)
  m.setSeat q { s with arch := a1, ckpt := a1, stores := [], group := 0, retries := 0, swdStop := true, stopped := false }

/-- The seats that run at a strongroom level. -/
def Mach.srSeats (m : Mach) : List Nat :=
  (List.range 64).filter fun q => m.seatState q ≠ 0 && m.seatState q ≠ 4 && srLevel (m.arch q).wld

/-- The image in the vault as it stands, from its header to its signature. -/
def Mach.vaultImage (m : Mach) : List Octet :=
  let n := imgLen m.sr.image.head
  m.sr.image.head ++ (octetsOfWords (m.wordsAt 0xFFE00000 (n / 6))) ++ m.sr.image.sig

/-- SR_HOME's seat. -/
def Mach.homeSeat (m : Mach) : Nat := 16 * m.fld Reg.srHome F.srHomeCluster + m.fld Reg.srHome F.srHomeSeat

/-- The monitor starts on the home seat (R348): a seat stopped is reset; one at an open level is entered with cause RESET; one that
moves runs it once its new unit starts. -/
def Mach.restartHome (m : Mach) : Mach :=
  let q := m.homeSeat
  if m.seatState q = 0 || m.seatState q = 4 then m
  else if (m.seat q).swdStop then
    (m.setSeat q { m.seat q with swdStop := false }).enterLevel q 4 Cause.reset 0 0 false 0
  else m.enterExc q 4 { cause := Cause.reset, detail := 0 } 0

/-- A staged tip-in discarded by a restart (R393), unless its activation is under way. -/
def Mach.dropStaged (m : Mach) : Mach :=
  if m.bit Reg.ucStat F.ucStatActivating then m
  else ({ m with uc := { m.uc with staged := none } } : Mach).setFld Reg.ucStat F.ucStatStaged 0

/-- Steps 1 to 6 of a restart (R348); a failed re-verification resets the module (R349). -/
def Mach.restartSteps (m : Mach) : Mach :=
  let m0 := (m.setFld Reg.srStat F.srStatRestart 1).setFld Reg.srStat F.srStatSigner 0
  let m1 := ({ m0 with sr := { m0.sr with attest := none } } : Mach).pauseSeal
  let m2 := (m1.sr.leases.map Prod.fst).foldl Mach.endLease m1
  let m3 := m2.srSeats.foldl Mach.stopSeat m2
  let m4 := m3.dropSrJobs
  let m5 := ((m4.memst.srPages.filter fun p => p < 0xFFE00).foldl (fun x p => x.rewritePage p 2) m4).clearSrSlots
  let m6 : Mach := { m5.dropStaged with sr := { m5.sr with keys := false, swdLast := some m.now, restart := some m.now } }
  let img := m6.vaultImage
  if m6.imageErr img ≠ 0 then m6.moduleReset 4
  else
    let i := m6.reg Reg.srRestarts
    let d := (sha3_512 img).toNat
    let m7 := if i.toNat < 4 then m6.setMeas (4 + i.toNat) d else m6.extendMeas 7 d
    let m8 := (m7.logMeas (min 7 (4 + i.toNat)) 5 d).countSat 65535 Reg.srRestarts
    (({ m8 with sr := { m8.sr with keys := true } } : Mach).restartHome).swdLoad

/-- SWD_EXPIRY (R348, R349): a second expiry within 60 s resets the module. -/
def Mach.swdExpiry (m : Mach) : Mach :=
  match m.sr.swdEnd with
  | none => m
  | some t =>
    if m.now < t then m
    else match m.sr.swdLast with
      | some l => if m.now < l + 1006632960 then m.moduleReset 3 else m.restartSteps
      | none => m.restartSteps

/-- SWD_BOUND_EXPIRY (R349). -/
def Mach.swdBound (m : Mach) : Mach :=
  match m.sr.restart with
  | some t => if t + 16777216 ≤ m.now then m.moduleReset 2 else m
  | none => m

/-- A write of SR_SWD.KICK (R348). -/
def Mach.swdKick (m : Mach) (v : Word) : Mach :=
  if fbit v F.srSwdKick && m.sr.swdEnd.isSome then m.swdLoad else m

/-- SR_SWD as it reads (R358). -/
def Mach.swdRead (m : Mach) : Word :=
  match m.sr.swdEnd with
  | some t => w48 (t - m.now)
  | none => m.reg Reg.srSwd

/-- A stopped seat after a restart (R348): through its world-entry record, or into the monitor. -/
def Mach.resumeSeat (m : Mach) (q : Nat) : Mach :=
  let s := m.seat q
  if !s.swdStop then m
  else
    let s0 : Seat := { s with swdStop := false }
    match s.entry with
    | none => (m.setSeat q s0).enterLevel q 4 Cause.reset 0 0 false 0
    | some (l, xpc, call) =>
      let s1 := s0.setLevel l
      let a := s1.arch
      let a1 : Arch := { a with pc := xpc, litk := 0, ds := if call then [~~~ 0#48] else [], rs := [], waiting := false }
      let a2 := if call then a1.setOwn 1 (w48 (a1.ptr false + 1)) else a1
      (m.setSeat q { s1 with arch := a2 }).endGroup q

/-- A restart completes (R348). -/
def Mach.restartDone (m : Mach) : Mach :=
  let m1 := ({ m with sr := { m.sr with restart := none } } : Mach).setFld Reg.srStat F.srStatRestart 0
  (List.range 64).foldl Mach.resumeSeat m1.sealGo

/-! ### The charter's commit (R354) -/

/-- The charter record, in ascending address order. -/
def Mach.charterRecord (m : Mach) : List Octet :=
  let as := (allTenants.flatMap fun t => [Reg.accCtl t, Reg.accDbbase t, Reg.accDbsize t]) ++
    [Reg.twnCtl, Reg.twnHoldoff] ++ allTenants.map Reg.tenCtl ++
    [Reg.sealCtl, Reg.sealRbase, Reg.sealRsize, Reg.sealPeerkeyid] ++ [0, 1, 2, 3].map Reg.cluCtl ++
    (List.range 11).map Reg.srTwinkey ++ (List.range 256).map Reg.srAttrPort ++ (List.range 64).map Reg.srAttrCe ++
    (List.range 8).map Reg.srAttrKl ++ (List.range 4).map Reg.srAttrXl ++ [Reg.srAttrPin, Reg.srAttrFixed]
  octetsOfWords ((as.mergeSort (· ≤ ·)).map m.reg)

/-- SR_COMMIT.ERR of a commit in the charter (R354, R358). -/
def Mach.commitErr (m : Mach) : Nat :=
  let h := m.homeSeat
  let split := m.bit (Reg.cluCtl (h / 16)) F.cluCtlSplit
  if !(h % 16 < if split then 16 else 8) then 2
  else if m.paired && (((List.range 11).all fun i => m.reg (Reg.srTwinkey i) = 0) || m.reg Reg.sealPeerkeyid = 0) then 3
  else 0

/-- The seats of every cluster but C0 seat 0 start in the monitor (log 81). -/
def Mach.startSeats (m : Mach) : Mach :=
  (List.range 64).foldl (fun x q => if q ≠ 0 && x.seatExists q then x.startMonitor q else x) m

/-- The role after the commit (R140, R156): SOLO in epoch 1 under INIT, else SYNCING. -/
def Mach.startRole (m : Mach) : Mach :=
  if m.bit Reg.twnCtl F.twnCtlInit then
    ((((m.setFld Reg.twnCtl F.twnCtlInit 0).setRole 2).setEpoch 1).setLease true).sealFolioStart
  else m

/-- The charter commits (R354). -/
def Mach.commitCharter (m : Mach) : Mach :=
  let split := [0, 1, 2, 3].foldl (fun a c => a + b2n (m.bit (Reg.cluCtl c) F.cluCtlSplit) * 2 ^ c) 0
  let m1 := m.measure 2 3 (sha3_512 m.charterRecord).toNat
  let m2 := (m1.setFld Reg.modState F.modStateSplit split).setFld Reg.modState F.modStatePhase 2
  let m3 := [0, 1, 2, 3].foldl (fun x c => if nbit split c then x.startUnits c else x) m2
  (m3.startSeats.startRole).refreshRun.refreshTwn

/-- A write of SR_COMMIT.GO (R348, R354): a commit in the charter, the end of a restart, else ERR PHASE. -/
def Mach.commitSet (m : Mach) (v : Word) : Mach :=
  if !fbit v F.srCommitGo then m
  else if m.phase = 1 && !m.restarting then
    let e := m.commitErr
    let m1 := m.setReg Reg.srCommit (w48 e)
    if e = 0 then m1.commitCharter else m1
  else if m.restarting then (m.setReg Reg.srCommit 0).restartDone
  else m.setReg Reg.srCommit 1

/-! ### Fuses (R358) -/

/-- A write of SR_FUSECTL (R358): GO starts an operation and reads 1 while it runs (R11), or reports why not; ignored while one
runs. -/
def Mach.fuseCtlSet (m : Mach) (v : Word) : Mach :=
  let m1 := m.setReg Reg.srFusectl (fset (v &&& (fmask F.srFusectlOp ||| fmask F.srFusectlSlot ||| fmask F.srFusectlSvn))
    F.srFusectlGo (m.fld Reg.srFusectl F.srFusectlGo))
  let op := fget v F.srFusectlOp
  let k := fget v F.srFusectlSlot + 1
  let f := m.sr.fuseNext
  let err := fun (x : Mach) (e : Nat) => x.setReg Reg.srFusestat (fset (x.reg Reg.srFusestat) F.srFusestatErr e)
  let run := fun (x : Mach) (g : Fuses) =>
    (({ x with sr := { x.sr with fuseOp := some g } } : Mach).setReg Reg.srFusestat (fset (fset 0 F.srFusestatErr 0) F.srFusestatBusy 1)).setFld
      Reg.srFusectl F.srFusectlGo 1
  if m.sr.fuseOp.isSome || !fbit v F.srFusectlGo then m1
  else if m.phase ≠ 1 then err m1 1
  else if op = 0 then err m1 4
  else if op = 1 then
    if tmem f.hashes k then err m1 2
    else run m1 { f with hashes := tabInsert k ((List.range 11).map fun i => m.reg (Reg.srFusedata i)) f.hashes }
  else if op = 2 then run m1 { f with revoked := f.revoked ||| 2 ^ (k - 1) }
  else if fget v F.srFusectlSvn ≤ f.minsvn then err m1 3
  else run m1 { f with minsvn := fget v F.srFusectlSvn }

/-- FUSE_OP_DONE (R358). -/
def Mach.fuseDone (m : Mach) : Mach :=
  match m.sr.fuseOp with
  | some g => (({ m with sr := { m.sr with fuseNext := g, fuseOp := none } } : Mach).setReg Reg.srFusestat 0).setFld Reg.srFusectl F.srFusectlGo 0
  | none => m

/-- SR_FUSESTAT as it reads: the fuses this boot read. -/
def Mach.fuseStatRead (m : Mach) : Word :=
  let f := m.sr.fuse
  let prog := f.hashes.foldl (fun a h => a + 2 ^ (h.1 - 1)) 0
  fset (fset (fset (m.reg Reg.srFusestat) F.srFusestatMinsvn f.minsvn) F.srFusestatRevoked f.revoked) F.srFusestatProg prog

/-! ### Attestation (R347, R356) -/

/-- A0: format, LOGLOST, restarted, MESHSEEN. -/
def Mach.attestA0 (m : Mach) : Word :=
  w48 (0x0001 * 2 ^ 32 + b2n (nbit (m.reg Reg.srLogcnt).toNat 7) * 4 + b2n (m.reg Reg.srRestarts ≠ 0) * 2 +
    m.fld Reg.srRstcause F.srRstcauseMeshseen)

/-- A0 to A552 of an answer to a nonce of 11 words (R356). -/
def Mach.attestBody (m : Mach) (nonce : List Word) : List Word :=
  [m.attestA0, m.reg Reg.modSerialHi, m.reg Reg.modSerialLo, m.reg Reg.modPart,
    w48 (m.fld Reg.srBoot F.srBootKeysel * 2 ^ 16 + m.fld Reg.srBoot F.srBootSvn),
    w48 (m.role * 2 ^ 24 + m.epoch), w48 (secOf m.rt), w48 (fracOf m.rt), w48 ((m.reg Reg.srRestarts).toNat % 65536)] ++
    nonce ++ ((List.range 8).flatMap fun k => (List.range 11).map fun i => m.reg (Reg.srMeas k i)) ++
    [m.reg Reg.sealKeyid, m.reg Reg.sealPeerkeyid] ++ ((List.range 11).map fun i => m.reg (Reg.srTwinkey i)) ++
    wordsOfOctets 432 identityPk

/-- The 1,325 words of an answer, signed with a hedge (R356). -/
def Mach.attestAnswer (m : Mach) (hedge : Nat) (nonce : List Word) : List Word :=
  let b := m.attestBody nonce
  b ++ wordsOfOctets 772 ((identitySign hedge (octetsOfWords b) "PFL4800-ATTEST").take 4627)

/-- An attestation for the call of seat `q` takes the signer of the seal engine: SIGNER, PAUSED, the signature in progress
discarded (R347, R170). The image serves at most 64 calls in any RT second, one at a time (log 123). -/
def Mach.attestStart (m : Mach) (q : Nat) (nonce : List Word) : Mach :=
  let n := if m.sr.attestSec = secOf m.rt then m.sr.attestNo else 0
  if m.sr.attest.isSome || 64 ≤ n || !m.sr.keys then m
  else
    let (h, m1) := m.draw
    (({ m1 with sr := { m1.sr with
      attest := some { seat := q, answer := m1.attestAnswer h nonce }, attestSec := secOf m.rt, attestNo := n + 1 } } : Mach).setFld
      Reg.srStat F.srStatSigner 1).pauseSeal

/-- The service that seat `q` runs ends: an attestation it took gives the signer back. -/
def Mach.attestEnd (m : Mach) (q : Nat) : Mach :=
  if m.sr.attest.map Attest.seat = some q then
    (({ m with sr := { m.sr with attest := none } } : Mach).setFld Reg.srStat F.srStatSigner 0).sealGo
  else m

/-! ### The mailbox (R444) -/


/-- A write of SR_MBSTAT: INFULL clears where 1 is written, OUTFULL is set where 1 is written, OUTLEN takes 1 to 30. -/
def Mach.mbStatSet (m : Mach) (v : Word) : Mach :=
  let w := m.reg Reg.srMbstat
  let w1 := if fbit v F.srMbstatInfull then fset w F.srMbstatInfull 0 else w
  let w2 := if fbit v F.srMbstatOutfull then fset w1 F.srMbstatOutfull 1 else w1
  let n := fget v F.srMbstatOutlen
  m.setReg Reg.srMbstat (if 1 ≤ n && n ≤ 30 then fset w2 F.srMbstatOutlen n else w2)

/-! ### The strongroom block's writes (R358) -/

/-- A write of the register at offset `o` of the strongroom block, from the strongroom world. -/
def Mach.srSet (m : Mach) (o : Nat) (v : Word) : Mach :=
  let a := 0x380000 + o
  if o = 2 then m.commitSet v
  else if o = 3 then m.swdKick v
  else if o = 5 then (if m.committed then m else m.setReg a (v &&& 0x3F))
  else if o = 8 then m.fuseCtlSet v
  else if 0x10 ≤ o && o ≤ 0x1A then m.setReg a v
  else if o = 0xA1 then m.setReg a (v &&& 0x3F)
  else if o = 0xB6 then m.mbStatSet v
  else if 0xB8 ≤ o && o ≤ 0xBC then m.setReg a v
  else if 0xC0 ≤ o && o ≤ 0xCA then m.setReg a v
  else if 0x100 ≤ o && o < 0x200 then m.attrPortSet (o - 0x100) v
  else if 0x200 ≤ o && o < 0x240 then m.attrBlockSet (0x10 + (o - 0x200)) v
  else if 0x240 ≤ o && o < 0x248 then m.attrBlockSet (1 + (o - 0x240)) v
  else if 0x248 ≤ o && o < 0x24C then m.attrBlockSet (9 + (o - 0x248)) v
  else if o = 0x250 then m.attrPinSet v
  else if 0x300 ≤ o && o < 0x350 then (if o ≤ 0x30C || 0x310 ≤ o then m.leaseSet (o - 0x300) v else m)
  else m

/-- A read of the register at offset `o` of the strongroom block. -/
def Mach.srRead (m : Mach) (o : Nat) : Word :=
  if o = 3 then m.swdRead
  else if o = 9 then m.fuseStatRead
  else if 0xA2 ≤ o && o ≤ 0xAE then m.logWinRead (o - 0xA2)
  else if 0x300 ≤ o && o < 0x350 then (if o ≤ 0x30C || 0x310 ≤ o then m.leaseRead (o - 0x300) else 0)
  else m.reg (0x380000 + o)

end Sys2Proof.Machine
end

