-- ==== Sys2Proof/Machine/Cipher.lean ====
section
/-! DEFINITION. The cipher lanes' operations and the HASH job: descriptors, key slots, blobs and results (R188, R359 to R369). -/

namespace Sys2Proof.Machine

open Sys2Proof

/-! ### Memory of a lane job -/

/-- `n` octets read from a D-space address for a lane job (R4). -/
def Mach.laneOctets (m : Mach) (l : Lane) (a n : Nat) : Except LaneRes (List Octet) :=
  match m.carReadN l.carrel l.sr a ((n + 5) / 6) with
  | .ok ws => .ok ((octetsOfWords ws).take n)
  | .error e => .error (readErr true e)

/-- Octets to be written from an address on, the last word filled with zero octets (R360). -/
def octetWrites (a : Nat) (os : List Octet) : List (Nat × Word) :=
  (List.range ((os.length + 5) / 6)).zip (packOctets os) |>.map fun e => ((a + e.1) % 2 ^ 40, e.2)

/-- Octets cut or zero-filled to a length. -/
def fitOctets (n : Nat) (os : List Octet) : List Octet := (os ++ List.replicate (n - os.length) 0).take n

/-- Words that `n` octets fill. -/
def octetWords (n : Nat) : Nat := (n + 5) / 6

/-- A result with output octets at the output address. -/
def Lane.gives (l : Lane) (os : List Octet) : LaneRes :=
  { writes := octetWrites (l.addr 3) os, inOct := l.len 2, outOct := os.length }

/-! ### Running a job -/

/-- A lane of a block whose job has started and stands at operation `op`, not of an old generation (R213). A job's start is settled
at the end of its tick (R363); its operation is done later, and without a REFCLK input at once (DESIGN CHOICE, log 129). -/
def Mach.cipherAt (m : Mach) (b op : Nat) : Bool :=
  let l := m.laneB b
  m.up && l.job.isSome && l.res.isNone && !l.fresh && l.kind = 0 && l.gen = m.carGen l.carrel && cipherOp l.words = op

/-- The lanes' starts settled where no tick will do it. -/
def Mach.startsNow (m : Mach) : Mach := if m.refs.isEmpty then m.lanesStart else m

/-- A lane's answer given. -/
def Mach.laneGives (m : Mach) (b : Nat) (r : LaneRes) : Mach := m.setLaneB b { m.laneB b with res := some r }

/-- The lines that a cipher job's reads meet: its input, AAD and aux area (R285). -/
def Mach.cipherMet (m : Mach) (l : Lane) : Mach :=
  ((m.met l.carrel l.sr (l.addr 1) ((l.len 2 + 5) / 6)).met l.carrel l.sr (l.addr 5) ((l.len 6 + 5) / 6)).met l.carrel l.sr
    (l.addr 7) 5

/-- What a computation answers. -/
def answerOf : Except LaneRes LaneRes → LaneRes
  | .ok r => r
  | .error r => r

/-- A job of one slot, whose start took the slot: its work with the slot's key and the IV it took (R360 to R363). -/
def Mach.slotJob (m0 : Mach) (b op : Nat) (work : Mach → Lane → List Octet → Except LaneRes LaneRes) : Mach :=
  let m := m0.startsNow
  if !m.cipherAt b op then m
  else
    let l := m.laneB b
    (m.cipherMet l).laneGives b (answerOf (work m l (m.slotKey l.keySlot)))

/-! ### Operations on data (R359, R367) -/

/-- GCM-ENC. -/
def Mach.gcmEnc (m : Mach) (b : Nat) : Mach :=
  m.slotJob b 1 fun m l key => do
    let os ← m.laneOctets l (l.addr 1) (l.len 2)
    let aad ← m.laneOctets l (l.addr 5) (l.len 6)
    let r := fitOctets (l.len 2 + 16) (aesJob 1 false key l.iv aad os).1
    .ok { l.gives (r.take (l.len 2)) with
      aux := octetWrites (l.addr 7) l.iv ++ octetWrites ((l.addr 7 + 2) % 2 ^ 40) (r.drop (l.len 2)) }

/-- GCM-DEC. -/
def Mach.gcmDec (m : Mach) (b : Nat) : Mach :=
  m.slotJob b 2 fun m l key => do
    let os ← m.laneOctets l (l.addr 1) (l.len 2)
    let aad ← m.laneOctets l (l.addr 5) (l.len 6)
    let iv ← m.laneOctets l (l.addr 7) 12
    let tag ← m.laneOctets l ((l.addr 7 + 2) % 2 ^ 40) 16
    let (r, bad) := aesJob 2 false key iv aad (os ++ tag)
    .ok (if bad then { code := 1, inOct := l.len 2 } else l.gives (fitOctets (l.len 2) r))

/-- XTS-ENC and XTS-DEC: one data unit with the tweak of the aux area. -/
def Mach.xts (m : Mach) (b op : Nat) : Mach :=
  m.slotJob b op fun m l key => do
    let os ← m.laneOctets l (l.addr 1) (l.len 2)
    let tweak ← m.laneOctets l (l.addr 7) 16
    .ok (l.gives (fitOctets (l.len 2) (aesJob op false key tweak [] os).1))

/-- The CMAC of data under a key. -/
def cmac (key os : List Octet) : List Octet := fitOctets 16 (aesJob 5 false key [] [] os).1

/-- CMAC-GEN. -/
def Mach.cmacGen (m : Mach) (b : Nat) : Mach :=
  m.slotJob b 5 fun m l key => do
    let os ← m.laneOctets l (l.addr 1) (l.len 2)
    .ok { aux := octetWrites (l.addr 7) (cmac key os), inOct := l.len 2 }

/-- CMAC-VER. -/
def Mach.cmacVer (m : Mach) (b : Nat) : Mach :=
  m.slotJob b 6 fun m l key => do
    let os ← m.laneOctets l (l.addr 1) (l.len 2)
    let tag ← m.laneOctets l (l.addr 7) 16
    .ok { code := if tag = cmac key os then 0 else 1, inOct := l.len 2 }

/-- KW-WRAP. -/
def Mach.kwWrap (m : Mach) (b : Nat) : Mach :=
  m.slotJob b 7 fun m l key => do
    let os ← m.laneOctets l (l.addr 1) (l.len 2)
    .ok (l.gives (fitOctets (wrapLen (l.len 2)) (aesJob 7 l.pad key [] [] os).1))

/-- KW-UNWRAP: the limit is held against the plaintext. -/
def Mach.kwUnwrap (m : Mach) (b : Nat) : Mach :=
  m.slotJob b 8 fun m l key => do
    let os ← m.laneOctets l (l.addr 1) (l.len 2)
    let (r, bad) := aesJob 8 l.pad key [] [] os
    let p := if l.pad then r.take (l.len 2 - 8) else fitOctets (l.len 2 - 8) r
    .ok (if bad then { code := 1, inOct := l.len 2 } else if l.len 4 < p.length then { code := 7 } else l.gives p)

/-! ### Blobs (R364, R365) -/

/-- A blob header whose FORMAT, ALG and USAGE are valid: ALG 3 permits only ENC, DEC and EXPORTABLE, and WRAP and UNWRAP need
ALG 2 (R364). -/
def headerOk (h : List Octet) : Bool :=
  let alg := octField h 1 1
  let u := octField h 2 2
  octField h 0 1 = 1 && 1 ≤ alg && alg ≤ 3 && u < 128 && (alg ≠ 3 || u &&& 0x3C = 0) && (u &&& 0x30 = 0 || alg = 2)

/-- Whether WORLD and TENANT of a header are those of a slot's owner. -/
def Mach.headerOwner (m : Mach) (h : List Octet) (s : Nat) : Bool :=
  octField h 4 1 = b2n (m.bit (Reg.kxSown s) F.kxSownSr) && octField h 5 1 = m.fld (Reg.kxSown s) F.kxSownTenant

/-- Checks 4 and 5 of R365 on a header and destination: the result where one fails. -/
def Mach.dstCheck (m : Mach) (l : Lane) (h : List Octet) : Except Nat Unit :=
  if !m.headerOwner h l.dstSlot || !m.ownsSlot l l.dstSlot then .error 4
  else if m.slotState l.dstSlot ≠ 0 then .error 8
  else .ok ()

/-- The key-encryption key is not at hand: the strongroom is restarting, or has not derived it (R348, R355, R365). -/
def Mach.kekPaused (m : Mach) : Bool := m.bit Reg.srStat F.srStatRestart || !m.sr.keys

/-- The wrapping key of UNWRAP and EXPORT: the KEK, or the slot that the job's start took. -/
def Mach.blobKey (m : Mach) (l : Lane) : Except Nat (List Octet) :=
  if !l.kek then .ok (m.slotKey l.keySlot) else if m.kekPaused then .error 9 else .ok kekKey

/-- UNWRAP (R365). -/
def Mach.unwrapJob (m0 : Mach) (b : Nat) : Mach :=
  let m := m0.startsNow
  if !m.cipherAt b 9 then m
  else
    let l := m.laneB b
    match m.blobKey l with
    | .error c => m.laneGives b { code := c }
    | .ok key => (m.cipherMet l).laneGives b (answerOf do
        let os ← m.laneOctets l (l.addr 1) (l.len 2)
        let (p, bad) := aesJob 8 true key [] [] os
        if bad then .error { code := 1, inOct := l.len 2 }
        else if !headerOk p || p.length ≠ 24 + algKey (octField p 1 1) then .error { code := 0xA, inOct := l.len 2 }
        else match m.dstCheck l p with
          | .error c => .error { code := c, inOct := l.len 2 }
          | .ok _ => .ok { inOct := l.len 2, load := some (l.dstSlot, p.take 24, p.drop 24) })

/-- The blob plaintext of a slot (R364, R365): CTRBASE is C, LIMIT is LIM - U. -/
def Mach.blobOf (m : Mach) (s : Nat) : List Octet :=
  octetsBE 1 1 ++ octetsBE 1 (m.slotAlg s) ++ octetsBE 2 (m.fld (Reg.kxSstat s) F.kxSstatUsage) ++
    octetsBE 1 (b2n (m.bit (Reg.kxSown s) F.kxSownSr)) ++ octetsBE 1 (m.fld (Reg.kxSown s) F.kxSownTenant) ++
    octetsBE 2 (m.fld (Reg.kxSstat s) F.kxSstatRolltag) ++ octetsBE 4 (m.reg (Reg.kxSfixed s)).toNat ++
    octetsBE 8 (m.slotC s) ++ octetsBE 4 (m.slotLim s - m.slotU s) ++ fitOctets (algKey (m.slotAlg s)) (m.slotKey s)

/-- EXPORT (R365): the source's header and key wrapped, and the source cleared. -/
def Mach.exportJob (m0 : Mach) (b : Nat) : Mach :=
  let m := m0.startsNow
  if !m.cipherAt b 0xA then m
  else
    let l := m.laneB b
    let s := l.dstSlot
    match m.blobKey l with
    | .error c => m.laneGives b { code := c }
    | .ok key =>
      m.laneGives b { l.gives (fitOctets (32 + algKey (m.slotAlg s)) (aesJob 7 true key [] [] (m.blobOf s)).1) with
        clear := some s, inOct := 0 }

/-- A job of the strongroom alone that a restart refuses (R359, R365), run by `f` after its descriptor's checks. -/
def Mach.srCipher (m0 : Mach) (b op : Nat) (len : Lane → Bool) (f : Mach → Lane → Mach) : Mach :=
  let m := m0.startsNow
  if !m.cipherAt b op then m
  else
    let l := m.laneB b
    if cipherDescBad l.words then m.laneGives b { code := 6 }
    else if !len l then m.laneGives b { code := 7 }
    else if !l.sr then m.laneGives b { code := 4 }
    else if m.kekPaused then m.laneGives b { code := 9 }
    else f (m.cipherMet l) l

/-- A key loaded under the header of the aux area (R359, R360, R365). -/
def Mach.auxLoad (m : Mach) (l : Lane) (algs : List Nat) (key : Nat → List Octet) : Except LaneRes LaneRes := do
  let h ← m.laneOctets l (l.addr 7) 24
  let alg := octField h 1 1
  if !headerOk h || !algs.contains alg then .error { code := 0xA }
  else match m.dstCheck l h with
    | .error c => .error { code := c }
    | .ok _ => .ok { load := some (l.dstSlot, h, key (algKey alg)) }

/-- GENKEY. -/
def Mach.genKey (m : Mach) (b : Nat) : Mach :=
  m.srCipher b 0xB (fun _ => true) fun m l =>
    let (f, m1) := m.draw
    m1.laneGives b (answerOf (m1.auxLoad l [1, 2, 3] fun n => octetsBE n f))

/-- KEM-KEYGEN: the decapsulation key stays in KP0 or KP1. -/
def Mach.kemKeygen (m : Mach) (b : Nat) : Mach :=
  m.srCipher b 0xC (fun l => 1568 ≤ l.len 4) fun m l =>
    let (f, m1) := m.draw
    let k := mlkemKeygen f
    m1.laneGives b { l.gives (fitOctets 1568 k.1) with kp := some (l.kpReg, k.2), inOct := 0 }

/-- KEM-ENCAPS. -/
def Mach.kemEncaps (m : Mach) (b : Nat) : Mach :=
  m.srCipher b 0xD (fun l => l.len 2 = 1568 && 1568 ≤ l.len 4) fun m l =>
    let (f, m1) := m.draw
    m1.laneGives b (answerOf do
      let ek ← m1.laneOctets l (l.addr 1) 1568
      let k := mlkemEncaps f ek
      let r ← m1.auxLoad l [2] fun n => fitOctets n k.2
      .ok { l.gives (fitOctets 1568 k.1) with load := r.load })

/-- KEM-DECAPS: a private register that holds no key gives NOKEY. -/
def Mach.kemDecaps (m : Mach) (b : Nat) : Mach :=
  m.srCipher b 0xE (fun l => l.len 2 = 1568) fun m l =>
    match tfind m.kp l.kpReg with
    | none => m.laneGives b { code := 3 }
    | some dk => m.laneGives b (answerOf do
        let ct ← m.laneOctets l (l.addr 1) 1568
        let r ← m.auxLoad l [2] fun n => fitOctets n (mlkemDecaps dk ct)
        .ok { r with inOct := 1568 })

/-- A reserved OP (R359). -/
def Mach.cipherBad (m0 : Mach) (b : Nat) : Mach :=
  let m := m0.startsNow
  let op := cipherOp (m.laneB b).words
  if m.cipherAt b op && !(1 ≤ op && op ≤ 0xE) then m.laneGives b { code := 6 } else m

/-! ### HASH (R188) -/

/-- The digest of HASH's operand word over octets. -/
def hashOf (w : Word) (os : List Octet) : List Octet :=
  let n := nbits w.toNat 31 16
  let x := if nbit w.toNat 37 then BitVec.ofNat 8 (nbits w.toNat 15 8) :: os else os
  match nbits w.toNat 3 0 with
  | 0 => octetsBE 32 (sha3_256 x).toNat
  | 1 => octetsBE 64 (sha3_512 x).toNat
  | 2 => fitOctets n (shake false x n)
  | _ => fitOctets n (shake true x n)

/-- A HASH job done on the lane of block `b`. -/
def Mach.hashJob (m : Mach) (b : Nat) : Mach :=
  let l := m.laneB b
  let w := l.words.getD 0 0
  let n := (l.words.getD 2 0).toNat
  let k := 6 * n - nbits w.toNat 6 4
  (m.met l.carrel l.sr (l.addr 1) n).laneGives b (answerOf do
    let os ← m.laneOctets l (l.addr 1) k
    let d := hashOf w os
    .ok { writes := octetWrites (l.addr 3) d, inOct := k })

/-- LANE_RESULT (R188, R361, R375): the lane's job ends, a HASH worked out first. -/
def Mach.laneResult (m : Mach) (b fault : Nat) : Mach :=
  let l := m.laneB b
  if !m.up then m
  else if l.job.isSome && l.kind = 1 && l.res.isNone && fault = 0 && l.gen = m.carGen l.carrel then (m.hashJob b).laneEnd b 0
  else m.laneEnd b fault

/-! ### The commands -/

/-- LANE_RESULT (R188): a cipher lane, or one of the four compression lanes. -/
def execLaneResult (cipher : Bool) (l : LaneId) (fault : Fin 4) (s : State) : Host.Outcome State Fault Refusal :=
  s.lift fun m => if cipher then m.laneResult (1 + l.val) fault.val else if l.val < 4 then m.laneResult (9 + l.val) fault.val else m

/-- GCM_ENC (R359). -/
def execGcmEnc (l : LaneId) (s : State) : Host.Outcome State Fault Refusal := s.lift fun m => m.gcmEnc (1 + l.val)

/-- GCM_DEC (R367). -/
def execGcmDec (l : LaneId) (s : State) : Host.Outcome State Fault Refusal := s.lift fun m => m.gcmDec (1 + l.val)

/-- XTS_ENC (R359). -/
def execXtsEnc (l : LaneId) (s : State) : Host.Outcome State Fault Refusal := s.lift fun m => m.xts (1 + l.val) 3

/-- XTS_DEC (R359). -/
def execXtsDec (l : LaneId) (s : State) : Host.Outcome State Fault Refusal := s.lift fun m => m.xts (1 + l.val) 4

/-- CMAC_GEN (R359). -/
def execCmacGen (l : LaneId) (s : State) : Host.Outcome State Fault Refusal := s.lift fun m => m.cmacGen (1 + l.val)

/-- CMAC_VER (R367). -/
def execCmacVer (l : LaneId) (s : State) : Host.Outcome State Fault Refusal := s.lift fun m => m.cmacVer (1 + l.val)

/-- KW_WRAP (R359). -/
def execKwWrap (l : LaneId) (s : State) : Host.Outcome State Fault Refusal := s.lift fun m => m.kwWrap (1 + l.val)

/-- KW_UNWRAP (R367). -/
def execKwUnwrap (l : LaneId) (s : State) : Host.Outcome State Fault Refusal := s.lift fun m => m.kwUnwrap (1 + l.val)

/-- UNWRAP (R365). -/
def execUnwrap (l : LaneId) (s : State) : Host.Outcome State Fault Refusal := s.lift fun m => m.unwrapJob (1 + l.val)

/-- EXPORT (R365). -/
def execExportKey (l : LaneId) (s : State) : Host.Outcome State Fault Refusal := s.lift fun m => m.exportJob (1 + l.val)

/-- GENKEY (R359). -/
def execGenkey (l : LaneId) (s : State) : Host.Outcome State Fault Refusal := s.lift fun m => m.genKey (1 + l.val)

/-- KEM_KEYGEN (R359). -/
def execKemKeygen (l : LaneId) (s : State) : Host.Outcome State Fault Refusal := s.lift fun m => m.kemKeygen (1 + l.val)

/-- KEM_ENCAPS (R359). -/
def execKemEncaps (l : LaneId) (s : State) : Host.Outcome State Fault Refusal := s.lift fun m => m.kemEncaps (1 + l.val)

/-- KEM_DECAPS (R359). -/
def execKemDecaps (l : LaneId) (s : State) : Host.Outcome State Fault Refusal := s.lift fun m => m.kemDecaps (1 + l.val)

/-- CIPHER_BADOP (R359). -/
def execCipherBadop (l : LaneId) (s : State) : Host.Outcome State Fault Refusal := s.lift fun m => m.cipherBad (1 + l.val)

end Sys2Proof.Machine
end

