-- ==== Sys2Proof/Machine/Inflate.lean ====
section
/-! DEFINITION. What an RFC 1951 stream decodes to (R374, R375). The format is that standard's, not the spec's (PRESUMED, log 2): a
stream is bits, each octet's least significant first; a code's bits come from its most significant on. -/

namespace Sys2Proof.Machine

open Sys2Proof

/-- Why decoding stops (R375): the stream is invalid, or it ends before its final block does. -/
inductive InflErr where
  | invalid | early
deriving DecidableEq, Repr

/-- The bits of octets, in order. -/
def streamBits (os : List Octet) : List Bool := os.flatMap fun o => (List.range 8).map fun i => nbit o.toNat i

/-- A number of `n` bits, its least significant first, and the bits after it. -/
def takeBits : Nat → List Bool → Except InflErr (Nat × List Bool)
  | 0, bs => .ok (0, bs)
  | _ + 1, [] => .error .early
  | n + 1, b :: bs => (takeBits n bs).map fun r => (b2n b + 2 * r.1, r.2)

/-- The symbols of a set of code lengths, in the order of their codes: by length, then by symbol, as (length, symbols). -/
def huffSyms (lens : List Nat) : List (Nat × List Nat) :=
  (List.range 15).map fun i => (i + 1, (List.range lens.length).filter fun s => lens.getD s 0 = i + 1)

/-- Whether a set of code lengths asks for more codes than there are. -/
def huffOver (lens : List Nat) : Bool := 2 ^ 15 < (lens.map fun l => if l = 0 then 0 else 2 ^ (15 - l)).foldl (· + ·) 0

/-- The next symbol: `code` so far, `first` the first code of the length to come. -/
def huffGo : List (Nat × List Nat) → Nat → Nat → List Bool → Except InflErr (Nat × List Bool)
  | [], _, _, _ => .error .invalid
  | _ :: _, _, _, [] => .error .early
  | (_, l) :: t, code, first, b :: bs =>
    let c := 2 * code + b2n b
    let f := 2 * first
    if c < f + l.length then .ok (l.getD (c - f) 0, bs) else huffGo t c (f + l.length) bs

/-- The next symbol of a code. -/
def huffNext (h : List (Nat × List Nat)) (bs : List Bool) : Except InflErr (Nat × List Bool) := huffGo h 0 0 bs

/-- The first length, and the bits that add to it, of the length symbols 257 on; and those of the distances. -/
def inflLens : List (Nat × Nat) :=
  [(3, 0), (4, 0), (5, 0), (6, 0), (7, 0), (8, 0), (9, 0), (10, 0), (11, 1), (13, 1), (15, 1), (17, 1), (19, 2), (23, 2), (27, 2)] ++
  [(31, 2), (35, 3), (43, 3), (51, 3), (59, 3), (67, 4), (83, 4), (99, 4), (115, 4), (131, 5), (163, 5), (195, 5), (227, 5), (258, 0)]
def inflDists : List (Nat × Nat) :=
  [(1, 0), (2, 0), (3, 0), (4, 0), (5, 1), (7, 1), (9, 2), (13, 2), (17, 3), (25, 3), (33, 4), (49, 4), (65, 5), (97, 5), (129, 6)] ++
  [(193, 6), (257, 7), (385, 7), (513, 8), (769, 8), (1025, 9), (1537, 9), (2049, 10), (3073, 10), (4097, 11), (6145, 11), (8193, 12),
   (12289, 12), (16385, 13), (24577, 13)]

/-- Octets copied from `d` octets back, the output newest first. -/
def copyBack (d : Nat) : Nat → List Octet → List Octet
  | 0, out => out
  | n + 1, out => copyBack d n (out.getD (d - 1) 0 :: out)

/-- What decoding has reached: the output, newest first, the bits left, and why it stopped, if it has. -/
abbrev InflSt := List Octet × List Bool × Option InflErr

/-- A stop of a part read from some bits on. -/
def inflStop (out : List Octet) (bs : List Bool) (e : InflErr) : InflSt := (out, bs, some e)

/-- The symbols of a block under its two codes; each takes at least a bit, so as many rounds as bits suffice. -/
def inflSyms (hl hd : List (Nat × List Nat)) : Nat → List Octet → List Bool → InflSt
  | 0, out, bs => inflStop out bs .early
  | n + 1, out, bs =>
    match huffNext hl bs with
    | .error e => inflStop out bs e
    | .ok (s, b1) =>
      if s < 256 then inflSyms hl hd n (BitVec.ofNat 8 s :: out) b1
      else if s = 256 then (out, b1, none)
      else match inflLens[s - 257]? with
        | none => inflStop out bs .invalid
        | some (l0, lb) =>
          let r := do
            let (lx, b2) ← takeBits lb b1
            let (ds, b3) ← huffNext hd b2
            match inflDists[ds]? with
            | none => .error .invalid
            | some (d0, db) =>
              let (dx, b4) ← takeBits db b3
              if out.length < d0 + dx then .error .invalid else .ok (l0 + lx, d0 + dx, b4)
          match r with
          | .error e => inflStop out bs e
          | .ok (len, d, b4) => inflSyms hl hd n (copyBack d len out) b4

/-- The code lengths of a block with codes of its own, `n` of them, newest first. -/
def inflCodeLens (hc : List (Nat × List Nat)) (n : Nat) : Nat → List Nat → List Bool → Except InflErr (List Nat × List Bool)
  | 0, _, _ => .error .early
  | k + 1, l, bs =>
    if l.length = n then .ok (l, bs)
    else if n < l.length then .error .invalid
    else do
      let (s, b1) ← huffNext hc bs
      if s < 16 then inflCodeLens hc n k (s :: l) b1
      else if s = 16 then
        match l with
        | [] => .error .invalid
        | p :: _ =>
          let (x, b2) ← takeBits 2 b1
          inflCodeLens hc n k (List.replicate (3 + x) p ++ l) b2
      else
        let (x, b2) ← takeBits (if s = 17 then 3 else 7) b1
        inflCodeLens hc n k (List.replicate ((if s = 17 then 3 else 11) + x) 0 ++ l) b2

/-- `n` lengths of 3 bits. -/
def takeThrees : Nat → List Bool → Except InflErr (List Nat × List Bool)
  | 0, bs => .ok ([], bs)
  | n + 1, bs => do
    let (x, b1) ← takeBits 3 bs
    let (l, b2) ← takeThrees n b1
    .ok (x :: l, b2)

/-- The order of the lengths of the code lengths' own code. -/
def inflOrder : List Nat := [16, 17, 18, 0, 8, 7, 9, 6, 10, 5, 11, 4, 12, 3, 13, 2, 14, 1, 15]

/-- The two codes of a block with codes of its own. -/
def inflTables (bs : List Bool) : Except InflErr (List (Nat × List Nat) × List (Nat × List Nat) × List Bool) := do
  let (hlit, b1) ← takeBits 5 bs
  let (hdist, b2) ← takeBits 5 b1
  let (hclen, b3) ← takeBits 4 b2
  let (ls, b4) ← takeThrees (hclen + 4) b3
  let cl := (List.range 19).map fun s => ls.getD (inflOrder.idxOf s) 0
  if 29 < hlit || huffOver cl then .error .invalid
  else
    let (l, b5) ← inflCodeLens (huffSyms cl) (hlit + 257 + hdist + 1) 400 [] b4
    let all := l.reverse
    let ll := all.take (hlit + 257)
    let dl := all.drop (hlit + 257)
    if huffOver ll || huffOver dl then .error .invalid else .ok (huffSyms ll, huffSyms dl, b5)

/-- The codes that are fixed. -/
def fixedLit : List (Nat × List Nat) :=
  huffSyms (List.replicate 144 8 ++ List.replicate 112 9 ++ List.replicate 24 7 ++ List.replicate 8 8)
def fixedDist : List (Nat × List Nat) := huffSyms (List.replicate 30 5)

/-- A stored block from its first whole octet on. -/
def inflStored (out : List Octet) (bs : List Bool) : InflSt :=
  let b0 := bs.drop (bs.length % 8)
  match (do
    let (len, b1) ← takeBits 16 b0
    let (nlen, b2) ← takeBits 16 b1
    .ok (len, nlen, b2) : Except InflErr (Nat × Nat × List Bool)) with
  | .error e => inflStop out bs e
  | .ok (len, nlen, b2) =>
    if len + nlen ≠ 65535 then inflStop out bs .invalid
    else
      let k := min len (b2.length / 8)
      let os := (List.range k).map fun i =>
        BitVec.ofNat 8 ((List.range 8).foldl (fun a j => a + b2n (b2.getD (8 * i + j) false) * 2 ^ j) 0)
      (os.reverse ++ out, b2.drop (8 * k), if k < len then some .early else none)

/-- Blocks up to the final one; each takes at least three bits. -/
def inflBlocks : Nat → List Octet → List Bool → InflSt
  | 0, out, bs => inflStop out bs .early
  | n + 1, out, bs =>
    match (do
      let (fin, b1) ← takeBits 1 bs
      let (typ, b2) ← takeBits 2 b1
      .ok (fin, typ, b2) : Except InflErr (Nat × Nat × List Bool)) with
    | .error e => inflStop out bs e
    | .ok (fin, typ, b2) =>
      let r := match typ with
        | 0 => inflStored out b2
        | 1 => inflSyms fixedLit fixedDist (b2.length + 1) out b2
        | 2 => (match inflTables b2 with
          | .error e => inflStop out bs e
          | .ok (hl, hd, b3) => inflSyms hl hd (b3.length + 1) out b3)
        | _ => inflStop out bs .invalid
      match r.2.2 with
      | some _ => r
      | none => if fin = 1 then r else inflBlocks n r.1 r.2.1

/-- What a stream decodes to: the octets decoded before the end or the first failure, how many octets were consumed, all where the
stream ends early, and 0 for a whole stream, 1 for an invalid one, 2 for one that ends early. -/
def inflate (os : List Octet) : List Octet × Nat × Nat :=
  let bs := streamBits os
  let r := inflBlocks (bs.length + 1) [] bs
  let used := (bs.length - r.2.1.length + 7) / 8
  match r.2.2 with
  | none => (r.1.reverse, used, 0)
  | some .invalid => (r.1.reverse, used, 1)
  | some .early => (r.1.reverse, os.length, 2)

/-- Octets as stored blocks, `n` of them before the final one, of 65,535 octets each. -/
def storedBlocks : Nat → List Octet → List Octet
  | 0, os => [1#8] ++ (octetsBE 2 os.length).reverse ++ (octetsBE 2 (65535 - os.length)).reverse ++ os
  | n + 1, os => [0#8, 0xFF#8, 0xFF#8, 0#8, 0#8] ++ os.take 65535 ++ storedBlocks n (os.drop 65535)

/-- A stream of stored blocks that decodes to some octets. -/
def storedStream (os : List Octet) : List Octet := storedBlocks ((os.length - 1) / 65535) os

end Sys2Proof.Machine
end

