-- ==== Sys2Proof/Machine/Compress.lean ====
section
/-! DEFINITION. The compression lanes' operations: descriptors, chains, check tables, the result area and results (R372 to
R381). -/

namespace Sys2Proof.Machine

open Sys2Proof

/-! ### The descriptor (R372, R374) -/

/-- The fields of D0. -/
def Lane.compat (l : Lane) : Bool := nbit (l.words.getD 0 0).toNat 39
def Lane.zlib (l : Lane) : Bool := nbit (l.words.getD 0 0).toNat 38
def Lane.effort (l : Lane) : Nat := nbits (l.words.getD 0 0).toNat 37 36
def Lane.ratio (l : Lane) : Nat := nbits (l.words.getD 0 0).toNat 35 34

/-- Octets of a DEFLATE block, and how many blocks some octets make (R378). -/
def deflBlock : Nat := 3072
def deflBlocks (n : Nat) : Nat := (n + 3071) / 3072

/-- A descriptor fault (R372, R376, R379). -/
def packDescBad (l : Lane) (op : Nat) : Bool :=
  let d0 := (l.words.getD 0 0).toNat
  let frb : Bool := op ≤ 2
  nbits d0 33 0 ≠ 0 || (frb && l.compat) || (if op = 3 then l.effort = 3 else l.effort ≠ 0) ||
    (if op = 1 then l.ratio = 0 || l.ratio = 3 else l.ratio ≠ 0) ||
    [1, 3, 5, 7].any (fun i => nbits (l.words.getD i 0).toNat 47 40 ≠ 0) ||
    [2, 4].any (fun i => nbits (l.words.getD i 0).toNat 47 32 ≠ 0) || nbits (l.words.getD 6 0).toNat 47 16 ≠ 0 ||
    (!l.compat && l.len 6 ≠ 0) || (!frb && !l.compat && l.addr 3 % 4 ≠ 0) ||
    (op = 3 && 16 < deflBlocks (l.len 2) && l.words.getD 5 0 = 0)

/-- The lengths of R374. -/
def packLenOk (l : Lane) (op : Nat) : Bool :=
  if op ≤ 2 then 1 ≤ l.len 2 && l.len 2 ≤ 1024
  else (op = 3 || 1 ≤ l.len 2) && l.len 2 ≤ 16777216 && 1 ≤ l.len 4 && l.len 4 ≤ 268435456 &&
    (!l.compat || (1 ≤ l.len 6 && l.len 6 ≤ 10922 && l.len 4 ≤ 65536))

/-- A lane of a block whose job has started and stands at operation `op`. -/
def Mach.packAt (m : Mach) (b op : Nat) : Bool :=
  let l := m.laneB b
  m.up && l.job.isSome && l.res.isNone && 2 ≤ l.kind && l.gen = m.carGen l.carrel && cipherOp l.words = op

/-- A compression job run by `f` after the checks of R372. -/
def Mach.packJob (m : Mach) (b op : Nat) (f : Mach → Lane → Mach) : Mach :=
  if !m.packAt b op then m
  else
    let l := m.laneB b
    if packDescBad l op then m.laneGives b { code := 9 }
    else if !packLenOk l op then m.laneGives b { code := 0xA }
    else f m l

/-! ### The result area (R373) -/

/-- The result area of a DEFLATE job. -/
def deflArea (used out adler : Nat) : List Word := [w48 used, w48 out, w48 adler, 0]

/-- A word of the fit map: bits of the blocks from `32 i` on. -/
def fitWord (fits : List Bool) (i : Nat) : Word :=
  w48 ((List.range 32).foldl (fun n k => if fits.getD (32 * i + k) false then n + 2 ^ k else n) 0)

/-- Adler-32 (RFC 1950). -/
def adler32 (os : List Octet) : Nat :=
  let r := os.foldl (fun (x : Nat × Nat) o =>
    let a := (x.1 + o.toNat) % 65521
    (a, (x.2 + a) % 65521)) (1, 0)
  r.2 * 65536 + r.1

/-- S2 of a job over its uncompressed data. -/
def Lane.adler (l : Lane) (os : List Octet) : Nat := if l.zlib then adler32 os else 0

/-- The result area of an FRB job: the blocks treated, in order, with whether each fitted, the octets written and S2. -/
def frbArea (fits : List Bool) (out adler : Nat) : List Word :=
  [w48 fits.length, w48 out, w48 adler, w48 (fits.filter id).length] ++ (List.range 32).map (fitWord fits)

/-! ### FRB (R380) -/

/-- The words of a slot for a RATIO. -/
def slotWords (ratio : Nat) : Nat := if ratio = 1 then 256 else 128

/-- Words written from an address on. -/
def wordWrites (a : Nat) (ws : List Word) : List (Nat × Word) :=
  ((List.range ws.length).zip ws).map fun e => ((a + e.1) % 2 ^ 40, e.2)

/-- Words cut or zero-filled to a number. -/
def fitWords (n : Nat) (ws : List Word) : List Word := (ws ++ List.replicate (n - ws.length) 0).take n

/-- A slot's header (R380). -/
def slotHeader (ratio : Nat) (crcv : Bool) (block : List Word) : Word :=
  w48 (0xA * 2 ^ 44 + ratio * 2 ^ 42 + b2n crcv * 2 ^ 41 + (if crcv then crc32c (octetsOfWords block) else 0))

/-- The code of a block for a RATIO, none where it does not fit its slot. What the lane writes decodes to the block (R378, R380). -/
def frbCoded (ratio : Nat) (block : List Word) : Option (List Word) :=
  (Config.frbCode ratio block).filter fun c => fitWords 512 (Config.frbDecode ratio (fitWords (slotWords ratio - 1) c)) = block

/-- Blocks coded one after another from block `k` on, `n` of them left: the writes, the fits so far, the error that stops it. -/
def frbPackLoop (m : Mach) (l : Lane) (crcv : Bool) : Nat → Nat → List (Nat × Word) → List Bool →
    List (Nat × Word) × List Bool × Option LaneRes
  | 0, _, ws, fits => (ws, fits, none)
  | n + 1, k, ws, fits =>
    match m.carReadN l.carrel l.sr (l.addr 1 + 512 * k) 512 with
    | .error e => (ws, fits, some (readErr false e))
    | .ok block =>
      match frbCoded l.ratio block with
      | none => frbPackLoop m l crcv n (k + 1) ws (fits ++ [false])
      | some code =>
        let sz := slotWords l.ratio
        let slot := slotHeader l.ratio crcv block :: fitWords (sz - 1) code
        frbPackLoop m l crcv n (k + 1) (ws ++ wordWrites (l.addr 3 + k * sz) slot) (fits ++ [true])

/-- The first `n` octets of a job's input that it has read. -/
def Mach.inputOctets (m : Mach) (l : Lane) (n : Nat) : List Octet :=
  match m.carReadN l.carrel l.sr (l.addr 1) ((n + 5) / 6) with
  | .ok ws => (octetsOfWords ws).take n
  | .error _ => []

/-- FRB_PACK (R378 to R380): a job of at most 16 blocks that meets an error has written nothing. -/
def Mach.frbPack (m : Mach) (b : Nat) : Mach :=
  m.packJob b 1 fun m l =>
    let n := l.len 2
    let (ws, fits, e) := frbPackLoop m l (16 < n) n 0 [] []
    let got := (fits.filter id).length
    let kept := e.isNone || 16 < n
    let words := if kept then got * slotWords l.ratio else 0
    let r := e.getD { code := if got = n then 0 else 1 }
    (m.met l.carrel l.sr (l.addr 1) (512 * n)).laneGives b { r with
      writes := if kept then ws else [], areaAt := l.addr 7
      area := frbArea fits (6 * words) (l.adler (m.inputOctets l (3072 * fits.length)))
      inOct := 3072 * fits.length, outOct := 6 * words, nofit := fits.length - got }

/-- Slots decoded one after another from slot `k` on: the writes, how many, what stops it. -/
def frbUnpackLoop (m : Mach) (l : Lane) (ratio : Nat) : Nat → Nat → List (Nat × Word) → List (Nat × Word) × Nat × Option LaneRes
  | 0, k, ws => (ws, k, none)
  | n + 1, k, ws =>
    let sz := slotWords ratio
    match m.carReadN l.carrel l.sr (l.addr 1 + sz * k) sz with
    | .error e => (ws, k, some (readErr false e))
    | .ok slot =>
      let h := (slot.getD 0 0).toNat
      if nbits h 47 44 ≠ 0xA || nbits h 43 42 ≠ ratio then (ws, k, some { code := 4 })
      else
        let block := fitWords 512 (Config.frbDecode ratio (slot.drop 1))
        if nbit h 41 && crc32c (octetsOfWords block) ≠ h % 2 ^ 32 then (ws, k, some { code := 6 })
        else frbUnpackLoop m l ratio n (k + 1) (ws ++ wordWrites (l.addr 3 + 512 * k) block)

/-- FRB_UNPACK (R379, R380): the slot size is the first header's. -/
def Mach.frbUnpack (m : Mach) (b : Nat) : Mach :=
  m.packJob b 2 fun m l =>
    let (ws, k, e) : List (Nat × Word) × Nat × Option LaneRes :=
      match m.carRead l.carrel l.sr (l.addr 1) with
      | .error e => ([], 0, some (readErr false e))
      | .ok h =>
        let ratio := nbits h.toNat 43 42
        if nbits h.toNat 47 44 ≠ 0xA || ratio = 0 || ratio = 3 then ([], 0, some { code := 4 })
        else frbUnpackLoop m l ratio (l.len 2) 0 []
    (m.met l.carrel l.sr (l.addr 1) (128 * l.len 2)).laneGives b { (e.getD {}) with
      writes := ws, areaAt := l.addr 7
      area := frbArea (List.replicate k true) (3072 * k) (l.adler (octetsOfWords (ws.map Prod.snd)))
      inOct := 3072 * k, outOct := 3072 * k }

/-! ### Output of DEFLATE jobs (R376, R377) -/

/-- What a chain took: the output writes, for each buffer used where its B3 lies, its first output word and its octets, the octets
written in all, and what stopped it. -/
structure ChainOut where
  writes : List (Nat × Word) := []
  b3 : List (Nat × Nat × Nat) := []
  octets : Nat := 0
  stop : Option LaneRes := none
deriving DecidableEq, Repr

/-- Octets put into a chain of buffers from the entry at `a` on, with at most `n` entries: it stops NOSPACE after the last. -/
def chainPut (m : Mach) (l : Lane) : Nat → Nat → List Octet → ChainOut → ChainOut
  | 0, _, os, c => if os.isEmpty then c else { c with stop := some { code := 3 } }
  | n + 1, a, os, c =>
    if os.isEmpty then c
    else match m.carReadN l.carrel l.sr a 4 with
      | .error e => { c with stop := some (readErr false e) }
      | .ok ws =>
        let len := (ws.getD 1 0).toNat % 2 ^ 32
        let now := os.take (6 * len)
        let c1 : ChainOut :=
          { writes := c.writes ++ octetWrites ((ws.getD 0 0).toNat % 2 ^ 40) now
            b3 := c.b3 ++ (if now.isEmpty then [] else [((a + 3) % 2 ^ 40, c.writes.length, now.length)])
            octets := c.octets + now.length }
        let rest := os.drop (6 * len)
        if rest.isEmpty then c1
        else if nbit (ws.getD 2 0).toNat 47 then { c1 with stop := some { code := 3 } }
        else chainPut m l n ((ws.getD 2 0).toNat % 2 ^ 40) rest c1

/-- A DEFLATE job's output (R376, R377): of the octets `os` those up to D4 go out; `after` is what the job ends with where all
of them do. -/
def deflOut (m : Mach) (l : Lane) (os : List Octet) (after : LaneRes) : ChainOut × LaneRes :=
  let r1 : LaneRes := if l.len 4 < os.length then { code := 2 } else after
  let now := os.take (l.len 4)
  if l.compat then
    if 6 * l.len 6 < now.length then ({}, { code := 3 })
    else if r1.code ≠ 0 || r1.err.isSome || r1.fault ≠ 0 then ({}, r1)
    else ({ writes := octetWrites (l.addr 3) now, octets := now.length }, r1)
  else
    let c := chainPut m l 4096 (l.addr 3) now {}
    (c, c.stop.getD r1)

/-- The answer of a DEFLATE job with its result area: COMPAT output goes out whole or not at all (R377). -/
def deflRes (l : Lane) (c : ChainOut) (r : LaneRes) (table : List (Nat × Word)) (used : Nat) (data : List Octet) : LaneRes :=
  { r with
    writes := c.writes, whole := l.compat, b3 := c.b3, aux := table, areaAt := l.addr 7
    area := deflArea used c.octets (l.adler data), inOct := used, outOct := c.octets }

/-! ### DEFLATE (R374 to R379) -/

/-- The RFC 1950 wrapper of a stream. -/
def zlibWrap (stream data : List Octet) : List Octet := [0x78#8, 0x01#8] ++ stream ++ octetsBE 4 (adler32 data)

/-- The blocks of some octets. -/
def deflChunks : Nat → List Octet → List (List Octet)
  | 0, _ => []
  | n + 1, os => os.take deflBlock :: deflChunks n (os.drop deflBlock)

/-- The check table of a DEFL-PACK job of more than 16 blocks (R379). -/
def checkTable (l : Lane) (os : List Octet) : List (Nat × Word) :=
  if deflBlocks os.length ≤ 16 then []
  else wordWrites (l.addr 5) ((deflChunks (deflBlocks os.length) os).map fun b => w48 (crc32c b))

/-- The stream of some data with an EFFORT: stored blocks only for 0 (R372), else one that decodes to them, whole (R374, R378); where
the part's own does not, it is not what a lane writes, and stored blocks stand for it. -/
def deflStream (effort : Nat) (os : List Octet) : List Octet :=
  let s := Config.deflate effort os
  if effort ≠ 0 && inflate s = (os, s.length, 0) then s else storedStream os

/-- DEFL_PACK: how much input a job that ran out of output had consumed is a free value. -/
def Mach.deflPack (m : Mach) (b : Nat) : Mach :=
  m.packJob b 3 fun m l =>
    match m.carReadN l.carrel l.sr (l.addr 1) (octetWords (l.len 2)) with
    | .error e => m.laneGives b (deflRes l {} (readErr false e) [] 0 [])
    | .ok ws =>
      let data := (octetsOfWords ws).take (l.len 2)
      let stream := deflStream l.effort data
      let (c, r) := deflOut m l (if l.zlib then zlibWrap stream data else stream) {}
      let (f, m1) := m.draw
      let used := if r.code = 0 && r.err.isNone then l.len 2 else f % (l.len 2 + 1)
      (m1.met l.carrel l.sr (l.addr 1) (octetWords (l.len 2))).laneGives b
        (deflRes l c r (if l.compat && r.code ≠ 0 then [] else checkTable l data) used data)

/-- What a stream decodes to (R375): the output, the octets consumed and the result, before any limit. -/
def inflateJob (l : Lane) (os : List Octet) : List Octet × Nat × Nat :=
  if !l.zlib then
    let (out, used, st) := inflate os
    (out, used, if st = 0 then 0 else if st = 1 then 4 else 8)
  else if os.length < 2 then ([], os.length, 8)
  else
    let cmf := octField os 0 1
    let flg := octField os 1 1
    if cmf % 16 ≠ 8 || 7 < cmf / 16 || (cmf * 256 + flg) % 31 ≠ 0 then ([], 2, 4)
    else if nbit flg 5 then ([], 2, 7)
    else
      let (out, used, st) := inflate (os.drop 2)
      let tail := (os.drop (2 + used)).take 4
      if st ≠ 0 then (out, 2 + used, if st = 1 then 4 else 8)
      else if tail.length < 4 then (out, 2 + used + tail.length, 8)
      else (out, 6 + used, if natOfOctets tail = adler32 out then 0 else 5)

/-- The first block of decoded output whose CRC-32C differs from the table's (R379): whole blocks, and the last one of a stream
that ended. -/
def badBlock (table : List Word) (out : List Octet) (ended : Bool) : Option Nat :=
  let n := if ended then deflBlocks out.length else out.length / deflBlock
  findLt n fun k => crc32c ((out.drop (deflBlock * k)).take deflBlock) ≠ (table.getD k 0).toNat % 2 ^ 32

/-- DEFL_UNPACK (R375 to R379): how much input a job that met its output bound had consumed is a free value. -/
def Mach.deflUnpack (m : Mach) (b : Nat) : Mach :=
  m.packJob b 4 fun m l =>
    match m.carReadN l.carrel l.sr (l.addr 1) (octetWords (l.len 2)) with
    | .error e => m.laneGives b (deflRes l {} (readErr false e) [] 0 [])
    | .ok ws =>
      let (out, used, code) := inflateJob l ((octetsOfWords ws).take (l.len 2))
      let blocks := if l.words.getD 5 0 = 0 then 0 else deflBlocks (min out.length (l.len 4))
      match m.carReadN l.carrel l.sr (l.addr 5) blocks with
      | .error e => m.laneGives b (deflRes l {} (readErr false e) [] 0 [])
      | .ok table =>
        let bad := if blocks = 0 then none else (badBlock table out (code = 0)).filter (· < blocks)
        let (os, after) : List Octet × Nat := match bad with
          | some k => (out.take (deflBlock * k), 6)
          | none => (out, code)
        let (c, r) := deflOut m l os { code := after }
        let (f, m1) := m.draw
        let whole := bad.isNone && r.code = code && r.err.isNone
        ((m1.met l.carrel l.sr (l.addr 1) (octetWords (l.len 2))).met l.carrel l.sr (l.addr 5) blocks).laneGives b
          (deflRes l c r [] (if whole then used else f % (l.len 2 + 1)) os)

/-! ### The commands -/

/-- FRB_PACK (R380). -/
def execFrbPack (l : XLaneId) (s : State) : Host.Outcome State Fault Refusal := s.lift fun m => m.frbPack (9 + l.val)

/-- FRB_UNPACK (R380). -/
def execFrbUnpack (l : XLaneId) (s : State) : Host.Outcome State Fault Refusal := s.lift fun m => m.frbUnpack (9 + l.val)

/-- DEFL_PACK (R376). -/
def execDeflPack (l : XLaneId) (s : State) : Host.Outcome State Fault Refusal := s.lift fun m => m.deflPack (9 + l.val)

/-- DEFL_UNPACK (R376). -/
def execDeflUnpack (l : XLaneId) (s : State) : Host.Outcome State Fault Refusal := s.lift fun m => m.deflUnpack (9 + l.val)

end Sys2Proof.Machine
end

