-- ==== Sys2Proof/Machine/Microcode.lean ====
section
/-! DEFINITION. Microcode: tip-in loads and activation, and sequencer faults (R384 to R395). -/

namespace Sys2Proof.Machine

open Sys2Proof

/-! ### Packages (R390, R391) -/

/-- The number of words of a package. -/
def tipWords : Nat := 982

/-- T0 to T209. -/
def tipBody (ws : List Word) : List Word := ws.take 210

/-- The octets of the signature. -/
def tipSig (ws : List Word) : List Octet := (octetsOfWords (ws.drop 210)).take 4627

/-- VERSION. -/
def tipVersion (ws : List Word) : Nat := nbits (ws.getD 1 0).toNat 31 16

/-- MAGIC, FORMAT and the zero fields of T0 to T17 are as R390 gives them. -/
def tipFormat (ws : List Word) : Bool :=
  ws.getD 0 0 = w48 0x544900000001 && nbits (ws.getD 1 0).toNat 15 0 = 0 &&
    (List.range 16).all fun i =>
      let e := (tipMatch ws i).toNat
      nbits e 46 45 = 0 && nbits e 39 38 = 0 && nbits e 31 14 = 0

/-- Two enabled entries share a ROMADDR and a CLASS bit. -/
def tipClash (ws : List Word) : Bool :=
  (List.range 16).any fun i => (List.range i).any fun j =>
    let a := tipMatch ws i
    let b := tipMatch ws j
    fbit a F.ucMatchEn && fbit b F.ucMatchEn && fget a F.ucMatchRomaddr = fget b F.ucMatchRomaddr &&
      fget a F.ucMatchClass &&& fget b F.ucMatchClass ≠ 0

/-- Every page of a package at an address is marked. -/
def Mach.tipMarked (m : Mach) (a : Nat) : Bool :=
  a + tipWords ≤ memWords && m.srAddr a && m.srAddr (a + tipWords - 1)

/-- The words of a package at an address. -/
def Mach.tipAt (m : Mach) (a : Nat) : List Word := (List.range tipWords).map fun i => (m.coh (a + i)).pay

/-- The result of the checks of R391, step 3, in their order. -/
def Mach.tipErr (m : Mach) (a : Nat) (ws : List Word) : Nat :=
  if !m.tipMarked a then 8
  else if !tipFormat ws then 3
  else if nbits (ws.getD 1 0).toNat 47 32 ≠ (m.reg Reg.ucRomid).toNat % 65536 then 4
  else if tipVersion ws ≤ m.fld Reg.ucTver F.ucTverVersion then 5
  else if tipClash ws then 7
  else if !Config.mldsaVerify (imgPk m.sr.image.head) (octetsOfWords (tipBody ws)) "PFL4800-TIPIN" (tipSig ws) then 6
  else 0

/-- UC_RES given. -/
def Mach.ucRes (m : Mach) (e : Nat) : Mach := m.setReg Reg.ucRes (w48 e)

/-- A load or an activation is in progress. -/
def Mach.ucBusy (m : Mach) : Bool := m.uc.loading.isSome || m.bit Reg.ucStat F.ucStatActivating

/-- A write of UC_CTL.LOAD (R391); the bit reads 1 while the load runs (R11). -/
def Mach.tipLoad (m : Mach) : Mach :=
  if m.restarting then m.ucRes 2
  else if m.ucBusy then m.ucRes 1
  else (({ m with uc := { m.uc with loading := some (m.reg Reg.ucLoadaddr).toNat } } : Mach).setFld Reg.ucStat F.ucStatLoading 1).setFld
    Reg.ucCtl F.ucCtlLoad 1

/-- TIPIN_LOAD_DONE (R391): the package staged and measured, or the load refused. One that a strongroom restart overtakes is
refused PAUSED. -/
def Mach.tipLoadDone (m : Mach) : Mach :=
  match m.uc.loading with
  | none => m
  | some a =>
    let ws := m.tipAt a
    let e := if m.restarting then 2 else m.tipErr a ws
    let m1 := ((({ m with uc := { m.uc with loading := none } } : Mach).setFld Reg.ucStat F.ucStatLoading 0).setFld
      Reg.ucCtl F.ucCtlLoad 0).ucRes e
    if e ≠ 0 then m1
    else
      let d := (sha3_512 (octetsOfWords (tipBody ws) ++ tipSig ws)).toNat
      let m2 := ({ m1 with uc := { m1.uc with staged := some (tipBody ws) } } : Mach).setFld Reg.ucStat F.ucStatStaged 1
      (m2.extendMeas 3 d).logMeas 3 4 d

/-- A write of UC_CTL.ACTIVATE (R392); the bit reads 1 until the activation completes (R11). -/
def Mach.tipActivate (m : Mach) : Mach :=
  if m.ucBusy then m.ucRes 1
  else if m.uc.staged.isNone then m.ucRes 9
  else ((m.setFld Reg.ucStat F.ucStatActivating 1).setFld Reg.ucCtl F.ucCtlActivate 1).ucRes 0

/-- TIPIN_ACTIVATE_DONE (R392): every sequencer has switched to the staged bank. -/
def Mach.tipActivated (m : Mach) : Mach :=
  match m.uc.staged with
  | none => m
  | some ws =>
    if !m.bit Reg.ucStat F.ucStatActivating then m
    else
      let m1 : Mach := { m with uc := { m.uc with staged := none, active := some ws } }
      let m2 := (List.range 16).foldl (fun x i => x.setReg (Reg.ucMatch i) (tipMatch ws i)) m1
      let m3 := m2.setReg Reg.ucTver (fset (fset 0 F.ucTverActive 1) F.ucTverVersion (tipVersion ws))
      (((m3.setFld Reg.ucStat F.ucStatStaged 0).setFld Reg.ucStat F.ucStatActivating 0).setFld Reg.ucCtl F.ucCtlActivate 0).raise 27

/-- A write of UC_CTL from the strongroom: LOAD, then ACTIVATE. -/
def Mach.ucCtlSet (m : Mach) (w : Who) (v : Word) : Mach :=
  if !w.sr then m
  else
    let m1 := if fbit v F.ucCtlLoad then m.tipLoad else m
    if fbit v F.ucCtlActivate then m1.tipActivate else m1

/-! ### Sequencer faults (R386) -/

/-- A sequencer fault of a class at sequencer `i`: counted, then handled as its block's internal fault. A decimal unit's is a
fault of its seat's core: a mismatch of a locked pair, a parity error of a split core. -/
def Mach.sequencerFault (m : Mach) (cls i : Nat) : Mach :=
  let m1 := (m.count Reg.ucFaults).seqReset cls i
  match cls with
  | 0 => m1.faultEngine i
  | 1 => m1.moduleLost
  | 2 => if i < 8 then m1.laneEnd (i + 1) 3 else m
  | 3 => if i < 4 then m1.laneEnd (i + 9) 3 else m
  | _ => if m.seatLive i then (if m.locked (cluOf i) then m1.lockMismatch i else m1.parityError i false) else m

/-! ### The commands -/

/-- TIPIN_LOAD (R391). -/
def execTipinLoad (w : Who) (v : Word) (s : State) : Host.Outcome State Fault Refusal :=
  s.lift fun m => m.ucCtlSet w (fset v F.ucCtlLoad 1)

/-- TIPIN_LOAD_DONE (R391). -/
def execTipinLoadDone (s : State) : Host.Outcome State Fault Refusal := s.lift Mach.tipLoadDone

/-- TIPIN_ACTIVATE (R392). -/
def execTipinActivate (w : Who) (v : Word) (s : State) : Host.Outcome State Fault Refusal :=
  s.lift fun m => m.ucCtlSet w (fset v F.ucCtlActivate 1)

/-- TIPIN_ACTIVATE_DONE (R392). -/
def execTipinActivateDone (s : State) : Host.Outcome State Fault Refusal := s.lift Mach.tipActivated

/-- SEQUENCER_FAULT (R386). -/
def execSequencerFault (cls : Fin 5) (i : Fin 64) (s : State) : Host.Outcome State Fault Refusal :=
  s.lift fun m => if m.up then m.sequencerFault cls.val i.val else m

end Sys2Proof.Machine
end

