-- ==== Sys2Proof/Machine/SystemCmds.lean ====
section
/-! DEFINITION. The commands of the memory system, the cluster and its debugger, and the strongroom (R302 to R358). A command
that names a write of one register performs it with the bit or operation the row names. -/

namespace Sys2Proof.Machine

open Sys2Proof

/-! ### Memory (R328 to R335) -/

/-- DEVICE_FAIL (R328). -/
def execDeviceFail (d : DevId) (cause : Fin 4) (s : State) : Host.Outcome State Fault Refusal :=
  s.lift fun m => m.deviceFail d.val cause.val

/-- DEVICE_TRAINING_START (R330). -/
def execDeviceTrainingStart (s : State) : Host.Outcome State Fault Refusal := s.lift Mach.trainStart

/-- DEVICE_TRAINING_END (R330). -/
def execDeviceTrainingEnd (pass : Bool) (s : State) : Host.Outcome State Fault Refusal := s.lift fun m => m.trainEnd pass

/-- PATROL_SCRUB_LINE (R332). -/
def execPatrolScrubLine (err : LineErr) (s : State) : Host.Outcome State Fault Refusal := s.lift fun m => m.scrubLine err

/-- MEM_SRPAGE_WRITE (R333). -/
def execMemSrpageWrite (w : Who) (v : Word) (s : State) : Host.Outcome State Fault Refusal := s.lift fun m => m.srPageSet w v

/-- SRPAGE_MARK_DONE (R333). -/
def execSrpageMarkDone (s : State) : Host.Outcome State Fault Refusal := s.lift Mach.srPageDone

/-- CHG_SCAN (R334). -/
def execChgScan (w : Who) (v : Word) (s : State) : Host.Outcome State Fault Refusal :=
  s.lift fun m => m.chgReqSet w (fset v F.memChgreqGo 1)

/-- CHG_SCAN_DONE (R334). -/
def execChgScanDone (s : State) : Host.Outcome State Fault Refusal := s.lift Mach.chgScanDone

/-- MEM_INIT_COMPLETE (R335). -/
def execMemInitComplete (failed : List DevId) (s : State) : Host.Outcome State Fault Refusal :=
  s.lift fun m => m.memInitDone (failed.map Fin.val)

/-! ### Lockstep, sparing and tests of units (R307 to R316) -/

/-- LOCKSTEP_MISMATCH (R307). -/
def execLockstepMismatch (q : SeatId) (s : State) : Host.Outcome State Fault Refusal := s.lift fun m => m.lockMismatch q.val

/-- SPARING_COMPLETE (R308). -/
def execSparingComplete (q : SeatId) (s : State) : Host.Outcome State Fault Refusal := s.lift fun m => m.finishMove q.val

/-- COMPARATOR_SELFTEST (R312). -/
def execComparatorSelftest (q : SeatId) (pass : Bool) (s : State) : Host.Outcome State Fault Refusal :=
  s.lift fun m => m.selfTest q.val pass

/-- DUAL_RAIL_VIOLATION (R312). -/
def execDualRailViolation (q : SeatId) (s : State) : Host.Outcome State Fault Refusal := s.lift fun m => m.railFault q.val

/-- CORE_CODE_ERROR (R313). -/
def execCoreCodeError (q : SeatId) (site : CodeSite) (s : State) : Host.Outcome State Fault Refusal :=
  s.lift fun m => m.codeError q.val site

/-- SPLIT_PARITY_ERROR (R313). -/
def execSplitParityError (q : SeatId) (left : Bool) (s : State) : Host.Outcome State Fault Refusal :=
  s.lift fun m => m.parityError q.val left

/-- CLUSTER_FAULT (R313). -/
def execClusterFault (c : CluId) (s : State) : Host.Outcome State Fault Refusal := s.lift fun m => m.clusterFault c.val

/-- BIST_COMPLETE (R311). -/
def execBistComplete (c : CluId) (u : UnitId) (pass : Bool) (s : State) : Host.Outcome State Fault Refusal :=
  s.lift fun m => m.bistDone c.val u.val pass

/-- ROTATION (R314). -/
def execRotation (c : CluId) (s : State) : Host.Outcome State Fault Refusal := s.lift fun m => m.rotation c.val

/-- BIST_SEAT (R315). -/
def execBistSeat (w : Who) (c : CluId) (v : Word) (s : State) : Host.Outcome State Fault Refusal :=
  s.lift fun m => m.bistReqSet w c.val (fset v F.cluBistreqOp 1)

/-- BIST_UNIT (R315). -/
def execBistUnit (w : Who) (c : CluId) (v : Word) (s : State) : Host.Outcome State Fault Refusal :=
  s.lift fun m => m.bistReqSet w c.val (fset v F.cluBistreqOp 2)

/-- SEAT_RESET (R316). -/
def execSeatReset (w : Who) (q : SeatId) (v : Word) (s : State) : Host.Outcome State Fault Refusal :=
  s.lift fun m => m.seatResetSet w q.val (v ||| 1)

/-! ### Debug (R318, R319) -/

/-- DEBUG_HALT (R319). -/
def execDebugHalt (q : SeatId) (s : State) : Host.Outcome State Fault Refusal := s.lift fun m => m.dbgHalt q.val

/-- DEBUG_RESUME (R319). -/
def execDebugResume (q : SeatId) (s : State) : Host.Outcome State Fault Refusal := s.lift fun m => m.dbgResume q.val

/-- DEBUG_STEP (R319). -/
def execDebugStep (q : SeatId) (s : State) : Host.Outcome State Fault Refusal := s.lift fun m => m.dbgStep q.val

/-- DEBUG_WRITE (R319). -/
def execDebugWrite (q : SeatId) (tgt : DbgTarget) (v : Word) (s : State) : Host.Outcome State Fault Refusal :=
  s.lift fun m => m.dbgRun q.val (dbgWriteBody q.val tgt v)

/-- DEBUG_MEMORY_ACCESS (R319). -/
def execDebugMemoryAccess (q : SeatId) (store : Bool) (a v : Word) (s : State) : Host.Outcome State Fault Refusal :=
  s.lift fun m => m.dbgRun q.val (dbgMemBody q.val store a v)

/-- DEBUG_READ (R318). -/
def execDebugRead (q : SeatId) (tgt : DbgTarget) (s : State) : Host.Outcome State Fault Refusal :=
  s.lift fun m => m.dbgRead q.val tgt

/-! ### The core self window (R238) -/

/-- CORE_XFLUSH_WRITE (R238). -/
def execCoreXflushWrite (q : SeatId) (v : Word) (s : State) : Host.Outcome State Fault Refusal :=
  s.lift fun m => m.selfSet (m.coreWho q.val) q.val 0x02 v

/-- CORE_XROOT_WRITE (R238): CORE_XROOT, or CORE_XROOT_SR with `sr`. -/
def execCoreXrootWrite (q : SeatId) (sr : Bool) (v : Word) (s : State) : Host.Outcome State Fault Refusal :=
  s.lift fun m => m.selfSet (m.coreWho q.val) q.val (b2n sr) v

/-! ### The strongroom (R338 to R358) -/

/-- What only the strongroom world may do (R358). -/
def Mach.bySr (m : Mach) (w : Who) (x : Mach) : Mach := if w.sr then x else m

/-- BOOT_IMAGE_VERIFY (R352). -/
def execBootImageVerify (a b : List Octet) (s : State) : Host.Outcome State Fault Refusal := s.lift fun m => m.bootVerify a b

/-- SR_ATTR_PORT_WRITE (R340). -/
def execSrAttrPortWrite (w : Who) (p : PortId) (v : Word) (s : State) : Host.Outcome State Fault Refusal :=
  s.lift fun m => m.bySr w (m.attrPortSet p.val v)

/-- SR_ATTR_PIN_WRITE (R340). -/
def execSrAttrPinWrite (w : Who) (v : Word) (s : State) : Host.Outcome State Fault Refusal :=
  s.lift fun m => m.bySr w (m.attrPinSet v)

/-- SR_ATTR_ENGINE_WRITE (R340): block numbers as in SR_LEASE; those with no attribute of their own change nothing. -/
def execSrAttrEngineWrite (w : Who) (b : BlockId) (v : Word) (s : State) : Host.Outcome State Fault Refusal :=
  s.lift fun m => if gateBlock b.val then m.bySr w (m.attrBlockSet b.val v) else m

/-- ATTR_CHANGE_DONE (R340). -/
def execAttrChangeDone (b : BlockId) (s : State) : Host.Outcome State Fault Refusal :=
  s.lift fun m => if gateBlock b.val then m.attrDone b.val else m

/-- SR_LEASE_WRITE (R345): the blocks of R358. -/
def execSrLeaseWrite (w : Who) (b : BlockId) (v : Word) (s : State) : Host.Outcome State Fault Refusal :=
  s.lift fun m => if b.val = 0 || gateBlock b.val then m.bySr w (m.leaseSet b.val v) else m

/-- SR_LEASE_EXPIRY (R346). -/
def execSrLeaseExpiry (b : BlockId) (s : State) : Host.Outcome State Fault Refusal := s.lift fun m => m.leaseExpiry b.val

/-- SWD_KICK (R348). -/
def execSwdKick (w : Who) (v : Word) (s : State) : Host.Outcome State Fault Refusal :=
  s.lift fun m => m.bySr w (m.swdKick (fset v F.srSwdKick 1))

/-- SWD_EXPIRY (R348). -/
def execSwdExpiry (s : State) : Host.Outcome State Fault Refusal := s.lift Mach.swdExpiry

/-- SWD_BOUND_EXPIRY (R349). -/
def execSwdBoundExpiry (s : State) : Host.Outcome State Fault Refusal := s.lift Mach.swdBound

/-- CHARTER_COMMIT (R354). -/
def execCharterCommit (w : Who) (v : Word) (s : State) : Host.Outcome State Fault Refusal :=
  s.lift fun m => m.bySr w (m.commitSet (fset v F.srCommitGo 1))

/-- RESTART_COMMIT (R348). -/
def execRestartCommit (w : Who) (v : Word) (s : State) : Host.Outcome State Fault Refusal :=
  s.lift fun m => m.bySr w (m.commitSet (fset v F.srCommitGo 1))

/-- A write of SR_FUSECTL that starts operation `op` (R358). -/
def fuseWord (op : Nat) (v : Word) : Word := fset (fset v F.srFusectlGo 1) F.srFusectlOp op

/-- FUSE_PROGRAM (R358). -/
def execFuseProgram (w : Who) (v : Word) (s : State) : Host.Outcome State Fault Refusal :=
  s.lift fun m => m.bySr w (m.fuseCtlSet (fuseWord 1 v))

/-- FUSE_REVOKE (R358). -/
def execFuseRevoke (w : Who) (v : Word) (s : State) : Host.Outcome State Fault Refusal :=
  s.lift fun m => m.bySr w (m.fuseCtlSet (fuseWord 2 v))

/-- FUSE_RAISE_MINSVN (R358). -/
def execFuseRaiseMinsvn (w : Who) (v : Word) (s : State) : Host.Outcome State Fault Refusal :=
  s.lift fun m => m.bySr w (m.fuseCtlSet (fuseWord 3 v))

/-- FUSE_BADOP (R358). -/
def execFuseBadop (w : Who) (v : Word) (s : State) : Host.Outcome State Fault Refusal :=
  s.lift fun m => m.bySr w (m.fuseCtlSet (fuseWord 0 v))

/-- FUSE_OP_DONE (R358). -/
def execFuseOpDone (s : State) : Host.Outcome State Fault Refusal := s.lift Mach.fuseDone

/-- MESH_BREACH (R357): keys and slots zeroised, MESHSEEN set, and MODULE reset entered; it lasts while the mesh
reads breached. -/
def Mach.breach (m : Mach) : Mach :=
  if !m.pins.vaux then m
  else
    let m1 := ({ m with
      kx := [], kp := [], sr := { m.sr with keys := false }, memst := { m.memst with xts := 0 }
      pins := { m.pins with breached := true } } : Mach)
    (m1.setFld Reg.srRstcause F.srRstcauseMeshseen 1).moduleReset 5

/-- MESH_BREACH (R357). -/
def execMeshBreach (s : State) : Host.Outcome State Fault Refusal := s.lift Mach.breach

end Sys2Proof.Machine
end

