-- ==== Sys2Proof/Machine/TenantCmds.lean ====
section
/-! DEFINITION. The commands of tenants, carrels, engines' picks and resets, and the planner's gating (R181, R199, R202 to R222,
R406, R407, R19). -/

namespace Sys2Proof.Machine

open Sys2Proof

/-! ### Tenants and carrels -/

/-- CARREL_CREATE (R204). -/
def execCarrelCreate (w : Who) (t : TenId) (v : Word) (s : State) : Host.Outcome State Fault Refusal :=
  s.lift fun m => m.carRequest w t.val (fset v F.tenCarreqOp 1)

/-- CARREL_DELETE (R205). -/
def execCarrelDelete (w : Who) (t : TenId) (v : Word) (s : State) : Host.Outcome State Fault Refusal :=
  s.lift fun m => m.carRequest w t.val (fset v F.tenCarreqOp 2)

/-- CARREL_BADOP (R206): a write whose OP is neither CREATE nor DELETE. -/
def execCarrelBadop (w : Who) (t : TenId) (v : Word) (s : State) : Host.Outcome State Fault Refusal :=
  s.lift fun m =>
    let op := fget v F.tenCarreqOp
    m.carRequest w t.val (if op = 1 || op = 2 then fset v F.tenCarreqOp 0 else v)

/-- CAR_RESET (R213). -/
def execCarReset (w : Who) (c : CarId) (v : Word) (s : State) : Host.Outcome State Fault Refusal :=
  s.lift fun m => m.carSet w c.val 0x0A (v ||| 1)

/-- CARREL_RESET_COMPLETE (R213). -/
def execCarrelResetComplete (c : CarId) (s : State) : Host.Outcome State Fault Refusal := s.lift fun m => m.carResetDone c.val

/-- CARREL_RESET_BOUND (R213). -/
def execCarrelResetBound (c : CarId) (s : State) : Host.Outcome State Fault Refusal := s.lift fun m => m.carResetBound c.val

/-- TEN_RESET (R215). -/
def execTenReset (w : Who) (t : TenId) (v : Word) (s : State) : Host.Outcome State Fault Refusal :=
  s.lift fun m => m.tenResetSet w t.val (v ||| 1)

/-- CAR_CQTAIL_WRITE (R211). -/
def execCarCqtailWrite (w : Who) (c : CarId) (v : Word) (s : State) : Host.Outcome State Fault Refusal :=
  s.lift fun m => m.carSet w c.val 0x08 v

/-- CQERR_CLEAR (R211). -/
def execCqerrClear (w : Who) (c : CarId) (v : Word) (s : State) : Host.Outcome State Fault Refusal :=
  s.lift fun m => m.carSet w c.val 0x00 (fset v F.carStatCqerr 1)

/-- NEWEPOCH (R219). -/
def execNewepoch (w : Who) (t : TenId) (v : Word) (s : State) : Host.Outcome State Fault Refusal :=
  s.lift fun m => m.mplCtlSet w t.val (fset v F.tenMplctlNewepoch 1)

/-- BITMAP_CLEAR_DONE (R219). -/
def execBitmapClearDone (t : TenId) (s : State) : Host.Outcome State Fault Refusal := s.lift fun m => m.clearDone t.val

/-- TEN_CTL_WRITE (R202). -/
def execTenCtlWrite (w : Who) (t : TenId) (v : Word) (s : State) : Host.Outcome State Fault Refusal :=
  s.lift fun m => m.tenCtlSet w t.val v

/-! ### Engines (R181, R199) -/

/-- ENGINE_PICK (R181). -/
def execEnginePick (e : EngId) (s : State) : Host.Outcome State Fault Refusal := s.lift fun m => m.pickJob e.val

/-- QUANTUM_EXPIRY (R181): the running job at its first safe point after its quantum. -/
def execQuantumExpiry (e : EngId) (s : State) : Host.Outcome State Fault Refusal :=
  s.lift fun m => if m.up then m.safePoint e.val else m

/-- CE_RESET (R199). -/
def execCeReset (w : Who) (e : EngId) (v : Word) (s : State) : Host.Outcome State Fault Refusal :=
  s.lift fun m => m.ceCtlSet w e.val (fset v F.ceCtlReset 1)

/-- CLERK_ENGINE_FAULT (R199). -/
def execClerkEngineFault (e : EngId) (s : State) : Host.Outcome State Fault Refusal :=
  s.lift fun m => if m.up then m.faultEngine e.val else m

/-! ### Slots and lanes (R212, R362) -/

/-- KX_SCLR (R362). -/
def execKxSclr (w : Who) (k : SlotId) (v : Word) (s : State) : Host.Outcome State Fault Refusal :=
  s.lift fun m => m.slotClrSet w k.val (v ||| 1)

/-- SLOT_CLEAR_DONE (R362). -/
def execSlotClearDone (k : SlotId) (s : State) : Host.Outcome State Fault Refusal := s.lift fun m => m.slotCleared k.val

/-- KX_LANE_RESET (R212, R371). -/
def execKxLaneReset (w : Who) (l : LaneId) (v : Word) (s : State) : Host.Outcome State Fault Refusal :=
  s.lift fun m => m.laneCtlSet w (1 + l.val) (fset v F.kxLctlReset 1)

/-- CX_LANE_RESET (R381, R383). -/
def execCxLaneReset (w : Who) (l : XLaneId) (v : Word) (s : State) : Host.Outcome State Fault Refusal :=
  s.lift fun m => m.laneCtlSet w (9 + l.val) (fset v F.kxLctlReset 1)

/-! ### Gating (R19, R406, R407) -/

/-- EN_GATE_WRITE (R406). -/
def execEnGateWrite (w : Who) (b : BlockId) (v : Word) (s : State) : Host.Outcome State Fault Refusal :=
  s.lift fun m => m.enGateSet w b.val v

/-- A block holds no job. -/
def Mach.blockIdle (m : Mach) (b : Nat) : Bool :=
  if 0x10 ≤ b then (m.engine (b - 0x10)).job.isNone else (m.laneB b).job.isNone

/-- The tick from which a block has been idle. -/
def Mach.idleFrom (m : Mach) (b : Nat) : Nat := if 0x10 ≤ b then (m.engine (b - 0x10)).idleFrom else (m.laneB b).idleFrom

/-- The blocks of the kind of `b`. -/
def blockPeers (b : Nat) : List Nat :=
  if 0x10 ≤ b then (List.range 64).map (0x10 + ·) else laneBlocks (b ≤ 8)

/-- AUTOGATE_GATE (R407): a block idle for a whole folio, while another of its kind and world stays ungated. -/
def Mach.autoGate (m : Mach) (b : Nat) : Mach :=
  if m.up && gateBlock b && m.bit Reg.enCtl F.enCtlAutogate && m.blockIdle b && !m.gated b && m.idleFrom b + 4096 ≤ m.now &&
      ((blockPeers b).any fun k => k ≠ b && m.blockSr k = m.blockSr b && !m.gated k) then
    m.gateRequest false b true true
  else m

/-- A ready job that may be dispatched, or a slip that needs a lane, finds no idle ungated block of its world (R407). -/
def Mach.wantsBlock (m : Mach) (b : Nat) : Bool :=
  if 0x10 ≤ b then
    !(m.takeable (b - 0x10)).isEmpty && (List.range 64).all fun e => !(m.mayPick e && m.blockSr (0x10 + e) = m.blockSr b)
  else
    let cipher : Bool := b ≤ 8
    (m.idleLanes cipher (m.blockSr b)).isEmpty && m.jobs.any fun e => e.2.sr = m.blockSr b && e.2.st = .waiting &&
      (match e.2.wait with
        | .laneFree k => (k ≤ 1) = cipher
        | _ => false)

/-- AUTOGATE_UNGATE (R407). -/
def Mach.autoUngate (m : Mach) (b : Nat) : Mach :=
  if m.up && gateBlock b && m.bit (Reg.enGate b) F.enGateAuto && m.wantsBlock b then m.gateRequest false b true false else m

/-- AUTOGATE_GATE (R407). -/
def execAutogateGate (b : BlockId) (s : State) : Host.Outcome State Fault Refusal := s.lift fun m => m.autoGate b.val

/-- AUTOGATE_UNGATE (R407). -/
def execAutogateUngate (b : BlockId) (s : State) : Host.Outcome State Fault Refusal := s.lift fun m => m.autoUngate b.val

/-- A held reset of a block that is no longer gated (R19). -/
def Mach.releaseHeld (m : Mach) (b : Nat) : Mach :=
  if m.held.contains b && !m.gated b then
    let m1 : Mach := { m with held := setDel b m.held }
    if 0x10 ≤ b then m1.resetEngine (b - 0x10) 1 else m1.resetLane b
  else m

/-- GATED_ACTION_RELEASE (R19). -/
def execGatedActionRelease (b : BlockId) (s : State) : Host.Outcome State Fault Refusal := s.lift fun m => m.releaseHeld b.val

end Sys2Proof.Machine
end

