-- ==== Sys2Proof/Machine/Time.lean ====
section
/-! DEFINITION. Regulatory time: the tick, REFCLK inputs, PPS measurement and discipline, loads, bells, gates, folio closes
and calibration as commands (R39 to R63, R119, R398, R449). -/

namespace Sys2Proof.Machine

open Sys2Proof

/-! ### The tick (R39 to R43) -/

/-- The work of one tick beside RT itself: the seconds of HOLDOVER, the end of a PPS interval, health, the mirror's
alarm (R146) and the age of the energy ledger's coefficients. -/
def Mach.tickWork (m : Mach) : Mach :=
  let m1 := if m.rtState = 4 then m.setReg Reg.rtHoldover (w48 ((m.now - m.pps.hoAt) / 2 ^ 24 % 2 ^ 32)) else m
  let m2 : Mach := if fracOf m1.rt = 2 ^ 23 then { m1 with pps := { m1.pps with fresh := true } } else m1
  if m2.up then
    let m3 : Mach := { m2 with en := { m2.en with ageTicks := m2.en.ageTicks + 1 } }
    ((m3.setFld Reg.enStat F.enStatAge (min 65535 (m3.en.ageTicks / 2 ^ 24))).refreshHealth).refreshMir
  else m2

/-- What a tick ends: the lanes' starts in it are settled (R363), and the debug actions have been replayed to the checkers (R319). -/
def Mach.tickEnd (m : Mach) : Mach :=
  [0, 1, 2, 3].foldl (fun x c => x.setFld (Reg.cluDbg c) F.cluDbgPend 0) m.lanesStart

/-- RT's input in use, where it counts. -/
def Mach.refInUse (m : Mach) : Nat := m.fld Reg.rtStat F.rtStatRefact

/-- A LOCKED state becomes LOCKING (R45). -/
def Mach.unlock (m : Mach) : Mach := if m.rtState = 3 then m.setRtState 2 else m

/-- A write that changed REFSEL takes effect (R42, R62), at the tick after it: RT moves to the REFSEL input where it is present, and
a LOCKED state becomes LOCKING. -/
def Mach.reselect (m : Mach) : Mach :=
  if m.pps.moved then
    let m0 : Mach := { m with pps := { m.pps with moved := false } }
    (if m.refs.contains m.refsel then m0.setFld Reg.rtStat F.rtStatRefact m.refsel else m0).unlock
  else m

/-- One tick of RT (R39, R42, R43): none without VAUX or a REFCLK input; at its last value RT stops and END reads 1. -/
def Mach.rtTick (m0 : Mach) : Mach :=
  if !m0.pins.vaux || m0.refs.isEmpty then m0
  else
    let m := m0.tickEnd.reselect
    let m1 : Mach := { m with now := m.now + 1, rt := if m.rt < rtLast then m.rt + 1 else m.rt }
    (if m1.rt = rtLast then m1.setFld Reg.rtStat F.rtStatEnd 1 else m1).tickWork

/-- RT_TICK (R39). -/
def execRtTick (s : State) : Host.Outcome State Fault Refusal := s.lift Mach.rtTick

/-! ### REFCLK (R42, R45) -/

/-- A REFCLK input stops (R42). -/
def Mach.refLost (m : Mach) (i : Nat) : Mach :=
  if !m.pins.vaux || !m.refs.contains i then m
  else
    let m1 := ({ m with refs := m.refs.filter (· ≠ i) } : Mach).setFld Reg.rtStat F.rtStatClkloss 1
    if m.refInUse = i then
      match m1.firstRef i with
      | some j => (m1.setFld Reg.rtStat F.rtStatRefact j).unlock
      | none => m1.unlock
    else m1

/-- A REFCLK input returns (R42): taken only where none was present; RT then counts in FREE. -/
def Mach.refBack (m : Mach) (i : Nat) : Mach :=
  if !m.pins.vaux || m.refs.contains i then m
  else
    let m1 : Mach := { m with refs := m.refs ++ [i] }
    if m.refs.isEmpty then
      (({ m1 with pps := { m1.pps with edge := none } } : Mach).setFld Reg.rtStat F.rtStatRefact i).setRtState 1
    else m1

/-- REFCLK_LOSS (R42). -/
def execRefclkLoss (i : Fin 4) (s : State) : Host.Outcome State Fault Refusal := s.lift fun m => m.refLost i.val

/-- REFCLK_RETURN (R42). -/
def execRefclkReturn (i : Fin 4) (s : State) : Host.Outcome State Fault Refusal := s.lift fun m => m.refBack i.val

/-! ### PPS (R44, R45, R48, R449) -/

/-- RT_CTL.PPSEN. -/
def Mach.ppsOn (m : Mach) : Bool := m.bit Reg.rtCtl F.rtCtlPpsen

/-- The phase error in ns of an edge at the present tick, `sub` ns into it, against the nearest whole second (R44). -/
def phaseNs (rt sub : Nat) : Int :=
  let f := fracOf rt
  let d : Int := if f < 2 ^ 23 then (f : Int) else (f : Int) - 2 ^ 24
  d * 1000000000 / 2 ^ 24 + (sub : Int)

/-- An edge joins its interval: only the one nearest the expected instant counts (R44); of two equally near, the first: R44 does not
say which (DESIGN CHOICE, log 104). -/
def nearer (old : Option Int) (e : Int) : Option Int :=
  match old with
  | some o => if e.natAbs < o.natAbs then some e else some o
  | none => some e

/-- A PPS_IN edge (R42, R44, R48): recorded, or the instant of a pending ARM load. The edge of a load lies on the whole second it
loads, and its interval is the first of the run of 8 (R44, R449). -/
def Mach.ppsEdge (m : Mach) (sub : Nat) : Mach :=
  if !m.pins.vaux || !m.pins.sba || m.refs.isEmpty || !m.ppsOn then m
  else if m.bit Reg.rtCtl F.rtCtlArm then
    let secs := (m.reg Reg.rtNextsec).toNat
    let m1 := m.setFld Reg.rtCtl F.rtCtlArm 0
    if secs % 2 ^ 40 * 2 ^ 24 < m.rt then m1.setFld Reg.rtStat F.rtStatBadload 1
    else
      let m2 := m1.loadRt secs 2
      { m2 with pps := { m2.pps with edge := some 0, miss := 0 } }
  else { m with pps := { m.pps with edge := nearer m.pps.edge (phaseNs m.rt (sub % 60)) } }

/-- PPS_EDGE (R449). -/
def execPpsEdge (sub : Nat) (s : State) : Host.Outcome State Fault Refusal := s.lift fun m => m.ppsEdge sub

/-- A steering step: the correction the loop applies, a free value within ±1,000 ppm (R40). -/
def Mach.steer (m : Mach) : Mach :=
  if 2 ≤ m.rtState then
    let (f, m1) := m.draw
    m1.setReg Reg.rtFreq (w48 (unsgn 32 ((f % 2000000001 : Nat) - 1000000000 : Int)))
  else m

/-- A missed second (R44, R45). The count of outliers stays: R449 lets "consecutive" count intervals and does not say whether a
missed second between two outliers breaks their run (DESIGN CHOICE, log 105). -/
def Mach.ppsMissed (m : Mach) : Mach :=
  let m1 := ({ m with pps := { m.pps with miss := m.pps.miss + 1, run := 0 } } : Mach).setFld Reg.rtStat F.rtStatPpsmiss 1
  if 2 ≤ m1.pps.miss then
    if m1.rtState = 2 then m1.setRtState 1 else if m1.rtState = 3 then m1.setRtState 4 else m1
  else m1

/-- An outlier (R44, R45). -/
def Mach.ppsOutlier (m : Mach) : Mach :=
  let m1 : Mach := { m with pps := { m.pps with outl := m.pps.outl + 1, run := 0 } }
  let m2 := ((m1.setFld Reg.rtStat F.rtStatOutlier 1).countSat (2 ^ 32 - 1) Reg.rtOutliers).raise 1
  if 3 ≤ m2.pps.outl then m2.setRtState 2 else m2

/-- An accepted edge (R44, R45); the one that ends HOLDOVER is the first of the run in LOCKING. -/
def Mach.ppsAccepted (m : Mach) (e : Int) : Mach :=
  let m1 : Mach := { m with pps := { m.pps with
    run := if e.natAbs ≤ 100 then m.pps.run + 1 else 0, outl := if e.natAbs ≤ 100000 then 0 else m.pps.outl } }
  let m2 := m1.steer
  if m2.rtState = 2 && 8 ≤ m2.pps.run then m2.setRtState 3
  else if m2.rtState = 4 then
    let m3 := m2.setRtState 2
    { m3 with pps := { m3.pps with run := m2.pps.run } }
  else m2

/-- A considered edge takes effect (R449). -/
def Mach.ppsJudged (m : Mach) (e : Int) : Mach :=
  let c := max (-(2 ^ 31)) (min (2 ^ 31 - 1) e)
  let m1 := ({ m with pps := { m.pps with miss := 0 } } : Mach).setReg Reg.rtPhase (w48 (unsgn 32 c))
  if m1.rtState = 3 && 100000 < e.natAbs then m1.ppsOutlier else m1.ppsAccepted e

/-- The end of a PPS interval (R449), once for each. -/
def Mach.ppsEnd (m : Mach) : Mach :=
  if !m.pins.vaux || m.refs.isEmpty || !m.ppsOn || !m.pps.fresh then m
  else
    let m1 : Mach := { m with pps := { m.pps with edge := none, fresh := false } }
    match m.pps.edge with
    | none => m1.ppsMissed
    | some e => m1.ppsJudged e

/-- PPS_INTERVAL_END (R449). -/
def execPpsIntervalEnd (s : State) : Host.Outcome State Fault Refusal := s.lift Mach.ppsEnd

/-! ### RT_CTL (R45, R48, R62) -/

/-- A load request refused. -/
def Mach.badLoad (m : Mach) : Mach := m.setFld Reg.rtStat F.rtStatBadload 1

/-- A load request, the highest-numbered of those written (R48, R62). LOADNOW and FORCE load in the tick of the write, one of the two
that R48 allows, and also while no REFCLK input is present, of which R48 says nothing (DESIGN CHOICE, log 106). -/
def Mach.rtRequest (m : Mach) (v : Word) : Mach :=
  let secs := (m.reg Reg.rtNextsec).toNat
  let behind : Bool := secs % 2 ^ 40 * 2 ^ 24 < m.rt
  if fbit v F.rtCtlForce then
    if m.rtState ≤ 1 && m.phase = 1 then m.loadRt secs 1 else m.badLoad
  else if fbit v F.rtCtlLoadnow then
    if m.rtState ≤ 1 && !behind then m.loadRt secs 1 else m.badLoad
  else if fbit v F.rtCtlArm then
    if m.rtState ≤ 1 && m.ppsOn then m.setFld Reg.rtCtl F.rtCtlArm 1 else m.badLoad
  else m

/-- PPSEN written 0 (R45, R48): a pending ARM ends, LOCKING becomes FREE and LOCKED becomes HOLDOVER. -/
def Mach.ppsOff (m : Mach) : Mach :=
  let m1 := ({ m with pps := { m.pps with edge := none } } : Mach).setFld Reg.rtCtl F.rtCtlArm 0
  if m1.rtState = 2 then m1.setRtState 1 else if m1.rtState = 3 then m1.setRtState 4 else m1

/-- A write of RT_CTL from the strongroom (R62). -/
def Mach.rtCtlSet (m : Mach) (w : Who) (v : Word) : Mach :=
  if !w.sr then m
  else
    let moved : Bool := fget v F.rtCtlRefsel ≠ m.refsel
    let m1 := ((m.setFld Reg.rtCtl F.rtCtlLoop (fget v F.rtCtlLoop)).setFld Reg.rtCtl F.rtCtlRefsel
      (fget v F.rtCtlRefsel)).setFld Reg.rtCtl F.rtCtlPpsen (fget v F.rtCtlPpsen)
    let m2 : Mach := { m1 with pps := { m1.pps with moved := m1.pps.moved || moved } }
    let m3 := if fbit v F.rtCtlPpsen then m2 else m2.ppsOff
    m3.rtRequest v

/-- RT_ARM (R48). -/
def execRtArm (w : Who) (v : Word) (s : State) : Host.Outcome State Fault Refusal :=
  s.lift fun m => m.rtCtlSet w (fset v ⟨2, 0⟩ 1)

/-- RT_LOADNOW (R48). -/
def execRtLoadnow (w : Who) (v : Word) (s : State) : Host.Outcome State Fault Refusal :=
  s.lift fun m => m.rtCtlSet w (fset v ⟨2, 1⟩ 1)

/-- RT_FORCE (R48). -/
def execRtForce (w : Who) (v : Word) (s : State) : Host.Outcome State Fault Refusal :=
  s.lift fun m => m.rtCtlSet w (fset v F.rtCtlForce 1)

/-- RT_REFSEL_WRITE (R62): the write, its REFSEL as given. -/
def execRtRefselWrite (w : Who) (v : Word) (s : State) : Host.Outcome State Fault Refusal := s.lift fun m => m.rtCtlSet w v

/-- RT_PPSEN_CLEAR (R45). -/
def execRtPpsenClear (w : Who) (v : Word) (s : State) : Host.Outcome State Fault Refusal :=
  s.lift fun m => m.rtCtlSet w (fset v F.rtCtlPpsen 0)

/-! ### Bells, gates, folios (R54 to R61, R119, R398) -/

/-- BELL_ACT_WRITE (R56). -/
def execBellActWrite (w : Who) (b : BellId) (v : Word) (s : State) : Host.Outcome State Fault Refusal :=
  s.lift fun m => m.bellActSet w b.val v

/-- BELL_TIME_WRITE (R56). -/
def execBellTimeWrite (w : Who) (b : BellId) (frac : Bool) (v : Word) (s : State) : Host.Outcome State Fault Refusal :=
  s.lift fun m => m.bellTimeSet w b.val frac v

/-- GATE_KEY_WRITE (R61). -/
def execGateKeyWrite (w : Who) (g : GateId) (v : Word) (s : State) : Host.Outcome State Fault Refusal :=
  s.lift fun m => m.gateKeySet w g.val v

/-- BELL_FIRE (R59). -/
def execBellFire (b : BellId) (s : State) : Host.Outcome State Fault Refusal := s.lift fun m => m.bellFire b.val

/-- FOLIO_CLOSE (R119). -/
def execFolioClose (s : State) : Host.Outcome State Fault Refusal := s.lift Mach.folioClose

/-- TALLY_CALIBRATION (R398). -/
def execTallyCalibration (s : State) : Host.Outcome State Fault Refusal := s.lift fun m => if m.up then m.calibrate else m

end Sys2Proof.Machine
end

