-- ==== Sys2Proof/Machine/TwinCmds.lean ====
section
/-! DEFINITION. The commands of the twin link, the heartbeat paths, the roles, the shipment, handover, synchronisation and the
TWN_ registers (R131 to R162). -/

namespace Sys2Proof.Machine

open Sys2Proof

/-! ### Links and heartbeats -/

/-- TWIN_LINK_UP (R131). -/
def execTwinLinkUp (s : State) : Host.Outcome State Fault Refusal :=
  s.lift fun m => if m.up && m.committed && !m.pins.tripped then { m with twin := { m.twin with linkUp := true } } else m

/-- TWIN_LINK_DOWN (R131, R147). -/
def execTwinLinkDown (s : State) : Host.Outcome State Fault Refusal := s.lift fun m => if m.twin.linkUp then m.linkDown else m

/-- The words of SR_TWINKEY (R132). -/
def Mach.twinKey (m : Mach) : List Word := (List.range 11).map fun i => m.reg (Reg.srTwinkey i)

/-- The twin named by the charter (R132): both digests of its public key agree. -/
def Mach.twinNamed (m : Mach) (pk : List Octet) : Bool :=
  m.paired && hashWords (sha3_512 pk).toNat = m.twinKey && first6 (sha3_256 pk) = m.reg Reg.sealPeerkeyid

/-- TWIN_AUTH (R132): the twin named by the charter proves its identity, and a session key is agreed. -/
def execTwinAuth (k : List Octet × List Octet) (s : State) : Host.Outcome State Fault Refusal :=
  s.lift fun m =>
    if m.up && m.twin.linkUp && !m.twin.authed && m.twinNamed k.1 && Config.twinProof k.1 k.2 then
      ({ m with twin := { m.twin with authed := true, pk := k.1 } } : Mach).newKey
    else m

/-- TWIN_KEY_RENEW (R132). -/
def execTwinKeyRenew (s : State) : Host.Outcome State Fault Refusal :=
  s.lift fun m => if m.twinOpen && 2 ^ 30 ≤ m.twin.keyMsgs then m.newKey else m

/-- HEARTBEAT_SEND (R133): once per folio. -/
def execHeartbeatSend (s : State) : Host.Outcome State Fault Refusal :=
  s.lift fun m =>
    let f := folioOf m.rt
    if m.twinOpen && m.aliveOut && m.twin.hbFolio ≠ some f then
      ({ m with twin := { m.twin with hbFolio := some f } } : Mach).twinSend (.heartbeat
        { role := m.role, epoch := m.shownEpoch, folio := f, health := m.healthBits, serial := Config.serial.toNat, rt := m.rt })
    else m

/-- HEARTBEAT (R133, R135, R148). -/
def execHeartbeat (x : TwinHead) (h : Heartbeat) (s : State) : Host.Outcome State Fault Refusal :=
  s.lift fun m => m.twinRx x 0x01 fun y => y.hearA h

/-- PULSE_FRAME_SEND (R134): once per folio, at tick 1,024 ± 16. -/
def execPulseFrameSend (s : State) : Host.Outcome State Fault Refusal :=
  s.lift fun m =>
    let f := folioOf m.rt
    if m.aliveOut && 1008 ≤ m.rt % 4096 && m.rt % 4096 ≤ 1040 && m.twin.pulseFolio ≠ some f then
      ({ m with twin := { m.twin with pulseFolio := some f } } : Mach).send
        (.pulse (pulseBits m.role m.shownEpoch f m.healthBits))
    else m

/-- PULSE_FRAME (R135). -/
def execPulseFrame (bits : BitVec 72) (s : State) : Host.Outcome State Fault Refusal :=
  s.lift fun m => if m.up && m.pins.sba then m.hearB bits.toNat else m

/-- PULSE_IN_SILENCE (R147). -/
def execPulseInSilence (s : State) : Host.Outcome State Fault Refusal := s.lift fun m => if m.up then m.losePath true else m

/-- HEARTBEAT_TIMEOUT (R147): 2 folios after the last valid heartbeat on the path. -/
def execHeartbeatTimeout (pathB : Bool) (s : State) : Host.Outcome State Fault Refusal :=
  s.lift fun m =>
    if m.up && (if pathB then m.twin.lastB else m.twin.lastA) + 8192 ≤ m.now then m.losePath pathB else m

/-- TWIN_ALIVE_IN_LOW (R137, R139). -/
def execTwinAliveInLow (s : State) : Host.Outcome State Fault Refusal :=
  s.lift fun m =>
    let m1 : Mach := { m with pins := { m.pins with aliveIn := m.pins.aliveIn && !m.pins.sba } }
    if m.up then
      let m2 := m1.setFld Reg.twnStat F.twnStatAlivein 0
      (if m2.bothLost then m2 else m2.twnAlarm F.twnAlarmAlivemis true).confirmPending
    else m1

/-- TWIN_ALIVE_IN_HIGH (R137). -/
def execTwinAliveInHigh (s : State) : Host.Outcome State Fault Refusal :=
  s.lift fun m =>
    let m1 : Mach := { m with pins := { m.pins with aliveIn := true } }
    if m.up && m.pins.sba then (m1.setFld Reg.twnStat F.twnStatAlivein 1).twnAlarm F.twnAlarmAlivemis false else m1

/-- LOOPBACK_FAIL (R137): the transmitters stop, the module fences until MODULE reset, ALIVE_OUT falls. -/
def execLoopbackFail (s : State) : Host.Outcome State Fault Refusal :=
  s.lift fun m => if m.up && !m.twin.loopFailed then { m.fenceBarred with twin := { m.fenceBarred.twin with loopFailed := true } } else m

/-! ### The shipment -/

/-- FOLIO_SHIPMENT (R141, R154). -/
def execFolioShipment (s : State) : Host.Outcome State Fault Refusal := s.lift fun m => m.shipNext.handoverFinish

/-- FOLIO_BEGIN (R141). -/
def execFolioBegin (x : TwinHead × Nat) (epoch mask : Nat) (s : State) : Host.Outcome State Fault Refusal :=
  s.lift fun m => m.twinRx x.1 0x02 fun y => y.holdBegin x.2 epoch mask

/-- RECORDS (R142). -/
def execRecordsMsg (x : TwinHead × Nat) (off : Nat) (ws : List Word) (s : State) : Host.Outcome State Fault Refusal :=
  s.lift fun m => m.twinRx x.1 0x03 fun y => y.holdRecords x.2 off ws

/-- STATE (R142): held until the folio is acknowledged. -/
def execStateMsg (x : TwinHead × Ledger) (s : State) : Host.Outcome State Fault Refusal :=
  s.lift fun m => m.twinRx x.1 0x04 fun y => y.holdState x.2

/-- LINES (R142, R144): one line of a mirrored page. -/
def execLinesMsg (x : TwinHead × Nat) (cs : List Cont) (s : State) : Host.Outcome State Fault Refusal :=
  s.lift fun m => m.twinRx x.1 0x05 fun y => y.holdLines x.2 cs

/-- FOLIO_END (R142). -/
def execFolioEnd (x : TwinHead) (e : FolioEndMsg) (s : State) : Host.Outcome State Fault Refusal :=
  s.lift fun m => m.twinRx x 0x06 fun y => y.holdEnd e

/-- FOLIO_ACK (R143). -/
def execFolioAck (x : TwinHead × Nat) (epoch : Nat) (s : State) : Host.Outcome State Fault Refusal :=
  s.lift fun m => m.twinRx x.1 0x07 fun y => y.folioAcked x.2 epoch

/-- FOLIO_REDO (R142). The cause changes nothing at the source. -/
def execFolioRedo (x : TwinHead × Nat) (_cause : Nat) (s : State) : Host.Outcome State Fault Refusal :=
  s.lift fun m => m.twinRx x.1 0x08 fun y => y.folioRedone x.2

/-- SEALS (R172). -/
def execSeals (x : TwinHead × List (List Word)) (s : State) : Host.Outcome State Fault Refusal :=
  s.lift fun m => m.twinRx x.1 0x09 fun y => if y.holding then x.2.foldl (Mach.takeSeal y.twin.pk) y else y

/-! ### Decisions -/

/-- ACK_TIMEOUT_SOLO (R34, R139, R143): a shipment complete for 4 folios without its acknowledgement, or, with the twin link lost, a
folio closed for 4 folios that no shipment carries. -/
def execAckTimeoutSolo (s : State) : Host.Outcome State Fault Refusal :=
  s.lift fun m =>
    let late : Bool := m.twin.ships.any fun x => match x.doneAt with
      | some d => d + 16384 ≤ m.now
      | none => !m.twinOpen && x.at_ + 16384 ≤ m.now
    if m.up && m.role = 1 && !m.twin.latch && m.epochLeft && late then
      let m1 := ((m.endHandover.setRole 2).setLease false).setPendingEpoch (some m.newEpoch)
      if m1.aliveIn then m1 else m1.confirmPending
    else m

/-- LEASE_EXPIRY (R139, R149): the mirrored lease ends. -/
def execLeaseExpiry (s : State) : Host.Outcome State Fault Refusal :=
  s.lift fun m => if m.up && ((m.role = 1 && m.lease) || m.twin.pending.isSome) && m.twin.leaseEnd ≤ m.now then m.fence else m

/-- TAKEOVER_PROMOTION (R148, R151, R160). -/
def execTakeoverPromotion (s : State) : Host.Outcome State Fault Refusal :=
  s.lift fun m =>
    if m.up && m.bothLost && 16384 ≤ m.lostTicks then
      if m.role = 3 then m.promote else if m.role = 1 && !m.aliveIn && m.epochLeft then m.goSolo else m
    else m

/-- LOST_FENCE (R148). -/
def execLostFence (s : State) : Host.Outcome State Fault Refusal :=
  s.lift fun m =>
    if m.up && m.bothLost && 24576 ≤ m.lostTicks && (m.role = 1 || m.twin.pending.isSome) then m.fence else m

/-- TWN_FENCE (R149). -/
def execTwnFence (w : Who) (v : Word) (s : State) : Host.Outcome State Fault Refusal :=
  s.lift fun m => m.twnCtlSet w (fset v F.twnCtlFence 1)

/-- TWN_INIT (R156). -/
def execTwnInit (w : Who) (v : Word) (s : State) : Host.Outcome State Fault Refusal :=
  s.lift fun m => m.twnCtlSet w (fset v F.twnCtlInit 1)

/-! ### Handover -/

/-- HANDREQ (R153). -/
def execHandreq (w : Who) (v : Word) (s : State) : Host.Outcome State Fault Refusal :=
  s.lift fun m => m.twnCtlSet w (fset v F.twnCtlHandreq 1)

/-- HANDOVER_START (R153). -/
def execHandoverStart (s : State) : Host.Outcome State Fault Refusal :=
  s.lift fun m =>
    if m.twinOpen && m.role = 3 && m.bit Reg.twnStat F.twnStatPref && (m.reg Reg.twnHoldoff).toNat % 65536 ≤ m.healthySecs &&
        m.healthy && !m.bit Reg.twnCtl F.twnCtlHold && m.epoch < 0xFFFFFF && m.fld Reg.twnStat F.twnStatHandover = 0 then
      m.twinSend (.handoverReq m.nextHandover)
    else m

/-- HANDOVER_REQ (R154). -/
def execHandoverReq (x : TwinHead × Nat) (s : State) : Host.Outcome State Fault Refusal :=
  s.lift fun m => m.twinRx x.1 0x0A fun y => y.handoverAsked x.2

/-- HANDOVER_ACK (R154): the handover is agreed. -/
def execHandoverAck (x : TwinHead × Nat) (s : State) : Host.Outcome State Fault Refusal :=
  s.lift fun m => m.twinRx x.1 0x0B fun y => y.handoverAgreed x.2

/-- HANDOVER_QUIESCE (R154). -/
def execHandoverQuiesce (s : State) : Host.Outcome State Fault Refusal := s.lift Mach.handoverQuiesce

/-- HANDOVER_DONE (R154). -/
def execHandoverDone (x : TwinHead × Nat) (epoch : Nat) (s : State) : Host.Outcome State Fault Refusal :=
  s.lift fun m => m.twinRx x.1 0x0C fun y => y.handoverHeard x.2 epoch

/-- TAKEN (R154). -/
def execTaken (x : TwinHead × Nat) (s : State) : Host.Outcome State Fault Refusal :=
  s.lift fun m => m.twinRx x.1 0x0D fun y => y.handoverTaken x.2

/-- HANDOVER_ABORT_TIMEOUT (R155). -/
def execHandoverAbortTimeout (s : State) : Host.Outcome State Fault Refusal :=
  s.lift fun m =>
    match m.twin.hoVolume with
    | some v =>
      if m.up && m.role = 3 && m.fld Reg.twnStat F.twnStatHandover = 1 && !m.twin.hoDone && 16 * v * 4096 + 16384 ≤ m.rt then
        (m.twinSend (.abort v)).endHandover
      else m
    | none => m

/-- ABORT (R155). -/
def execAbortMsg (x : TwinHead × Nat) (s : State) : Host.Outcome State Fault Refusal :=
  s.lift fun m => m.twinRx x.1 0x0E fun y => y.handoverAborted x.2

/-! ### Synchronisation -/

/-- SYNC_CHECK_PASS (R157): the CHECK phase judged against the twin's settings. -/
def execSyncCheckPass (cfg : List Word) (s : State) : Host.Outcome State Fault Refusal := s.lift fun m => m.syncCheck cfg

/-- SYNC_REQ (R157): the source abandons any copy; the next boundary is S. The message has no contents, so the row is one that passed
R132 and R133; one that fails them is any message that does. -/
def execSyncReq (s : State) : Host.Outcome State Fault Refusal :=
  s.lift fun m =>
    if m.twinOpen && m.serving then { m.stopShipping with twin := { m.stopShipping.twin with syncReq := true } } else m

/-- SYNC_MARK (R157). -/
def execSyncMark (x : TwinHead × Nat) (epoch _phase : Nat) (s : State) : Host.Outcome State Fault Refusal :=
  s.lift fun m => m.twinRx x.1 0x11 fun y => y.takeMark x.2 epoch

/-- SYNC_BULK (R157). -/
def execSyncBulk (x : TwinHead × SyncBlock) (remain : Nat) (s : State) : Host.Outcome State Fault Refusal :=
  s.lift fun m => m.twinRx x.1 0x10 fun y => y.takeBulk x.2 remain

/-- SYNC_COMPLETE (R158): a synced module becomes STANDBY at the next boundary. -/
def execSyncComplete (s : State) : Host.Outcome State Fault Refusal :=
  s.lift fun m =>
    if m.up && m.role = 4 && m.syncPhase = 4 && 65 ≤ m.twin.syncBounds && !m.twin.barred then
      ({ m with twin := { m.twin with latch := false, syncBounds := 0 } } : Mach).setRole 3
    else m

/-- A pending write of tenant `t`'s mode that selects SOLO selects TWIN. -/
def soloGone (t : Nat) (w : LWrite) : LWrite :=
  match w with
  | .reg a mask v =>
    if a = Reg.tenCtl t && mask &&& fmask F.tenCtlDur ≠ 0 && fget v F.tenCtlDur = 2 then .reg a mask (fset v F.tenCtlDur 0) else w
  | _ => w

/-- A tenant in mode SOLO, or with a write that selects it pending, takes TWIN, with the notice MODE-REFUSED of argument 0b10
(R31). -/
def Mach.soloToTwin (m : Mach) (t : Nat) : Mach :=
  let m1 : Mach := { m with ledger := { m.ledger with pend := m.ledger.pend.map (soloGone t) } }
  if m.mode t = 2 || m.fld (Reg.tenCtl t) F.tenCtlDur = 2 then
    let m2 := if m.fld (Reg.tenCtl t) F.tenCtlDur = 2 then m1.setFld (Reg.tenCtl t) F.tenCtlDur 0 else m1
    let m3 := if m.mode t = 2 then m2.setEff (Reg.tenCtl t) (fset (m2.eff (Reg.tenCtl t)) F.tenCtlDur 0) else m2
    m3.notice t 3 2
  else m1

/-- SOLO_TO_ACTIVE (R31, R139, R158). -/
def execSoloToActive (s : State) : Host.Outcome State Fault Refusal :=
  s.lift fun m =>
    if m.up && m.role = 2 && m.twin.toActive then
      let m1 : Mach := { m with twin := { m.twin with toActive := false } }
      let m2 := ((m1.setRole 1).setLease true).renewLease
      ((allTenants.foldl Mach.soloToTwin m2).releaseAll).flushReplies
    else m

/-- TWN_MIRPAGE_WRITE (R144). -/
def execTwnMirpageWrite (w : Who) (v : Word) (s : State) : Host.Outcome State Fault Refusal := s.lift fun m => m.mirPageSet w v

end Sys2Proof.Machine
end

