-- ==== Sys2Proof/Machine/PSpace.lean ====
section
/-! DEFINITION. P-space: who may reach a register, what each register reads as, what a write of each does (R8 to R18, R203). -/

namespace Sys2Proof.Machine

open Sys2Proof

/-! ### Checks (R12, R18, R203) -/

/-- Registers the inspector role does not read (R203). -/
def inspectorExcept (a : Nat) : Bool :=
  a = Reg.kxRollev || a = Reg.kxTwinslot || a = Reg.memSrpage || a = Reg.memSrstat || a = Reg.ucCtl || a = Reg.ucLoadaddr ||
    a = Reg.ucRes || (match regRow? a with
      | some r => r.base = Reg.intSeatlastSr 0 0
      | none => false)

/-- A register whose every field is the strongroom's (R12). -/
def srRegister (a : Nat) : Bool :=
  match regRow? a with
  | some r => r.sr
  | none => false

/-- A read by a core of an inspector tenant in supervisor state (R203). -/
def Mach.inspects (m : Mach) (w : Who) (a : Nat) : Bool :=
  !w.eng && !w.task && m.inspector w.ten && a < 0x380000 && !inspectorExcept a

/-- Whether a requester may not reach a register: open-world access of an SR register (R12, R203). -/
def Mach.pDenied (m : Mach) (w : Who) (a : Nat) (write : Bool) : Bool :=
  !w.sr && srRegister a && (write || !m.inspects w a)

/-- What stops an access. -/
inductive PErr where
  | address
  | protect
deriving DecidableEq, Repr

/-- The checks of R18 and R12, in that order. -/
def Mach.pCheck (m : Mach) (w : Who) (a : Nat) (write : Bool) : Option PErr :=
  if 0x400000 ≤ a then some .address else if m.pDenied w a write then some .protect else none

/-! ### Reads -/

/-- PRT_STAT of a port (R100). -/
def Mach.prtStatRead (m : Mach) (p : Nat) : Word :=
  let n := (m.openSessions.filter fun s => (m.sess s).port = p).length
  let idle := !(m.up && m.committed && m.portEn p) || m.pins.tripped
  fset (fset (m.reg (Reg.prtStat p)) F.prtStatOpen n) F.prtStatTxidle (b2n idle)

/-- A PRT_ register: the stamps of a strongroom port read 0 to the open world (R339). -/
def Mach.prtRead (m : Mach) (w : Who) (p o : Nat) : Word :=
  match o with
  | 0x00 => m.prtStatRead p
  | 0x04 | 0x05 => if m.portSr p && !w.sr then 0 else m.reg (Reg.prtStat p + o)
  | _ => m.reg (Reg.prtStat p + o)

/-- A CE_ register of an engine (R200). -/
def Mach.ceRead (m : Mach) (e o : Nat) : Word :=
  let j := (m.engine e).job.bind m.job
  match o with
  | 0 => m.ceStatRead e
  | 2 => match j with
    | some x => w48 x.blk
    | none => 0
  | 3 => match j with
    | some x => w48 x.slip
    | none => 0
  | _ => m.reg (Reg.ceStat e + o)

/-- A global CE_ register (R200). -/
def Mach.ceGlobalRead (m : Mach) (o : Nat) : Word :=
  match o with
  | 1 => m.jobCount fun _ => true
  | 2 => m.jobCount fun j => j.st = .ready
  | 3 => m.jobCount fun j => j.st = .waiting
  | 4 => m.jobCount fun j => j.st = .ready && m.deferred j.cls
  | _ => m.reg (Reg.ceQuantum + o)

/-- A register of the RT_ to GATE_ blocks (R62, R63). -/
def Mach.timeRead (m : Mach) (a : Nat) : Word :=
  if a = Reg.rtSec then w48 (secOf m.rt)
  else if a = Reg.rtNowf then w48 (secOf m.rt % 2 ^ 24 * 2 ^ 24 + fracOf m.rt)
  else if a = Reg.bellArmed then w48 ((List.range 1024).filter fun b => m.bit (Reg.bellAct b) F.bellActArm).length
  else if a = Reg.gateUsed then w48 ((List.range 4096).filter fun g => m.bit (Reg.gateKey g) F.gateKeyEn).length
  else if a = Reg.bellPending then
    w48 (m.ledger.pend.filter fun w => match w with
      | .bell _ _ _ | .gate _ _ => true
      | _ => false).length
  else if 0x21000 ≤ a && a < 0x22000 && a % 4 = 3 then m.bellStatRead ((a - 0x21000) / 4)
  else if 0x28000 ≤ a && a < 0x30000 && a % 8 = 5 then m.gateStatRead ((a - 0x28000) / 8)
  else m.reg a

/-- A TWN_ register (R161). -/
def Mach.twnRead (m : Mach) (a : Nat) : Word :=
  if a = Reg.twnLag then w48 m.lag
  else if a = Reg.twnLost then w48 m.lostTicks
  else if a = Reg.twnHealthy then w48 m.healthySecs
  else if a = Reg.twnBacklog then w48 (min 65535 m.shipBacklog)
  else if a = Reg.twnAlarm then m.alarms
  else m.reg a

/-- A STK_ register: the fields of the STKT pins read 0 to the open world under attribute 1 (R339, R424). -/
def Mach.stkRead (m : Mach) (w : Who) (a : Nat) : Word :=
  if a = Reg.stkCtl && m.bit Reg.srAttrPin F.srAttrPinStkt && !w.sr then fset (fset (m.reg a) F.stkCtlPinen 0) F.stkCtlOuten 0
  else m.reg a

/-- An INT_ or NOTE_ register (R425). -/
def Mach.intRead (m : Mach) (a : Nat) : Word :=
  if a < 0x340800 then
    if a = Reg.intRoute 26 then fset (m.reg a) F.intRouteSr 1 else m.reg a
  else if a = Reg.intFault then m.intFaultRead
  else if 0x341000 ≤ a && a < 0x341080 then
    let t := (a - 0x341000) / 8
    let q := m.noteq t
    match (a - 0x341000) % 8 with
    | 0 => fset (m.reg a) F.noteStatEntries q.length
    | 1 => match q with
      | n :: _ => w48 (n.code * 2 ^ 40 + n.count * 2 ^ 32 + n.frac)
      | [] => 0
    | 2 => match q with
      | n :: _ => w48 n.sec
      | [] => 0
    | 3 => match q with
      | n :: _ => n.arg
      | [] => 0
    | _ => m.reg a
  else m.reg a

/-- A KX_ or CX_ register (R370, R382). -/
def Mach.laneRead (m : Mach) (a : Nat) : Word :=
  if a = Reg.kxStat then m.kxStatRead
  else if a = Reg.cxStat then w48 ((List.range 4).foldl (fun s l => s + b2n (m.laneB (9 + l)).job.isSome * 2 ^ l) 0)
  else if 0x240010 ≤ a && a < 0x240090 && a % 16 = 0 then m.laneStatRead (1 + (a - 0x240010) / 16)
  else if 0x280010 ≤ a && a < 0x280050 && a % 16 = 0 then m.laneStatRead (9 + (a - 0x280010) / 16)
  else m.reg a

/-- A register of the cluster block (R238, R320, R321). -/
def Mach.cluRead (m : Mach) (w : Who) (a : Nat) : Word :=
  if 0x2FF000 ≤ a && a < 0x2FF019 then (if w.eng then 0 else m.selfRead w.seat (a - 0x2FF000))
  else
    let c := (a - 0x2C0000) / 0x1000
    let o := (a - 0x2C0000) % 0x1000
    if o = 0 then m.cluStatRead c
    else if 0x100 ≤ o && o < 0x200 && o % 16 = 0 then m.cluSeatRead w c ((o - 0x100) / 16)
    else m.reg a

/-- The bits of a register that software reads: a register whose code is WO reads 0, and so do the WO bits of the others. -/
def readable (a : Nat) (v : Word) : Word :=
  match regRow? a with
  | some r => v &&& ~~~ r.wo
  | none => 0

/-- What a read of the register at an address returns, but for STK_SNAPVAL (R8, R11). -/
def Mach.pValue (m : Mach) (w : Who) (a : Nat) : Word :=
  readable a <|
    if a < 0x10000 then
      if a = Reg.modTemp then m.modTempRead
      else if a = Reg.modSupply then m.modSupplyRead
      else if a = Reg.modPins then m.modPinsRead
      else m.reg a
    else if a < 0x40000 then m.timeRead a
    else if a < 0x60000 then m.prtRead w ((a - 0x40000) / 0x100) ((a - 0x40000) % 0x100)
    else if a < 0x80000 then m.sesRead ((a - 0x60000) / 0x20) ((a - 0x60000) % 0x20)
    else if a < 0xA0000 then m.reg a
    else if a < 0xC0000 then m.twnRead a
    else if a < 0x100000 then
      let t := (a - 0xC0000) / 0x400
      match (a - 0xC0000) % 0x400 with
      | 0x00 => m.tenStatRead t
      | 0x05 => m.cqNextRead t
      | _ => m.reg a
    else if a < 0x200000 then m.carRegRead w ((a - 0x100000) / 0x40) ((a - 0x100000) % 0x40)
    else if a < 0x204000 then m.ceRead ((a - 0x200000) / 0x100) ((a - 0x200000) % 0x100)
    else if a < 0x240000 then m.ceGlobalRead (a - 0x204000)
    else if a < 0x260000 then m.laneRead a
    else if a < 0x280000 then
      if a = Reg.sealUsed then w48 m.rollUsed else if a = Reg.sealBacklog then w48 m.sealing.queue.length else m.reg a
    else if a < 0x2A0000 then m.laneRead a
    else if a < 0x2C0000 then
      if 0x2A0100 ≤ a && a < 0x2A0220 && a % 16 = 0 then m.memDevRead ((a - 0x2A0100) / 16) else m.reg a
    else if a < 0x300000 then m.cluRead w a
    else if a < 0x320000 then m.reg a
    else if a < 0x340000 then m.stkRead w a
    else if a < 0x360000 then m.intRead a
    else if a < 0x380000 then m.reg a
    else m.srRead (a - 0x380000)

/-- A read of STK_SNAPVAL (R416): the value, and whether the read is refused. -/
def Mach.snapRead (m : Mach) (snap : Option Mach) (w : Who) : Word × Bool :=
  let a := (m.reg Reg.stkSnapaddr).toNat
  match snap with
  | some k =>
    if !m.bit Reg.stkStat F.stkStatValid || 0x320000 ≤ a then (0, false)
    else if m.pDenied w a false then (0, true)
    else (k.pValue w a, false)
  | none => (0, false)

/-- The codewords a line's FEC has corrected since PRT_FECCORR was last read, a free number where the link is up with an FEC, join
the counter (R100; log 6). -/
def Mach.fecCount (m : Mach) (a : Nat) : Mach :=
  let p := (a - 0x40000) / 0x100
  if 0x40000 ≤ a && a < 0x60000 && (a - 0x40000) % 0x100 = 0x0F && m.linkUp p && m.fld (Reg.prtCtl p) F.prtCtlFec ≠ 0 then
    let (k, m1) := m.draw
    m1.count a k
  else m

/-- A read that has passed its checks, with what it changes: a refused snapshot read sets STK_STAT.DENIED, and the FEC counter is
brought up to date. -/
def Mach.pRead (m : Mach) (snap : Option Mach) (w : Who) (a : Nat) : Word × Mach :=
  if a = Reg.stkSnapval then
    let (v, denied) := m.snapRead snap w
    (v, if denied then m.setFld Reg.stkStat F.stkStatDenied 1 else m)
  else ((m.fecCount a).pValue w a, m.fecCount a)

/-! ### Writes -/

/-- The bits of a mask stored. -/
def Mach.store (m : Mach) (a : Nat) (mask v : Word) : Mach := m.setReg a ((m.reg a &&& ~~~ mask) ||| (v &&& mask))

/-- The bits of a mask cleared where 1 is written (R11). -/
def Mach.clearBits (m : Mach) (a : Nat) (mask v : Word) : Mach := m.setReg a (m.reg a &&& ~~~ (v &&& mask))

/-- A register stored for whoever may write it. -/
def Mach.storeIf (m : Mach) (ok : Bool) (a : Nat) (mask v : Word) : Mach := if ok then m.store a mask v else m

/-- The EtherTypes PRT_CTL.ETYPE may not hold (R100). -/
def etypeReserved (n : Nat) : Bool := n < 0x0600 || n = 0x0800 || n = 0x0806 || n = 0x8100 || n = 0x86DD || n = 0x8808 || n = 0x88F7

/-- PRT_CTL as a write leaves it: reserved values keep their field (R9, R100). -/
def prtCtlWord (old v : Word) : Word :=
  let keep := fun (x : Word) (f : Fld) (bad : Bool) => if bad then x else fset x f (fget v f)
  let w0 := [F.prtCtlEn, F.prtCtlAn, F.prtCtlPtp, F.prtCtlPlain, F.prtCtlOwner].foldl (fun x f => fset x f (fget v f)) old
  keep (keep (keep (keep (keep w0 F.prtCtlMode (fget v F.prtCtlMode = 3)) F.prtCtlFec (fget v F.prtCtlFec = 3)) F.prtCtlRto
    (fget v F.prtCtlRto = 0)) F.prtCtlIdle (fget v F.prtCtlIdle < 8)) F.prtCtlEtype (etypeReserved (fget v F.prtCtlEtype))

/-- A write of a PRT_ register (R99, R100, R102): clearing EN takes the link down. -/
def Mach.prtSet (m : Mach) (w : Who) (p o : Nat) (v : Word) : Mach :=
  if !m.mayPort w p then m
  else match o with
    | 0x01 => m.setReg (Reg.prtMac p) v
    | 0x02 =>
      let m1 := if fbit v F.prtCtlEn then m else m.portDown p
      m1.setReg (Reg.prtCtl p) (prtCtlWord (m.reg (Reg.prtCtl p)) v)
    | 0x03 => m.setReg (Reg.prtTenmask p) (v &&& 0xFFFF)
    | 0x05 => m.clearBits (Reg.prtPtptxFrac p) (fmask F.prtPtptxFracValid ||| fmask F.prtPtptxFracOver) v
    | 0x06 => m.portResetSet w p v
    | _ => m

/-- A write of an RT_ register (R62). -/
def Mach.rtSet (m : Mach) (w : Who) (o : Nat) (v : Word) : Mach :=
  match o with
  | 0x02 => m.clearBits Reg.rtStat 0x78 v
  | 0x03 => m.rtCtlSet w v
  | 0x04 => m.storeIf w.sr Reg.rtNextsec 0xFFFFFFFFFF v
  | 0x09 => m.store Reg.rtUtcoff 0xFFFF v
  | _ => m

/-- A write of a BELL_ or GATE_ register (R56, R61, R63). -/
def Mach.bellSet (m : Mach) (w : Who) (a : Nat) (v : Word) : Mach :=
  if 0x21000 ≤ a && a < 0x22000 then
    let b := (a - 0x21000) / 4
    match a % 4 with
    | 0 => m.bellTimeSet w b false v
    | 1 => m.bellTimeSet w b true v
    | 2 => m.bellActSet w b v
    | _ => m.clearBits (Reg.bellStat b) 6 v
  else if 0x28000 ≤ a && a < 0x30000 && a % 8 = 0 then m.gateKeySet w ((a - 0x28000) / 8) v
  else m

/-- A write of an ACC_ register (R112, R113, R130). -/
def Mach.accSet (m : Mach) (w : Who) (t o : Nat) (v : Word) : Mach :=
  match o with
  | 0x00 => m.accCtlSet w t v
  | 0x01 => m.accRing w t false v
  | 0x02 => m.accRing w t true v
  | 0x04 => m.accTail w t v
  | 0x07 => m.accQuotaSet w t v
  | 0x08 => m.accNextSet w t true v
  | 0x09 => m.accNextSet w t false v
  | _ => m

/-- A write of a TWN_ register (R144, R161, R162). -/
def Mach.twnSet (m : Mach) (w : Who) (o : Nat) (v : Word) : Mach :=
  match o with
  | 0x03 => m.twnCtlSet w v
  | 0x04 => m.storeIf w.sr Reg.twnHoldoff 0xFFFF v
  | 0x0E => m.mirPageSet w v
  | 0x10 => m.storeIf (w.sr && v.toNat % 2 ^ 24 ≠ 0) Reg.twnMirbudget 0xFFFFFF v
  | _ => m

/-- A write of a SEAL_ register (R171, R176, R177). -/
def Mach.sealSet (m : Mach) (w : Who) (o : Nat) (v : Word) : Mach :=
  match o with
  | 1 => m.sealCtlSet w 0 v
  | 2 => m.sealCtlSet w 1 v
  | 3 => m.sealCtlSet w 2 v
  | 5 => m.sealTailSet w v
  | 0xB => m.storeIf w.sr Reg.sealPeerkeyid (~~~ 0#48) v
  | _ => m

/-- A write of a KX_ or CX_ register (R371, R383). -/
def Mach.laneSet (m : Mach) (w : Who) (a : Nat) (v : Word) : Mach :=
  if a = Reg.kxTwinslot then m.storeIf w.sr a (fmask F.kxTwinslotEn ||| fmask F.kxTwinslotSlot) v
  else if 0x240010 ≤ a && a < 0x240090 && a % 16 = 1 then m.laneCtlSet w (1 + (a - 0x240010) / 16) v
  else if 0x280010 ≤ a && a < 0x280050 && a % 16 = 1 then m.laneCtlSet w (9 + (a - 0x280010) / 16) v
  else if 0x241000 ≤ a && a < 0x241800 && a % 8 = 0 then m.slotOwnSet w ((a - 0x241000) / 8) v
  else if 0x241000 ≤ a && a < 0x241800 && a % 8 = 7 then m.slotClrSet w ((a - 0x241000) / 8) v
  else m

/-- A write of a MEM_ register (R333, R334, R336, R337). -/
def Mach.memSet (m : Mach) (w : Who) (o : Nat) (v : Word) : Mach :=
  match o with
  | 0x01 => m.memCtlSet w v
  | 0x02 => m.memAlarmSet w v
  | 0x08 => m.chgReqSet w v
  | 0x0A => m.srPageSet w v
  | _ => m

/-- EN_CLKFLOOR as a write leaves it: a reserved floor keeps its field (R9, R409). -/
def clkFloorWord (old v : Word) : Word :=
  [0, 1, 2, 3].foldl (fun x c => if clkOf v c = 3 then x else fset x ⟨2 * c + 1, 2 * c⟩ (clkOf v c)) old

/-- A write of an EN_ register (R409, R410). -/
def Mach.enSet (m : Mach) (w : Who) (o : Nat) (v : Word) : Mach :=
  if !w.house then m
  else if o = 1 then m.store Reg.enCtl (fmask F.enCtlAutogate) v
  else if o = 2 then m.store Reg.enPurse 0xFFFF v
  else if o = 3 then m.store Reg.enPursenext 0xFFFF v
  else if o = 6 then m.setReg Reg.enClkfloor (clkFloorWord (m.reg Reg.enClkfloor) v)
  else if 0x30 ≤ o && o < 0x40 then m.store (Reg.enTen (o - 0x30)) 1 v
  else if 0xC0 ≤ o && o < 0x110 then m.enGateSet w (o - 0xC0) v
  else m

/-- A write of a STK_ register (R424, R426). -/
def Mach.stkSet (m : Mach) (w : Who) (o : Nat) (v : Word) : Mach :=
  match o with
  | 0 => m.clearBits Reg.stkStat (fmask F.stkStatDenied) v
  | 1 =>
    let pins := if m.bit Reg.srAttrPin F.srAttrPinStkt && !w.sr then 0 else fmask F.stkCtlPinen ||| fmask F.stkCtlOuten
    m.storeIf w.house Reg.stkCtl (pins ||| fmask F.stkCtlFaultsrc) v
  | 2 => m.stkFireSet w v
  | 3 => m.stkArmSet w v
  | 8 => m.store Reg.stkSnapaddr 0xFFFFFFFF v
  | _ => m

/-- A write of INT_ROUTE of a listed source (R420, R425, R426). -/
def Mach.routeSet (m : Mach) (w : Who) (i : Nat) (v : Word) : Mach :=
  let sr := i = 26 || m.bit (Reg.intRoute i) F.intRouteSr
  if !intListed i || !w.house || (sr && !w.sr) then m
  else m.store (Reg.intRoute i) (if w.sr && i ≠ 26 then 0xFFE00000FFFF else 0xBFE00000FFFF) v

/-- A write of an INT_ or NOTE_ register (R425, R426). -/
def Mach.intSet (m : Mach) (w : Who) (a : Nat) (v : Word) : Mach :=
  if a < 0x340800 then
    let i := (a - 0x340000) / 2
    if a % 2 = 0 then m.routeSet w i v
    else if m.mayInt w i then m.clearBits (Reg.intStat i) 3 v else m
  else if a = Reg.intRaise then m.intRaiseSet w v
  else if 0x341000 ≤ a && a < 0x341080 then
    let t := (a - 0x341000) / 8
    match (a - 0x341000) % 8 with
    | 0 => if w.openTen t then m.clearBits (Reg.noteStat t) (fmask F.noteStatOvf) v else m
    | 4 => m.notePopSet w t v
    | _ => m
  else m

/-- A write of the register at an address that has passed its checks (R8, R11): each register's own write rule; a reserved
offset, and a register that is read only, changes nothing. -/
def Mach.pWrite (m : Mach) (w : Who) (a : Nat) (v : Word) : Mach :=
  if (regRow? a).isNone then m
  else if a < 0x10000 then m.storeIf (w.house && a = Reg.modAlerten) a 0x3F v
  else if a < 0x20000 then m.rtSet w (a - 0x10000) v
  else if a < 0x40000 then m.bellSet w a v
  else if a < 0x60000 then m.prtSet w ((a - 0x40000) / 0x100) ((a - 0x40000) % 0x100) v
  else if a < 0x80000 then
    if (a - 0x60000) % 0x20 = 6 then m.sesCtlWrite w ((a - 0x60000) / 0x20) v else m
  else if a < 0xA0000 then
    if 0x81000 ≤ a then m.accSet w ((a - 0x81000) / 0x100) ((a - 0x81000) % 0x100) v else m
  else if a < 0xC0000 then m.twnSet w (a - 0xA0000) v
  else if a < 0x100000 then m.tenSet w ((a - 0xC0000) / 0x400) ((a - 0xC0000) % 0x400) v
  else if a < 0x200000 then m.carSet w ((a - 0x100000) / 0x40) ((a - 0x100000) % 0x40) v
  else if a < 0x204000 then
    if (a - 0x200000) % 0x100 = 1 then m.ceCtlSet w ((a - 0x200000) / 0x100) v else m
  else if a < 0x240000 then (if a = Reg.ceQuantum then m.quantumSet w v else m)
  else if a < 0x260000 then m.laneSet w a v
  else if a < 0x280000 then m.sealSet w (a - 0x260000) v
  else if a < 0x2A0000 then m.laneSet w a v
  else if a < 0x2C0000 then m.memSet w (a - 0x2A0000) v
  else if 0x2FF000 ≤ a && a < 0x300000 then m.selfSet w w.seat (a - 0x2FF000) v
  else if a < 0x300000 then m.cluSet w ((a - 0x2C0000) / 0x1000) ((a - 0x2C0000) % 0x1000) v
  else if a < 0x320000 then m.enSet w (a - 0x300000) v
  else if a < 0x340000 then m.stkSet w (a - 0x320000) v
  else if a < 0x360000 then m.intSet w a v
  else if a < 0x380000 then
    if a = Reg.ucCtl then m.ucCtlSet w v else m.storeIf (w.sr && a = Reg.ucLoadaddr) a 0xFFFFFFFF v
  else if w.sr then m.srSet (a - 0x380000) v
  else m

/-- REGISTER_WRITE (R11): a write that reaches the block after its checks; one they stop moves no data. -/
def execRegisterWrite (w : Who) (a : Nat) (v : Word) (s : State) : Host.Outcome State Fault Refusal :=
  s.lift fun m => if (m.pCheck w a true).isSome then m else m.pWrite w a v

end Sys2Proof.Machine
end

