-- ==== Sys2Proof/Machine/CoreMem.lean ====
section
/-! DEFINITION. Memory and I/O instructions, ACCN and DOOR as commands (R124, R125, R178, R179, R236, R237, R253, R256). -/

namespace Sys2Proof.Machine

open Sys2Proof

/-! ### Shared bodies -/

/-- Every earlier store of the seat completes before an action instruction (R236, R306). -/
def drainStores (q : Nat) : CoreAct Unit := modMach fun m => m.drain q

/-- What every agent's stores have left at an address. -/
def cohAt (p : Nat) : CoreAct Cont := fun m => .ok (m.coh p, m)

/-- What a core's own accesses see at an address. -/
def seenAt (q p : Nat) : CoreAct Cont := fun m => .ok (m.seen q p, m)

/-- LD (R253). -/
def ldBody (q : Nat) : CoreAct Flow := do
  stackOp q 1 1 fun l => do
    let a ← getArch q
    let w ← loadAt q a.wld (vaddr (l.getD 0 0))
    pure [w]
  pure (.next false)

/-- ST (R253). -/
def stBody (q : Nat) : CoreAct Flow := do
  stackOp q 2 0 fun l => do
    let a ← getArch q
    storeAt q a.wld (vaddr (l.getD 1 0)) .store (l.getD 0 0)
    pure []
  pure (.next false)

/-- The compare and swap of R237 at a level, which makes the checks of a store and of a load whether or not the values match:
the old payload. -/
def casAt (q wld a : Nat) (e n : Word) : CoreAct Word := do
  let (p, s) ← storeOk q wld a .store
  let c ← cohAt p
  if c.isPoison then coreExc Cause.poison 0 (a / 4096)
  if !Acc.load.tagPass (srLevel wld) c.tag.toNat then coreExc Cause.type c.tag.toNat (a / 4096)
  let x ← getArch q
  modMach fun m =>
    let m1 := m.nsAccess q (lineOf p)
    if c.pay = e then m1.nsStore q p (storeCont (x.psw wld) .store s n) else m1
  pure c.pay

/-- CAS (R237). -/
def casBody (q : Nat) : CoreAct Flow := do
  drainStores q
  stackOp q 3 1 fun l => do
    let a ← getArch q
    let o ← casAt q a.wld (vaddr (l.getD 0 0)) (l.getD 1 0) (l.getD 2 0)
    pure [o]
  pure (.next true)

/-- ILD (R253). -/
def ildBody (q : Nat) : CoreAct Flow := do
  needLevel q fun l => !taskLevel l
  stackOp q 1 1 fun l => do
    let x ← getArch q
    let a := vaddr (l.getD 0 0)
    let (p, _) ← xlate q x.wld a .ild
    modMach fun m => m.lineSeen q (lineOf p)
    let c ← seenAt q p
    checkCont q x.wld a .ild p c
    pure [c.pay]
  pure .solo

/-- IST (R253). -/
def istBody (q : Nat) : CoreAct Flow := do
  needLevel q fun l => !taskLevel l
  stackOp q 2 0 fun l => do
    let x ← getArch q
    storeAt q x.wld (vaddr (l.getD 1 0)) .ist (l.getD 0 0)
    pure []
  pure .solo

/-- The window check of a task-level access (R207): the PPROT detail where it fails. -/
def Mach.windowFault (m : Mach) (q p : Nat) : Option Nat :=
  let a := m.arch q
  if !taskLevel a.wld then none
  else match m.carOf a.ten a.pid (srLevel a.wld) with
    | none => some 2
    | some c =>
      let base := (m.reg (Reg.carWinbase c)).toNat
      let size := (m.reg (Reg.carWinsize c)).toNat
      if size = 0 then some 2 else if base ≤ p && p < base + size then none else some 1

/-- The checks of IN and OUT (R253): the window, the map, the SR registers. -/
def pAccess (q p : Nat) (write : Bool) : CoreAct Unit := fun m =>
  match m.windowFault q p with
  | some d => coreExc Cause.pprot d 0 m
  | none => match m.pCheck (m.coreWho q) p write with
    | some .address => coreExc Cause.paddr 0 0 m
    | some .protect => coreExc Cause.pprot 0 0 m
    | none => .ok ((), m)

/-- A read that has passed its checks, the stocktake's snapshot at hand. -/
def pReadAct (snap : Option Mach) (q p : Nat) : CoreAct Word := fun m => .ok (m.pRead snap (m.coreWho q) p)

/-- IN (R253). -/
def inBody (snap : Option Mach) (q : Nat) : CoreAct Flow := do
  stackOp q 1 1 fun l => do
    let p := paddr (l.getD 0 0)
    pAccess q p false
    drainStores q
    let w ← pReadAct snap q p
    pure [w]
  pure (.next true)

/-- OUT (R253): the register is written once the instruction has left its place, before the next syllable (R236). -/
def outBody (q : Nat) : CoreAct Flow := do
  stackCheck q false 2 0
  let l ← popN q 2
  let p := paddr (l.getD 0 0)
  pAccess q p true
  drainStores q
  modMach fun m => ((m.countInstr q false).advancePc q 1).pWrite (m.coreWho q) p (l.getD 1 0)
  pure .done

/-! ### ACCN (R124, R125) -/

/-- Words loaded from a D-space address on. -/
def loadN (q wld a : Nat) : Nat → CoreAct (List Word)
  | 0 => pure []
  | n + 1 => do
    let w ← loadAt q wld (a % 2 ^ 40)
    let l ← loadN q wld (a + 1) n
    pure (w :: l)

/-- The top of the data stack, left there. -/
def peekTop (q : Nat) : CoreAct Word := do
  let a ← getArch q
  let w ← popStk q false
  setArch q a
  pure w

/-- Whether a request block has a non-zero reserved field, or a length above 248 (R124). -/
def accnBad (w : List Word) : Bool :=
  nbits (w.getD 0 0).toNat 34 8 ≠ 0 || nbits (w.getD 1 0).toNat 47 16 ≠ 0 || nbits (w.getD 3 0).toNat 47 40 ≠ 0 ||
    248 < (w.getD 0 0).toNat % 256

/-- The item of a request block with its body. -/
def accnItem (w body : List Word) : LcpItem :=
  { id := (w.getD 1 0).toNat % 65536 * 2 ^ 48 + (w.getD 2 0).toNat, game := nbits (w.getD 0 0).toNat 47 36, itype := 1
    len := 6 * body.length, body := body }

/-- W4 to W6 of a request block. -/
def accnAnswer (status : Nat) (d : Disp) (n : Nat) : List Word :=
  [w48 (status * 2 ^ 44 + (if status = 0 then dispCode d else 0)), hiWord n, loWord n]

/-- The item of an ACCN enters the merge (R103, R125). -/
def Mach.accnEnter (m : Mach) (q t : Nat) (w body : List Word) : Mach :=
  let x : MergeItem :=
    { stamp := m.rt, valid := m.rtValid, port := 256, ses := 0, frm := m.order, pos := 0, ten := t, cgen := 0, ord := 0
      at_ := m.now + 134, item := accnItem w body, orig := true, gated := nbit (w.getD 0 0).toNat 35, badFmt := accnBad w
      seat := q }
  ({ m with merge := mergeAdd x m.merge, order := m.order + 1 } : Mach).setSeat q { m.seat q with accn := some none }

/-- The status of an ACCN that stamps nothing (R125); while the fence latch is set no item enters the merge (R149). -/
def Mach.accnTurned (m : Mach) (t : Nat) : Option Nat :=
  if !m.serving || m.twin.latch || !m.accEn t then some 2 else if m.backPressed t then some 1 else none

/-- W4 to W6 stored and W4 pushed in place of the operand (R125). -/
def accnFinish (q status : Nat) (d : Disp) (n : Nat) : CoreAct Flow := do
  stackOp q 1 1 fun l => do
    let x ← getArch q
    let a := vaddr (l.getD 0 0)
    let r := accnAnswer status d n
    storeAt q x.wld ((a + 4) % 2 ^ 40) .store (r.getD 0 0)
    storeAt q x.wld ((a + 5) % 2 ^ 40) .store (r.getD 1 0)
    storeAt q x.wld ((a + 6) % 2 ^ 40) .store (r.getD 2 0)
    pure [r.getD 0 0]
  pure (.next true)

/-- ACCN (R125): the block and body read, then the answer at once, or the item in the merge and the seat waiting. -/
def accnBody (q : Nat) : CoreAct Flow := do
  needLevel q fun l => l ≤ 1
  modMach fun m => m.closeGroup q
  stackCheck q false 1 1
  let top ← peekTop q
  let x ← getArch q
  let a := vaddr top
  let w ← loadN q x.wld a 4
  let n := (w.getD 0 0).toNat % 256
  let body ← loadN q x.wld (vaddr (w.getD 3 0)) (if 248 < n then 0 else n)
  let _ ← storeOk q x.wld ((a + 4) % 2 ^ 40) .store
  let _ ← storeOk q x.wld ((a + 5) % 2 ^ 40) .store
  let _ ← storeOk q x.wld ((a + 6) % 2 ^ 40) .store
  let t : Option Nat ← (fun m => .ok (m.accnTurned x.ten, m) : CoreAct (Option Nat))
  match t with
  | some st => accnFinish q st .accepted 0
  | none => do
    modMach fun m => m.accnEnter q x.ten w body
    pure .hold

/-- ACCN completes (R125): the seat's instruction retires with what the accession unit has decided. -/
def Mach.accnComplete (m : Mach) (q : Nat) : Mach :=
  match (m.seat q).accn with
  | some (some (st, d, n)) =>
    if m.up && (m.seatState q = 1 || m.seatState q = 2) then
      let m1 := m.setSeat q { m.seat q with accn := none }
      m1.coreEnd q 1 (m1.arch q).pc (accnFinish q st d n m1)
    else m
  | _ => m

/-! ### DOOR (R178 to R180) -/

/-- A job context that is free, whichever the module chooses; none where all 16,384 are in use (R179). -/
def Mach.freeCtx (m : Mach) : Option (Nat × Mach) :=
  let l := (List.range 16384).filter fun x => !tmem m.jobs x
  if l.isEmpty then none
  else
    let (f, m1) := m.draw
    some (l.getD (f % l.length) 0, m1)

/-- A tenant or carrel reset in progress (R213, R215). -/
def Mach.carResetting (m : Mach) (c : Nat) : Bool := m.carState c = 2 || tmem m.tenResets (m.carTen c)

/-- The result of DOOR with job words J0 and J1 at `a` for a core of a tenant, PID and world (R179, R208): the code, and the
state with the job queued where it is 0. -/
def Mach.door (m : Mach) (t pid : Nat) (sr : Bool) (a : Nat) (j0 j1 : Word) : Nat × Mach :=
  let no := fun (k : Nat) => (k, m.count Reg.ceRefused)
  if a % 8 ≠ 0 || nbits j0.toNat 45 40 ≠ 0 then no 5
  else if !m.bit (Reg.tenCtl t) F.tenCtlEn then no 3
  else match m.carOf t pid sr with
    | none => no 3
    | some c =>
      if m.carResetting c then no 4
      else if m.fld (Reg.carCtl c) F.carCtlQuota ≤ m.occ c then no 1
      else match m.freeCtx with
        | none => no 2
        | some (x, m1) =>
          let j : Job :=
            { ctx := x, carrel := c, gen := m.carGen c, ten := t, sr := sr, cls := nbits j0.toNat 47 46, blk := a, tag := j1
              slip := j0.toNat % 2 ^ 40 }
          (0, (((m1.setJob x { j with st := .waiting }).makeReady x).count Reg.ceDoors).count (Reg.carDoors c))

/-- DOOR (R179). -/
def doorBody (q : Nat) : CoreAct Flow := do
  drainStores q
  stackOp q 1 1 fun l => do
    let x ← getArch q
    let a := vaddr (l.getD 0 0)
    let j0 ← loadAt q x.wld a
    let j1 ← loadAt q x.wld ((a + 1) % 2 ^ 40)
    let (p, sp) ← storeOk q x.wld ((a + 2) % 2 ^ 40) .store
    let r ← (fun m => .ok (m.door x.ten x.pid (srLevel x.wld) a j0 j1) : CoreAct Nat)
    if r = 0 then storePut q x.wld p sp .store (j2Word 1 (j0.toNat % 2 ^ 40))
    pure [w48 r]
  pure (.next true)

/-! ### The commands -/

/-- LD (R253). -/
def execLd (q : SeatId) (s : State) : Host.Outcome State Fault Refusal := s.lift fun m => m.coreRun q.val 1 (ldBody q.val)

/-- ST (R253). -/
def execSt (q : SeatId) (s : State) : Host.Outcome State Fault Refusal := s.lift fun m => m.coreRun q.val 1 (stBody q.val)

/-- CAS (R237, R253). -/
def execCas (q : SeatId) (s : State) : Host.Outcome State Fault Refusal := s.lift fun m => m.coreRun q.val 1 (casBody q.val)

/-- ILD (R253). -/
def execIld (q : SeatId) (s : State) : Host.Outcome State Fault Refusal := s.lift fun m => m.coreRun q.val 1 (ildBody q.val)

/-- IST (R253). -/
def execIst (q : SeatId) (s : State) : Host.Outcome State Fault Refusal := s.lift fun m => m.coreRun q.val 1 (istBody q.val)

/-- IN (R253). -/
def execInp (q : SeatId) (s : State) : Host.Outcome State Fault Refusal :=
  s.lift fun m => m.coreRun q.val 1 (inBody s.snap q.val)

/-- OUT (R253). -/
def execOutp (q : SeatId) (s : State) : Host.Outcome State Fault Refusal := s.lift fun m => m.coreRun q.val 1 (outBody q.val)

/-- ACCN (R125, R256). -/
def execAccn (q : SeatId) (s : State) : Host.Outcome State Fault Refusal := s.lift fun m => m.coreRun q.val 1 (accnBody q.val)

/-- ACCN_COMPLETE (R125). -/
def execAccnComplete (q : SeatId) (s : State) : Host.Outcome State Fault Refusal := s.lift fun m => m.accnComplete q.val

/-- DOOR (R179, R256). -/
def execDoor (q : SeatId) (s : State) : Host.Outcome State Fault Refusal := s.lift fun m => m.coreRun q.val 1 (doorBody q.val)

end Sys2Proof.Machine
end

