-- ==== Sys2Proof/Machine/CoreCtl.lean ====
section
/-! DEFINITION. Control, level changes, control cells, waiting and ordering as commands (R223 to R228, R233 to R236, R241, R254,
R255, R257, R270, R273 to R279). -/

namespace Sys2Proof.Machine

open Sys2Proof

/-! ### Prediction (R273 to R276, R279) -/

/-- A two-bit counter moved by a resolved branch (R273). -/
def counterMove (n : Nat) (taken : Bool) : Nat := if taken then min 3 (n + 1) else n - 1

/-- A retired BZ or BNZ at linear syllable `lin`: whether its direction was mispredicted, and the state (R273, R279). -/
def Seat.condBranch (s : Seat) (lin : Nat) (taken : Bool) : Bool × Seat :=
  if s.arch.bar then (false, s)
  else if srLevel s.arch.wld then
    let n := tabGet (fun _ => 1) s.srBank (lin % 256)
    (Bool.xor (2 ≤ n) taken, { s with srBank := tabPut (fun _ => 1) (lin % 256) (counterMove n taken) s.srBank })
  else
    let n := tabGet (fun _ => 1) s.openBank (lin % 4096)
    (Bool.xor (2 ≤ n) taken, { s with
      openBank := tabPut (fun _ => 1) (lin % 4096) (counterMove n taken) s.openBank
      ghr := (2 * s.ghr + b2n taken) % 65536 })

/-- A retired BZ or BNZ with its counts (R299). -/
def Mach.condRetire (m : Mach) (q lin : Nat) (taken : Bool) : Mach :=
  let (miss, s) := (m.seat q).condBranch lin taken
  let m1 := (m.setSeat q s).pmc q 0x04 1
  if miss then (m1.pmc q 0x05 1).wrongPath q else m1

/-- A retired JMPI or CALLI (R275, R276, R279): whether a matching entry held the target, none where the target is computed at
decode, and the state. -/
def Seat.indBranch (s : Seat) (lin target : Nat) : Option Bool × Seat :=
  if s.arch.bar || srLevel s.arch.wld then (none, s)
  else
    let i := (lin ^^^ s.ghr) % 512
    let tag := nbits lin 17 9
    let hit := match tfind s.ind i with
      | some e => if e.tag = tag then some (e.target == target) else none
      | none => none
    (hit, { s with ind := tabInsert i { tag := tag, target := target } s.ind })

/-- A target computed at decode: whether INDMISS counts it as not predicted correctly is a free value (R275, R299; log 71). -/
def Mach.indDecoded (m : Mach) (q : Nat) : Mach :=
  if m.pmcWants q 0x06 then
    let (n, m1) := m.draw
    m1.pmc q 0x06 (n % 2)
  else m

/-- A retired JMPI or CALLI with its count and the wrong path of a stored target that was wrong (R281, R299). -/
def Mach.indRetire (m : Mach) (q lin target : Nat) : Mach :=
  match (m.seat q).indBranch lin target with
  | (some true, s) => m.setSeat q s
  | (some false, s) => ((m.setSeat q s).pmc q 0x06 1).wrongPath q
  | (none, s) => (m.setSeat q s).indDecoded q

/-! ### Branches and calls (R254, R255) -/

/-- BZ and BNZ: the branch is taken where the operand's being zero is `z`. -/
def condBody (q : Nat) (z : Bool) (off : BitVec 16) : CoreAct Flow := do
  let a ← getArch q
  stackCheck q false 1 0
  let x ← popStk q false
  let taken := (x == 0#48) == z
  modMach fun m => m.condRetire q (linearOf a.pc) taken
  pure (if taken then .jump (branchTarget a.pc off) else .next false)

/-- BR. -/
def brBody (q : Nat) (off : BitVec 16) : CoreAct Flow := do
  let a ← getArch q
  pure (.jump (branchTarget a.pc off))

/-- CALL. -/
def callBody (q : Nat) (off : BitVec 16) : CoreAct Flow := do
  let a ← getArch q
  stackCheck q true 0 1
  pushStk q true (w48 (nextPc a.pc 3 a.litk))
  pure (.jump (branchTarget a.pc off))

/-- ILLEGAL where a word is not in PC format (R255). -/
def needPc (w : Word) : CoreAct Unit := if pcFormat w then pure () else coreExc Cause.illegal 0

/-- RET. -/
def retBody (q : Nat) : CoreAct Flow := do
  stackCheck q true 1 0
  let r ← popStk q true
  needPc r
  modMach fun m => m.indDecoded q
  pure (.jump r.toNat)

/-- JMPI. -/
def jmpiBody (q : Nat) : CoreAct Flow := do
  let a ← getArch q
  stackCheck q false 1 0
  let t ← popStk q false
  needPc t
  modMach fun m => m.indRetire q (linearOf a.pc) t.toNat
  pure (.jump t.toNat)

/-- ILLEGAL where the top of the data stack, if it can be read, is not in PC format (R234, R255). -/
def pcFirst (q : Nat) : CoreAct Unit := fun m =>
  match (do stackCheck q false 1 0; popStk q false : CoreAct Word) m with
  | .ok (t, _) => if pcFormat t then .ok ((), m) else coreExc Cause.illegal 0 0 m
  | .error _ => .ok ((), m)

/-- CALLI: a target that is not in PC format is found before the return stack's bounds (R234). -/
def calliBody (q : Nat) : CoreAct Flow := do
  let a ← getArch q
  pcFirst q
  stackCheck q false 1 0
  stackCheck q true 0 1
  let t ← popStk q false
  needPc t
  pushStk q true (w48 (nextPc a.pc 1 a.litk))
  modMach fun m => m.indRetire q (linearOf a.pc) t.toNat
  pure (.jump t.toNat)

/-! ### Changes of level (R224, R226, R233) -/

/-- A pending FP report is taken before an instruction that waits as FBAR does (R233, R270). -/
def fpFirst (q : Nat) : CoreAct Unit := do
  let a ← getArch q
  if a.fp.isSome then coreExc Cause.fp 0

/-- The bounds of a move of `n` entries from the current level to level `h`, neither changed (R224). -/
def xferCheck (q h n : Nat) : CoreAct Unit := do
  let a ← getArch q
  match a.stackFault false n 0 with
  | some 2 => coreExc Cause.dstack 2
  | some _ => coreExc Cause.dstack 3
  | none =>
    let p := (a.cell (h + 1) 1).toNat
    let b := (a.cell (h + 1) 3).toNat
    let l := (a.cell (h + 1) 4).toNat
    if h ≠ a.wld && n ≠ 0 && (p < b || l < p + n) then coreExc Cause.dstack 3

/-- The top `n` entries leave the sender's stack, the deepest first, and the rest of both stacks is spilled, where the level
changes (R224, R226). -/
def leaveLevel (q h n : Nat) : CoreAct (List Word) := do
  let a ← getArch q
  if h = a.wld then pure []
  else
    let l ← popN q n
    spillStk q false
    spillStk q true
    pure l.reverse

/-- SVC and CALLM with `n` entries (R224, R233), at a level of `p`. -/
def enterBody (q : Nat) (p : Nat → Bool) (cause : Nat) (mon : Bool) (n : BitVec 8) : CoreAct Flow := do
  let n ← xferCount n
  needLevel q p
  fpFirst q
  let a ← getArch q
  let h := if mon then 4 else handlerOf a.wld
  xferCheck q h n
  let l ← leaveLevel q h n
  modMach fun m => (m.countInstr q false).enterLevel q h cause n 0 false (nextPc a.pc 3 a.litk)
  pushAll q l
  pure .done

/-- Whether a level may return to another (R224). -/
def mayReturn (wld src : Nat) : Bool :=
  if wld = 4 then src ≤ 4 else src ≤ wld && srLevel src == srLevel wld

/-- A seat back at level `h` at `pc`, XA of the level it leaves cleared (R233). -/
def Mach.returnTo (m : Mach) (q h pc : Nat) : Mach :=
  let s := m.seat q
  let wld := s.arch.wld
  let s1 := s.setLevel h
  let a := s1.arch.setCell (wld + 1) 7 (fset (s1.arch.psw wld) Psw.xa 0)
  m.setSeat q { s1 with arch := { a with
    pc := pc, litk := 0, ds := if h = wld then a.ds else [], rs := if h = wld then a.rs else [] } }

/-- RETS, RETM and ERET at a level of `p` (R224, R233). -/
def returnBody (q : Nat) (p : Nat → Bool) (n : Nat) : CoreAct Flow := do
  needLevel q p
  let a ← getArch q
  let h := nbits (a.cell (a.wld + 1) 0xD).toNat 31 29
  let xpc := a.cell (a.wld + 1) 0xE
  if !mayReturn a.wld h then coreExc Cause.priv 0
  needPc xpc
  xferCheck q h n
  let l ← leaveLevel q h n
  modMach fun m => (m.countInstr q false).returnTo q h xpc.toNat
  pushAll q l
  pure .done

/-! ### Control cells (R226 to R228) -/

/-- GETC (R226, R227, R270). -/
def getcBody (q : Nat) (c : BitVec 8) : CoreAct Flow := do
  let a ← getArch q
  let n := cellOf c
  let b := bankAt a.wld c
  cellCheck a.wld c false
  if n = 0xC then fpFirst q
  stackCheck q false 0 1
  if (n = 1 || n = 2) && b = a.wld + 1 then spillStk q (n == 2)
  let x ← getArch q
  pushStk q false (x.cellValue b n)
  pure .solo

/-- A value's reserved bits in a cell, or a reserved rounding mode in FPC.RM (R228, R266). -/
def reservedBits (n : Nat) (v : Word) : Bool := v &&& ~~~ w48 (cellMask n) ≠ 0 || (n = 0xC && 4 < fget v Fpc.rm)

/-- ILLEGAL where the operand, if it can be read, has a reserved bit of a named cell set (R228, R234). -/
def reservedFirst (q n : Nat) : CoreAct Unit := fun m =>
  match (do stackCheck q false 1 0; popStk q false : CoreAct Word) m with
  | .ok (v, _) => if reservedBits n v then coreExc Cause.illegal 1 0 m else .ok ((), m)
  | .error _ => .ok ((), m)

/-- PRIV for a TEN that a core may not take (R228). -/
def tenCheck (q : Nat) (v : Word) : CoreAct Unit := fun m =>
  let t := v.toNat % 16
  if !m.bit (Reg.tenCtl t) F.tenCtlEn || (m.bit (Reg.tenCtl t) F.tenCtlCert && m.splitSeat q) then coreExc Cause.priv 0 0 m
  else .ok ((), m)

/-- A cell written by SETC (R226 to R228): at a task level PSW takes V only. -/
def setcWrite (a : Arch) (b n : Nat) (v : Word) : Arch :=
  if n = 7 && taskLevel a.wld then a.cellWrite b 7 (fset (a.cell b 7) Psw.v (fget v Psw.v)) else a.cellWrite b n v

/-- SETC (R226 to R228, R270). -/
def setcBody (q : Nat) (c : BitVec 8) : CoreAct Flow := do
  let n := cellOf c
  cellNamed c
  reservedFirst q n
  let a ← getArch q
  cellCheck a.wld c true
  if n = 0xC then fpFirst q
  stackCheck q false 1 0
  let v ← popStk q false
  if reservedBits n v then coreExc Cause.illegal 1
  if n = 9 then tenCheck q v
  let x ← getArch q
  setArch q (setcWrite x (bankAt x.wld c) n v)
  pure .solo

/-! ### WAIT and fences (R235, R236) -/

/-- WAIT (R235). -/
def waitBody (q : Nat) : CoreAct Flow := do
  needLevel q fun l => !taskLevel l
  let a ← getArch q
  setArch q { a with waiting := true }
  pure (.next true)

/-- FENCE (R236): every earlier access completes. -/
def fenceBody (q : Nat) : CoreAct Flow := do
  modMach fun m => (m.drain q).fillsDone q
  pure (.next true)

/-- WAIT ends where an interrupt routed to the seat is pending, and the interrupt is taken where it can be (R235). -/
def Mach.waitDone (m : Mach) (q : Nat) : Mach :=
  let a := m.arch q
  if m.boundaryReady q && a.waiting && m.pendingInts.any (m.routedTo q) then
    (m.setArch q { a with waiting := false }).takeInt q
  else m

/-! ### The commands -/

/-- BR (R254). -/
def execBr (q : SeatId) (off : BitVec 16) (s : State) : Host.Outcome State Fault Refusal :=
  s.lift fun m => m.coreRun q.val 3 (brBody q.val off)

/-- BZ (R254). -/
def execBz (q : SeatId) (off : BitVec 16) (s : State) : Host.Outcome State Fault Refusal :=
  s.lift fun m => m.coreRun q.val 3 (condBody q.val true off)

/-- BNZ (R254). -/
def execBnz (q : SeatId) (off : BitVec 16) (s : State) : Host.Outcome State Fault Refusal :=
  s.lift fun m => m.coreRun q.val 3 (condBody q.val false off)

/-- CALL (R254). -/
def execCall (q : SeatId) (off : BitVec 16) (s : State) : Host.Outcome State Fault Refusal :=
  s.lift fun m => m.coreRun q.val 3 (callBody q.val off)

/-- RET (R255). -/
def execRet (q : SeatId) (s : State) : Host.Outcome State Fault Refusal := s.lift fun m => m.coreRun q.val 1 (retBody q.val)

/-- JMPI (R255). -/
def execJmpi (q : SeatId) (s : State) : Host.Outcome State Fault Refusal := s.lift fun m => m.coreRun q.val 1 (jmpiBody q.val)

/-- CALLI (R255). -/
def execCalli (q : SeatId) (s : State) : Host.Outcome State Fault Refusal := s.lift fun m => m.coreRun q.val 1 (calliBody q.val)

/-- The 11 words of the nonce that an ATTEST call names in the caller's D-space, as the caller may read them; none where it may not
(R344, R356). -/
def Mach.nonceAt (m : Mach) (q wld a : Nat) : Option (List Word) :=
  (List.range 11).foldr (fun i acc => match acc, loadAt q wld (a + i) m with
    | some ws, .ok (w, _) => some (w :: ws)
    | _, _ => none) (some [])

/-- An ATTEST call (R344, R347; log 123): a supervisor of the open world moved the service code 0x06 on top and the nonce's address
beneath it, with the output's beneath that. -/
def attestCall (q wld : Nat) (l : List Word) : CoreAct Unit := modMach fun m =>
  match l with
  | c :: a :: _ :: _ =>
    if wld = 1 && c = 6#48 && m.committed then
      match m.nonceAt q wld a.toNat with
      | some ws => m.attestStart q ws
      | none => m
    else m
  | _ => m

/-- CALLM: into the monitor, whose image may serve it with the signer of the seal engine (R224, R344, R347). -/
def callmBody (q : Nat) (n : BitVec 8) : CoreAct Flow := do
  let a ← getArch q
  let f ← enterBody q (fun l => l ≠ 4) Cause.callm true n
  attestCall q a.wld ((← getArch q).ds.take n.toNat)
  pure f

/-- CALLM (R224): during a restart a seat of the open world waits at it (R348). -/
def execCallm (q : SeatId) (n : BitVec 8) (s : State) : Host.Outcome State Fault Refusal :=
  s.lift fun m =>
    if m.restarting && !srLevel (m.arch q.val).wld then m
    else m.coreRun q.val 3 (callmBody q.val n)

/-- RETM: the end of a service the monitor gave (R224, R344). -/
def retmBody (q : Nat) (n : BitVec 8) : CoreAct Flow := do
  let n ← xferCount n
  let f ← returnBody q (fun l => l = 4) n
  modMach fun m => m.attestEnd q
  pure f

/-- RETM (R224). -/
def execRetm (q : SeatId) (n : BitVec 8) (s : State) : Host.Outcome State Fault Refusal :=
  s.lift fun m => m.coreRun q.val 3 (retmBody q.val n)

/-- SVC (R224). -/
def execSvc (q : SeatId) (n : BitVec 8) (s : State) : Host.Outcome State Fault Refusal :=
  s.lift fun m => m.coreRun q.val 3 (enterBody q.val (fun l => l ≠ 4) Cause.svc false n)

/-- RETS (R224). -/
def execRets (q : SeatId) (n : BitVec 8) (s : State) : Host.Outcome State Fault Refusal :=
  s.lift fun m => m.coreRun q.val 3 (do
    let n ← xferCount n
    returnBody q.val (fun l => l = 1 || l = 3) n)

/-- ERET (R224). -/
def execEret (q : SeatId) (s : State) : Host.Outcome State Fault Refusal :=
  s.lift fun m => m.coreRun q.val 2 (returnBody q.val (fun l => !taskLevel l) 0)

/-- GETC (R227). -/
def execGetc (q : SeatId) (c : BitVec 8) (s : State) : Host.Outcome State Fault Refusal :=
  s.lift fun m => m.coreRun q.val 3 (getcBody q.val c)

/-- SETC (R227, R228). -/
def execSetc (q : SeatId) (c : BitVec 8) (s : State) : Host.Outcome State Fault Refusal :=
  s.lift fun m => m.coreRun q.val 3 (setcBody q.val c)

/-- WAIT (R235). -/
def execWait (q : SeatId) (s : State) : Host.Outcome State Fault Refusal := s.lift fun m => m.coreRun q.val 2 (waitBody q.val)

/-- FENCE (R236). -/
def execFence (q : SeatId) (s : State) : Host.Outcome State Fault Refusal := s.lift fun m => m.coreRun q.val 2 (fenceBody q.val)

/-- IFENCE (R236): every earlier store and IST is visible to later fetches. -/
def execIfence (q : SeatId) (s : State) : Host.Outcome State Fault Refusal :=
  s.lift fun m => m.coreRun q.val 2 (do
    drainStores q.val
    modMach fun m => m.setSeat q.val { m.seat q.val with istOld := [], word := none }
    pure (.next true))

/-- WAIT_END (R235). -/
def execWaitEnd (q : SeatId) (s : State) : Host.Outcome State Fault Refusal := s.lift fun m => m.waitDone q.val

/-- INTERRUPT_TAKE (R235). -/
def execInterruptTake (q : SeatId) (s : State) : Host.Outcome State Fault Refusal :=
  s.lift fun m => if m.boundaryReady q.val then m.takeInt q.val else m

/-- FP_TRAP_REPORT (R270): a pending report is taken at the seat's boundary. -/
def execFpTrapReport (q : SeatId) (s : State) : Host.Outcome State Fault Refusal :=
  s.lift fun m => if m.boundaryReady q.val && !(m.arch q.val).waiting then m.fpDue q.val true else m

/-- PFLUSH (R278). -/
def execPflush (q : SeatId) (s : State) : Host.Outcome State Fault Refusal :=
  s.lift fun m => m.coreRun q.val 2 (do
    modMach fun m => m.setSeat q.val (m.seat q.val).clearPrediction
    pure .solo)

/-- PBAR (R279). -/
def execPbar (q : SeatId) (s : State) : Host.Outcome State Fault Refusal :=
  s.lift fun m => m.coreRun q.val 2 (do
    let a ← getArch q.val
    setArch q.val { a with bar := true }
    pure .solo)

/-- PUNBAR (R279). -/
def execPunbar (q : SeatId) (s : State) : Host.Outcome State Fault Refusal :=
  s.lift fun m => m.coreRun q.val 2 (do
    let a ← getArch q.val
    setArch q.val { a with bar := false }
    pure .solo)

end Sys2Proof.Machine
end

