-- ==== Sys2Proof/Machine/CoreNs.lean ====
section
/-! DEFINITION. Near-store and stacks maintenance, locks, fills and write-backs as commands (R257, R258, R282 to R288, R296). -/

namespace Sys2Proof.Machine

open Sys2Proof

/-! ### Invalidation and ranges (R287, R288) -/

/-- A locked entry skipped by NSIR or NSFR is counted (R287). -/
def Mach.skipped (m : Mach) (q : Nat) : Mach :=
  let a := m.arch q
  m.setArch q (a.setReg 0x11 (w48 ((a.reg 0x11).toNat + 1)))

/-- Clean of a line by a maintenance instruction: the stores of the group that wait for the line are cleaned as they reach it
(R287, R306). -/
def Mach.nsClean (m : Mach) (q line : Nat) : Mach := (m.markStores q line 1).cleanLine q line

/-- Flush of a line by a maintenance instruction, and of the stores that wait for it (R287, R306). -/
def Mach.nsFlush (m : Mach) (q line : Nat) : Mach := (m.markStores q line 2).flushLine q line

/-- Invalidate of a line by its address (R287, R288): a buffered copy is discarded, and the stores that wait for the line with it. -/
def Mach.invalLine (m0 : Mach) (q line : Nat) : Mach :=
  let m := (m0.settle q line).loseStores q line
  match (m.seat q).entryOf line with
  | some i => m.dropEnt q i
  | none => m.setSeat q { m.seat q with evb := (m.seat q).evb.filter fun e => e.line ≠ line }

/-- Whether a line has a locked entry. -/
def Seat.lockedAt (s : Seat) (line : Nat) : Bool := match s.entryOf line with
  | some i => (s.ent i).locked
  | none => false

/-- Invalidate of a line by range: a locked entry is skipped (R287). -/
def Mach.invalRange (m0 : Mach) (q line : Nat) : Mach :=
  let m := m0.settle q line
  if (m.seat q).lockedAt line then m.skipped q else m.invalLine q line

/-- Flush of a line by range: a locked entry is cleaned and skipped (R287). -/
def Mach.flushRange (m0 : Mach) (q line : Nat) : Mach :=
  let m := m0.settle q line
  if (m.seat q).lockedAt line then (m.nsClean q line).skipped q else m.nsFlush q line

/-- The fill in progress of entry `i` completes first (R288). -/
def Mach.settleEnt (m : Mach) (q i : Nat) : Mach := if ((m.seat q).ent i).filling then m.fillsDone q else m

/-- Whether entry `i` holds a line or is allocated to one. -/
def NsEnt.used (e : NsEnt) : Bool := e.valid || e.locked

/-- Clean of entry `i`, and of the stores that wait for its line (R287, R306). -/
def Mach.nsCleanEnt (m : Mach) (q i : Nat) : Mach :=
  let e := (m.seat q).ent i
  (if e.used then m.markStores q e.line 1 else m).cleanEnt q i

/-- Invalidate of entry `i`, and of the stores that wait for its line. -/
def Mach.nsDropEnt (m : Mach) (q i : Nat) : Mach :=
  let e := (m.seat q).ent i
  (if e.used then m.loseStores q e.line else m).dropEnt q i

/-- Flush of entry `i`, and of the stores that wait for its line. -/
def Mach.nsFlushEnt (m : Mach) (q i : Nat) : Mach :=
  let e := (m.seat q).ent i
  ((if e.used then m.markStores q e.line 2 else m).cleanEnt q i).dropEnt q i

/-! ### Locks (R284) -/

/-- Locked entries of a seat. -/
def Seat.lockCount (s : Seat) : Nat := (s.ns.filter fun e => e.2.locked).length

/-- Lines of a stacks set locked in near stores of a cluster. -/
def Mach.setLocks (m : Mach) (c line : Nat) : Nat :=
  ((m.seats.filter fun e => cluOf e.1 = c).flatMap fun e =>
    (e.2.ns.filter fun x => x.2.locked && x.2.line % 4096 = line % 4096).map fun x => x.2.line).eraseDups.length

/-- Entry `i` locked under a virtual line. -/
def Mach.lockEnt (m : Mach) (q i vline : Nat) : Mach :=
  m.setSeat q ((m.seat q).setEnt i { (m.seat q).ent i with locked := true, vline := vline })

/-- NSLOCK of a line: whether it is locked, and the state (R284). -/
def Mach.nsLock (m0 : Mach) (q line vline : Nat) : Bool × Mach :=
  let m := m0.settle q line
  let s := m.seat q
  if s.lockedAt line then (true, m)
  else if 16 ≤ s.lockCount || 12 ≤ m.setLocks (cluOf q) line then (false, m)
  else match s.holds line with
    | some i => (true, m.lockEnt q i vline)
    | none =>
      match s.evb.find? fun e => e.line = line with
      | some e =>
        let (i, m1) := (m.setSeat q { s with evb := s.evb.filter fun x => x.line ≠ line }).fill q line
        let m2 := m1.fillsDone q
        (true, (m2.setSeat q ((m2.seat q).setEnt i { (m2.seat q).ent i with words := e.words })).lockEnt q i vline)
      | none =>
        let (i, m1) := (m.snoopRead (some q) line).fill q line
        (true, (m1.noteNs q .miss).lockEnt q i vline)

/-- NSUNLK of a line (R284): a locked-empty entry becomes invalid. -/
def Mach.nsUnlock (m0 : Mach) (q line : Nat) : Mach :=
  let m := m0.settle q line
  let s := m.seat q
  match s.entryOf line with
  | some i => if (s.ent i).valid then m.setSeat q (s.setEnt i { s.ent i with locked := false, vline := 0 }) else m.dropEnt q i
  | none => m

/-! ### Shared bodies -/

/-- The physical address of a maintenance instruction's word after its checks (R257). -/
def maintAddr (q a : Nat) (k : Acc) : CoreAct Nat := do
  let x ← getArch q
  let (p, _) ← xlate q x.wld a k
  modMach fun m => m.lineSeen q (lineOf p)
  let c ← seenAt q p
  checkCont q x.wld a k p c
  pure p

/-- A maintenance instruction by address (R257, R287), at a supervisor level or the monitor with `sup`. -/
def lineBody (q : Nat) (sup : Bool) (k : Acc) (f : Mach → Nat → Mach) : CoreAct Flow := do
  needLevel q fun l => !sup || !taskLevel l
  stackOp q 1 0 fun l => do
    let p ← maintAddr q (vaddr (l.getD 0 0)) k
    modMach fun m => f m (lineOf p)
    pure []
  pure .solo

/-- A maintenance instruction by entry (R257, R287). -/
def entryBody (q : Nat) (f : Mach → Nat → Mach) : CoreAct Flow := do
  needLevel q fun l => !taskLevel l
  stackOp q 1 0 fun l => do
    let i := (l.getD 0 0).toNat % 64
    modMach fun m => f (m.settleEnt q i) i
    pure []
  pure .solo

/-- The lines of `n` words from physical address `p` treated. -/
def treatLines (f : Mach → Nat → Mach) (p n : Nat) (m : Mach) : Mach :=
  ((List.range (lineOf (p + n - 1) - lineOf p + 1)).map (lineOf p + ·)).foldl f m

/-- The words `a` to `a + n - 1` of one page checked: the physical address of the first (R257, R258). -/
def pageCheck (q wld a n : Nat) (k : Acc) : CoreAct Nat := do
  let (p, _) ← xlate q wld a k
  modMach fun m => treatLines (fun x l => x.lineSeen q l) p n m
  (fun m =>
    match (List.range n).find? fun i => !m.keyPass q wld k (p + i) (m.seen q (p + i)) with
    | some _ => coreExc Cause.key k.keyDetail (a / 4096) m
    | none => .ok (p, m) : CoreAct Nat)

/-- A range cut at a page boundary: the operands still to be treated stand on the stack (R258). -/
def rangeCut (q a n : Nat) (w : Flow) (m : Mach) : Except Exc (Flow × Mach) :=
  match pushAll q [w48 a, w48 n] m with
  | .ok (_, m1) => .ok (w, m1)
  | .error e => .error e

/-- The pages of a range in ascending order (R258): at each boundary an interrupt that may be taken is, and a fault of the next
page is raised with what is left to treat as operands. -/
def rangePages (q wld : Nat) (k : Acc) (f : Mach → Nat → Mach) (first : Bool) : Nat → Nat → Nat → Mach → Except Exc (Flow × Mach)
  | 0, _, _, m => .ok (.solo, m)
  | pages + 1, a, n, m =>
    let take := min n (4096 - a % 4096)
    if !first && m.boundaryReady q && (m.intFor q).isSome then rangeCut q a n .again m
    else match pageCheck q wld a take k m with
      | .error e => if first then .error e else rangeCut q a n (.fault e) m
      | .ok (p, m1) =>
        let m2 := treatLines f p take m1
        if take = n then .ok (.solo, m2) else rangePages q wld k f false pages ((a + take) % 2 ^ 40) (n - take) m2

/-- A range instruction (R258). -/
def rangeBody (q : Nat) (sup : Bool) (k : Acc) (f : Mach → Nat → Mach) : CoreAct Flow := do
  needLevel q fun l => !sup || !taskLevel l
  stackCheck q false 2 0
  let l ← popN q 2
  let x ← getArch q
  let n := (l.getD 0 0).toNat
  let a := vaddr (l.getD 1 0)
  if n = 0 then pure .solo
  else rangePages q x.wld k f true (n / 4096 + 2) a n

/-! ### Lines in transit (R283, R285, R325) -/

/-- NS_FILL_DONE: the line of entry `i` has arrived, with what its read from memory found. -/
def Mach.nsFilled (m : Mach) (q i : Nat) (e : LineErr) : Mach :=
  let x := (m.seat q).ent i
  if m.up && x.filling then
    let m1 := m.readCheck x.line e
    m1.setSeat q ((m1.seat q).fillDone i)
  else m

/-! ### The commands -/

/-- NSCA (R287). -/
def execNsca (q : SeatId) (s : State) : Host.Outcome State Fault Refusal :=
  s.lift fun m => m.coreRun q.val 2 (lineBody q.val false .readCheck fun m l => m.nsClean q.val l)

/-- NSIA (R287). -/
def execNsia (q : SeatId) (s : State) : Host.Outcome State Fault Refusal :=
  s.lift fun m => m.coreRun q.val 2 (lineBody q.val true .storeCheck fun m l => m.invalLine q.val l)

/-- NSFA (R287). -/
def execNsfa (q : SeatId) (s : State) : Host.Outcome State Fault Refusal :=
  s.lift fun m => m.coreRun q.val 2 (lineBody q.val false .readCheck fun m l => m.nsFlush q.val l)

/-- NSCE (R287). -/
def execNsce (q : SeatId) (s : State) : Host.Outcome State Fault Refusal :=
  s.lift fun m => m.coreRun q.val 2 (entryBody q.val fun m i => m.nsCleanEnt q.val i)

/-- NSIE (R287). -/
def execNsie (q : SeatId) (s : State) : Host.Outcome State Fault Refusal :=
  s.lift fun m => m.coreRun q.val 2 (entryBody q.val fun m i => m.nsDropEnt q.val i)

/-- NSFE (R287). -/
def execNsfe (q : SeatId) (s : State) : Host.Outcome State Fault Refusal :=
  s.lift fun m => m.coreRun q.val 2 (entryBody q.val fun m i => m.nsFlushEnt q.val i)

/-- NSCR (R258, R287). -/
def execNscr (q : SeatId) (s : State) : Host.Outcome State Fault Refusal :=
  s.lift fun m => m.coreRun q.val 2 (rangeBody q.val false .readCheck fun m l => m.nsClean q.val l)

/-- NSIR (R258, R287). -/
def execNsir (q : SeatId) (s : State) : Host.Outcome State Fault Refusal :=
  s.lift fun m => m.coreRun q.val 2 (rangeBody q.val true .storeCheck fun m l => m.invalRange q.val l)

/-- NSFR (R258, R287). -/
def execNsfr (q : SeatId) (s : State) : Host.Outcome State Fault Refusal :=
  s.lift fun m => m.coreRun q.val 2 (rangeBody q.val false .readCheck fun m l => m.flushRange q.val l)

/-- NSLOCK (R284). -/
def execNslock (q : SeatId) (s : State) : Host.Outcome State Fault Refusal :=
  s.lift fun m => m.coreRun q.val 2 (do
    needLevel q.val fun l => !taskLevel l
    stackOp q.val 1 1 fun l => do
      let a := vaddr (l.getD 0 0)
      let p ← maintAddr q.val a .readCheck
      let ok ← (fun m => .ok (m.nsLock q.val (lineOf p) (a / 64)) : CoreAct Bool)
      pure [truth ok]
    pure .solo)

/-- NSUNLK (R284). -/
def execNsunlk (q : SeatId) (s : State) : Host.Outcome State Fault Refusal :=
  s.lift fun m => m.coreRun q.val 2 (lineBody q.val true .readCheck fun m l => m.nsUnlock q.val l)

/-- L2CA (R296). -/
def execL2ca (q : SeatId) (s : State) : Host.Outcome State Fault Refusal :=
  s.lift fun m => m.coreRun q.val 2 (lineBody q.val false .readCheck fun m l => (m.markStores q.val l 3).cleanAll l)

/-- L2FA (R296). -/
def execL2fa (q : SeatId) (s : State) : Host.Outcome State Fault Refusal :=
  s.lift fun m => m.coreRun q.val 2 (lineBody q.val false .readCheck fun m l => (m.markStores q.val l 4).removeAll l)

/-- NS_FILL_DONE (R283). -/
def execNsFillDone (q : SeatId) (i : Fin 64) (err : LineErr) (s : State) : Host.Outcome State Fault Refusal :=
  s.lift fun m => m.nsFilled q.val i.val err

/-- The oldest buffered line has been written back and is checked (R285, R332); it waits where its write would stall (R146,
R330). -/
def Mach.writtenBack (m : Mach) (q : Nat) (err : LineErr) : Mach :=
  match (m.seat q).evb.find? fun e => e.entry.isNone with
  | some e => m.stalled ((m.writeBack q).readCheck e.line err)
  | none => m

/-- EVICTION_WRITEBACK_DONE (R285, R332). -/
def execEvictionWritebackDone (q : SeatId × LineErr) (s : State) : Host.Outcome State Fault Refusal :=
  s.lift fun m => if m.up then m.writtenBack q.1.val q.2 else m

end Sys2Proof.Machine
end

