-- ==== Sys2Proof/Machine/LedgerCmds.lean ====
section
/-! DEFINITION. The commands of the merge, the accession registers and the seal engine (R103 to R130, R169 to R177). -/

namespace Sys2Proof.Machine

open Sys2Proof

/-- MERGE_EMIT (R104, R107, R451). -/
def execMergeEmit (s : State) : Host.Outcome State Fault Refusal := s.lift fun m => if m.up then m.emitOne else m

/-- ACC_TAIL_WRITE (R113). -/
def execAccTailWrite (w : Who) (t : TenId) (v : Word) (s : State) : Host.Outcome State Fault Refusal :=
  s.lift fun m => m.accTail w t.val v

/-- ACC_RING_WRITE (R112, R129). -/
def execAccRingWrite (w : Who) (t : TenId) (size : Bool) (v : Word) (s : State) : Host.Outcome State Fault Refusal :=
  s.lift fun m => m.accRing w t.val size v

/-- ACC_CTL_WRITE (R130). -/
def execAccCtlWrite (w : Who) (t : TenId) (v : Word) (s : State) : Host.Outcome State Fault Refusal :=
  s.lift fun m => m.accCtlSet w t.val v

/-- ACC_QUOTA_WRITE (R130). -/
def execAccQuotaWrite (w : Who) (t : TenId) (v : Word) (s : State) : Host.Outcome State Fault Refusal :=
  s.lift fun m => m.accQuotaSet w t.val v

/-- ACC_NEXT_WRITE (R130). -/
def execAccNextWrite (w : Who) (t : TenId) (hi : Bool) (v : Word) (s : State) : Host.Outcome State Fault Refusal :=
  s.lift fun m => m.accNextSet w t.val hi v

/-- SEAL_APPEND (R169). -/
def execSealAppend (s : State) : Host.Outcome State Fault Refusal := s.lift fun m => if m.up then m.sealAppend else m

/-- SEAL_TAIL_WRITE (R171). -/
def execSealTailWrite (w : Who) (v : Word) (s : State) : Host.Outcome State Fault Refusal := s.lift fun m => m.sealTailSet w v

/-- SEAL_CTL_WRITE (R176): SEAL_CTL, SEAL_RBASE or SEAL_RSIZE. -/
def execSealCtlWrite (w : Who) (i : Fin 3) (v : Word) (s : State) : Host.Outcome State Fault Refusal :=
  s.lift fun m => m.sealCtlSet w i.val v

end Sys2Proof.Machine
end

