-- ==== Sys2Proof/Machine/Slips.lean ====
section
/-! DEFINITION. Call slips: the commands a clerk engine runs for a job, the waits they begin and what ends them (R182 to R198). -/

namespace Sys2Proof.Machine

open Sys2Proof

/-! ### Slip words and extents (R183, R184) -/

/-- The opcode, flags [37:32] and operand of a slip word. -/
def slipOp (w : Word) : Nat := nbits w.toNat 47 40
def slipFlags (w : Word) : Nat := nbits w.toNat 37 32
def slipOperand (w : Word) : Nat := w.toNat % 2 ^ 32

/-- An error of a slip: its J2 code and detail. -/
abbrev SlipErr := Nat × Nat

/-- BADSLIP where a flag or operand bit that the command does not define is set (R183, R186). -/
def slipCheck (w : Word) (flags operand : Nat) : Except SlipErr Unit :=
  if slipFlags w &&& (63 - flags) ≠ 0 then .error (2, 1)
  else if slipOperand w &&& (2 ^ 32 - 1 - operand) ≠ 0 then .error (2, 2)
  else .ok ()

/-- An error where a condition holds. -/
def slipFail (b : Bool) (e : SlipErr) : Except SlipErr Unit := if b then .error e else .ok ()

/-- The space and address of an address word (R184); with `p` P-space is permitted. -/
def slipAddr (p : Bool) (x : Word) : Except SlipErr (Nat × Nat) :=
  if nbits x.toNat 43 40 ≠ 0 then .error (2, 2)
  else match nbits x.toNat 47 44 with
    | 0 => .ok (0, x.toNat % 2 ^ 40)
    | 1 => if !p then .error (2, 3) else if nbits x.toNat 39 32 ≠ 0 then .error (2, 2) else .ok (1, x.toNat % 2 ^ 32)
    | _ => .error (2, 3)

/-- The space, address and length of an extent (R184). -/
def slipExtent (p : Bool) (x0 x1 : Word) : Except SlipErr (Nat × Nat × Nat) := do
  let (s, a) ← slipAddr p x0
  if nbits x1.toNat 47 32 ≠ 0 then .error (2, 4) else .ok (s, a, x1.toNat % 2 ^ 32)

/-- The operand words of a job's slip (R183, R185). -/
def Mach.slipWords (m : Mach) (j : Job) (n : Nat) : Except SlipErr (List Word) := m.carReadN j.carrel j.sr (j.slip + 1) n

/-! ### Accesses of a slip (R184, R187, R207) -/

/-- Who a job's P-space accesses come from. -/
def Job.who (j : Job) : Who := { sr := j.sr, ten := j.ten, eng := true, task := false, seat := 0 }

/-- What stops a job's P-space access (R197, R207): the carrel's window, the map, the SR registers. -/
def Mach.slipPErr (m : Mach) (j : Job) (a : Nat) (write : Bool) : Option SlipErr :=
  let base := (m.reg (Reg.carWinbase j.carrel)).toNat
  if !(base ≤ a && a < base + (m.reg (Reg.carWinsize j.carrel)).toNat) then some (3, 0)
  else match m.pCheck j.who a write with
    | some .address => some (4, 0)
    | some .protect => some (3, 0)
    | none => none

/-- A word read for a slip, from D-space or P-space. -/
def Mach.slipRead (m : Mach) (snap : Option Mach) (j : Job) (sp a : Nat) : Except SlipErr (Word × Mach) :=
  if sp = 0 then (m.carRead j.carrel j.sr a).map fun w => (w, m.met j.carrel j.sr a 1)
  else match m.slipPErr j a false with
    | some e => .error e
    | none => .ok (m.pRead snap j.who a)

/-- A word written for a slip: suppressed by the fence where the job's generation is old (R213). -/
def Mach.slipWrite (m : Mach) (j : Job) (sp a : Nat) (v : Word) : Except SlipErr Mach :=
  if sp = 0 then (if m.stale j then .ok m else m.carWrite j.carrel j.sr a v)
  else match m.slipPErr j a true with
    | some e => .error e
    | none => .ok (m.pWrite j.who a v)

/-- The pages of D-space words written for a job marked, in the order written (R216); PROTECT where one could not be (R341). -/
def Mach.slipMark (m : Mach) (j : Job) (sp : Nat) (as : List Nat) : Option SlipErr × Mach :=
  if sp = 0 && !m.stale j then
    let r := m.markAll j.sr j.ten as
    (if r.1 then some (3, 0) else none, r.2)
  else (none, m)

/-- One word written for a slip with its page marked; where it cannot be marked nothing is written (DEDUCED, log 122). -/
def Mach.slipPut (m : Mach) (j : Job) (sp a : Nat) (v : Word) : Except SlipErr Mach := do
  let m1 ← m.slipWrite j sp a v
  match m1.slipMark j sp [a] with
  | (some e, _) => .error e
  | (none, m2) => .ok m2

/-! ### The end of a slip (R183, R198) -/

/-- Errors that SKIPERR skips (R197). -/
def skippable (code : Nat) : Bool := 3 ≤ code && code ≤ 0xC

/-- The slip of the job on engine `e` ends with a status, detail and count, and the job goes on at `next`, or ends where an
error is not skipped; with `keep` a slip that ends OK leaves ERR (R183). -/
def Mach.endSlip (m : Mach) (e x : Nat) (w : Word) (next : Nat) (keep : Bool) (r : SlipErr) (count : Nat) : Mach :=
  match m.job x with
  | none => m
  | some j =>
    if (m.engine e).job ≠ some x || j.st ≠ .running then m
    else if r.1 ≠ 0 && !(nbit w.toNat 39 && skippable r.1) then m.endJob x r.1 r.2 count j.slip
    else
      let m1 := if nbit w.toNat 38 then m.writeStatus j (j2Word r.1 j.slip) (j3Word r.2 count) else m
      (m1.setJob x { j with
        slip := next % 2 ^ 40, err := if r.1 ≠ 0 then true else if keep then j.err else false
        woken := false, wokenRes := 0, wokenCount := 0, found := none, deadline := none }).count (Reg.ceSlips e)

/-- A command's slip with `n` operand words ends; the engine's sequencer comes to its next safe point (R384). -/
def Mach.slipEnd (m : Mach) (e x : Nat) (j : Job) (w : Word) (n : Nat) (r : SlipErr) (count : Nat) : Mach :=
  (m.endSlip e x w (j.slip + 1 + n) false r count).seqRun 0 e

/-- The slip of a job that has waited ends as what woke it decided (R193). -/
def Mach.slipWoken (m : Mach) (e x : Nat) (j : Job) (w : Word) (n : Nat) : Mach :=
  m.slipEnd e x j w n (j.wokenRes / 65536, j.wokenRes % 65536) j.wokenCount

/-- A job leaves its engine to wait (R181, R193), with a timeout in folios from now where it has none yet. -/
def Mach.slipWait (m : Mach) (e x : Nat) (j : Job) (wt : Wait) (folios : Nat) : Mach :=
  let d := match j.deadline with
    | some d => some d
    | none => if folios = 0 then none else some (m.now + 4096 * folios)
  (m.leaveEngine e j).setJob x { j with st := .waiting, wait := wt, deadline := d }

/-- The job that engine `e` runs meets its next slip (R182, R185, R213): discarded where its generation is old, ended where the
slip word cannot be fetched, and run by `f` where `is` holds of the slip word. -/
def Mach.slipRun (m : Mach) (e : Nat) (is : Word → Bool) (f : Mach → Nat → Job → Word → Mach) : Mach :=
  match (m.engine e).job with
  | none => m
  | some x =>
    match m.job x with
    | none => m
    | some j =>
      if !m.up || j.st ≠ .running then m
      else if m.stale j then m.dropJob x
      else match m.carRead j.carrel j.sr j.slip with
        | .error r => m.endJob x r.1 r.2 0 j.slip
        | .ok w => if is w then m.stalled (f (m.met j.carrel j.sr j.slip 1) x j w) else m

/-- A slip of an opcode. -/
def Mach.slipOf (m : Mach) (e op : Nat) (f : Mach → Nat → Job → Word → Mach) : Mach := m.slipRun e (fun w => slipOp w = op) f

/-- A slip whose checks and `n` operand words decide what it does; an error ends it. -/
def Mach.slipDo (m : Mach) (e x : Nat) (j : Job) (w : Word) (n : Nat) (a : Except SlipErr Mach) : Mach :=
  (match a with
  | .error r => m.slipEnd e x j w n r 0
  | .ok m1 => m1).met j.carrel j.sr (j.slip + 1) n

/-! ### MOVE and FILL (R187) -/

/-- Words copied one by one, `n` in all and `k` of them left: how many were written, the error if any, the addresses written. -/
def moveLoop (snap : Option Mach) (j : Job) (s d : Nat × Nat) (up : Bool) (n : Nat) :
    Nat → List Nat → Mach → Nat × Option SlipErr × List Nat × Mach
  | 0, l, m => (n, none, l, m)
  | k + 1, l, m =>
    let i := if up then n - (k + 1) else k
    let wrap := fun (sp a : Nat) => if sp = 0 then a % 2 ^ 40 else a % 2 ^ 32
    match m.slipRead snap j s.1 (wrap s.1 (s.2 + i)) with
    | .error r => (n - (k + 1), some r, l, m)
    | .ok (v, m1) =>
      let a := wrap d.1 (d.2 + i)
      match m1.slipWrite j d.1 a v with
      | .error r => (n - (k + 1), some r, l, m1)
      | .ok m2 => moveLoop snap j s d up n k (a :: l) m2

/-- MOVE. -/
def Mach.slipMove (m : Mach) (snap : Option Mach) (e x : Nat) (j : Job) (w : Word) : Mach :=
  m.slipDo e x j w 4 do
    slipCheck w 0 0
    let l ← m.slipWords j 4
    let (ss, sa, n) ← slipExtent true (l.getD 0 0) (l.getD 1 0)
    let (ds, da, dn) ← slipExtent true (l.getD 2 0) (l.getD 3 0)
    slipFail (dn < n) (2, 4)
    let up := !(ss = ds && sa < da && da < sa + n)
    let (k, r, as, m1) := moveLoop snap j (ss, sa) (ds, da) up n n [] m
    let (p, m2) := m1.slipMark j ds as.reverse
    .ok (m2.slipEnd e x j w 4 ((r.orElse fun _ => p).getD (0, 0)) k)

/-- One value written to words, as `moveLoop`. -/
def fillLoop (j : Job) (v : Word) (sp a n : Nat) : Nat → List Nat → Mach → Nat × Option SlipErr × List Nat × Mach
  | 0, l, m => (n, none, l, m)
  | k + 1, l, m =>
    let b := (a + (n - (k + 1))) % (if sp = 0 then 2 ^ 40 else 2 ^ 32)
    match m.slipWrite j sp b v with
    | .error r => (n - (k + 1), some r, l, m)
    | .ok m1 => fillLoop j v sp a n k (b :: l) m1

/-- FILL. -/
def Mach.slipFill (m : Mach) (e x : Nat) (j : Job) (w : Word) : Mach :=
  m.slipDo e x j w 3 do
    slipCheck w 0 0
    let l ← m.slipWords j 3
    let (sp, a, n) ← slipExtent true (l.getD 1 0) (l.getD 2 0)
    let (k, r, as, m1) := fillLoop j (l.getD 0 0) sp a n n [] m
    let (p, m2) := m1.slipMark j sp as.reverse
    .ok (m2.slipEnd e x j w 3 ((r.orElse fun _ => p).getD (0, 0)) k)

/-! ### Lanes (R188) -/

/-- PACK, UNPACK and CRYPT: the descriptor goes to a lane and the job waits. -/
def Mach.slipLane (m : Mach) (kind e x : Nat) (j : Job) (w : Word) : Mach :=
  if j.woken then m.slipWoken e x j w 1
  else
    m.slipDo e x j w 1 do
      slipCheck w 0 0
      let l ← m.slipWords j 1
      let (_, a) ← slipAddr false (l.getD 0 0)
      .ok ((m.leaveEngine e j).takeLane x j kind [w48 a])

/-- Whether HASH's OPERAND is well formed (R188). -/
def hashOperand (w : Word) : Bool :=
  let alg := nbits w.toNat 3 0
  let n := nbits w.toNat 31 16
  alg ≤ 3 && nbits w.toNat 6 4 ≤ 5 && !nbit w.toNat 7 && (if alg ≤ 1 then n = 0 else 1 ≤ n && n ≤ 1024)

/-- HASH: the slip's operands go to a cipher lane and the job waits. -/
def Mach.slipHash (m : Mach) (e x : Nat) (j : Job) (w : Word) : Mach :=
  if j.woken then m.slipWoken e x j w 3
  else
    m.slipDo e x j w 3 do
      slipCheck w 32 (2 ^ 32 - 1)
      slipFail (!hashOperand w) (2, 2)
      let l ← m.slipWords j 3
      let (_, a, n) ← slipExtent false (l.getD 0 0) (l.getD 1 0)
      let (_, o) ← slipAddr false (l.getD 2 0)
      .ok ((m.leaveEngine e j).takeLane x j 1 [w, w48 a, w48 n, w48 o])

/-! ### SEND (R189 to R191) -/

/-- The extents among a SEND's operand words. -/
def sendExtents : List Word → Except SlipErr (List (Nat × Nat))
  | x0 :: x1 :: l => do
    let (_, a, n) ← slipExtent false x0 x1
    let es ← sendExtents l
    .ok ((a, n) :: es)
  | _ => .ok []

/-- The words of a list of D-space extents, gathered in order. -/
def Mach.gather (m : Mach) (j : Job) : List (Nat × Nat) → Except SlipErr (List Word)
  | [] => .ok []
  | (a, n) :: l => do
    let ws ← m.carReadN j.carrel j.sr a n
    let r ← m.gather j l
    .ok (ws ++ r)

/-- Words whose octets past the first `n` are zero. -/
def padWordsTo (n : Nat) (ws : List Word) : List Word := wordsOfOctets ws.length ((octetsOfWords ws).take n)

/-- SEND in session form. -/
def Mach.slipSend (m : Mach) (e x : Nat) (j : Job) (w : Word) : Mach :=
  let k := nbits w.toNat 29 28 + 1
  let n := 3 + 2 * k
  let s := nbits w.toNat 11 0
  let posted := nbit w.toNat 36
  if j.woken then m.slipWoken e x j w n
  else
    m.slipDo e x j w n do
      slipCheck w 16 0x3FFFFFFF
      let l ← m.slipWords j n
      let it := (l.getD 2 0).toNat
      let ty := nbits it 35 32
      let len := nbits it 10 0
      slipFail (nbits (l.getD 0 0).toNat 47 16 ≠ 0 || nbits it 31 11 ≠ 0 || (ty ≠ 1 && ty ≠ 2)) (2, 2)
      slipFail (1488 < len) (2, 4)
      let es ← sendExtents (l.drop 3)
      slipFail (((es.map Prod.snd).foldl (· + ·) 0) ≠ (len + 5) / 6) (2, 4)
      slipFail (!(m.sess s).used || (m.sess s).ten ≠ j.ten) (3, 0)
      let ws ← m.gather j es
      let m := es.foldl (fun y x => y.met j.carrel j.sr x.1 x.2) m
      let body := padWordsTo len ws
      let os := octetsOfWords body
      slipFail (ty = 2 && (!(m.sess s).storage || octField os 6 1 ≠ j.ten)) (3, 0)
      if !posted && j.posted.any (fun p => p.1 = s && p.2.2) then
        let j1 := { j with posted := j.posted.filter fun p => !(p.1 = s && p.2.2) }
        .ok ((m.setJob x j1).slipEnd e x j1 w n (8, 1) 0)
      else
        let i : LcpItem :=
          { id := (l.getD 0 0).toNat * 2 ^ 48 + (l.getD 1 0).toNat, game := nbits it 47 36, itype := ty, len := len, body := body }
        let r : ReplyWait :=
          { ses := s, ctx := x, item := i, volume := if ty = 2 then some (j.ten, octField os 0 6) else none, posted := posted
            placed := none }
        let m1 := m.slipWait e x j (.send s) (nbits w.toNat 27 12)
        .ok ({ m1 with replies := m1.replies ++ [r] } : Mach).flushReplies

/-- The EtherType of a frame, behind a VLAN tag where it has one (R190). -/
def rawEtype (os : List Octet) : Nat := if octField os 12 2 = 0x8100 then octField os 16 2 else octField os 12 2

/-- Whether a port's link is up and the port enabled. -/
def Mach.portOpen (m : Mach) (p : Nat) : Bool := m.portEn p && m.linkUp p

/-- Whether a raw frame may not go out on a port (R190). -/
def Mach.rawBarred (m : Mach) (j : Job) (p : Nat) (os : List Octet) : Bool :=
  (m.portSr p && !j.sr) || (m.fld (Reg.prtCtl p) F.prtCtlOwner ≠ j.ten && j.ten ≠ 0) ||
    rawEtype os = m.fld (Reg.prtCtl p) F.prtCtlEtype || rawEtype os = 0x8808

/-- SEND in raw form. -/
def Mach.slipRaw (m : Mach) (e x : Nat) (j : Job) (w : Word) : Mach :=
  let p := nbits w.toNat 7 0
  let posted := nbit w.toNat 36
  if j.woken then m.slipWoken e x j w 3
  else
    m.slipDo e x j w 3 do
      slipCheck w 48 0x0FFFF0FF
      let l ← m.slipWords j 3
      let len := nbits (l.getD 0 0).toNat 13 0
      slipFail (nbits (l.getD 0 0).toNat 47 14 ≠ 0) (2, 2)
      slipFail (len < 14 || 9212 < len) (2, 4)
      let (_, a, n) ← slipExtent false (l.getD 1 0) (l.getD 2 0)
      slipFail (n ≠ (len + 5) / 6) (2, 4)
      let ws ← m.carReadN j.carrel j.sr a n
      let m := m.met j.carrel j.sr a n
      let os := (octetsOfWords ws).take len
      slipFail (m.rawBarred j p os) (3, 0)
      if !m.portOpen p then .ok (m.slipWait e x j (.raw p false) (nbits w.toNat 27 12))
      else
        let m1 := m.setQueue p (m.queue p ++ [{ octs := os, ctx := x, posted := posted }])
        .ok (if posted then m1.slipEnd e x j w 3 (0, 0) 0 else m1.slipWait e x j (.raw p true) (nbits w.toNat 27 12))

/-! ### AWAIT (R192) -/

/-- The four words of a matched STORED item written at the result address, and the slip's end. -/
def Mach.awaitFound (m : Mach) (e x : Nat) (j : Job) (w : Word) (a : Nat) (f : StoredEnt) : Mach :=
  let vs := [hiWord f.id, loWord f.id, f.w0, f.w1]
  match m.jobWrites j.ten j.carrel j.sr ((List.range 4).zip vs |>.map fun v => ((a + v.1) % 2 ^ 40, v.2)) with
  | (n, some r, m1) => m1.slipEnd e x j w 2 r n
  | (_, none, m1) => m1.slipEnd e x j w 2 (0, 0) 0

/-- AWAIT. -/
def Mach.slipAwait (m : Mach) (e x : Nat) (j : Job) (w : Word) : Mach :=
  let s := nbits w.toNat 11 0
  let any := nbit w.toNat 37
  if j.woken && j.found.isNone then m.slipWoken e x j w 2
  else
    m.slipDo e x j w 2 do
      slipCheck w 32 0x0FFFFFFF
      let l ← m.slipWords j 2
      let v := (l.getD 0 0).toNat
      let (_, a) ← slipAddr false (l.getD 1 0)
      match j.found with
      | some f => .ok (m.awaitFound e x j w a f)
      | none => do
        slipFail (!(m.sess s).used || !(m.sess s).storage || (m.sess s).ten ≠ j.ten) (3, 0)
        match if any then none else (m.live s).stored.reverse.find? fun i => i.volume = v && i.ten = j.ten with
        | some f => .ok (m.awaitFound e x j w a f)
        | none => .ok (m.slipWait e x j (.await s (if any then none else some v) j.ten) (nbits w.toNat 27 12))

/-! ### Waiting (R193) -/

/-- Whether a WAITFOLIO condition holds for a folio (R193): 1 CLOSED, 2 HELD, 3 RELEASED. -/
def Mach.folioCond (m : Mach) (t mode f : Nat) : Bool :=
  let closed := (match (m.acc t).closedTo with
    | some c => f ≤ c
    | none => false) || (m.role = 3 && m.acked f)
  if mode = 1 then closed
  else if mode = 2 then closed && (m.role ≠ 1 || m.acked f)
  else f ≤ m.pair (Reg.accRelfHi t) (Reg.accRelfLo t)

/-- Whether what a job waits for holds now (R193). -/
def Mach.waitHolds (m : Mach) (j : Job) : Bool :=
  match j.wait with
  | .folioN f => f ≤ m.openFolio
  | .folio mode f => m.folioCond j.ten mode f
  | .rt t => t ≤ m.rt
  | _ => false

/-- A wait that ends at once where its condition holds, and else leaves the engine. -/
def Mach.slipAwaiting (m : Mach) (e x : Nat) (j : Job) (w : Word) (n : Nat) (wt : Wait) : Mach :=
  if m.waitHolds { j with wait := wt } then m.slipEnd e x j w n (0, 0) 0 else m.slipWait e x j wt 0

/-- WAITBELL. -/
def Mach.slipBell (m : Mach) (e x : Nat) (j : Job) (w : Word) : Mach :=
  let b := nbits w.toNat 9 0
  if j.woken then m.slipWoken e x j w 0
  else
    m.slipDo e x j w 0 do
      slipCheck w 0 0x3FF
      slipFail (fget (m.ebell b).act F.bellActOwner ≠ j.ten) (3, 0)
      slipFail (!fbit (m.ebell b).act F.bellActArm) (0xA, 0)
      .ok (m.slipWait e x j (.bell b) 0)

/-- WAITFOLIO. -/
def Mach.slipFolio (m : Mach) (e x : Nat) (j : Job) (w : Word) : Mach :=
  let mode := nbits w.toNat 37 36
  let n := if mode = 0 then 0 else 2
  if j.woken then m.slipWoken e x j w n
  else
    m.slipDo e x j w n do
      slipCheck w 48 (if mode = 0 then 2 ^ 32 - 1 else 0)
      if mode = 0 then do
        slipFail (slipOperand w = 0) (2, 2)
        .ok (m.slipAwaiting e x j w 0 (.folioN (m.openFolio + slipOperand w)))
      else do
        let l ← m.slipWords j 2
        slipFail (nbits (l.getD 0 0).toNat 47 4 ≠ 0) (2, 2)
        .ok (m.slipAwaiting e x j w 2 (.folio mode ((l.getD 0 0).toNat * 2 ^ 48 + (l.getD 1 0).toNat)))

/-- WAITRT. -/
def Mach.slipRt (m : Mach) (e x : Nat) (j : Job) (w : Word) : Mach :=
  let rel := nbit w.toNat 37
  let n := if rel then 0 else 2
  if j.woken then m.slipWoken e x j w n
  else
    m.slipDo e x j w n do
      slipCheck w 32 (if rel then 2 ^ 32 - 1 else 0)
      if rel then .ok (m.slipAwaiting e x j w 0 (.rt (m.rt + slipOperand w)))
      else do
        let l ← m.slipWords j 2
        let sec := (l.getD 0 0).toNat
        let frac := (l.getD 1 0).toNat
        slipFail (2 ^ 40 ≤ sec || 2 ^ 24 ≤ frac) (2, 2)
        .ok (m.slipAwaiting e x j w 2 (.rt (sec * 2 ^ 24 + frac)))

/-! ### Testing and branching (R194) -/

/-- The relation of TEST. -/
def testRel (r a b : Nat) : Bool :=
  match r with
  | 0 => a = b
  | 1 => a ≠ b
  | 2 => a < b
  | _ => b ≤ a

/-- CC of the job in context `x` given. -/
def Mach.setCc (m : Mach) (x : Nat) (b : Bool) : Mach := match m.job x with
  | some j => m.setJob x { j with cc := b }
  | none => m

/-- TEST: ERR stays where it ends OK (R183). -/
def Mach.slipTest (m : Mach) (snap : Option Mach) (e x : Nat) (j : Job) (w : Word) : Mach :=
  m.slipDo e x j w 3 do
    slipCheck w 0 0xFFFFF
    let rel := nbits w.toNat 19 16
    slipFail (3 < rel) (2, 2)
    let l ← m.slipWords j 3
    let (sp, a) ← slipAddr true (l.getD 0 0)
    let (v, m1) ← m.slipRead snap j sp a
    let step := slipOperand w % 65536
    let u := w48 (v.toNat + unsgn 48 (sgn 16 step))
    let m2 ← if step = 0 then .ok m1 else m1.slipPut j sp a u
    .ok ((m2.setCc x (testRel rel (u &&& l.getD 1 0).toNat (l.getD 2 0).toNat)).endSlip e x w (j.slip + 4) true (0, 0) 0)

/-- The slip address a signed number of words away (R194). -/
def slipTarget (j : Job) (off : Int) : Nat := unsgn 40 (j.slip + off)

/-- JUMP. -/
def Mach.slipJump (m : Mach) (e x : Nat) (j : Job) (w : Word) : Mach :=
  m.slipDo e x j w 0 do
    slipCheck w 0 (2 ^ 32 - 1)
    .ok (m.endSlip e x w (slipTarget j (sgn 32 (slipOperand w))) true (0, 0) 0)

/-- COND of JUMPIF. -/
def jumpCond (j : Job) (c : Nat) : Bool :=
  match c with
  | 0 => j.cc
  | 1 => !j.cc
  | 2 => j.err
  | _ => !j.err

/-- JUMPIF. -/
def Mach.slipJumpif (m : Mach) (e x : Nat) (j : Job) (w : Word) : Mach :=
  m.slipDo e x j w 0 do
    slipCheck w 48 0xFFFFFF
    .ok (m.endSlip e x w (if jumpCond j (nbits w.toNat 37 36) then slipTarget j (sgn 24 (slipOperand w)) else j.slip + 1) true
      (0, 0) 0)

/-! ### POST, locks and notes (R195, R196) -/

/-- Words written one after another from an address on, as POST writes them. -/
def postLoop (j : Job) (sp : Nat) : List Word → Nat → List Nat → Mach → Nat × Option SlipErr × List Nat × Mach
  | [], _, l, m => (l.length, none, l, m)
  | v :: vs, a, l, m =>
    match m.slipWrite j sp a v with
    | .error r => (l.length, some r, l, m)
    | .ok m1 => postLoop j sp vs ((a + 1) % (if sp = 0 then 2 ^ 40 else 2 ^ 32)) (a :: l) m1

/-- POST. -/
def Mach.slipPost (m : Mach) (e x : Nat) (j : Job) (w : Word) : Mach :=
  let js := nbit w.toNat 37
  let n := if js then 1 else 2
  m.slipDo e x j w n do
    slipCheck w 32 0
    let l ← m.slipWords j n
    let (sp, a) ← slipAddr true (l.getD 0 0)
    let vs ← if js then m.carReadN j.carrel j.sr (j.blk + 2) 2 else .ok [l.getD 1 0]
    let (k, r, as, m1) := postLoop j sp vs a [] (if js then m.met j.carrel j.sr (j.blk + 2) 2 else m)
    let (p, m2) := m1.slipMark j sp as.reverse
    .ok (m2.slipEnd e x j w n ((r.orElse fun _ => p).getD (0, 0)) k)

/-- The tag of a job's locks (R195). -/
def Job.lockTag (j : Job) : Word := w48 (2 ^ 47 + j.ctx * 2 ^ 33 + j.carrel * 2 ^ 21 + j.gen * 2 ^ 5)

/-- The word at a lock's address taken where it is 0: whether it was, or the error (R195). -/
def Mach.tryLock (m : Mach) (j : Job) (a : Nat) : Except SlipErr (Bool × Mach) := do
  let v ← m.carRead j.carrel j.sr a
  let m := m.met j.carrel j.sr a 1
  if v = 0 then do
    let m1 ← m.slipPut j 0 a j.lockTag
    .ok (true, m1)
  else .ok (false, m)

/-- LOCK. -/
def Mach.slipLock (m : Mach) (e x : Nat) (j : Job) (w : Word) : Mach :=
  if j.woken then m.slipWoken e x j w 1
  else
    m.slipDo e x j w 1 do
      slipCheck w 0 0xFFFF
      let l ← m.slipWords j 1
      let (_, a) ← slipAddr false (l.getD 0 0)
      let (ok, m1) ← m.tryLock j a
      .ok (if ok then m1.slipEnd e x j w 1 (0, 0) 0 else m1.slipWait e x j (.lock a) (slipOperand w % 65536))

/-- LOCK_RETRY (R195): a waiting LOCK tries again. -/
def Mach.lockAgain (m : Mach) (x : Nat) : Mach :=
  match m.job x with
  | none => m
  | some j =>
    match j.wait with
    | .lock a =>
      if !m.up || j.st ≠ .waiting then m
      else match m.tryLock j a with
        | .error r => m.wakeJob x r.1 r.2
        | .ok (ok, m1) => if ok then m.stalled (m1.wakeJob x 0 0) else m1
    | _ => m

/-- UNLOCK. -/
def Mach.slipUnlock (m : Mach) (e x : Nat) (j : Job) (w : Word) : Mach :=
  m.slipDo e x j w 1 do
    slipCheck w 0 0
    let l ← m.slipWords j 1
    let (_, a) ← slipAddr false (l.getD 0 0)
    let v ← m.carRead j.carrel j.sr a
    slipFail (v ≠ j.lockTag) (0xB, 0)
    let m := m.met j.carrel j.sr a 1
    let m1 ← m.slipPut j 0 a 0
    .ok (m1.slipEnd e x j w 1 (0, 0) 0)

/-- NOTE (R196, R211): the job goes on at once where the completion ring takes its entry, and else waits for room. -/
def Mach.slipNote (m : Mach) (e x : Nat) (j : Job) (w : Word) : Mach :=
  if j.woken then m.slipWoken e x j w 0
  else
    m.slipDo e x j w 0 do
      slipCheck w 0 (2 ^ 32 - 1)
      let jn : Job := { j with st := .waiting, wait := .note (slipOperand w), ord := m.order }
      let m1 := ({ m.setJob x jn with order := m.order + 1 } : Mach).deliver j.carrel
      match m1.job x with
      | none => .ok m1
      | some k =>
        if k.st = .ready then
          .ok (({ m1 with tpass := m.tpass, cpass := m.cpass } : Mach).setJob x j |>.slipEnd e x j w 0 (0, 0) 0)
        else .ok (m1.leaveEngine e j)

/-- STOP (R196). -/
def Mach.slipStop (m : Mach) (e x : Nat) (j : Job) (w : Word) : Mach :=
  m.slipDo e x j w 0 do
    slipCheck w 0 (2 ^ 32 - 1)
    .ok ((m.endJob x 0 0 (slipOperand w) j.slip).count (Reg.ceSlips e))

/-! ### What ends a wait (R189, R190, R193, R197) -/

/-- A waiting job made ready to try its slip again. -/
def Mach.retrySlip (m : Mach) (x : Nat) (j : Job) : Mach := (m.setJob x { j with wait := .none }).makeReady x

/-- SLIP_WAIT_WAKE (R193): the job is ready where what it waits for holds. -/
def Mach.slipWake (m : Mach) (x : Nat) : Mach :=
  match m.job x with
  | none => m
  | some j =>
    if !m.up || j.st ≠ .waiting then m
    else match j.wait with
      | .laneFree k => if (m.idleLanes (k ≤ 1) j.sr).isEmpty then m else m.retrySlip x j
      | .raw p false => if m.portOpen p then m.retrySlip x j else m
      | _ => if m.waitHolds j then m.wakeJob x 0 0 else m

/-- SLIP_TIMEOUT (R189, R190, R192, R195): the slip ends TIMEOUT, or NOCONN where its way out is shut. -/
def Mach.slipExpire (m : Mach) (x : Nat) : Mach :=
  match m.job x with
  | none => m
  | some j =>
    match j.deadline with
    | none => m
    | some d =>
      if !m.up || j.st ≠ .waiting || m.now < d then m
      else match j.wait with
        | .send s =>
          ({ m with replies := m.replies.filter fun r => r.ctx ≠ x } : Mach).wakeJob x
            (if (m.live s).conn.isSome then 9 else 8) 0
        | .raw p _ =>
          (m.setQueue p ((m.queue p).filter fun f => f.posted || f.ctx ≠ x)).wakeJob x (if m.portOpen p then 9 else 8) 0
        | _ => m.wakeJob x 9 0

/-! ### The commands -/

/-- SLIP_NOP (R186). -/
def execSlipNop (e : EngId) (s : State) : Host.Outcome State Fault Refusal :=
  s.lift fun m => m.slipOf e.val 0 fun m x j w => m.slipDo e.val x j w 0 do
      slipCheck w 0 0
      .ok (m.slipEnd e.val x j w 0 (0, 0) 0)

/-- MOVE (R187). -/
def execSlipMove (e : EngId) (s : State) : Host.Outcome State Fault Refusal :=
  s.lift fun m => m.slipOf e.val 1 fun m x j w => m.slipMove s.snap e.val x j w

/-- FILL (R187). -/
def execSlipFill (e : EngId) (s : State) : Host.Outcome State Fault Refusal :=
  s.lift fun m => m.slipOf e.val 2 fun m x j w => m.slipFill e.val x j w

/-- SEND (R189). -/
def execSlipSend (e : EngId) (s : State) : Host.Outcome State Fault Refusal :=
  s.lift fun m => m.slipRun e.val (fun w => slipOp w = 3 && !nbit w.toNat 37) fun m x j w => m.slipSend e.val x j w

/-- SEND_RAW (R190). -/
def execSendRaw (e : EngId) (s : State) : Host.Outcome State Fault Refusal :=
  s.lift fun m => m.slipRun e.val (fun w => slipOp w = 3 && nbit w.toNat 37) fun m x j w => m.slipRaw e.val x j w

/-- AWAIT (R192). -/
def execAwait (e : EngId) (s : State) : Host.Outcome State Fault Refusal :=
  s.lift fun m => m.slipOf e.val 4 fun m x j w => m.slipAwait e.val x j w

/-- PACK (R188). -/
def execPack (e : EngId) (s : State) : Host.Outcome State Fault Refusal :=
  s.lift fun m => m.slipOf e.val 5 fun m x j w => m.slipLane 2 e.val x j w

/-- UNPACK (R188). -/
def execUnpack (e : EngId) (s : State) : Host.Outcome State Fault Refusal :=
  s.lift fun m => m.slipOf e.val 6 fun m x j w => m.slipLane 3 e.val x j w

/-- CRYPT (R188). -/
def execCrypt (e : EngId) (s : State) : Host.Outcome State Fault Refusal :=
  s.lift fun m => m.slipOf e.val 7 fun m x j w => m.slipLane 0 e.val x j w

/-- HASH (R188). -/
def execHash (e : EngId) (s : State) : Host.Outcome State Fault Refusal :=
  s.lift fun m => m.slipOf e.val 8 fun m x j w => m.slipHash e.val x j w

/-- WAITBELL (R193). -/
def execWaitbell (e : EngId) (s : State) : Host.Outcome State Fault Refusal :=
  s.lift fun m => m.slipOf e.val 9 fun m x j w => m.slipBell e.val x j w

/-- WAITFOLIO (R193). -/
def execWaitfolio (e : EngId) (s : State) : Host.Outcome State Fault Refusal :=
  s.lift fun m => m.slipOf e.val 0xA fun m x j w => m.slipFolio e.val x j w

/-- WAITRT (R193). -/
def execWaitrt (e : EngId) (s : State) : Host.Outcome State Fault Refusal :=
  s.lift fun m => m.slipOf e.val 0xB fun m x j w => m.slipRt e.val x j w

/-- SLIP_WAIT_WAKE (R193). -/
def execSlipWaitWake (x : CtxId) (s : State) : Host.Outcome State Fault Refusal := s.lift fun m => m.slipWake x.val

/-- SLIP_TIMEOUT (R197). -/
def execSlipTimeout (x : CtxId) (s : State) : Host.Outcome State Fault Refusal := s.lift fun m => m.slipExpire x.val

/-- TEST (R194). -/
def execSlipTest (e : EngId) (s : State) : Host.Outcome State Fault Refusal :=
  s.lift fun m => m.slipOf e.val 0xC fun m x j w => m.slipTest s.snap e.val x j w

/-- JUMP (R194). -/
def execJump (e : EngId) (s : State) : Host.Outcome State Fault Refusal :=
  s.lift fun m => m.slipOf e.val 0xD fun m x j w => m.slipJump e.val x j w

/-- JUMPIF (R194). -/
def execJumpif (e : EngId) (s : State) : Host.Outcome State Fault Refusal :=
  s.lift fun m => m.slipOf e.val 0xE fun m x j w => m.slipJumpif e.val x j w

/-- POST (R195). -/
def execPost (e : EngId) (s : State) : Host.Outcome State Fault Refusal :=
  s.lift fun m => m.slipOf e.val 0xF fun m x j w => m.slipPost e.val x j w

/-- LOCK (R195). -/
def execLock (e : EngId) (s : State) : Host.Outcome State Fault Refusal :=
  s.lift fun m => m.slipOf e.val 0x10 fun m x j w => m.slipLock e.val x j w

/-- LOCK_RETRY (R195). -/
def execLockRetry (x : CtxId) (s : State) : Host.Outcome State Fault Refusal := s.lift fun m => m.lockAgain x.val

/-- UNLOCK (R195). -/
def execUnlock (e : EngId) (s : State) : Host.Outcome State Fault Refusal :=
  s.lift fun m => m.slipOf e.val 0x11 fun m x j w => m.slipUnlock e.val x j w

/-- NOTE (R196). -/
def execSlipNote (e : EngId) (s : State) : Host.Outcome State Fault Refusal :=
  s.lift fun m => m.slipOf e.val 0x12 fun m x j w => m.slipNote e.val x j w

/-- STOP (R196). -/
def execSlipStop (e : EngId) (s : State) : Host.Outcome State Fault Refusal :=
  s.lift fun m => m.slipOf e.val 0x13 fun m x j w => m.slipStop e.val x j w

/-- SLIP_RESERVED_OPCODE (R186). -/
def execSlipReservedOpcode (e : EngId) (s : State) : Host.Outcome State Fault Refusal :=
  s.lift fun m => m.slipRun e.val (fun w => 0x14 ≤ slipOp w) fun m x j _ => m.endJob x 2 0 0 j.slip

end Sys2Proof.Machine
end

