-- ==== Sys2Proof/Machine/Dispatch.lean ====
section
/-! DEFINITION. The dispatcher: one arm per command. -/

namespace Sys2Proof.Machine

open Sys2Proof

/-- The effect of a command on everything but the queue. -/
def exec (i : Instr) (s : State) : Host.Outcome State Fault Refusal :=
  match i with
  | .rtTick => Sys2Proof.Machine.execRtTick s
  | .refclkLoss x0 => Sys2Proof.Machine.execRefclkLoss x0 s
  | .refclkReturn x0 => Sys2Proof.Machine.execRefclkReturn x0 s
  | .ppsEdge x0 => Sys2Proof.Machine.execPpsEdge x0 s
  | .ppsIntervalEnd => Sys2Proof.Machine.execPpsIntervalEnd s
  | .rtArm x0 x1 => Sys2Proof.Machine.execRtArm x0 x1 s
  | .rtLoadnow x0 x1 => Sys2Proof.Machine.execRtLoadnow x0 x1 s
  | .rtForce x0 x1 => Sys2Proof.Machine.execRtForce x0 x1 s
  | .rtRefselWrite x0 x1 => Sys2Proof.Machine.execRtRefselWrite x0 x1 s
  | .rtPpsenClear x0 x1 => Sys2Proof.Machine.execRtPpsenClear x0 x1 s
  | .bellActWrite x0 x1 x2 => Sys2Proof.Machine.execBellActWrite x0 x1 x2 s
  | .bellTimeWrite x0 x1 x2 x3 => Sys2Proof.Machine.execBellTimeWrite x0 x1 x2 x3 s
  | .gateKeyWrite x0 x1 x2 => Sys2Proof.Machine.execGateKeyWrite x0 x1 x2 s
  | .bellFire x0 => Sys2Proof.Machine.execBellFire x0 s
  | .folioClose => Sys2Proof.Machine.execFolioClose s
  | .tallyCalibration => Sys2Proof.Machine.execTallyCalibration s
  | .linkUp x0 => Sys2Proof.Machine.execLinkUp x0 s
  | .linkLoss x0 => Sys2Proof.Machine.execLinkLoss x0 s
  | .portReset x0 x1 x2 => Sys2Proof.Machine.execPortReset x0 x1 x2 s
  | .helloFrame x0 x1 => Sys2Proof.Machine.execHelloFrame x0 x1 s
  | .dataFrame x0 x1 => Sys2Proof.Machine.execDataFrame x0 x1 s
  | .ackFrame x0 x1 => Sys2Proof.Machine.execAckFrame x0 x1 s
  | .nakFrame x0 x1 => Sys2Proof.Machine.execNakFrame x0 x1 s
  | .creditFrame x0 x1 => Sys2Proof.Machine.execCreditFrame x0 x1 s
  | .byeFrame x0 x1 => Sys2Proof.Machine.execByeFrame x0 x1 s
  | .probeFrame x0 x1 => Sys2Proof.Machine.execProbeFrame x0 x1 s
  | .lcpFrameDiscard x0 x1 => Sys2Proof.Machine.execLcpFrameDiscard x0 x1 s
  | .plainFrame x0 x1 => Sys2Proof.Machine.execPlainFrame x0 x1 s
  | .ptpFrame x0 x1 => Sys2Proof.Machine.execPtpFrame x0 x1 s
  | .macControlFrame x0 x1 => Sys2Proof.Machine.execMacControlFrame x0 x1 s
  | .ackDue x0 => Sys2Proof.Machine.execAckDue x0 s
  | .retransmitTimeout x0 => Sys2Proof.Machine.execRetransmitTimeout x0 s
  | .idleProbe x0 => Sys2Proof.Machine.execIdleProbe x0 s
  | .idleTimeout x0 => Sys2Proof.Machine.execIdleTimeout x0 s
  | .epochFrameRepeat x0 => Sys2Proof.Machine.execEpochFrameRepeat x0 s
  | .sesStorageWrite x0 x1 x2 => Sys2Proof.Machine.execSesStorageWrite x0 x1 x2 s
  | .kick x0 x1 x2 => Sys2Proof.Machine.execKick x0 x1 x2 s
  | .retire x0 x1 x2 => Sys2Proof.Machine.execRetire x0 x1 x2 s
  | .mergeEmit => Sys2Proof.Machine.execMergeEmit s
  | .accTailWrite x0 x1 x2 => Sys2Proof.Machine.execAccTailWrite x0 x1 x2 s
  | .accRingWrite x0 x1 x2 x3 => Sys2Proof.Machine.execAccRingWrite x0 x1 x2 x3 s
  | .accCtlWrite x0 x1 x2 => Sys2Proof.Machine.execAccCtlWrite x0 x1 x2 s
  | .accQuotaWrite x0 x1 x2 => Sys2Proof.Machine.execAccQuotaWrite x0 x1 x2 s
  | .accNextWrite x0 x1 x2 x3 => Sys2Proof.Machine.execAccNextWrite x0 x1 x2 x3 s
  | .accn x0 => Sys2Proof.Machine.execAccn x0 s
  | .accnComplete x0 => Sys2Proof.Machine.execAccnComplete x0 s
  | .twinLinkUp => Sys2Proof.Machine.execTwinLinkUp s
  | .twinLinkDown => Sys2Proof.Machine.execTwinLinkDown s
  | .twinAuth x0 => Sys2Proof.Machine.execTwinAuth x0 s
  | .twinKeyRenew => Sys2Proof.Machine.execTwinKeyRenew s
  | .heartbeatSend => Sys2Proof.Machine.execHeartbeatSend s
  | .heartbeat x0 x1 => Sys2Proof.Machine.execHeartbeat x0 x1 s
  | .pulseFrameSend => Sys2Proof.Machine.execPulseFrameSend s
  | .pulseFrame x0 => Sys2Proof.Machine.execPulseFrame x0 s
  | .pulseInSilence => Sys2Proof.Machine.execPulseInSilence s
  | .heartbeatTimeout x0 => Sys2Proof.Machine.execHeartbeatTimeout x0 s
  | .twinAliveInLow => Sys2Proof.Machine.execTwinAliveInLow s
  | .loopbackFail => Sys2Proof.Machine.execLoopbackFail s
  | .folioShipment => Sys2Proof.Machine.execFolioShipment s
  | .folioBegin x0 x1 x2 => Sys2Proof.Machine.execFolioBegin x0 x1 x2 s
  | .recordsMsg x0 x1 x2 => Sys2Proof.Machine.execRecordsMsg x0 x1 x2 s
  | .stateMsg x0 => Sys2Proof.Machine.execStateMsg x0 s
  | .linesMsg x0 x1 => Sys2Proof.Machine.execLinesMsg x0 x1 s
  | .folioEnd x0 x1 => Sys2Proof.Machine.execFolioEnd x0 x1 s
  | .folioAck x0 x1 => Sys2Proof.Machine.execFolioAck x0 x1 s
  | .folioRedo x0 x1 => Sys2Proof.Machine.execFolioRedo x0 x1 s
  | .seals x0 => Sys2Proof.Machine.execSeals x0 s
  | .ackTimeoutSolo => Sys2Proof.Machine.execAckTimeoutSolo s
  | .leaseExpiry => Sys2Proof.Machine.execLeaseExpiry s
  | .takeoverPromotion => Sys2Proof.Machine.execTakeoverPromotion s
  | .lostFence => Sys2Proof.Machine.execLostFence s
  | .twnFence x0 x1 => Sys2Proof.Machine.execTwnFence x0 x1 s
  | .twnInit x0 x1 => Sys2Proof.Machine.execTwnInit x0 x1 s
  | .handreq x0 x1 => Sys2Proof.Machine.execHandreq x0 x1 s
  | .handoverStart => Sys2Proof.Machine.execHandoverStart s
  | .handoverReq x0 => Sys2Proof.Machine.execHandoverReq x0 s
  | .handoverAck x0 => Sys2Proof.Machine.execHandoverAck x0 s
  | .handoverQuiesce => Sys2Proof.Machine.execHandoverQuiesce s
  | .handoverDone x0 x1 => Sys2Proof.Machine.execHandoverDone x0 x1 s
  | .taken x0 => Sys2Proof.Machine.execTaken x0 s
  | .handoverAbortTimeout => Sys2Proof.Machine.execHandoverAbortTimeout s
  | .abortMsg x0 => Sys2Proof.Machine.execAbortMsg x0 s
  | .syncCheckPass x0 => Sys2Proof.Machine.execSyncCheckPass x0 s
  | .syncReq => Sys2Proof.Machine.execSyncReq s
  | .syncMark x0 x1 x2 => Sys2Proof.Machine.execSyncMark x0 x1 x2 s
  | .syncBulk x0 x1 => Sys2Proof.Machine.execSyncBulk x0 x1 s
  | .syncComplete => Sys2Proof.Machine.execSyncComplete s
  | .soloToActive => Sys2Proof.Machine.execSoloToActive s
  | .twnMirpageWrite x0 x1 => Sys2Proof.Machine.execTwnMirpageWrite x0 x1 s
  | .sealAppend => Sys2Proof.Machine.execSealAppend s
  | .sealTailWrite x0 x1 => Sys2Proof.Machine.execSealTailWrite x0 x1 s
  | .sealCtlWrite x0 x1 x2 => Sys2Proof.Machine.execSealCtlWrite x0 x1 x2 s
  | .door x0 => Sys2Proof.Machine.execDoor x0 s
  | .enginePick x0 => Sys2Proof.Machine.execEnginePick x0 s
  | .quantumExpiry x0 => Sys2Proof.Machine.execQuantumExpiry x0 s
  | .slipNop x0 => Sys2Proof.Machine.execSlipNop x0 s
  | .slipMove x0 => Sys2Proof.Machine.execSlipMove x0 s
  | .slipFill x0 => Sys2Proof.Machine.execSlipFill x0 s
  | .slipSend x0 => Sys2Proof.Machine.execSlipSend x0 s
  | .sendRaw x0 => Sys2Proof.Machine.execSendRaw x0 s
  | .await x0 => Sys2Proof.Machine.execAwait x0 s
  | .pack x0 => Sys2Proof.Machine.execPack x0 s
  | .unpack x0 => Sys2Proof.Machine.execUnpack x0 s
  | .crypt x0 => Sys2Proof.Machine.execCrypt x0 s
  | .hash x0 => Sys2Proof.Machine.execHash x0 s
  | .laneResult x0 x1 x2 => Sys2Proof.Machine.execLaneResult x0 x1 x2 s
  | .waitbell x0 => Sys2Proof.Machine.execWaitbell x0 s
  | .waitfolio x0 => Sys2Proof.Machine.execWaitfolio x0 s
  | .waitrt x0 => Sys2Proof.Machine.execWaitrt x0 s
  | .slipWaitWake x0 => Sys2Proof.Machine.execSlipWaitWake x0 s
  | .slipTimeout x0 => Sys2Proof.Machine.execSlipTimeout x0 s
  | .slipTest x0 => Sys2Proof.Machine.execSlipTest x0 s
  | .jump x0 => Sys2Proof.Machine.execJump x0 s
  | .jumpif x0 => Sys2Proof.Machine.execJumpif x0 s
  | .post x0 => Sys2Proof.Machine.execPost x0 s
  | .lock x0 => Sys2Proof.Machine.execLock x0 s
  | .lockRetry x0 => Sys2Proof.Machine.execLockRetry x0 s
  | .unlock x0 => Sys2Proof.Machine.execUnlock x0 s
  | .slipNote x0 => Sys2Proof.Machine.execSlipNote x0 s
  | .slipStop x0 => Sys2Proof.Machine.execSlipStop x0 s
  | .slipReservedOpcode x0 => Sys2Proof.Machine.execSlipReservedOpcode x0 s
  | .ceReset x0 x1 x2 => Sys2Proof.Machine.execCeReset x0 x1 x2 s
  | .clerkEngineFault x0 => Sys2Proof.Machine.execClerkEngineFault x0 s
  | .carrelCreate x0 x1 x2 => Sys2Proof.Machine.execCarrelCreate x0 x1 x2 s
  | .carrelDelete x0 x1 x2 => Sys2Proof.Machine.execCarrelDelete x0 x1 x2 s
  | .carrelBadop x0 x1 x2 => Sys2Proof.Machine.execCarrelBadop x0 x1 x2 s
  | .carReset x0 x1 x2 => Sys2Proof.Machine.execCarReset x0 x1 x2 s
  | .carrelResetComplete x0 => Sys2Proof.Machine.execCarrelResetComplete x0 s
  | .carrelResetBound x0 => Sys2Proof.Machine.execCarrelResetBound x0 s
  | .tenReset x0 x1 x2 => Sys2Proof.Machine.execTenReset x0 x1 x2 s
  | .carCqtailWrite x0 x1 x2 => Sys2Proof.Machine.execCarCqtailWrite x0 x1 x2 s
  | .cqerrClear x0 x1 x2 => Sys2Proof.Machine.execCqerrClear x0 x1 x2 s
  | .newepoch x0 x1 x2 => Sys2Proof.Machine.execNewepoch x0 x1 x2 s
  | .bitmapClearDone x0 => Sys2Proof.Machine.execBitmapClearDone x0 s
  | .tenCtlWrite x0 x1 x2 => Sys2Proof.Machine.execTenCtlWrite x0 x1 x2 s
  | .interruptTake x0 => Sys2Proof.Machine.execInterruptTake x0 s
  | .fpTrapReport x0 => Sys2Proof.Machine.execFpTrapReport x0 s
  | .waitEnd x0 => Sys2Proof.Machine.execWaitEnd x0 s
  | .lits x0 x1 => Sys2Proof.Machine.execLits x0 x1 s
  | .lit8 x0 x1 => Sys2Proof.Machine.execLit8 x0 x1 s
  | .lit16 x0 x1 => Sys2Proof.Machine.execLit16 x0 x1 s
  | .lit24 x0 x1 => Sys2Proof.Machine.execLit24 x0 x1 s
  | .litw x0 => Sys2Proof.Machine.execLitw x0 s
  | .nop x0 => Sys2Proof.Machine.execNop x0 s
  | .illegalOpcode x0 x1 x2 => Sys2Proof.Machine.execIllegalOpcode x0 x1 x2 s
  | .dup x0 => Sys2Proof.Machine.execDup x0 s
  | .drop x0 => Sys2Proof.Machine.execDrop x0 s
  | .swap x0 => Sys2Proof.Machine.execSwap x0 s
  | .over x0 => Sys2Proof.Machine.execOver x0 s
  | .rot x0 => Sys2Proof.Machine.execRot x0 s
  | .nip x0 => Sys2Proof.Machine.execNip x0 s
  | .tuck x0 => Sys2Proof.Machine.execTuck x0 s
  | .pick x0 => Sys2Proof.Machine.execPick x0 s
  | .put x0 => Sys2Proof.Machine.execPut x0 s
  | .tor x0 => Sys2Proof.Machine.execTor x0 s
  | .fromr x0 => Sys2Proof.Machine.execFromr x0 s
  | .peekr x0 => Sys2Proof.Machine.execPeekr x0 s
  | .add x0 => Sys2Proof.Machine.execAdd x0 s
  | .sub x0 => Sys2Proof.Machine.execSub x0 s
  | .neg x0 => Sys2Proof.Machine.execNeg x0 s
  | .mul x0 => Sys2Proof.Machine.execMul x0 s
  | .mulhs x0 => Sys2Proof.Machine.execMulhs x0 s
  | .mulhu x0 => Sys2Proof.Machine.execMulhu x0 s
  | .divs x0 => Sys2Proof.Machine.execDivs x0 s
  | .divu x0 => Sys2Proof.Machine.execDivu x0 s
  | .rems x0 => Sys2Proof.Machine.execRems x0 s
  | .remu x0 => Sys2Proof.Machine.execRemu x0 s
  | .and x0 => Sys2Proof.Machine.execAnd x0 s
  | .or x0 => Sys2Proof.Machine.execOr x0 s
  | .xor x0 => Sys2Proof.Machine.execXor x0 s
  | .not x0 => Sys2Proof.Machine.execNot x0 s
  | .shl x0 => Sys2Proof.Machine.execShl x0 s
  | .shrl x0 => Sys2Proof.Machine.execShrl x0 s
  | .shra x0 => Sys2Proof.Machine.execShra x0 s
  | .rol x0 => Sys2Proof.Machine.execRol x0 s
  | .eq x0 => Sys2Proof.Machine.execEq x0 s
  | .lt x0 => Sys2Proof.Machine.execLt x0 s
  | .ltu x0 => Sys2Proof.Machine.execLtu x0 s
  | .zeq x0 => Sys2Proof.Machine.execZeq x0 s
  | .dadd x0 x1 => Sys2Proof.Machine.execDadd x0 x1 s
  | .dsub x0 x1 => Sys2Proof.Machine.execDsub x0 x1 s
  | .dcmp x0 x1 => Sys2Proof.Machine.execDcmp x0 x1 s
  | .dchk x0 x1 => Sys2Proof.Machine.execDchk x0 x1 s
  | .fadd x0 => Sys2Proof.Machine.execFadd x0 s
  | .fsub x0 => Sys2Proof.Machine.execFsub x0 s
  | .fmul x0 => Sys2Proof.Machine.execFmul x0 s
  | .fdiv x0 => Sys2Proof.Machine.execFdiv x0 s
  | .fsqrt x0 => Sys2Proof.Machine.execFsqrt x0 s
  | .fma x0 => Sys2Proof.Machine.execFma x0 s
  | .fcmp x0 => Sys2Proof.Machine.execFcmp x0 s
  | .fcvti x0 => Sys2Proof.Machine.execFcvti x0 s
  | .fcvtf x0 => Sys2Proof.Machine.execFcvtf x0 s
  | .ftod x0 => Sys2Proof.Machine.execFtod x0 s
  | .ffromd x0 => Sys2Proof.Machine.execFfromd x0 s
  | .fbar x0 => Sys2Proof.Machine.execFbar x0 s
  | .ld x0 => Sys2Proof.Machine.execLd x0 s
  | .st x0 => Sys2Proof.Machine.execSt x0 s
  | .cas x0 => Sys2Proof.Machine.execCas x0 s
  | .ild x0 => Sys2Proof.Machine.execIld x0 s
  | .ist x0 => Sys2Proof.Machine.execIst x0 s
  | .inp x0 => Sys2Proof.Machine.execInp x0 s
  | .outp x0 => Sys2Proof.Machine.execOutp x0 s
  | .br x0 x1 => Sys2Proof.Machine.execBr x0 x1 s
  | .bz x0 x1 => Sys2Proof.Machine.execBz x0 x1 s
  | .bnz x0 x1 => Sys2Proof.Machine.execBnz x0 x1 s
  | .call x0 x1 => Sys2Proof.Machine.execCall x0 x1 s
  | .ret x0 => Sys2Proof.Machine.execRet x0 s
  | .jmpi x0 => Sys2Proof.Machine.execJmpi x0 s
  | .calli x0 => Sys2Proof.Machine.execCalli x0 s
  | .callm x0 x1 => Sys2Proof.Machine.execCallm x0 x1 s
  | .retm x0 x1 => Sys2Proof.Machine.execRetm x0 x1 s
  | .svc x0 x1 => Sys2Proof.Machine.execSvc x0 x1 s
  | .rets x0 x1 => Sys2Proof.Machine.execRets x0 x1 s
  | .eret x0 => Sys2Proof.Machine.execEret x0 s
  | .getc x0 x1 => Sys2Proof.Machine.execGetc x0 x1 s
  | .setc x0 x1 => Sys2Proof.Machine.execSetc x0 x1 s
  | .wait x0 => Sys2Proof.Machine.execWait x0 s
  | .fence x0 => Sys2Proof.Machine.execFence x0 s
  | .ifence x0 => Sys2Proof.Machine.execIfence x0 s
  | .nsca x0 => Sys2Proof.Machine.execNsca x0 s
  | .nsia x0 => Sys2Proof.Machine.execNsia x0 s
  | .nsfa x0 => Sys2Proof.Machine.execNsfa x0 s
  | .nsce x0 => Sys2Proof.Machine.execNsce x0 s
  | .nsie x0 => Sys2Proof.Machine.execNsie x0 s
  | .nsfe x0 => Sys2Proof.Machine.execNsfe x0 s
  | .nscr x0 => Sys2Proof.Machine.execNscr x0 s
  | .nsir x0 => Sys2Proof.Machine.execNsir x0 s
  | .nsfr x0 => Sys2Proof.Machine.execNsfr x0 s
  | .nslock x0 => Sys2Proof.Machine.execNslock x0 s
  | .nsunlk x0 => Sys2Proof.Machine.execNsunlk x0 s
  | .l2ca x0 => Sys2Proof.Machine.execL2ca x0 s
  | .l2fa x0 => Sys2Proof.Machine.execL2fa x0 s
  | .pflush x0 => Sys2Proof.Machine.execPflush x0 s
  | .pbar x0 => Sys2Proof.Machine.execPbar x0 s
  | .punbar x0 => Sys2Proof.Machine.execPunbar x0 s
  | .nsFillDone x0 x1 x2 => Sys2Proof.Machine.execNsFillDone x0 x1 x2 s
  | .evictionWritebackDone x0 => Sys2Proof.Machine.execEvictionWritebackDone x0 s
  | .coreXflushWrite x0 x1 => Sys2Proof.Machine.execCoreXflushWrite x0 x1 s
  | .coreXrootWrite x0 x1 x2 => Sys2Proof.Machine.execCoreXrootWrite x0 x1 x2 s
  | .lockstepMismatch x0 => Sys2Proof.Machine.execLockstepMismatch x0 s
  | .sparingComplete x0 => Sys2Proof.Machine.execSparingComplete x0 s
  | .comparatorSelftest x0 x1 => Sys2Proof.Machine.execComparatorSelftest x0 x1 s
  | .dualRailViolation x0 => Sys2Proof.Machine.execDualRailViolation x0 s
  | .coreCodeError x0 x1 => Sys2Proof.Machine.execCoreCodeError x0 x1 s
  | .splitParityError x0 x1 => Sys2Proof.Machine.execSplitParityError x0 x1 s
  | .clusterFault x0 => Sys2Proof.Machine.execClusterFault x0 s
  | .bistComplete x0 x1 x2 => Sys2Proof.Machine.execBistComplete x0 x1 x2 s
  | .rotation x0 => Sys2Proof.Machine.execRotation x0 s
  | .bistSeat x0 x1 x2 => Sys2Proof.Machine.execBistSeat x0 x1 x2 s
  | .bistUnit x0 x1 x2 => Sys2Proof.Machine.execBistUnit x0 x1 x2 s
  | .seatReset x0 x1 x2 => Sys2Proof.Machine.execSeatReset x0 x1 x2 s
  | .debugHalt x0 => Sys2Proof.Machine.execDebugHalt x0 s
  | .debugResume x0 => Sys2Proof.Machine.execDebugResume x0 s
  | .debugStep x0 => Sys2Proof.Machine.execDebugStep x0 s
  | .debugWrite x0 x1 x2 => Sys2Proof.Machine.execDebugWrite x0 x1 x2 s
  | .debugMemoryAccess x0 x1 x2 x3 => Sys2Proof.Machine.execDebugMemoryAccess x0 x1 x2 x3 s
  | .debugRead x0 x1 => Sys2Proof.Machine.execDebugRead x0 x1 s
  | .deviceFail x0 x1 => Sys2Proof.Machine.execDeviceFail x0 x1 s
  | .deviceTrainingStart => Sys2Proof.Machine.execDeviceTrainingStart s
  | .deviceTrainingEnd x0 => Sys2Proof.Machine.execDeviceTrainingEnd x0 s
  | .patrolScrubLine x0 => Sys2Proof.Machine.execPatrolScrubLine x0 s
  | .memSrpageWrite x0 x1 => Sys2Proof.Machine.execMemSrpageWrite x0 x1 s
  | .chgScan x0 x1 => Sys2Proof.Machine.execChgScan x0 x1 s
  | .chgScanDone => Sys2Proof.Machine.execChgScanDone s
  | .memInitComplete x0 => Sys2Proof.Machine.execMemInitComplete x0 s
  | .bootImageVerify x0 x1 => Sys2Proof.Machine.execBootImageVerify x0 x1 s
  | .srAttrPortWrite x0 x1 x2 => Sys2Proof.Machine.execSrAttrPortWrite x0 x1 x2 s
  | .srAttrPinWrite x0 x1 => Sys2Proof.Machine.execSrAttrPinWrite x0 x1 s
  | .srAttrEngineWrite x0 x1 x2 => Sys2Proof.Machine.execSrAttrEngineWrite x0 x1 x2 s
  | .attrChangeDone x0 => Sys2Proof.Machine.execAttrChangeDone x0 s
  | .srLeaseWrite x0 x1 x2 => Sys2Proof.Machine.execSrLeaseWrite x0 x1 x2 s
  | .srLeaseExpiry x0 => Sys2Proof.Machine.execSrLeaseExpiry x0 s
  | .swdKick x0 x1 => Sys2Proof.Machine.execSwdKick x0 x1 s
  | .swdExpiry => Sys2Proof.Machine.execSwdExpiry s
  | .swdBoundExpiry => Sys2Proof.Machine.execSwdBoundExpiry s
  | .charterCommit x0 x1 => Sys2Proof.Machine.execCharterCommit x0 x1 s
  | .restartCommit x0 x1 => Sys2Proof.Machine.execRestartCommit x0 x1 s
  | .fuseProgram x0 x1 => Sys2Proof.Machine.execFuseProgram x0 x1 s
  | .fuseRevoke x0 x1 => Sys2Proof.Machine.execFuseRevoke x0 x1 s
  | .fuseRaiseMinsvn x0 x1 => Sys2Proof.Machine.execFuseRaiseMinsvn x0 x1 s
  | .fuseBadop x0 x1 => Sys2Proof.Machine.execFuseBadop x0 x1 s
  | .fuseOpDone => Sys2Proof.Machine.execFuseOpDone s
  | .meshBreach => Sys2Proof.Machine.execMeshBreach s
  | .gcmEnc x0 => Sys2Proof.Machine.execGcmEnc x0 s
  | .gcmDec x0 => Sys2Proof.Machine.execGcmDec x0 s
  | .xtsEnc x0 => Sys2Proof.Machine.execXtsEnc x0 s
  | .xtsDec x0 => Sys2Proof.Machine.execXtsDec x0 s
  | .cmacGen x0 => Sys2Proof.Machine.execCmacGen x0 s
  | .cmacVer x0 => Sys2Proof.Machine.execCmacVer x0 s
  | .kwWrap x0 => Sys2Proof.Machine.execKwWrap x0 s
  | .kwUnwrap x0 => Sys2Proof.Machine.execKwUnwrap x0 s
  | .unwrap x0 => Sys2Proof.Machine.execUnwrap x0 s
  | .exportKey x0 => Sys2Proof.Machine.execExportKey x0 s
  | .genkey x0 => Sys2Proof.Machine.execGenkey x0 s
  | .kemKeygen x0 => Sys2Proof.Machine.execKemKeygen x0 s
  | .kemEncaps x0 => Sys2Proof.Machine.execKemEncaps x0 s
  | .kemDecaps x0 => Sys2Proof.Machine.execKemDecaps x0 s
  | .cipherBadop x0 => Sys2Proof.Machine.execCipherBadop x0 s
  | .kxSclr x0 x1 x2 => Sys2Proof.Machine.execKxSclr x0 x1 x2 s
  | .slotClearDone x0 => Sys2Proof.Machine.execSlotClearDone x0 s
  | .kxLaneReset x0 x1 x2 => Sys2Proof.Machine.execKxLaneReset x0 x1 x2 s
  | .frbPack x0 => Sys2Proof.Machine.execFrbPack x0 s
  | .frbUnpack x0 => Sys2Proof.Machine.execFrbUnpack x0 s
  | .deflPack x0 => Sys2Proof.Machine.execDeflPack x0 s
  | .deflUnpack x0 => Sys2Proof.Machine.execDeflUnpack x0 s
  | .cxLaneReset x0 x1 x2 => Sys2Proof.Machine.execCxLaneReset x0 x1 x2 s
  | .tipinLoad x0 x1 => Sys2Proof.Machine.execTipinLoad x0 x1 s
  | .tipinLoadDone => Sys2Proof.Machine.execTipinLoadDone s
  | .tipinActivate x0 x1 => Sys2Proof.Machine.execTipinActivate x0 x1 s
  | .tipinActivateDone => Sys2Proof.Machine.execTipinActivateDone s
  | .sequencerFault x0 x1 => Sys2Proof.Machine.execSequencerFault x0 x1 s
  | .enGateWrite x0 x1 x2 => Sys2Proof.Machine.execEnGateWrite x0 x1 x2 s
  | .autogateGate x0 => Sys2Proof.Machine.execAutogateGate x0 s
  | .autogateUngate x0 => Sys2Proof.Machine.execAutogateUngate x0 s
  | .gatedActionRelease x0 => Sys2Proof.Machine.execGatedActionRelease x0 s
  | .stkFire x0 x1 => Sys2Proof.Machine.execStkFire x0 x1 s
  | .stktInEdge => Sys2Proof.Machine.execStktInEdge s
  | .stocktakeLatch => Sys2Proof.Machine.execStocktakeLatch s
  | .stkArm x0 x1 => Sys2Proof.Machine.execStkArm x0 x1 s
  | .notePop x0 x1 x2 => Sys2Proof.Machine.execNotePop x0 x1 x2 s
  | .intRaise x0 x1 => Sys2Proof.Machine.execIntRaise x0 x1 s
  | .vauxRise => Sys2Proof.Machine.execVauxRise s
  | .vauxLoss => Sys2Proof.Machine.execVauxLoss s
  | .pwrOkRise => Sys2Proof.Machine.execPwrOkRise s
  | .pwrOkFall => Sys2Proof.Machine.execPwrOkFall s
  | .vinUndervoltage => Sys2Proof.Machine.execVinUndervoltage s
  | .vioSbbLoss => Sys2Proof.Machine.execVioSbbLoss s
  | .vioSbaLoss => Sys2Proof.Machine.execVioSbaLoss s
  | .resetNLow => Sys2Proof.Machine.execResetNLow s
  | .resetNRise => Sys2Proof.Machine.execResetNRise s
  | .moduleResetEnd => Sys2Proof.Machine.execModuleResetEnd s
  | .thermalTrip x0 => Sys2Proof.Machine.execThermalTrip x0 s
  | .alertResponse => Sys2Proof.Machine.execAlertResponse s
  | .mgmtReadModPart => Sys2Proof.Machine.execMgmtReadModPart s
  | .mgmtReadSerialHi => Sys2Proof.Machine.execMgmtReadSerialHi s
  | .mgmtReadSerialLo => Sys2Proof.Machine.execMgmtReadSerialLo s
  | .mgmtReadModState => Sys2Proof.Machine.execMgmtReadModState s
  | .mgmtReadSrBoot => Sys2Proof.Machine.execMgmtReadSrBoot s
  | .mgmtReadSrRstcause => Sys2Proof.Machine.execMgmtReadSrRstcause s
  | .mgmtReadTwnStat => Sys2Proof.Machine.execMgmtReadTwnStat s
  | .mgmtReadTwnEpoch => Sys2Proof.Machine.execMgmtReadTwnEpoch s
  | .mgmtReadIntFault => Sys2Proof.Machine.execMgmtReadIntFault s
  | .mgmtReadRtStat => Sys2Proof.Machine.execMgmtReadRtStat s
  | .mgmtReadModTemp => Sys2Proof.Machine.execMgmtReadModTemp s
  | .mgmtReadModSupply => Sys2Proof.Machine.execMgmtReadModSupply s
  | .mgmtReadEnTotal => Sys2Proof.Machine.execMgmtReadEnTotal s
  | .mgmtUnlistedCommand x0 => Sys2Proof.Machine.execMgmtUnlistedCommand x0 s
  | .mboxWrite x0 => Sys2Proof.Machine.execMboxWrite x0 s
  | .mboxRead => Sys2Proof.Machine.execMboxRead s
  | .registerWrite x0 x1 x2 => Sys2Proof.Machine.execRegisterWrite x0 x1 x2 s
  | .twinAliveInHigh => Sys2Proof.Machine.execTwinAliveInHigh s
  | .frameLeftPort x0 x1 => Sys2Proof.Machine.execFrameLeftPort x0 x1 s
  | .srpageMarkDone => Sys2Proof.Machine.execSrpageMarkDone s
  | .vioSbaReturn => Sys2Proof.Machine.execVioSbaReturn s
  | .vioSbbReturn => Sys2Proof.Machine.execVioSbbReturn s

end Sys2Proof.Machine
end

