-- ==== Sys2Proof/Machine/Devices.lean ====
section
/-! DEFINITION. What the eighteen memory devices hold (R323, R324, R333): State keeps every container's KEY, TAG, CHG and PAYLOAD as
the controller gives them to the machine; the stored form of a line, its CHECK octets, the encryption of marked pages and the parity
stripe are functions of them (log 132). -/

namespace Sys2Proof.Machine

open Sys2Proof

/-- Bits [55:0] of a container that stores a payload (R323). -/
def contBits (c : Cont) (pay : Word) : BitVec 56 := c.key ++ c.tag ++ BitVec.ofBool c.chg ++ 0#1 ++ pay

/-- A container as a device stores it, CHECK over its bits [55:0] (R323). -/
def storedCont (c : Cont) (pay : Word) : BitVec 64 := Config.secded (contBits c pay).toNat ++ contBits c pay

/-- The tweak of a line's data unit: its number, in the 16 octets of IEEE 1619, the least significant first (R333). -/
def lineTweak (line : Nat) : List Octet := (octetsBE 16 line).reverse

/-- The 64 payloads of a line as its device stores them: those of a marked page under AES-256-XTS (R333). -/
def Mach.storedPays (m : Mach) (line : Nat) : List Word :=
  let ws := (List.range 64).map fun i => (m.cont (64 * line + i)).pay
  if m.srAddr (64 * line) then
    wordsOfOctets 64 (Sys2Proof.Machine.xts false (octetsBE 64 m.memst.xts) (lineTweak line) (octetsOfWords ws))
  else ws

/-- Stored container `i` of a line, counted from its first word (R323, R333). -/
def Mach.storedAt (m : Mach) (line i : Nat) : BitVec 64 :=
  storedCont (m.cont (64 * line + i)) ((m.storedPays line).getD i 0)

/-- Container `i` of stripe `j` of a line, of the eight data stripes (R324). -/
def Mach.stripe (m : Mach) (line j i : Nat) : BitVec 64 := m.storedAt line (8 * j + i)

/-- Container `i` of the parity stripe of a line: the exclusive-or of the eight data stripes (R324). -/
def Mach.parity (m : Mach) (line i : Nat) : BitVec 64 := (List.range 8).foldl (fun x j => x ^^^ m.stripe line j i) 0

/-- A stripe rebuilt from the seven other data stripes and the parity (R325, R329). -/
def Mach.rebuilt (m : Mach) (line j i : Nat) : BitVec 64 :=
  ((List.range 8).filter (· ≠ j)).foldl (fun x k => x ^^^ m.stripe line k i) (m.parity line i)

/-- What device `d` holds at container `k` from its octet offset 0 on: a stripe of a line of its group, the parity stripe on the
group's ninth device (R324). -/
def Mach.devCont (m : Mach) (d k : Nat) : BitVec 64 :=
  let line := 2 * (k / 8) + d / 9
  if d % 9 = 8 then m.parity line (k % 8) else m.stripe line (d % 9) (k % 8)

end Sys2Proof.Machine
end

