-- ==== Sys2Proof/WellFormed.lean ====
section
/-! DEFINITION. Which operands of a command are well formed: the bounds the spec gives that the operand types do not carry. -/

namespace Sys2Proof

open Sys2Proof.Machine

/-- A requester: tenants are 4 bits, seats 6 (R203, R302). -/
def Machine.Who.wf (w : Who) : Bool := w.ten < 16 && w.seat < 64

/-- A received frame: at least the addresses and the type, at most the octets a port takes with its FCS, and a sub-tick part
below one tick of about 59.6 ns (R65, R67, R71). -/
def Machine.RxFrame.wf (f : RxFrame) : Bool := 14 ≤ f.octs.length && f.octs.length < 65536 && f.sub < 60

/-- What a read of a line finds: containers of one line (R323). -/
def LineErr.wf (e : LineErr) : Bool := e.single.all (· < 64) && e.multi.all (· < 64)

/-- Where an error lies: a line of memory (R324). -/
def CodeSite.wf : CodeSite → Bool
  | .icache l => l < 2 ^ 26
  | .stacks l _ => l < 2 ^ 26
  | _ => true

/-- A heartbeat: field widths of R133. -/
def Machine.Heartbeat.wf (h : Heartbeat) : Bool :=
  h.role < 16 && h.epoch < 2 ^ 24 && h.folio < 2 ^ 52 && h.health < 256 && h.serial < 2 ^ 64 && h.rt < 2 ^ 64

/-- What a debugger names: cells 0 to 31 of banks 0 to 7 (R226, R319). -/
def DbgTarget.wf : DbgTarget → Bool
  | .cell b n => b < 8 && n < 32
  | .ds _ => true
  | .rs _ => true

/-- A lane number of R361 or R375. -/
def laneWf (cipher : Bool) (l : LaneId) : Bool := cipher || l.val < 4

/-- The operands of a command are well formed. -/
def Instr.wf : Instr → Bool
  | .rtTick => true
  | .refclkLoss _ => true
  | .refclkReturn _ => true
  | .ppsEdge ns => ns < 60
  | .ppsIntervalEnd => true
  | .rtArm w _ => w.wf
  | .rtLoadnow w _ => w.wf
  | .rtForce w _ => w.wf
  | .rtRefselWrite w _ => w.wf
  | .rtPpsenClear w _ => w.wf
  | .bellActWrite w _ _ => w.wf
  | .bellTimeWrite w _ _ _ => w.wf
  | .gateKeyWrite w _ _ => w.wf
  | .bellFire _ => true
  | .folioClose => true
  | .tallyCalibration => true
  | .linkUp _ => true
  | .linkLoss _ => true
  | .portReset w _ _ => w.wf
  | .helloFrame _ f => f.wf
  | .dataFrame _ f => f.wf
  | .ackFrame _ f => f.wf
  | .nakFrame _ f => f.wf
  | .creditFrame _ f => f.wf
  | .byeFrame _ f => f.wf
  | .probeFrame _ f => f.wf
  | .lcpFrameDiscard _ f => f.wf
  | .plainFrame _ f => f.wf
  | .ptpFrame _ f => f.wf
  | .macControlFrame _ f => f.wf
  | .ackDue _ => true
  | .retransmitTimeout _ => true
  | .idleProbe _ => true
  | .idleTimeout _ => true
  | .epochFrameRepeat _ => true
  | .sesStorageWrite w _ _ => w.wf
  | .kick w _ _ => w.wf
  | .retire w _ _ => w.wf
  | .mergeEmit => true
  | .accTailWrite w _ _ => w.wf
  | .accRingWrite w _ _ _ => w.wf
  | .accCtlWrite w _ _ => w.wf
  | .accQuotaWrite w _ _ => w.wf
  | .accNextWrite w _ _ _ => w.wf
  | .accn _ => true
  | .accnComplete _ => true
  | .twinLinkUp => true
  | .twinLinkDown => true
  | .twinAuth (pk, proof) => pk.length < 65536 && proof.length < 65536
  | .twinKeyRenew => true
  | .heartbeatSend => true
  | .heartbeat _ h => h.wf
  | .pulseFrameSend => true
  | .pulseFrame _ => true
  | .pulseInSilence => true
  | .heartbeatTimeout _ => true
  | .twinAliveInLow => true
  | .loopbackFail => true
  | .folioShipment => true
  | .folioBegin _ epoch mask => epoch < 2 ^ 24 && mask < 65536
  | .recordsMsg (_, ten) _ _ => ten < 16
  | .stateMsg _ => true
  | .linesMsg (_, addr) _ => addr < 2 ^ 32 && addr % 64 = 0
  | .folioEnd _ _ => true
  | .folioAck _ epoch => epoch < 2 ^ 24
  | .folioRedo _ _ => true
  | .seals _ => true
  | .ackTimeoutSolo => true
  | .leaseExpiry => true
  | .takeoverPromotion => true
  | .lostFence => true
  | .twnFence w _ => w.wf
  | .twnInit w _ => w.wf
  | .handreq w _ => w.wf
  | .handoverStart => true
  | .handoverReq _ => true
  | .handoverAck _ => true
  | .handoverQuiesce => true
  | .handoverDone _ epoch => epoch < 2 ^ 24
  | .taken (_, epoch) => epoch < 2 ^ 24
  | .handoverAbortTimeout => true
  | .abortMsg _ => true
  | .syncCheckPass _ => true
  | .syncReq => true
  | .syncMark _ epoch phase => epoch < 2 ^ 24 && phase < 8
  | .syncBulk _ _ => true
  | .syncComplete => true
  | .soloToActive => true
  | .twnMirpageWrite w _ => w.wf
  | .sealAppend => true
  | .sealTailWrite w _ => w.wf
  | .sealCtlWrite w _ _ => w.wf
  | .door _ => true
  | .enginePick _ => true
  | .quantumExpiry _ => true
  | .slipNop _ => true
  | .slipMove _ => true
  | .slipFill _ => true
  | .slipSend _ => true
  | .sendRaw _ => true
  | .await _ => true
  | .pack _ => true
  | .unpack _ => true
  | .crypt _ => true
  | .hash _ => true
  | .laneResult cipher l _ => laneWf cipher l
  | .waitbell _ => true
  | .waitfolio _ => true
  | .waitrt _ => true
  | .slipWaitWake _ => true
  | .slipTimeout _ => true
  | .slipTest _ => true
  | .jump _ => true
  | .jumpif _ => true
  | .post _ => true
  | .lock _ => true
  | .lockRetry _ => true
  | .unlock _ => true
  | .slipNote _ => true
  | .slipStop _ => true
  | .slipReservedOpcode _ => true
  | .ceReset w _ _ => w.wf
  | .clerkEngineFault _ => true
  | .carrelCreate w _ _ => w.wf
  | .carrelDelete w _ _ => w.wf
  | .carrelBadop w _ _ => w.wf
  | .carReset w _ _ => w.wf
  | .carrelResetComplete _ => true
  | .carrelResetBound _ => true
  | .tenReset w _ _ => w.wf
  | .carCqtailWrite w _ _ => w.wf
  | .cqerrClear w _ _ => w.wf
  | .newepoch w _ _ => w.wf
  | .bitmapClearDone _ => true
  | .tenCtlWrite w _ _ => w.wf
  | .interruptTake _ => true
  | .fpTrapReport _ => true
  | .waitEnd _ => true
  | .lits _ _ => true
  | .lit8 _ _ => true
  | .lit16 _ _ => true
  | .lit24 _ _ => true
  | .litw _ => true
  | .nop _ => true
  | .illegalOpcode _ _ _ => true
  | .dup _ => true
  | .drop _ => true
  | .swap _ => true
  | .over _ => true
  | .rot _ => true
  | .nip _ => true
  | .tuck _ => true
  | .pick _ => true
  | .put _ => true
  | .tor _ => true
  | .fromr _ => true
  | .peekr _ => true
  | .add _ => true
  | .sub _ => true
  | .neg _ => true
  | .mul _ => true
  | .mulhs _ => true
  | .mulhu _ => true
  | .divs _ => true
  | .divu _ => true
  | .rems _ => true
  | .remu _ => true
  | .and _ => true
  | .or _ => true
  | .xor _ => true
  | .not _ => true
  | .shl _ => true
  | .shrl _ => true
  | .shra _ => true
  | .rol _ => true
  | .eq _ => true
  | .lt _ => true
  | .ltu _ => true
  | .zeq _ => true
  | .dadd _ _ => true
  | .dsub _ _ => true
  | .dcmp _ _ => true
  | .dchk _ _ => true
  | .fadd _ => true
  | .fsub _ => true
  | .fmul _ => true
  | .fdiv _ => true
  | .fsqrt _ => true
  | .fma _ => true
  | .fcmp _ => true
  | .fcvti _ => true
  | .fcvtf _ => true
  | .ftod _ => true
  | .ffromd _ => true
  | .fbar _ => true
  | .ld _ => true
  | .st _ => true
  | .cas _ => true
  | .ild _ => true
  | .ist _ => true
  | .inp _ => true
  | .outp _ => true
  | .br _ _ => true
  | .bz _ _ => true
  | .bnz _ _ => true
  | .call _ _ => true
  | .ret _ => true
  | .jmpi _ => true
  | .calli _ => true
  | .callm _ _ => true
  | .retm _ _ => true
  | .svc _ _ => true
  | .rets _ _ => true
  | .eret _ => true
  | .getc _ _ => true
  | .setc _ _ => true
  | .wait _ => true
  | .fence _ => true
  | .ifence _ => true
  | .nsca _ => true
  | .nsia _ => true
  | .nsfa _ => true
  | .nsce _ => true
  | .nsie _ => true
  | .nsfe _ => true
  | .nscr _ => true
  | .nsir _ => true
  | .nsfr _ => true
  | .nslock _ => true
  | .nsunlk _ => true
  | .l2ca _ => true
  | .l2fa _ => true
  | .pflush _ => true
  | .pbar _ => true
  | .punbar _ => true
  | .nsFillDone _ _ err => err.wf
  | .evictionWritebackDone (_, err) => err.wf
  | .coreXflushWrite _ _ => true
  | .coreXrootWrite _ _ _ => true
  | .lockstepMismatch _ => true
  | .sparingComplete _ => true
  | .comparatorSelftest _ _ => true
  | .dualRailViolation _ => true
  | .coreCodeError _ site => site.wf
  | .splitParityError _ _ => true
  | .clusterFault _ => true
  | .bistComplete _ _ _ => true
  | .rotation _ => true
  | .bistSeat w _ _ => w.wf
  | .bistUnit w _ _ => w.wf
  | .seatReset w _ _ => w.wf
  | .debugHalt _ => true
  | .debugResume _ => true
  | .debugStep _ => true
  | .debugWrite _ tgt _ => tgt.wf
  | .debugMemoryAccess _ _ _ _ => true
  | .debugRead _ tgt => tgt.wf
  | .deviceFail _ _ => true
  | .deviceTrainingStart => true
  | .deviceTrainingEnd _ => true
  | .patrolScrubLine err => err.wf
  | .memSrpageWrite w _ => w.wf
  | .chgScan w _ => w.wf
  | .chgScanDone => true
  | .memInitComplete _ => true
  | .bootImageVerify _ _ => true
  | .srAttrPortWrite w _ _ => w.wf
  | .srAttrPinWrite w _ => w.wf
  | .srAttrEngineWrite w _ _ => w.wf
  | .attrChangeDone _ => true
  | .srLeaseWrite w _ _ => w.wf
  | .srLeaseExpiry _ => true
  | .swdKick w _ => w.wf
  | .swdExpiry => true
  | .swdBoundExpiry => true
  | .charterCommit w _ => w.wf
  | .restartCommit w _ => w.wf
  | .fuseProgram w _ => w.wf
  | .fuseRevoke w _ => w.wf
  | .fuseRaiseMinsvn w _ => w.wf
  | .fuseBadop w _ => w.wf
  | .fuseOpDone => true
  | .meshBreach => true
  | .gcmEnc _ => true
  | .gcmDec _ => true
  | .xtsEnc _ => true
  | .xtsDec _ => true
  | .cmacGen _ => true
  | .cmacVer _ => true
  | .kwWrap _ => true
  | .kwUnwrap _ => true
  | .unwrap _ => true
  | .exportKey _ => true
  | .genkey _ => true
  | .kemKeygen _ => true
  | .kemEncaps _ => true
  | .kemDecaps _ => true
  | .cipherBadop _ => true
  | .kxSclr w _ _ => w.wf
  | .slotClearDone _ => true
  | .kxLaneReset w _ _ => w.wf
  | .frbPack _ => true
  | .frbUnpack _ => true
  | .deflPack _ => true
  | .deflUnpack _ => true
  | .cxLaneReset w _ _ => w.wf
  | .tipinLoad w _ => w.wf
  | .tipinLoadDone => true
  | .tipinActivate w _ => w.wf
  | .tipinActivateDone => true
  | .sequencerFault _ _ => true
  | .enGateWrite w _ _ => w.wf
  | .autogateGate _ => true
  | .autogateUngate _ => true
  | .gatedActionRelease _ => true
  | .stkFire w _ => w.wf
  | .stktInEdge => true
  | .stocktakeLatch => true
  | .stkArm w _ => w.wf
  | .notePop w _ _ => w.wf
  | .intRaise w _ => w.wf
  | .vauxRise => true
  | .vauxLoss => true
  | .pwrOkRise => true
  | .pwrOkFall => true
  | .vinUndervoltage => true
  | .vioSbbLoss => true
  | .vioSbaLoss => true
  | .resetNLow => true
  | .resetNRise => true
  | .moduleResetEnd => true
  | .thermalTrip _ => true
  | .alertResponse => true
  | .mgmtReadModPart => true
  | .mgmtReadSerialHi => true
  | .mgmtReadSerialLo => true
  | .mgmtReadModState => true
  | .mgmtReadSrBoot => true
  | .mgmtReadSrRstcause => true
  | .mgmtReadTwnStat => true
  | .mgmtReadTwnEpoch => true
  | .mgmtReadIntFault => true
  | .mgmtReadRtStat => true
  | .mgmtReadModTemp => true
  | .mgmtReadModSupply => true
  | .mgmtReadEnTotal => true
  | .mgmtUnlistedCommand _ => true
  | .mboxWrite octs => 1 ≤ octs.length && octs.length ≤ 30
  | .mboxRead => true
  | .registerWrite w a _ => w.wf && a < 2 ^ 32
  | .twinAliveInHigh => true
  | .frameLeftPort _ ns => ns < 60
  | .srpageMarkDone => true
  | .vioSbaReturn => true
  | .vioSbbReturn => true

end Sys2Proof
end

