-- ==== Sys2Proof/Safety.lean ====
section
/-! DEFINITION. What counts as a safe run of the block, and the terms the statements about it use: where a core can run an
instruction to its end, and what an instruction leaves of a seat's architected state. -/

namespace Sys2Proof

open Sys2Proof.Machine

/-- A step goes on: it answers a next state. -/
def Goes (o : Host.Outcome State Fault Refusal) : Prop := ∃ t, o = .next t

/-- A run of `n` steps from `s` never stops. -/
def SafeRun : Nat → State → Prop
  | 0, _ => True
  | n + 1, s => ∃ t, step s = .next t ∧ SafeRun n t

end Sys2Proof

namespace Sys2Proof.Machine

open Sys2Proof

/-! ### The wire -/

/-- An item whose fields fit the wire, its body as many words as LENGTH fills (R73). -/
def itemFits (i : LcpItem) : Bool := i.fits && i.body.length = (i.len + 5) / 6

/-- A RELEASE entry whose fields fit the wire (R76). -/
def entryFits (e : RelEntry) : Bool := e.id < 2 ^ 64 && e.accn < 2 ^ 64 && e.folio < 2 ^ 52 && e.epoch < 2 ^ 24

/-- A body that goes with a frame type and its flags, its fields within the wire's (R71, R73, R76, R78). -/
def bodyFits (typ flags : Nat) : LcpBody → Bool
  | .none => typ = 3 || typ = 7
  | .helloReq pid ten stream => typ = 1 && !nbit flags 7 && pid < 2 ^ 64 && ten < 16 && stream < 256
  | .helloRsp pid ten stream idle rto h =>
    typ = 1 && nbit flags 7 && pid < 2 ^ 64 && ten < 16 && stream < 256 && idle < 256 && rto < 256 && h < 2 ^ 64
  | .items l => (typ = 2 || typ = 8) && l.length ≤ 512 && l.all itemFits
  | .entries l => typ = 5 && l.length ≤ 256 && l.all entryFits
  | .nak r d s => typ = 4 && r < 256 && d < 256 && s < 2 ^ 32
  | .epoch e r => typ = 6 && e < 2 ^ 24 && r < 256
  | .bye r => typ = 9 && r < 256
  | .probe e a b => typ = 10 && e < 2 ^ 64 && a < 2 ^ 40 && b < 2 ^ 24

/-- An LCP frame whose fields fit the wire (R68 to R78). -/
def frameFits (f : LcpFrame) : Bool :=
  f.dst < 2 ^ 48 && f.src < 2 ^ 48 && f.flags < 256 && f.session < 4096 && f.epoch < 2 ^ 24 && f.seq < 2 ^ 32 &&
    f.cumack < 2 ^ 32 && f.credit < 65536 && bodyFits f.typ f.flags f.body

/-! ### Cores -/

/-- Nothing outside seat `q` makes its instruction wait or changes what it reads: no group is BROKEN (R329), no device is in
training and the write queue is within its bound (R330), the mirror is not late (R146), and no seat reset waits (R316). -/
structure Calm (m : Mach) (q : Nat) : Prop where
  groups : m.grpState 0 ≠ 2 ∧ m.grpState 1 ≠ 2
  idle : m.memst.training = none ∧ m.memst.writeQ.length ≤ 2048
  mirror : m.mirLate = false
  reset : (m.seat q).resetReq = false

/-- Seat `q` can run an instruction of `len` syllables to its end: it may run one (R320), no FP report becomes due (R270), the
fetch passes its checks and leaves `m` (R229 to R231), the group goes on on a locked seat or holds no store (R306, R317), and
nothing else is in the way. -/
structure CanRun (s : State) (q len : Nat) (m : Mach) : Prop where
  ready : s.toMach.coreReady q = true
  calm : Calm s.toMach q
  young : ∀ x, (s.toMach.arch q).fp = some x → x.2 < 16
  fetch : fetchInstr q len (s.toMach.arch q).pc s.toMach = .ok ((), m)
  group : ((s.toMach.seat q).group < 63 ∧ s.toMach.splitSeat q = false) ∨ (s.toMach.seat q).stores = []

/-- The cells of a seat with some given values: bank, cell, value. -/
def cellsBut (a : Arch) : List (Nat × Nat × Word) → Nat → Nat → Word
  | [] => fun b n => a.cell b n
  | (b0, n0, w) :: l => fun b n => if b = b0 ∧ n = n0 then w else cellsBut a l b n

/-- DSP and RSP of the current level given a value. -/
def dspIs (a : Arch) (v : Nat) : Nat × Nat × Word := (a.wld + 1, 1, w48 v)
def rspIs (a : Arch) (v : Nat) : Nat × Nat × Word := (a.wld + 1, 2, w48 v)

/-- PSW.V of the current level set where `v` holds (R246). -/
def vIs (a : Arch) (v : Bool) : List (Nat × Nat × Word) := if v then [(a.wld + 1, 7, fset (a.own 7) Psw.v 1)] else []

/-- FPC with flags set (R266, R270). -/
def fpcIs (a : Arch) (flags : Nat) : Nat × Nat × Word := (0, 0xC, a.fpc ||| w48 flags)

/-- What an instruction leaves of a seat's architected state: the pc, the literal words its word has consumed, the entries of
both stacks held in the core, the cells that change, and the FP report that is pending, one instruction older. Level, wait, bar
and every register of the self window but the performance counters stay. -/
structure Leaves (a b : Arch) (pc litk : Nat) (ds rs : List Word) (fp : Option (Nat × Nat)) (cells : List (Nat × Nat × Word)) :
    Prop where
  pc : b.pc = pc
  litk : b.litk = litk
  ds : b.ds = ds
  rs : b.rs = rs
  fp : b.fp = fp.map fun x => (x.1, x.2 + 1)
  wld : b.wld = a.wld
  waiting : b.waiting = a.waiting
  bar : b.bar = a.bar
  cell : ∀ k n, n < 32 → b.cell k n = cellsBut a cells k n
  reg : ∀ o, o < 0x15 ∨ 0x18 < o → b.reg o = a.reg o

/-- The same for an instruction of `len` syllables that goes on with the next one (R240). -/
def InLine (a b : Arch) (len : Nat) (ds rs : List Word) (cells : List (Nat × Nat × Word)) : Prop :=
  Leaves a b (nextPc a.pc len a.litk) (if a.pc % 8 + len < 6 then a.litk else 0) ds rs a.fp cells

/-- What entering handling level `h` leaves of a seat's architected state (R232, R233): XPC, XCS with the level it came from, XA set
and IE cleared in PSW of `h`, the pc at VEC + 8 x cause, and stacks that are `h`'s own. -/
structure Enters (a b : Arch) (h cause detail page : Nat) (spill : Bool) (xpc : Nat) : Prop where
  wld : b.wld = h
  pc : b.pc = ((a.cell (h + 1) 0xB).toNat + 8 * cause) % 2 ^ 40 * 8
  litk : b.litk = 0
  waiting : b.waiting = false
  fp : b.fp = none
  ds : b.ds = if h = a.wld then a.ds else []
  rs : b.rs = if h = a.wld then a.rs else []
  cell : ∀ k n, n < 32 → b.cell k n = cellsBut a
    [(h + 1, 7, fset (fset (a.cell (h + 1) 7) Psw.xa 1) Psw.ie 0), (h + 1, 0xE, w48 xpc),
     (h + 1, 0xD, w48 (cause * 2 ^ 40 + detail % 256 * 2 ^ 32 + a.wld * 2 ^ 29 + b2n spill * 2 ^ 28 + page % 2 ^ 28))] k n

/-- A seat at which an exception enters its handling level without a spill (R226, R232, R233): the handling level is its own, or
it holds no stack entry in the core; XA of that level is 0, no FP report is pending, and its group holds no store. -/
structure CanEnter (s : State) (q : Nat) : Prop where
  ready : s.toMach.coreReady q = true
  calm : Calm s.toMach q
  fp : (s.toMach.arch q).fp = none
  xa : fbit ((s.toMach.arch q).psw (handlerOf (s.toMach.arch q).wld)) Psw.xa = false
  own : (s.toMach.arch q).wld = handlerOf (s.toMach.arch q).wld ∨ ((s.toMach.arch q).ds = [] ∧ (s.toMach.arch q).rs = [])
  stores : (s.toMach.seat q).stores = []

/-! ### Slips and lanes -/

/-- No core unit holds a changed copy of a line (R289). -/
def NoCopies (m : Mach) : Prop := ∀ y ∈ m.seats, ∀ i, y.2.dirtyOf i = none

/-- An engine's accesses change nothing but what they write, and wait for nothing: no line waits in an eviction buffer (R285), the
mirror is not late (R146), no group is in training and the write queue is within its bound (R330). -/
structure Steady (m : Mach) : Prop where
  buffers : ∀ y ∈ m.seats, y.2.evb = []
  mirror : m.mirLate = false
  idle : m.memst.training = none ∧ m.memst.writeQ.length ≤ 2048

/-- Engine `e` runs the job of context `x`, which stands before the slip word `w` of opcode `op` and operand words `l` and has not
waited at it (R181 to R183). -/
structure AtSlip (m : Mach) (e x : Nat) (j : Job) (w : Word) (op : Nat) (l : List Word) : Prop where
  up : m.up = true
  engine : (m.engine e).job = some x
  only : m.engineOf x = some e
  job : m.job x = some j
  running : j.st = .running
  young : m.stale j = false
  small : j.ten < 16 ∧ j.carrel < 4096
  fetch : m.carRead j.carrel j.sr j.slip = .ok w
  code : slipOp w = op
  words : m.slipWords j l.length = .ok l
  fresh : j.woken = false ∧ j.found = none
  steady : Steady m

/-- A job whose slip has ended and whose next slip stands at `next` (R183). -/
def Job.after (j : Job) (next : Nat) (err : Bool) : Job :=
  { j with slip := next % 2 ^ 40, err := err, woken := false, wokenRes := 0, wokenCount := 0, found := none, deadline := none }

/-- The slip of a job has ended and the job goes on, on its engine, at `next`; the fate of its POSTED items stands apart. -/
def GoesOn (t : State) (e x : Nat) (j : Job) (next : Nat) (err : Bool) : Prop :=
  (∃ p, t.toMach.job x = some { j.after next err with posted := p }) ∧ (t.toMach.engine e).job = some x

/-- The job has left its engine and waits (R181, R193). -/
def WaitsFor (t : State) (e x : Nat) (j : Job) (wt : Wait) (deadline : Option Nat) : Prop :=
  (∃ p, t.toMach.job x = some { j with st := .waiting, wait := wt, deadline := deadline, posted := p }) ∧
    (t.toMach.engine e).job = none

/-- The job has ended with a status word and a detail word: it has left its engine, and its completion entry is delivered or
held (R180, R210). -/
def EndsWith (t : State) (e x : Nat) (j2 j3 : Word) : Prop :=
  (t.toMach.engine e).job = none ∧
    (t.toMach.job x = none ∨ ∃ k, t.toMach.job x = some k ∧ k.st = .held ∧ k.j2 = j2 ∧ k.j3 = j3)

/-- A job that waited is ready, its slip to end with a status and a count (R193). -/
def WokenWith (m : Mach) (x code detail count : Nat) : Prop :=
  ∃ k, m.job x = some k ∧ k.st = .ready ∧ k.woken = true ∧ k.wokenRes = code * 65536 + detail ∧ k.wokenCount = count

/-- The one container of memory that changes, and what it holds. -/
def WritesOne (m t : Mach) (a : Nat) (c : Cont) : Prop := t.cont a = c ∧ ∀ b, b ≠ a → t.cont b = m.cont b

end Sys2Proof.Machine
end

