-- ==== Sys2Proof/Certificates/Slice0/Obligations.lean ====
section
/-! DEFINITION. The statements for the provers. Each docstring names the rules of the spec it formalises; where a clause rests on
a choice of this model it names the log entry. -/

open Sys2Proof Sys2Proof.Machine

/-! ### Core instructions -/

/-- Literals and the plain stack instructions (R243, R248, R249): each replaces the entries on the left, the top first, by those
on the right. PICK and PUT reach entries in the core; TOR, FROMR and PEEKR move between the stacks; LITW consumes a literal word
of its instruction word (R225, R240, R248, R249). -/
def Obligations.LiteralAndStackResults : Prop :=
  (∀ (s : State) (q : SeatId) (m : Mach) (n6 : Fin 64) (n8 : BitVec 8) (n16 : BitVec 16) (n24 : BitVec 24) (x y z : Word)
    (rest : List Word),
    ∀ row ∈ ([
        (.lits q n6, 1, [], [BitVec.ofNat 48 n6.val]), (.lit8 q n8, 2, [], [n8.signExtend 48]),
        (.lit16 q n16, 3, [], [n16.signExtend 48]), (.lit24 q n24, 4, [], [n24.signExtend 48]), (.nop q, 1, [], []),
        (.dup q, 1, [x], [x, x]), (.drop q, 1, [x], []), (.swap q, 1, [x, y], [y, x]), (.over q, 1, [x, y], [y, x, y]),
        (.rot q, 1, [x, y, z], [z, x, y]), (.nip q, 1, [x, y], [x]), (.tuck q, 1, [x, y], [x, y, x])] :
        List (Instr × Nat × List Word × List Word)),
      let a := s.toMach.arch q.val
      let (i, len, top, res) := row
      CanRun s q.val len m → a.ds = top ++ rest → a.stackFault false top.length res.length = none →
        res.length + rest.length ≤ 16 →
        ∃ t, exec i s = .next t ∧ InLine a (t.toMach.arch q.val) len (res ++ rest) a.rs
          [dspIs a (a.ptr false + res.length - top.length)]) ∧
  (∀ (s : State) (q : SeatId) (m : Mach) (d w : Word) (rest : List Word), CanRun s q.val 1 m →
    let a := s.toMach.arch q.val
    let base := (a.own 3).toNat
    let dsp := a.ptr false
    let rsp := a.ptr true
    (∀ v, a.ds = d :: rest → rest[d.toNat]? = some v → a.stackFault false 1 1 = none → base + d.toNat + 2 ≤ dsp →
      rest.length ≤ 15 →
      ∃ t, exec (.pick q) s = .next t ∧ InLine a (t.toMach.arch q.val) 1 (v :: rest) a.rs [dspIs a dsp]) ∧
    (a.ds = d :: w :: rest → d.toNat < rest.length → a.stackFault false 2 0 = none → base + d.toNat + 3 ≤ dsp →
      ∃ t, exec (.put q) s = .next t ∧
        InLine a (t.toMach.arch q.val) 1 (rest.set d.toNat w) a.rs [dspIs a (dsp - 2)]) ∧
    (a.ds = w :: rest → a.stackFault false 1 0 = none → a.stackFault true 0 1 = none → a.rs.length ≤ 15 →
      ∃ t, exec (.tor q) s = .next t ∧
        InLine a (t.toMach.arch q.val) 1 rest (w :: a.rs) [dspIs a (dsp - 1), rspIs a (rsp + 1)]) ∧
    (a.rs = w :: rest → a.stackFault false 0 1 = none → a.stackFault true 1 0 = none → a.ds.length ≤ 15 →
      ∃ t, exec (.fromr q) s = .next t ∧
        InLine a (t.toMach.arch q.val) 1 (w :: a.ds) rest [dspIs a (dsp + 1), rspIs a (rsp - 1)]) ∧
    (a.rs = w :: rest → a.stackFault false 0 1 = none → a.stackFault true 1 1 = none → a.ds.length ≤ 15 →
      rest.length ≤ 15 →
      ∃ t, exec (.peekr q) s = .next t ∧ InLine a (t.toMach.arch q.val) 1 (w :: a.ds) (w :: rest) [dspIs a (dsp + 1)]) ∧
    (∀ n, a.stackFault false 0 1 = none → a.ds.length ≤ 15 →
      fetchWord q.val ((a.pc / 8 + 1 + a.litk) % 2 ^ 40 * 8) m = .ok (w, n) →
      ∃ t, exec (.litw q) s = .next t ∧
        Leaves a (t.toMach.arch q.val) (nextPc a.pc 1 (a.litk + 1)) (if a.pc % 8 + 1 < 6 then a.litk + 1 else 0) (w :: a.ds)
          a.rs a.fp [dspIs a (dsp + 1)]))

/-- Integer results with PSW.V (R245, R246, R250, R259, R260): `b` on top of `a`, or `b` alone for the one-operand instructions.
Division (R260): truncation towards zero, the remainder with the dividend's sign; -2^47 by -1 gives -2^47 with V. -/
def Obligations.IntegerResults : Prop :=
  (∀ (s : State) (q : SeatId) (m : Mach) (a b : Word) (rest : List Word),
    let wide : Int → Bool := fun i => decide (i < -(2 ^ 47) ∨ 2 ^ 47 ≤ i)
    let flag : Bool → Word := fun c => if c then BitVec.allOnes 48 else 0
    ∀ row ∈ ([
        (.add q, [b, a], a + b, wide (a.toInt + b.toInt)), (.sub q, [b, a], a - b, wide (a.toInt - b.toInt)),
        (.neg q, [b], -b, wide (-b.toInt)), (.mul q, [b, a], a * b, wide (a.toInt * b.toInt)),
        (.mulhs q, [b, a], BitVec.ofInt 48 (a.toInt * b.toInt / 2 ^ 48), false),
        (.mulhu q, [b, a], BitVec.ofNat 48 (a.toNat * b.toNat / 2 ^ 48), false),
        (.and q, [b, a], a &&& b, false), (.or q, [b, a], a ||| b, false), (.xor q, [b, a], a ^^^ b, false),
        (.not q, [b], ~~~b, false), (.shl q, [b, a], a <<< b.toNat, false), (.shrl q, [b, a], a >>> b.toNat, false),
        (.shra q, [b, a], a.sshiftRight b.toNat, false), (.rol q, [b, a], a.rotateLeft b.toNat, false),
        (.eq q, [b, a], flag (a == b), false), (.lt q, [b, a], flag (a.slt b), false), (.ltu q, [b, a], flag (a.ult b), false),
        (.zeq q, [b], flag (b == 0#48), false)] : List (Instr × List Word × Word × Bool)),
      let x := s.toMach.arch q.val
      let (i, top, r, v) := row
      CanRun s q.val 1 m → x.ds = top ++ rest → x.stackFault false top.length 1 = none → rest.length ≤ 15 →
        ∃ t, exec i s = .next t ∧ InLine x (t.toMach.arch q.val) 1 (r :: rest) x.rs
          (dspIs x (x.ptr false + 1 - top.length) :: vIs x v)) ∧
  (∀ (s : State) (q : SeatId) (m : Mach) (a b : Word) (rest : List Word), b ≠ 0 →
    ∀ row ∈ ([
        (.divs q, BitVec.ofInt 48 (a.toInt.tdiv b.toInt), decide (a = BitVec.intMin 48 ∧ b = BitVec.allOnes 48)),
        (.divu q, a / b, false), (.rems q, BitVec.ofInt 48 (a.toInt.tmod b.toInt), false), (.remu q, a % b, false)] :
        List (Instr × Word × Bool)),
      let x := s.toMach.arch q.val
      let (i, r, v) := row
      CanRun s q.val 1 m → x.ds = b :: a :: rest → x.stackFault false 2 1 = none → rest.length ≤ 15 →
        ∃ t, exec i s = .next t ∧ InLine x (t.toMach.arch q.val) 1 (r :: rest) x.rs (dspIs x (x.ptr false - 1) :: vIs x v))

/-- Packed decimal (R251, R261 to R264): `k` words an operand, the word with the sign on top. DADD and DSUB leave a result whose
value has the low 12k - 1 digits of the exact one, FPC.DO set where digits were lost and no trap enabled; DCMP gives 0, 1 or 2;
DCHK leaves its operand under the answer. -/
def Obligations.DecimalResults : Prop :=
  ∀ (s : State) (q : SeatId) (m : Mach) (n : BitVec 8) (da db rest : List Word), CanRun s q.val 2 m →
    let k := n.toNat
    let a := s.toMach.arch q.val
    let lim : Nat := 10 ^ (12 * k - 1)
    1 ≤ k → k ≤ 3 → da.length = k → db.length = k → rest.length ≤ 12 →
    (∀ row ∈ ([(.dadd q n, decVal da + decVal db), (.dsub q n, decVal da - decVal db)] : List (Instr × Int)),
      let (i, v) := row
      decFault da db = none → a.ds = db ++ da ++ rest → a.stackFault false (2 * k) k = none →
      (v.natAbs < lim ∨ nbit a.fpc.toNat 12 = false) →
      ∃ t res, exec i s = .next t ∧ res.length = k ∧ decBad res = none ∧
        decVal res = v.sign * (v.natAbs % lim : Nat) ∧
        (decNibbles res).head? = some (if v < 0 ∧ v.natAbs % lim ≠ 0 then 0xD else 0xC) ∧
        InLine a (t.toMach.arch q.val) 2 (res ++ rest) a.rs
          (dspIs a (a.ptr false - k) :: if v.natAbs < lim then [] else [fpcIs a 32])) ∧
    (decFault da db = none → a.ds = db ++ da ++ rest → a.stackFault false (2 * k) 1 = none →
      ∃ t, exec (.dcmp q n) s = .next t ∧
        InLine a (t.toMach.arch q.val) 2
          ((if decVal da = decVal db then 0 else if decVal da < decVal db then 1 else 2) :: rest) a.rs
          [dspIs a (a.ptr false + 1 - 2 * k)]) ∧
    (a.ds = da ++ rest → a.stackFault false k (k + 1) = none →
      ∃ t, exec (.dchk q n) s = .next t ∧
        InLine a (t.toMach.arch q.val) 2 ((if decBad da = none then BitVec.allOnes 48 else 0) :: da ++ rest) a.rs
          [dspIs a (a.ptr false + 1)])

/-- F48 operations (R252, R266 to R270): the results and flags of the operation under FPC's modes, the flags joined to FPC, and
the traps whose enables are 1 made pending or joined to those pending. FCVTF and FCVTI are exact on integers of at most 37 bits,
and FCVTI gives back what FCVTF made, without a flag (R267, R269). -/
def Obligations.FloatResults : Prop :=
  (∀ (s : State) (q : SeatId) (m : Mach) (a b c : Word) (rest : List Word), CanRun s q.val 1 m →
    let x := s.toMach.arch q.val
    let md := fmode x.fpc
    let one : Nat × Nat → List Word × Nat := fun r => ([BitVec.ofNat 48 r.1], r.2)
    ∀ row ∈ ([
        (.fadd q, [b, a], one (f48Add md a.toNat b.toNat)), (.fsub q, [b, a], one (f48Sub md a.toNat b.toNat)),
        (.fmul q, [b, a], one (f48Mul md a.toNat b.toNat)), (.fdiv q, [b, a], one (f48Div md a.toNat b.toNat)),
        (.fsqrt q, [b], one (f48Sqrt md b.toNat)), (.fma q, [c, b, a], one (f48Fma md a.toNat b.toNat c.toNat)),
        (.fcmp q, [b, a], one (f48Cmp md a.toNat b.toNat)), (.fcvti q, [b], one (f48ToInt md b.toNat)),
        (.fcvtf q, [b], one (f48OfSigned md b.toNat)),
        (.ftod q, [b], ([BitVec.ofNat 48 (f48ToD md b.toNat).1, BitVec.ofNat 48 ((f48ToD md b.toNat).1 / 2 ^ 48)],
          (f48ToD md b.toNat).2)),
        (.ffromd q, [b, a], one (f48OfD md (a.toNat % 2 ^ 16 * 2 ^ 48 + b.toNat)))] : List (Instr × List Word × List Word × Nat)),
      let (i, top, res, flags) := row
      let d := flags &&& fget x.fpc ⟨11, 7⟩
      x.ds = top ++ rest → x.stackFault false top.length res.length = none → rest.length ≤ 14 →
        ∃ t, exec i s = .next t ∧
          Leaves x (t.toMach.arch q.val) (nextPc x.pc 1 x.litk) (if x.pc % 8 + 1 < 6 then x.litk else 0) (res ++ rest) x.rs
            (if d = 0 then x.fp else match x.fp with
              | some (e, n) => some (e ||| d, n)
              | none => some (d, 0))
            [dspIs x (x.ptr false + res.length - top.length), fpcIs x flags]) ∧
  (∀ (md : FMode) (w : Word), w.toInt.natAbs ≤ 2 ^ 37 → md.rm ≤ 4 →
    (f48OfSigned md w.toNat).2 = 0 ∧ f48ToInt md (f48OfSigned md w.toNat).1 = (w.toNat, 0))

/-- LD, ILD, ST, IST and CAS once their operands are popped and the checks of R229 to R231 pass on `n`: the word the seat sees is
read, or the store stands in the group with the key, tag and CHG of R230 and R231 and the seat sees it (R253, R306); CAS leaves
the old payload (R237). IN and OUT once the checks of R18, R12 and R207 pass on `n`, the state with the operands popped and no
store waiting: IN leaves what the register reads as (here for every register but STK_SNAPVAL, whose read sets a bit); OUT moves
past its syllable, writes the register and ends its group (R236, R253); one whose write would dirty more lines than the mirror or
a training may hold waits (R146, R330). -/
def Obligations.MemoryInstructions : Prop :=
  (∀ (s : State) (q : SeatId) (m n n1 : Mach) (p : Nat) (sp : Bool) (x v w : Word) (rest : List Word), CanRun s q.val 1 m →
    let a := s.toMach.arch q.val
    let va := x.toNat % 2 ^ 40
    (∀ row ∈ ([(.ld q, .load), (.ild q, .ild)] : List (Instr × Acc)),
      let (i, k) := row
      (k = .ild → taskLevel a.wld = false) → a.ds = x :: rest → a.stackFault false 1 1 = none → rest.length ≤ 15 →
      popN q.val 1 m = .ok ([x], n) → xlate q.val a.wld va k n = .ok ((p, sp), n1) →
      checkCont q.val a.wld va k p (n1.seen q.val p) n1 = .ok ((), n1) →
      ∃ t, exec i s = .next t ∧
        InLine a (t.toMach.arch q.val) 1 ((n1.seen q.val p).pay :: rest) a.rs [dspIs a (a.ptr false)]) ∧
    (∀ row ∈ ([(.st q, .store), (.ist q, .ist)] : List (Instr × Acc)),
      let (i, k) := row
      let key := if fget (a.psw a.wld) Psw.key = 0 then fget (a.psw a.wld) Psw.wkey else fget (a.psw a.wld) Psw.key
      let c : Cont := { key := BitVec.ofNat 4 key, tag := if sp then 2 else if k = .ist then 1 else 0, chg := true, pay := v }
      (k = .ist → taskLevel a.wld = false) → (s.toMach.seat q.val).group < 63 → s.toMach.splitSeat q.val = false →
      a.ds = x :: v :: rest → a.stackFault false 2 0 = none → popN q.val 2 m = .ok ([x, v], n) →
      xlate q.val a.wld va k n = .ok ((p, sp), n1) → checkCont q.val a.wld va k p (n1.seen q.val p) n1 = .ok ((), n1) →
      ∃ t, exec i s = .next t ∧ InLine a (t.toMach.arch q.val) 1 rest a.rs [dspIs a (a.ptr false - 2)] ∧
        (t.toMach.seat q.val).stores = { addr := p, cont := c, ist := k == .ist } :: (s.toMach.seat q.val).stores ∧
        t.toMach.seen q.val p = c) ∧
    ((s.toMach.seat q.val).stores = [] → a.ds = w :: v :: x :: rest → a.stackFault false 3 1 = none → rest.length ≤ 13 →
      popN q.val 3 m = .ok ([w, v, x], n) → xlate q.val a.wld va .store n = .ok ((p, sp), n1) →
      checkCont q.val a.wld va .store p (n1.coh p) n1 = .ok ((), n1) → (n1.coh p).isPoison = false →
      ((n1.coh p).tag = 0 ∨ ((n1.coh p).tag = 2 ∧ srLevel a.wld = true)) → (sp = true ∨ n1.srAddr p = false) →
      let key := if fget (a.psw a.wld) Psw.key = 0 then fget (a.psw a.wld) Psw.wkey else fget (a.psw a.wld) Psw.key
      ∃ t, exec (.cas q) s = .next t ∧
        InLine a (t.toMach.arch q.val) 1 ((n1.coh p).pay :: rest) a.rs [dspIs a (a.ptr false - 2)] ∧
        ∀ i, (n1.seat q.val).holds (lineOf p) = some i → (n1.coh p).pay = v →
          tfind ((t.toMach.seat q.val).ent i).words (p % 64) =
            some { key := BitVec.ofNat 4 key, tag := if sp then 2 else 0, chg := true, pay := w })) ∧
  (∀ (s : State) (q : SeatId) (m n : Mach) (x v : Word) (rest : List Word), CanRun s q.val 1 m →
    (s.toMach.seat q.val).stores = [] →
    let a := s.toMach.arch q.val
    let p := x.toNat % 2 ^ 32
    (a.ds = x :: rest → a.stackFault false 1 1 = none → rest.length ≤ 15 → p ≠ Reg.stkSnapval →
      popN q.val 1 m = .ok ([x], n) → n.windowFault q.val p = none → n.pCheck (n.coreWho q.val) p false = none →
      ∃ t, exec (.inp q) s = .next t ∧
        InLine a (t.toMach.arch q.val) 1 (n.pValue (n.coreWho q.val) p :: rest) a.rs [dspIs a (a.ptr false)]) ∧
    (a.ds = x :: v :: rest → a.stackFault false 2 0 = none → popN q.val 2 m = .ok ([x, v], n) →
      n.windowFault q.val p = none → n.pCheck (n.coreWho q.val) p true = none →
      let r := ((((n.countInstr q.val false).advancePc q.val 1).pWrite (n.coreWho q.val) p v).endInstr q.val true).fpDue q.val false
      ∃ t, exec (.outp q) s = .next t ∧ t.toMach = (s.toMach.stalled r).lateReset q.val))

/-- Branches and calls (R241, R254, R255): offsets count syllables from the opcode's own, modulo 6 x 2^40; a return address names
the next syllable; an indirect target is a word in PC format. GETC and SETC of a cell of the current level or of an unbanked one
(R226 to R228): GETC gives the cell; SETC stores a value with no reserved bit set, and in FPC no reserved rounding mode (R266). SETC of DSP discards the entries the core
holds; VEC [7:0] read 0; at a task level PSW takes V only. -/
def Obligations.ControlInstructions : Prop :=
  (∀ (s : State) (q : SeatId) (m : Mach) (off : BitVec 16) (x : Word) (rest : List Word),
    let a := s.toMach.arch q.val
    let lin : Int := 6 * (a.pc / 8) + a.pc % 8 + off.toInt
    let wrapped := (lin % (6 * 2 ^ 40)).toNat
    let target := wrapped / 6 * 8 + wrapped % 6
    let inFormat := x.toNat < 2 ^ 43 ∧ x.toNat % 8 ≤ 5
    let popped := [dspIs a (a.ptr false - 1)]
    (CanRun s q.val 3 m → ∃ t, exec (.br q off) s = .next t ∧ Leaves a (t.toMach.arch q.val) target 0 a.ds a.rs a.fp []) ∧
    (CanRun s q.val 3 m → a.ds = x :: rest → a.stackFault false 1 0 = none →
      (∃ t, exec (.bz q off) s = .next t ∧
        if x = 0 then Leaves a (t.toMach.arch q.val) target 0 rest a.rs a.fp popped
        else InLine a (t.toMach.arch q.val) 3 rest a.rs popped) ∧
      (∃ t, exec (.bnz q off) s = .next t ∧
        if x = 0 then InLine a (t.toMach.arch q.val) 3 rest a.rs popped
        else Leaves a (t.toMach.arch q.val) target 0 rest a.rs a.fp popped)) ∧
    (CanRun s q.val 3 m → a.stackFault true 0 1 = none → a.rs.length ≤ 15 →
      ∃ t, exec (.call q off) s = .next t ∧
        Leaves a (t.toMach.arch q.val) target 0 a.ds (w48 (nextPc a.pc 3 a.litk) :: a.rs) a.fp [rspIs a (a.ptr true + 1)]) ∧
    (CanRun s q.val 1 m → a.rs = x :: rest → a.stackFault true 1 0 = none → inFormat →
      ∃ t, exec (.ret q) s = .next t ∧ Leaves a (t.toMach.arch q.val) x.toNat 0 a.ds rest a.fp [rspIs a (a.ptr true - 1)]) ∧
    (CanRun s q.val 1 m → a.ds = x :: rest → a.stackFault false 1 0 = none → inFormat →
      ∃ t, exec (.jmpi q) s = .next t ∧ Leaves a (t.toMach.arch q.val) x.toNat 0 rest a.rs a.fp popped) ∧
    (CanRun s q.val 1 m → a.ds = x :: rest → a.stackFault false 1 0 = none → inFormat → a.stackFault true 0 1 = none →
      a.rs.length ≤ 15 →
      ∃ t, exec (.calli q) s = .next t ∧
        Leaves a (t.toMach.arch q.val) x.toNat 0 rest (w48 (nextPc a.pc 1 a.litk) :: a.rs) a.fp
          [dspIs a (a.ptr false - 1), rspIs a (a.ptr true + 1)])) ∧
  (∀ (s : State) (q : SeatId) (m : Mach) (c : BitVec 8) (x : Word) (rest : List Word), CanRun s q.val 3 m →
    let a := s.toMach.arch q.val
    let n := c.toNat % 32
    let bank := if n ≤ 2 ∨ n = 3 ∨ n = 4 ∨ n = 5 ∨ n = 6 ∨ n = 7 then a.wld + 1 else 0
    c.toNat < 32 → a.fp = none →
    (n ∈ [3, 4, 5, 6, 7, 8, 9, 0xC] → a.stackFault false 0 1 = none → a.ds.length ≤ 15 →
      ∃ t, exec (.getc q c) s = .next t ∧
        InLine a (t.toMach.arch q.val) 3 (a.cell bank n :: a.ds) a.rs [dspIs a (a.ptr false + 1)]) ∧
    (n = 0xA → a.stackFault false 0 1 = none → a.ds.length ≤ 15 →
      ∃ t, exec (.getc q c) s = .next t ∧
        InLine a (t.toMach.arch q.val) 3 (w48 a.wld :: a.ds) a.rs [dspIs a (a.ptr false + 1)]) ∧
    (n ∈ [3, 4, 5, 6] → taskLevel a.wld = false → a.ds = x :: rest → a.stackFault false 1 0 = none → x.toNat < 2 ^ 40 →
      ∃ t, exec (.setc q c) s = .next t ∧
        InLine a (t.toMach.arch q.val) 3 rest a.rs [(a.wld + 1, n, x), dspIs a (a.ptr false - 1)]) ∧
    (n = 1 → a.ds = x :: rest → a.stackFault false 1 0 = none → x.toNat < 2 ^ 40 →
      ∃ t, exec (.setc q c) s = .next t ∧ InLine a (t.toMach.arch q.val) 3 [] a.rs [(a.wld + 1, 1, x)]) ∧
    (n = 8 → taskLevel a.wld = false → a.ds = x :: rest → a.stackFault false 1 0 = none → x.toNat < 2 ^ 24 →
      ∃ t, exec (.setc q c) s = .next t ∧
        InLine a (t.toMach.arch q.val) 3 rest a.rs [(0, 8, x), dspIs a (a.ptr false - 1)]) ∧
    (n = 0xC → a.ds = x :: rest → a.stackFault false 1 0 = none → x &&& ~~~0x07C01FBF#48 = 0 → fget x Fpc.rm ≤ 4 →
      ∃ t, exec (.setc q c) s = .next t ∧
        InLine a (t.toMach.arch q.val) 3 rest a.rs [(0, 0xC, x), dspIs a (a.ptr false - 1)]) ∧
    (n = 7 → taskLevel a.wld = false → a.ds = x :: rest → a.stackFault false 1 0 = none → x &&& ~~~0xFFEF00000000#48 = 0 →
      ∃ t, exec (.setc q c) s = .next t ∧
        InLine a (t.toMach.arch q.val) 3 rest a.rs [(a.wld + 1, 7, x), dspIs a (a.ptr false - 1)]) ∧
    (n ∈ [0xB, 0xD, 0xE] → a.wld = 1 ∨ a.wld = 3 → a.ds = x :: rest → a.stackFault false 1 0 = none → x.toNat < 2 ^ 40 →
      ∃ t, exec (.setc q c) s = .next t ∧
        InLine a (t.toMach.arch q.val) 3 rest a.rs
          [(a.wld + 1, n, if n = 0xB then x &&& ~~~0xFF#48 else x), dspIs a (a.ptr false - 1)]))

/-- SVC and CALLM (R224, R232, R233): `n` entries move to the handling level's stack, the handler is entered with XPC at the next
syllable and n as the detail. Here the entries moved are all those the core holds, so that nothing is spilled. RETS, RETM and
ERET (R224, R233): back to the level XCS.FROM names at XPC, XA of the level left cleared and nothing else restored, with `n`
entries for RETS and RETM and none for ERET. -/
def Obligations.LevelChanges : Prop :=
  (∀ (s : State) (q : SeatId) (m : Mach) (n : BitVec 8), CanRun s q.val 3 m →
    let a := s.toMach.arch q.val
    (s.toMach.seat q.val).stores = [] → a.fp = none → a.wld ≠ 4 → a.wld ≤ 3 → n.toNat ≤ 7 → a.ds.length = n.toNat → a.rs = [] →
    a.stackFault false n.toNat 0 = none →
    ∀ row ∈ ([(.svc q n, if a.wld ≤ 1 then 1 else 3, 0x0F), (.callm q n, 4, 0x10)] : List (Instr × Nat × Nat)),
      let (i, h, cause) := row
      let p := (a.cell (h + 1) 1).toNat
      h ≠ a.wld → (cause = 0x10 → s.toMach.restarting = false ∨ 2 ≤ a.wld) →
      (n.toNat = 0 ∨ ((a.cell (h + 1) 3).toNat ≤ p ∧ p + n.toNat ≤ (a.cell (h + 1) 4).toNat)) →
      ∃ t, exec i s = .next t ∧
        let b := t.toMach.arch q.val
        b.wld = h ∧ b.pc = ((a.cell (h + 1) 0xB).toNat + 8 * cause) % 2 ^ 40 * 8 ∧ b.ds = a.ds ∧ b.rs = [] ∧
        b.cell (h + 1) 0xE = w48 (nextPc a.pc 3 a.litk) ∧
        b.cell (h + 1) 0xD = w48 (cause * 2 ^ 40 + n.toNat * 2 ^ 32 + a.wld * 2 ^ 29) ∧
        b.cell (h + 1) 7 = fset (fset (a.cell (h + 1) 7) Psw.xa 1) Psw.ie 0 ∧
        b.cell (h + 1) 1 = w48 (p + n.toNat) ∧ b.cell (a.wld + 1) 1 = w48 (a.ptr false - n.toNat)) ∧
  (∀ (s : State) (q : SeatId) (m : Mach) (n : BitVec 8),
    let a := s.toMach.arch q.val
    let h := (a.cell (a.wld + 1) 0xD).toNat / 2 ^ 29 % 8
    let xpc := (a.cell (a.wld + 1) 0xE).toNat
    (s.toMach.seat q.val).stores = [] → xpc < 2 ^ 43 → xpc % 8 ≤ 5 → h ≠ a.wld → a.rs = [] →
    ∀ row ∈ ([(.rets q n, 3, n.toNat, a.wld = 1 ∨ a.wld = 3), (.retm q n, 3, n.toNat, a.wld = 4),
        (.eret q, 2, 0, a.wld = 1 ∨ a.wld = 3 ∨ a.wld = 4)] : List (Instr × Nat × Nat × Prop)),
      let (i, len, k, level) := row
      let p := (a.cell (h + 1) 1).toNat
      CanRun s q.val len m → level → (if a.wld = 4 then h ≤ 3 else h + 1 = a.wld) → k ≤ 7 → a.ds.length = k →
      a.stackFault false k 0 = none →
      (k = 0 ∨ ((a.cell (h + 1) 3).toNat ≤ p ∧ p + k ≤ (a.cell (h + 1) 4).toNat)) →
      ∃ t, exec i s = .next t ∧
        let b := t.toMach.arch q.val
        b.wld = h ∧ b.pc = xpc ∧ b.litk = 0 ∧ b.ds = a.ds ∧ b.rs = [] ∧
        b.cell (a.wld + 1) 7 = fset (a.cell (a.wld + 1) 7) Psw.xa 0 ∧
        b.cell (h + 1) 1 = w48 (p + k) ∧ b.cell (a.wld + 1) 1 = w48 (a.ptr false - k))

/-- WAIT, FENCE, IFENCE, FBAR with no report pending, and the prediction instructions (R235, R236, R270, R278, R279): each goes
on with the next syllable; WAIT leaves the seat waiting, PFLUSH empties the prediction state, PBAR and PUNBAR give the bar.
Interrupts at a boundary (R232, R233, R235, R422): the source the seat takes is claimed and the handler entered with cause INTR
and the priority as the detail; WAIT ends with it, XPC the syllable after WAIT; an FP report due at the boundary is taken with
cause FP and its traps as the detail (R270). Here no store waits and the core holds no entry of a level that is left. -/
def Obligations.WaitsInterruptsAndReports : Prop :=
  (∀ (s : State) (q : SeatId) (m : Mach), (s.toMach.seat q.val).stores = [] → (s.toMach.arch q.val).fp = none →
    let a := s.toMach.arch q.val
    (CanRun s q.val 2 m → taskLevel a.wld = false →
      ∃ t, exec (.wait q) s = .next t ∧
        InLine { a with waiting := true } (t.toMach.arch q.val) 2 a.ds a.rs []) ∧
    (CanRun s q.val 2 m → ∃ t, exec (.fence q) s = .next t ∧ InLine a (t.toMach.arch q.val) 2 a.ds a.rs []) ∧
    (CanRun s q.val 2 m → ∃ t, exec (.ifence q) s = .next t ∧ InLine a (t.toMach.arch q.val) 2 a.ds a.rs []) ∧
    (CanRun s q.val 1 m → ∃ t, exec (.fbar q) s = .next t ∧ InLine a (t.toMach.arch q.val) 1 a.ds a.rs []) ∧
    (CanRun s q.val 2 m →
      ∃ t, exec (.pflush q) s = .next t ∧ InLine a (t.toMach.arch q.val) 2 a.ds a.rs [] ∧
        (t.toMach.seat q.val).openBank = [] ∧ (t.toMach.seat q.val).srBank = [] ∧ (t.toMach.seat q.val).ghr = 0 ∧
        (t.toMach.seat q.val).ind = []) ∧
    (CanRun s q.val 2 m →
      ∃ t, exec (.pbar q) s = .next t ∧ InLine { a with bar := true } (t.toMach.arch q.val) 2 a.ds a.rs []) ∧
    (CanRun s q.val 2 m →
      ∃ t, exec (.punbar q) s = .next t ∧ InLine { a with bar := false } (t.toMach.arch q.val) 2 a.ds a.rs [])) ∧
  (∀ (s : State) (q : SeatId) (i : Nat),
    let m := s.toMach
    let a := m.arch q.val
    let h := if m.intSr i then 4 else 1
    let pri := m.fld (Reg.intRoute i) F.intRoutePri
    m.boundaryReady q.val = true → (m.seat q.val).stores = [] → (a.ds = [] ∧ a.rs = []) →
    (a.fp = none → m.intFor q.val = some i →
      ∃ t, exec (.interruptTake q) s = .next t ∧ Enters a (t.toMach.arch q.val) h 0x11 pri 0 false a.pc ∧
        t.toMach.reg (Reg.intStat i) = m.reg (Reg.intStat i) &&& ~~~1#48) ∧
    (a.fp = none → a.waiting = true → m.pendingInts.any (m.routedTo q.val) = true → m.intFor q.val = some i →
      ∃ t, exec (.waitEnd q) s = .next t ∧ Enters a (t.toMach.arch q.val) h 0x11 pri 0 false a.pc) ∧
    (a.waiting = true → m.pendingInts.any (m.routedTo q.val) = true → m.intFor q.val = none →
      ∃ t, exec (.waitEnd q) s = .next t ∧ t.toMach.arch q.val = { a with waiting := false }) ∧
    (∀ d n, a.fp = some (d, n) → a.waiting = false → fbit (a.psw (handlerOf a.wld)) Psw.xa = false →
      ∃ t, exec (.fpTrapReport q) s = .next t ∧
        Enters a (t.toMach.arch q.val) (handlerOf a.wld) 0x0E d 0 false a.pc))

/-- Maintenance by address, by entry and by range of one word (R257, R258, R284, R287, R288, R296) in the monitor, once the
operands are popped and the checks of R257 pass on `n`. The line of physical word `p` stands valid and unlocked in entry `i`, the
near store has no fill in progress and its eviction buffer is empty. A clean leaves the entry without changed words, an
invalidate discards the entry, a flush does both. A fill whose line arrives without error completes its entry and touches it
(R283); the oldest line of the eviction buffer reaches memory and leaves the buffer (R285). -/
def Obligations.NearStoreCommands : Prop :=
  (∀ (s : State) (q : SeatId) (m n : Mach) (i p : Nat) (x : Word) (rest : List Word), CanRun s q.val 2 m →
    let a := s.toMach.arch q.val
    let gone : NsEnt := {}
    let e := (m.seat q.val).ent i
    let va := x.toNat % 2 ^ 40
    (s.toMach.seat q.val).stores = [] → a.wld = 4 → a.stackFault false 1 0 = none →
    (m.seat q.val).ns.all (fun y => !y.2.filling) = true → (m.seat q.val).evb = [] → e.valid = true → e.locked = false →
    ((m.seat q.val).ns.map Prod.fst).Nodup →
    (∀ row ∈ ([(.nsca q, .readCheck, { e with words := [] }), (.nsfa q, .readCheck, gone), (.nsia q, .storeCheck, gone),
        (.nsunlk q, .readCheck, { e with vline := 0 }), (.l2ca q, .readCheck, { e with words := [] }),
        (.l2fa q, .readCheck, gone)] : List (Instr × Acc × NsEnt)),
      let (c, k, after) := row
      a.ds = x :: rest → popN q.val 1 m = .ok ([x], n) → (m.seat q.val).holds (p / 64) = some i → e.line = p / 64 →
      xlate q.val 4 va k n = .ok ((p, true), n) → checkCont q.val 4 va k p (n.seen q.val p) n = .ok ((), n) →
      ∃ t, exec c s = .next t ∧ InLine a (t.toMach.arch q.val) 2 rest a.rs [dspIs a (a.ptr false - 1)] ∧
        (t.toMach.seat q.val).ent i = after) ∧
    (∀ row ∈ ([(.nsce q, { e with words := [] }), (.nsie q, gone), (.nsfe q, gone)] : List (Instr × NsEnt)),
      let (c, after) := row
      a.ds = x :: rest → x.toNat % 64 = i →
      ∃ t, exec c s = .next t ∧ InLine a (t.toMach.arch q.val) 2 rest a.rs [dspIs a (a.ptr false - 1)] ∧
        (t.toMach.seat q.val).ent i = after) ∧
    (∀ row ∈ ([(.nscr q, .readCheck, { e with words := [] }), (.nsir q, .storeCheck, gone), (.nsfr q, .readCheck, gone)] :
        List (Instr × Acc × NsEnt)),
      let (c, k, after) := row
      a.ds = 1 :: x :: rest → a.stackFault false 2 0 = none → popN q.val 2 m = .ok ([1, x], n) →
      (m.seat q.val).holds (p / 64) = some i → e.line = p / 64 → xlate q.val 4 va k n = .ok ((p, true), n) →
      n.keyPass q.val 4 k p (n.seen q.val p) = true →
      ∃ t, exec c s = .next t ∧ InLine a (t.toMach.arch q.val) 2 rest a.rs [dspIs a (a.ptr false - 2)] ∧
        (t.toMach.seat q.val).ent i = after) ∧
    (a.ds = x :: rest → a.stackFault false 1 1 = none → rest.length ≤ 15 → popN q.val 1 m = .ok ([x], n) →
      (m.seat q.val).holds (p / 64) = some i → e.line = p / 64 → (m.seat q.val).lockCount < 16 →
      xlate q.val 4 va .readCheck n = .ok ((p, true), n) → checkCont q.val 4 va .readCheck p (n.seen q.val p) n = .ok ((), n) →
      let ok : Bool := n.setLocks (q.val / 16) (p / 64) < 12
      ∃ t, exec (.nslock q) s = .next t ∧
        InLine a (t.toMach.arch q.val) 2 ((if ok then BitVec.allOnes 48 else 0) :: rest) a.rs [dspIs a (a.ptr false)] ∧
        (t.toMach.seat q.val).ent i = if ok then { e with locked := true, vline := va / 64 } else e)) ∧
  (∀ (s : State) (q : SeatId), s.toMach.up = true →
    let m := s.toMach
    (∀ i : Fin 64, ((m.seat q.val).ent i.val).filling = true → (∀ d, m.devState d ≠ 2) →
      ∃ t, exec (.nsFillDone q i {}) s = .next t ∧
        (t.toMach.seat q.val).ent i.val = { (m.seat q.val).ent i.val with filling := false } ∧
        (t.toMach.seat q.val).plru = touchFrom 6 (i.val + 64) (m.seat q.val).plru ∧ t.toMach.mem = m.mem) ∧
    (∀ e, (m.seat q.val).evb.find? (fun y => y.entry.isNone) = some e → (∀ d, m.devState d ≠ 2) → Calm m q.val →
      ∃ t, exec (.evictionWritebackDone (q, {})) s = .next t ∧
        (t.toMach.seat q.val).evb = (m.seat q.val).evb.filter (fun y => y.line ≠ e.line) ∧
        t.toMach.mem = (m.writeLine e.line e.words).mem))

/-- Where an instruction meets a stack bound (R225, R232, R248): DSTACK or RSTACK is taken, precise, at the faulting syllable,
the operands still on their stacks. The detail is 0 over the limit, 1 under the base, 2 outside the bounds. Causes of the
instruction itself (R232, R239, R244, R251, R257, R260): a reserved opcode or a bad width or count is ILLEGAL, a system
instruction at a task level is PRIV, a division by zero is IDIV; each is taken at its syllable. -/
def Obligations.InstructionExceptions : Prop :=
  (∀ (s : State) (q : SeatId) (m : Mach) (d : Nat), CanEnter s q.val →
    let a := s.toMach.arch q.val
    fetchInstr q.val 1 a.pc s.toMach = .ok ((), m) →
    (∀ row ∈ ([(.dup q, 1, 2), (.drop q, 1, 0), (.swap q, 2, 2), (.over q, 2, 3), (.rot q, 3, 3), (.nip q, 2, 1), (.tuck q, 2, 3),
        (.pick q, 1, 1), (.put q, 2, 0), (.tor q, 1, 0), (.fromr q, 0, 1), (.peekr q, 0, 1), (.add q, 2, 1), (.sub q, 2, 1),
        (.neg q, 1, 1), (.mul q, 2, 1), (.divs q, 2, 1), (.remu q, 2, 1), (.and q, 2, 1), (.not q, 1, 1), (.shl q, 2, 1),
        (.eq q, 2, 1), (.zeq q, 1, 1), (.litw q, 0, 1), (.fadd q, 2, 1), (.fma q, 3, 1), (.ftod q, 1, 2), (.ld q, 1, 1),
        (.st q, 2, 0), (.inp q, 1, 1), (.jmpi q, 1, 0), (.calli q, 1, 0)] : List (Instr × Nat × Nat)),
      let (i, pops, pushes) := row
      a.stackFault false pops pushes = some d →
      ∃ t, exec i s = .next t ∧ Enters a (t.toMach.arch q.val) (handlerOf a.wld) 0x03 d 0 false a.pc) ∧
    (a.stackFault true 1 0 = some d →
      ∃ t, exec (.ret q) s = .next t ∧ Enters a (t.toMach.arch q.val) (handlerOf a.wld) 0x04 d 0 false a.pc)) ∧
  (∀ (s : State) (q : SeatId) (m : Mach) (n op op2 : BitVec 8) (x : Word) (rest : List Word), CanEnter s q.val →
    let a := s.toMach.arch q.val
    let takes := fun (i : Instr) (cause : Nat) =>
      ∃ t, exec i s = .next t ∧ Enters a (t.toMach.arch q.val) (handlerOf a.wld) cause 0 0 false a.pc
    (fetchInstr q.val 1 a.pc s.toMach = .ok ((), m) → opLen op.toNat op2.toNat = none → takes (.illegalOpcode q op op2) 0x01) ∧
    (fetchInstr q.val 2 a.pc s.toMach = .ok ((), m) → (n = 0 ∨ 3 < n.toNat) →
      takes (.dadd q n) 0x01 ∧ takes (.dsub q n) 0x01 ∧ takes (.dcmp q n) 0x01 ∧ takes (.dchk q n) 0x01) ∧
    (fetchInstr q.val 3 a.pc s.toMach = .ok ((), m) → 7 < n.toNat →
      takes (.svc q n) 0x01 ∧ takes (.rets q n) 0x01 ∧ takes (.retm q n) 0x01) ∧
    (fetchInstr q.val 2 a.pc s.toMach = .ok ((), m) → taskLevel a.wld = true →
      takes (.wait q) 0x02 ∧ takes (.eret q) 0x02 ∧ takes (.nsia q) 0x02 ∧ takes (.nsce q) 0x02 ∧ takes (.nslock q) 0x02) ∧
    (fetchInstr q.val 1 a.pc s.toMach = .ok ((), m) → taskLevel a.wld = true → takes (.ild q) 0x02 ∧ takes (.ist q) 0x02) ∧
    (fetchInstr q.val 1 a.pc s.toMach = .ok ((), m) → a.ds = 0 :: x :: rest → a.stackFault false 2 1 = none →
      takes (.divs q) 0x0B ∧ takes (.divu q) 0x0B ∧ takes (.rems q) 0x0B ∧ takes (.remu q) 0x0B))

/-- Nested exceptions (R233): one that would enter a handling level whose XA is 1 raises DOUBLE, taken by the monitor with the
cause as its detail; in the monitor with XA = 1 it stops the pair, and so does a DOUBLE that meets the monitor with XA = 1. During a restart an open seat waits at its
DOUBLE (R348). Here a reserved opcode meets each level. -/
def Obligations.NestedExceptions : Prop :=
  ∀ (s : State) (q : SeatId) (m : Mach) (op op2 : BitVec 8),
    let a := s.toMach.arch q.val
    let stays := fun (t : State) => Leaves a (t.toMach.arch q.val) a.pc a.litk a.ds a.rs none []
    s.toMach.coreReady q.val = true → Calm s.toMach q.val → a.fp = none → (s.toMach.seat q.val).stores = [] →
    a.ds = [] → a.rs = [] → fetchInstr q.val 1 a.pc s.toMach = .ok ((), m) → opLen op.toNat op2.toNat = none →
    fbit (a.psw (handlerOf a.wld)) Psw.xa = true →
    (a.wld ≤ 3 → fbit (a.psw 4) Psw.xa = false → (s.toMach.restarting = false ∨ 2 ≤ a.wld) →
      ∃ t, exec (.illegalOpcode q op op2) s = .next t ∧ Enters a (t.toMach.arch q.val) 4 0x12 0x01 0 false a.pc) ∧
    (a.wld ≤ 1 → fbit (a.psw 4) Psw.xa = false → s.toMach.restarting = true →
      ∃ t, exec (.illegalOpcode q op op2) s = .next t ∧ (t.toMach.seat q.val).stopped = false ∧ stays t) ∧
    ((a.wld = 4 ∨ fbit (a.psw 4) Psw.xa = true) →
      ∃ t, exec (.illegalOpcode q op op2) s = .next t ∧ (t.toMach.seat q.val).stopped = true ∧ stays t)

/-- The frame of the instructions that work on a core alone (R243 to R252): where the group goes on, memory is as the fetch left
it (after a branch that may follow a wrong path, in barred code, for a wrong path may displace changed lines, R281), every P-space register outside the core's own counters, every other seat's architected state, the ledger, the sessions, the
twin, every carrel, job, lane and queue are as before. -/
def Obligations.CoreFrame : Prop :=
  ∀ (s t : State) (q : SeatId) (m : Mach) (n6 : Fin 64) (n8 : BitVec 8) (n16 : BitVec 16) (n24 : BitVec 24),
    ∀ row ∈ ([
        (.lits q n6, 1), (.lit8 q n8, 2), (.lit16 q n16, 3), (.lit24 q n24, 4), (.nop q, 1), (.dup q, 1), (.drop q, 1), (.swap q, 1),
        (.over q, 1), (.rot q, 1), (.nip q, 1), (.tuck q, 1), (.tor q, 1), (.fromr q, 1), (.peekr q, 1),
        (.add q, 1), (.sub q, 1), (.neg q, 1), (.mul q, 1), (.mulhs q, 1), (.mulhu q, 1), (.and q, 1), (.or q, 1), (.xor q, 1),
        (.not q, 1), (.shl q, 1), (.shrl q, 1), (.shra q, 1), (.rol q, 1), (.eq q, 1), (.lt q, 1), (.ltu q, 1), (.zeq q, 1),
        (.dcmp q n8, 2), (.dchk q n8, 2), (.fadd q, 1), (.fsub q, 1), (.fmul q, 1), (.fdiv q, 1), (.fsqrt q, 1), (.fma q, 1),
        (.fcmp q, 1), (.fcvti q, 1), (.fcvtf q, 1), (.ftod q, 1), (.ffromd q, 1), (.br q n16, 3), (.bz q n16, 3), (.bnz q n16, 3),
        (.call q n16, 3), (.ret q, 1), (.jmpi q, 1), (.calli q, 1)] : List (Instr × Nat)),
      let (i, len) := row
      let a := s.toMach.arch q.val
      let strays := i ∈ [.bz q n16, .bnz q n16, .jmpi q, .calli q] ∧ a.bar = false
      CanRun s q.val len m → (s.toMach.seat q.val).group < 63 → 3 ≤ a.ds.length → 1 ≤ a.rs.length → a.ds.length ≤ 14 →
      a.rs.length ≤ 15 → (∀ k, k ≤ 3 → ∀ j, j ≤ 3 → a.stackFault false k j = none) →
      a.stackFault true 1 1 = none → a.stackFault true 0 1 = none → a.stackFault true 1 0 = none →
      (∀ w ∈ a.rs, pcFormat w = true) → (∀ w ∈ a.ds, pcFormat w = true) →
      ((∃ k, i = .dcmp q k ∨ i = .dchk q k) → n8 = 1 ∧ ∀ w ∈ a.ds, decBad [w] = none) →
      exec i s = .next t →
        (¬ strays → ∀ k, octetAt t.mem k = octetAt m.mem k) ∧ t.regs = s.regs ∧ t.ledger = s.ledger ∧
        (∀ j, j ≠ q.val → (t.toMach.seat j).arch = (s.toMach.seat j).arch) ∧
        t.ses = s.ses ∧ t.tacc = s.tacc ∧ t.merge = s.merge ∧ t.sealing = s.sealing ∧ t.jobs = s.jobs ∧ t.lanes = s.lanes ∧
        t.xlanes = s.xlanes ∧ t.engines = s.engines ∧ t.notes = s.notes ∧ t.kx = s.kx ∧ t.sr = s.sr ∧ t.sent = s.sent ∧
        t.rt = s.rt ∧ t.now = s.now

/-! ### Cores as units -/

/-- Retries and sparing (R307 to R309, R312, R313): a mismatch, or in split mode a parity error before any output, takes the seat
back to its checkpoint for a retry; the fourth of one group, a failed self-test, a dual-rail violation and a code error move the
seat to the spare unit, from its checkpoint; the move ends with the seat running on the new unit and the old one in BIST. The end
of a move (R308, R311): the seat runs on the unit it moved to, which is ACTIVE for it, the freed unit is in BIST with the cause,
and CLU_SPARINGS counts it. An error in a near store (R326): a clean line is filled again, a changed one is written back with the
container poisoned. -/
def Obligations.LockstepAndSparing : Prop :=
  (∀ (s : State) (q : SeatId) (u : Nat),
    let m := s.toMach
    let x := m.seat q.val
    let c := q.val / 16
    let retried := fun (i : Instr) => ∃ t, exec i s = .next t ∧
      let y := t.toMach.seat q.val
      y.arch = x.ckpt ∧ y.stores = [] ∧ y.group = 0 ∧ y.retries = x.retries + 1 ∧ t.toMach.seatState q.val = m.seatState q.val
    let moves := fun (i : Instr) (cause : Nat) => ∃ t, exec i s = .next t ∧
      let y := t.toMach.seat q.val
      y.arch = x.ckpt ∧ y.stores = [] ∧ y.moving = some u ∧ y.moveCause = cause ∧ y.moveRetries = x.retries ∧
        t.toMach.seatState q.val = 3
    m.seatLive q.val = true →
    (x.fresh = false → x.retries < 3 →
      (m.locked c = true → retried (.lockstepMismatch q)) ∧ (m.locked c = false → retried (.splitParityError q false))) ∧
    (x.rotTo = none → m.spareUnit c = some u →
      (m.locked c = true → x.retries = 3 → moves (.lockstepMismatch q) 2) ∧
      (m.locked c = true → m.seatState q.val = 1 → moves (.comparatorSelftest q false) 3) ∧
      (m.locked c = true → moves (.dualRailViolation q) 3 ∧ moves (.coreCodeError q (.own false)) 4)) ∧
    (m.locked c = true → m.seatState q.val = 1 →
      ∃ t, exec (.comparatorSelftest q true) s = .next t ∧
        t.toMach.reg (Reg.cluSelftest c) = w48 ((m.reg (Reg.cluSelftest c)).toNat + 1)) ∧
    (∀ i k : Fin 64,
      let e := x.ent i.val
      m.up = true → e.valid = true →
      ∃ t, exec (.coreCodeError q (.nearStore i k)) s = .next t ∧
        if e.words = [] then (t.toMach.seat q.val).ent i.val = { e with filling := true }
        else ((t.toMach.seat q.val).ent i.val).words = [] ∧ t.toMach.cont (64 * e.line + k.val) = poisonCont)) ∧
  (∀ (s : State) (q : SeatId) (u : Nat),
    let m := s.toMach
    let x := m.seat q.val
    let c := q.val / 16
    x.moving = some u → x.resetReq = false → x.arch.fp = none → u < 20 → u ≠ m.unitOf q.val → x.arch.ds = [] → x.arch.rs = [] → x.stores = [] →
    x.ns = [] → x.evb = [] →
      ∃ t, exec (.sparingComplete q) s = .next t ∧
        t.toMach.unitOf q.val = u ∧ t.toMach.seatState q.val = 1 ∧ (t.toMach.seat q.val).moving = none ∧
        t.toMach.fld (Reg.cluUnit c u) F.cluUnitState = 0 ∧ t.toMach.fld (Reg.cluUnit c (m.unitOf q.val)) F.cluUnitState = 2 ∧
        t.toMach.reg (Reg.cluSparings c) = w48 ((m.reg (Reg.cluSparings c)).toNat + 1))

/-- Parking (R310, R313): an error in both units of a pair, a parity error with output left, or a cluster fault parks the seats
concerned. Tests and rotation of units (R311, R314, R315): a unit that passes BIST is SPARE, one that fails it or was freed by a
second fault is FAILED; a test on request takes a SPARE unit into BIST, or names the seat's unit and the spare it rotates to;
ROTATION, once its period is over, names the running seat whose unit's last test lies furthest back. A reset of a seat that runs
and retries nothing, or is halted (R232, R316): the monitor
is entered with cause RESET at its vector, XPC 0, and the near store holds nothing. -/
def Obligations.SeatsAndUnits : Prop :=
  (∀ (s : State) (q : SeatId) (c : CluId), (s.toMach.seat q.val).stores = [] →
    (s.toMach.seatLive q.val = true → s.toMach.locked (q.val / 16) = true →
      ∃ t, exec (.coreCodeError q (.own true)) s = .next t ∧ t.toMach.seatState q.val = 4) ∧
    (s.toMach.seatLive q.val = true → s.toMach.locked (q.val / 16) = false →
      ∃ t, exec (.splitParityError q true) s = .next t ∧ t.toMach.seatState q.val = 4) ∧
    (s.toMach.up = true →
      ∃ t, exec (.clusterFault c) s = .next t ∧
        ∀ k : Fin 16, s.toMach.seatState (16 * c.val + k.val) ≠ 0 → t.toMach.seatState (16 * c.val + k.val) = 4)) ∧
  (∀ (s : State) (w : Who) (c : CluId) (k : UnitId) (pass : Bool) (v : Word),
    let m := s.toMach
    let unit := Reg.cluUnit c.val k.val
    (m.up = true → m.fld unit F.cluUnitState = 2 →
      ∃ t, exec (.bistComplete c k pass) s = .next t ∧
        t.toMach.fld unit F.cluUnitState = if pass && m.fld unit F.cluUnitFaults < 2 then 1 else 3) ∧
    (w.house = true → fget v F.cluBistreqUnit = k.val → tmem m.rotations c.val = false → k.val < m.unitCount c.val →
      m.fld unit F.cluUnitState = 1 →
      ∃ t, exec (.bistUnit w c v) s = .next t ∧ t.toMach.fld unit F.cluUnitState = 2 ∧
        t.toMach.fld (Reg.cluBistres c.val) F.cluBistresStatus = 1 ∧ t.toMach.fld (Reg.cluBistres c.val) F.cluBistresUnit = k.val) ∧
    (∀ u, w.house = true → tmem m.rotations c.val = false → fget v F.cluBistreqUnit < m.seatCount c.val →
      m.seatState (16 * c.val + fget v F.cluBistreqUnit) = 1 → m.spareUnit c.val = some u →
      let q := 16 * c.val + fget v F.cluBistreqUnit
      (m.seat q).group ≠ 0 →
      ∃ t, exec (.bistSeat w c v) s = .next t ∧ (t.toMach.seat q).rotTo = some u ∧
        t.toMach.fld (Reg.cluBistres c.val) F.cluBistresStatus = 1 ∧
        t.toMach.fld (Reg.cluBistres c.val) F.cluBistresUnit = m.unitOf q % 32 ∧ tfind t.rotations c.val = some (m.unitOf q)) ∧
    (∀ q u, m.up = true → m.bit (Reg.cluCtl c.val) F.cluCtlRoten = true → m.rotationDue c.val = true → 2 ≤ (m.unitsIn c.val 1).length →
      tmem m.rotations c.val = false → m.oldestSeat c.val = some q → m.spareUnit c.val = some u → (m.seat q).group ≠ 0 →
      ∃ t, exec (.rotation c) s = .next t ∧ (t.toMach.seat q).rotTo = some u ∧ tfind t.rotations c.val = some (m.unitOf q))) ∧
  (∀ (s : State) (w : Who) (q : SeatId) (v : Word),
    let m := s.toMach
    w.sr = true → ((m.seatState q.val = 1 ∧ (m.seat q.val).retries = 0) ∨ m.seatState q.val = 2) → (m.seat q.val).rotTo = none →
      ∃ t, exec (.seatReset w q v) s = .next t ∧
        let b := t.toMach.arch q.val
        b.wld = 4 ∧ b.pc = (m.reg Reg.srMonvec).toNat % 2 ^ 40 * 8 ∧ b.ds = [] ∧ b.rs = [] ∧ b.cell 5 0xE = 0 ∧
          fget (b.cell 5 0xD) ⟨47, 40⟩ = 0 ∧ fbit (b.cell 5 7) Psw.xa = true ∧ (t.toMach.seat q.val).ns = [] ∧
          t.toMach.seatState q.val = 1)

/-- The debugger (R318, R319) at a seat it reaches, the replay buffer of a locked pair not full: halt where the level may be halted,
resume, step, a cell or stack entry in the core written or read, and a load at the seat's level; each action that changes state
enters the replay buffer. With 64 actions in it the debugger reads busy; at the next tick all have been replayed (the tick as
their time: log 134). -/
def Obligations.DebuggerActs : Prop :=
  (∀ (s : State) (c : CluId), s.toMach.pins.vaux = true → s.toMach.refs ≠ [] →
    ∃ t, exec .rtTick s = .next t ∧ t.toMach.fld (Reg.cluDbg c.val) F.cluDbgPend = 0) ∧
  (∀ (s : State) (q : SeatId),
    let m := s.toMach
    m.dbgReach q.val = true → m.locked (q.val / 16) = true → 64 ≤ m.fld (Reg.cluDbg (q.val / 16)) F.cluDbgPend →
    m.seatState q.val = 1 →
      ∃ t, exec (.debugHalt q) s = .next t ∧ t.sent = .dbgBusy :: s.sent ∧ t.toMach.seatState q.val = 1 ∧ t.regs = s.regs) ∧
  ∀ (s : State) (q : SeatId) (v a : Word),
    let m := s.toMach
    let x := m.arch q.val
    let dbg := Reg.cluDbg (q.val / 16)
    let n0 := m.fld dbg F.cluDbgPend
    let y : Mach := if m.locked (q.val / 16) then m.setFld dbg F.cluDbgPend (n0 + 1) else m
    m.dbgReach q.val = true → (m.seat q.val).stores = [] → (m.locked (q.val / 16) = true → n0 < 64) →
    (m.seatState q.val = 1 → (m.seat q.val).retries = 0 → (x.wld ≤ 1 ∨ m.bit dbg F.cluDbgSrdbg = true) →
      ∃ t, exec (.debugHalt q) s = .next t ∧ t.toMach.seatState q.val = 2 ∧ t.toMach.fld dbg F.cluDbgPend = y.fld dbg F.cluDbgPend) ∧
    (m.seatState q.val = 2 →
      (∃ t, exec (.debugResume q) s = .next t ∧ t.toMach.seatState q.val = 1 ∧ (t.toMach.seat q.val).step = false) ∧
      (∃ t, exec (.debugStep q) s = .next t ∧ (t.toMach.seat q.val).step = true)) ∧
    (∀ b n, 1 ≤ b → b ≤ 5 → n ∈ [3, 4, 5, 6] →
      (∃ t, exec (.debugWrite q (.cell b n) v) s = .next t ∧
        (t.toMach.arch q.val).cell b n = w48 (v.toNat % 2 ^ 40)) ∧
      (∃ t, exec (.debugRead q (.cell b n)) s = .next t ∧ t.sent = .dbg (x.cell b n) :: s.sent ∧ t.regs = s.regs ∧
        t.seats = s.seats ∧ t.mem = s.mem)) ∧
    (∀ d, d < x.ds.length →
      (∃ t, exec (.debugWrite q (.ds d) v) s = .next t ∧ (t.toMach.arch q.val).ds = x.ds.set d v) ∧
      (∃ t, exec (.debugRead q (.ds d)) s = .next t ∧ t.sent = .dbg (x.ds.getD d 0) :: s.sent)) ∧
    (∀ r n, loadAt q.val x.wld (a.toNat % 2 ^ 40) y = .ok (r, n) → (n.seat q.val).stores = [] →
      ∃ t, exec (.debugMemoryAccess q false a v) s = .next t ∧ t.sent = .dbg r :: n.sent)

/-- The core's own window (R229, R238): a root register takes EN and PAGE and every translation held for that root goes; a flush
discards what it names. -/
def Obligations.TranslationRoots : Prop :=
  ∀ (s : State) (q : SeatId) (v : Word),
    let m := s.toMach
    let a := m.arch q.val
    taskLevel a.wld = false →
    (∀ sr : Bool, (sr = true → srLevel a.wld = true) → fget v F.coreXrootPage % 4 = 0 →
      ∃ t, exec (.coreXrootWrite q sr v) s = .next t ∧
        (t.toMach.arch q.val).reg (if sr then 1 else 0) = v &&& (fmask F.coreXrootEn ||| fmask F.coreXrootPage) ∧
        (∀ e ∈ (t.toMach.seat q.val).tlb, e.srRoot ≠ sr) ∧
        (∀ e ∈ (m.seat q.val).tlb, e.srRoot ≠ sr → e ∈ (t.toMach.seat q.val).tlb)) ∧
    (∃ t, exec (.coreXflushWrite q v) s = .next t ∧ t.toMach.arch q.val = a ∧
      ∀ e, e ∈ (t.toMach.seat q.val).tlb ↔ e ∈ (m.seat q.val).tlb ∧
        ¬ (e.srRoot = (srLevel a.wld && fbit v F.coreXflushSr) ∧
          (fbit v F.coreXflushAll = true ∨ fget v F.coreXflushPage = e.vpage)))

/-! ### Memory system and strongroom -/

/-- Devices (R328, R330): a device that gives no response is FAILED with its cause and its group one step worse; the device whose
turn it is trains, from a folio boundary, once its time has come; a training ends ACTIVE and counted, or at a second failure in succession as a FAILED device. Patrol scrub
(R325, R332), where no device of the line's group is FAILED or in training, and the pass is due: the line number moves on, PASSES with the last line; a line held
changed is passed over, an uncorrectable container that its group rebuilds counts in MEM_REBUILT, one that it cannot rebuild is
poisoned. A stripe is the exclusive-or of the seven others and the parity (R324). -/
def Obligations.MemoryDevicesAndScrub : Prop :=
  (∀ (s : State) (d : DevId),
    let m := s.toMach
    (m.memUp = true → m.devState d.val ≠ 2 →
      ∃ t, exec (.deviceFail d 3) s = .next t ∧ t.toMach.devState d.val = 2 ∧
        t.toMach.fld (Reg.memDev d.val) F.memDevFailcause = 3 ∧
        t.toMach.grpState (d.val / 9) = min 2 (m.grpState (d.val / 9) + 1) ∧
        ∀ e : DevId, e ≠ d → t.toMach.devState e.val = m.devState e.val) ∧
    (m.memUp = true → m.memst.training = none → m.memst.nextTrain = d.val → m.mayTrain d.val = true → m.rt % 4096 = 0 →
      m.trainDue d.val = true →
      ∃ t, exec .deviceTrainingStart s = .next t ∧ t.toMach.devState d.val = 1 ∧ t.toMach.memst.training = some d.val ∧
        t.toMach.memst.nextTrain = (d.val + 1) % 18 ∧ ∀ e : DevId, e ≠ d → t.toMach.devState e.val = m.devState e.val) ∧
    (m.memst.training = some d.val →
      (∃ t, exec (.deviceTrainingEnd true) s = .next t ∧ t.toMach.devState d.val = 0 ∧ t.toMach.memst.training = none ∧
        t.toMach.reg (Reg.memDevtrain d.val) = w48 ((m.reg (Reg.memDevtrain d.val)).toNat + 1)) ∧
      (tabGet (fun _ => 0) m.memst.trainFails d.val = 0 →
        ∃ t, exec (.deviceTrainingEnd false) s = .next t ∧ t.toMach.devState d.val = 0 ∧ t.toMach.memst.training = none ∧
          tabGet (fun _ => 0) t.memst.trainFails d.val = 1) ∧
      (tabGet (fun _ => 0) m.memst.trainFails d.val = 1 →
        ∃ t, exec (.deviceTrainingEnd false) s = .next t ∧ t.toMach.devState d.val = 2 ∧ t.toMach.memst.training = none ∧
          t.toMach.fld (Reg.memDev d.val) F.memDevFailcause = 2 ∧
          t.toMach.grpState (d.val / 9) = min 2 (m.grpState (d.val / 9) + 1)))) ∧
  (∀ (s : State) (c : Nat),
    let m := s.toMach
    let l := m.fld Reg.memScrub F.memScrubLine
    let line := fun (t : State) => t.toMach.fld Reg.memScrub F.memScrubLine = (l + 1) % 2 ^ 26 ∧
      t.toMach.fld Reg.memScrub F.memScrubPasses = (m.fld Reg.memScrub F.memScrubPasses + (l + 1) / 2 ^ 26) % 2 ^ 16
    m.memUp = true → (l = 0 → m.memst.scrubAt ≤ m.now) → (∀ j < 9, m.devState (devOf (l % 2) j) ≠ 2) → c < 64 →
    (m.heldDirty l = true → ∀ e, ∃ t, exec (.patrolScrubLine e) s = .next t ∧ line t ∧ t.mem = m.mem) ∧
    (∃ t, exec (.patrolScrubLine {}) s = .next t ∧ line t ∧ t.mem = m.mem) ∧
    (m.heldDirty l = false → m.trainStripe (l % 2) = none →
      (∃ t, exec (.patrolScrubLine { multi := [c] }) s = .next t ∧ line t ∧ t.mem = m.mem ∧
        t.toMach.reg Reg.memRebuilt = w48 ((m.reg Reg.memRebuilt).toNat + 1)) ∧
      (∃ t, exec (.patrolScrubLine { multi := [c], rebuilds := false }) s = .next t ∧ line t ∧
        (t.toMach.cont (64 * l + c)).isPoison = true ∧ ∀ a, a ≠ 64 * l + c → t.toMach.cont a = m.cont a))) ∧
  (∀ (m : Mach) (line j i : Nat), j < 8 → i < 8 → m.rebuilt line j i = m.stripe line j i)

/-- Marked pages (R333): a write from the strongroom starts the rewriting of a page that meets no ring, roll or mirror; when it
ends every container of the page is zero with the tag of its new kind, the page is in or out of the set, and no other container
changes where no unit holds a changed copy of the page. Change bits (R334) and the end of memory's initialisation (R335): a scan
is requested by T00 or the strongroom for a page it may see; its end reports whether a container of the page had CHG set as
software sees memory, and clears them where asked, nothing else of any container; initialised memory is zero, the devices that
failed training are FAILED. -/
def Obligations.MarkedPagesAndScans : Prop :=
  (∀ (s : State) (w : Who) (v : Word) (p : Nat) (set : Bool),
    let m := s.toMach
    (w.sr = true → m.bit Reg.memSrstat F.memSrstatBusy = false → m.srOverlap (fget v F.memSrpagePage) = false →
      ∃ t, exec (.memSrpageWrite w v) s = .next t ∧ t.toMach.bit Reg.memSrstat F.memSrstatBusy = true ∧
        t.toMach.fld Reg.memSrstat F.memSrstatErr = 0 ∧
        t.memst.srMark = some (fget v F.memSrpagePage, fbit v F.memSrpageSet) ∧ t.mem = m.mem) ∧
    (w.sr = false → exec (.memSrpageWrite w v) s = .next s) ∧
    (m.memst.srMark = some (p, set) → p < 0xFFE00 → (∀ e ∈ m.seats, ∀ l, l / 64 = p → e.2.dirtyOf l = none) →
      ∃ t, exec .srpageMarkDone s = .next t ∧ t.memst.srMark = none ∧ t.toMach.bit Reg.memSrstat F.memSrstatBusy = false ∧
        (∀ x, t.toMach.srPage x = if x = p then set else m.srPage x) ∧
        (∀ a, t.toMach.cont a =
          if a / 4096 = p then { key := 0, tag := if set then 2 else 0, chg := false, pay := 0 } else m.cont a))) ∧
  (∀ (s : State) (w : Who) (v : Word) (p : Nat) (clear : Bool) (l : List DevId),
    let m := s.toMach
    (w.house = true → m.bit Reg.memChgres F.memChgresBusy = false → (m.srPage (fget v F.memChgreqPage) = true → w.sr = true) →
      ∃ t, exec (.chgScan w v) s = .next t ∧ t.toMach.bit Reg.memChgres F.memChgresBusy = true ∧
        t.toMach.bit Reg.memChgreq F.memChgreqGo = true ∧
        t.memst.chgScan = some (fget v F.memChgreqPage, fbit v F.memChgreqClear) ∧ t.mem = m.mem) ∧
    (m.memst.chgScan = some (p, clear) →
      ∃ t, exec .chgScanDone s = .next t ∧ t.memst.chgScan = none ∧ t.toMach.bit Reg.memChgres F.memChgresBusy = false ∧
        t.toMach.bit Reg.memChgreq F.memChgreqGo = false ∧
        (t.toMach.bit Reg.memChgres F.memChgresAny = true ↔ ∃ a, a / 4096 = p ∧ (m.coh a).chg = true) ∧
        ∀ a, t.toMach.coh a = if clear = true ∧ a / 4096 = p then { m.coh a with chg := false } else m.coh a) ∧
    (m.up = true → m.bit Reg.memStat F.memStatInit = true →
      ∃ t, exec (.memInitComplete l) s = .next t ∧ t.toMach.bit Reg.memStat F.memStatInit = false ∧ t.mem = [] ∧
        ∀ d ∈ l, t.toMach.devState d.val = 2))

/-- Boot (R335, R352): an image that passes starts: PHASE CHARTER, SR_BOOT names it, keys derived, the watchdog runs, C0 seat 0
enters the monitor at its entry point; where both images fail, or a group is BROKEN, SR_BOOT says so and PHASE stays ROM. The
charter's commit (R140, R354): in the charter SR_COMMIT takes the result of the checks, and with 0 the module is COMMITTED with
each cluster's mode in MOD_STATE.SPLIT; under INIT it serves in SOLO in epoch 1. After that a commit reports PHASE. -/
def Obligations.BootAndCharter : Prop :=
  (∀ (s : State) (a b : List Octet),
    let m := s.toMach
    m.memUp = true → m.phase = 0 → m.fld Reg.srBoot F.srBootErra = 7 →
    let started := fun (t : State) (slot : Nat) (os : List Octet) =>
      t.toMach.phase = 1 ∧ t.toMach.fld Reg.srBoot F.srBootSlot = slot ∧ t.toMach.fld Reg.srBoot F.srBootKeysel = imgKeysel os ∧
      t.toMach.fld Reg.srBoot F.srBootSvn = imgSvn os ∧ t.sr.keys = true ∧ t.sr.swdEnd = some (m.now + 1677722) ∧
      (t.toMach.arch 0).wld = 4 ∧ (t.toMach.arch 0).pc = (0xFFE00000 + imgEntry os) * 8 ∧
      (∀ p, 0xFFE00 ≤ p → p < 2 ^ 20 → t.toMach.srPage p = true)
    (m.grpState 0 ≠ 2 → m.grpState 1 ≠ 2 →
      (m.imageErr a = 0 → ∃ t, exec (.bootImageVerify a b) s = .next t ∧ started t 0 a ∧ t.toMach.fld Reg.srBoot F.srBootErra = 0) ∧
      (m.imageErr a ≠ 0 → m.imageErr b = 0 →
        ∃ t, exec (.bootImageVerify a b) s = .next t ∧ started t 1 b ∧
          t.toMach.fld Reg.srBoot F.srBootErra = m.imageErr a ∧ t.toMach.fld Reg.srBoot F.srBootErrb = 0) ∧
      (m.imageErr a ≠ 0 → m.imageErr b ≠ 0 →
        ∃ t, exec (.bootImageVerify a b) s = .next t ∧ t.toMach.phase = 0 ∧ t.seats = s.seats ∧ t.mem = s.mem ∧
          t.toMach.fld Reg.srBoot F.srBootErra = m.imageErr a ∧ t.toMach.fld Reg.srBoot F.srBootErrb = m.imageErr b)) ∧
    ((m.grpState 0 = 2 ∨ m.grpState 1 = 2) →
      ∃ t, exec (.bootImageVerify a b) s = .next t ∧ t.toMach.phase = 0 ∧ t.toMach.fld Reg.srBoot F.srBootErra = 8 ∧
        t.toMach.fld Reg.srBoot F.srBootErrb = 8)) ∧
  (∀ (s : State) (w : Who) (v : Word), w.sr = true → s.toMach.restarting = false →
    let m := s.toMach
    (m.phase = 1 → m.commitErr = 0 →
      ∃ t, exec (.charterCommit w v) s = .next t ∧ t.toMach.phase = 2 ∧ t.toMach.reg Reg.srCommit = 0 ∧
        (∀ c : CluId, nbit (t.toMach.fld Reg.modState F.modStateSplit) c.val = m.bit (Reg.cluCtl c.val) F.cluCtlSplit) ∧
        (m.bit Reg.twnCtl F.twnCtlInit = true → t.toMach.role = 2 ∧ t.toMach.epoch = 1) ∧
        (m.bit Reg.twnCtl F.twnCtlInit = false → t.toMach.role = m.role)) ∧
    (m.phase = 1 → m.commitErr ≠ 0 →
      ∃ t, exec (.charterCommit w v) s = .next t ∧ t.toMach.phase = 1 ∧ t.toMach.reg Reg.srCommit = w48 m.commitErr) ∧
    (m.phase ≠ 1 →
      ∃ t, exec (.charterCommit w v) s = .next t ∧ t.toMach.phase = m.phase ∧ t.toMach.reg Reg.srCommit = 1))

/-- World attributes (R340, R358): a port takes its attribute at once and loses its link and queues; the pin groups take theirs;
an engine or lane shows PEND and changes once it is free of its job, a clerk engine's job going back to ready. Only the
strongroom writes them. -/
def Obligations.WorldAttributes : Prop :=
  ∀ (s : State) (w : Who) (p : PortId) (b : BlockId) (v : Word) (on : Bool),
    let m := s.toMach
    (w.sr = true →
      (∃ t, exec (.srAttrPortWrite w p v) s = .next t ∧ t.toMach.portSr p.val = fbit v F.srAttrPortSr ∧
        t.toMach.linkUp p.val = false ∧ t.toMach.queue p.val = [] ∧ t.toMach.plain p.val = []) ∧
      (∃ t, exec (.srAttrPinWrite w v) s = .next t ∧ t.toMach.reg Reg.srAttrPin = v &&& 3) ∧
      (gateBlock b.val = true → ∃ t, exec (.srAttrEngineWrite w b v) s = .next t ∧
        t.toMach.bit (attrReg b.val) F.srAttrPortPend = true ∧ t.toMach.attrPending b.val = some (fbit v F.srAttrPortSr) ∧
        t.toMach.blockSr b.val = m.blockSr b.val)) ∧
    (w.sr = false → exec (.srAttrPortWrite w p v) s = .next s ∧ exec (.srAttrPinWrite w v) s = .next s ∧
      exec (.srAttrEngineWrite w b v) s = .next s) ∧
    (gateBlock b.val = true → m.attrPending b.val = some on → m.gated b.val = false →
      (b.val < 16 → (m.laneB b.val).job = none →
        ∃ t, exec (.attrChangeDone b) s = .next t ∧ t.toMach.reg (attrReg b.val) = w48 (b2n on) ∧
          t.toMach.attrPending b.val = none) ∧
      (16 ≤ b.val → (m.engine (b.val - 16)).job = none →
        ∃ t, exec (.attrChangeDone b) s = .next t ∧ t.toMach.reg (attrReg b.val) = w48 (b2n on) ∧
          t.toMach.attrPending b.val = none) ∧
      (∀ x j, 16 ≤ b.val → (m.engine (b.val - 16)).job = some x → m.job x = some j → m.stale j = false →
        ∃ t, exec (.attrChangeDone b) s = .next t ∧ t.toMach.reg (attrReg b.val) = w48 (b2n on) ∧
          (t.toMach.engine (b.val - 16)).job = none ∧ (t.toMach.job x).map Job.st = some .ready))

/-- Leases and the watchdog's reload (R345, R346, R348): a grant runs for its ticks and 0 ends it; at its end the deferred gating
request takes effect; a kick reloads the watchdog. Only the strongroom grants or kicks. The watchdog and the restart (R348,
R349): the first expiry starts a restart, which derives the keys again and counts in SR_RESTARTS, where the image in the vault
still passes, else it resets the module with cause 4; a second expiry within 60 seconds and the end of the bound reset it with
causes 3 and 2; a commit ends the restart. -/
def Obligations.LeasesAndWatchdog : Prop :=
  (∀ (s : State) (w : Who) (b : BlockId) (v : Word),
    let m := s.toMach
    let n := fget v F.srLeaseTicks
    (w.sr = true → (b.val = 0 ∨ gateBlock b.val = true) →
      (0 < n → n ≤ 167772 →
        ∃ t, exec (.srLeaseWrite w b v) s = .next t ∧ tfind t.sr.leases b.val = some (m.now + n) ∧
          t.toMach.leaseHeld b.val = true) ∧
      (n = 0 → ∃ t, exec (.srLeaseWrite w b v) s = .next t ∧ tfind t.sr.leases b.val = none) ∧
      (167772 < n → exec (.srLeaseWrite w b v) s = .next s)) ∧
    (∀ e, tfind m.sr.leases b.val = some e → e ≤ m.now →
      ∃ t, exec (.srLeaseExpiry b) s = .next t ∧ tfind t.sr.leases b.val = none ∧
        (∀ auto, m.sr.deferred.find? (fun d => d.1 = b.val) = some (b.val, auto, true) →
          t.toMach.gated b.val = true ∧ t.toMach.fld (Reg.srLease b.val) F.srLeaseDefer = 0 ∧
            ∀ d ∈ t.sr.deferred, d.1 ≠ b.val)) ∧
    (w.sr = true → m.sr.swdEnd.isSome = true →
      ∃ t, exec (.swdKick w v) s = .next t ∧ t.sr.swdEnd = some (m.now + 1677722)) ∧
    (w.sr = false → exec (.srLeaseWrite w b v) s = .next s ∧ exec (.swdKick w v) s = .next s)) ∧
  (∀ (s : State) (w : Who) (v : Word),
    let m := s.toMach
    let resets := fun (t : State) (cause : Nat) => t.pins.inReset = true ∧ t.pins.cause = cause
    m.pins.inReset = false →
    (∀ e, m.sr.swdEnd = some e → e ≤ m.now →
      (∀ l, m.sr.swdLast = some l → m.now < l + 1006632960 → ∃ t, exec .swdExpiry s = .next t ∧ resets t 3) ∧
      ((∀ l, m.sr.swdLast = some l → l + 1006632960 ≤ m.now) → (∀ x ∈ m.seats, ∀ l, x.2.dirtyOf l = none) →
        (m.imageErr m.vaultImage = 0 →
          ∃ t, exec .swdExpiry s = .next t ∧ t.toMach.restarting = true ∧ t.sr.keys = true ∧ t.sr.restart = some m.now ∧
            t.sr.swdLast = some m.now ∧ t.sr.swdEnd = some (m.now + 1677722) ∧ t.sr.leases = [] ∧
            t.toMach.reg Reg.srRestarts = w48 (min 65535 ((m.reg Reg.srRestarts).toNat + 1)) ∧
            (∀ x ∈ t.jobs, x.2.sr = false) ∧ t.kp = []) ∧
        (m.imageErr m.vaultImage ≠ 0 → ∃ t, exec .swdExpiry s = .next t ∧ resets t 4))) ∧
    (∀ e, m.sr.restart = some e → e + 16777216 ≤ m.now → ∃ t, exec .swdBoundExpiry s = .next t ∧ resets t 2) ∧
    (w.sr = true → m.restarting = true →
      ∃ t, exec (.restartCommit w v) s = .next t ∧ t.toMach.restarting = false ∧ t.sr.restart = none ∧
        t.toMach.reg Reg.srCommit = 0) ∧
    (w.sr = false → exec (.restartCommit w v) s = .next s))

/-- Fuses (R358): in the charter an operation runs and its end leaves the fuses the next boot reads: a free slot programmed with
SR_FUSEDATA, a slot revoked, MINSVN raised; otherwise ERR says why not. A breach of the mesh (R357): keys and slots are gone,
MESHSEEN is set and the module is in reset with cause 5. -/
def Obligations.FusesAndMesh : Prop :=
  (∀ (s : State) (w : Who) (v : Word) (g : Fuses), w.sr = true →
    let m := s.toMach
    let k := fget v F.srFusectlSlot
    let f := m.sr.fuseNext
    let runs := fun (c : Instr) (h : Fuses) => ∃ t, exec c s = .next t ∧ t.sr.fuseOp = some h ∧ t.sr.fuse = m.sr.fuse ∧
      t.toMach.bit Reg.srFusestat F.srFusestatBusy = true ∧ t.toMach.fld Reg.srFusestat F.srFusestatErr = 0 ∧
      t.toMach.bit Reg.srFusectl F.srFusectlGo = true
    let errs := fun (c : Instr) (e : Nat) => ∃ t, exec c s = .next t ∧ t.sr = m.sr ∧
      t.toMach.fld Reg.srFusestat F.srFusestatErr = e
    (m.sr.fuseOp = none → m.phase = 1 →
      (tmem f.hashes (k + 1) = false → runs (.fuseProgram w v)
        { f with hashes := tabInsert (k + 1) ((List.range 11).map fun i => m.reg (Reg.srFusedata i)) f.hashes }) ∧
      (tmem f.hashes (k + 1) = true → errs (.fuseProgram w v) 2) ∧
      runs (.fuseRevoke w v) { f with revoked := f.revoked ||| 2 ^ k } ∧
      (f.minsvn < fget v F.srFusectlSvn → runs (.fuseRaiseMinsvn w v) { f with minsvn := fget v F.srFusectlSvn }) ∧
      (fget v F.srFusectlSvn ≤ f.minsvn → errs (.fuseRaiseMinsvn w v) 3) ∧
      errs (.fuseBadop w v) 4) ∧
    (m.sr.fuseOp = none → m.phase ≠ 1 →
      ∀ c ∈ ([.fuseProgram w v, .fuseRevoke w v, .fuseRaiseMinsvn w v, .fuseBadop w v] : List Instr), errs c 1) ∧
    (m.sr.fuseOp = some g →
      ∃ t, exec .fuseOpDone s = .next t ∧ t.sr = { m.sr with fuseNext := g, fuseOp := none } ∧
        t.toMach.bit Reg.srFusestat F.srFusestatBusy = false ∧ t.toMach.bit Reg.srFusectl F.srFusectlGo = false)) ∧
  (∀ (s : State), s.pins.vaux = true →
    ∃ t, exec .meshBreach s = .next t ∧ t.kx = [] ∧ t.kp = [] ∧ t.sr.keys = false ∧ t.pins.inReset = true ∧ t.pins.cause = 5 ∧
      t.toMach.bit Reg.srRstcause F.srRstcauseMeshseen = true ∧ t.mem = [])

/-- Tip-ins (R391, R392): a load starts where neither a restart nor another is in the way; its end gives UC_RES the result of the
checks and, where that is 0, stages the package and measures it; an activation starts with a staged package, and its end makes
that package active, shows its match words and version, and raises IS0027. Sequencer faults (R386): counted in UC_FAULTS, then
what the block's own fault is: the job of an engine or lane ends FAULT, the accession unit's loses the module, a decimal unit's
takes its locked seat back to its checkpoint. A micro-cycle (R385, R386, R388, R389): the word fetched, under the match entries,
gives the next micro-PC and the micro-stack, or faults. -/
def Obligations.TipInsAndSequencers : Prop :=
  (∀ (s : State) (w : Who) (v : Word),
    let m := s.toMach
    (w.sr = true → fbit v F.ucCtlActivate = false →
      (m.restarting = false → m.ucBusy = false →
        ∃ t, exec (.tipinLoad w v) s = .next t ∧ t.toMach.bit Reg.ucStat F.ucStatLoading = true ∧
          t.toMach.bit Reg.ucCtl F.ucCtlLoad = true ∧
          t.uc = { m.uc with loading := some (m.reg Reg.ucLoadaddr).toNat }) ∧
      (m.restarting = true → ∃ t, exec (.tipinLoad w v) s = .next t ∧ t.uc = m.uc ∧ t.toMach.reg Reg.ucRes = 2) ∧
      (m.restarting = false → m.ucBusy = true →
        ∃ t, exec (.tipinLoad w v) s = .next t ∧ t.uc = m.uc ∧ t.toMach.reg Reg.ucRes = 1)) ∧
    (∀ a, m.uc.loading = some a → m.restarting = false →
      let ws := m.tipAt a
      ∃ t, exec .tipinLoadDone s = .next t ∧ t.toMach.bit Reg.ucStat F.ucStatLoading = false ∧
        t.toMach.reg Reg.ucRes = w48 (m.tipErr a ws) ∧
        t.uc = { m.uc with loading := none, staged := if m.tipErr a ws = 0 then some (tipBody ws) else m.uc.staged } ∧
        (m.tipErr a ws = 0 → t.toMach.bit Reg.ucStat F.ucStatStaged = true)) ∧
    (w.sr = true → fbit v F.ucCtlLoad = false → m.ucBusy = false →
      (m.uc.staged.isSome = true → ∃ t, exec (.tipinActivate w v) s = .next t ∧ t.uc = m.uc ∧ t.toMach.reg Reg.ucRes = 0 ∧
        t.toMach.bit Reg.ucStat F.ucStatActivating = true) ∧
      (m.uc.staged = none → ∃ t, exec (.tipinActivate w v) s = .next t ∧ t.uc = m.uc ∧ t.toMach.reg Reg.ucRes = 9 ∧
        t.toMach.bit Reg.ucStat F.ucStatActivating = false)) ∧
    (∀ ws, m.uc.staged = some ws → m.bit Reg.ucStat F.ucStatActivating = true →
      ∃ t, exec .tipinActivateDone s = .next t ∧ t.uc = { m.uc with staged := none, active := some ws } ∧
        (∀ i : Fin 16, t.toMach.reg (Reg.ucMatch i.val) = tipMatch ws i.val) ∧
        t.toMach.fld Reg.ucTver F.ucTverVersion = tipVersion ws ∧ t.toMach.bit Reg.ucTver F.ucTverActive = true ∧
        t.toMach.bit Reg.ucStat F.ucStatStaged = false ∧ t.toMach.bit Reg.ucStat F.ucStatActivating = false ∧
        nbit (t.toMach.reg (Reg.intStat 27)).toNat 0 = true) ∧
    (w.sr = false → exec (.tipinLoad w v) s = .next s ∧ exec (.tipinActivate w v) s = .next s)) ∧
  (∀ (s : State) (i : Fin 64), s.toMach.up = true →
    let m := s.toMach
    let counted := fun (t : State) => t.toMach.reg Reg.ucFaults = w48 ((m.reg Reg.ucFaults).toNat + 1)
    (∀ x j, (m.engine i.val).job = some x → m.engineOf x = some i.val → m.job x = some j →
      ∃ t, exec (.sequencerFault 0 i) s = .next t ∧ counted t ∧ (t.toMach.engine i.val).job = none) ∧
    (∃ t, exec (.sequencerFault 1 i) s = .next t ∧ counted t ∧ t.twin.latch = true ∧ t.twin.barred = true) ∧
    (∀ cls : Fin 5, cls.val = 2 ∧ i.val < 8 ∨ cls.val = 3 ∧ i.val < 4 →
      let b := i.val + if cls.val = 2 then 1 else 9
      (m.laneB b).job.isSome = true →
      ∃ t, exec (.sequencerFault cls i) s = .next t ∧ counted t ∧ (t.toMach.laneB b).job = none) ∧
    (m.seatLive i.val = true → m.locked (i.val / 16) = true → (m.seat i.val).fresh = false → (m.seat i.val).retries < 3 →
      ∃ t, exec (.sequencerFault 4 i) s = .next t ∧ counted t ∧ (t.toMach.seat i.val).arch = (m.seat i.val).ckpt ∧
        (t.toMach.seat i.val).retries = (m.seat i.val).retries + 1)) ∧
  (∀ (bank : List Word) (cls seed : Nat) (u : MicroSt),
    let a := microMatch bank cls u.pc
    let w := microWord bank a
    let k := microNext w
    let safe := a < 0x4000 ∧ microSafe w = true
    let goes := fun (pc : Nat) (stack : List Nat) => ∃ x, microStep bank cls seed u = some x ∧ x.pc = pc ∧ x.stack = stack ∧
      x.since = if safe then 0 else u.since + 1
    (0x4040 ≤ a ∨ 6 ≤ k ∨ (k = 3 ∧ (0x4000 ≤ a ∨ 8 ≤ u.stack.length)) ∨ (k = 4 ∧ u.stack = []) ∨ (1023 ≤ u.since ∧ ¬ safe) ∨
        (k = 0 ∧ (a = 0x3FFF ∨ a = 0x403F)) ∨ (k = 1 ∧ 0x4040 ≤ microTarget w) → microStep bank cls seed u = none) ∧
    (a < 0x4040 → u.since < 1023 ∨ safe →
      (k = 0 → a ≠ 0x3FFF → a ≠ 0x403F → goes (a + 1) u.stack) ∧
      (k = 1 → microTarget w < 0x4040 → goes (microTarget w) u.stack) ∧
      (k = 3 → a < 0x3FFF → u.stack.length < 8 → microTarget w < 0x4040 → goes (microTarget w) ((a + 1) :: u.stack)) ∧
      (∀ r l, k = 4 → u.stack = r :: l → r < 0x4040 → goes r l)))

/-! ### The board -/

/-- Stocktake (R411 to R413): STK_FIRE and, with PINEN, STKT_IN start a stocktake that is due three ticks later; its latch takes
the module as it stands into the snapshot and locks it; STK_ARM unlocks. While locked a trigger is only counted. Notices and
raised interrupts (R421, R423, R425): NOTE_POP drops the oldest notice of the tenant; INT_RAISE sets PEND of a source from 512
on, and MERGED where PEND already is 1, for software that may act on it; nobody else changes anything. -/
def Obligations.StocktakesAndNotices : Prop :=
  (∀ (s : State) (w : Who) (v : Word),
    let m := s.toMach
    let fired := fun (t : State) (src : Nat) => t.stk.due = some (m.now + 3, src) ∧
      t.toMach.bit Reg.stkStat F.stkStatPending = true ∧ t.snap = s.snap
    let missed := fun (t : State) => t.stk.due = none ∧ t.toMach.reg Reg.stkMissed = w48 ((m.reg Reg.stkMissed).toNat + 1)
    (m.stkJoins = false →
      (w.house = true → m.bit Reg.stkStat F.stkStatLocked = false → ∃ t, exec (.stkFire w v) s = .next t ∧ fired t 2) ∧
      (w.house = true → m.bit Reg.stkStat F.stkStatLocked = true → ∃ t, exec (.stkFire w v) s = .next t ∧ missed t) ∧
      (m.up = true → m.pins.sba = true → m.bit Reg.stkCtl F.stkCtlPinen = true →
        (m.bit Reg.stkStat F.stkStatLocked = false → ∃ t, exec .stktInEdge s = .next t ∧ fired t 3) ∧
        (m.bit Reg.stkStat F.stkStatLocked = true → ∃ t, exec .stktInEdge s = .next t ∧ missed t))) ∧
    (∀ at_ src, m.stk.due = some (at_, src) → src < 5 → m.up = true → at_ ≤ m.now →
      ∃ t, exec .stocktakeLatch s = .next t ∧ t.snap = some m ∧ t.stk.due = none ∧ t.stk.last = some m.now ∧
        t.toMach.bit Reg.stkStat F.stkStatValid = true ∧ t.toMach.bit Reg.stkStat F.stkStatLocked = true ∧
        t.toMach.bit Reg.stkStat F.stkStatPending = false ∧ t.toMach.fld Reg.stkStat F.stkStatSrc = src ∧
        t.toMach.reg Reg.stkTsec = w48 (secOf m.rt) ∧ t.toMach.reg Reg.stkTfrac = w48 (fracOf m.rt) ∧
        t.toMach.reg Reg.stkCount = w48 ((m.reg Reg.stkCount).toNat + 1) ∧ t.mem = m.mem ∧ t.seats = m.seats) ∧
    (w.house = true → m.stk.last ≠ some m.now →
      ∃ t, exec (.stkArm w v) s = .next t ∧ t.toMach.bit Reg.stkStat F.stkStatLocked = false ∧ t.snap = s.snap) ∧
    (w.house = false → exec (.stkFire w v) s = .next s ∧ exec (.stkArm w v) s = .next s)) ∧
  (∀ (s : State) (w : Who) (n : TenId) (v : Word),
    let m := s.toMach
    let i := v.toNat % 1024
    (w.openTen n.val = true →
      ∃ t, exec (.notePop w n v) s = .next t ∧ t.toMach.noteq n.val = (m.noteq n.val).tail ∧ t.regs = m.regs ∧
        ∀ k, k ≠ n.val → t.toMach.noteq k = m.noteq k) ∧
    (w.openTen n.val = false → exec (.notePop w n v) s = .next s) ∧
    (512 ≤ i → m.mayInt w i = true →
      ∃ t, exec (.intRaise w v) s = .next t ∧
        t.toMach.reg (Reg.intStat i) = m.reg (Reg.intStat i) ||| (if nbit (m.reg (Reg.intStat i)).toNat 0 then 3 else 1) ∧
        ∀ a, a ≠ Reg.intStat i → t.toMach.reg a = m.reg a) ∧
    (i < 512 ∨ m.mayInt w i = false → exec (.intRaise w v) s = .next s))

/-- Supplies and the reset pin (R434 to R437): losing VAUX, PWR_OK, VIN or VIO_SBB with PWR_OK high, and RESET_N low, reset the
module with their cause; its registers outside the AUX domain go back to their reset values, memory is zero, no session, job or
seat is left, and the fuses stay. The way back (R41, R430, R434, R436): VAUX starts the module in reset with cause POWER and RT
0; PWR_OK, RESET_N and the sideband rails take their levels; MODULE reset ends where all that it needs is high, and SR_RSTCAUSE
names its cause. Losing VIO_SBA after the commit, and a site that reaches 115 °C (R33, R149, R435, R441): the module fences for
good; a trip also takes every port and the twin link down and shows in MOD_TEMP. -/
def Obligations.ResetsAndPower : Prop :=
  (∀ (s : State), s.pins.vaux = true → s.pins.inReset = false →
    let m := s.toMach
    let reset := fun (t : State) (cause : Nat) => t.pins.inReset = true ∧ t.pins.cause = cause ∧ t.mem = [] ∧ t.ledger = {} ∧
      t.ses = [] ∧ t.jobs = [] ∧ t.seats = [] ∧ t.sr.keys = false ∧ t.sr.fuse = m.sr.fuseNext ∧
      ∀ a, t.toMach.reg a = if auxReg a = true ∧ ledgerAddr a = false then m.reg a else resetOf a
    (∃ t, exec .pwrOkFall s = .next t ∧ reset t 0 ∧ t.pins.pwrOk = false) ∧
    (m.pins.pwrOk = true →
      (∃ t, exec .vinUndervoltage s = .next t ∧ reset t 0) ∧
      (∃ t, exec .vioSbbLoss s = .next t ∧ reset t 0 ∧ t.pins.sbb = false)) ∧
    (m.pins.sbb = true → ∃ t, exec .resetNLow s = .next t ∧ reset t 1 ∧ t.pins.resetN = false) ∧
    (∃ t, exec .vauxLoss s = .next t ∧ t.pins.vaux = false ∧ t.pins.inReset = true ∧
      (∀ a, a ≠ Reg.rtStat → t.toMach.reg a = resetOf a) ∧ t.mem = [] ∧ t.ledger = {} ∧ t.sr.fuse = m.sr.fuseNext)) ∧
  (∀ (s : State),
    let m := s.toMach
    (m.pins.vaux = false →
      ∃ t, exec .vauxRise s = .next t ∧ t.pins.vaux = true ∧ t.pins.inReset = true ∧ t.pins.cause = 0 ∧ t.rt = 0 ∧
        (∀ a, a ≠ Reg.rtStat → t.toMach.reg a = resetOf a) ∧ t.mem = [] ∧ t.sr.fuse = m.sr.fuseNext ∧ t.toMach.rtState = 0 ∧
        ∀ i ∈ m.refs, i < 4 → t.toMach.refInUse ∈ m.refs ∧ t.toMach.refInUse ≤ i) ∧
    (∃ t, exec .pwrOkRise s = .next t ∧ t.pins = { m.pins with pwrOk := true } ∧ t.regs = m.regs ∧ t.mem = m.mem) ∧
    (∃ t, exec .resetNRise s = .next t ∧ t.pins = { m.pins with resetN := true } ∧ t.regs = m.regs ∧ t.mem = m.mem) ∧
    (∃ t, exec .vioSbbReturn s = .next t ∧ t.pins = { m.pins with sbb := true } ∧ t.regs = m.regs ∧ t.mem = m.mem) ∧
    (∃ t, exec .vioSbaReturn s = .next t ∧ t.pins = { m.pins with sba := true } ∧ t.mem = m.mem ∧
      (m.up = true → m.pins.aliveIn = true → t.toMach.bit Reg.twnStat F.twnStatAlivein = true)) ∧
    (m.pins.inReset = true → m.pins.vaux = true → m.pins.pwrOk = true → m.pins.resetN = true → m.pins.sbb = true →
      m.pins.cause < 6 → (m.pins.breached = true → Config.meshBreached m.now = false) →
      ∃ t, exec .moduleResetEnd s = .next t ∧ t.toMach.up = true ∧ t.toMach.fld Reg.srRstcause F.srRstcauseCause = m.pins.cause ∧
        t.openFolio = folioOf m.rt) ∧
    (m.pins.pwrOk = false ∨ m.pins.resetN = false ∨ m.pins.sbb = false ∨ m.pins.vaux = false ∨
        (m.pins.breached = true ∧ Config.meshBreached m.now = true) →
      exec .moduleResetEnd s = .next s)) ∧
  (∀ (s : State) (tj : BitVec 12), s.toMach.up = true →
    let m := s.toMach
    let lost := fun (t : State) => t.twin.latch = true ∧ t.twin.barred = true ∧ t.twin.loopFailed = true ∧
      t.toMach.lease = false ∧ (m.serving = true → t.toMach.role = 5)
    (m.committed = true → ∃ t, exec .vioSbaLoss s = .next t ∧ lost t ∧ t.pins.sba = false) ∧
    (m.pins.tripped = false → 920 ≤ sgn 12 tj.toNat →
      ∃ t, exec (.thermalTrip tj) s = .next t ∧ lost t ∧ t.pins.tripped = true ∧
        t.toMach.bit Reg.modTemp F.modTempTrip = true ∧ t.twin.linkUp = false ∧ ∀ p : PortId, t.toMach.linkUp p.val = false) ∧
    (sgn 12 tj.toNat < 920 → exec (.thermalTrip tj) s = .next s))

/-- Management reads (R443): a Block Read answers six octets of the register, most significant first; under the MGMT attribute
all but SR_BOOT are not acknowledged; a read changes nothing but what leaves the module. Other management commands (R442 to
R444): an unlisted command is not acknowledged; an alert response is answered while ALERT_N is low; with the MGMT attribute a
Block Write of 1 to 30 octets fills the empty inbox and a Block Read empties the outbox. -/
def Obligations.ManagementBus : Prop :=
  (∀ (s : State), s.toMach.mgmtRuns = true →
    let m := s.toMach
    (∀ row ∈ ([(.mgmtReadModPart, m.reg Reg.modPart), (.mgmtReadSerialHi, m.reg Reg.modSerialHi),
        (.mgmtReadSerialLo, m.reg Reg.modSerialLo), (.mgmtReadModState, m.reg Reg.modState),
        (.mgmtReadSrRstcause, m.reg Reg.srRstcause), (.mgmtReadTwnStat, m.reg Reg.twnStat),
        (.mgmtReadTwnEpoch, m.reg Reg.twnEpoch), (.mgmtReadIntFault, m.intFaultRead), (.mgmtReadRtStat, m.reg Reg.rtStat),
        (.mgmtReadModTemp, m.modTempRead), (.mgmtReadModSupply, m.modSupplyRead),
        (.mgmtReadEnTotal, m.reg (Reg.enTally 0x42))] : List (Instr × Word)),
      let (c, v) := row
      exec c s = .next { s with sent := (if m.mgmtSr then .mgmtNak else .mgmt (6 :: octetsOfWord v)) :: s.sent }) ∧
    exec .mgmtReadSrBoot s = .next { s with sent := .mgmt (6 :: octetsOfWord (m.reg Reg.srBoot)) :: s.sent }) ∧
  (∀ (s : State) (cmd : BitVec 8) (os : List Octet), s.toMach.mgmtRuns = true →
    let m := s.toMach
    let nak := fun (c : Instr) => exec c s = .next { s with sent := .mgmtNak :: s.sent }
    (m.mgmtServed cmd.toNat = false → nak (.mgmtUnlistedCommand cmd)) ∧
    (m.alertLow = true → exec .alertResponse s = .next { s with sent := .mgmt [0xB0] :: s.sent }) ∧
    (m.mgmtSr = false → nak (.mboxWrite os) ∧ nak .mboxRead) ∧
    (m.mgmtSr = true →
      (m.bit Reg.srMbstat F.srMbstatInfull = true → nak (.mboxWrite os)) ∧
      (m.bit Reg.srMbstat F.srMbstatInfull = false → os ≠ [] → os.length ≤ 30 →
        ∃ t, exec (.mboxWrite os) s = .next t ∧ t.sent = s.sent ∧ t.toMach.bit Reg.srMbstat F.srMbstatInfull = true ∧
          t.toMach.fld Reg.srMbstat F.srMbstatInlen = os.length ∧
          (octetsOfWords ((List.range 5).map fun i => t.toMach.reg (Reg.srMbin i))).take os.length = os) ∧
      (m.bit Reg.srMbstat F.srMbstatOutfull = true →
        let n := m.fld Reg.srMbstat F.srMbstatOutlen
        ∃ t, exec .mboxRead s = .next t ∧ t.toMach.bit Reg.srMbstat F.srMbstatOutfull = false ∧
          t.sent = .mgmt (BitVec.ofNat 8 n :: (octetsOfWords ((List.range 5).map fun i => m.reg (Reg.srMbout i))).take n) :: s.sent) ∧
      (m.bit Reg.srMbstat F.srMbstatOutfull = false → exec .mboxRead s = .next { s with sent := .mgmt [0] :: s.sent })))

/-! ### Registers and regulatory time -/

/-- Register writes (R11, R12, R18, R203): a write beyond P-space, and one by the open world to a register of the strongroom,
moves no data; a write of a plain register gives its written bits to the requester that may write it and changes no other
register, no memory and no core. Gating (R19, R345, R346, R406, R407): T00 software gates and ungates a block of the open world,
the strongroom any; a request to gate a leased block is deferred; the planner gates a block idle for a folio while a peer of its
world is not, and ungates one that is wanted; an action that a gated block held happens once it is ungated. -/
def Obligations.RegisterWritesAndGating : Prop :=
  (∀ (s : State) (w : Who) (a : Nat) (v : Word) (p : PortId),
    let m := s.toMach
    (0x400000 ≤ a → exec (.registerWrite w a v) s = .next s) ∧
    (w.sr = false → srRegister a = true → exec (.registerWrite w a v) s = .next s) ∧
    (∀ row ∈ ([(Reg.rtNextsec, 0xFFFFFFFFFF, w.sr), (Reg.twnHoldoff, 0xFFFF, w.sr),
        (Reg.sealPeerkeyid, 0xFFFFFFFFFFFF, w.sr), (Reg.ucLoadaddr, 0xFFFFFFFF, w.sr), (Reg.modAlerten, 0x3F, w.house),
        (Reg.enPurse, 0xFFFF, w.house), (Reg.enPursenext, 0xFFFF, w.house), (Reg.stkSnapaddr, 0xFFFFFFFF, true),
        (Reg.prtMac p.val, 0xFFFFFFFFFFFF, m.mayPort w p.val), (Reg.prtTenmask p.val, 0xFFFF, m.mayPort w p.val)] :
        List (Nat × Word × Bool)),
      let (r, mask, may) := row
      ∃ t, exec (.registerWrite w r v) s = .next t ∧
        (may = false → t = s) ∧
        (may = true → t.toMach.reg r &&& mask = v &&& mask ∧ (∀ b, b ≠ r → t.toMach.reg b = m.reg b) ∧ t.mem = s.mem ∧
          t.seats = s.seats ∧ t.jobs = s.jobs))) ∧
  (∀ (s : State) (w : Who) (b : BlockId) (v : Word),
    let m := s.toMach
    let gate := Reg.enGate b.val
    let on := fbit v F.enGateReq
    gateBlock b.val = true →
    (w.house = true → (m.blockSr b.val = true → w.sr = true) →
      ((on = false ∨ w.sr = true ∨ m.leaseHeld b.val = false) →
        ∃ t, exec (.enGateWrite w b v) s = .next t ∧ t.toMach.bit gate F.enGateReq = on ∧
          t.toMach.gated b.val = (on || m.bit gate F.enGateAuto) ∧ t.toMach.fld gate F.enGateRes = 0 ∧
          ∀ d ∈ t.sr.deferred, d.1 ≠ b.val) ∧
      (on = true → w.sr = false → m.leaseHeld b.val = true →
        ∃ t, exec (.enGateWrite w b v) s = .next t ∧ t.toMach.gated b.val = m.gated b.val ∧
          t.toMach.bit gate F.enGateReq = true ∧ t.toMach.fld gate F.enGateRes = 1 ∧
          t.toMach.bit (Reg.srLease b.val) F.srLeaseDefer = true ∧ (b.val, false, true) ∈ t.sr.deferred)) ∧
    (w.house = false ∨ (m.blockSr b.val = true ∧ w.sr = false) → exec (.enGateWrite w b v) s = .next s) ∧
    (m.up = true →
      (∀ k ∈ blockPeers b.val, k ≠ b.val → m.blockSr k = m.blockSr b.val → m.gated k = false → m.gated b.val = false →
        m.bit Reg.enCtl F.enCtlAutogate = true → m.blockIdle b.val = true → m.idleFrom b.val + 4096 ≤ m.now →
        m.leaseHeld b.val = false →
        ∃ t, exec (.autogateGate b) s = .next t ∧ t.toMach.gated b.val = true ∧ t.toMach.bit gate F.enGateAuto = true) ∧
      (m.bit gate F.enGateAuto = true → m.wantsBlock b.val = true →
        ∃ t, exec (.autogateUngate b) s = .next t ∧ t.toMach.bit gate F.enGateAuto = false ∧
          t.toMach.gated b.val = m.bit gate F.enGateReq)) ∧
    (m.held.contains b.val = true → m.gated b.val = false →
      ∃ t, exec (.gatedActionRelease b) s = .next t ∧ (∀ k, k ∈ t.held ↔ k ∈ m.held ∧ k ≠ b.val) ∧
        (b.val < 16 → (t.toMach.laneB b.val).job = none)))

/-- RT and its clocks (R39, R42, R43, R45): a tick raises RT by one while VAUX and a REFCLK input are present and stops at the
last value with END; losing the input in use selects the next present one and ends LOCKED; the first input to return starts RT in
FREE. -/
def Obligations.ClockAndTick : Prop :=
  ∀ (s : State) (i : Fin 4),
    let m := s.toMach
    (m.pins.vaux = true → m.refs ≠ [] →
      ∃ t, exec .rtTick s = .next t ∧ t.now = m.now + 1 ∧ t.rt = (if m.rt < 0xFFFFFFFFFFFFFFFF then m.rt + 1 else m.rt) ∧
        (t.rt = 0xFFFFFFFFFFFFFFFF → t.toMach.bit Reg.rtStat F.rtStatEnd = true) ∧ t.mem = m.mem ∧ t.ledger = m.ledger) ∧
    (m.pins.vaux = false ∨ m.refs = [] → exec .rtTick s = .next s) ∧
    (m.pins.vaux = true → i.val ∈ m.refs →
      ∃ t, exec (.refclkLoss i) s = .next t ∧ (∀ k, k ∈ t.refs ↔ k ∈ m.refs ∧ k ≠ i.val) ∧
        t.toMach.bit Reg.rtStat F.rtStatClkloss = true ∧
        t.toMach.rtState = (if m.refInUse = i.val ∧ m.rtState = 3 then 2 else m.rtState) ∧
        (m.refInUse = i.val → t.refs ≠ [] → (∀ k ∈ m.refs, k < 4) → t.toMach.refInUse ∈ t.refs)) ∧
    (m.pins.vaux = true → i.val ∉ m.refs →
      ∃ t, exec (.refclkReturn i) s = .next t ∧ t.refs = m.refs ++ [i.val] ∧
        (m.refs = [] → t.toMach.refInUse = i.val ∧ t.toMach.rtState = 1) ∧
        (m.refs ≠ [] → t.toMach.reg Reg.rtStat = m.reg Reg.rtStat))

/-- PPS (R44, R45, R48, R449): the edge nearest the second counts, or loads a pending ARM; an interval without an edge is a miss,
two take LOCKED to HOLDOVER and LOCKING to FREE; eight accepted edges within 100 ns lock; three outliers beyond 100 us unlock.
RT_CTL (R45, R48, R62), written by the strongroom with REFSEL as it stands but for RT_REFSEL_WRITE: ARM, LOADNOW and FORCE are
taken in UNSET and FREE, LOADNOW not to an earlier RT and FORCE in the charter only, else BADLOAD; a changed REFSEL acts at the next tick; clearing PPSEN ends a pending
ARM, LOCKING and LOCKED. -/
def Obligations.PpsAndTimeControl : Prop :=
  (∀ (s : State) (sub : Nat),
    let m := s.toMach
    let secs := (m.reg Reg.rtNextsec).toNat % 2 ^ 40
    m.pins.vaux = true → m.refs ≠ [] → m.ppsOn = true →
    (m.pins.sba = true →
      (m.bit Reg.rtCtl F.rtCtlArm = false →
        ∃ t, exec (.ppsEdge sub) s = .next t ∧ t.pps.edge = nearer m.pps.edge (phaseNs m.rt (sub % 60)) ∧ t.regs = m.regs) ∧
      (m.bit Reg.rtCtl F.rtCtlArm = true → m.rt ≤ secs * 2 ^ 24 →
        ∃ t, exec (.ppsEdge sub) s = .next t ∧ t.rt = secs * 2 ^ 24 ∧ t.toMach.rtState = 2 ∧
          t.toMach.bit Reg.rtCtl F.rtCtlArm = false ∧ t.openFolio = folioOf t.rt) ∧
      (m.bit Reg.rtCtl F.rtCtlArm = true → secs * 2 ^ 24 < m.rt →
        ∃ t, exec (.ppsEdge sub) s = .next t ∧ t.rt = m.rt ∧ t.toMach.bit Reg.rtStat F.rtStatBadload = true ∧
          t.toMach.bit Reg.rtCtl F.rtCtlArm = false)) ∧
    (m.pps.fresh = true →
      (m.pps.edge = none →
        ∃ t, exec .ppsIntervalEnd s = .next t ∧ t.toMach.bit Reg.rtStat F.rtStatPpsmiss = true ∧
          (m.pps.miss = 0 → t.toMach.rtState = m.rtState) ∧
          (1 ≤ m.pps.miss → t.toMach.rtState = if m.rtState = 2 then 1 else if m.rtState = 3 then 4 else m.rtState)) ∧
      (∀ e, m.pps.edge = some e →
        (m.rtState = 2 → e.natAbs ≤ 100 →
          ∃ t, exec .ppsIntervalEnd s = .next t ∧ t.toMach.rtState = if 7 ≤ m.pps.run then 3 else 2) ∧
        (m.rtState = 4 → ∃ t, exec .ppsIntervalEnd s = .next t ∧ t.toMach.rtState = 2) ∧
        (m.rtState = 3 → 100000 < e.natAbs →
          ∃ t, exec .ppsIntervalEnd s = .next t ∧ t.toMach.bit Reg.rtStat F.rtStatOutlier = true ∧
            t.toMach.reg Reg.rtOutliers = w48 (min (2 ^ 32 - 1) ((m.reg Reg.rtOutliers).toNat + 1)) ∧
            t.toMach.rtState = if 2 ≤ m.pps.outl then 2 else 3) ∧
        (m.rtState = 3 → e.natAbs ≤ 100000 → ∃ t, exec .ppsIntervalEnd s = .next t ∧ t.toMach.rtState = 3)))) ∧
  (∀ (s : State) (w : Who) (v : Word),
    let m := s.toMach
    let secs := (m.reg Reg.rtNextsec).toNat % 2 ^ 40
    let bad := fun (c : Instr) => ∃ t, exec c s = .next t ∧ t.rt = m.rt ∧ t.toMach.bit Reg.rtStat F.rtStatBadload = true ∧
      t.toMach.rtState = m.rtState
    let loads := fun (c : Instr) => ∃ t, exec c s = .next t ∧ t.rt = secs * 2 ^ 24 ∧ t.toMach.rtState = 1 ∧
      t.openFolio = folioOf t.rt
    (w.sr = true → fget v F.rtCtlRefsel = m.refsel → fbit v F.rtCtlPpsen = true →
      (m.rtState ≤ 1 → ∃ t, exec (.rtArm w v) s = .next t ∧ t.toMach.bit Reg.rtCtl F.rtCtlArm = true ∧ t.rt = m.rt) ∧
      (1 < m.rtState → bad (.rtArm w v)) ∧
      (m.rtState ≤ 1 → m.rt ≤ secs * 2 ^ 24 → loads (.rtLoadnow w v)) ∧
      (1 < m.rtState ∨ secs * 2 ^ 24 < m.rt → bad (.rtLoadnow w v)) ∧
      (m.rtState ≤ 1 → m.phase = 1 → loads (.rtForce w v)) ∧
      (1 < m.rtState ∨ m.phase ≠ 1 → bad (.rtForce w v))) ∧
    (w.sr = true → fget v ⟨2, 0⟩ = 0 → fbit v F.rtCtlPpsen = true →
      ∃ t, exec (.rtRefselWrite w v) s = .next t ∧ t.toMach.refsel = fget v F.rtCtlRefsel ∧
        t.toMach.reg Reg.rtStat = m.reg Reg.rtStat ∧
        (m.pins.vaux = true → fget v F.rtCtlRefsel ≠ m.refsel → fget v F.rtCtlRefsel ∈ m.refs →
          ∃ u, exec .rtTick t = .next u ∧ u.toMach.refInUse = fget v F.rtCtlRefsel ∧
            u.toMach.rtState = if m.rtState = 3 then 2 else m.rtState)) ∧
    (w.sr = true → fget v ⟨2, 0⟩ = 0 → fget v F.rtCtlRefsel = m.refsel →
      ∃ t, exec (.rtPpsenClear w v) s = .next t ∧ t.toMach.ppsOn = false ∧ t.toMach.bit Reg.rtCtl F.rtCtlArm = false ∧
        t.toMach.rtState = if m.rtState = 2 then 1 else if m.rtState = 3 then 4 else m.rtState) ∧
    (w.sr = false → ∀ c ∈ ([.rtArm w v, .rtLoadnow w v, .rtForce w v, .rtRefselWrite w v, .rtPpsenClear w v] : List Instr),
      exec c s = .next s))

/-- Bells and gates as written (R56, R57, R61): a BELL_ACT or GATE_KEY write that passes its checks is recorded and pends, one
that fails leaves its code; a bell's time is written while it is disarmed. Only the strongroom writes them. -/
def Obligations.BellAndGateWrites : Prop :=
  ∀ (s : State) (w : Who) (b : BellId) (g : GateId) (v : Word),
    let m := s.toMach
    let key := v &&& 0x800F00000FFF
    let act := v &&& 0xFFFFFF800FFF
    (w.sr = true →
      (m.bellCheck b.val v = 0 → ∃ t, exec (.bellActWrite w b v) s = .next t ∧ t.toMach.reg (Reg.bellAct b.val) = act ∧
        t.ledger.pend = m.ledger.pend ++ [.bell b.val (m.bellTime b.val) act] ∧
        t.toMach.fld (Reg.bellStat b.val) F.bellStatErr = 0 ∧ t.ledger.bells = m.ledger.bells) ∧
      (m.bellCheck b.val v ≠ 0 → ∃ t, exec (.bellActWrite w b v) s = .next t ∧ t.ledger = m.ledger ∧
        t.toMach.fld (Reg.bellStat b.val) F.bellStatErr = m.bellCheck b.val v) ∧
      (m.ledgerBarred = false → m.bit (Reg.bellAct b.val) F.bellActArm = false →
        (∀ frac, ∃ t, exec (.bellTimeWrite w b frac v) s = .next t ∧
          (frac = false → t.toMach.reg (Reg.bellTsec b.val) = w48 (v.toNat % 2 ^ 40) ∧ t.toMach.reg (Reg.bellTfrac b.val) =
            m.reg (Reg.bellTfrac b.val)) ∧
          (frac = true → t.toMach.reg (Reg.bellTfrac b.val) = w48 (v.toNat % 2 ^ 24) ∧ t.toMach.reg (Reg.bellTsec b.val) =
            m.reg (Reg.bellTsec b.val)) ∧
          t.ledger.pend = m.ledger.pend ++ [.bell b.val (t.toMach.bellTime b.val) (m.reg (Reg.bellAct b.val))])) ∧
      (m.ledgerBarred = false → m.bit (Reg.bellAct b.val) F.bellActArm = true → ∀ frac,
        ∃ t, exec (.bellTimeWrite w b frac v) s = .next t ∧ t.ledger = m.ledger ∧
          t.toMach.fld (Reg.bellStat b.val) F.bellStatErr = 3) ∧
      (m.ledgerBarred = false → fbit key F.gateKeyEn = true →
        (∀ h ∈ m.usedGates, h ≠ g.val → ¬ (fget (m.gateWritten h) F.gateKeyTenant = fget key F.gateKeyTenant ∧
          fget (m.gateWritten h) F.gateKeyGame = fget key F.gateKeyGame)) →
        ∃ t, exec (.gateKeyWrite w g v) s = .next t ∧ t.toMach.reg (Reg.gateKey g.val) = key ∧
          t.ledger.pend = m.ledger.pend ++ [.gate g.val key] ∧ t.toMach.fld (Reg.gateStat g.val) F.gateStatErr = 0 ∧
          t.ledger.gates = m.ledger.gates) ∧
      (m.ledgerBarred = true →
        (∃ t, exec (.gateKeyWrite w g v) s = .next t ∧ t.ledger.pend = m.ledger.pend ∧ t.ledger.gates = m.ledger.gates ∧
          t.toMach.reg (Reg.gateKey g.val) = m.reg (Reg.gateKey g.val) ∧ t.toMach.fld (Reg.gateStat g.val) F.gateStatErr = 7))) ∧
    (w.sr = false → exec (.bellActWrite w b v) s = .next s ∧ (∀ f, exec (.bellTimeWrite w b f v) s = .next s) ∧
      exec (.gateKeyWrite w g v) s = .next s)

/-- A bell fires (R54, R59, R60): when it is due in the open folio and no lower bell is; FIRED is set, LATE where its time had
been passed; its action opens or closes its gate or raises its interrupt; a one-shot disarms, a repeating bell takes its next
time later than RT. -/
def Obligations.BellsFire : Prop :=
  ∀ (s : State) (b : BellId),
    let m := s.toMach
    let e := m.ebell b.val
    let g := fget e.act F.bellActTarget
    let n := fget e.act F.bellActRepeat
    m.up = true → m.bellDue b.val = true → folioOf m.rt = m.openFolio →
    (∀ x ∈ m.ledger.bells, x.1 < b.val → m.bellDue x.1 = false) →
      ∃ t, exec (.bellFire b) s = .next t ∧ t.toMach.bit (Reg.bellStat b.val) F.bellStatFired = true ∧
        (e.late = true → t.toMach.bit (Reg.bellStat b.val) F.bellStatLate = true) ∧
        (fget e.act F.bellActAction = 1 → t.toMach.fld (Reg.gateStat g) F.gateStatState = 2 ∧
          t.toMach.reg (Reg.gateAccepted g) = 0 ∧ t.toMach.reg (Reg.gateClosedref g) = 0) ∧
        (fget e.act F.bellActAction = 2 → t.toMach.fld (Reg.gateStat g) F.gateStatState = 3) ∧
        (fget e.act F.bellActAction = 3 → nbit (t.toMach.reg (Reg.intStat (64 + g % 64))).toNat 0 = true) ∧
        (n = 0 → fbit (t.toMach.ebell b.val).act F.bellActArm = false) ∧
        (0 < n → (t.toMach.ebell b.val).act = e.act ∧ m.rt < (t.toMach.ebell b.val).time ∧
          (∃ k, 0 < k ∧ (t.toMach.ebell b.val).time = e.time + k * (n * 4096)) ∧
          ∀ k, 0 < k → m.rt < e.time + k * (n * 4096) → (t.toMach.ebell b.val).time ≤ e.time + k * (n * 4096)) ∧
        exec (.bellFire b) t = .next t

/-- The folio boundary (R57, R119) and calibration (R398): once RT has passed the open folio's end the next folio opens, the writes
that were pending are effective, and no earlier, and none pends but the one that stops a tenant whose ring ran short (R452); calibration clears MODEL from the age of 16 seconds on. -/
def Obligations.FolioBoundary : Prop :=
  ∀ (s : State),
    let m := s.toMach
    (m.up = true → m.openFolio < folioOf m.rt →
      ∃ t, exec .folioClose s = .next t ∧ t.openFolio = m.openFolio + 1 ∧ t.rt = m.rt ∧
        (∀ x ∈ t.ledger.pend, ∃ k, x = .reg (Reg.accCtl k) (fmask F.accCtlEn) 0) ∧
        (∀ g k, m.ledger.pend = [.gate g k] → t.toMach.egate g = k) ∧
        (∀ b time act, m.ledger.pend = [.bell b time act] →
          (t.toMach.ebell b).time = time ∧ (t.toMach.ebell b).act = act)) ∧
    (folioOf m.rt ≤ m.openFolio → exec .folioClose s = .next s) ∧
    (m.up = true → 16 ≤ m.fld Reg.enStat F.enStatAge → m.bit Reg.enStat F.enStatModel = true →
      ∃ t, exec .tallyCalibration s = .next t ∧ t.toMach.bit Reg.enStat F.enStatModel = false ∧
        t.toMach.bit Reg.enAlarm F.enAlarmModel = false ∧ nbit (t.toMach.reg (Reg.intStat 28)).toNat 0 = true)

/-! ### Ports, accession and seals -/

/-- Ports (R64 to R67, R79, R83, R99, R190): a link that comes up or goes down shows and interrupts, and with it go its
connections; a reset empties the port; frames outside LCP are queued, stamped, counted or dropped as their class says; the oldest
raw frame leaves padded and with its FCS and ends the SEND that waits for it. -/
def Obligations.PortEvents : Prop :=
  ∀ (s : State) (w : Who) (p : PortId) (f : RxFrame) (v : Word) (sub : Nat),
    let m := s.toMach
    let pend := fun (t : State) => nbit (t.toMach.reg (Reg.intStat (128 + p.val))).toNat 0 = true
    let closed := fun (t : State) => ∀ k c, (t.toMach.live k).conn = some c → c.port ≠ p.val
    let drops := fun (t : State) => t.toMach.reg (Reg.prtRxdrop p.val) = w48 ((m.reg (Reg.prtRxdrop p.val)).toNat + 1)
    let counts := fun (t : State) => t.toMach.reg (Reg.prtRxframes p.val) = w48 ((m.reg (Reg.prtRxframes p.val)).toNat + 1)
    (m.up = true → m.committed = true → m.portEn p.val = true → m.linkUp p.val = false → m.pins.tripped = false →
      let rsOnKr := m.fld (Reg.prtCtl p.val) F.prtCtlMode = 2 ∧ m.fld (Reg.prtCtl p.val) F.prtCtlFec = 2
      (¬ rsOnKr → ∃ t, exec (.linkUp p) s = .next t ∧ t.toMach.linkUp p.val = true ∧ pend t) ∧
      (rsOnKr → ∃ t, exec (.linkUp p) s = .next t ∧ t.toMach.linkUp p.val = false ∧
        t.toMach.bit (Reg.prtStat p.val) F.prtStatCfgerr = true)) ∧
    (m.linkUp p.val = true → ∃ t, exec (.linkLoss p) s = .next t ∧ t.toMach.linkUp p.val = false ∧ closed t ∧ pend t) ∧
    (m.mayPort w p.val = true →
      ∃ t, exec (.portReset w p v) s = .next t ∧ t.toMach.linkUp p.val = false ∧ closed t ∧ t.toMach.queue p.val = [] ∧
        t.toMach.plain p.val = [] ∧ t.toMach.reg (Reg.prtRxframes p.val) = 0 ∧
        t.toMach.reg (Reg.prtCtl p.val) = m.reg (Reg.prtCtl p.val)) ∧
    (m.mayPort w p.val = false → exec (.portReset w p v) s = .next s) ∧
    (m.receives p.val = true →
      (∀ row ∈ ([(.plainFrame p f, .plain, none), (.ptpFrame p f, .ptp, some (m.rt, f.sub % 60))] :
          List (Instr × RxClass × Option (Nat × Nat))),
        let (c, cls, stamp) := row
        m.classify p.val f = cls →
        (m.bit (Reg.prtCtl p.val) F.prtCtlPlain = true → (m.plain p.val).length < 64 →
          ∃ t, exec c s = .next t ∧ counts t ∧ pend t ∧
            t.toMach.plain p.val = m.plain p.val ++ [{ octs := f.octs, stamp := stamp }]) ∧
        (m.bit (Reg.prtCtl p.val) F.prtCtlPlain = true → 64 ≤ (m.plain p.val).length →
          ∃ t, exec c s = .next t ∧ counts t ∧ t.toMach.plain p.val = m.plain p.val ∧
            t.toMach.reg (Reg.prtPlaindrop p.val) = w48 ((m.reg (Reg.prtPlaindrop p.val)).toNat + 1)) ∧
        (m.bit (Reg.prtCtl p.val) F.prtCtlPlain = false →
          ∃ t, exec c s = .next t ∧ counts t ∧ drops t ∧ t.toMach.plain p.val = m.plain p.val)) ∧
      (m.classify p.val f = .mac → ∃ t, exec (.macControlFrame p f) s = .next t ∧ counts t ∧ drops t ∧ t.sent = s.sent) ∧
      (m.classify p.val f = .drop → ∃ t, exec (.lcpFrameDiscard p f) s = .next t ∧ drops t ∧ t.sent = s.sent ∧ t.ses = s.ses)) ∧
    (∀ r l, m.queue p.val = r :: l → m.up = true → m.portEn p.val = true → m.linkUp p.val = true →
      let os := r.octs ++ List.replicate (60 - r.octs.length) 0
      ∃ t, exec (.frameLeftPort p sub) s = .next t ∧ t.toMach.queue p.val = l ∧
        t.sent = .raw p.val (os ++ fcsOctets os) :: s.sent ∧
        (∀ j, r.posted = false → m.job r.ctx = some j → j.st = .waiting → (t.toMach.job r.ctx).map Job.st = some .ready))

/-- LCP frames received on a serving module (R79, R82 to R89): HELLO opens the connection of a new or known entry, or draws NAK
TENANT; DATA in sequence takes its items, each WORK item into the merge, and out of sequence draws NAK SEQUENCE; CUMACK and
CREDIT apply from every frame; NAK SEQUENCE draws the unacknowledged frames again; BYE closes; PROBE is answered. -/
def Obligations.LcpFrames : Prop :=
  ∀ (s : State) (p : PortId) (f : RxFrame) (g : LcpFrame) (k : SesId) (c : Conn),
    let m := s.toMach
    let e := m.live k.val
    m.receives p.val = true → m.classify p.val f = .lcp g → m.serving = true → m.twin.latch = false →
    (∀ pid ten stream, g.typ = 1 → g.body = .helloReq pid ten stream → g.epoch ≤ m.epoch → m.portSr p.val = false →
      (nbit (m.reg (Reg.prtTenmask p.val)).toNat ten = true → (m.portSessions p.val).length < 16 →
        (m.sessOf ten pid stream = some k.val ∨ (m.sessOf ten pid stream = none ∧ m.freeSes = some k.val)) →
        ∃ t d, exec (.helloFrame p f) s = .next t ∧ (t.toMach.live k.val).conn = some d ∧ d.port = p.val ∧ d.peer = w48 g.src ∧
          (t.toMach.sess k.val).port = p.val ∧ (t.toMach.sess k.val).peer = w48 g.src ∧
          (m.sessOf ten pid stream = none → (t.toMach.sess k.val).used = true ∧ (t.toMach.sess k.val).ten = ten ∧
            (t.toMach.sess k.val).pid = pid ∧ (t.toMach.sess k.val).stream = stream) ∧
          ∃ r, .lcp p.val r ∈ t.sent ∧ r.typ = 1 ∧ r.session = k.val ∧ r.dst = (w48 g.src).toNat ∧
            r.flags = if m.sessOf ten pid stream = none then 0x80 else 0xC0) ∧
      (nbit (m.reg (Reg.prtTenmask p.val)).toNat ten = false →
        ∃ t, exec (.helloFrame p f) s = .next t ∧ t.ses = s.ses ∧ t.ledger = s.ledger ∧
          ∃ r, t.sent = .lcp p.val r :: s.sent ∧ r.typ = 4 ∧ r.body = .nak 2 2 g.seq ∧ r.dst = g.src)) ∧
    (m.connOf p.val g.session g.src = some k.val → e.conn = some c → g.epoch ≤ m.epoch →
      (∀ l, g.typ = 2 → g.body = .items l → g.epoch = m.epoch →
        (g.seq = (c.rxseq + 1) % 2 ^ 32 → m.busy k.val l = none →
          ∃ t d, exec (.dataFrame p f) s = .next t ∧ (t.toMach.live k.val).conn = some d ∧ d.rxseq = g.seq ∧
            d.nextOrd = c.nextOrd + l.length ∧ t.merge.length = m.merge.length + (l.filter fun i => i.itype ≠ 2).length) ∧
        (g.seq ≠ (c.rxseq + 1) % 2 ^ 32 → seqLt c.rxseq g.seq = true → c.nakFolio ≠ some (folioOf m.rt) →
          ∃ t d, exec (.dataFrame p f) s = .next t ∧ (t.toMach.live k.val).conn = some d ∧ d.rxseq = c.rxseq ∧ t.merge = m.merge ∧
            ∃ r, t.sent.head? = some (.lcp p.val r) ∧ r.typ = 4 ∧ r.body = .nak 4 0 g.seq)) ∧
      (e.outq = [] → c.epochDue = none → m.replies = [] → seqLt c.txseq g.cumack = false →
        let acked := c.unacked.filter fun x => seqLt g.cumack x.seq
        (∀ row ∈ ([(3, .ackFrame p f), (7, .creditFrame p f)] : List (Nat × Instr)),
          g.typ = row.1 →
          ∃ t d, exec row.2 s = .next t ∧ (t.toMach.live k.val).conn = some d ∧ d.unacked = acked ∧ d.rxAt = m.now ∧
            d.plim = raiseLimit c.plim g.credit ∧ t.sent = s.sent) ∧
        (∀ reason detail seq, g.typ = 4 → g.body = .nak reason detail seq → acked = c.unacked → c.retx < 8 →
          ∃ t d, exec (.nakFrame p f) s = .next t ∧ (t.toMach.live k.val).conn = some d ∧
            t.toMach.reg (Reg.prtNakrx p.val) = w48 ((m.reg (Reg.prtNakrx p.val)).toNat + 1) ∧
            (reason = 4 → acked ≠ [] → d.retx = c.retx + 1 ∧ t.sent.length = s.sent.length + acked.length) ∧
            (reason ≠ 4 → d.retx = c.retx ∧ t.sent = s.sent))) ∧
      (g.typ = 9 → g.seq = (c.rxseq + 1) % 2 ^ 32 →
        ∃ t, exec (.byeFrame p f) s = .next t ∧ (t.toMach.live k.val).conn = none ∧
          ∃ r, t.sent.head? = some (.lcp p.val r) ∧ r.typ = 3 ∧ r.cumack = g.seq) ∧
      (∀ echo a b, g.typ = 10 → g.body = .probe echo a b → nbit g.flags 7 = false →
        ∃ t, exec (.probeFrame p f) s = .next t ∧
          ∃ r, t.sent.head? = some (.lcp p.val r) ∧ r.typ = 10 ∧ r.flags = 0x80 ∧ r.body = .probe echo (secOf m.rt) (fracOf m.rt)))

/-- Timers of a connection (R84, R87, R94): an acknowledgement that is due is sent; without progress the unacknowledged frames go
again, the ninth time BYE RETRY-LIMIT; a silent peer is probed once, then BYE IDLE; an IDLE entry gets its EPOCH frames. SES_CTL
(R83, R85, R102), by software of the entry's tenant or of T00: STORAGE and RETIRE pend, RETIRE is refused while the entry is open
or has pending ids, KICK closes with BYE KICKED; any other requester, or a FREE entry, changes nothing. -/
def Obligations.SessionEvents : Prop :=
  (∀ (s : State) (k : SesId) (c : Conn),
    let m := s.toMach
    let e := m.live k.val
    let sends := fun (t : State) (typ : Nat) => ∃ r, t.sent.head? = some (.lcp c.port r) ∧ r.typ = typ ∧ r.session = k.val
    let bye := fun (t : State) (reason : Nat) => (t.toMach.live k.val).conn = none ∧
      ∃ r, t.sent.head? = some (.lcp c.port r) ∧ r.typ = 9 ∧ r.body = .bye reason
    (e.conn = some c →
      (∀ b, c.ackBy = some b → b ≤ m.now →
        ∃ t d, exec (.ackDue k) s = .next t ∧ sends t 3 ∧ (t.toMach.live k.val).conn = some d ∧ d.ackBy = none) ∧
      (c.unacked ≠ [] → c.progressAt + m.fld (Reg.prtCtl c.port) F.prtCtlRto * 4096 ≤ m.now →
        (c.retx < 8 → ∃ t d, exec (.retransmitTimeout k) s = .next t ∧ (t.toMach.live k.val).conn = some d ∧
          d.retx = c.retx + 1 ∧ d.progressAt = m.now ∧ t.sent.length = s.sent.length + c.unacked.length) ∧
        (8 ≤ c.retx → ∃ t, exec (.retransmitTimeout k) s = .next t ∧ bye t 4)) ∧
      (c.probed = false → c.rxAt + m.fld (Reg.prtCtl c.port) F.prtCtlIdle * 1024 ≤ m.now →
        ∃ t d, exec (.idleProbe k) s = .next t ∧ sends t 10 ∧ (t.toMach.live k.val).conn = some d ∧ d.probed = true) ∧
      (c.rxAt + m.fld (Reg.prtCtl c.port) F.prtCtlIdle * 4096 ≤ m.now → ∃ t, exec (.idleTimeout k) s = .next t ∧ bye t 3)) ∧
    (e.conn = none → (m.sess k.val).used = true → m.openFolio < e.epochEnd → m.serving = true → m.twin.latch = false →
      m.linkUp (m.sess k.val).port = true → e.epochFolio ≠ some m.openFolio →
      ∃ t, exec (.epochFrameRepeat k) s = .next t ∧ (t.toMach.live k.val).epochFolio = some m.openFolio ∧
        ∃ r, t.sent = .lcp (m.sess k.val).port r :: s.sent ∧ r.typ = 6 ∧ r.body = .epoch e.epochPrev m.role)) ∧
  (∀ (s : State) (w : Who) (k : SesId) (v : Word) (c : Conn),
    let m := s.toMach
    let e := m.live k.val
    let plain := fbit v F.sesCtlKick = false ∧ fbit v F.sesCtlRetire = false
    ((m.sess k.val).used = true → w.openTen (m.sess k.val).ten = true →
      (m.ledgerBarred = false →
        (plain → fbit v F.sesCtlStorage ≠ m.storageWritten k.val →
          ∃ t, exec (.sesStorageWrite w k v) s = .next t ∧ (t.toMach.live k.val).err = 0 ∧
            t.ledger = { m.ledger with pend := m.ledger.pend ++ [.storage k.val (fbit v F.sesCtlStorage)] }) ∧
        (fbit v F.sesCtlKick = false → fbit v F.sesCtlStorage = m.storageWritten k.val →
          (e.conn = none → e.pending = [] →
            ∃ t, exec (.retire w k v) s = .next t ∧ (t.toMach.live k.val).err = 0 ∧
              t.ledger = { m.ledger with pend := m.ledger.pend ++ [.retire k.val] }) ∧
          (e.conn ≠ none → ∃ t, exec (.retire w k v) s = .next t ∧ (t.toMach.live k.val).err = 1 ∧ t.ledger = m.ledger) ∧
          (e.conn = none → e.pending ≠ [] →
            ∃ t, exec (.retire w k v) s = .next t ∧ (t.toMach.live k.val).err = 2 ∧ t.ledger = m.ledger))) ∧
      (m.ledgerBarred = true → plain →
        ∃ t, exec (.sesStorageWrite w k v) s = .next t ∧ (t.toMach.live k.val).err = 3 ∧ t.ledger = m.ledger) ∧
      (e.conn = some c → fbit v F.sesCtlRetire = false →
        ∃ t, exec (.kick w k v) s = .next t ∧ (t.toMach.live k.val).conn = none ∧
          ∃ r, t.sent = .lcp c.port r :: s.sent ∧ r.typ = 9 ∧ r.body = .bye 2)) ∧
    (((m.sess k.val).used = false ∨ w.openTen (m.sess k.val).ten = false) →
      exec (.sesStorageWrite w k v) s = .next s ∧ exec (.kick w k v) s = .next s ∧ exec (.retire w k v) s = .next s))

/-- The wire (R68 to R78): a frame whose fields fit its format, spelt in octets and read again, is that frame. -/
def Obligations.LcpRoundTrip : Prop :=
  ∀ (et : Nat) (f : LcpFrame), frameFits f = true → parseLcp (lcpOctets et f) = .good f

/-- The merge (R103, R104, R107, R451): its first item, where it is not the last one a closing folio waits for, leaves once its tick
has come and the folios before its own are past their boundaries. A
partner's WORK item with a new id is decided, its id pending and its answer in the folio; an id the table holds as accepted is a
DUPLICATE; a malformed item is REFUSED at once; a module that does not serve drops items unjudged. -/
def Obligations.MergeEmits : Prop :=
  ∀ (s : State) (i : MergeItem) (l : List MergeItem),
    let m := s.toMach
    let x : Mach := { m with merge := l }
    let judged := fun (t : State) => t.merge = l ∧ t.judged = m.judged + 1 ∧
      t.toMach.reg Reg.accJudged = w48 ((m.reg Reg.accJudged).toNat + 1)
    let good : Bool := i.item.itype = 1 && i.item.id ≠ 0 && bodyWords i.item ≤ m.maxBody i.ten
    m.merge = i :: l → m.up = true → i.at_ ≤ m.now → folioOf i.stamp ≤ m.openFolio → i.orig = false → i.ten < 16 →
    (∀ c ∈ m.closing.head?, ∃ j ∈ l, folioOf j.stamp ≤ c.folio) →
    (m.serving = false → exec .mergeEmit s = .next { s with merge := l }) ∧
    (m.serving = true →
      (good = true → (∀ d ∈ (m.sess i.ses).table, d.id ≠ i.item.id) → max (m.live i.ses).r (m.sess i.ses).h < i.item.id →
        (∀ p ∈ (m.live i.ses).pending, p.id ≠ i.item.id) →
        ∃ t, exec .mergeEmit s = .next t ∧ judged t ∧ (t.toMach.live i.ses).r = i.item.id ∧
          (t.toMach.live i.ses).pending.map PendItem.id = (m.live i.ses).pending.map PendItem.id ++ [i.item.id] ∧
          (t.toMach.acc i.ten).items = (m.acc i.ten).items ++
            [{ ses := i.ses, id := i.item.id, disp := (x.decide i).1, accn := (x.decide i).2.1 }] ∧
          ((x.decide i).1 = .accepted → (x.decide i).2.1 = m.nextAccn i.ten ∧
            t.toMach.nextAccn i.ten = (m.nextAccn i.ten + 1) % 2 ^ 64 ∧
            t.toMach.reg (Reg.accAccepted i.ten) = w48 ((m.reg (Reg.accAccepted i.ten)).toNat + 1)) ∧
          ((x.decide i).1 ≠ .accepted → t.toMach.nextAccn i.ten = m.nextAccn i.ten ∧
            t.toMach.reg (Reg.accRefused i.ten) = w48 ((m.reg (Reg.accRefused i.ten)).toNat + 1))) ∧
      (∀ d, good = true → (m.sess i.ses).table.find? (fun y => y.id = i.item.id) = some d → d.disp = .accepted →
        ∃ t, exec .mergeEmit s = .next t ∧ judged t ∧ t.ledger = m.ledger ∧
          t.toMach.reg (Reg.accDuplicate i.ten) = w48 ((m.reg (Reg.accDuplicate i.ten)).toNat + 1)) ∧
      (good = false →
        ∃ t, exec .mergeEmit s = .next t ∧ judged t ∧ t.ledger = m.ledger ∧
          t.toMach.reg (Reg.accRefused i.ten) = w48 ((m.reg (Reg.accRefused i.ten)).toNat + 1)))

/-- The accession registers (R112, R113, R129, R130): ACC_TAIL moves to an entry's start and USED falls by what is freed; the
ring moves only while the tenant is stopped and empty, and empties; ACC_CTL and ACC_QUOTA pend to the boundary; ACC_NEXT is set
only before the first issue. A requester that may not write changes nothing. -/
def Obligations.AccessionRegisters : Prop :=
  ∀ (s : State) (w : Who) (n : TenId) (v : Word) (b : Bool),
    let m := s.toMach
    let t0 := n.val
    let size := m.ringWords t0
    let tail := (m.reg (Reg.accTail t0)).toNat
    let off := v.toNat % 2 ^ 32
    let err := fun (c : Instr) (k : Nat) => ∃ t, exec c s = .next t ∧ t.toMach.reg (Reg.accErr t0) = w48 k ∧
      ∀ a, a ≠ Reg.accErr t0 → t.toMach.reg a = m.reg a
    let stopped := m.bit (Reg.accCtl t0) F.accCtlEn = false ∧ m.accEn t0 = false ∧ m.reg (Reg.accUsed t0) = 0
    let ok := size ≠ 0 ∧ off < size ∧
      ∃ e ∈ walkRing (fun o => m.word (m.ringAddr t0 o)) size (m.reg (Reg.accRelptr t0)).toNat size tail,
        e.1 = off ∧ (e.2 = 0xF ∨ e.2 = 0xE ∨ e.2 = 16)
    (m.ledgerBarred = false →
      (w.ofTen t0 = true →
        (ok → ∃ t, exec (.accTailWrite w n v) s = .next t ∧ t.toMach.reg (Reg.accTail t0) = w48 off ∧
          t.toMach.reg (Reg.accUsed t0) = w48 ((m.reg (Reg.accUsed t0)).toNat - (off + size - tail) % size) ∧
          t.toMach.reg (Reg.accErr t0) = 0) ∧
        (¬ ok → err (.accTailWrite w n v) 1) ∧
        (∃ t, exec (.accQuotaWrite w n v) s = .next t ∧ t.toMach.reg (Reg.accErr t0) = 0 ∧
          t.toMach.reg (Reg.accQuota t0) &&& 0xFFFFFF = v &&& 0xFFFFFF ∧ t.toMach.quota t0 = m.quota t0 ∧
          t.ledger.pend = m.ledger.pend ++ [.reg (Reg.accQuota t0) (w48 (2 ^ 24 - 1)) v])) ∧
      (w.sr = true →
        (¬ stopped → err (.accRingWrite w n b v) 2 ∧ err (.accNextWrite w n b v) 2) ∧
        (stopped →
          (let base := if b then (m.reg (Reg.accDbbase t0)).toNat else v.toNat % 2 ^ 32 / 4096 * 4096
           let pages := if b then v.toNat % 2 ^ 20 else (m.reg (Reg.accDbsize t0)).toNat
           (pages = 0 ∨ 256 ≤ pages) → base + pages * 4096 ≤ memWords → m.ringOverlap t0 base pages = false →
            ∃ t, exec (.accRingWrite w n b v) s = .next t ∧ t.toMach.reg (Reg.accErr t0) = 0 ∧
              t.toMach.reg (if b then Reg.accDbsize t0 else Reg.accDbbase t0) = w48 (if b then pages else base) ∧
              t.toMach.reg (Reg.accHead t0) = 0 ∧ t.toMach.reg (Reg.accTail t0) = 0 ∧ t.toMach.reg (Reg.accRelptr t0) = 0) ∧
          ((m.acc t0).issued = false → m.pair (Reg.accRelmarkHi t0) (Reg.accRelmarkLo t0) = 0 →
            ∃ t, exec (.accNextWrite w n b v) s = .next t ∧ t.toMach.reg (Reg.accErr t0) = 0 ∧
              t.toMach.reg (if b then Reg.accNextHi t0 else Reg.accNextLo t0) = if b then w48 (v.toNat % 65536) else v))) ∧
      (w.house = true →
        (fbit v F.accCtlEn = false ∨ m.bit (Reg.accCtl t0) F.accCtlEn = true ∨
          (size ≠ 0 ∧ m.ringOverlap t0 (m.ringAddr t0 0) (size / 4096) = false)) → fget v F.accCtlMaxbody ≤ 248 →
        ∃ t, exec (.accCtlWrite w n v) s = .next t ∧ t.toMach.reg (Reg.accErr t0) = 0 ∧
          t.toMach.bit (Reg.accCtl t0) F.accCtlEn = fbit v F.accCtlEn ∧
          t.toMach.fld (Reg.accCtl t0) F.accCtlMaxbody = fget v F.accCtlMaxbody ∧
          t.toMach.fld (Reg.accCtl t0) F.accCtlKey = fget v F.accCtlKey ∧
          t.toMach.fld (Reg.accCtl t0) F.accCtlRefrec = fget v F.accCtlRefrec ∧ t.toMach.accEn t0 = m.accEn t0 ∧
          t.ledger.pend.length = m.ledger.pend.length + 1)) ∧
    (m.ledgerBarred = true →
      (w.ofTen t0 = true → err (.accTailWrite w n v) 6 ∧ err (.accQuotaWrite w n v) 6) ∧
      (w.sr = true → err (.accRingWrite w n b v) 6 ∧ err (.accNextWrite w n b v) 6) ∧
      (w.house = true → err (.accCtlWrite w n v) 6)) ∧
    (w.ofTen t0 = false → exec (.accTailWrite w n v) s = .next s ∧ exec (.accQuotaWrite w n v) s = .next s) ∧
    (w.sr = false → exec (.accRingWrite w n b v) s = .next s ∧ exec (.accNextWrite w n b v) s = .next s) ∧
    (w.house = false → exec (.accCtlWrite w n v) s = .next s)

/-- The seal engine (R165, R169, R171, R176): a signature that is done appends a record of 800 words for the oldest volume of the
queue, the next seal number in SEAL_LASTNO and its volume in SEAL_LASTV; SEAL_TAIL moves to an entry's start; SEAL_CTL.EN and the
roll's place pend to the boundary, the place only while the roll is off and empty. -/
def Obligations.SealEngine : Prop :=
  ∀ (s : State) (w : Who) (v : Word) (r : RootVol) (q : List RootVol) (d : Nat),
    let m := s.toMach
    let size := m.rollWords
    let head := (m.reg Reg.sealHead).toNat
    let tail := (m.reg Reg.sealTail).toNat
    let off := v.toNat % 2 ^ 32
    let err := fun (c : Instr) (k : Nat) => ∃ t, exec c s = .next t ∧ t.toMach.reg Reg.sealErr = w48 k ∧
      ∀ a, a ≠ Reg.sealErr → t.toMach.reg a = m.reg a
    let ok := size ≠ 0 ∧ off < size ∧ ∃ e ∈ walkRing (fun o => m.word (m.rollAddr o)) size head size tail,
      e.1 = off ∧ (e.2 = 5 ∨ e.2 = 0xE ∨ e.2 = 16)
    let off0 := m.bit Reg.sealCtl F.sealCtlEn = false ∧ fbit (m.eff Reg.sealCtl) F.sealCtlEn = false ∧ m.rollUsed = 0
    (m.up = true → m.sealing.queue = r :: q → m.sealing.signDone = some d → d ≤ m.now → m.serving = true →
      m.sealPaused = false → 1600 ≤ m.rollWords - m.rollUsed → q.length < 1024 →
      ∃ t, exec .sealAppend s = .next t ∧ t.toMach.reg Reg.sealLastno = w48 ((m.reg Reg.sealLastno).toNat + 1) ∧
        t.toMach.reg Reg.sealLastv = w48 r.volume ∧
        t.toMach.reg Reg.sealHead = w48 (((head + padNeed size head 800) % size + 800) % size) ∧ t.sealing.queue = q) ∧
    (m.ledgerBarred = false →
      (w.house = true → ok →
        ∃ t, exec (.sealTailWrite w v) s = .next t ∧ t.toMach.reg Reg.sealTail = w48 off ∧ t.toMach.reg Reg.sealErr = 0) ∧
      (w.house = true → ¬ ok → err (.sealTailWrite w v) 1) ∧
      (w.sr = true →
        (fbit v F.sealCtlEn = false ∨ m.reg Reg.sealRsize ≠ 0 →
          ∃ t, exec (.sealCtlWrite w 0 v) s = .next t ∧ t.toMach.reg Reg.sealErr = 0 ∧
            t.toMach.bit Reg.sealCtl F.sealCtlEn = fbit v F.sealCtlEn ∧
            t.toMach.fld Reg.sealCtl F.sealCtlKey = fget v F.sealCtlKey ∧ t.ledger.eff = m.ledger.eff ∧
            t.ledger.pend = m.ledger.pend ++ [.reg Reg.sealCtl (fmask F.sealCtlEn) v]) ∧
        (fbit v F.sealCtlEn = true → m.reg Reg.sealRsize = 0 → err (.sealCtlWrite w 0 v) 4) ∧
        (∀ i : Fin 3, 1 ≤ i.val →
          (¬ off0 → err (.sealCtlWrite w i v) 2) ∧
          (let base := if i.val = 1 then v.toNat % 2 ^ 32 / 4096 * 4096 else (m.reg Reg.sealRbase).toNat
           let pages := if i.val = 1 then (m.reg Reg.sealRsize).toNat else v.toNat % 2 ^ 20
           off0 → (pages = 0 ∨ 64 ≤ pages) → base + pages * 4096 ≤ memWords → m.rollOverlap base pages = false →
            ∃ t, exec (.sealCtlWrite w i v) s = .next t ∧ t.toMach.reg Reg.sealErr = 0 ∧ t.ledger.eff = m.ledger.eff ∧
              t.ledger.pend.length = m.ledger.pend.length + 1)))) ∧
    (m.ledgerBarred = true → (w.house = true → err (.sealTailWrite w v) 5) ∧
      (w.sr = true → ∀ i, err (.sealCtlWrite w i v) 5)) ∧
    (w.house = false → exec (.sealTailWrite w v) s = .next s) ∧ (w.sr = false → ∀ i, exec (.sealCtlWrite w i v) s = .next s)

/-- ACCN and DOOR (R124, R125, R179) once the operand `x`, the words at its block and the checks of the stores to it pass as the
hypotheses say, on the states they name: ACCN hands its item to the merge and holds its seat, and completes with its answer in
the block and on the stack; DOOR queues its job as ready, or pushes the code that says why not. -/
def Obligations.AccnAndDoor : Prop :=
  ∀ (s : State) (q : SeatId) (m n n1 n2 n3 n4 n5 : Mach) (x : Word) (w body rest : List Word) (p4 p5 p6 : Nat × Bool),
    let a := s.toMach.arch q.val
    let va := x.toNat % 2 ^ 40
    let at_ := fun (k : Nat) => (va + k) % 2 ^ 40
    a.ds = x :: rest → a.stackFault false 1 1 = none → rest.length ≤ 15 →
    (CanRun s q.val 1 m → (s.toMach.seat q.val).stores = [] → a.wld ≤ 1 → peekTop q.val (m.closeGroup q.val) = .ok (x, n) →
      loadN q.val a.wld va 4 n = .ok (w, n1) →
      loadN q.val a.wld ((w.getD 3 0).toNat % 2 ^ 40)
        (if 248 < (w.getD 0 0).toNat % 256 then 0 else (w.getD 0 0).toNat % 256) n1 = .ok (body, n2) →
      storeOk q.val a.wld (at_ 4) .store n2 = .ok (p4, n3) → storeOk q.val a.wld (at_ 5) .store n3 = .ok (p5, n4) →
      storeOk q.val a.wld (at_ 6) .store n4 = .ok (p6, n5) → n5.accnTurned a.ten = none →
      ∃ t, exec (.accn q) s = .next t ∧ (t.toMach.seat q.val).accn = some none ∧ (t.toMach.arch q.val).pc = a.pc ∧
        t.merge.length = n5.merge.length + 1 ∧
        ∃ i ∈ t.merge, i.item = accnItem w body ∧ i.orig = true ∧ i.seat = q.val ∧ i.ten = a.ten ∧ i.stamp = n5.rt) ∧
    (∀ st d k y, (s.toMach.seat q.val).accn = some (some (st, d, k)) → s.toMach.up = true →
      s.toMach.seatState q.val = 1 ∨ s.toMach.seatState q.val = 2 → (∀ z, a.fp = some z → z.2 < 16) →
      y = s.toMach.setSeat q.val { s.toMach.seat q.val with accn := none } → popN q.val 1 y = .ok ([x], n) →
      let r := accnAnswer st d k
      storeAt q.val a.wld (at_ 4) .store (r.getD 0 0) n = .ok ((), n1) →
      storeAt q.val a.wld (at_ 5) .store (r.getD 1 0) n1 = .ok ((), n2) →
      storeAt q.val a.wld (at_ 6) .store (r.getD 2 0) n2 = .ok ((), n3) →
      ∃ t, exec (.accnComplete q) s = .next t ∧ (t.toMach.seat q.val).accn = none ∧
        InLine a (t.toMach.arch q.val) 1 (r.getD 0 0 :: rest) a.rs [dspIs a (a.ptr false)]) ∧
    (∀ j0 j1, CanRun s q.val 1 m → (s.toMach.seat q.val).stores = [] → popN q.val 1 m = .ok ([x], n) →
      loadAt q.val a.wld va n = .ok (j0, n1) → loadAt q.val a.wld (at_ 1) n1 = .ok (j1, n2) →
      storeOk q.val a.wld (at_ 2) .store n2 = .ok (p4, n3) →
      let r := n3.door a.ten a.pid (srLevel a.wld) va j0 j1
      (r.1 ≠ 0 → ∃ t, exec (.door q) s = .next t ∧ t.jobs = n3.jobs ∧
        InLine a (t.toMach.arch q.val) 1 (w48 r.1 :: rest) a.rs [dspIs a (a.ptr false)]) ∧
      (r.1 = 0 → storePut q.val a.wld p4.1 p4.2 .store (j2Word 1 (j0.toNat % 2 ^ 40)) r.2 = .ok ((), n4) →
        ∃ t c j, exec (.door q) s = .next t ∧ InLine a (t.toMach.arch q.val) 1 (0 :: rest) a.rs [dspIs a (a.ptr false)] ∧
          tmem n3.jobs c = false ∧ t.toMach.job c = some j ∧ j.st = .ready ∧ j.blk = va ∧ j.tag = j1 ∧ j.slip = j0.toNat % 2 ^ 40 ∧
          j.ten = a.ten ∧ n3.carOf a.ten a.pid (srLevel a.wld) = some j.carrel ∧ j.gen = n3.carGen j.carrel))

/-! ### Twin operation -/

/-- The twin link and the two heartbeat paths (R131 to R137, R147, R148): the link, its authentication and its key; one heartbeat
a folio on each path; a valid one restores its path and shows the twin, an invalid one and a message of a reserved code are counted
and otherwise ignored, more than 16 in a folio that fail authentication take the link down, and one of a higher epoch from a
twin that serves sends this module to SYNCING; silence, a late heartbeat and a link loss lose the path; TWIN_ALIVE_IN is shown.
-/
def Obligations.TwinPaths : Prop :=
  ∀ (s : State) (pk proof : List Octet) (x : TwinHead) (h : Heartbeat) (bits : BitVec 72) (b : Bool),
    let m := s.toMach
    let f := folioOf m.rt
    let code := nbits x.head.toNat 47 40
    let linkErr := fun (t : State) => t.toMach.reg Reg.twnLinkerr = w48 ((m.reg Reg.twnLinkerr).toNat + 1)
    let shows := fun (t : State) (y : Heartbeat) => t.toMach.fld Reg.twnStat F.twnStatPeerrole = y.role ∧
      t.toMach.reg Reg.twnPeerepoch = w48 y.epoch
    (m.up = true → m.committed = true → m.pins.tripped = false →
      exec .twinLinkUp s = .next { s with twin := { m.twin with linkUp := true } }) ∧
    (m.twin.linkUp = true →
      ∃ t, exec .twinLinkDown s = .next t ∧ t.twin.linkUp = false ∧ t.twin.authed = false ∧ t.toMach.pathA = false) ∧
    (m.up = true → m.twin.linkUp = true → m.twin.authed = false →
      (m.twinNamed pk = true → Config.twinProof pk proof = true →
        exec (.twinAuth (pk, proof)) s = .next { s with
          twin := { m.twin with authed := true, pk := pk, keyNo := m.twin.keyNo + 1, keyMsgs := 0 } }) ∧
      (m.twinNamed pk = false ∨ Config.twinProof pk proof = false → exec (.twinAuth (pk, proof)) s = .next s)) ∧
    (m.twinOpen = true →
      (2 ^ 30 ≤ m.twin.keyMsgs →
        exec .twinKeyRenew s = .next { s with twin := { m.twin with keyNo := m.twin.keyNo + 1, keyMsgs := 0 } }) ∧
      (m.twin.keyMsgs < 2 ^ 30 → exec .twinKeyRenew s = .next s) ∧
      (m.aliveOut = true → m.twin.hbFolio ≠ some f →
        ∃ t, exec .heartbeatSend s = .next t ∧ t.twin.hbFolio = some f ∧
          t.sent = .msg (.heartbeat { role := m.role, epoch := m.shownEpoch, folio := f, health := m.healthBits
                                      serial := Config.serial.toNat, rt := m.rt }) :: s.sent) ∧
      (m.twin.hbFolio = some f → exec .heartbeatSend s = .next s) ∧
      (x.auth = true → code = 1 → hbValid h.role h.folio f = true →
        ∃ t, exec (.heartbeat x h) s = .next t ∧ t.twin.lastA = m.now ∧ t.toMach.pathA = true ∧ shows t h ∧
          (m.epoch < h.epoch → m.twin.pending = none → m.role = 1 ∨ m.role = 2 ∨ m.role = 3 →
            t.toMach.role = if (h.role = 1 ∨ h.role = 2) ∧ m.twin.barred = false then 4 else 5)) ∧
      (x.auth = true → (code = 1 ∧ hbValid h.role h.folio f = false) ∨ twinCodes.contains code = false →
        ∃ t, exec (.heartbeat x h) s = .next t ∧ linkErr t ∧ t.twin = m.twin) ∧
      (x.auth = false → ∃ t, exec (.heartbeat x h) s = .next t ∧ linkErr t ∧
        (m.twin.linkErrFolio = f → 16 ≤ m.twin.linkErrs → t.twin.linkUp = false ∧ t.twin.authed = false))) ∧
    (m.aliveOut = true → 1008 ≤ m.rt % 4096 → m.rt % 4096 ≤ 1040 → m.twin.pulseFolio ≠ some f →
      ∃ t, exec .pulseFrameSend s = .next t ∧ t.twin.pulseFolio = some f ∧
        t.sent = .pulse (pulseBits m.role m.shownEpoch f m.healthBits) :: s.sent) ∧
    (m.up = true →
      (m.pins.sba = true →
        (∀ y, pulseRead bits.toNat = some y → 1 ≤ y.role → y.role ≤ 5 →
          (y.folio + 65536 - f % 65536) % 65536 ∈ [0, 1, 65535] →
          ∃ t, exec (.pulseFrame bits) s = .next t ∧ t.twin.lastB = m.now ∧ t.toMach.pathB = true ∧ shows t y) ∧
        (pulseRead bits.toNat = none →
          ∃ t, exec (.pulseFrame bits) s = .next t ∧ t.toMach.reg Reg.twnPulseerr = w48 ((m.reg Reg.twnPulseerr).toNat + 1) ∧
            t.twin = m.twin) ∧
        (∃ t, exec .twinAliveInLow s = .next t ∧ t.pins.aliveIn = false ∧ t.toMach.aliveIn = false) ∧
        (∃ t, exec .twinAliveInHigh s = .next t ∧ t.pins.aliveIn = true ∧ t.toMach.aliveIn = true)) ∧
      (∃ t, exec .pulseInSilence s = .next t ∧ t.toMach.pathB = false) ∧
      ((if b then m.twin.lastB else m.twin.lastA) + 8192 ≤ m.now →
        ∃ t, exec (.heartbeatTimeout b) s = .next t ∧ (if b then t.toMach.pathB else t.toMach.pathA) = false) ∧
      (m.twin.loopFailed = false →
        ∃ t, exec .loopbackFail s = .next t ∧ t.twin.loopFailed = true ∧ t.twin.latch = true ∧ t.twin.barred = true ∧
          t.toMach.aliveOut = false))

/-- The shipment (R139, R141 to R146, R157, R172): the source ships its oldest closed folio, its lines within the budget (log 119);
the holder gathers FOLIO-BEGIN, RECORDS and STATE, copies lines, and at FOLIO-END holds the folio and acknowledges it, or asks for it
again, as it does for a shipment whose end is missing and for a folio after one that failed (log 120); a third failed check ends a
copy; an acknowledgement covers the earlier folios and renews the lease, a redo makes the folio ship again; seals that pass their
checks are appended. -/
def Obligations.Shipments : Prop :=
  ∀ (s : State) (hd : TwinHead) (x : Ship) (h : HoldShip) (e : FolioEndMsg) (l : Ledger) (n off f k : Nat) (ws : List Word)
    (cs : List Cont),
    let m := s.toMach
    let code := nbits hd.head.toNat 47 40
    let left := x.left.getD x.lines
    m.twinOpen = true → hd.auth = true → (∀ y ∈ m.seats, ∀ i, y.2.dirtyOf i = none) →
    (m.serving = true → m.twin.shipping = true → m.twin.ships.find? (fun y => y.doneAt.isNone) = some x →
      ∃ t, exec .folioShipment s = .next t ∧
        (x.left = none → .msg (.folioBegin x.folio m.epoch x.mask) ∈ t.sent ∧ .msg (.state x.state) ∈ t.sent) ∧
        (left.length ≤ m.lineRoom →
          .msg (.folioEnd { folio := x.folio, counts := x.parts.map fun p => (p.1, p.2.2.1)
                            roots := x.parts.map fun p => (p.1, p.2.2.2), enabled := x.mask, rtValid := x.rtValid }) ∈ t.sent ∧
          ∀ y ∈ t.twin.ships, y.folio = x.folio → y.doneAt = some m.now) ∧
        (m.lineRoom < left.length → ∀ y ∈ t.twin.ships, y.folio = x.folio → y.left = some (left.drop m.lineRoom))) ∧
    (m.holding = true →
      (code = 2 → ∃ t, exec (.folioBegin (hd, f) k n) s = .next t ∧ t.mem = m.mem ∧
        (m.twin.hold = none ∨ m.role = 3 →
          t.twin.hold = some { folio := f, epoch := k, mask := n, recs := [], state := none }) ∧
        (m.twin.hold = some h → ∃ c, .msg (.folioRedo h.folio c) ∈ t.sent)) ∧
      (m.twin.hold = some h →
        (code = 3 → n < 16 → off + ws.length ≤ m.ringWords n → (∀ i < ws.length, m.srAddr (m.ringAddr n off + i) = false) →
          ∃ t, exec (.recordsMsg (hd, n) off ws) s = .next t ∧
            t.twin.hold = some { h with recs := h.recs ++ [(n, off, ws)] } ∧
            (∀ i < ws.length, t.toMach.word (m.ringAddr n off + i) = ws.getD i 0) ∧
            ∀ a, (a < m.ringAddr n off ∨ m.ringAddr n off + ws.length ≤ a) → t.toMach.cont a = m.cont a) ∧
        (code = 4 → ∃ t, exec (.stateMsg (hd, l)) s = .next t ∧ t.twin.hold = some { h with state := some l } ∧ t.ledger = m.ledger) ∧
        (code = 6 → h.epoch = m.epoch → h.state = some l → h.folio < 2 ^ 52 → (∀ y ∈ m.twin.fails, h.folio ≤ y.1) →
          (shipmentGood h e = true → m.ackf < h.folio →
            ∃ t, exec (.folioEnd hd e) s = .next t ∧ t.toMach.ackf = h.folio ∧ t.twin.hold = none ∧
              .msg (.folioAck h.folio m.epoch) ∈ t.sent) ∧
          (¬ (shipmentGood h e = true ∧ m.ackf < h.folio) →
            (m.role = 3 → ∃ t c, exec (.folioEnd hd e) s = .next t ∧ t.toMach.ackf = m.ackf ∧ t.twin.hold = none ∧
              t.sent = .msg (.folioRedo e.folio c) :: s.sent ∧ t.ledger = m.ledger) ∧
            (m.role = 4 → 2 ≤ tabGet (fun _ => 0) m.twin.fails e.folio →
              ∃ t, exec (.folioEnd hd e) s = .next t ∧ t.toMach.syncPhase = 0 ∧ t.toMach.epoch = 0 ∧
                t.toMach.bit Reg.twnAlarm F.twnAlarmSyncfail = true))) ∧
        (code = 6 → h.epoch = m.epoch → (∃ y ∈ m.twin.fails, y.1 < h.folio) →
          ∃ t c, exec (.folioEnd hd e) s = .next t ∧ t.toMach.ackf = m.ackf ∧ t.twin.hold = none ∧
            t.twin.fails = m.twin.fails ∧ t.sent = .msg (.folioRedo h.folio c) :: s.sent)) ∧
      (code = 9 → m.sealGood m.twin.pk ws = true →
        ∃ t, exec (.seals (hd, [ws])) s = .next t ∧ t.toMach.reg Reg.sealLastno = ws.getD 5 0 ∧
          t.toMach.reg Reg.sealVerified = w48 ((m.reg Reg.sealVerified).toNat + 1)) ∧
      (code = 9 → m.sealGood m.twin.pk ws = false → (m.reg Reg.sealLastno).toNat < (ws.getD 5 0).toNat →
        ∃ t, exec (.seals (hd, [ws])) s = .next t ∧ t.mem = m.mem ∧
          t.toMach.reg Reg.sealVerfail = w48 ((m.reg Reg.sealVerfail).toNat + 1))) ∧
    (code = 5 → m.role = 3 ∨ m.role = 4 → off % 64 = 0 → cs.length = 64 → off + 64 ≤ memWords → m.srAddr off = false →
      ∃ t, exec (.linesMsg (hd, off) cs) s = .next t ∧
        (∀ i c, cs[i]? = some c → t.toMach.cont (off + i) = { c with chg := (m.cont (off + i)).chg }) ∧
        ∀ a, (a < off ∨ off + 64 ≤ a) → t.toMach.cont a = m.cont a) ∧
    (code = 7 → m.serving = true → m.ackf < f → f < 2 ^ 52 → (∃ y ∈ m.twin.ships, y.folio = f ∧ y.doneAt.isSome = true) →
      ∃ t, exec (.folioAck (hd, f) m.epoch) s = .next t ∧ t.toMach.ackf = f ∧
        t.twin.ships = m.twin.ships.filter (fun y => f < y.folio) ∧
        (m.role = 1 ∨ m.twin.pending.isSome = true → t.twin.leaseEnd = m.now + 32768)) ∧
    (code = 8 → m.serving = true →
      ∃ t, exec (.folioRedo (hd, f) k) s = .next t ∧ t.twin.ships = m.twin.ships.map fun y =>
        if y.folio = f ∧ y.doneAt.isSome = true then { y with doneAt := none, left := none } else y)

/-- Roles (R31, R34, R137 to R140, R148 to R151, R156, R158, R160): a late acknowledgement makes an ACTIVE a SOLO with a new epoch,
pending while the twin's line is high; an expired lease, both paths lost for 6 folios and a written FENCE fence; both lost for 4
folios promotes a STANDBY, and an ACTIVE whose twin is gone; INIT is taken in the charter only; a SOLO whose copy is complete
becomes ACTIVE and no tenant stays in mode SOLO. -/
def Obligations.RoleChanges : Prop :=
  ∀ (s : State) (w : Who) (v : Word),
    let m := s.toMach
    let fenced := fun (t : State) => t.toMach.role = 5 ∧ t.twin.latch = true ∧ t.toMach.lease = false
    let room := m.sealing.queue.length + (m.openFolio - m.ackf) / 16 + 3 < 1024
    (m.up = true →
      (m.role = 1 → m.twin.latch = false → m.epochLeft = true →
        (∃ y ∈ m.twin.ships, (∃ d, y.doneAt = some d ∧ d + 16384 ≤ m.now) ∨
          (y.doneAt = none ∧ m.twinOpen = false ∧ y.at_ + 16384 ≤ m.now)) →
        (m.aliveIn = true → ∃ t, exec .ackTimeoutSolo s = .next t ∧ t.toMach.role = 2 ∧ t.twin.pending = some m.newEpoch ∧
          t.toMach.lease = false ∧ t.toMach.epoch = m.epoch) ∧
        (m.aliveIn = false → ∃ t, exec .ackTimeoutSolo s = .next t ∧ t.toMach.role = 2 ∧ t.twin.pending = none ∧
          t.toMach.lease = true ∧ t.toMach.epoch = m.newEpoch)) ∧
      ((m.role = 1 ∧ m.lease = true) ∨ (m.role = 2 ∧ m.twin.pending.isSome = true) → m.twin.leaseEnd ≤ m.now →
        ∃ t, exec .leaseExpiry s = .next t ∧ fenced t) ∧
      (m.bothLost = true → 16384 ≤ m.lostTicks →
        (m.role = 3 → m.epochLeft = true → ∃ t, exec .takeoverPromotion s = .next t ∧ t.toMach.epoch = m.newEpoch ∧
          (room → t.toMach.role = 2 ∧ t.toMach.lease = true)) ∧
        (m.role = 3 → m.epochLeft = false → ∃ t, exec .takeoverPromotion s = .next t ∧ fenced t) ∧
        (m.role = 1 → m.aliveIn = false → m.epochLeft = true → ∃ t, exec .takeoverPromotion s = .next t ∧ t.toMach.role = 2 ∧
          t.toMach.epoch = m.newEpoch ∧ t.toMach.lease = true)) ∧
      (m.bothLost = true → 24576 ≤ m.lostTicks → m.role = 1 ∨ (m.role = 2 ∧ m.twin.pending.isSome = true) → ∃ t, exec .lostFence s = .next t ∧ fenced t) ∧
      (m.role = 2 → m.twin.toActive = true →
        ∃ t, exec .soloToActive s = .next t ∧ t.toMach.role = 1 ∧ t.toMach.lease = true ∧ t.twin.leaseEnd = m.now + 32768 ∧
          ∀ n : TenId, t.toMach.mode n.val = (if m.mode n.val = 2 then 0 else m.mode n.val) ∧
            t.toMach.fld (Reg.tenCtl n.val) F.tenCtlDur ≠ 2)) ∧
    (w.sr = true → fbit v F.twnCtlHandreq = false →
      (fbit v F.twnCtlInit = false →
        ∃ t, exec (.twnFence w v) s = .next t ∧ t.twin.latch = true ∧ t.toMach.lease = false ∧
          t.toMach.role = (if m.role = 1 ∨ m.role = 2 ∨ m.role = 3 then 5 else m.role)) ∧
      (fbit v F.twnCtlFence = false →
        (m.phase = 1 → ¬ (m.aliveIn = true ∧ m.fld Reg.twnStat F.twnStatPeerrole ∈ [1, 2]) →
          ∃ t, exec (.twnInit w v) s = .next t ∧ t.toMach.bit Reg.twnCtl F.twnCtlInit = true ∧
            t.toMach.bit Reg.twnAlarm F.twnAlarmSyncfail = false) ∧
        (m.phase = 1 → m.aliveIn = true ∧ m.fld Reg.twnStat F.twnStatPeerrole ∈ [1, 2] →
          ∃ t, exec (.twnInit w v) s = .next t ∧ t.toMach.bit Reg.twnCtl F.twnCtlInit = m.bit Reg.twnCtl F.twnCtlInit ∧
            t.toMach.bit Reg.twnAlarm F.twnAlarmSyncfail = true) ∧
        (m.phase ≠ 1 → ∃ t, exec (.twnInit w v) s = .next t ∧
          t.toMach.bit Reg.twnCtl F.twnCtlInit = m.bit Reg.twnCtl F.twnCtlInit))) ∧
    (w.sr = false → exec (.twnFence w v) s = .next s ∧ exec (.twnInit w v) s = .next s ∧ exec (.handreq w v) s = .next s)

/-- Handover, synchronisation and the mirror map (R144, R153 to R158): how a handover is asked for, agreed, carried out, taken
and aborted; how a SYNCING module passes CHECK, takes SYNC-MARK and the bulk data and becomes STANDBY; a mirror page's mark
pends. -/
def Obligations.HandoverAndSync : Prop :=
  ∀ (s : State) (hd : TwinHead) (w : Who) (v : Word) (n f e r p0 : Nat) (cfg : List Word) (l : Ledger) (a : Nat)
    (cs : List Cont),
    let m := s.toMach
    let code := nbits hd.head.toNat 47 40
    let stage := fun (t : State) => t.toMach.fld Reg.twnStat F.twnStatHandover
    let agreed := fun (t : State) (y : Nat) => t.twin.hoVolume = some y ∧ stage t = 1 ∧ t.sent = .msg (.handoverAck y) :: s.sent
    let room := m.sealing.queue.length + (m.openFolio - m.ackf) / 16 + 3 < 1024
    let phase := fun (t : State) => t.toMach.syncPhase
    (m.twinOpen = true → hd.auth = true →
      (m.role = 1 → stage s = 0 → m.epoch < 0xFFFFFF →
        (w.sr = true → fbit v F.twnCtlInit = false → fbit v F.twnCtlFence = false →
          m.fld Reg.twnStat F.twnStatPeerrole = 3 → ∃ t, exec (.handreq w v) s = .next t ∧ agreed t m.nextHandover) ∧
        (code = 0xA → ∃ t, exec (.handoverReq (hd, n)) s = .next t ∧ agreed t (if m.openFolio < 16 * n then n else m.nextHandover))) ∧
      (m.role = 3 → stage s = 0 →
        (m.bit Reg.twnStat F.twnStatPref = true → (m.reg Reg.twnHoldoff).toNat % 65536 ≤ m.healthySecs → m.healthy = true →
          m.bit Reg.twnCtl F.twnCtlHold = false → m.epoch < 0xFFFFFF →
          ∃ t, exec .handoverStart s = .next t ∧ t.sent = .msg (.handoverReq m.nextHandover) :: s.sent) ∧
        (code = 0xB → ∃ t, exec (.handoverAck (hd, n)) s = .next t ∧ t.twin.hoVolume = some n ∧ t.twin.hoDone = false ∧ stage t = 1)) ∧
      (code = 0xC → m.role = 3 → m.twin.hoVolume = some n → stage s = 1 → f + 1 = 16 * n →
        (m.ackf + 1 < 16 * n → ∃ t, exec (.handoverDone (hd, f) m.epoch) s = .next t ∧ t.twin.hoDone = true ∧ t.toMach.role = 3) ∧
        (16 * n ≤ m.ackf + 1 → m.epoch < 0xFFFFFF →
          ∃ t, exec (.handoverDone (hd, f) m.epoch) s = .next t ∧ t.toMach.epoch = m.epoch + 1 ∧
            .msg (.taken (m.epoch + 1)) ∈ t.sent ∧ (room → t.toMach.role = 1 ∧ t.toMach.lease = true))) ∧
      (code = 0xD → m.role = 1 → m.twin.hoVolume = some n → m.twin.latch = true → stage s = 2 → e < 2 ^ 24 → 1 ≤ n →
        n < 2 ^ 48 → ∃ t, exec (.taken (hd, e)) s = .next t ∧ t.toMach.role = 3 ∧ t.toMach.epoch = e ∧ t.twin.latch = false ∧
          t.toMach.lease = false ∧ t.toMach.bit Reg.twnStat F.twnStatSynced = true ∧ t.toMach.ackf = 16 * n - 1 ∧ stage t = 0) ∧
      (code = 0xE → m.role = 1 → m.twin.hoVolume = some n →
        ∃ t, exec (.abortMsg (hd, n)) s = .next t ∧ t.twin.hoVolume = none ∧ stage t = 0 ∧ t.toMach.role = 1 ∧
          (stage s = 2 → t.twin.latch = false)) ∧
      (m.serving = true → ∃ t, exec .syncReq s = .next t ∧ t.twin.syncReq = true ∧ t.twin.ships = [] ∧ t.twin.shipping = false) ∧
      (code = 0x11 → m.role = 4 → 1 ≤ m.syncPhase → e < 2 ^ 24 →
        ∃ t, exec (.syncMark (hd, f) e r) s = .next t ∧ t.twin.syncFolio = f ∧ t.toMach.epoch = e ∧ phase t = 2 ∧
          t.toMach.bit Reg.twnAlarm F.twnAlarmSyncfail = false) ∧
      (code = 0x10 → m.role = 4 → m.syncPhase = 2 ∨ m.syncPhase = 3 →
        (0 < r → r < 2 ^ 24 →
          (∃ t, exec (.syncBulk (hd, .ledger l) r) s = .next t ∧ t.ledger.sessions = l.sessions ∧ t.ledger.mirror = l.mirror ∧
            t.ledger.confirmed = l.confirmed) ∧
          (∃ t, exec (.syncBulk (hd, .roll f n e p0) r) s = .next t ∧ t.sealing.prev = p0 ∧ t.toMach.reg Reg.sealHead = w48 f ∧
            t.toMach.reg Reg.sealLastv = w48 n ∧ t.toMach.reg Reg.sealLastno = w48 e)) ∧
        (m.twin.syncFolio < 2 ^ 52 →
          ∃ t, exec (.syncBulk (hd, .words a cs) 0) s = .next t ∧ phase t = 3 ∧ t.toMach.ackf = m.twin.syncFolio))) ∧
    (m.up = true →
      (m.twin.hoVolume = some n → m.role = 1 → stage s = 1 → 16 * n ≤ folioOf m.rt → 16 * n ≤ m.openFolio + 1 →
        m.sealing.queue.length + m.closing.length + 1 < 1024 →
        ∃ t, exec .handoverQuiesce s = .next t ∧ t.twin.latch = true ∧ stage t = 2 ∧
          (∀ k, (t.toMach.live k).conn = none) ∧ (∀ i ∈ t.merge, folioOf i.stamp < 16 * n) ∧
          (m.twinOpen = true → m.twin.hoDone = false → 16 * n = m.openFolio → m.closing = [] →
            (∀ y ∈ m.twin.ships, y.doneAt.isSome = true) →
            t.sent.head? = some (.msg (.handoverDone (16 * n - 1) m.epoch)))) ∧
      (m.twin.hoVolume = some n → m.role = 3 → stage s = 1 → m.twin.hoDone = false → 16 * n * 4096 + 16384 ≤ m.rt →
        ∃ t, exec .handoverAbortTimeout s = .next t ∧ t.twin.hoVolume = none ∧ stage t = 0 ∧
          (m.twin.linkUp = true → m.twin.authed = true → t.sent = .msg (.abort n) :: s.sent)) ∧
      (m.role = 4 → m.syncPhase = 4 → 65 ≤ m.twin.syncBounds → m.twin.barred = false →
        ∃ t, exec .syncComplete s = .next t ∧ t.toMach.role = 3 ∧ phase t = 4 ∧ t.twin.latch = false ∧
          t.toMach.bit Reg.twnStat F.twnStatSynced = m.bit Reg.twnStat F.twnStatSynced)) ∧
    (m.role = 4 → m.syncPhase = 1 →
      let sk := sgn 32 (m.reg Reg.twnSkew).toNat
      let pass := m.twinOpen = true ∧ m.rtValid = true ∧ m.twin.peerValid = true ∧ -64 ≤ sk ∧ sk ≤ 64 ∧ cfg = m.syncConfig
      (pass → ∃ t, exec (.syncCheckPass cfg) s = .next t ∧ phase t = 2 ∧ t.sent = .msg .syncReq :: s.sent) ∧
      (¬ pass → ∃ t, exec (.syncCheckPass cfg) s = .next t ∧ phase t = 0 ∧ t.toMach.epoch = 0 ∧
        t.toMach.bit Reg.twnAlarm F.twnAlarmSyncfail = true)) ∧
    (let p := fget v F.twnMirpagePage
     let set := fbit v F.twnMirpageSet
     (w.house = true → m.ledgerBarred = false → m.mirOverlap p = false →
      (set = true → p ∈ m.mirrorWritten ∨ m.mirrorWritten.length < 262144) →
      ∃ t, exec (.twnMirpageWrite w v) s = .next t ∧ t.toMach.fld Reg.twnMirstat F.twnMirstatErr = 0 ∧
        t.ledger = { m.ledger with pend := m.ledger.pend ++ [.mirPage p set] }) ∧
     (w.house = true → m.ledgerBarred = false → m.mirOverlap p = true →
      ∃ t, exec (.twnMirpageWrite w v) s = .next t ∧ t.toMach.fld Reg.twnMirstat F.twnMirstatErr = 2 ∧ t.ledger = m.ledger) ∧
     (w.house = false → exec (.twnMirpageWrite w v) s = .next s))

/-! ### Clerks, tenants and engines -/

/-- The commands that run a slip on engine `e`. -/
def slipCommands (e : EngId) : List Instr :=
  [.slipNop e, .slipMove e, .slipFill e, .slipSend e, .sendRaw e, .await e, .pack e, .unpack e, .crypt e, .hash e, .waitbell e,
   .waitfolio e, .waitrt e, .slipTest e, .jump e, .jumpif e, .post e, .lock e, .unlock e, .slipNote e, .slipStop e,
   .slipReservedOpcode e]

/-- Slips that move nothing, and what ends a job (R183, R186, R194, R196, R197, R213): NOP; TEST without a step sets CC; JUMP and
JUMPIF branch; STOP ends the job OK with its operand as count; a reserved opcode and a flag that a command does not define end it
BADSLIP; a slip word that cannot be fetched ends it with the fetch's status, and a job of an old generation is dropped. -/
def Obligations.SlipControl : Prop :=
  ∀ (s : State) (e : EngId) (x : Nat) (j : Job) (w : Word) (l : List Word),
    let m := s.toMach
    let slips := fun (t : State) => t.toMach.reg (Reg.ceSlips e.val) = w48 ((m.reg (Reg.ceSlips e.val)).toNat + 1)
    (AtSlip m e.val x j w 0 [] →
      (slipFlags w = 0 → slipOperand w = 0 →
        ∃ t, exec (.slipNop e) s = .next t ∧ GoesOn t e.val x j (j.slip + 1) false ∧ slips t ∧
          (nbit w.toNat 38 = false → t.mem = m.mem)) ∧
      (slipFlags w ≠ 0 → ∃ t, exec (.slipNop e) s = .next t ∧ EndsWith t e.val x (j2Word 2 j.slip) (j3Word 1 0))) ∧
    (AtSlip m e.val x j w 0xC l → l.length = 3 → slipFlags w = 0 → slipOperand w < 0x40000 → slipOperand w % 65536 = 0 →
      ∀ a v, slipAddr true (l.getD 0 0) = .ok (0, a) → m.carRead j.carrel j.sr a = .ok v →
        ∃ t, exec (.slipTest e) s = .next t ∧
          GoesOn t e.val x { j with cc := testRel (slipOperand w / 65536) (v &&& l.getD 1 0).toNat (l.getD 2 0).toNat }
            (j.slip + 4) j.err) ∧
    (AtSlip m e.val x j w 0xD [] → slipFlags w = 0 →
      ∃ t, exec (.jump e) s = .next t ∧ GoesOn t e.val x j (unsgn 40 (j.slip + sgn 32 (slipOperand w))) j.err) ∧
    (AtSlip m e.val x j w 0xE [] → slipFlags w % 16 = 0 → slipOperand w < 2 ^ 24 →
      let holds := match slipFlags w / 16 with
        | 0 => j.cc
        | 1 => !j.cc
        | 2 => j.err
        | _ => !j.err
      ∃ t, exec (.jumpif e) s = .next t ∧
        GoesOn t e.val x j (if holds then unsgn 40 (j.slip + sgn 24 (slipOperand w)) else j.slip + 1) j.err) ∧
    (AtSlip m e.val x j w 0x13 [] → slipFlags w = 0 →
      ∃ t, exec (.slipStop e) s = .next t ∧ EndsWith t e.val x (j2Word 0 j.slip) (j3Word 0 (slipOperand w)) ∧ slips t) ∧
    (0x14 ≤ slipOp w → AtSlip m e.val x j w (slipOp w) [] →
      ∃ t, exec (.slipReservedOpcode e) s = .next t ∧ EndsWith t e.val x (j2Word 2 j.slip) (j3Word 0 0)) ∧
    (m.up = true → (m.engine e.val).job = some x → m.engineOf x = some e.val → m.job x = some j → j.st = .running →
      j.ten < 16 → j.carrel < 4096 →
      ∀ c ∈ slipCommands e,
        (m.stale j = true → ∃ t, exec c s = .next t ∧ t.toMach.job x = none ∧ (t.toMach.engine e.val).job = none ∧
          t.mem = m.mem ∧ t.toMach.reg (Reg.carDropped j.carrel) = w48 ((m.reg (Reg.carDropped j.carrel)).toNat + 1)) ∧
        (∀ r, m.stale j = false → m.carRead j.carrel j.sr j.slip = .error r →
          ∃ t, exec c s = .next t ∧ EndsWith t e.val x (j2Word r.1 j.slip) (j3Word r.2 0)))

/-- Slips that move data (R187, R194, R195, R216): MOVE and FILL of one word and of many, POST, TEST with a step, LOCK and UNLOCK
write what they say through the carrel's translation, with the carrel's key and the change bit kept, and, outside a marked-page log,
nothing else; a LOCK on a word
that is not 0 waits and tries again, and an UNLOCK of another's lock ends NOTOWNER. -/
def Obligations.SlipData : Prop :=
  ∀ (s : State) (e : EngId) (c : CtxId) (x : Nat) (j : Job) (w : Word) (l : List Word) (v : Word) (a b p n k : Nat),
    let m := s.toMach
    let plain := nbit w.toNat 38 = false ∧ m.bit (Reg.tenMplctl j.ten) F.tenMplctlEn = false ∧ NoCopies m
    let put := fun (t : State) (u : Word) => plain → WritesOne m t.toMach p (m.carCont j.carrel j.sr p u)
    let lands := m.carPhys j.carrel j.sr b true = .ok p ∧ m.srAddr p = false ∧
      ∀ u, ((m.engPut p (m.carCont j.carrel j.sr p u)).markAll j.sr j.ten [b]).1 = false
    (AtSlip m e.val x j w 1 l → l.length = 4 → slipFlags w = 0 → slipOperand w = 0 →
      (slipExtent true (l.getD 0 0) (l.getD 1 0) = .ok (0, a, 1) → slipExtent true (l.getD 2 0) (l.getD 3 0) = .ok (0, b, k) →
        1 ≤ k → m.carRead j.carrel j.sr a = .ok v → lands →
        ∃ t, exec (.slipMove e) s = .next t ∧ GoesOn t e.val x j (j.slip + 5) false ∧ put t v) ∧
      (∀ y z as m1 m2, slipExtent true (l.getD 0 0) (l.getD 1 0) = .ok (y, a, n) →
        slipExtent true (l.getD 2 0) (l.getD 3 0) = .ok (z, b, k) → n ≤ k →
        moveLoop s.snap j (y, a) (z, b) (!(y = z && a < b && b < a + n)) n n [] m = (n, none, as, m1) →
        m1.slipMark j z as.reverse = (none, m2) → m2.job x = some j → (m2.engine e.val).job = some x →
        ∃ t, exec (.slipMove e) s = .next t ∧ GoesOn t e.val x j (j.slip + 5) false) ∧
      (∀ y z, slipExtent true (l.getD 0 0) (l.getD 1 0) = .ok (y, a, n) →
        slipExtent true (l.getD 2 0) (l.getD 3 0) = .ok (z, b, k) → k < n →
        ∃ t, exec (.slipMove e) s = .next t ∧ EndsWith t e.val x (j2Word 2 j.slip) (j3Word 4 0))) ∧
    (AtSlip m e.val x j w 2 l → l.length = 3 → slipFlags w = 0 → slipOperand w = 0 →
      (slipExtent true (l.getD 1 0) (l.getD 2 0) = .ok (0, b, 1) → lands →
        ∃ t, exec (.slipFill e) s = .next t ∧ GoesOn t e.val x j (j.slip + 4) false ∧ put t (l.getD 0 0)) ∧
      (∀ z as m1 m2, slipExtent true (l.getD 1 0) (l.getD 2 0) = .ok (z, b, n) →
        fillLoop j (l.getD 0 0) z b n n [] m = (n, none, as, m1) → m1.slipMark j z as.reverse = (none, m2) →
        m2.job x = some j → (m2.engine e.val).job = some x →
        ∃ t, exec (.slipFill e) s = .next t ∧ GoesOn t e.val x j (j.slip + 4) false)) ∧
    (AtSlip m e.val x j w 0xF l → slipOperand w = 0 → slipAddr true (l.getD 0 0) = .ok (0, b) →
      (slipFlags w = 0 → l.length = 2 → lands →
        ∃ t, exec (.post e) s = .next t ∧ GoesOn t e.val x j (j.slip + 3) false ∧ put t (l.getD 1 0)) ∧
      (slipFlags w = 32 → l.length = 1 → ∀ j2 j3 as m1 m2, m.carReadN j.carrel j.sr (j.blk + 2) 2 = .ok [j2, j3] →
        postLoop j 0 [j2, j3] b [] m = (2, none, as, m1) → m1.slipMark j 0 as.reverse = (none, m2) →
        m2.job x = some j → (m2.engine e.val).job = some x →
        ∃ t, exec (.post e) s = .next t ∧ GoesOn t e.val x j (j.slip + 2) false)) ∧
    (AtSlip m e.val x j w 0xC l → l.length = 3 → slipFlags w = 0 → slipOperand w < 0x40000 → slipOperand w % 65536 ≠ 0 →
      slipAddr true (l.getD 0 0) = .ok (0, b) → m.carRead j.carrel j.sr b = .ok v → lands →
      let u := w48 ((v.toNat : Int) + sgn 16 (slipOperand w % 65536) + 2 ^ 48).toNat
      ∃ t, exec (.slipTest e) s = .next t ∧ put t u ∧
        GoesOn t e.val x { j with cc := testRel (slipOperand w / 65536) (u &&& l.getD 1 0).toNat (l.getD 2 0).toNat }
          (j.slip + 4) j.err) ∧
    (l.length = 1 → slipFlags w = 0 → slipAddr false (l.getD 0 0) = .ok (0, b) → m.carRead j.carrel j.sr b = .ok v →
      (AtSlip m e.val x j w 0x10 l → slipOperand w < 65536 →
        (v = 0 → lands → ∃ t, exec (.lock e) s = .next t ∧ GoesOn t e.val x j (j.slip + 2) false ∧ put t j.lockTag) ∧
        (v ≠ 0 → ∃ t, exec (.lock e) s = .next t ∧ t.mem = m.mem ∧
          WaitsFor t e.val x j (.lock b) (j.deadline.or (if slipOperand w = 0 then none else some (m.now + 4096 * slipOperand w))))) ∧
      (AtSlip m e.val x j w 0x11 l → slipOperand w = 0 →
        (v = j.lockTag → lands → ∃ t, exec (.unlock e) s = .next t ∧ GoesOn t e.val x j (j.slip + 2) false ∧ put t 0) ∧
        (v ≠ j.lockTag → nbit w.toNat 39 = false →
          ∃ t, exec (.unlock e) s = .next t ∧ EndsWith t e.val x (j2Word 0xB j.slip) (j3Word 0 0)) ∧
        (v ≠ j.lockTag → nbit w.toNat 39 = true →
          ∃ t, exec (.unlock e) s = .next t ∧ GoesOn t e.val x j (j.slip + 2) true ∧ (plain → t.mem = m.mem)))) ∧
    (m.up = true → m.job c.val = some j → j.st = .waiting → j.wait = .lock b → m.carRead j.carrel j.sr b = .ok v →
      m.stale j = false → Steady m →
      (v = 0 → lands → ∃ t, exec (.lockRetry c) s = .next t ∧ WokenWith t.toMach c.val 0 0 0 ∧
        (m.bit (Reg.tenMplctl j.ten) F.tenMplctlEn = false → NoCopies m →
          WritesOne m t.toMach p (m.carCont j.carrel j.sr p j.lockTag))) ∧
      (v ≠ 0 → exec (.lockRetry c) s = .next s))

/-- Slips that wait (R192 to R197): WAITBELL, WAITFOLIO, WAITRT and AWAIT leave the engine until what they wait for holds, or end
at once where it holds already; a wake makes a job ready, a timeout ends its slip TIMEOUT; NOTE delivers its completion entry and
goes on, or waits for room. -/
def Obligations.SlipWaits : Prop :=
  ∀ (s : State) (e : EngId) (c : CtxId) (x : Nat) (j : Job) (w : Word) (l : List Word) (d : Nat),
    let m := s.toMach
    let sets := fun (wt : Wait) => { j with wait := wt }
    let waits := fun (i : Instr) (n : Nat) (wt : Wait) =>
      (m.waitHolds (sets wt) = true → ∃ t, exec i s = .next t ∧ GoesOn t e.val x j (j.slip + 1 + n) false) ∧
      (m.waitHolds (sets wt) = false → ∃ t, exec i s = .next t ∧ WaitsFor t e.val x j wt j.deadline)
    (AtSlip m e.val x j w 9 [] → slipFlags w = 0 → slipOperand w < 1024 →
      let b := m.ebell (slipOperand w)
      (fget b.act F.bellActOwner = j.ten → fbit b.act F.bellActArm = true →
        ∃ t, exec (.waitbell e) s = .next t ∧ WaitsFor t e.val x j (.bell (slipOperand w)) j.deadline) ∧
      (fget b.act F.bellActOwner ≠ j.ten → nbit w.toNat 39 = false →
        ∃ t, exec (.waitbell e) s = .next t ∧ EndsWith t e.val x (j2Word 3 j.slip) (j3Word 0 0)) ∧
      (fget b.act F.bellActOwner = j.ten → fbit b.act F.bellActArm = false → nbit w.toNat 39 = false →
        ∃ t, exec (.waitbell e) s = .next t ∧ EndsWith t e.val x (j2Word 0xA j.slip) (j3Word 0 0))) ∧
    (AtSlip m e.val x j w 0xA [] → slipFlags w = 0 → slipOperand w ≠ 0 →
      ∃ t, exec (.waitfolio e) s = .next t ∧ WaitsFor t e.val x j (.folioN (m.openFolio + slipOperand w)) j.deadline) ∧
    (AtSlip m e.val x j w 0xA l → l.length = 2 → slipOperand w = 0 → slipFlags w % 16 = 0 → slipFlags w ≠ 0 →
      (l.getD 0 0).toNat < 16 →
      waits (.waitfolio e) 2 (.folio (slipFlags w / 16) ((l.getD 0 0).toNat * 2 ^ 48 + (l.getD 1 0).toNat))) ∧
    (AtSlip m e.val x j w 0xB [] → slipFlags w = 32 → waits (.waitrt e) 0 (.rt (m.rt + slipOperand w))) ∧
    (AtSlip m e.val x j w 0xB l → l.length = 2 → slipFlags w = 0 → slipOperand w = 0 → (l.getD 0 0).toNat < 2 ^ 40 →
      (l.getD 1 0).toNat < 2 ^ 24 → waits (.waitrt e) 2 (.rt ((l.getD 0 0).toNat * 2 ^ 24 + (l.getD 1 0).toNat))) ∧
    (∀ t, m.waitHolds (sets (.rt t)) = decide (t ≤ m.rt)) ∧ (∀ f, m.waitHolds (sets (.folioN f)) = decide (f ≤ m.openFolio)) ∧
    (AtSlip m e.val x j w 4 l → l.length = 2 → slipFlags w % 32 = 0 → slipOperand w < 2 ^ 28 →
      let k := slipOperand w % 4096
      let f := slipOperand w / 4096
      let vol := if nbit w.toNat 37 then none else some (l.getD 0 0).toNat
      ∀ a, slipAddr false (l.getD 1 0) = .ok (0, a) → (m.sess k).used = true → (m.sess k).storage = true →
        (m.sess k).ten = j.ten →
        (vol = none ∨ (∀ i ∈ (m.live k).stored, ¬ (i.volume = (l.getD 0 0).toNat ∧ i.ten = j.ten)) →
          ∃ t, exec (.await e) s = .next t ∧
            WaitsFor t e.val x j (.await k vol j.ten) (j.deadline.or (if f = 0 then none else some (m.now + 4096 * f)))) ∧
        (∀ i m1, nbit w.toNat 37 = false →
          (m.live k).stored.reverse.find? (fun y => y.volume = (l.getD 0 0).toNat && y.ten = j.ten) = some i →
          m.jobWrites j.ten j.carrel j.sr
            [((a + 0) % 2 ^ 40, hiWord i.id), ((a + 1) % 2 ^ 40, loWord i.id), ((a + 2) % 2 ^ 40, i.w0), ((a + 3) % 2 ^ 40, i.w1)] =
              (4, none, m1) → m1.job x = some j → (m1.engine e.val).job = some x →
          ∃ t, exec (.await e) s = .next t ∧ GoesOn t e.val x j (j.slip + 3) false)) ∧
    (AtSlip m e.val x j w 0x12 [] → slipFlags w = 0 → (∀ y ∈ m.jobs, y.2.carrel = j.carrel → y.2.delivers = false) →
      (m.bit (Reg.carStat j.carrel) F.carStatCqerr = true ∨ m.cqFull j.carrel = true →
        ∃ t, exec (.slipNote e) s = .next t ∧ WaitsFor t e.val x { j with ord := m.order } (.note (slipOperand w)) j.deadline) ∧
      (m.bit (Reg.carStat j.carrel) F.carStatCqerr = false → m.cqFull j.carrel = false →
        let h := (m.reg (Reg.carCqhead j.carrel)).toNat % m.cqEntries j.carrel
        let a := (m.reg (Reg.carCqbase j.carrel)).toNat + 4 * h
        let jn := { j with st := .waiting, wait := .note (slipOperand w), ord := m.order }
        ∀ m1, ({ m.setJob x jn with order := m.order + 1 } : Mach).jobPut jn
          [((a + 0) % 2 ^ 40, w48 j.blk), ((a + 1) % 2 ^ 40, j.tag), ((a + 2) % 2 ^ 40, j2Word 0x0E j.slip),
           ((a + 3) % 2 ^ 40, j3Word 0 (slipOperand w))] = (4, none, m1) →
          ∃ t, exec (.slipNote e) s = .next t ∧ GoesOn t e.val x j (j.slip + 1) false ∧
            t.toMach.reg (Reg.carCqhead j.carrel) = w48 ((h + 1) % m.cqEntries j.carrel) ∧
            t.toMach.bit (Reg.carStat j.carrel) F.carStatNew = true)) ∧
    (m.up = true → m.job c.val = some j → j.st = .waiting →
      (m.waitHolds j = true → ∃ t, exec (.slipWaitWake c) s = .next t ∧ WokenWith t.toMach c.val 0 0 0) ∧
      (∀ k, j.wait = .laneFree k → m.idleLanes (k ≤ 1) j.sr ≠ [] →
        ∃ t y, exec (.slipWaitWake c) s = .next t ∧ t.toMach.job c.val = some y ∧ y.st = .ready ∧ y.wait = .none ∧
          y.woken = j.woken) ∧
      (j.wait = .none → exec (.slipWaitWake c) s = .next s) ∧
      (j.deadline = some d → m.now < d → exec (.slipTimeout c) s = .next s) ∧
      (j.deadline = some d → d ≤ m.now →
        (∀ k vol n, j.wait = .await k vol n → ∃ t, exec (.slipTimeout c) s = .next t ∧ WokenWith t.toMach c.val 9 0 0) ∧
        (∀ a, j.wait = .lock a → ∃ t, exec (.slipTimeout c) s = .next t ∧ WokenWith t.toMach c.val 9 0 0) ∧
        (∀ k, j.wait = .send k → ∃ t, exec (.slipTimeout c) s = .next t ∧ (∀ r ∈ t.replies, r.ctx ≠ c.val) ∧
          WokenWith t.toMach c.val (if (m.live k).conn.isSome = true then 9 else 8) 0 0)))

/-- Slips that send, and slips that need a lane (R188 to R190): a SEND whose checks pass queues its REPLY item and waits for its
frame, or for room; one without a connection waits with its item kept; a raw frame joins its port's queue, and waits where the
link is down; PACK, UNPACK, CRYPT and HASH wait on an idle lane of their world, or for one. -/
def Obligations.SlipSends : Prop :=
  ∀ (s : State) (e : EngId) (x : Nat) (j : Job) (w : Word) (l : List Word) (ws : List Word) (a n o : Nat),
    let m := s.toMach
    let late := fun (f : Nat) => j.deadline.or (if f = 0 then none else some (m.now + 4096 * f))
    let ses := slipOperand w % 4096
    let k := slipOperand w / 2 ^ 28 + 1
    let it := (l.getD 2 0).toNat
    let ty := nbits it 35 32
    let len := nbits it 10 0
    let body := padWordsTo len ws
    let vol := octField (octetsOfWords body)
    let posted := nbit w.toNat 36
    let item : LcpItem :=
      { id := (l.getD 0 0).toNat * 2 ^ 48 + (l.getD 1 0).toNat, game := nbits it 47 36, itype := ty, len := len, body := body }
    let r : ReplyWait :=
      { ses := ses, ctx := x, item := item, volume := if ty = 2 then some (j.ten, vol 0 6) else none, posted := posted
        placed := none }
    (AtSlip m e.val x j w 3 l → nbit w.toNat 37 = false → slipFlags w % 16 = 0 → slipOperand w < 2 ^ 30 → l.length = 3 + 2 * k →
      (l.getD 0 0).toNat < 65536 → nbits it 31 11 = 0 → ty = 1 ∨ ty = 2 → len ≤ 1488 →
      ∀ es, sendExtents (l.drop 3) = .ok es → ((es.map Prod.snd).foldl (· + ·) 0) = (len + 5) / 6 →
      (m.sess ses).used = true → (m.sess ses).ten = j.ten → m.gather j es = .ok ws →
      (ty = 1 ∨ ((m.sess ses).storage = true ∧ vol 6 1 = j.ten)) →
      (posted = true ∨ (∀ p ∈ j.posted, ¬ (p.1 = ses ∧ p.2.2 = true))) → m.replies = [] →
      let f := slipOperand w / 4096 % 65536
      ((m.live ses).conn = none →
        ∃ t, exec (.slipSend e) s = .next t ∧ t.replies = [r] ∧ WaitsFor t e.val x j (.send ses) (late f)) ∧
      (∀ cn, (m.live ses).conn = some cn → hasRoom cn = true → cn.nextReply < cn.plim → m.volumeHeld r.volume = true →
        ∃ t y, exec (.slipSend e) s = .next t ∧ t.sent = .lcp cn.port y :: s.sent ∧ y.typ = 8 ∧ y.session = ses ∧
          y.seq = (cn.txseq + 1) % 2 ^ 32 ∧ y.body = .items [item] ∧
          (posted = true → t.replies = [] ∧ WokenWith t.toMach x 0 0 0) ∧
          (posted = false → t.replies = [{ r with placed := some y.seq }] ∧ WaitsFor t e.val x j (.send ses) (late f)))) ∧
    (AtSlip m e.val x j w 3 l → nbit w.toNat 37 = true → slipFlags w % 16 = 0 → slipOperand w &&& 0xF0000F00 = 0 → l.length = 3 →
      let p := slipOperand w % 256
      let f := slipOperand w / 4096 % 65536
      let cnt := (l.getD 0 0).toNat
      14 ≤ cnt → cnt ≤ 9212 → slipExtent false (l.getD 1 0) (l.getD 2 0) = .ok (0, a, n) → n = (cnt + 5) / 6 →
      m.carReadN j.carrel j.sr a n = .ok ws →
      let os := (octetsOfWords ws).take cnt
      (m.rawBarred j p os = true → nbit w.toNat 39 = false →
        ∃ t, exec (.sendRaw e) s = .next t ∧ EndsWith t e.val x (j2Word 3 j.slip) (j3Word 0 0)) ∧
      (m.rawBarred j p os = false → m.portOpen p = false →
        ∃ t, exec (.sendRaw e) s = .next t ∧ t.rawq = m.rawq ∧ WaitsFor t e.val x j (.raw p false) (late f)) ∧
      (m.rawBarred j p os = false → m.portOpen p = true →
        ∃ t, exec (.sendRaw e) s = .next t ∧ t.toMach.queue p = m.queue p ++ [{ octs := os, ctx := x, posted := posted }] ∧
          (posted = true → GoesOn t e.val x j (j.slip + 4) false) ∧
          (posted = false → WaitsFor t e.val x j (.raw p true) (late f)))) ∧
    (∀ row ∈ ([(.pack e, 5, 2), (.unpack e, 6, 3), (.crypt e, 7, 0), (.hash e, 8, 1)] : List (Instr × Nat × Nat)),
      let (i, op, kind) := row
      let idle := m.idleLanes (kind ≤ 1) j.sr
      AtSlip m e.val x j w op l →
      ((kind ≠ 1 ∧ l.length = 1 ∧ slipFlags w = 0 ∧ slipOperand w = 0 ∧ slipAddr false (l.getD 0 0) = .ok (0, a)) ∨
        (kind = 1 ∧ l.length = 3 ∧ slipFlags w % 32 = 0 ∧ hashOperand w = true ∧
          slipExtent false (l.getD 0 0) (l.getD 1 0) = .ok (0, a, n) ∧ slipAddr false (l.getD 2 0) = .ok (0, o))) →
      (idle = [] → ∃ t, exec i s = .next t ∧ WaitsFor t e.val x j (.laneFree kind) j.deadline) ∧
      (idle ≠ [] → ∃ t b, exec i s = .next t ∧ b ∈ idle ∧ WaitsFor t e.val x j (.lane (kind ≤ 1) b) j.deadline ∧
        (t.toMach.laneB b).job = some x ∧ (t.toMach.laneB b).kind = kind ∧ (t.toMach.laneB b).carrel = j.carrel ∧
        (t.toMach.laneB b).gen = j.gen ∧
        (kind = 1 → (t.toMach.laneB b).words = [w, w48 a, w48 n, w48 o] ∧ (t.toMach.laneB b).res = none)))

/-- The clerk engines (R181, R199, R212, R213): a pick takes the ready job of least pass, its tenant's first, then its carrel's,
then the oldest; a job at its safe point goes back as the oldest of its carrel, or is dropped where its generation is old; a
reset of the engine ends its job FAULT, detail 0x01, a fault with detail 0x00 and is counted; a gated engine holds its reset. The
lanes and the key slots (R188, R212, R213, R361, R362, R371, R373, R375, R383): a lane's answer writes its output, its marks and its
result area and wakes its job with its result and the output words written; a write that PROTECT stops is a result, XLATE and KEY end
the slip, poison met ends it FAULT; a fault of the lane ends the slip FAULT, detail 0x02, with nothing written; a lane reset ends it FAULT, detail 0x01; a
job of an old generation is dropped; a slot clears once no started job holds it. -/
def Obligations.EnginesAndLanes : Prop :=
  (∀ (s : State) (e : EngId) (w : Who) (v : Word) (x : Nat) (j : Job),
    let m := s.toMach
    let tp := fun (y : Job) => tabGet (fun _ => 0) m.tpass y.ten
    let cp := fun (y : Job) => tabGet (fun _ => 0) m.cpass y.carrel
    let eng := fun (t : State) => (t.toMach.engine e.val).job
    (m.mayPick e.val = true →
      ((x, j) ∈ m.takeable e.val →
        (∀ y ∈ m.takeable e.val, y ≠ (x, j) → tp j < tp y.2 ∨
          (y.2.ten = j.ten ∧ (cp j < cp y.2 ∨ (y.2.carrel = j.carrel ∧ j.ord < y.2.ord)))) →
        ∃ t, exec (.enginePick e) s = .next t ∧ eng t = some x ∧ t.toMach.job x = some { j with st := .running } ∧
          t.mem = m.mem) ∧
      (m.takeable e.val = [] → exec (.enginePick e) s = .next s)) ∧
    (m.mayPick e.val = false → exec (.enginePick e) s = .next s) ∧
    (m.up = true → eng s = some x → m.engineOf x = some e.val → m.job x = some j →
      (m.stale j = false →
        ∃ t, exec (.quantumExpiry e) s = .next t ∧ eng t = none ∧ t.mem = m.mem ∧
          t.toMach.job x = some { j with st := .ready, ord := 0 }) ∧
      (m.stale j = true → ∃ t, exec (.quantumExpiry e) s = .next t ∧ eng t = none ∧ t.toMach.job x = none ∧ t.mem = m.mem)) ∧
    (eng s = some x → m.engineOf x = some e.val → m.job x = some j → m.stale j = false →
      (m.up = true →
        ∃ t, exec (.clerkEngineFault e) s = .next t ∧ EndsWith t e.val x (j2Word 0x0D j.slip) (j3Word 0 0) ∧
          t.toMach.reg (Reg.ceFaults e.val) = w48 ((m.reg (Reg.ceFaults e.val)).toNat + 1)) ∧
      (w.house = true → (m.blockSr (0x10 + e.val) = true → w.sr = true) →
        (m.gated (0x10 + e.val) = false →
          ∃ t, exec (.ceReset w e v) s = .next t ∧ EndsWith t e.val x (j2Word 0x0D j.slip) (j3Word 1 0)) ∧
        (m.gated (0x10 + e.val) = true → fbit v F.ceCtlEn = true →
          ∃ t, exec (.ceReset w e v) s = .next t ∧ eng t = some x ∧ 0x10 + e.val ∈ t.held ∧ t.jobs = m.jobs))) ∧
    (w.house = false ∨ (m.blockSr (0x10 + e.val) = true ∧ w.sr = false) → exec (.ceReset w e v) s = .next s)) ∧
  (∀ (s : State) (w : Who) (v : Word) (l : LaneId) (xl : XLaneId) (k : SlotId) (x : Nat) (j : Job) (f : Fin 4),
    let m := s.toMach
    (∀ row ∈ ([(1 + l.val, true, l), (9 + xl.val, false, ⟨xl.val, by omega⟩)] : List (Nat × Bool × LaneId)),
      let (b, cipher, i) := row
      let y := m.laneB b
      let idle := fun (t : State) => (t.toMach.laneB b).job = none
      m.up = true → y.job = some x → m.job x = some j → j.st = .waiting →
      (y.gen = m.carGen y.carrel →
        (f.val ≠ 0 → ∃ t, exec (.laneResult cipher i f) s = .next t ∧ idle t ∧ WokenWith t.toMach x 0x0D 2 0 ∧ t.mem = m.mem) ∧
        (∀ r n o m1 m2, (y.res = some r ∧ f.val = 0 ∧ m1 = m) ∨
            (y.kind = 1 ∧ y.res = none ∧ f.val = 0 ∧ m1 = m.hashJob b ∧ (m1.laneB b).res = some r) → Steady m →
          m1.laneWrites (m1.laneB b) r = (n, o, m2) → m2.job x = some j →
          ∃ t, exec (.laneResult cipher i f) s = .next t ∧ idle t ∧ t.mem = m2.mem ∧
            (r.fault ≠ 0 → WokenWith t.toMach x 0x0D 2 n) ∧
            (r.fault = 0 → o = none → r.load = none → WokenWith t.toMach x (if r.code = 0 then 0 else 0x0C) r.code n) ∧
            (r.fault = 0 → ∀ z, o = some z →
              if z.1 = 3 then WokenWith t.toMach x 0x0C (if cipher = true then 0x0C else 0x0B) n
              else WokenWith t.toMach x z.1 z.2 n))) ∧
      (y.gen ≠ m.carGen y.carrel →
        ∃ t, exec (.laneResult cipher i f) s = .next t ∧ idle t ∧ t.jobs = m.jobs ∧ t.mem = m.mem)) ∧
    (∀ row ∈ ([(1 + l.val, .kxLaneReset w l v), (9 + xl.val, .cxLaneReset w xl v)] : List (Nat × Instr)),
      let (b, c) := row
      let y := m.laneB b
      (w.house = true → (m.blockSr b = true → w.sr = true) →
        (m.gated b = false →
          ∃ t, exec c s = .next t ∧ (t.toMach.laneB b).job = none ∧ t.mem = m.mem ∧ t.kx = m.kx ∧
            (y.job = some x → m.job x = some j → j.st = .waiting → y.gen = m.carGen y.carrel → WokenWith t.toMach x 0x0D 1 0)) ∧
        (m.gated b = true → ∃ t, exec c s = .next t ∧ t.toMach.laneB b = y ∧ b ∈ t.held ∧ t.jobs = m.jobs)) ∧
      (w.house = false ∨ (m.blockSr b = true ∧ w.sr = false) → exec c s = .next s)) ∧
    (let own := m.fld (Reg.kxSown k.val) F.kxSownTenant
     let sr := m.bit (Reg.kxSown k.val) F.kxSownSr
     (w.ofTen own = true → (sr = true → w.sr = true) →
       ∃ t, exec (.kxSclr w k v) s = .next t ∧ t.toMach.slotState k.val = 3 ∧ t.toMach.slotKey k.val = m.slotKey k.val) ∧
     (w.ofTen own = false ∨ (sr = true ∧ w.sr = false) → exec (.kxSclr w k v) s = .next s)) ∧
    (m.slotState k.val = 3 →
      (m.slotHeld k.val = false →
        ∃ t, exec (.slotClearDone k) s = .next t ∧ t.toMach.slotState k.val = 0 ∧ t.toMach.slotKey k.val = [] ∧
          t.toMach.slotC k.val = 0 ∧ t.toMach.slotU k.val = 0) ∧
      (m.slotHeld k.val = true → exec (.slotClearDone k) s = .next s)) ∧
    (m.slotState k.val ≠ 3 → exec (.slotClearDone k) s = .next s))

/-- TEN_CARREQ (R204 to R206, R214, R342): a create takes the lowest free entry, for T00 where the strongroom asks, or leaves the
code of the first check of R204's list that failed (that order: log 135); a delete
starts the carrel's reset and is BUSY until it ends; a reserved OP is BADOP; a request from elsewhere, or while one is in
progress, changes nothing. -/
def Obligations.CarrelRequests : Prop :=
  ∀ (s : State) (w : Who) (k : TenId) (v : Word),
    let m := s.toMach
    let res := Reg.tenCarres k.val
    let pid := fget v F.tenCarreqPid
    let c := fget v F.tenCarreqCarrel
    let own := if w.sr = true then 0 else k.val
    let mine := m.usedCars.filter fun y => m.carTen y = own
    let most := (m.reg (Reg.tenCarmax own)).toNat % 8192
    let free := fun (y : Nat) => y < 4096 ∧ y ∉ m.usedCars ∧ ∀ z, z < y → z ∈ m.usedCars
    let status := fun (t : State) (n : Nat) => t.toMach.fld res F.tenCarresStatus = n ∧ t.mem = m.mem ∧ t.jobs = m.jobs ∧
      ∀ a, a ≠ res → t.toMach.reg a = m.reg a
    (w.ofTen k.val = true → m.bit res F.tenCarresBusy = false →
      ((∀ y ∈ mine, m.fld (Reg.carStat y) F.carStatPid ≠ pid) → mine.length < most → m.bit (Reg.tenCtl own) F.tenCtlEn = true →
        tmem m.tenResets own = false → ∀ y, free y →
        ∃ t, exec (.carrelCreate w k v) s = .next t ∧ t.toMach.carState y = 1 ∧ t.toMach.carTen y = own ∧
          t.toMach.fld (Reg.carStat y) F.carStatPid = pid ∧ t.toMach.carGen y = (m.carGen y + 1) % 65536 ∧
          t.toMach.reg (Reg.carCqhead y) = 0 ∧ t.toMach.reg (Reg.carCqtail y) = 0 ∧ t.toMach.reg res = w48 y ∧ t.mem = m.mem ∧
          (w.sr = true → y ∈ t.srCarrels) ∧ (w.sr = false → t.srCarrels = m.srCarrels)) ∧
      ((∃ y ∈ mine, m.fld (Reg.carStat y) F.carStatPid = pid) → ∃ t, exec (.carrelCreate w k v) s = .next t ∧ status t 3) ∧
      ((∀ y ∈ mine, m.fld (Reg.carStat y) F.carStatPid ≠ pid) → most ≤ mine.length →
        ∃ t, exec (.carrelCreate w k v) s = .next t ∧ status t 2) ∧
      ((∀ y ∈ mine, m.fld (Reg.carStat y) F.carStatPid ≠ pid) → mine.length < most →
        ((∀ y, y < 4096 → y ∈ m.usedCars) → ∃ t, exec (.carrelCreate w k v) s = .next t ∧ status t 1) ∧
        ((∃ y, free y) → m.bit (Reg.tenCtl own) F.tenCtlEn = false ∨ tmem m.tenResets own = true →
          ∃ t, exec (.carrelCreate w k v) s = .next t ∧ status t 5)) ∧
      (m.carState c = 0 ∨ m.carTen c ≠ k.val → ∃ t, exec (.carrelDelete w k v) s = .next t ∧ status t 4) ∧
      ((m.carState c = 1 ∨ m.carState c = 2) → m.carTen c = k.val → (w.sr = true ∨ m.srCarrels.contains c = false) →
        ∃ t, exec (.carrelDelete w k v) s = .next t ∧ t.toMach.bit res F.tenCarresBusy = true ∧
          t.toMach.fld res F.tenCarresCarrel = c ∧ t.toMach.carState c = 2 ∧ c ∈ t.carDeletes ∧ t.mem = m.mem ∧
          t.toMach.carGen c = if m.carState c = 1 then (m.carGen c + 1) % 65536 else m.carGen c) ∧
      (∃ t, exec (.carrelBadop w k v) s = .next t ∧ status t 6)) ∧
    (w.ofTen k.val = false ∨ m.bit res F.tenCarresBusy = true →
      ∀ i ∈ ([.carrelCreate w k v, .carrelDelete w k v, .carrelBadop w k v] : List Instr), exec i s = .next s)

/-- Carrel and tenant resets (R213 to R215): a carrel reset raises the generation and ends every job of the carrel that no engine
runs; it completes once no engine and no lane holds work of the old generation, and from 838 ticks on takes those out; a tenant
reset resets its carrels, back-pressures it and empties its notices and log. -/
def Obligations.CarrelAndTenantResets : Prop :=
  ∀ (s : State) (w : Who) (k : TenId) (c : CarId) (v : Word),
    let m := s.toMach
    let state := fun (t : State) => t.toMach.carState c.val
    (m.mayCar w c.val = true →
      (m.carState c.val = 1 →
        ∃ t, exec (.carReset w c v) s = .next t ∧ state t = 2 ∧ t.toMach.carGen c.val = (m.carGen c.val + 1) % 65536 ∧
          (∀ y ∈ t.jobs, y.2.carrel = c.val → y.2.st = .running) ∧ t.toMach.bit (Reg.carStat c.val) F.carStatCqerr = false ∧
          tfind t.carResets c.val = some m.now ∧ t.mem = m.mem) ∧
      (m.carState c.val = 2 →
        ∃ t, exec (.carReset w c v) s = .next t ∧ state t = 2 ∧ t.toMach.carGen c.val = m.carGen c.val ∧ t.jobs = m.jobs)) ∧
    (m.mayCar w c.val = false → exec (.carReset w c v) s = .next s) ∧
    (m.carState c.val = 2 →
      (m.staleEngines c.val = [] → m.staleLanes c.val = [] →
        ∃ t, exec (.carrelResetComplete c) s = .next t ∧ tfind t.carResets c.val = none ∧
          state t = (if m.carDeletes.contains c.val = true then 0 else 1) ∧ t.toMach.reg (Reg.carCqhead c.val) = 0 ∧
          t.toMach.reg (Reg.carCqtail c.val) = 0 ∧ t.toMach.carGen c.val = m.carGen c.val ∧ t.mem = m.mem) ∧
      (m.staleEngines c.val ≠ [] ∨ m.staleLanes c.val ≠ [] → exec (.carrelResetComplete c) s = .next s)) ∧
    (m.carState c.val ≠ 2 → exec (.carrelResetComplete c) s = .next s) ∧
    (∀ t0, tfind m.carResets c.val = some t0 →
      (t0 + 838 ≤ m.now → ∃ t, exec (.carrelResetBound c) s = .next t ∧
        (∀ e ∈ m.staleEngines c.val, (∀ x, (m.engine e).job = some x → m.engineOf x = some e) → (t.toMach.engine e).job = none) ∧
        (∀ b ∈ m.staleLanes c.val, (t.toMach.laneB b).job = none)) ∧
      (m.now < t0 + 838 → exec (.carrelResetBound c) s = .next s)) ∧
    (w.sr = true ∨ (w.ten = 0 ∧ k ≠ 0) → tmem m.tenResets k.val = false →
      ∃ t, exec (.tenReset w k v) s = .next t ∧ t.toMach.noteq k.val = [] ∧
        t.toMach.bit (Reg.tenStat k.val) F.tenStatLogovf = true ∧ t.mem = m.mem ∧
        (∀ y ∈ m.usedCars, m.carTen y = k.val → m.carState y = 1 → t.toMach.carState y = 2) ∧
        (m.usedCars.all (fun y => m.carTen y ≠ k.val) = true →
          t.toMach.bit (Reg.accBp k.val) F.accBpReset = false ∧ tmem t.tenResets k.val = false)) ∧
    (w.sr = true ∨ (w.ten = 0 ∧ k ≠ 0) → tmem m.tenResets k.val = true → exec (.tenReset w k v) s = .next s) ∧
    (w.sr = false → w.ten ≠ 0 ∨ k = 0 → exec (.tenReset w k v) s = .next s)

/-- The completion ring's tail, the marked-page log's epochs and TEN_CTL (R12, R31, R202, R211, R219, R222): a tail within the
entries written is taken, any other is RANGE; clearing CQERR tries again; a new marking epoch empties the log and clears the
bitmap; EN, CERT and INSPECT are the strongroom's, SHARE and KEYS the house's. -/
def Obligations.TenantRegisters : Prop :=
  ∀ (s : State) (w : Who) (k : TenId) (c : CarId) (v : Word),
    let m := s.toMach
    let stat := Reg.carStat c.val
    let ctl := Reg.tenMplctl k.val
    let e := m.cqEntries c.val
    let n := v.toNat % 65536
    let tail := (m.reg (Reg.carCqtail c.val)).toNat % e
    let silent := ∀ y ∈ m.jobs, y.2.carrel = c.val → y.2.delivers = false
    (m.mayCar w c.val = true →
      (e ≤ n ∨ m.cqUsed c.val < (n + e - tail) % e →
        ∃ t, exec (.carCqtailWrite w c v) s = .next t ∧ t.toMach.reg (Reg.carErr c.val) = 1 ∧
          t.toMach.reg (Reg.carCqtail c.val) = m.reg (Reg.carCqtail c.val) ∧ t.jobs = m.jobs) ∧
      (n < e → (n + e - tail) % e ≤ m.cqUsed c.val →
        ∃ t, exec (.carCqtailWrite w c v) s = .next t ∧ t.toMach.reg (Reg.carCqtail c.val) = w48 n ∧
          (silent → t.toMach.reg (Reg.carErr c.val) = 0 ∧ t.mem = m.mem)) ∧
      (silent → ∃ t, exec (.cqerrClear w c v) s = .next t ∧ t.toMach.bit stat F.carStatCqerr = false ∧ t.mem = m.mem) ∧
      (∀ x j m1, m.jobs = [(x, j)] → j.carrel = c.val → j.ten < 16 → j.st = .held → j.wait = .none → fbit v F.carStatNew = false →
        m.bit stat F.carStatCqerr = true → m.cqFull c.val = false →
        let h := (m.reg (Reg.carCqhead c.val)).toNat % e
        let a := (m.reg (Reg.carCqbase c.val)).toNat + 4 * h
        (m.setFld stat F.carStatCqerr 0).jobPut j
          [((a + 0) % 2 ^ 40, w48 j.blk), ((a + 1) % 2 ^ 40, j.tag), ((a + 2) % 2 ^ 40, j.j2), ((a + 3) % 2 ^ 40, j.j3)] =
            (4, none, m1) →
        ∃ t, exec (.cqerrClear w c v) s = .next t ∧ t.jobs = [] ∧ t.mem = m1.mem ∧
          t.toMach.reg (Reg.carCqhead c.val) = w48 ((h + 1) % e) ∧ t.toMach.bit stat F.carStatNew = true)) ∧
    (m.mayCar w c.val = false → exec (.carCqtailWrite w c v) s = .next s ∧ exec (.cqerrClear w c v) s = .next s) ∧
    (w.ofTen k.val = true →
      ∃ t, exec (.newepoch w k v) s = .next t ∧ k.val ∈ t.clearing ∧ t.mem = m.mem ∧
        t.toMach.fld ctl F.tenMplctlEpochno = (m.fld ctl F.tenMplctlEpochno + 1) % 256 ∧
        t.toMach.bit ctl F.tenMplctlClearing = true ∧ t.toMach.fld (Reg.tenStat k.val) F.tenStatLogcnt = 0 ∧
        t.toMach.bit (Reg.tenStat k.val) F.tenStatLogovf = false ∧
        t.toMach.reg (Reg.tenMpltail k.val) = m.reg (Reg.tenMplhead k.val)) ∧
    (w.ofTen k.val = false → exec (.newepoch w k v) s = .next s) ∧
    (m.clearing.contains k.val = true → NoCopies m →
      let lo := (m.reg (Reg.tenMpbmbase k.val)).toNat
      let size := (m.reg (Reg.tenMpbmsize k.val)).toNat * 4096
      ∃ t, exec (.bitmapClearDone k) s = .next t ∧ k.val ∉ t.clearing ∧ t.toMach.bit ctl F.tenMplctlClearing = false ∧
        t.toMach.bit ctl F.tenMplctlNewepoch = false ∧
        ∀ a, t.toMach.cont a =
          if lo ≤ a ∧ a < lo + size ∧ m.srAddr a = false ∧ vaultAddr a = false then { m.cont a with pay := 0 } else m.cont a) ∧
    (m.clearing.contains k.val = false → exec (.bitmapClearDone k) s = .next s) ∧
    (let ten := Reg.tenCtl k.val
     let sr := fmask F.tenCtlEn ||| fmask F.tenCtlCert ||| fmask F.tenCtlInspect
     (w.ofTen k.val = true →
       ∃ t, exec (.tenCtlWrite w k v) s = .next t ∧ t.toMach.reg ten &&& sr = (if w.sr then v else m.reg ten) &&& sr ∧
         t.toMach.fld ten F.tenCtlKeys = (if w.house = true then fget v F.tenCtlKeys else m.fld ten F.tenCtlKeys) ∧
         t.toMach.fld ten F.tenCtlShare =
           (if w.house = true ∧ fget v F.tenCtlShare ≠ 0 then fget v F.tenCtlShare else m.fld ten F.tenCtlShare) ∧
         t.toMach.mode k.val = m.mode k.val) ∧
     (w.ofTen k.val = false → exec (.tenCtlWrite w k v) s = .next s))

/-- The cipher operations (R359 to R369). At the end of the tick in which a job starts its descriptor, its lengths and its slots are
checked, its slots are taken and an operation that protects data takes its invocation (the tick's end as the time: log 129); later
the operation's answer holds the octets it gives at the addresses its descriptor names; the operations on keys are the strongroom's;
a reserved OP is a descriptor fault. What AES and ML-KEM answer is the functions of their standards (log 2). -/
def Obligations.CipherJobs : Prop :=
  ∀ (s : State) (i : LaneId) (os aad iv tag ek : List Octet) (f : Nat),
    let m := s.toMach
    let b := 1 + i.val
    let l := m.laneB b
    let n := l.len 2
    let ks := l.keySlot
    let key := m.slotKey ks
    let at_ := fun (op : Nat) => m.cipherAt b op = true
    let reads := fun (a k : Nat) (x : List Octet) => m.laneOctets l a k = .ok x
    let gives := fun (c : Instr) (r : LaneRes) => ∃ t, exec c s = .next t ∧ (t.toMach.laneB b).res = some r ∧ t.mem = m.mem ∧
      t.jobs = m.jobs ∧ (t.toMach.laneB b).job = l.job
    (m.pins.vaux = true → m.refs ≠ [] → l.fresh = true → (∀ y ∈ m.lanes, y.2.fresh = true → y.1 = i.val) →
      (∀ c, m.startCheck l = .error c →
        ∃ t, exec .rtTick s = .next t ∧ (t.toMach.laneB b).fresh = false ∧ (t.toMach.laneB b).res = some { code := c }) ∧
      (∀ ss v m1, m.startCheck l = .ok (ss, v, m1) →
        ∃ t, exec .rtTick s = .next t ∧ (t.toMach.laneB b).fresh = false ∧ (t.toMach.laneB b).slots = ss ∧
          (t.toMach.laneB b).iv = v ∧ ∀ k : SlotId, t.toMach.slotU k.val = m1.slotU k.val ∧
            t.toMach.slotC k.val = m1.slotC k.val ∧ t.toMach.slotState k.val = m1.slotState k.val) ∧
      (1 ≤ cipherOp l.words → cipherOp l.words ≤ 10 → cipherDescBad l.words = true →
        ∃ t, exec .rtTick s = .next t ∧ (t.toMach.laneB b).res = some { code := 6 }) ∧
      (∀ row ∈ ([(1, Usage.enc, [1, 2], true), (3, Usage.enc, [3], false), (5, Usage.macGen, [1, 2], false),
          (7, Usage.wrap, [1, 2], false)] : List (Nat × Nat × List Nat × Bool)),
        let (op, u, algs, gcm) := row
        cipherOp l.words = op → cipherDescBad l.words = false →
        (cipherLen op l = false → ∃ t, exec .rtTick s = .next t ∧ (t.toMach.laneB b).res = some { code := 7 }) ∧
        (cipherLen op l = true → (m.slotFor l ks u algs).toBool = true → m.slotC ks < 2 ^ 64 - 1 →
          ∃ t, exec .rtTick s = .next t ∧ (t.toMach.laneB b).slots = [ks] ∧
            (t.toMach.laneB b).iv = octetsBE 4 (m.reg (Reg.kxSfixed ks)).toNat ++ octetsBE 8 (m.slotC ks) ∧
            t.toMach.slotU ks = m.slotU ks + 1 ∧ t.toMach.slotC ks = m.slotC ks + b2n gcm))) ∧
    ((∀ y ∈ m.lanes, y.2.fresh = false) → (∀ y ∈ m.seats, y.2.evb = []) →
      (∀ row ∈ ([(.gcmEnc i, 1), (.gcmDec i, 2), (.xtsEnc i, 3), (.xtsDec i, 4), (.cmacGen i, 5), (.cmacVer i, 6), (.kwWrap i, 7),
          (.kwUnwrap i, 8), (.unwrap i, 9), (.exportKey i, 10), (.genkey i, 11), (.kemKeygen i, 12), (.kemEncaps i, 13),
          (.kemDecaps i, 14)] : List (Instr × Nat)),
        (m.cipherAt b row.2 = false → exec row.1 s = .next s) ∧
        (at_ row.2 → row.2 ≤ 8 → ∀ r, m.laneOctets l (l.addr 1) n = .error r → gives row.1 r) ∧
        (at_ row.2 → 11 ≤ row.2 → cipherDescBad l.words = true → gives row.1 { code := 6 }) ∧
        (at_ row.2 → 11 ≤ row.2 → cipherDescBad l.words = false → (row.2 = 12 → 1568 ≤ l.len 4) →
          (row.2 = 13 → n = 1568 ∧ 1568 ≤ l.len 4) → (row.2 = 14 → n = 1568) →
          (l.sr = false → gives row.1 { code := 4 }) ∧ (l.sr = true → m.kekPaused = true → gives row.1 { code := 9 }))) ∧
      (1 ≤ cipherOp l.words ∧ cipherOp l.words ≤ 14 → exec (.cipherBadop i) s = .next s) ∧
      (at_ (cipherOp l.words) → cipherOp l.words = 0 ∨ 14 < cipherOp l.words → gives (.cipherBadop i) { code := 6 }) ∧
      (at_ 1 → reads (l.addr 1) n os → reads (l.addr 5) (l.len 6) aad →
        let r := fitOctets (n + 16) (aesJob 1 false key l.iv aad os).1
        gives (.gcmEnc i)
          { writes := octetWrites (l.addr 3) (r.take n), inOct := n, outOct := (r.take n).length
            aux := octetWrites (l.addr 7) l.iv ++ octetWrites ((l.addr 7 + 2) % 2 ^ 40) (r.drop n) }) ∧
      (at_ 2 → reads (l.addr 1) n os → reads (l.addr 5) (l.len 6) aad → reads (l.addr 7) 12 iv →
        reads ((l.addr 7 + 2) % 2 ^ 40) 16 tag →
        let r := aesJob 2 false key iv aad (os ++ tag)
        gives (.gcmDec i) (if r.2 = true then { code := 1, inOct := n } else l.gives (fitOctets n r.1))) ∧
      (∀ row ∈ ([(.xtsEnc i, 3), (.xtsDec i, 4)] : List (Instr × Nat)), at_ row.2 → reads (l.addr 1) n os → reads (l.addr 7) 16 tag →
        gives row.1 (l.gives (fitOctets n (aesJob row.2 false key tag [] os).1))) ∧
      (at_ 5 → reads (l.addr 1) n os → gives (.cmacGen i) { aux := octetWrites (l.addr 7) (cmac key os), inOct := n }) ∧
      (at_ 6 → reads (l.addr 1) n os → reads (l.addr 7) 16 tag →
        gives (.cmacVer i) { code := if tag = cmac key os then 0 else 1, inOct := n }) ∧
      (at_ 7 → reads (l.addr 1) n os → gives (.kwWrap i) (l.gives (fitOctets (wrapLen n) (aesJob 7 l.pad key [] [] os).1))) ∧
      (at_ 8 → reads (l.addr 1) n os →
        let r := aesJob 8 l.pad key [] [] os
        let p := if l.pad = true then r.1.take (n - 8) else fitOctets (n - 8) r.1
        gives (.kwUnwrap i) (if r.2 = true then { code := 1, inOct := n } else if l.len 4 < p.length then { code := 7 }
          else l.gives p)) ∧
      (∀ row ∈ ([(.unwrap i, 9), (.exportKey i, 10)] : List (Instr × Nat)), at_ row.2 → l.kek = true → m.kekPaused = true →
        gives row.1 { code := 9 }) ∧
      (∀ k, (if l.kek = true then m.kekPaused = false ∧ k = kekKey else k = key) →
        (at_ 9 → reads (l.addr 1) n os →
          let r := aesJob 8 true k [] [] os
          let good := headerOk r.1 = true ∧ r.1.length = 24 + algKey (octField r.1 1 1)
          (r.2 = true → gives (.unwrap i) { code := 1, inOct := n }) ∧
          (r.2 = false → ¬ good → gives (.unwrap i) { code := 0xA, inOct := n }) ∧
          (r.2 = false → good → ∀ c, m.dstCheck l r.1 = .error c → gives (.unwrap i) { code := c, inOct := n }) ∧
          (r.2 = false → good → (m.dstCheck l r.1).toBool = true →
            gives (.unwrap i) { inOct := n, load := some (l.dstSlot, r.1.take 24, r.1.drop 24) })) ∧
        (at_ 10 →
          let x := fitOctets (32 + algKey (m.slotAlg l.dstSlot)) (aesJob 7 true k [] [] (m.blobOf l.dstSlot)).1
          gives (.exportKey i) { writes := octetWrites (l.addr 3) x, outOct := x.length, clear := some l.dstSlot })) ∧
      (l.sr = true → m.kekPaused = false → cipherDescBad l.words = false → f = Config.freeValue m.free →
        let load := fun (h k : List Octet) => (some (l.dstSlot, h, k) : Option (Nat × List Octet × List Octet))
        let x := fitOctets 1568 (mlkemKeygen f).1
        let ct := fitOctets 1568 (mlkemEncaps f ek).1
        (at_ 12 → 1568 ≤ l.len 4 → gives (.kemKeygen i)
          { writes := octetWrites (l.addr 3) x, outOct := x.length, kp := some (l.kpReg, (mlkemKeygen f).2) }) ∧
        (reads (l.addr 7) 24 aad → headerOk aad = true → (m.dstCheck l aad).toBool = true →
          (at_ 11 → gives (.genkey i) { load := load aad (octetsBE (algKey (octField aad 1 1)) f) }) ∧
          (octField aad 1 1 = 2 → n = 1568 → reads (l.addr 1) 1568 ek →
            (at_ 13 → 1568 ≤ l.len 4 → gives (.kemEncaps i)
              { writes := octetWrites (l.addr 3) ct, inOct := 1568, outOct := ct.length
                load := load aad (fitOctets 32 (mlkemEncaps f ek).2) }) ∧
            (∀ dk, tfind m.kp l.kpReg = some dk → at_ 14 →
              gives (.kemDecaps i) { load := load aad (fitOctets 32 (mlkemDecaps dk ek)), inOct := 1568 }))) ∧
        (at_ 14 → n = 1568 → tfind m.kp l.kpReg = none → gives (.kemDecaps i) { code := 3 })))

/-- The compression operations (R372 to R381): a bad descriptor and a bad length give their results; FRB codes each block of 512
words into a slot with its header, or counts it as one that does not fit, and decodes it back; DEFLATE jobs put the stream or the
data at their output, B3 and the check table where they belong, and the result area after them. The code of a block and the stream
of some data are the part's own (log 2). -/
def Obligations.CompressionJobs : Prop :=
  ∀ (s : State) (i : XLaneId) (block slot ws : List Word) (h : Word),
    let m := s.toMach
    let b := 9 + i.val
    let l := m.laneB b
    let n := l.len 2
    let at_ := fun (op : Nat) => m.packAt b op = true ∧ packDescBad l op = false ∧ packLenOk l op = true
    let sum := fun (x : List Octet) => if l.zlib = true then adler32 x else 0
    let gives := fun (c : Instr) (r : LaneRes) => ∃ t, exec c s = .next t ∧ (t.toMach.laneB b).res = some r ∧ t.mem = m.mem ∧
      t.jobs = m.jobs ∧ (t.toMach.laneB b).job = l.job
    (∀ y ∈ m.seats, y.2.evb = []) →
    (∀ row ∈ ([(.frbPack i, 1), (.frbUnpack i, 2), (.deflPack i, 3), (.deflUnpack i, 4)] : List (Instr × Nat)),
      (m.packAt b row.2 = false → exec row.1 s = .next s) ∧
      (m.packAt b row.2 = true → packDescBad l row.2 = true → gives row.1 { code := 9 }) ∧
      (m.packAt b row.2 = true → packDescBad l row.2 = false → packLenOk l row.2 = false → gives row.1 { code := 0xA })) ∧
    (at_ 1 →
      (n = 1 → m.carReadN l.carrel l.sr (l.addr 1) 512 = .ok block →
        let data := (octetsOfWords block).take 3072
        (∀ code, frbCoded l.ratio block = some code →
          gives (.frbPack i)
            { writes := wordWrites (l.addr 3) (w48 (0xA * 2 ^ 44 + l.ratio * 2 ^ 42) :: fitWords (slotWords l.ratio - 1) code)
              areaAt := l.addr 7, area := frbArea [true] (6 * slotWords l.ratio) (sum data)
              inOct := 3072, outOct := 6 * slotWords l.ratio }) ∧
        (frbCoded l.ratio block = none →
          gives (.frbPack i)
            { code := 1, areaAt := l.addr 7, area := frbArea [false] 0 (sum data), inOct := 3072, nofit := 1 })) ∧
      (∀ out fits, frbPackLoop m l (decide (16 < n)) n 0 [] [] = (out, fits, none) →
        let k := (fits.filter id).length
        gives (.frbPack i)
          { code := if k = n then 0 else 1, writes := out, areaAt := l.addr 7
            area := frbArea fits (6 * (k * slotWords l.ratio)) (sum (m.inputOctets l (3072 * fits.length)))
            inOct := 3072 * fits.length, outOct := 6 * (k * slotWords l.ratio), nofit := fits.length - k })) ∧
    (at_ 2 → m.carRead l.carrel l.sr (l.addr 1) = .ok h →
      let ratio := nbits h.toNat 43 42
      (nbits h.toNat 47 44 ≠ 0xA ∨ ratio = 0 ∨ ratio = 3 →
        gives (.frbUnpack i) { code := 4, areaAt := l.addr 7, area := frbArea [] 0 (sum []) }) ∧
      (nbits h.toNat 47 44 = 0xA → ratio = 1 ∨ ratio = 2 →
        (n = 1 → m.carReadN l.carrel l.sr (l.addr 1) (slotWords ratio) = .ok slot → slot.getD 0 0 = h →
          let data := fitWords 512 (Config.frbDecode ratio (slot.drop 1))
          (nbit h.toNat 41 = false ∨ crc32c (octetsOfWords data) = h.toNat % 2 ^ 32 →
            gives (.frbUnpack i)
              { writes := wordWrites (l.addr 3) data, areaAt := l.addr 7, area := frbArea [true] 3072 (sum (octetsOfWords data))
                inOct := 3072, outOct := 3072 }) ∧
          (nbit h.toNat 41 = true → crc32c (octetsOfWords data) ≠ h.toNat % 2 ^ 32 →
            gives (.frbUnpack i) { code := 6, areaAt := l.addr 7, area := frbArea [] 0 (sum []) })) ∧
        (∀ out k, frbUnpackLoop m l ratio n 0 [] = (out, k, none) →
          gives (.frbUnpack i)
            { writes := out, areaAt := l.addr 7
              area := frbArea (List.replicate k true) (3072 * k) (sum (octetsOfWords (out.map Prod.snd)))
              inOct := 3072 * k, outOct := 3072 * k }))) ∧
    (at_ 3 → m.carReadN l.carrel l.sr (l.addr 1) ((n + 5) / 6) = .ok ws →
      let data := (octetsOfWords ws).take n
      let stream := deflStream l.effort data
      let os := if l.zlib = true then zlibWrap stream data else stream
      (l.compat = true → os.length ≤ l.len 4 → os.length ≤ 6 * l.len 6 →
        gives (.deflPack i)
          { writes := octetWrites (l.addr 3) os, whole := true, aux := checkTable l data, areaAt := l.addr 7
            area := deflArea n os.length (sum data), inOct := n, outOct := os.length }) ∧
      (∀ c, l.compat = false → deflOut m l os {} = (c, {}) →
        gives (.deflPack i)
          { writes := c.writes, b3 := c.b3, aux := checkTable l data, areaAt := l.addr 7
            area := deflArea n c.octets (sum data), inOct := n, outOct := c.octets })) ∧
    (at_ 4 → m.carReadN l.carrel l.sr (l.addr 1) ((n + 5) / 6) = .ok ws → l.words.getD 5 0 = 0 →
      ∀ os used, inflateJob l ((octetsOfWords ws).take n) = (os, used, 0) →
      (l.compat = true → os.length ≤ l.len 4 → os.length ≤ 6 * l.len 6 →
        gives (.deflUnpack i)
          { writes := octetWrites (l.addr 3) os, whole := true, areaAt := l.addr 7
            area := deflArea used os.length (sum os), inOct := used, outOct := os.length }) ∧
      (∀ c, l.compat = false → deflOut m l os {} = (c, {}) →
        gives (.deflUnpack i)
          { writes := c.writes, b3 := c.b3, areaAt := l.addr 7
            area := deflArea used c.octets (sum os), inOct := used, outOct := c.octets }))

/-! ### The block as a whole -/

/-- A step takes the command at the front of the queue and runs it on the state with the rest of the queue; on an empty queue the
module idles (log 3). -/
def Obligations.StepRunsTheFrontCommand : Prop :=
  ∀ (s : State) (c : Instr) (rest : List Instr),
    step { s with pending := c :: rest } = exec c { s with pending := rest } ∧
    step { s with pending := [] } = .next { s with pending := [] }

/-- No command stops the module: each answers a next state with the queue as it was and, but for a stocktake's latch (R412), the
snapshot as it was. -/
def Obligations.NoCommandStops : Prop :=
  ∀ (s : State) (c : Instr), ∃ t, exec c s = .next t ∧ t.pending = s.pending ∧ (c ≠ .stocktakeLatch → t.snap = s.snap)

/-- What reset leaves (R41, R335): every register at its reset value (for one whose reset is X, the value of log 4), RT at 0 in
UNSET, memory with nothing listed and in canonical form (log 5), no job, no session, nothing sent and no command waiting. -/
def Obligations.ResetState : Prop :=
  let m := State.reset.toMach
  (∀ a, m.reg a = resetOf a) ∧ m.rt = 0 ∧ m.rtState = 0 ∧ Memory.wf m.mem = true ∧ m.mem = [] ∧ m.jobs = [] ∧
    m.ledger.sessions = [] ∧ m.sent = [] ∧ State.reset.pending = [] ∧ ∀ a, m.cont a = { key := 0, tag := 0, chg := false, pay := 0 }

/-- Every step keeps memory in its canonical form: addresses strictly rising, no entry equal to what an unlisted octet reads as.
-/
def Obligations.StepKeepsMemoryCanonical : Prop :=
  ∀ (s t : State), Memory.wf s.mem = true → step s = .next t → Memory.wf t.mem = true

/-- RT never goes back (R39, R48): while VAUX lasts and outside the charter, where a FORCE load is refused, no step lowers RT. -/
def Obligations.RtNeverGoesBack : Prop :=
  ∀ (s t : State), s.toMach.phase ≠ 1 → s.toMach.pins.vaux = true → step s = .next t → t.toMach.pins.vaux = true → s.rt ≤ t.rt

/-- The fence latch (R149): while the module is up, only TAKEN or ABORT of a planned handover, the end of synchronisation and a
MODULE reset clear it. -/
def Obligations.FenceLatchHolds : Prop :=
  ∀ (s t : State) (c : Instr), s.toMach.up = true → s.twin.latch = true → exec c s = .next t →
    t.twin.latch = true ∨ t.toMach.up = false ∨ c = .syncComplete ∨ (∃ x, c = .taken x) ∨ (∃ x, c = .abortMsg x)
end

