-- ==== Sys2Proof/Laws/Table.lean ====
section
/-! SUPPORT. Laws of the sparse tables: a read after a write gives the value written, a write leaves every other key alone, and
every operation keeps the canonical form. -/

namespace Sys2Proof.Machine

open Sys2Proof

variable {α : Type}

/-! ### Reading after writing -/

theorem tabGet_insert (d : Nat → α) (k j : Nat) (v : α) (t : List (Nat × α)) :
    tabGet d (tabInsert k v t) j = if k = j then v else tabGet d t j := by
  induction t with
  | nil => simp [tabInsert, tabGet]
  | cons p t ih =>
    obtain ⟨a, x⟩ := p
    simp only [tabInsert]
    by_cases h : k < a
    · simp [h, tabGet]
    · by_cases h2 : a = k
      · subst h2; by_cases h3 : a = j <;> simp [tabGet, h3]
      · simp only [h, h2, if_false, tabGet, ih]
        by_cases h3 : a = j
        · subst h3; simp [Ne.symm h2]
        · simp [h3]

theorem tabGet_filter (d : Nat → α) (p : Nat → Bool) (t : List (Nat × α)) (j : Nat) :
    tabGet d (t.filter fun e => p e.1) j = if p j then tabGet d t j else d j := by
  induction t with
  | nil => simp [tabGet]
  | cons e t ih =>
    obtain ⟨a, x⟩ := e
    by_cases h : a = j
    · subst h
      cases hp : p a with
      | true => simp [hp, tabGet]
      | false => simpa [List.filter_cons, hp] using ih
    · cases hp : p a with
      | true => simp [hp, tabGet, h, ih]
      | false => simp [hp, tabGet, h, ih]

theorem tabGet_erase (d : Nat → α) (k j : Nat) (t : List (Nat × α)) :
    tabGet d (tabErase k t) j = if k = j then d j else tabGet d t j := by
  have h := tabGet_filter d (fun a => decide (a ≠ k)) t j
  simp only [tabErase]
  rw [h]
  by_cases hk : j = k
  · simp [hk]
  · simp [hk, Ne.symm hk]

theorem tabGet_clear (d : Nat → α) (p : Nat → Bool) (t : List (Nat × α)) (j : Nat) :
    tabGet d (tabClear p t) j = if p j then d j else tabGet d t j := by
  have h := tabGet_filter d (fun a => !p a) t j
  simp only [tabClear]
  rw [h]
  cases p j <;> simp

@[simp] theorem tabGet_put [DecidableEq α] (d : Nat → α) (k j : Nat) (v : α) (t : List (Nat × α)) :
    tabGet d (tabPut d k v t) j = if k = j then v else tabGet d t j := by
  unfold tabPut
  by_cases h : v = d k
  · rw [if_pos h, tabGet_erase]
    by_cases hk : k = j
    · subst hk; simp [h]
    · simp [hk]
  · rw [if_neg h, tabGet_insert]

/-! ### The canonical form -/

/-- The keys of a table. -/
theorem tabWf_iff [DecidableEq α] (d : Nat → α) (t : List (Nat × α)) :
    tabWf d t = true ↔ t.Pairwise (fun a b => a.1 < b.1) ∧ ∀ e ∈ t, e.2 ≠ d e.1 := by
  simp [tabWf, List.pairwise_map]

theorem tabWf_filter [DecidableEq α] (d : Nat → α) (p : Nat × α → Bool) (t : List (Nat × α)) (h : tabWf d t = true) :
    tabWf d (t.filter p) = true := by
  rw [tabWf_iff] at h ⊢
  exact ⟨h.1.filter _, fun e he => h.2 e (List.mem_filter.mp he).1⟩

theorem tabWf_erase [DecidableEq α] (d : Nat → α) (k : Nat) (t : List (Nat × α)) (h : tabWf d t = true) :
    tabWf d (tabErase k t) = true := tabWf_filter d _ t h

theorem tabWf_clear [DecidableEq α] (d : Nat → α) (p : Nat → Bool) (t : List (Nat × α)) (h : tabWf d t = true) :
    tabWf d (tabClear p t) = true := tabWf_filter d _ t h

theorem mem_tabInsert (k : Nat) (v : α) (t : List (Nat × α)) (e : Nat × α) (h : e ∈ tabInsert k v t) :
    e = (k, v) ∨ e ∈ t := by
  induction t with
  | nil => simpa [tabInsert] using h
  | cons p t ih =>
    obtain ⟨a, x⟩ := p
    simp only [tabInsert] at h
    split at h
    · simpa using h
    · split at h
      · rcases List.mem_cons.mp h with h | h
        · exact .inl h
        · exact .inr (List.mem_cons_of_mem _ h)
      · rcases List.mem_cons.mp h with h | h
        · exact .inr (h ▸ List.mem_cons_self ..)
        · rcases ih h with h | h
          · exact .inl h
          · exact .inr (List.mem_cons_of_mem _ h)

theorem pairwise_tabInsert (k : Nat) (v : α) (t : List (Nat × α)) (h : t.Pairwise (fun a b => a.1 < b.1)) :
    (tabInsert k v t).Pairwise (fun a b => a.1 < b.1) := by
  induction t with
  | nil => simp [tabInsert]
  | cons p t ih =>
    obtain ⟨a, x⟩ := p
    rw [List.pairwise_cons] at h
    simp only [tabInsert]
    split
    · rename_i hk
      refine List.pairwise_cons.mpr ⟨?_, List.pairwise_cons.mpr h⟩
      intro b hb
      rcases List.mem_cons.mp hb with hb | hb
      · subst hb; exact hk
      · exact Nat.lt_trans hk (h.1 b hb)
    · split
      · rename_i _ hk
        subst hk
        exact List.pairwise_cons.mpr ⟨h.1, h.2⟩
      · rename_i h1 h2
        refine List.pairwise_cons.mpr ⟨?_, ih h.2⟩
        intro b hb
        rcases mem_tabInsert k v t b hb with hb | hb
        · subst hb; change a < k; omega
        · exact h.1 b hb

theorem tabWf_insert [DecidableEq α] (d : Nat → α) (k : Nat) (v : α) (t : List (Nat × α)) (h : tabWf d t = true) (hv : v ≠ d k) :
    tabWf d (tabInsert k v t) = true := by
  rw [tabWf_iff] at h ⊢
  refine ⟨pairwise_tabInsert k v t h.1, fun e he => ?_⟩
  rcases mem_tabInsert k v t e he with he | he
  · subst he; exact hv
  · exact h.2 e he

theorem tabWf_put [DecidableEq α] (d : Nat → α) (k : Nat) (v : α) (t : List (Nat × α)) (h : tabWf d t = true) :
    tabWf d (tabPut d k v t) = true := by
  unfold tabPut
  split
  · exact tabWf_erase d k t h
  · exact tabWf_insert d k v t h ‹_›

@[simp] theorem tabWf_nil [DecidableEq α] (d : Nat → α) : tabWf d ([] : List (Nat × α)) = true := by simp [tabWf]

/-- Three stretches of a table, each in canonical form and apart, make one. -/
theorem tabWf_append [DecidableEq α] (d : Nat → α) (s t : List (Nat × α)) (hs : tabWf d s = true) (ht : tabWf d t = true)
    (h : ∀ a ∈ s, ∀ b ∈ t, a.1 < b.1) : tabWf d (s ++ t) = true := by
  rw [tabWf_iff] at *
  refine ⟨List.pairwise_append.mpr ⟨hs.1, ht.1, h⟩, fun e he => ?_⟩
  rcases List.mem_append.mp he with he | he
  · exact hs.2 e he
  · exact ht.2 e he

end Sys2Proof.Machine
end

