-- ==== Sys2Proof/Laws/Memory.lean ====
section
/-! SUPPORT. Laws of memory: what a write changes, and that every operation on memory keeps its canonical form. -/

namespace Sys2Proof.Machine

open Sys2Proof

/-! ### One octet -/

theorem octetAt_putOctet (mem : List Host.Cell) (k j : Nat) (v : BitVec 8) :
    octetAt (putOctet mem k v) j = if k = j then v else octetAt mem j := by
  simp [octetAt, putOctet]

theorem wf_putOctet (mem : List Host.Cell) (k : Nat) (v : BitVec 8) (h : Memory.wf mem = true) :
    Memory.wf (putOctet mem k v) = true := tabWf_put cellDefault k v mem h

/-! ### Octets in a row -/

theorem octetAt_putOctets (os : List Octet) (k : Nat) (mem : List Host.Cell) (j : Nat) :
    octetAt (putOctets os k mem) j = if k ≤ j ∧ j < k + os.length then os.getD (j - k) 0 else octetAt mem j := by
  induction os generalizing k mem with
  | nil => simp [putOctets]
  | cons o os ih =>
    rw [putOctets, ih, octetAt_putOctet]
    by_cases h1 : k = j
    · subst h1; simp
    · by_cases h2 : k + 1 ≤ j ∧ j < k + 1 + os.length
      · have h3 : k ≤ j ∧ j < k + (o :: os).length := by simp; omega
        rw [if_pos h2, if_pos h3]
        have h4 : j - k = (j - (k + 1)) + 1 := by omega
        rw [h4]; simp
      · have h3 : ¬ (k ≤ j ∧ j < k + (o :: os).length) := by simp; omega
        rw [if_neg h2, if_neg h3, if_neg h1]

theorem wf_putOctets (os : List Octet) (k : Nat) (mem : List Host.Cell) (h : Memory.wf mem = true) :
    Memory.wf (putOctets os k mem) = true := by
  induction os generalizing k mem with
  | nil => exact h
  | cons o os ih => exact ih _ _ (wf_putOctet mem k o h)

/-! ### Containers -/

@[simp] theorem length_contOctets (c : Cont) : (contOctets c).length = 7 := by simp [contOctets, octetsOfWord]

/-- A container's write changes its own octets and no other. -/
theorem octetAt_putCont (mem : List Host.Cell) (a : Nat) (c : Cont) (j : Nat) :
    octetAt (putCont mem a c) j =
      if 8 * a + 1 ≤ j ∧ j < 8 * a + 8 then (contOctets c).getD (j - (8 * a + 1)) 0 else octetAt mem j := by
  rw [putCont, octetAt_putOctets, length_contOctets]

theorem wf_putCont (mem : List Host.Cell) (a : Nat) (c : Cont) (h : Memory.wf mem = true) :
    Memory.wf (putCont mem a c) = true := wf_putOctets _ _ mem h

/-- A container's write leaves every other container as it was. -/
theorem contAt_putCont_ne (mem : List Host.Cell) (a b : Nat) (c : Cont) (h : a ≠ b) :
    contAt (putCont mem a c) b = contAt mem b := by
  have e : ∀ i, 1 ≤ i → i < 8 → octetAt (putCont mem a c) (8 * b + i) = octetAt mem (8 * b + i) := by
    intro i h1 h2
    rw [octetAt_putCont, if_neg (by omega)]
  simp only [contAt, List.range, List.range.loop, List.map]
  rw [e 1 (by omega) (by omega), e 2 (by omega) (by omega)]
  simp only [Nat.add_assoc, e 3 (by omega) (by omega), e 4 (by omega) (by omega), e 5 (by omega) (by omega),
    e 6 (by omega) (by omega), e 7 (by omega) (by omega), Nat.reduceAdd, Nat.add_zero]

theorem natOfOctets_word (w : Word) : w48 (natOfOctets (octetsOfWord w)) = w := by
  apply BitVec.eq_of_toNat_eq
  have h := w.isLt
  simp only [natOfOctets, octetsOfWord, List.map, List.foldl, w48, BitVec.toNat_ofNat, Nat.shiftRight_eq_div_pow]
  omega

/-- A container reads as it was written. -/
theorem contAt_putCont (mem : List Host.Cell) (a : Nat) (c : Cont) : contAt (putCont mem a c) a = c := by
  have e : ∀ i, 1 ≤ i → i < 8 → octetAt (putCont mem a c) (8 * a + i) = (contOctets c).getD (i - 1) 0 := by
    intro i h1 h2
    rw [octetAt_putCont, if_pos (by omega)]
    congr 1
    omega
  have hp := natOfOctets_word c.pay
  simp only [octetsOfWord, List.map] at hp
  obtain ⟨key, tag, chg, pay⟩ := c
  simp only [contAt, List.range, List.range.loop, List.map]
  simp only [Nat.add_assoc, Nat.reduceAdd, Nat.add_zero, e 1 (by omega) (by omega), e 2 (by omega) (by omega),
    e 3 (by omega) (by omega), e 4 (by omega) (by omega), e 5 (by omega) (by omega),
    e 6 (by omega) (by omega), e 7 (by omega) (by omega)]
  simp only [contOctets, octetsOfWord, List.map, Nat.reduceSub, List.getD_cons_zero, List.getD_cons_succ]
  have hk := key.isLt
  have ht := tag.isLt
  have hb : b2n chg < 2 := by cases chg <;> simp [b2n]
  have hx : (BitVec.ofNat 8 (key.toNat * 16 + tag.toNat * 4 + b2n chg * 2)).toNat =
      key.toNat * 16 + tag.toNat * 4 + b2n chg * 2 := by
    rw [BitVec.toNat_ofNat]; omega
  rw [hx]
  congr 1
  · apply BitVec.eq_of_toNat_eq; rw [BitVec.toNat_ofNat]; omega
  · apply BitVec.eq_of_toNat_eq; rw [BitVec.toNat_ofNat]; omega
  · have : (key.toNat * 16 + tag.toNat * 4 + b2n chg * 2) >>> 1 % 2 = b2n chg := by
      rw [Nat.shiftRight_eq_div_pow]; omega
    unfold nbit
    rw [this]; cases chg <;> simp [b2n]

/-! ### Stretches -/

theorem cellsOf_ge (os : List Octet) (k : Nat) (e : Host.Cell) (h : e ∈ cellsOf os k) :
    k ≤ e.1 ∧ e.1 < k + os.length ∧ e.2 ≠ cellDefault e.1 := by
  induction os generalizing k with
  | nil => simp [cellsOf] at h
  | cons o os ih =>
    simp only [cellsOf] at h
    split at h
    · obtain ⟨h1, h2, h3⟩ := ih _ h
      exact ⟨by omega, by simp; omega, h3⟩
    · rcases List.mem_cons.mp h with h | h
      · subst h; exact ⟨by simp, by simp, ‹_›⟩
      · obtain ⟨h1, h2, h3⟩ := ih _ h
        exact ⟨by omega, by simp; omega, h3⟩

theorem wf_cellsOf (os : List Octet) (k : Nat) : Memory.wf (cellsOf os k) = true := by
  unfold Memory.wf
  rw [tabWf_iff]
  refine ⟨?_, fun e he => (cellsOf_ge os k e he).2.2⟩
  induction os generalizing k with
  | nil => simp [cellsOf]
  | cons o os ih =>
    simp only [cellsOf]
    split
    · exact ih _
    · refine List.pairwise_cons.mpr ⟨fun b hb => ?_, ih _⟩
      have := (cellsOf_ge os (k + 1) b hb).1
      exact Nat.lt_of_succ_le this

@[simp] theorem length_contsOctets (cs : List Cont) : (contsOctets cs).length = 8 * cs.length := by
  induction cs with
  | nil => simp [contsOctets]
  | cons c cs ih => simp [contsOctets] at ih ⊢; omega

theorem wf_spliceConts (mem : List Host.Cell) (a : Nat) (cs : List Cont) (h : Memory.wf mem = true) :
    Memory.wf (spliceConts mem a cs) = true := by
  unfold spliceConts
  have hc := wf_cellsOf (contsOctets cs) (8 * a)
  apply tabWf_append
  · apply tabWf_append
    · exact tabWf_filter _ _ _ h
    · exact hc
    · intro x hx y hy
      have h1 := (cellsOf_ge _ _ y hy).1
      have h2 := (List.mem_filter.mp hx).2
      simp only [decide_eq_true_eq] at h2
      omega
  · exact tabWf_filter _ _ _ h
  · intro x hx y hy
    have h3 := (List.mem_filter.mp hy).2
    simp only [decide_eq_true_eq] at h3
    rcases List.mem_append.mp hx with hx | hx
    · have h2 := (List.mem_filter.mp hx).2
      simp only [decide_eq_true_eq] at h2
      omega
    · have h1 := (cellsOf_ge _ _ x hx).2.1
      rw [length_contsOctets] at h1
      omega

theorem wf_clearConts (mem : List Host.Cell) (a n : Nat) (h : Memory.wf mem = true) :
    Memory.wf (clearConts mem a n) = true := tabWf_clear _ _ _ h

theorem wf_nil : Memory.wf [] = true := tabWf_nil _

/-! ### The state's own operations -/

theorem wf_setCont (m : Mach) (a : Nat) (c : Cont) (h : Memory.wf m.mem = true) : Memory.wf (m.setCont a c).mem = true :=
  wf_putCont _ _ _ h

theorem wf_setWord (m : Mach) (tag a : Nat) (v : Word) (h : Memory.wf m.mem = true) :
    Memory.wf (m.setWord tag a v).mem = true := wf_setCont _ _ _ h

theorem wf_setWords (tag : Nat) (ws : List Word) (a : Nat) (m : Mach) (h : Memory.wf m.mem = true) :
    Memory.wf (m.setWords tag a ws).mem = true := by
  induction ws generalizing a m with
  | nil => simpa [Mach.setWords] using h
  | cons w ws ih => rw [Mach.setWords]; exact ih _ _ (wf_setWord m tag a w h)

theorem reset_memory_wf : Memory.wf State.reset.mem = true := wf_nil

@[simp] theorem cont_setCont (m : Mach) (a b : Nat) (c : Cont) : (m.setCont a c).cont b = if a = b then c else m.cont b := by
  unfold Mach.cont Mach.setCont
  by_cases h : a = b
  · subst h; simp [contAt_putCont]
  · simp [h, contAt_putCont_ne _ _ _ _ h]

end Sys2Proof.Machine
end

