-- ==== Sys2Proof/Laws/State.lean ====
section
/-! SUPPORT. The small laws of the state: what each update does to each field, and what a read gives after each write. -/

namespace Sys2Proof.Machine

open Sys2Proof

/-! ### Mach.setSeat -/

@[simp] theorem Mach.setSeat_regs (m : Mach) (q : Nat) (x : Seat) : (m.setSeat q x).regs = m.regs := rfl
@[simp] theorem Mach.setSeat_ledger (m : Mach) (q : Nat) (x : Seat) : (m.setSeat q x).ledger = m.ledger := rfl
@[simp] theorem Mach.setSeat_mem (m : Mach) (q : Nat) (x : Seat) : (m.setSeat q x).mem = m.mem := rfl
@[simp] theorem Mach.setSeat_now (m : Mach) (q : Nat) (x : Seat) : (m.setSeat q x).now = m.now := rfl
@[simp] theorem Mach.setSeat_rt (m : Mach) (q : Nat) (x : Seat) : (m.setSeat q x).rt = m.rt := rfl
@[simp] theorem Mach.setSeat_refs (m : Mach) (q : Nat) (x : Seat) : (m.setSeat q x).refs = m.refs := rfl
@[simp] theorem Mach.setSeat_pps (m : Mach) (q : Nat) (x : Seat) : (m.setSeat q x).pps = m.pps := rfl
@[simp] theorem Mach.setSeat_pins (m : Mach) (q : Nat) (x : Seat) : (m.setSeat q x).pins = m.pins := rfl
@[simp] theorem Mach.setSeat_openFolio (m : Mach) (q : Nat) (x : Seat) : (m.setSeat q x).openFolio = m.openFolio := rfl
@[simp] theorem Mach.setSeat_closing (m : Mach) (q : Nat) (x : Seat) : (m.setSeat q x).closing = m.closing := rfl
@[simp] theorem Mach.setSeat_merge (m : Mach) (q : Nat) (x : Seat) : (m.setSeat q x).merge = m.merge := rfl
@[simp] theorem Mach.setSeat_order (m : Mach) (q : Nat) (x : Seat) : (m.setSeat q x).order = m.order := rfl
@[simp] theorem Mach.setSeat_judged (m : Mach) (q : Nat) (x : Seat) : (m.setSeat q x).judged = m.judged := rfl
@[simp] theorem Mach.setSeat_ses (m : Mach) (q : Nat) (x : Seat) : (m.setSeat q x).ses = m.ses := rfl
@[simp] theorem Mach.setSeat_tacc (m : Mach) (q : Nat) (x : Seat) : (m.setSeat q x).tacc = m.tacc := rfl
@[simp] theorem Mach.setSeat_twin (m : Mach) (q : Nat) (x : Seat) : (m.setSeat q x).twin = m.twin := rfl
@[simp] theorem Mach.setSeat_sealing (m : Mach) (q : Nat) (x : Seat) : (m.setSeat q x).sealing = m.sealing := rfl
@[simp] theorem Mach.setSeat_jobs (m : Mach) (q : Nat) (x : Seat) : (m.setSeat q x).jobs = m.jobs := rfl
@[simp] theorem Mach.setSeat_replies (m : Mach) (q : Nat) (x : Seat) : (m.setSeat q x).replies = m.replies := rfl
@[simp] theorem Mach.setSeat_rawq (m : Mach) (q : Nat) (x : Seat) : (m.setSeat q x).rawq = m.rawq := rfl
@[simp] theorem Mach.setSeat_plainq (m : Mach) (q : Nat) (x : Seat) : (m.setSeat q x).plainq = m.plainq := rfl
@[simp] theorem Mach.setSeat_lanes (m : Mach) (q : Nat) (x : Seat) : (m.setSeat q x).lanes = m.lanes := rfl
@[simp] theorem Mach.setSeat_xlanes (m : Mach) (q : Nat) (x : Seat) : (m.setSeat q x).xlanes = m.xlanes := rfl
@[simp] theorem Mach.setSeat_engines (m : Mach) (q : Nat) (x : Seat) : (m.setSeat q x).engines = m.engines := rfl
@[simp] theorem Mach.setSeat_tpass (m : Mach) (q : Nat) (x : Seat) : (m.setSeat q x).tpass = m.tpass := rfl
@[simp] theorem Mach.setSeat_cpass (m : Mach) (q : Nat) (x : Seat) : (m.setSeat q x).cpass = m.cpass := rfl
@[simp] theorem Mach.setSeat_carResets (m : Mach) (q : Nat) (x : Seat) : (m.setSeat q x).carResets = m.carResets := rfl
@[simp] theorem Mach.setSeat_carDeletes (m : Mach) (q : Nat) (x : Seat) : (m.setSeat q x).carDeletes = m.carDeletes := rfl
@[simp] theorem Mach.setSeat_srCarrels (m : Mach) (q : Nat) (x : Seat) : (m.setSeat q x).srCarrels = m.srCarrels := rfl
@[simp] theorem Mach.setSeat_tenResets (m : Mach) (q : Nat) (x : Seat) : (m.setSeat q x).tenResets = m.tenResets := rfl
@[simp] theorem Mach.setSeat_clearing (m : Mach) (q : Nat) (x : Seat) : (m.setSeat q x).clearing = m.clearing := rfl
@[simp] theorem Mach.setSeat_notes (m : Mach) (q : Nat) (x : Seat) : (m.setSeat q x).notes = m.notes := rfl
@[simp] theorem Mach.setSeat_stk (m : Mach) (q : Nat) (x : Seat) : (m.setSeat q x).stk = m.stk := rfl
@[simp] theorem Mach.setSeat_units (m : Mach) (q : Nat) (x : Seat) : (m.setSeat q x).units = m.units := rfl
@[simp] theorem Mach.setSeat_l2 (m : Mach) (q : Nat) (x : Seat) : (m.setSeat q x).l2 = m.l2 := rfl
@[simp] theorem Mach.setSeat_l2dirty (m : Mach) (q : Nat) (x : Seat) : (m.setSeat q x).l2dirty = m.l2dirty := rfl
@[simp] theorem Mach.setSeat_rotations (m : Mach) (q : Nat) (x : Seat) : (m.setSeat q x).rotations = m.rotations := rfl
@[simp] theorem Mach.setSeat_rotAt (m : Mach) (q : Nat) (x : Seat) : (m.setSeat q x).rotAt = m.rotAt := rfl
@[simp] theorem Mach.setSeat_memst (m : Mach) (q : Nat) (x : Seat) : (m.setSeat q x).memst = m.memst := rfl
@[simp] theorem Mach.setSeat_sr (m : Mach) (q : Nat) (x : Seat) : (m.setSeat q x).sr = m.sr := rfl
@[simp] theorem Mach.setSeat_kx (m : Mach) (q : Nat) (x : Seat) : (m.setSeat q x).kx = m.kx := rfl
@[simp] theorem Mach.setSeat_kp (m : Mach) (q : Nat) (x : Seat) : (m.setSeat q x).kp = m.kp := rfl
@[simp] theorem Mach.setSeat_uc (m : Mach) (q : Nat) (x : Seat) : (m.setSeat q x).uc = m.uc := rfl
@[simp] theorem Mach.setSeat_en (m : Mach) (q : Nat) (x : Seat) : (m.setSeat q x).en = m.en := rfl
@[simp] theorem Mach.setSeat_sent (m : Mach) (q : Nat) (x : Seat) : (m.setSeat q x).sent = m.sent := rfl
@[simp] theorem Mach.setSeat_free (m : Mach) (q : Nat) (x : Seat) : (m.setSeat q x).free = m.free := rfl
@[simp] theorem Mach.setSeat_held (m : Mach) (q : Nat) (x : Seat) : (m.setSeat q x).held = m.held := rfl

/-! ### Mach.setSess -/

@[simp] theorem Mach.setSess_regs (m : Mach) (q : Nat) (x : LSes) : (m.setSess q x).regs = m.regs := rfl
@[simp] theorem Mach.setSess_mem (m : Mach) (q : Nat) (x : LSes) : (m.setSess q x).mem = m.mem := rfl
@[simp] theorem Mach.setSess_now (m : Mach) (q : Nat) (x : LSes) : (m.setSess q x).now = m.now := rfl
@[simp] theorem Mach.setSess_rt (m : Mach) (q : Nat) (x : LSes) : (m.setSess q x).rt = m.rt := rfl
@[simp] theorem Mach.setSess_refs (m : Mach) (q : Nat) (x : LSes) : (m.setSess q x).refs = m.refs := rfl
@[simp] theorem Mach.setSess_pps (m : Mach) (q : Nat) (x : LSes) : (m.setSess q x).pps = m.pps := rfl
@[simp] theorem Mach.setSess_pins (m : Mach) (q : Nat) (x : LSes) : (m.setSess q x).pins = m.pins := rfl
@[simp] theorem Mach.setSess_openFolio (m : Mach) (q : Nat) (x : LSes) : (m.setSess q x).openFolio = m.openFolio := rfl
@[simp] theorem Mach.setSess_closing (m : Mach) (q : Nat) (x : LSes) : (m.setSess q x).closing = m.closing := rfl
@[simp] theorem Mach.setSess_merge (m : Mach) (q : Nat) (x : LSes) : (m.setSess q x).merge = m.merge := rfl
@[simp] theorem Mach.setSess_order (m : Mach) (q : Nat) (x : LSes) : (m.setSess q x).order = m.order := rfl
@[simp] theorem Mach.setSess_judged (m : Mach) (q : Nat) (x : LSes) : (m.setSess q x).judged = m.judged := rfl
@[simp] theorem Mach.setSess_ses (m : Mach) (q : Nat) (x : LSes) : (m.setSess q x).ses = m.ses := rfl
@[simp] theorem Mach.setSess_tacc (m : Mach) (q : Nat) (x : LSes) : (m.setSess q x).tacc = m.tacc := rfl
@[simp] theorem Mach.setSess_twin (m : Mach) (q : Nat) (x : LSes) : (m.setSess q x).twin = m.twin := rfl
@[simp] theorem Mach.setSess_sealing (m : Mach) (q : Nat) (x : LSes) : (m.setSess q x).sealing = m.sealing := rfl
@[simp] theorem Mach.setSess_jobs (m : Mach) (q : Nat) (x : LSes) : (m.setSess q x).jobs = m.jobs := rfl
@[simp] theorem Mach.setSess_replies (m : Mach) (q : Nat) (x : LSes) : (m.setSess q x).replies = m.replies := rfl
@[simp] theorem Mach.setSess_rawq (m : Mach) (q : Nat) (x : LSes) : (m.setSess q x).rawq = m.rawq := rfl
@[simp] theorem Mach.setSess_plainq (m : Mach) (q : Nat) (x : LSes) : (m.setSess q x).plainq = m.plainq := rfl
@[simp] theorem Mach.setSess_lanes (m : Mach) (q : Nat) (x : LSes) : (m.setSess q x).lanes = m.lanes := rfl
@[simp] theorem Mach.setSess_xlanes (m : Mach) (q : Nat) (x : LSes) : (m.setSess q x).xlanes = m.xlanes := rfl
@[simp] theorem Mach.setSess_engines (m : Mach) (q : Nat) (x : LSes) : (m.setSess q x).engines = m.engines := rfl
@[simp] theorem Mach.setSess_tpass (m : Mach) (q : Nat) (x : LSes) : (m.setSess q x).tpass = m.tpass := rfl
@[simp] theorem Mach.setSess_cpass (m : Mach) (q : Nat) (x : LSes) : (m.setSess q x).cpass = m.cpass := rfl
@[simp] theorem Mach.setSess_carResets (m : Mach) (q : Nat) (x : LSes) : (m.setSess q x).carResets = m.carResets := rfl
@[simp] theorem Mach.setSess_carDeletes (m : Mach) (q : Nat) (x : LSes) : (m.setSess q x).carDeletes = m.carDeletes := rfl
@[simp] theorem Mach.setSess_srCarrels (m : Mach) (q : Nat) (x : LSes) : (m.setSess q x).srCarrels = m.srCarrels := rfl
@[simp] theorem Mach.setSess_tenResets (m : Mach) (q : Nat) (x : LSes) : (m.setSess q x).tenResets = m.tenResets := rfl
@[simp] theorem Mach.setSess_clearing (m : Mach) (q : Nat) (x : LSes) : (m.setSess q x).clearing = m.clearing := rfl
@[simp] theorem Mach.setSess_notes (m : Mach) (q : Nat) (x : LSes) : (m.setSess q x).notes = m.notes := rfl
@[simp] theorem Mach.setSess_stk (m : Mach) (q : Nat) (x : LSes) : (m.setSess q x).stk = m.stk := rfl
@[simp] theorem Mach.setSess_seats (m : Mach) (q : Nat) (x : LSes) : (m.setSess q x).seats = m.seats := rfl
@[simp] theorem Mach.setSess_units (m : Mach) (q : Nat) (x : LSes) : (m.setSess q x).units = m.units := rfl
@[simp] theorem Mach.setSess_l2 (m : Mach) (q : Nat) (x : LSes) : (m.setSess q x).l2 = m.l2 := rfl
@[simp] theorem Mach.setSess_l2dirty (m : Mach) (q : Nat) (x : LSes) : (m.setSess q x).l2dirty = m.l2dirty := rfl
@[simp] theorem Mach.setSess_rotations (m : Mach) (q : Nat) (x : LSes) : (m.setSess q x).rotations = m.rotations := rfl
@[simp] theorem Mach.setSess_rotAt (m : Mach) (q : Nat) (x : LSes) : (m.setSess q x).rotAt = m.rotAt := rfl
@[simp] theorem Mach.setSess_memst (m : Mach) (q : Nat) (x : LSes) : (m.setSess q x).memst = m.memst := rfl
@[simp] theorem Mach.setSess_sr (m : Mach) (q : Nat) (x : LSes) : (m.setSess q x).sr = m.sr := rfl
@[simp] theorem Mach.setSess_kx (m : Mach) (q : Nat) (x : LSes) : (m.setSess q x).kx = m.kx := rfl
@[simp] theorem Mach.setSess_kp (m : Mach) (q : Nat) (x : LSes) : (m.setSess q x).kp = m.kp := rfl
@[simp] theorem Mach.setSess_uc (m : Mach) (q : Nat) (x : LSes) : (m.setSess q x).uc = m.uc := rfl
@[simp] theorem Mach.setSess_en (m : Mach) (q : Nat) (x : LSes) : (m.setSess q x).en = m.en := rfl
@[simp] theorem Mach.setSess_sent (m : Mach) (q : Nat) (x : LSes) : (m.setSess q x).sent = m.sent := rfl
@[simp] theorem Mach.setSess_free (m : Mach) (q : Nat) (x : LSes) : (m.setSess q x).free = m.free := rfl
@[simp] theorem Mach.setSess_held (m : Mach) (q : Nat) (x : LSes) : (m.setSess q x).held = m.held := rfl

/-! ### Mach.setLive -/

@[simp] theorem Mach.setLive_regs (m : Mach) (q : Nat) (x : SesLive) : (m.setLive q x).regs = m.regs := rfl
@[simp] theorem Mach.setLive_ledger (m : Mach) (q : Nat) (x : SesLive) : (m.setLive q x).ledger = m.ledger := rfl
@[simp] theorem Mach.setLive_mem (m : Mach) (q : Nat) (x : SesLive) : (m.setLive q x).mem = m.mem := rfl
@[simp] theorem Mach.setLive_now (m : Mach) (q : Nat) (x : SesLive) : (m.setLive q x).now = m.now := rfl
@[simp] theorem Mach.setLive_rt (m : Mach) (q : Nat) (x : SesLive) : (m.setLive q x).rt = m.rt := rfl
@[simp] theorem Mach.setLive_refs (m : Mach) (q : Nat) (x : SesLive) : (m.setLive q x).refs = m.refs := rfl
@[simp] theorem Mach.setLive_pps (m : Mach) (q : Nat) (x : SesLive) : (m.setLive q x).pps = m.pps := rfl
@[simp] theorem Mach.setLive_pins (m : Mach) (q : Nat) (x : SesLive) : (m.setLive q x).pins = m.pins := rfl
@[simp] theorem Mach.setLive_openFolio (m : Mach) (q : Nat) (x : SesLive) : (m.setLive q x).openFolio = m.openFolio := rfl
@[simp] theorem Mach.setLive_closing (m : Mach) (q : Nat) (x : SesLive) : (m.setLive q x).closing = m.closing := rfl
@[simp] theorem Mach.setLive_merge (m : Mach) (q : Nat) (x : SesLive) : (m.setLive q x).merge = m.merge := rfl
@[simp] theorem Mach.setLive_order (m : Mach) (q : Nat) (x : SesLive) : (m.setLive q x).order = m.order := rfl
@[simp] theorem Mach.setLive_judged (m : Mach) (q : Nat) (x : SesLive) : (m.setLive q x).judged = m.judged := rfl
@[simp] theorem Mach.setLive_tacc (m : Mach) (q : Nat) (x : SesLive) : (m.setLive q x).tacc = m.tacc := rfl
@[simp] theorem Mach.setLive_twin (m : Mach) (q : Nat) (x : SesLive) : (m.setLive q x).twin = m.twin := rfl
@[simp] theorem Mach.setLive_sealing (m : Mach) (q : Nat) (x : SesLive) : (m.setLive q x).sealing = m.sealing := rfl
@[simp] theorem Mach.setLive_jobs (m : Mach) (q : Nat) (x : SesLive) : (m.setLive q x).jobs = m.jobs := rfl
@[simp] theorem Mach.setLive_replies (m : Mach) (q : Nat) (x : SesLive) : (m.setLive q x).replies = m.replies := rfl
@[simp] theorem Mach.setLive_rawq (m : Mach) (q : Nat) (x : SesLive) : (m.setLive q x).rawq = m.rawq := rfl
@[simp] theorem Mach.setLive_plainq (m : Mach) (q : Nat) (x : SesLive) : (m.setLive q x).plainq = m.plainq := rfl
@[simp] theorem Mach.setLive_lanes (m : Mach) (q : Nat) (x : SesLive) : (m.setLive q x).lanes = m.lanes := rfl
@[simp] theorem Mach.setLive_xlanes (m : Mach) (q : Nat) (x : SesLive) : (m.setLive q x).xlanes = m.xlanes := rfl
@[simp] theorem Mach.setLive_engines (m : Mach) (q : Nat) (x : SesLive) : (m.setLive q x).engines = m.engines := rfl
@[simp] theorem Mach.setLive_tpass (m : Mach) (q : Nat) (x : SesLive) : (m.setLive q x).tpass = m.tpass := rfl
@[simp] theorem Mach.setLive_cpass (m : Mach) (q : Nat) (x : SesLive) : (m.setLive q x).cpass = m.cpass := rfl
@[simp] theorem Mach.setLive_carResets (m : Mach) (q : Nat) (x : SesLive) : (m.setLive q x).carResets = m.carResets := rfl
@[simp] theorem Mach.setLive_carDeletes (m : Mach) (q : Nat) (x : SesLive) : (m.setLive q x).carDeletes = m.carDeletes := rfl
@[simp] theorem Mach.setLive_srCarrels (m : Mach) (q : Nat) (x : SesLive) : (m.setLive q x).srCarrels = m.srCarrels := rfl
@[simp] theorem Mach.setLive_tenResets (m : Mach) (q : Nat) (x : SesLive) : (m.setLive q x).tenResets = m.tenResets := rfl
@[simp] theorem Mach.setLive_clearing (m : Mach) (q : Nat) (x : SesLive) : (m.setLive q x).clearing = m.clearing := rfl
@[simp] theorem Mach.setLive_notes (m : Mach) (q : Nat) (x : SesLive) : (m.setLive q x).notes = m.notes := rfl
@[simp] theorem Mach.setLive_stk (m : Mach) (q : Nat) (x : SesLive) : (m.setLive q x).stk = m.stk := rfl
@[simp] theorem Mach.setLive_seats (m : Mach) (q : Nat) (x : SesLive) : (m.setLive q x).seats = m.seats := rfl
@[simp] theorem Mach.setLive_units (m : Mach) (q : Nat) (x : SesLive) : (m.setLive q x).units = m.units := rfl
@[simp] theorem Mach.setLive_l2 (m : Mach) (q : Nat) (x : SesLive) : (m.setLive q x).l2 = m.l2 := rfl
@[simp] theorem Mach.setLive_l2dirty (m : Mach) (q : Nat) (x : SesLive) : (m.setLive q x).l2dirty = m.l2dirty := rfl
@[simp] theorem Mach.setLive_rotations (m : Mach) (q : Nat) (x : SesLive) : (m.setLive q x).rotations = m.rotations := rfl
@[simp] theorem Mach.setLive_rotAt (m : Mach) (q : Nat) (x : SesLive) : (m.setLive q x).rotAt = m.rotAt := rfl
@[simp] theorem Mach.setLive_memst (m : Mach) (q : Nat) (x : SesLive) : (m.setLive q x).memst = m.memst := rfl
@[simp] theorem Mach.setLive_sr (m : Mach) (q : Nat) (x : SesLive) : (m.setLive q x).sr = m.sr := rfl
@[simp] theorem Mach.setLive_kx (m : Mach) (q : Nat) (x : SesLive) : (m.setLive q x).kx = m.kx := rfl
@[simp] theorem Mach.setLive_kp (m : Mach) (q : Nat) (x : SesLive) : (m.setLive q x).kp = m.kp := rfl
@[simp] theorem Mach.setLive_uc (m : Mach) (q : Nat) (x : SesLive) : (m.setLive q x).uc = m.uc := rfl
@[simp] theorem Mach.setLive_en (m : Mach) (q : Nat) (x : SesLive) : (m.setLive q x).en = m.en := rfl
@[simp] theorem Mach.setLive_sent (m : Mach) (q : Nat) (x : SesLive) : (m.setLive q x).sent = m.sent := rfl
@[simp] theorem Mach.setLive_free (m : Mach) (q : Nat) (x : SesLive) : (m.setLive q x).free = m.free := rfl
@[simp] theorem Mach.setLive_held (m : Mach) (q : Nat) (x : SesLive) : (m.setLive q x).held = m.held := rfl

/-! ### Mach.setAcc -/

@[simp] theorem Mach.setAcc_regs (m : Mach) (q : Nat) (x : TAcc) : (m.setAcc q x).regs = m.regs := rfl
@[simp] theorem Mach.setAcc_ledger (m : Mach) (q : Nat) (x : TAcc) : (m.setAcc q x).ledger = m.ledger := rfl
@[simp] theorem Mach.setAcc_mem (m : Mach) (q : Nat) (x : TAcc) : (m.setAcc q x).mem = m.mem := rfl
@[simp] theorem Mach.setAcc_now (m : Mach) (q : Nat) (x : TAcc) : (m.setAcc q x).now = m.now := rfl
@[simp] theorem Mach.setAcc_rt (m : Mach) (q : Nat) (x : TAcc) : (m.setAcc q x).rt = m.rt := rfl
@[simp] theorem Mach.setAcc_refs (m : Mach) (q : Nat) (x : TAcc) : (m.setAcc q x).refs = m.refs := rfl
@[simp] theorem Mach.setAcc_pps (m : Mach) (q : Nat) (x : TAcc) : (m.setAcc q x).pps = m.pps := rfl
@[simp] theorem Mach.setAcc_pins (m : Mach) (q : Nat) (x : TAcc) : (m.setAcc q x).pins = m.pins := rfl
@[simp] theorem Mach.setAcc_openFolio (m : Mach) (q : Nat) (x : TAcc) : (m.setAcc q x).openFolio = m.openFolio := rfl
@[simp] theorem Mach.setAcc_closing (m : Mach) (q : Nat) (x : TAcc) : (m.setAcc q x).closing = m.closing := rfl
@[simp] theorem Mach.setAcc_merge (m : Mach) (q : Nat) (x : TAcc) : (m.setAcc q x).merge = m.merge := rfl
@[simp] theorem Mach.setAcc_order (m : Mach) (q : Nat) (x : TAcc) : (m.setAcc q x).order = m.order := rfl
@[simp] theorem Mach.setAcc_judged (m : Mach) (q : Nat) (x : TAcc) : (m.setAcc q x).judged = m.judged := rfl
@[simp] theorem Mach.setAcc_ses (m : Mach) (q : Nat) (x : TAcc) : (m.setAcc q x).ses = m.ses := rfl
@[simp] theorem Mach.setAcc_twin (m : Mach) (q : Nat) (x : TAcc) : (m.setAcc q x).twin = m.twin := rfl
@[simp] theorem Mach.setAcc_sealing (m : Mach) (q : Nat) (x : TAcc) : (m.setAcc q x).sealing = m.sealing := rfl
@[simp] theorem Mach.setAcc_jobs (m : Mach) (q : Nat) (x : TAcc) : (m.setAcc q x).jobs = m.jobs := rfl
@[simp] theorem Mach.setAcc_replies (m : Mach) (q : Nat) (x : TAcc) : (m.setAcc q x).replies = m.replies := rfl
@[simp] theorem Mach.setAcc_rawq (m : Mach) (q : Nat) (x : TAcc) : (m.setAcc q x).rawq = m.rawq := rfl
@[simp] theorem Mach.setAcc_plainq (m : Mach) (q : Nat) (x : TAcc) : (m.setAcc q x).plainq = m.plainq := rfl
@[simp] theorem Mach.setAcc_lanes (m : Mach) (q : Nat) (x : TAcc) : (m.setAcc q x).lanes = m.lanes := rfl
@[simp] theorem Mach.setAcc_xlanes (m : Mach) (q : Nat) (x : TAcc) : (m.setAcc q x).xlanes = m.xlanes := rfl
@[simp] theorem Mach.setAcc_engines (m : Mach) (q : Nat) (x : TAcc) : (m.setAcc q x).engines = m.engines := rfl
@[simp] theorem Mach.setAcc_tpass (m : Mach) (q : Nat) (x : TAcc) : (m.setAcc q x).tpass = m.tpass := rfl
@[simp] theorem Mach.setAcc_cpass (m : Mach) (q : Nat) (x : TAcc) : (m.setAcc q x).cpass = m.cpass := rfl
@[simp] theorem Mach.setAcc_carResets (m : Mach) (q : Nat) (x : TAcc) : (m.setAcc q x).carResets = m.carResets := rfl
@[simp] theorem Mach.setAcc_carDeletes (m : Mach) (q : Nat) (x : TAcc) : (m.setAcc q x).carDeletes = m.carDeletes := rfl
@[simp] theorem Mach.setAcc_srCarrels (m : Mach) (q : Nat) (x : TAcc) : (m.setAcc q x).srCarrels = m.srCarrels := rfl
@[simp] theorem Mach.setAcc_tenResets (m : Mach) (q : Nat) (x : TAcc) : (m.setAcc q x).tenResets = m.tenResets := rfl
@[simp] theorem Mach.setAcc_clearing (m : Mach) (q : Nat) (x : TAcc) : (m.setAcc q x).clearing = m.clearing := rfl
@[simp] theorem Mach.setAcc_notes (m : Mach) (q : Nat) (x : TAcc) : (m.setAcc q x).notes = m.notes := rfl
@[simp] theorem Mach.setAcc_stk (m : Mach) (q : Nat) (x : TAcc) : (m.setAcc q x).stk = m.stk := rfl
@[simp] theorem Mach.setAcc_seats (m : Mach) (q : Nat) (x : TAcc) : (m.setAcc q x).seats = m.seats := rfl
@[simp] theorem Mach.setAcc_units (m : Mach) (q : Nat) (x : TAcc) : (m.setAcc q x).units = m.units := rfl
@[simp] theorem Mach.setAcc_l2 (m : Mach) (q : Nat) (x : TAcc) : (m.setAcc q x).l2 = m.l2 := rfl
@[simp] theorem Mach.setAcc_l2dirty (m : Mach) (q : Nat) (x : TAcc) : (m.setAcc q x).l2dirty = m.l2dirty := rfl
@[simp] theorem Mach.setAcc_rotations (m : Mach) (q : Nat) (x : TAcc) : (m.setAcc q x).rotations = m.rotations := rfl
@[simp] theorem Mach.setAcc_rotAt (m : Mach) (q : Nat) (x : TAcc) : (m.setAcc q x).rotAt = m.rotAt := rfl
@[simp] theorem Mach.setAcc_memst (m : Mach) (q : Nat) (x : TAcc) : (m.setAcc q x).memst = m.memst := rfl
@[simp] theorem Mach.setAcc_sr (m : Mach) (q : Nat) (x : TAcc) : (m.setAcc q x).sr = m.sr := rfl
@[simp] theorem Mach.setAcc_kx (m : Mach) (q : Nat) (x : TAcc) : (m.setAcc q x).kx = m.kx := rfl
@[simp] theorem Mach.setAcc_kp (m : Mach) (q : Nat) (x : TAcc) : (m.setAcc q x).kp = m.kp := rfl
@[simp] theorem Mach.setAcc_uc (m : Mach) (q : Nat) (x : TAcc) : (m.setAcc q x).uc = m.uc := rfl
@[simp] theorem Mach.setAcc_en (m : Mach) (q : Nat) (x : TAcc) : (m.setAcc q x).en = m.en := rfl
@[simp] theorem Mach.setAcc_sent (m : Mach) (q : Nat) (x : TAcc) : (m.setAcc q x).sent = m.sent := rfl
@[simp] theorem Mach.setAcc_free (m : Mach) (q : Nat) (x : TAcc) : (m.setAcc q x).free = m.free := rfl
@[simp] theorem Mach.setAcc_held (m : Mach) (q : Nat) (x : TAcc) : (m.setAcc q x).held = m.held := rfl

/-! ### Mach.setEbell -/

@[simp] theorem Mach.setEbell_regs (m : Mach) (q : Nat) (x : EBell) : (m.setEbell q x).regs = m.regs := rfl
@[simp] theorem Mach.setEbell_mem (m : Mach) (q : Nat) (x : EBell) : (m.setEbell q x).mem = m.mem := rfl
@[simp] theorem Mach.setEbell_now (m : Mach) (q : Nat) (x : EBell) : (m.setEbell q x).now = m.now := rfl
@[simp] theorem Mach.setEbell_rt (m : Mach) (q : Nat) (x : EBell) : (m.setEbell q x).rt = m.rt := rfl
@[simp] theorem Mach.setEbell_refs (m : Mach) (q : Nat) (x : EBell) : (m.setEbell q x).refs = m.refs := rfl
@[simp] theorem Mach.setEbell_pps (m : Mach) (q : Nat) (x : EBell) : (m.setEbell q x).pps = m.pps := rfl
@[simp] theorem Mach.setEbell_pins (m : Mach) (q : Nat) (x : EBell) : (m.setEbell q x).pins = m.pins := rfl
@[simp] theorem Mach.setEbell_openFolio (m : Mach) (q : Nat) (x : EBell) : (m.setEbell q x).openFolio = m.openFolio := rfl
@[simp] theorem Mach.setEbell_closing (m : Mach) (q : Nat) (x : EBell) : (m.setEbell q x).closing = m.closing := rfl
@[simp] theorem Mach.setEbell_merge (m : Mach) (q : Nat) (x : EBell) : (m.setEbell q x).merge = m.merge := rfl
@[simp] theorem Mach.setEbell_order (m : Mach) (q : Nat) (x : EBell) : (m.setEbell q x).order = m.order := rfl
@[simp] theorem Mach.setEbell_judged (m : Mach) (q : Nat) (x : EBell) : (m.setEbell q x).judged = m.judged := rfl
@[simp] theorem Mach.setEbell_ses (m : Mach) (q : Nat) (x : EBell) : (m.setEbell q x).ses = m.ses := rfl
@[simp] theorem Mach.setEbell_tacc (m : Mach) (q : Nat) (x : EBell) : (m.setEbell q x).tacc = m.tacc := rfl
@[simp] theorem Mach.setEbell_twin (m : Mach) (q : Nat) (x : EBell) : (m.setEbell q x).twin = m.twin := rfl
@[simp] theorem Mach.setEbell_sealing (m : Mach) (q : Nat) (x : EBell) : (m.setEbell q x).sealing = m.sealing := rfl
@[simp] theorem Mach.setEbell_jobs (m : Mach) (q : Nat) (x : EBell) : (m.setEbell q x).jobs = m.jobs := rfl
@[simp] theorem Mach.setEbell_replies (m : Mach) (q : Nat) (x : EBell) : (m.setEbell q x).replies = m.replies := rfl
@[simp] theorem Mach.setEbell_rawq (m : Mach) (q : Nat) (x : EBell) : (m.setEbell q x).rawq = m.rawq := rfl
@[simp] theorem Mach.setEbell_plainq (m : Mach) (q : Nat) (x : EBell) : (m.setEbell q x).plainq = m.plainq := rfl
@[simp] theorem Mach.setEbell_lanes (m : Mach) (q : Nat) (x : EBell) : (m.setEbell q x).lanes = m.lanes := rfl
@[simp] theorem Mach.setEbell_xlanes (m : Mach) (q : Nat) (x : EBell) : (m.setEbell q x).xlanes = m.xlanes := rfl
@[simp] theorem Mach.setEbell_engines (m : Mach) (q : Nat) (x : EBell) : (m.setEbell q x).engines = m.engines := rfl
@[simp] theorem Mach.setEbell_tpass (m : Mach) (q : Nat) (x : EBell) : (m.setEbell q x).tpass = m.tpass := rfl
@[simp] theorem Mach.setEbell_cpass (m : Mach) (q : Nat) (x : EBell) : (m.setEbell q x).cpass = m.cpass := rfl
@[simp] theorem Mach.setEbell_carResets (m : Mach) (q : Nat) (x : EBell) : (m.setEbell q x).carResets = m.carResets := rfl
@[simp] theorem Mach.setEbell_carDeletes (m : Mach) (q : Nat) (x : EBell) : (m.setEbell q x).carDeletes = m.carDeletes := rfl
@[simp] theorem Mach.setEbell_srCarrels (m : Mach) (q : Nat) (x : EBell) : (m.setEbell q x).srCarrels = m.srCarrels := rfl
@[simp] theorem Mach.setEbell_tenResets (m : Mach) (q : Nat) (x : EBell) : (m.setEbell q x).tenResets = m.tenResets := rfl
@[simp] theorem Mach.setEbell_clearing (m : Mach) (q : Nat) (x : EBell) : (m.setEbell q x).clearing = m.clearing := rfl
@[simp] theorem Mach.setEbell_notes (m : Mach) (q : Nat) (x : EBell) : (m.setEbell q x).notes = m.notes := rfl
@[simp] theorem Mach.setEbell_stk (m : Mach) (q : Nat) (x : EBell) : (m.setEbell q x).stk = m.stk := rfl
@[simp] theorem Mach.setEbell_seats (m : Mach) (q : Nat) (x : EBell) : (m.setEbell q x).seats = m.seats := rfl
@[simp] theorem Mach.setEbell_units (m : Mach) (q : Nat) (x : EBell) : (m.setEbell q x).units = m.units := rfl
@[simp] theorem Mach.setEbell_l2 (m : Mach) (q : Nat) (x : EBell) : (m.setEbell q x).l2 = m.l2 := rfl
@[simp] theorem Mach.setEbell_l2dirty (m : Mach) (q : Nat) (x : EBell) : (m.setEbell q x).l2dirty = m.l2dirty := rfl
@[simp] theorem Mach.setEbell_rotations (m : Mach) (q : Nat) (x : EBell) : (m.setEbell q x).rotations = m.rotations := rfl
@[simp] theorem Mach.setEbell_rotAt (m : Mach) (q : Nat) (x : EBell) : (m.setEbell q x).rotAt = m.rotAt := rfl
@[simp] theorem Mach.setEbell_memst (m : Mach) (q : Nat) (x : EBell) : (m.setEbell q x).memst = m.memst := rfl
@[simp] theorem Mach.setEbell_sr (m : Mach) (q : Nat) (x : EBell) : (m.setEbell q x).sr = m.sr := rfl
@[simp] theorem Mach.setEbell_kx (m : Mach) (q : Nat) (x : EBell) : (m.setEbell q x).kx = m.kx := rfl
@[simp] theorem Mach.setEbell_kp (m : Mach) (q : Nat) (x : EBell) : (m.setEbell q x).kp = m.kp := rfl
@[simp] theorem Mach.setEbell_uc (m : Mach) (q : Nat) (x : EBell) : (m.setEbell q x).uc = m.uc := rfl
@[simp] theorem Mach.setEbell_en (m : Mach) (q : Nat) (x : EBell) : (m.setEbell q x).en = m.en := rfl
@[simp] theorem Mach.setEbell_sent (m : Mach) (q : Nat) (x : EBell) : (m.setEbell q x).sent = m.sent := rfl
@[simp] theorem Mach.setEbell_free (m : Mach) (q : Nat) (x : EBell) : (m.setEbell q x).free = m.free := rfl
@[simp] theorem Mach.setEbell_held (m : Mach) (q : Nat) (x : EBell) : (m.setEbell q x).held = m.held := rfl

/-! ### Mach.setEgate -/

@[simp] theorem Mach.setEgate_regs (m : Mach) (q : Nat) (x : Word) : (m.setEgate q x).regs = m.regs := rfl
@[simp] theorem Mach.setEgate_mem (m : Mach) (q : Nat) (x : Word) : (m.setEgate q x).mem = m.mem := rfl
@[simp] theorem Mach.setEgate_now (m : Mach) (q : Nat) (x : Word) : (m.setEgate q x).now = m.now := rfl
@[simp] theorem Mach.setEgate_rt (m : Mach) (q : Nat) (x : Word) : (m.setEgate q x).rt = m.rt := rfl
@[simp] theorem Mach.setEgate_refs (m : Mach) (q : Nat) (x : Word) : (m.setEgate q x).refs = m.refs := rfl
@[simp] theorem Mach.setEgate_pps (m : Mach) (q : Nat) (x : Word) : (m.setEgate q x).pps = m.pps := rfl
@[simp] theorem Mach.setEgate_pins (m : Mach) (q : Nat) (x : Word) : (m.setEgate q x).pins = m.pins := rfl
@[simp] theorem Mach.setEgate_openFolio (m : Mach) (q : Nat) (x : Word) : (m.setEgate q x).openFolio = m.openFolio := rfl
@[simp] theorem Mach.setEgate_closing (m : Mach) (q : Nat) (x : Word) : (m.setEgate q x).closing = m.closing := rfl
@[simp] theorem Mach.setEgate_merge (m : Mach) (q : Nat) (x : Word) : (m.setEgate q x).merge = m.merge := rfl
@[simp] theorem Mach.setEgate_order (m : Mach) (q : Nat) (x : Word) : (m.setEgate q x).order = m.order := rfl
@[simp] theorem Mach.setEgate_judged (m : Mach) (q : Nat) (x : Word) : (m.setEgate q x).judged = m.judged := rfl
@[simp] theorem Mach.setEgate_ses (m : Mach) (q : Nat) (x : Word) : (m.setEgate q x).ses = m.ses := rfl
@[simp] theorem Mach.setEgate_tacc (m : Mach) (q : Nat) (x : Word) : (m.setEgate q x).tacc = m.tacc := rfl
@[simp] theorem Mach.setEgate_twin (m : Mach) (q : Nat) (x : Word) : (m.setEgate q x).twin = m.twin := rfl
@[simp] theorem Mach.setEgate_sealing (m : Mach) (q : Nat) (x : Word) : (m.setEgate q x).sealing = m.sealing := rfl
@[simp] theorem Mach.setEgate_jobs (m : Mach) (q : Nat) (x : Word) : (m.setEgate q x).jobs = m.jobs := rfl
@[simp] theorem Mach.setEgate_replies (m : Mach) (q : Nat) (x : Word) : (m.setEgate q x).replies = m.replies := rfl
@[simp] theorem Mach.setEgate_rawq (m : Mach) (q : Nat) (x : Word) : (m.setEgate q x).rawq = m.rawq := rfl
@[simp] theorem Mach.setEgate_plainq (m : Mach) (q : Nat) (x : Word) : (m.setEgate q x).plainq = m.plainq := rfl
@[simp] theorem Mach.setEgate_lanes (m : Mach) (q : Nat) (x : Word) : (m.setEgate q x).lanes = m.lanes := rfl
@[simp] theorem Mach.setEgate_xlanes (m : Mach) (q : Nat) (x : Word) : (m.setEgate q x).xlanes = m.xlanes := rfl
@[simp] theorem Mach.setEgate_engines (m : Mach) (q : Nat) (x : Word) : (m.setEgate q x).engines = m.engines := rfl
@[simp] theorem Mach.setEgate_tpass (m : Mach) (q : Nat) (x : Word) : (m.setEgate q x).tpass = m.tpass := rfl
@[simp] theorem Mach.setEgate_cpass (m : Mach) (q : Nat) (x : Word) : (m.setEgate q x).cpass = m.cpass := rfl
@[simp] theorem Mach.setEgate_carResets (m : Mach) (q : Nat) (x : Word) : (m.setEgate q x).carResets = m.carResets := rfl
@[simp] theorem Mach.setEgate_carDeletes (m : Mach) (q : Nat) (x : Word) : (m.setEgate q x).carDeletes = m.carDeletes := rfl
@[simp] theorem Mach.setEgate_srCarrels (m : Mach) (q : Nat) (x : Word) : (m.setEgate q x).srCarrels = m.srCarrels := rfl
@[simp] theorem Mach.setEgate_tenResets (m : Mach) (q : Nat) (x : Word) : (m.setEgate q x).tenResets = m.tenResets := rfl
@[simp] theorem Mach.setEgate_clearing (m : Mach) (q : Nat) (x : Word) : (m.setEgate q x).clearing = m.clearing := rfl
@[simp] theorem Mach.setEgate_notes (m : Mach) (q : Nat) (x : Word) : (m.setEgate q x).notes = m.notes := rfl
@[simp] theorem Mach.setEgate_stk (m : Mach) (q : Nat) (x : Word) : (m.setEgate q x).stk = m.stk := rfl
@[simp] theorem Mach.setEgate_seats (m : Mach) (q : Nat) (x : Word) : (m.setEgate q x).seats = m.seats := rfl
@[simp] theorem Mach.setEgate_units (m : Mach) (q : Nat) (x : Word) : (m.setEgate q x).units = m.units := rfl
@[simp] theorem Mach.setEgate_l2 (m : Mach) (q : Nat) (x : Word) : (m.setEgate q x).l2 = m.l2 := rfl
@[simp] theorem Mach.setEgate_l2dirty (m : Mach) (q : Nat) (x : Word) : (m.setEgate q x).l2dirty = m.l2dirty := rfl
@[simp] theorem Mach.setEgate_rotations (m : Mach) (q : Nat) (x : Word) : (m.setEgate q x).rotations = m.rotations := rfl
@[simp] theorem Mach.setEgate_rotAt (m : Mach) (q : Nat) (x : Word) : (m.setEgate q x).rotAt = m.rotAt := rfl
@[simp] theorem Mach.setEgate_memst (m : Mach) (q : Nat) (x : Word) : (m.setEgate q x).memst = m.memst := rfl
@[simp] theorem Mach.setEgate_sr (m : Mach) (q : Nat) (x : Word) : (m.setEgate q x).sr = m.sr := rfl
@[simp] theorem Mach.setEgate_kx (m : Mach) (q : Nat) (x : Word) : (m.setEgate q x).kx = m.kx := rfl
@[simp] theorem Mach.setEgate_kp (m : Mach) (q : Nat) (x : Word) : (m.setEgate q x).kp = m.kp := rfl
@[simp] theorem Mach.setEgate_uc (m : Mach) (q : Nat) (x : Word) : (m.setEgate q x).uc = m.uc := rfl
@[simp] theorem Mach.setEgate_en (m : Mach) (q : Nat) (x : Word) : (m.setEgate q x).en = m.en := rfl
@[simp] theorem Mach.setEgate_sent (m : Mach) (q : Nat) (x : Word) : (m.setEgate q x).sent = m.sent := rfl
@[simp] theorem Mach.setEgate_free (m : Mach) (q : Nat) (x : Word) : (m.setEgate q x).free = m.free := rfl
@[simp] theorem Mach.setEgate_held (m : Mach) (q : Nat) (x : Word) : (m.setEgate q x).held = m.held := rfl

/-! ### Mach.setEngine -/

@[simp] theorem Mach.setEngine_regs (m : Mach) (q : Nat) (x : Engine) : (m.setEngine q x).regs = m.regs := rfl
@[simp] theorem Mach.setEngine_ledger (m : Mach) (q : Nat) (x : Engine) : (m.setEngine q x).ledger = m.ledger := rfl
@[simp] theorem Mach.setEngine_mem (m : Mach) (q : Nat) (x : Engine) : (m.setEngine q x).mem = m.mem := rfl
@[simp] theorem Mach.setEngine_now (m : Mach) (q : Nat) (x : Engine) : (m.setEngine q x).now = m.now := rfl
@[simp] theorem Mach.setEngine_rt (m : Mach) (q : Nat) (x : Engine) : (m.setEngine q x).rt = m.rt := rfl
@[simp] theorem Mach.setEngine_refs (m : Mach) (q : Nat) (x : Engine) : (m.setEngine q x).refs = m.refs := rfl
@[simp] theorem Mach.setEngine_pps (m : Mach) (q : Nat) (x : Engine) : (m.setEngine q x).pps = m.pps := rfl
@[simp] theorem Mach.setEngine_pins (m : Mach) (q : Nat) (x : Engine) : (m.setEngine q x).pins = m.pins := rfl
@[simp] theorem Mach.setEngine_openFolio (m : Mach) (q : Nat) (x : Engine) : (m.setEngine q x).openFolio = m.openFolio := rfl
@[simp] theorem Mach.setEngine_closing (m : Mach) (q : Nat) (x : Engine) : (m.setEngine q x).closing = m.closing := rfl
@[simp] theorem Mach.setEngine_merge (m : Mach) (q : Nat) (x : Engine) : (m.setEngine q x).merge = m.merge := rfl
@[simp] theorem Mach.setEngine_order (m : Mach) (q : Nat) (x : Engine) : (m.setEngine q x).order = m.order := rfl
@[simp] theorem Mach.setEngine_judged (m : Mach) (q : Nat) (x : Engine) : (m.setEngine q x).judged = m.judged := rfl
@[simp] theorem Mach.setEngine_ses (m : Mach) (q : Nat) (x : Engine) : (m.setEngine q x).ses = m.ses := rfl
@[simp] theorem Mach.setEngine_tacc (m : Mach) (q : Nat) (x : Engine) : (m.setEngine q x).tacc = m.tacc := rfl
@[simp] theorem Mach.setEngine_twin (m : Mach) (q : Nat) (x : Engine) : (m.setEngine q x).twin = m.twin := rfl
@[simp] theorem Mach.setEngine_sealing (m : Mach) (q : Nat) (x : Engine) : (m.setEngine q x).sealing = m.sealing := rfl
@[simp] theorem Mach.setEngine_jobs (m : Mach) (q : Nat) (x : Engine) : (m.setEngine q x).jobs = m.jobs := rfl
@[simp] theorem Mach.setEngine_replies (m : Mach) (q : Nat) (x : Engine) : (m.setEngine q x).replies = m.replies := rfl
@[simp] theorem Mach.setEngine_rawq (m : Mach) (q : Nat) (x : Engine) : (m.setEngine q x).rawq = m.rawq := rfl
@[simp] theorem Mach.setEngine_plainq (m : Mach) (q : Nat) (x : Engine) : (m.setEngine q x).plainq = m.plainq := rfl
@[simp] theorem Mach.setEngine_lanes (m : Mach) (q : Nat) (x : Engine) : (m.setEngine q x).lanes = m.lanes := rfl
@[simp] theorem Mach.setEngine_xlanes (m : Mach) (q : Nat) (x : Engine) : (m.setEngine q x).xlanes = m.xlanes := rfl
@[simp] theorem Mach.setEngine_tpass (m : Mach) (q : Nat) (x : Engine) : (m.setEngine q x).tpass = m.tpass := rfl
@[simp] theorem Mach.setEngine_cpass (m : Mach) (q : Nat) (x : Engine) : (m.setEngine q x).cpass = m.cpass := rfl
@[simp] theorem Mach.setEngine_carResets (m : Mach) (q : Nat) (x : Engine) : (m.setEngine q x).carResets = m.carResets := rfl
@[simp] theorem Mach.setEngine_carDeletes (m : Mach) (q : Nat) (x : Engine) : (m.setEngine q x).carDeletes = m.carDeletes := rfl
@[simp] theorem Mach.setEngine_srCarrels (m : Mach) (q : Nat) (x : Engine) : (m.setEngine q x).srCarrels = m.srCarrels := rfl
@[simp] theorem Mach.setEngine_tenResets (m : Mach) (q : Nat) (x : Engine) : (m.setEngine q x).tenResets = m.tenResets := rfl
@[simp] theorem Mach.setEngine_clearing (m : Mach) (q : Nat) (x : Engine) : (m.setEngine q x).clearing = m.clearing := rfl
@[simp] theorem Mach.setEngine_notes (m : Mach) (q : Nat) (x : Engine) : (m.setEngine q x).notes = m.notes := rfl
@[simp] theorem Mach.setEngine_stk (m : Mach) (q : Nat) (x : Engine) : (m.setEngine q x).stk = m.stk := rfl
@[simp] theorem Mach.setEngine_seats (m : Mach) (q : Nat) (x : Engine) : (m.setEngine q x).seats = m.seats := rfl
@[simp] theorem Mach.setEngine_units (m : Mach) (q : Nat) (x : Engine) : (m.setEngine q x).units = m.units := rfl
@[simp] theorem Mach.setEngine_l2 (m : Mach) (q : Nat) (x : Engine) : (m.setEngine q x).l2 = m.l2 := rfl
@[simp] theorem Mach.setEngine_l2dirty (m : Mach) (q : Nat) (x : Engine) : (m.setEngine q x).l2dirty = m.l2dirty := rfl
@[simp] theorem Mach.setEngine_rotations (m : Mach) (q : Nat) (x : Engine) : (m.setEngine q x).rotations = m.rotations := rfl
@[simp] theorem Mach.setEngine_rotAt (m : Mach) (q : Nat) (x : Engine) : (m.setEngine q x).rotAt = m.rotAt := rfl
@[simp] theorem Mach.setEngine_memst (m : Mach) (q : Nat) (x : Engine) : (m.setEngine q x).memst = m.memst := rfl
@[simp] theorem Mach.setEngine_sr (m : Mach) (q : Nat) (x : Engine) : (m.setEngine q x).sr = m.sr := rfl
@[simp] theorem Mach.setEngine_kx (m : Mach) (q : Nat) (x : Engine) : (m.setEngine q x).kx = m.kx := rfl
@[simp] theorem Mach.setEngine_kp (m : Mach) (q : Nat) (x : Engine) : (m.setEngine q x).kp = m.kp := rfl
@[simp] theorem Mach.setEngine_uc (m : Mach) (q : Nat) (x : Engine) : (m.setEngine q x).uc = m.uc := rfl
@[simp] theorem Mach.setEngine_en (m : Mach) (q : Nat) (x : Engine) : (m.setEngine q x).en = m.en := rfl
@[simp] theorem Mach.setEngine_sent (m : Mach) (q : Nat) (x : Engine) : (m.setEngine q x).sent = m.sent := rfl
@[simp] theorem Mach.setEngine_free (m : Mach) (q : Nat) (x : Engine) : (m.setEngine q x).free = m.free := rfl
@[simp] theorem Mach.setEngine_held (m : Mach) (q : Nat) (x : Engine) : (m.setEngine q x).held = m.held := rfl

/-! ### Mach.setLane -/

@[simp] theorem Mach.setLane_regs (m : Mach) (q : Nat) (x : Lane) : (m.setLane q x).regs = m.regs := rfl
@[simp] theorem Mach.setLane_ledger (m : Mach) (q : Nat) (x : Lane) : (m.setLane q x).ledger = m.ledger := rfl
@[simp] theorem Mach.setLane_mem (m : Mach) (q : Nat) (x : Lane) : (m.setLane q x).mem = m.mem := rfl
@[simp] theorem Mach.setLane_now (m : Mach) (q : Nat) (x : Lane) : (m.setLane q x).now = m.now := rfl
@[simp] theorem Mach.setLane_rt (m : Mach) (q : Nat) (x : Lane) : (m.setLane q x).rt = m.rt := rfl
@[simp] theorem Mach.setLane_refs (m : Mach) (q : Nat) (x : Lane) : (m.setLane q x).refs = m.refs := rfl
@[simp] theorem Mach.setLane_pps (m : Mach) (q : Nat) (x : Lane) : (m.setLane q x).pps = m.pps := rfl
@[simp] theorem Mach.setLane_pins (m : Mach) (q : Nat) (x : Lane) : (m.setLane q x).pins = m.pins := rfl
@[simp] theorem Mach.setLane_openFolio (m : Mach) (q : Nat) (x : Lane) : (m.setLane q x).openFolio = m.openFolio := rfl
@[simp] theorem Mach.setLane_closing (m : Mach) (q : Nat) (x : Lane) : (m.setLane q x).closing = m.closing := rfl
@[simp] theorem Mach.setLane_merge (m : Mach) (q : Nat) (x : Lane) : (m.setLane q x).merge = m.merge := rfl
@[simp] theorem Mach.setLane_order (m : Mach) (q : Nat) (x : Lane) : (m.setLane q x).order = m.order := rfl
@[simp] theorem Mach.setLane_judged (m : Mach) (q : Nat) (x : Lane) : (m.setLane q x).judged = m.judged := rfl
@[simp] theorem Mach.setLane_ses (m : Mach) (q : Nat) (x : Lane) : (m.setLane q x).ses = m.ses := rfl
@[simp] theorem Mach.setLane_tacc (m : Mach) (q : Nat) (x : Lane) : (m.setLane q x).tacc = m.tacc := rfl
@[simp] theorem Mach.setLane_twin (m : Mach) (q : Nat) (x : Lane) : (m.setLane q x).twin = m.twin := rfl
@[simp] theorem Mach.setLane_sealing (m : Mach) (q : Nat) (x : Lane) : (m.setLane q x).sealing = m.sealing := rfl
@[simp] theorem Mach.setLane_jobs (m : Mach) (q : Nat) (x : Lane) : (m.setLane q x).jobs = m.jobs := rfl
@[simp] theorem Mach.setLane_replies (m : Mach) (q : Nat) (x : Lane) : (m.setLane q x).replies = m.replies := rfl
@[simp] theorem Mach.setLane_rawq (m : Mach) (q : Nat) (x : Lane) : (m.setLane q x).rawq = m.rawq := rfl
@[simp] theorem Mach.setLane_plainq (m : Mach) (q : Nat) (x : Lane) : (m.setLane q x).plainq = m.plainq := rfl
@[simp] theorem Mach.setLane_xlanes (m : Mach) (q : Nat) (x : Lane) : (m.setLane q x).xlanes = m.xlanes := rfl
@[simp] theorem Mach.setLane_engines (m : Mach) (q : Nat) (x : Lane) : (m.setLane q x).engines = m.engines := rfl
@[simp] theorem Mach.setLane_tpass (m : Mach) (q : Nat) (x : Lane) : (m.setLane q x).tpass = m.tpass := rfl
@[simp] theorem Mach.setLane_cpass (m : Mach) (q : Nat) (x : Lane) : (m.setLane q x).cpass = m.cpass := rfl
@[simp] theorem Mach.setLane_carResets (m : Mach) (q : Nat) (x : Lane) : (m.setLane q x).carResets = m.carResets := rfl
@[simp] theorem Mach.setLane_carDeletes (m : Mach) (q : Nat) (x : Lane) : (m.setLane q x).carDeletes = m.carDeletes := rfl
@[simp] theorem Mach.setLane_srCarrels (m : Mach) (q : Nat) (x : Lane) : (m.setLane q x).srCarrels = m.srCarrels := rfl
@[simp] theorem Mach.setLane_tenResets (m : Mach) (q : Nat) (x : Lane) : (m.setLane q x).tenResets = m.tenResets := rfl
@[simp] theorem Mach.setLane_clearing (m : Mach) (q : Nat) (x : Lane) : (m.setLane q x).clearing = m.clearing := rfl
@[simp] theorem Mach.setLane_notes (m : Mach) (q : Nat) (x : Lane) : (m.setLane q x).notes = m.notes := rfl
@[simp] theorem Mach.setLane_stk (m : Mach) (q : Nat) (x : Lane) : (m.setLane q x).stk = m.stk := rfl
@[simp] theorem Mach.setLane_seats (m : Mach) (q : Nat) (x : Lane) : (m.setLane q x).seats = m.seats := rfl
@[simp] theorem Mach.setLane_units (m : Mach) (q : Nat) (x : Lane) : (m.setLane q x).units = m.units := rfl
@[simp] theorem Mach.setLane_l2 (m : Mach) (q : Nat) (x : Lane) : (m.setLane q x).l2 = m.l2 := rfl
@[simp] theorem Mach.setLane_l2dirty (m : Mach) (q : Nat) (x : Lane) : (m.setLane q x).l2dirty = m.l2dirty := rfl
@[simp] theorem Mach.setLane_rotations (m : Mach) (q : Nat) (x : Lane) : (m.setLane q x).rotations = m.rotations := rfl
@[simp] theorem Mach.setLane_rotAt (m : Mach) (q : Nat) (x : Lane) : (m.setLane q x).rotAt = m.rotAt := rfl
@[simp] theorem Mach.setLane_memst (m : Mach) (q : Nat) (x : Lane) : (m.setLane q x).memst = m.memst := rfl
@[simp] theorem Mach.setLane_sr (m : Mach) (q : Nat) (x : Lane) : (m.setLane q x).sr = m.sr := rfl
@[simp] theorem Mach.setLane_kx (m : Mach) (q : Nat) (x : Lane) : (m.setLane q x).kx = m.kx := rfl
@[simp] theorem Mach.setLane_kp (m : Mach) (q : Nat) (x : Lane) : (m.setLane q x).kp = m.kp := rfl
@[simp] theorem Mach.setLane_uc (m : Mach) (q : Nat) (x : Lane) : (m.setLane q x).uc = m.uc := rfl
@[simp] theorem Mach.setLane_en (m : Mach) (q : Nat) (x : Lane) : (m.setLane q x).en = m.en := rfl
@[simp] theorem Mach.setLane_sent (m : Mach) (q : Nat) (x : Lane) : (m.setLane q x).sent = m.sent := rfl
@[simp] theorem Mach.setLane_free (m : Mach) (q : Nat) (x : Lane) : (m.setLane q x).free = m.free := rfl
@[simp] theorem Mach.setLane_held (m : Mach) (q : Nat) (x : Lane) : (m.setLane q x).held = m.held := rfl

/-! ### Mach.setXlane -/

@[simp] theorem Mach.setXlane_regs (m : Mach) (q : Nat) (x : Lane) : (m.setXlane q x).regs = m.regs := rfl
@[simp] theorem Mach.setXlane_ledger (m : Mach) (q : Nat) (x : Lane) : (m.setXlane q x).ledger = m.ledger := rfl
@[simp] theorem Mach.setXlane_mem (m : Mach) (q : Nat) (x : Lane) : (m.setXlane q x).mem = m.mem := rfl
@[simp] theorem Mach.setXlane_now (m : Mach) (q : Nat) (x : Lane) : (m.setXlane q x).now = m.now := rfl
@[simp] theorem Mach.setXlane_rt (m : Mach) (q : Nat) (x : Lane) : (m.setXlane q x).rt = m.rt := rfl
@[simp] theorem Mach.setXlane_refs (m : Mach) (q : Nat) (x : Lane) : (m.setXlane q x).refs = m.refs := rfl
@[simp] theorem Mach.setXlane_pps (m : Mach) (q : Nat) (x : Lane) : (m.setXlane q x).pps = m.pps := rfl
@[simp] theorem Mach.setXlane_pins (m : Mach) (q : Nat) (x : Lane) : (m.setXlane q x).pins = m.pins := rfl
@[simp] theorem Mach.setXlane_openFolio (m : Mach) (q : Nat) (x : Lane) : (m.setXlane q x).openFolio = m.openFolio := rfl
@[simp] theorem Mach.setXlane_closing (m : Mach) (q : Nat) (x : Lane) : (m.setXlane q x).closing = m.closing := rfl
@[simp] theorem Mach.setXlane_merge (m : Mach) (q : Nat) (x : Lane) : (m.setXlane q x).merge = m.merge := rfl
@[simp] theorem Mach.setXlane_order (m : Mach) (q : Nat) (x : Lane) : (m.setXlane q x).order = m.order := rfl
@[simp] theorem Mach.setXlane_judged (m : Mach) (q : Nat) (x : Lane) : (m.setXlane q x).judged = m.judged := rfl
@[simp] theorem Mach.setXlane_ses (m : Mach) (q : Nat) (x : Lane) : (m.setXlane q x).ses = m.ses := rfl
@[simp] theorem Mach.setXlane_tacc (m : Mach) (q : Nat) (x : Lane) : (m.setXlane q x).tacc = m.tacc := rfl
@[simp] theorem Mach.setXlane_twin (m : Mach) (q : Nat) (x : Lane) : (m.setXlane q x).twin = m.twin := rfl
@[simp] theorem Mach.setXlane_sealing (m : Mach) (q : Nat) (x : Lane) : (m.setXlane q x).sealing = m.sealing := rfl
@[simp] theorem Mach.setXlane_jobs (m : Mach) (q : Nat) (x : Lane) : (m.setXlane q x).jobs = m.jobs := rfl
@[simp] theorem Mach.setXlane_replies (m : Mach) (q : Nat) (x : Lane) : (m.setXlane q x).replies = m.replies := rfl
@[simp] theorem Mach.setXlane_rawq (m : Mach) (q : Nat) (x : Lane) : (m.setXlane q x).rawq = m.rawq := rfl
@[simp] theorem Mach.setXlane_plainq (m : Mach) (q : Nat) (x : Lane) : (m.setXlane q x).plainq = m.plainq := rfl
@[simp] theorem Mach.setXlane_lanes (m : Mach) (q : Nat) (x : Lane) : (m.setXlane q x).lanes = m.lanes := rfl
@[simp] theorem Mach.setXlane_engines (m : Mach) (q : Nat) (x : Lane) : (m.setXlane q x).engines = m.engines := rfl
@[simp] theorem Mach.setXlane_tpass (m : Mach) (q : Nat) (x : Lane) : (m.setXlane q x).tpass = m.tpass := rfl
@[simp] theorem Mach.setXlane_cpass (m : Mach) (q : Nat) (x : Lane) : (m.setXlane q x).cpass = m.cpass := rfl
@[simp] theorem Mach.setXlane_carResets (m : Mach) (q : Nat) (x : Lane) : (m.setXlane q x).carResets = m.carResets := rfl
@[simp] theorem Mach.setXlane_carDeletes (m : Mach) (q : Nat) (x : Lane) : (m.setXlane q x).carDeletes = m.carDeletes := rfl
@[simp] theorem Mach.setXlane_srCarrels (m : Mach) (q : Nat) (x : Lane) : (m.setXlane q x).srCarrels = m.srCarrels := rfl
@[simp] theorem Mach.setXlane_tenResets (m : Mach) (q : Nat) (x : Lane) : (m.setXlane q x).tenResets = m.tenResets := rfl
@[simp] theorem Mach.setXlane_clearing (m : Mach) (q : Nat) (x : Lane) : (m.setXlane q x).clearing = m.clearing := rfl
@[simp] theorem Mach.setXlane_notes (m : Mach) (q : Nat) (x : Lane) : (m.setXlane q x).notes = m.notes := rfl
@[simp] theorem Mach.setXlane_stk (m : Mach) (q : Nat) (x : Lane) : (m.setXlane q x).stk = m.stk := rfl
@[simp] theorem Mach.setXlane_seats (m : Mach) (q : Nat) (x : Lane) : (m.setXlane q x).seats = m.seats := rfl
@[simp] theorem Mach.setXlane_units (m : Mach) (q : Nat) (x : Lane) : (m.setXlane q x).units = m.units := rfl
@[simp] theorem Mach.setXlane_l2 (m : Mach) (q : Nat) (x : Lane) : (m.setXlane q x).l2 = m.l2 := rfl
@[simp] theorem Mach.setXlane_l2dirty (m : Mach) (q : Nat) (x : Lane) : (m.setXlane q x).l2dirty = m.l2dirty := rfl
@[simp] theorem Mach.setXlane_rotations (m : Mach) (q : Nat) (x : Lane) : (m.setXlane q x).rotations = m.rotations := rfl
@[simp] theorem Mach.setXlane_rotAt (m : Mach) (q : Nat) (x : Lane) : (m.setXlane q x).rotAt = m.rotAt := rfl
@[simp] theorem Mach.setXlane_memst (m : Mach) (q : Nat) (x : Lane) : (m.setXlane q x).memst = m.memst := rfl
@[simp] theorem Mach.setXlane_sr (m : Mach) (q : Nat) (x : Lane) : (m.setXlane q x).sr = m.sr := rfl
@[simp] theorem Mach.setXlane_kx (m : Mach) (q : Nat) (x : Lane) : (m.setXlane q x).kx = m.kx := rfl
@[simp] theorem Mach.setXlane_kp (m : Mach) (q : Nat) (x : Lane) : (m.setXlane q x).kp = m.kp := rfl
@[simp] theorem Mach.setXlane_uc (m : Mach) (q : Nat) (x : Lane) : (m.setXlane q x).uc = m.uc := rfl
@[simp] theorem Mach.setXlane_en (m : Mach) (q : Nat) (x : Lane) : (m.setXlane q x).en = m.en := rfl
@[simp] theorem Mach.setXlane_sent (m : Mach) (q : Nat) (x : Lane) : (m.setXlane q x).sent = m.sent := rfl
@[simp] theorem Mach.setXlane_free (m : Mach) (q : Nat) (x : Lane) : (m.setXlane q x).free = m.free := rfl
@[simp] theorem Mach.setXlane_held (m : Mach) (q : Nat) (x : Lane) : (m.setXlane q x).held = m.held := rfl

/-! ### Mach.setJob -/

@[simp] theorem Mach.setJob_regs (m : Mach) (q : Nat) (x : Job) : (m.setJob q x).regs = m.regs := rfl
@[simp] theorem Mach.setJob_ledger (m : Mach) (q : Nat) (x : Job) : (m.setJob q x).ledger = m.ledger := rfl
@[simp] theorem Mach.setJob_mem (m : Mach) (q : Nat) (x : Job) : (m.setJob q x).mem = m.mem := rfl
@[simp] theorem Mach.setJob_now (m : Mach) (q : Nat) (x : Job) : (m.setJob q x).now = m.now := rfl
@[simp] theorem Mach.setJob_rt (m : Mach) (q : Nat) (x : Job) : (m.setJob q x).rt = m.rt := rfl
@[simp] theorem Mach.setJob_refs (m : Mach) (q : Nat) (x : Job) : (m.setJob q x).refs = m.refs := rfl
@[simp] theorem Mach.setJob_pps (m : Mach) (q : Nat) (x : Job) : (m.setJob q x).pps = m.pps := rfl
@[simp] theorem Mach.setJob_pins (m : Mach) (q : Nat) (x : Job) : (m.setJob q x).pins = m.pins := rfl
@[simp] theorem Mach.setJob_openFolio (m : Mach) (q : Nat) (x : Job) : (m.setJob q x).openFolio = m.openFolio := rfl
@[simp] theorem Mach.setJob_closing (m : Mach) (q : Nat) (x : Job) : (m.setJob q x).closing = m.closing := rfl
@[simp] theorem Mach.setJob_merge (m : Mach) (q : Nat) (x : Job) : (m.setJob q x).merge = m.merge := rfl
@[simp] theorem Mach.setJob_order (m : Mach) (q : Nat) (x : Job) : (m.setJob q x).order = m.order := rfl
@[simp] theorem Mach.setJob_judged (m : Mach) (q : Nat) (x : Job) : (m.setJob q x).judged = m.judged := rfl
@[simp] theorem Mach.setJob_ses (m : Mach) (q : Nat) (x : Job) : (m.setJob q x).ses = m.ses := rfl
@[simp] theorem Mach.setJob_tacc (m : Mach) (q : Nat) (x : Job) : (m.setJob q x).tacc = m.tacc := rfl
@[simp] theorem Mach.setJob_twin (m : Mach) (q : Nat) (x : Job) : (m.setJob q x).twin = m.twin := rfl
@[simp] theorem Mach.setJob_sealing (m : Mach) (q : Nat) (x : Job) : (m.setJob q x).sealing = m.sealing := rfl
@[simp] theorem Mach.setJob_replies (m : Mach) (q : Nat) (x : Job) : (m.setJob q x).replies = m.replies := rfl
@[simp] theorem Mach.setJob_rawq (m : Mach) (q : Nat) (x : Job) : (m.setJob q x).rawq = m.rawq := rfl
@[simp] theorem Mach.setJob_plainq (m : Mach) (q : Nat) (x : Job) : (m.setJob q x).plainq = m.plainq := rfl
@[simp] theorem Mach.setJob_lanes (m : Mach) (q : Nat) (x : Job) : (m.setJob q x).lanes = m.lanes := rfl
@[simp] theorem Mach.setJob_xlanes (m : Mach) (q : Nat) (x : Job) : (m.setJob q x).xlanes = m.xlanes := rfl
@[simp] theorem Mach.setJob_engines (m : Mach) (q : Nat) (x : Job) : (m.setJob q x).engines = m.engines := rfl
@[simp] theorem Mach.setJob_tpass (m : Mach) (q : Nat) (x : Job) : (m.setJob q x).tpass = m.tpass := rfl
@[simp] theorem Mach.setJob_cpass (m : Mach) (q : Nat) (x : Job) : (m.setJob q x).cpass = m.cpass := rfl
@[simp] theorem Mach.setJob_carResets (m : Mach) (q : Nat) (x : Job) : (m.setJob q x).carResets = m.carResets := rfl
@[simp] theorem Mach.setJob_carDeletes (m : Mach) (q : Nat) (x : Job) : (m.setJob q x).carDeletes = m.carDeletes := rfl
@[simp] theorem Mach.setJob_srCarrels (m : Mach) (q : Nat) (x : Job) : (m.setJob q x).srCarrels = m.srCarrels := rfl
@[simp] theorem Mach.setJob_tenResets (m : Mach) (q : Nat) (x : Job) : (m.setJob q x).tenResets = m.tenResets := rfl
@[simp] theorem Mach.setJob_clearing (m : Mach) (q : Nat) (x : Job) : (m.setJob q x).clearing = m.clearing := rfl
@[simp] theorem Mach.setJob_notes (m : Mach) (q : Nat) (x : Job) : (m.setJob q x).notes = m.notes := rfl
@[simp] theorem Mach.setJob_stk (m : Mach) (q : Nat) (x : Job) : (m.setJob q x).stk = m.stk := rfl
@[simp] theorem Mach.setJob_seats (m : Mach) (q : Nat) (x : Job) : (m.setJob q x).seats = m.seats := rfl
@[simp] theorem Mach.setJob_units (m : Mach) (q : Nat) (x : Job) : (m.setJob q x).units = m.units := rfl
@[simp] theorem Mach.setJob_l2 (m : Mach) (q : Nat) (x : Job) : (m.setJob q x).l2 = m.l2 := rfl
@[simp] theorem Mach.setJob_l2dirty (m : Mach) (q : Nat) (x : Job) : (m.setJob q x).l2dirty = m.l2dirty := rfl
@[simp] theorem Mach.setJob_rotations (m : Mach) (q : Nat) (x : Job) : (m.setJob q x).rotations = m.rotations := rfl
@[simp] theorem Mach.setJob_rotAt (m : Mach) (q : Nat) (x : Job) : (m.setJob q x).rotAt = m.rotAt := rfl
@[simp] theorem Mach.setJob_memst (m : Mach) (q : Nat) (x : Job) : (m.setJob q x).memst = m.memst := rfl
@[simp] theorem Mach.setJob_sr (m : Mach) (q : Nat) (x : Job) : (m.setJob q x).sr = m.sr := rfl
@[simp] theorem Mach.setJob_kx (m : Mach) (q : Nat) (x : Job) : (m.setJob q x).kx = m.kx := rfl
@[simp] theorem Mach.setJob_kp (m : Mach) (q : Nat) (x : Job) : (m.setJob q x).kp = m.kp := rfl
@[simp] theorem Mach.setJob_uc (m : Mach) (q : Nat) (x : Job) : (m.setJob q x).uc = m.uc := rfl
@[simp] theorem Mach.setJob_en (m : Mach) (q : Nat) (x : Job) : (m.setJob q x).en = m.en := rfl
@[simp] theorem Mach.setJob_sent (m : Mach) (q : Nat) (x : Job) : (m.setJob q x).sent = m.sent := rfl
@[simp] theorem Mach.setJob_free (m : Mach) (q : Nat) (x : Job) : (m.setJob q x).free = m.free := rfl
@[simp] theorem Mach.setJob_held (m : Mach) (q : Nat) (x : Job) : (m.setJob q x).held = m.held := rfl

/-! ### Mach.delJob -/

@[simp] theorem Mach.delJob_regs (m : Mach) (q : Nat) : (m.delJob q).regs = m.regs := rfl
@[simp] theorem Mach.delJob_ledger (m : Mach) (q : Nat) : (m.delJob q).ledger = m.ledger := rfl
@[simp] theorem Mach.delJob_mem (m : Mach) (q : Nat) : (m.delJob q).mem = m.mem := rfl
@[simp] theorem Mach.delJob_now (m : Mach) (q : Nat) : (m.delJob q).now = m.now := rfl
@[simp] theorem Mach.delJob_rt (m : Mach) (q : Nat) : (m.delJob q).rt = m.rt := rfl
@[simp] theorem Mach.delJob_refs (m : Mach) (q : Nat) : (m.delJob q).refs = m.refs := rfl
@[simp] theorem Mach.delJob_pps (m : Mach) (q : Nat) : (m.delJob q).pps = m.pps := rfl
@[simp] theorem Mach.delJob_pins (m : Mach) (q : Nat) : (m.delJob q).pins = m.pins := rfl
@[simp] theorem Mach.delJob_openFolio (m : Mach) (q : Nat) : (m.delJob q).openFolio = m.openFolio := rfl
@[simp] theorem Mach.delJob_closing (m : Mach) (q : Nat) : (m.delJob q).closing = m.closing := rfl
@[simp] theorem Mach.delJob_merge (m : Mach) (q : Nat) : (m.delJob q).merge = m.merge := rfl
@[simp] theorem Mach.delJob_order (m : Mach) (q : Nat) : (m.delJob q).order = m.order := rfl
@[simp] theorem Mach.delJob_judged (m : Mach) (q : Nat) : (m.delJob q).judged = m.judged := rfl
@[simp] theorem Mach.delJob_ses (m : Mach) (q : Nat) : (m.delJob q).ses = m.ses := rfl
@[simp] theorem Mach.delJob_tacc (m : Mach) (q : Nat) : (m.delJob q).tacc = m.tacc := rfl
@[simp] theorem Mach.delJob_twin (m : Mach) (q : Nat) : (m.delJob q).twin = m.twin := rfl
@[simp] theorem Mach.delJob_sealing (m : Mach) (q : Nat) : (m.delJob q).sealing = m.sealing := rfl
@[simp] theorem Mach.delJob_replies (m : Mach) (q : Nat) : (m.delJob q).replies = m.replies := rfl
@[simp] theorem Mach.delJob_rawq (m : Mach) (q : Nat) : (m.delJob q).rawq = m.rawq := rfl
@[simp] theorem Mach.delJob_plainq (m : Mach) (q : Nat) : (m.delJob q).plainq = m.plainq := rfl
@[simp] theorem Mach.delJob_lanes (m : Mach) (q : Nat) : (m.delJob q).lanes = m.lanes := rfl
@[simp] theorem Mach.delJob_xlanes (m : Mach) (q : Nat) : (m.delJob q).xlanes = m.xlanes := rfl
@[simp] theorem Mach.delJob_engines (m : Mach) (q : Nat) : (m.delJob q).engines = m.engines := rfl
@[simp] theorem Mach.delJob_tpass (m : Mach) (q : Nat) : (m.delJob q).tpass = m.tpass := rfl
@[simp] theorem Mach.delJob_cpass (m : Mach) (q : Nat) : (m.delJob q).cpass = m.cpass := rfl
@[simp] theorem Mach.delJob_carResets (m : Mach) (q : Nat) : (m.delJob q).carResets = m.carResets := rfl
@[simp] theorem Mach.delJob_carDeletes (m : Mach) (q : Nat) : (m.delJob q).carDeletes = m.carDeletes := rfl
@[simp] theorem Mach.delJob_srCarrels (m : Mach) (q : Nat) : (m.delJob q).srCarrels = m.srCarrels := rfl
@[simp] theorem Mach.delJob_tenResets (m : Mach) (q : Nat) : (m.delJob q).tenResets = m.tenResets := rfl
@[simp] theorem Mach.delJob_clearing (m : Mach) (q : Nat) : (m.delJob q).clearing = m.clearing := rfl
@[simp] theorem Mach.delJob_notes (m : Mach) (q : Nat) : (m.delJob q).notes = m.notes := rfl
@[simp] theorem Mach.delJob_stk (m : Mach) (q : Nat) : (m.delJob q).stk = m.stk := rfl
@[simp] theorem Mach.delJob_seats (m : Mach) (q : Nat) : (m.delJob q).seats = m.seats := rfl
@[simp] theorem Mach.delJob_units (m : Mach) (q : Nat) : (m.delJob q).units = m.units := rfl
@[simp] theorem Mach.delJob_l2 (m : Mach) (q : Nat) : (m.delJob q).l2 = m.l2 := rfl
@[simp] theorem Mach.delJob_l2dirty (m : Mach) (q : Nat) : (m.delJob q).l2dirty = m.l2dirty := rfl
@[simp] theorem Mach.delJob_rotations (m : Mach) (q : Nat) : (m.delJob q).rotations = m.rotations := rfl
@[simp] theorem Mach.delJob_rotAt (m : Mach) (q : Nat) : (m.delJob q).rotAt = m.rotAt := rfl
@[simp] theorem Mach.delJob_memst (m : Mach) (q : Nat) : (m.delJob q).memst = m.memst := rfl
@[simp] theorem Mach.delJob_sr (m : Mach) (q : Nat) : (m.delJob q).sr = m.sr := rfl
@[simp] theorem Mach.delJob_kx (m : Mach) (q : Nat) : (m.delJob q).kx = m.kx := rfl
@[simp] theorem Mach.delJob_kp (m : Mach) (q : Nat) : (m.delJob q).kp = m.kp := rfl
@[simp] theorem Mach.delJob_uc (m : Mach) (q : Nat) : (m.delJob q).uc = m.uc := rfl
@[simp] theorem Mach.delJob_en (m : Mach) (q : Nat) : (m.delJob q).en = m.en := rfl
@[simp] theorem Mach.delJob_sent (m : Mach) (q : Nat) : (m.delJob q).sent = m.sent := rfl
@[simp] theorem Mach.delJob_free (m : Mach) (q : Nat) : (m.delJob q).free = m.free := rfl
@[simp] theorem Mach.delJob_held (m : Mach) (q : Nat) : (m.delJob q).held = m.held := rfl

/-! ### Mach.setQueue -/

@[simp] theorem Mach.setQueue_regs (m : Mach) (q : Nat) (x : List RawTx) : (m.setQueue q x).regs = m.regs := rfl
@[simp] theorem Mach.setQueue_ledger (m : Mach) (q : Nat) (x : List RawTx) : (m.setQueue q x).ledger = m.ledger := rfl
@[simp] theorem Mach.setQueue_mem (m : Mach) (q : Nat) (x : List RawTx) : (m.setQueue q x).mem = m.mem := rfl
@[simp] theorem Mach.setQueue_now (m : Mach) (q : Nat) (x : List RawTx) : (m.setQueue q x).now = m.now := rfl
@[simp] theorem Mach.setQueue_rt (m : Mach) (q : Nat) (x : List RawTx) : (m.setQueue q x).rt = m.rt := rfl
@[simp] theorem Mach.setQueue_refs (m : Mach) (q : Nat) (x : List RawTx) : (m.setQueue q x).refs = m.refs := rfl
@[simp] theorem Mach.setQueue_pps (m : Mach) (q : Nat) (x : List RawTx) : (m.setQueue q x).pps = m.pps := rfl
@[simp] theorem Mach.setQueue_pins (m : Mach) (q : Nat) (x : List RawTx) : (m.setQueue q x).pins = m.pins := rfl
@[simp] theorem Mach.setQueue_openFolio (m : Mach) (q : Nat) (x : List RawTx) : (m.setQueue q x).openFolio = m.openFolio := rfl
@[simp] theorem Mach.setQueue_closing (m : Mach) (q : Nat) (x : List RawTx) : (m.setQueue q x).closing = m.closing := rfl
@[simp] theorem Mach.setQueue_merge (m : Mach) (q : Nat) (x : List RawTx) : (m.setQueue q x).merge = m.merge := rfl
@[simp] theorem Mach.setQueue_order (m : Mach) (q : Nat) (x : List RawTx) : (m.setQueue q x).order = m.order := rfl
@[simp] theorem Mach.setQueue_judged (m : Mach) (q : Nat) (x : List RawTx) : (m.setQueue q x).judged = m.judged := rfl
@[simp] theorem Mach.setQueue_ses (m : Mach) (q : Nat) (x : List RawTx) : (m.setQueue q x).ses = m.ses := rfl
@[simp] theorem Mach.setQueue_tacc (m : Mach) (q : Nat) (x : List RawTx) : (m.setQueue q x).tacc = m.tacc := rfl
@[simp] theorem Mach.setQueue_twin (m : Mach) (q : Nat) (x : List RawTx) : (m.setQueue q x).twin = m.twin := rfl
@[simp] theorem Mach.setQueue_sealing (m : Mach) (q : Nat) (x : List RawTx) : (m.setQueue q x).sealing = m.sealing := rfl
@[simp] theorem Mach.setQueue_jobs (m : Mach) (q : Nat) (x : List RawTx) : (m.setQueue q x).jobs = m.jobs := rfl
@[simp] theorem Mach.setQueue_replies (m : Mach) (q : Nat) (x : List RawTx) : (m.setQueue q x).replies = m.replies := rfl
@[simp] theorem Mach.setQueue_plainq (m : Mach) (q : Nat) (x : List RawTx) : (m.setQueue q x).plainq = m.plainq := rfl
@[simp] theorem Mach.setQueue_lanes (m : Mach) (q : Nat) (x : List RawTx) : (m.setQueue q x).lanes = m.lanes := rfl
@[simp] theorem Mach.setQueue_xlanes (m : Mach) (q : Nat) (x : List RawTx) : (m.setQueue q x).xlanes = m.xlanes := rfl
@[simp] theorem Mach.setQueue_engines (m : Mach) (q : Nat) (x : List RawTx) : (m.setQueue q x).engines = m.engines := rfl
@[simp] theorem Mach.setQueue_tpass (m : Mach) (q : Nat) (x : List RawTx) : (m.setQueue q x).tpass = m.tpass := rfl
@[simp] theorem Mach.setQueue_cpass (m : Mach) (q : Nat) (x : List RawTx) : (m.setQueue q x).cpass = m.cpass := rfl
@[simp] theorem Mach.setQueue_carResets (m : Mach) (q : Nat) (x : List RawTx) : (m.setQueue q x).carResets = m.carResets := rfl
@[simp] theorem Mach.setQueue_carDeletes (m : Mach) (q : Nat) (x : List RawTx) : (m.setQueue q x).carDeletes = m.carDeletes := rfl
@[simp] theorem Mach.setQueue_srCarrels (m : Mach) (q : Nat) (x : List RawTx) : (m.setQueue q x).srCarrels = m.srCarrels := rfl
@[simp] theorem Mach.setQueue_tenResets (m : Mach) (q : Nat) (x : List RawTx) : (m.setQueue q x).tenResets = m.tenResets := rfl
@[simp] theorem Mach.setQueue_clearing (m : Mach) (q : Nat) (x : List RawTx) : (m.setQueue q x).clearing = m.clearing := rfl
@[simp] theorem Mach.setQueue_notes (m : Mach) (q : Nat) (x : List RawTx) : (m.setQueue q x).notes = m.notes := rfl
@[simp] theorem Mach.setQueue_stk (m : Mach) (q : Nat) (x : List RawTx) : (m.setQueue q x).stk = m.stk := rfl
@[simp] theorem Mach.setQueue_seats (m : Mach) (q : Nat) (x : List RawTx) : (m.setQueue q x).seats = m.seats := rfl
@[simp] theorem Mach.setQueue_units (m : Mach) (q : Nat) (x : List RawTx) : (m.setQueue q x).units = m.units := rfl
@[simp] theorem Mach.setQueue_l2 (m : Mach) (q : Nat) (x : List RawTx) : (m.setQueue q x).l2 = m.l2 := rfl
@[simp] theorem Mach.setQueue_l2dirty (m : Mach) (q : Nat) (x : List RawTx) : (m.setQueue q x).l2dirty = m.l2dirty := rfl
@[simp] theorem Mach.setQueue_rotations (m : Mach) (q : Nat) (x : List RawTx) : (m.setQueue q x).rotations = m.rotations := rfl
@[simp] theorem Mach.setQueue_rotAt (m : Mach) (q : Nat) (x : List RawTx) : (m.setQueue q x).rotAt = m.rotAt := rfl
@[simp] theorem Mach.setQueue_memst (m : Mach) (q : Nat) (x : List RawTx) : (m.setQueue q x).memst = m.memst := rfl
@[simp] theorem Mach.setQueue_sr (m : Mach) (q : Nat) (x : List RawTx) : (m.setQueue q x).sr = m.sr := rfl
@[simp] theorem Mach.setQueue_kx (m : Mach) (q : Nat) (x : List RawTx) : (m.setQueue q x).kx = m.kx := rfl
@[simp] theorem Mach.setQueue_kp (m : Mach) (q : Nat) (x : List RawTx) : (m.setQueue q x).kp = m.kp := rfl
@[simp] theorem Mach.setQueue_uc (m : Mach) (q : Nat) (x : List RawTx) : (m.setQueue q x).uc = m.uc := rfl
@[simp] theorem Mach.setQueue_en (m : Mach) (q : Nat) (x : List RawTx) : (m.setQueue q x).en = m.en := rfl
@[simp] theorem Mach.setQueue_sent (m : Mach) (q : Nat) (x : List RawTx) : (m.setQueue q x).sent = m.sent := rfl
@[simp] theorem Mach.setQueue_free (m : Mach) (q : Nat) (x : List RawTx) : (m.setQueue q x).free = m.free := rfl
@[simp] theorem Mach.setQueue_held (m : Mach) (q : Nat) (x : List RawTx) : (m.setQueue q x).held = m.held := rfl

/-! ### Mach.setPlain -/

@[simp] theorem Mach.setPlain_regs (m : Mach) (q : Nat) (x : List PlainRx) : (m.setPlain q x).regs = m.regs := rfl
@[simp] theorem Mach.setPlain_ledger (m : Mach) (q : Nat) (x : List PlainRx) : (m.setPlain q x).ledger = m.ledger := rfl
@[simp] theorem Mach.setPlain_mem (m : Mach) (q : Nat) (x : List PlainRx) : (m.setPlain q x).mem = m.mem := rfl
@[simp] theorem Mach.setPlain_now (m : Mach) (q : Nat) (x : List PlainRx) : (m.setPlain q x).now = m.now := rfl
@[simp] theorem Mach.setPlain_rt (m : Mach) (q : Nat) (x : List PlainRx) : (m.setPlain q x).rt = m.rt := rfl
@[simp] theorem Mach.setPlain_refs (m : Mach) (q : Nat) (x : List PlainRx) : (m.setPlain q x).refs = m.refs := rfl
@[simp] theorem Mach.setPlain_pps (m : Mach) (q : Nat) (x : List PlainRx) : (m.setPlain q x).pps = m.pps := rfl
@[simp] theorem Mach.setPlain_pins (m : Mach) (q : Nat) (x : List PlainRx) : (m.setPlain q x).pins = m.pins := rfl
@[simp] theorem Mach.setPlain_openFolio (m : Mach) (q : Nat) (x : List PlainRx) : (m.setPlain q x).openFolio = m.openFolio := rfl
@[simp] theorem Mach.setPlain_closing (m : Mach) (q : Nat) (x : List PlainRx) : (m.setPlain q x).closing = m.closing := rfl
@[simp] theorem Mach.setPlain_merge (m : Mach) (q : Nat) (x : List PlainRx) : (m.setPlain q x).merge = m.merge := rfl
@[simp] theorem Mach.setPlain_order (m : Mach) (q : Nat) (x : List PlainRx) : (m.setPlain q x).order = m.order := rfl
@[simp] theorem Mach.setPlain_judged (m : Mach) (q : Nat) (x : List PlainRx) : (m.setPlain q x).judged = m.judged := rfl
@[simp] theorem Mach.setPlain_ses (m : Mach) (q : Nat) (x : List PlainRx) : (m.setPlain q x).ses = m.ses := rfl
@[simp] theorem Mach.setPlain_tacc (m : Mach) (q : Nat) (x : List PlainRx) : (m.setPlain q x).tacc = m.tacc := rfl
@[simp] theorem Mach.setPlain_twin (m : Mach) (q : Nat) (x : List PlainRx) : (m.setPlain q x).twin = m.twin := rfl
@[simp] theorem Mach.setPlain_sealing (m : Mach) (q : Nat) (x : List PlainRx) : (m.setPlain q x).sealing = m.sealing := rfl
@[simp] theorem Mach.setPlain_jobs (m : Mach) (q : Nat) (x : List PlainRx) : (m.setPlain q x).jobs = m.jobs := rfl
@[simp] theorem Mach.setPlain_replies (m : Mach) (q : Nat) (x : List PlainRx) : (m.setPlain q x).replies = m.replies := rfl
@[simp] theorem Mach.setPlain_rawq (m : Mach) (q : Nat) (x : List PlainRx) : (m.setPlain q x).rawq = m.rawq := rfl
@[simp] theorem Mach.setPlain_lanes (m : Mach) (q : Nat) (x : List PlainRx) : (m.setPlain q x).lanes = m.lanes := rfl
@[simp] theorem Mach.setPlain_xlanes (m : Mach) (q : Nat) (x : List PlainRx) : (m.setPlain q x).xlanes = m.xlanes := rfl
@[simp] theorem Mach.setPlain_engines (m : Mach) (q : Nat) (x : List PlainRx) : (m.setPlain q x).engines = m.engines := rfl
@[simp] theorem Mach.setPlain_tpass (m : Mach) (q : Nat) (x : List PlainRx) : (m.setPlain q x).tpass = m.tpass := rfl
@[simp] theorem Mach.setPlain_cpass (m : Mach) (q : Nat) (x : List PlainRx) : (m.setPlain q x).cpass = m.cpass := rfl
@[simp] theorem Mach.setPlain_carResets (m : Mach) (q : Nat) (x : List PlainRx) : (m.setPlain q x).carResets = m.carResets := rfl
@[simp] theorem Mach.setPlain_carDeletes (m : Mach) (q : Nat) (x : List PlainRx) : (m.setPlain q x).carDeletes = m.carDeletes := rfl
@[simp] theorem Mach.setPlain_srCarrels (m : Mach) (q : Nat) (x : List PlainRx) : (m.setPlain q x).srCarrels = m.srCarrels := rfl
@[simp] theorem Mach.setPlain_tenResets (m : Mach) (q : Nat) (x : List PlainRx) : (m.setPlain q x).tenResets = m.tenResets := rfl
@[simp] theorem Mach.setPlain_clearing (m : Mach) (q : Nat) (x : List PlainRx) : (m.setPlain q x).clearing = m.clearing := rfl
@[simp] theorem Mach.setPlain_notes (m : Mach) (q : Nat) (x : List PlainRx) : (m.setPlain q x).notes = m.notes := rfl
@[simp] theorem Mach.setPlain_stk (m : Mach) (q : Nat) (x : List PlainRx) : (m.setPlain q x).stk = m.stk := rfl
@[simp] theorem Mach.setPlain_seats (m : Mach) (q : Nat) (x : List PlainRx) : (m.setPlain q x).seats = m.seats := rfl
@[simp] theorem Mach.setPlain_units (m : Mach) (q : Nat) (x : List PlainRx) : (m.setPlain q x).units = m.units := rfl
@[simp] theorem Mach.setPlain_l2 (m : Mach) (q : Nat) (x : List PlainRx) : (m.setPlain q x).l2 = m.l2 := rfl
@[simp] theorem Mach.setPlain_l2dirty (m : Mach) (q : Nat) (x : List PlainRx) : (m.setPlain q x).l2dirty = m.l2dirty := rfl
@[simp] theorem Mach.setPlain_rotations (m : Mach) (q : Nat) (x : List PlainRx) : (m.setPlain q x).rotations = m.rotations := rfl
@[simp] theorem Mach.setPlain_rotAt (m : Mach) (q : Nat) (x : List PlainRx) : (m.setPlain q x).rotAt = m.rotAt := rfl
@[simp] theorem Mach.setPlain_memst (m : Mach) (q : Nat) (x : List PlainRx) : (m.setPlain q x).memst = m.memst := rfl
@[simp] theorem Mach.setPlain_sr (m : Mach) (q : Nat) (x : List PlainRx) : (m.setPlain q x).sr = m.sr := rfl
@[simp] theorem Mach.setPlain_kx (m : Mach) (q : Nat) (x : List PlainRx) : (m.setPlain q x).kx = m.kx := rfl
@[simp] theorem Mach.setPlain_kp (m : Mach) (q : Nat) (x : List PlainRx) : (m.setPlain q x).kp = m.kp := rfl
@[simp] theorem Mach.setPlain_uc (m : Mach) (q : Nat) (x : List PlainRx) : (m.setPlain q x).uc = m.uc := rfl
@[simp] theorem Mach.setPlain_en (m : Mach) (q : Nat) (x : List PlainRx) : (m.setPlain q x).en = m.en := rfl
@[simp] theorem Mach.setPlain_sent (m : Mach) (q : Nat) (x : List PlainRx) : (m.setPlain q x).sent = m.sent := rfl
@[simp] theorem Mach.setPlain_free (m : Mach) (q : Nat) (x : List PlainRx) : (m.setPlain q x).free = m.free := rfl
@[simp] theorem Mach.setPlain_held (m : Mach) (q : Nat) (x : List PlainRx) : (m.setPlain q x).held = m.held := rfl

/-! ### Mach.setUnit -/

@[simp] theorem Mach.setUnit_regs (m : Mach) (q : Nat) (x : CoreUnit) : (m.setUnit q x).regs = m.regs := rfl
@[simp] theorem Mach.setUnit_ledger (m : Mach) (q : Nat) (x : CoreUnit) : (m.setUnit q x).ledger = m.ledger := rfl
@[simp] theorem Mach.setUnit_mem (m : Mach) (q : Nat) (x : CoreUnit) : (m.setUnit q x).mem = m.mem := rfl
@[simp] theorem Mach.setUnit_now (m : Mach) (q : Nat) (x : CoreUnit) : (m.setUnit q x).now = m.now := rfl
@[simp] theorem Mach.setUnit_rt (m : Mach) (q : Nat) (x : CoreUnit) : (m.setUnit q x).rt = m.rt := rfl
@[simp] theorem Mach.setUnit_refs (m : Mach) (q : Nat) (x : CoreUnit) : (m.setUnit q x).refs = m.refs := rfl
@[simp] theorem Mach.setUnit_pps (m : Mach) (q : Nat) (x : CoreUnit) : (m.setUnit q x).pps = m.pps := rfl
@[simp] theorem Mach.setUnit_pins (m : Mach) (q : Nat) (x : CoreUnit) : (m.setUnit q x).pins = m.pins := rfl
@[simp] theorem Mach.setUnit_openFolio (m : Mach) (q : Nat) (x : CoreUnit) : (m.setUnit q x).openFolio = m.openFolio := rfl
@[simp] theorem Mach.setUnit_closing (m : Mach) (q : Nat) (x : CoreUnit) : (m.setUnit q x).closing = m.closing := rfl
@[simp] theorem Mach.setUnit_merge (m : Mach) (q : Nat) (x : CoreUnit) : (m.setUnit q x).merge = m.merge := rfl
@[simp] theorem Mach.setUnit_order (m : Mach) (q : Nat) (x : CoreUnit) : (m.setUnit q x).order = m.order := rfl
@[simp] theorem Mach.setUnit_judged (m : Mach) (q : Nat) (x : CoreUnit) : (m.setUnit q x).judged = m.judged := rfl
@[simp] theorem Mach.setUnit_ses (m : Mach) (q : Nat) (x : CoreUnit) : (m.setUnit q x).ses = m.ses := rfl
@[simp] theorem Mach.setUnit_tacc (m : Mach) (q : Nat) (x : CoreUnit) : (m.setUnit q x).tacc = m.tacc := rfl
@[simp] theorem Mach.setUnit_twin (m : Mach) (q : Nat) (x : CoreUnit) : (m.setUnit q x).twin = m.twin := rfl
@[simp] theorem Mach.setUnit_sealing (m : Mach) (q : Nat) (x : CoreUnit) : (m.setUnit q x).sealing = m.sealing := rfl
@[simp] theorem Mach.setUnit_jobs (m : Mach) (q : Nat) (x : CoreUnit) : (m.setUnit q x).jobs = m.jobs := rfl
@[simp] theorem Mach.setUnit_replies (m : Mach) (q : Nat) (x : CoreUnit) : (m.setUnit q x).replies = m.replies := rfl
@[simp] theorem Mach.setUnit_rawq (m : Mach) (q : Nat) (x : CoreUnit) : (m.setUnit q x).rawq = m.rawq := rfl
@[simp] theorem Mach.setUnit_plainq (m : Mach) (q : Nat) (x : CoreUnit) : (m.setUnit q x).plainq = m.plainq := rfl
@[simp] theorem Mach.setUnit_lanes (m : Mach) (q : Nat) (x : CoreUnit) : (m.setUnit q x).lanes = m.lanes := rfl
@[simp] theorem Mach.setUnit_xlanes (m : Mach) (q : Nat) (x : CoreUnit) : (m.setUnit q x).xlanes = m.xlanes := rfl
@[simp] theorem Mach.setUnit_engines (m : Mach) (q : Nat) (x : CoreUnit) : (m.setUnit q x).engines = m.engines := rfl
@[simp] theorem Mach.setUnit_tpass (m : Mach) (q : Nat) (x : CoreUnit) : (m.setUnit q x).tpass = m.tpass := rfl
@[simp] theorem Mach.setUnit_cpass (m : Mach) (q : Nat) (x : CoreUnit) : (m.setUnit q x).cpass = m.cpass := rfl
@[simp] theorem Mach.setUnit_carResets (m : Mach) (q : Nat) (x : CoreUnit) : (m.setUnit q x).carResets = m.carResets := rfl
@[simp] theorem Mach.setUnit_carDeletes (m : Mach) (q : Nat) (x : CoreUnit) : (m.setUnit q x).carDeletes = m.carDeletes := rfl
@[simp] theorem Mach.setUnit_srCarrels (m : Mach) (q : Nat) (x : CoreUnit) : (m.setUnit q x).srCarrels = m.srCarrels := rfl
@[simp] theorem Mach.setUnit_tenResets (m : Mach) (q : Nat) (x : CoreUnit) : (m.setUnit q x).tenResets = m.tenResets := rfl
@[simp] theorem Mach.setUnit_clearing (m : Mach) (q : Nat) (x : CoreUnit) : (m.setUnit q x).clearing = m.clearing := rfl
@[simp] theorem Mach.setUnit_notes (m : Mach) (q : Nat) (x : CoreUnit) : (m.setUnit q x).notes = m.notes := rfl
@[simp] theorem Mach.setUnit_stk (m : Mach) (q : Nat) (x : CoreUnit) : (m.setUnit q x).stk = m.stk := rfl
@[simp] theorem Mach.setUnit_seats (m : Mach) (q : Nat) (x : CoreUnit) : (m.setUnit q x).seats = m.seats := rfl
@[simp] theorem Mach.setUnit_l2 (m : Mach) (q : Nat) (x : CoreUnit) : (m.setUnit q x).l2 = m.l2 := rfl
@[simp] theorem Mach.setUnit_l2dirty (m : Mach) (q : Nat) (x : CoreUnit) : (m.setUnit q x).l2dirty = m.l2dirty := rfl
@[simp] theorem Mach.setUnit_rotations (m : Mach) (q : Nat) (x : CoreUnit) : (m.setUnit q x).rotations = m.rotations := rfl
@[simp] theorem Mach.setUnit_rotAt (m : Mach) (q : Nat) (x : CoreUnit) : (m.setUnit q x).rotAt = m.rotAt := rfl
@[simp] theorem Mach.setUnit_memst (m : Mach) (q : Nat) (x : CoreUnit) : (m.setUnit q x).memst = m.memst := rfl
@[simp] theorem Mach.setUnit_sr (m : Mach) (q : Nat) (x : CoreUnit) : (m.setUnit q x).sr = m.sr := rfl
@[simp] theorem Mach.setUnit_kx (m : Mach) (q : Nat) (x : CoreUnit) : (m.setUnit q x).kx = m.kx := rfl
@[simp] theorem Mach.setUnit_kp (m : Mach) (q : Nat) (x : CoreUnit) : (m.setUnit q x).kp = m.kp := rfl
@[simp] theorem Mach.setUnit_uc (m : Mach) (q : Nat) (x : CoreUnit) : (m.setUnit q x).uc = m.uc := rfl
@[simp] theorem Mach.setUnit_en (m : Mach) (q : Nat) (x : CoreUnit) : (m.setUnit q x).en = m.en := rfl
@[simp] theorem Mach.setUnit_sent (m : Mach) (q : Nat) (x : CoreUnit) : (m.setUnit q x).sent = m.sent := rfl
@[simp] theorem Mach.setUnit_free (m : Mach) (q : Nat) (x : CoreUnit) : (m.setUnit q x).free = m.free := rfl
@[simp] theorem Mach.setUnit_held (m : Mach) (q : Nat) (x : CoreUnit) : (m.setUnit q x).held = m.held := rfl

/-! ### Mach.setNoteq -/

@[simp] theorem Mach.setNoteq_regs (m : Mach) (q : Nat) (x : List Note) : (m.setNoteq q x).regs = m.regs := rfl
@[simp] theorem Mach.setNoteq_ledger (m : Mach) (q : Nat) (x : List Note) : (m.setNoteq q x).ledger = m.ledger := rfl
@[simp] theorem Mach.setNoteq_mem (m : Mach) (q : Nat) (x : List Note) : (m.setNoteq q x).mem = m.mem := rfl
@[simp] theorem Mach.setNoteq_now (m : Mach) (q : Nat) (x : List Note) : (m.setNoteq q x).now = m.now := rfl
@[simp] theorem Mach.setNoteq_rt (m : Mach) (q : Nat) (x : List Note) : (m.setNoteq q x).rt = m.rt := rfl
@[simp] theorem Mach.setNoteq_refs (m : Mach) (q : Nat) (x : List Note) : (m.setNoteq q x).refs = m.refs := rfl
@[simp] theorem Mach.setNoteq_pps (m : Mach) (q : Nat) (x : List Note) : (m.setNoteq q x).pps = m.pps := rfl
@[simp] theorem Mach.setNoteq_pins (m : Mach) (q : Nat) (x : List Note) : (m.setNoteq q x).pins = m.pins := rfl
@[simp] theorem Mach.setNoteq_openFolio (m : Mach) (q : Nat) (x : List Note) : (m.setNoteq q x).openFolio = m.openFolio := rfl
@[simp] theorem Mach.setNoteq_closing (m : Mach) (q : Nat) (x : List Note) : (m.setNoteq q x).closing = m.closing := rfl
@[simp] theorem Mach.setNoteq_merge (m : Mach) (q : Nat) (x : List Note) : (m.setNoteq q x).merge = m.merge := rfl
@[simp] theorem Mach.setNoteq_order (m : Mach) (q : Nat) (x : List Note) : (m.setNoteq q x).order = m.order := rfl
@[simp] theorem Mach.setNoteq_judged (m : Mach) (q : Nat) (x : List Note) : (m.setNoteq q x).judged = m.judged := rfl
@[simp] theorem Mach.setNoteq_ses (m : Mach) (q : Nat) (x : List Note) : (m.setNoteq q x).ses = m.ses := rfl
@[simp] theorem Mach.setNoteq_tacc (m : Mach) (q : Nat) (x : List Note) : (m.setNoteq q x).tacc = m.tacc := rfl
@[simp] theorem Mach.setNoteq_twin (m : Mach) (q : Nat) (x : List Note) : (m.setNoteq q x).twin = m.twin := rfl
@[simp] theorem Mach.setNoteq_sealing (m : Mach) (q : Nat) (x : List Note) : (m.setNoteq q x).sealing = m.sealing := rfl
@[simp] theorem Mach.setNoteq_jobs (m : Mach) (q : Nat) (x : List Note) : (m.setNoteq q x).jobs = m.jobs := rfl
@[simp] theorem Mach.setNoteq_replies (m : Mach) (q : Nat) (x : List Note) : (m.setNoteq q x).replies = m.replies := rfl
@[simp] theorem Mach.setNoteq_rawq (m : Mach) (q : Nat) (x : List Note) : (m.setNoteq q x).rawq = m.rawq := rfl
@[simp] theorem Mach.setNoteq_plainq (m : Mach) (q : Nat) (x : List Note) : (m.setNoteq q x).plainq = m.plainq := rfl
@[simp] theorem Mach.setNoteq_lanes (m : Mach) (q : Nat) (x : List Note) : (m.setNoteq q x).lanes = m.lanes := rfl
@[simp] theorem Mach.setNoteq_xlanes (m : Mach) (q : Nat) (x : List Note) : (m.setNoteq q x).xlanes = m.xlanes := rfl
@[simp] theorem Mach.setNoteq_engines (m : Mach) (q : Nat) (x : List Note) : (m.setNoteq q x).engines = m.engines := rfl
@[simp] theorem Mach.setNoteq_tpass (m : Mach) (q : Nat) (x : List Note) : (m.setNoteq q x).tpass = m.tpass := rfl
@[simp] theorem Mach.setNoteq_cpass (m : Mach) (q : Nat) (x : List Note) : (m.setNoteq q x).cpass = m.cpass := rfl
@[simp] theorem Mach.setNoteq_carResets (m : Mach) (q : Nat) (x : List Note) : (m.setNoteq q x).carResets = m.carResets := rfl
@[simp] theorem Mach.setNoteq_carDeletes (m : Mach) (q : Nat) (x : List Note) : (m.setNoteq q x).carDeletes = m.carDeletes := rfl
@[simp] theorem Mach.setNoteq_srCarrels (m : Mach) (q : Nat) (x : List Note) : (m.setNoteq q x).srCarrels = m.srCarrels := rfl
@[simp] theorem Mach.setNoteq_tenResets (m : Mach) (q : Nat) (x : List Note) : (m.setNoteq q x).tenResets = m.tenResets := rfl
@[simp] theorem Mach.setNoteq_clearing (m : Mach) (q : Nat) (x : List Note) : (m.setNoteq q x).clearing = m.clearing := rfl
@[simp] theorem Mach.setNoteq_stk (m : Mach) (q : Nat) (x : List Note) : (m.setNoteq q x).stk = m.stk := rfl
@[simp] theorem Mach.setNoteq_seats (m : Mach) (q : Nat) (x : List Note) : (m.setNoteq q x).seats = m.seats := rfl
@[simp] theorem Mach.setNoteq_units (m : Mach) (q : Nat) (x : List Note) : (m.setNoteq q x).units = m.units := rfl
@[simp] theorem Mach.setNoteq_l2 (m : Mach) (q : Nat) (x : List Note) : (m.setNoteq q x).l2 = m.l2 := rfl
@[simp] theorem Mach.setNoteq_l2dirty (m : Mach) (q : Nat) (x : List Note) : (m.setNoteq q x).l2dirty = m.l2dirty := rfl
@[simp] theorem Mach.setNoteq_rotations (m : Mach) (q : Nat) (x : List Note) : (m.setNoteq q x).rotations = m.rotations := rfl
@[simp] theorem Mach.setNoteq_rotAt (m : Mach) (q : Nat) (x : List Note) : (m.setNoteq q x).rotAt = m.rotAt := rfl
@[simp] theorem Mach.setNoteq_memst (m : Mach) (q : Nat) (x : List Note) : (m.setNoteq q x).memst = m.memst := rfl
@[simp] theorem Mach.setNoteq_sr (m : Mach) (q : Nat) (x : List Note) : (m.setNoteq q x).sr = m.sr := rfl
@[simp] theorem Mach.setNoteq_kx (m : Mach) (q : Nat) (x : List Note) : (m.setNoteq q x).kx = m.kx := rfl
@[simp] theorem Mach.setNoteq_kp (m : Mach) (q : Nat) (x : List Note) : (m.setNoteq q x).kp = m.kp := rfl
@[simp] theorem Mach.setNoteq_uc (m : Mach) (q : Nat) (x : List Note) : (m.setNoteq q x).uc = m.uc := rfl
@[simp] theorem Mach.setNoteq_en (m : Mach) (q : Nat) (x : List Note) : (m.setNoteq q x).en = m.en := rfl
@[simp] theorem Mach.setNoteq_sent (m : Mach) (q : Nat) (x : List Note) : (m.setNoteq q x).sent = m.sent := rfl
@[simp] theorem Mach.setNoteq_free (m : Mach) (q : Nat) (x : List Note) : (m.setNoteq q x).free = m.free := rfl
@[simp] theorem Mach.setNoteq_held (m : Mach) (q : Nat) (x : List Note) : (m.setNoteq q x).held = m.held := rfl

/-! ### Mach.setEff -/

@[simp] theorem Mach.setEff_regs (m : Mach) (q : Nat) (x : Word) : (m.setEff q x).regs = m.regs := rfl
@[simp] theorem Mach.setEff_mem (m : Mach) (q : Nat) (x : Word) : (m.setEff q x).mem = m.mem := rfl
@[simp] theorem Mach.setEff_now (m : Mach) (q : Nat) (x : Word) : (m.setEff q x).now = m.now := rfl
@[simp] theorem Mach.setEff_rt (m : Mach) (q : Nat) (x : Word) : (m.setEff q x).rt = m.rt := rfl
@[simp] theorem Mach.setEff_refs (m : Mach) (q : Nat) (x : Word) : (m.setEff q x).refs = m.refs := rfl
@[simp] theorem Mach.setEff_pps (m : Mach) (q : Nat) (x : Word) : (m.setEff q x).pps = m.pps := rfl
@[simp] theorem Mach.setEff_pins (m : Mach) (q : Nat) (x : Word) : (m.setEff q x).pins = m.pins := rfl
@[simp] theorem Mach.setEff_openFolio (m : Mach) (q : Nat) (x : Word) : (m.setEff q x).openFolio = m.openFolio := rfl
@[simp] theorem Mach.setEff_closing (m : Mach) (q : Nat) (x : Word) : (m.setEff q x).closing = m.closing := rfl
@[simp] theorem Mach.setEff_merge (m : Mach) (q : Nat) (x : Word) : (m.setEff q x).merge = m.merge := rfl
@[simp] theorem Mach.setEff_order (m : Mach) (q : Nat) (x : Word) : (m.setEff q x).order = m.order := rfl
@[simp] theorem Mach.setEff_judged (m : Mach) (q : Nat) (x : Word) : (m.setEff q x).judged = m.judged := rfl
@[simp] theorem Mach.setEff_ses (m : Mach) (q : Nat) (x : Word) : (m.setEff q x).ses = m.ses := rfl
@[simp] theorem Mach.setEff_tacc (m : Mach) (q : Nat) (x : Word) : (m.setEff q x).tacc = m.tacc := rfl
@[simp] theorem Mach.setEff_twin (m : Mach) (q : Nat) (x : Word) : (m.setEff q x).twin = m.twin := rfl
@[simp] theorem Mach.setEff_sealing (m : Mach) (q : Nat) (x : Word) : (m.setEff q x).sealing = m.sealing := rfl
@[simp] theorem Mach.setEff_jobs (m : Mach) (q : Nat) (x : Word) : (m.setEff q x).jobs = m.jobs := rfl
@[simp] theorem Mach.setEff_replies (m : Mach) (q : Nat) (x : Word) : (m.setEff q x).replies = m.replies := rfl
@[simp] theorem Mach.setEff_rawq (m : Mach) (q : Nat) (x : Word) : (m.setEff q x).rawq = m.rawq := rfl
@[simp] theorem Mach.setEff_plainq (m : Mach) (q : Nat) (x : Word) : (m.setEff q x).plainq = m.plainq := rfl
@[simp] theorem Mach.setEff_lanes (m : Mach) (q : Nat) (x : Word) : (m.setEff q x).lanes = m.lanes := rfl
@[simp] theorem Mach.setEff_xlanes (m : Mach) (q : Nat) (x : Word) : (m.setEff q x).xlanes = m.xlanes := rfl
@[simp] theorem Mach.setEff_engines (m : Mach) (q : Nat) (x : Word) : (m.setEff q x).engines = m.engines := rfl
@[simp] theorem Mach.setEff_tpass (m : Mach) (q : Nat) (x : Word) : (m.setEff q x).tpass = m.tpass := rfl
@[simp] theorem Mach.setEff_cpass (m : Mach) (q : Nat) (x : Word) : (m.setEff q x).cpass = m.cpass := rfl
@[simp] theorem Mach.setEff_carResets (m : Mach) (q : Nat) (x : Word) : (m.setEff q x).carResets = m.carResets := rfl
@[simp] theorem Mach.setEff_carDeletes (m : Mach) (q : Nat) (x : Word) : (m.setEff q x).carDeletes = m.carDeletes := rfl
@[simp] theorem Mach.setEff_srCarrels (m : Mach) (q : Nat) (x : Word) : (m.setEff q x).srCarrels = m.srCarrels := rfl
@[simp] theorem Mach.setEff_tenResets (m : Mach) (q : Nat) (x : Word) : (m.setEff q x).tenResets = m.tenResets := rfl
@[simp] theorem Mach.setEff_clearing (m : Mach) (q : Nat) (x : Word) : (m.setEff q x).clearing = m.clearing := rfl
@[simp] theorem Mach.setEff_notes (m : Mach) (q : Nat) (x : Word) : (m.setEff q x).notes = m.notes := rfl
@[simp] theorem Mach.setEff_stk (m : Mach) (q : Nat) (x : Word) : (m.setEff q x).stk = m.stk := rfl
@[simp] theorem Mach.setEff_seats (m : Mach) (q : Nat) (x : Word) : (m.setEff q x).seats = m.seats := rfl
@[simp] theorem Mach.setEff_units (m : Mach) (q : Nat) (x : Word) : (m.setEff q x).units = m.units := rfl
@[simp] theorem Mach.setEff_l2 (m : Mach) (q : Nat) (x : Word) : (m.setEff q x).l2 = m.l2 := rfl
@[simp] theorem Mach.setEff_l2dirty (m : Mach) (q : Nat) (x : Word) : (m.setEff q x).l2dirty = m.l2dirty := rfl
@[simp] theorem Mach.setEff_rotations (m : Mach) (q : Nat) (x : Word) : (m.setEff q x).rotations = m.rotations := rfl
@[simp] theorem Mach.setEff_rotAt (m : Mach) (q : Nat) (x : Word) : (m.setEff q x).rotAt = m.rotAt := rfl
@[simp] theorem Mach.setEff_memst (m : Mach) (q : Nat) (x : Word) : (m.setEff q x).memst = m.memst := rfl
@[simp] theorem Mach.setEff_sr (m : Mach) (q : Nat) (x : Word) : (m.setEff q x).sr = m.sr := rfl
@[simp] theorem Mach.setEff_kx (m : Mach) (q : Nat) (x : Word) : (m.setEff q x).kx = m.kx := rfl
@[simp] theorem Mach.setEff_kp (m : Mach) (q : Nat) (x : Word) : (m.setEff q x).kp = m.kp := rfl
@[simp] theorem Mach.setEff_uc (m : Mach) (q : Nat) (x : Word) : (m.setEff q x).uc = m.uc := rfl
@[simp] theorem Mach.setEff_en (m : Mach) (q : Nat) (x : Word) : (m.setEff q x).en = m.en := rfl
@[simp] theorem Mach.setEff_sent (m : Mach) (q : Nat) (x : Word) : (m.setEff q x).sent = m.sent := rfl
@[simp] theorem Mach.setEff_free (m : Mach) (q : Nat) (x : Word) : (m.setEff q x).free = m.free := rfl
@[simp] theorem Mach.setEff_held (m : Mach) (q : Nat) (x : Word) : (m.setEff q x).held = m.held := rfl

/-! ### Mach.setCont -/

@[simp] theorem Mach.setCont_regs (m : Mach) (q : Nat) (x : Cont) : (m.setCont q x).regs = m.regs := rfl
@[simp] theorem Mach.setCont_ledger (m : Mach) (q : Nat) (x : Cont) : (m.setCont q x).ledger = m.ledger := rfl
@[simp] theorem Mach.setCont_now (m : Mach) (q : Nat) (x : Cont) : (m.setCont q x).now = m.now := rfl
@[simp] theorem Mach.setCont_rt (m : Mach) (q : Nat) (x : Cont) : (m.setCont q x).rt = m.rt := rfl
@[simp] theorem Mach.setCont_refs (m : Mach) (q : Nat) (x : Cont) : (m.setCont q x).refs = m.refs := rfl
@[simp] theorem Mach.setCont_pps (m : Mach) (q : Nat) (x : Cont) : (m.setCont q x).pps = m.pps := rfl
@[simp] theorem Mach.setCont_pins (m : Mach) (q : Nat) (x : Cont) : (m.setCont q x).pins = m.pins := rfl
@[simp] theorem Mach.setCont_openFolio (m : Mach) (q : Nat) (x : Cont) : (m.setCont q x).openFolio = m.openFolio := rfl
@[simp] theorem Mach.setCont_closing (m : Mach) (q : Nat) (x : Cont) : (m.setCont q x).closing = m.closing := rfl
@[simp] theorem Mach.setCont_merge (m : Mach) (q : Nat) (x : Cont) : (m.setCont q x).merge = m.merge := rfl
@[simp] theorem Mach.setCont_order (m : Mach) (q : Nat) (x : Cont) : (m.setCont q x).order = m.order := rfl
@[simp] theorem Mach.setCont_judged (m : Mach) (q : Nat) (x : Cont) : (m.setCont q x).judged = m.judged := rfl
@[simp] theorem Mach.setCont_ses (m : Mach) (q : Nat) (x : Cont) : (m.setCont q x).ses = m.ses := rfl
@[simp] theorem Mach.setCont_tacc (m : Mach) (q : Nat) (x : Cont) : (m.setCont q x).tacc = m.tacc := rfl
@[simp] theorem Mach.setCont_twin (m : Mach) (q : Nat) (x : Cont) : (m.setCont q x).twin = m.twin := rfl
@[simp] theorem Mach.setCont_sealing (m : Mach) (q : Nat) (x : Cont) : (m.setCont q x).sealing = m.sealing := rfl
@[simp] theorem Mach.setCont_jobs (m : Mach) (q : Nat) (x : Cont) : (m.setCont q x).jobs = m.jobs := rfl
@[simp] theorem Mach.setCont_replies (m : Mach) (q : Nat) (x : Cont) : (m.setCont q x).replies = m.replies := rfl
@[simp] theorem Mach.setCont_rawq (m : Mach) (q : Nat) (x : Cont) : (m.setCont q x).rawq = m.rawq := rfl
@[simp] theorem Mach.setCont_plainq (m : Mach) (q : Nat) (x : Cont) : (m.setCont q x).plainq = m.plainq := rfl
@[simp] theorem Mach.setCont_lanes (m : Mach) (q : Nat) (x : Cont) : (m.setCont q x).lanes = m.lanes := rfl
@[simp] theorem Mach.setCont_xlanes (m : Mach) (q : Nat) (x : Cont) : (m.setCont q x).xlanes = m.xlanes := rfl
@[simp] theorem Mach.setCont_engines (m : Mach) (q : Nat) (x : Cont) : (m.setCont q x).engines = m.engines := rfl
@[simp] theorem Mach.setCont_tpass (m : Mach) (q : Nat) (x : Cont) : (m.setCont q x).tpass = m.tpass := rfl
@[simp] theorem Mach.setCont_cpass (m : Mach) (q : Nat) (x : Cont) : (m.setCont q x).cpass = m.cpass := rfl
@[simp] theorem Mach.setCont_carResets (m : Mach) (q : Nat) (x : Cont) : (m.setCont q x).carResets = m.carResets := rfl
@[simp] theorem Mach.setCont_carDeletes (m : Mach) (q : Nat) (x : Cont) : (m.setCont q x).carDeletes = m.carDeletes := rfl
@[simp] theorem Mach.setCont_srCarrels (m : Mach) (q : Nat) (x : Cont) : (m.setCont q x).srCarrels = m.srCarrels := rfl
@[simp] theorem Mach.setCont_tenResets (m : Mach) (q : Nat) (x : Cont) : (m.setCont q x).tenResets = m.tenResets := rfl
@[simp] theorem Mach.setCont_clearing (m : Mach) (q : Nat) (x : Cont) : (m.setCont q x).clearing = m.clearing := rfl
@[simp] theorem Mach.setCont_notes (m : Mach) (q : Nat) (x : Cont) : (m.setCont q x).notes = m.notes := rfl
@[simp] theorem Mach.setCont_stk (m : Mach) (q : Nat) (x : Cont) : (m.setCont q x).stk = m.stk := rfl
@[simp] theorem Mach.setCont_seats (m : Mach) (q : Nat) (x : Cont) : (m.setCont q x).seats = m.seats := rfl
@[simp] theorem Mach.setCont_units (m : Mach) (q : Nat) (x : Cont) : (m.setCont q x).units = m.units := rfl
@[simp] theorem Mach.setCont_l2 (m : Mach) (q : Nat) (x : Cont) : (m.setCont q x).l2 = m.l2 := rfl
@[simp] theorem Mach.setCont_l2dirty (m : Mach) (q : Nat) (x : Cont) : (m.setCont q x).l2dirty = m.l2dirty := rfl
@[simp] theorem Mach.setCont_rotations (m : Mach) (q : Nat) (x : Cont) : (m.setCont q x).rotations = m.rotations := rfl
@[simp] theorem Mach.setCont_rotAt (m : Mach) (q : Nat) (x : Cont) : (m.setCont q x).rotAt = m.rotAt := rfl
@[simp] theorem Mach.setCont_memst (m : Mach) (q : Nat) (x : Cont) : (m.setCont q x).memst = m.memst := rfl
@[simp] theorem Mach.setCont_sr (m : Mach) (q : Nat) (x : Cont) : (m.setCont q x).sr = m.sr := rfl
@[simp] theorem Mach.setCont_kx (m : Mach) (q : Nat) (x : Cont) : (m.setCont q x).kx = m.kx := rfl
@[simp] theorem Mach.setCont_kp (m : Mach) (q : Nat) (x : Cont) : (m.setCont q x).kp = m.kp := rfl
@[simp] theorem Mach.setCont_uc (m : Mach) (q : Nat) (x : Cont) : (m.setCont q x).uc = m.uc := rfl
@[simp] theorem Mach.setCont_en (m : Mach) (q : Nat) (x : Cont) : (m.setCont q x).en = m.en := rfl
@[simp] theorem Mach.setCont_sent (m : Mach) (q : Nat) (x : Cont) : (m.setCont q x).sent = m.sent := rfl
@[simp] theorem Mach.setCont_free (m : Mach) (q : Nat) (x : Cont) : (m.setCont q x).free = m.free := rfl
@[simp] theorem Mach.setCont_held (m : Mach) (q : Nat) (x : Cont) : (m.setCont q x).held = m.held := rfl

/-! ### Mach.send -/

@[simp] theorem Mach.send_regs (m : Mach) (x : Tx) : (m.send x).regs = m.regs := rfl
@[simp] theorem Mach.send_ledger (m : Mach) (x : Tx) : (m.send x).ledger = m.ledger := rfl
@[simp] theorem Mach.send_mem (m : Mach) (x : Tx) : (m.send x).mem = m.mem := rfl
@[simp] theorem Mach.send_now (m : Mach) (x : Tx) : (m.send x).now = m.now := rfl
@[simp] theorem Mach.send_rt (m : Mach) (x : Tx) : (m.send x).rt = m.rt := rfl
@[simp] theorem Mach.send_refs (m : Mach) (x : Tx) : (m.send x).refs = m.refs := rfl
@[simp] theorem Mach.send_pps (m : Mach) (x : Tx) : (m.send x).pps = m.pps := rfl
@[simp] theorem Mach.send_pins (m : Mach) (x : Tx) : (m.send x).pins = m.pins := rfl
@[simp] theorem Mach.send_openFolio (m : Mach) (x : Tx) : (m.send x).openFolio = m.openFolio := rfl
@[simp] theorem Mach.send_closing (m : Mach) (x : Tx) : (m.send x).closing = m.closing := rfl
@[simp] theorem Mach.send_merge (m : Mach) (x : Tx) : (m.send x).merge = m.merge := rfl
@[simp] theorem Mach.send_order (m : Mach) (x : Tx) : (m.send x).order = m.order := rfl
@[simp] theorem Mach.send_judged (m : Mach) (x : Tx) : (m.send x).judged = m.judged := rfl
@[simp] theorem Mach.send_ses (m : Mach) (x : Tx) : (m.send x).ses = m.ses := rfl
@[simp] theorem Mach.send_tacc (m : Mach) (x : Tx) : (m.send x).tacc = m.tacc := rfl
@[simp] theorem Mach.send_twin (m : Mach) (x : Tx) : (m.send x).twin = m.twin := rfl
@[simp] theorem Mach.send_sealing (m : Mach) (x : Tx) : (m.send x).sealing = m.sealing := rfl
@[simp] theorem Mach.send_jobs (m : Mach) (x : Tx) : (m.send x).jobs = m.jobs := rfl
@[simp] theorem Mach.send_replies (m : Mach) (x : Tx) : (m.send x).replies = m.replies := rfl
@[simp] theorem Mach.send_rawq (m : Mach) (x : Tx) : (m.send x).rawq = m.rawq := rfl
@[simp] theorem Mach.send_plainq (m : Mach) (x : Tx) : (m.send x).plainq = m.plainq := rfl
@[simp] theorem Mach.send_lanes (m : Mach) (x : Tx) : (m.send x).lanes = m.lanes := rfl
@[simp] theorem Mach.send_xlanes (m : Mach) (x : Tx) : (m.send x).xlanes = m.xlanes := rfl
@[simp] theorem Mach.send_engines (m : Mach) (x : Tx) : (m.send x).engines = m.engines := rfl
@[simp] theorem Mach.send_tpass (m : Mach) (x : Tx) : (m.send x).tpass = m.tpass := rfl
@[simp] theorem Mach.send_cpass (m : Mach) (x : Tx) : (m.send x).cpass = m.cpass := rfl
@[simp] theorem Mach.send_carResets (m : Mach) (x : Tx) : (m.send x).carResets = m.carResets := rfl
@[simp] theorem Mach.send_carDeletes (m : Mach) (x : Tx) : (m.send x).carDeletes = m.carDeletes := rfl
@[simp] theorem Mach.send_srCarrels (m : Mach) (x : Tx) : (m.send x).srCarrels = m.srCarrels := rfl
@[simp] theorem Mach.send_tenResets (m : Mach) (x : Tx) : (m.send x).tenResets = m.tenResets := rfl
@[simp] theorem Mach.send_clearing (m : Mach) (x : Tx) : (m.send x).clearing = m.clearing := rfl
@[simp] theorem Mach.send_notes (m : Mach) (x : Tx) : (m.send x).notes = m.notes := rfl
@[simp] theorem Mach.send_stk (m : Mach) (x : Tx) : (m.send x).stk = m.stk := rfl
@[simp] theorem Mach.send_seats (m : Mach) (x : Tx) : (m.send x).seats = m.seats := rfl
@[simp] theorem Mach.send_units (m : Mach) (x : Tx) : (m.send x).units = m.units := rfl
@[simp] theorem Mach.send_l2 (m : Mach) (x : Tx) : (m.send x).l2 = m.l2 := rfl
@[simp] theorem Mach.send_l2dirty (m : Mach) (x : Tx) : (m.send x).l2dirty = m.l2dirty := rfl
@[simp] theorem Mach.send_rotations (m : Mach) (x : Tx) : (m.send x).rotations = m.rotations := rfl
@[simp] theorem Mach.send_rotAt (m : Mach) (x : Tx) : (m.send x).rotAt = m.rotAt := rfl
@[simp] theorem Mach.send_memst (m : Mach) (x : Tx) : (m.send x).memst = m.memst := rfl
@[simp] theorem Mach.send_sr (m : Mach) (x : Tx) : (m.send x).sr = m.sr := rfl
@[simp] theorem Mach.send_kx (m : Mach) (x : Tx) : (m.send x).kx = m.kx := rfl
@[simp] theorem Mach.send_kp (m : Mach) (x : Tx) : (m.send x).kp = m.kp := rfl
@[simp] theorem Mach.send_uc (m : Mach) (x : Tx) : (m.send x).uc = m.uc := rfl
@[simp] theorem Mach.send_en (m : Mach) (x : Tx) : (m.send x).en = m.en := rfl
@[simp] theorem Mach.send_free (m : Mach) (x : Tx) : (m.send x).free = m.free := rfl
@[simp] theorem Mach.send_held (m : Mach) (x : Tx) : (m.send x).held = m.held := rfl

/-! ### Mach.setArch -/

@[simp] theorem Mach.setArch_regs (m : Mach) (q : Nat) (x : Arch) : (m.setArch q x).regs = m.regs := rfl
@[simp] theorem Mach.setArch_ledger (m : Mach) (q : Nat) (x : Arch) : (m.setArch q x).ledger = m.ledger := rfl
@[simp] theorem Mach.setArch_mem (m : Mach) (q : Nat) (x : Arch) : (m.setArch q x).mem = m.mem := rfl
@[simp] theorem Mach.setArch_now (m : Mach) (q : Nat) (x : Arch) : (m.setArch q x).now = m.now := rfl
@[simp] theorem Mach.setArch_rt (m : Mach) (q : Nat) (x : Arch) : (m.setArch q x).rt = m.rt := rfl
@[simp] theorem Mach.setArch_refs (m : Mach) (q : Nat) (x : Arch) : (m.setArch q x).refs = m.refs := rfl
@[simp] theorem Mach.setArch_pps (m : Mach) (q : Nat) (x : Arch) : (m.setArch q x).pps = m.pps := rfl
@[simp] theorem Mach.setArch_pins (m : Mach) (q : Nat) (x : Arch) : (m.setArch q x).pins = m.pins := rfl
@[simp] theorem Mach.setArch_openFolio (m : Mach) (q : Nat) (x : Arch) : (m.setArch q x).openFolio = m.openFolio := rfl
@[simp] theorem Mach.setArch_closing (m : Mach) (q : Nat) (x : Arch) : (m.setArch q x).closing = m.closing := rfl
@[simp] theorem Mach.setArch_merge (m : Mach) (q : Nat) (x : Arch) : (m.setArch q x).merge = m.merge := rfl
@[simp] theorem Mach.setArch_order (m : Mach) (q : Nat) (x : Arch) : (m.setArch q x).order = m.order := rfl
@[simp] theorem Mach.setArch_judged (m : Mach) (q : Nat) (x : Arch) : (m.setArch q x).judged = m.judged := rfl
@[simp] theorem Mach.setArch_ses (m : Mach) (q : Nat) (x : Arch) : (m.setArch q x).ses = m.ses := rfl
@[simp] theorem Mach.setArch_tacc (m : Mach) (q : Nat) (x : Arch) : (m.setArch q x).tacc = m.tacc := rfl
@[simp] theorem Mach.setArch_twin (m : Mach) (q : Nat) (x : Arch) : (m.setArch q x).twin = m.twin := rfl
@[simp] theorem Mach.setArch_sealing (m : Mach) (q : Nat) (x : Arch) : (m.setArch q x).sealing = m.sealing := rfl
@[simp] theorem Mach.setArch_jobs (m : Mach) (q : Nat) (x : Arch) : (m.setArch q x).jobs = m.jobs := rfl
@[simp] theorem Mach.setArch_replies (m : Mach) (q : Nat) (x : Arch) : (m.setArch q x).replies = m.replies := rfl
@[simp] theorem Mach.setArch_rawq (m : Mach) (q : Nat) (x : Arch) : (m.setArch q x).rawq = m.rawq := rfl
@[simp] theorem Mach.setArch_plainq (m : Mach) (q : Nat) (x : Arch) : (m.setArch q x).plainq = m.plainq := rfl
@[simp] theorem Mach.setArch_lanes (m : Mach) (q : Nat) (x : Arch) : (m.setArch q x).lanes = m.lanes := rfl
@[simp] theorem Mach.setArch_xlanes (m : Mach) (q : Nat) (x : Arch) : (m.setArch q x).xlanes = m.xlanes := rfl
@[simp] theorem Mach.setArch_engines (m : Mach) (q : Nat) (x : Arch) : (m.setArch q x).engines = m.engines := rfl
@[simp] theorem Mach.setArch_tpass (m : Mach) (q : Nat) (x : Arch) : (m.setArch q x).tpass = m.tpass := rfl
@[simp] theorem Mach.setArch_cpass (m : Mach) (q : Nat) (x : Arch) : (m.setArch q x).cpass = m.cpass := rfl
@[simp] theorem Mach.setArch_carResets (m : Mach) (q : Nat) (x : Arch) : (m.setArch q x).carResets = m.carResets := rfl
@[simp] theorem Mach.setArch_carDeletes (m : Mach) (q : Nat) (x : Arch) : (m.setArch q x).carDeletes = m.carDeletes := rfl
@[simp] theorem Mach.setArch_srCarrels (m : Mach) (q : Nat) (x : Arch) : (m.setArch q x).srCarrels = m.srCarrels := rfl
@[simp] theorem Mach.setArch_tenResets (m : Mach) (q : Nat) (x : Arch) : (m.setArch q x).tenResets = m.tenResets := rfl
@[simp] theorem Mach.setArch_clearing (m : Mach) (q : Nat) (x : Arch) : (m.setArch q x).clearing = m.clearing := rfl
@[simp] theorem Mach.setArch_notes (m : Mach) (q : Nat) (x : Arch) : (m.setArch q x).notes = m.notes := rfl
@[simp] theorem Mach.setArch_stk (m : Mach) (q : Nat) (x : Arch) : (m.setArch q x).stk = m.stk := rfl
@[simp] theorem Mach.setArch_units (m : Mach) (q : Nat) (x : Arch) : (m.setArch q x).units = m.units := rfl
@[simp] theorem Mach.setArch_l2 (m : Mach) (q : Nat) (x : Arch) : (m.setArch q x).l2 = m.l2 := rfl
@[simp] theorem Mach.setArch_l2dirty (m : Mach) (q : Nat) (x : Arch) : (m.setArch q x).l2dirty = m.l2dirty := rfl
@[simp] theorem Mach.setArch_rotations (m : Mach) (q : Nat) (x : Arch) : (m.setArch q x).rotations = m.rotations := rfl
@[simp] theorem Mach.setArch_rotAt (m : Mach) (q : Nat) (x : Arch) : (m.setArch q x).rotAt = m.rotAt := rfl
@[simp] theorem Mach.setArch_memst (m : Mach) (q : Nat) (x : Arch) : (m.setArch q x).memst = m.memst := rfl
@[simp] theorem Mach.setArch_sr (m : Mach) (q : Nat) (x : Arch) : (m.setArch q x).sr = m.sr := rfl
@[simp] theorem Mach.setArch_kx (m : Mach) (q : Nat) (x : Arch) : (m.setArch q x).kx = m.kx := rfl
@[simp] theorem Mach.setArch_kp (m : Mach) (q : Nat) (x : Arch) : (m.setArch q x).kp = m.kp := rfl
@[simp] theorem Mach.setArch_uc (m : Mach) (q : Nat) (x : Arch) : (m.setArch q x).uc = m.uc := rfl
@[simp] theorem Mach.setArch_en (m : Mach) (q : Nat) (x : Arch) : (m.setArch q x).en = m.en := rfl
@[simp] theorem Mach.setArch_sent (m : Mach) (q : Nat) (x : Arch) : (m.setArch q x).sent = m.sent := rfl
@[simp] theorem Mach.setArch_free (m : Mach) (q : Nat) (x : Arch) : (m.setArch q x).free = m.free := rfl
@[simp] theorem Mach.setArch_held (m : Mach) (q : Nat) (x : Arch) : (m.setArch q x).held = m.held := rfl

/-! ### Mach.setReg -/

@[simp] theorem Mach.setReg_mem (m : Mach) (a : Nat) (v : Word) : (m.setReg a v).mem = m.mem := by unfold Mach.setReg; split <;> rfl
@[simp] theorem Mach.setReg_now (m : Mach) (a : Nat) (v : Word) : (m.setReg a v).now = m.now := by unfold Mach.setReg; split <;> rfl
@[simp] theorem Mach.setReg_rt (m : Mach) (a : Nat) (v : Word) : (m.setReg a v).rt = m.rt := by unfold Mach.setReg; split <;> rfl
@[simp] theorem Mach.setReg_refs (m : Mach) (a : Nat) (v : Word) : (m.setReg a v).refs = m.refs := by unfold Mach.setReg; split <;> rfl
@[simp] theorem Mach.setReg_pps (m : Mach) (a : Nat) (v : Word) : (m.setReg a v).pps = m.pps := by unfold Mach.setReg; split <;> rfl
@[simp] theorem Mach.setReg_pins (m : Mach) (a : Nat) (v : Word) : (m.setReg a v).pins = m.pins := by unfold Mach.setReg; split <;> rfl
@[simp] theorem Mach.setReg_openFolio (m : Mach) (a : Nat) (v : Word) : (m.setReg a v).openFolio = m.openFolio := by unfold Mach.setReg; split <;> rfl
@[simp] theorem Mach.setReg_closing (m : Mach) (a : Nat) (v : Word) : (m.setReg a v).closing = m.closing := by unfold Mach.setReg; split <;> rfl
@[simp] theorem Mach.setReg_merge (m : Mach) (a : Nat) (v : Word) : (m.setReg a v).merge = m.merge := by unfold Mach.setReg; split <;> rfl
@[simp] theorem Mach.setReg_order (m : Mach) (a : Nat) (v : Word) : (m.setReg a v).order = m.order := by unfold Mach.setReg; split <;> rfl
@[simp] theorem Mach.setReg_judged (m : Mach) (a : Nat) (v : Word) : (m.setReg a v).judged = m.judged := by unfold Mach.setReg; split <;> rfl
@[simp] theorem Mach.setReg_ses (m : Mach) (a : Nat) (v : Word) : (m.setReg a v).ses = m.ses := by unfold Mach.setReg; split <;> rfl
@[simp] theorem Mach.setReg_tacc (m : Mach) (a : Nat) (v : Word) : (m.setReg a v).tacc = m.tacc := by unfold Mach.setReg; split <;> rfl
@[simp] theorem Mach.setReg_twin (m : Mach) (a : Nat) (v : Word) : (m.setReg a v).twin = m.twin := by unfold Mach.setReg; split <;> rfl
@[simp] theorem Mach.setReg_sealing (m : Mach) (a : Nat) (v : Word) : (m.setReg a v).sealing = m.sealing := by unfold Mach.setReg; split <;> rfl
@[simp] theorem Mach.setReg_jobs (m : Mach) (a : Nat) (v : Word) : (m.setReg a v).jobs = m.jobs := by unfold Mach.setReg; split <;> rfl
@[simp] theorem Mach.setReg_replies (m : Mach) (a : Nat) (v : Word) : (m.setReg a v).replies = m.replies := by unfold Mach.setReg; split <;> rfl
@[simp] theorem Mach.setReg_rawq (m : Mach) (a : Nat) (v : Word) : (m.setReg a v).rawq = m.rawq := by unfold Mach.setReg; split <;> rfl
@[simp] theorem Mach.setReg_plainq (m : Mach) (a : Nat) (v : Word) : (m.setReg a v).plainq = m.plainq := by unfold Mach.setReg; split <;> rfl
@[simp] theorem Mach.setReg_lanes (m : Mach) (a : Nat) (v : Word) : (m.setReg a v).lanes = m.lanes := by unfold Mach.setReg; split <;> rfl
@[simp] theorem Mach.setReg_xlanes (m : Mach) (a : Nat) (v : Word) : (m.setReg a v).xlanes = m.xlanes := by unfold Mach.setReg; split <;> rfl
@[simp] theorem Mach.setReg_engines (m : Mach) (a : Nat) (v : Word) : (m.setReg a v).engines = m.engines := by unfold Mach.setReg; split <;> rfl
@[simp] theorem Mach.setReg_tpass (m : Mach) (a : Nat) (v : Word) : (m.setReg a v).tpass = m.tpass := by unfold Mach.setReg; split <;> rfl
@[simp] theorem Mach.setReg_cpass (m : Mach) (a : Nat) (v : Word) : (m.setReg a v).cpass = m.cpass := by unfold Mach.setReg; split <;> rfl
@[simp] theorem Mach.setReg_carResets (m : Mach) (a : Nat) (v : Word) : (m.setReg a v).carResets = m.carResets := by unfold Mach.setReg; split <;> rfl
@[simp] theorem Mach.setReg_carDeletes (m : Mach) (a : Nat) (v : Word) : (m.setReg a v).carDeletes = m.carDeletes := by unfold Mach.setReg; split <;> rfl
@[simp] theorem Mach.setReg_srCarrels (m : Mach) (a : Nat) (v : Word) : (m.setReg a v).srCarrels = m.srCarrels := by unfold Mach.setReg; split <;> rfl
@[simp] theorem Mach.setReg_tenResets (m : Mach) (a : Nat) (v : Word) : (m.setReg a v).tenResets = m.tenResets := by unfold Mach.setReg; split <;> rfl
@[simp] theorem Mach.setReg_clearing (m : Mach) (a : Nat) (v : Word) : (m.setReg a v).clearing = m.clearing := by unfold Mach.setReg; split <;> rfl
@[simp] theorem Mach.setReg_notes (m : Mach) (a : Nat) (v : Word) : (m.setReg a v).notes = m.notes := by unfold Mach.setReg; split <;> rfl
@[simp] theorem Mach.setReg_stk (m : Mach) (a : Nat) (v : Word) : (m.setReg a v).stk = m.stk := by unfold Mach.setReg; split <;> rfl
@[simp] theorem Mach.setReg_seats (m : Mach) (a : Nat) (v : Word) : (m.setReg a v).seats = m.seats := by unfold Mach.setReg; split <;> rfl
@[simp] theorem Mach.setReg_units (m : Mach) (a : Nat) (v : Word) : (m.setReg a v).units = m.units := by unfold Mach.setReg; split <;> rfl
@[simp] theorem Mach.setReg_l2 (m : Mach) (a : Nat) (v : Word) : (m.setReg a v).l2 = m.l2 := by unfold Mach.setReg; split <;> rfl
@[simp] theorem Mach.setReg_l2dirty (m : Mach) (a : Nat) (v : Word) : (m.setReg a v).l2dirty = m.l2dirty := by unfold Mach.setReg; split <;> rfl
@[simp] theorem Mach.setReg_rotations (m : Mach) (a : Nat) (v : Word) : (m.setReg a v).rotations = m.rotations := by unfold Mach.setReg; split <;> rfl
@[simp] theorem Mach.setReg_rotAt (m : Mach) (a : Nat) (v : Word) : (m.setReg a v).rotAt = m.rotAt := by unfold Mach.setReg; split <;> rfl
@[simp] theorem Mach.setReg_memst (m : Mach) (a : Nat) (v : Word) : (m.setReg a v).memst = m.memst := by unfold Mach.setReg; split <;> rfl
@[simp] theorem Mach.setReg_sr (m : Mach) (a : Nat) (v : Word) : (m.setReg a v).sr = m.sr := by unfold Mach.setReg; split <;> rfl
@[simp] theorem Mach.setReg_kx (m : Mach) (a : Nat) (v : Word) : (m.setReg a v).kx = m.kx := by unfold Mach.setReg; split <;> rfl
@[simp] theorem Mach.setReg_kp (m : Mach) (a : Nat) (v : Word) : (m.setReg a v).kp = m.kp := by unfold Mach.setReg; split <;> rfl
@[simp] theorem Mach.setReg_uc (m : Mach) (a : Nat) (v : Word) : (m.setReg a v).uc = m.uc := by unfold Mach.setReg; split <;> rfl
@[simp] theorem Mach.setReg_en (m : Mach) (a : Nat) (v : Word) : (m.setReg a v).en = m.en := by unfold Mach.setReg; split <;> rfl
@[simp] theorem Mach.setReg_sent (m : Mach) (a : Nat) (v : Word) : (m.setReg a v).sent = m.sent := by unfold Mach.setReg; split <;> rfl
@[simp] theorem Mach.setReg_free (m : Mach) (a : Nat) (v : Word) : (m.setReg a v).free = m.free := by unfold Mach.setReg; split <;> rfl
@[simp] theorem Mach.setReg_held (m : Mach) (a : Nat) (v : Word) : (m.setReg a v).held = m.held := by unfold Mach.setReg; split <;> rfl

/-! ### Registers -/

/-- A register reads as it was written, and every other as before. -/
@[simp] theorem Mach.reg_setReg (m : Mach) (a b : Nat) (v : Word) : (m.setReg a v).reg b = if a = b then v else m.reg b := by
  unfold Mach.reg Mach.setReg
  by_cases h : a = b
  · subst h; cases ledgerAddr a <;> simp
  · cases h1 : ledgerAddr a <;> cases h2 : ledgerAddr b <;> simp [h]

/-- A read of a register meets the register tables alone. -/
theorem Mach.reg_congr (m n : Mach) (h1 : m.regs = n.regs) (h2 : m.ledger.regs = n.ledger.regs) (a : Nat) : m.reg a = n.reg a := by
  unfold Mach.reg; rw [h1, h2]

@[simp] theorem Mach.reg_setSeat (m : Mach) (q : Nat) (x : Seat) (r : Nat) : (m.setSeat q x).reg r = m.reg r := rfl
@[simp] theorem Mach.reg_setSess (m : Mach) (q : Nat) (x : LSes) (r : Nat) : (m.setSess q x).reg r = m.reg r := rfl
@[simp] theorem Mach.reg_setLive (m : Mach) (q : Nat) (x : SesLive) (r : Nat) : (m.setLive q x).reg r = m.reg r := rfl
@[simp] theorem Mach.reg_setAcc (m : Mach) (q : Nat) (x : TAcc) (r : Nat) : (m.setAcc q x).reg r = m.reg r := rfl
@[simp] theorem Mach.reg_setEbell (m : Mach) (q : Nat) (x : EBell) (r : Nat) : (m.setEbell q x).reg r = m.reg r := rfl
@[simp] theorem Mach.reg_setEgate (m : Mach) (q : Nat) (x : Word) (r : Nat) : (m.setEgate q x).reg r = m.reg r := rfl
@[simp] theorem Mach.reg_setEngine (m : Mach) (q : Nat) (x : Engine) (r : Nat) : (m.setEngine q x).reg r = m.reg r := rfl
@[simp] theorem Mach.reg_setLane (m : Mach) (q : Nat) (x : Lane) (r : Nat) : (m.setLane q x).reg r = m.reg r := rfl
@[simp] theorem Mach.reg_setXlane (m : Mach) (q : Nat) (x : Lane) (r : Nat) : (m.setXlane q x).reg r = m.reg r := rfl
@[simp] theorem Mach.reg_setJob (m : Mach) (q : Nat) (x : Job) (r : Nat) : (m.setJob q x).reg r = m.reg r := rfl
@[simp] theorem Mach.reg_delJob (m : Mach) (q : Nat) (r : Nat) : (m.delJob q).reg r = m.reg r := rfl
@[simp] theorem Mach.reg_setQueue (m : Mach) (q : Nat) (x : List RawTx) (r : Nat) : (m.setQueue q x).reg r = m.reg r := rfl
@[simp] theorem Mach.reg_setPlain (m : Mach) (q : Nat) (x : List PlainRx) (r : Nat) : (m.setPlain q x).reg r = m.reg r := rfl
@[simp] theorem Mach.reg_setUnit (m : Mach) (q : Nat) (x : CoreUnit) (r : Nat) : (m.setUnit q x).reg r = m.reg r := rfl
@[simp] theorem Mach.reg_setNoteq (m : Mach) (q : Nat) (x : List Note) (r : Nat) : (m.setNoteq q x).reg r = m.reg r := rfl
@[simp] theorem Mach.reg_setEff (m : Mach) (q : Nat) (x : Word) (r : Nat) : (m.setEff q x).reg r = m.reg r := rfl
@[simp] theorem Mach.reg_setCont (m : Mach) (q : Nat) (x : Cont) (r : Nat) : (m.setCont q x).reg r = m.reg r := rfl
@[simp] theorem Mach.reg_send (m : Mach) (x : Tx) (r : Nat) : (m.send x).reg r = m.reg r := rfl
@[simp] theorem Mach.reg_setArch (m : Mach) (q : Nat) (x : Arch) (r : Nat) : (m.setArch q x).reg r = m.reg r := rfl

/-! ### Tables -/

@[simp] theorem Mach.seat_setSeat (m : Mach) (k j : Nat) (x : Seat) : (m.setSeat k x).seat j = if k = j then x else m.seat j := by
  simp [Mach.seat, Mach.setSeat]
@[simp] theorem Mach.sess_setSess (m : Mach) (k j : Nat) (x : LSes) : (m.setSess k x).sess j = if k = j then x else m.sess j := by
  simp [Mach.sess, Mach.setSess]
@[simp] theorem Mach.live_setLive (m : Mach) (k j : Nat) (x : SesLive) : (m.setLive k x).live j = if k = j then x else m.live j := by
  simp [Mach.live, Mach.setLive]
@[simp] theorem Mach.acc_setAcc (m : Mach) (k j : Nat) (x : TAcc) : (m.setAcc k x).acc j = if k = j then x else m.acc j := by
  simp [Mach.acc, Mach.setAcc]
@[simp] theorem Mach.ebell_setEbell (m : Mach) (k j : Nat) (x : EBell) : (m.setEbell k x).ebell j = if k = j then x else m.ebell j := by
  simp [Mach.ebell, Mach.setEbell]
@[simp] theorem Mach.egate_setEgate (m : Mach) (k j : Nat) (x : Word) : (m.setEgate k x).egate j = if k = j then x else m.egate j := by
  simp [Mach.egate, Mach.setEgate]
@[simp] theorem Mach.engine_setEngine (m : Mach) (k j : Nat) (x : Engine) : (m.setEngine k x).engine j = if k = j then x else m.engine j := by
  simp [Mach.engine, Mach.setEngine]
@[simp] theorem Mach.lane_setLane (m : Mach) (k j : Nat) (x : Lane) : (m.setLane k x).lane j = if k = j then x else m.lane j := by
  simp [Mach.lane, Mach.setLane]
@[simp] theorem Mach.xlane_setXlane (m : Mach) (k j : Nat) (x : Lane) : (m.setXlane k x).xlane j = if k = j then x else m.xlane j := by
  simp [Mach.xlane, Mach.setXlane]
@[simp] theorem Mach.queue_setQueue (m : Mach) (k j : Nat) (x : List RawTx) : (m.setQueue k x).queue j = if k = j then x else m.queue j := by
  simp [Mach.queue, Mach.setQueue]
@[simp] theorem Mach.plain_setPlain (m : Mach) (k j : Nat) (x : List PlainRx) : (m.setPlain k x).plain j = if k = j then x else m.plain j := by
  simp [Mach.plain, Mach.setPlain]
@[simp] theorem Mach.unit_setUnit (m : Mach) (k j : Nat) (x : CoreUnit) : (m.setUnit k x).unit j = if k = j then x else m.unit j := by
  simp [Mach.unit, Mach.setUnit]
@[simp] theorem Mach.noteq_setNoteq (m : Mach) (k j : Nat) (x : List Note) : (m.setNoteq k x).noteq j = if k = j then x else m.noteq j := by
  simp [Mach.noteq, Mach.setNoteq]
@[simp] theorem Mach.eff_setEff (m : Mach) (k j : Nat) (x : Word) : (m.setEff k x).eff j = if k = j then x else m.eff j := by
  simp [Mach.eff, Mach.setEff]

theorem tfind_insert {α : Type} (k j : Nat) (v : α) (t : List (Nat × α)) :
    tfind (tabInsert k v t) j = if k = j then some v else tfind t j := by
  induction t with
  | nil => by_cases h : k = j <;> simp [tabInsert, tfind, h]
  | cons p t ih =>
    obtain ⟨a, x⟩ := p
    simp only [tabInsert]
    by_cases h : k < a
    · rw [if_pos h]; by_cases h2 : k = j <;> simp [tfind, h2]
    · by_cases h2 : a = k
      · subst h2; by_cases h3 : a = j <;> simp [tfind, h3]
      · simp only [h, h2, if_false]
        by_cases h3 : a = j
        · subst h3; simp [tfind, Ne.symm h2]
        · simp only [tfind, List.find?_cons, h3, decide_false] at ih ⊢
          exact ih

@[simp] theorem Mach.job_setJob (m : Mach) (k j : Nat) (x : Job) : (m.setJob k x).job j = if k = j then some x else m.job j := by
  simp [Mach.job, Mach.setJob, tfind_insert]

/-! ### Seats -/

@[simp] theorem Mach.arch_setArch (m : Mach) (q j : Nat) (a : Arch) : (m.setArch q a).arch j = if q = j then a else m.arch j := by
  by_cases h : q = j <;> simp [Mach.arch, Mach.setArch, h]

@[simp] theorem Mach.arch_setReg (m : Mach) (r q : Nat) (v : Word) : (m.setReg r v).arch q = m.arch q := by
  simp [Mach.arch, Mach.seat]

@[simp] theorem Mach.seat_setReg (m : Mach) (r q : Nat) (v : Word) : (m.setReg r v).seat q = m.seat q := by
  simp [Mach.seat]

/-- A cell reads as it was written, and every other as before. -/
theorem Arch.cell_setCell (a : Arch) (b n c k : Nat) (v : Word) :
    (a.setCell b n v).cell c k = if 32 * b + n = 32 * c + k then v else a.cell c k := by
  simp [Arch.cell, Arch.setCell]

/-- A self-window register reads as it was written, and every other as before. -/
@[simp] theorem Arch.reg_setReg (a : Arch) (o p : Nat) (v : Word) : (a.setReg o v).reg p = if o = p then v else a.reg p := by
  simp [Arch.reg, Arch.setReg]

@[simp] theorem Arch.setCell_pc (a : Arch) (b n : Nat) (x : Word) : (a.setCell b n x).pc = a.pc := rfl
@[simp] theorem Arch.setCell_litk (a : Arch) (b n : Nat) (x : Word) : (a.setCell b n x).litk = a.litk := rfl
@[simp] theorem Arch.setCell_ds (a : Arch) (b n : Nat) (x : Word) : (a.setCell b n x).ds = a.ds := rfl
@[simp] theorem Arch.setCell_rs (a : Arch) (b n : Nat) (x : Word) : (a.setCell b n x).rs = a.rs := rfl
@[simp] theorem Arch.setCell_regs (a : Arch) (b n : Nat) (x : Word) : (a.setCell b n x).regs = a.regs := rfl
@[simp] theorem Arch.setCell_wld (a : Arch) (b n : Nat) (x : Word) : (a.setCell b n x).wld = a.wld := rfl
@[simp] theorem Arch.setCell_waiting (a : Arch) (b n : Nat) (x : Word) : (a.setCell b n x).waiting = a.waiting := rfl
@[simp] theorem Arch.setCell_fp (a : Arch) (b n : Nat) (x : Word) : (a.setCell b n x).fp = a.fp := rfl
@[simp] theorem Arch.setCell_bar (a : Arch) (b n : Nat) (x : Word) : (a.setCell b n x).bar = a.bar := rfl

@[simp] theorem Arch.setReg_pc (a : Arch) (o : Nat) (x : Word) : (a.setReg o x).pc = a.pc := rfl
@[simp] theorem Arch.setReg_litk (a : Arch) (o : Nat) (x : Word) : (a.setReg o x).litk = a.litk := rfl
@[simp] theorem Arch.setReg_ds (a : Arch) (o : Nat) (x : Word) : (a.setReg o x).ds = a.ds := rfl
@[simp] theorem Arch.setReg_rs (a : Arch) (o : Nat) (x : Word) : (a.setReg o x).rs = a.rs := rfl
@[simp] theorem Arch.setReg_cells (a : Arch) (o : Nat) (x : Word) : (a.setReg o x).cells = a.cells := rfl
@[simp] theorem Arch.setReg_wld (a : Arch) (o : Nat) (x : Word) : (a.setReg o x).wld = a.wld := rfl
@[simp] theorem Arch.setReg_waiting (a : Arch) (o : Nat) (x : Word) : (a.setReg o x).waiting = a.waiting := rfl
@[simp] theorem Arch.setReg_fp (a : Arch) (o : Nat) (x : Word) : (a.setReg o x).fp = a.fp := rfl
@[simp] theorem Arch.setReg_bar (a : Arch) (o : Nat) (x : Word) : (a.setReg o x).bar = a.bar := rfl

@[simp] theorem Arch.setOwn_pc (a : Arch) (n : Nat) (x : Word) : (a.setOwn n x).pc = a.pc := rfl
@[simp] theorem Arch.setOwn_litk (a : Arch) (n : Nat) (x : Word) : (a.setOwn n x).litk = a.litk := rfl
@[simp] theorem Arch.setOwn_ds (a : Arch) (n : Nat) (x : Word) : (a.setOwn n x).ds = a.ds := rfl
@[simp] theorem Arch.setOwn_rs (a : Arch) (n : Nat) (x : Word) : (a.setOwn n x).rs = a.rs := rfl
@[simp] theorem Arch.setOwn_regs (a : Arch) (n : Nat) (x : Word) : (a.setOwn n x).regs = a.regs := rfl
@[simp] theorem Arch.setOwn_wld (a : Arch) (n : Nat) (x : Word) : (a.setOwn n x).wld = a.wld := rfl
@[simp] theorem Arch.setOwn_waiting (a : Arch) (n : Nat) (x : Word) : (a.setOwn n x).waiting = a.waiting := rfl
@[simp] theorem Arch.setOwn_fp (a : Arch) (n : Nat) (x : Word) : (a.setOwn n x).fp = a.fp := rfl
@[simp] theorem Arch.setOwn_bar (a : Arch) (n : Nat) (x : Word) : (a.setOwn n x).bar = a.bar := rfl

@[simp] theorem Seat.setEnt_arch (s : Seat) (i : Nat) (x : NsEnt) : (s.setEnt i x).arch = s.arch := rfl
@[simp] theorem Seat.setEnt_ckpt (s : Seat) (i : Nat) (x : NsEnt) : (s.setEnt i x).ckpt = s.ckpt := rfl
@[simp] theorem Seat.setEnt_group (s : Seat) (i : Nat) (x : NsEnt) : (s.setEnt i x).group = s.group := rfl
@[simp] theorem Seat.setEnt_stores (s : Seat) (i : Nat) (x : NsEnt) : (s.setEnt i x).stores = s.stores := rfl
@[simp] theorem Seat.setEnt_acc (s : Seat) (i : Nat) (x : NsEnt) : (s.setEnt i x).acc = s.acc := rfl
@[simp] theorem Seat.setEnt_istOld (s : Seat) (i : Nat) (x : NsEnt) : (s.setEnt i x).istOld = s.istOld := rfl
@[simp] theorem Seat.setEnt_word (s : Seat) (i : Nat) (x : NsEnt) : (s.setEnt i x).word = s.word := rfl
@[simp] theorem Seat.setEnt_retries (s : Seat) (i : Nat) (x : NsEnt) : (s.setEnt i x).retries = s.retries := rfl
@[simp] theorem Seat.setEnt_tlb (s : Seat) (i : Nat) (x : NsEnt) : (s.setEnt i x).tlb = s.tlb := rfl
@[simp] theorem Seat.setEnt_plru (s : Seat) (i : Nat) (x : NsEnt) : (s.setEnt i x).plru = s.plru := rfl
@[simp] theorem Seat.setEnt_evb (s : Seat) (i : Nat) (x : NsEnt) : (s.setEnt i x).evb = s.evb := rfl
@[simp] theorem Seat.setEnt_l1i (s : Seat) (i : Nat) (x : NsEnt) : (s.setEnt i x).l1i = s.l1i := rfl
@[simp] theorem Seat.setEnt_openBank (s : Seat) (i : Nat) (x : NsEnt) : (s.setEnt i x).openBank = s.openBank := rfl
@[simp] theorem Seat.setEnt_srBank (s : Seat) (i : Nat) (x : NsEnt) : (s.setEnt i x).srBank = s.srBank := rfl
@[simp] theorem Seat.setEnt_ghr (s : Seat) (i : Nat) (x : NsEnt) : (s.setEnt i x).ghr = s.ghr := rfl
@[simp] theorem Seat.setEnt_ind (s : Seat) (i : Nat) (x : NsEnt) : (s.setEnt i x).ind = s.ind := rfl
@[simp] theorem Seat.setEnt_stopped (s : Seat) (i : Nat) (x : NsEnt) : (s.setEnt i x).stopped = s.stopped := rfl
@[simp] theorem Seat.setEnt_step (s : Seat) (i : Nat) (x : NsEnt) : (s.setEnt i x).step = s.step := rfl
@[simp] theorem Seat.setEnt_haltReq (s : Seat) (i : Nat) (x : NsEnt) : (s.setEnt i x).haltReq = s.haltReq := rfl
@[simp] theorem Seat.setEnt_resetReq (s : Seat) (i : Nat) (x : NsEnt) : (s.setEnt i x).resetReq = s.resetReq := rfl
@[simp] theorem Seat.setEnt_moving (s : Seat) (i : Nat) (x : NsEnt) : (s.setEnt i x).moving = s.moving := rfl
@[simp] theorem Seat.setEnt_moveCause (s : Seat) (i : Nat) (x : NsEnt) : (s.setEnt i x).moveCause = s.moveCause := rfl
@[simp] theorem Seat.setEnt_moveRetries (s : Seat) (i : Nat) (x : NsEnt) : (s.setEnt i x).moveRetries = s.moveRetries := rfl
@[simp] theorem Seat.setEnt_rotTo (s : Seat) (i : Nat) (x : NsEnt) : (s.setEnt i x).rotTo = s.rotTo := rfl
@[simp] theorem Seat.setEnt_fresh (s : Seat) (i : Nat) (x : NsEnt) : (s.setEnt i x).fresh = s.fresh := rfl
@[simp] theorem Seat.setEnt_noSpare (s : Seat) (i : Nat) (x : NsEnt) : (s.setEnt i x).noSpare = s.noSpare := rfl
@[simp] theorem Seat.setEnt_entry (s : Seat) (i : Nat) (x : NsEnt) : (s.setEnt i x).entry = s.entry := rfl
@[simp] theorem Seat.setEnt_swdStop (s : Seat) (i : Nat) (x : NsEnt) : (s.setEnt i x).swdStop = s.swdStop := rfl
@[simp] theorem Seat.setEnt_accn (s : Seat) (i : Nat) (x : NsEnt) : (s.setEnt i x).accn = s.accn := rfl
@[simp] theorem Seat.setEnt_pmSrSet (s : Seat) (i : Nat) (x : NsEnt) : (s.setEnt i x).pmSrSet = s.pmSrSet := rfl

@[simp] theorem Seat.touch_arch (s : Seat) (i : Nat) : (s.touch i).arch = s.arch := rfl
@[simp] theorem Seat.touch_ckpt (s : Seat) (i : Nat) : (s.touch i).ckpt = s.ckpt := rfl
@[simp] theorem Seat.touch_group (s : Seat) (i : Nat) : (s.touch i).group = s.group := rfl
@[simp] theorem Seat.touch_stores (s : Seat) (i : Nat) : (s.touch i).stores = s.stores := rfl
@[simp] theorem Seat.touch_acc (s : Seat) (i : Nat) : (s.touch i).acc = s.acc := rfl
@[simp] theorem Seat.touch_istOld (s : Seat) (i : Nat) : (s.touch i).istOld = s.istOld := rfl
@[simp] theorem Seat.touch_word (s : Seat) (i : Nat) : (s.touch i).word = s.word := rfl
@[simp] theorem Seat.touch_retries (s : Seat) (i : Nat) : (s.touch i).retries = s.retries := rfl
@[simp] theorem Seat.touch_tlb (s : Seat) (i : Nat) : (s.touch i).tlb = s.tlb := rfl
@[simp] theorem Seat.touch_ns (s : Seat) (i : Nat) : (s.touch i).ns = s.ns := rfl
@[simp] theorem Seat.touch_evb (s : Seat) (i : Nat) : (s.touch i).evb = s.evb := rfl
@[simp] theorem Seat.touch_l1i (s : Seat) (i : Nat) : (s.touch i).l1i = s.l1i := rfl
@[simp] theorem Seat.touch_openBank (s : Seat) (i : Nat) : (s.touch i).openBank = s.openBank := rfl
@[simp] theorem Seat.touch_srBank (s : Seat) (i : Nat) : (s.touch i).srBank = s.srBank := rfl
@[simp] theorem Seat.touch_ghr (s : Seat) (i : Nat) : (s.touch i).ghr = s.ghr := rfl
@[simp] theorem Seat.touch_ind (s : Seat) (i : Nat) : (s.touch i).ind = s.ind := rfl
@[simp] theorem Seat.touch_stopped (s : Seat) (i : Nat) : (s.touch i).stopped = s.stopped := rfl
@[simp] theorem Seat.touch_step (s : Seat) (i : Nat) : (s.touch i).step = s.step := rfl
@[simp] theorem Seat.touch_haltReq (s : Seat) (i : Nat) : (s.touch i).haltReq = s.haltReq := rfl
@[simp] theorem Seat.touch_resetReq (s : Seat) (i : Nat) : (s.touch i).resetReq = s.resetReq := rfl
@[simp] theorem Seat.touch_moving (s : Seat) (i : Nat) : (s.touch i).moving = s.moving := rfl
@[simp] theorem Seat.touch_moveCause (s : Seat) (i : Nat) : (s.touch i).moveCause = s.moveCause := rfl
@[simp] theorem Seat.touch_moveRetries (s : Seat) (i : Nat) : (s.touch i).moveRetries = s.moveRetries := rfl
@[simp] theorem Seat.touch_rotTo (s : Seat) (i : Nat) : (s.touch i).rotTo = s.rotTo := rfl
@[simp] theorem Seat.touch_fresh (s : Seat) (i : Nat) : (s.touch i).fresh = s.fresh := rfl
@[simp] theorem Seat.touch_noSpare (s : Seat) (i : Nat) : (s.touch i).noSpare = s.noSpare := rfl
@[simp] theorem Seat.touch_entry (s : Seat) (i : Nat) : (s.touch i).entry = s.entry := rfl
@[simp] theorem Seat.touch_swdStop (s : Seat) (i : Nat) : (s.touch i).swdStop = s.swdStop := rfl
@[simp] theorem Seat.touch_accn (s : Seat) (i : Nat) : (s.touch i).accn = s.accn := rfl
@[simp] theorem Seat.touch_pmSrSet (s : Seat) (i : Nat) : (s.touch i).pmSrSet = s.pmSrSet := rfl

/-! ### The state after reset -/

theorem reset_reg (a : Nat) : State.reset.reg a = resetOf a := by
  simp [State.reset, Mach.reg, tabGet]

end Sys2Proof.Machine
end

