-- ==== Sys2Proof/Laws/Core.lean ====
section
/-! SUPPORT. Laws of the cores' frame: what fetching, counting, ending a group and retiring leave of a seat's architected state,
and what the stack operations do where every entry they meet is in the core. -/

namespace Sys2Proof.Machine

open Sys2Proof

/-! ### Seats through the memory operations -/

/-- A seat without what its unit caches and will count: translations, near store, eviction buffer, instruction cache, the accesses
noted, the word fetched last, the containers its fetches still see. -/
def Seat.front (s : Seat) : Seat :=
  { s with tlb := [], ns := [], plru := [], evb := [], l1i := [], acc := [], word := none, istOld := [] }

/-- Only what units cache of memory may differ between two machines' seats; registers are the same, and so is the memory system's
work where no device is in training. -/
structure SameFront (m n : Mach) : Prop where
  seat : ∀ j, (n.seat j).front = (m.seat j).front
  regs : n.regs = m.regs
  ledger : n.ledger = m.ledger
  memst : m.memst.training = none → n.memst = m.memst

theorem SameFront.refl (m : Mach) : SameFront m m := ⟨fun _ => rfl, rfl, rfl, fun _ => rfl⟩

theorem SameFront.trans {m n o : Mach} (h : SameFront m n) (g : SameFront n o) : SameFront m o :=
  ⟨fun j => (g.seat j).trans (h.seat j), g.regs.trans h.regs, g.ledger.trans h.ledger, fun ht => by
    have h1 := h.memst ht
    exact (g.memst (by rw [h1]; exact ht)).trans h1⟩

theorem SameFront.of_seats {m n : Mach} (h : n.seats = m.seats) (hr : n.regs = m.regs) (hl : n.ledger = m.ledger)
    (hm : m.memst.training = none → n.memst = m.memst) : SameFront m n :=
  ⟨fun j => by simp [Mach.seat, h], hr, hl, hm⟩

theorem SameFront.setSeat (m : Mach) (q : Nat) (s : Seat) (h : s.front = (m.seat q).front) : SameFront m (m.setSeat q s) :=
  ⟨fun j => by
    by_cases hq : q = j
    · subst hq; simp [h]
    · simp [hq], rfl, rfl, fun _ => rfl⟩

theorem SameFront.foldl {β : Type} (f : Mach → β → Mach) (h : ∀ m b, SameFront m (f m b)) (l : List β) (m : Mach) :
    SameFront m (l.foldl f m) := by
  induction l generalizing m with
  | nil => exact .refl m
  | cons b l ih => exact (h m b).trans (ih _)

theorem sameFront_setCont (m : Mach) (a : Nat) (c : Cont) : SameFront m (m.setCont a c) := .of_seats rfl rfl rfl fun _ => rfl

theorem sameFront_toGroup (m : Mach) (line : Nat) : SameFront m (m.toGroup line) := by
  have hq : m.memst.training = none → (({ m with l2dirty := setDel line m.l2dirty } : Mach).queues line) = false := by
    intro h; simp [Mach.queues, h]
  unfold Mach.toGroup
  simp only []
  split
  · rename_i h
    exact .of_seats rfl rfl rfl fun ht => by simp [hq ht] at h
  · exact .of_seats rfl rfl rfl fun _ => rfl

theorem sameFront_mirDirty (m : Mach) (line : Nat) : SameFront m (m.mirDirty line) := by
  unfold Mach.mirDirty
  split
  · exact .of_seats rfl rfl rfl fun _ => rfl
  · exact .refl m

theorem front_dropLine (s : Seat) (line : Nat) : (s.dropLine line).front = s.front := rfl

theorem sameFront_dropAt (m : Mach) (q line : Nat) : SameFront m (m.setSeat q ((m.seat q).dropLine line)) :=
  .setSeat _ _ _ (front_dropLine _ _)

theorem sameFront_writeLine (m : Mach) (line : Nat) (ws : List (Nat × Cont)) : SameFront m (m.writeLine line ws) := by
  unfold Mach.writeLine
  split
  · exact .refl m
  · have h := SameFront.foldl (fun x (e : Nat × Cont) => x.setCont (64 * line + e.1) e.2) (fun x e => sameFront_setCont x _ _) ws m
    refine (h.trans ?_).trans (sameFront_mirDirty _ _)
    split
    · exact .of_seats rfl rfl rfl fun _ => rfl
    · exact sameFront_toGroup _ _

theorem sameFront_clusterDrop (m : Mach) (c line : Nat) : SameFront m (m.clusterDrop c line) := by
  unfold Mach.clusterDrop
  apply SameFront.foldl
  intro x e
  split
  · exact .refl x
  · cases h : e.2.dirtyOf line <;> simp only []
    · split
      · exact .refl x
      · exact sameFront_dropAt x _ _
    · split
      · exact sameFront_writeLine x _ _
      · exact (sameFront_writeLine x _ _).trans (sameFront_dropAt _ _ _)

theorem sameFront_l2 (m : Mach) (l : List (Nat × List Nat)) : SameFront m { m with l2 := l } := .of_seats rfl rfl rfl fun _ => rfl

theorem sameFront_stacksUse (m : Mach) (c line : Nat) : SameFront m (m.stacksUse c line).2 := by
  unfold Mach.stacksUse
  simp only []
  split
  · exact sameFront_l2 _ _
  · generalize @ite (Option Nat × List Nat) ((tabGet (fun _ => []) m.l2 (4096 * c + line % 4096)).length < 16) _ _ _ = gk
    obtain ⟨gone, keep⟩ := gk
    cases gone with
    | none => exact sameFront_l2 _ _
    | some l =>
      simp only []
      refine SameFront.trans ((sameFront_clusterDrop m c l).trans (sameFront_l2 _
        (tabPut (fun _ => []) (4096 * c + line % 4096) (line :: keep) (m.clusterDrop c l).l2))) ?_
      split
      · exact sameFront_toGroup _ _
      · exact .refl _

theorem sameFront_draw (m : Mach) : SameFront m m.draw.2 := .of_seats rfl rfl rfl fun _ => rfl

theorem sameFront_noteNs (m : Mach) (q : Nat) (e : NsEv) : SameFront m (m.noteNs q e) := .setSeat _ _ _ rfl

theorem SameFront.reg {m n : Mach} (h : SameFront m n) (a : Nat) : n.reg a = m.reg a := by
  unfold Mach.reg; rw [h.regs, h.ledger]

theorem SameFront.grpState {m n : Mach} (h : SameFront m n) (g : Nat) : n.grpState g = m.grpState g := by
  unfold Mach.grpState Mach.fld; rw [h.reg]

/-! ### Fetching -/

theorem sameFront_pageEntry (q : Nat) (sr : Bool) (root : Word) (vp : Nat) (m n : Mach) (e : Nat)
    (h : pageEntry q sr root vp m = .ok (e, n)) : SameFront m n := by
  unfold pageEntry at h
  simp only [coreExc] at h
  split at h
  · injection h with h; injection h with _ h; subst h
    exact .setSeat _ _ _ rfl
  · cases h
  · split at h
    · injection h with h; injection h with _ h; subst h; exact .refl _
    · split at h
      · injection h with h; injection h with _ h; subst h; exact sameFront_draw m
      · split at h
        · injection h with h; injection h with _ h; subst h
          exact (sameFront_draw m).trans (.setSeat _ _ _ rfl)
        · cases h

theorem sameFront_xlate (q wld a : Nat) (k : Acc) (m n : Mach) (r : Nat × Bool) (h : xlate q wld a k m = .ok (r, n)) :
    SameFront m n := by
  unfold xlate at h
  simp only [coreExc] at h
  repeat' split at h
  all_goals first
    | (injection h with h; injection h with _ h; subst h; exact .refl _)
    | (cases h; done)
    | (injection h with h; injection h with _ h; subst h; exact sameFront_pageEntry _ _ _ _ _ _ _ (by assumption))

theorem checkCont_same (q wld a : Nat) (k : Acc) (p : Nat) (c : Cont) (m n : Mach) (u : Unit)
    (h : checkCont q wld a k p c m = .ok (u, n)) : n = m := by
  unfold checkCont at h
  simp only [coreExc] at h
  repeat' split at h
  all_goals first
    | cases h; done
    | (injection h with h; injection h with _ h; exact h.symm)

/-- A bind that succeeds has a first part that succeeds, with what the second makes of it. -/
theorem coreBind {α β : Type} (x : CoreAct α) (f : α → CoreAct β) (m n : Mach) (b : β)
    (h : (x >>= f) m = .ok (b, n)) : ∃ a o, x m = .ok (a, o) ∧ f a o = .ok (b, n) := by
  simp only [bind, StateT.bind, Except.bind] at h
  split at h
  · cases h
  · rename_i r hr; obtain ⟨a, o⟩ := r; exact ⟨a, o, hr, h⟩

/-- A first part that succeeds goes on with the second. -/
theorem coreBind_ok {α β : Type} (x : CoreAct α) (f : α → CoreAct β) (m o : Mach) (a : α) (h : x m = .ok (a, o)) :
    (x >>= f) m = f a o := by
  simp only [bind, StateT.bind, Except.bind, h]

theorem coreOk_inj {α : Type} {a b : α} {m n : Mach} (h : (.ok (a, m) : Except Exc (α × Mach)) = .ok (b, n)) : a = b ∧ m = n := by
  injection h with h; injection h with h1 h2; exact ⟨h1, h2⟩

theorem lineSeen_calm (m : Mach) (q line : Nat) (h : m.grpState 0 ≠ 2 ∧ m.grpState 1 ≠ 2) : m.lineSeen q line = m := by
  have hg : m.grpState (groupOf line) ≠ 2 := by
    unfold groupOf
    rcases Nat.mod_two_eq_zero_or_one line with h2 | h2 <;> rw [h2]
    · exact h.1
    · exact h.2
  unfold Mach.lineSeen Mach.lineRead
  simp only [hg, if_false]
  split <;> rfl

theorem sameFront_fetchLine (m : Mach) (q l : Nat) : SameFront m (m.fetchLine q l) := by
  unfold Mach.fetchLine
  simp only []
  have h1 := SameFront.setSeat m q { m.seat q with
    l1i := tabPut (fun _ => []) (l % 64) ((l :: (tabGet (fun _ => []) (m.seat q).l1i (l % 64)).filter (· ≠ l)).take 4) (m.seat q).l1i } rfl
  split
  · exact h1
  · have h2 := h1.trans (sameFront_stacksUse _ (cluOf q) l)
    split
    · rename_i e; rw [e] at h2; exact h2.trans (sameFront_noteNs _ _ _)
    · rename_i e; rw [e] at h2; exact (h2.trans (sameFront_noteNs _ _ _)).trans (sameFront_noteNs _ _ _)

theorem sameFront_fetchWord (q pc : Nat) (m n : Mach) (w : Word) (hs : m.grpState 0 ≠ 2 ∧ m.grpState 1 ≠ 2)
    (h : fetchWord q pc m = .ok (w, n)) : SameFront m n := by
  unfold fetchWord at h
  obtain ⟨a, o, h1, h⟩ := coreBind _ _ _ _ _ h
  obtain ⟨_, rfl⟩ := coreOk_inj h1
  obtain ⟨r, o, h1, h⟩ := coreBind _ _ _ _ _ h
  have s1 := sameFront_xlate _ _ _ _ _ _ _ h1
  obtain ⟨u, o2, h1, h⟩ := coreBind _ _ _ _ _ h
  obtain ⟨_, e2⟩ := coreOk_inj h1
  change o.lineSeen q (lineOf r.1) = o2 at e2
  rw [lineSeen_calm _ _ _ (by rw [s1.grpState, s1.grpState]; exact hs)] at e2
  obtain ⟨c, o3, h1, h⟩ := coreBind _ _ _ _ _ h
  obtain ⟨_, e3⟩ := coreOk_inj h1
  obtain ⟨v, o4, h2, h⟩ := coreBind _ _ _ _ _ h
  have e4 := checkCont_same _ _ _ _ _ _ _ _ _ h2
  obtain ⟨v, o5, h3, h4⟩ := coreBind _ _ _ _ _ h
  obtain ⟨_, h5⟩ := coreOk_inj h3
  obtain ⟨_, h6⟩ := coreOk_inj h4
  refine s1.trans ?_
  rw [← h6, ← h5, e4, ← e3, ← e2]
  simp only []
  split
  · exact sameFront_fetchLine _ _ _
  · refine SameFront.trans ?_ (sameFront_fetchLine _ _ _)
    exact (SameFront.setSeat _ q { o.seat q with word := some (pc / 8) } rfl).trans (sameFront_noteNs _ _ _)

/-- A fetch changes what units cache of memory, and nothing else of any seat. -/
theorem sameFront_fetchInstr (q len pc : Nat) (m n : Mach) (u : Unit) (hs : m.grpState 0 ≠ 2 ∧ m.grpState 1 ≠ 2)
    (h : fetchInstr q len pc m = .ok (u, n)) : SameFront m n := by
  unfold fetchInstr at h
  obtain ⟨w, o, h1, h⟩ := coreBind _ _ _ _ _ h
  have s1 := sameFront_fetchWord _ _ _ _ _ hs h1
  split at h
  · cases h
  · injection h with h; injection h with _ h; subst h; exact s1

/-! ### Retiring -/

/-- An update of other fields leaves every seat's architected state and its waiting reset, and the memory system's work. -/
structure SameArch (m n : Mach) : Prop where
  arch : ∀ j, n.arch j = m.arch j
  reset : ∀ j, (n.seat j).resetReq = (m.seat j).resetReq
  memst : n.memst = m.memst

theorem SameArch.refl (m : Mach) : SameArch m m := ⟨fun _ => rfl, fun _ => rfl, rfl⟩

theorem SameArch.trans {m n o : Mach} (h : SameArch m n) (g : SameArch n o) : SameArch m o :=
  ⟨fun j => (g.arch j).trans (h.arch j), fun j => (g.reset j).trans (h.reset j), g.memst.trans h.memst⟩

theorem SameArch.of_seats {m n : Mach} (h : n.seats = m.seats) (hm : n.memst = m.memst) : SameArch m n :=
  ⟨fun j => by simp [Mach.arch, Mach.seat, h], fun j => by simp [Mach.seat, h], hm⟩

theorem SameArch.setSeat (m : Mach) (q : Nat) (s : Seat) (h : s.arch = m.arch q) (hr : s.resetReq = (m.seat q).resetReq) :
    SameArch m (m.setSeat q s) := by
  refine ⟨fun j => ?_, fun j => ?_, rfl⟩ <;> by_cases hq : q = j
  · subst hq; simp [Mach.arch, h]
  · simp [Mach.arch, hq]
  · subst hq; simp [hr]
  · simp [hq]

theorem SameFront.arch {m n : Mach} (h : SameFront m n) (j : Nat) : n.arch j = m.arch j := (congrArg Seat.arch (h.seat j) : _)

theorem SameFront.stores {m n : Mach} (h : SameFront m n) (j : Nat) : (n.seat j).stores = (m.seat j).stores :=
  (congrArg Seat.stores (h.seat j) : _)

theorem SameFront.group {m n : Mach} (h : SameFront m n) (j : Nat) : (n.seat j).group = (m.seat j).group :=
  (congrArg Seat.group (h.seat j) : _)

theorem SameFront.reset {m n : Mach} (h : SameFront m n) (j : Nat) : (n.seat j).resetReq = (m.seat j).resetReq :=
  (congrArg Seat.resetReq (h.seat j) : _)

theorem SameFront.split {m n : Mach} (h : SameFront m n) (j : Nat) : n.splitSeat j = m.splitSeat j := by
  simp [Mach.splitSeat, Mach.locked, Mach.fld, h.reg]

/-- Two architected states that differ in the performance counters alone (R297). -/
structure CountsOnly (a b : Arch) : Prop where
  pc : b.pc = a.pc
  litk : b.litk = a.litk
  ds : b.ds = a.ds
  rs : b.rs = a.rs
  cells : b.cells = a.cells
  wld : b.wld = a.wld
  waiting : b.waiting = a.waiting
  fp : b.fp = a.fp
  bar : b.bar = a.bar
  reg : ∀ o, o < 0x15 ∨ 0x18 < o → b.reg o = a.reg o

theorem CountsOnly.refl (a : Arch) : CountsOnly a a := ⟨rfl, rfl, rfl, rfl, rfl, rfl, rfl, rfl, rfl, fun _ _ => rfl⟩

theorem CountsOnly.trans {a b c : Arch} (h : CountsOnly a b) (g : CountsOnly b c) : CountsOnly a c :=
  ⟨g.pc.trans h.pc, g.litk.trans h.litk, g.ds.trans h.ds, g.rs.trans h.rs, g.cells.trans h.cells, g.wld.trans h.wld,
    g.waiting.trans h.waiting, g.fp.trans h.fp, g.bar.trans h.bar, fun o ho => (g.reg o ho).trans (h.reg o ho)⟩

theorem CountsOnly.of_eq {a b : Arch} (h : b = a) : CountsOnly a b := h ▸ .refl a

theorem countsOnly_setCounter (a : Arch) (i : Nat) (v : Word) (h : i < 4) : CountsOnly a (a.setReg (0x15 + i) v) := by
  refine ⟨rfl, rfl, rfl, rfl, rfl, rfl, rfl, rfl, rfl, fun o ho => ?_⟩
  rw [Arch.reg_setReg, if_neg (by omega)]

/-- What counting changes: performance counters of one seat, and what its unit caches and notes. -/
structure Counts (q : Nat) (m n : Mach) : Prop where
  arch : CountsOnly (m.arch q) (n.arch q)
  stores : (n.seat q).stores = (m.seat q).stores
  group : (n.seat q).group = (m.seat q).group
  reset : (n.seat q).resetReq = (m.seat q).resetReq
  regs : n.regs = m.regs
  ledger : n.ledger = m.ledger
  memst : n.memst = m.memst

theorem Counts.refl (q : Nat) (m : Mach) : Counts q m m := ⟨.refl _, rfl, rfl, rfl, rfl, rfl, rfl⟩

theorem Counts.trans {q : Nat} {m n o : Mach} (h : Counts q m n) (g : Counts q n o) : Counts q m o :=
  ⟨h.arch.trans g.arch, g.stores.trans h.stores, g.group.trans h.group, g.reset.trans h.reset, g.regs.trans h.regs,
    g.ledger.trans h.ledger, g.memst.trans h.memst⟩

theorem Counts.split {q : Nat} {m n : Mach} (h : Counts q m n) : n.splitSeat q = m.splitSeat q := by
  simp [Mach.splitSeat, Mach.locked, Mach.fld, Mach.reg, h.regs, h.ledger]

theorem counts_draw (q : Nat) (m : Mach) : Counts q m m.draw.2 :=
  ⟨.of_eq rfl, rfl, rfl, rfl, rfl, rfl, rfl⟩

theorem counts_setSeat (q : Nat) (m : Mach) (s : Seat) (h : s.front = (m.seat q).front) : Counts q m (m.setSeat q s) := by
  have hs : (m.setSeat q s).seat q = s := by simp
  refine ⟨.of_eq ?_, ?_, ?_, ?_, rfl, rfl, rfl⟩
  · rw [Mach.arch, hs]; exact (congrArg Seat.arch h : _)
  · rw [hs]; exact (congrArg Seat.stores h : _)
  · rw [hs]; exact (congrArg Seat.group h : _)
  · rw [hs]; exact (congrArg Seat.resetReq h : _)

theorem counts_setArch (q : Nat) (m : Mach) (a : Arch) (h : CountsOnly (m.arch q) a) : Counts q m (m.setArch q a) := by
  refine ⟨?_, ?_, ?_, ?_, rfl, rfl, rfl⟩ <;> simp [Mach.setArch, Mach.arch]
  exact h

theorem counts_pmc (m : Mach) (q ev n : Nat) : Counts q m (m.pmc q ev n) := by
  unfold Mach.pmc
  simp only []
  split
  · exact .refl _ _
  · apply counts_setArch
    have h : ∀ (l : List Nat), (∀ i ∈ l, i < 4) → ∀ x, CountsOnly x (l.foldl (fun x i =>
        if nbit (fget ((m.arch q).reg 0x14) F.corePmctlEn) i && nbits ((m.arch q).reg 0x14).toNat (8 * i + 7) (8 * i) = ev then
          x.setReg (0x15 + i) (w48 ((x.reg (0x15 + i)).toNat + n)) else x) x) := by
      intro l; induction l with
      | nil => intro _ x; exact .refl x
      | cons i l ih =>
        intro hl x
        rw [List.foldl_cons]
        refine CountsOnly.trans ?_ (ih (fun j hj => hl j (List.mem_cons_of_mem _ hj)) _)
        split
        · exact countsOnly_setCounter _ _ _ (hl i (List.mem_cons_self ..))
        · exact .refl _
    exact h (List.range 4) (by simp) _

theorem counts_foldl {β : Type} (q : Nat) (f : Mach → β → Mach) (h : ∀ m b, Counts q m (f m b)) (l : List β) (m : Mach) :
    Counts q m (l.foldl f m) := by
  induction l generalizing m with
  | nil => exact .refl q m
  | cons b l ih => exact (h m b).trans (ih _)

theorem counts_pmcFree (m : Mach) (q : Nat) (fold : Bool) : Counts q m (m.pmcFree q fold) := by
  unfold Mach.pmcFree
  apply counts_foldl
  intro x ev
  split
  · exact (counts_draw q x).trans (counts_pmc _ _ _ _)
  · exact .refl _ _

theorem counts_nsCount (m : Mach) (q : Nat) (e : NsEv) : Counts q m (Mach.nsCount q m e) := by
  cases e <;> simp only [Mach.nsCount]
  case hit line =>
    refine Counts.trans ?_ (counts_pmc _ _ _ _)
    split
    · exact counts_setSeat _ _ _ rfl
    · exact .refl _ _
  all_goals exact counts_pmc _ _ _ _

theorem counts_nsRetire (m : Mach) (q : Nat) : Counts q m (m.nsRetire q) := by
  unfold Mach.nsRetire
  simp only []
  split
  · exact .refl _ _
  · exact (counts_setSeat q m { m.seat q with acc := [] } rfl).trans (counts_foldl q _ (fun x e => counts_nsCount x q e) _ _)

theorem counts_countInstr (m : Mach) (q : Nat) (fold : Bool) : Counts q m (m.countInstr q fold) :=
  ((counts_nsRetire m q).trans (counts_pmc _ q 2 1)).trans (counts_pmcFree _ _ _)

theorem seats_raise (m : Mach) (i : Nat) : (m.raise i).seats = m.seats ∧ (m.raise i).memst = m.memst := by
  unfold Mach.raise; split <;> simp

theorem sameArch_setReg (m : Mach) (a : Nat) (v : Word) : SameArch m (m.setReg a v) := .of_seats (by simp) (by simp)

theorem sameArch_cluEvent (m : Mach) (c e s x y r : Nat) : SameArch m (m.cluEvent c e s x y r) :=
  (sameArch_setReg _ _ _).trans (.of_seats (seats_raise _ _).1 (seats_raise _ _).2)

theorem sameArch_beginMove (m : Mach) (q u c : Nat) : SameArch m (m.beginMove q u c) := by
  unfold Mach.beginMove Mach.setSeatState Mach.setFld
  simp only []
  refine SameArch.trans (.of_seats (n := ((m.setReg _ _).setReg _ _).setReg _ _) ?_ ?_) (.setSeat _ _ _ ?_ ?_)
  · simp
  · simp
  · simp [Mach.arch]
  · simp

theorem sameArch_atCheckpoint (m : Mach) (q : Nat) : SameArch m (m.atCheckpoint q) := by
  unfold Mach.atCheckpoint
  simp only []
  split
  · split
    · exact sameArch_beginMove _ _ _ _
    · exact .refl _
  · split
    · refine SameArch.trans (n := m.setSeatState q 2) (.of_seats (by simp [Mach.setSeatState, Mach.setFld])
        (by simp [Mach.setSeatState, Mach.setFld])) (.setSeat _ _ _ ?_ ?_)
      · simp [Mach.arch, Mach.setSeatState, Mach.setFld]
      · simp [Mach.setSeatState, Mach.setFld]
    · exact .refl _

/-- A group that holds no store ends with every seat's architected state as it was. -/
theorem sameArch_endGroup (m : Mach) (q : Nat) (h : (m.seat q).stores = []) : SameArch m (m.endGroup q) := by
  unfold Mach.endGroup
  refine SameArch.trans ?_ (sameArch_atCheckpoint _ _)
  have hd : m.drain q = m := by simp [Mach.drain, h]
  unfold Mach.closeGroup
  simp only [hd, Mach.count]
  have s : SameArch m (m.setSeat q
      { m.seat q with ckpt := (m.seat q).arch, group := 0, retries := 0, fresh := false }) := .setSeat _ _ _ rfl rfl
  split
  · exact s
  · exact ((s.trans (sameArch_setReg _ _ _)).trans (sameArch_setReg _ _ _)).trans (sameArch_cluEvent _ _ _ _ _ _ _)

/-- A pending FP report one instruction older (R270). -/
def Arch.aged (a : Arch) : Arch := { a with fp := a.fp.map fun x => (x.1, x.2 + 1) }

/-- No FP report is due before the next instruction ends (R270). -/
def Arch.fpYoung (a : Arch) : Prop := ∀ x, a.fp = some x → x.2 < 16

/-- A group with room on a locked seat, or without stores, and no report due: retiring ages the report and changes the performance
counters. -/
theorem retire_keeps (m : Mach) (q : Nat) (act fold : Bool) (hfp : (m.arch q).fpYoung)
    (h : (act = false ∧ (m.seat q).group < 63 ∧ m.splitSeat q = false) ∨ (m.seat q).stores = []) :
    CountsOnly (m.arch q).aged ((m.retire q act fold).arch q) ∧ ((m.retire q act fold).seat q).resetReq = (m.seat q).resetReq ∧
      (m.retire q act fold).memst = m.memst := by
  have hc := counts_countInstr m q fold
  obtain ⟨n, hn⟩ : ∃ n, n = m.countInstr q fold := ⟨_, rfl⟩
  rw [← hn] at hc
  obtain ⟨s1, hs1⟩ : ∃ s1 : Seat, s1 = { n.seat q with
      group := (n.seat q).group + 1
      step := false
      arch := { (n.seat q).arch with fp := (n.seat q).arch.fp.map (fun (x : Nat × Nat) => (x.1, x.2 + 1)) } } := ⟨_, rfl⟩
  have ha : s1.arch = (n.arch q).aged := by rw [hs1]; rfl
  have hca : CountsOnly (m.arch q).aged s1.arch := by
    rw [ha]
    have h1 := hc.arch
    exact ⟨h1.pc, h1.litk, h1.ds, h1.rs, h1.cells, h1.wld, h1.waiting, congrArg (Option.map _) h1.fp, h1.bar, h1.reg⟩
  have hset : (n.setSeat q s1).arch q = s1.arch := by simp [Mach.arch]
  have hres : s1.resetReq = (m.seat q).resetReq := by rw [hs1]; exact hc.reset
  have hst : (m.seat q).stores = [] → ((n.setSeat q s1).seat q).stores = [] := by
    intro e; rw [Mach.seat_setSeat, if_pos rfl, hs1]; exact hc.stores.trans e
  have key : CountsOnly (m.arch q).aged ((n.endInstr q act).arch q) ∧ ((n.endInstr q act).seat q).resetReq = (m.seat q).resetReq ∧
      (n.endInstr q act).memst = m.memst := by
    unfold Mach.endInstr
    simp only [← hs1]
    have hbase : CountsOnly (m.arch q).aged ((n.setSeat q s1).arch q) ∧ ((n.setSeat q s1).seat q).resetReq = (m.seat q).resetReq ∧
        (n.setSeat q s1).memst = m.memst := ⟨hca.trans (.of_eq hset), by simp [hres], hc.memst⟩
    split
    · rename_i hact
      have hst1 : (m.seat q).stores = [] := by
        rcases h with ⟨h1, h2, _⟩ | h
        · exfalso
          have h3 := hc.group
          rw [h1] at hact
          simp at hact; omega
        · exact h
      have hs := sameArch_endGroup (n.setSeat q s1) q (hst hst1)
      exact ⟨hbase.1.trans (.of_eq (hs.arch q)), (hs.reset q).trans hbase.2.1, hs.memst.trans hbase.2.2⟩
    · split
      · rename_i hsp
        have hst1 : (m.seat q).stores = [] := by
          rcases h with ⟨_, _, h1⟩ | h
          · exfalso
            have h3 := hc.split
            have h4 : (n.setSeat q s1).splitSeat q = n.splitSeat q := rfl
            rw [h4, h3, h1] at hsp; cases hsp
          · exact h
        have hd : (n.setSeat q s1).drain q = n.setSeat q s1 := by
          unfold Mach.drain; rw [hst hst1]; rfl
        rw [hd]; exact hbase
      · exact hbase
  unfold Mach.retire Mach.retired
  rw [← hn]
  generalize n.endInstr q act = o at key
  have hf : o.fpDue q false = o := by
    unfold Mach.fpDue
    simp only []
    split
    · rename_i x k hk
      rw [key.1.fp] at hk
      have : ¬ 17 ≤ k := by
        cases hm : (m.arch q).fp with
        | none => rw [Arch.aged, hm] at hk; cases hk
        | some y =>
          have := hfp y hm
          simp only [Arch.aged, hm, Option.map_some, Option.some.injEq, Prod.mk.injEq] at hk
          omega
      simp [this]
    · rfl
  rw [hf]; exact key

end Sys2Proof.Machine
end

