-- ==== Sys2Proof/Laws/Stacks.lean ====
section
/-! SUPPORT. Laws of the stacks of a core: what pops and pushes do where every entry they meet is in the core. -/

namespace Sys2Proof.Machine

open Sys2Proof

/-- How a run of pops and pushes leaves an architected state: the in-core entries, DSP or RSP, and nothing else. -/
structure StackMove (rs : Bool) (a b : Arch) (l : List Word) (p : Nat) : Prop where
  pc : b.pc = a.pc
  litk : b.litk = a.litk
  stk : b.stk rs = l
  other : b.stk (!rs) = a.stk (!rs)
  wld : b.wld = a.wld
  waiting : b.waiting = a.waiting
  fp : b.fp = a.fp
  bar : b.bar = a.bar
  regs : b.regs = a.regs
  cell : ∀ k n, n < 32 → b.cell k n = if k = a.wld + 1 ∧ n = ptrCell rs then w48 p else a.cell k n

theorem w48_ptr (a : Arch) (rs : Bool) : w48 (a.ptr rs) = a.own (ptrCell rs) := by simp [Arch.ptr, w48]

theorem stackMove_refl (rs : Bool) (a : Arch) : StackMove rs a a (a.stk rs) (a.ptr rs) := by
  refine ⟨rfl, rfl, rfl, rfl, rfl, rfl, rfl, rfl, rfl, fun k n _ => ?_⟩
  split
  · rename_i h; rw [w48_ptr, h.1, h.2]; rfl
  · rfl

theorem ptrCell_lt (rs : Bool) : ptrCell rs < 32 := by cases rs <;> decide

theorem stackMove_step (rs : Bool) (a b : Arch) (l l' : List Word) (p p' : Nat) (h : StackMove rs a b l p) :
    StackMove rs a ((b.setStk rs l').setOwn (ptrCell rs) (w48 p')) l' p' := by
  have hw : (b.setStk rs l').wld = a.wld := by cases rs <;> exact h.wld
  refine ⟨?_, ?_, ?_, ?_, hw, ?_, ?_, ?_, ?_, fun k n hn => ?_⟩
  · cases rs <;> exact h.pc
  · cases rs <;> exact h.litk
  · cases rs <;> rfl
  · have := h.other; cases rs <;> exact this
  · cases rs <;> exact h.waiting
  · cases rs <;> exact h.fp
  · cases rs <;> exact h.bar
  · cases rs <;> exact h.regs
  · have hp := ptrCell_lt rs
    rw [Arch.setOwn, Arch.cell_setCell, hw]
    have hc : (b.setStk rs l').cell k n = b.cell k n := by cases rs <;> rfl
    rw [hc, h.cell k n hn]
    by_cases hk : k = a.wld + 1 ∧ n = ptrCell rs
    · obtain ⟨rfl, rfl⟩ := hk; simp
    · rw [if_neg hk, if_neg (by omega), if_neg hk]

theorem StackMove.ptr {rs : Bool} {a b : Arch} {l : List Word} {p : Nat} (h : StackMove rs a b l p) : b.ptr rs = p % 2 ^ 48 := by
  unfold Arch.ptr Arch.own
  rw [h.cell _ _ (ptrCell_lt rs), h.wld]
  simp [w48]

/-- A state reached from `m` by giving seat `q` other architected states. -/
inductive ArchSteps (q : Nat) (m : Mach) : Mach → Prop where
  | refl : ArchSteps q m m
  | step (n : Mach) (a : Arch) : ArchSteps q m n → ArchSteps q m (n.setArch q a)

theorem ArchSteps.trans {q : Nat} {m n o : Mach} (h : ArchSteps q m n) (g : ArchSteps q n o) : ArchSteps q m o := by
  induction g with
  | refl => exact h
  | step x a _ ih => exact .step x a ih

/-- The rest of the seat is as it was. -/
theorem ArchSteps.rest {q : Nat} {m n : Mach} (h : ArchSteps q m n) :
    n.seat q = { m.seat q with arch := n.arch q } ∧ (∀ j, j ≠ q → n.seat j = m.seat j) ∧ n = { m with seats := n.seats } := by
  induction h with
  | refl => exact ⟨rfl, fun _ _ => rfl, rfl⟩
  | step x a _ ih =>
    obtain ⟨h1, h2, h3⟩ := ih
    refine ⟨?_, fun j hj => ?_, ?_⟩
    · rw [Mach.arch_setArch, if_pos rfl, Mach.setArch, Mach.seat_setSeat, if_pos rfl, h1]
    · rw [Mach.setArch, Mach.seat_setSeat, if_neg (Ne.symm hj), h2 j hj]
    · rw [h3]; rfl

theorem popStk_in (q : Nat) (rs : Bool) (m : Mach) (w : Word) (l : List Word) (h : (m.arch q).stk rs = w :: l) :
    popStk q rs m = .ok (w, m.setArch q (((m.arch q).setStk rs l).setOwn (ptrCell rs) (w48 ((m.arch q).ptr rs - 1)))) := by
  unfold popStk getArch setArch
  simp only [bind, StateT.bind, Except.bind, h, pure, StateT.pure, Except.pure]

theorem pushStk_in (q : Nat) (rs : Bool) (m : Mach) (w : Word) (h : ((m.arch q).stk rs).length < 16) :
    pushStk q rs w m = .ok ((), m.setArch q (((m.arch q).setStk rs (w :: (m.arch q).stk rs)).setOwn (ptrCell rs)
      (w48 ((m.arch q).ptr rs + 1)))) := by
  unfold pushStk getArch setArch
  have h2 : ((m.arch q).stk rs).take 15 = (m.arch q).stk rs := List.take_of_length_le (by omega)
  simp only [bind, StateT.bind, Except.bind, if_neg (Nat.not_le.mpr h), h2]

/-- `k` pops that find their entries in the core (R225, R248). -/
theorem popN_in (q : Nat) (top : List Word) (m0 m : Mach) (a : Arch) (rest : List Word) (p : Nat)
    (hs : ArchSteps q m0 m) (h : StackMove false a (m.arch q) (top ++ rest) p) (hp : top.length ≤ p) (hlt : p < 2 ^ 48) :
    ∃ n, popN q top.length m = .ok (top, n) ∧ ArchSteps q m0 n ∧ StackMove false a (n.arch q) rest (p - top.length) := by
  induction top generalizing m p with
  | nil => exact ⟨m, rfl, hs, by simpa using h⟩
  | cons w top ih =>
    have h1 := popStk_in q false m w (top ++ rest) h.stk
    have hptr : (m.arch q).ptr false = p := by rw [h.ptr, Nat.mod_eq_of_lt hlt]
    have h2 := stackMove_step false a _ _ (top ++ rest) p (p - 1) h
    rw [hptr] at h1
    obtain ⟨n, hn, hs', hm⟩ := ih (m.setArch q _) (p - 1) (.step m _ hs) (by rw [Mach.arch_setArch, if_pos rfl]; exact h2)
      (by simp at hp; omega) (by omega)
    refine ⟨n, ?_, hs', ?_⟩
    · simp only [List.length_cons, popN]
      rw [coreBind_ok _ _ _ _ _ h1, coreBind_ok _ _ _ _ _ hn]; rfl
    · simp only [List.length_cons]; rw [show p - (top.length + 1) = p - 1 - top.length by omega]; exact hm

/-- Pushes that the core has room for, the last on top (R225, R248). -/
theorem pushAll_in (q : Nat) (l : List Word) (m0 m : Mach) (a : Arch) (rest : List Word) (p : Nat)
    (hs : ArchSteps q m0 m) (h : StackMove false a (m.arch q) rest p) (hl : l.length + rest.length ≤ 16)
    (hlt : p + l.length < 2 ^ 48) :
    ∃ n, pushAll q l m = .ok ((), n) ∧ ArchSteps q m0 n ∧ StackMove false a (n.arch q) (l.reverse ++ rest) (p + l.length) := by
  induction l generalizing m p rest with
  | nil => exact ⟨m, rfl, hs, by simpa using h⟩
  | cons w l ih =>
    have hst : (m.arch q).stk false = rest := h.stk
    have h1 := pushStk_in q false m w (by rw [hst]; simp at hl; omega)
    have hptr : (m.arch q).ptr false = p := by rw [h.ptr, Nat.mod_eq_of_lt (by omega)]
    have h2 := stackMove_step false a _ _ (w :: rest) p (p + 1) h
    rw [hptr, hst] at h1
    obtain ⟨n, hn, hs', hm⟩ := ih (m.setArch q _) (w :: rest) (p + 1) (.step m _ hs)
      (by rw [Mach.arch_setArch, if_pos rfl]; exact h2) (by simp at hl ⊢; omega) (by simp at hlt; omega)
    refine ⟨n, ?_, hs', ?_⟩
    · simp only [pushAll]
      rw [coreBind_ok _ _ _ _ _ h1, hn]
    · have e : p + (w :: l).length = p + 1 + l.length := by simp; omega
      rw [e]; simpa using hm

theorem stackCheck_ok (q : Nat) (rs : Bool) (pops pushes : Nat) (m : Mach) (h : (m.arch q).stackFault rs pops pushes = none) :
    stackCheck q rs pops pushes m = .ok ((), m) := by simp [stackCheck, h]

/-- What bounds that meet an instruction say of the pointer (R225, R248). -/
theorem stackFault_bounds (a : Arch) (rs : Bool) (pops pushes : Nat) (h : a.stackFault rs pops pushes = none) :
    (pops = 0 ∧ pushes = 0) ∨ (pops ≤ a.ptr rs ∧ a.ptr rs + pushes - pops < 2 ^ 48) := by
  unfold Arch.stackFault at h
  have h1 := (a.own (limCell rs)).isLt
  split at h
  · rename_i h0; simp at h0; exact .inl h0
  · right
    simp only [] at h
    split at h <;> [cases h; skip]
    split at h <;> [cases h; skip]
    split at h <;> [cases h; skip]
    constructor <;> omega

/-- An operation on the data stack whose entries are in the core (R225, R248): `f` gets the popped entries, deepest first, on a
state that has popped them, and its results are pushed. -/
theorem stackOp_in (q pops pushes : Nat) (f : List Word → CoreAct (List Word)) (m : Mach) (top rest : List Word)
    (hd : (m.arch q).ds = top ++ rest) (ht : top.length = pops) (hb : (m.arch q).stackFault false pops pushes = none)
    (r : Mach → List Word) (hr : ∀ n, (r n).length ≤ pushes) (hroom : pushes + rest.length ≤ 16)
    (g : Mach → Mach) (hf : ∀ n, ArchSteps q m n → StackMove false (m.arch q) (n.arch q) rest ((m.arch q).ptr false - pops) →
      f top.reverse n = .ok (r n, g n)) (hg : ∀ n, ArchSteps q m n → ArchSteps q m (g n)) :
    ∃ n, ArchSteps q m n ∧ StackMove false (m.arch q) (n.arch q) rest ((m.arch q).ptr false - pops) ∧
      ∀ a, StackMove false a ((g n).arch q) rest ((m.arch q).ptr false - pops) →
        ∃ o, stackOp q pops pushes f m = .ok ((), o) ∧ ArchSteps q m o ∧
          StackMove false a (o.arch q) ((r n).reverse ++ rest) ((m.arch q).ptr false - pops + (r n).length) := by
  have h0 := stackMove_refl false (m.arch q)
  have hlt : (m.arch q).ptr false < 2 ^ 48 := ((m.arch q).own (ptrCell false)).isLt
  have hst : (m.arch q).stk false = top ++ rest := hd
  rw [hst] at h0
  have hb2 := stackFault_bounds _ _ _ _ hb
  have hp : top.length ≤ (m.arch q).ptr false := by omega
  obtain ⟨n, hn, hs, hm⟩ := popN_in q top m m (m.arch q) rest _ .refl h0 hp hlt
  rw [ht] at hn hm
  refine ⟨n, hs, hm, fun a ha => ?_⟩
  have hlen := hr n
  obtain ⟨o, ho, hso, hmo⟩ := pushAll_in q (r n) m (g n) a rest _ (hg n hs) ha (by omega) (by omega)
  refine ⟨o, ?_, hso, hmo⟩
  unfold stackOp
  rw [coreBind_ok _ _ _ _ _ (stackCheck_ok q false pops pushes m hb), coreBind_ok _ _ _ _ _ hn,
    coreBind_ok _ _ _ _ _ (hf n hs hm), ho]

end Sys2Proof.Machine
end

