-- ==== Sys2Proof/Laws/CoreRun.lean ====
section
/-! SUPPORT. Laws of an instruction run to its end: what `coreRun` answers from what the body answers. -/

namespace Sys2Proof.Machine

open Sys2Proof

theorem advancePc_arch (m : Mach) (q len : Nat) : (m.advancePc q len).arch q =
    { m.arch q with
      pc := nextPc (m.arch q).pc len (m.arch q).litk
      litk := if (m.arch q).pc % 8 + len < 6 then (m.arch q).litk else 0 } := by
  simp [Mach.advancePc]

theorem advancePc_seat (m : Mach) (q len : Nat) : ((m.advancePc q len).seat q).group = (m.seat q).group ∧
    ((m.advancePc q len).seat q).stores = (m.seat q).stores := by
  simp [Mach.advancePc, Mach.setArch]

theorem goTo_arch (m : Mach) (q pc : Nat) : (m.goTo q pc).arch q = { m.arch q with pc := pc, litk := 0 } := by
  simp [Mach.goTo]

theorem goTo_seat (m : Mach) (q pc : Nat) : ((m.goTo q pc).seat q).group = (m.seat q).group ∧
    ((m.goTo q pc).seat q).stores = (m.seat q).stores := by
  simp [Mach.goTo, Mach.setArch]

variable {s : State} {q len : Nat} {m : Mach}

theorem CanRun.front (h : CanRun s q len m) : SameFront s.toMach m := sameFront_fetchInstr _ _ _ _ _ _ h.calm.groups h.fetch

theorem CanRun.arch (h : CanRun s q len m) : m.arch q = s.toMach.arch q := h.front.arch q

theorem CanRun.room (h : CanRun s q len m) : ((m.seat q).group < 63 ∧ m.splitSeat q = false) ∨ (m.seat q).stores = [] := by
  rw [h.front.group q, h.front.stores q, h.front.split q]; exact h.group

/-- Nothing waits where nothing is in the way and the memory system's work is the same. -/
theorem stalled_calm (h : Calm s.toMach q) (r : Mach) (hm : r.memst = s.toMach.memst) : s.toMach.stalled r = r := by
  have h1 := h.mirror
  have h2 : ¬ 2048 < r.memst.writeQ.length := by rw [hm]; have := h.idle.2; omega
  simp [Mach.stalled, h1, h2]

/-- The frame of an instruction that can run: its body on the state after the fetch. -/
theorem CanRun.coreRun (h : CanRun s q len m) (body : CoreAct Flow)
    (hm : (s.toMach.coreEnd q len (s.toMach.arch q).pc (body m)).memst = s.toMach.memst)
    (hr : ((s.toMach.coreEnd q len (s.toMach.arch q).pc (body m)).seat q).resetReq = false) :
    s.toMach.coreRun q len body = s.toMach.coreEnd q len (s.toMach.arch q).pc (body m) := by
  have hf : s.toMach.fpOver q = false := by
    unfold Mach.fpOver
    split
    · rename_i x k hk
      have := h.young _ hk
      simp only [decide_eq_false_iff_not]; omega
    · rfl
  unfold Mach.coreRun
  rw [if_pos h.ready]
  simp only [hf, Bool.false_eq_true, if_false]
  rw [coreBind_ok _ _ _ _ _ h.fetch, stalled_calm h.calm _ hm]
  simp [Mach.lateReset, hr]

/-- What the body of an instruction leaves beside its seat's architected state and stores: the memory system's work, the waiting
reset. -/
structure Contained (q : Nat) (m n : Mach) : Prop where
  memst : n.memst = m.memst
  reset : (n.seat q).resetReq = (m.seat q).resetReq

/-- An instruction that goes on with the next one. -/
theorem coreRun_next (h : CanRun s q len m) (body : CoreAct Flow) (n : Mach) (act : Bool) (hb : body m = .ok (.next act, n))
    (hk : Contained q m n) (hy : (n.arch q).fpYoung)
    (hg : (act = false ∧ (n.seat q).group < 63 ∧ n.splitSeat q = false) ∨ (n.seat q).stores = []) :
    CountsOnly (Arch.aged { n.arch q with
      pc := nextPc (n.arch q).pc len (n.arch q).litk
      litk := if (n.arch q).pc % 8 + len < 6 then (n.arch q).litk else 0 })
      ((s.toMach.coreRun q len body).arch q) := by
  have hs := advancePc_seat n q len
  have hkeep := retire_keeps (n.advancePc q len) q act (!act) (by rw [advancePc_arch]; exact hy)
    (by rw [hs.1, hs.2]; exact hg)
  have hsa : ((n.advancePc q len).seat q).resetReq = (n.seat q).resetReq := by simp [Mach.advancePc, Mach.setArch]
  have e : s.toMach.coreEnd q len (s.toMach.arch q).pc (body m) = (n.advancePc q len).retire q act (!act) := by rw [hb]; rfl
  rw [h.coreRun body, e, ← advancePc_arch]
  · exact hkeep.1
  · rw [e, hkeep.2.2]; exact hk.memst.trans (h.front.memst h.calm.idle.1)
  · rw [e, hkeep.2.1, hsa, hk.reset, h.front.reset]; exact h.calm.reset

/-- An instruction that goes on elsewhere. -/
theorem coreRun_jump (h : CanRun s q len m) (body : CoreAct Flow) (n : Mach) (pc : Nat) (hb : body m = .ok (.jump pc, n))
    (hk : Contained q m n) (hy : (n.arch q).fpYoung)
    (hg : ((n.seat q).group < 63 ∧ n.splitSeat q = false) ∨ (n.seat q).stores = []) :
    CountsOnly (Arch.aged { n.arch q with pc := pc, litk := 0 }) ((s.toMach.coreRun q len body).arch q) := by
  have hs := goTo_seat n q pc
  have hkeep := retire_keeps (n.goTo q pc) q false true (by rw [goTo_arch]; exact hy)
    (by rw [hs.1, hs.2]; exact hg.imp (fun x => ⟨rfl, x⟩) id)
  have hsa : ((n.goTo q pc).seat q).resetReq = (n.seat q).resetReq := by simp [Mach.goTo, Mach.setArch]
  have e : s.toMach.coreEnd q len (s.toMach.arch q).pc (body m) = (n.goTo q pc).retire q false true := by rw [hb]; rfl
  rw [h.coreRun body, e, ← goTo_arch]
  · exact hkeep.1
  · rw [e, hkeep.2.2]; exact hk.memst.trans (h.front.memst h.calm.idle.1)
  · rw [e, hkeep.2.1, hsa, hk.reset, h.front.reset]; exact h.calm.reset

theorem cell_of_cells {a b : Arch} (h : b.cells = a.cells) (k n : Nat) : b.cell k n = a.cell k n := by
  unfold Arch.cell; rw [h]

/-- An effect on the data stack, with V where it is raised, all of it in the core. -/
theorem InLine.of_move (h : CanRun s q len m) (body : CoreAct Flow) (n : Mach) (act : Bool) (ds : List Word) (p : Nat)
    (a0 : Arch) (cells : List (Nat × Nat × Word)) (hb : body m = .ok (.next act, n))
    (hm : StackMove false a0 (n.arch q) ds p)
    (h0 : a0.pc = (s.toMach.arch q).pc ∧ a0.litk = (s.toMach.arch q).litk ∧ a0.rs = (s.toMach.arch q).rs ∧
      a0.wld = (s.toMach.arch q).wld ∧ a0.waiting = (s.toMach.arch q).waiting ∧ a0.bar = (s.toMach.arch q).bar ∧
      a0.fp = (s.toMach.arch q).fp ∧ a0.regs = (s.toMach.arch q).regs)
    (hc : ∀ k i, i < 32 → a0.cell k i = cellsBut (s.toMach.arch q) cells k i) (hk : Contained q m n)
    (hg : (act = false ∧ (n.seat q).group < 63 ∧ n.splitSeat q = false) ∨ (n.seat q).stores = []) :
    InLine (s.toMach.arch q) ((s.toMach.coreRun q len body).arch q) len ds (s.toMach.arch q).rs
      (dspIs (s.toMach.arch q) p :: cells) := by
  obtain ⟨e1, e2, e3, e4, e5, e6, e7, e8⟩ := h0
  have hy : (n.arch q).fpYoung := by
    intro x hx; exact h.young x (by rw [← e7, ← hm.fp]; exact hx)
  have hr := coreRun_next h body n act hb hk hy hg
  refine ⟨?_, ?_, ?_, ?_, ?_, ?_, ?_, ?_, ?_, ?_⟩
  · rw [hr.pc]; simp only [Arch.aged, hm.pc, hm.litk, e1, e2]
  · rw [hr.litk]; simp only [Arch.aged, hm.pc, hm.litk, e1, e2]
  · rw [hr.ds]; exact hm.stk
  · rw [hr.rs]; exact hm.other.trans e3
  · rw [hr.fp]; simp only [Arch.aged, hm.fp, e7]
  · rw [hr.wld]; exact hm.wld.trans e4
  · rw [hr.waiting]; exact hm.waiting.trans e5
  · rw [hr.bar]; exact hm.bar.trans e6
  · intro k i hi
    rw [cell_of_cells hr.cells]
    have := hm.cell k i hi
    refine Eq.trans (b := (n.arch q).cell k i) rfl ?_
    rw [this, e4]
    simp only [cellsBut, dspIs, ptrCell, Bool.false_eq_true, if_false]
    by_cases hk : k = (s.toMach.arch q).wld + 1 ∧ i = 1
    · simp [hk]
    · simp only [hk, if_false]; exact hc k i hi
  · intro o ho
    rw [hr.reg o ho]
    refine Eq.trans (b := (n.arch q).reg o) rfl ?_
    unfold Arch.reg; rw [hm.regs, e8]

theorem ArchSteps.contained {q : Nat} {m n : Mach} (h : ArchSteps q m n) : Contained q m n := by
  induction h with
  | refl => exact ⟨rfl, rfl⟩
  | step _ _ _ ih => exact ⟨ih.memst, by simpa [Mach.setArch] using ih.reset⟩

theorem ArchSteps.split {q : Nat} {m n : Mach} (h : ArchSteps q m n) : n.splitSeat q = m.splitSeat q := by
  induction h with
  | refl => rfl
  | step _ _ _ ih => exact ih

theorem ArchSteps.seatStores {q : Nat} {m n : Mach} (h : ArchSteps q m n) : (n.seat q).stores = (m.seat q).stores := by
  rw [h.rest.1]

theorem ArchSteps.seatGroup {q : Nat} {m n : Mach} (h : ArchSteps q m n) : (n.seat q).group = (m.seat q).group := by
  rw [h.rest.1]

/-- A stack effect that computes its results from the popped entries; with `k` it gives V, set where `v` holds. -/
theorem dsBody_run (h : CanRun s q len m) (pops pushes : Nat) (f : List Word → CoreAct (List Word)) (top rest r : List Word)
    (k v : Bool) (hkv : k = false → v = false)
    (hd : (s.toMach.arch q).ds = top ++ rest) (ht : top.length = pops) (hr : r.length = pushes)
    (hb : (s.toMach.arch q).stackFault false pops pushes = none) (hroom : pushes + rest.length ≤ 16)
    (hf : ∀ n : Mach, f top.reverse n = .ok (r.reverse, if k then n.setArch q ((n.arch q).raiseV v) else n)) :
    InLine (s.toMach.arch q) ((s.toMach.coreRun q len (dsBody q pops pushes f)).arch q) len (r ++ rest) (s.toMach.arch q).rs
      (dspIs (s.toMach.arch q) ((s.toMach.arch q).ptr false + pushes - pops) :: vIs (s.toMach.arch q) v) := by
  have ha := h.arch
  rw [← ha] at hd hb
  have hb2 := stackFault_bounds _ _ _ _ hb
  obtain ⟨n, hs, hm, hk⟩ := stackOp_in q pops pushes f m top rest hd ht hb (fun _ => r.reverse) (by simp [hr]) hroom
    (fun n => if k then n.setArch q ((n.arch q).raiseV v) else n) (fun n _ _ => hf n)
    (fun n hn => by split; exact .step _ _ hn; exact hn)
  have hmv : StackMove false ((m.arch q).raiseV v) ((if k then n.setArch q ((n.arch q).raiseV v) else n).arch q) rest
      ((m.arch q).ptr false - pops) := by
    cases v with
    | false => cases k <;> simpa [Arch.raiseV] using hm
    | true =>
      have hk1 : k = true := by cases k with
        | true => rfl
        | false => exact absurd (hkv rfl) (by decide)
      simp only [hk1, if_true, Mach.arch_setArch, Arch.raiseV]
      have hw := hm.wld
      have h7 : (n.arch q).own 7 = (m.arch q).own 7 := by
        unfold Arch.own; rw [hw, hm.cell _ _ (by decide)]; simp [ptrCell]
      refine ⟨hm.pc, hm.litk, hm.stk, hm.other, hm.wld, hm.waiting, hm.fp, hm.bar, hm.regs, fun k i hi => ?_⟩
      rw [Arch.setOwn, Arch.setOwn, Arch.cell_setCell, Arch.cell_setCell, hw, hm.cell k i hi, h7]
      simp only [ptrCell, Bool.false_eq_true, if_false, Arch.setCell_wld]
      split
      · rw [if_neg (by omega)]
      · rfl
  obtain ⟨o, ho, hso, hmo⟩ := hk _ hmv
  have hbody : dsBody q pops pushes f m = .ok (.next false, o) := by
    unfold dsBody; rw [coreBind_ok _ _ _ _ _ ho]; rfl
  have hp : (m.arch q).ptr false - pops + (r.reverse).length = (m.arch q).ptr false + pushes - pops := by
    simp only [List.length_reverse, hr]; omega
  rw [hp, List.reverse_reverse] at hmo
  rw [← ha]
  have hh := InLine.of_move h (dsBody q pops pushes f) o false (r ++ rest) _ ((m.arch q).raiseV v) (vIs (s.toMach.arch q) v)
    hbody hmo
    (by rw [ha]; cases v <;> simp [Arch.raiseV])
    (by
      intro k i hi
      rw [ha]
      cases v with
      | false => simp [vIs, cellsBut, Arch.raiseV]
      | true =>
        simp only [if_true, Arch.raiseV, Arch.setOwn, Arch.cell_setCell, vIs, cellsBut]
        by_cases hki : k = (s.toMach.arch q).wld + 1 ∧ i = 7
        · rw [if_pos hki, if_pos (by omega)]
        · rw [if_neg hki, if_neg (by omega)])
    hso.contained
    (by
      rcases h.room with hg | hg
      · exact .inl ⟨rfl, by rw [hso.seatGroup]; exact hg.1, by rw [hso.split]; exact hg.2⟩
      · exact .inr (by rw [hso.seatStores]; exact hg))
  rw [ha]; rw [ha] at hh; exact hh

end Sys2Proof.Machine
end

