-- ==== Sys2Proof/Tests/Slice0.lean ====
section
/-! SUPPORT. The model's own tests: ill-formed operands that WellFormed refuses, worked examples and tables of the spec, and for
each statement with hypotheses a concrete state and operands that meet them (theorems `test_meets_…`). Each looks at one step of
a small state. -/

open Sys2Proof Sys2Proof.Machine

namespace Sys2Proof.Tests

set_option Elab.async false

/-! ### Helpers -/

/-- A state with nothing waiting. -/
def st (m : Mach) : State := { toMach := m }

/-- The header of an authentic twin-link message of one kind. -/
def hdr (code : Nat) : TwinHead := { head := w48 (code * 2 ^ 40), auth := true }

/-- The module after one command. -/
def ran (c : Instr) (m : Mach) : Mach :=
  match exec c (st m) with
  | .next t => t.toMach
  | _ => {}

/-- The module a core action leaves. -/
def aft {α : Type} (m : Mach) (x : CoreAct α) : Mach :=
  match x m with
  | .ok (_, n) => n
  | .error _ => m

/-- Whether a core action raises nothing. -/
def fine {α : Type} (m : Mach) (x : CoreAct α) : Bool :=
  match x m with
  | .ok _ => true
  | .error _ => false

/-- The house strongroom, an open tenant 4 at its supervisor, and a core of seat 0 as requesters. -/
def house : Who := { sr := true, ten := 0, eng := false, task := false, seat := 0 }
def ten4 : Who := { sr := false, ten := 4, eng := false, task := false, seat := 0 }

/-- The module after boot, in COMMITTED, its memory ready. -/
def up : Mach := (({} : Mach).setFld Reg.modState F.modStatePhase 2).setFld Reg.memStat F.memStatInit 0

/-- Seat 0 RUNNING in the monitor at word 0x100, `ds` and `rs` on its stacks. -/
def monArch (ds rs : List Word) : Arch :=
  [(1, 0x2000 + ds.length), (3, 0x2000), (4, 0x2100), (2, 0x3000 + rs.length), (5, 0x3000), (6, 0x3100)].foldr
    (fun e a => a.setCell 5 e.1 (w48 e.2)) { pc := 0x800, bar := true, ds := ds, rs := rs }
def mach (a : Arch) : Mach :=
  (((({} : Mach).setReg (Reg.cluSeat 0 0) (fset 0 F.cluSeatState 1)).setCont 0x100
    { key := 0, tag := 2, chg := false, pay := 0x480000000000 }).setCont 0x101
    { key := 0, tag := 2, chg := false, pay := 0x123456789ABC }).setSeat 0 { arch := a }
def mon (ds rs : List Word) : Mach := mach (monArch ds rs)

/-- What the fetch of `len` syllables at seat 0 leaves. -/
def fetched (m : Mach) (len : Nat) : Mach := aft m (fetchInstr 0 len (m.arch 0).pc)

/-- Nothing outside seat 0 is in its way. -/
def calm (m : Mach) : Bool :=
  m.grpState 0 ≠ 2 && m.grpState 1 ≠ 2 && m.memst.training.isNone && m.memst.writeQ.length ≤ 2048 && !m.mirLate &&
    !(m.seat 0).resetReq

theorem calm_of {m : Mach} (h : calm m = true) : Calm m 0 := by
  simp only [calm, Bool.and_eq_true, decide_eq_true_eq, Option.isNone_iff_eq_none, Bool.not_eq_true'] at h
  exact ⟨⟨h.1.1.1.1.1, h.1.1.1.1.2⟩, ⟨h.1.1.1.2, h.1.1.2⟩, h.1.2, h.2⟩

/-- Seat 0 can run an instruction of `len` syllables to its end. -/
def can (m : Mach) (len : Nat) : Bool :=
  m.coreReady 0 && calm m && (m.arch 0).fp.isNone && fine m (fetchInstr 0 len (m.arch 0).pc) &&
    ((m.seat 0).group < 63 && !m.splitSeat 0)

theorem canRun_of {m : Mach} {len : Nat} (h : can m len = true) : CanRun (st m) 0 len (fetched m len) := by
  simp only [can, Bool.and_eq_true, decide_eq_true_eq, Bool.not_eq_true'] at h
  refine ⟨h.1.1.1.1, calm_of h.1.1.1.2, ?_, ?_, .inl h.2⟩
  · intro x hx
    rw [show (st m).toMach = m from rfl] at hx
    have := h.1.1.2
    rw [hx] at this
    cases this
  · have hf := h.1.2
    show fetchInstr 0 len (m.arch 0).pc m = _
    unfold fetched aft fine at *
    split at hf
    · rename_i p hp
      obtain ⟨u, n⟩ := p
      rw [hp]
    · cases hf

/-- Seat 0 can take an exception without a spill. -/
def enters (m : Mach) : Bool :=
  m.coreReady 0 && calm m && (m.arch 0).fp.isNone && !fbit ((m.arch 0).psw (handlerOf (m.arch 0).wld)) Psw.xa &&
    ((m.arch 0).wld == handlerOf (m.arch 0).wld || ((m.arch 0).ds == [] && (m.arch 0).rs == [])) && (m.seat 0).stores == []

theorem canEnter_of {m : Mach} (h : enters m = true) : CanEnter (st m) 0 := by
  simp only [enters, Bool.and_eq_true, Bool.or_eq_true, beq_iff_eq, Bool.not_eq_true', Option.isNone_iff_eq_none] at h
  exact ⟨h.1.1.1.1.1, calm_of h.1.1.1.1.2, h.1.1.1.2, h.1.1.2, h.1.2, h.2⟩

/-- What an instruction of seat 0 leaves on its stacks. -/
def leaves (c : Instr) (m : Mach) : List Word × List Word := (((ran c m).arch 0).ds, ((ran c m).arch 0).rs)

/-- Seat 0 at level `w` with `ds` and `rs` in the core; the stack of level `h` has room as well. -/
def lvlArch (w h : Nat) (ds rs : List Word) : Arch :=
  [((w + 1, 1), 0x2000 + ds.length), ((w + 1, 3), 0x2000), ((w + 1, 4), 0x2100), ((w + 1, 2), 0x3000 + rs.length), ((w + 1, 5), 0x3000),
    ((w + 1, 6), 0x3100), ((h + 1, 1), 0x2200), ((h + 1, 3), 0x2200), ((h + 1, 4), 0x2300)].foldr
    (fun e a => a.setCell e.1.1 e.1.2 (w48 e.2)) { pc := 0x800, wld := w, bar := true, ds := ds, rs := rs }
def lvl (w h : Nat) (ds rs : List Word) : Mach := mach (lvlArch w h ds rs)
def popped (m : Mach) (len k : Nat) : Mach := aft (fetched m len) (popN 0 k)

/-! ### WellFormed refuses -/

theorem test_wf_tenant : (Instr.rtArm { house with ten := 16 } 0).wf = false := by decide
theorem test_wf_seat : (Instr.rtArm { house with seat := 64 } 0).wf = false := by decide
theorem test_wf_frame_short : (Instr.dataFrame 0 { octs := [1, 2, 3], fcsOk := true }).wf = false := by decide
theorem test_wf_frame_sub : (RxFrame.mk (List.replicate 64 0) true 60).wf = false := by decide +kernel
theorem test_wf_line_error : (Instr.nsFillDone 0 0 { single := [64] }).wf = false := by decide
theorem test_wf_line_error_multi : (Instr.patrolScrubLine { multi := [64] }).wf = false := by decide
theorem test_wf_heartbeat : [Heartbeat.mk 16 0 0 0 0 0, Heartbeat.mk 0 (2 ^ 24) 0 0 0 0, Heartbeat.mk 0 0 (2 ^ 52) 0 0 0,
  Heartbeat.mk 0 0 0 256 0 0, Heartbeat.mk 0 0 0 0 (2 ^ 64) 0, Heartbeat.mk 0 0 0 0 0 (2 ^ 64)].all
    (fun h => !(Instr.heartbeat (hdr 0) h).wf) = true := by decide
theorem test_wf_debug_cell : (Instr.debugWrite 0 (.cell 8 0) 0).wf = false := by decide
theorem test_wf_debug_cell_number : (Instr.debugRead 0 (.cell 0 32)).wf = false := by decide
theorem test_wf_lane : (Instr.laneResult false 4 0).wf = false := by decide
theorem test_wf_pps_edge : (Instr.ppsEdge 60).wf = false := by decide
theorem test_wf_twin_key : ([Instr.twinAuth (List.replicate 65536 0, []), .twinAuth ([], List.replicate 65536 0)].all fun c => !c.wf) = true := by decide +kernel
theorem test_wf_folio_begin : (Instr.folioBegin (hdr 0, 0) (2 ^ 24) 0).wf = false := by decide
theorem test_wf_folio_begin_mask : (Instr.folioBegin (hdr 0, 0) 0 65536).wf = false := by decide
theorem test_wf_records : (Instr.recordsMsg (hdr 0, 16) 0 []).wf = false := by decide
theorem test_wf_lines : (Instr.linesMsg (hdr 0, 1) []).wf = false := by decide
theorem test_wf_lines_high : (Instr.linesMsg (hdr 0, 2 ^ 32) []).wf = false := by decide
theorem test_wf_epochs : [Instr.folioAck (hdr 0, 0) (2 ^ 24), .handoverDone (hdr 0, 0) (2 ^ 24), .taken (hdr 0, 2 ^ 24), .syncMark (hdr 0, 0) (2 ^ 24) 0].all
  (fun c => !c.wf) = true := by decide
theorem test_wf_sync_phase : (Instr.syncMark (hdr 0, 0) 0 8).wf = false := by decide
theorem test_wf_mailbox_empty : (Instr.mboxWrite []).wf = false := by decide
theorem test_wf_mailbox_long : (Instr.mboxWrite (List.replicate 31 0)).wf = false := by decide
theorem test_wf_register_address : (Instr.registerWrite house (2 ^ 32) 0).wf = false := by decide
theorem test_wf_frame_stamp : (Instr.frameLeftPort 0 60).wf = false := by decide

/-! ### Worked examples and tables of the spec -/

/-! #### Cores -/

theorem test_lits_results : leaves (.lits 0 5) (mon [1] []) = ([5, 1], []) := by decide +kernel
theorem test_lit8_sign : leaves (.lit8 0 0x80) (mon [] []) = ([0xFFFFFFFFFF80], []) := by decide +kernel
theorem test_litw_next_word : leaves (.litw 0) (mon [] []) = ([0x123456789ABC], []) := by decide +kernel
theorem test_stack_rows : [(Instr.drop 0, [2, 3]), (.swap 0, [2, 1, 3]), (.over 0, [2, 1, 2, 3]), (.rot 0, [3, 1, 2]),
    (.nip 0, [1, 3]), (.tuck 0, [1, 2, 1, 3])].all (fun r => (leaves r.1 (mon [1, 2, 3] [])).1 == r.2) = true := by decide +kernel
theorem test_dup : leaves (.dup 0) (mon [1, 2, 3] [9]) = ([1, 1, 2, 3], [9]) := by decide +kernel
theorem test_pick_put : (leaves (.pick 0) (mon [1, 7, 8] [])).1 = [8, 7, 8] ∧ (leaves (.put 0) (mon [1, 9, 7, 8] [])).1 = [7, 9] := by
  decide +kernel
theorem test_return_stack : leaves (.tor 0) (mon [4] [6]) = ([], [4, 6]) ∧ leaves (.fromr 0) (mon [4] [6]) = ([6, 4], []) ∧
    leaves (.peekr 0) (mon [4] [6]) = ([6, 4], [6]) := by decide +kernel

/-- R260's table: DIVS and REMS at -2^47 by -1. -/
theorem test_division_corner : (leaves (.divs 0) (mon [0xFFFFFFFFFFFF, 0x800000000000] [])).1 = [0x800000000000] ∧
    fbit (((ran (.divs 0) (mon [0xFFFFFFFFFFFF, 0x800000000000] [])).arch 0).own 7) Psw.v = true ∧
    (leaves (.rems 0) (mon [0xFFFFFFFFFFFF, 0x800000000000] [])).1 = [0] := by decide +kernel
theorem test_division_truncates : (leaves (.divs 0) (mon [2, 0xFFFFFFFFFFF9] [])).1 = [0xFFFFFFFFFFFD] ∧
    (leaves (.rems 0) (mon [2, 0xFFFFFFFFFFF9] [])).1 = [0xFFFFFFFFFFFF] := by decide +kernel
theorem test_add_overflow : (leaves (.add 0) (mon [1, 0x7FFFFFFFFFFF] [])).1 = [0x800000000000] ∧
    fbit (((ran (.add 0) (mon [1, 0x7FFFFFFFFFFF] [])).arch 0).own 7) Psw.v = true := by decide +kernel
theorem test_shift_full_width : (leaves (.shl 0) (mon [48, 1] [])).1 = [0] ∧ (leaves (.shra 0) (mon [48, 0x800000000000] [])).1 =
    [0xFFFFFFFFFFFF] ∧ (leaves (.rol 0) (mon [49, 0x800000000001] [])).1 = [3] := by decide +kernel

/-- Example 12.1: the rows of DADD. -/
theorem test_dadd_rows : (leaves (.dadd 0 1) (mon [0x200A, 0x125D] [])).1 = [0x75C] ∧
    (leaves (.dadd 0 1) (mon [0x1C, 0x99999999999C] [])).1 = [0xC] := by decide +kernel
/-- Example 12.1: FPC.DO is set by the second row. -/
theorem test_dadd_do : ((ran (.dadd 0 1) (mon [0x1C, 0x99999999999C] [])).arch 0).fpc = 0x20 := by decide +kernel

/-- R271: results under RNE, RTZ, RDN, RUP and RMM with their flags. -/
def modes (f : FMode → Nat × Nat) : List (Nat × Nat) := [0, 1, 2, 3, 4].map fun r => f { rm := r, ftz := false, daz := false }
theorem test_f48_overflow : modes (fun m => f48Add m 0x7FEFFFFFFFFF 0x7FEFFFFFFFFF) =
    [(0x7FF000000000, 5), (0x7FEFFFFFFFFF, 5), (0x7FEFFFFFFFFF, 5), (0x7FF000000000, 5), (0x7FF000000000, 5)] := by decide +kernel
theorem test_f48_overflow_product : modes (fun m => f48Mul m 0x7FEFFFFFFFFF 0xFFEFFFFFFFFF) =
    [(0xFFF000000000, 5), (0xFFEFFFFFFFFF, 5), (0xFFF000000000, 5), (0xFFEFFFFFFFFF, 5), (0xFFF000000000, 5)] := by decide +kernel
theorem test_f48_large_small : modes (fun m => f48Add m 0x7FEFFFFFFFFF 1) =
    [(0x7FEFFFFFFFFF, 1), (0x7FEFFFFFFFFF, 1), (0x7FEFFFFFFFFF, 1), (0x7FF000000000, 5), (0x7FEFFFFFFFFF, 1)] := by decide +kernel
theorem test_f48_just_below : modes (fun m => f48Sub m 0x7FEFFFFFFFFF 1) =
    [(0x7FEFFFFFFFFF, 1), (0x7FEFFFFFFFFE, 1), (0x7FEFFFFFFFFE, 1), (0x7FEFFFFFFFFF, 1), (0x7FEFFFFFFFFF, 1)] := by decide +kernel
theorem test_f48_zero_sign : modes (fun m => f48Sub m 1 1) = [(0, 0), (0, 0), (0x800000000000, 0), (0, 0), (0, 0)] := by decide +kernel
theorem test_f48_underflow : modes (fun m => f48Mul m 0x800000000001 0x3FE000000000) =
    [(0x800000000000, 3), (0x800000000000, 3), (0x800000000001, 3), (0x800000000000, 3), (0x800000000001, 3)] := by decide +kernel
theorem test_f48_divide_by_zero : modes (fun m => f48Div m 1 0) = List.replicate 5 (0x7FF000000000, 8) := by decide +kernel
theorem test_f48_roots : modes (fun m => f48Sqrt m 1) = List.replicate 5 (0x1EE000000000, 0) ∧
    modes (fun m => f48Sqrt m 0x7FEFFFFFFFFF) =
      [(0x5FEFFFFFFFFF, 1), (0x5FEFFFFFFFFF, 1), (0x5FEFFFFFFFFF, 1), (0x5FF000000000, 1), (0x5FEFFFFFFFFF, 1)] ∧
    modes (fun m => f48Sqrt m 0x800000000001) = List.replicate 5 (0x7FF800000000, 16) := by decide +kernel
theorem test_f48_fma : modes (fun m => f48Fma m 0x7FEFFFFFFFFF 0x400000000000 0xFFEFFFFFFFFF) = List.replicate 5 (0x7FEFFFFFFFFF, 0) ∧
    modes (fun m => f48Fma m 1 1 1) = [(1, 3), (1, 3), (1, 3), (2, 3), (1, 3)] := by decide +kernel
theorem test_f48_from_double : modes (fun m => f48OfD m 0x8000) = [(0, 3), (0, 3), (0, 3), (1, 3), (1, 3)] ∧
    modes (fun m => f48OfD m 0x7FEFFFFFFFFFFFFF) =
      [(0x7FF000000000, 5), (0x7FEFFFFFFFFF, 5), (0x7FEFFFFFFFFF, 5), (0x7FF000000000, 5), (0x7FF000000000, 5)] := by decide +kernel
theorem test_f48_compare : modes (fun m => f48Cmp m 1 0) = List.replicate 5 (2, 0) := by decide +kernel

/-! ### Meeting the hypotheses: cores -/

theorem test_meets_literals : CanRun (st (mon [1, 2, 3] [9])) 0 4 (fetched (mon [1, 2, 3] [9]) 4) := canRun_of (by decide +kernel)
theorem test_meets_stack : CanRun (st (mon [1, 2, 3] [9])) 0 1 (fetched (mon [1, 2, 3] [9]) 1) ∧
    let a := (mon [1, 2, 3] [9]).arch 0
    a.stackFault false 3 3 = none ∧ a.stackFault false 2 0 = none ∧ a.stackFault true 1 0 = none ∧ a.stackFault true 0 1 = none ∧
    (a.own 3).toNat + 1 + 2 ≤ a.ptr false ∧
    fetchWord 0 ((a.pc / 8 + 1 + a.litk) % 2 ^ 40 * 8) (fetched (mon [1, 2, 3] [9]) 1) =
      .ok (0x123456789ABC, aft (fetched (mon [1, 2, 3] [9]) 1) (fetchWord 0 0x808)) := ⟨canRun_of (by decide +kernel), by decide +kernel⟩
theorem test_meets_integer : CanRun (st (mon [3, 7] [])) 0 1 (fetched (mon [3, 7] []) 1) ∧
    ((mon [3, 7] []).arch 0).ds = [3] ++ [7] ∧ ((mon [3, 7] []).arch 0).stackFault false 2 1 = none :=
  ⟨canRun_of (by decide +kernel), by decide +kernel⟩
theorem test_meets_decimal : CanRun (st (mon [0x1C, 0x99999999999C] [])) 0 2 (fetched (mon [0x1C, 0x99999999999C] []) 2) ∧
    decFault [0x99999999999C] [0x1C] = none ∧ nbit ((mon [0x1C, 0x99999999999C] []).arch 0).fpc.toNat 12 = false ∧
    ((mon [0x1C, 0x99999999999C] []).arch 0).stackFault false 2 2 = none := ⟨canRun_of (by decide +kernel), by decide +kernel⟩
theorem test_meets_float : CanRun (st (mon [1, 2, 3] [])) 0 1 (fetched (mon [1, 2, 3] []) 1) ∧
    ((mon [1, 2, 3] []).arch 0).stackFault false 3 2 = none ∧ (0x1FFFFFFFFF#48).toInt.natAbs ≤ 2 ^ 37 ∧
    (fmode ((mon [1, 2, 3] []).arch 0).fpc).rm ≤ 4 := ⟨canRun_of (by decide +kernel), by decide +kernel⟩

/-- A load and a store of word 0x200 in the monitor, an IST of word 0x201, and a CAS. -/
def memMach (ds : List Word) : Mach := mon ds []
theorem test_meets_load : CanRun (st (memMach [0x200])) 0 1 (fetched (memMach [0x200]) 1) ∧
    let n := popped (memMach [0x200]) 1 1
    popN 0 1 (fetched (memMach [0x200]) 1) = .ok ([0x200], n) ∧ xlate 0 4 0x200 .load n = .ok ((0x200, true), n) ∧
    checkCont 0 4 0x200 .load 0x200 (n.seen 0 0x200) n = .ok ((), n) := ⟨canRun_of (by decide +kernel), by decide +kernel⟩
theorem test_meets_ild : let n := popped (memMach [0x100]) 1 1
    xlate 0 4 0x100 .ild n = .ok ((0x100, true), n) ∧ checkCont 0 4 0x100 .ild 0x100 (n.seen 0 0x100) n = .ok ((), n) ∧
    ((memMach [0x100]).arch 0).stackFault false 1 1 = none := by decide +kernel
theorem test_meets_store : let m := memMach [0x200, 7]
    let n := popped m 1 2
    can m 1 = true ∧ m.splitSeat 0 = false ∧ (m.arch 0).stackFault false 2 0 = none ∧
    popN 0 2 (fetched m 1) = .ok ([0x200, 7], n) ∧ xlate 0 4 0x200 .store n = .ok ((0x200, true), n) ∧
    checkCont 0 4 0x200 .store 0x200 (n.seen 0 0x200) n = .ok ((), n) ∧
    xlate 0 4 0x200 .ist n = .ok ((0x200, true), n) ∧ checkCont 0 4 0x200 .ist 0x200 (n.seen 0 0x200) n = .ok ((), n) := by
  decide +kernel
theorem test_meets_cas : let m := memMach [9, 0, 0x200]
    let n := popped m 1 3
    can m 1 = true ∧ (m.arch 0).stackFault false 3 1 = none ∧ popN 0 3 (fetched m 1) = .ok ([9, 0, 0x200], n) ∧
    xlate 0 4 0x200 .store n = .ok ((0x200, true), n) ∧ checkCont 0 4 0x200 .store 0x200 (n.coh 0x200) n = .ok ((), n) ∧
    (n.coh 0x200).tag = 0 := by decide +kernel
theorem test_cas_swaps : (leaves (.cas 0) (memMach [9, 0, 0x200])).1 = [0] ∧
    ((ran (.cas 0) (memMach [9, 0, 0x200])).seen 0 0x200).pay = 9 := by decide +kernel
theorem test_meets_in_out : let m := memMach [w48 Reg.rtNextsec, 7]
    let n := popped m 1 1
    let n2 := popped m 1 2
    can m 1 = true ∧ (m.seat 0).stores = [] ∧ (m.arch 0).stackFault false 1 1 = none ∧
    n.windowFault 0 Reg.rtNextsec = none ∧ n.pCheck (n.coreWho 0) Reg.rtNextsec false = none ∧ Reg.rtNextsec ≠ Reg.stkSnapval ∧
    popN 0 2 (fetched m 1) = .ok ([w48 Reg.rtNextsec, 7], n2) ∧ n2.windowFault 0 Reg.rtNextsec = none ∧
    n2.pCheck (n2.coreWho 0) Reg.rtNextsec true = none := by decide +kernel
theorem test_in_out : (leaves (.inp 0) (memMach [w48 (Reg.modState), 7])).1 = [0, 7] ∧
    (ran (.outp 0) (memMach [w48 Reg.rtNextsec, 7])).reg Reg.rtNextsec = 7 := by decide +kernel

theorem test_meets_branches : CanRun (st (mon [0x850] [0x860])) 0 3 (fetched (mon [0x850] [0x860]) 3) ∧
    CanRun (st (mon [0x850] [0x860])) 0 1 (fetched (mon [0x850] [0x860]) 1) ∧ pcFormat 0x850 = true ∧
    let a := (mon [0x850] [0x860]).arch 0
    a.stackFault false 1 0 = none ∧ a.stackFault true 0 1 = none ∧ a.stackFault true 1 0 = none :=
  ⟨canRun_of (by decide +kernel), canRun_of (by decide +kernel), by decide +kernel⟩
/-- Offsets count syllables: 13 syllables on from syllable 0 of a word is syllable 1 of the second word after it. -/
theorem test_branch_target : ((ran (.br 0 13) (mon [] [])).arch 0).pc = 0x811 ∧
    ((ran (.br 0 0xFFFF) (mon [] [])).arch 0).pc = 0x7FD ∧ leaves (.call 0 13) (mon [] []) = ([], [0x803]) := by decide +kernel
theorem test_meets_cells : let m := mon [0x40] []
    can m 3 = true ∧ (m.arch 0).fp = none ∧ (m.arch 0).ds = [0x40] ∧ (m.arch 0).stackFault false 1 0 = none ∧
    (m.arch 0).stackFault false 0 1 = none ∧ (0x40#48 : Word) &&& ~~~0x07C01FBF#48 ≠ 0 ∧
    (0x1F#48 : Word) &&& ~~~0x07C01FBF#48 = 0 ∧ (0x8000000000#48 : Word) &&& ~~~0xFFEF00000000#48 = 0 := by decide +kernel
theorem test_setc_vec : let m := lvl 3 4 [0x12345] []
    can m 3 = true ∧ (m.arch 0).wld = 3 ∧ (m.arch 0).stackFault false 1 0 = none ∧
    ((ran (.setc 0 0x0B) m).arch 0).cell 4 0xB = 0x12300 := by decide +kernel

theorem test_meets_svc : let m := lvl 2 3 [5, 6] []
    let a := m.arch 0
    can m 3 = true ∧ (m.seat 0).stores = [] ∧ a.fp = none ∧ a.ds.length = 2 ∧ a.rs = [] ∧ a.stackFault false 2 0 = none ∧
    (a.cell 4 3).toNat ≤ (a.cell 4 1).toNat ∧ (a.cell 4 1).toNat + 2 ≤ (a.cell 4 4).toNat := by decide +kernel
theorem test_svc : let t := ran (.svc 0 2) (lvl 2 3 [5, 6] [])
    (t.arch 0).wld = 3 ∧ (t.arch 0).ds = [5, 6] ∧ (t.arch 0).cell 4 1 = 0x2202 ∧ (t.arch 0).cell 4 0xD = 0x0F0240000000 := by
  decide +kernel
theorem test_meets_callm : let m := lvl 3 4 [5] []
    let a := m.arch 0
    can m 3 = true ∧ a.ds.length = 1 ∧ a.rs = [] ∧ a.stackFault false 1 0 = none ∧
    (a.cell 5 3).toNat ≤ (a.cell 5 1).toNat ∧ (a.cell 5 1).toNat + 1 ≤ (a.cell 5 4).toNat := by decide +kernel
/-- A handler of level 3 to return to level 2, and one of the monitor to return to level 3. -/
def handler (w h : Nat) (ds : List Word) : Mach :=
  mach (((lvlArch w h ds []).setCell (w + 1) 0xD (w48 (h * 2 ^ 29))).setCell (w + 1) 0xE 0x808)
theorem test_meets_returns : let m := handler 3 2 [5]
    let a := m.arch 0
    can m 3 = true ∧ can m 2 = true ∧ (m.seat 0).stores = [] ∧ (a.cell 4 0xE).toNat = 0x808 ∧
    (a.cell 4 0xD).toNat / 2 ^ 29 % 8 = 2 ∧ a.rs = [] ∧ a.stackFault false 1 0 = none ∧
    (a.cell 3 3).toNat ≤ (a.cell 3 1).toNat ∧ (a.cell 3 1).toNat + 1 ≤ (a.cell 3 4).toNat := by decide +kernel
theorem test_meets_retm : let m := handler 4 3 [5]
    let a := m.arch 0
    can m 3 = true ∧ (a.cell 5 0xD).toNat / 2 ^ 29 % 8 = 3 ∧ a.wld = 4 ∧ a.stackFault false 1 0 = none ∧
    (a.cell 4 3).toNat ≤ (a.cell 4 1).toNat ∧ (a.cell 4 1).toNat + 1 ≤ (a.cell 4 4).toNat := by decide +kernel
theorem test_meets_eret : let m := handler 4 3 []
    can m 2 = true ∧ (m.arch 0).ds.length = 0 ∧ ((ran (.eret 0) m).arch 0).wld = 3 ∧ ((ran (.eret 0) m).arch 0).pc = 0x808 := by
  decide +kernel

theorem test_meets_waits : CanRun (st (mon [] [])) 0 2 (fetched (mon [] []) 2) ∧ CanRun (st (mon [] [])) 0 1 (fetched (mon [] []) 1) ∧
    ((mon [] []).arch 0).fp = none ∧ taskLevel ((mon [] []).arch 0).wld = false :=
  ⟨canRun_of (by decide +kernel), canRun_of (by decide +kernel), by decide +kernel⟩
/-- Source 26, a strongroom source, is pending and routed to seat 0 with priority 3. -/
def irqMach (waiting : Bool) (ie : Nat) : Mach :=
  ((mach { (monArch [] []).setCell 5 7 (fset 0 Psw.ie ie) with waiting := waiting }).setReg (Reg.intStat 26) 1).setReg (Reg.intRoute 26)
    (fset (fset (fset 0 F.intRouteEn 1) F.intRouteSr 1) F.intRoutePri 3)
theorem test_meets_interrupt : (irqMach false 1).boundaryReady 0 = true ∧ (irqMach false 1).intFor 0 = some 26 ∧
    ((irqMach false 1).arch 0).fp = none := by decide +kernel
theorem test_interrupt_taken : ((ran (.interruptTake 0) (irqMach false 1)).arch 0).cell 5 0xD = 0x110380000000 ∧
    (ran (.interruptTake 0) (irqMach false 1)).reg (Reg.intStat 26) = 0 := by decide +kernel
theorem test_meets_wait_end : (irqMach true 1).boundaryReady 0 = true ∧ (irqMach true 1).intFor 0 = some 26 ∧
    (irqMach true 1).pendingInts.any ((irqMach true 1).routedTo 0) = true := by decide +kernel
theorem test_meets_wait_end_masked : (irqMach true 0).boundaryReady 0 = true ∧ (irqMach true 0).intFor 0 = none ∧
    (irqMach true 0).pendingInts.any ((irqMach true 0).routedTo 0) = true := by decide +kernel
/-- A pending report of NV at the monitor. -/
def fpMach : Mach := mach { monArch [] [] with fp := some (16, 3) }
theorem test_meets_fp_report : fpMach.boundaryReady 0 = true ∧ (fpMach.arch 0).fp = some (16, 3) ∧
    fbit ((fpMach.arch 0).psw (handlerOf (fpMach.arch 0).wld)) Psw.xa = false ∧
    ((ran (.fpTrapReport 0) fpMach).arch 0).cell 5 0xD = 0x0E1080000000 := by decide +kernel

/-- The line of word 0x200 stands in entry 3 of the near store, one word changed. -/
def nsMach (ds : List Word) : Mach :=
  let m := mon ds []
  m.setSeat 0 ((m.seat 0).setEnt 3 { valid := true, line := 8, words := [(0, { key := 0, tag := 2, chg := true, pay := 5 })] })
theorem test_meets_near_store : let m := nsMach [0x200]
    let f := fetched m 2
    let n := aft f (popN 0 1)
    can m 2 = true ∧ (m.seat 0).stores = [] ∧ ((f.seat 0).ns.map Prod.fst).Nodup ∧ ((f.seat 0).ent 3).line = 0x200 / 64 ∧ (m.arch 0).wld = 4 ∧ (m.arch 0).stackFault false 1 0 = none ∧
    (f.seat 0).ns.all (fun y => !y.2.filling) = true ∧ (f.seat 0).evb = [] ∧ ((f.seat 0).ent 3).valid = true ∧
    ((f.seat 0).ent 3).locked = false ∧ popN 0 1 f = .ok ([0x200], n) ∧ (f.seat 0).holds (0x200 / 64) = some 3 ∧
    xlate 0 4 0x200 .readCheck n = .ok ((0x200, true), n) ∧ checkCont 0 4 0x200 .readCheck 0x200 (n.seen 0 0x200) n = .ok ((), n) ∧
    xlate 0 4 0x200 .storeCheck n = .ok ((0x200, true), n) ∧
    checkCont 0 4 0x200 .storeCheck 0x200 (n.seen 0 0x200) n = .ok ((), n) := by decide +kernel
theorem test_meets_near_store_lock : let m := nsMach [0x200]
    let f := fetched m 2
    let n := aft f (popN 0 1)
    (m.arch 0).stackFault false 1 1 = none ∧ (f.seat 0).lockCount < 16 ∧ n.setLocks 0 8 < 12 ∧
    ((ran (.nslock 0) m).arch 0).ds = [0xFFFFFFFFFFFF] ∧ (((ran (.nslock 0) m).seat 0).ent 3).locked = true := by decide +kernel
theorem test_meets_near_store_entry : let m := nsMach [3]
    can m 2 = true ∧ (3#48 : Word).toNat % 64 = 3 ∧ ((fetched m 2).seat 0).ent 3 = (m.seat 0).ent 3 ∧
    ((ran (.nsie 0) m).seat 0).ent 3 = {} := by decide +kernel
theorem test_meets_near_store_range : let m := nsMach [1, 0x200]
    let g := fetched m 2
    let n := aft g (popN 0 2)
    can m 2 = true ∧ (m.arch 0).stackFault false 2 0 = none ∧ popN 0 2 g = .ok ([1, 0x200], n) ∧
    ((fetched m 2).seat 0).holds (0x200 / 64) = some 3 ∧ xlate 0 4 0x200 .readCheck n = .ok ((0x200, true), n) ∧
    n.keyPass 0 4 .readCheck 0x200 (n.seen 0 0x200) = true ∧ n.keyPass 0 4 .storeCheck 0x200 (n.seen 0 0x200) = true ∧
    (((ran (.nscr 0) m).seat 0).ent 3).words = [] ∧ (((ran (.nsfr 0) m).seat 0).ent 3).valid = false := by decide +kernel
theorem test_meets_fill_done : let m := mon [] []
    let f := m.setSeat 0 ((m.seat 0).setEnt 5 { valid := true, line := 8, filling := true })
    f.up = true ∧ ((f.seat 0).ent 5).filling = true ∧ (∀ d < 20, f.devState d ≠ 2) ∧ (((ran (.nsFillDone 0 5 {}) f).seat 0).ent 5).filling = false := by decide +kernel
theorem test_meets_eviction : let m := mon [] []
    let f := m.setSeat 0 { m.seat 0 with evb := [{ line := 8, words := [(1, { key := 1, tag := 0, chg := true, pay := 5 })] }] }
    f.up = true ∧ calm f = true ∧ (f.seat 0).evb.find? (fun y => y.entry.isNone) = some { line := 8, words := [(1, { key := 1, tag := 0, chg := true, pay := 5 })] } ∧
    ((ran (.evictionWritebackDone (0, {})) f).cont 0x201).pay = 5 := by decide +kernel

theorem test_meets_exceptions : let m := mon [] []
    let a := m.arch 0
    CanEnter (st m) 0 ∧ fetchInstr 0 1 a.pc m = .ok ((), fetched m 1) ∧ fetchInstr 0 2 a.pc m = .ok ((), fetched m 2) ∧
    fetchInstr 0 3 a.pc m = .ok ((), fetched m 3) ∧ a.stackFault false 1 2 = some 1 ∧ a.stackFault true 1 0 = some 1 ∧
    opLen 0xFF 0 = none := by
  refine ⟨canEnter_of (by decide +kernel), ?_⟩
  decide +kernel
theorem test_stack_underflow : let t := ran (.dup 0) (mon [] [])
    (t.arch 0).cell 5 0xE = 0x800 ∧ (t.arch 0).cell 5 0xD = 0x030180000000 ∧ (t.arch 0).pc = 0xC0 := by decide +kernel
theorem test_meets_privileged : let m := lvl 2 3 [] []
    CanEnter (st m) 0 ∧ fetchInstr 0 2 (m.arch 0).pc m = .ok ((), fetched m 2) ∧ taskLevel (m.arch 0).wld = true ∧
    fetchInstr 0 1 (m.arch 0).pc m = .ok ((), fetched m 1) := by
  refine ⟨canEnter_of (by decide +kernel), ?_⟩
  decide +kernel
theorem test_meets_idiv : let m := mon [0, 7] []
    CanEnter (st m) 0 ∧ (m.arch 0).ds = 0 :: 7 :: [] ∧ (m.arch 0).stackFault false 2 1 = none ∧
    ((ran (.divs 0) m).arch 0).cell 5 0xD = 0x0B0080000000 := by
  refine ⟨canEnter_of (by decide +kernel), ?_⟩
  decide +kernel
/-- XA of the handling level is already 1. -/
def nested (w : Nat) : Mach := mach ((lvlArch w w [] []).setCell (handlerOf w + 1) 7 (fset 0 Psw.xa 1))
theorem test_meets_double : (nested 3).coreReady 0 = true ∧ fetchInstr 0 1 0x800 (nested 3) = .ok ((), fetched (nested 3) 1) ∧
    fbit (((nested 3).arch 0).psw (handlerOf 3)) Psw.xa = true ∧ (nested 3).restarting = false ∧
    ((ran (.illegalOpcode 0 0xFF 0) (nested 3)).arch 0).cell 5 0xD = 0x120160000000 := by decide +kernel
theorem test_meets_double_monitor : (nested 4).coreReady 0 = true ∧ fetchInstr 0 1 0x800 (nested 4) = .ok ((), fetched (nested 4) 1) ∧
    fbit (((nested 4).arch 0).psw 4) Psw.xa = true ∧ ((ran (.illegalOpcode 0 0xFF 0) (nested 4)).seat 0).stopped = true := by
  decide +kernel
theorem test_meets_frame : let m := mon [0x850, 0x858, 0x860] [0x868]
    can m 3 = true ∧ (m.arch 0).ds.all pcFormat = true ∧ (m.arch 0).rs.all pcFormat = true ∧
    (∀ k ≤ 3, ∀ j ≤ 3, (m.arch 0).stackFault false k j = none) ∧ (m.arch 0).stackFault true 1 1 = none ∧
    (ran (.rot 0) m).mem = (fetched m 1).mem := by decide +kernel
theorem test_meets_frame_decimal : let m := mon [0x1C, 0x2C, 0x3C] [0x868]
    (m.arch 0).ds.all pcFormat = true ∧ (m.arch 0).ds.all (fun w => decBad [w] == none) = true ∧
    (leaves (.dcmp 0 1) m).1 = [2, 0x3C] := by decide +kernel

/-! ### Meeting the hypotheses: units, memory, strongroom -/

theorem test_meets_mismatch : (mon [] []).seatLive 0 = true ∧ (mon [] []).locked 0 = true ∧ ((mon [] []).seat 0).retries < 3 ∧
    ((ran (.lockstepMismatch 0) (mon [] [])).seat 0).retries = 1 := by decide +kernel
/-- Cluster 0 in split mode. -/
def splitMach : Mach := (mon [] []).setFld Reg.modState F.modStateSplit 1
theorem test_meets_split_parity : splitMach.seatLive 0 = true ∧ splitMach.locked 0 = false ∧ (splitMach.seat 0).fresh = false ∧
    ((ran (.splitParityError 0 false) splitMach).seat 0).retries = 1 ∧ (ran (.splitParityError 0 true) splitMach).seatState 0 = 4 := by
  decide +kernel
/-- Unit 8 of cluster 0 is SPARE; seat 0 has retried its group three times. -/
def spareMach (retries : Nat) : Mach :=
  let m := (mon [] []).setFld (Reg.cluUnit 0 8) F.cluUnitState 1
  m.setSeat 0 { m.seat 0 with retries := retries }
theorem test_meets_sparing : (spareMach 3).seatLive 0 = true ∧ (spareMach 3).spareUnit 0 = some 8 ∧ ((spareMach 3).seat 0).rotTo = none ∧
    (spareMach 3).locked 0 = true ∧ (spareMach 3).seatState 0 = 1 ∧
    ((ran (.lockstepMismatch 0) (spareMach 3)).seat 0).moving = some 8 ∧
    (ran (.comparatorSelftest 0 true) (spareMach 0)).reg (Reg.cluSelftest 0) = 1 := by decide +kernel
theorem test_meets_sparing_end : let m := (mon [] []).setSeat 0 { (mon [] []).seat 0 with moving := some 8 }
    (m.seat 0).arch.fp = none ∧ (m.seat 0).stores = [] ∧ (m.seat 0).evb = [] ∧ (m.seat 0).arch.rs = [] ∧
    (m.seat 0).moving = some 8 ∧ (m.seat 0).resetReq = false ∧ 8 ≠ m.unitOf 0 ∧ (m.seat 0).arch.ds = [] ∧ (m.seat 0).ns = [] ∧
    (ran (.sparingComplete 0) m).unitOf 0 = 8 ∧ (ran (.sparingComplete 0) m).reg (Reg.cluSparings 0) = 1 := by decide +kernel
theorem test_meets_cluster_fault : (mon [] []).seatLive 0 = true ∧ (mon [] []).locked 0 = true ∧ ((mon [] []).seat 0).stores = [] ∧
    (ran (.clusterFault 0) (mon [] [])).seatState 0 = 4 ∧ (ran (.coreCodeError 0 (.own true)) (mon [] [])).seatState 0 = 4 := by decide +kernel
theorem test_meets_bist : let m := (mon [] []).setFld (Reg.cluUnit 0 8) F.cluUnitState 2
    m.up = true ∧ m.fld (Reg.cluUnit 0 8) F.cluUnitState = 2 ∧
    (ran (.bistComplete 0 8 true) m).fld (Reg.cluUnit 0 8) F.cluUnitState = 1 ∧
    (ran (.bistComplete 0 8 false) m).fld (Reg.cluUnit 0 8) F.cluUnitState = 3 := by decide +kernel
theorem test_meets_bist_unit : let v := fset 0 F.cluBistreqUnit 8
    house.house = true ∧ fget v F.cluBistreqUnit = 8 ∧ tmem (spareMach 0).rotations 0 = false ∧ 8 < (spareMach 0).unitCount 0 ∧
    (spareMach 0).fld (Reg.cluUnit 0 8) F.cluUnitState = 1 ∧
    (ran (.bistUnit house 0 v) (spareMach 0)).fld (Reg.cluUnit 0 8) F.cluUnitState = 2 := by decide +kernel
def busySpare : Mach :=
  let m := ((spareMach 0).setFld (Reg.cluUnit 0 9) F.cluUnitState 1).setFld (Reg.cluCtl 0) F.cluCtlRoten 1
  m.setSeat 0 { m.seat 0 with group := 5 }
theorem test_meets_bist_seat : house.house = true ∧ tmem busySpare.rotations 0 = false ∧ 0 < busySpare.seatCount 0 ∧
    busySpare.seatState 0 = 1 ∧ busySpare.spareUnit 0 = some 8 ∧ (busySpare.seat 0).group ≠ 0 ∧
    ((ran (.bistSeat house 0 0) busySpare).seat 0).rotTo = some 8 := by decide +kernel
theorem test_meets_rotation : let busySpare : Mach := { busySpare with now := 2 ^ 40 }
    tmem busySpare.rotations 0 = false ∧ busySpare.rotationDue 0 = true ∧ (busySpare.seat 0).group ≠ 0 ∧ busySpare.up = true ∧ busySpare.bit (Reg.cluCtl 0) F.cluCtlRoten = true ∧
    2 ≤ (busySpare.unitsIn 0 1).length ∧ busySpare.oldestSeat 0 = some 0 ∧ busySpare.spareUnit 0 = some 8 ∧
    ((ran (.rotation 0) busySpare).seat 0).rotTo = some 8 := by decide +kernel
theorem test_meets_seat_reset : ((mon [] []).seat 0).retries = 0 ∧ ((mon [] []).seat 0).rotTo = none ∧ house.sr = true ∧ (mon [] []).seatState 0 = 1 ∧
    ((ran (.seatReset house 0 0) ((mon [] []).setReg Reg.srMonvec 0x100)).arch 0).pc = 0x800 := by decide +kernel
/-- The debugger of cluster 0 is enabled for both worlds; seat 0 runs or is halted. -/
def dbgMach (st : Nat) : Mach :=
  (((mon [4, 5] []).setFld (Reg.cluDbg 0) F.cluDbgEn 1).setFld (Reg.cluDbg 0) F.cluDbgSrdbg 1).setSeatState 0 st
theorem test_meets_debugger : (dbgMach 1).dbgReach 0 = true ∧ (dbgMach 1).seatState 0 = 1 ∧ ((dbgMach 1).seat 0).retries = 0 ∧
    (dbgMach 2).dbgReach 0 = true ∧ (dbgMach 2).seatState 0 = 2 ∧ 1 < ((dbgMach 2).arch 0).ds.length ∧
    ((ran (.debugWrite 0 (.ds 1) 9) (dbgMach 2)).arch 0).ds = [4, 9] ∧ (ran (.debugRead 0 (.cell 5 4)) (dbgMach 2)).sent = [.dbg 0x2100] := by
  decide +kernel
/-- The replay buffer of cluster 0 holds 63 or 64 actions. -/
theorem test_meets_debug_busy : let m := (dbgMach 1).setFld (Reg.cluDbg 0) F.cluDbgPend 64
    let n := (dbgMach 1).setFld (Reg.cluDbg 0) F.cluDbgPend 63
    m.dbgReach 0 = true ∧ m.locked 0 = true ∧ m.seatState 0 = 1 ∧ (ran (.debugHalt 0) m).sent = [.dbgBusy] ∧
    n.dbgReach 0 = true ∧ (n.seat 0).stores = [] ∧ (n.seat 0).retries = 0 ∧ (ran (.debugHalt 0) n).seatState 0 = 2 ∧
    (ran (.debugHalt 0) n).fld (Reg.cluDbg 0) F.cluDbgPend = 64 := by decide +kernel
/-- A clean and a changed line of the near store (R326). -/
theorem test_meets_near_store_error : let m := nsMach []
    let c := m.setSeat 0 ((m.seat 0).setEnt 3 { valid := true, line := 8 })
    m.up = true ∧ (m.seat 0).ent 3 ≠ {} ∧ m.seatLive 0 = true ∧ ((m.seat 0).ent 3).valid = true ∧ c.seatLive 0 = true ∧
    ((ran (.coreCodeError 0 (.nearStore 3 1)) m).cont 0x201).isPoison = true ∧
    ((ran (.coreCodeError 0 (.nearStore 3 1)) m).seat 0).holds 8 = some 3 ∧
    (((ran (.coreCodeError 0 (.nearStore 3 1)) c).seat 0).ent 3).filling = true := by decide +kernel
theorem test_meets_debug_load : let n := aft (dbgMach 2) (loadAt 0 4 0x200)
    loadAt 0 ((dbgMach 2).arch 0).wld 0x200 (dbgMach 2) = .ok (0, n) ∧ (n.seat 0).stores = [] := by decide +kernel
theorem test_meets_roots : let v := fset (fset 0 F.coreXrootEn 1) F.coreXrootPage 8
    taskLevel ((mon [] []).arch 0).wld = false ∧ srLevel ((mon [] []).arch 0).wld = true ∧ fget v F.coreXrootPage % 4 = 0 ∧
    ((ran (.coreXrootWrite 0 true v) (mon [] [])).arch 0).reg 1 = v := by decide +kernel

/-- The module with its memory ready. -/
theorem test_meets_device_fail : up.memUp = true ∧ up.devState 10 ≠ 2 ∧ (ran (.deviceFail 10 3) up).devState 10 = 2 ∧
    (ran (.deviceFail 10 3) up).grpState 1 = 1 := by decide +kernel
theorem test_meets_training : let up : Mach := { up with now := 2 ^ 40 }
    up.memUp = true ∧ up.rt % 4096 = 0 ∧ up.trainDue 0 = true ∧ up.memst.training = none ∧ up.memst.nextTrain = 0 ∧ up.mayTrain 0 = true ∧
    (ran .deviceTrainingStart up).devState 0 = 1 := by decide +kernel
def trainMach (fails : Nat) : Mach :=
  { up with memst := { up.memst with training := some 3, trainFails := tabPut (fun _ => 0) 3 fails [] } }
theorem test_meets_training_end : (trainMach 0).memst.training = some 3 ∧ tabGet (fun _ => 0) (trainMach 0).memst.trainFails 3 = 0 ∧
    (trainMach 1).memst.training = some 3 ∧ tabGet (fun _ => 0) (trainMach 1).memst.trainFails 3 = 1 ∧
    (ran (.deviceTrainingEnd true) (trainMach 1)).reg (Reg.memDevtrain 3) = 1 ∧
    (ran (.deviceTrainingEnd false) (trainMach 1)).devState 3 = 2 := by decide +kernel
theorem test_meets_scrub : let m := up.setFld Reg.memScrub F.memScrubLine (2 ^ 26 - 1)
    m.memUp = true ∧ (∀ j < 9, m.devState (devOf 1 j) ≠ 2) ∧ m.heldDirty (2 ^ 26 - 1) = false ∧ m.trainStripe 1 = none ∧
    (ran (.patrolScrubLine {}) m).fld Reg.memScrub F.memScrubLine = 0 ∧
    (ran (.patrolScrubLine {}) m).fld Reg.memScrub F.memScrubPasses = 1 ∧
    ((ran (.patrolScrubLine { multi := [63], rebuilds := false }) m).cont (2 ^ 32 - 1)).isPoison = true := by decide +kernel
theorem test_meets_scrub_held : let m := up.setSeat 0 (({} : Seat).setEnt 3 { valid := true, line := 0, words :=
      [(0, { key := 0, tag := 2, chg := true, pay := 5 })] })
    m.memUp = true ∧ m.heldDirty 0 = true ∧ m.memst.scrubAt ≤ m.now ∧ (∀ j < 9, m.devState (devOf 0 j) ≠ 2) := by decide +kernel

theorem test_meets_mark : let v := fset (fset 0 F.memSrpagePage 5) F.memSrpageSet 1
    house.sr = true ∧ up.bit Reg.memSrstat F.memSrstatBusy = false ∧ up.srOverlap (fget v F.memSrpagePage) = false ∧
    (ran (.memSrpageWrite house v) up).memst.srMark = some (5, true) := by decide +kernel
theorem test_meets_mark_end : let m : Mach := { up with memst := { up.memst with srMark := some (5, true) } }
    m.memst.srMark = some (5, true) ∧ m.seats = [] ∧ (ran .srpageMarkDone m).srPage 5 = true := by decide +kernel
theorem test_meets_scan : ten4.house = false ∧ house.house = true ∧ up.bit Reg.memChgres F.memChgresBusy = false ∧
    (ran (.chgScan house (fset 0 F.memChgreqPage 5)) up).memst.chgScan = some (5, false) := by decide +kernel
theorem test_meets_scan_end : let m : Mach := { up with memst := { up.memst with chgScan := some (5, true) } }
    m.memst.chgScan = some (5, true) ∧ (ran .chgScanDone m).memst.chgScan = none := by decide +kernel
theorem test_meets_mem_init : ({} : Mach).up = true ∧ ({} : Mach).bit Reg.memStat F.memStatInit = true ∧
    (ran (.memInitComplete [2]) {}).devState 2 = 2 := by decide +kernel

/-- The header of an image of 2 body words under customer slot 0, and the module whose fuses name its key. -/
def image : List Octet := octetsBE 8 imgMagic ++ [0, 1, 1, 0, 0, 0, 0, 0, 0, 0, 0, 12, 0, 0, 0, 0]
def bootMach : Mach := { up.setFld Reg.modState F.modStatePhase 0 with
  sr := { fuse := { hashes := [(1, hashWords (sha3_512 (imgPk image)).toNat)] } } }
/-- An image passes where its signature does: what verification answers is open (log 2). -/
theorem test_meets_boot (h : Config.mldsaVerify (imgPk image) (image.take 2636) "PFL4800-BOOT" ((image.drop 2636).take 4627) = true) :
    bootMach.memUp = true ∧ bootMach.phase = 0 ∧ bootMach.fld Reg.srBoot F.srBootErra = 7 ∧ bootMach.grpState 0 ≠ 2 ∧
    bootMach.grpState 1 ≠ 2 ∧ bootMach.imageErr image = 0 ∧ bootMach.imageErr [] = 1 := by
  refine ⟨by decide +kernel, by decide +kernel, by decide +kernel, by decide +kernel, by decide +kernel, ?_, by decide +kernel⟩
  unfold Mach.imageErr
  simp only []
  rw [if_neg (by decide +kernel), if_neg (by decide +kernel), if_neg ?_, if_neg (by decide +kernel), if_neg (by decide +kernel),
    show 2624 + imgLen image = 2636 from by decide +kernel, h]
  · rfl
  · rw [show imgKeysel image = 1 from by decide +kernel]
    simp [Mach.bootHash, bootMach, tfind]
theorem test_meets_boot_fails : bootMach.imageErr [] ≠ 0 ∧ (ran (.bootImageVerify [] []) bootMach).phase = 0 ∧
    (ran (.bootImageVerify [] []) bootMach).fld Reg.srBoot F.srBootErrb = 1 := by decide +kernel
theorem test_meets_boot_broken : let m := bootMach.setFld (Reg.memGrp 0) F.memGrpState 2
    m.grpState 0 = 2 ∧ m.memUp = true ∧ (ran (.bootImageVerify [] []) m).fld Reg.srBoot F.srBootErra = 8 := by decide +kernel
def charter : Mach := (up.setFld Reg.modState F.modStatePhase 1).setFld Reg.twnCtl F.twnCtlPaired 0
theorem test_meets_commit : house.sr = true ∧ charter.restarting = false ∧ charter.phase = 1 ∧ charter.commitErr = 0 ∧
    (ran (.charterCommit house 0) up).reg Reg.srCommit = 1 := by decide +kernel
theorem test_meets_commit_refused : let m := charter.setReg Reg.srHome (fset 0 F.srHomeSeat 12)
    m.phase = 1 ∧ m.commitErr ≠ 0 ∧ (ran (.charterCommit house 0) m).phase = 1 := by decide +kernel

theorem test_meets_attributes : let v := fset 0 F.srAttrPortSr 1
    gateBlock 0x10 = true ∧ gateBlock 1 = true ∧ (ran (.srAttrPortWrite house 3 v) up).portSr 3 = true ∧
    (ran (.srAttrEngineWrite house 0x10 v) up).attrPending 0x10 = some true := by decide +kernel
/-- A running job 7 of carrel 3; engine 0 runs `job`; the attributes of engine 0 and lane 0 pend. -/
def job7 : Job := { ctx := 7, carrel := 3, gen := 0, ten := 4, sr := false, cls := 0, blk := 0, tag := 0, slip := 0, st := .running }
def attrMach (job : Option Nat) : Mach :=
  (({ up with jobs := [(7, job7)] } : Mach).setEngine 0 { job := job, attr := some true }).setLane 0 { attr := some true }
theorem test_meets_attr_done : (attrMach none).attrPending 0x10 = some true ∧ (attrMach none).attrPending 1 = some true ∧
    (attrMach none).gated 0x10 = false ∧ ((attrMach none).laneB 1).job = none ∧ ((attrMach none).engine 0).job = none ∧
    (attrMach (some 7)).attrPending 0x10 = some true ∧ ((attrMach (some 7)).engine 0).job = some 7 ∧
    ((attrMach (some 7)).job 7).map (fun j => (attrMach (some 7)).stale j) = some false ∧
    ((ran (.attrChangeDone 0x10) (attrMach (some 7))).job 7).map Job.st = some .ready := by decide +kernel

theorem test_meets_lease : let v := fset 0 F.srLeaseTicks 167772
    house.sr = true ∧ fget v F.srLeaseTicks = 167772 ∧ tfind (ran (.srLeaseWrite house 0 v) up).sr.leases 0 = some 167772 := by
  decide +kernel
theorem test_meets_lease_end : let m : Mach := { up with now := 50, sr := { leases := [(0x10, 50)], deferred := [(0x10, false, true)] } }
    tfind m.sr.leases 0x10 = some 50 ∧ m.sr.deferred.find? (fun d => d.1 = 0x10) = some (0x10, false, true) ∧
    (ran (.srLeaseExpiry 0x10) m).gated 0x10 = true := by decide +kernel
theorem test_meets_watchdog : let m : Mach := { up with now := 1006632961, sr := { swdEnd := some 5, swdLast := some 2 } }
    m.sr.swdEnd = some 5 ∧ m.sr.swdLast = some 2 ∧ m.now < 2 + 1006632960 ∧ m.pins.inReset = false ∧
    (ran .swdExpiry m).pins.cause = 3 ∧ (ran (.swdKick house 0) m).sr.swdEnd = some (1006632961 + 1677722) := by decide +kernel
/-- A first expiry, the image in the vault zero and thus not passing: cause 4. -/
theorem test_meets_watchdog_first : let m : Mach := { up with now := 9, sr := { swdEnd := some 5 } }
    m.sr.swdLast = none ∧ m.seats = [] ∧ m.imageErr m.vaultImage ≠ 0 ∧ (ran .swdExpiry m).pins.cause = 4 := by decide +kernel
theorem test_meets_restart_bound : let m : Mach := { up with now := 16777217, sr := { restart := some 1 } }
    m.sr.restart = some 1 ∧ 1 + 16777216 ≤ m.now ∧ (ran .swdBoundExpiry m).pins.cause = 2 := by decide +kernel
theorem test_meets_restart_commit : let m : Mach := ({ up with sr := { restart := some 1 } } : Mach).setFld Reg.srStat F.srStatRestart 1
    m.restarting = true ∧ (ran (.restartCommit house 0) m).restarting = false := by decide +kernel

theorem test_meets_fuses : let v := fset (fset 0 F.srFusectlSlot 2) F.srFusectlSvn 5
    charter.sr.fuseOp = none ∧ charter.phase = 1 ∧ tmem charter.sr.fuseNext.hashes 3 = false ∧ charter.sr.fuseNext.minsvn < 5 ∧
    ((ran (.fuseRevoke house v) charter).sr.fuseOp.map Fuses.revoked) = some 4 ∧
    (ran (.fuseBadop house v) charter).fld Reg.srFusestat F.srFusestatErr = 4 ∧
    (ran (.fuseRevoke house v) up).fld Reg.srFusestat F.srFusestatErr = 1 := by decide +kernel
theorem test_meets_fuses_used : let m : Mach := { charter with sr := { fuseNext := { hashes := [(1, [])], minsvn := 5 } } }
    tmem m.sr.fuseNext.hashes 1 = true ∧ (ran (.fuseProgram house 0) m).fld Reg.srFusestat F.srFusestatErr = 2 ∧
    (ran (.fuseRaiseMinsvn house (fset 0 F.srFusectlSvn 5)) m).fld Reg.srFusestat F.srFusestatErr = 3 := by decide +kernel
theorem test_meets_fuse_end : let m : Mach := { charter with sr := { fuseOp := some { minsvn := 5 } } }
    m.sr.fuseOp = some { minsvn := 5 } ∧ (ran .fuseOpDone m).sr.fuseNext.minsvn = 5 := by decide +kernel
theorem test_meets_mesh : up.pins.vaux = true ∧ (ran .meshBreach up).pins.cause = 5 := by decide +kernel

theorem test_meets_tipin : fbit (fset 0 F.ucCtlLoad 1) F.ucCtlActivate = false ∧ up.restarting = false ∧ up.ucBusy = false ∧
    (ran (.tipinLoad house (fset 0 F.ucCtlLoad 1)) up).uc.loading = some 0 ∧ up.uc.staged = none ∧
    (ran (.tipinActivate house (fset 0 F.ucCtlActivate 1)) up).reg Reg.ucRes = 9 := by decide +kernel
theorem test_meets_tipin_busy : let m : Mach := { up with uc := { loading := some 0 } }
    m.ucBusy = true ∧ m.restarting = false ∧ (ran (.tipinLoad house (fset 0 F.ucCtlLoad 1)) m).reg Reg.ucRes = 1 ∧
    m.uc.loading = some 0 ∧ (up.setFld Reg.srStat F.srStatRestart 1).restarting = true := by decide +kernel
theorem test_tipin_unmarked : (ran .tipinLoadDone { up with uc := { loading := some 0 } }).reg Reg.ucRes = 8 := by decide +kernel
/-- Example 19.1: a match word, staged and activated. -/
theorem test_meets_tipin_activate :
    let m := ({ up with uc := { staged := some [0x544900000001, 0, 0x810500001A2C] } } : Mach).setFld Reg.ucStat F.ucStatActivating 1
    m.uc.staged.isSome = true ∧ m.bit Reg.ucStat F.ucStatActivating = true ∧
    (ran .tipinActivateDone m).reg (Reg.ucMatch 0) = 0x810500001A2C := by decide +kernel
/-- A micro-cycle in the bank of a package: JUMP, CALL, RETURN and the bound of 1,024 micro-cycles (R385, R386); the package's first
patch word is `w`. -/
def tipOf (w : BitVec 144) : List Word :=
  List.replicate 18 0 ++ [w.extractLsb' 96 48, w.extractLsb' 48 48, w.extractLsb' 0 48]
def micro (next target safe : Nat) : BitVec 144 := BitVec.ofNat 144 (next * 2 ^ 140 + target * 2 ^ 121 + safe * 2 ^ 120)
theorem test_meets_micro : let at0 : MicroSt := { pc := 0x4000, stack := [7], since := 5 }
    microMatch (tipOf (micro 1 9 0)) 0 0x4000 = 0x4000 ∧ microWord (tipOf (micro 1 9 0)) 0x4000 = micro 1 9 0 ∧
    microStep (tipOf (micro 0 0 0)) 0 0 at0 = some { pc := 0x4001, stack := [7], since := 6 } ∧
    microStep (tipOf (micro 1 0x403F 0)) 0 0 at0 = some { pc := 0x403F, stack := [7], since := 6 } ∧
    microStep (tipOf (micro 1 0x4040 0)) 0 0 at0 = none ∧ microStep (tipOf (micro 3 9 0)) 0 0 at0 = none ∧
    microStep (tipOf (micro 4 0 0)) 0 0 at0 = some { pc := 7, stack := [], since := 6 } ∧
    microStep (tipOf (micro 4 0 0)) 0 0 { at0 with stack := [] } = none ∧ microStep (tipOf (micro 6 0 0)) 0 0 at0 = none ∧
    microStep (tipOf (micro 1 9 0)) 0 0 { at0 with since := 1022 } = some { pc := 9, stack := [7], since := 1023 } ∧
    microStep (tipOf (micro 1 9 0)) 0 0 { at0 with since := 1023 } = none ∧
    microStep [] 0 0 { pc := 0x403F } = none ∧ microStep [] 0 0 { pc := 0x4040 } = none := by decide +kernel
/-- A ROM word that calls (the ROM's words are open, log 130). -/
theorem test_meets_micro_call (h : Config.rom 5 = micro 3 9 1) : microMatch [] 0 5 = 5 ∧
    microStep [] 0 0 { pc := 5, since := 1023 } = some { pc := 9, stack := [6], since := 0 } ∧
    microStep [] 0 0 { pc := 5, stack := List.replicate 8 1 } = none := by
  refine ⟨by decide +kernel, ?_, ?_⟩
  all_goals unfold microStep microWord
            simp only [show microMatch [] 0 5 = 5 from by decide +kernel, h]
            decide +kernel
theorem test_meets_sequencer_job : ((attrMach (some 7)).engine 0).job = some 7 ∧ (attrMach (some 7)).engineOf 7 = some 0 ∧
    ((attrMach (some 7)).job 7).isSome = true := by decide +kernel
theorem test_meets_sequencer_lane : let m := (attrMach none).setLane 0 { job := some 7 }
    (m.laneB 1).job.isSome = true ∧ ((ran (.sequencerFault 2 0) m).laneB 1).job = none := by decide +kernel
theorem test_meets_sequencer_seat : (mon [] []).seatLive 0 = true ∧ (mon [] []).locked 0 = true ∧ ((mon [] []).seat 0).fresh = false ∧
    ((ran (.sequencerFault 4 0) (mon [] [])).seat 0).retries = 1 := by decide +kernel

/-! ### Meeting the hypotheses: the board, time, bells -/

theorem test_meets_stocktake : let m := up.setFld Reg.stkCtl F.stkCtlPinen 1
    m.stkJoins = false ∧ m.bit Reg.stkStat F.stkStatLocked = false ∧ m.up = true ∧ m.pins.sba = true ∧
    m.bit Reg.stkCtl F.stkCtlPinen = true ∧ (ran .stktInEdge m).stk.due = some (3, 3) ∧
    (ran (.stkFire house (fset 0 F.stkStatLocked 1)) m).stk.due = some (3, 2) := by decide +kernel
theorem test_meets_stocktake_locked : let m := (up.setFld Reg.stkCtl F.stkCtlPinen 1).setFld Reg.stkStat F.stkStatLocked 1
    m.stkJoins = false ∧ m.bit Reg.stkStat F.stkStatLocked = true ∧ (ran .stktInEdge m).reg Reg.stkMissed = 1 := by decide +kernel
theorem test_meets_latch : let m : Mach := { up with now := 3, stk := { due := some (3, 4) } }
    m.stk.due = some (3, 4) ∧ m.up = true ∧ (ran .stocktakeLatch m).stk.last = some 3 ∧
    (ran .stocktakeLatch m).fld Reg.stkStat F.stkStatSrc = 4 := by decide +kernel
theorem test_meets_arm : house.house = true ∧ ten4.house = false ∧ up.stk.last ≠ some up.now := by decide +kernel
theorem test_meets_notices : let m : Mach := { up with notes := [(4, [{ code := 1, count := 0, frac := 0, sec := 0, arg := 0 }])] }
    ten4.openTen 4 = true ∧ ten4.openTen 5 = false ∧ (m.noteq 4).length = 1 ∧ (ran (.notePop ten4 4 1) m).noteq 4 = [] := by
  decide +kernel
theorem test_meets_raise : up.mayInt house 512 = true ∧ up.mayInt ten4 512 = false ∧
    (ran (.intRaise house 512) up).reg (Reg.intStat 512) = 1 ∧
    (ran (.intRaise house 512) (ran (.intRaise house 512) up)).reg (Reg.intStat 512) = 3 := by decide +kernel

theorem test_meets_power : up.pins.vaux = true ∧ up.pins.inReset = false ∧ up.pins.pwrOk = true ∧ up.pins.sbb = true ∧
    (ran .resetNLow up).pins.cause = 1 ∧ (ran .pwrOkFall up).pins.inReset = true := by decide +kernel
theorem test_meets_power_up : let m : Mach := { pins := { vaux := false, aliveIn := true, inReset := true } }
    m.pins.vaux = false ∧ (ran .vauxRise m).pins.vaux = true ∧ (ran .vauxRise m).rt = 0 := by decide +kernel
theorem test_meets_reset_end : let m : Mach := { pins := { inReset := true, cause := 4 } }
    m.pins.vaux = true ∧ m.pins.pwrOk = true ∧ m.pins.resetN = true ∧ m.pins.sbb = true ∧ m.pins.cause < 6 ∧
    (ran .moduleResetEnd m).fld Reg.srRstcause F.srRstcauseCause = 4 := by decide +kernel
theorem test_meets_sideband : up.up = true ∧ up.committed = true ∧ (ran .vioSbaLoss up).twin.latch = true ∧
    (ran .vioSbaReturn { up with pins := { up.pins with sba := false, aliveIn := true } }).bit Reg.twnStat F.twnStatAlivein = true := by
  decide +kernel
theorem test_meets_trip : up.pins.tripped = false ∧ 920 ≤ sgn 12 (920#12).toNat ∧ sgn 12 (919#12).toNat < 920 ∧
    (ran (.thermalTrip 920) up).pins.tripped = true ∧ (ran (.thermalTrip 919) up).pins.tripped = false := by decide +kernel

theorem test_meets_management : up.mgmtRuns = true ∧ up.mgmtSr = false ∧ up.mgmtServed 0 = false ∧
    (ran .mgmtReadModState up).sent = [.mgmt [6, 0, 0, 0, 0, 0, 2]] := by decide +kernel
def mailMach : Mach := up.setFld Reg.srAttrPin F.srAttrPinMgmt 1
theorem test_meets_mailbox : mailMach.mgmtSr = true ∧ mailMach.bit Reg.srMbstat F.srMbstatInfull = false ∧
    mailMach.bit Reg.srMbstat F.srMbstatOutfull = false ∧ (ran (.mboxWrite [1, 2]) mailMach).reg (Reg.srMbin 0) = 0x010200000000 ∧
    (ran .mboxRead mailMach).sent = [.mgmt [0]] := by decide +kernel
theorem test_meets_mailbox_full : let m := (mailMach.setFld Reg.srMbstat F.srMbstatInfull 1).setFld Reg.srMbstat F.srMbstatOutfull 1
    m.bit Reg.srMbstat F.srMbstatInfull = true ∧ m.bit Reg.srMbstat F.srMbstatOutfull = true ∧
    (ran (.mboxWrite [1]) m).sent = [.mgmtNak] := by decide +kernel
theorem test_meets_alert : let m := (up.setFld Reg.memAlarm F.memAlarmDegraded 1).setReg Reg.modAlerten 0x3F
    m.alertLow = true ∧ (ran .alertResponse m).sent = [.mgmt [0xB0]] := by decide +kernel

theorem test_meets_register_write : srRegister Reg.stkSnapaddr = false ∧ srRegister (Reg.srSwd) = true ∧ up.mayPort house 0 = true ∧ up.mayPort ten4 0 = false ∧
    up.mayPort { ten4 with ten := 0 } 0 = true ∧ (ran (.registerWrite house Reg.rtNextsec 9) up).reg Reg.rtNextsec = 9 ∧
    (ran (.registerWrite { ten4 with ten := 0 } Reg.enPurse 9) up).reg Reg.enPurse = 9 := by decide +kernel
theorem test_meets_gate : let v := fset 0 F.enGateReq 1
    gateBlock 1 = true ∧ up.blockSr 1 = false ∧ up.leaseHeld 1 = false ∧ (ran (.enGateWrite house 1 v) up).gated 1 = true := by
  decide +kernel
theorem test_meets_gate_leased : let m : Mach := { up with sr := { leases := [(1, 9)] } }
    let t0 : Who := { ten4 with ten := 0 }
    m.leaseHeld 1 = true ∧ t0.house = true ∧ t0.sr = false ∧ (ran (.enGateWrite t0 1 (fset 0 F.enGateReq 1)) m).gated 1 = false ∧
    (ran (.enGateWrite t0 1 (fset 0 F.enGateReq 1)) m).sr.deferred = [(1, false, true)] := by decide +kernel
theorem test_meets_autogate : let m := ({ up with now := 4096 } : Mach).setFld Reg.enCtl F.enCtlAutogate 1
    2 ∈ blockPeers 1 ∧ m.blockSr 2 = m.blockSr 1 ∧ m.gated 2 = false ∧ m.gated 1 = false ∧ m.blockIdle 1 = true ∧
    m.idleFrom 1 + 4096 ≤ m.now ∧ m.leaseHeld 1 = false ∧ (ran (.autogateGate 1) m).gated 1 = true := by decide +kernel
/-- Every lane of the open world is gated by the planner and a job waits for one. -/
theorem test_meets_autoungate : let m := ([2, 3, 4, 5, 6, 7, 8, 1].foldl (fun x b => (x.setFld (Reg.enGate b) F.enGateAuto 1).setFld
      (Reg.enGate b) F.enGateGated 1) ({ up with jobs := [(7, { job7 with st := .waiting, wait := .laneFree 0 })] } : Mach))
    m.bit (Reg.enGate 1) F.enGateAuto = true ∧ m.wantsBlock 1 = true ∧ (ran (.autogateUngate 1) m).gated 1 = false := by decide +kernel
theorem test_meets_held_action : let m : Mach := { up with held := [1, 2] }
    m.held.contains 1 = true ∧ m.gated 1 = false ∧ (ran (.gatedActionRelease 1) m).held = [2] := by decide +kernel

theorem test_meets_tick : up.pins.vaux = true ∧ up.refs ≠ [] ∧ (ran .rtTick { up with rt := 2 ^ 64 - 2 }).rt = 2 ^ 64 - 1 ∧
    (ran .rtTick { up with rt := 2 ^ 64 - 2 }).bit Reg.rtStat F.rtStatEnd = true ∧
    (ran .rtTick { up with rt := 2 ^ 64 - 1 }).rt = 2 ^ 64 - 1 := by decide +kernel
theorem test_meets_refclk : up.refInUse = 0 ∧ (0 : Nat) ∈ up.refs ∧ (ran (.refclkLoss 0) up).refInUse = 1 ∧
    (ran (.refclkReturn 2) { up with refs := [] }).rtState = 1 ∧ (ran (.refclkReturn 2) { up with refs := [] }).refInUse = 2 := by
  decide +kernel
/-- PPS is on and its first interval has begun; `st` is RT_STAT.STATE. -/
def ppsMach (st : Nat) (p : Pps) : Mach :=
  ({ (up.setFld Reg.rtCtl F.rtCtlPpsen 1) with rt := 5, pps := p } : Mach).setFld Reg.rtStat F.rtStatState st
theorem test_meets_pps : (ppsMach 1 {}).ppsOn = true ∧ (ppsMach 1 {}).bit Reg.rtCtl F.rtCtlArm = false ∧
    (ran (.ppsEdge 0) (ppsMach 1 {})).pps.edge = some (phaseNs 5 0) := by decide +kernel
theorem test_meets_pps_load : let m := ((ppsMach 1 {}).setFld Reg.rtCtl F.rtCtlArm 1).setReg Reg.rtNextsec 7
    m.bit Reg.rtCtl F.rtCtlArm = true ∧ m.rt ≤ 7 * 2 ^ 24 := by decide +kernel
theorem test_meets_pps_badload : let m := (ppsMach 1 {}).setFld Reg.rtCtl F.rtCtlArm 1
    m.bit Reg.rtCtl F.rtCtlArm = true ∧ 0 < m.rt ∧ (ran (.ppsEdge 0) m).bit Reg.rtStat F.rtStatBadload = true := by decide +kernel
theorem test_meets_pps_miss : (ppsMach 3 { fresh := true, miss := 1 }).pps.edge = none ∧
    (ran .ppsIntervalEnd (ppsMach 3 { fresh := true, miss := 1 })).rtState = 4 ∧
    (ran .ppsIntervalEnd (ppsMach 2 { fresh := true, miss := 0 })).rtState = 2 := by decide +kernel
theorem test_meets_pps_lock : (ppsMach 2 { fresh := true, edge := some 100, run := 7 }).rtState = 2 ∧
    (ppsMach 4 { fresh := true, edge := some 5 }).rtState = 4 ∧ (100 : Int).natAbs ≤ 100 ∧
    (ppsMach 3 { fresh := true, edge := some 100001, outl := 2 }).rtState = 3 ∧ 100000 < (100001 : Int).natAbs ∧
    (ppsMach 3 { fresh := true, edge := some 100000 }).pps.fresh = true := by decide +kernel
theorem test_meets_rt_ctl : let v := fset 0 F.rtCtlPpsen 1
    let m := charter.setReg Reg.rtNextsec 7
    house.sr = true ∧ fget v F.rtCtlRefsel = m.refsel ∧ fbit v F.rtCtlPpsen = true ∧ m.rtState ≤ 1 ∧ m.phase = 1 ∧ m.rt ≤ 7 * 2 ^ 24 ∧
    (ran (.rtArm house v) m).bit Reg.rtCtl F.rtCtlArm = true ∧
    (ran (.rtForce house v) up).bit Reg.rtStat F.rtStatBadload = true ∧ 1 < (ppsMach 3 {}).rtState := by decide +kernel
theorem test_meets_refsel : let v := fset (fset 0 F.rtCtlPpsen 1) F.rtCtlRefsel 2
    fget v ⟨2, 0⟩ = 0 ∧ fget v F.rtCtlRefsel ≠ (ppsMach 3 {}).refsel ∧ fget v F.rtCtlRefsel ∈ (ppsMach 3 {}).refs ∧
    (ran (.rtRefselWrite house v) (ppsMach 3 {})).rtState = 3 ∧
    (let u := ran .rtTick (ran (.rtRefselWrite house v) (ppsMach 3 {})); u.rtState = 2 ∧ u.refInUse = 2) ∧
    (ran (.rtPpsenClear house 0) (ppsMach 3 {})).rtState = 4 := by decide +kernel

/-- A serving module: SOLO in epoch 1, gate 3 in use. -/
def solo : Mach := (up.setFld Reg.twnStat F.twnStatRole 2).setReg Reg.twnEpoch 1
def gateWord : Word := fset (fset (fset 0 F.gateKeyEn 1) F.gateKeyTenant 4) F.gateKeyGame 0x2A7
def bellWord (act rep : Nat) : Word :=
  fset (fset (fset (fset (fset 0 F.bellActArm 1) F.bellActOwner 4) F.bellActAction act) F.bellActTarget 3) F.bellActRepeat rep
theorem test_meets_bell_write : let m := (solo.setReg (Reg.gateKey 3) gateWord).setReg (Reg.bellTsec 1) 5
    m.bellCheck 1 (bellWord 1 0) = 0 ∧ m.ledgerBarred = false ∧ m.bit (Reg.bellAct 1) F.bellActArm = false ∧
    (ran (.bellActWrite house 1 (bellWord 1 0)) m).ledger.pend.length = 1 ∧ up.bellCheck 1 (bellWord 1 0) ≠ 0 ∧
    (ran (.bellTimeWrite house 1 false 9) m).reg (Reg.bellTsec 1) = 9 := by decide +kernel
theorem test_meets_bell_armed : let m := solo.setReg (Reg.bellAct 1) (bellWord 1 0)
    m.bit (Reg.bellAct 1) F.bellActArm = true ∧ m.ledgerBarred = false ∧
    (ran (.bellTimeWrite house 1 false 9) m).fld (Reg.bellStat 1) F.bellStatErr = 3 := by decide +kernel
theorem test_meets_gate_write : solo.ledgerBarred = false ∧ fbit (gateWord &&& 0x800F00000FFF) F.gateKeyEn = true ∧
    solo.usedGates = [] ∧ (ran (.gateKeyWrite house 3 gateWord) solo).ledger.pend = [.gate 3 gateWord] ∧ up.ledgerBarred = true ∧
    (ran (.gateKeyWrite house 3 gateWord) up).fld (Reg.gateStat 3) F.gateStatErr = 7 := by decide +kernel
def bellMach (act rep : Nat) : Mach := ({ solo with rt := 40960, openFolio := 10 } : Mach).setEbell 1 { time := 40000, act := bellWord act rep }
theorem test_meets_bell_fires : (bellMach 1 0).bellDue 1 = true ∧ folioOf 40960 = 10 ∧
    (∀ x ∈ (bellMach 1 0).ledger.bells, x.1 < 1 → (bellMach 1 0).bellDue x.1 = false) ∧
    (ran (.bellFire 1) (bellMach 1 0)).fld (Reg.gateStat 3) F.gateStatState = 2 ∧
    (ran (.bellFire 1) (bellMach 2 0)).fld (Reg.gateStat 3) F.gateStatState = 3 ∧
    (ran (.bellFire 1) (bellMach 3 0)).reg (Reg.intStat 67) = 1 := by decide +kernel
theorem test_bell_repeats : ((ran (.bellFire 1) (bellMach 3 1)).ebell 1).time = 44096 ∧
    fbit ((ran (.bellFire 1) (bellMach 1 0)).ebell 1).act F.bellActArm = false := by decide +kernel
theorem test_meets_boundary : let m : Mach := { solo with rt := 45056, openFolio := 10, ledger := { solo.ledger with
      pend := [.gate 3 gateWord] } }
    m.up = true ∧ m.openFolio < folioOf m.rt ∧ folioOf (bellMach 1 0).rt ≤ (bellMach 1 0).openFolio := by decide +kernel
theorem test_meets_calibration : let m := (up.setFld Reg.enStat F.enStatAge 16).setFld Reg.enStat F.enStatModel 1
    16 ≤ m.fld Reg.enStat F.enStatAge ∧ m.bit Reg.enStat F.enStatModel = true ∧ (ran .tallyCalibration m).reg (Reg.intStat 28) = 1 := by
  decide +kernel

/-! ### Meeting the hypotheses: ports, sessions, accession, seals -/

/-- Example 5.1: the record of item A. -/
theorem test_record_words : recordWords { stamp := 812345700 * 2 ^ 24 + 0x7FFFFD, valid := true, port := 0x1F, ses := 0x2B3, frm := 0
                                          pos := 0, ten := 4, cgen := 0, ord := 0, at_ := 0
                                          item := { id := 0x41000, game := 0x2A7, itype := 1, len := 20, body := [0, 0, 0, 0] }
                                          orig := false, gated := true, badFmt := false, seat := 0 } .accepted 0x9317C0E 9 [0, 0, 0, 0] =
    [0x1030A9C14000, 0, 0x9317C0E, 0x306B6964, 0x7FFFFD1F0000, 0x2B3400000900, 0, 0x41000, 0, 0, 0, 0] := by decide +kernel
/-- CRC-32C of the nine digits "123456789". -/
theorem test_crc32c : crc32c [0x31, 0x32, 0x33, 0x34, 0x35, 0x36, 0x37, 0x38, 0x39] = 0xE3069283 := by decide +kernel

/-- Port 5 up on a module in SOLO, its address 0x020000000005, tenants all allowed. -/
def portMach : Mach :=
  ((((solo.setFld (Reg.prtCtl 5) F.prtCtlEn 1).setFld (Reg.prtStat 5) F.prtStatLink 1).setReg (Reg.prtMac 5) 0x020000000005).setReg
    (Reg.prtTenmask 5) 0xFFFF).setFld (Reg.prtCtl 5) F.prtCtlPlain 1 |>.setReg (Reg.accBp 4) 0
def frameOf (et : Nat) (f : LcpFrame) : RxFrame := { octs := lcpOctets et f, fcsOk := true }
def lcpEt : Nat := portMach.fld (Reg.prtCtl 5) F.prtCtlEtype
def peer : Nat := 0x060000000009
theorem test_meets_link : let m := portMach.setFld (Reg.prtStat 5) F.prtStatLink 0
    m.up = true ∧ m.committed = true ∧ m.portEn 5 = true ∧ m.linkUp 5 = false ∧ m.pins.tripped = false ∧
    m.fld (Reg.prtCtl 5) F.prtCtlMode ≠ 2 ∧ (ran (.linkUp 5) m).linkUp 5 = true ∧ portMach.linkUp 5 = true ∧
    (ran (.linkLoss 5) portMach).linkUp 5 = false := by decide +kernel
theorem test_meets_link_config :
    let m := ((portMach.setFld (Reg.prtStat 5) F.prtStatLink 0).setFld (Reg.prtCtl 5) F.prtCtlMode 2).setFld (Reg.prtCtl 5) F.prtCtlFec 2
    m.linkUp 5 = false ∧ (ran (.linkUp 5) m).bit (Reg.prtStat 5) F.prtStatCfgerr = true := by decide +kernel
theorem test_meets_port_reset : portMach.mayPort { ten4 with ten := 0 } 5 = true ∧ portMach.mayPort ten4 5 = false ∧
    (ran (.portReset { ten4 with ten := 0 } 5 1) portMach).linkUp 5 = false := by decide +kernel
def raw (et : Nat) : RxFrame := { octs := octetsBE 6 0x020000000005 ++ octetsBE 6 peer ++ octetsBE 2 et ++ List.replicate 60 0, fcsOk := true }
theorem test_meets_plain : portMach.receives 5 = true ∧ portMach.classify 5 (raw 0x800) = .plain ∧ (portMach.plain 5).length < 64 ∧
    ((ran (.plainFrame 5 (raw 0x800)) portMach).plain 5).length = 1 ∧
    (portMach.setFld (Reg.prtCtl 5) F.prtCtlPtp 1).classify 5 (raw 0x88F7) = .ptp ∧ portMach.classify 5 (raw 0x8808) = .mac ∧
    portMach.classify 5 { raw 0x800 with fcsOk := false } = .drop := by decide +kernel
theorem test_meets_plain_full : let m : Mach := { portMach with plainq := [(5, List.replicate 64 { octs := [], stamp := none })] }
    64 ≤ (m.plain 5).length ∧ (ran (.plainFrame 5 (raw 0x800)) m).reg (Reg.prtPlaindrop 5) = 1 := by decide +kernel
theorem test_meets_raw_left : let m : Mach := { portMach with
      rawq := [(5, [{ octs := [1, 2], ctx := 7, posted := false }])]
      jobs := [(7, { job7 with st := .waiting, wait := .raw 5 true })] }
    m.queue 5 = [{ octs := [1, 2], ctx := 7, posted := false }] ∧ m.linkUp 5 = true ∧ (ran (.frameLeftPort 5 0) m).queue 5 = [] ∧
    ((ran (.frameLeftPort 5 0) m).job 7).map Job.st = some .ready := by decide +kernel

/-- A HELLO of tenant 4 from a new partner; entry 0 is the lowest FREE one. -/
def helloReq : LcpFrame := { dst := 0x020000000005, src := peer, typ := 1, epoch := 1, body := .helloReq 0x77 4 0 }
theorem test_meets_hello : portMach.classify 5 (frameOf lcpEt helloReq) = .lcp helloReq ∧ portMach.serving = true ∧
    portMach.twin.latch = false ∧ helloReq.epoch ≤ portMach.epoch ∧ portMach.portSr 5 = false ∧
    nbit (portMach.reg (Reg.prtTenmask 5)).toNat 4 = true ∧ (portMach.portSessions 5).length < 16 ∧
    portMach.sessOf 4 0x77 0 = none ∧ portMach.freeSes = some 0 ∧ nbit (portMach.setReg (Reg.prtTenmask 5) 0 |>.reg (Reg.prtTenmask 5)).toNat 4 = false := by
  decide +kernel
/-- Session 0 of tenant 4 with a connection on port 5. -/
def conn0 : Conn := { port := 5, peer := w48 peer, rxseq := 3, lim := 8 }
def sesMach (c : Conn) : Mach :=
  (portMach.setSess 0 { used := true, ten := 4, pid := 0x77, peer := w48 peer, port := 5 }).setLive 0 { conn := some c }
def onConn (typ seq : Nat) (body : LcpBody) : LcpFrame :=
  { dst := 0x020000000005, src := peer, typ := typ, epoch := 1, seq := seq, body := body }
def itemA : LcpItem := { id := 9, game := 0x2A7, itype := 1, len := 6, body := [1] }
theorem test_meets_data : let g := onConn 2 4 (.items [itemA])
    (sesMach conn0).classify 5 (frameOf lcpEt g) = .lcp g ∧ (sesMach conn0).connOf 5 g.session g.src = some 0 ∧
    g.seq = (conn0.rxseq + 1) % 2 ^ 32 ∧ (sesMach conn0).busy 0 [itemA] = none ∧ g.epoch = (sesMach conn0).epoch ∧
    (ran (.dataFrame 5 (frameOf lcpEt g)) (sesMach conn0)).merge.length = 1 := by decide +kernel
theorem test_meets_data_ahead : let g := onConn 2 6 (.items [itemA])
    (sesMach conn0).classify 5 (frameOf lcpEt g) = .lcp g ∧ seqLt conn0.rxseq g.seq = true ∧
    conn0.nakFolio ≠ some (folioOf (sesMach conn0).rt) := by decide +kernel
theorem test_meets_ack : let g := onConn 3 0 .none
    let h := onConn 7 0 .none
    let n := onConn 4 0 (.nak 4 0 1)
    let m := sesMach { conn0 with unacked := [{ dst := peer, src := 0, typ := 8, seq := 1, body := .items [] }], txseq := 1 }
    m.classify 5 (frameOf lcpEt g) = .lcp g ∧ m.classify 5 (frameOf lcpEt h) = .lcp h ∧ m.classify 5 (frameOf lcpEt n) = .lcp n ∧
    seqLt 1 g.cumack = false ∧ (m.live 0).outq = [] ∧ m.replies = [] ∧
    (ran (.nakFrame 5 (frameOf lcpEt n)) m).sent.length = 1 := by decide +kernel
theorem test_meets_bye_probe : let g := onConn 9 4 (.bye 1)
    let h := onConn 10 0 (.probe 5 0 0)
    (sesMach conn0).classify 5 (frameOf lcpEt g) = .lcp g ∧ (sesMach conn0).classify 5 (frameOf lcpEt h) = .lcp h ∧
    ((ran (.byeFrame 5 (frameOf lcpEt g)) (sesMach conn0)).live 0).conn = none := by decide +kernel
theorem test_meets_lcp_round_trip : frameFits helloReq = true ∧ frameFits (onConn 2 4 (.items [itemA])) = true ∧
    parseLcp (lcpOctets 0x88B5 helloReq) = .good helloReq := by decide +kernel

theorem test_meets_timers : let c : Conn := { conn0 with ackBy := some 0, unacked := [helloReq] }
    let m : Mach := { sesMach c with now := 2 ^ 30 }
    (m.live 0).conn = some c ∧ c.ackBy = some 0 ∧ c.unacked ≠ [] ∧ c.retx < 8 ∧ c.probed = false ∧
    c.progressAt + m.fld (Reg.prtCtl c.port) F.prtCtlRto * 4096 ≤ m.now ∧ c.rxAt + m.fld (Reg.prtCtl c.port) F.prtCtlIdle * 4096 ≤ m.now ∧
    (ran (.retransmitTimeout 0) m).sent.length = 1 ∧
    ((ran (.retransmitTimeout 0) ({ sesMach { c with retx := 8 } with now := 2 ^ 30 } : Mach)).live 0).conn = none := by decide +kernel
theorem test_meets_epoch_repeat : let m := (sesMach conn0).setLive 0 { epochEnd := 8 }
    (m.live 0).conn = none ∧ (m.sess 0).used = true ∧ m.serving = true ∧ m.linkUp (m.sess 0).port = true ∧
    ((ran (.epochFrameRepeat 0) m).live 0).epochFolio = some 0 := by decide +kernel
theorem test_meets_ses_ctl : let v := fset 0 F.sesCtlStorage 1
    ((sesMach conn0).sess 0).used = true ∧ ten4.openTen 4 = true ∧ (sesMach conn0).ledgerBarred = false ∧
    fbit v F.sesCtlKick = false ∧ fbit v F.sesCtlRetire = false ∧ fbit v F.sesCtlStorage ≠ (sesMach conn0).storageWritten 0 ∧
    (ran (.sesStorageWrite ten4 0 v) (sesMach conn0)).ledger.pend = [.storage 0 true] ∧ ({ ten4 with ten := 5 } : Who).openTen 4 = false ∧
    ((ran (.kick ten4 0 (fset 0 F.sesCtlKick 1)) (sesMach conn0)).live 0).conn = none ∧
    ((ran (.retire ten4 0 (fset 0 F.sesCtlRetire 1)) (sesMach conn0)).live 0).err = 1 := by decide +kernel
theorem test_meets_retire : let m := (sesMach conn0).setLive 0 {}
    let n := (sesMach conn0).setLive 0 { pending := [{ id := 1, folio := 0, old := false }] }
    (m.live 0).conn = none ∧ (m.live 0).pending = [] ∧ (ran (.retire ten4 0 (fset 0 F.sesCtlRetire 1)) m).ledger.pend = [.retire 0] ∧
    (n.live 0).pending ≠ [] ∧ ((ran (.retire ten4 0 (fset 0 F.sesCtlRetire 1)) n).live 0).err = 2 := by decide +kernel
theorem test_meets_ses_barred : let m := (sesMach conn0).setFld Reg.twnStat F.twnStatRole 3
    m.ledgerBarred = true ∧ ((ran (.sesStorageWrite ten4 0 0) m).live 0).err = 3 := by decide +kernel

/-- An item of session 0 that heads the merge. -/
def mergeA (i : LcpItem) : MergeItem :=
  { stamp := 0, valid := true, port := 5, ses := 0, frm := 0, pos := 0, ten := 4, cgen := 0, ord := 0, at_ := 0, item := i, orig := false
    gated := true, badFmt := false, seat := 0 }
def mergeMach (i : LcpItem) : Mach := { (sesMach conn0).setEff (Reg.accCtl 4) (fset 0 F.accCtlMaxbody 248) with merge := [mergeA i] }
theorem test_meets_merge : (mergeMach itemA).merge = [mergeA itemA] ∧ (mergeMach itemA).up = true ∧ folioOf 0 ≤ (mergeMach itemA).openFolio ∧
    bodyWords itemA ≤ (mergeMach itemA).maxBody 4 ∧ (mergeMach itemA).serving = true ∧ ((mergeMach itemA).sess 0).table = [] ∧
    max ((mergeMach itemA).live 0).r ((mergeMach itemA).sess 0).h < 9 ∧ ((mergeMach itemA).live 0).pending = [] := by decide +kernel
theorem test_meets_merge_duplicate : let m := (mergeMach itemA).setSess 0 { (mergeMach itemA).sess 0 with
      table := [{ id := 9, disp := .accepted, accn := 1, folio := 0 }], h := 9 }
    (m.sess 0).table.find? (fun y => y.id = 9) = some { id := 9, disp := .accepted, accn := 1, folio := 0 } ∧
    (ran .mergeEmit m).reg (Reg.accDuplicate 4) = 1 := by decide +kernel
theorem test_meets_merge_bad : bodyWords { itemA with itype := 3 } = 1 ∧
    (ran .mergeEmit (mergeMach { itemA with itype := 3 })).reg (Reg.accRefused 4) = 1 := by decide +kernel

theorem test_meets_acc_stopped : solo.bit (Reg.accCtl 4) F.accCtlEn = false ∧ solo.accEn 4 = false ∧ solo.reg (Reg.accUsed 4) = 0 ∧
    solo.ledgerBarred = false ∧ 0x100000 + 256 * 4096 ≤ memWords ∧ solo.ringOverlap 4 0x100000 256 = false ∧
    (solo.acc 4).issued = false ∧ solo.pair (Reg.accRelmarkHi 4) (Reg.accRelmarkLo 4) = 0 ∧ ten4.ofTen 4 = true ∧ ten4.ofTen 5 = false ∧
    (ran (.accRingWrite house 4 true 256) solo).reg (Reg.accDbsize 4) = 256 ∧
    (ran (.accNextWrite house 4 false 9) solo).reg (Reg.accNextLo 4) = 9 ∧
    (ran (.accQuotaWrite ten4 4 9) solo).ledger.pend.length = 1 := by decide +kernel
/-- A ring of 256 pages whose words 0 to 15 are a folio header: type 0xF, 16 words. -/
def ringMach : Mach :=
  ((((solo.setReg (Reg.accDbsize 4) 256).setReg (Reg.accDbbase 4) 0x100000).setReg (Reg.accUsed 4) 16).setReg (Reg.accRelptr 4) 16).setCont
    0x100000 { key := 0, tag := 0, chg := false, pay := w48 (0xF * 2 ^ 44 + 16 * 2 ^ 34) }

theorem test_meets_acc_tail : ringMach.ringWords 4 ≠ 0 ∧ 16 < ringMach.ringWords 4 ∧
    ((walkRing (fun o => ringMach.word (ringMach.ringAddr 4 o)) (ringMach.ringWords 4) 16 2 0).contains (16, 16)) = true ∧
    ¬ (2 ^ 20 : Nat) < ringMach.ringWords 4 := by decide +kernel
theorem test_acc_tail : (ran (.accTailWrite ten4 4 16) ringMach).reg (Reg.accTail 4) = 16 ∧
    (ran (.accTailWrite ten4 4 16) ringMach).reg (Reg.accUsed 4) = 0 ∧ (ran (.accTailWrite ten4 4 17) ringMach).reg (Reg.accErr 4) = 1 := by
  decide +kernel
theorem test_meets_acc_running : let m := solo.setFld (Reg.accCtl 4) F.accCtlEn 1
    m.bit (Reg.accCtl 4) F.accCtlEn = true ∧ (ran (.accRingWrite house 4 true 256) m).reg (Reg.accErr 4) = 2 := by decide +kernel
theorem test_meets_acc_ctl : let v := fset (fset 0 F.accCtlEn 1) F.accCtlMaxbody 248
    ringMach.ringWords 4 ≠ 0 ∧ ringMach.ringOverlap 4 (ringMach.ringAddr 4 0) 256 = false ∧ fget v F.accCtlMaxbody ≤ 248 ∧
    (ran (.accCtlWrite house 4 v) ringMach).fld (Reg.accCtl 4) F.accCtlMaxbody = 248 := by decide +kernel
theorem test_meets_acc_barred : up.ledgerBarred = true ∧ (ran (.accTailWrite ten4 4 0) up).reg (Reg.accErr 4) = 6 ∧
    (ran (.sealTailWrite house 0) up).reg Reg.sealErr = 5 := by decide +kernel

def rollMach : Mach := (solo.setBoth Reg.sealRsize 64).setBoth Reg.sealRbase 0x200000
def vol0 : RootVol := { volume := 77, mask := 0, roots := [], rtValid := true, closeRt := 0, forced := false, own := true }
theorem test_meets_seal_append : let m : Mach := { rollMach with sealing := { queue := [vol0], signDone := some 0 } }
    m.up = true ∧ m.sealing.queue = vol0 :: [] ∧ m.sealing.signDone = some 0 ∧ m.serving = true ∧ m.sealPaused = false ∧
    1600 ≤ m.rollWords - m.rollUsed := by decide +kernel
theorem test_meets_seal_tail : rollMach.rollWords ≠ 0 ∧ (ran (.sealTailWrite house 0) rollMach).reg Reg.sealErr = 0 ∧
    (ran (.sealTailWrite house 5) rollMach).reg Reg.sealErr = 1 ∧
    walkRing (fun o => rollMach.word (rollMach.rollAddr o)) rollMach.rollWords 0 1 0 = [(0, 16)] := by decide +kernel
theorem test_meets_seal_ctl : let v := fset 0 F.sealCtlEn 1
    rollMach.reg Reg.sealRsize ≠ 0 ∧ (ran (.sealCtlWrite house 0 v) rollMach).reg Reg.sealErr = 0 ∧
    (ran (.sealCtlWrite house 0 v) solo).reg Reg.sealErr = 4 ∧ rollMach.bit Reg.sealCtl F.sealCtlEn = false ∧
    fbit (rollMach.eff Reg.sealCtl) F.sealCtlEn = false ∧ rollMach.rollUsed = 0 ∧ rollMach.rollOverlap 0x200000 64 = false ∧
    (ran (.sealCtlWrite house 2 64) rollMach).reg Reg.sealErr = 0 ∧
    (ran (.sealCtlWrite house 2 64) (rollMach.setFld Reg.sealCtl F.sealCtlEn 1)).reg Reg.sealErr = 2 := by decide +kernel

/-- Tables of the open root: page 0 is code, page 1 data; seat 0 runs at the open supervisor of tenant 4. -/
def tables (m : Mach) : Mach :=
  ((m.setCont 0x10000 { key := 0, tag := 0, chg := false, pay := 0x800000000014 }).setCont 0x14000
    { key := 0, tag := 0, chg := false, pay := 0xA00000000000 }).setCont 0x14001 { key := 0, tag := 0, chg := false, pay := 0xC00000000001 }
def openMach (ds : List Word) : Mach :=
  let a := ((lvlArch 1 3 ds []).setCell 0 9 4).setReg 0 (fset (fset 0 F.coreXrootEn 1) F.coreXrootPage 16)
  let m := ((solo.setFld (Reg.cluSeat 0 0) F.cluSeatState 1).setCont 0x100 { key := 0, tag := 1, chg := false, pay := 0 }).setEff
    (Reg.accCtl 4) (fset (fset 0 F.accCtlEn 1) F.accCtlMaxbody 248)
  ((tables m).setReg (Reg.accBp 4) 0).setSeat 0 { arch := a }
theorem test_meets_accn : let m := openMach [0x1000]
    let f := fetched m 1
    let n := aft (f.closeGroup 0) (peekTop 0)
    let n1 := aft n (loadN 0 1 0x1000 4)
    can m 1 = true ∧ (m.arch 0).stackFault false 1 1 = none ∧ peekTop 0 (f.closeGroup 0) = .ok (0x1000, n) ∧
    loadN 0 1 0x1000 4 n = .ok ([0, 0, 0, 0], n1) ∧ fine n1 (storeOk 0 1 0x1004 .store) = true ∧ fine n1 (storeOk 0 1 0x1005 .store) = true ∧
    fine n1 (storeOk 0 1 0x1006 .store) = true ∧ n1.accnTurned 4 = none ∧ ((ran (.accn 0) m).seat 0).accn = some none ∧
    (ran (.accn 0) m).merge.length = 1 := by decide +kernel
theorem test_meets_accn_complete : let m := (openMach [0x1000]).setSeat 0 { (openMach [0x1000]).seat 0 with accn := some (some (0, .accepted, 7)) }
    let y := m.setSeat 0 { m.seat 0 with accn := none }
    let n := aft y (popN 0 1)
    m.up = true ∧ m.seatState 0 = 1 ∧ m.splitSeat 0 = false ∧ popN 0 1 y = .ok ([0x1000], n) ∧
    fine n (storeAt 0 1 0x1004 .store 0) = true ∧ fine n (storeAt 0 1 0x1005 .store 0) = true ∧
    fine n (storeAt 0 1 0x1006 .store 7) = true ∧ ((ran (.accnComplete 0) m).arch 0).ds = [0] ∧
    ((ran (.accnComplete 0) m).seen 0 0x1006).pay = 7 := by decide +kernel
/-- Carrel 3 of tenant 4 is READY with room for one job. -/
def carrel3 (m : Mach) : Mach :=
  ((m.setFld (Reg.carStat 3) F.carStatState 1).setFld (Reg.carStat 3) F.carStatTenant 4).setFld (Reg.carCtl 3) F.carCtlQuota 1
theorem test_meets_door_refused : let m := openMach [0x1000]
    let f := fetched m 1
    let n := aft f (popN 0 1)
    can m 1 = true ∧ popN 0 1 f = .ok ([0x1000], n) ∧ fine n (loadAt 0 1 0x1000) = true ∧ fine n (loadAt 0 1 0x1001) = true ∧
    fine n (storeOk 0 1 0x1002 .store) = true ∧ (n.door 4 0 false 0x1000 0 0).1 = 3 ∧ (leaves (.door 0) m).1 = [3] := by decide +kernel
theorem test_meets_door : let m := carrel3 (openMach [0x1000])
    let n := aft (fetched m 1) (popN 0 1)
    can m 1 = true ∧ n.carOf 4 0 false = some 3 ∧ n.carResetting 3 = false ∧ n.occ 3 < n.fld (Reg.carCtl 3) F.carCtlQuota ∧
    fine n (storeOk 0 1 0x1002 .store) = true ∧ (m.seat 0).group < 63 ∧ m.splitSeat 0 = false := by decide +kernel
/-- Example 10.1: a load of task level whose L2 entry has V = 0. -/
def faultMach : Mach :=
  let a := ((((lvlArch 0 1 [0x12345678] []).setCell 0 9 4).setReg 0 (fset (fset 0 F.coreXrootEn 1) F.coreXrootPage 16)).setCell 2 0xB 0x5000).setCell
    1 7 (fset 0 Psw.key 4)
  let m := [(0x401A2C, 4, 1, 0), (0x2000, 4, 0, 0), (0x10000, 0, 0, 0x800000000014), (0x10004, 0, 0, 0x800000000018),
    (0x14401, 0, 0, 0xB00000000401), (0x14002, 0, 0, 0xD00000000002)].foldr (fun e (x : Mach) => x.setCont e.1
      { key := BitVec.ofNat 4 e.2.1, tag := BitVec.ofNat 2 e.2.2.1, chg := false, pay := w48 e.2.2.2 }) (mach a)
  m.setSeat 0 { arch := { a with pc := 0x200D163 } }
theorem test_translation_fault : let t := ran (.ld 0) faultMach
    (t.arch 0).cell 2 0xD = 0x050100012345 ∧ (t.arch 0).cell 2 0xE = 0x200D163 ∧ (t.arch 0).wld = 1 ∧
    (t.arch 0).pc = 0x5028 * 8 := by decide +kernel

/-! ### Meeting the hypotheses: the twin -/

/-- A module with the twin link open, in a role (R138), at tick `now` of RT `rt`. -/
def twinMach (role now rt : Nat) (t : Twin) : Mach :=
  { up.setFld Reg.twnStat F.twnStatRole role with now := now, rt := rt, openFolio := rt / 4096, twin := { t with linkUp := true, authed := true } }
theorem test_meets_twin_link : up.up = true ∧ up.committed = true ∧ up.pins.tripped = false ∧ (ran .twinLinkUp up).twin.linkUp = true ∧
    (twinMach 3 0 0 {}).twin.linkUp = true ∧ (ran .twinLinkDown (twinMach 3 0 0 {})).twin.authed = false := by decide +kernel
/-- SR_TWINKEY and SEAL_PEERKEYID as the digests of a public key, which are open (log 2). -/
def namedMach (pk : List Octet) : Mach :=
  ((List.range 11).foldl (fun x i => x.setReg (Reg.srTwinkey i) ((hashWords (sha3_512 pk).toNat).getD i 0))
    ({ up with twin := { linkUp := true } } : Mach)).setReg Reg.sealPeerkeyid (first6 (sha3_256 pk))
theorem test_meets_twin_auth (pk proof : List Octet) (h : Config.twinProof pk proof = true) : Config.twinProof pk proof = true ∧ (namedMach pk).up = true ∧ (namedMach pk).twin.linkUp = true ∧
    (namedMach pk).twin.authed = false ∧ (namedMach pk).twinNamed pk = true := by
  refine ⟨h, rfl, rfl, rfl, ?_⟩
  have hl : (hashWords (sha3_512 pk).toNat).length = 11 := rfl
  have hp : (namedMach pk).paired = true := by
    have h : (namedMach pk).reg Reg.twnCtl = up.reg Reg.twnCtl := by
      simp [namedMach, List.range, List.range.loop, Reg.twnCtl, Reg.sealPeerkeyid, Reg.srTwinkey]
      rfl
    unfold Mach.paired Mach.bit
    rw [h]
    decide +kernel
  have hk : hashWords (sha3_512 pk).toNat = (namedMach pk).twinKey := by
    unfold Mach.twinKey namedMach
    simp only [List.range, List.range.loop, List.foldl, Mach.reg_setReg, List.map]
    rfl
  unfold Mach.twinNamed
  rw [hp, ← hk]
  simp [namedMach]
theorem test_meets_twin_stranger : let m := ({ up with twin := { linkUp := true } } : Mach).setFld Reg.twnCtl F.twnCtlPaired 0
    m.up = true ∧ m.twin.authed = false ∧ m.twinNamed [] = false := by decide +kernel
theorem test_meets_key_renew : (twinMach 3 0 0 { keyMsgs := 2 ^ 30 }).twinOpen = true ∧
    (ran .twinKeyRenew (twinMach 3 0 0 { keyMsgs := 2 ^ 30 })).twin.keyMsgs = 0 ∧
    (ran .twinKeyRenew (twinMach 3 0 0 { keyMsgs := 2 ^ 30 - 1 })).twin.keyMsgs = 2 ^ 30 - 1 := by decide +kernel
theorem test_meets_heartbeat_send : (twinMach 3 0 0 {}).aliveOut = true ∧ (twinMach 3 0 0 {}).twin.hbFolio ≠ some 0 ∧
    (ran .heartbeatSend (twinMach 3 0 0 {})).twin.hbFolio = some 0 := by decide +kernel
theorem test_meets_heartbeat : let h : Heartbeat := { role := 1, epoch := 9, folio := 1, health := 0, serial := 0, rt := 0 }
    hbValid h.role h.folio 0 = true ∧ (twinMach 3 0 0 {}).epoch < 9 ∧ (ran (.heartbeat (hdr 1) h) (twinMach 3 0 0 {})).pathA = true ∧
    (ran (.heartbeat (hdr 1) h) (twinMach 3 0 0 {})).role = 4 ∧ (ran (.heartbeat { hdr 1 with auth := false } h) (twinMach 3 0 0 {})).reg Reg.twnLinkerr = 1 := by
  decide +kernel
/-- The 17th message of a folio that fails authentication. -/
theorem test_meets_link_errors : let m := twinMach 3 0 0 { linkErrs := 16 }
    let x : TwinHead := { hdr 1 with auth := false }
    let h : Heartbeat := { role := 1, epoch := 9, folio := 1, health := 0, serial := 0, rt := 0 }
    m.twin.linkErrFolio = 0 ∧ x.auth = false ∧ (ran (.heartbeat x h) m).twin.linkUp = false ∧ twinCodes.contains 0x20 = false ∧
    (ran (.heartbeat (hdr 0x20) h) m).reg Reg.twnLinkerr = 1 ∧ hbValid 1 3 0 = false ∧
    (ran (.heartbeat (hdr 1) { h with folio := 3 }) m).twin = m.twin := by decide +kernel
theorem test_meets_pulse_send : let m := twinMach 3 0 1024 {}
    m.aliveOut = true ∧ 1008 ≤ m.rt % 4096 ∧ m.rt % 4096 ≤ 1040 ∧ (ran .pulseFrameSend m).twin.pulseFolio = some 0 := by decide +kernel
/-- R134's CRC-8 of "123456789" is 0xF4; a pulse frame spelt and read again. -/
theorem test_meets_pulse : crc8 [0x31, 0x32, 0x33, 0x34, 0x35, 0x36, 0x37, 0x38, 0x39] = 0xF4 ∧
    (pulseRead (pulseBits 1 9 65535 0x20)).map (fun y => (y.role, y.epoch, y.folio, y.health)) = some (1, 9, 65535, 0x20) ∧
    (ran (.pulseFrame (BitVec.ofNat 72 (pulseBits 1 0 65535 0))) (twinMach 3 0 0 {})).pathB = true ∧
    (ran (.pulseFrame 0) (twinMach 3 0 0 {})).reg Reg.twnPulseerr = 1 := by decide +kernel
theorem test_meets_silence : let m := (twinMach 3 8192 0 {}).setFld Reg.twnStat F.twnStatPatha 1
    m.up = true ∧ m.pins.sba = true ∧ m.twin.lastA + 8192 ≤ m.now ∧ m.twin.lastB + 8192 ≤ m.now ∧ m.twin.loopFailed = false ∧
    (ran (.heartbeatTimeout false) m).pathA = false ∧ (ran .loopbackFail m).aliveOut = false := by decide +kernel

def ship0 : Ship := { folio := 7, state := {}, mask := 0, parts := [], lines := [], rtValid := true }
theorem test_meets_shipment : let m := (twinMach 1 0 40960 { shipping := true, ships := [ship0] })
    m.twinOpen = true ∧ m.seats = [] ∧ m.serving = true ∧ m.twin.ships.find? (fun y => y.doneAt.isNone) = some ship0 ∧
    (ran .folioShipment m).sent.length = 3 := by decide +kernel
/-- A budget of one line: the first of two lines goes in this folio, its end and the second in the next. -/
theorem test_meets_shipment_late : let x : Twin := { shipping := true, ships := [{ ship0 with lines := [5, 6] }] }
    let m := (twinMach 1 0 40960 x).setReg Reg.twnMirbudget 1
    m.lineRoom = 1 ∧ m.serving = true ∧ (ran .folioShipment m).sent.length = 3 ∧
    (ran .folioShipment m).twin.ships.map Ship.left = [some [6]] ∧ (ran .folioShipment m).lineRoom = 0 := by decide +kernel
def hold0 : HoldShip := { folio := 7, epoch := 0, mask := 0, recs := [], state := some {} }
def end0 : FolioEndMsg := { folio := 7, counts := [], roots := [], enabled := 0, rtValid := true }
theorem test_meets_hold : let m := twinMach 3 0 40960 { hold := some hold0 }
    m.role = 3 ∧ m.twin.hold = some hold0 ∧ hold0.epoch = m.epoch ∧ hold0.state = some {} ∧ shipmentGood hold0 end0 = true ∧ m.ackf < 7 ∧
    shipmentGood hold0 { end0 with enabled := 1 } = false := by decide +kernel
theorem test_meets_records : let m := (twinMach 3 0 0 { hold := some hold0 }).setReg (Reg.accDbsize 4) 256
    4093 + [1, 2, 3].length ≤ m.ringWords 4 ∧ (∀ i < 3, m.srAddr (m.ringAddr 4 4093 + i) = false) ∧
    (ran (.recordsMsg (hdr 3, 4) 4093 [1, 2, 3]) m).word 4095 = 3 := by decide +kernel
/-- A seal of the next number whose TYPE is none fails its checks; one that passes rests on the signature, which is open. -/
theorem test_meets_seal_fails : let m := twinMach 3 0 0 {}
    m.sealGood m.twin.pk [0, 0, 0, 0, 0, 1] = false ∧ (m.reg Reg.sealLastno).toNat < ([0, 0, 0, 0, 0, 1].getD 5 0 : Word).toNat ∧
    (ran (.seals (hdr 9, [[0, 0, 0, 0, 0, 1]])) m).reg Reg.sealVerfail = 1 := by decide +kernel
theorem test_meets_seal_good (h : ∀ k m s, Config.mldsaVerify k m "PFL4800-SEAL" s = true) :
    let m : Mach := { twinMach 3 0 0 {} with sealing := { queue := [{ vol0 with volume := 7 }] } }
    m.holding = true ∧ m.sealGood m.twin.pk (w48 (5 * 2 ^ 44 + 800 * 2 ^ 34) :: 7 :: 0 :: 0 :: 0 :: 1 :: List.replicate 11 0 ++
      hashWords (volumeRoot 7 0 []) ++ List.replicate 772 0) = true := by
  refine ⟨by decide +kernel, ?_⟩
  unfold Mach.sealGood
  simp only [h, Bool.and_true]
  decide +kernel
theorem test_meets_hold_next : let m := twinMach 3 0 40960 { hold := some hold0, fails := [(6, 1)] }
    let n := (twinMach 4 0 40960 { hold := some hold0, fails := [(7, 2)] }).setPhase 3
    m.holding = true ∧ m.twin.hold = some hold0 ∧ (ran (.folioBegin (hdr 2, 8) 0 0) m).sent.length = 1 ∧
    (ran (.folioEnd (hdr 6) end0) m).ackf = m.ackf ∧ (ran (.folioEnd (hdr 6) end0) m).sent.length = 1 ∧
    n.holding = true ∧ n.role = 4 ∧ tabGet (fun _ => 0) n.twin.fails 7 = 2 ∧ shipmentGood hold0 { end0 with enabled := 1 } = false ∧
    (∀ y ∈ n.twin.fails, hold0.folio ≤ y.1) ∧ (ran (.folioEnd (hdr 6) { end0 with enabled := 1 }) n).syncPhase = 0 := by decide +kernel
theorem test_meets_lines : let m := twinMach 3 0 0 {}
    (64 : Nat) % 64 = 0 ∧ (List.replicate 64 ({ key := 1, tag := 0, chg := true, pay := 5 } : Cont)).length = 64 ∧ m.srAddr 64 = false ∧
    ((ran (.linesMsg (hdr 5, 64) (List.replicate 64 { key := 1, tag := 0, chg := true, pay := 5 })) m).cont 127).pay = 5 := by decide +kernel
theorem test_meets_ack_folio : let m := twinMach 1 5 40960 { shipping := true, ships := [{ ship0 with doneAt := some 1 }] }
    m.serving = true ∧ m.ackf < 7 ∧ m.twin.ships.any (fun y => y.folio = 7 && y.doneAt.isSome) = true ∧
    (ran (.folioAck (hdr 7, 7) 0) m).ackf = 7 ∧ (ran (.folioAck (hdr 7, 7) 0) m).twin.leaseEnd = 32773 := by decide +kernel
theorem test_meets_ack_pending : let m := twinMach 2 5 40960 { pending := some 4, ships := [{ ship0 with doneAt := some 1 }] }
    m.serving = true ∧ m.twin.pending.isSome = true ∧ (ran (.folioAck (hdr 7, 7) 0) m).twin.leaseEnd = 32773 := by decide +kernel
theorem test_meets_redo : let m := twinMach 1 5 40960 { shipping := true, ships := [{ ship0 with doneAt := some 1 }] }
    m.role ≠ 2 ∧ (ran (.folioRedo (hdr 8, 7) 1) m).twin.ships.map Ship.doneAt = [none] := by decide +kernel

theorem test_meets_solo : let m := (twinMach 1 16385 0 { ships := [{ ship0 with doneAt := some 1 }] }).setFld Reg.twnStat F.twnStatAlivein 1
    m.role = 1 ∧ m.twin.latch = false ∧ m.epochLeft = true ∧ m.aliveIn = true ∧ 1 + 16384 ≤ m.now ∧
    (ran .ackTimeoutSolo m).role = 2 ∧ (ran .ackTimeoutSolo m).twin.pending = some 1 := by decide +kernel
/-- The link is lost and the shipment of a folio never began. -/
theorem test_meets_solo_unsent : let m : Mach := { twinMach 1 16384 0 {} with twin := { ships := [ship0] } }
    m.role = 1 ∧ m.twinOpen = false ∧ ship0.doneAt = none ∧ ship0.at_ + 16384 ≤ m.now ∧ (ran .ackTimeoutSolo m).role = 2 := by
  decide +kernel
theorem test_meets_pending_ends : let m := twinMach 2 24576 0 { pending := some 4, leaseEnd := 24576 }
    m.role = 2 ∧ m.twin.pending.isSome = true ∧ m.twin.leaseEnd ≤ m.now ∧ m.bothLost = true ∧ 24576 ≤ m.lostTicks ∧
    (ran .leaseExpiry m).role = 5 ∧ (ran .lostFence m).role = 5 := by decide +kernel
theorem test_meets_solo_alone : let m := twinMach 1 16385 0 { ships := [{ ship0 with doneAt := some 1 }] }
    m.aliveIn = false ∧ m.epochLeft = true ∧ m.twin.latch = false := by decide +kernel
theorem test_meets_lease_expiry : let m := (twinMach 1 9 0 { leaseEnd := 9 }).setFld Reg.twnStat F.twnStatLease 1
    m.role = 1 ∧ m.lease = true ∧ m.twin.leaseEnd ≤ m.now ∧ (ran .leaseExpiry m).role = 5 := by decide +kernel
theorem test_meets_takeover : let m := twinMach 3 16384 0 {}
    m.bothLost = true ∧ 16384 ≤ m.lostTicks ∧ m.epochLeft = true ∧ m.sealing.queue.length + (m.openFolio - m.ackf) / 16 + 3 < 1024 ∧
    (twinMach 1 16384 0 {}).aliveIn = false ∧ (twinMach 1 16384 0 {}).bothLost = true := by decide +kernel
theorem test_meets_takeover_last_epoch : let m := (twinMach 3 16384 0 {}).setReg Reg.twnEpoch 0xFFFFFF
    m.bothLost = true ∧ m.epochLeft = false ∧ (ran .takeoverPromotion m).role = 5 := by decide +kernel
theorem test_meets_lost_fence : let m := twinMach 1 24576 0 {}
    m.bothLost = true ∧ 24576 ≤ m.lostTicks ∧ (ran .lostFence m).role = 5 := by decide +kernel
theorem test_meets_to_active : let m := twinMach 2 0 0 { toActive := true }
    m.role = 2 ∧ m.up = true ∧ (ran .soloToActive m).role = 1 := by decide +kernel
theorem test_meets_fence : let v := fset 0 F.twnCtlFence 1
    fbit v F.twnCtlHandreq = false ∧ fbit v F.twnCtlInit = false ∧ (ran (.twnFence house v) (twinMach 1 0 0 {})).role = 5 ∧
    (ran (.twnInit house (fset 0 F.twnCtlInit 1)) charter).bit Reg.twnCtl F.twnCtlInit = true := by decide +kernel
theorem test_meets_init_refused : let m := (charter.setFld Reg.twnStat F.twnStatAlivein 1).setFld Reg.twnStat F.twnStatPeerrole 1
    m.phase = 1 ∧ m.aliveIn = true ∧ m.fld Reg.twnStat F.twnStatPeerrole ∈ [1, 2] ∧
    (ran (.twnInit house (fset 0 F.twnCtlInit 1)) m).bit Reg.twnAlarm F.twnAlarmSyncfail = true := by decide +kernel

theorem test_meets_handreq : let m := (twinMach 1 0 40960 {}).setFld Reg.twnStat F.twnStatPeerrole 3
    m.twinOpen = true ∧ m.role = 1 ∧ m.fld Reg.twnStat F.twnStatHandover = 0 ∧ m.epoch < 0xFFFFFF ∧
    (ran (.handreq house (fset 0 F.twnCtlHandreq 1)) m).twin.hoVolume = some 3 ∧ (ran (.handoverReq (hdr 0xA, 9)) m).twin.hoVolume = some 9 := by
  decide +kernel
theorem test_meets_handover_ack : let m := twinMach 3 0 40960 {}
    m.role = 3 ∧ m.fld Reg.twnStat F.twnStatHandover = 0 ∧ (ran (.handoverAck (hdr 0xB, 9)) m).twin.hoVolume = some 9 := by decide +kernel
/-- A STANDBY healthy for its holdoff: locked RT, both paths, a spare unit in every cluster. -/
def healthyMach : Mach :=
  let m := ((((((twinMach 3 0 40960 { healthyAt := some 0 }).setFld Reg.twnStat F.twnStatPref 1).setFld Reg.twnStat F.twnStatPatha 1).setFld
    Reg.twnStat F.twnStatPathb 1).setFld Reg.rtStat F.rtStatState 3).setReg Reg.twnHoldoff 0).setReg Reg.twnAckfLo 9
  [0, 1, 2, 3].foldl (fun x c => x.setFld (Reg.cluUnit c 8) F.cluUnitState 1) m
theorem test_meets_handover_start : healthyMach.healthy = true ∧ healthyMach.bit Reg.twnStat F.twnStatPref = true ∧
    (healthyMach.reg Reg.twnHoldoff).toNat % 65536 ≤ healthyMach.healthySecs ∧ healthyMach.bit Reg.twnCtl F.twnCtlHold = false ∧
    (ran .handoverStart healthyMach).sent.length = 1 := by decide +kernel
def hoMach (role st rt ackf : Nat) (t : Twin) : Mach :=
  ((twinMach role 0 rt { t with hoVolume := some 3 }).setFld Reg.twnStat F.twnStatHandover st).setReg Reg.twnAckfLo (w48 ackf)
theorem test_meets_handover_done : (hoMach 3 1 0 5 {}).fld Reg.twnStat F.twnStatHandover = 1 ∧ (hoMach 3 1 0 5 {}).ackf + 1 < 48 ∧
    (ran (.handoverDone (hdr 0xC, 47) 0) (hoMach 3 1 0 5 {})).twin.hoDone = true ∧ 48 ≤ (hoMach 3 1 0 47 {}).ackf + 1 ∧
    (hoMach 3 1 0 47 {}).epoch < 0xFFFFFF := by decide +kernel
theorem test_meets_taken : let m := hoMach 1 2 0 5 { latch := true }
    m.role = 1 ∧ m.twin.hoVolume = some 3 ∧ m.twin.latch = true ∧ m.fld Reg.twnStat F.twnStatHandover = 2 ∧ (ran (.taken (hdr 0xD, 4)) m).role = 3 ∧
    (ran (.taken (hdr 0xD, 4)) m).ackf = 47 ∧ (ran (.abortMsg (hdr 0xE, 3)) m).twin.latch = false := by decide +kernel
theorem test_meets_quiesce : let m := hoMach 1 1 (48 * 4096) 5 {}
    m.up = true ∧ 16 * 3 ≤ folioOf m.rt ∧ 16 * 3 ≤ m.openFolio + 1 ∧ (ran .handoverQuiesce m).twin.latch = true := by decide +kernel
theorem test_meets_handover_timeout : let m := hoMach 3 1 (48 * 4096 + 16384) 5 {}
    m.twin.hoDone = false ∧ 16 * 3 * 4096 + 16384 ≤ m.rt ∧ (ran .handoverAbortTimeout m).twin.hoVolume = none := by decide +kernel
def syncMach (ph : Nat) (t : Twin) : Mach := (twinMach 4 0 0 t).setPhase ph
theorem test_meets_sync_req : (twinMach 2 0 0 {}).serving = true ∧ (ran .syncReq (twinMach 2 0 0 {})).twin.syncReq = true := by decide +kernel
theorem test_meets_sync_mark : (syncMach 1 {}).role = 4 ∧ 1 ≤ (syncMach 1 {}).syncPhase ∧ (ran (.syncMark (hdr 0x11, 9) 4 0) (syncMach 1 {})).epoch = 4 ∧
    (ran (.syncMark (hdr 0x11, 9) 4 0) (syncMach 1 {})).syncPhase = 2 := by decide +kernel
theorem test_meets_sync_bulk : let m := syncMach 2 { syncFolio := 9 }
    m.syncPhase = 2 ∧ m.twin.syncFolio < 2 ^ 52 ∧ (ran (.syncBulk (hdr 0x10, .roll 1 2 3 4) 5) m).reg Reg.sealLastv = 2 ∧
    (ran (.syncBulk (hdr 0x10, .words 64 []) 0) m).syncPhase = 3 := by decide +kernel
theorem test_meets_sync_complete : (syncMach 4 { syncBounds := 65 }).syncPhase = 4 ∧ (syncMach 4 { syncBounds := 65 }).up = true ∧
    (ran .syncComplete (syncMach 4 { syncBounds := 65 })).role = 3 ∧
    (ran .syncComplete (syncMach 4 { syncBounds := 65, barred := true })).role = 4 := by decide +kernel
theorem test_meets_sync_check : let m := (syncMach 1 { peerValid := true }).setFld Reg.rtStat F.rtStatState 3
    m.syncPhase = 1 ∧ m.twinOpen = true ∧ m.rtValid = true ∧ sgn 32 (m.reg Reg.twnSkew).toNat = 0 ∧
    (ran (.syncCheckPass m.syncConfig) m).syncPhase = 2 ∧ (ran (.syncCheckPass []) m).syncPhase = 0 := by decide +kernel
theorem test_meets_mirror : let v := fset (fset 0 F.twnMirpagePage 0x300) F.twnMirpageSet 1
    solo.ledgerBarred = false ∧ solo.mirOverlap 0x300 = false ∧ solo.mirrorWritten.length < 262144 ∧
    (ran (.twnMirpageWrite house v) solo).ledger.pend = [.mirPage 0x300 true] ∧
    (rollMach.mirOverlap 0x200) = true ∧ (ran (.twnMirpageWrite house (fset (fset 0 F.twnMirpagePage 0x200) F.twnMirpageSet 1)) rollMach).fld
      Reg.twnMirstat F.twnMirstatErr = 2 := by decide +kernel
/-! ### Meeting the hypotheses: slips, engines, carrels, lanes -/

/-- The job of context 7 of carrel 3 runs on engine 0, its slips `l` at word 0x1000, `d` at word 0x1100 of its carrel's data. -/
def job8 : Job := { job7 with slip := 0x1000, blk := 0x1200 }
def putAll (a : Nat) : List Word → Mach → Mach
  | [], m => m
  | w :: l, m => (putAll (a + 1) l m).setCont a { key := 0, tag := 0, chg := false, pay := w }
def slipMach (j : Job) (l d : List Word) : Mach :=
  let m := putAll 0x1000 l (putAll 0x1100 d (tables (carrel3 solo)))
  (({ m.setReg (Reg.carCtx 3) (fset 0 F.carCtxPage 16) with jobs := [(7, j)], order := 1 } : Mach).setEngine 0 { job := some 7 }).setReg
    (Reg.tenCtl 4) (fset 0 F.tenCtlEn 1)
/-- `Steady` and `AtSlip` for that job, as checks. -/
def steady (m : Mach) : Bool :=
  decide ((∀ y ∈ m.seats, y.2.evb = []) ∧ m.mirLate = false ∧ m.memst.training = none ∧ m.memst.writeQ.length ≤ 2048)
theorem steady_of {m : Mach} (h : steady m = true) : Steady m := by
  simp only [steady, decide_eq_true_eq] at h
  exact ⟨h.1, h.2.1, h.2.2⟩
def atB (m : Mach) (j : Job) (op : Nat) (l : List Word) : Bool :=
  steady m && decide (m.up = true ∧ (m.engine 0).job = some 7 ∧ m.engineOf 7 = some 0 ∧ m.job 7 = some j ∧ j.st = .running ∧ m.stale j = false ∧
    (j.ten < 16 ∧ j.carrel < 4096) ∧ m.slipWords j l.length = .ok l ∧ (j.woken = false ∧ j.found = none)) &&
    (match m.carRead j.carrel j.sr j.slip with
     | .ok w => slipOp w = op
     | .error _ => false)
def wordAt (m : Mach) (j : Job) : Word := (m.carRead j.carrel j.sr j.slip).toOption.getD 0
theorem atSlip_of {m : Mach} {j : Job} {op : Nat} {l : List Word} (h : atB m j op l = true) : AtSlip m 0 7 j (wordAt m j) op l := by
  unfold atB at h
  simp only [Bool.and_eq_true, decide_eq_true_eq] at h
  obtain ⟨⟨hs, h1, h2, h3, h4, h5, h6, h7, h8, h9⟩, h10⟩ := h
  split at h10
  · rename_i w hw
    have hv : wordAt m j = w := by simp [wordAt, hw, Except.toOption]
    exact ⟨h1, h2, h3, h4, h5, h6, h7, by rw [hv]; exact hw, by rw [hv]; simpa using h10, h8, h9, steady_of hs⟩
  · cases h10
/-- A slip word, and what the job looks like after one command on engine 0. -/
def slip (op flags operand : Nat) : Word := w48 (op * 2 ^ 40 + flags * 2 ^ 32 + operand)
def one (op flags operand : Nat) (l : List Word := []) (d : List Word := []) : Mach := slipMach job8 (slip op flags operand :: l) d
def jobAfter (c : Instr) (m : Mach) : Option (Nat × Bool × JobState × Wait) :=
  ((ran c m).job 7).map fun j => (j.slip, j.cc, j.st, j.wait)

theorem test_meets_slip_control : atB (one 0 0 0) job8 0 [] = true ∧ atB (one 0 1 0) job8 0 [] = true ∧
    atB (one 0xC 0 0x10000 [0x1100, 0xFF, 5] [5]) job8 0xC [0x1100, 0xFF, 5] = true ∧ atB (one 0xD 0 4) job8 0xD [] = true ∧
    atB (one 0xE 0x10 4) job8 0xE [] = true ∧ atB (one 0x13 0 9) job8 0x13 [] = true ∧ atB (one 0x14 0 0) job8 0x14 [] = true := by
  decide +kernel
theorem test_slip_control : jobAfter (.slipNop 0) (one 0 0 0) = some (0x1001, false, .running, .none) ∧
    jobAfter (.jump 0) (one 0xD 0 0xFFFFFFFF) = some (0xFFF, false, .running, .none) ∧
    jobAfter (.jumpif 0) (one 0xE 0x10 4) = some (0x1004, false, .running, .none) ∧
    jobAfter (.slipTest 0) (one 0xC 0 0 [0x1100, 0xFF, 5] [5]) = some (0x1004, true, .running, .none) := by decide +kernel
theorem test_meets_slip_ends : let m := one 0 0 0
    let old := m.setReg (Reg.carGen 3) 1
    let far := slipMach { job8 with slip := 0x9000 } [] []
    (m.up = true ∧ job8.st = .running ∧ old.stale job8 = true ∧ (ran (.slipNop 0) old).job 7 = none) ∧
    far.carRead 3 false 0x9000 = .error (5, 0) ∧ far.stale { job8 with slip := 0x9000 } = false := by decide +kernel

theorem test_meets_slip_data : let m := one 1 0 0 [0x1100, 1, 0x1110, 1] [0x77]
    atB m job8 1 [0x1100, 1, 0x1110, 1] = true ∧ slipExtent true 0x1100 1 = .ok (0, 0x1100, 1) ∧ m.carRead 3 false 0x1100 = .ok 0x77 ∧
    m.carPhys 3 false 0x1110 true = .ok 0x1110 ∧ m.srAddr 0x1110 = false ∧ m.bit (Reg.tenMplctl 4) F.tenMplctlEn = false ∧
    (ran (.slipMove 0) m).cont 0x1110 = { key := 0, tag := 0, chg := false, pay := 0x77 } := by decide +kernel
theorem test_meets_slip_data_frame : NoCopies (one 1 0 0 [0x1100, 1, 0x1110, 1] [0x77]) := by
  intro y hy
  have : (one 1 0 0 [0x1100, 1, 0x1110, 1] [0x77]).seats = [] := by decide +kernel
  rw [this] at hy
  cases hy
theorem test_meets_slip_many : let m := one 1 0 0 [0x1100, 3, 0x1101, 3] [1, 2, 3]
    let r := moveLoop none job8 (0, 0x1100) (0, 0x1101) false 3 3 [] m
    atB m job8 1 [0x1100, 3, 0x1101, 3] = true ∧ r.1 = 3 ∧ r.2.1 = none ∧ r.2.2.2.job 7 = some job8 ∧
    (r.2.2.2.engine 0).job = some 7 ∧ ((ran (.slipMove 0) m).cont 0x1103).pay = 3 ∧
    atB (one 1 0 0 [0x1100, 3, 0x1101, 2]) job8 1 [0x1100, 3, 0x1101, 2] = true := by decide +kernel
theorem test_meets_slip_fill : let m := one 2 0 0 [0x77, 0x1100, 2]
    let r := fillLoop job8 0x77 0 0x1100 2 2 [] m
    atB m job8 2 [0x77, 0x1100, 2] = true ∧ slipExtent true 0x1100 2 = .ok (0, 0x1100, 2) ∧ r.1 = 2 ∧ r.2.1 = none ∧
    r.2.2.2.job 7 = some job8 ∧ (r.2.2.2.engine 0).job = some 7 ∧ atB (one 2 0 0 [0x77, 0x1100, 1]) job8 2 [0x77, 0x1100, 1] = true := by
  decide +kernel
theorem test_meets_slip_post : atB (one 0xF 0 0 [0x1100, 0x77]) job8 0xF [0x1100, 0x77] = true ∧
    (let m := one 0xF 32 0 [0x1100]
     let r := postLoop job8 0 [0, 0] 0x1100 [] m
     atB m job8 0xF [0x1100] = true ∧ slipFlags (wordAt m job8) = 32 ∧ m.carReadN 3 false 0x1202 2 = .ok [0, 0] ∧ r.1 = 2 ∧
     r.2.1 = none ∧ r.2.2.2.job 7 = some job8 ∧ (r.2.2.2.engine 0).job = some 7) := by decide +kernel
theorem test_meets_slip_step : let m := one 0xC 0 0x1FFFF [0x1100, 0xFF, 5] [5]
    atB m job8 0xC [0x1100, 0xFF, 5] = true ∧ slipOperand (wordAt m job8) % 65536 ≠ 0 ∧
    ((ran (.slipTest 0) m).cont 0x1100).pay = 4 := by decide +kernel
/-- Example 9.1: the lock tag of context 0x0A51 of carrel 0x2C4 in its generation 0x0013. -/
theorem test_lock_tag : ({ job7 with ctx := 0x0A51, carrel := 0x2C4, gen := 0x0013 } : Job).lockTag = 0x94A258800260 := by decide +kernel
theorem test_meets_locks : let free := one 0x10 0 7 [0x1100]
    let held := one 0x10 0 7 [0x1100] [9]
    let own := one 0x11 0 0 [0x1100] [job8.lockTag]
    let other := one 0x11 0 0 [0x1100] [9]
    let skip := one 0x11 0x80 0 [0x1100] [9]
    atB free job8 0x10 [0x1100] = true ∧ atB held job8 0x10 [0x1100] = true ∧ atB own job8 0x11 [0x1100] = true ∧
    atB other job8 0x11 [0x1100] = true ∧ atB skip job8 0x11 [0x1100] = true ∧ slipFlags (wordAt skip job8) = 0 ∧
    ((ran (.lock 0) free).cont 0x1100).pay = job8.lockTag ∧ jobAfter (.lock 0) held = some (0x1000, false, .waiting, .lock 0x1100) ∧
    ((ran (.unlock 0) own).cont 0x1100).pay = 0 ∧ jobAfter (.unlock 0) skip = some (0x1002, false, .running, .none) := by decide +kernel
theorem test_meets_lock_retry : let j := { job8 with st := .waiting, wait := .lock 0x1100 }
    let m := (slipMach j [] []).setEngine 0 {}
    steady m = true ∧ j.st = .waiting ∧ m.up = true ∧ m.job 7 = some j ∧ m.carRead 3 false 0x1100 = .ok 0 ∧ m.stale j = false ∧
    ((ran (.lockRetry 7) m).job 7).map Job.st = some .ready := by decide +kernel
theorem test_meets_wait_bell : let armed := (one 9 0 1).setEbell 1 { time := 0, act := bellWord 1 0 }
    let off := (one 9 0 1).setEbell 1 { time := 0, act := fset (bellWord 1 0) F.bellActArm 0 }
    atB armed job8 9 [] = true ∧ atB (one 9 0 1) job8 9 [] = true ∧ atB off job8 9 [] = true ∧ fget (armed.ebell 1).act F.bellActOwner = 4 ∧
    fbit (armed.ebell 1).act F.bellActArm = true ∧ fget ((one 9 0 1).ebell 1).act F.bellActOwner ≠ 4 ∧
    fget (off.ebell 1).act F.bellActOwner = 4 ∧ fbit (off.ebell 1).act F.bellActArm = false ∧
    jobAfter (.waitbell 0) armed = some (0x1000, false, .waiting, .bell 1) := by decide +kernel
theorem test_meets_wait_folio : atB (one 0xA 0 3) job8 0xA [] = true ∧ atB (one 0xA 16 0 [0, 9]) job8 0xA [0, 9] = true ∧
    jobAfter (.waitfolio 0) (one 0xA 0 3) = some (0x1000, false, .waiting, .folioN ((one 0xA 0 3).openFolio + 3)) ∧
    (one 0xA 16 0 [0, 9]).waitHolds { job8 with wait := .folio 1 9 } = false := by decide +kernel
theorem test_meets_wait_rt : let rel := one 0xB 32 5
    let abs := one 0xB 0 0 [0, 0]
    atB rel job8 0xB [] = true ∧ atB abs job8 0xB [0, 0] = true ∧ rel.waitHolds { job8 with wait := .rt (rel.rt + 5) } = false ∧
    abs.waitHolds { job8 with wait := .rt 0 } = true ∧ jobAfter (.waitrt 0) rel = some (0x1000, false, .waiting, .rt (rel.rt + 5)) ∧
    jobAfter (.waitrt 0) abs = some (0x1003, false, .running, .none) := by decide +kernel
/-- Session 2 is a STORAGE session of tenant 4. -/
def ses2 (m : Mach) (l : List StoredEnt) : Mach := (m.setSess 2 { used := true, ten := 4, storage := true }).setLive 2 { stored := l }
def stored0 : StoredEnt := { volume := 5, ten := 4, id := 6, w0 := 0x51, w1 := 0x52 }
theorem test_meets_await : let none_ := ses2 (one 4 0 (7 * 4096 + 2) [5, 0x1100]) []
    let some_ := ses2 (one 4 0 (7 * 4096 + 2) [5, 0x1100]) [stored0]
    let r := some_.jobWrites 4 3 false [(0x1100, hiWord 6), (0x1101, loWord 6), (0x1102, 0x51), (0x1103, 0x52)]
    atB none_ job8 4 [5, 0x1100] = true ∧ atB some_ job8 4 [5, 0x1100] = true ∧ slipAddr false 0x1100 = .ok (0, 0x1100) ∧
    (none_.sess 2).used = true ∧ (none_.sess 2).storage = true ∧ (none_.sess 2).ten = 4 ∧ (none_.live 2).stored = [] ∧
    jobAfter (.await 0) none_ = some (0x1000, false, .waiting, .await 2 (some 5) 4) ∧
    (some_.live 2).stored.reverse.find? (fun y => y.volume = 5 && y.ten = 4) = some stored0 ∧ r.1 = 4 ∧ r.2.1 = none ∧
    r.2.2.job 7 = some job8 ∧ (r.2.2.engine 0).job = some 7 ∧ ((ran (.await 0) some_).cont 0x1102).pay = 0x51 := by decide +kernel
/-- Carrel 3 with a completion ring of 8 entries at word 0x1300. -/
def ring3 (m : Mach) : Mach := (m.setReg (Reg.carCqbase 3) 0x1300).setReg (Reg.carCqsize 3) 3
theorem test_meets_note : let full := (one 0x12 0 9).setReg (Reg.carCqsize 3) 0
    let room := ring3 (one 0x12 0 9)
    let jn := { job8 with st := .waiting, wait := .note 9, ord := room.order }
    let r := ({ room.setJob 7 jn with order := room.order + 1 } : Mach).jobPut jn
      [(0x1300, w48 0x1200), (0x1301, 0), (0x1302, j2Word 0x0E 0x1000), (0x1303, j3Word 0 9)]
    atB full job8 0x12 [] = true ∧ atB room job8 0x12 [] = true ∧ full.cqFull 3 = true ∧ room.cqFull 3 = false ∧
    room.bit (Reg.carStat 3) F.carStatCqerr = false ∧ job8.delivers = false ∧ r.1 = 4 ∧ r.2.1 = none ∧
    jobAfter (.slipNote 0) full = some (0x1000, false, .waiting, .note 9) ∧
    ((ran (.slipNote 0) room).cont 0x1303).pay = j3Word 0 9 := by decide +kernel
def waiting (w : Wait) : Mach := { (slipMach { job8 with st := .waiting, wait := w, deadline := some 0 } [] []).setEngine 0 {} with now := 9 }
theorem test_meets_wakes : let rt := waiting (.rt 0)
    let lane := waiting (.laneFree 0)
    let aw := waiting (.await 2 none 4)
    let lk := waiting (.lock 0x1100)
    let sd := waiting (.send 2)
    rt.up = true ∧ (rt.job 7).map Job.st = some .waiting ∧ rt.waitHolds { job8 with wait := .rt 0 } = true ∧
    jobAfter (.slipWaitWake 7) rt = some (0x1000, false, .ready, .none) ∧ lane.idleLanes true false ≠ [] ∧
    jobAfter (.slipWaitWake 7) lane = some (0x1000, false, .ready, .none) ∧
    [aw, lk, sd].map (fun m => ((ran (.slipTimeout 7) m).job 7).map Job.wokenRes) =
      [some (9 * 65536), some (9 * 65536), some (8 * 65536)] := by decide +kernel

/-- The slips of the SEND example: a frame item of 12 octets for session 2 in one extent. -/
def sendWords : List Word := [0, 0x41, fset (w48 (0x2A7 * 2 ^ 36 + 1 * 2 ^ 32)) ⟨10, 0⟩ 12, 0x1100, 2]
def sendMach (f : Nat) : Mach := (one 3 f 2 sendWords [7, 8]).setSess 2 { used := true, ten := 4, port := 5, peer := w48 peer }
theorem test_meets_send : let m := sendMach 0
    atB m job8 3 sendWords = true ∧ sendExtents [0x1100, 2] = .ok [(0x1100, 2)] ∧ (m.sess 2).used = true ∧ (m.sess 2).ten = 4 ∧
    m.gather job8 [(0x1100, 2)] = .ok [7, 8] ∧ m.replies = [] ∧ (m.live 2).conn = none ∧
    nbits (sendWords.getD 2 0).toNat 35 32 = 1 ∧ nbits (sendWords.getD 2 0).toNat 10 0 = 12 ∧ nbits (sendWords.getD 2 0).toNat 31 11 = 0 ∧
    jobAfter (.slipSend 0) m = some (0x1000, false, .waiting, .send 2) := by decide +kernel
theorem test_meets_send_placed : let m := (sendMach 0).setLive 2 { conn := some { conn0 with plim := 8 } }
    hasRoom { conn0 with plim := 8 } = true ∧ ({ conn0 with plim := 8 } : Conn).nextReply < 8 ∧ m.volumeHeld none = true ∧
    (ran (.slipSend 0) m).sent.length = 1 ∧ atB (sendMach 16) job8 3 sendWords = true := by decide +kernel
theorem test_meets_raw : let up_ := ((one 3 32 5 [14, 0x1100, 3]).setFld (Reg.prtCtl 5) F.prtCtlEn 1).setFld (Reg.prtStat 5) F.prtStatLink 1
    let m := up_.setFld (Reg.prtCtl 5) F.prtCtlOwner 4
    let down := m.setFld (Reg.prtStat 5) F.prtStatLink 0
    atB m job8 3 [14, 0x1100, 3] = true ∧ slipExtent false 0x1100 3 = .ok (0, 0x1100, 3) ∧ m.carReadN 3 false 0x1100 3 = .ok [0, 0, 0] ∧
    m.rawBarred job8 5 (List.replicate 14 0) = false ∧ m.portOpen 5 = true ∧ down.portOpen 5 = false ∧
    up_.rawBarred job8 5 (List.replicate 14 0) = true ∧
    ((ran (.sendRaw 0) m).queue 5).length = 1 ∧ jobAfter (.sendRaw 0) down = some (0x1000, false, .waiting, .raw 5 false) := by
  decide +kernel
theorem test_meets_lane_slips : let m := one 5 0 0 [0x1100]
    let h := one 8 0 0 [0x1100, 2, 0x1110]
    atB m job8 5 [0x1100] = true ∧ atB (one 6 0 0 [0x1100]) job8 6 [0x1100] = true ∧ atB (one 7 0 0 [0x1100]) job8 7 [0x1100] = true ∧
    atB h job8 8 [0x1100, 2, 0x1110] = true ∧ hashOperand (wordAt h job8) = true ∧ m.idleLanes false false ≠ [] ∧
    h.idleLanes true false ≠ [] ∧
    ({ m with lanes := (List.range 16).map fun i => (i, { job := some 9 }) } : Mach).idleLanes true false = [] := by decide +kernel
theorem test_meets_pick : let j := { job8 with st := .ready }
    let m := ((slipMach j [] []).setEngine 0 {}).setReg (Reg.ceCtl 0) (fset 0 F.ceCtlEn 1)
    let idle : Mach := { m with jobs := [] }
    m.mayPick 0 = true ∧ m.takeable 0 = [(7, j)] ∧ idle.mayPick 0 = true ∧ idle.takeable 0 = [] ∧ (one 0 0 0).mayPick 0 = false ∧
    ((ran (.enginePick 0) m).engine 0).job = some 7 := by decide +kernel
theorem test_meets_engine_acts : let m := one 0 0 0
    let old := m.setReg (Reg.carGen 3) 1
    let gated := m.setFld (Reg.enGate 0x10) F.enGateGated 1
    m.up = true ∧ (m.engine 0).job = some 7 ∧ m.engineOf 7 = some 0 ∧ m.stale job8 = false ∧ old.stale job8 = true ∧
    m.gated 0x10 = false ∧ gated.gated 0x10 = true ∧ house.house = true ∧ fbit (fset 0 F.ceCtlEn 1) F.ceCtlEn = true ∧ ten4.house = false ∧
    (ran (.quantumExpiry 0) m).job 7 = some { job8 with st := .ready, ord := 0 } ∧ (ran (.quantumExpiry 0) old).job 7 = none := by
  decide +kernel
/-- The job of context 7 waits on lane block `b`, which works on the descriptor `ws` in state `l`; `d` at word 0x1100. -/
def laneMach (b : Nat) (l : Lane) (d : List Word) : Mach :=
  ((slipMach { job8 with st := .waiting, wait := .lane (b ≤ 8) b } [] d).setEngine 0 {}).setLaneB b { l with job := some 7, carrel := 3, ten := 4 }
theorem test_meets_lane_result : let r : LaneRes := { writes := [(0x1110, 5)] }
    let m := laneMach 1 { res := some r } []
    let n := laneMach 9 { kind := 2, res := some { r with code := 1 } } []
    let q := laneMach 9 { kind := 2, res := some { writes := [(0x1110, 5), (0x2110, 6)] } } []
    let p := m.laneWrites (m.laneB 1) r
    let pq := q.laneWrites (q.laneB 9) { r with writes := [(0x1110, 5), (0x2110, 6)] }
    steady m = true ∧ steady q = true ∧ pq.1 = 1 ∧ pq.2.1 = some (5, 0) ∧ pq.2.2.job 7 = q.job 7 ∧
    ((ran (.laneResult false 0 0) q).job 7).map (fun j => (j.wokenRes, j.wokenCount)) = some (5 * 65536, 1) ∧
    ((ran (.laneResult false 0 0) (laneMach 9 { kind := 2, res := some { r with fault := 1 } } [])).job 7).map Job.wokenRes =
      some (0x0D * 65536 + 2) ∧ m.up = true ∧ (m.laneB 1).job = some 7 ∧ (m.job 7).map Job.st = some .waiting ∧ (m.laneB 1).gen = m.carGen 3 ∧
    p.1 = 1 ∧ p.2.1 = none ∧ p.2.2.job 7 = m.job 7 ∧ ((ran (.laneResult true 0 0) m).cont 0x1110).pay = 5 ∧
    ((ran (.laneResult false 0 0) n).job 7).map Job.wokenRes = some (0x0C * 65536 + 1) ∧
    ((ran (.laneResult true 0 3) m).job 7).map Job.wokenRes = some (0x0D * 65536 + 2) ∧
    ((m.setReg (Reg.carGen 3) 1).laneB 1).gen ≠ (m.setReg (Reg.carGen 3) 1).carGen 3 := by decide +kernel
theorem test_meets_lane_hash : let m := laneMach 1 { kind := 1, words := [slip 8 0 0, 0x1100, 2, 0x1110] } [7, 8]
    ((m.hashJob 1).laneB 1).res.isSome = true := by decide +kernel
theorem test_meets_lane_reset : let m := laneMach 1 {} []
    let g := m.setFld (Reg.enGate 1) F.enGateGated 1
    m.gated 1 = false ∧ g.gated 1 = true ∧ m.blockSr 1 = false ∧ (ran (.kxLaneReset house 0 0) g).held = [1] ∧
    ((ran (.kxLaneReset house 0 0) m).job 7).map Job.wokenRes = some (0x0D * 65536 + 1) := by decide +kernel
/-- Slot 2 of tenant 4: READY, algorithm 2, with all uses but rollover, and room for invocations. -/
def slotMach (m : Mach) : Mach :=
  (((m.setReg (Reg.kxSstat 2) (fset (fset (fset 0 F.kxSstatState 1) F.kxSstatAlg 2) F.kxSstatUsage 0x7F)).setReg (Reg.kxSown 2)
    (fset 0 F.kxSownTenant 4)).setReg (Reg.kxSlimit 2) 99).setReg (Reg.kxSown 3) (fset 0 F.kxSownTenant 4)
theorem test_meets_slot_clear : let m := slotMach solo
    let c := m.setFld (Reg.kxSstat 2) F.kxSstatState 3
    let h := c.setLane 0 { job := some 9, slots := [2] }
    ten4.ofTen (m.fld (Reg.kxSown 2) F.kxSownTenant) = true ∧ m.bit (Reg.kxSown 2) F.kxSownSr = false ∧
    (ran (.kxSclr ten4 2 1) m).slotState 2 = 3 ∧ c.slotHeld 2 = false ∧ h.slotHeld 2 = true ∧
    (ran (.slotClearDone 2) c).slotState 2 = 0 ∧ (ran (.slotClearDone 2) h).slotState 2 = 3 := by decide +kernel

theorem test_meets_carrel_create : let v := fset 0 F.tenCarreqPid 9
    let m := (carrel3 solo).setReg (Reg.tenCtl 4) (fset 0 F.tenCtlEn 1) |>.setReg (Reg.tenCarmax 4) 8
    ten4.ofTen 4 = true ∧ m.bit (Reg.tenCarres 4) F.tenCarresBusy = false ∧ m.usedCars = [3] ∧ m.carTen 3 = 4 ∧
    m.fld (Reg.carStat 3) F.carStatPid ≠ 9 ∧ m.bit (Reg.tenCtl 4) F.tenCtlEn = true ∧ tmem m.tenResets 4 = false ∧
    (ran (.carrelCreate ten4 4 v) m).carState 0 = 1 ∧ (ran (.carrelCreate ten4 4 v) m).carGen 0 = 1 ∧
    (ran (.carrelCreate ten4 4 0) m).fld (Reg.tenCarres 4) F.tenCarresStatus = 3 ∧
    (ran (.carrelCreate ten4 4 v) (m.setReg (Reg.tenCarmax 4) 1)).fld (Reg.tenCarres 4) F.tenCarresStatus = 2 ∧
    (ran (.carrelCreate ten4 4 v) (m.setReg (Reg.tenCtl 4) 0)).fld (Reg.tenCarres 4) F.tenCarresStatus = 5 := by decide +kernel
/-- A create by the strongroom is T00's (log 135). -/
theorem test_meets_carrel_create_sr : let v := fset 0 F.tenCarreqPid 9
    let m := (solo.setReg (Reg.tenCtl 0) (fset 0 F.tenCtlEn 1)).setReg (Reg.tenCarmax 0) 1
    house.ofTen 4 = true ∧ m.usedCars = [] ∧ m.bit (Reg.tenCtl 0) F.tenCtlEn = true ∧ (ran (.carrelCreate house 4 v) m).carTen 0 = 0 ∧
    (ran (.carrelCreate house 4 v) m).srCarrels = [0] := by decide +kernel
/-- Every carrel entry is used. -/
def fullMach : Mach := { ({} : Mach) with regs := (Reg.tenCarmax 4, 8191) :: (List.range' 0 4096).map fun c => (0x100000 + 64 * c, 0x400000000000) }
theorem full_lookup (n : Nat) : ∀ k y, k ≤ y → y < k + n →
    tabGet resetOf ((List.range' k n).map fun c => (0x100000 + 64 * c, (0x400000000000 : Word))) (0x100000 + 64 * y) = 0x400000000000 := by
  induction n with
  | zero => intro k y h1 h2; omega
  | succ n ih =>
    intro k y h1 h2
    rw [List.range'_succ, List.map_cons, tabGet]
    split
    · rfl
    · exact ih (k + 1) y (by omega) (by omega)
theorem full_used (y : Nat) : y ∈ fullMach.usedCars ↔ y < 4096 := by
  unfold Mach.usedCars fullMach
  simp only [List.mem_map, List.mem_filter, List.mem_cons, List.mem_range']
  constructor
  · rintro ⟨e, ⟨rfl | ⟨c, ⟨i, hi, rfl⟩, rfl⟩, h⟩, rfl⟩
    · revert h
      decide
    · simp only [Nat.zero_add, Nat.one_mul]
      omega
  · intro hy
    refine ⟨(0x100000 + 64 * y, 0x400000000000), ⟨.inr ⟨y, ⟨y, hy, by omega⟩, rfl⟩, ?_⟩, by simp⟩
    have h1 : fget (0x400000000000 : Word) F.carStatState ≠ 0 := by decide
    simp only [decide_eq_true_eq, Bool.and_eq_true]
    exact ⟨⟨⟨by omega, by omega⟩, by omega⟩, h1⟩
theorem full_tenant {y : Nat} (h : y < 4096) : fullMach.carTen y = 0 := by
  have hr : fullMach.reg (Reg.carStat y) = 0x400000000000 := by
    have hl := full_lookup 4096 0 y (by omega) (by omega)
    unfold Mach.reg fullMach
    rw [if_neg (by
      intro hh
      simp [ledgerAddr, Reg.carStat, Reg.sealCtl, Reg.sealRsize, Reg.sealTail] at hh
      rcases hh with (((⟨⟨h1, h2⟩, _⟩ | ⟨h1, h2⟩) | ⟨⟨h1, h2⟩, _⟩) | ⟨h1, h2⟩) | h1
      · have := of_decide_eq_true h2
        omega
      · have := of_decide_eq_true h2
        omega
      · have := of_decide_eq_true h2
        omega
      · have := of_decide_eq_true h1
        omega
      · have := of_decide_eq_true h1
        omega)]
    rw [tabGet, if_neg (by simp [Reg.carStat, Reg.tenCarmax]; omega)]
    exact hl
  unfold Mach.carTen Mach.fld
  rw [hr]
  decide
theorem test_meets_carrel_full : let mine := fullMach.usedCars.filter fun y => fullMach.carTen y = 4
    ten4.ofTen 4 = true ∧ fullMach.bit (Reg.tenCarres 4) F.tenCarresBusy = false ∧ (∀ y, y < 4096 → y ∈ fullMach.usedCars) ∧
    (∀ y ∈ mine, fullMach.fld (Reg.carStat y) F.carStatPid ≠ 9) ∧ mine.length < (fullMach.reg (Reg.tenCarmax 4)).toNat % 8192 := by
  have hm : (fullMach.usedCars.filter fun y => fullMach.carTen y = 4) = [] := by
    rw [List.filter_eq_nil_iff]
    intro y hy
    simp [full_tenant ((full_used y).mp hy)]
  have h8 : (fullMach.reg (Reg.tenCarmax 4)).toNat % 8192 = 8191 := by
    unfold Mach.reg fullMach
    rw [if_neg (by decide), tabGet, if_pos rfl]
    decide
  refine ⟨by decide, ?_, fun y => (full_used y).mpr, ?_, ?_⟩
  · unfold Mach.bit Mach.reg fullMach
    rw [if_neg (by decide), tabGet, if_neg (by decide)]
    have : ∀ k n, tabGet resetOf ((List.range' k n).map fun c => (0x100000 + 64 * c, (0x400000000000 : Word))) (Reg.tenCarres 4) =
        resetOf (Reg.tenCarres 4) := by
      intro k n
      induction n generalizing k with
      | zero => rfl
      | succ n ih => rw [List.range'_succ, List.map_cons, tabGet, if_neg (by simp [Reg.tenCarres]; omega), ih]
    rw [this]
    decide +kernel
  · rw [hm]
    intro y hy
    cases hy
  · rw [hm, h8]
    decide
theorem test_meets_carrel_delete : let v := fset 0 F.tenCarreqCarrel 3
    let m := carrel3 solo
    m.carState 3 = 1 ∧ m.carTen 3 = 4 ∧ m.srCarrels.contains 3 = false ∧ m.carState 0 = 0 ∧
    (ran (.carrelDelete ten4 4 v) m).carState 3 = 2 ∧ (ran (.carrelDelete ten4 4 0) m).fld (Reg.tenCarres 4) F.tenCarresStatus = 4 ∧
    (ran (.carrelDelete ten4 4 v) m).bit (Reg.tenCarres 4) F.tenCarresBusy = true ∧
    (ran (.carrelBadop ten4 4 0) m).fld (Reg.tenCarres 4) F.tenCarresStatus = 6 := by decide +kernel
theorem test_meets_carrel_reset : let m := carrel3 (one 0 0 0)
    let r := ran (.carReset ten4 3 1) m
    m.mayCar ten4 3 = true ∧ solo.mayCar ten4 3 = false ∧ m.carState 3 = 1 ∧ r.carState 3 = 2 ∧ r.staleEngines 3 = [0] ∧
    tfind r.carResets 3 = some 0 ∧ (ran (.carrelResetComplete 3) r).carState 3 = 2 ∧
    ((ran (.carrelResetBound 3) ({ r with now := 838 } : Mach)).engine 0).job = none ∧
    (let t := ran (.carReset ten4 3 1) (carrel3 solo)
     t.staleEngines 3 = [] ∧ t.staleLanes 3 = [] ∧ (ran (.carrelResetComplete 3) t).carState 3 = 1) := by decide +kernel
theorem test_meets_tenant_reset : let m := carrel3 solo
    house.sr = true ∧ tmem m.tenResets 4 = false ∧ m.usedCars.all (fun y => m.carTen y ≠ 5) = true ∧
    (ran (.tenReset house 4 0) m).carState 3 = 2 ∧ tmem (ran (.tenReset house 4 0) m).tenResets 4 = true ∧
    tmem (ran (.tenReset house 5 0) m).tenResets 5 = false := by decide +kernel

theorem test_meets_cq : let m := (ring3 (carrel3 solo)).setReg (Reg.carCqhead 3) 2
    m.mayCar ten4 3 = true ∧ m.cqEntries 3 = 8 ∧ m.cqUsed 3 = 2 ∧ (ran (.carCqtailWrite ten4 3 3) m).reg (Reg.carErr 3) = 1 ∧
    (ran (.carCqtailWrite ten4 3 2) m).reg (Reg.carCqtail 3) = 2 ∧ m.jobs = [] := by decide +kernel
theorem test_meets_cqerr : let j := { job8 with st := .held, j2 := 1, j3 := 2 }
    let m := (ring3 ((slipMach j [] []).setEngine 0 {})).setFld (Reg.carStat 3) F.carStatCqerr 1
    let r := (m.setFld (Reg.carStat 3) F.carStatCqerr 0).jobPut j [(0x1300, w48 0x1200), (0x1301, 0), (0x1302, 1), (0x1303, 2)]
    m.jobs = [(7, j)] ∧ m.mayCar ten4 3 = true ∧ m.cqFull 3 = false ∧ fbit 0 F.carStatNew = false ∧ r.1 = 4 ∧ r.2.1 = none ∧
    (ran (.cqerrClear ten4 3 0) m).jobs = [] := by decide +kernel
theorem test_meets_epochs : let m := ran (.newepoch ten4 4 0) solo
    m.clearing = [4] ∧ solo.clearing.contains 4 = false ∧ ten4.ofTen 5 = false ∧ m.fld (Reg.tenMplctl 4) F.tenMplctlEpochno = 1 := by
  decide +kernel

def cw (op : Nat) : Word := w48 (op * 2 ^ 40 + 2 * 2 ^ 16 + 3 * 2 ^ 8)
def gcmLane (op n : Nat) : Lane := { slots := [2], words := [cw op, 0x1100, w48 n, 0x1110, 96, 0x1120, 6, 0x1130] }
def okIs (e : Except LaneRes (List Octet)) : Bool := match e with
  | .ok _ => true
  | .error _ => false
theorem test_meets_cipher : let m := fun (op n : Nat) => slotMach (laneMach 1 (gcmLane op n) [])
    let l := (m 1 12).laneB 1
    (m 1 12).cipherAt 1 1 = true ∧ cipherDescBad l.words = false ∧ l.len 6 = 6 ∧ l.len 4 = 96 ∧ l.keySlot = 2 ∧ l.dstSlot = 3 ∧
    [Usage.enc, Usage.dec, Usage.macGen, Usage.macVer, Usage.wrap, Usage.unwrap].all (fun u => ((m 1 12).slotFor l 2 u [1, 2]).toBool) = true ∧
    okIs ((m 1 12).laneOctets l 0x1100 24) = true ∧ okIs ((m 1 12).laneOctets l 0x1132 16) = true ∧ (m 1 12).slotC 2 < 2 ^ 64 - 1 ∧
    [2, 5, 6, 7, 8].all (fun op => (m op 24).cipherAt 1 op) = true ∧ (m 9 48).cipherAt 1 9 = true ∧ (m 0 0).cipherAt 1 0 = true ∧
    cipherDescBad ((gcmLane 1 12).words.set 1 0x100000000000) = true := by decide +kernel
/-- The start of GCM-ENC and of CMAC-GEN on lane 0 at the end of a tick, of a length that is none and of a slot that holds no key. -/
theorem test_meets_cipher_start : let m := fun (op n : Nat) => slotMach (laneMach 1 { gcmLane op n with slots := [], fresh := true } [])
    let gone := (m 1 12).setFld (Reg.kxSstat 2) F.kxSstatState 0
    (m 1 12).pins.vaux = true ∧ (m 1 12).refs ≠ [] ∧ ((m 1 12).laneB 1).fresh = true ∧ (∀ y ∈ (m 1 12).lanes, y.2.fresh = true → y.1 = 0) ∧
    [(1, 12), (5, 12), (7, 24)].all (fun x => cipherLen x.1 ((m x.1 x.2).laneB 1)) = true ∧ cipherLen 7 ((m 7 8).laneB 1) = false ∧
    ((m 1 12).startCheck ((m 1 12).laneB 1)).toBool = true ∧ (gone.startCheck (gone.laneB 1)).toBool = false ∧
    ((ran .rtTick (m 1 12)).laneB 1).slots = [2] ∧ (ran .rtTick (m 1 12)).slotU 2 = (m 1 12).slotU 2 + 1 ∧
    (((ran .rtTick gone).laneB 1).res.map LaneRes.code) = some 3 ∧ (((ran .rtTick (m 7 8)).laneB 1).res.map LaneRes.code) = some 7 ∧
    (∀ y ∈ (ran .rtTick (m 1 12)).lanes, y.2.fresh = false) ∧ (∀ y ∈ (m 1 12).seats, y.2.evb = []) := by decide +kernel
theorem test_meets_cipher_xts : let m := (slotMach (laneMach 1 (gcmLane 3 16) [])).setFld (Reg.kxSstat 2) F.kxSstatAlg 3
    m.cipherAt 1 3 = true ∧ (m.slotFor (m.laneB 1) 2 Usage.enc [3]).toBool = true ∧ (m.slotFor (m.laneB 1) 2 Usage.dec [3]).toBool = true := by
  decide +kernel
/-- A strongroom lane whose slots 2 and 3 are the strongroom's; the key-encryption key is derived. -/
def srLane (op n : Nat) : Mach :=
  let m := laneMach 1 { gcmLane op n with sr := true, words := (gcmLane op n).words.set 0 (cw op ||| 0x4000000000) |>.set 4 1568 }
    [0x010200010100, 0]
  let k : Mach := { (slotMach m) with sr := { m.sr with keys := true } }
  ((k.setReg (Reg.kxSown 2) (fset 0 F.kxSownSr 1)).setReg (Reg.kxSown 3) (fset 0 F.kxSownSr 1)).setReg Reg.srStat 0
theorem test_meets_cipher_keys : let m := srLane 9 48
    m.cipherAt 1 9 = true ∧ (m.laneB 1).kek = true ∧ (m.laneB 1).sr = true ∧ m.kekPaused = false ∧
    okIs (m.laneOctets (m.laneB 1) 0x1100 48) = true ∧ solo.kekPaused = true ∧
    headerOk ([1, 2, 0, 1, 1, 0] ++ List.replicate 18 0) = true ∧
    (m.dstCheck (m.laneB 1) ([1, 2, 0, 1, 1, 0] ++ List.replicate 18 0)).toBool = true ∧
    [11, 12, 13, 14].all (fun op => (srLane op 1568).cipherAt 1 op) = true ∧ ((srLane 13 1568).laneB 1).len 4 = 1568 := by decide +kernel
theorem test_meets_cipher_export :
    let m := ((srLane 10 0).setReg (Reg.kxSstat 3) (fset (fset (fset 0 F.kxSstatState 1) F.kxSstatAlg 1) F.kxSstatUsage 0x7F)).setReg
      (Reg.kxSlimit 3) 9
    m.cipherAt 1 10 = true ∧ (m.slotFor (m.laneB 1) 3 Usage.exportable [1, 2, 3]).toBool = true ∧ m.kekPaused = false ∧
    tfind m.kp ((m.laneB 1).kpReg) = none ∧ tfind { m with kp := [(0, [1])] }.kp 0 = some [1] := by decide +kernel

/-- A compression lane at operation `op` with ratio `r`, one block or 24 octets. -/
def packLane (op r n : Nat) : Lane :=
  { kind := if op % 2 = 1 then 2 else 3, words := [w48 (op * 2 ^ 40 + r * 2 ^ 34), 0x1100, w48 n, 0x1400, 3072, 0x1700, 0, 0x1800] }
theorem test_meets_pack : let m := fun (op r n : Nat) (d : List Word) => laneMach 9 (packLane op r n) d
    let at_ := fun (op r n : Nat) (d : List Word) =>
      (m op r n d).packAt 9 op && !packDescBad ((m op r n d).laneB 9) op && packLenOk ((m op r n d).laneB 9) op
    at_ 1 1 1 [] = true ∧ at_ 2 0 1 [] = true ∧ at_ 3 0 24 [] = true ∧ ((m 1 0 1 []).laneB 9 |> fun l => packDescBad l 1) = true ∧
    packLenOk ((m 1 1 0 []).laneB 9) 1 = false ∧ (m 2 0 1 [0xA40000000000]).carRead 3 false 0x1100 = .ok 0xA40000000000 ∧
    nbits 0xA40000000000 47 44 = 0xA ∧ nbits 0xA40000000000 43 42 = 1 ∧ nbit 0xA40000000000 41 = false := by decide +kernel
theorem test_meets_inflate : let l := packLane 4 0 24
    (laneMach 9 { l with words := l.words.set 5 0 } []).packAt 9 4 = true ∧ packDescBad { l with words := l.words.set 5 0 } 4 = false ∧
    l.words.length = 8 := by decide +kernel

/-! ### The block as a whole -/

theorem test_step : (match step { toMach := up, pending := [.rtTick, .rtTick] } with
    | .next t => decide (t.pending = [.rtTick] ∧ t.toMach.now = 1)
    | _ => false) = true := by decide +kernel
theorem test_idle : step State.reset = .next State.reset := rfl
theorem test_meets_memory : Memory.wf State.reset.mem = true ∧ Memory.wf (tables up).mem = true := by decide +kernel
theorem test_meets_rt : (st solo).toMach.phase ≠ 1 ∧ (st solo).toMach.pins.vaux = true ∧ (ran .rtTick solo).pins.vaux = true := by decide +kernel
theorem test_meets_latch_holds : let m : Mach := { solo with twin := { solo.twin with latch := true } }
    m.up = true ∧ m.twin.latch = true ∧ (ran .rtTick m).twin.latch = true := by decide +kernel
/-- Example 15.1: where the spread of R295 puts a word. -/
theorem test_place : placeOf 0x4A3B7C55 = (11, 0x251DBE28, 17) := by decide +kernel

/-! ### The standards' functions, by their own examples -/

/-- FIPS 202: the SHA3-256 of no octets. -/
theorem test_sha3 : sha3_256 [] = 0xa7ffc6f8bf1ed76651c14756a061d662f580ff4de43b49fa82d80a4b80f8434a := by decide +kernel
/-- FIPS 197, appendix C.1. -/
theorem test_aes : let ks := aesKeys ((List.range 16).map fun i => BitVec.ofNat 8 i)
    let p := (List.range 16).map fun i => BitVec.ofNat 8 (17 * i)
    octField (aesEncBlock ks p) 0 16 = 0x69c4e0d86a7b0430d8cdb78070b4c55a ∧ aesDecBlock ks (aesEncBlock ks p) = p := by decide +kernel
/-- RFC 1951: a fixed block of one literal, and a stored block. -/
theorem test_inflate : inflate [0x4B#8, 0x04#8, 0x00#8, 0x99#8] = ([0x61#8], 3, 0) ∧ inflate [7#8] = ([], 0, 1) ∧
    inflate (storedStream [1#8, 2#8]) = ([1#8, 2#8], 7, 0) := by decide +kernel

end Sys2Proof.Tests
end

section
/-! PROOFS. The firing of a bell (R54, R59, R60). -/

namespace Sys2Proof.Machine
open Sys2Proof

/-! ### Fields of a word (R3) -/

theorem testBit_fget (w : Word) (f : Fld) (i : Nat) :
    (fget w f).testBit i = (decide (i < fldWidth f) && w.getLsbD (f.lo + i)) := by
  simp [fget, Nat.testBit_mod_two_pow, Nat.testBit_shiftRight, BitVec.getLsbD]

theorem getLsbD_fset (w : Word) (f : Fld) (v i : Nat) (h : i < 48) :
    (fset w f v).getLsbD i = if f.lo ≤ i ∧ i - f.lo < fldWidth f then v.testBit (i - f.lo) else w.getLsbD i := by
  simp only [fset, fmask, BitVec.getLsbD_or, BitVec.getLsbD_and, BitVec.getLsbD_not, BitVec.getLsbD_ofNat,
    Nat.testBit_shiftLeft, Nat.testBit_mod_two_pow, Nat.testBit_two_pow_sub_one]
  by_cases hi : f.lo ≤ i ∧ i - f.lo < fldWidth f
  · simp [hi, h]
  · rcases not_and_or.mp hi with hi | hi <;> simp [hi, h]

theorem fget_fset_self (w : Word) (f : Fld) (v : Nat) (h : f.lo + fldWidth f ≤ 48) :
    fget (fset w f v) f = v % 2 ^ fldWidth f := by
  refine Nat.eq_of_testBit_eq fun i => ?_
  rw [testBit_fget, Nat.testBit_mod_two_pow]
  by_cases hi : i < fldWidth f
  · simp [getLsbD_fset w f v (f.lo + i) (by omega), hi]
  · simp [hi]

theorem fget_fset_of_disjoint (w : Word) (f g : Fld) (v : Nat) (h : g.lo + fldWidth g ≤ 48)
    (hd : f.lo + fldWidth f ≤ g.lo ∨ g.lo + fldWidth g ≤ f.lo) : fget (fset w f v) g = fget w g := by
  refine Nat.eq_of_testBit_eq fun i => ?_
  rw [testBit_fget, testBit_fget]
  by_cases hi : i < fldWidth g
  · rw [getLsbD_fset w f v (g.lo + i) (by omega), if_neg (by omega)]
  · simp [hi]

/-! ### What a firing leaves alone -/

/-- The bell table, RT and the BELL_STAT words are alike: what the actions and wakings of a firing leave alone, so that R60 then
works on the bell as it was due. -/
structure SameBells (m n : Mach) : Prop where
  bells : n.ledger.bells = m.ledger.bells
  rt : n.rt = m.rt
  stat : ∀ b : BellId, n.reg (Reg.bellStat b) = m.reg (Reg.bellStat b)

theorem SameBells.refl (m : Mach) : SameBells m m := ⟨rfl, rfl, fun _ => rfl⟩

theorem SameBells.trans {m n o : Mach} (h : SameBells m n) (g : SameBells n o) : SameBells m o :=
  ⟨g.bells.trans h.bells, g.rt.trans h.rt, fun b => (g.stat b).trans (h.stat b)⟩

theorem SameBells.ebell {m n : Mach} (h : SameBells m n) (b : Nat) : n.ebell b = m.ebell b := by
  simp only [Mach.ebell, h.bells]

theorem SameBells.foldl {β : Type} (f : Mach → β → Mach) (h : ∀ m x, SameBells m (f m x)) (l : List β) (m : Mach) :
    SameBells m (l.foldl f m) := by
  induction l generalizing m with
  | nil => exact .refl m
  | cons x l ih => exact (h m x).trans (ih (f m x))

@[simp] theorem Mach.setReg_bells (m : Mach) (a : Nat) (v : Word) : (m.setReg a v).ledger.bells = m.ledger.bells := by
  unfold Mach.setReg
  split <;> rfl

/-- The registers above the bell block hold no BELL_STAT word (R63). -/
theorem sameBells_setReg (m : Mach) (a : Nat) (v : Word) (h : 0x22000 ≤ a) : SameBells m (m.setReg a v) := by
  refine ⟨by simp, by simp, fun b => ?_⟩
  have apart : a ≠ Reg.bellStat b := by
    have := b.isLt
    simp only [Reg.bellStat]
    omega
  simp [apart]

theorem sameBells_setFld (m : Mach) (a : Nat) (f : Fld) (v : Nat) (h : 0x22000 ≤ a) : SameBells m (m.setFld a f v) :=
  sameBells_setReg m a _ h

theorem sameBells_count (m : Mach) (a k : Nat) (h : 0x22000 ≤ a) : SameBells m (m.count a k) :=
  sameBells_setReg m a _ h

theorem sameBells_raise (m : Mach) (i : Nat) : SameBells m (m.raise i) := by
  unfold Mach.raise
  split
  · exact sameBells_setReg _ _ _ (by simp only [Reg.intStat]; omega)
  · exact .refl m

theorem sameBells_makeReady (m : Mach) (x : Nat) : SameBells m (m.makeReady x) := by
  unfold Mach.makeReady
  split
  · exact .refl m
  · exact ⟨rfl, rfl, fun _ => rfl⟩

theorem sameBells_wakeJob (m : Mach) (x code detail count : Nat) : SameBells m (m.wakeJob x code detail count) := by
  unfold Mach.wakeJob
  split
  · exact .refl m
  · split
    · exact SameBells.trans (n := m.setJob x _) ⟨rfl, rfl, fun _ => rfl⟩ (sameBells_makeReady _ _)
    · exact .refl m

theorem sameBells_stk (m : Mach) (x : Stk) : SameBells m { m with stk := x } := ⟨rfl, rfl, fun _ => rfl⟩

theorem sameBells_stkTrigger (m : Mach) (src : Nat) : SameBells m (m.stkTrigger src) := by
  have pulse : ∀ c : Bool, SameBells m (if c then { m with stk := { m.stk with out := some m.now } } else m) := by
    intro c
    cases c
    · exact .refl m
    · exact sameBells_stk _ _
  unfold Mach.stkTrigger
  split
  · exact .refl m
  · refine (pulse (src ≠ 3 && m.bit Reg.stkCtl F.stkCtlOuten)).trans ?_
    by_cases locked : m.bit Reg.stkStat F.stkStatLocked = true
    · rw [if_pos locked]
      exact sameBells_count _ _ _ (by decide)
    · rw [if_neg locked]
      exact (sameBells_stk _ _).trans (sameBells_setFld _ _ _ _ (by decide))

theorem sameBells_keyRoll (m : Mach) (tag : Nat) : SameBells m (m.keyRoll tag) := by
  refine (SameBells.foldl _ (fun x k => ?_) _ m).trans ((sameBells_setReg _ _ _ (by decide)).trans (sameBells_raise _ _))
  split
  · exact sameBells_setFld _ _ _ _ (by simp only [Reg.kxSstat]; omega)
  · exact .refl x

theorem sameBells_pursePeriod (m : Mach) : SameBells m m.pursePeriod :=
  (((sameBells_setReg _ _ _ (by decide)).trans (sameBells_setReg _ _ _ (by decide))).trans
    (sameBells_setReg _ _ _ (by decide))).trans (sameBells_count _ _ _ (by decide))

theorem sameBells_bellAction (m : Mach) (act : Word) : SameBells m (m.bellAction act) := by
  unfold Mach.bellAction
  dsimp only
  split
  · exact ((sameBells_setFld _ _ _ _ (by simp only [Reg.gateStat]; omega)).trans
      (sameBells_setReg _ _ _ (by simp only [Reg.gateAccepted]; omega))).trans
      (sameBells_setReg _ _ _ (by simp only [Reg.gateClosedref]; omega))
  · exact sameBells_setFld _ _ _ _ (by simp only [Reg.gateStat]; omega)
  · exact (sameBells_setFld _ _ _ _ (by simp only [Reg.intRoute]; omega)).trans (sameBells_raise _ _)
  · exact sameBells_stkTrigger _ _
  · exact sameBells_keyRoll _ _
  · exact sameBells_pursePeriod _
  · exact .refl m

/-! ### What the action of a bell shows (R54) -/

theorem bellAction_opens_gate (m : Mach) (act : Word) (h : fget act F.bellActAction = 1) :
    (m.bellAction act).fld (Reg.gateStat (fget act F.bellActTarget)) F.gateStatState = 2 ∧
      (m.bellAction act).reg (Reg.gateAccepted (fget act F.bellActTarget)) = 0 ∧
      (m.bellAction act).reg (Reg.gateClosedref (fget act F.bellActTarget)) = 0 := by
  have apart : ∀ g, Reg.gateAccepted g ≠ Reg.gateStat g ∧ Reg.gateClosedref g ≠ Reg.gateStat g ∧
      Reg.gateClosedref g ≠ Reg.gateAccepted g := fun g => by
    simp only [Reg.gateStat, Reg.gateAccepted, Reg.gateClosedref]
    omega
  simp only [Mach.bellAction, h, Mach.fld, Mach.setFld, Mach.reg_setReg, apart, if_true, if_false,
    and_true]
  exact fget_fset_self _ _ _ (by decide)

theorem bellAction_closes_gate (m : Mach) (act : Word) (h : fget act F.bellActAction = 2) :
    (m.bellAction act).fld (Reg.gateStat (fget act F.bellActTarget)) F.gateStatState = 3 := by
  simp only [Mach.bellAction, h, Mach.fld, Mach.setFld, Mach.reg_setReg, if_true]
  exact fget_fset_self _ _ _ (by decide)

theorem nbit_eq_getLsbD (w : Word) (i : Nat) : nbit w.toNat i = w.getLsbD i := by
  simp [nbit, BitVec.getLsbD, Nat.testBit_eq_decide_div_mod_eq, Nat.shiftRight_eq_div_pow]

theorem raise_pends (m : Mach) (i : Nat) (h : intListed i = true) :
    nbit ((m.raise i).reg (Reg.intStat i)).toNat 0 = true := by
  rw [Mach.raise, if_pos h, Mach.reg_setReg, if_pos rfl, nbit_eq_getLsbD, BitVec.getLsbD_or]
  split <;> simp

theorem bellAction_raises (m : Mach) (act : Word) (h : fget act F.bellActAction = 3) :
    nbit ((m.bellAction act).reg (Reg.intStat (64 + fget act F.bellActTarget % 64))).toNat 0 = true := by
  have listed : intListed (64 + fget act F.bellActTarget % 64) = true := by
    have := Nat.mod_lt (fget act F.bellActTarget) (show 0 < 64 by decide)
    simp only [intListed, Bool.or_eq_true, Bool.and_eq_true, decide_eq_true_eq]
    omega
  simp only [Mach.bellAction, h]
  exact raise_pends _ _ listed

/-! ### The next time of a repeating bell (R60) -/

section
variable {old step rt : Nat} (pos : 0 < step) (due : old ≤ rt)
include pos due

theorem lt_nextRepeat : rt < nextRepeat old step rt := by
  have : rt - old < ((rt - old) / step + 1) * step := (Nat.div_lt_iff_lt_mul pos).mp (Nat.lt_succ_self _)
  unfold nextRepeat
  omega

theorem nextRepeat_le (k : Nat) (later : rt < old + k * step) : nextRepeat old step rt ≤ old + k * step := by
  have : (rt - old) / step < k := (Nat.div_lt_iff_lt_mul pos).mpr (by omega)
  exact Nat.add_le_add_left (Nat.mul_le_mul_right step this) old

end

/-! ### After the firing (R60) -/

@[simp] theorem Mach.ebell_setReg (m : Mach) (a : Nat) (v : Word) (b : Nat) : (m.setReg a v).ebell b = m.ebell b := by
  simp [Mach.ebell]

theorem rt_bellAfter (m : Mach) (b : Nat) : (m.bellAfter b).rt = m.rt := by
  simp only [Mach.bellAfter]
  split_ifs <;> simp [Mach.setFld, Mach.setRt]

/-- The written view changes in the bell's own BELL_ACT, BELL_TSEC and BELL_TFRAC alone. -/
theorem reg_bellAfter (m : Mach) (b : BellId) (a : Nat) (h : 0x22000 ≤ a ∨ a % 4 = 3) :
    (m.bellAfter b).reg a = m.reg a := by
  have apart : Reg.bellAct b ≠ a ∧ Reg.bellTsec b ≠ a ∧ Reg.bellTfrac b ≠ a := by
    have := b.isLt
    simp only [Reg.bellAct, Reg.bellTsec, Reg.bellTfrac]
    omega
  obtain ⟨hact, hsec, hfrac⟩ := apart
  simp only [Mach.bellAfter]
  split_ifs <;> simp [Mach.setFld, Mach.setRt, hact, hsec, hfrac] <;> rfl

theorem ebell_bellAfter_oneShot (m : Mach) (b : Nat) (h : fget (m.ebell b).act F.bellActRepeat = 0) :
    (m.bellAfter b).ebell b = { m.ebell b with act := fset (m.ebell b).act F.bellActArm 0, late := false } := by
  simp only [Mach.bellAfter, if_pos h]
  split_ifs <;> simp [Mach.setFld]

theorem ebell_bellAfter_repeating (m : Mach) (b : Nat) (h : 0 < fget (m.ebell b).act F.bellActRepeat) :
    (m.bellAfter b).ebell b = { m.ebell b with
      time := nextRepeat (m.ebell b).time (fget (m.ebell b).act F.bellActRepeat * 4096) m.rt, late := false } := by
  have put : ∀ (x : EBell) (p : List LWrite),
      ({ m.setEbell b x with ledger := { (m.setEbell b x).ledger with pend := p } } : Mach).ebell b = x := fun x p => by
    simp [Mach.ebell, Mach.setEbell]
  simp only [Mach.bellAfter, if_neg h.ne']
  split_ifs
  · simp only [Mach.setRt, Mach.ebell_setReg]
    exact put _ _
  · exact put _ _

/-! ### The firing (R59) -/

/-- BELL_STAT of a bell that fires: FIRED, and LATE where its time had been passed. -/
def Mach.bellMark (m : Mach) (b : Nat) : Mach :=
  let st := fset (m.reg (Reg.bellStat b)) F.bellStatFired 1
  m.setReg (Reg.bellStat b) (if (m.ebell b).late then fset st F.bellStatLate 1 else st)

/-- The slips that wait for a bell end as it fires (R193). -/
def Mach.bellWake (m : Mach) (b : Nat) : Mach :=
  (m.jobs.filter fun j => j.2.wait = .bell b).foldl (fun x j => x.wakeJob j.1 0 0) m

/-- A bell's firing up to what R60 does after it. -/
def Mach.bellStrike (m : Mach) (b : Nat) : Mach := ((m.bellMark b).bellWake b).bellAction (m.ebell b).act

theorem bellFire_of_due (m : Mach) (b : Nat) (up : m.up = true) (due : m.bellDue b = true)
    (folio : folioOf m.rt = m.openFolio) (lowest : ∀ x ∈ m.ledger.bells, x.1 < b → m.bellDue x.1 = false) :
    m.bellFire b = (m.bellStrike b).bellAfter b := by
  have none_lower : (m.ledger.bells.any fun e => e.1 < b && m.bellDue e.1) = false := by
    simpa [List.any_eq_false] using lowest
  unfold Mach.bellFire
  rw [if_pos (by simp [up, due, folio, none_lower])]
  rfl

theorem bellFire_of_not_due (m : Mach) (b : Nat) (h : m.bellDue b = false) : m.bellFire b = m := by
  simp [Mach.bellFire, h]

theorem exec_bellFire (b : BellId) (s : State) :
    exec (.bellFire b) s = .next { s with toMach := s.toMach.bellFire b } := rfl

theorem time_le_of_bellDue {m : Mach} {b : Nat} (h : m.bellDue b = true) : (m.ebell b).time ≤ m.rt := by
  simp only [Mach.bellDue, Bool.and_eq_true, decide_eq_true_eq] at h
  obtain ⟨⟨-, reached⟩, -⟩ := h
  exact reached

theorem bellMark_fired (m : Mach) (b : Nat) : (m.bellMark b).bit (Reg.bellStat b) F.bellStatFired = true := by
  have fired := fget_fset_self (m.reg (Reg.bellStat b)) F.bellStatFired 1 (by decide)
  simp only [Mach.bit, Mach.bellMark, Mach.reg_setReg, if_true, fbit, decide_eq_true_eq]
  split
  · rw [fget_fset_of_disjoint _ _ _ _ (by decide) (by decide), fired]
    rfl
  · exact fired

theorem bellMark_late (m : Mach) (b : Nat) (h : (m.ebell b).late = true) :
    (m.bellMark b).bit (Reg.bellStat b) F.bellStatLate = true := by
  simp only [Mach.bit, Mach.bellMark, Mach.reg_setReg, if_true, h, fbit, decide_eq_true_eq]
  exact fget_fset_self _ _ _ (by decide)

theorem sameBells_bellWake (m : Mach) (b : Nat) : SameBells m (m.bellWake b) :=
  .foldl (fun x (j : Nat × Job) => x.wakeJob j.1 0 0) (fun x j => sameBells_wakeJob x j.1 0 0 0) _ m

theorem sameBells_bellMark_bellStrike (m : Mach) (b : Nat) : SameBells (m.bellMark b) (m.bellStrike b) :=
  (sameBells_bellWake _ _).trans (sameBells_bellAction _ _)

theorem ebell_bellStrike (m : Mach) (b k : Nat) : (m.bellStrike b).ebell k = m.ebell k := by
  rw [(sameBells_bellMark_bellStrike m b).ebell, Mach.bellMark, Mach.ebell_setReg]

theorem rt_bellStrike (m : Mach) (b : Nat) : (m.bellStrike b).rt = m.rt := by
  rw [(sameBells_bellMark_bellStrike m b).rt, Mach.bellMark, Mach.setReg_rt]

/-- A one-shot is disarmed and a repeating bell's time lies later than RT, so that a bell fires once (R60). -/
theorem bellDue_bellAfter (m : Mach) (b : Nat) (h : (m.ebell b).time ≤ m.rt) : (m.bellAfter b).bellDue b = false := by
  rcases Nat.eq_zero_or_pos (fget (m.ebell b).act F.bellActRepeat) with oneShot | repeating
  · have disarmed := fget_fset_self (m.ebell b).act F.bellActArm 0 (by decide)
    simp [Mach.bellDue, ebell_bellAfter_oneShot m b oneShot, fbit, disarmed]
  · have later := lt_nextRepeat (Nat.mul_pos repeating (show 0 < 4096 by decide)) h
    simp [Mach.bellDue, ebell_bellAfter_repeating m b repeating, rt_bellAfter, later]

/-- Settles O31. The action and the wakings leave the bell table, RT and BELL_STAT alone, so what R60 does next works on the bell
as it was due. -/
theorem bellsFire : Obligations.BellsFire := by
  intro s b m e g n up due folio lowest
  have time := time_le_of_bellDue due
  have fire := bellFire_of_due m b up due folio lowest
  have bell : (m.bellStrike b).ebell b = e := ebell_bellStrike m b b
  have rt : (m.bellStrike b).rt = m.rt := rt_bellStrike m b
  have stat : ((m.bellStrike b).bellAfter b).reg (Reg.bellStat b) = (m.bellMark b).reg (Reg.bellStat b) := by
    rw [reg_bellAfter _ b _ (by simp only [Reg.bellStat]; omega), (sameBells_bellMark_bellStrike m b).stat b]
  have high : ∀ a, 0x22000 ≤ a → ((m.bellStrike b).bellAfter b).reg a = (m.bellStrike b).reg a := fun a h =>
    reg_bellAfter _ b a (.inl h)
  refine ⟨_, exec_bellFire b s, ?_⟩
  rw [fire]
  refine ⟨?_, fun late => ?_, fun opens => ?_, fun closes => ?_, fun raises => ?_, fun oneShot => ?_, fun repeating => ?_, ?_⟩
  · rw [Mach.bit, stat]
    exact bellMark_fired m b
  · rw [Mach.bit, stat]
    exact bellMark_late m b late
  · rw [Mach.fld, high _ (by simp only [Reg.gateStat]; omega), high _ (by simp only [Reg.gateAccepted]; omega),
      high _ (by simp only [Reg.gateClosedref]; omega)]
    exact bellAction_opens_gate _ _ opens
  · rw [Mach.fld, high _ (by simp only [Reg.gateStat]; omega)]
    exact bellAction_closes_gate _ _ closes
  · rw [high _ (by simp only [Reg.intStat]; omega)]
    exact bellAction_raises _ _ raises
  · rw [ebell_bellAfter_oneShot _ _ (by rw [bell]; exact oneShot), bell, fbit, fget_fset_self _ _ _ (by decide)]
    rfl
  · have step : 0 < n * 4096 := Nat.mul_pos repeating (by decide)
    rw [ebell_bellAfter_repeating _ _ (by rw [bell]; exact repeating), bell, rt]
    exact ⟨rfl, lt_nextRepeat step time, ⟨_, Nat.succ_pos _, rfl⟩, fun k _ later => nextRepeat_le step time k later⟩
  · have spent := bellDue_bellAfter (m.bellStrike b) b (by rw [bell, rt]; exact time)
    rw [exec_bellFire, bellFire_of_not_due _ _ spent]

end Sys2Proof.Machine
end

section
/-! PROOFS. The wire (R68 to R78): a frame spelt in octets reads back as itself. -/

namespace Sys2Proof.Machine
open Sys2Proof

/-! ### Numbers as octets -/

@[simp] theorem length_octetsBE (k n : Nat) : (octetsBE k n).length = k := by
  induction k with
  | zero => rfl
  | succ k ih => simp [octetsBE, ih]

theorem natOfOctets_foldl (os : List Octet) (a : Nat) :
    os.foldl (fun a o => a * 256 + o.toNat) a = a * 256 ^ os.length + natOfOctets os := by
  induction os generalizing a with
  | nil => simp [natOfOctets]
  | cons o os ih =>
    simp only [natOfOctets, List.foldl_cons, List.length_cons, ih (a * 256 + o.toNat), ih (0 * 256 + o.toNat)]
    ring

theorem natOfOctets_cons (o : Octet) (os : List Octet) :
    natOfOctets (o :: os) = o.toNat * 256 ^ os.length + natOfOctets os := by
  rw [natOfOctets, List.foldl_cons, natOfOctets_foldl]
  simp

theorem natOfOctets_octetsBE (k n : Nat) : natOfOctets (octetsBE k n) = n % 256 ^ k := by
  induction k with
  | zero => simp [octetsBE, natOfOctets, Nat.mod_one]
  | succ k ih =>
    have pow : 2 ^ (8 * k) = 256 ^ k := pow_mul 2 8 k
    have split : n % 256 ^ (k + 1) = n % 256 ^ k + 256 ^ k * (n / 256 ^ k % 256) := by rw [pow_succ, Nat.mod_mul]
    rw [octetsBE, natOfOctets_cons, ih, length_octetsBE, BitVec.toNat_ofNat, Nat.shiftRight_eq_div_pow, pow, split,
      Nat.add_comm, Nat.mul_comm]

/-! ### Fields of octets -/

/-- A field that stands first. -/
theorem octField_octetsBE (k n : Nat) (rest : List Octet) : octField (octetsBE k n ++ rest) 0 k = n % 256 ^ k := by
  have first : ((octetsBE k n ++ rest).drop 0).take k = octetsBE k n := List.take_left' (by simp)
  rw [octField, first, natOfOctets_octetsBE]

/-- What stands behind a field. -/
theorem drop_octetsBE_append (j n i : Nat) (rest : List Octet) (h : j ≤ i) :
    (octetsBE j n ++ rest).drop i = rest.drop (i - j) := by
  rw [List.drop_append, length_octetsBE, List.drop_of_length_le (by simp [h]), List.nil_append]

theorem octField_append (j n i k : Nat) (rest : List Octet) (h : j ≤ i) :
    octField (octetsBE j n ++ rest) i k = octField rest (i - j) k := by
  rw [octField, octField, drop_octetsBE_append j n i rest h]

/-! ### Items and entries (R73, R76) -/

@[simp] theorem length_octetsOfWords (ws : List Word) : (octetsOfWords ws).length = 6 * ws.length := by
  induction ws with
  | nil => rfl
  | cons w ws ih =>
    rw [octetsOfWords] at ih
    simp only [octetsOfWords, List.flatMap_cons, List.length_append, ih, octetsOfWord, List.length_map, List.length_cons,
      List.length_nil]
    omega

theorem parseItem_itemOctets (i : LcpItem) (rest : List Octet) (h : itemFits i = true) :
    parseItem (itemOctets i ++ rest) = some (i, rest) := by
  simp only [itemFits, LcpItem.fits, Bool.and_eq_true, decide_eq_true_eq] at h
  obtain ⟨⟨⟨⟨⟨id, game⟩, itype⟩, len⟩, body⟩, words⟩ := h
  have bodyLen : ((octetsOfWords i.body).take i.len).length = i.len := by simp; omega
  have itemLen : (itemOctets i).length = 16 + i.len + padOf i.len := by
    simp only [itemOctets, List.length_append, bodyLen, length_octetsBE, List.length_replicate]
  have lenField : octField (itemOctets i ++ rest) 10 2 = i.len := by
    simp [itemOctets, octField_octetsBE, octField_append]; omega
  have kindField : octField (itemOctets i ++ rest) 8 2 = i.game * 16 + i.itype := by
    simp [itemOctets, octField_octetsBE, octField_append]; omega
  have idField : octField (itemOctets i ++ rest) 0 8 = i.id := by
    simp [itemOctets, octField_octetsBE]; omega
  have bodyOcts : ((itemOctets i ++ rest).drop 16).take i.len = (octetsOfWords i.body).take i.len := by
    simp only [itemOctets, List.append_assoc, drop_octetsBE_append, Nat.reduceLeDiff, Nat.reduceSub]
    exact List.take_left' bodyLen
  have fits : ¬ ((itemOctets i ++ rest).length < 16 ∨ 1488 < i.len ∨
      (itemOctets i ++ rest).length < 16 + i.len + padOf i.len) := by
    rw [List.length_append, itemLen]; omega
  have kind : (i.game * 16 + i.itype) / 16 = i.game ∧ (i.game * 16 + i.itype) % 16 = i.itype := by omega
  simp only [parseItem, lenField, kindField, idField, bodyOcts, ← body, kind, List.drop_left' itemLen]
  rw [if_neg (by simpa [or_assoc] using fits)]

theorem parseItems_itemOctets (l : List LcpItem) (rest : List Octet) (h : l.all itemFits = true) :
    parseItems l.length (l.flatMap itemOctets ++ rest) = some (l, rest) := by
  induction l with
  | nil => rfl
  | cons i l ih =>
    simp only [List.all_cons, Bool.and_eq_true] at h
    simp [parseItems, parseItem_itemOctets i _ h.1, ih h.2]

theorem dispOfCode_dispCode (d : Disp) : dispOfCode (dispCode d % 16) = some d := by cases d <;> rfl

theorem dispCode_lt (d : Disp) : dispCode d < 256 := by cases d <;> decide

theorem parseEntry_entryOctets (e : RelEntry) (rest : List Octet) (h : entryFits e = true) :
    parseEntry (entryOctets e ++ rest) = some (e, rest) := by
  simp only [entryFits, Bool.and_eq_true, decide_eq_true_eq] at h
  obtain ⟨⟨⟨id, accn⟩, folio⟩, epoch⟩ := h
  obtain ⟨i, a, o, d, p⟩ := e
  dsimp only at id accn folio epoch
  simp [entryOctets, parseEntry, octField_octetsBE, octField_append, drop_octetsBE_append, dispOfCode_dispCode]
  omega

theorem parseEntries_entryOctets (l : List RelEntry) (rest : List Octet) (h : l.all entryFits = true) :
    parseEntries l.length (l.flatMap entryOctets ++ rest) = some (l, rest) := by
  induction l with
  | nil => rfl
  | cons e l ih =>
    simp only [List.all_cons, Bool.and_eq_true] at h
    simp [parseEntries, parseEntry_entryOctets e _ h.1, ih h.2]

/-! ### The check of a frame (R72) -/

theorem crcBit_lt (c : Nat) (h : c < 2 ^ 32) : crcBit 0x82F63B78 c < 2 ^ 32 := by
  have half : c >>> 1 < 2 ^ 32 := by rw [Nat.shiftRight_eq_div_pow]; omega
  unfold crcBit
  split
  · exact Nat.xor_lt_two_pow half (by decide)
  · exact half

theorem crcBit_iterate_lt (k c : Nat) (h : c < 2 ^ 32) : Nat.iterate (crcBit 0x82F63B78) k c < 2 ^ 32 := by
  induction k generalizing c with
  | zero => exact h
  | succ k ih => exact ih _ (crcBit_lt c h)

theorem crcOctet_foldl_lt (os : List Octet) (c : Nat) (h : c < 2 ^ 32) : os.foldl (crcOctet 0x82F63B78) c < 2 ^ 32 := by
  induction os generalizing c with
  | nil => exact h
  | cons o os ih =>
    have octet : o.toNat < 2 ^ 32 := by have := o.isLt; omega
    exact ih _ (crcBit_iterate_lt 8 _ (Nat.xor_lt_two_pow h octet))

theorem crc32c_lt (os : List Octet) : crc32c os < 2 ^ 32 :=
  Nat.xor_lt_two_pow (crcOctet_foldl_lt os _ (by decide)) (by decide)

/-! ### Bodies and frames (R68 to R78) -/

theorem bodyFits_typ (typ flags : Nat) (b : LcpBody) (h : bodyFits typ flags b = true) : typ < 16 ∧ bodyCount b ≤ 512 := by
  cases b <;> simp [bodyFits, bodyCount] at h ⊢ <;> omega

theorem parseBody_bodyOctets (typ flags : Nat) (b : LcpBody) (rest : List Octet) (h : bodyFits typ flags b = true) :
    parseBody typ flags (bodyCount b) (bodyOctets b ++ rest) = some (b, rest) := by
  cases b with
  | items l =>
    simp only [bodyFits, Bool.and_eq_true, Bool.or_eq_true, decide_eq_true_eq] at h
    obtain ⟨⟨typ, count⟩, fits⟩ := h
    simp [bodyOctets, bodyCount, parseBody, typ, count, parseItems_itemOctets l rest fits]
  | entries l =>
    simp only [bodyFits, Bool.and_eq_true, decide_eq_true_eq] at h
    obtain ⟨⟨rfl, count⟩, fits⟩ := h
    simp [bodyOctets, bodyCount, parseBody, count, parseEntries_entryOctets l rest fits]
  | none =>
    simp only [bodyFits, Bool.or_eq_true, decide_eq_true_eq] at h
    rcases h with rfl | rfl <;> rfl
  | helloReq | helloRsp | nak | epoch | bye | probe =>
    simp [bodyFits] at h
    simp [bodyOctets, bodyCount, parseBody, octField_octetsBE, octField_append, drop_octetsBE_append, h]
    omega

/-- A frame's octets up to its check, which with the padding follows them. -/
theorem lcpOctets_eq (et : Nat) (f : LcpFrame) : ∃ pad, lcpOctets et f =
    octetsBE 6 f.dst ++ (octetsBE 6 f.src ++ (octetsBE 2 et ++
      ((headOctets f ++ bodyOctets f.body) ++ (octetsBE 4 (crc32c (headOctets f ++ bodyOctets f.body)) ++ pad)))) := by
  refine ⟨List.replicate (60 - (octetsBE 6 f.dst ++ octetsBE 6 f.src ++ octetsBE 2 et ++
    (headOctets f ++ bodyOctets f.body) ++ octetsBE 4 (crc32c (headOctets f ++ bodyOctets f.body))).length) 0, ?_⟩
  simp only [lcpOctets, List.append_assoc]

theorem parseHead_lcpOctets (et : Nat) (f : LcpFrame) (h : frameFits f = true) :
    parseHead (lcpOctets et f) = { f with body := .none } := by
  simp only [frameFits, Bool.and_eq_true, decide_eq_true_eq] at h
  obtain ⟨⟨⟨⟨⟨⟨⟨⟨dst, src⟩, flags⟩, session⟩, epoch⟩, seq⟩, cumack⟩, credit⟩, body⟩ := h
  obtain ⟨typ, count⟩ := bodyFits_typ _ _ _ body
  obtain ⟨pad, e⟩ := lcpOctets_eq et f
  have code : (0x10 + f.typ) % 256 % 16 = f.typ := by omega
  simp [e, headOctets, parseHead, octField_octetsBE, octField_append, Nat.mod_eq_of_lt, flags, session, credit, code]
  omega

/-- Settles O36. The header and the body read back, the body leaves the check before it, and the check is that of the octets read. -/
theorem lcpRoundTrip : Obligations.LcpRoundTrip := by
  intro et f h
  have head := parseHead_lcpOctets et f h
  simp only [frameFits, Bool.and_eq_true, decide_eq_true_eq] at h
  obtain ⟨-, fits⟩ := h
  obtain ⟨typ, count⟩ := bodyFits_typ _ _ _ fits
  obtain ⟨pad, e⟩ := lcpOctets_eq et f
  have counted : octField (lcpOctets et f) 32 2 = bodyCount f.body := by
    simp [e, headOctets, octField_octetsBE, octField_append]
    omega
  have body : (lcpOctets et f).drop 34 = bodyOctets f.body ++ (octetsBE 4 (crc32c (headOctets f ++ bodyOctets f.body)) ++ pad) := by
    simp [e, headOctets, drop_octetsBE_append]
  have checked : ((lcpOctets et f).drop 14).take ((lcpOctets et f).length - 14 -
      (octetsBE 4 (crc32c (headOctets f ++ bodyOctets f.body)) ++ pad).length) = headOctets f ++ bodyOctets f.body := by
    rw [e, drop_octetsBE_append _ _ _ _ (by decide), drop_octetsBE_append _ _ _ _ (by decide),
      drop_octetsBE_append _ _ _ _ (by decide)]
    refine List.take_left' ?_
    simp
    omega
  have check := octField_octetsBE 4 (crc32c (headOctets f ++ bodyOctets f.body)) pad
  rw [show 256 ^ 4 = 2 ^ 32 by decide, Nat.mod_eq_of_lt (crc32c_lt _)] at check
  simp only [parseLcp, head, counted, body, parseBody_bodyOctets _ _ _ _ fits, checked, check]
  simp

end Sys2Proof.Machine
end

section
/-! PROOFS. The block as a whole: a step's shape and the state after reset. -/

namespace Sys2Proof.Machine
open Sys2Proof

/-- Settles O55. -/
theorem stepRunsTheFrontCommand : Obligations.StepRunsTheFrontCommand := fun _ _ _ => ⟨rfl, rfl⟩

theorem reset_cont (a : Nat) : State.reset.toMach.cont a = { key := 0, tag := 0, chg := false, pay := 0 } := by
  simp only [Mach.cont, State.reset, contAt, octetAt, tabGet, cellDefault]
  rfl

/-- Settles O57. Memory lists nothing, so every container reads its default octets. -/
theorem resetState : Obligations.ResetState :=
  ⟨reset_reg, rfl, rfl, wf_nil, rfl, rfl, rfl, rfl, rfl, reset_cont⟩

/-- Every command but a stocktake's latch works on the module alone: the queue and the snapshot stay. -/
theorem exec_eq_next_toMach (c : Instr) (s : State) (h : c ≠ .stocktakeLatch) :
    ∃ n, exec c s = .next { s with toMach := n } := by
  cases c
  case stocktakeLatch => exact absurd rfl h
  all_goals exact ⟨_, rfl⟩

theorem exec_stocktakeLatch (s : State) : ∃ n k, exec .stocktakeLatch s = .next { s with toMach := n, snap := k } := by
  change ∃ n k, execStocktakeLatch s = _
  unfold execStocktakeLatch
  split
  · split
    · exact ⟨_, _, rfl⟩
    · exact ⟨s.toMach, s.snap, rfl⟩
  · exact ⟨s.toMach, s.snap, rfl⟩

/-- Settles O56. -/
theorem noCommandStops : Obligations.NoCommandStops := by
  intro s c
  by_cases latch : c = .stocktakeLatch
  · subst latch
    obtain ⟨n, k, e⟩ := exec_stocktakeLatch s
    exact ⟨_, e, rfl, fun h => absurd rfl h⟩
  · obtain ⟨n, e⟩ := exec_eq_next_toMach c s latch
    exact ⟨_, e, rfl, fun _ => rfl⟩

end Sys2Proof.Machine
end

section
/-! PROOFS. An instruction run to its end: what it leaves of its seat, from what its body leaves (R240, R306, R317). -/

namespace Sys2Proof.Machine
open Sys2Proof

/-! ### Cells -/

theorem Arch.cell_setOwn (a : Arch) (n k i : Nat) (v : Word) (hn : n < 32) (hi : i < 32) :
    (a.setOwn n v).cell k i = if k = a.wld + 1 ∧ i = n then v else a.cell k i := by
  rw [Arch.setOwn, Arch.cell_setCell]
  by_cases h : k = a.wld + 1 ∧ i = n
  · rw [if_pos h, if_pos (by omega)]
  · rw [if_neg h, if_neg (by omega)]

/-- Two architected states that differ in the pc, the stacks, the FP report, the performance counters and some cells alone. -/
structure CellsOnly (a b : Arch) (cells : List (Nat × Nat × Word)) : Prop where
  wld : b.wld = a.wld
  waiting : b.waiting = a.waiting
  bar : b.bar = a.bar
  reg : ∀ o, o < 0x15 ∨ 0x18 < o → b.reg o = a.reg o
  cell : ∀ k n, n < 32 → b.cell k n = cellsBut a cells k n

namespace CellsOnly

variable {a b : Arch} {cells : List (Nat × Nat × Word)}

theorem refl (a : Arch) : CellsOnly a a [] := ⟨rfl, rfl, rfl, fun _ _ => rfl, fun _ _ _ => rfl⟩

theorem setCell (h : CellsOnly a b cells) (k n : Nat) (v : Word) (hn : n < 32) :
    CellsOnly a (b.setCell k n v) ((k, n, v) :: cells) := by
  refine ⟨h.wld, h.waiting, h.bar, h.reg, fun c i hi => ?_⟩
  rw [Arch.cell_setCell, h.cell c i hi]
  simp only [cellsBut]
  by_cases e : c = k ∧ i = n
  · rw [if_pos (by omega), if_pos e]
  · rw [if_neg (by omega), if_neg e]

theorem setOwn (h : CellsOnly a b cells) (n : Nat) (v : Word) (hn : n < 32) :
    CellsOnly a (b.setOwn n v) ((a.wld + 1, n, v) :: cells) := by
  rw [Arch.setOwn, h.wld]
  exact h.setCell _ _ _ hn

theorem setStk (h : CellsOnly a b cells) (rs : Bool) (l : List Word) : CellsOnly a (b.setStk rs l) cells := by
  cases rs <;> exact ⟨h.wld, h.waiting, h.bar, h.reg, h.cell⟩

theorem congr (h : CellsOnly a b cells) {cells' : List (Nat × Nat × Word)} (e : ∀ k n, cellsBut a cells k n = cellsBut a cells' k n) :
    CellsOnly a b cells' := ⟨h.wld, h.waiting, h.bar, h.reg, fun k n hn => (h.cell k n hn).trans (e k n)⟩

theorem of_counts (h : CellsOnly a b cells) {c : Arch} (hc : CountsOnly b c) : CellsOnly a c cells :=
  ⟨hc.wld.trans h.wld, hc.waiting.trans h.waiting, hc.bar.trans h.bar, fun o ho => (hc.reg o ho).trans (h.reg o ho),
    fun k n hn => (cell_of_cells hc.cells k n).trans (h.cell k n hn)⟩

/-- Two cells given one after the other, in the other order. -/
theorem swap {k n k' n' : Nat} {v w : Word} (h : CellsOnly a b ((k, n, v) :: (k', n', w) :: cells)) (ne : ¬ (k = k' ∧ n = n')) :
    CellsOnly a b ((k', n', w) :: (k, n, v) :: cells) :=
  h.congr fun c i => by
    simp only [cellsBut]
    split_ifs <;> first | rfl | (exfalso; omega)

/-- A cell given the value it had. -/
theorem drop {k n : Nat} {v : Word} (h : CellsOnly a b ((k, n, v) :: cells)) (same : v = cellsBut a cells k n) :
    CellsOnly a b cells :=
  h.congr fun c i => by
    simp only [cellsBut]
    split_ifs with e
    · obtain ⟨rfl, rfl⟩ := e; exact same
    · rfl

/-- A cell given twice has the later value. -/
theorem dedup {k n : Nat} {v w : Word} (h : CellsOnly a b ((k, n, v) :: (k, n, w) :: cells)) : CellsOnly a b ((k, n, v) :: cells) :=
  h.congr fun c i => by simp only [cellsBut]; split <;> simp_all

end CellsOnly

theorem StackMove.cellsOnly {rs : Bool} {a b : Arch} {l : List Word} {p : Nat} (h : StackMove rs a b l p) :
    CellsOnly a b [(a.wld + 1, ptrCell rs, w48 p)] := ⟨h.wld, h.waiting, h.bar, fun o _ => by rw [Arch.reg, Arch.reg, h.regs], h.cell⟩

/-! ### What a body leaves beside its seat's architected state -/

/-- Nothing that the retirement of an instruction on seat `q` looks at differs beside the seat's architected state. -/
structure Beside (q : Nat) (m n : Mach) : Prop where
  memst : n.memst = m.memst
  reset : (n.seat q).resetReq = (m.seat q).resetReq
  stores : (n.seat q).stores = (m.seat q).stores
  group : (n.seat q).group = (m.seat q).group
  split : n.splitSeat q = m.splitSeat q

namespace Beside

variable {q : Nat} {m n o : Mach}

theorem refl (q : Nat) (m : Mach) : Beside q m m := ⟨rfl, rfl, rfl, rfl, rfl⟩

theorem trans (h : Beside q m n) (g : Beside q n o) : Beside q m o :=
  ⟨g.memst.trans h.memst, g.reset.trans h.reset, g.stores.trans h.stores, g.group.trans h.group, g.split.trans h.split⟩

theorem of_steps (h : ArchSteps q m n) : Beside q m n :=
  ⟨h.contained.memst, h.contained.reset, h.seatStores, h.seatGroup, h.split⟩

theorem of_front (h : SameFront m n) (idle : m.memst.training = none) : Beside q m n :=
  ⟨h.memst idle, h.reset q, h.stores q, h.group q, h.split q⟩

theorem of_counts (h : Counts q m n) : Beside q m n := ⟨h.memst, h.reset, h.stores, h.group, h.split⟩

theorem setArch (q : Nat) (m : Mach) (a : Arch) : Beside q m (m.setArch q a) := of_steps (.step _ _ .refl)

theorem setSeat (q : Nat) (m : Mach) (x : Seat) (reset : x.resetReq = (m.seat q).resetReq) (stores : x.stores = (m.seat q).stores)
    (group : x.group = (m.seat q).group) : Beside q m (m.setSeat q x) := by
  refine ⟨rfl, ?_, ?_, ?_, rfl⟩ <;> simpa using by assumption

theorem contained (h : Beside q m n) : Contained q m n := ⟨h.memst, h.reset⟩

end Beside

/-! ### An instruction run to its end -/

section
variable {s : State} {q len : Nat} {m : Mach}

theorem CanRun.fpYoung (h : CanRun s q len m) {b : Arch} (fp : b.fp = (s.toMach.arch q).fp) : b.fpYoung := fun x hx =>
  h.young x (by rw [← fp]; exact hx)

/-- Where an instruction ends by retiring, the FP report ages, the performance counters count, and nothing else of the seat
changes. -/
theorem CanRun.retires (h : CanRun s q len m) {body : CoreAct Flow} {x : Mach} {act fold : Bool}
    (e : s.toMach.coreEnd q len (s.toMach.arch q).pc (body m) = x.retire q act fold) (hk : Beside q m x)
    (hy : (x.arch q).fpYoung) (hg : act = true → (s.toMach.seat q).stores = []) :
    CountsOnly (x.arch q).aged ((s.toMach.coreRun q len body).arch q) := by
  have room : (act = false ∧ (x.seat q).group < 63 ∧ x.splitSeat q = false) ∨ (x.seat q).stores = [] := by
    rw [hk.group, hk.split, hk.stores]
    cases act with
    | false => exact h.room.imp (fun x => ⟨rfl, x⟩) id
    | true => exact .inr ((h.front.stores q).trans (hg rfl))
  obtain ⟨counts, reset, memst⟩ := retire_keeps x q act fold hy room
  rw [h.coreRun body, e]
  · exact counts
  · rw [e, memst]; exact hk.memst.trans (h.front.memst h.calm.idle.1)
  · rw [e, reset, hk.reset, h.front.reset]; exact h.calm.reset

theorem CanRun.leaves_of_retires (h : CanRun s q len m) {body : CoreAct Flow} {x : Mach} {act fold : Bool} {c : Arch}
    {cells : List (Nat × Nat × Word)}
    (e : s.toMach.coreEnd q len (s.toMach.arch q).pc (body m) = x.retire q act fold) (hk : Beside q m x) (hx : x.arch q = c)
    (hc : CellsOnly (s.toMach.arch q) c cells) (hy : c.fpYoung) (hg : act = true → (s.toMach.seat q).stores = []) :
    Leaves (s.toMach.arch q) ((s.toMach.coreRun q len body).arch q) c.pc c.litk c.ds c.rs c.fp cells := by
  subst hx
  have counts := h.retires e hk hy hg
  have cells := CellsOnly.of_counts (b := (x.arch q).aged) ⟨hc.wld, hc.waiting, hc.bar, hc.reg, hc.cell⟩ counts
  exact ⟨counts.pc, counts.litk, counts.ds, counts.rs, counts.fp, cells.wld, cells.waiting, cells.bar, cells.cell, cells.reg⟩

/-- The architected state with the pc moved past an instruction of `len` syllables (R240). -/
def Arch.advanced (a : Arch) (len : Nat) : Arch :=
  { a with pc := nextPc a.pc len a.litk, litk := if a.pc % 8 + len < 6 then a.litk else 0 }

/-- How a body answers that goes on with the next instruction: with `act` where it ends its group, or never folding (R242). -/
def Flow.goesOn : Flow → Option Bool
  | .next act => some act
  | .solo => some false
  | _ => none

theorem coreEnd_goesOn {f : Flow} {act : Bool} (hf : f.goesOn = some act) (k : Mach) (n : Mach) (pc : Nat) :
    ∃ fold, k.coreEnd q len pc (.ok (f, n)) = (n.advancePc q len).retire q act fold := by
  cases f with
  | next b => cases hf; exact ⟨_, rfl⟩
  | solo => cases hf; exact ⟨_, rfl⟩
  | _ => cases hf

/-- An instruction that goes on with the next one: what its body leaves of the seat, the pc moved on (R240). -/
theorem CanRun.leaves_next (h : CanRun s q len m) {body : CoreAct Flow} {n : Mach} {f : Flow} {act : Bool} {c : Arch}
    {cells : List (Nat × Nat × Word)} (hb : body m = .ok (f, n)) (hf : f.goesOn = some act) (hk : Beside q m n)
    (hn : n.arch q = c) (hc : CellsOnly (s.toMach.arch q) c cells) (hy : c.fpYoung)
    (hg : act = true → (s.toMach.seat q).stores = []) :
    Leaves (s.toMach.arch q) ((s.toMach.coreRun q len body).arch q) (nextPc c.pc len c.litk)
      (if c.pc % 8 + len < 6 then c.litk else 0) c.ds c.rs c.fp cells := by
  obtain ⟨fold, e⟩ := coreEnd_goesOn (q := q) (len := len) hf s.toMach n (s.toMach.arch q).pc
  subst hn
  rw [← hb] at e
  exact h.leaves_of_retires (c := (n.arch q).advanced len) e (hk.trans (Beside.setArch _ _ _)) (by rw [advancePc_arch]; rfl)
    ⟨hc.wld, hc.waiting, hc.bar, hc.reg, hc.cell⟩ hy hg

/-- The same where the body leaves the pc and the FP report as they were. -/
theorem CanRun.inLine (h : CanRun s q len m) {body : CoreAct Flow} {n : Mach} {f : Flow} {act : Bool} {c : Arch}
    {cells : List (Nat × Nat × Word)} (hb : body m = .ok (f, n)) (hf : f.goesOn = some act) (hk : Beside q m n)
    (hn : n.arch q = c) (hc : CellsOnly (s.toMach.arch q) c cells) (pc : c.pc = (s.toMach.arch q).pc)
    (litk : c.litk = (s.toMach.arch q).litk) (fp : c.fp = (s.toMach.arch q).fp)
    (hg : act = true → (s.toMach.seat q).stores = []) :
    InLine (s.toMach.arch q) ((s.toMach.coreRun q len body).arch q) len c.ds c.rs cells := by
  have leaves := h.leaves_next hb hf hk hn hc (h.fpYoung fp) hg
  rw [pc, litk, fp] at leaves
  exact leaves

/-- An instruction that goes on elsewhere. -/
theorem CanRun.leaves_jump (h : CanRun s q len m) {body : CoreAct Flow} {n : Mach} {pc : Nat} {c : Arch}
    {cells : List (Nat × Nat × Word)} (hb : body m = .ok (.jump pc, n)) (hk : Beside q m n) (hn : n.arch q = c)
    (hc : CellsOnly (s.toMach.arch q) c cells) (fp : c.fp = (s.toMach.arch q).fp) :
    Leaves (s.toMach.arch q) ((s.toMach.coreRun q len body).arch q) pc 0 c.ds c.rs (s.toMach.arch q).fp cells := by
  subst hn
  have e : s.toMach.coreEnd q len (s.toMach.arch q).pc (body m) = (n.goTo q pc).retire q false true := by rw [hb]; rfl
  have leaves := h.leaves_of_retires (c := { n.arch q with pc := pc, litk := 0 }) e (hk.trans (Beside.setArch _ _ _))
    (by rw [goTo_arch]) ⟨hc.wld, hc.waiting, hc.bar, hc.reg, hc.cell⟩ (h.fpYoung fp) (fun e => by cases e)
  rw [← fp]
  exact leaves

end

end Sys2Proof.Machine
end

section
/-! PROOFS. Literals, the stack instructions and integer arithmetic (R240, R243 to R250, R259, R260). -/

namespace Sys2Proof.Machine
open Sys2Proof

variable {s : State} {q len : Nat} {m : Mach}

/-! ### Instructions that replace entries of the data stack -/

/-- An instruction that replaces entries of the data stack by what it computes from them, deepest first. -/
theorem dsBody_pure_run (h : CanRun s q len m) (f : List Word → List Word) (top r rest : List Word)
    (hd : (s.toMach.arch q).ds = top ++ rest) (hb : (s.toMach.arch q).stackFault false top.length r.length = none)
    (hroom : r.length + rest.length ≤ 16) (hf : f top.reverse = r.reverse) :
    InLine (s.toMach.arch q) ((s.toMach.coreRun q len (dsBody q top.length r.length fun l => pure (f l))).arch q) len (r ++ rest)
      (s.toMach.arch q).rs [dspIs (s.toMach.arch q) ((s.toMach.arch q).ptr false + r.length - top.length)] :=
  dsBody_run h top.length r.length _ top rest r false false (fun _ => rfl) hd rfl rfl hb hroom fun n => by
    rw [hf]; rfl

/-- The same with one result and V set where `v` holds (R246). -/
theorem dsBody_flag_run (h : CanRun s q len m) (f : List Word → Word × Bool) (top rest : List Word) (r : Word) (v : Bool)
    (hd : (s.toMach.arch q).ds = top ++ rest) (hb : (s.toMach.arch q).stackFault false top.length 1 = none)
    (hroom : rest.length ≤ 15) (hf : f top.reverse = (r, v)) :
    InLine (s.toMach.arch q) ((s.toMach.coreRun q len (dsBody q top.length 1 fun l => do
        let a ← getArch q
        setArch q (a.raiseV (f l).2)
        pure [(f l).1])).arch q) len (r :: rest)
      (s.toMach.arch q).rs (dspIs (s.toMach.arch q) ((s.toMach.arch q).ptr false + 1 - top.length) :: vIs (s.toMach.arch q) v) :=
  dsBody_run h top.length 1 _ top rest [r] true v (fun h => by cases h) hd rfl rfl hb (show 1 + rest.length ≤ 16 by omega) fun n => by
    rw [hf]; rfl

/-- An instruction without an effect goes on with the next one. -/
theorem nop_run (h : CanRun s q len m) :
    InLine (s.toMach.arch q) ((s.toMach.coreRun q len (pure (.next false))).arch q) len (s.toMach.arch q).ds
      (s.toMach.arch q).rs [dspIs (s.toMach.arch q) ((s.toMach.arch q).ptr false)] := by
  have ha := h.arch
  refine InLine.of_move h _ m false _ _ (s.toMach.arch q) [] rfl ?_ ⟨rfl, rfl, rfl, rfl, rfl, rfl, rfl, rfl⟩ (fun _ _ _ => rfl)
    ⟨rfl, rfl⟩ (h.room.imp (fun x => ⟨rfl, x⟩) id)
  rw [ha]
  exact stackMove_refl false _

/-! ### Literals (R243) -/

theorem wordOf_eq_ofInt (i : Int) : wordOf i = BitVec.ofInt 48 i := by
  refine BitVec.eq_of_toNat_eq ?_
  rw [wordOf, unsgn, w48, BitVec.toNat_ofNat, BitVec.toNat_ofInt]
  have := Int.emod_lt_of_pos i (show (0 : Int) < (2 ^ 48 : Nat) by decide)
  exact Nat.mod_eq_of_lt (by omega)

theorem sgn_eq_toInt {w : Nat} (n : BitVec (w + 1)) : sgn (w + 1) n.toNat = n.toInt := by
  have lt := n.isLt
  have half : n.toNat < 2 ^ w ↔ 2 * n.toNat < 2 ^ (w + 1) := by rw [pow_succ]; omega
  rw [sgn, BitVec.toInt_eq_toNat_cond, Nat.mod_eq_of_lt lt, Nat.add_sub_cancel]
  simp only [half]

theorem signExt_eq_signExtend {w : Nat} (n : BitVec (w + 1)) : signExt (w + 1) n.toNat = n.signExtend 48 := by
  rw [signExt, sgn_eq_toInt, BitVec.signExtend, ← wordOf_eq_ofInt, wordOf]

/-! ### Entries in the core (R248, R249) -/

/-- What the operands of a data-stack instruction leave once they are popped (R225, R248). -/
theorem pops_in (q : Nat) (m : Mach) (pops pushes : Nat) (top rest : List Word) (ht : top.length = pops)
    (hd : (m.arch q).ds = top ++ rest) (hb : (m.arch q).stackFault false pops pushes = none) :
    ∃ n, ArchSteps q m n ∧ StackMove false (m.arch q) (n.arch q) rest ((m.arch q).ptr false - pops) ∧
      ∀ f, stackOp q pops pushes f m = (do pushAll q (← f top.reverse) : CoreAct Unit) n := by
  subst ht
  have h0 := stackMove_refl false (m.arch q)
  have lt : (m.arch q).ptr false < 2 ^ 48 := ((m.arch q).own (ptrCell false)).isLt
  rw [show (m.arch q).stk false = top ++ rest from hd] at h0
  have bound := stackFault_bounds _ _ _ _ hb
  obtain ⟨n, hn, hs, hm⟩ := popN_in q top m m (m.arch q) rest _ .refl h0 (by omega) lt
  refine ⟨n, hs, hm, fun f => ?_⟩
  rw [stackOp, coreBind_ok _ _ _ _ _ (stackCheck_ok q false _ pushes m hb), coreBind_ok _ _ _ _ _ hn]

theorem StackMove.own {rs : Bool} {a b : Arch} {l : List Word} {p i : Nat} (h : StackMove rs a b l p) (hi : i < 32)
    (ne : i ≠ ptrCell rs) : b.own i = a.own i := by
  rw [Arch.own, Arch.own, h.wld, h.cell _ _ hi, if_neg (by simp [ne])]

theorem readDepth_in (q d : Nat) (m : Mach) (w : Word) (h : (m.arch q).ds[d]? = some w)
    (hb : ((m.arch q).own 3).toNat + d + 1 ≤ (m.arch q).ptr false) : readDepth q d m = .ok (w, m) := by
  simp only [readDepth, getArch, bind, StateT.bind, Except.bind, if_neg (Nat.not_lt.mpr hb), pure, StateT.pure, Except.pure, h]

theorem writeDepth_in (q d : Nat) (w : Word) (m : Mach) (h : d < (m.arch q).ds.length)
    (hb : ((m.arch q).own 3).toNat + d + 1 ≤ (m.arch q).ptr false) :
    writeDepth q d w m = .ok ((), m.setArch q { m.arch q with ds := (m.arch q).ds.set d w }) := by
  simp only [writeDepth, getArch, setArch, bind, StateT.bind, Except.bind, if_neg (Nat.not_lt.mpr hb), if_pos h]

theorem Arch.ptr_setOwn (a : Arch) (n : Nat) (rs : Bool) (v : Word) (hn : n < 32) (ne : n ≠ ptrCell rs) :
    (a.setOwn n v).ptr rs = a.ptr rs := by
  rw [Arch.ptr, Arch.ptr, Arch.own, Arch.cell_setOwn a n _ _ v hn (ptrCell_lt rs), Arch.setOwn_wld,
    if_neg (by simp [Ne.symm ne])]
  rfl

theorem Arch.ptr_setOwn_self (a : Arch) (rs : Bool) (p : Nat) : (a.setOwn (ptrCell rs) (w48 p)).ptr rs = p % 2 ^ 48 := by
  rw [Arch.ptr, Arch.own, Arch.cell_setOwn a _ _ _ _ (ptrCell_lt rs) (ptrCell_lt rs)]
  simp [w48]

/-- The state after a pop or a push of an entry in the core. -/
def Arch.moved (a : Arch) (rs : Bool) (l : List Word) (p : Nat) : Arch := (a.setStk rs l).setOwn (ptrCell rs) (w48 p)

theorem Arch.moved_stk (a : Arch) (rs : Bool) (l : List Word) (p : Nat) : (a.moved rs l p).stk rs = l := by cases rs <;> rfl

theorem Arch.moved_stk_other (a : Arch) (rs : Bool) (l : List Word) (p : Nat) : (a.moved rs l p).stk (!rs) = a.stk (!rs) := by
  cases rs <;> rfl

theorem Arch.moved_ptr (a : Arch) (rs : Bool) (l : List Word) (p : Nat) : (a.moved rs l p).ptr rs = p % 2 ^ 48 :=
  Arch.ptr_setOwn_self _ _ _

theorem Arch.moved_ptr_other (a : Arch) (rs : Bool) (l : List Word) (p : Nat) : (a.moved rs l p).ptr (!rs) = a.ptr (!rs) := by
  rw [Arch.moved, Arch.ptr_setOwn _ _ _ _ (ptrCell_lt rs) (by cases rs <;> decide)]
  cases rs <;> rfl

theorem CellsOnly.moved {a b : Arch} {cells : List (Nat × Nat × Word)} (h : CellsOnly a b cells) (rs : Bool) (l : List Word)
    (p : Nat) : CellsOnly a (b.moved rs l p) ((a.wld + 1, ptrCell rs, w48 p) :: cells) :=
  (h.setStk rs l).setOwn _ _ (ptrCell_lt rs)

theorem Arch.moved_pc (a : Arch) (rs : Bool) (l : List Word) (p : Nat) : (a.moved rs l p).pc = a.pc := by cases rs <;> rfl
theorem Arch.moved_litk (a : Arch) (rs : Bool) (l : List Word) (p : Nat) : (a.moved rs l p).litk = a.litk := by cases rs <;> rfl
theorem Arch.moved_fp (a : Arch) (rs : Bool) (l : List Word) (p : Nat) : (a.moved rs l p).fp = a.fp := by cases rs <;> rfl

theorem popStk_moved (q : Nat) (rs : Bool) (m : Mach) (a : Arch) (w : Word) (l : List Word) (ha : m.arch q = a)
    (h : a.stk rs = w :: l) : popStk q rs m = .ok (w, m.setArch q (a.moved rs l (a.ptr rs - 1))) := by
  subst ha; exact popStk_in q rs m w l h

theorem pushStk_moved (q : Nat) (rs : Bool) (m : Mach) (a : Arch) (w : Word) (ha : m.arch q = a)
    (h : (a.stk rs).length < 16) : pushStk q rs w m = .ok ((), m.setArch q (a.moved rs (w :: a.stk rs) (a.ptr rs + 1))) := by
  subst ha; exact pushStk_in q rs m w h

theorem Mach.arch_setArch_self (m : Mach) (q : Nat) (a : Arch) : (m.setArch q a).arch q = a := by
  rw [Mach.arch_setArch, if_pos rfl]

section
variable (h : CanRun s q len m)
include h

/-- PICK of an entry in the core. -/
theorem pick_run (d v : Word) (rest : List Word) (hd : (s.toMach.arch q).ds = d :: rest) (hv : rest[d.toNat]? = some v)
    (hb : (s.toMach.arch q).stackFault false 1 1 = none)
    (base : ((s.toMach.arch q).own 3).toNat + d.toNat + 2 ≤ (s.toMach.arch q).ptr false) (room : rest.length ≤ 15) :
    InLine (s.toMach.arch q) ((s.toMach.coreRun q len (pickBody q)).arch q) len (v :: rest) (s.toMach.arch q).rs
      [dspIs (s.toMach.arch q) ((s.toMach.arch q).ptr false)] := by
  have lt : (s.toMach.arch q).ptr false < 2 ^ 48 := ((s.toMach.arch q).own (ptrCell false)).isLt
  rw [← h.arch] at hd hb base lt
  obtain ⟨n, hs, hm, run⟩ := pops_in q m 1 1 [d] rest rfl hd hb
  have read : readDepth q d.toNat n = .ok (v, n) := by
    refine readDepth_in _ _ _ _ ?_ ?_
    · rw [show (n.arch q).ds = rest from hm.stk]; exact hv
    · rw [hm.own (by decide) (by decide), hm.ptr]; omega
  obtain ⟨o, push, hso, hmo⟩ := pushAll_in q [v] m n (m.arch q) rest _ hs hm (by simp; omega) (by simp; omega)
  have body : pickBody q m = .ok (.next false, o) := by
    rw [pickBody, dsBody, coreBind_ok _ _ _ _ _ ((run _).trans ((coreBind_ok _ _ _ _ _ (coreBind_ok _ _ _ _ _ read)).trans push))]
    rfl
  have back : (m.arch q).ptr false - 1 + [v].length = (m.arch q).ptr false := by simp; omega
  rw [back, h.arch] at hmo
  have run := h.inLine body rfl (.of_steps hso) rfl hmo.cellsOnly hmo.pc hmo.litk hmo.fp (fun e => by cases e)
  rwa [show (o.arch q).ds = v :: rest from hmo.stk, show (o.arch q).rs = (s.toMach.arch q).rs from hmo.other] at run

/-- PUT over an entry in the core. -/
theorem put_run (d w : Word) (rest : List Word) (hd : (s.toMach.arch q).ds = d :: w :: rest) (hl : d.toNat < rest.length)
    (hb : (s.toMach.arch q).stackFault false 2 0 = none)
    (base : ((s.toMach.arch q).own 3).toNat + d.toNat + 3 ≤ (s.toMach.arch q).ptr false) :
    InLine (s.toMach.arch q) ((s.toMach.coreRun q len (putBody q)).arch q) len (rest.set d.toNat w) (s.toMach.arch q).rs
      [dspIs (s.toMach.arch q) ((s.toMach.arch q).ptr false - 2)] := by
  have lt : (s.toMach.arch q).ptr false < 2 ^ 48 := ((s.toMach.arch q).own (ptrCell false)).isLt
  rw [← h.arch] at hd hb base lt
  obtain ⟨n, hs, hm, run⟩ := pops_in q m 2 0 [d, w] rest rfl hd hb
  have ds : (n.arch q).ds = rest := hm.stk
  have write : writeDepth q d.toNat w n = .ok ((), n.setArch q { n.arch q with ds := rest.set d.toNat w }) := by
    rw [← ds]
    refine writeDepth_in _ _ _ _ (by rw [ds]; exact hl) ?_
    rw [hm.own (by decide) (by decide), hm.ptr]; omega
  have body : putBody q m = .ok (.next false, n.setArch q { n.arch q with ds := rest.set d.toNat w }) := by
    rw [putBody, dsBody, coreBind_ok _ _ _ _ _ ((run _).trans ((coreBind_ok _ _ _ _ _ (coreBind_ok _ _ _ _ _ write)).trans rfl))]
    rfl
  have cells := hm.cellsOnly
  rw [h.arch] at hm cells
  have run := h.inLine body rfl (.of_steps (.step _ _ hs)) (Mach.arch_setArch_self _ _ _) (cells.setStk false (rest.set d.toNat w))
    hm.pc hm.litk hm.fp (fun e => by cases e)
  rw [← show (n.arch q).rs = (s.toMach.arch q).rs from hm.other]
  exact run

/-- TOR within the core: both stacks pass their checks, then the entry changes stacks. -/
theorem tor_run (w : Word) (rest : List Word) (hd : (s.toMach.arch q).ds = w :: rest)
    (hb : (s.toMach.arch q).stackFault false 1 0 = none) (hr : (s.toMach.arch q).stackFault true 0 1 = none)
    (room : (s.toMach.arch q).rs.length ≤ 15) :
    InLine (s.toMach.arch q) ((s.toMach.coreRun q len (torBody q)).arch q) len rest (w :: (s.toMach.arch q).rs)
      [dspIs (s.toMach.arch q) ((s.toMach.arch q).ptr false - 1), rspIs (s.toMach.arch q) ((s.toMach.arch q).ptr true + 1)] := by
  have ha := h.arch
  let a := s.toMach.arch q
  let b := a.moved false rest (a.ptr false - 1)
  let c := b.moved true (w :: a.rs) (a.ptr true + 1)
  have brs : b.stk true = a.rs := a.moved_stk_other false _ _
  have bptr : b.ptr true = a.ptr true := a.moved_ptr_other false _ _
  have pop := popStk_moved q false m a w rest ha hd
  have push := pushStk_moved q true (m.setArch q b) b w (Mach.arch_setArch_self _ _ _) (by rw [brs]; exact Nat.lt_succ_of_le room)
  rw [brs, bptr] at push
  have body : torBody q m = .ok (.next false, (m.setArch q b).setArch q c) := by
    rw [torBody, coreBind_ok _ _ _ _ _ (stackCheck_ok q false 1 0 m (by rw [ha]; exact hb)),
      coreBind_ok _ _ _ _ _ (stackCheck_ok q true 0 1 m (by rw [ha]; exact hr)), coreBind_ok _ _ _ _ _ pop,
      coreBind_ok _ _ _ _ _ push]
    rfl
  exact h.inLine body rfl (.of_steps (.step _ _ (.step _ _ .refl))) (Mach.arch_setArch_self _ _ _)
    ((((CellsOnly.refl a).moved false _ _).moved true _ _).swap (fun e => by cases e.2)) rfl rfl rfl (fun e => by cases e)

/-- FROMR within the core. -/
theorem fromr_run (w : Word) (rest : List Word) (hr : (s.toMach.arch q).rs = w :: rest)
    (hb : (s.toMach.arch q).stackFault false 0 1 = none) (hf : (s.toMach.arch q).stackFault true 1 0 = none)
    (room : (s.toMach.arch q).ds.length ≤ 15) :
    InLine (s.toMach.arch q) ((s.toMach.coreRun q len (fromrBody q)).arch q) len (w :: (s.toMach.arch q).ds) rest
      [dspIs (s.toMach.arch q) ((s.toMach.arch q).ptr false + 1), rspIs (s.toMach.arch q) ((s.toMach.arch q).ptr true - 1)] := by
  have ha := h.arch
  let a := s.toMach.arch q
  let b := a.moved true rest (a.ptr true - 1)
  let c := b.moved false (w :: a.ds) (a.ptr false + 1)
  have bds : b.stk false = a.ds := a.moved_stk_other true _ _
  have bptr : b.ptr false = a.ptr false := a.moved_ptr_other true _ _
  have pop := popStk_moved q true m a w rest ha hr
  have push := pushStk_moved q false (m.setArch q b) b w (Mach.arch_setArch_self _ _ _) (by rw [bds]; exact Nat.lt_succ_of_le room)
  rw [bds, bptr] at push
  have body : fromrBody q m = .ok (.next false, (m.setArch q b).setArch q c) := by
    rw [fromrBody, coreBind_ok _ _ _ _ _ (stackCheck_ok q false 0 1 m (by rw [ha]; exact hb)),
      coreBind_ok _ _ _ _ _ (stackCheck_ok q true 1 0 m (by rw [ha]; exact hf)), coreBind_ok _ _ _ _ _ pop,
      coreBind_ok _ _ _ _ _ push]
    rfl
  exact h.inLine body rfl (.of_steps (.step _ _ (.step _ _ .refl))) (Mach.arch_setArch_self _ _ _)
    (((CellsOnly.refl a).moved true _ _).moved false _ _) rfl rfl rfl (fun e => by cases e)

/-- PEEKR within the core: the return stack's top is popped and pushed again. -/
theorem peekr_run (w : Word) (rest : List Word) (hr : (s.toMach.arch q).rs = w :: rest)
    (hb : (s.toMach.arch q).stackFault false 0 1 = none) (hf : (s.toMach.arch q).stackFault true 1 1 = none)
    (room : (s.toMach.arch q).ds.length ≤ 15) (roomR : rest.length ≤ 15) :
    InLine (s.toMach.arch q) ((s.toMach.coreRun q len (peekrBody q)).arch q) len (w :: (s.toMach.arch q).ds) (w :: rest)
      [dspIs (s.toMach.arch q) ((s.toMach.arch q).ptr false + 1)] := by
  have ha := h.arch
  let a := s.toMach.arch q
  have lt : a.ptr true < 2 ^ 48 := (a.own (ptrCell true)).isLt
  have pos : 1 ≤ a.ptr true := by have := stackFault_bounds a _ _ _ hf; omega
  let b := a.moved true rest (a.ptr true - 1)
  let c := b.moved true (w :: rest) (a.ptr true)
  let d := c.moved false (w :: a.ds) (a.ptr false + 1)
  have brs : b.stk true = rest := a.moved_stk true _ _
  have bptr : b.ptr true + 1 = a.ptr true := by rw [show b.ptr true = _ from a.moved_ptr true _ _]; omega
  have cds : c.stk false = a.ds := (b.moved_stk_other true _ _).trans (a.moved_stk_other true _ _)
  have cptr : c.ptr false = a.ptr false := (b.moved_ptr_other true _ _).trans (a.moved_ptr_other true _ _)
  have pop := popStk_moved q true m a w rest ha hr
  have back := pushStk_moved q true (m.setArch q b) b w (Mach.arch_setArch_self _ _ _) (by rw [brs]; exact Nat.lt_succ_of_le roomR)
  rw [brs, bptr] at back
  have push := pushStk_moved q false ((m.setArch q b).setArch q c) c w (Mach.arch_setArch_self _ _ _)
    (by rw [cds]; exact Nat.lt_succ_of_le room)
  rw [cds, cptr] at push
  have body : peekrBody q m = .ok (.next false, ((m.setArch q b).setArch q c).setArch q d) := by
    rw [peekrBody, coreBind_ok _ _ _ _ _ (stackCheck_ok q false 0 1 m (by rw [ha]; exact hb)),
      coreBind_ok _ _ _ _ _ (stackCheck_ok q true 1 1 m (by rw [ha]; exact hf)), coreBind_ok _ _ _ _ _ pop,
      coreBind_ok _ _ _ _ _ back, coreBind_ok _ _ _ _ _ push]
    rfl
  have cells : CellsOnly a c [] := (((CellsOnly.refl a).moved true _ _).moved true _ _).dedup.drop (w48_ptr a true)
  exact h.inLine body rfl (.of_steps (.step _ _ (.step _ _ (.step _ _ .refl)))) (Mach.arch_setArch_self _ _ _)
    (cells.moved false _ _) rfl rfl rfl (fun e => by cases e)

/-- LITW: the literal word is fetched as the core fetches a word, and its instruction word has consumed one more. -/
theorem litw_run (w : Word) (n : Mach) (hb : (s.toMach.arch q).stackFault false 0 1 = none)
    (room : (s.toMach.arch q).ds.length ≤ 15)
    (fetch : fetchWord q (((s.toMach.arch q).pc / 8 + 1 + (s.toMach.arch q).litk) % 2 ^ 40 * 8) m = .ok (w, n)) :
    Leaves (s.toMach.arch q) ((s.toMach.coreRun q len (litwBody q)).arch q)
      (nextPc (s.toMach.arch q).pc len ((s.toMach.arch q).litk + 1))
      (if (s.toMach.arch q).pc % 8 + len < 6 then (s.toMach.arch q).litk + 1 else 0) (w :: (s.toMach.arch q).ds)
      (s.toMach.arch q).rs (s.toMach.arch q).fp [dspIs (s.toMach.arch q) ((s.toMach.arch q).ptr false + 1)] := by
  have ha := h.arch
  let a := s.toMach.arch q
  have groups : m.grpState 0 ≠ 2 ∧ m.grpState 1 ≠ 2 := by rw [h.front.grpState, h.front.grpState]; exact h.calm.groups
  have front := sameFront_fetchWord _ _ _ _ _ groups fetch
  have idle : m.memst.training = none := by rw [h.front.memst h.calm.idle.1]; exact h.calm.idle.1
  let o := n.setSeat q { n.seat q with word := some (a.pc / 8) }
  have oa : o.arch q = a := by simp [o, Mach.arch]; exact (front.arch q).trans ha
  let b : Arch := { a with litk := a.litk + 1 }
  have push := pushStk_moved q false (o.setArch q b) b w (Mach.arch_setArch_self _ _ _) (Nat.lt_succ_of_le room)
  have beside : Beside q m ((o.setArch q b).setArch q (b.moved false (w :: a.ds) (a.ptr false + 1))) :=
    (Beside.of_front front idle).trans ((Beside.setSeat q n { n.seat q with word := some (a.pc / 8) } rfl rfl rfl).trans
      ((Beside.setArch _ _ _).trans (Beside.setArch _ _ _)))
  have body : litwBody q m =
      .ok (.next false, (o.setArch q b).setArch q (b.moved false (w :: a.ds) (a.ptr false + 1))) := by
    have check := stackCheck_ok q false 0 1 m (by rw [ha]; exact hb)
    have get : ∀ x : Mach, x.arch q = a → getArch q x = .ok (a, x) := fun x hx => by rw [getArch, hx]
    rw [litwBody, dsBody]
    refine coreBind_ok _ _ _ _ _ ((coreBind_ok _ _ _ _ _ check).trans ((coreBind_ok _ _ m m [] rfl).trans
      ((coreBind_ok _ _ _ (o.setArch q b) [w] ?_).trans ((coreBind_ok _ _ _ _ _ push).trans rfl))))
    exact (coreBind_ok _ _ _ _ _ (get m ha)).trans ((coreBind_ok _ _ _ _ _ fetch).trans ((coreBind_ok _ _ n o () rfl).trans
      ((coreBind_ok _ _ _ _ _ (get o oa)).trans ((coreBind_ok _ _ o (o.setArch q b) () rfl).trans rfl))))
  have cells : CellsOnly a b [] := ⟨rfl, rfl, rfl, fun _ _ => rfl, fun _ _ _ => rfl⟩
  exact h.leaves_next body rfl beside (Mach.arch_setArch_self _ _ _) (cells.moved false _ _) (h.fpYoung rfl) (fun e => by cases e)

end

/-- Settles O1. -/
theorem literalAndStackResults : Obligations.LiteralAndStackResults := by
  refine ⟨fun s q m n6 n8 n16 n24 x y z rest => ?_, fun s q m d w rest h => ⟨?_, ?_, ?_, ?_, ?_, ?_⟩⟩
  · simp only [List.forall_mem_cons, List.not_mem_nil, false_implies, implies_true, and_true]
    refine ⟨?_, ?_, ?_, ?_, ?_, ?_, ?_, ?_, ?_, ?_, ?_, ?_⟩ <;> intro h hd hb hr <;> refine ⟨_, rfl, ?_⟩
    · exact dsBody_pure_run h (fun _ => [_]) [] [_] rest hd hb hr rfl
    · exact dsBody_pure_run h (fun _ => [_]) [] [_] rest hd hb hr (by rw [signExt_eq_signExtend (w := 7) n8]; rfl)
    · exact dsBody_pure_run h (fun _ => [_]) [] [_] rest hd hb hr (by rw [signExt_eq_signExtend (w := 15) n16]; rfl)
    · exact dsBody_pure_run h (fun _ => [_]) [] [_] rest hd hb hr (by rw [signExt_eq_signExtend (w := 23) n24]; rfl)
    · simpa [hd] using nop_run h
    · exact dsBody_pure_run h _ [x] [x, x] rest hd hb hr rfl
    · exact dsBody_pure_run h (fun _ => []) [x] [] rest hd hb hr rfl
    · exact dsBody_pure_run h _ [x, y] [y, x] rest hd hb hr rfl
    · exact dsBody_pure_run h _ [x, y] [y, x, y] rest hd hb hr rfl
    · exact dsBody_pure_run h _ [x, y, z] [z, x, y] rest hd hb hr rfl
    · exact dsBody_pure_run h _ [x, y] [x] rest hd hb hr rfl
    · exact dsBody_pure_run h _ [x, y] [x, y, x] rest hd hb hr rfl
  · intro v hd hv hb base room
    exact ⟨_, rfl, pick_run h d v rest hd hv hb base room⟩
  · intro hd hl hb base
    exact ⟨_, rfl, put_run h d w rest hd hl hb base⟩
  · intro hd hb hr room
    exact ⟨_, rfl, tor_run h w rest hd hb hr room⟩
  · intro hr hb hf room
    exact ⟨_, rfl, fromr_run h w rest hr hb hf room⟩
  · intro hr hb hf room roomR
    exact ⟨_, rfl, peekr_run h w rest hr hb hf room roomR⟩
  · intro n hb room fetch
    exact ⟨_, rfl, litw_run h w n hb room fetch⟩

end Sys2Proof.Machine
end

section
/-! PROOFS. Integer arithmetic (R245, R246, R250, R259, R260). -/

namespace Sys2Proof.Machine
open Sys2Proof

/-! ### Results and V -/

theorem outOfRange_eq_decide (i : Int) : outOfRange i = decide (i < -(2 ^ 47) ∨ 2 ^ 47 ≤ i) := by
  simp [outOfRange]

theorem outOfRange_neg (b : Word) : outOfRange (-b.toInt) = decide (b = 2 ^ 47) := by
  have lo := b.le_toInt
  have hi := b.toInt_lt
  have h : b = 2 ^ 47 ↔ b.toInt = -(2 ^ 47) := by rw [← BitVec.toInt_inj]; rfl
  rw [outOfRange_eq_decide, decide_eq_decide, h]
  omega

theorem highOf_eq_ofInt (i : Int) : highOf i = BitVec.ofInt 48 (i / 2 ^ 48) := by
  refine BitVec.eq_of_toNat_eq ?_
  rw [highOf, unsgn, w48, BitVec.toNat_ofNat, BitVec.toNat_ofInt]
  omega

theorem w48_toNat (w : Word) : w48 w.toNat = w := by simp [w48]

theorem truth_eq (c : Bool) : truth c = if c then BitVec.allOnes 48 else 0 := by cases c <;> rfl

/-! ### Shifts (R250) -/

theorem shlWord_eq (a n : Word) : shlWord a n = a <<< n.toNat := by
  unfold shlWord
  split
  · rw [BitVec.shiftLeft_eq_zero (by assumption)]; rfl
  · refine BitVec.eq_of_toNat_eq ?_
    rw [w48, BitVec.toNat_ofNat, BitVec.toNat_shiftLeft, Nat.shiftLeft_eq]

theorem shrlWord_eq (a n : Word) : shrlWord a n = a >>> n.toNat := by
  unfold shrlWord
  split
  · rw [BitVec.ushiftRight_eq_zero (by assumption)]; rfl
  · refine BitVec.eq_of_toNat_eq ?_
    have := Nat.div_le_self a.toNat (2 ^ n.toNat)
    rw [w48, BitVec.toNat_ofNat, BitVec.toNat_ushiftRight, Nat.shiftRight_eq_div_pow, Nat.mod_eq_of_lt (by omega)]

/-- An arithmetic shift by 47 or more leaves the sign alone. -/
theorem toInt_div_two_pow (a : Word) (k : Nat) (h : 47 ≤ k) : a.toInt / (2 ^ k : Nat) = if a.toInt < 0 then -1 else 0 := by
  have lo := a.le_toInt
  have hi := a.toInt_lt
  have big : (2 : Int) ^ 47 ≤ (2 ^ k : Nat) := by exact_mod_cast Nat.pow_le_pow_right (by decide) h
  split
  · rw [Int.ediv_eq_iff_of_pos (by omega)]; omega
  · exact Int.ediv_eq_zero_of_lt (by omega) (by omega)

theorem shraWord_eq (a n : Word) : shraWord a n = a.sshiftRight n.toNat := by
  rw [shraWord, wordOf_eq_ofInt, BitVec.sshiftRight, Int.shiftRight_eq_div_pow]
  congr 1
  rcases Nat.le_total n.toNat 47 with h | h
  · rw [Nat.min_eq_left h]
  · rw [Nat.min_eq_right h, toInt_div_two_pow a _ (le_refl 47), toInt_div_two_pow a _ h]

theorem rolWord_eq (a n : Word) : rolWord a n = a.rotateLeft n.toNat := by
  have lt := a.isLt
  have small : n.toNat % 48 < 48 := Nat.mod_lt _ (by decide)
  refine BitVec.eq_of_toNat_eq ?_
  rw [rolWord, w48, BitVec.toNat_ofNat, BitVec.toNat_rotateLeft, Nat.shiftLeft_eq, Nat.shiftRight_eq_div_pow]
  generalize n.toNat % 48 = k at small
  have cut : 2 ^ 48 = 2 ^ k * 2 ^ (48 - k) := by rw [← pow_add]; congr 1; omega
  have low : a.toNat / 2 ^ (48 - k) < 2 ^ k := by
    rw [Nat.div_lt_iff_lt_mul (by positivity), ← cut]; exact lt
  have high : a.toNat * 2 ^ k % 2 ^ 48 = 2 ^ k * (a.toNat % 2 ^ (48 - k)) := by
    rw [Nat.mul_comm, cut, Nat.mul_mod_mul_left]
  have fits : 2 ^ k * (a.toNat % 2 ^ (48 - k)) + a.toNat / 2 ^ (48 - k) < 2 ^ 48 := by
    rw [cut]
    calc 2 ^ k * (a.toNat % 2 ^ (48 - k)) + a.toNat / 2 ^ (48 - k)
        < 2 ^ k * (a.toNat % 2 ^ (48 - k)) + 2 ^ k := by omega
      _ = 2 ^ k * (a.toNat % 2 ^ (48 - k) + 1) := by ring
      _ ≤ 2 ^ k * 2 ^ (48 - k) := Nat.mul_le_mul_left _ (Nat.mod_lt _ (by positivity))
  rw [high, ← Nat.two_pow_add_eq_or_of_lt low, Nat.add_mod, high, Nat.mod_eq_of_lt (a := a.toNat / _) (by omega),
    Nat.mod_eq_of_lt fits]

/-! ### Division (R260) -/

theorem outOfRange_tdiv (a b : Word) (h : b ≠ 0) :
    outOfRange (a.toInt.tdiv b.toInt) = decide (a = BitVec.intMin 48 ∧ b = BitVec.allOnes 48) := by
  have la := a.le_toInt
  have ha := a.toInt_lt
  have nz : b.toInt ≠ 0 := fun e => h (BitVec.eq_of_toInt_eq e)
  have ia : a = BitVec.intMin 48 ↔ a.toInt = -(2 ^ 47) := by rw [← BitVec.toInt_inj]; rfl
  have ib : b = BitVec.allOnes 48 ↔ b.toInt = -1 := by rw [← BitVec.toInt_inj]; rfl
  have size : (a.toInt.tdiv b.toInt).natAbs = a.toInt.natAbs / b.toInt.natAbs := Int.natAbs_tdiv _ _
  rw [outOfRange_eq_decide, decide_eq_decide, ia, ib]
  generalize a.toInt = x at *
  generalize b.toInt = y at *
  constructor
  · intro out
    have whole : 2 ^ 47 ≤ x.natAbs / y.natAbs := by omega
    have unit : y.natAbs = 1 := by
      by_contra ne
      have : x.natAbs / y.natAbs ≤ x.natAbs / 2 := Nat.div_le_div_left (by omega) (by decide)
      omega
    rcases Int.natAbs_eq_iff.mp unit with rfl | rfl
    · rw [show ((1 : Nat) : Int) = 1 from rfl, Int.tdiv_one] at out; omega
    · rw [show -((1 : Nat) : Int) = -1 from rfl, Int.tdiv_neg, Int.tdiv_one] at out; omega
  · rintro ⟨rfl, rfl⟩
    right; decide

section
variable {s : State} {q len : Nat} {m : Mach}

theorem oneBody_run (h : CanRun s q len m) (f : Word → Word) (b : Word) (rest : List Word) (r : Word)
    (hd : (s.toMach.arch q).ds = b :: rest) (hb : (s.toMach.arch q).stackFault false 1 1 = none)
    (room : rest.length ≤ 15) (hf : f b = r) :
    InLine (s.toMach.arch q) ((s.toMach.coreRun q len (oneBody q f)).arch q) len (r :: rest)
      (s.toMach.arch q).rs [dspIs (s.toMach.arch q) ((s.toMach.arch q).ptr false + 1 - 1)] :=
  dsBody_pure_run h (fun l => [f (l.getD 0 0)]) [b] [r] rest hd hb (show 1 + rest.length ≤ 16 by omega) (by rw [← hf]; rfl)

theorem twoBody_run (h : CanRun s q len m) (f : Word → Word → Word) (a b : Word) (rest : List Word) (r : Word)
    (hd : (s.toMach.arch q).ds = b :: a :: rest) (hb : (s.toMach.arch q).stackFault false 2 1 = none)
    (room : rest.length ≤ 15) (hf : f a b = r) :
    InLine (s.toMach.arch q) ((s.toMach.coreRun q len (twoBody q f)).arch q) len (r :: rest)
      (s.toMach.arch q).rs [dspIs (s.toMach.arch q) ((s.toMach.arch q).ptr false + 1 - 2)] :=
  dsBody_pure_run h (fun l => [f (l.getD 0 0) (l.getD 1 0)]) [b, a] [r] rest hd hb (show 1 + rest.length ≤ 16 by omega)
    (by rw [← hf]; rfl)

theorem divBody_run (h : CanRun s q len m) (f : Word → Word → Word × Bool) (a b : Word) (rest : List Word) (r : Word) (v : Bool)
    (hz : b ≠ 0) (hd : (s.toMach.arch q).ds = b :: a :: rest) (hb : (s.toMach.arch q).stackFault false 2 1 = none)
    (room : rest.length ≤ 15) (hf : f a b = (r, v)) :
    InLine (s.toMach.arch q) ((s.toMach.coreRun q len (divBody q f)).arch q) len (r :: rest)
      (s.toMach.arch q).rs (dspIs (s.toMach.arch q) ((s.toMach.arch q).ptr false - 1) :: vIs (s.toMach.arch q) v) :=
  dsBody_run h 2 1 _ [b, a] rest [r] true v (fun h => by cases h) hd rfl rfl hb (show 1 + rest.length ≤ 16 by omega) fun n => by
    obtain ⟨rfl, rfl⟩ := Prod.ext_iff.mp hf
    exact (congrFun (if_neg hz) n).trans rfl

end

/-- Settles O2. -/
theorem integerResults : Obligations.IntegerResults := by
  refine ⟨fun s q m a b rest => ?_, fun s q m a b rest hz => ?_⟩
  · simp only [List.forall_mem_cons, List.not_mem_nil, false_implies, implies_true, and_true]
    refine ⟨?_, ?_, ?_, ?_, ?_, ?_, ?_, ?_, ?_, ?_, ?_, ?_, ?_, ?_, ?_, ?_, ?_, ?_⟩ <;> intro h hd hb hr <;> refine ⟨_, rfl, ?_⟩
    · exact dsBody_flag_run h _ [b, a] rest _ _ hd hb hr (by rw [← outOfRange_eq_decide]; rfl)
    · exact dsBody_flag_run h _ [b, a] rest _ _ hd hb hr (by rw [← outOfRange_eq_decide]; rfl)
    · exact dsBody_flag_run h (fun l => (-(l.getD 0 0), decide (l.getD 0 0 = 2 ^ 47))) [b] rest _ _ hd hb hr
        (by rw [← outOfRange_eq_decide, outOfRange_neg]; rfl)
    · exact dsBody_flag_run h _ [b, a] rest _ _ hd hb hr (by rw [← outOfRange_eq_decide]; rfl)
    · exact twoBody_run h _ a b rest _ hd hb hr (highOf_eq_ofInt _)
    · exact twoBody_run h _ a b rest _ hd hb hr rfl
    · exact twoBody_run h _ a b rest _ hd hb hr rfl
    · exact twoBody_run h _ a b rest _ hd hb hr rfl
    · exact twoBody_run h _ a b rest _ hd hb hr rfl
    · exact oneBody_run h _ b rest _ hd hb hr rfl
    · exact twoBody_run h _ a b rest _ hd hb hr (shlWord_eq a b)
    · exact twoBody_run h _ a b rest _ hd hb hr (shrlWord_eq a b)
    · exact twoBody_run h _ a b rest _ hd hb hr (shraWord_eq a b)
    · exact twoBody_run h _ a b rest _ hd hb hr (rolWord_eq a b)
    · exact twoBody_run h _ a b rest _ hd hb hr (truth_eq (a == b))
    · exact twoBody_run h _ a b rest _ hd hb hr (truth_eq (a.slt b))
    · exact twoBody_run h _ a b rest _ hd hb hr (truth_eq (a.ult b))
    · exact oneBody_run h _ b rest _ hd hb hr (truth_eq (b == 0#48))
  · simp only [List.forall_mem_cons, List.not_mem_nil, false_implies, implies_true, and_true]
    refine ⟨?_, ?_, ?_, ?_⟩ <;> intro h hd hb hr <;> refine ⟨_, rfl, ?_⟩
    · exact divBody_run h _ a b rest _ _ hz hd hb hr (Prod.ext (wordOf_eq_ofInt _) (outOfRange_tdiv a b hz))
    · exact divBody_run h _ a b rest _ _ hz hd hb hr (Prod.ext (w48_toNat (a / b)) rfl)
    · exact divBody_run h _ a b rest _ _ hz hd hb hr (Prod.ext (wordOf_eq_ofInt _) rfl)
    · exact divBody_run h _ a b rest _ _ hz hd hb hr (Prod.ext (w48_toNat (a % b)) rfl)

end Sys2Proof.Machine
end

section
/-! PROOFS. Branches, calls and control cells (R226 to R228, R240, R241, R254, R255). -/

namespace Sys2Proof.Machine
open Sys2Proof

variable {s : State} {q len : Nat} {m : Mach}

/-! ### What prediction and counting change -/

/-- Nothing that seat `q` computes with differs: its performance counters, what its unit caches and predicts, and what other
units hold may. -/
structure Aside (q : Nat) (m n : Mach) : Prop where
  beside : Beside q m n
  counts : CountsOnly (m.arch q) (n.arch q)
  regs : n.regs = m.regs
  ledger : n.ledger = m.ledger

/-- No group is BROKEN and no device is in training: memory answers at once (R329, R330). -/
def Mach.Quiet (m : Mach) : Prop := (m.grpState 0 ≠ 2 ∧ m.grpState 1 ≠ 2) ∧ m.memst.training = none

namespace Aside

variable {m n o : Mach}

theorem refl (q : Nat) (m : Mach) : Aside q m m := ⟨.refl _ _, .refl _, rfl, rfl⟩

theorem trans (h : Aside q m n) (g : Aside q n o) : Aside q m o :=
  ⟨h.beside.trans g.beside, h.counts.trans g.counts, g.regs.trans h.regs, g.ledger.trans h.ledger⟩

theorem of_front (h : SameFront m n) (idle : m.memst.training = none) : Aside q m n :=
  ⟨.of_front h idle, .of_eq (h.arch q), h.regs, h.ledger⟩

theorem of_counts (h : Counts q m n) : Aside q m n := ⟨.of_counts h, h.arch, h.regs, h.ledger⟩

theorem setSeat (q : Nat) (m : Mach) (x : Seat) (arch : x.arch = m.arch q) (reset : x.resetReq = (m.seat q).resetReq)
    (stores : x.stores = (m.seat q).stores) (group : x.group = (m.seat q).group) : Aside q m (m.setSeat q x) :=
  ⟨.setSeat q m x reset stores group, .of_eq (by simpa [Mach.arch] using arch), rfl, rfl⟩

theorem quiet (h : Aside q m n) (hq : m.Quiet) : n.Quiet := by
  have grp : ∀ g, n.grpState g = m.grpState g := fun g => by
    rw [Mach.grpState, Mach.grpState, Mach.fld, Mach.fld, Mach.reg, Mach.reg, h.regs, h.ledger]
  exact ⟨by rw [grp, grp]; exact hq.1, by rw [h.beside.memst]; exact hq.2⟩

end Aside

theorem aside_wrongFetch (m : Mach) (q : Nat) (hq : m.Quiet) : Aside q m (m.wrongFetch q) := by
  have draw : Aside q m m.draw.2 := .of_counts (counts_draw q m)
  unfold Mach.wrongFetch
  simp only []
  split
  · rename_i w n e
    have quiet := draw.quiet hq
    have front := sameFront_fetchWord _ _ _ _ _ quiet.1 e
    exact draw.trans (.of_front (front.trans (.setSeat _ _ _ rfl)) quiet.2)
  · exact draw

theorem aside_wrongFetches (q k : Nat) (m : Mach) (hq : m.Quiet) : Aside q m (Mach.wrongFetches q k m) := by
  induction k generalizing m with
  | zero => exact .refl q m
  | succ k ih =>
    have one := aside_wrongFetch m q hq
    exact one.trans (ih _ (one.quiet hq))

theorem aside_wrongPath (m : Mach) (q : Nat) (hq : m.Quiet) : Aside q m (m.wrongPath q) := by
  have draw : Aside q m m.draw.2 := .of_counts (counts_draw q m)
  unfold Mach.wrongPath
  split
  · exact .refl q m
  · exact draw.trans ((aside_wrongFetches q _ _ (draw.quiet hq)).trans (.of_counts (counts_nsRetire _ q)))

theorem aside_pmc (m : Mach) (q ev n : Nat) : Aside q m (m.pmc q ev n) := .of_counts (counts_pmc m q ev n)

theorem condBranch_keeps (s : Seat) (lin : Nat) (taken : Bool) : ((s.condBranch lin taken).2.arch = s.arch ∧
    (s.condBranch lin taken).2.resetReq = s.resetReq) ∧ (s.condBranch lin taken).2.stores = s.stores ∧
    (s.condBranch lin taken).2.group = s.group := by
  unfold Seat.condBranch
  split
  · exact ⟨⟨rfl, rfl⟩, rfl, rfl⟩
  · split <;> exact ⟨⟨rfl, rfl⟩, rfl, rfl⟩

theorem aside_condRetire (m : Mach) (q lin : Nat) (taken : Bool) (hq : m.Quiet) : Aside q m (m.condRetire q lin taken) := by
  obtain ⟨⟨arch, reset⟩, stores, group⟩ := condBranch_keeps (m.seat q) lin taken
  have counted := (Aside.setSeat q m _ arch reset stores group).trans (aside_pmc _ q 0x04 1)
  unfold Mach.condRetire
  simp only []
  split
  · exact counted.trans ((aside_pmc _ q 0x05 1).trans (aside_wrongPath _ q ((aside_pmc _ q 0x05 1).quiet (counted.quiet hq))))
  · exact counted

theorem aside_indDecoded (m : Mach) (q : Nat) : Aside q m (m.indDecoded q) := by
  unfold Mach.indDecoded
  split
  · exact (Aside.of_counts (counts_draw q m)).trans (aside_pmc _ q 0x06 _)
  · exact .refl q m

theorem indBranch_keeps (s : Seat) (lin target : Nat) : ((s.indBranch lin target).2.arch = s.arch ∧
    (s.indBranch lin target).2.resetReq = s.resetReq) ∧ (s.indBranch lin target).2.stores = s.stores ∧
    (s.indBranch lin target).2.group = s.group := by
  unfold Seat.indBranch
  split <;> exact ⟨⟨rfl, rfl⟩, rfl, rfl⟩

theorem aside_indRetire (m : Mach) (q lin target : Nat) (hq : m.Quiet) : Aside q m (m.indRetire q lin target) := by
  obtain ⟨⟨arch, reset⟩, stores, group⟩ := indBranch_keeps (m.seat q) lin target
  have set := Aside.setSeat q m _ arch reset stores group
  unfold Mach.indRetire
  split <;> (rename_i e; rw [e] at set)
  · exact set
  · have counted := set.trans (aside_pmc _ q 0x06 1)
    exact counted.trans (aside_wrongPath _ q (counted.quiet hq))
  · exact set.trans (aside_indDecoded _ q)

theorem CanRun.quiet (h : CanRun s q len m) : m.Quiet :=
  ⟨by rw [h.front.grpState, h.front.grpState]; exact h.calm.groups,
    by rw [h.front.memst h.calm.idle.1]; exact h.calm.idle.1⟩

theorem Mach.Quiet.setArch (hq : m.Quiet) (a : Arch) : (m.setArch q a).Quiet := hq

theorem CanRun.beside (h : CanRun s q len m) : Beside q s.toMach m := .of_front h.front h.calm.idle.1

/-! ### Targets (R241, R255) -/

theorem branchTarget_eq (pc : Nat) (off : BitVec 16) :
    branchTarget pc off = (((6 * (pc / 8) + pc % 8 : Int) + off.toInt) % (6 * 2 ^ 40)).toNat / 6 * 8 +
      (((6 * (pc / 8) + pc % 8 : Int) + off.toInt) % (6 * 2 ^ 40)).toNat % 6 := by
  rw [branchTarget, sgn_eq_toInt, pcOfLinear, linearOf]
  norm_cast

theorem pcFormat_iff (w : Word) : pcFormat w = true ↔ w.toNat < 2 ^ 43 ∧ w.toNat % 8 ≤ 5 := by
  simp [pcFormat]

theorem needPc_ok (w : Word) (m : Mach) (h : pcFormat w = true) : needPc w m = .ok ((), m) := by
  rw [needPc, if_pos h]; rfl

theorem getArch_eq (q : Nat) (m : Mach) : getArch q m = .ok (m.arch q, m) := rfl

theorem pcFirst_ok (q : Nat) (m n : Mach) (x : Word) (hb : (m.arch q).stackFault false 1 0 = none)
    (pop : popStk q false m = .ok (x, n)) (hf : pcFormat x = true) : pcFirst q m = .ok ((), m) := by
  rw [pcFirst, coreBind_ok _ _ _ _ _ (stackCheck_ok q false 1 0 m hb), pop]
  simp only [hf, if_true]

/-! ### Branches -/

section
variable (h : CanRun s q len m)
include h

/-- An instruction that goes on elsewhere once its prediction is settled. -/
theorem CanRun.leaves_jump_aside {body : CoreAct Flow} {n o : Mach} {pc : Nat} {c : Arch} {cells : List (Nat × Nat × Word)}
    (hb : body m = .ok (.jump pc, o)) (hk : Beside q m n) (hn : n.arch q = c) (hc : CellsOnly (s.toMach.arch q) c cells)
    (fp : c.fp = (s.toMach.arch q).fp) (aside : Aside q n o) :
    Leaves (s.toMach.arch q) ((s.toMach.coreRun q len body).arch q) pc 0 c.ds c.rs (s.toMach.arch q).fp cells := by
  have counts := aside.counts
  rw [hn] at counts
  have run := h.leaves_jump hb (hk.trans aside.beside) rfl (hc.of_counts counts) (counts.fp.trans fp)
  rwa [counts.ds, counts.rs] at run

/-- An instruction that goes on with the next one once its prediction is settled. -/
theorem CanRun.inLine_aside {body : CoreAct Flow} {n o : Mach} {c : Arch} {cells : List (Nat × Nat × Word)}
    (hb : body m = .ok (.next false, o)) (hk : Beside q m n) (hn : n.arch q = c) (hc : CellsOnly (s.toMach.arch q) c cells)
    (pc : c.pc = (s.toMach.arch q).pc) (litk : c.litk = (s.toMach.arch q).litk) (fp : c.fp = (s.toMach.arch q).fp)
    (aside : Aside q n o) :
    InLine (s.toMach.arch q) ((s.toMach.coreRun q len body).arch q) len c.ds c.rs cells := by
  have counts := aside.counts
  rw [hn] at counts
  have run := h.inLine hb rfl (hk.trans aside.beside) rfl (hc.of_counts counts) (counts.pc.trans pc) (counts.litk.trans litk)
    (counts.fp.trans fp) (fun e => by cases e)
  rwa [counts.ds, counts.rs] at run

theorem br_run (off : BitVec 16) :
    Leaves (s.toMach.arch q) ((s.toMach.coreRun q len (brBody q off)).arch q) (branchTarget (s.toMach.arch q).pc off) 0
      (s.toMach.arch q).ds (s.toMach.arch q).rs (s.toMach.arch q).fp [] := by
  have body : brBody q off m = .ok (.jump (branchTarget (s.toMach.arch q).pc off), m) := by
    rw [brBody, coreBind_ok _ _ _ _ _ (getArch_eq q m), h.arch]; rfl
  exact h.leaves_jump body (.refl q m) h.arch (.refl _) rfl

theorem cond_run (z : Bool) (off : BitVec 16) (x : Word) (rest : List Word) (hd : (s.toMach.arch q).ds = x :: rest)
    (hb : (s.toMach.arch q).stackFault false 1 0 = none) :
    if ((x == 0#48) == z) = true then
      Leaves (s.toMach.arch q) ((s.toMach.coreRun q len (condBody q z off)).arch q) (branchTarget (s.toMach.arch q).pc off) 0
        rest (s.toMach.arch q).rs (s.toMach.arch q).fp [dspIs (s.toMach.arch q) ((s.toMach.arch q).ptr false - 1)]
    else InLine (s.toMach.arch q) ((s.toMach.coreRun q len (condBody q z off)).arch q) len rest (s.toMach.arch q).rs
      [dspIs (s.toMach.arch q) ((s.toMach.arch q).ptr false - 1)] := by
  have ha := h.arch
  let a := s.toMach.arch q
  let b := a.moved false rest (a.ptr false - 1)
  have pop := popStk_moved q false m a x rest ha hd
  have aside := aside_condRetire (m.setArch q b) q (linearOf a.pc) ((x == 0#48) == z) (h.quiet.setArch b)
  have body : condBody q z off m = .ok (if (x == 0#48) == z then .jump (branchTarget a.pc off) else .next false,
      (m.setArch q b).condRetire q (linearOf a.pc) ((x == 0#48) == z)) := by
    rw [condBody, coreBind_ok _ _ _ _ _ (getArch_eq q m), ha,
      coreBind_ok _ _ _ _ _ (stackCheck_ok q false 1 0 m (by rw [ha]; exact hb)), coreBind_ok _ _ _ _ _ pop]
    rfl
  have cells := (CellsOnly.refl a).moved false rest (a.ptr false - 1)
  split
  · rename_i t
    rw [if_pos t] at body
    exact h.leaves_jump_aside body (.setArch q m b) (Mach.arch_setArch_self _ _ _) cells rfl aside
  · rename_i t
    rw [if_neg t] at body
    exact h.inLine_aside body (.setArch q m b) (Mach.arch_setArch_self _ _ _) cells rfl rfl rfl aside

theorem call_run (off : BitVec 16) (hb : (s.toMach.arch q).stackFault true 0 1 = none)
    (room : (s.toMach.arch q).rs.length ≤ 15) :
    Leaves (s.toMach.arch q) ((s.toMach.coreRun q len (callBody q off)).arch q) (branchTarget (s.toMach.arch q).pc off) 0
      (s.toMach.arch q).ds (w48 (nextPc (s.toMach.arch q).pc 3 (s.toMach.arch q).litk) :: (s.toMach.arch q).rs)
      (s.toMach.arch q).fp [rspIs (s.toMach.arch q) ((s.toMach.arch q).ptr true + 1)] := by
  have ha := h.arch
  let a := s.toMach.arch q
  have push := pushStk_moved q true m a (w48 (nextPc a.pc 3 a.litk)) ha (Nat.lt_succ_of_le room)
  refine h.leaves_jump ?_ (.setArch q m _) (Mach.arch_setArch_self _ _ _) ((CellsOnly.refl a).moved true (w48 (nextPc a.pc 3 a.litk) :: a.rs) (a.ptr true + 1)) rfl
  rw [callBody, coreBind_ok _ _ _ _ _ (getArch_eq q m), ha,
    coreBind_ok _ _ _ _ _ (stackCheck_ok q true 0 1 m (by rw [ha]; exact hb)), coreBind_ok _ _ _ _ _ push]
  rfl

theorem ret_run (r : Word) (rest : List Word) (hr : (s.toMach.arch q).rs = r :: rest)
    (hb : (s.toMach.arch q).stackFault true 1 0 = none) (hf : pcFormat r = true) :
    Leaves (s.toMach.arch q) ((s.toMach.coreRun q len (retBody q)).arch q) r.toNat 0 (s.toMach.arch q).ds rest
      (s.toMach.arch q).fp [rspIs (s.toMach.arch q) ((s.toMach.arch q).ptr true - 1)] := by
  have ha := h.arch
  let a := s.toMach.arch q
  have pop := popStk_moved q true m a r rest ha hr
  refine h.leaves_jump_aside ?_ (.setArch q m _) (Mach.arch_setArch_self _ _ _) ((CellsOnly.refl a).moved true rest (a.ptr true - 1))
    rfl (aside_indDecoded _ q)
  rw [retBody, coreBind_ok _ _ _ _ _ (stackCheck_ok q true 1 0 m (by rw [ha]; exact hb)), coreBind_ok _ _ _ _ _ pop,
    coreBind_ok _ _ _ _ _ (needPc_ok r _ hf)]
  rfl

theorem jmpi_run (x : Word) (rest : List Word) (hd : (s.toMach.arch q).ds = x :: rest)
    (hb : (s.toMach.arch q).stackFault false 1 0 = none) (hf : pcFormat x = true) :
    Leaves (s.toMach.arch q) ((s.toMach.coreRun q len (jmpiBody q)).arch q) x.toNat 0 rest (s.toMach.arch q).rs
      (s.toMach.arch q).fp [dspIs (s.toMach.arch q) ((s.toMach.arch q).ptr false - 1)] := by
  have ha := h.arch
  let a := s.toMach.arch q
  have pop := popStk_moved q false m a x rest ha hd
  refine h.leaves_jump_aside ?_ (.setArch q m _) (Mach.arch_setArch_self _ _ _) ((CellsOnly.refl a).moved false rest (a.ptr false - 1))
    rfl (aside_indRetire _ q (linearOf a.pc) x.toNat (h.quiet.setArch _))
  rw [jmpiBody, coreBind_ok _ _ _ _ _ (getArch_eq q m), ha,
    coreBind_ok _ _ _ _ _ (stackCheck_ok q false 1 0 m (by rw [ha]; exact hb)), coreBind_ok _ _ _ _ _ pop,
    coreBind_ok _ _ _ _ _ (needPc_ok x _ hf)]
  rfl

theorem calli_run (x : Word) (rest : List Word) (hd : (s.toMach.arch q).ds = x :: rest)
    (hb : (s.toMach.arch q).stackFault false 1 0 = none) (hf : pcFormat x = true)
    (hr : (s.toMach.arch q).stackFault true 0 1 = none) (room : (s.toMach.arch q).rs.length ≤ 15) :
    Leaves (s.toMach.arch q) ((s.toMach.coreRun q len (calliBody q)).arch q) x.toNat 0 rest
      (w48 (nextPc (s.toMach.arch q).pc 1 (s.toMach.arch q).litk) :: (s.toMach.arch q).rs) (s.toMach.arch q).fp
      [dspIs (s.toMach.arch q) ((s.toMach.arch q).ptr false - 1), rspIs (s.toMach.arch q) ((s.toMach.arch q).ptr true + 1)] := by
  have ha := h.arch
  let a := s.toMach.arch q
  let b := a.moved false rest (a.ptr false - 1)
  have brs : b.stk true = a.rs := a.moved_stk_other false _ _
  have bptr : b.ptr true = a.ptr true := a.moved_ptr_other false _ _
  have pop := popStk_moved q false m a x rest ha hd
  have push := pushStk_moved q true (m.setArch q b) b (w48 (nextPc a.pc 1 a.litk)) (Mach.arch_setArch_self _ _ _)
    (by rw [brs]; exact Nat.lt_succ_of_le room)
  rw [brs, bptr] at push
  have hb' : (m.arch q).stackFault false 1 0 = none := by rw [ha]; exact hb
  refine h.leaves_jump_aside ?_ (.of_steps (.step _ _ (.step m b .refl))) (Mach.arch_setArch_self _ _ _)
    ((((CellsOnly.refl a).moved false rest (a.ptr false - 1)).moved true _ (a.ptr true + 1)).swap (fun e => by cases e.2)) rfl
    (aside_indRetire _ q (linearOf a.pc) x.toNat ((h.quiet.setArch b).setArch _))
  rw [calliBody, coreBind_ok _ _ _ _ _ (getArch_eq q m), coreBind_ok _ _ _ _ _ (pcFirst_ok q m _ x hb' pop hf), ha,
    coreBind_ok _ _ _ _ _ (stackCheck_ok q false 1 0 m hb'),
    coreBind_ok _ _ _ _ _ (stackCheck_ok q true 0 1 m (by rw [ha]; exact hr)), coreBind_ok _ _ _ _ _ pop,
    coreBind_ok _ _ _ _ _ (needPc_ok x _ hf), coreBind_ok _ _ _ _ _ push]
  rfl

end

/-! ### Control cells (R226 to R228) -/

/-- The operand of GETC or SETC names a cell that exists, without a bank. -/
def Named (c : BitVec 8) : Prop := c.toNat < 0xF

theorem Named.cellOf {c : BitVec 8} (h : Named c) : cellOf c = c.toNat := Nat.mod_eq_of_lt (Nat.lt_trans h (by decide))

theorem Named.bankField {c : BitVec 8} (h : Named c) : bankField c = 0 := Nat.div_eq_of_lt (Nat.lt_trans h (by decide))

theorem Named.bankAt {c : BitVec 8} (h : Named c) (wld : Nat) :
    bankAt wld c = if unbanked c.toNat then 0 else if perHandler c.toNat then handlerOf wld + 1 else wld + 1 := by
  rw [Machine.bankAt, h.cellOf, h.bankField]; rfl

theorem cellNamed_ok (c : BitVec 8) (m : Mach) (h : Named c) : cellNamed c m = .ok ((), m) := by
  have : c.toNat < 0xF := h
  rw [cellNamed, h.cellOf, h.bankField]
  simp [show ¬ 0xF ≤ c.toNat by omega, pure, StateT.pure, Except.pure]

theorem bankRights_zero (wld : Nat) : bankRights wld 0 = true := by
  unfold bankRights
  split_ifs <;> rfl

theorem cellCheck_ok (wld : Nat) (c : BitVec 8) (write : Bool) (m : Mach) (h : Named c)
    (r : (if write then (cellRights wld c.toNat).2 else (cellRights wld c.toNat).1) = true) :
    cellCheck wld c write m = .ok ((), m) := by
  rw [cellCheck, coreBind_ok _ _ _ _ _ (cellNamed_ok c m h)]
  simp only [h.cellOf, h.bankField, bankRights_zero, r]
  rfl

theorem fpFirst_ok (q : Nat) (m : Mach) (h : (m.arch q).fp = none) : fpFirst q m = .ok ((), m) := by
  rw [fpFirst, coreBind_ok _ _ _ _ _ (getArch_eq q m), h]; rfl

theorem reservedFirst_ok (q n : Nat) (m o : Mach) (v : Word) (hb : (m.arch q).stackFault false 1 0 = none)
    (pop : popStk q false m = .ok (v, o)) (hr : reservedBits n v = false) : reservedFirst q n m = .ok ((), m) := by
  rw [reservedFirst, coreBind_ok _ _ _ _ _ (stackCheck_ok q false 1 0 m hb), pop]
  simp only [hr]
  rfl

section
variable (h : CanRun s q len m)
include h

theorem getc_run (c : BitVec 8) (hc : Named c) (notPtr : c.toNat ≠ 1 ∧ c.toNat ≠ 2)
    (r : (cellRights (s.toMach.arch q).wld c.toNat).1 = true) (fp : (s.toMach.arch q).fp = none)
    (hb : (s.toMach.arch q).stackFault false 0 1 = none) (room : (s.toMach.arch q).ds.length ≤ 15) :
    InLine (s.toMach.arch q) ((s.toMach.coreRun q len (getcBody q c)).arch q) len
      ((s.toMach.arch q).cellValue (bankAt (s.toMach.arch q).wld c) c.toNat :: (s.toMach.arch q).ds) (s.toMach.arch q).rs
      [dspIs (s.toMach.arch q) ((s.toMach.arch q).ptr false + 1)] := by
  have ha := h.arch
  let a := s.toMach.arch q
  let v := a.cellValue (bankAt a.wld c) c.toNat
  have push := pushStk_moved q false m a v ha (Nat.lt_succ_of_le room)
  refine h.inLine (f := .solo) ?_ rfl (.setArch q m _) (Mach.arch_setArch_self _ _ _)
    ((CellsOnly.refl a).moved false (v :: a.ds) (a.ptr false + 1)) rfl rfl rfl (fun e => by cases e)
  have check := cellCheck_ok a.wld c false m hc r
  have first := fpFirst_ok q m (by rw [ha]; exact fp)
  have stack := stackCheck_ok q false 0 1 m (by rw [ha]; exact hb)
  unfold getcBody
  rw [coreBind_ok _ _ _ _ _ (getArch_eq q m), ha]
  simp only [hc.cellOf, notPtr, decide_false, Bool.or_false, Bool.false_and]
  rw [coreBind_ok _ _ _ _ _ check]
  split
  · rw [coreBind_ok _ _ _ _ _ first, coreBind_ok _ _ _ _ _ stack]
    refine (coreBind_ok _ _ _ _ _ (getArch_eq q m)).trans ?_
    rw [ha, coreBind_ok _ _ _ _ _ push]; rfl
  · refine (coreBind_ok _ _ _ _ _ stack).trans ((coreBind_ok _ _ _ _ _ (getArch_eq q m)).trans ?_)
    rw [ha, coreBind_ok _ _ _ _ _ push]; rfl

/-- SETC of a cell, its value popped and its reserved bits 0. -/
theorem setc_run (c : BitVec 8) (x : Word) (rest : List Word) (hc : Named c) (notTen : c.toNat ≠ 9)
    (r : (cellRights (s.toMach.arch q).wld c.toNat).2 = true) (fp : (s.toMach.arch q).fp = none)
    (hd : (s.toMach.arch q).ds = x :: rest) (hb : (s.toMach.arch q).stackFault false 1 0 = none)
    (hx : reservedBits c.toNat x = false) {cells : List (Nat × Nat × Word)} {b d : Arch}
    (hp : b = (s.toMach.arch q).moved false rest ((s.toMach.arch q).ptr false - 1))
    (hw : setcWrite b (bankAt (s.toMach.arch q).wld c) c.toNat x = d) (hk : CellsOnly (s.toMach.arch q) d cells)
    (pc : d.pc = (s.toMach.arch q).pc) (litk : d.litk = (s.toMach.arch q).litk) (fpd : d.fp = (s.toMach.arch q).fp) :
    InLine (s.toMach.arch q) ((s.toMach.coreRun q len (setcBody q c)).arch q) len d.ds d.rs cells := by
  have ha := h.arch
  let a := s.toMach.arch q
  have pop : popStk q false m = .ok (x, m.setArch q b) := hp ▸ popStk_moved q false m a x rest ha hd
  have hb' : (m.arch q).stackFault false 1 0 = none := by rw [ha]; exact hb
  have wld : b.wld = a.wld := hp ▸ rfl
  refine h.inLine (f := .solo) (n := (m.setArch q b).setArch q d) ?_ rfl (.of_steps (.step _ _ (.step m b .refl)))
    (Mach.arch_setArch_self _ _ _) hk pc litk fpd (fun e => by cases e)
  have check := cellCheck_ok a.wld c true m hc r
  have first := fpFirst_ok q m (by rw [ha]; exact fp)
  have stack := stackCheck_ok q false 1 0 m hb'
  have write : (do let y ← getArch q; setArch q (setcWrite y (bankAt y.wld c) c.toNat x); pure Flow.solo : CoreAct Flow)
      (m.setArch q b) = .ok (.solo, (m.setArch q b).setArch q d) := by
    rw [coreBind_ok _ _ _ _ _ (getArch_eq q _), Mach.arch_setArch_self, wld, hw]; rfl
  unfold setcBody
  simp only [hc.cellOf]
  rw [coreBind_ok _ _ _ _ _ (cellNamed_ok c m hc), coreBind_ok _ _ _ _ _ (reservedFirst_ok q _ m _ x hb' pop hx),
    coreBind_ok _ _ _ _ _ (getArch_eq q m), ha, coreBind_ok _ _ _ _ _ check]
  split
  · rw [coreBind_ok _ _ _ _ _ first, coreBind_ok _ _ _ _ _ stack, coreBind_ok _ _ _ _ _ pop]
    simp only [hx, if_false, Bool.false_eq_true]
    exact write
  · rw [coreBind_ok _ _ _ _ _ stack, coreBind_ok _ _ _ _ _ pop]
    simp only [hx, if_false, Bool.false_eq_true]
    exact write

end

/-! ### What a write of a cell changes -/

/-- A cell that SETC writes as it stands: neither PC, WLD, VEC, a stack pointer nor PSW. -/
theorem setcWrite_plain (a : Arch) (b n : Nat) (v : Word) (hn : n ∈ [3, 4, 5, 6, 8, 0xC, 0xD, 0xE]) :
    setcWrite a b n v = a.setCell b n v := by
  simp only [List.mem_cons, List.not_mem_nil, or_false] at hn
  unfold setcWrite Arch.cellWrite
  rcases hn with rfl | rfl | rfl | rfl | rfl | rfl | rfl | rfl <;> simp

theorem reservedBits_of_lt (n k : Nat) (v : Word) (hm : cellMask n = 2 ^ k - 1) (hv : v.toNat < 2 ^ k)
    (hn : n ≠ 0xC) : reservedBits n v = false := by
  have masked : v &&& ~~~ w48 (cellMask n) = 0 := by
    refine BitVec.eq_of_getLsbD_eq fun i hi => ?_
    rw [hm, w48, BitVec.getLsbD_and, BitVec.getLsbD_not, BitVec.getLsbD_ofNat, Nat.testBit_two_pow_sub_one]
    by_cases lt : i < k
    · simp [hi, lt]
    · simp [BitVec.getLsbD, Nat.testBit_lt_two_pow (Nat.lt_of_lt_of_le hv (Nat.pow_le_pow_right (by decide) (Nat.le_of_not_lt lt)))]
  simp [reservedBits, masked, hn]

/-- SETC of a cell other than a stack pointer's or TEN's, where the write stores `v`. -/
theorem setc_cell_run (h : CanRun s q len m) (c : BitVec 8) (n k : Nat) (x v : Word) (rest : List Word) (hn : c.toNat % 32 = n)
    (hc : c.toNat < 32) (named : n < 0xF) (notTen : n ≠ 9)
    (r : (cellRights (s.toMach.arch q).wld n).2 = true) (fp : (s.toMach.arch q).fp = none)
    (hd : (s.toMach.arch q).ds = x :: rest) (hb : (s.toMach.arch q).stackFault false 1 0 = none) (hx : reservedBits n x = false)
    (bank : (if unbanked n then 0 else if perHandler n then handlerOf (s.toMach.arch q).wld + 1 else (s.toMach.arch q).wld + 1) = k)
    (hw : ∀ b : Arch, b.wld = (s.toMach.arch q).wld → setcWrite b k n x = b.setCell k n v) :
    InLine (s.toMach.arch q) ((s.toMach.coreRun q len (setcBody q c)).arch q) len rest (s.toMach.arch q).rs
      [(k, n, v), dspIs (s.toMach.arch q) ((s.toMach.arch q).ptr false - 1)] := by
  rw [Nat.mod_eq_of_lt hc] at hn
  subst hn
  have named : Named c := named
  let a := s.toMach.arch q
  let b := a.moved false rest (a.ptr false - 1)
  exact setc_run h c x rest named notTen r fp hd hb hx (b := b) (d := b.setCell k c.toNat v) rfl
    (by rw [named.bankAt, bank, hw b rfl]) (((CellsOnly.refl a).moved false rest _).setCell _ _ _ hc) rfl rfl rfl

/-- SETC of DSP. -/
theorem setc_dsp_run (h : CanRun s q len m) (c : BitVec 8) (x : Word) (rest : List Word) (hc : c.toNat = 1)
    (fp : (s.toMach.arch q).fp = none) (hd : (s.toMach.arch q).ds = x :: rest)
    (hb : (s.toMach.arch q).stackFault false 1 0 = none) (hx : x.toNat < 2 ^ 40) :
    InLine (s.toMach.arch q) ((s.toMach.coreRun q len (setcBody q c)).arch q) len [] (s.toMach.arch q).rs
      [((s.toMach.arch q).wld + 1, 1, x)] := by
  have named : Named c := by rw [Named, hc]; decide
  let a := s.toMach.arch q
  let b := a.moved false rest (a.ptr false - 1)
  have write : setcWrite b (bankAt a.wld c) c.toNat x = (b.setCell (a.wld + 1) 1 x).setStk false [] := by
    rw [named.bankAt, hc]
    simp [setcWrite, Arch.cellWrite, unbanked, perHandler, show b.wld = a.wld from rfl]
  exact setc_run h c x rest named (by omega) (by rw [hc]; rfl) fp hd hb
    (by rw [hc]; exact reservedBits_of_lt 1 40 x rfl hx (by decide)) rfl write
    ((((CellsOnly.refl a).moved false rest (a.ptr false - 1)).setCell (a.wld + 1) 1 x (by decide)).dedup.setStk false []) rfl rfl rfl

/-- Settles O6. -/
theorem controlInstructions : Obligations.ControlInstructions := by
  refine ⟨fun s q m off x rest => ?_, fun s q m c x rest h => ?_⟩
  · intro a lin wrapped target inFormat popped
    have target_eq : branchTarget a.pc off = target := branchTarget_eq _ _
    have zero : ∀ z : Bool, ((x == 0#48) == z) = true ↔ (x = 0 ↔ z = true) := by intro z; cases z <;> simp
    refine ⟨fun h => ⟨_, rfl, target_eq ▸ br_run h off⟩, fun h hd hb => ⟨⟨_, rfl, ?_⟩, ⟨_, rfl, ?_⟩⟩,
      fun h hb room => ⟨_, rfl, target_eq ▸ call_run h off hb room⟩,
      fun h hr hb hf => ⟨_, rfl, ret_run h x rest hr hb ((pcFormat_iff x).mpr hf)⟩,
      fun h hd hb hf => ⟨_, rfl, jmpi_run h x rest hd hb ((pcFormat_iff x).mpr hf)⟩,
      fun h hd hb hf hr room => ⟨_, rfl, calli_run h x rest hd hb ((pcFormat_iff x).mpr hf) hr room⟩⟩
    · have run := cond_run h true off x rest hd hb
      rw [target_eq] at run
      simpa only [zero, iff_true] using run
    · have run := cond_run h false off x rest hd hb
      rw [target_eq, ← ite_not] at run
      simpa only [zero, Bool.false_eq_true, iff_false, not_not] using run
  · intro a n bank hc fp
    have small : c.toNat = n := (Nat.mod_eq_of_lt hc).symm
    have getc : ∀ v, n < 0xF → (n ≠ 1 ∧ n ≠ 2) → (cellRights a.wld n).1 = true →
        a.cellValue (if unbanked n then 0 else if perHandler n then handlerOf a.wld + 1 else a.wld + 1) n = v →
        a.stackFault false 0 1 = none → a.ds.length ≤ 15 → ∃ t, exec (.getc q c) s = .next t ∧
          InLine a (t.toMach.arch q.val) 3 (v :: a.ds) a.rs [dspIs a (a.ptr false + 1)] := by
      intro v hn notPtr r hv hb room
      rw [← small] at hn notPtr r hv
      have run := getc_run h c hn notPtr r fp hb room
      rw [Named.bankAt hn, hv] at run
      exact ⟨_, rfl, run⟩
    have notTask : ∀ b : Arch, b.wld = a.wld → taskLevel a.wld = false → taskLevel b.wld = false := fun b e t => e ▸ t
    refine ⟨fun hn hb room => ?_, fun hn hb room => ?_, fun hn nt hd hb hx => ?_, fun hn hd hb hx => ?_, fun hn nt hd hb hx => ?_,
      fun hn hd hb hx rm => ?_, fun hn nt hd hb hx => ?_, fun hn level hd hb hx => ?_⟩
    · simp only [List.mem_cons, List.not_mem_nil, or_false] at hn
      refine getc _ (by omega) (by omega) ?_ ?_ hb room
      · rcases hn with e | e | e | e | e | e | e | e <;> rw [e] <;> rfl
      · simp only [bank]
        rcases hn with e | e | e | e | e | e | e | e <;> simp [e, Arch.cellValue, unbanked, perHandler]
    · exact getc _ (by omega) (by omega) (by rw [hn]; rfl) (by simp [hn, Arch.cellValue]) hb room
    · simp only [List.mem_cons, List.not_mem_nil, or_false] at hn
      refine ⟨_, rfl, setc_cell_run h c n (a.wld + 1) x x rest rfl hc (by omega) (by omega) ?_ fp hd hb
        (reservedBits_of_lt n 40 x ?_ hx (by omega)) ?_ fun b e => ?_⟩
      · rcases hn with e | e | e | e <;> rw [e, cellRights] <;> simp [show taskLevel (s.toMach.arch q.val).wld = false from nt]
      · rcases hn with e | e | e | e <;> rw [e] <;> rfl
      · rcases hn with e | e | e | e <;> rw [e] <;> rfl
      · exact setcWrite_plain _ _ _ _ (by simp; omega)
    · exact ⟨_, rfl, setc_dsp_run h c x rest (small.trans hn) fp hd hb hx⟩
    · exact ⟨_, rfl, setc_cell_run h c 8 0 x x rest hn hc (by decide) (by decide)
        (by simp [cellRights, show taskLevel (s.toMach.arch q.val).wld = false from nt]) fp hd hb
        (reservedBits_of_lt 8 24 x rfl hx (by decide)) rfl fun b e => setcWrite_plain _ _ _ _ (by decide)⟩
    · exact ⟨_, rfl, setc_cell_run h c 0xC 0 x x rest hn hc (by decide) (by decide) rfl fp hd hb
        (by simpa [reservedBits, cellMask, w48] using ⟨hx, rm⟩) rfl fun b e => setcWrite_plain _ _ _ _ (by decide)⟩
    · refine ⟨_, rfl, setc_cell_run h c 7 (a.wld + 1) x x rest hn hc (by decide) (by decide) rfl fp hd hb
        (by simpa [reservedBits, cellMask, w48] using hx) rfl fun b e => ?_⟩
      have task := notTask b e nt
      have bank : ¬ (a.wld = 0 ∨ a.wld = 2) := by simpa [taskLevel] using nt
      simp [setcWrite, task, Arch.cellWrite, bank]
    · simp only [List.mem_cons, List.not_mem_nil, or_false] at hn
      have bank : handlerOf a.wld = a.wld := by rcases level with e | e <;> rw [e] <;> rfl
      have nt : taskLevel a.wld = false := by rcases level with e | e <;> rw [e] <;> rfl
      have notMon : a.wld ≠ 4 := by omega
      refine ⟨_, rfl, setc_cell_run h c n (a.wld + 1) x _ rest rfl hc (by omega) (by omega) ?_ fp hd hb ?_ ?_ fun b e => ?_⟩
      · rcases hn with e | e | e <;> rw [e, cellRights] <;>
          simp [show taskLevel (s.toMach.arch q.val).wld = false from nt, show (s.toMach.arch q.val).wld ≠ 4 from notMon]
      · rcases hn with e | e | e <;> rw [e]
        · exact reservedBits_of_lt 0xB 40 x rfl hx (by decide)
        · exact reservedBits_of_lt 0xD 48 x rfl x.isLt (by decide)
        · exact reservedBits_of_lt 0xE 43 x rfl (by omega) (by decide)
      · rcases hn with e | e | e <;> rw [e] <;> exact congrArg (· + 1) bank
      · rcases hn with e | e | e <;> rw [e]
        · simp [setcWrite, Arch.cellWrite, notMon]
        · exact setcWrite_plain _ _ _ _ (by decide)
        · exact setcWrite_plain _ _ _ _ (by decide)

end Sys2Proof.Machine
end

section
/-! PROOFS. Packed decimal (R251, R261 to R264). -/

namespace Sys2Proof.Machine
open Sys2Proof

variable {s : State} {q len : Nat} {m : Mach}

/-! ### Digits (R261 to R263) -/

/-- A number from nibbles, the least significant first. -/
def nibNum (l : List Nat) : Nat := l.foldr (fun d a => d + 16 * a) 0

theorem nibNum_lt (l : List Nat) (h : ∀ d ∈ l, d < 16) : nibNum l < 16 ^ l.length := by
  induction l with
  | nil => decide
  | cons d l ih =>
    have hd := h d (List.mem_cons_self ..)
    have hl := ih fun e he => h e (List.mem_cons_of_mem _ he)
    rw [nibNum, List.foldr_cons, List.length_cons, pow_succ]
    rw [nibNum] at hl
    omega

theorem nibbles_nibNum (l : List Nat) (h : ∀ d ∈ l, d < 16) :
    (List.range l.length).map (fun i => nibNum l / 16 ^ i % 16) = l := by
  induction l with
  | nil => rfl
  | cons d l ih =>
    have hd := h d (List.mem_cons_self ..)
    have num : nibNum (d :: l) = d + 16 * nibNum l := rfl
    have up : ∀ i, nibNum (d :: l) / 16 ^ (i + 1) = nibNum l / 16 ^ i := fun i => by
      rw [num, pow_succ', ← Nat.div_div_eq_div_mul]; congr 1; omega
    rw [List.length_cons, List.range_succ_eq_map, List.map_cons, List.map_map]
    congr 1
    · rw [num]; omega
    · refine Eq.trans (List.map_congr_left fun i _ => ?_) (ih fun e he => h e (List.mem_cons_of_mem _ he))
      exact congrArg (· % 16) (up i)

theorem nbits_nibble (n i : Nat) : nbits n (4 * i + 3) (4 * i) = n / 16 ^ i % 16 := by
  rw [nbits, Nat.shiftRight_eq_div_pow, show 4 * i + 3 - 4 * i + 1 = 4 by omega, pow_mul]; rfl

theorem decNibbles_cons (w : Word) (ws : List Word) :
    decNibbles (w :: ws) = (List.range 12).map (fun i => w.toNat / 16 ^ i % 16) ++ decNibbles ws := by
  simp only [decNibbles, List.flatMap_cons, nbits_nibble]

theorem length_decWords (k : Nat) (l : List Nat) : (decWords k l).length = k := by
  induction k generalizing l with
  | zero => rfl
  | succ k ih => rw [decWords, List.length_cons, ih]

theorem decNibbles_decWords (k : Nat) (l : List Nat) (hl : l.length = 12 * k) (h : ∀ d ∈ l, d < 16) :
    decNibbles (decWords k l) = l := by
  induction k generalizing l with
  | zero => exact (List.length_eq_zero_iff.mp hl).symm
  | succ k ih =>
    have len : (l.take 12).length = 12 := by rw [List.length_take]; omega
    have small : ∀ d ∈ l.take 12, d < 16 := fun d hd => h d (List.mem_of_mem_take hd)
    have num : (w48 (nibNum (l.take 12))).toNat = nibNum (l.take 12) := by
      have lt := nibNum_lt _ small
      rw [len] at lt
      rw [w48, BitVec.toNat_ofNat, Nat.mod_eq_of_lt (lt_of_lt_of_eq lt (by decide))]
    have nibbles := nibbles_nibNum _ small
    rw [len] at nibbles
    rw [decWords, decNibbles_cons, ih (l.drop 12) (by rw [List.length_drop]; omega) fun d hd => h d (List.mem_of_mem_drop hd)]
    rw [nibNum] at num nibbles
    rw [num, nibbles, List.take_append_drop]

theorem length_decOf (k n : Nat) : (decOf k n).length = k := by
  induction k generalizing n with
  | zero => rfl
  | succ k ih => rw [decOf, List.length_cons, ih]

theorem decOf_lt (k n : Nat) : ∀ d ∈ decOf k n, d < 10 := by
  induction k generalizing n with
  | zero => intro d hd; cases hd
  | succ k ih =>
    intro d hd
    rw [decOf, List.mem_cons] at hd
    rcases hd with rfl | hd
    · exact Nat.mod_lt _ (by decide)
    · exact ih _ d hd

theorem decDigits_decOf (k n : Nat) (h : n < 10 ^ k) : decDigits (decOf k n) = n := by
  induction k generalizing n with
  | zero => rw [pow_zero] at h; rw [show n = 0 by omega]; rfl
  | succ k ih =>
    have rest := ih (n / 10) (by rw [pow_succ] at h; omega)
    rw [decDigits] at rest
    rw [decOf, decDigits, List.foldr_cons, rest]
    omega

/-- The sign nibble of a result: 0xC where its digits are all 0 (R263). -/
def decSign (v : Int) (low : Nat) : Nat := if v < 0 ∧ low ≠ 0 then 0xD else 0xC

theorem decSign_cases (v : Int) (low : Nat) : decSign v low = 0xC ∨ decSign v low = 0xD := by unfold decSign; split <;> omega

/-- What an encoded value is: as many words as asked, without an invalid nibble, of the value's low digits with its sign. -/
theorem decEnc_spec (k : Nat) (v : Int) (hk : 1 ≤ k) :
    let low := v.natAbs % 10 ^ (12 * k - 1)
    (decEnc k v).1.length = k ∧ decBad (decEnc k v).1 = none ∧ decVal (decEnc k v).1 = v.sign * (low : Nat) ∧
      (decNibbles (decEnc k v).1).head? = some (decSign v low) ∧ ((decEnc k v).2 = decide (10 ^ (12 * k - 1) ≤ v.natAbs)) := by
  intro low
  have words : (decEnc k v).1 = decWords k (decSign v low :: decOf (12 * k - 1) low) := by
    simp only [decEnc, decSign, low]
    congr 2
    simp
  have sign := decSign_cases v low
  have digits := decOf_lt (12 * k - 1) low
  have count : (decSign v low :: decOf (12 * k - 1) low).length = 12 * k := by rw [List.length_cons, length_decOf]; omega
  have nibbles : decNibbles (decEnc k v).1 = decSign v low :: decOf (12 * k - 1) low := by
    rw [words]
    refine decNibbles_decWords k _ count fun d hd => ?_
    rcases List.mem_cons.mp hd with rfl | hd
    · omega
    · exact lt_trans (digits d hd) (by decide)
  refine ⟨by rw [words, length_decWords], ?_, ?_, by rw [nibbles]; rfl, rfl⟩
  · rw [decBad, nibbles]
    simp only [List.find?_eq_none, List.mem_range]
    intro i hi
    cases i with
    | zero => simp; omega
    | succ i =>
      have lt := List.length_cons ▸ hi
      have := digits _ (List.getElem_mem (Nat.succ_lt_succ_iff.mp lt))
      simp [List.getD, Nat.succ_lt_succ_iff.mp lt]
      omega
  · rw [decVal, nibbles]
    simp only
    rw [decDigits_decOf _ low (Nat.mod_lt _ (by positivity))]
    have zero : v = 0 → low = 0 := by rintro rfl; simp [low]
    clear_value low
    rcases lt_trichotomy v 0 with neg | rfl | pos
    · by_cases z : low = 0
      · simp [z, decSign, decNeg]
      · simp [decSign, neg, z, decNeg, Int.sign_eq_neg_one_of_neg neg]
    · simp [zero rfl, decSign, decNeg]
    · simp [decSign, not_lt.mpr pos.le, decNeg, Int.sign_eq_one_of_pos pos]

/-! ### Operands popped and results pushed within the core -/

theorem pop_push (q : Nat) (m : Mach) (top res rest : List Word) (hd : (m.arch q).ds = top ++ rest)
    (hb : (m.arch q).stackFault false top.length res.length = none) (room : res.length + rest.length ≤ 16) :
    ∃ n o, popN q top.length m = .ok (top, n) ∧ pushAll q res.reverse n = .ok ((), o) ∧ ArchSteps q m o ∧
      StackMove false (m.arch q) (o.arch q) (res ++ rest) ((m.arch q).ptr false + res.length - top.length) := by
  have h0 := stackMove_refl false (m.arch q)
  have lt : (m.arch q).ptr false < 2 ^ 48 := ((m.arch q).own (ptrCell false)).isLt
  rw [show (m.arch q).stk false = top ++ rest from hd] at h0
  have bound := stackFault_bounds _ _ _ _ hb
  obtain ⟨n, hn, hs, hm⟩ := popN_in q top m m (m.arch q) rest _ .refl h0 (by omega) lt
  obtain ⟨o, ho, hso, hmo⟩ := pushAll_in q res.reverse m n (m.arch q) rest _ hs hm (by simpa using room) (by simp; omega)
  rw [List.reverse_reverse, List.length_reverse,
    show (m.arch q).ptr false - top.length + res.length = (m.arch q).ptr false + res.length - top.length by omega] at hmo
  exact ⟨n, o, hn, ho, hso, hmo⟩

theorem pushAll_concat (q : Nat) (l : List Word) (w : Word) (m o : Mach) (h : pushAll q (l ++ [w]) m = .ok ((), o)) :
    ∃ n, pushAll q l m = .ok ((), n) ∧ pushStk q false w n = .ok ((), o) := by
  induction l generalizing m with
  | nil =>
    obtain ⟨_, n, push, e⟩ := coreBind _ _ _ _ _ h
    obtain ⟨_, rfl⟩ := coreOk_inj e
    exact ⟨m, rfl, push⟩
  | cons v l ih =>
    obtain ⟨_, n, push, e⟩ := coreBind _ _ _ _ _ h
    obtain ⟨k, all, last⟩ := ih n e
    exact ⟨k, (coreBind_ok _ _ _ _ _ push).trans all, last⟩

theorem StackMove.own_other {rs : Bool} {a b : Arch} {l : List Word} {p : Nat} (h : StackMove rs a b l p) (n : Nat) (hn : n < 32) :
    b.cell 0 n = a.cell 0 n := by rw [h.cell _ _ hn, if_neg (by omega)]

/-! ### The decimal instructions -/

theorem decWidth_ok (n : BitVec 8) (m : Mach) (lo : 1 ≤ n.toNat) (hi : n.toNat ≤ 3) : decWidth n m = .ok (n.toNat, m) := by
  rw [decWidth, if_pos (by simp [lo, hi])]; rfl

section
variable (h : CanRun s q len m) (n : BitVec 8) (lo : 1 ≤ n.toNat) (hi : n.toNat ≤ 3)
include h lo hi

/-- DADD and DSUB without a trap: the encoded result, and FPC.DO where digits were lost. -/
theorem dec_run (f : Int → Int → Int) (da db rest : List Word) (ha : da.length = n.toNat) (hb : db.length = n.toNat)
    (room : rest.length ≤ 12) (valid : decFault da db = none) (hd : (s.toMach.arch q).ds = db ++ da ++ rest)
    (bounds : (s.toMach.arch q).stackFault false (2 * n.toNat) n.toNat = none)
    (noTrap : (decEnc n.toNat (f (decVal da) (decVal db))).2 = true → nbit (s.toMach.arch q).fpc.toNat 12 = false) :
    InLine (s.toMach.arch q) ((s.toMach.coreRun q len (decBody q n f)).arch q) len
      ((decEnc n.toNat (f (decVal da) (decVal db))).1 ++ rest) (s.toMach.arch q).rs
      (dspIs (s.toMach.arch q) ((s.toMach.arch q).ptr false - n.toNat) ::
        if (decEnc n.toNat (f (decVal da) (decVal db))).2 then [fpcIs (s.toMach.arch q) 32] else []) := by
  rcases hr : decEnc n.toNat (f (decVal da) (decVal db)) with ⟨res, lost⟩
  rw [hr] at noTrap
  have resLen : res.length = n.toNat := by have := (decEnc_spec n.toNat (f (decVal da) (decVal db)) lo).1; rwa [hr] at this
  have topLen : (db ++ da).length = 2 * n.toNat := by rw [List.length_append]; omega
  have e := h.arch
  rw [← e] at hd bounds
  obtain ⟨x, o, pop, push, steps, move⟩ := pop_push q m (db ++ da) res rest hd (by rw [topLen, resLen]; exact bounds) (by omega)
  rw [topLen] at pop
  rw [topLen, resLen, show ∀ p, p + n.toNat - 2 * n.toNat = p - n.toNat by omega] at move
  have fpc : (o.arch q).fpc = (s.toMach.arch q).fpc := by rw [← e]; exact move.own_other 0xC (by decide)
  have run : ∀ p, (do
      let a ← getArch q
      if lost then
        setArch q a.raiseDo
        if nbit a.fpc.toNat 12 then
          if a.fp.isSome then coreExc Cause.dovf 0
          pure (.trap { cause := Cause.dovf, detail := dovfDetail a.pc 2 a.litk })
        else pure (.next false)
      else pure (.next false) : CoreAct Flow) o = .ok (.next false, p) → decBody q n f m = .ok (.next false, p) := by
    intro p run
    rw [decBody, coreBind_ok _ _ _ _ _ (decWidth_ok n m lo hi), coreBind_ok _ _ _ _ _ (stackCheck_ok q false _ _ m bounds),
      coreBind_ok _ _ _ _ _ pop]
    simp only [List.take_left' hb, List.drop_left' hb, valid, hr]
    rw [coreBind_ok _ _ _ _ _ push]
    exact run
  have ds : (o.arch q).ds = res ++ rest := move.stk
  have rs : (o.arch q).rs = (s.toMach.arch q).rs := by rw [← e]; exact move.other
  have cells := move.cellsOnly
  rw [e] at cells move
  cases lost with
  | false =>
    have line := h.inLine (run o rfl) rfl (.of_steps steps) rfl cells move.pc move.litk move.fp (fun e => by cases e)
    rw [ds, rs] at line
    exact line
  | true =>
    have body : decBody q n f m = .ok (.next false, o.setArch q (o.arch q).raiseDo) := by
      refine run _ ((coreBind_ok _ _ _ _ _ (getArch_eq q o)).trans ?_)
      rw [if_pos rfl, fpc, noTrap rfl]
      rfl
    have line := h.inLine body rfl (.of_steps (.step _ _ steps)) (Mach.arch_setArch_self _ _ _)
      ((cells.setCell 0 0xC ((o.arch q).fpc ||| 32) (by decide)).swap (by omega)) move.pc move.litk move.fp (fun e => by cases e)
    rw [fpc] at line
    change InLine _ _ _ (o.arch q).ds (o.arch q).rs _ at line
    rw [ds, rs] at line
    exact line

theorem dcmp_run (da db rest : List Word) (ha : da.length = n.toNat) (hb : db.length = n.toNat) (room : rest.length ≤ 15)
    (valid : decFault da db = none) (hd : (s.toMach.arch q).ds = db ++ da ++ rest)
    (bounds : (s.toMach.arch q).stackFault false (2 * n.toNat) 1 = none) :
    InLine (s.toMach.arch q) ((s.toMach.coreRun q len (dcmpBody q n)).arch q) len (w48 (decCmp da db) :: rest)
      (s.toMach.arch q).rs [dspIs (s.toMach.arch q) ((s.toMach.arch q).ptr false + 1 - 2 * n.toNat)] := by
  have topLen : (db ++ da).length = 2 * n.toNat := by rw [List.length_append]; omega
  have e := h.arch
  rw [← e] at hd bounds
  obtain ⟨x, o, pop, push, steps, move⟩ :=
    pop_push q m (db ++ da) [w48 (decCmp da db)] rest hd (by rw [topLen]; exact bounds) (by simp; omega)
  obtain ⟨y, all, push⟩ := pushAll_concat q [] _ x o push
  obtain ⟨-, rfl⟩ := coreOk_inj all
  rw [topLen] at pop move
  have body : dcmpBody q n m = .ok (.next false, o) := by
    rw [dcmpBody, coreBind_ok _ _ _ _ _ (decWidth_ok n m lo hi), coreBind_ok _ _ _ _ _ (stackCheck_ok q false _ _ m bounds),
      coreBind_ok _ _ _ _ _ pop]
    simp only [List.take_left' hb, List.drop_left' hb, valid]
    rw [coreBind_ok _ _ _ _ _ push]
    rfl
  have cells := move.cellsOnly
  rw [e] at cells move
  have line := h.inLine body rfl (.of_steps steps) rfl cells move.pc move.litk move.fp (fun e => by cases e)
  rw [show (o.arch q).ds = w48 (decCmp da db) :: rest from move.stk,
    show (o.arch q).rs = (s.toMach.arch q).rs from move.other] at line
  exact line

theorem dchk_run (da rest : List Word) (ha : da.length = n.toNat) (room : rest.length ≤ 12)
    (hd : (s.toMach.arch q).ds = da ++ rest) (bounds : (s.toMach.arch q).stackFault false n.toNat (n.toNat + 1) = none) :
    InLine (s.toMach.arch q) ((s.toMach.coreRun q len (dchkBody q n)).arch q) len (truth (decBad da).isNone :: da ++ rest)
      (s.toMach.arch q).rs [dspIs (s.toMach.arch q) ((s.toMach.arch q).ptr false + 1)] := by
  have e := h.arch
  rw [← e] at hd bounds
  obtain ⟨x, o, pop, push, steps, move⟩ := pop_push q m da (truth (decBad da).isNone :: da) rest hd
    (by rw [List.length_cons, ha]; exact bounds) (by simp; omega)
  rw [List.reverse_cons] at push
  obtain ⟨y, all, push⟩ := pushAll_concat q _ _ x o push
  rw [ha] at pop
  rw [List.length_cons, show ∀ p, p + (da.length + 1) - da.length = p + 1 by omega] at move
  have body : dchkBody q n m = .ok (.next false, o) := by
    rw [dchkBody, coreBind_ok _ _ _ _ _ (decWidth_ok n m lo hi), coreBind_ok _ _ _ _ _ (stackCheck_ok q false _ _ m bounds),
      coreBind_ok _ _ _ _ _ pop, coreBind_ok _ _ _ _ _ all, coreBind_ok _ _ _ _ _ push]
    rfl
  have cells := move.cellsOnly
  rw [e] at cells move
  have line := h.inLine body rfl (.of_steps steps) rfl cells move.pc move.litk move.fp (fun e => by cases e)
  rw [show (o.arch q).ds = truth (decBad da).isNone :: da ++ rest from move.stk,
    show (o.arch q).rs = (s.toMach.arch q).rs from move.other] at line
  exact line

end

/-- Settles O3. -/
theorem decimalResults : Obligations.DecimalResults := by
  intro s q m n da db rest h k a lim lo hi ha hb room
  have lost : ∀ v : Int, (decEnc k v).2 = decide (lim ≤ v.natAbs) := fun v => (decEnc_spec k v lo).2.2.2.2
  have arith : ∀ f : Int → Int → Int, decFault da db = none → a.ds = db ++ da ++ rest → a.stackFault false (2 * k) k = none →
      ((f (decVal da) (decVal db)).natAbs < lim ∨ nbit a.fpc.toNat 12 = false) →
      let v := f (decVal da) (decVal db)
      ∃ res, res.length = k ∧ decBad res = none ∧ decVal res = v.sign * (v.natAbs % lim : Nat) ∧
        (decNibbles res).head? = some (if v < 0 ∧ v.natAbs % lim ≠ 0 then 0xD else 0xC) ∧
        InLine a ((s.toMach.coreRun q.val 2 (decBody q.val n f)).arch q.val) 2 (res ++ rest) a.rs
          (dspIs a (a.ptr false - k) :: if v.natAbs < lim then [] else [fpcIs a 32]) := by
    intro f valid hd bounds noTrap v
    obtain ⟨length, good, value, sign, -⟩ := decEnc_spec k v lo
    refine ⟨(decEnc k v).1, length, good, value, sign, ?_⟩
    have run := dec_run h n lo hi f da db rest ha hb room valid hd bounds fun e =>
      noTrap.resolve_left (by rw [lost, decide_eq_true_iff] at e; exact not_lt.mpr e)
    have flag : (if (decEnc k v).2 then [fpcIs a 32] else []) = if v.natAbs < lim then [] else [fpcIs a 32] := by
      rw [lost, ← ite_not]; simp only [decide_eq_true_iff, not_le]
    rwa [flag] at run
  refine ⟨?_, fun valid hd bounds => ⟨_, rfl, ?_⟩, fun hd bounds => ⟨_, rfl, ?_⟩⟩
  · simp only [List.forall_mem_cons, List.not_mem_nil, false_implies, implies_true, and_true]
    refine ⟨fun valid hd bounds noTrap => ?_, fun valid hd bounds noTrap => ?_⟩
    · exact ⟨_, (arith (· + ·) valid hd bounds noTrap).imp fun res run => ⟨rfl, run⟩⟩
    · exact ⟨_, (arith (· - ·) valid hd bounds noTrap).imp fun res run => ⟨rfl, run⟩⟩
  · have run := dcmp_run h n lo hi da db rest ha hb (by omega) valid hd bounds
    have word : w48 (decCmp da db) = if decVal da = decVal db then 0 else if decVal da < decVal db then 1 else 2 := by
      unfold decCmp; split_ifs <;> rfl
    rwa [word] at run
  · have run := dchk_run h n lo hi da rest ha room hd bounds
    rw [truth_eq] at run
    simpa only [Option.isNone_iff_eq_none] using run

end Sys2Proof.Machine
end

section
/-! PROOFS. F48 operations (R252, R265 to R270). -/

namespace Sys2Proof.Machine
open Sys2Proof

variable {s : State} {q len : Nat} {m : Mach}

/-! ### What an F48 operation leaves of a seat -/

/-- Changes one after the other. -/
theorem CellsOnly.trans {a b c : Arch} {l l' : List (Nat × Nat × Word)} (h : CellsOnly a b l) (g : CellsOnly b c l') :
    CellsOnly a c (l' ++ l) := by
  refine ⟨g.wld.trans h.wld, g.waiting.trans h.waiting, g.bar.trans h.bar, fun o ho => (g.reg o ho).trans (h.reg o ho),
    fun k n hn => (g.cell k n hn).trans ?_⟩
  clear g
  induction l' with
  | nil => exact h.cell k n hn
  | cons e l' ih => simp only [cellsBut, List.cons_append, ih]

theorem Arch.raiseFp_cells (a : Arch) (flags : Nat) : CellsOnly a (a.raiseFp flags) [fpcIs a flags] := by
  have cells := (CellsOnly.refl a).setCell 0 0xC (a.fpc ||| w48 flags) (by decide)
  exact ⟨rfl, rfl, rfl, cells.reg, cells.cell⟩

/-- Flags are raised the same above the popped operands. -/
theorem StackMove.raiseFp {rs : Bool} {a b : Arch} {l : List Word} {p : Nat} (h : StackMove rs a b l p) (flags : Nat) :
    StackMove rs (a.raiseFp flags) (b.raiseFp flags) l p := by
  have fpc : b.fpc = a.fpc := h.own_other 0xC (by decide)
  have stk : ∀ c : Arch, ∀ r, (c.raiseFp flags).stk r = c.stk r := fun c r => by cases r <;> rfl
  refine ⟨h.pc, h.litk, (stk b rs).trans h.stk, by rw [stk, stk]; exact h.other, h.wld, h.waiting, ?_, h.bar, h.regs,
    fun k n hn => ?_⟩
  · show fpPend b.fpc b.fp flags = fpPend a.fpc a.fp flags
    rw [fpc, h.fp]
  · have lt := ptrCell_lt rs
    show (b.setCell 0 0xC (b.fpc ||| w48 flags)).cell k n =
      if k = a.wld + 1 ∧ n = ptrCell rs then w48 p else (a.setCell 0 0xC (a.fpc ||| w48 flags)).cell k n
    rw [Arch.cell_setCell, Arch.cell_setCell, h.cell k n hn, fpc]
    by_cases e : k = a.wld + 1 ∧ n = ptrCell rs
    · rw [if_pos e, if_neg (by omega), if_pos e]
    · rw [if_neg e, if_neg e]

theorem fpPend_young (fpc : Word) (old : Option (Nat × Nat)) (flags : Nat) (h : ∀ x, old = some x → x.2 < 16) :
    ∀ x, fpPend fpc old flags = some x → x.2 < 16 := by
  intro x hx
  unfold fpPend at hx
  simp only at hx
  split at hx
  · exact h x hx
  · split at hx
    · have young := h _ rfl; cases hx; exact young
    · cases hx; exact Nat.zero_lt_succ 15

/-- An F48 operation whose operands and results are in the core. -/
theorem fp_run (h : CanRun s q len m) (f : FMode → List Nat → List Nat × Nat) (top res rest : List Word) (nums : List Nat)
    (flags : Nat) (hd : (s.toMach.arch q).ds = top ++ rest)
    (hb : (s.toMach.arch q).stackFault false top.length res.length = none) (room : res.length + rest.length ≤ 16)
    (hf : f (fmode (s.toMach.arch q).fpc) (top.reverse.map BitVec.toNat) = (nums, flags)) (hn : nums.map w48 = res.reverse) :
    Leaves (s.toMach.arch q) ((s.toMach.coreRun q len (fpBody q top.length res.length f)).arch q)
      (nextPc (s.toMach.arch q).pc len (s.toMach.arch q).litk)
      (if (s.toMach.arch q).pc % 8 + len < 6 then (s.toMach.arch q).litk else 0) (res ++ rest) (s.toMach.arch q).rs
      (fpPend (s.toMach.arch q).fpc (s.toMach.arch q).fp flags)
      [dspIs (s.toMach.arch q) ((s.toMach.arch q).ptr false + res.length - top.length), fpcIs (s.toMach.arch q) flags] := by
  have e := h.arch
  rw [← e] at hd hb hf
  have lt : (m.arch q).ptr false < 2 ^ 48 := ((m.arch q).own (ptrCell false)).isLt
  have bound := stackFault_bounds _ _ _ _ hb
  obtain ⟨n, steps, move, run⟩ := pops_in q m top.length res.length top rest rfl hd hb
  have fpc : (n.arch q).fpc = (m.arch q).fpc := move.own_other 0xC (by decide)
  let b := (n.arch q).raiseFp flags
  have raised : StackMove false ((m.arch q).raiseFp flags) ((n.setArch q b).arch q) rest ((m.arch q).ptr false - top.length) := by
    rw [Mach.arch_setArch_self]; exact move.raiseFp flags
  obtain ⟨o, push, steps, move⟩ := pushAll_in q res.reverse m (n.setArch q b) _ rest _ (.step n b steps) raised
    (by simpa using room) (by simp; omega)
  rw [List.reverse_reverse, List.length_reverse,
    show (m.arch q).ptr false - top.length + res.length = (m.arch q).ptr false + res.length - top.length by omega] at move
  have body : fpBody q top.length res.length f m = .ok (.next false, o) := by
    have act : (do
        let a ← getArch q
        let r := f (fmode a.fpc) (top.reverse.map BitVec.toNat)
        setArch q (a.raiseFp r.2)
        pure (r.1.map w48) : CoreAct (List Word)) n = .ok (res.reverse, n.setArch q b) := by
      rw [coreBind_ok _ _ _ _ _ (getArch_eq q n), fpc, hf, ← hn]; rfl
    rw [fpBody, dsBody, coreBind_ok _ _ _ _ _ ((run _).trans ((coreBind_ok _ _ _ _ _ act).trans push))]
    rfl
  have cells := ((m.arch q).raiseFp_cells flags).trans move.cellsOnly
  rw [e] at cells move
  have fp : (o.arch q).fp = fpPend (s.toMach.arch q).fpc (s.toMach.arch q).fp flags := move.fp
  have line := h.leaves_next body rfl (.of_steps steps) rfl cells
    (fun x hx => fpPend_young _ _ _ h.young x (by rw [← fp]; exact hx)) (fun e => by cases e)
  rw [show (o.arch q).ds = res ++ rest from move.stk, show (o.arch q).rs = (s.toMach.arch q).rs from move.other, fp,
    show (o.arch q).pc = (s.toMach.arch q).pc from move.pc, show (o.arch q).litk = (s.toMach.arch q).litk from move.litk] at line
  exact line

/-! ### Integers through F48 (R267, R269) -/

/-- A shift that loses nothing is exact. -/
theorem roundShift_right (rm : Nat) (s : Bool) (m n : Nat) {k : Int} (h : k = n) : roundShift rm s (m * 2 ^ n) k = (m, false) := by
  subst h
  unfold roundShift
  split
  · rw [show n = 0 by omega]; simp
  · simp [Nat.shiftRight_eq_div_pow, roundUp]

theorem roundShift_left (rm : Nat) (s : Bool) (m n : Nat) {k : Int} (h : k = -(n : Int)) :
    roundShift rm s m k = (m * 2 ^ n, false) := by
  rw [h, roundShift, if_pos (by omega), Int.neg_neg, Int.toNat_natCast, Nat.shiftLeft_eq]

/-- The value of a normal number's encoding. -/
theorem f48Val_normal (daz s : Bool) (x t : Nat) (lo : 0 < x) (hi : x < 0x7FF) (ht : t < 2 ^ 36) :
    f48Val daz (f48Zero s + (x <<< 36) + t) = .fin s (2 ^ 36 + t) ((x : Int) - 1059) := by
  have hs : f48Sign (f48Zero s + (x <<< 36) + t) = s := by
    rw [f48Sign, nbit, Nat.shiftRight_eq_div_pow, Nat.shiftLeft_eq]
    cases s
    · rw [show f48Zero false = 0 from rfl]; simp; omega
    · rw [show f48Zero true = 2 ^ 47 from rfl]; simp; omega
  have mul : x <<< 36 = x * 2 ^ 36 := Nat.shiftLeft_eq _ _
  have zero : f48Zero s = 0 ∨ f48Zero s = 2 ^ 47 := by cases s <;> simp [f48Zero]
  have he : f48Exp (f48Zero s + (x <<< 36) + t) = x := by
    rw [f48Exp, nbits, Nat.shiftRight_eq_div_pow, mul]; omega
  have hf : f48Frac (f48Zero s + (x <<< 36) + t) = t := by
    rw [f48Frac, nbits, Nat.shiftRight_eq_div_pow, mul]; omega
  simp only [f48Val, hs, he, hf]
  rw [if_neg (by omega), if_neg (by omega)]

/-- An integer whose significand fits is its own rounding. -/
theorem f48Round_exact (md : FMode) (s : Bool) (n p l : Nat) (hn : n ≠ 0) (hl : n.log2 = l) (le : l ≤ 1000)
    (lo : 2 ^ 36 ≤ p) (hi : p < 2 ^ 37) (shift : roundShift md.rm s (2 * n) ((l : Int) - 35) = (p, false)) :
    f48Round md s n 0 false = (f48Zero s + ((l + 1023) <<< 36) + (p - 2 ^ 36), 0) := by
  have log : (2 * n).log2 = l + 1 := by rw [Nat.log2_two_mul hn, hl]
  have q0 : ((-1 : Int) + ((l + 1 : Nat) : Int) - 36) = (l : Int) - 36 := by omega
  have k : (l : Int) - 36 - -1 = (l : Int) - 35 := by omega
  have top : ¬ ((-1 : Int) + ((l + 1 : Nat) : Int) > 1023) := by omega
  have big : max ((l : Int) - 36) (-1058) = (l : Int) - 36 := max_eq_left (by omega)
  have expo : ((l : Int) - 36 + 1059).toNat = l + 1023 := by omega
  unfold f48Round
  simp only [b2n, Bool.false_eq_true, if_false, Nat.add_zero, Int.zero_sub, log, q0, k, big, shift, expo,
    show ¬ 2 * n = 0 by omega, show ¬ p ≥ 2 ^ 37 by omega, show ¬ p < 2 ^ 36 by omega, top]
  simp

/-- An integer of at most 37 bits and its significand of 37 bits: each is an exact shift of the other. -/
theorem exact_significand (n : Nat) (hn : n ≠ 0) (h : n ≤ 2 ^ 37) : ∃ l p, n.log2 = l ∧ l ≤ 37 ∧ 2 ^ 36 ≤ p ∧ p < 2 ^ 37 ∧
    (∀ rm s, roundShift rm s (2 * n) ((l : Int) - 35) = (p, false)) ∧
    ∀ rm s, roundShift rm s p (36 - (l : Int)) = (n, false) := by
  obtain ⟨l, hl⟩ : ∃ l, n.log2 = l := ⟨_, rfl⟩
  have lo : 2 ^ l ≤ n := hl ▸ Nat.log2_self_le hn
  have hi : n < 2 ^ (l + 1) := hl ▸ Nat.lt_log2_self
  have le : l ≤ 37 := (Nat.pow_le_pow_iff_right (by decide)).mp (lo.trans h)
  rcases show l ≤ 35 ∨ l = 36 ∨ l = 37 by omega with small | rfl | rfl
  · obtain ⟨k, hk⟩ : ∃ k, l + k = 35 := ⟨35 - l, by omega⟩
    have scale : ∀ x : Nat, x = 2 ^ l * 2 ^ (k + 1) → x = 2 ^ 36 := fun x e => by rw [e, ← pow_add]; congr 1; omega
    have pos : 0 < 2 ^ (k + 1) := by positivity
    refine ⟨l, n * 2 ^ (k + 1), hl, le, ?_, ?_, fun rm s => ?_, fun rm s => roundShift_right rm s n (k + 1) (by omega)⟩
    · exact (scale _ rfl).ge.trans (Nat.mul_le_mul_right _ lo)
    · refine (Nat.mul_lt_mul_of_pos_right hi pos).trans_eq ?_
      rw [← pow_add]; congr 1; omega
    · rw [roundShift_left rm s (2 * n) k (by omega), pow_succ]; congr 1; ring
  · refine ⟨36, n, hl, by decide, lo, hi, fun rm s => ?_, fun rm s => ?_⟩
    · rw [Nat.mul_comm]; exact roundShift_right rm s n 1 (by decide)
    · exact (roundShift_left rm s n 0 (by decide)).trans (by simp)
  · obtain rfl : n = 2 ^ 37 := le_antisymm h lo
    refine ⟨37, 2 ^ 36, hl, le_refl _, le_refl _, by norm_num, fun rm s => ?_, fun rm s => ?_⟩
    · rw [show 2 * 2 ^ 37 = 2 ^ 36 * 2 ^ 2 by norm_num, roundShift_right rm s (2 ^ 36) 2 (by norm_num)]
    · rw [roundShift_left rm s (2 ^ 36) 1 (by norm_num), show 2 ^ 36 * 2 ^ 1 = 2 ^ 37 by norm_num]

theorem roundShift_zero (rm : Nat) (s : Bool) (k : Int) : roundShift rm s 0 k = (0, false) := by
  unfold roundShift
  split <;> simp [roundUp]

theorem f48Val_zero (daz : Bool) : ∃ e, f48Val daz 0 = .fin false 0 e := by
  cases daz
  · exact ⟨-1058, rfl⟩
  · exact ⟨0, rfl⟩

theorem f48ToInt_exact (md : FMode) (a : Nat) (s : Bool) (p n : Nat) (e : Int) (val : f48Val md.daz a = .fin s p e)
    (shift : roundShift md.rm s p (-e) = (n, false)) (h : n ≤ 2 ^ 37) :
    f48ToInt md a = (unsgn 48 (if s then -(n : Int) else n), 0) := by
  have small : ¬ ((decide ((if s then -(n : Int) else n) < -(2 ^ 47 : Int)) ||
      decide ((if s then -(n : Int) else n) > 2 ^ 47 - 1)) = true) := by
    rw [Bool.or_eq_true, decide_eq_true_iff, decide_eq_true_iff]
    split <;> omega
  rw [f48ToInt, val]
  simp only [shift]
  exact if_neg small

/-- FCVTI gives back what FCVTF made of an integer of at most 37 bits. -/
theorem f48ToInt_f48OfSigned (md : FMode) (w : Word) (h : w.toInt.natAbs ≤ 2 ^ 37) :
    (f48OfSigned md w.toNat).2 = 0 ∧ f48ToInt md (f48OfSigned md w.toNat).1 = (w.toNat, 0) := by
  have back : unsgn 48 w.toInt = w.toNat := by
    have word := congrArg BitVec.toNat ((wordOf_eq_ofInt w.toInt).trans (BitVec.ofInt_toInt ..))
    rwa [wordOf, w48, BitVec.toNat_ofNat, Nat.mod_eq_of_lt] at word
    rw [unsgn]; omega
  rw [f48OfSigned, show sgn 48 w.toNat = w.toInt from sgn_eq_toInt (w := 47) w, f48OfInt]
  by_cases zero : w.toInt = 0
  · obtain ⟨e, val⟩ := f48Val_zero md.daz
    rw [zero] at back
    simp only [zero, if_true, show f48Zero false = 0 from rfl, f48ToInt, val, roundShift_zero]
    exact ⟨trivial, congrArg (·, 0) back⟩
  · obtain ⟨l, p, hl, le, lo, hi, shift, unshift⟩ := exact_significand w.toInt.natAbs (by omega) h
    rw [if_neg zero, f48Round_exact md _ _ p l (by omega) hl (by omega) lo hi (shift _ _)]
    refine ⟨rfl, ?_⟩
    have val := f48Val_normal md.daz (decide (w.toInt < 0)) (l + 1023) (p - 2 ^ 36) (by omega) (by omega) (by omega)
    rw [show 2 ^ 36 + (p - 2 ^ 36) = p by omega] at val
    have same : (if decide (w.toInt < 0) = true then -(w.toInt.natAbs : Int) else w.toInt.natAbs) = w.toInt := by
      simp only [decide_eq_true_iff]; split <;> omega
    have expo : -(((l + 1023 : Nat) : Int) - 1059) = 36 - (l : Int) := by omega
    rw [f48ToInt_exact md _ _ p _ _ val (by rw [expo]; exact unshift _ _) h, same, back]

theorem w48_mod (n : Nat) : w48 (n % 2 ^ 48) = w48 n := BitVec.eq_of_toNat_eq (by simp [w48])

/-- An F48 operation of one result. -/
theorem fp1_run (h : CanRun s q len m) (f : FMode → List Nat → Nat × Nat) (top rest : List Word) (r : Nat × Nat)
    (hd : (s.toMach.arch q).ds = top ++ rest) (hb : (s.toMach.arch q).stackFault false top.length 1 = none)
    (room : rest.length ≤ 14) (hf : f (fmode (s.toMach.arch q).fpc) (top.reverse.map BitVec.toNat) = r) :
    Leaves (s.toMach.arch q) ((s.toMach.coreRun q len (fpBody q top.length 1 fun md l => fp1 (f md l))).arch q)
      (nextPc (s.toMach.arch q).pc len (s.toMach.arch q).litk)
      (if (s.toMach.arch q).pc % 8 + len < 6 then (s.toMach.arch q).litk else 0) ([w48 r.1] ++ rest) (s.toMach.arch q).rs
      (fpPend (s.toMach.arch q).fpc (s.toMach.arch q).fp r.2)
      [dspIs (s.toMach.arch q) ((s.toMach.arch q).ptr false + 1 - top.length), fpcIs (s.toMach.arch q) r.2] :=
  fp_run h (fun md l => fp1 (f md l)) top [w48 r.1] rest [r.1] r.2 hd hb (by rw [List.length_singleton]; omega) (by rw [hf]; rfl) rfl

/-- Settles O4. -/
theorem floatResults : Obligations.FloatResults := by
  refine ⟨fun s q m a b c rest h => ?_, fun md w hw _ => f48ToInt_f48OfSigned md w hw⟩
  let md := fmode (s.toMach.arch q.val).fpc
  repeat' refine List.forall_mem_cons.mpr ⟨?_, ?_⟩
  · exact fun hd hb hr => ⟨_, rfl, fp1_run h (fun md l => f48Add md (l.getD 0 0) (l.getD 1 0)) [b, a] rest (f48Add md a.toNat b.toNat) hd hb hr rfl⟩
  · exact fun hd hb hr => ⟨_, rfl, fp1_run h (fun md l => f48Sub md (l.getD 0 0) (l.getD 1 0)) [b, a] rest (f48Sub md a.toNat b.toNat) hd hb hr rfl⟩
  · exact fun hd hb hr => ⟨_, rfl, fp1_run h (fun md l => f48Mul md (l.getD 0 0) (l.getD 1 0)) [b, a] rest (f48Mul md a.toNat b.toNat) hd hb hr rfl⟩
  · exact fun hd hb hr => ⟨_, rfl, fp1_run h (fun md l => f48Div md (l.getD 0 0) (l.getD 1 0)) [b, a] rest (f48Div md a.toNat b.toNat) hd hb hr rfl⟩
  · exact fun hd hb hr => ⟨_, rfl, fp1_run h (fun md l => f48Sqrt md (l.getD 0 0)) [b] rest (f48Sqrt md b.toNat) hd hb hr rfl⟩
  · exact fun hd hb hr => ⟨_, rfl, fp1_run h (fun md l => f48Fma md (l.getD 0 0) (l.getD 1 0) (l.getD 2 0)) [c, b, a] rest
      (f48Fma md a.toNat b.toNat c.toNat) hd hb hr rfl⟩
  · exact fun hd hb hr => ⟨_, rfl, fp1_run h (fun md l => f48Cmp md (l.getD 0 0) (l.getD 1 0)) [b, a] rest (f48Cmp md a.toNat b.toNat) hd hb hr rfl⟩
  · exact fun hd hb hr => ⟨_, rfl, fp1_run h (fun md l => f48ToInt md (l.getD 0 0)) [b] rest (f48ToInt md b.toNat) hd hb hr rfl⟩
  · exact fun hd hb hr => ⟨_, rfl, fp1_run h (fun md l => f48OfSigned md (l.getD 0 0)) [b] rest (f48OfSigned md b.toNat) hd hb hr rfl⟩
  · refine fun hd hb hr => ⟨_, rfl, fp_run h _ [b] [_, _] rest [(f48ToD md b.toNat).1 / 2 ^ 48, (f48ToD md b.toNat).1 % 2 ^ 48]
      (f48ToD md b.toNat).2 hd hb (by simp; omega) rfl ?_⟩
    rw [List.map_cons, List.map_cons, w48_mod]; rfl
  · refine fun hd hb hr => ⟨_, rfl, ?_⟩
    rw [show a.toNat % 2 ^ 16 = a.toNat % 65536 by norm_num]
    exact fp1_run h (fun md l => f48OfD md (l.getD 0 0 % 65536 * 2 ^ 48 + l.getD 1 0)) [b, a] rest
      (f48OfD md (a.toNat % 65536 * 2 ^ 48 + b.toNat)) hd hb hr rfl
  · exact fun _ none => absurd none List.not_mem_nil

end Sys2Proof.Machine
end

section
/-! PROOFS. Groups that end, levels that are entered and left (R224, R226, R232, R233, R306). -/

namespace Sys2Proof.Machine
open Sys2Proof

variable {s : State} {q len : Nat} {m : Mach}

/-! ### What the end of an instruction leaves of its seat (R283, R306) -/

/-- A seat without its architected state, what counts toward its group and checkpoint, and what its near store notes of accesses. -/
def Seat.settled (s : Seat) : Seat :=
  { s with
    arch := {}, ckpt := {}, group := 0, retries := 0, fresh := false, step := false, haltReq := false, moving := none,
    moveCause := 0, rotTo := none, acc := [], plru := [] }

/-- A seat without its architected state and what its near store notes of accesses: what counting leaves alone. -/
def Seat.uncounted (s : Seat) : Seat := { s with arch := {}, acc := [], plru := [] }

theorem settled_of_uncounted {x y : Seat} (h : x.uncounted = y.uncounted) : x.settled = y.settled :=
  show x.uncounted.settled = y.uncounted.settled from congrArg Seat.settled h

theorem retries_of_uncounted {x y : Seat} (h : x.uncounted = y.uncounted) : x.retries = y.retries :=
  (congrArg Seat.retries h : _)

theorem uncounted_setArch (m : Mach) (q : Nat) (a : Arch) : ((m.setArch q a).seat q).uncounted = (m.seat q).uncounted := by
  rw [Mach.setArch, Mach.seat_setSeat, if_pos rfl]; rfl

theorem uncounted_foldl {β : Type} (q : Nat) (f : Mach → β → Mach) (h : ∀ m b, ((f m b).seat q).uncounted = (m.seat q).uncounted)
    (l : List β) (m : Mach) : ((l.foldl f m).seat q).uncounted = (m.seat q).uncounted := by
  induction l generalizing m with
  | nil => rfl
  | cons b l ih => exact (ih _).trans (h m b)

theorem uncounted_pmc (m : Mach) (q ev n : Nat) : ((m.pmc q ev n).seat q).uncounted = (m.seat q).uncounted := by
  unfold Mach.pmc
  simp only []
  split
  · rfl
  · exact uncounted_setArch _ _ _

theorem uncounted_nsCount (q : Nat) (m : Mach) (e : NsEv) : ((Mach.nsCount q m e).seat q).uncounted = (m.seat q).uncounted := by
  cases e <;> simp only [Mach.nsCount, uncounted_pmc]
  split
  · rw [Mach.seat_setSeat, if_pos rfl]; rfl
  · rfl

theorem uncounted_nsRetire (m : Mach) (q : Nat) : ((m.nsRetire q).seat q).uncounted = (m.seat q).uncounted := by
  unfold Mach.nsRetire
  simp only []
  split
  · rfl
  · exact (uncounted_foldl q _ (uncounted_nsCount q) _ _).trans (by rw [Mach.seat_setSeat, if_pos rfl]; rfl)

theorem uncounted_countInstr (m : Mach) (q : Nat) (fold : Bool) :
    ((m.countInstr q fold).seat q).uncounted = (m.seat q).uncounted := by
  unfold Mach.countInstr Mach.pmcFree
  refine (uncounted_foldl q _ (fun x ev => ?_) _ _).trans ((uncounted_pmc _ q _ _).trans (uncounted_nsRetire m q))
  split
  · exact uncounted_pmc _ q _ _
  · rfl

theorem settled_setSeat (m : Mach) (q : Nat) (x : Seat) (h : x.settled = (m.seat q).settled) :
    ((m.setSeat q x).seat q).settled = (m.seat q).settled := by rw [Mach.seat_setSeat, if_pos rfl, h]

theorem seat_setFld (m : Mach) (a : Nat) (f : Fld) (v j : Nat) : (m.setFld a f v).seat j = m.seat j := by
  simp [Mach.setFld]

theorem seat_cluEvent (m : Mach) (c e s x y r j : Nat) : (m.cluEvent c e s x y r).seat j = m.seat j := by
  rw [Mach.cluEvent, Mach.seat, (seats_raise _ _).1]; simp [Mach.seat]

theorem settled_atCheckpoint (m : Mach) (q : Nat) : ((m.atCheckpoint q).seat q).settled = (m.seat q).settled := by
  unfold Mach.atCheckpoint
  simp only []
  split
  · split
    · rw [Mach.beginMove, Mach.seat_setSeat, if_pos rfl]; rfl
    · rfl
  · split
    · rw [Mach.seat_setSeat, if_pos rfl]; rfl
    · rfl

theorem drain_nil (m : Mach) (q : Nat) (h : (m.seat q).stores = []) : m.drain q = m := by simp [Mach.drain, h]

theorem settled_endGroup (m : Mach) (q : Nat) (h : (m.seat q).stores = []) :
    ((m.endGroup q).seat q).settled = (m.seat q).settled := by
  rw [Mach.endGroup, settled_atCheckpoint, Mach.closeGroup, drain_nil m q h]
  simp only []
  split
  · exact settled_setSeat _ _ _ rfl
  · rw [seat_cluEvent, Mach.seat_setReg, Mach.count, Mach.seat_setReg]
    exact settled_setSeat _ _ _ rfl

theorem stores_of_settled {x y : Seat} (h : x.settled = y.settled) : x.stores = y.stores := (congrArg Seat.stores h : _)

theorem reset_of_settled {x y : Seat} (h : x.settled = y.settled) : x.resetReq = y.resetReq :=
  (congrArg Seat.resetReq h : _)

/-- An action instruction that has counted itself ends its group: its seat's architected state is only older (R270, R306). -/
theorem endInstr_keeps (m : Mach) (q : Nat) (h : (m.seat q).stores = []) :
    ((m.endInstr q true).arch q) = (m.arch q).aged ∧ (m.endInstr q true).memst = m.memst ∧
      ((m.endInstr q true).seat q).settled = (m.seat q).settled := by
  obtain ⟨x, hx⟩ : ∃ x : Seat, x = { m.seat q with
      group := (m.seat q).group + 1
      step := false
      arch := { (m.seat q).arch with fp := (m.seat q).arch.fp.map (fun (x : Nat × Nat) => (x.1, x.2 + 1)) } } := ⟨_, rfl⟩
  have e : m.endInstr q true = (m.setSeat q x).endGroup q := by rw [hx]; rfl
  have set : (m.setSeat q x).seat q = x := by rw [Mach.seat_setSeat, if_pos rfl]
  have none : ((m.setSeat q x).seat q).stores = [] := by rw [set, hx]; exact h
  have same := sameArch_endGroup _ q none
  rw [e]
  refine ⟨(same.arch q).trans ?_, same.memst, (settled_endGroup _ q none).trans ?_⟩
  · rw [Mach.arch, set, hx]; rfl
  · rw [set, hx]; rfl

theorem fpDue_young (m : Mach) (q : Nat) (h : ∀ x, (m.arch q).fp = some x → x.2 < 17) : m.fpDue q false = m := by
  unfold Mach.fpDue
  simp only []
  split
  · rename_i e
    have := h _ e
    rw [if_neg (by simp; omega)]
  · rfl

/-- An action instruction that has put the pc where it goes. -/
theorem CanRun.leaves_done (h : CanRun s q len m) {body : CoreAct Flow} {n : Mach} (hb : body m = .ok (.done, n))
    (memst : n.memst = m.memst) (reset : (n.seat q).resetReq = (m.seat q).resetReq) (stores : (n.seat q).stores = [])
    (hy : (n.arch q).fpYoung) :
    s.toMach.coreRun q len body = n.endInstr q true ∧ (s.toMach.coreRun q len body).arch q = (n.arch q).aged := by
  obtain ⟨arch, mem, settled⟩ := endInstr_keeps n q stores
  have young : (n.endInstr q true).fpDue q false = n.endInstr q true := by
    refine fpDue_young _ q fun x hx => ?_
    rw [arch] at hx
    cases hf : (n.arch q).fp with
    | none => rw [Arch.aged, hf] at hx; cases hx
    | some y =>
      have := hy y hf
      rw [Arch.aged, hf] at hx
      cases hx
      exact Nat.succ_lt_succ this
  have e : s.toMach.coreEnd q len (s.toMach.arch q).pc (body m) = n.endInstr q true := by rw [hb]; exact young
  have run : s.toMach.coreRun q len body = n.endInstr q true := by
    rw [h.coreRun body, e]
    · rw [e, mem, memst]; exact h.front.memst h.calm.idle.1
    · rw [e, reset_of_settled settled, reset, h.front.reset]
      exact h.calm.reset
  exact ⟨run, by rw [run, arch]⟩

/-! ### Levels entered (R224, R232, R233) -/

theorem worldChange_arch (x : Seat) (o : Bool) :
    ∃ r, (x.worldChange o).arch = { x.arch with bar := false, regs := r } ∧ (x.worldChange o).stores = x.stores ∧
      (x.worldChange o).resetReq = x.resetReq := by
  unfold Seat.worldChange
  simp only []
  split
  · exact ⟨_, rfl, trivial, trivial⟩
  · exact ⟨_, rfl, trivial, trivial⟩

/-- A level taken changes the level, and with the world the bar and the registers of the self window. -/
theorem setLevel_arch (x : Seat) (h : Nat) :
    ∃ r b, (x.setLevel h).arch = { x.arch with wld := h, bar := b, regs := r } ∧ (x.setLevel h).stores = x.stores ∧
      (x.setLevel h).resetReq = x.resetReq := by
  unfold Seat.setLevel
  simp only []
  split
  · exact ⟨_, _, rfl, rfl, rfl⟩
  · obtain ⟨r, arch, rest⟩ := worldChange_arch x (!srLevel h)
    exact ⟨r, false, by rw [arch], rest⟩

/-- The cells of a seat that enters handling level `h` from `a` (R233). -/
def Arch.enteredCells (a : Arch) (src h cause detail page : Nat) (spill : Bool) (xpc : Nat) : Arch :=
  let psw := fset (fset (a.psw h) Psw.xa 1) Psw.ie 0
  ((a.setCell (h + 1) 0xE (w48 xpc)).setCell (h + 1) 0xD (xcsWord cause detail src spill page)).setCell (h + 1) 7 psw

/-- A handler's first syllable and its level's own stacks. -/
def Arch.atHandler (a : Arch) (own : Bool) (pc : Nat) : Arch :=
  { a with pc := pc, litk := 0, waiting := false, ds := if own then a.ds else [], rs := if own then a.rs else [] }

theorem Arch.atHandler_rest (a : Arch) (own : Bool) (pc : Nat) : let b := a.atHandler own pc
    b.pc = pc ∧ b.litk = 0 ∧ b.waiting = false ∧ b.fp = a.fp ∧ b.wld = a.wld ∧ b.ds = (if own then a.ds else []) ∧
      b.rs = (if own then a.rs else []) ∧ b.cells = a.cells := ⟨rfl, rfl, rfl, rfl, rfl, rfl, rfl, rfl⟩

/-- The architected state of a seat that enters handling level `h` from `a`, but for its level, bar and self window (R233). -/
def Arch.entered (a : Arch) (src h cause detail page : Nat) (spill : Bool) (xpc : Nat) : Arch :=
  let b := a.enteredCells src h cause detail page spill xpc
  b.atHandler (src = h) (((b.cell (h + 1) 0xB).toNat + 8 * cause) % 2 ^ 40 * 8)

theorem enterLevel_arch (m : Mach) (q h cause detail page : Nat) (spill : Bool) (xpc : Nat) (stores : (m.seat q).stores = []) :
    let n := m.enterLevel q h cause detail page spill xpc
    (n.arch q = (((m.nsRetire q).seat q).setLevel h).arch.entered ((m.nsRetire q).arch q).wld h cause detail page spill xpc) ∧
      n.memst = m.memst ∧ (n.seat q).resetReq = (m.seat q).resetReq ∧ (n.seat q).stores = [] := by
  have retire := counts_nsRetire m q
  obtain ⟨r, b, -, st, reset⟩ := setLevel_arch ((m.nsRetire q).seat q) h
  obtain ⟨x, hx⟩ : ∃ x : Seat, x = { ((m.nsRetire q).seat q).setLevel h with
      arch := (((m.nsRetire q).seat q).setLevel h).arch.entered ((m.nsRetire q).arch q).wld h cause detail page spill xpc
      entry := if !srLevel ((m.nsRetire q).seat q).arch.wld && srLevel h then
          some (((m.nsRetire q).seat q).arch.wld, xpc, cause == Cause.callm)
        else (((m.nsRetire q).seat q).setLevel h).entry } := ⟨_, rfl⟩
  have e : m.enterLevel q h cause detail page spill xpc = ((m.nsRetire q).setSeat q x).endGroup q := by
    rw [hx, Arch.entered, Arch.atHandler]; simp only [decide_eq_true_iff]; rfl
  have set : ((m.nsRetire q).setSeat q x).seat q = x := by rw [Mach.seat_setSeat, if_pos rfl]
  have none : (((m.nsRetire q).setSeat q x).seat q).stores = [] := by
    rw [set, hx]; exact st.trans (retire.stores.trans stores)
  have same := sameArch_endGroup _ q none
  have settled := settled_endGroup _ q none
  rw [set] at settled none
  simp only [e]
  refine ⟨(same.arch q).trans ?_, same.memst.trans retire.memst, ?_, (stores_of_settled settled).trans none⟩
  · rw [Mach.arch, set, hx]
  · rw [reset_of_settled settled, hx]; exact reset.trans retire.reset

theorem Arch.cell_congr {a b : Arch} (h : a.cells = b.cells) (k n : Nat) : a.cell k n = b.cell k n := by
  rw [Arch.cell, Arch.cell, h]

theorem Arch.enteredCells_cell (a : Arch) (src h cause detail page : Nat) (spill : Bool) (xpc k n : Nat) (hn : n < 32) :
    (a.enteredCells src h cause detail page spill xpc).cell k n =
    cellsBut a [(h + 1, 7, fset (fset (a.psw h) Psw.xa 1) Psw.ie 0), (h + 1, 0xD, xcsWord cause detail src spill page),
      (h + 1, 0xE, w48 xpc)] k n :=
  ((((CellsOnly.refl a).setCell (h + 1) 0xE (w48 xpc) (by decide)).setCell (h + 1) 0xD
    (xcsWord cause detail src spill page) (by decide)).setCell (h + 1) 7 (fset (fset (a.psw h) Psw.xa 1) Psw.ie 0)
      (by decide)).cell k n hn

theorem Arch.enteredCells_rest (a : Arch) (src h cause detail page : Nat) (spill : Bool) (xpc : Nat) :
    (a.enteredCells src h cause detail page spill xpc).fp = a.fp ∧
      (a.enteredCells src h cause detail page spill xpc).wld = a.wld ∧
      (a.enteredCells src h cause detail page spill xpc).ds = a.ds ∧
      (a.enteredCells src h cause detail page spill xpc).rs = a.rs := by
  rw [Arch.enteredCells]
  refine ⟨?_, ?_, ?_, ?_⟩
  · rw [Arch.setCell_fp, Arch.setCell_fp, Arch.setCell_fp]
  · rw [Arch.setCell_wld, Arch.setCell_wld, Arch.setCell_wld]
  · rw [Arch.setCell_ds, Arch.setCell_ds, Arch.setCell_ds]
  · rw [Arch.setCell_rs, Arch.setCell_rs, Arch.setCell_rs]

theorem entered_enters {a b : Arch} (hc : b.cells = a.cells) (hd : b.ds = a.ds) (hr : b.rs = a.rs) (hf : b.fp = none) (h : Nat)
    (hw : b.wld = h) (cause detail page : Nat) (spill : Bool) (xpc : Nat) :
    Enters a (b.entered a.wld h cause detail page spill xpc) h cause detail page spill xpc := by
  rw [Arch.entered]
  obtain ⟨c, e⟩ : ∃ c, c = b.enteredCells a.wld h cause detail page spill xpc := ⟨_, rfl⟩
  have cell := fun k n hn => Arch.enteredCells_cell b a.wld h cause detail page spill xpc k n hn
  have rest := Arch.enteredCells_rest b a.wld h cause detail page spill xpc
  rw [← e] at cell rest ⊢
  obtain ⟨cfp, cwld, cds, crs⟩ := rest
  obtain ⟨pc, litk, waiting, fp, wld, ds, rs, cells⟩ :=
    c.atHandler_rest (a.wld = h) (((c.cell (h + 1) 0xB).toNat + 8 * cause) % 2 ^ 40 * 8)
  refine ⟨(wld.trans cwld).trans hw, pc.trans ?_, litk, waiting, (fp.trans cfp).trans hf, ?_, ?_, fun k n hn => ?_⟩
  · rw [cell _ _ (by decide)]
    simp only [cellsBut, Arch.cell_congr hc]
    rw [if_neg (by omega), if_neg (by omega), if_neg (by omega)]
  · rw [ds, cds, hd]; simp only [decide_eq_true_iff, eq_comm (a := h)]
  · rw [rs, crs, hr]; simp only [decide_eq_true_iff, eq_comm (a := h)]
  · rw [Arch.cell_congr cells, cell k n hn, Arch.psw, Arch.cell_congr hc, xcsWord]
    simp only [cellsBut, Arch.cell_congr hc]
    split_ifs <;> first | rfl | (exfalso; omega)

/-- Entry to a handling level of a seat that holds no store and no FP report. -/
theorem enterLevel_enters (m : Mach) (q h cause detail page : Nat) (spill : Bool) (xpc : Nat) (stores : (m.seat q).stores = [])
    (fp : (m.arch q).fp = none) :
    Enters (m.arch q) ((m.enterLevel q h cause detail page spill xpc).arch q) h cause detail page spill xpc := by
  have counts := (counts_nsRetire m q).arch
  obtain ⟨r, b, arch, -, -⟩ := setLevel_arch ((m.nsRetire q).seat q) h
  rw [(enterLevel_arch m q h cause detail page spill xpc stores).1, counts.wld]
  refine entered_enters ?_ ?_ ?_ ?_ h ?_ cause detail page spill xpc <;> rw [arch]
  · exact counts.cells
  · exact counts.ds
  · exact counts.rs
  · exact counts.fp.trans fp

end Sys2Proof.Machine
end

section
/-! PROOFS. SVC, CALLM and the returns (R224, R226, R233). -/

namespace Sys2Proof.Machine
open Sys2Proof

variable {s : State} {q len : Nat} {m : Mach}

/-! ### The entries that move and the spill of what stays (R224, R226) -/

theorem spillStk_nil (q : Nat) (rs : Bool) (m : Mach) (h : (m.arch q).stk rs = []) :
    spillStk q rs m = .ok ((), m.setArch q (m.arch q)) := by
  have same : (m.arch q).setStk rs [] = m.arch q := by rw [← h]; cases rs <;> rfl
  unfold spillStk
  rw [coreBind_ok _ _ _ _ _ (getArch_eq q m), h]
  refine (coreBind_ok _ _ _ m () rfl).trans ((coreBind_ok _ _ _ _ _ (getArch_eq q m)).trans ?_)
  rw [same]; rfl

/-- The whole data stack of a level that is left moves, and nothing is spilled. -/
theorem leaveLevel_all (q h : Nat) (m : Mach) (ne : h ≠ (m.arch q).wld) (rs : (m.arch q).rs = [])
    (bounds : (m.arch q).stackFault false (m.arch q).ds.length 0 = none) :
    ∃ x, leaveLevel q h (m.arch q).ds.length m = .ok ((m.arch q).ds.reverse, x) ∧ ArchSteps q m x ∧
      StackMove false (m.arch q) (x.arch q) [] ((m.arch q).ptr false - (m.arch q).ds.length) := by
  have start := stackMove_refl false (m.arch q)
  have lt : (m.arch q).ptr false < 2 ^ 48 := ((m.arch q).own (ptrCell false)).isLt
  rw [show (m.arch q).stk false = (m.arch q).ds ++ [] from (List.append_nil _).symm] at start
  have bound := stackFault_bounds _ _ _ _ bounds
  obtain ⟨x, pop, steps, move⟩ := popN_in q (m.arch q).ds m m (m.arch q) [] _ .refl start (by omega) lt
  have same : ((x.setArch q (x.arch q)).setArch q (x.arch q)).arch q = x.arch q := Mach.arch_setArch_self _ _ _
  refine ⟨(x.setArch q (x.arch q)).setArch q (x.arch q), ?_, .step _ _ (.step _ _ steps), by rw [same]; exact move⟩
  have spill := spillStk_nil q true (x.setArch q (x.arch q)) (by rw [Mach.arch_setArch_self]; exact move.other.trans rs)
  rw [Mach.arch_setArch_self] at spill
  unfold leaveLevel
  rw [coreBind_ok _ _ _ _ _ (getArch_eq q m), if_neg ne, coreBind_ok _ _ _ _ _ pop,
    coreBind_ok _ _ _ _ _ (spillStk_nil q false x move.stk), coreBind_ok _ _ _ _ _ spill]
  rfl

theorem xferCheck_ok (q h n : Nat) (m : Mach) (bounds : (m.arch q).stackFault false n 0 = none)
    (room : n = 0 ∨ (((m.arch q).cell (h + 1) 3).toNat ≤ ((m.arch q).cell (h + 1) 1).toNat ∧
      ((m.arch q).cell (h + 1) 1).toNat + n ≤ ((m.arch q).cell (h + 1) 4).toNat)) : xferCheck q h n m = .ok ((), m) := by
  have ok : (decide (h ≠ (m.arch q).wld) && decide (n ≠ 0) &&
      (decide (((m.arch q).cell (h + 1) 1).toNat < ((m.arch q).cell (h + 1) 3).toNat) ||
        decide (((m.arch q).cell (h + 1) 4).toNat < ((m.arch q).cell (h + 1) 1).toNat + n))) = false := by
    rcases room with rfl | ⟨lo, hi⟩
    · simp
    · simp only [Bool.and_eq_false_iff, Bool.or_eq_false_iff, decide_eq_false_iff_not]; omega
  unfold xferCheck
  rw [coreBind_ok _ _ _ _ _ (getArch_eq q m), bounds]
  simp only [ok]
  rfl

theorem xferCount_ok (n : BitVec 8) (m : Mach) (h : n.toNat ≤ 7) : xferCount n m = .ok (n.toNat, m) := by
  rw [xferCount, if_pos h]; rfl

theorem needLevel_ok (q : Nat) (p : Nat → Bool) (m : Mach) (h : p (m.arch q).wld = true) : needLevel q p m = .ok ((), m) := by
  rw [needLevel, coreBind_ok _ _ _ _ _ (getArch_eq q m), if_pos h]; rfl

/-- Entries pushed on the stack of a level just taken. -/
theorem pushAll_fresh (q : Nat) (m : Mach) (l : List Word) (ds : (m.arch q).ds = []) (small : l.length ≤ 16)
    (lt : (m.arch q).ptr false + l.length < 2 ^ 48) :
    ∃ z, pushAll q l.reverse m = .ok ((), z) ∧ ArchSteps q m z ∧
      StackMove false (m.arch q) (z.arch q) l ((m.arch q).ptr false + l.length) := by
  have start := stackMove_refl false (m.arch q)
  rw [show (m.arch q).stk false = [] from ds] at start
  obtain ⟨z, push, steps, move⟩ := pushAll_in q l.reverse m m (m.arch q) [] _ .refl start (by simpa using small) (by simpa using lt)
  rw [List.reverse_reverse, List.append_nil, List.length_reverse] at move
  exact ⟨z, push, steps, move⟩

/-- What an action instruction leaves of the rest of its seat's state. -/
structure Done (q : Nat) (m n : Mach) : Prop where
  memst : n.memst = m.memst
  reset : (n.seat q).resetReq = (m.seat q).resetReq
  stores : (n.seat q).stores = []

theorem Done.of_seats {q : Nat} {m n o : Mach} (h : Done q m n) (hs : o.seats = n.seats) (hm : o.memst = n.memst) : Done q m o := by
  have seat : o.seat q = n.seat q := by rw [Mach.seat, Mach.seat, hs]
  exact ⟨hm.trans h.memst, by rw [seat]; exact h.reset, by rw [seat]; exact h.stores⟩

theorem Arch.ptr_eq_cell (a : Arch) : a.ptr false = (a.cell (a.wld + 1) 1).toNat := rfl

/-- What entering level `h` with all the entries of the level left leaves (R224, R233). -/
def EntersWith (a b : Arch) (h cause n : Nat) : Prop :=
  b.wld = h ∧ b.pc = ((a.cell (h + 1) 0xB).toNat + 8 * cause) % 2 ^ 40 * 8 ∧ b.ds = a.ds ∧ b.rs = [] ∧
  b.cell (h + 1) 0xE = w48 (nextPc a.pc 3 a.litk) ∧
  b.cell (h + 1) 0xD = w48 (cause * 2 ^ 40 + n * 2 ^ 32 + a.wld * 2 ^ 29) ∧
  b.cell (h + 1) 7 = fset (fset (a.cell (h + 1) 7) Psw.xa 1) Psw.ie 0 ∧
  b.cell (h + 1) 1 = w48 ((a.cell (h + 1) 1).toNat + n) ∧ b.cell (a.wld + 1) 1 = w48 (a.ptr false - n)

/-- SVC and CALLM of every entry the core holds. -/
theorem enterBody_ok (q : Nat) (p : Nat → Bool) (cause : Nat) (mon : Bool) (n : BitVec 8) (m : Mach) (a : Arch) (h : Nat)
    (ha : m.arch q = a) (level : p a.wld = true) (hn : n.toNat ≤ 7) (fp : a.fp = none)
    (hh : (if mon then 4 else handlerOf a.wld) = h) (ne : h ≠ a.wld) (all : a.ds.length = n.toNat) (rs : a.rs = [])
    (bounds : a.stackFault false n.toNat 0 = none) (stores : (m.seat q).stores = [])
    (room : n.toNat = 0 ∨ ((a.cell (h + 1) 3).toNat ≤ (a.cell (h + 1) 1).toNat ∧
      (a.cell (h + 1) 1).toNat + n.toNat ≤ (a.cell (h + 1) 4).toNat)) :
    ∃ z, enterBody q p cause mon n m = .ok (.done, z) ∧ Done q m z ∧
      EntersWith a (z.arch q) h cause n.toNat ∧ (z.arch q).fp = none := by
  subst ha
  have nSmall : n.toNat % 256 = n.toNat := Nat.mod_eq_of_lt (by omega)
  rw [← all] at bounds room
  obtain ⟨x, leave, steps, move⟩ := leaveLevel_all q h m ne rs bounds
  have count := counts_countInstr x q false
  obtain ⟨o, ho⟩ : ∃ o, o = x.countInstr q false := ⟨_, rfl⟩
  rw [← ho] at count
  have oStores : (o.seat q).stores = [] := count.stores.trans (steps.seatStores.trans stores)
  have oFp : (o.arch q).fp = none := count.arch.fp.trans (move.fp.trans fp)
  have oCell : ∀ k i, (o.arch q).cell k i = (x.arch q).cell k i := cell_of_cells count.arch.cells
  have oWld : (o.arch q).wld = (m.arch q).wld := count.arch.wld.trans move.wld
  have xCell : ∀ i, i < 32 → (x.arch q).cell (h + 1) i = (m.arch q).cell (h + 1) i := fun i hi => by
    rw [move.cell _ _ hi, if_neg (by omega)]
  have enters := enterLevel_enters o q h cause n.toNat 0 false (nextPc (m.arch q).pc 3 (m.arch q).litk) oStores oFp
  obtain ⟨-, memst, reset, yStores⟩ := enterLevel_arch o q h cause n.toNat 0 false (nextPc (m.arch q).pc 3 (m.arch q).litk) oStores
  obtain ⟨y, hy⟩ : ∃ y, y = o.enterLevel q h cause n.toNat 0 false (nextPc (m.arch q).pc 3 (m.arch q).litk) := ⟨_, rfl⟩
  rw [← hy] at enters memst reset yStores
  have yDs : (y.arch q).ds = [] := by rw [enters.ds, oWld, if_neg ne]
  have yPtr : (y.arch q).ptr false = ((m.arch q).cell (h + 1) 1).toNat := by
    rw [Arch.ptr_eq_cell, enters.wld, enters.cell _ _ (by decide)]
    simp only [cellsBut]
    rw [if_neg (by omega), if_neg (by omega), if_neg (by omega), oCell, xCell _ (by decide)]
  have lt : (y.arch q).ptr false + (m.arch q).ds.length < 2 ^ 48 := by
    have := ((m.arch q).cell (h + 1) 1).isLt
    have := ((m.arch q).cell (h + 1) 4).isLt
    omega
  obtain ⟨z, push, zSteps, zMove⟩ := pushAll_fresh q y (m.arch q).ds yDs (by omega) lt
  have zCell : ∀ i, i < 32 → i ≠ 1 → (z.arch q).cell (h + 1) i = (y.arch q).cell (h + 1) i := fun i hi ne => by
    rw [zMove.cell _ _ hi, if_neg fun e => ne e.2]
  have rest := zSteps.contained
  refine ⟨z, ?_, ⟨?_, ?_, zSteps.seatStores.trans yStores⟩, ⟨?_, ?_, zMove.stk, ?_, ?_, ?_, ?_, ?_, ?_⟩, zMove.fp.trans enters.fp⟩
  · rw [enterBody, coreBind_ok _ _ _ _ _ (xferCount_ok n m hn), coreBind_ok _ _ _ _ _ (needLevel_ok q p m level),
      coreBind_ok _ _ _ _ _ (fpFirst_ok q m fp), coreBind_ok _ _ _ _ _ (getArch_eq q m)]
    simp only [hh, ← all]
    rw [coreBind_ok _ _ _ _ _ (xferCheck_ok q h _ m bounds room), coreBind_ok _ _ _ _ _ leave]
    refine (coreBind_ok _ _ _ y () ?_).trans ((coreBind_ok _ _ _ _ _ push).trans rfl)
    rw [hy, ho, ← all]; rfl
  · exact rest.memst.trans (memst.trans (count.memst.trans steps.contained.memst))
  · exact rest.reset.trans (reset.trans (count.reset.trans steps.contained.reset))
  · exact zMove.wld.trans enters.wld
  · rw [zMove.pc, enters.pc, oCell, xCell _ (by decide)]
  · exact zMove.other.trans (by rw [show (y.arch q).stk (!false) = (y.arch q).rs from rfl, enters.rs, oWld, if_neg ne])
  · rw [zCell _ (by decide) (by decide), enters.cell _ _ (by decide)]
    simp only [cellsBut]
    rw [if_neg (by omega), if_pos ⟨trivial, trivial⟩]
  · rw [zCell _ (by decide) (by decide), enters.cell _ _ (by decide)]
    simp only [cellsBut]
    rw [if_neg (by omega), if_neg (by omega), if_pos ⟨trivial, trivial⟩, oWld, nSmall]
    simp [b2n]
  · rw [zCell _ (by decide) (by decide), enters.cell _ _ (by decide)]
    simp only [cellsBut]
    rw [if_pos ⟨trivial, trivial⟩, oCell, xCell _ (by decide)]
  · rw [zMove.cell _ _ (by decide), enters.wld, if_pos ⟨rfl, rfl⟩, yPtr, all]
  · rw [zMove.cell _ _ (by decide), enters.wld, if_neg (by omega), enters.cell _ _ (by decide)]
    simp only [cellsBut]
    rw [if_neg (by omega), if_neg (by omega), if_neg (by omega), oCell, move.cell _ _ (by decide), if_pos ⟨rfl, rfl⟩, all]

/-- A seat that goes back to another level. -/
theorem returnTo_keeps (m : Mach) (q h pc : Nat) (ne : h ≠ (m.arch q).wld) :
    let n := m.returnTo q h pc
    n.memst = m.memst ∧ (n.seat q).resetReq = (m.seat q).resetReq ∧ (n.seat q).stores = (m.seat q).stores ∧
    (n.arch q).wld = h ∧ (n.arch q).pc = pc ∧ (n.arch q).litk = 0 ∧ (n.arch q).ds = [] ∧ (n.arch q).rs = [] ∧
    (n.arch q).fp = (m.arch q).fp ∧
    ∀ k i, i < 32 → (n.arch q).cell k i =
      cellsBut (m.arch q) [((m.arch q).wld + 1, 7, fset ((m.arch q).cell ((m.arch q).wld + 1) 7) Psw.xa 0)] k i := by
  obtain ⟨r, b, arch, stores, reset⟩ := setLevel_arch (m.seat q) h
  obtain ⟨x, hx⟩ : ∃ x, x = ((m.seat q).setLevel h).arch := ⟨_, rfl⟩
  rw [← hx] at arch
  have xCell : ∀ k i, x.cell k i = (m.arch q).cell k i := Arch.cell_congr (by rw [arch]; rfl)
  have xFp : x.fp = (m.arch q).fp := by rw [arch]; rfl
  have xWld : x.wld = h := by rw [arch]
  obtain ⟨y, hy⟩ : ∃ y, y = x.setCell ((m.arch q).wld + 1) 7 (fset (x.psw (m.arch q).wld) Psw.xa 0) := ⟨_, rfl⟩
  have yWld : y.wld = h := by rw [hy, Arch.setCell_wld, xWld]
  have yFp : y.fp = (m.arch q).fp := by rw [hy, Arch.setCell_fp, xFp]
  have yCell : ∀ k i, i < 32 → y.cell k i =
      cellsBut (m.arch q) [((m.arch q).wld + 1, 7, fset ((m.arch q).cell ((m.arch q).wld + 1) 7) Psw.xa 0)] k i := by
    intro k i hi
    rw [hy, ((CellsOnly.refl x).setCell _ 7 _ (by decide)).cell k i hi]
    simp only [cellsBut, Arch.psw, xCell]
  have e : m.returnTo q h pc = m.setSeat q { (m.seat q).setLevel h with
      arch := { y with pc := pc, litk := 0, ds := [], rs := [] } } := by
    unfold Mach.returnTo
    simp only [if_neg (show ¬ h = (m.seat q).arch.wld from ne)]
    rw [hy, hx]; rfl
  have seat : (m.returnTo q h pc).seat q = { (m.seat q).setLevel h with arch := { y with pc := pc, litk := 0, ds := [], rs := [] } } := by
    rw [e, Mach.seat_setSeat, if_pos rfl]
  intro n
  have archEq : n.arch q = { y with pc := pc, litk := 0, ds := [], rs := [] } := by rw [Mach.arch, seat]
  rw [archEq]
  exact ⟨by rw [show n.memst = (m.returnTo q h pc).memst from rfl, e]; rfl, by rw [seat]; exact reset, by rw [seat]; exact stores,
    yWld, rfl, rfl, rfl, rfl, yFp, yCell⟩

theorem nbits_eq (n : Nat) : nbits n 31 29 = n / 2 ^ 29 % 8 := by
  rw [nbits, Nat.shiftRight_eq_div_pow, show 31 - 29 + 1 = 3 by norm_num, show 2 ^ 3 = 8 by norm_num]

/-- What going back to level `h` with all the entries of the level left leaves (R224, R233). -/
def ReturnsWith (a b : Arch) (h xpc n : Nat) : Prop :=
  b.wld = h ∧ b.pc = xpc ∧ b.litk = 0 ∧ b.ds = a.ds ∧ b.rs = [] ∧
  b.cell (a.wld + 1) 7 = fset (a.cell (a.wld + 1) 7) Psw.xa 0 ∧
  b.cell (h + 1) 1 = w48 ((a.cell (h + 1) 1).toNat + n) ∧ b.cell (a.wld + 1) 1 = w48 (a.ptr false - n)

/-- RETS, RETM and ERET with every entry the core holds. -/
theorem returnBody_ok (q : Nat) (p : Nat → Bool) (n : Nat) (m : Mach) (a : Arch) (h : Nat) (ha : m.arch q = a)
    (level : p a.wld = true) (hh : (a.cell (a.wld + 1) 0xD).toNat / 2 ^ 29 % 8 = h) (may : mayReturn a.wld h = true)
    (format : pcFormat (a.cell (a.wld + 1) 0xE) = true) (ne : h ≠ a.wld) (small : n ≤ 16) (all : a.ds.length = n) (rs : a.rs = [])
    (bounds : a.stackFault false n 0 = none) (stores : (m.seat q).stores = [])
    (room : n = 0 ∨ ((a.cell (h + 1) 3).toNat ≤ (a.cell (h + 1) 1).toNat ∧
      (a.cell (h + 1) 1).toNat + n ≤ (a.cell (h + 1) 4).toNat)) :
    ∃ z, returnBody q p n m = .ok (.done, z) ∧ Done q m z ∧
      ReturnsWith a (z.arch q) h (a.cell (a.wld + 1) 0xE).toNat n ∧ (z.arch q).fp = a.fp := by
  subst ha
  subst all
  obtain ⟨x, leave, steps, move⟩ := leaveLevel_all q h m ne rs bounds
  have count := counts_countInstr x q false
  obtain ⟨o, ho⟩ : ∃ o, o = x.countInstr q false := ⟨_, rfl⟩
  rw [← ho] at count
  have oCell : ∀ k i, (o.arch q).cell k i = (x.arch q).cell k i := cell_of_cells count.arch.cells
  have oWld : (o.arch q).wld = (m.arch q).wld := count.arch.wld.trans move.wld
  have xCell : ∀ k i, i < 32 → i ≠ 1 ∨ k = h + 1 → (x.arch q).cell k i = (m.arch q).cell k i := fun k i hi ne => by
    rw [move.cell _ _ hi, if_neg (by simp only [ptrCell]; simp; omega)]
  obtain ⟨memst, reset, yStores, wld, pc, litk, ds, yRs, fp, cell⟩ :=
    returnTo_keeps o q h ((m.arch q).cell ((m.arch q).wld + 1) 0xE).toNat (by rw [oWld]; exact ne)
  obtain ⟨y, hy⟩ : ∃ y, y = o.returnTo q h ((m.arch q).cell ((m.arch q).wld + 1) 0xE).toNat := ⟨_, rfl⟩
  rw [← hy] at memst reset yStores wld pc litk ds yRs fp cell
  rw [oWld] at cell
  have yPtr : (y.arch q).ptr false = ((m.arch q).cell (h + 1) 1).toNat := by
    rw [Arch.ptr_eq_cell, wld, cell _ _ (by decide)]
    simp only [cellsBut]
    rw [if_neg (by omega), oCell, xCell _ _ (by decide) (.inr rfl)]
  have lt : (y.arch q).ptr false + (m.arch q).ds.length < 2 ^ 48 := by
    have := ((m.arch q).cell (h + 1) 1).isLt
    have := ((m.arch q).cell (h + 1) 4).isLt
    omega
  obtain ⟨z, push, zSteps, zMove⟩ := pushAll_fresh q y (m.arch q).ds ds small lt
  have rest := zSteps.contained
  refine ⟨z, ?_, ⟨?_, ?_, ?_⟩, ⟨zMove.wld.trans wld, zMove.pc.trans pc, zMove.litk.trans litk, zMove.stk, zMove.other.trans yRs,
    ?_, ?_, ?_⟩, zMove.fp.trans (fp.trans (count.arch.fp.trans move.fp))⟩
  · rw [returnBody, coreBind_ok _ _ _ _ _ (needLevel_ok q p m level), coreBind_ok _ _ _ _ _ (getArch_eq q m)]
    simp only [nbits_eq, hh, may]
    refine (coreBind_ok _ _ _ _ _ (needPc_ok _ m format)).trans ?_
    rw [coreBind_ok _ _ _ _ _ (xferCheck_ok q h _ m bounds room), coreBind_ok _ _ _ _ _ leave]
    refine (coreBind_ok _ _ _ y () ?_).trans ((coreBind_ok _ _ _ _ _ push).trans rfl)
    rw [hy, ho]; rfl
  · exact rest.memst.trans (memst.trans (count.memst.trans steps.contained.memst))
  · exact rest.reset.trans (reset.trans (count.reset.trans steps.contained.reset))
  · exact zSteps.seatStores.trans (yStores.trans (count.stores.trans (steps.seatStores.trans stores)))
  · rw [zMove.cell _ _ (by decide), if_neg (fun e => by cases e.2), cell _ _ (by decide)]
    simp only [cellsBut]
    rw [if_pos ⟨trivial, trivial⟩, oCell, xCell _ _ (by decide) (.inl (by decide))]
  · rw [zMove.cell _ _ (by decide), wld, if_pos ⟨rfl, rfl⟩, yPtr]
  · rw [zMove.cell _ _ (by decide), wld, if_neg (by omega), cell _ _ (by decide)]
    simp only [cellsBut]
    rw [if_neg (by omega), oCell, move.cell _ _ (by decide), if_pos ⟨rfl, rfl⟩]

/-! ### The signer's part (R344, R347) -/

theorem setFld_rest (m : Mach) (a : Nat) (f : Fld) (v : Nat) : (m.setFld a f v).seats = m.seats ∧ (m.setFld a f v).memst = m.memst := by
  simp [Mach.setFld]

theorem refreshRun_rest (m : Mach) : m.refreshRun.seats = m.seats ∧ m.refreshRun.memst = m.memst := by
  unfold Mach.refreshRun
  simp only [setFld_rest, and_self]

theorem attestStart_rest (m : Mach) (q : Nat) (l : List Word) :
    (m.attestStart q l).seats = m.seats ∧ (m.attestStart q l).memst = m.memst := by
  unfold Mach.attestStart
  generalize (if m.sr.attestSec = secOf m.rt then m.sr.attestNo else 0) = n
  simp only []
  split
  · exact ⟨rfl, rfl⟩
  · unfold Mach.pauseSeal
    simp only [refreshRun_rest, setFld_rest]
    exact ⟨rfl, rfl⟩

theorem attestEnd_rest (m : Mach) (q : Nat) : (m.attestEnd q).seats = m.seats ∧ (m.attestEnd q).memst = m.memst := by
  unfold Mach.attestEnd Mach.sealGo Mach.resumeSeal Mach.startSign
  split
  · split
    · simp only [setFld_rest, and_self]
    · split <;> simp only [refreshRun_rest, setFld_rest, and_self]
  · exact ⟨rfl, rfl⟩

theorem attestCall_ok (q wld : Nat) (l : List Word) (m : Mach) :
    ∃ n, attestCall q wld l m = .ok ((), n) ∧ n.seats = m.seats ∧ n.memst = m.memst := by
  refine ⟨_, rfl, ?_⟩
  simp only []
  split
  · split
    · split
      · exact attestStart_rest _ _ _
      · exact ⟨rfl, rfl⟩
    · exact ⟨rfl, rfl⟩
  · exact ⟨rfl, rfl⟩

theorem arch_of_seats {m n : Mach} (h : n.seats = m.seats) (q : Nat) : n.arch q = m.arch q := by
  rw [Mach.arch, Mach.arch, Mach.seat, Mach.seat, h]

/-- An action instruction run to its end. -/
theorem CanRun.leaves_of_done (h : CanRun s q len m) {body : CoreAct Flow} {n : Mach} (hb : body m = .ok (.done, n))
    (done : Done q m n) (hy : (n.arch q).fpYoung) : (s.toMach.coreRun q len body).arch q = (n.arch q).aged :=
  (h.leaves_done hb done.memst done.reset done.stores hy).2

theorem handlerOf_le (w : Nat) (h : w ≤ 3) : handlerOf w = if w ≤ 1 then 1 else 3 := by
  unfold handlerOf
  split_ifs <;> omega

/-- An action instruction whose seat's architected state only ages after it has put the pc where it goes. -/
theorem CanRun.ends_as (h : CanRun s q len m) {body : CoreAct Flow} {n : Mach} (hb : body m = .ok (.done, n))
    (done : Done q m n) (hy : (n.arch q).fpYoung) (P : Arch → Prop) (hP : P (n.arch q).aged) :
    P ((s.toMach.coreRun q len body).arch q) := by rw [h.leaves_of_done hb done hy]; exact hP

/-- Settles O7. -/
theorem levelChanges : Obligations.LevelChanges := by
  refine ⟨fun s q m n h => ?_, fun s q m n => ?_⟩
  · intro a stores fp notMon le small all rs bounds
    have ha : m.arch q.val = a := h.arch
    have mStores : (m.seat q.val).stores = [] := (h.front.stores q.val).trans stores
    have isMon : decide (a.wld ≠ 4) = true := by simpa using notMon
    refine List.forall_mem_cons.mpr ⟨?_, List.forall_mem_cons.mpr ⟨?_, fun _ none => absurd none List.not_mem_nil⟩⟩
    · intro ne _ room
      obtain ⟨z, body, done, up, zfp⟩ := enterBody_ok q.val (fun l => l ≠ 4) Cause.svc false n m a _ ha isMon small fp
        (handlerOf_le _ le) ne all rs bounds mStores room
      exact ⟨_, rfl, h.ends_as body done (fun x hx => by rw [zfp] at hx; cases hx)
        (fun b => EntersWith a b (if a.wld ≤ 1 then 1 else 3) 0x0F n.toNat) up⟩
    · intro ne restart room
      obtain ⟨z, body, done, up, zfp⟩ := enterBody_ok q.val (fun l => l ≠ 4) Cause.callm true n m a _ ha isMon small fp
        rfl ne all rs bounds mStores room
      obtain ⟨y, attest, seats, memst⟩ := attestCall_ok q.val a.wld ((z.arch q.val).ds.take n.toNat) z
      have call : callmBody q.val n m = .ok (.done, y) := by
        rw [callmBody, coreBind_ok _ _ _ _ _ (getArch_eq q.val m), coreBind_ok _ _ _ _ _ body,
          coreBind_ok _ _ _ _ _ (getArch_eq q.val z), ha, coreBind_ok _ _ _ _ _ attest]
        rfl
      have same := arch_of_seats seats q.val
      have goes : ¬ (s.toMach.restarting && !srLevel a.wld) = true := by
        rcases restart rfl with r | r
        · simp [r]
        · simp [srLevel, r]
      have run : exec (.callm q n) s = s.lift fun _ => s.toMach.coreRun q.val 3 (callmBody q.val n) := by
        change execCallm q n s = _
        rw [execCallm, State.lift, State.lift]
        exact congrArg (fun x : Mach => Host.Outcome.next { s with toMach := x }) (if_neg goes)
      refine ⟨_, run, ?_⟩
      exact h.ends_as call (done.of_seats seats memst) (fun x hx => by rw [same, zfp] at hx; cases hx)
        (fun b => EntersWith a b 4 0x10 n.toNat) (by rw [same]; exact up)
  · intro a h xpc stores lt format ne rs
    have body : ∀ (len : Nat) (p : Nat → Bool) (k : Nat), CanRun s q.val len m → p a.wld = true → a.wld = 1 ∨ a.wld = 3 ∨ a.wld = 4 →
        (if a.wld = 4 then h ≤ 3 else h + 1 = a.wld) → k ≤ 7 → a.ds.length = k → a.stackFault false k 0 = none →
        (k = 0 ∨ ((a.cell (h + 1) 3).toNat ≤ (a.cell (h + 1) 1).toNat ∧ (a.cell (h + 1) 1).toNat + k ≤ (a.cell (h + 1) 4).toNat)) →
        ∃ z, returnBody q.val p k m = .ok (.done, z) ∧ Done q.val m z ∧ (z.arch q.val).fpYoung ∧
          ReturnsWith a (z.arch q.val).aged h xpc k := by
      intro len p k run level wld may small all bounds room
      have mayReturn : mayReturn a.wld h = true := by
        unfold Machine.mayReturn srLevel
        split_ifs at may ⊢
        · simp; omega
        · simp; omega
      obtain ⟨z, body, done, back, fp⟩ := returnBody_ok q.val p k m a h run.arch level rfl mayReturn
        ((pcFormat_iff _).mpr ⟨lt, format⟩) ne (by omega) all rs bounds ((run.front.stores q.val).trans stores) room
      exact ⟨z, body, done, fun x hx => run.young x (by rw [← hx, fp]), back⟩
    refine List.forall_mem_cons.mpr ⟨?_, List.forall_mem_cons.mpr ⟨?_, List.forall_mem_cons.mpr ⟨?_,
      fun _ none => absurd none List.not_mem_nil⟩⟩⟩
    · intro run level may small all bounds room
      obtain ⟨z, body, done, young, back⟩ :=
        body 3 (fun l => l = 1 || l = 3) n.toNat run (by simpa using level) (by omega) may small all bounds room
      exact ⟨_, rfl, run.ends_as ((coreBind_ok _ _ _ _ _ (xferCount_ok n m small)).trans body) done young
        (fun b => ReturnsWith a b h xpc n.toNat) back⟩
    · intro run level may small all bounds room
      obtain ⟨z, body, done, young, back⟩ :=
        body 3 (fun l => l = 4) n.toNat run (by simpa using level) (by omega) may small all bounds room
      obtain ⟨seats, memst⟩ := attestEnd_rest z q.val
      have same := arch_of_seats seats q.val
      have retm : retmBody q.val n m = .ok (.done, z.attestEnd q.val) := by
        rw [retmBody, coreBind_ok _ _ _ _ _ (xferCount_ok n m small), coreBind_ok _ _ _ _ _ body]; rfl
      exact ⟨_, rfl, run.ends_as retm (done.of_seats seats memst) (by rw [same]; exact young)
        (fun b => ReturnsWith a b h xpc n.toNat) (by rw [same]; exact back)⟩
    · intro run level may small all bounds room
      obtain ⟨z, body, done, young, back⟩ :=
        body 2 (fun l => !taskLevel l) 0 run (by rcases level with e | e | e <;> rw [e] <;> rfl) level may small all bounds room
      exact ⟨_, rfl, run.ends_as body done young (fun b => ReturnsWith a b h xpc 0) back⟩

end Sys2Proof.Machine
end

section
/-! PROOFS. Waiting, ordering, prediction instructions, interrupts and FP reports (R232 to R236, R270, R277 to R279, R422). -/

namespace Sys2Proof.Machine
open Sys2Proof

variable {s : State} {q len : Nat} {m : Mach}

/-! ### Instructions that wait for nothing -/

/-- A retiring instruction of a seat that holds no store leaves the rest of the seat (R283, R306). -/
theorem settled_retire (m : Mach) (q : Nat) (act fold : Bool) (stores : (m.seat q).stores = []) (hy : (m.arch q).fpYoung) :
    ((m.retire q act fold).seat q).settled = (m.seat q).settled := by
  have count := uncounted_countInstr m q fold
  have counts := counts_countInstr m q fold
  obtain ⟨n, hn⟩ : ∃ n, n = m.countInstr q fold := ⟨_, rfl⟩
  rw [← hn] at count counts
  obtain ⟨x, hx⟩ : ∃ x : Seat, x = { n.seat q with
      group := (n.seat q).group + 1
      step := false
      arch := { (n.seat q).arch with fp := (n.seat q).arch.fp.map (fun (x : Nat × Nat) => (x.1, x.2 + 1)) } } := ⟨_, rfl⟩
  have set : (n.setSeat q x).seat q = x := by rw [Mach.seat_setSeat, if_pos rfl]
  have none : ((n.setSeat q x).seat q).stores = [] := by rw [set, hx]; exact counts.stores.trans stores
  have settled : x.settled = (m.seat q).settled := by
    rw [← settled_of_uncounted count, hx]; rfl
  have group : ((n.endInstr q act).seat q).settled = (m.seat q).settled ∧ (n.endInstr q act).arch q = (n.arch q).aged := by
    have arch : ((n.setSeat q x).arch q) = (n.arch q).aged := by rw [Mach.arch, set, hx]; rfl
    unfold Mach.endInstr
    simp only [← hx]
    split
    · exact ⟨(settled_endGroup _ q none).trans (by rw [set, settled]), ((sameArch_endGroup _ q none).arch q).trans arch⟩
    · rw [drain_nil _ q none]
      split <;> exact ⟨by rw [set, settled], arch⟩
  have young : (n.endInstr q act).fpDue q false = n.endInstr q act := by
    refine fpDue_young _ q fun y hy' => ?_
    rw [group.2, Arch.aged, counts.arch.fp] at hy'
    cases e : (m.arch q).fp with
    | none => rw [e] at hy'; cases hy'
    | some z => rw [e] at hy'; cases hy'; exact Nat.succ_lt_succ (hy z e)
  rw [Mach.retire, Mach.retired, ← hn, young, group.1]

theorem fillDone_front (x : Seat) (i : Nat) : (x.fillDone i).front = x.front := rfl

theorem sameFront_fillsDone (m : Mach) (q : Nat) : SameFront m (m.fillsDone q) := by
  unfold Mach.fillsDone
  simp only []
  split
  · exact .refl m
  · refine .setSeat _ _ _ ?_
    generalize m.seat q = x
    generalize List.map Prod.fst _ = l
    induction l generalizing x with
    | nil => rfl
    | cons i l ih => exact (ih _).trans (fillDone_front x i)

/-- An instruction that goes on with the next one, on a seat whose state but for what it names is `a`. -/
theorem CanRun.inLine_from (h : CanRun s q len m) {body : CoreAct Flow} {n : Mach} {f : Flow} {act : Bool} {a : Arch}
    (hb : body m = .ok (f, n)) (hf : f.goesOn = some act) (hk : Beside q m n) (hn : n.arch q = a)
    (hy : a.fpYoung) (hg : act = true → (s.toMach.seat q).stores = []) :
    InLine a ((s.toMach.coreRun q len body).arch q) len a.ds a.rs [] := by
  obtain ⟨fold, e⟩ := coreEnd_goesOn (q := q) (len := len) hf s.toMach n (s.toMach.arch q).pc
  subst hn
  rw [← hb] at e
  have counts := h.retires e (hk.trans (Beside.setArch _ _ _)) (by rw [advancePc_arch]; exact hy) hg
  rw [advancePc_arch] at counts
  exact ⟨counts.pc, counts.litk, counts.ds, counts.rs, counts.fp, counts.wld, counts.waiting, counts.bar,
    fun k i _ => cell_of_cells counts.cells k i, counts.reg⟩

section
variable (h : CanRun s q len m) (stores : (s.toMach.seat q).stores = []) (fp : (s.toMach.arch q).fp = none)
include h stores fp

theorem wait_run (level : taskLevel (s.toMach.arch q).wld = false) :
    InLine { s.toMach.arch q with waiting := true } ((s.toMach.coreRun q len (waitBody q)).arch q) len (s.toMach.arch q).ds
      (s.toMach.arch q).rs [] := by
  have ha := h.arch
  refine h.inLine_from (f := .next true) (n := m.setArch q { s.toMach.arch q with waiting := true }) ?_ rfl (.setArch _ _ _)
    (Mach.arch_setArch_self _ _ _) (fun x hx => by rw [fp] at hx; cases hx) (fun _ => stores)
  rw [waitBody, coreBind_ok _ _ _ _ _ (needLevel_ok q _ m (by rw [ha, level]; rfl)), coreBind_ok _ _ _ _ _ (getArch_eq q m), ha]
  rfl

theorem fence_run : InLine (s.toMach.arch q) ((s.toMach.coreRun q len (fenceBody q)).arch q) len (s.toMach.arch q).ds
    (s.toMach.arch q).rs [] := by
  have front := sameFront_fillsDone m q
  refine h.inLine_from (f := .next true) (n := m.fillsDone q) ?_ rfl (.of_front front h.quiet.2) ((front.arch q).trans h.arch)
    (fun x hx => by rw [fp] at hx; cases hx) (fun _ => stores)
  show Except.ok (Flow.next true, (m.drain q).fillsDone q) = _
  rw [drain_nil m q ((h.front.stores q).trans stores)]

theorem ifence_run : InLine (s.toMach.arch q) ((s.toMach.coreRun q len (do
      drainStores q
      modMach fun m => m.setSeat q { m.seat q with istOld := [], word := none }
      pure (.next true))).arch q) len (s.toMach.arch q).ds (s.toMach.arch q).rs [] := by
  let n := m.setSeat q { m.seat q with istOld := [], word := none }
  have front : SameFront m n := .setSeat _ _ _ rfl
  refine h.inLine_from (f := .next true) (n := n) ?_ rfl (.of_front front h.quiet.2) ((front.arch q).trans h.arch)
    (fun x hx => by rw [fp] at hx; cases hx) (fun _ => stores)
  show Except.ok (Flow.next true, (m.drain q).setSeat q { (m.drain q).seat q with istOld := [], word := none }) = _
  rw [drain_nil m q ((h.front.stores q).trans stores)]

omit stores in
theorem fbar_run : InLine (s.toMach.arch q) ((s.toMach.coreRun q len (fbarBody q)).arch q) len (s.toMach.arch q).ds
    (s.toMach.arch q).rs [] := by
  have same : { m.arch q with fp := (m.arch q).fp.map fun x => (x.1, 17) } = s.toMach.arch q := by
    rw [h.arch, fp, Option.map_none, ← fp]
  refine h.inLine_from (f := .next false) (n := m.setArch q (s.toMach.arch q)) ?_ rfl (.setArch _ _ _)
    (Mach.arch_setArch_self _ _ _) (fun x hx => by rw [fp] at hx; cases hx) (fun e => by cases e)
  rw [fbarBody, coreBind_ok _ _ _ _ _ (getArch_eq q m), same]
  rfl

omit stores in
/-- PBAR and PUNBAR. -/
theorem bar_run (b : Bool) : InLine { s.toMach.arch q with bar := b } ((s.toMach.coreRun q len (do
      let a ← getArch q
      setArch q { a with bar := b }
      pure .solo)).arch q) len (s.toMach.arch q).ds (s.toMach.arch q).rs [] := by
  refine h.inLine_from (f := .solo) (n := m.setArch q { s.toMach.arch q with bar := b }) ?_ rfl (.setArch _ _ _)
    (Mach.arch_setArch_self _ _ _) (fun x hx => by rw [fp] at hx; cases hx) (fun e => by cases e)
  rw [coreBind_ok _ _ _ _ _ (getArch_eq q m), h.arch]
  rfl

omit fp in
/-- An instruction's seat but for its architected state, where it goes on in line. -/
theorem CanRun.settled {body : CoreAct Flow} {n : Mach} {f : Flow} {act : Bool} (hb : body m = .ok (f, n))
    (hf : f.goesOn = some act) (hk : Beside q m n) (hy : (n.arch q).fpYoung) :
    ((s.toMach.coreRun q len body).seat q).settled = (n.seat q).settled := by
  obtain ⟨fold, e⟩ := coreEnd_goesOn (q := q) (len := len) hf s.toMach n (s.toMach.arch q).pc
  rw [← hb] at e
  have none : ((n.advancePc q len).seat q).stores = [] := by
    rw [Mach.advancePc, Mach.setArch, Mach.seat_setSeat, if_pos rfl]
    exact hk.stores.trans ((h.front.stores q).trans stores)
  have young : ((n.advancePc q len).arch q).fpYoung := by
    rw [advancePc_arch]; exact hy
  obtain ⟨-, reset, memst⟩ := retire_keeps (n.advancePc q len) q act fold young (.inr none)
  have kept := settled_retire (n.advancePc q len) q act fold none young
  rw [h.coreRun body, e, kept]
  · rw [Mach.advancePc, Mach.setArch, Mach.seat_setSeat, if_pos rfl]; rfl
  · rw [e, memst]; exact hk.memst.trans (h.front.memst h.calm.idle.1)
  · rw [e, reset]
    rw [Mach.advancePc, Mach.setArch, Mach.seat_setSeat, if_pos rfl]
    exact hk.reset.trans ((h.front.reset q).trans h.calm.reset)

theorem pflush_run : let t := s.toMach.coreRun q len (do
      modMach fun m => m.setSeat q (m.seat q).clearPrediction
      pure .solo)
    InLine (s.toMach.arch q) (t.arch q) len (s.toMach.arch q).ds (s.toMach.arch q).rs [] ∧ (t.seat q).openBank = [] ∧
      (t.seat q).srBank = [] ∧ (t.seat q).ghr = 0 ∧ (t.seat q).ind = [] := by
  obtain ⟨n, hn⟩ : ∃ n, n = m.setSeat q (m.seat q).clearPrediction := ⟨_, rfl⟩
  have body : (do
      modMach fun m => m.setSeat q (m.seat q).clearPrediction
      pure .solo : CoreAct Flow) m = .ok (.solo, n) := by rw [hn]; rfl
  have seat : n.seat q = (m.seat q).clearPrediction := by rw [hn, Mach.seat_setSeat, if_pos rfl]
  have arch : n.arch q = s.toMach.arch q := by rw [Mach.arch, seat]; exact h.arch
  have beside : Beside q m n := hn ▸ .setSeat q m _ rfl rfl rfl
  have kept := h.settled stores body rfl beside (by rw [arch]; exact fun x hx => by rw [fp] at hx; cases hx)
  rw [seat] at kept
  exact ⟨h.inLine_from body rfl beside arch (fun x hx => by rw [fp] at hx; cases hx) (fun e => by cases e),
    (congrArg Seat.openBank kept : _), (congrArg Seat.srBank kept : _), (congrArg Seat.ghr kept : _), (congrArg Seat.ind kept : _)⟩

end

/-! ### Interrupts at a boundary (R232, R233, R235, R422) -/

theorem Enters.of_same {a b c : Arch} {h cause detail page : Nat} {spill : Bool} {xpc : Nat}
    (g : Enters a b h cause detail page spill xpc) (wld : a.wld = c.wld) (cells : a.cells = c.cells) (ds : a.ds = c.ds)
    (rs : a.rs = c.rs) : Enters c b h cause detail page spill xpc := by
  have cell : ∀ k n, a.cell k n = c.cell k n := Arch.cell_congr cells
  have but : ∀ l k n, cellsBut a l k n = cellsBut c l k n := by
    intro l k n
    induction l with
    | nil => exact cell k n
    | cons e l ih => simp only [cellsBut, ih]
  obtain ⟨gw, gpc, gl, gwait, gfp, gds, grs, gcell⟩ := g
  refine ⟨gw, by rw [gpc, cell], gl, gwait, gfp, by rw [gds, wld, ds], by rw [grs, wld, rs], fun k n hn => ?_⟩
  rw [gcell k n hn, but, cell, wld]

/-- A level left without an entry in the core leaves nothing to spill. -/
theorem spillFor_empty (m : Mach) (q h : Nat) (ds : (m.arch q).ds = []) (rs : (m.arch q).rs = []) :
    ∃ x, m.spillFor q h = .ok x ∧ ArchSteps q m x ∧ x.arch q = m.arch q := by
  unfold Mach.spillFor
  split
  · exact ⟨m, rfl, .refl, rfl⟩
  · let x := m.setArch q (m.arch q)
    have xa : x.arch q = m.arch q := Mach.arch_setArch_self _ _ _
    have one := spillStk_nil q false m ds
    have two := spillStk_nil q true x (by rw [xa]; exact rs)
    refine ⟨x.setArch q (x.arch q), ?_, .step _ _ (.step m _ .refl), by rw [Mach.arch_setArch_self, xa]⟩
    rw [coreBind_ok _ _ _ _ _ one, two]

theorem intFor_mem (m : Mach) (q i : Nat) (h : m.intFor q = some i) : i ∈ m.pendingInts := by
  have pick : ∀ (l : List Nat) (b : Option Nat), l.foldl (fun b i => match b with
      | none => some i
      | some j => if m.intBefore i j then some i else some j) b = some i → b = some i ∨ i ∈ l := by
    intro l
    induction l with
    | nil => exact fun b e => .inl e
    | cons j l ih =>
      intro b e
      rcases ih _ e with e | e
      · cases b with
        | none => cases e; exact .inr (List.mem_cons_self ..)
        | some k =>
          simp only at e
          split at e
          · cases e; exact .inr (List.mem_cons_self ..)
          · exact .inl e
      · exact .inr (List.mem_cons_of_mem _ e)
  rcases pick _ none h with e | e
  · cases e
  · exact List.mem_of_mem_filter e

theorem pendingInts_lt (m : Mach) (i : Nat) (h : i ∈ m.pendingInts) : i < 0x400 := by
  obtain ⟨e, he, rfl⟩ := List.mem_map.mp h
  have := (List.mem_filter.mp he).2
  simp only [Bool.and_eq_true, decide_eq_true_iff] at this
  omega

theorem reg_setFld_other (m : Mach) (a b : Nat) (f : Fld) (v : Nat) (h : a ≠ b) : (m.setFld a f v).reg b = m.reg b := by
  rw [Mach.setFld, Mach.reg_setReg, if_neg h]

/-- What waits for a checkpoint changes registers at even addresses alone. -/
theorem reg_atCheckpoint (m : Mach) (q a : Nat) (odd : a % 2 = 1) : (m.atCheckpoint q).reg a = m.reg a := by
  have seat : Reg.cluSeat (cluOf q) (q % 16) ≠ a := by unfold Reg.cluSeat; omega
  have unit : ∀ u, Reg.cluUnit (cluOf q) u ≠ a := fun u => by unfold Reg.cluUnit; omega
  unfold Mach.atCheckpoint
  simp only []
  split
  · split
    · rw [Mach.beginMove, Mach.reg_setSeat, Mach.setSeatState, reg_setFld_other _ _ _ _ _ seat, Mach.reg_setReg, if_neg (unit _),
        Mach.reg_setReg, if_neg (unit _)]
    · rfl
  · split
    · rw [Mach.reg_setSeat, Mach.setSeatState, reg_setFld_other _ _ _ _ _ seat]
    · rfl

theorem reg_endGroup (m : Mach) (q a : Nat) (odd : a % 2 = 1) (stores : (m.seat q).stores = []) (retries : (m.seat q).retries = 0) :
    (m.endGroup q).reg a = m.reg a := by
  rw [Mach.endGroup, reg_atCheckpoint _ _ _ odd, Mach.closeGroup, drain_nil m q stores]
  simp only [retries, if_true, Mach.reg_setSeat]

theorem setLevel_retries (x : Seat) (h : Nat) : (x.setLevel h).retries = x.retries := by
  unfold Seat.setLevel Seat.worldChange
  split <;> rfl

theorem reg_enterLevel (m : Mach) (q h cause detail page : Nat) (spill : Bool) (xpc a : Nat) (odd : a % 2 = 1)
    (stores : (m.seat q).stores = []) (retries : (m.seat q).retries = 0) :
    (m.enterLevel q h cause detail page spill xpc).reg a = m.reg a := by
  have counts := counts_nsRetire m q
  have same : (m.nsRetire q).reg a = m.reg a := by rw [Mach.reg, Mach.reg, counts.regs, counts.ledger]
  rw [Mach.enterLevel, reg_endGroup _ _ _ odd]
  · rw [Mach.reg_setSeat, same]
  · rw [Mach.seat_setSeat, if_pos rfl]
    obtain ⟨_, _, -, st, -⟩ := setLevel_arch ((m.nsRetire q).seat q) h
    exact st.trans (counts.stores.trans stores)
  · rw [Mach.seat_setSeat, if_pos rfl]
    exact (setLevel_retries _ _).trans ((retries_of_uncounted (uncounted_nsRetire m q)).trans retries)

/-- A seat with nothing to spill and no FP report takes the source it may take. -/
theorem takeInt_enters (m : Mach) (q i : Nat) (hq : q < 64) (stores : (m.seat q).stores = []) (retries : (m.seat q).retries = 0)
    (ds : (m.arch q).ds = []) (rs : (m.arch q).rs = []) (fp : (m.arch q).fp = none) (hi : m.intFor q = some i) :
    Enters (m.arch q) ((m.takeInt q).arch q) (if m.intSr i then 4 else 1) 0x11 (m.fld (Reg.intRoute i) F.intRoutePri) 0 false
      (m.arch q).pc ∧ (m.takeInt q).reg (Reg.intStat i) = m.reg (Reg.intStat i) &&& ~~~1#48 := by
  obtain ⟨x, spill, steps, arch⟩ := spillFor_empty m q (if m.intSr i then 4 else 1) ds rs
  obtain ⟨seat, -, rest⟩ := steps.rest
  have regs : ∀ a, x.reg a = m.reg a := fun a => by rw [rest]; rfl
  let last := if m.intSr i then Reg.intSeatlastSr (cluOf q) (q % 16) else Reg.intSeatlast (cluOf q) (q % 16)
  obtain ⟨n, hn⟩ : ∃ n, n = (x.setReg (Reg.intStat i) (x.reg (Reg.intStat i) &&& ~~~ 1#48)).setReg last
      (fset (fset 0 F.intSeatlastValid 1) F.intSeatlastSrc i) := ⟨_, rfl⟩
  have take : m.takeInt q =
      n.enterLevel q (if m.intSr i then 4 else 1) Cause.intr (m.fld (Reg.intRoute i) F.intRoutePri) 0 false (m.arch q).pc := by
    unfold Mach.takeInt
    rw [hi]
    simp only [fp, spill, Option.isSome_none, Bool.false_eq_true, if_false]
    rw [hn]
  have nSeat : n.seat q = x.seat q := by rw [hn, Mach.seat_setReg, Mach.seat_setReg]
  have nArch : n.arch q = m.arch q := by rw [Mach.arch, nSeat]; exact arch
  have nStores : (n.seat q).stores = [] := by rw [nSeat, seat]; exact stores
  have nRetries : (n.seat q).retries = 0 := by rw [nSeat, seat]; exact retries
  have lt := pendingInts_lt m i (intFor_mem m q i hi)
  have ne : last ≠ Reg.intStat i := by
    simp only [last, Reg.intSeatlastSr, Reg.intSeatlast, Reg.intStat, cluOf]
    split <;> omega
  rw [take]
  refine ⟨?_, ?_⟩
  · rw [← nArch]
    exact enterLevel_enters n q _ 0x11 _ 0 false _ nStores (by rw [nArch]; exact fp)
  · rw [reg_enterLevel _ _ _ _ _ _ _ _ _ (by unfold Reg.intStat; omega) nStores nRetries, hn, Mach.reg_setReg, if_neg ne,
      Mach.reg_setReg, if_pos rfl, regs]

/-- Waiting has no part in which source a seat may take. -/
theorem intFor_setWaiting (m : Mach) (q : Nat) : (m.setArch q { m.arch q with waiting := false }).intFor q = m.intFor q := by
  have arch : (m.setArch q { m.arch q with waiting := false }).arch q = { m.arch q with waiting := false } :=
    Mach.arch_setArch_self _ _ _
  have may : ∀ i, (m.setArch q { m.arch q with waiting := false }).mayTake q i = m.mayTake q i := by
    intro i
    unfold Mach.mayTake Mach.routedTo
    simp only [arch]
    rfl
  unfold Mach.intFor
  simp only [may]
  rfl

theorem fpReport_enters (m : Mach) (q d n : Nat) (stores : (m.seat q).stores = []) (ds : (m.arch q).ds = [])
    (rs : (m.arch q).rs = []) (fp : (m.arch q).fp = some (d, n)) (state : m.seatState q = 1)
    (xa : fbit ((m.arch q).psw (handlerOf (m.arch q).wld)) Psw.xa = false) :
    Enters (m.arch q) ((m.fpDue q true).arch q) (handlerOf (m.arch q).wld) 0x0E d 0 false (m.arch q).pc := by
  let x := m.setArch q { m.arch q with fp := none }
  have xa' : x.arch q = { m.arch q with fp := none } := Mach.arch_setArch_self _ _ _
  obtain ⟨y, spill, steps, arch⟩ := spillFor_empty x q (handlerOf (m.arch q).wld) (by rw [xa']; exact ds) (by rw [xa']; exact rs)
  have take : m.fpDue q true = y.enterLevel q (handlerOf (m.arch q).wld) 0x0E d 0 false (m.arch q).pc := by
    unfold Mach.fpDue
    simp only [fp, state]
    unfold Mach.takeExc
    simp only [fp, xa]
    show x.enterExc q _ _ _ = _
    rw [Mach.enterExc, spill]
    rfl
  have yStores : (y.seat q).stores = [] := by
    rw [steps.seatStores]
    show ((m.setArch q _).seat q).stores = []
    rw [Mach.setArch, Mach.seat_setSeat, if_pos rfl]
    exact stores
  have enters := enterLevel_enters y q (handlerOf (m.arch q).wld) 0x0E d 0 false (m.arch q).pc yStores (by rw [arch, xa'])
  rw [take]
  rw [arch, xa'] at enters
  exact enters.of_same rfl rfl rfl rfl

/-- What a seat at an instruction boundary has: it runs, and it retries nothing. -/
theorem boundary_facts {m : Mach} {q : Nat} (ready : m.boundaryReady q = true) : m.seatState q = 1 ∧ (m.seat q).retries = 0 := by
  simp only [Mach.boundaryReady, Bool.and_eq_true, decide_eq_true_iff] at ready
  exact ⟨ready.1.1.1.1.2, ready.2⟩

theorem interruptTake_ready (s : State) (q : SeatId) (ready : s.toMach.boundaryReady q.val = true) :
    exec (.interruptTake q) s = .next { s with toMach := s.toMach.takeInt q.val } := by
  change execInterruptTake q s = _
  rw [execInterruptTake, State.lift]
  exact congrArg (fun x : Mach => Host.Outcome.next { s with toMach := x }) (if_pos ready)

theorem fpTrapReport_ready (s : State) (q : SeatId) (ready : s.toMach.boundaryReady q.val = true)
    (waiting : (s.toMach.arch q.val).waiting = false) :
    exec (.fpTrapReport q) s = .next { s with toMach := s.toMach.fpDue q.val true } := by
  change execFpTrapReport q s = _
  rw [execFpTrapReport, State.lift]
  have cond : (s.toMach.boundaryReady q.val && !(s.toMach.arch q.val).waiting) = true := by rw [ready, waiting]; rfl
  exact congrArg (fun x : Mach => Host.Outcome.next { s with toMach := x }) (if_pos cond)

theorem waitEnd_ready (s : State) (q : SeatId) (ready : s.toMach.boundaryReady q.val = true)
    (waiting : (s.toMach.arch q.val).waiting = true) (pend : s.toMach.pendingInts.any (s.toMach.routedTo q.val) = true) :
    exec (.waitEnd q) s =
      .next { s with
        toMach := (s.toMach.setArch q.val { s.toMach.arch q.val with waiting := false }).takeInt q.val } := by
  change execWaitEnd q s = _
  rw [execWaitEnd, State.lift]
  have cond : (s.toMach.boundaryReady q.val && (s.toMach.arch q.val).waiting &&
      s.toMach.pendingInts.any (s.toMach.routedTo q.val)) = true := by rw [ready, waiting, pend]; rfl
  exact congrArg (fun x : Mach => Host.Outcome.next { s with toMach := x }) (if_pos cond)

/-- Settles O8. -/
theorem waitsInterruptsAndReports : Obligations.WaitsInterruptsAndReports := by
  refine ⟨fun s q m stores fp => ⟨fun h level => ⟨_, rfl, wait_run h stores fp level⟩, fun h => ⟨_, rfl, fence_run h stores fp⟩,
    fun h => ⟨_, rfl, ifence_run h stores fp⟩, fun h => ⟨_, rfl, fbar_run h fp⟩, fun h => ⟨_, rfl, pflush_run h stores fp⟩,
    fun h => ⟨_, rfl, bar_run h fp true⟩, fun h => ⟨_, rfl, bar_run h fp false⟩⟩, fun s q i => ?_⟩
  intro m a h pri ready stores empty
  obtain ⟨ds, rs⟩ := empty
  obtain ⟨state, retries⟩ := boundary_facts ready
  let x := m.setArch q.val { a with waiting := false }
  have xArch : x.arch q.val = { a with waiting := false } := Mach.arch_setArch_self _ _ _
  refine ⟨fun fp hi => ?_, fun fp waiting pend hi => ?_, fun waiting pend hi => ?_, fun d n fp waiting xa => ?_⟩
  · refine ⟨_, interruptTake_ready s q ready, ?_⟩
    exact takeInt_enters m q.val i q.isLt stores retries ds rs fp hi
  · refine ⟨_, waitEnd_ready s q ready waiting pend, ?_⟩
    have seats : (x.seat q.val).stores = [] ∧ (x.seat q.val).retries = 0 := by
      change ((m.setSeat q.val _).seat q.val).stores = [] ∧ ((m.setSeat q.val _).seat q.val).retries = 0
      simp only [Mach.seat_setSeat, if_true]
      exact ⟨stores, retries⟩
    have take := (takeInt_enters x q.val i q.isLt seats.1 seats.2 (by rw [xArch]; exact ds) (by rw [xArch]; exact rs)
      (by rw [xArch]; exact fp) ((intFor_setWaiting m q.val).trans hi)).1
    rw [xArch] at take
    exact take.of_same rfl rfl rfl rfl
  · refine ⟨_, waitEnd_ready s q ready waiting pend, ?_⟩
    have none : x.intFor q.val = none := (intFor_setWaiting m q.val).trans hi
    change (x.takeInt q.val).arch q.val = _
    rw [Mach.takeInt, none]
    exact xArch
  · refine ⟨_, fpTrapReport_ready s q ready waiting, ?_⟩
    exact fpReport_enters m q.val d n stores ds rs fp state xa

end Sys2Proof.Machine
end

section
/-! PROOFS. Near-store maintenance, fills and drains (R257, R258, R282 to R288, R296). -/

namespace Sys2Proof.Machine
open Sys2Proof

variable {s : State} {q len i line : Nat} {m n : Mach}

/-! ### What a write of a line leaves of the seats -/

theorem seats_toGroup (m : Mach) (line : Nat) : (m.toGroup line).seats = m.seats := by
  unfold Mach.toGroup
  simp only []
  split <;> rfl

theorem seats_mirDirty (m : Mach) (line : Nat) : (m.mirDirty line).seats = m.seats := by
  unfold Mach.mirDirty
  split <;> rfl

theorem seats_foldl {β : Type} (f : Mach → β → Mach) (h : ∀ m b, (f m b).seats = m.seats) (l : List β) (m : Mach) :
    (l.foldl f m).seats = m.seats := by
  induction l generalizing m with
  | nil => rfl
  | cons b l ih => exact (ih _).trans (h m b)

theorem seats_writeLine (m : Mach) (line : Nat) (ws : List (Nat × Cont)) : (m.writeLine line ws).seats = m.seats := by
  have conts := seats_foldl (fun x (e : Nat × Cont) => x.setCont (64 * line + e.1) e.2) (fun _ _ => rfl) ws m
  unfold Mach.writeLine
  split
  · rfl
  · rw [seats_mirDirty]
    split
    · exact conts
    · rw [seats_toGroup]; exact conts

theorem seat_writeLine (m : Mach) (line : Nat) (ws : List (Nat × Cont)) (j : Nat) : (m.writeLine line ws).seat j = m.seat j := by
  rw [Mach.seat, seats_writeLine]; rfl

/-- One unit in the walk that takes a line from every unit but seat `q`'s. -/
def Mach.snoopOne (q : Option Nat) (line : Nat) (x : Mach) (e : Nat × Seat) : Mach :=
  if q = some e.1 then x
  else
    let x1 := match e.2.dirtyOf line with
      | some ws => x.writeLine line ws
      | none => x
    if (e.2.dropLine line) = e.2 then x1 else x1.setSeat e.1 ((x1.seat e.1).dropLine line)

theorem snoopLine_eq (m : Mach) (q : Option Nat) (line : Nat) : m.snoopLine q line = m.seats.foldl (Mach.snoopOne q line) m := rfl

/-- One unit in the walk that cleans a line. -/
def Mach.cleanOne (line : Nat) (x : Mach) (e : Nat × Seat) : Mach :=
  match e.2.dirtyOf line with
  | some ws => if ws.isEmpty then x else (x.writeLine line ws).setSeat e.1 ((x.seat e.1).cleaned line)
  | none => x

theorem cleanAll_eq (m : Mach) (line : Nat) : m.cleanAll line =
    let m1 := m.seats.foldl (Mach.cleanOne line) m
    if m1.l2dirty.contains line then m1.toGroup line else m1 := rfl

theorem sameFront_snoopLine (m : Mach) (q : Option Nat) (line : Nat) : SameFront m (m.snoopLine q line) := by
  rw [snoopLine_eq]
  refine .foldl _ (fun x e => ?_) _ _
  unfold Mach.snoopOne
  have write : SameFront x (match e.2.dirtyOf line with
      | some ws => x.writeLine line ws
      | none => x) := by
    split
    · exact sameFront_writeLine _ _ _
    · exact .refl _
  split
  · exact .refl x
  · dsimp only
    split
    · exact write
    · exact write.trans (sameFront_dropAt _ _ _)

theorem sameFront_cleanAll (m : Mach) (line : Nat) : SameFront m (m.cleanAll line) := by
  have units : SameFront m (m.seats.foldl (Mach.cleanOne line) m) := by
    refine .foldl _ (fun x e => ?_) _ _
    unfold Mach.cleanOne
    split
    · split
      · exact .refl x
      · exact (sameFront_writeLine x _ _).trans (.setSeat _ _ _ (by rw [seat_writeLine]; rfl))
    · exact .refl x
  rw [cleanAll_eq]
  dsimp only
  split
  · exact units.trans (sameFront_toGroup _ _)
  · exact units

/-! ### One entry -/

@[simp] theorem Seat.ent_setEnt (x : Seat) (i : Nat) (e : NsEnt) : (x.setEnt i e).ent i = e := by
  rw [Seat.ent, Seat.setEnt, tabGet_put, if_pos rfl]

theorem tabGet_of_mem {α : Type} (d : Nat → α) (t : List (Nat × α)) (k : Nat) (v : α) (keys : (t.map Prod.fst).Nodup)
    (h : (k, v) ∈ t) : tabGet d t k = v := by
  induction t with
  | nil => cases h
  | cons e t ih =>
    obtain ⟨a, x⟩ := e
    rw [List.map_cons, List.nodup_cons] at keys
    rw [tabGet]
    rcases List.mem_cons.mp h with h | h
    · cases h; rw [if_pos rfl]
    · rw [if_neg fun e => keys.1 (List.mem_map.mpr ⟨(k, v), h, e.symm⟩)]
      exact ih keys.2 h

theorem tabGet_not_mem {α : Type} (d : Nat → α) (t : List (Nat × α)) (k : Nat) (h : k ∉ t.map Prod.fst) : tabGet d t k = d k := by
  induction t with
  | nil => rfl
  | cons e t ih =>
    obtain ⟨a, x⟩ := e
    rw [List.map_cons, List.mem_cons, not_or] at h
    rw [tabGet, if_neg (Ne.symm h.1), ih h.2]

theorem mem_of_tabGet {α : Type} (d : Nat → α) (t : List (Nat × α)) (k : Nat) : tabGet d t k = d k ∨ (k, tabGet d t k) ∈ t := by
  induction t with
  | nil => exact .inl rfl
  | cons e t ih =>
    obtain ⟨a, x⟩ := e
    rw [tabGet]
    split
    · rename_i h; exact .inr (h ▸ List.mem_cons_self ..)
    · exact ih.imp id (List.mem_cons_of_mem _)

/-- A seat whose near store has nothing on its way, in or out, and that holds a valid line in entry `i`, and no store for it. -/
structure Seat.Holding (x : Seat) (i : Nat) : Prop where
  still : x.ns.all (fun y => !y.2.filling) = true
  empty : x.evb = []
  stores : x.stores = []
  keys : (x.ns.map Prod.fst).Nodup
  valid : (x.ent i).valid = true
  unlocked : (x.ent i).locked = false

namespace Seat.Holding

theorem listed (h : (m.seat q).Holding i) : (i, (m.seat q).ent i) ∈ (m.seat q).ns := by
  rcases mem_of_tabGet (fun _ => ({} : NsEnt)) (m.seat q).ns i with e | e
  · have valid := h.valid
    rw [show (m.seat q).ent i = {} from e] at valid; cases valid
  · exact e

theorem settle (h : (m.seat q).Holding i) (line : Nat) : m.settle q line = m := by
  have fills : ((m.seat q).ns.any fun e => e.2.filling && e.2.line = line) = false := by
    rw [List.any_eq_false]
    intro e he
    have := List.all_eq_true.mp h.still e he
    simp_all
  rw [Mach.settle]
  simp only [fills, h.empty, List.any_nil, Bool.or_false, Bool.false_eq_true, if_false]

theorem settleEnt (h : (m.seat q).Holding i) : m.settleEnt q i = m := by
  have still := List.all_eq_true.mp h.still _ h.listed
  rw [Mach.settleEnt, if_neg (by simpa using still)]

theorem markStores (h : (m.seat q).Holding i) (line k : Nat) : m.markStores q line k = m := by
  rw [Mach.markStores, h.stores]; rfl

theorem loseStores (h : (m.seat q).Holding i) (line : Nat) : m.loseStores q line = m := by
  rw [Mach.loseStores, h.stores]; rfl

theorem entryOf (_ : (m.seat q).Holding i) (at_ : (m.seat q).holds line = some i) : (m.seat q).entryOf line = some i := by
  rw [Seat.entryOf, at_]

theorem lockedAt (h : (m.seat q).Holding i) (at_ : (m.seat q).holds line = some i) : (m.seat q).lockedAt line = false := by
  rw [Seat.lockedAt, h.entryOf at_]; exact h.unlocked

end Seat.Holding

/-! ### Maintenance of a line that entry `i` holds (R287, R288, R296) -/

/-- What maintenance leaves: entry `i` as given, and nothing changed but what units cache of memory. -/
structure Treats (q i : Nat) (e : NsEnt) (m n : Mach) : Prop where
  front : SameFront m n
  ent : (n.seat q).ent i = e

theorem setEnt_treats (m : Mach) (q i : Nat) (e : NsEnt) : Treats q i e m (m.setSeat q ((m.seat q).setEnt i e)) :=
  ⟨.setSeat _ _ _ rfl, by rw [Mach.seat_setSeat, if_pos rfl, Seat.ent_setEnt]⟩

theorem dropEnt_treats (m : Mach) (q i : Nat) : Treats q i {} m (m.dropEnt q i) := setEnt_treats m q i {}

theorem cleanEnt_eq (m : Mach) (q i : Nat) (valid : ((m.seat q).ent i).valid = true) (words : ((m.seat q).ent i).words ≠ []) :
    m.cleanEnt q i = (m.writeLine ((m.seat q).ent i).line ((m.seat q).ent i).words).setSeat q
      ((m.seat q).setEnt i { (m.seat q).ent i with words := [] }) := by
  rw [Mach.cleanEnt]
  simp only [valid, Bool.true_and, List.isEmpty_eq_false_iff.mpr words, Bool.not_false, if_true, seat_writeLine]

theorem cleanEnt_clean (m : Mach) (q i : Nat) (words : ((m.seat q).ent i).words = []) : m.cleanEnt q i = m := by
  rw [Mach.cleanEnt]
  simp only [words, List.isEmpty_nil, Bool.not_true, Bool.and_false, Bool.false_eq_true, if_false]

theorem cleanEnt_treats (m : Mach) (q i : Nat) (valid : ((m.seat q).ent i).valid = true) :
    Treats q i { (m.seat q).ent i with words := [] } m (m.cleanEnt q i) := by
  by_cases words : ((m.seat q).ent i).words = []
  · rw [cleanEnt_clean m q i words, ← words]
    exact ⟨.refl m, rfl⟩
  · rw [cleanEnt_eq m q i valid words]
    refine ⟨(sameFront_writeLine m _ _).trans (.setSeat _ _ _ ?_), ?_⟩
    · rw [seat_writeLine]; rfl
    · rw [Mach.seat_setSeat, if_pos rfl, Seat.ent_setEnt]

/-- The first entry of a table that has a property stays the first one where it is given a value that has it too. -/
theorem find?_tabInsert {α : Type} (p : Nat × α → Bool) (k : Nat) (v : α) (t : List (Nat × α)) (hv : p (k, v) = true)
    (h : (t.find? p).map Prod.fst = some k) : (tabInsert k v t).find? p = some (k, v) := by
  induction t with
  | nil => cases h
  | cons e t ih =>
    obtain ⟨a, x⟩ := e
    rw [tabInsert]
    split
    · rw [List.find?_cons_of_pos hv]
    · split
      · rw [List.find?_cons_of_pos hv]
      · rename_i ne
        by_cases hp : p (a, x) = true
        · rw [List.find?_cons_of_pos hp] at h
          cases h; exact absurd rfl ne
        · rw [List.find?_cons_of_neg hp] at h ⊢
          exact ih h

theorem holds_setEnt (x : Seat) (i line : Nat) (e : NsEnt) (at_ : x.holds line = some i) (valid : e.valid = true) (he : e.line = line) :
    (x.setEnt i e).holds line = some i := by
  have ne : e ≠ {} := fun h => by rw [h] at valid; cases valid
  rw [Seat.holds, Seat.setEnt, tabPut, if_neg ne, find?_tabInsert _ i e x.ns (by simp [valid, he]) at_]
  rfl

namespace Seat.Holding

theorem nsClean (h : (m.seat q).Holding i) (at_ : (m.seat q).holds line = some i) : m.nsClean q line = m.cleanEnt q i := by
  rw [Mach.nsClean, h.markStores, Mach.cleanLine]
  simp only [h.settle, at_]

theorem holds_cleanEnt (h : (m.seat q).Holding i) (at_ : (m.seat q).holds line = some i) (he : ((m.seat q).ent i).line = line) :
    ((m.cleanEnt q i).seat q).holds line = some i := by
  by_cases words : ((m.seat q).ent i).words = []
  · rw [cleanEnt_clean m q i words]; exact at_
  · rw [cleanEnt_eq m q i h.valid words, Mach.seat_setSeat, if_pos rfl]
    exact holds_setEnt _ i line _ at_ h.valid he

theorem nsFlush (h : (m.seat q).Holding i) (at_ : (m.seat q).holds line = some i) (he : ((m.seat q).ent i).line = line) :
    Treats q i {} m (m.nsFlush q line) := by
  have clean := cleanEnt_treats m q i h.valid
  have flush : m.nsFlush q line = (m.cleanEnt q i).dropEnt q i := by
    rw [Mach.nsFlush, h.markStores, Mach.flushLine, Mach.cleanLine]
    simp only [h.settle, at_]
    rw [Seat.entryOf, h.holds_cleanEnt at_ he]
  rw [flush]
  have drop := dropEnt_treats (m.cleanEnt q i) q i
  exact ⟨clean.front.trans drop.front, drop.ent⟩

theorem invalLine (h : (m.seat q).Holding i) (at_ : (m.seat q).holds line = some i) : Treats q i {} m (m.invalLine q line) := by
  rw [Mach.invalLine]
  simp only [h.settle, h.loseStores, h.entryOf at_]
  exact dropEnt_treats m q i

theorem invalRange (h : (m.seat q).Holding i) (at_ : (m.seat q).holds line = some i) : Treats q i {} m (m.invalRange q line) := by
  rw [Mach.invalRange]
  simp only [h.settle, h.lockedAt at_, Bool.false_eq_true, if_false]
  exact h.invalLine at_

theorem flushRange (h : (m.seat q).Holding i) (at_ : (m.seat q).holds line = some i) (he : ((m.seat q).ent i).line = line) :
    Treats q i {} m (m.flushRange q line) := by
  rw [Mach.flushRange]
  simp only [h.settle, h.lockedAt at_, Bool.false_eq_true, if_false]
  exact h.nsFlush at_ he

theorem nsUnlock (h : (m.seat q).Holding i) (at_ : (m.seat q).holds line = some i) :
    Treats q i { (m.seat q).ent i with vline := 0 } m (m.nsUnlock q line) := by
  rw [Mach.nsUnlock]
  simp only [h.settle, h.entryOf at_]
  rw [if_pos h.valid]
  have t := setEnt_treats m q i { (m.seat q).ent i with locked := false, vline := 0 }
  exact ⟨t.front, t.ent.trans (by rw [← h.unlocked])⟩

theorem dirtyOf (h : (m.seat q).Holding i) (at_ : (m.seat q).holds line = some i) :
    (m.seat q).dirtyOf line = some ((m.seat q).ent i).words := by
  rw [Seat.holds, Option.map_eq_some_iff] at at_
  obtain ⟨⟨k, e⟩, find, rfl⟩ := at_
  rw [Seat.dirtyOf, find]
  have ent : (m.seat q).ent k = e := tabGet_of_mem _ _ k e h.keys (List.mem_of_find?_eq_some find)
  rw [ent]

end Seat.Holding

theorem tabGet_map {α : Type} (d : Nat → α) (g : α → α) (t : List (Nat × α)) (k : Nat) (h : g (d k) = d k) :
    tabGet d (t.map fun e => (e.1, g e.2)) k = g (tabGet d t k) := by
  induction t with
  | nil => exact h.symm
  | cons e t ih =>
    obtain ⟨a, x⟩ := e
    rw [List.map_cons, tabGet, tabGet]
    split
    · rfl
    · exact ih

/-- An entry of a line without its changed words. -/
def NsEnt.cleaned (e : NsEnt) (line : Nat) : NsEnt := if e.line = line then { e with words := [] } else e

/-- Cleaning a unit's copies of a line cleans each entry. -/
theorem ent_cleaned (x : Seat) (i line : Nat) : (x.cleaned line).ent i = (x.ent i).cleaned line := by
  have each : (fun e : Nat × NsEnt => if e.2.line = line then (e.1, { e.2 with words := [] }) else e) =
      fun e => (e.1, e.2.cleaned line) := by
    funext e
    unfold NsEnt.cleaned
    split <;> rfl
  have default : NsEnt.cleaned {} line = {} := by unfold NsEnt.cleaned; split <;> rfl
  rw [Seat.ent, Seat.cleaned, each]
  exact tabGet_map (fun _ => {}) (fun e => e.cleaned line) x.ns i default

/-- A walk over a list keeps `I`, and reaches and keeps `P` from the element `b` on. -/
theorem foldl_reaches {β : Type} (f : Mach → β → Mach) (I P : Mach → Prop) (b : β) (step : ∀ x c, I x → I (f x c))
    (keep : ∀ x c, P x → P (f x c)) (reach : ∀ x, I x → P (f x b)) (l : List β) (mem : b ∈ l) (m : Mach) (start : I m) :
    P (l.foldl f m) := by
  induction l generalizing m with
  | nil => cases mem
  | cons c l ih =>
    rcases List.mem_cons.mp mem with rfl | mem
    · have hold : ∀ (l : List β) (x : Mach), P x → P (l.foldl f x) := by
        intro l
        induction l with
        | nil => exact fun _ h => h
        | cons c l ih => exact fun x h => ih _ (keep x c h)
      exact hold l _ (reach m start)
    · exact ih mem _ (step m c start)

theorem seat_cleanOne (x : Mach) (e : Nat × Seat) (line q : Nat) :
    (Mach.cleanOne line x e).seat q = x.seat q ∨ (Mach.cleanOne line x e).seat q = (x.seat q).cleaned line := by
  unfold Mach.cleanOne
  split
  · split
    · exact .inl rfl
    · rw [Mach.seat_setSeat]
      split
      · rename_i h; exact .inr (h ▸ rfl)
      · exact .inl (seat_writeLine _ _ _ _)
  · exact .inl rfl

theorem keys_cleaned (x : Seat) (line : Nat) : (x.cleaned line).ns.map Prod.fst = x.ns.map Prod.fst := by
  rw [Seat.cleaned, List.map_map]
  refine List.map_congr_left fun e _ => ?_
  dsimp only [Function.comp]
  split <;> rfl

theorem NsEnt.cleaned_cleaned (e : NsEnt) (line : Nat) : (e.cleaned line).cleaned line = e.cleaned line := by
  unfold NsEnt.cleaned
  split <;> rfl

theorem mem_seats (m : Mach) (q : Nat) (h : m.seat q ≠ {}) : (q, m.seat q) ∈ m.seats :=
  (mem_of_tabGet (fun _ => ({} : Seat)) m.seats q).resolve_left h

theorem Seat.Holding.mem_seats (h : (m.seat q).Holding i) : (q, m.seat q) ∈ m.seats :=
  Machine.mem_seats m q fun e => by
    have listed := h.listed
    rw [e] at listed; cases listed

/-- A line's clean leaves entry `i` clean, and the keys of the near store. -/
theorem Seat.Holding.cleanAll (h : (m.seat q).Holding i) (at_ : (m.seat q).holds line = some i)
    (he : ((m.seat q).ent i).line = line) :
    Treats q i { (m.seat q).ent i with words := [] } m (m.cleanAll line) ∧
      ((m.cleanAll line).seat q).ns.map Prod.fst = (m.seat q).ns.map Prod.fst := by
  have clean : ((m.seat q).ent i).cleaned line = { (m.seat q).ent i with words := [] } := if_pos he
  have seats : (m.cleanAll line).seats = (m.seats.foldl (Mach.cleanOne line) m).seats := by
    rw [cleanAll_eq]
    dsimp only
    split
    · exact seats_toGroup _ _
    · rfl
  have walk := foldl_reaches (Mach.cleanOne line)
    (fun x => (x.seat q).ns.map Prod.fst = (m.seat q).ns.map Prod.fst ∧
      ((x.seat q).ent i = (m.seat q).ent i ∨ (x.seat q).ent i = ((m.seat q).ent i).cleaned line))
    (fun x => (x.seat q).ns.map Prod.fst = (m.seat q).ns.map Prod.fst ∧ (x.seat q).ent i = ((m.seat q).ent i).cleaned line)
    (q, m.seat q) ?_ ?_ ?_ m.seats h.mem_seats m ⟨rfl, .inl rfl⟩
  · obtain ⟨keys, ent⟩ := walk
    have seat : (m.cleanAll line).seat q = _ := congrArg (fun l => tabGet (fun _ => ({} : Seat)) l q) seats
    exact ⟨⟨sameFront_cleanAll m line, by rw [seat, ← clean]; exact ent⟩, by rw [seat]; exact keys⟩
  · intro x e ⟨keys, ent⟩
    rcases seat_cleanOne x e line q with y | y <;> rw [y]
    · exact ⟨keys, ent⟩
    · rw [keys_cleaned, ent_cleaned]
      exact ⟨keys, .inr (by rcases ent with ent | ent <;> rw [ent]; rw [NsEnt.cleaned_cleaned])⟩
  · intro x e ⟨keys, ent⟩
    rcases seat_cleanOne x e line q with y | y <;> rw [y]
    · exact ⟨keys, ent⟩
    · rw [keys_cleaned, ent_cleaned, ent, NsEnt.cleaned_cleaned]
      exact ⟨keys, rfl⟩
  · intro x ⟨keys, ent⟩
    simp only [Mach.cleanOne, h.dirtyOf at_]
    by_cases words : ((m.seat q).ent i).words = []
    · simp only [words, List.isEmpty_nil, if_true]
      refine ⟨keys, ?_⟩
      rcases ent with ent | ent
      · rw [ent, clean, ← words]
      · exact ent
    · simp only [List.isEmpty_eq_false_iff.mpr words, Bool.false_eq_true, if_false, Mach.seat_setSeat, if_true]
      rw [keys_cleaned, ent_cleaned]
      refine ⟨keys, ?_⟩
      rcases ent with ent | ent <;> rw [ent]
      exact NsEnt.cleaned_cleaned _ _

/-! ### A line taken from every unit (R291, R296) -/

theorem keys_dropLine (x : Seat) (line k : Nat) (h : k ∈ (x.dropLine line).ns.map Prod.fst) : k ∈ x.ns.map Prod.fst := by
  obtain ⟨e, he, rfl⟩ := List.mem_map.mp h
  obtain ⟨y, hy, rfl⟩ := List.mem_map.mp (List.mem_filter.mp he).1
  refine List.mem_map.mpr ⟨y, hy, ?_⟩
  split <;> rfl

/-- Coherence takes an unlocked entry's line: the entry is gone. -/
theorem dropLine_gone (x : Seat) (i line : Nat) (e : NsEnt) (keys : (x.ns.map Prod.fst).Nodup) (listed : (i, e) ∈ x.ns)
    (valid : e.valid = true) (he : e.line = line) (unlocked : e.locked = false) : i ∉ (x.dropLine line).ns.map Prod.fst := by
  intro h
  obtain ⟨f, hf, rfl⟩ := List.mem_map.mp h
  obtain ⟨hm, ne⟩ := List.mem_filter.mp hf
  obtain ⟨⟨k, y⟩, hy, rfl⟩ := List.mem_map.mp hm
  have same : ∀ j, j = k → (j, e) ∈ x.ns → y = e := fun j hj hl => by
    subst hj
    rw [← tabGet_of_mem (fun _ => {}) x.ns j y keys hy, tabGet_of_mem (fun _ => {}) x.ns j e keys hl]
  have ye : y = e := same _ (by split <;> rfl) listed
  simp [ye, valid, he, NsEnt.emptied, unlocked] at ne

theorem Seat.Holding.removeAll (h : (m.seat q).Holding i) (at_ : (m.seat q).holds line = some i)
    (he : ((m.seat q).ent i).line = line) : Treats q i {} m (m.removeAll line) := by
  obtain ⟨clean, keys⟩ := h.cleanAll at_ he
  obtain ⟨x, hx⟩ : ∃ x, x = m.cleanAll line := ⟨_, rfl⟩
  rw [← hx] at clean keys
  have nodup : ((x.seat q).ns.map Prod.fst).Nodup := by rw [keys]; exact h.keys
  have listed : (i, { (m.seat q).ent i with words := [] }) ∈ (x.seat q).ns := by
    rcases mem_of_tabGet (fun _ => ({} : NsEnt)) (x.seat q).ns i with e | e
    · have valid := h.valid
      have ent := clean.ent
      rw [show (x.seat q).ent i = {} from e] at ent
      rw [show ((m.seat q).ent i).valid = ({ (m.seat q).ent i with words := [] } : NsEnt).valid from rfl, ← ent] at valid
      cases valid
    · rw [← clean.ent]; exact e
  have gone : i ∉ ((x.seat q).dropLine line).ns.map Prod.fst := dropLine_gone _ _ _ _ nodup listed h.valid he h.unlocked
  have ne : (x.seat q).dropLine line ≠ x.seat q := fun e => gone (by
    rw [e]; exact List.mem_map.mpr ⟨_, listed, rfl⟩)
  have one : ∀ (y : Mach) (e : Nat × Seat), ((Mach.snoopOne none line y e).seat q = y.seat q ∨
      (Mach.snoopOne none line y e).seat q = (y.seat q).dropLine line) ∧
        (e = (q, x.seat q) → (Mach.snoopOne none line y e).seat q = (y.seat q).dropLine line) := by
    intro y e
    have write : (match e.2.dirtyOf line with
      | some ws => y.writeLine line ws
      | none => y).seat q = y.seat q := by
      split
      · exact seat_writeLine _ _ _ _
      · rfl
    unfold Mach.snoopOne
    rw [if_neg (by simp)]
    dsimp only
    split
    · rename_i same
      exact ⟨.inl write, fun h => by subst h; exact absurd same ne⟩
    · rw [Mach.seat_setSeat]
      split
      · rename_i own
        rw [own, write]; exact ⟨.inr rfl, fun _ => rfl⟩
      · rename_i own
        exact ⟨.inl write, fun h => by subst h; exact absurd rfl own⟩
  have walk : i ∉ ((x.snoopLine none line).seat q).ns.map Prod.fst := by
    rw [snoopLine_eq]
    refine foldl_reaches _ (fun y => y.seat q = x.seat q ∨ i ∉ (y.seat q).ns.map Prod.fst)
      (fun y => i ∉ (y.seat q).ns.map Prod.fst) (q, x.seat q) (fun y e => ?_) (fun y e => ?_) (fun y => ?_) x.seats
      (Machine.mem_seats x q fun e => by rw [e] at listed; cases listed) x (.inl rfl)
    · intro hy
      rcases (one y e).1 with z | z <;> rw [z]
      · exact hy
      · exact .inr (hy.elim (fun hy => by rw [hy]; exact gone) fun hy hk => hy (keys_dropLine _ _ _ hk))
    · intro hy
      rcases (one y e).1 with z | z <;> rw [z]
      · exact hy
      · exact fun hk => hy (keys_dropLine _ _ _ hk)
    · intro hy
      rw [(one y _).2 rfl]
      exact hy.elim (fun hy => by rw [hy]; exact gone) fun hy hk => hy (keys_dropLine _ _ _ hk)
  have seat : ∀ j, (m.removeAll line).seat j = { (x.snoopLine none line).seat j with
      l1i := (((x.snoopLine none line).seat j).l1i.map fun w => (w.1, w.2.filter (· ≠ line))).filter fun w => w.2 ≠ [] } := by
    intro j
    rw [Mach.removeAll, ← hx]
    exact tabGet_map (fun _ => ({} : Seat)) (fun y => { y with
      l1i := (y.l1i.map fun w => (w.1, w.2.filter (· ≠ line))).filter fun w => w.2 ≠ [] }) _ j rfl
  have front := (clean.front.trans (sameFront_snoopLine x none line))
  refine ⟨⟨fun j => ?_, ?_, ?_, fun idle => ?_⟩, ?_⟩
  · rw [seat]; exact front.seat j
  · rw [Mach.removeAll, ← hx]; exact front.regs
  · rw [Mach.removeAll, ← hx]; exact front.ledger
  · rw [← front.memst idle, Mach.removeAll, ← hx]
  · rw [seat]
    exact tabGet_not_mem _ _ _ walk

/-! ### The instructions' bodies -/

theorem Seat.Holding.of_steps (h : (m.seat q).Holding i) (steps : ArchSteps q m n) : (n.seat q).Holding i := by
  rw [steps.rest.1]
  exact ⟨h.still, h.empty, h.stores, h.keys, h.valid, h.unlocked⟩

theorem grpState_of_steps (steps : ArchSteps q m n) (g : Nat) : n.grpState g = m.grpState g := by
  rw [steps.rest.2.2]; rfl

/-- The operands of an instruction popped, all of them in the core (R225, R248). -/
theorem popN_keeps (q : Nat) (m : Mach) (top rest : List Word) (pushes : Nat) (ds : (m.arch q).ds = top ++ rest)
    (bounds : (m.arch q).stackFault false top.length pushes = none) :
    ∃ n, popN q top.length m = .ok (top, n) ∧ ArchSteps q m n ∧
      StackMove false (m.arch q) (n.arch q) rest ((m.arch q).ptr false - top.length) := by
  have bound := stackFault_bounds _ _ _ _ bounds
  have lt : (m.arch q).ptr false < 2 ^ 48 := ((m.arch q).own (ptrCell false)).isLt
  have h0 := stackMove_refl false (m.arch q)
  rw [show (m.arch q).stk false = top ++ rest from ds] at h0
  exact popN_in q top m m (m.arch q) rest _ .refl h0 (by omega) lt

/-- A maintenance instruction run to its end: its operands gone, and what its treatment left of the near store. -/
theorem CanRun.maintains (h : CanRun s q len m) (stores : (s.toMach.seat q).stores = []) {body : CoreAct Flow} {n o : Mach}
    {rest : List Word} {p i : Nat} {e : NsEnt} (hb : body m = .ok (.solo, o)) (steps : ArchSteps q m n)
    (move : StackMove false (m.arch q) (n.arch q) rest p) (treats : Treats q i e n o) :
    InLine (s.toMach.arch q) ((s.toMach.coreRun q len body).arch q) len rest (s.toMach.arch q).rs [dspIs (s.toMach.arch q) p] ∧
      ((s.toMach.coreRun q len body).seat q).ent i = e := by
  have ha := h.arch
  rw [ha] at move
  have idle : n.memst.training = none := by rw [steps.contained.memst]; exact h.quiet.2
  have beside : Beside q m o := (Beside.of_steps steps).trans (.of_front treats.front idle)
  have arch : o.arch q = n.arch q := treats.front.arch q
  have young : (o.arch q).fpYoung := by rw [arch]; exact h.fpYoung move.fp
  have settled := h.settled stores hb rfl beside young
  have line := h.inLine hb rfl beside arch move.cellsOnly move.pc move.litk move.fp (fun e => by cases e)
  rw [show (n.arch q).ds = rest from move.stk, show (n.arch q).rs = _ from move.other] at line
  refine ⟨line, ?_⟩
  rw [← treats.ent]
  exact (congrArg (fun x : Seat => tabGet (fun _ => ({} : NsEnt)) x.ns i) settled : _)

/-- The checks of a maintenance instruction's address, in the monitor. -/
theorem maintAddr_ok (q va p : Nat) (k : Acc) (n : Mach) (wld : (n.arch q).wld = 4) (sound : n.grpState 0 ≠ 2 ∧ n.grpState 1 ≠ 2)
    (page : xlate q 4 va k n = .ok ((p, true), n)) (check : checkCont q 4 va k p (n.seen q p) n = .ok ((), n)) :
    maintAddr q va k n = .ok (p, n) := by
  unfold maintAddr
  rw [coreBind_ok _ _ _ _ _ (getArch_eq q n), wld, coreBind_ok _ _ _ _ _ page]
  have seen : modMach (fun m => m.lineSeen q (lineOf p)) n = .ok ((), n) := by
    rw [modMach, lineSeen_calm _ _ _ sound]
  dsimp only
  rw [coreBind_ok _ _ _ _ _ seen]
  rw [coreBind_ok _ _ _ _ _ (rfl : seenAt q p n = .ok (n.seen q p, n)), coreBind_ok _ _ _ _ _ check]
  rfl

/-- The state a maintenance instruction treats: its operands popped, in the monitor, every container within reach. -/
structure Popped (q : Nat) (top rest : List Word) (m n : Mach) : Prop where
  pop : popN q top.length m = .ok (top, n)
  steps : ArchSteps q m n
  move : StackMove false (m.arch q) (n.arch q) rest ((m.arch q).ptr false - top.length)
  wld : (n.arch q).wld = 4
  sound : n.grpState 0 ≠ 2 ∧ n.grpState 1 ≠ 2

theorem CanRun.popped (h : CanRun s q len m) (wld : (s.toMach.arch q).wld = 4) {top rest : List Word} {pushes : Nat}
    (ds : (s.toMach.arch q).ds = top ++ rest) (bounds : (s.toMach.arch q).stackFault false top.length pushes = none) :
    ∃ n, Popped q top rest m n := by
  have ha := h.arch
  rw [← ha] at wld ds bounds
  obtain ⟨n, pop, steps, move⟩ := popN_keeps q m top rest pushes ds bounds
  exact ⟨n, pop, steps, move, move.wld.trans wld,
    by rw [grpState_of_steps steps, grpState_of_steps steps]; exact h.quiet.1⟩

theorem Popped.eq_of_pop {q : Nat} {top rest : List Word} {m n x : Mach} (h : Popped q top rest m x)
    (pop : popN q top.length m = .ok (top, n)) : x = n := (coreOk_inj (h.pop.symm.trans pop)).2

theorem lineBody_ok {q : Nat} {sup : Bool} {k : Acc} {f : Mach → Nat → Mach} {m n : Mach} {x : Word} {rest : List Word} {p : Nat}
    (h : Popped q [x] rest m n) (bounds : (m.arch q).stackFault false 1 0 = none)
    (page : xlate q 4 (vaddr x) k n = .ok ((p, true), n)) (check : checkCont q 4 (vaddr x) k p (n.seen q p) n = .ok ((), n)) :
    lineBody q sup k f m = .ok (.solo, f n (lineOf p)) := by
  have level : (!sup || !taskLevel (m.arch q).wld) = true := by
    rw [← h.move.wld, h.wld]; exact Bool.or_true _
  unfold lineBody stackOp
  rw [coreBind_ok _ _ _ _ _ (needLevel_ok q _ m level), coreBind_ok (a := ()) (o := f n (lineOf p))]
  · rfl
  rw [coreBind_ok _ _ _ _ _ (stackCheck_ok q false 1 0 m bounds), coreBind_ok _ _ _ _ _ (show popN q 1 m = .ok ([x], n) from h.pop),
    coreBind_ok (a := []) (o := f n (lineOf p))]
  · rfl
  change (maintAddr q (vaddr x) k >>= _) n = _
  rw [coreBind_ok _ _ _ _ _ (maintAddr_ok q _ p k n h.wld h.sound page check)]
  rfl

theorem entryBody_ok {q : Nat} {f : Mach → Nat → Mach} {m n : Mach} {x : Word} {rest : List Word}
    (h : Popped q [x] rest m n) (bounds : (m.arch q).stackFault false 1 0 = none) :
    entryBody q f m = .ok (.solo, f (n.settleEnt q (x.toNat % 64)) (x.toNat % 64)) := by
  have level : (!taskLevel (m.arch q).wld) = true := by rw [← h.move.wld, h.wld]; rfl
  unfold entryBody stackOp
  rw [coreBind_ok _ _ _ _ _ (needLevel_ok q _ m level), coreBind_ok (a := ())
    (o := f (n.settleEnt q (x.toNat % 64)) (x.toNat % 64))]
  · rfl
  rw [coreBind_ok _ _ _ _ _ (stackCheck_ok q false 1 0 m bounds), coreBind_ok _ _ _ _ _ (show popN q 1 m = .ok ([x], n) from h.pop)]
  rfl

theorem treatLines_one (f : Mach → Nat → Mach) (p : Nat) (m : Mach) : treatLines f p 1 m = f m (lineOf p) := by
  rw [treatLines, Nat.add_sub_cancel, Nat.sub_self]
  rfl

theorem pageCheck_one (q va p : Nat) (k : Acc) (n : Mach) (sound : n.grpState 0 ≠ 2 ∧ n.grpState 1 ≠ 2)
    (page : xlate q 4 va k n = .ok ((p, true), n)) (key : n.keyPass q 4 k p (n.seen q p) = true) :
    pageCheck q 4 va 1 k n = .ok (p, n) := by
  unfold pageCheck
  rw [coreBind_ok _ _ _ _ _ page]
  dsimp only
  have seen : modMach (fun m => treatLines (fun x l => x.lineSeen q l) p 1 m) n = .ok ((), n) := by
    rw [modMach, treatLines_one, lineSeen_calm _ _ _ sound]
  rw [coreBind_ok _ _ _ _ _ seen]
  simp only [List.range, List.range.loop, List.find?, Nat.add_zero, key, Bool.not_true]

theorem rangeBody_ok {q : Nat} {sup : Bool} {k : Acc} {f : Mach → Nat → Mach} {m n : Mach} {x : Word} {rest : List Word} {p : Nat}
    (h : Popped q [1, x] rest m n) (bounds : (m.arch q).stackFault false 2 0 = none)
    (page : xlate q 4 (vaddr x) k n = .ok ((p, true), n)) (key : n.keyPass q 4 k p (n.seen q p) = true) :
    rangeBody q sup k f m = .ok (.solo, f n (lineOf p)) := by
  have level : (!sup || !taskLevel (m.arch q).wld) = true := by
    rw [← h.move.wld, h.wld]; exact Bool.or_true _
  have room : min 1 (4096 - vaddr x % 4096) = 1 := by omega
  unfold rangeBody
  rw [coreBind_ok _ _ _ _ _ (needLevel_ok q _ m level), coreBind_ok _ _ _ _ _ (stackCheck_ok q false 2 0 m bounds),
    coreBind_ok _ _ _ _ _ (show popN q 2 m = .ok ([1, x], n) from h.pop), coreBind_ok _ _ _ _ _ (getArch_eq q n), h.wld]
  have one : (List.getD [1, x] 0 0 : Word).toNat = 1 := rfl
  rw [one, if_neg (by decide)]
  change rangePages q 4 k f true 2 (vaddr x) 1 n = _
  rw [rangePages, room]
  dsimp only
  rw [if_neg (by simp), pageCheck_one q _ p k n h.sound page key]
  dsimp only
  rw [if_pos rfl, treatLines_one]

/-! ### Locks (R284) -/

theorem Seat.Holding.nsLock (h : (m.seat q).Holding i) (at_ : (m.seat q).holds line = some i) (room : (m.seat q).lockCount < 16)
    (vline : Nat) : let ok : Bool := m.setLocks (cluOf q) line < 12
    (m.nsLock q line vline).1 = ok ∧
      Treats q i (if ok then { (m.seat q).ent i with locked := true, vline := vline } else (m.seat q).ent i) m
        (m.nsLock q line vline).2 := by
  intro ok
  have full : (16 ≤ (m.seat q).lockCount) = False := eq_false (by omega)
  rw [Mach.nsLock]
  simp only [h.settle, h.lockedAt at_, Bool.false_eq_true, if_false, full, decide_false, Bool.false_or, at_]
  by_cases sets : 12 ≤ m.setLocks (cluOf q) line
  · have no : ok = false := decide_eq_false (by omega)
    simp only [sets, decide_true, if_true, no]
    exact ⟨trivial, .refl m, rfl⟩
  · have yes : ok = true := decide_eq_true (by omega)
    simp only [sets, decide_false, Bool.false_eq_true, if_false, yes, if_true]
    exact ⟨trivial, setEnt_treats m q i _⟩

/-- NSLOCK's body. -/
def nslockBody (q : Nat) : CoreAct Flow := do
  needLevel q fun l => !taskLevel l
  stackOp q 1 1 fun l => do
    let a := vaddr (l.getD 0 0)
    let p ← maintAddr q a .readCheck
    let ok ← (fun m => .ok (m.nsLock q (lineOf p) (a / 64)) : CoreAct Bool)
    pure [truth ok]
  pure .solo

theorem nslockBody_ok {m n : Mach} {x : Word} {rest : List Word} {p : Nat} (h : Popped q [x] rest m n)
    (bounds : (m.arch q).stackFault false 1 1 = none) (page : xlate q 4 (vaddr x) .readCheck n = .ok ((p, true), n))
    (check : checkCont q 4 (vaddr x) .readCheck p (n.seen q p) n = .ok ((), n)) :
    nslockBody q m = (do
      pushAll q [truth (n.nsLock q (lineOf p) (vaddr x / 64)).1]
      pure .solo : CoreAct Flow) (n.nsLock q (lineOf p) (vaddr x / 64)).2 := by
  have level : (!taskLevel (m.arch q).wld) = true := by rw [← h.move.wld, h.wld]; rfl
  have body : stackOp q 1 1 (fun l => do
      let a := vaddr (l.getD 0 0)
      let p ← maintAddr q a .readCheck
      let ok ← (fun m => .ok (m.nsLock q (lineOf p) (a / 64)) : CoreAct Bool)
      pure [truth ok]) m =
      pushAll q [truth (n.nsLock q (lineOf p) (vaddr x / 64)).1] (n.nsLock q (lineOf p) (vaddr x / 64)).2 := by
    unfold stackOp
    rw [coreBind_ok _ _ _ _ _ (stackCheck_ok q false 1 1 m bounds), coreBind_ok _ _ _ _ _ (show popN q 1 m = .ok ([x], n) from h.pop),
      coreBind_ok (a := [truth (n.nsLock q (lineOf p) (vaddr x / 64)).1]) (o := (n.nsLock q (lineOf p) (vaddr x / 64)).2)]
    change (maintAddr q (vaddr x) .readCheck >>= _) n = _
    rw [coreBind_ok _ _ _ _ _ (maintAddr_ok q _ p _ n h.wld h.sound page check)]
    rfl
  unfold nslockBody
  rw [coreBind_ok _ _ _ _ _ (needLevel_ok q _ m level)]
  simp only [bind, StateT.bind] at body ⊢
  rw [body]

/-! ### Fills and drains (R283, R285, R325) -/

/-- A line read without error where every device serves leaves everything (R325). -/
theorem readCheck_clear (m : Mach) (line : Nat) (serve : ∀ d, m.devState d ≠ 2) : m.readCheck line {} = m := by
  have failed : ((List.range 9).filter fun j => m.devState (devOf (groupOf line) j) = 2) = [] :=
    List.filter_eq_nil_iff.mpr fun j _ => by simpa using serve _
  rw [Mach.readCheck]
  simp only [failed]
  cases m.trainStripe (groupOf line) <;> rfl

theorem nsFilled_clear (m : Mach) (q i : Nat) (up : m.up = true) (filling : ((m.seat q).ent i).filling = true)
    (serve : ∀ d, m.devState d ≠ 2) : m.nsFilled q i {} = m.setSeat q ((m.seat q).fillDone i) := by
  rw [Mach.nsFilled]
  simp only [up, filling, Bool.and_self, if_true, readCheck_clear m _ serve]

theorem devState_setSeat (m : Mach) (q d : Nat) (x : Seat) : (m.setSeat q x).devState d = m.devState d := rfl

theorem writeBack_eq (m : Mach) (q : Nat) (e : EvLine) (oldest : (m.seat q).evb.find? (fun y => y.entry.isNone) = some e) :
    m.writeBack q = (m.writeLine e.line e.words).setSeat q
      { m.seat q with evb := (m.seat q).evb.filter fun x => x.line ≠ e.line } := by
  rw [Mach.writeBack]
  simp only [oldest]

theorem writtenBack_clear (s : State) (q : Nat) (e : EvLine)
    (oldest : (s.toMach.seat q).evb.find? (fun y => y.entry.isNone) = some e) (serve : ∀ d, s.toMach.devState d ≠ 2)
    (calm : Calm s.toMach q) : s.toMach.writtenBack q {} = s.toMach.writeBack q := by
  have front := sameFront_writeLine s.toMach e.line e.words
  have back := writeBack_eq s.toMach q e oldest
  have memst : (s.toMach.writeBack q).memst = s.toMach.memst := by
    rw [back]; exact front.memst calm.idle.1
  have states : ∀ d, (s.toMach.writeBack q).devState d ≠ 2 := by
    intro d
    rw [back, devState_setSeat, Mach.devState, Mach.fld, front.reg]
    exact serve d
  rw [Mach.writtenBack]
  simp only [oldest]
  rw [readCheck_clear _ _ states, stalled_calm calm _ memst]

theorem nearStoreTransit (s : State) (q : SeatId) (up : s.toMach.up = true) :
    let m := s.toMach
    (∀ i : Fin 64, ((m.seat q.val).ent i.val).filling = true → (∀ d, m.devState d ≠ 2) →
      ∃ t, exec (.nsFillDone q i {}) s = .next t ∧
        (t.toMach.seat q.val).ent i.val = { (m.seat q.val).ent i.val with filling := false } ∧
        (t.toMach.seat q.val).plru = touchFrom 6 (i.val + 64) (m.seat q.val).plru ∧ t.toMach.mem = m.mem) ∧
    (∀ e, (m.seat q.val).evb.find? (fun y => y.entry.isNone) = some e → (∀ d, m.devState d ≠ 2) → Calm m q.val →
      ∃ t, exec (.evictionWritebackDone (q, {})) s = .next t ∧
        (t.toMach.seat q.val).evb = (m.seat q.val).evb.filter (fun y => y.line ≠ e.line) ∧
        t.toMach.mem = (m.writeLine e.line e.words).mem) := by
  intro m
  refine ⟨fun i filling serve => ⟨_, rfl, ?_⟩, fun e oldest serve calm => ?_⟩
  · change (((m.nsFilled q.val i.val {}).seat q.val).ent i.val = _) ∧ ((m.nsFilled q.val i.val {}).seat q.val).plru = _ ∧
      (m.nsFilled q.val i.val {}).mem = _
    rw [nsFilled_clear m _ _ up filling serve, Mach.seat_setSeat, if_pos rfl]
    exact ⟨Seat.ent_setEnt _ _ _, rfl, rfl⟩
  · have run : exec (.evictionWritebackDone (q, {})) s = .next { s with toMach := m.writeBack q.val } := by
      change execEvictionWritebackDone (q, {}) s = _
      rw [execEvictionWritebackDone, State.lift, ← writtenBack_clear s q.val e oldest serve calm]
      exact congrArg (fun x : Mach => Host.Outcome.next { s with toMach := x }) (if_pos up)
    refine ⟨_, run, ?_⟩
    dsimp only
    rw [writeBack_eq m q.val e oldest, Mach.seat_setSeat, if_pos rfl]
    exact ⟨rfl, rfl⟩

/-! ### Entries by number -/

namespace Seat.Holding

theorem nsCleanEnt (h : (m.seat q).Holding i) : m.nsCleanEnt q i = m.cleanEnt q i := by
  rw [Mach.nsCleanEnt, h.markStores, ite_self]

theorem nsDropEnt (h : (m.seat q).Holding i) : m.nsDropEnt q i = m.dropEnt q i := by
  rw [Mach.nsDropEnt, h.loseStores, ite_self]

theorem nsFlushEnt (h : (m.seat q).Holding i) : Treats q i {} m (m.nsFlushEnt q i) := by
  rw [Mach.nsFlushEnt, h.markStores, ite_self]
  have drop := dropEnt_treats (m.cleanEnt q i) q i
  exact ⟨(cleanEnt_treats m q i h.valid).front.trans drop.front, drop.ent⟩

end Seat.Holding

/-- NSLOCK run to its end, its answer pushed. -/
theorem CanRun.locks (h : CanRun s q len m) (stores : (s.toMach.seat q).stores = []) {body : CoreAct Flow} {n o : Mach} {w x : Word}
    {rest : List Word} {i : Nat} {e : NsEnt} (hb : body m = (do
      pushAll q [w]
      pure .solo : CoreAct Flow) o) (popped : Popped q [x] rest m n) (room : rest.length ≤ 15)
    (bounds : (s.toMach.arch q).stackFault false 1 1 = none) (treats : Treats q i e n o) :
    InLine (s.toMach.arch q) ((s.toMach.coreRun q len body).arch q) len (w :: rest) (s.toMach.arch q).rs
        [dspIs (s.toMach.arch q) ((s.toMach.arch q).ptr false)] ∧
      ((s.toMach.coreRun q len body).seat q).ent i = e := by
  have ha := h.arch
  have move := popped.move
  rw [ha] at move
  have bound := stackFault_bounds _ _ _ _ bounds
  have lt : (s.toMach.arch q).ptr false < 2 ^ 48 := ((s.toMach.arch q).own (ptrCell false)).isLt
  have ptr : (n.arch q).ptr false + 1 = (s.toMach.arch q).ptr false := by
    rw [move.ptr, List.length_singleton]; omega
  have arch : o.arch q = n.arch q := treats.front.arch q
  have ds : (n.arch q).stk false = rest := move.stk
  obtain ⟨b, hb'⟩ : ∃ b, b = (n.arch q).moved false (w :: rest) ((n.arch q).ptr false + 1) := ⟨_, rfl⟩
  have push : body m = .ok (.solo, o.setArch q b) := by
    have one := pushStk_moved q false o _ w arch (by rw [ds]; omega)
    rw [ds, ← hb'] at one
    rw [hb, pushAll, coreBind_ok (a := ()) (o := o.setArch q b)]
    · rfl
    · rw [coreBind_ok _ _ _ _ _ one]
      rfl
  have idle : n.memst.training = none := by rw [popped.steps.contained.memst]; exact h.quiet.2
  have beside : Beside q m (o.setArch q b) :=
    ((Beside.of_steps popped.steps).trans (.of_front treats.front idle)).trans (.setArch q o b)
  have cells : CellsOnly (s.toMach.arch q) b [dspIs (s.toMach.arch q) ((s.toMach.arch q).ptr false)] := by
    rw [hb', ptr]
    exact (move.cellsOnly.moved false _ _).dedup
  have fp : b.fp = (s.toMach.arch q).fp := by rw [hb', Arch.moved_fp]; exact move.fp
  have own : (o.setArch q b).arch q = b := Mach.arch_setArch_self _ _ _
  have line := h.inLine push rfl beside own cells (by rw [hb', Arch.moved_pc]; exact move.pc)
    (by rw [hb', Arch.moved_litk]; exact move.litk) fp (fun e => by cases e)
  have bds : b.ds = w :: rest := by rw [hb']; exact Arch.moved_stk _ false _ _
  have brs : b.rs = (s.toMach.arch q).rs := by rw [hb']; exact (Arch.moved_stk_other _ false _ _).trans move.other
  rw [bds, brs] at line
  have settled := h.settled stores push rfl beside (by rw [own]; exact h.fpYoung fp)
  have ent : ((o.setArch q b).seat q).ent i = e := by
    rw [Mach.setArch, Mach.seat_setSeat, if_pos rfl]
    exact treats.ent
  refine ⟨line, ?_⟩
  rw [← ent]
  exact (congrArg (fun x : Seat => tabGet (fun _ => ({} : NsEnt)) x.ns i) settled : _)

/-! ### The obligation -/

/-- Settles O9. -/
theorem nearStoreCommands : Obligations.NearStoreCommands := by
  refine ⟨fun s q m n i p x rest h => ?_, fun s q up => nearStoreTransit s q up⟩
  intro a gone e va stores wld bounds still empty valid unlocked keys
  have holding : (m.seat q.val).Holding i := ⟨still, empty, (h.front.stores q.val).trans stores, keys, valid, unlocked⟩
  have ha : m.arch q.val = a := h.arch
  have line : ∀ c f k sup, exec c s = .next { s with toMach := s.toMach.coreRun q.val 2 (lineBody q.val sup k f) } →
      ∀ after, (∀ y : Mach, (y.seat q.val).Holding i → (y.seat q.val).holds (p / 64) = some i →
        ((y.seat q.val).ent i).line = p / 64 → (y.seat q.val).ent i = e → Treats q.val i after y (f y (p / 64))) →
      a.ds = x :: rest → popN q.val 1 m = .ok ([x], n) → (m.seat q.val).holds (p / 64) = some i → e.line = p / 64 →
      xlate q.val 4 va k n = .ok ((p, true), n) → checkCont q.val 4 va k p (n.seen q.val p) n = .ok ((), n) →
      ∃ t, exec c s = .next t ∧ InLine a (t.toMach.arch q.val) 2 rest a.rs [dspIs a (a.ptr false - 1)] ∧
        (t.toMach.seat q.val).ent i = after := by
    intro c f k sup run after treats ds pop at_ he page check
    obtain ⟨y, popped⟩ := h.popped wld (top := [x]) (pushes := 0) ds bounds
    have yn : y = n := popped.eq_of_pop pop
    subst yn
    have seat := popped.steps.rest.1
    have body := lineBody_ok (sup := sup) (f := f) popped (by rw [ha]; exact bounds) page check
    have result := h.maintains stores body popped.steps popped.move
      (treats y (holding.of_steps popped.steps) (by rw [seat]; exact at_) (by rw [seat]; exact he) (by rw [seat]; rfl))
    rw [ha] at result
    exact ⟨_, run, result⟩
  have entry : ∀ c f, exec c s = .next { s with toMach := s.toMach.coreRun q.val 2 (entryBody q.val f) } →
      ∀ after, (∀ y : Mach, (y.seat q.val).Holding i → (y.seat q.val).ent i = e → Treats q.val i after y (f y i)) →
      a.ds = x :: rest → x.toNat % 64 = i →
      ∃ t, exec c s = .next t ∧ InLine a (t.toMach.arch q.val) 2 rest a.rs [dspIs a (a.ptr false - 1)] ∧
        (t.toMach.seat q.val).ent i = after := by
    intro c f run after treats ds index
    obtain ⟨y, popped⟩ := h.popped wld (top := [x]) (pushes := 0) ds bounds
    have hy : (y.seat q.val).Holding i := holding.of_steps popped.steps
    have body := entryBody_ok (f := f) popped (by rw [ha]; exact bounds)
    rw [index, hy.settleEnt] at body
    have result := h.maintains stores body popped.steps popped.move
      (treats y hy (by rw [popped.steps.rest.1]; rfl))
    rw [ha] at result
    exact ⟨_, run, result⟩
  have range : ∀ c f k sup, exec c s = .next { s with toMach := s.toMach.coreRun q.val 2 (rangeBody q.val sup k f) } →
      ∀ after, (∀ y : Mach, (y.seat q.val).Holding i → (y.seat q.val).holds (p / 64) = some i →
        ((y.seat q.val).ent i).line = p / 64 → (y.seat q.val).ent i = e → Treats q.val i after y (f y (p / 64))) →
      a.ds = 1 :: x :: rest → a.stackFault false 2 0 = none → popN q.val 2 m = .ok ([1, x], n) →
      (m.seat q.val).holds (p / 64) = some i → e.line = p / 64 → xlate q.val 4 va k n = .ok ((p, true), n) →
      n.keyPass q.val 4 k p (n.seen q.val p) = true →
      ∃ t, exec c s = .next t ∧ InLine a (t.toMach.arch q.val) 2 rest a.rs [dspIs a (a.ptr false - 2)] ∧
        (t.toMach.seat q.val).ent i = after := by
    intro c f k sup run after treats ds bounds pop at_ he page key
    obtain ⟨y, popped⟩ := h.popped wld (top := [1, x]) (pushes := 0) ds bounds
    have yn : y = n := popped.eq_of_pop pop
    subst yn
    have seat := popped.steps.rest.1
    have body := rangeBody_ok (sup := sup) (f := f) popped (by rw [ha]; exact bounds) page key
    have result := h.maintains stores body popped.steps popped.move
      (treats y (holding.of_steps popped.steps) (by rw [seat]; exact at_) (by rw [seat]; exact he) (by rw [seat]; rfl))
    rw [ha] at result
    exact ⟨_, run, result⟩
  have clean : ∀ y : Mach, (y.seat q.val).Holding i → (y.seat q.val).ent i = e →
      Treats q.val i { e with words := [] } y (y.cleanEnt q.val i) := by
    intro y hy ent
    rw [← ent]
    exact cleanEnt_treats y _ i hy.valid
  refine ⟨?_, ?_, ?_, ?_⟩
  · refine List.forall_mem_cons.mpr ⟨?_, List.forall_mem_cons.mpr ⟨?_, List.forall_mem_cons.mpr ⟨?_, List.forall_mem_cons.mpr ⟨?_,
      List.forall_mem_cons.mpr ⟨?_, List.forall_mem_cons.mpr ⟨?_, fun _ none => absurd none List.not_mem_nil⟩⟩⟩⟩⟩⟩
    · exact line _ _ _ _ rfl _ fun y hy at_ he ent => by rw [hy.nsClean at_]; exact clean y hy ent
    · exact line _ _ _ _ rfl _ fun y hy at_ he _ => hy.nsFlush at_ he
    · exact line _ _ _ _ rfl _ fun y hy at_ _ _ => hy.invalLine at_
    · exact line _ _ _ _ rfl _ fun y hy at_ _ ent => by rw [← ent]; exact hy.nsUnlock at_
    · exact line _ _ _ _ rfl _ fun y hy at_ he ent => by rw [hy.markStores, ← ent]; exact (hy.cleanAll at_ he).1
    · exact line _ _ _ _ rfl _ fun y hy at_ he _ => by rw [hy.markStores]; exact hy.removeAll at_ he
  · refine List.forall_mem_cons.mpr ⟨?_, List.forall_mem_cons.mpr ⟨?_, List.forall_mem_cons.mpr ⟨?_,
      fun _ none => absurd none List.not_mem_nil⟩⟩⟩
    · exact entry _ _ rfl _ fun y hy ent => by rw [hy.nsCleanEnt]; exact clean y hy ent
    · exact entry _ _ rfl _ fun y hy ent => by rw [hy.nsDropEnt]; exact dropEnt_treats y _ i
    · exact entry _ _ rfl _ fun y hy ent => hy.nsFlushEnt
  · refine List.forall_mem_cons.mpr ⟨?_, List.forall_mem_cons.mpr ⟨?_, List.forall_mem_cons.mpr ⟨?_,
      fun _ none => absurd none List.not_mem_nil⟩⟩⟩
    · exact range _ _ _ _ rfl _ fun y hy at_ he ent => by rw [hy.nsClean at_]; exact clean y hy ent
    · exact range _ _ _ _ rfl _ fun y hy at_ _ _ => hy.invalRange at_
    · exact range _ _ _ _ rfl _ fun y hy at_ he _ => hy.flushRange at_ he
  · intro ds fits room pop at_ he count page check ok
    obtain ⟨y, popped⟩ := h.popped wld (top := [x]) (pushes := 1) ds fits
    have yn : y = n := popped.eq_of_pop pop
    subst yn
    have seat := popped.steps.rest.1
    have hy : (y.seat q.val).Holding i := holding.of_steps popped.steps
    have ent : (y.seat q.val).ent i = e := by rw [seat]; rfl
    obtain ⟨answer, treats⟩ := hy.nsLock (line := p / 64) (by rw [seat]; exact at_) (by rw [seat]; exact count) (va / 64)
    have body := nslockBody_ok popped (by rw [ha]; exact fits) page check
    rw [show (y.nsLock q.val (lineOf p) (vaddr x / 64)).1 = ok from answer] at body
    have result := h.locks (w := truth ok) stores body popped room fits treats
    rw [ent] at result
    exact ⟨_, rfl, result⟩

end Sys2Proof.Machine
end

section
/-! PROOFS. Exceptions of instructions (R225, R232, R233, R248). -/

namespace Sys2Proof.Machine
open Sys2Proof

variable {s : State} {q len : Nat} {m : Mach}

/-! ### What an exception undoes (R232, R281) -/

/-- A seat without its architected state, what counts toward its group and checkpoint, and what its unit caches of memory. -/
def Seat.bare (s : Seat) : Seat :=
  { s with
    arch := {}, ckpt := {}, group := 0, retries := 0, fresh := false, stores := [], tlb := [], ns := [], plru := [], evb := []
    l1i := [], acc := [], word := none, istOld := [] }

theorem bare_of_front {m n : Mach} (h : SameFront m n) (q : Nat) : (n.seat q).bare = (m.seat q).bare :=
  show (n.seat q).front.bare = (m.seat q).front.bare from congrArg Seat.bare (h.seat q)

theorem bare_of_uncounted {x y : Seat} (h : x.uncounted = y.uncounted) : x.bare = y.bare :=
  show x.uncounted.bare = y.uncounted.bare from congrArg Seat.bare h

theorem bare_wrongFetches (q k : Nat) (m : Mach) (hq : m.Quiet) :
    ((Mach.wrongFetches q k m).seat q).bare = (m.seat q).bare := by
  induction k generalizing m with
  | zero => rfl
  | succ k ih =>
    have aside := aside_wrongFetch m q hq
    refine (ih _ (aside.quiet hq)).trans ?_
    unfold Mach.wrongFetch
    simp only []
    have draw : Aside q m m.draw.2 := .of_counts (counts_draw q m)
    split
    · rename_i w n e
      have front := sameFront_fetchWord _ _ _ _ _ (draw.quiet hq).1 e
      have set : SameFront m _ := (sameFront_draw m).trans (front.trans (.setSeat n q { n.seat q with word := (m.seat q).word } rfl))
      exact bare_of_front set q
    · exact bare_of_front (sameFront_draw m) q

theorem bare_wrongPath (m : Mach) (q : Nat) (hq : m.Quiet) : ((m.wrongPath q).seat q).bare = (m.seat q).bare := by
  have draw : Aside q m m.draw.2 := .of_counts (counts_draw q m)
  unfold Mach.wrongPath
  split
  · rfl
  · exact (bare_of_uncounted (uncounted_nsRetire _ q)).trans
      ((bare_wrongFetches q _ _ (draw.quiet hq)).trans (bare_of_front (sameFront_draw m) q))

/-- The seat as `undo` leaves it before what it has fetched is counted. -/
def Seat.undone (s y : Seat) : Seat :=
  { s with
    tlb := y.tlb, ns := y.ns, plru := y.plru, evb := y.evb, l1i := y.l1i, istOld := y.istOld, word := y.word
    ckpt := y.ckpt, group := y.group, retries := y.retries, fresh := y.fresh
    stores := if s.stores.isSuffixOf y.stores then s.stores else []
    acc := y.acc.filter fun e => match e with
      | .fetch _ => true
      | _ => false }

/-- An instruction that has fetched and changed nothing but its seat's architected state is undone: nothing is left of it but what
its unit caches. -/
theorem undo_aside {k m x : Mach} (front : SameFront k m) (steps : ArchSteps q m x) (stores : (k.seat q).stores = [])
    (quiet : k.Quiet) : Aside q k (k.undo q x) ∧ ((k.undo q x).seat q).bare = (k.seat q).bare := by
  obtain ⟨seat, -, rest⟩ := steps.rest
  have set : Aside q k (x.setSeat q ((k.seat q).undone (x.seat q))) := by
    have mem : x.memst = k.memst := by rw [rest]; exact front.memst quiet.2
    have regs : x.regs = k.regs := by rw [rest]; exact front.regs
    have ledger : x.ledger = k.ledger := by rw [rest]; exact front.ledger
    refine ⟨⟨mem, ?_, ?_, ?_, ?_⟩, .of_eq ?_, regs, ledger⟩
    · rw [Mach.seat_setSeat, if_pos rfl]; rfl
    · rw [Mach.seat_setSeat, if_pos rfl, Seat.undone]
      dsimp only
      rw [stores, ite_self]
    · rw [Mach.seat_setSeat, if_pos rfl]
      change (x.seat q).group = _
      rw [seat]
      exact front.group q
    · exact (show (x.setSeat q _).splitSeat q = x.splitSeat q from rfl).trans (steps.split.trans (front.split q))
    · rw [Mach.arch, Mach.seat_setSeat, if_pos rfl]; rfl
  refine ⟨set.trans (.of_counts (counts_nsRetire _ q)), (bare_of_uncounted (uncounted_nsRetire _ q)).trans ?_⟩
  rw [Mach.seat_setSeat, if_pos rfl]
  rfl

/-! ### An exception taken (R232, R233) -/

/-- Two architected states that agree in what an exception's entry reads. -/
theorem Enters.of_counts {a b c : Arch} {h cause detail page : Nat} {spill : Bool} {xpc : Nat} (counts : CountsOnly a b)
    (g : Enters b c h cause detail page spill xpc) : Enters a c h cause detail page spill xpc :=
  g.of_same counts.wld counts.cells counts.ds counts.rs

/-- What the rest of an instruction's frame looks at beside the architected state. -/
structure Still (q : Nat) (m n : Mach) : Prop where
  memst : n.memst = m.memst
  reset : (n.seat q).resetReq = (m.seat q).resetReq

theorem enterExc_enters (m : Mach) (q h : Nat) (e : Exc) (xpc : Nat) (stores : (m.seat q).stores = []) (fp : (m.arch q).fp = none)
    (own : (m.arch q).wld = h ∨ ((m.arch q).ds = [] ∧ (m.arch q).rs = [])) :
    Enters (m.arch q) ((m.enterExc q h e xpc).arch q) h e.cause e.detail e.page e.spill xpc ∧ Still q m (m.enterExc q h e xpc) := by
  have spill : ∃ x, m.spillFor q h = .ok x ∧ ArchSteps q m x ∧ x.arch q = m.arch q := by
    rcases own with own | ⟨ds, rs⟩
    · exact ⟨m, if_pos own, .refl, rfl⟩
    · exact spillFor_empty m q h ds rs
  obtain ⟨x, spilled, steps, arch⟩ := spill
  have entered : m.enterExc q h e xpc = x.enterLevel q h e.cause e.detail e.page e.spill xpc := by
    rw [Mach.enterExc, spilled]
  have none : (x.seat q).stores = [] := steps.seatStores.trans stores
  have enters := enterLevel_enters x q h e.cause e.detail e.page e.spill xpc none (by rw [arch]; exact fp)
  obtain ⟨-, memst, reset, -⟩ := enterLevel_arch x q h e.cause e.detail e.page e.spill xpc none
  rw [entered]
  rw [arch] at enters
  exact ⟨enters, memst.trans steps.contained.memst, reset.trans steps.contained.reset⟩

theorem setArch_same (m : Mach) (q : Nat) (h : (m.arch q).fp = none) : ArchSteps q m (m.setArch q { m.arch q with fp := none }) ∧
    (m.setArch q { m.arch q with fp := none }).arch q = m.arch q :=
  ⟨.step m _ .refl, by rw [Mach.arch_setArch_self, ← h]⟩

/-- An exception taken by level `h`, with what it reports. -/
theorem takeExc_enters {k z w : Mach} {h : Nat} {e : Exc} {xpc : Nat} (taken : w = (z.setArch q { z.arch q with fp := none }).enterExc q h e xpc)
    (aside : Aside q k z) (stores : (k.seat q).stores = []) (fp : (k.arch q).fp = none)
    (own : (k.arch q).wld = h ∨ ((k.arch q).ds = [] ∧ (k.arch q).rs = [])) :
    Enters (k.arch q) (w.arch q) h e.cause e.detail e.page e.spill xpc ∧ Still q k w := by
  have counts := aside.counts
  obtain ⟨steps, arch⟩ := setArch_same z q (counts.fp.trans fp)
  obtain ⟨enters, still⟩ := enterExc_enters (z.setArch q { z.arch q with fp := none }) q h e xpc
    (steps.seatStores.trans (aside.beside.stores.trans stores)) (by rw [arch]; exact counts.fp.trans fp)
    (by rw [arch, counts.wld, counts.ds, counts.rs]; exact own)
  rw [arch] at enters
  rw [taken]
  exact ⟨.of_counts counts enters, still.memst.trans (steps.contained.memst.trans aside.beside.memst),
    still.reset.trans (steps.contained.reset.trans aside.beside.reset)⟩

/-- The frame of an instruction whose body raises an exception (R232). -/
theorem coreRun_raises {body : CoreAct Flow} {e : Exc} (ready : s.toMach.coreReady q = true) (calm : Calm s.toMach q)
    (fp : (s.toMach.arch q).fp = none) (fetch : fetchInstr q len (s.toMach.arch q).pc s.toMach = .ok ((), m))
    (hb : body m = .error e)
    (still : Still q s.toMach (((s.toMach.undo q e.at_).wrongPath q).takeExc q e (s.toMach.arch q).pc)) :
    s.toMach.coreRun q len body = ((s.toMach.undo q e.at_).wrongPath q).takeExc q e (s.toMach.arch q).pc := by
  have due : s.toMach.fpOver q = false := by rw [Mach.fpOver, fp]
  have done : s.toMach.coreEnd q len (s.toMach.arch q).pc (body m) =
      ((s.toMach.undo q e.at_).wrongPath q).takeExc q e (s.toMach.arch q).pc := by rw [hb]; rfl
  unfold Mach.coreRun
  rw [if_pos ready]
  simp only [due, Bool.false_eq_true, if_false]
  rw [coreBind_ok _ _ _ _ _ fetch, done, stalled_calm calm _ still.memst, Mach.lateReset, still.reset, calm.reset]
  rfl

/-- A state in which an instruction of one seat is about to raise an exception: its fetch has passed, and nothing of it is left. -/
structure Meets (s : State) (q len : Nat) (body : CoreAct Flow) (m : Mach) (e : Exc) : Prop where
  ready : s.toMach.coreReady q = true
  calm : Calm s.toMach q
  fp : (s.toMach.arch q).fp = none
  stores : (s.toMach.seat q).stores = []
  fetch : fetchInstr q len (s.toMach.arch q).pc s.toMach = .ok ((), m)
  raise : body m = .error e
  steps : ArchSteps q m e.at_

namespace Meets

variable {body : CoreAct Flow} {e : Exc}

theorem front (h : Meets s q len body m e) : SameFront s.toMach m := sameFront_fetchInstr _ _ _ _ _ _ h.calm.groups h.fetch

/-- What is left before the exception is taken. -/
theorem undone (h : Meets s q len body m e) : Aside q s.toMach ((s.toMach.undo q e.at_).wrongPath q) ∧
    (((s.toMach.undo q e.at_).wrongPath q).seat q).bare = (s.toMach.seat q).bare := by
  have quiet : s.toMach.Quiet := ⟨h.calm.groups, h.calm.idle.1⟩
  obtain ⟨aside, bare⟩ := undo_aside h.front h.steps h.stores quiet
  have quiet' := aside.quiet quiet
  exact ⟨aside.trans (aside_wrongPath _ q quiet'), (bare_wrongPath _ q quiet').trans bare⟩

theorem xa (h : Meets s q len body m e) (w : Nat) :
    (((s.toMach.undo q e.at_).wrongPath q).arch q).psw w = (s.toMach.arch q).psw w :=
  cell_of_cells h.undone.1.counts.cells _ _

end Meets

/-- An exception of an instruction enters its handling level. -/
theorem CanEnter.enters (h : CanEnter s q) {body : CoreAct Flow} {e : Exc}
    (fetch : fetchInstr q len (s.toMach.arch q).pc s.toMach = .ok ((), m)) (raise : body m = .error e) (steps : ArchSteps q m e.at_) :
    Enters (s.toMach.arch q) ((s.toMach.coreRun q len body).arch q) (handlerOf (s.toMach.arch q).wld) e.cause e.detail e.page
      e.spill (s.toMach.arch q).pc := by
  have meets : Meets s q len body m e := ⟨h.ready, h.calm, h.fp, h.stores, fetch, raise, steps⟩
  obtain ⟨aside, -⟩ := meets.undone
  have counts := aside.counts
  have taken : ((s.toMach.undo q e.at_).wrongPath q).takeExc q e (s.toMach.arch q).pc =
      (((s.toMach.undo q e.at_).wrongPath q).setArch q { ((s.toMach.undo q e.at_).wrongPath q).arch q with fp := none }).enterExc q
        (handlerOf (s.toMach.arch q).wld) e (s.toMach.arch q).pc := by
    rw [Mach.takeExc]
    simp only [counts.fp, h.fp, counts.wld, meets.xa, h.xa, Bool.not_false, if_true]
  obtain ⟨enters, still⟩ := takeExc_enters taken aside h.stores h.fp h.own
  rw [coreRun_raises h.ready h.calm h.fp fetch raise still]
  exact enters

/-! ### Where bodies raise (R232, R248) -/

theorem coreBind_error {α β : Type} {x : CoreAct α} {f : α → CoreAct β} {m : Mach} {e : Exc} (h : x m = .error e) :
    (x >>= f) m = .error e := by
  simp only [bind, StateT.bind, Except.bind, h]

theorem stackCheck_fault {q pops pushes d : Nat} {rs : Bool} {m : Mach} (h : (m.arch q).stackFault rs pops pushes = some d) :
    stackCheck q rs pops pushes m = .error { cause := if rs then Cause.rstack else Cause.dstack, detail := d, at_ := m } := by
  rw [stackCheck, h]
  rfl

theorem jmpiBody_fault {d : Nat} (h : (m.arch q).stackFault false 1 0 = some d) :
    jmpiBody q m = .error { cause := Cause.dstack, detail := d, at_ := m } := by
  unfold jmpiBody
  rw [coreBind_ok _ _ _ _ _ (getArch_eq q m)]
  exact coreBind_error (stackCheck_fault h)

theorem calliBody_fault {d : Nat} (h : (m.arch q).stackFault false 1 0 = some d) :
    calliBody q m = .error { cause := Cause.dstack, detail := d, at_ := m } := by
  have first : pcFirst q m = .ok ((), m) := by
    unfold pcFirst
    rw [coreBind_error (stackCheck_fault h)]
  unfold calliBody
  rw [coreBind_ok _ _ _ _ _ (getArch_eq q m), coreBind_ok _ _ _ _ _ first]
  exact coreBind_error (stackCheck_fault h)

theorem decWidth_bad (n : BitVec 8) (m : Mach) (h : n = 0 ∨ 3 < n.toNat) :
    decWidth n m = .error { cause := Cause.illegal, detail := 0, at_ := m } := by
  have bad : (1 ≤ n.toNat && n.toNat ≤ 3) = false := by
    rcases h with rfl | h
    · rfl
    · simp only [Bool.and_eq_false_iff, decide_eq_false_iff_not]; omega
  rw [decWidth, bad]
  rfl

theorem xferCount_bad (n : BitVec 8) (m : Mach) (h : 7 < n.toNat) :
    xferCount n m = .error { cause := Cause.illegal, detail := 0, at_ := m } := by
  rw [xferCount, if_neg (by omega)]
  rfl

theorem needLevel_bad {q : Nat} {p : Nat → Bool} {m : Mach} (h : p (m.arch q).wld = false) :
    needLevel q p m = .error { cause := Cause.priv, detail := 0, at_ := m } := by
  rw [needLevel, coreBind_ok _ _ _ _ _ (getArch_eq q m), h]
  rfl

theorem illegalBody_none {op op2 : Nat} (h : opLen op op2 = none) :
    illegalBody q op op2 m = .error { cause := Cause.illegal, detail := 0, at_ := m } := by
  rw [illegalBody, coreBind_ok _ _ _ _ _ (getArch_eq q m), h]
  rfl

/-- A division by zero raises its exception with the operands popped (R260). -/
theorem divBody_zero (q : Nat) (f : Word → Word → Word × Bool) (m : Mach) (x : Word) (rest : List Word)
    (ds : (m.arch q).ds = 0 :: x :: rest) (bounds : (m.arch q).stackFault false 2 1 = none) :
    ∃ n, divBody q f m = .error { cause := Cause.idiv, detail := 0, at_ := n } ∧ ArchSteps q m n := by
  obtain ⟨n, steps, -, run⟩ := pops_in q m 2 1 [0, x] rest rfl ds bounds
  refine ⟨n, ?_, steps⟩
  unfold divBody dsBody
  refine coreBind_error ((run _).trans ?_)
  exact coreBind_error rfl

theorem illegalOpcode_none (s : State) (q : SeatId) (op op2 : BitVec 8) (h : opLen op.toNat op2.toNat = none) :
    exec (.illegalOpcode q op op2) s =
      .next { s with toMach := s.toMach.coreRun q.val 1 (illegalBody q.val op.toNat op2.toNat) } := by
  have bad : s.toMach.opIllegal q.val op.toNat op2.toNat = true := by rw [Mach.opIllegal, h]
  change execIllegalOpcode q op op2 s = _
  rw [execIllegalOpcode, State.lift]
  exact congrArg (fun x : Mach => Host.Outcome.next { s with toMach := x }) (if_pos bad)

/-! ### The obligation -/

/-- Settles O10. -/
theorem instructionExceptions : Obligations.InstructionExceptions := by
  refine ⟨fun s q m d h => ?_, fun s q m n op op2 x rest h => ?_⟩
  · intro a fetch
    have arch : m.arch q.val = a := (sameFront_fetchInstr _ _ _ _ _ _ h.calm.groups fetch).arch q.val
    have at_ : ∀ {i : Instr} {body : CoreAct Flow} {c : Nat},
        exec i s = .next { s with toMach := s.toMach.coreRun q.val 1 body } →
        body m = .error { cause := c, detail := d, at_ := m } →
        ∃ t, exec i s = .next t ∧ Enters a (t.toMach.arch q.val) (handlerOf a.wld) c d 0 false a.pc :=
      fun run raise => ⟨_, run, h.enters fetch raise .refl⟩
    rw [← arch] at at_ ⊢
    refine ⟨?_, fun fault => at_ rfl (coreBind_error (stackCheck_fault fault))⟩
    repeat' refine List.forall_mem_cons.mpr ⟨?_, ?_⟩
    · exact fun fault => at_ rfl (coreBind_error (coreBind_error (stackCheck_fault fault)))
    · exact fun fault => at_ rfl (coreBind_error (coreBind_error (stackCheck_fault fault)))
    · exact fun fault => at_ rfl (coreBind_error (coreBind_error (stackCheck_fault fault)))
    · exact fun fault => at_ rfl (coreBind_error (coreBind_error (stackCheck_fault fault)))
    · exact fun fault => at_ rfl (coreBind_error (coreBind_error (stackCheck_fault fault)))
    · exact fun fault => at_ rfl (coreBind_error (coreBind_error (stackCheck_fault fault)))
    · exact fun fault => at_ rfl (coreBind_error (coreBind_error (stackCheck_fault fault)))
    · exact fun fault => at_ rfl (coreBind_error (coreBind_error (stackCheck_fault fault)))
    · exact fun fault => at_ rfl (coreBind_error (coreBind_error (stackCheck_fault fault)))
    · exact fun fault => at_ rfl (coreBind_error (stackCheck_fault fault))
    · exact fun fault => at_ rfl (coreBind_error (stackCheck_fault fault))
    · exact fun fault => at_ rfl (coreBind_error (stackCheck_fault fault))
    · exact fun fault => at_ rfl (coreBind_error (coreBind_error (stackCheck_fault fault)))
    · exact fun fault => at_ rfl (coreBind_error (coreBind_error (stackCheck_fault fault)))
    · exact fun fault => at_ rfl (coreBind_error (coreBind_error (stackCheck_fault fault)))
    · exact fun fault => at_ rfl (coreBind_error (coreBind_error (stackCheck_fault fault)))
    · exact fun fault => at_ rfl (coreBind_error (coreBind_error (stackCheck_fault fault)))
    · exact fun fault => at_ rfl (coreBind_error (coreBind_error (stackCheck_fault fault)))
    · exact fun fault => at_ rfl (coreBind_error (coreBind_error (stackCheck_fault fault)))
    · exact fun fault => at_ rfl (coreBind_error (coreBind_error (stackCheck_fault fault)))
    · exact fun fault => at_ rfl (coreBind_error (coreBind_error (stackCheck_fault fault)))
    · exact fun fault => at_ rfl (coreBind_error (coreBind_error (stackCheck_fault fault)))
    · exact fun fault => at_ rfl (coreBind_error (coreBind_error (stackCheck_fault fault)))
    · exact fun fault => at_ rfl (coreBind_error (coreBind_error (stackCheck_fault fault)))
    · exact fun fault => at_ rfl (coreBind_error (coreBind_error (stackCheck_fault fault)))
    · exact fun fault => at_ rfl (coreBind_error (coreBind_error (stackCheck_fault fault)))
    · exact fun fault => at_ rfl (coreBind_error (coreBind_error (stackCheck_fault fault)))
    · exact fun fault => at_ rfl (coreBind_error (coreBind_error (stackCheck_fault fault)))
    · exact fun fault => at_ rfl (coreBind_error (coreBind_error (stackCheck_fault fault)))
    · exact fun fault => at_ rfl (coreBind_error (coreBind_error (stackCheck_fault fault)))
    · exact fun fault => at_ rfl (jmpiBody_fault fault)
    · exact fun fault => at_ rfl (calliBody_fault fault)
    · exact fun _ none => absurd none List.not_mem_nil
  · intro a takes
    have front : ∀ {k}, fetchInstr q.val k a.pc s.toMach = .ok ((), m) → m.arch q.val = a := fun fetch =>
      (sameFront_fetchInstr _ _ _ _ _ _ h.calm.groups fetch).arch q.val
    have at_ : ∀ {i : Instr} {body : CoreAct Flow} {len c : Nat} {n : Mach},
        fetchInstr q.val len a.pc s.toMach = .ok ((), m) →
        exec i s = .next { s with toMach := s.toMach.coreRun q.val len body } →
        body m = .error { cause := c, detail := 0, at_ := n } → ArchSteps q.val m n → takes i c :=
      fun fetch run raise steps => ⟨_, run, h.enters fetch raise steps⟩
    refine ⟨fun fetch none => ?_, fun fetch width => ?_, fun fetch count => ?_, fun fetch task => ?_, fun fetch task => ?_,
      fun fetch ds bounds => ?_⟩
    · exact at_ fetch (illegalOpcode_none s q op op2 none) (illegalBody_none none) .refl
    · have bad := decWidth_bad n m width
      exact ⟨at_ fetch rfl (coreBind_error bad) .refl, at_ fetch rfl (coreBind_error bad) .refl,
        at_ fetch rfl (coreBind_error bad) .refl, at_ fetch rfl (coreBind_error bad) .refl⟩
    · have bad := xferCount_bad n m count
      exact ⟨at_ fetch rfl (coreBind_error bad) .refl, at_ fetch rfl (coreBind_error bad) .refl,
        at_ fetch rfl (coreBind_error bad) .refl⟩
    · have low : needLevel q.val (fun l => !taskLevel l) m = .error { cause := Cause.priv, detail := 0, at_ := m } :=
        needLevel_bad (by rw [front fetch, task]; rfl)
      exact ⟨at_ fetch rfl (coreBind_error low) .refl, at_ fetch rfl (coreBind_error low) .refl,
        at_ fetch rfl (coreBind_error low) .refl, at_ fetch rfl (coreBind_error low) .refl,
        at_ fetch rfl (coreBind_error low) .refl⟩
    · have low : needLevel q.val (fun l => !taskLevel l) m = .error { cause := Cause.priv, detail := 0, at_ := m } :=
        needLevel_bad (by rw [front fetch, task]; rfl)
      exact ⟨at_ fetch rfl (coreBind_error low) .refl, at_ fetch rfl (coreBind_error low) .refl⟩
    · have ma := front fetch
      have zero : ∀ {i : Instr} {f : Word → Word → Word × Bool},
          exec i s = .next { s with toMach := s.toMach.coreRun q.val 1 (divBody q.val f) } → takes i 0x0B := by
        intro i f run
        obtain ⟨y, raise, steps⟩ := divBody_zero q.val f m x rest (by rw [ma]; exact ds) (by rw [ma]; exact bounds)
        exact at_ fetch run raise steps
      exact ⟨zero rfl, zero rfl, zero rfl, zero rfl⟩

/-! ### Nested exceptions (R233, R348) -/

namespace Meets

variable {body : CoreAct Flow} {e : Exc}

/-- Before an exception is taken, the seat is as it was but for its performance counters. -/
theorem leaves (h : Meets s q len body m e) {b : Arch} (hb : b = ((s.toMach.undo q e.at_).wrongPath q).arch q) :
    Leaves (s.toMach.arch q) b (s.toMach.arch q).pc (s.toMach.arch q).litk (s.toMach.arch q).ds (s.toMach.arch q).rs none [] := by
  have counts := h.undone.1.counts
  rw [← hb] at counts
  exact ⟨counts.pc, counts.litk, counts.ds, counts.rs, counts.fp.trans h.fp, counts.wld, counts.waiting, counts.bar,
    fun k n _ => cell_of_cells counts.cells k n, counts.reg⟩

/-- The handling level's XA is 1: the exception becomes a DOUBLE, taken by the monitor. -/
theorem double (h : Meets s q len body m e) (low : (s.toMach.arch q).wld ≤ 3) (ds : (s.toMach.arch q).ds = [])
    (rs : (s.toMach.arch q).rs = []) (xa : fbit ((s.toMach.arch q).psw (handlerOf (s.toMach.arch q).wld)) Psw.xa = true)
    (mon : fbit ((s.toMach.arch q).psw 4) Psw.xa = false) (go : s.toMach.restarting = false ∨ 2 ≤ (s.toMach.arch q).wld) :
    Enters (s.toMach.arch q) ((s.toMach.coreRun q len body).arch q) 4 Cause.double e.cause 0 false (s.toMach.arch q).pc := by
  obtain ⟨aside, -⟩ := h.undone
  have counts := aside.counts
  have four : handlerOf (s.toMach.arch q).wld ≠ 4 := by rw [handlerOf_le _ low]; split <;> decide
  have waits : ((s.toMach.undo q e.at_).wrongPath q).doubleWaits q = false := by
    have restart : ((s.toMach.undo q e.at_).wrongPath q).restarting = s.toMach.restarting := by
      rw [Mach.restarting, Mach.restarting, Mach.bit, Mach.bit, Mach.reg, Mach.reg, aside.regs, aside.ledger]
    rw [Mach.doubleWaits]
    simp only [counts.wld, restart]
    rcases go with go | go
    · rw [go]; rfl
    · rw [srLevel, decide_eq_true go]; simp
  have taken : ((s.toMach.undo q e.at_).wrongPath q).takeExc q e (s.toMach.arch q).pc =
      (((s.toMach.undo q e.at_).wrongPath q).setArch q { ((s.toMach.undo q e.at_).wrongPath q).arch q with fp := none }).enterExc q
        4 { cause := Cause.double, detail := e.cause } (s.toMach.arch q).pc := by
    rw [Mach.takeExc]
    simp only [counts.fp, h.fp, counts.wld, h.xa, xa, mon, Bool.not_true, Bool.false_eq_true, if_false, four, decide_false,
      Bool.or_self, waits]
  obtain ⟨enters, still⟩ := takeExc_enters taken aside h.stores h.fp (.inr ⟨ds, rs⟩)
  rw [coreRun_raises h.ready h.calm h.fp h.fetch h.raise still]
  exact enters

/-- During a restart an open seat waits at its DOUBLE. -/
theorem waits (h : Meets s q len body m e) (low : (s.toMach.arch q).wld ≤ 1)
    (xa : fbit ((s.toMach.arch q).psw (handlerOf (s.toMach.arch q).wld)) Psw.xa = true)
    (mon : fbit ((s.toMach.arch q).psw 4) Psw.xa = false) (restart : s.toMach.restarting = true) :
    s.toMach.coreRun q len body = (s.toMach.undo q e.at_).wrongPath q := by
  obtain ⟨aside, -⟩ := h.undone
  have counts := aside.counts
  have four : handlerOf (s.toMach.arch q).wld ≠ 4 := by rw [handlerOf_le _ (by omega), if_pos low]; decide
  have waits : ((s.toMach.undo q e.at_).wrongPath q).doubleWaits q = true := by
    have same : ((s.toMach.undo q e.at_).wrongPath q).restarting = true := by
      rw [← restart, Mach.restarting, Mach.restarting, Mach.bit, Mach.bit, Mach.reg, Mach.reg, aside.regs, aside.ledger]
    rw [Mach.doubleWaits]
    simp only [counts.wld, h.xa, same, xa, mon, srLevel, decide_eq_false (show ¬ 2 ≤ (s.toMach.arch q).wld by omega)]
    rfl
  have taken : ((s.toMach.undo q e.at_).wrongPath q).takeExc q e (s.toMach.arch q).pc =
      (s.toMach.undo q e.at_).wrongPath q := by
    rw [Mach.takeExc]
    simp only [counts.wld, h.xa, xa, mon, Bool.not_true, Bool.false_eq_true, if_false, four, decide_false, Bool.or_self, waits,
      if_true]
  rw [coreRun_raises h.ready h.calm h.fp h.fetch h.raise (by rw [taken]; exact ⟨aside.beside.memst, aside.beside.reset⟩), taken]

/-- In the monitor with XA = 1, or at a DOUBLE that meets it so, the pair stops. -/
theorem stops (h : Meets s q len body m e)
    (xa : fbit ((s.toMach.arch q).psw (handlerOf (s.toMach.arch q).wld)) Psw.xa = true)
    (last : (s.toMach.arch q).wld = 4 ∨ fbit ((s.toMach.arch q).psw 4) Psw.xa = true) :
    s.toMach.coreRun q len body = ((s.toMach.undo q e.at_).wrongPath q).setSeat q
      { ((s.toMach.undo q e.at_).wrongPath q).seat q with stopped := true } := by
  have run := coreRun_raises h.ready h.calm h.fp h.fetch h.raise
  have psw := h.xa
  obtain ⟨aside, -⟩ := h.undone
  generalize (s.toMach.undo q e.at_).wrongPath q = z at aside psw run ⊢
  have counts := aside.counts
  have stop : (decide (handlerOf (s.toMach.arch q).wld = 4) || fbit ((s.toMach.arch q).psw 4) Psw.xa) = true := by
    rcases last with last | last
    · rw [last]; rfl
    · rw [last, Bool.or_true]
  have taken : z.takeExc q e (s.toMach.arch q).pc = z.setSeat q { z.seat q with stopped := true } := by
    rw [Mach.takeExc]
    simp only [counts.wld, psw, xa, Bool.not_true, Bool.false_eq_true, if_false, stop, if_true]
  rw [run, taken]
  rw [taken]
  refine ⟨aside.beside.memst, ?_⟩
  rw [Mach.seat_setSeat, if_pos rfl]
  exact aside.beside.reset

end Meets

/-- Settles O11. -/
theorem nestedExceptions : Obligations.NestedExceptions := by
  intro s q m op op2 a stays ready calm fp stores ds rs fetch none xa
  have run := illegalOpcode_none s q op op2 none
  have meets : Meets s q.val 1 (illegalBody q.val op.toNat op2.toNat) m { cause := Cause.illegal, detail := 0, at_ := m } :=
    ⟨ready, calm, fp, stores, fetch, illegalBody_none none, .refl⟩
  refine ⟨fun low mon go => ⟨_, run, meets.double low ds rs xa mon go⟩, fun low mon restart => ⟨_, run, ?_⟩,
    fun last => ⟨_, run, ?_⟩⟩
  · have same := meets.waits low xa mon restart
    have bare := meets.undone.2
    refine ⟨?_, meets.leaves (congrArg (fun x : Mach => x.arch q.val) same)⟩
    have going : (s.toMach.seat q.val).stopped = false := by
      simp only [Mach.coreReady, Bool.and_eq_true] at ready
      obtain ⟨⟨⟨⟨-, -⟩, going⟩, -⟩, -⟩ := ready
      simpa using going
    rw [← going]
    change ((s.toMach.coreRun q.val 1 (illegalBody q.val op.toNat op2.toNat)).seat q.val).stopped = _
    rw [same]
    exact (congrArg Seat.stopped bare : _)
  · have same := meets.stops xa last
    refine ⟨?_, meets.leaves ?_⟩ <;> dsimp only <;> rw [same]
    · rw [Mach.seat_setSeat, if_pos rfl]
    · rw [Mach.arch, Mach.seat_setSeat, if_pos rfl]
      rfl

end Sys2Proof.Machine
end

section
/-! PROOFS. The frame of the instructions that work on a core alone (R243 to R252). -/

namespace Sys2Proof.Machine
open Sys2Proof

variable {s : State} {q len : Nat} {m n o : Mach}

/-! ### What stays of a machine -/

/-- A machine without its seats, memory's side, the lines to ship to the twin and the free values: what the instructions of a core
and its fetches leave. -/
def Mach.cored (m : Mach) : Mach := { m with seats := [], mem := [], l2 := [], l2dirty := [], memst := {}, twin := {}, free := 0 }

theorem cored_foldl {β : Type} (f : Mach → β → Mach) (h : ∀ m b, (f m b).cored = m.cored) (l : List β) (m : Mach) :
    (l.foldl f m).cored = m.cored := by
  induction l generalizing m with
  | nil => rfl
  | cons b l ih => exact (ih _).trans (h m b)

theorem cored_toGroup (m : Mach) (line : Nat) : (m.toGroup line).cored = m.cored := by
  unfold Mach.toGroup
  dsimp only
  split <;> rfl

theorem cored_mirDirty (m : Mach) (line : Nat) : (m.mirDirty line).cored = m.cored := by
  unfold Mach.mirDirty
  split <;> rfl

theorem cored_writeLine (m : Mach) (line : Nat) (ws : List (Nat × Cont)) : (m.writeLine line ws).cored = m.cored := by
  have conts := cored_foldl (fun x (e : Nat × Cont) => x.setCont (64 * line + e.1) e.2) (fun _ _ => rfl) ws m
  unfold Mach.writeLine
  split
  · rfl
  · rw [cored_mirDirty]
    split
    · exact conts
    · rw [cored_toGroup]; exact conts

theorem cored_clusterDrop (m : Mach) (c line : Nat) : (m.clusterDrop c line).cored = m.cored := by
  unfold Mach.clusterDrop
  refine cored_foldl _ (fun x e => ?_) _ _
  have write : (match e.2.dirtyOf line with
      | some ws => x.writeLine line ws
      | none => x).cored = x.cored := by
    split
    · exact cored_writeLine _ _ _
    · rfl
  split
  · rfl
  · dsimp only
    split
    · exact write
    · exact write

theorem cored_stacksUse (m : Mach) (c line : Nat) : (m.stacksUse c line).2.cored = m.cored := by
  unfold Mach.stacksUse
  dsimp only
  split
  · rfl
  · generalize @ite (Option Nat × List Nat) ((tabGet (fun _ => []) m.l2 (4096 * c + line % 4096)).length < 16) _ _ _ = gk
    obtain ⟨gone, keep⟩ := gk
    cases gone with
    | none => rfl
    | some l =>
      dsimp only
      split
      · rw [cored_toGroup]; exact cored_clusterDrop m c l
      · exact cored_clusterDrop m c l

theorem cored_setSeat (m : Mach) (q : Nat) (x : Seat) : (m.setSeat q x).cored = m.cored := rfl

theorem cored_noteNs (m : Mach) (q : Nat) (e : NsEv) : (m.noteNs q e).cored = m.cored := rfl

theorem cored_fetchLine (m : Mach) (q l : Nat) : (m.fetchLine q l).cored = m.cored := by
  unfold Mach.fetchLine
  dsimp only
  generalize hx : m.setSeat q _ = x
  have same : x.cored = m.cored := by rw [← hx, cored_setSeat]
  have used := cored_stacksUse x (cluOf q) l
  split
  · exact same
  · split <;> (rename_i e; rw [e] at used; simp only [cored_noteNs]; exact used.trans same)

theorem cored_pageEntry (q : Nat) (sr : Bool) (root : Word) (vp : Nat) (m n : Mach) (e : Nat)
    (h : pageEntry q sr root vp m = .ok (e, n)) : n.cored = m.cored := by
  unfold pageEntry at h
  simp only [coreExc] at h
  split at h
  · obtain ⟨_, rfl⟩ := coreOk_inj h; rfl
  · cases h
  · split at h
    · obtain ⟨_, rfl⟩ := coreOk_inj h; rfl
    · split at h
      · obtain ⟨_, rfl⟩ := coreOk_inj h; rfl
      · split at h
        · obtain ⟨_, rfl⟩ := coreOk_inj h; rfl
        · cases h

theorem cored_xlate (q wld a : Nat) (k : Acc) (m n : Mach) (r : Nat × Bool) (h : xlate q wld a k m = .ok (r, n)) :
    n.cored = m.cored := by
  unfold xlate at h
  simp only [coreExc] at h
  generalize (m.arch q).reg (if srLevel wld = true then 1 else 0) = root at h
  split at h
  · split at h
    · cases h
    · split at h
      · cases h
      · obtain ⟨_, rfl⟩ := coreOk_inj h; rfl
  · split at h
    · cases h
    · rename_i walk
      have paged := cored_pageEntry _ _ _ _ _ _ _ walk
      split at h
      · cases h
      · split at h
        · cases h
        · split at h
          · cases h
          · obtain ⟨_, rfl⟩ := coreOk_inj h; exact paged

theorem cored_fetchWord (q pc : Nat) (m n : Mach) (w : Word) (sound : m.grpState 0 ≠ 2 ∧ m.grpState 1 ≠ 2)
    (h : fetchWord q pc m = .ok (w, n)) : n.cored = m.cored := by
  unfold fetchWord at h
  obtain ⟨a, x, got, h⟩ := coreBind _ _ _ _ _ h
  obtain ⟨_, rfl⟩ := coreOk_inj got
  obtain ⟨r, x, page, h⟩ := coreBind _ _ _ _ _ h
  have paged := cored_xlate _ _ _ _ _ _ _ page
  have front := sameFront_xlate _ _ _ _ _ _ _ page
  obtain ⟨u, y, seen, h⟩ := coreBind _ _ _ _ _ h
  obtain ⟨_, still⟩ := coreOk_inj seen
  change x.lineSeen q (lineOf r.1) = y at still
  rw [lineSeen_calm _ _ _ (by rw [front.grpState, front.grpState]; exact sound)] at still
  obtain ⟨c, z, got, h⟩ := coreBind _ _ _ _ _ h
  obtain ⟨_, held⟩ := coreOk_inj got
  obtain ⟨v, z, check, h⟩ := coreBind _ _ _ _ _ h
  have same := checkCont_same _ _ _ _ _ _ _ _ _ check
  obtain ⟨v, z, used, h⟩ := coreBind _ _ _ _ _ h
  obtain ⟨_, use⟩ := coreOk_inj used
  obtain ⟨_, done⟩ := coreOk_inj h
  refine Eq.trans ?_ paged
  rw [← done, ← use, same, ← held, ← still]
  dsimp only
  split
  · exact cored_fetchLine _ _ _
  · rw [cored_fetchLine, cored_noteNs, cored_setSeat]

theorem cored_fetchInstr (q len pc : Nat) (m n : Mach) (u : Unit) (sound : m.grpState 0 ≠ 2 ∧ m.grpState 1 ≠ 2)
    (h : fetchInstr q len pc m = .ok (u, n)) : n.cored = m.cored := by
  unfold fetchInstr at h
  obtain ⟨w, x, word, h⟩ := coreBind _ _ _ _ _ h
  have fetched := cored_fetchWord _ _ _ _ _ sound word
  split at h
  · cases h
  · obtain ⟨_, rfl⟩ := coreOk_inj h; exact fetched

/-- Nothing differs outside seat `q`, memory's side, the lines to ship to the twin and the free values. -/
structure Apart (q : Nat) (m n : Mach) : Prop where
  cored : n.cored = m.cored
  others : ∀ j, j ≠ q → n.arch j = m.arch j

namespace Apart

theorem refl (q : Nat) (m : Mach) : Apart q m m := ⟨rfl, fun _ _ => rfl⟩

theorem trans (h : Apart q m n) (g : Apart q n o) : Apart q m o :=
  ⟨g.cored.trans h.cored, fun j hj => (g.others j hj).trans (h.others j hj)⟩

theorem of_front (h : SameFront m n) (g : n.cored = m.cored) : Apart q m n := ⟨g, fun j _ => h.arch j⟩

theorem setSeat (q : Nat) (m : Mach) (x : Seat) : Apart q m (m.setSeat q x) :=
  ⟨rfl, fun j hj => by rw [Mach.arch, Mach.seat_setSeat, if_neg (Ne.symm hj)]; rfl⟩

theorem of_steps (h : ArchSteps q m n) : Apart q m n := by
  induction h with
  | refl => exact .refl q m
  | step _ _ _ ih => exact ih.trans (.setSeat q _ _)

end Apart

/-- Nothing differs outside seat `q` but the free values. -/
structure Within (q : Nat) (m n : Mach) : Prop where
  apart : Apart q m n
  mem : n.mem = m.mem

namespace Within

theorem refl (q : Nat) (m : Mach) : Within q m m := ⟨.refl q m, rfl⟩

theorem trans (h : Within q m n) (g : Within q n o) : Within q m o := ⟨h.apart.trans g.apart, g.mem.trans h.mem⟩

theorem setSeat (q : Nat) (m : Mach) (x : Seat) : Within q m (m.setSeat q x) := ⟨.setSeat q m x, rfl⟩

theorem setArch (q : Nat) (m : Mach) (a : Arch) : Within q m (m.setArch q a) := .setSeat q m _

theorem of_steps (h : ArchSteps q m n) : Within q m n := ⟨.of_steps h, by rw [h.rest.2.2]⟩

theorem draw (q : Nat) (m : Mach) : Within q m m.draw.2 := ⟨⟨rfl, fun _ _ => rfl⟩, rfl⟩

theorem foldl {β : Type} (q : Nat) (f : Mach → β → Mach) (h : ∀ m b, Within q m (f m b)) (l : List β) (m : Mach) :
    Within q m (l.foldl f m) := by
  induction l generalizing m with
  | nil => exact .refl q m
  | cons b l ih => exact (h m b).trans (ih _)

end Within

/-! ### Counting and retiring -/

theorem within_pmc (m : Mach) (q ev k : Nat) : Within q m (m.pmc q ev k) := by
  unfold Mach.pmc
  dsimp only
  split
  · exact .refl q m
  · exact .setArch q m _

theorem within_nsCount (q : Nat) (m : Mach) (e : NsEv) : Within q m (Mach.nsCount q m e) := by
  cases e <;> simp only [Mach.nsCount]
  case hit line =>
    refine Within.trans ?_ (within_pmc _ q _ _)
    split
    · exact .setSeat q m _
    · exact .refl q m
  all_goals exact within_pmc m q _ _

theorem within_nsRetire (m : Mach) (q : Nat) : Within q m (m.nsRetire q) := by
  unfold Mach.nsRetire
  dsimp only
  split
  · exact .refl q m
  · exact (Within.setSeat q m _).trans (.foldl q _ (within_nsCount q) _ _)

theorem within_pmcFree (m : Mach) (q : Nat) (fold : Bool) : Within q m (m.pmcFree q fold) := by
  unfold Mach.pmcFree
  refine .foldl q _ (fun x ev => ?_) _ m
  split
  · exact (Within.draw q x).trans (within_pmc _ q _ _)
  · exact .refl q x

theorem within_countInstr (m : Mach) (q : Nat) (fold : Bool) : Within q m (m.countInstr q fold) :=
  ((within_nsRetire m q).trans (within_pmc _ q _ _)).trans (within_pmcFree _ q fold)

/-- An instruction that goes on in its group retires within its seat. -/
theorem within_retire (m : Mach) (q : Nat) (fold : Bool) (hy : (m.arch q).fpYoung) (group : (m.seat q).group < 63)
    (room : m.splitSeat q = false ∨ (m.seat q).stores = []) : Within q m (m.retire q false fold) := by
  have count := within_countInstr m q fold
  have counts := counts_countInstr m q fold
  rw [Mach.retire, Mach.retired]
  generalize m.countInstr q fold = n at count counts ⊢
  obtain ⟨x, hx⟩ : ∃ x : Seat, x = { n.seat q with
      group := (n.seat q).group + 1
      step := false
      arch := { (n.seat q).arch with fp := (n.seat q).arch.fp.map (fun (x : Nat × Nat) => (x.1, x.2 + 1)) } } := ⟨_, rfl⟩
  have more : ¬ 64 ≤ (n.seat q).group + 1 := by rw [counts.group]; omega
  have ended : n.endInstr q false = n.setSeat q x := by
    unfold Mach.endInstr
    simp only [← hx, Bool.false_or, more, decide_false, Bool.false_eq_true, if_false]
    have split : (n.setSeat q x).splitSeat q = m.splitSeat q := counts.split
    rw [split]
    rcases room with room | room
    · rw [room]; rfl
    · rw [drain_nil _ q (by rw [Mach.seat_setSeat, if_pos rfl, hx]; exact counts.stores.trans room), ite_self]
  have young : (n.setSeat q x).fpDue q false = n.setSeat q x := by
    refine fpDue_young _ q fun y hy' => ?_
    rw [Mach.arch, Mach.seat_setSeat, if_pos rfl, hx] at hy'
    have hy' : (n.arch q).fp.map (fun (x : Nat × Nat) => (x.1, x.2 + 1)) = some y := hy'
    rw [counts.arch.fp] at hy'
    cases e : (m.arch q).fp with
    | none => rw [e] at hy'; cases hy'
    | some z => rw [e] at hy'; cases hy'; exact Nat.succ_lt_succ (hy z e)
  rw [ended, young]
  exact count.trans (.setSeat q n x)

/-- How a body ends its instruction in line or at a target, its seat given the pc. -/
def Flow.placed (f : Flow) (n : Mach) (q len : Nat) : Option Mach :=
  match f with
  | .next false => some (n.advancePc q len)
  | .solo => some (n.advancePc q len)
  | .jump pc => some (n.goTo q pc)
  | _ => none

theorem coreEnd_placed {f : Flow} {x : Mach} (placed : f.placed n q len = some x) (k : Mach) (pc : Nat) :
    ∃ fold, k.coreEnd q len pc (.ok (f, n)) = x.retire q false fold := by
  cases f with
  | next act =>
    cases act
    · cases placed; exact ⟨true, rfl⟩
    · cases placed
  | solo => cases placed; exact ⟨false, rfl⟩
  | jump pc => cases placed; exact ⟨true, rfl⟩
  | _ => cases placed

/-- What a body does that works on its seat alone: it ends in line or at a target, and beside the seat's architected state nothing
is changed that retiring looks at. -/
structure Alone (q : Nat) (m : Mach) (r : Except Exc (Flow × Mach)) (stays : Prop) : Prop where
  ends : ∃ f n, r = .ok (f, n) ∧ (∀ len, (f.placed n q len).isSome) ∧ Beside q m n ∧ Apart q m n ∧ (n.arch q).fpYoung ∧
    (stays → n.mem = m.mem)

theorem placed_within {f : Flow} {x : Mach} (placed : f.placed n q len = some x) :
    ∃ pc litk, x = n.setArch q { n.arch q with pc := pc, litk := litk } := by
  cases f with
  | next act =>
    cases act
    · cases placed; exact ⟨_, _, rfl⟩
    · cases placed
  | solo => cases placed; exact ⟨_, _, rfl⟩
  | jump pc => cases placed; exact ⟨_, _, rfl⟩
  | _ => cases placed

/-- The frame of an instruction that works on its seat alone. -/
theorem CanRun.frame (h : CanRun s q len m) (group : (s.toMach.seat q).group < 63) {body : CoreAct Flow} {stays : Prop}
    (alone : Alone q m (body m) stays) :
    Apart q s.toMach (s.toMach.coreRun q len body) ∧ (stays → (s.toMach.coreRun q len body).mem = m.mem) := by
  obtain ⟨f, n, hb, goes, beside, apart, young, mem⟩ := alone.ends
  obtain ⟨x, placed⟩ := Option.isSome_iff_exists.mp (goes len)
  obtain ⟨fold, e⟩ := coreEnd_placed placed s.toMach (s.toMach.arch q).pc
  obtain ⟨pc, litk, set⟩ := placed_within placed
  rw [← hb] at e
  have besideX : Beside q m x := by rw [set]; exact beside.trans (.setArch q n _)
  have youngX : (x.arch q).fpYoung := by rw [set, Mach.arch_setArch_self]; exact young
  have room : x.splitSeat q = false ∨ (x.seat q).stores = [] := by
    rw [besideX.split, besideX.stores]
    exact h.room.imp And.right id
  have within := within_retire x q fold youngX (by rw [besideX.group, h.front.group q]; exact group) room
  have place : Within q n x := by rw [set]; exact .setArch q n _
  obtain ⟨-, reset, memst⟩ := retire_keeps x q false fold youngX
    (room.imp (fun r => ⟨rfl, by rw [besideX.group, h.front.group q]; exact group, r⟩) id)
  have fetched : Apart q s.toMach m := .of_front h.front (cored_fetchInstr _ _ _ _ _ _ h.calm.groups h.fetch)
  rw [h.coreRun body, e]
  · exact ⟨fetched.trans (apart.trans (place.trans within).apart), fun stay => (place.trans within).mem.trans (mem stay)⟩
  · rw [e, memst]; exact besideX.memst.trans (h.front.memst h.calm.idle.1)
  · rw [e, reset]; exact besideX.reset.trans ((h.front.reset q).trans h.calm.reset)

/-! ### Operations on the data stack -/

/-- What an operation on popped operands gives: its results, and nothing changed beside the seat's architected state and in its
data stack. -/
structure Makes (q pushes : Nat) (n : Mach) (r : Except Exc (List Word × Mach)) : Prop where
  makes : ∃ l x, r = .ok (l, x) ∧ l.length ≤ pushes ∧ ArchSteps q n x ∧ (x.arch q).ds = (n.arch q).ds ∧
    (x.arch q).ptr false = (n.arch q).ptr false ∧ ((n.arch q).fpYoung → (x.arch q).fpYoung)

theorem makes_pure {q pushes : Nat} {n : Mach} {l : List Word} (h : l.length ≤ pushes) :
    Makes q pushes n ((pure l : CoreAct (List Word)) n) := ⟨l, n, rfl, h, .refl, rfl, rfl, id⟩

theorem raiseV_rest (a : Arch) (v : Bool) :
    (a.raiseV v).ds = a.ds ∧ (a.raiseV v).ptr false = a.ptr false ∧ (a.raiseV v).fp = a.fp := by
  cases v
  · exact ⟨rfl, rfl, rfl⟩
  · refine ⟨rfl, ?_, rfl⟩
    rw [Arch.raiseV, if_pos rfl, Arch.ptr_setOwn _ _ _ _ (by decide) (by decide)]

theorem makes_raiseV {q pushes : Nat} {n : Mach} {l : List Word} {v : Bool} (h : l.length ≤ pushes) :
    Makes q pushes n ((do
      let a ← getArch q
      setArch q (a.raiseV v)
      pure l : CoreAct (List Word)) n) := by
  obtain ⟨ds, ptr, fp⟩ := raiseV_rest (n.arch q) v
  refine ⟨l, n.setArch q ((n.arch q).raiseV v), rfl, h, .step n _ .refl, ?_, ?_, fun young => ?_⟩ <;> rw [Mach.arch_setArch_self]
  · exact ds
  · exact ptr
  · intro x hx; exact young x (by rw [← fp]; exact hx)

theorem raiseFp_ptr (a : Arch) (flags : Nat) : (a.raiseFp flags).ptr false = a.ptr false := by
  have cells := (a.raiseFp_cells flags).cell (a.wld + 1) 1 (by decide)
  have one : ¬ (a.wld + 1 = 0 ∧ 1 = 0xC) := fun e => by cases e.2
  have value : (a.raiseFp flags).cell (a.wld + 1) 1 = a.cell (a.wld + 1) 1 := by
    rw [cells, fpcIs, cellsBut]
    exact if_neg one
  exact congrArg BitVec.toNat value

theorem makes_raiseFp {q pushes flags : Nat} {n : Mach} {l : List Word} (h : l.length ≤ pushes) :
    Makes q pushes n (.ok (l, n.setArch q ((n.arch q).raiseFp flags))) := by
  refine ⟨l, _, rfl, h, .step n _ .refl, ?_, ?_, fun young => ?_⟩ <;> rw [Mach.arch_setArch_self]
  · rfl
  · exact raiseFp_ptr _ _
  · exact fpPend_young _ _ _ young

/-- An operation whose operands and results are in the core. -/
theorem alone_stack {q pops pushes : Nat} {f : List Word → CoreAct (List Word)} {m : Mach} {stays : Prop}
    (young : (m.arch q).fpYoung) (depth : pops ≤ (m.arch q).ds.length) (room : pushes + (m.arch q).ds.length ≤ 16 + pops)
    (bounds : (m.arch q).stackFault false pops pushes = none) (makes : ∀ l n, Makes q pushes n (f l n)) :
    Alone q m (dsBody q pops pushes f m) stays := by
  have lt : (m.arch q).ptr false < 2 ^ 48 := ((m.arch q).own (ptrCell false)).isLt
  have bound := stackFault_bounds _ _ _ _ bounds
  have top : ((m.arch q).ds.take pops).length = pops := List.length_take_of_le depth
  obtain ⟨n, steps, move, run⟩ := pops_in q m pops pushes _ _ top (List.take_append_drop pops (m.arch q).ds).symm bounds
  obtain ⟨l, x, made, few, more, ds, ptr, keeps⟩ := (makes ((m.arch q).ds.take pops).reverse n).makes
  have nptr : (n.arch q).ptr false = (m.arch q).ptr false - pops := by rw [move.ptr]; omega
  have start := stackMove_refl false (x.arch q)
  rw [ptr, nptr, show (x.arch q).stk false = (m.arch q).ds.drop pops from ds.trans move.stk] at start
  obtain ⟨o, push, all, last⟩ := pushAll_in q l m x _ _ _ (steps.trans more) start (by rw [List.length_drop]; omega) (by omega)
  have body : dsBody q pops pushes f m = .ok (.next false, o) := by
    unfold dsBody
    rw [coreBind_ok (a := ()) (o := o)]
    · rfl
    rw [run, coreBind_ok _ _ _ _ _ made, push]
  refine ⟨.next false, o, body, fun _ => rfl, .of_steps all, .of_steps all, ?_, fun _ => (Within.of_steps all).mem⟩
  have xYoung := keeps (by intro y hy; exact young y (by rw [← move.fp]; exact hy))
  intro y hy
  exact xYoung y (by rw [← last.fp]; exact hy)

/-- The seat of an instruction of `CoreFrame`: enough entries in the core for it, and room for its results. -/
structure Roomy (q : Nat) (m : Mach) : Prop where
  young : (m.arch q).fpYoung
  depth : 3 ≤ (m.arch q).ds.length
  ds : (m.arch q).ds.length ≤ 14
  held : 1 ≤ (m.arch q).rs.length
  rs : (m.arch q).rs.length ≤ 15
  bounds : ∀ k, k ≤ 3 → ∀ j, j ≤ 3 → (m.arch q).stackFault false k j = none
  swaps : (m.arch q).stackFault true 1 1 = none
  pushes : (m.arch q).stackFault true 0 1 = none
  pops : (m.arch q).stackFault true 1 0 = none
  rsFormat : ∀ w ∈ (m.arch q).rs, pcFormat w = true
  dsFormat : ∀ w ∈ (m.arch q).ds, pcFormat w = true
  quiet : m.Quiet

namespace Roomy

variable {stays : Prop}

theorem stack (h : Roomy q m) {pops pushes : Nat} {f : List Word → CoreAct (List Word)} (few : pops ≤ 3)
    (more : pushes ≤ 3 ∧ pushes ≤ pops + 2) (makes : ∀ l n, Makes q pushes n (f l n)) :
    Alone q m (dsBody q pops pushes f m) stays := by
  have depth := h.depth
  have room := h.ds
  exact alone_stack h.young (by omega) (by omega) (h.bounds _ few _ more.1) makes

theorem fp (h : Roomy q m) {pops pushes : Nat} {f : FMode → List Nat → List Nat × Nat} (few : pops ≤ 3)
    (more : pushes ≤ 3 ∧ pushes ≤ pops + 2) (length : ∀ md l, (f md l).1.length ≤ pushes) :
    Alone q m (fpBody q pops pushes f m) stays := by
  refine h.stack few more fun l n => ?_
  exact makes_raiseFp (flags := (f (fmode (n.arch q).fpc) (l.map BitVec.toNat)).2) (by rw [List.length_map]; exact length _ _)

/-- A seat's architected state that differs from a young one's in its stacks and pointers alone is young. -/
theorem of_steps (h : Roomy q m) {f : Flow} {n : Mach} {r : Except Exc (Flow × Mach)} (run : r = .ok (f, n))
    (goes : ∀ len, (f.placed n q len).isSome) (steps : ArchSteps q m n) (fp : (n.arch q).fp = (m.arch q).fp) :
    Alone q m r stays :=
  ⟨f, n, run, goes, .of_steps steps, .of_steps steps, fun x hx => h.young x (by rw [← fp]; exact hx),
    fun _ => (Within.of_steps steps).mem⟩

theorem fp_moved {n : Mach} {a : Arch} {x : Option (Nat × Nat)} (h : a.fp = x) : ((n.setArch q a).arch q).fp = x := by
  rw [Mach.arch_setArch_self]; exact h

theorem tor (h : Roomy q m) : Alone q m (torBody q m) stays := by
  have depth := h.depth
  obtain ⟨w, rest, ds⟩ := List.exists_cons_of_length_pos (show 0 < (m.arch q).ds.length by omega)
  let a := m.arch q
  let b := a.moved false rest (a.ptr false - 1)
  have brs : b.stk true = a.rs := a.moved_stk_other false _ _
  have pop := popStk_moved q false m a w rest rfl ds
  have push := pushStk_moved q true (m.setArch q b) b w (Mach.arch_setArch_self _ _ _)
    (by rw [brs]; exact Nat.lt_succ_of_le h.rs)
  refine h.of_steps (f := .next false)
    (n := (m.setArch q b).setArch q (b.moved true (w :: b.stk true) (b.ptr true + 1))) ?_ (fun _ => rfl)
    (.step _ _ (.step _ _ .refl)) (fp_moved ((Arch.moved_fp b true _ _).trans (Arch.moved_fp a false _ _)))
  rw [torBody, coreBind_ok _ _ _ _ _ (stackCheck_ok q false 1 0 m (h.bounds 1 (by decide) 0 (by decide))),
    coreBind_ok _ _ _ _ _ (stackCheck_ok q true 0 1 m h.pushes), coreBind_ok _ _ _ _ _ pop, coreBind_ok _ _ _ _ _ push]
  rfl

theorem fromr (h : Roomy q m) : Alone q m (fromrBody q m) stays := by
  obtain ⟨w, rest, rs⟩ := List.exists_cons_of_length_pos (show 0 < (m.arch q).rs.length from h.held)
  let a := m.arch q
  let b := a.moved true rest (a.ptr true - 1)
  have bds : b.stk false = a.ds := a.moved_stk_other true _ _
  have pop := popStk_moved q true m a w rest rfl rs
  have push := pushStk_moved q false (m.setArch q b) b w (Mach.arch_setArch_self _ _ _)
    (by rw [bds]; exact Nat.lt_of_le_of_lt h.ds (by decide))
  refine h.of_steps (f := .next false)
    (n := (m.setArch q b).setArch q (b.moved false (w :: b.stk false) (b.ptr false + 1))) ?_ (fun _ => rfl)
    (.step _ _ (.step _ _ .refl)) (fp_moved ((Arch.moved_fp b false _ _).trans (Arch.moved_fp a true _ _)))
  rw [fromrBody, coreBind_ok _ _ _ _ _ (stackCheck_ok q false 0 1 m (h.bounds 0 (by decide) 1 (by decide))),
    coreBind_ok _ _ _ _ _ (stackCheck_ok q true 1 0 m h.pops), coreBind_ok _ _ _ _ _ pop, coreBind_ok _ _ _ _ _ push]
  rfl

theorem peekr (h : Roomy q m) : Alone q m (peekrBody q m) stays := by
  obtain ⟨w, rest, rs⟩ := List.exists_cons_of_length_pos (show 0 < (m.arch q).rs.length from h.held)
  have small := h.rs
  rw [rs, List.length_cons] at small
  let a := m.arch q
  let b := a.moved true rest (a.ptr true - 1)
  have brs : b.stk true = rest := a.moved_stk true _ _
  let c := b.moved true (w :: b.stk true) (b.ptr true + 1)
  have cds : c.stk false = a.ds := (b.moved_stk_other true _ _).trans (a.moved_stk_other true _ _)
  have pop := popStk_moved q true m a w rest rfl rs
  have back := pushStk_moved q true (m.setArch q b) b w (Mach.arch_setArch_self _ _ _) (by rw [brs]; omega)
  have push := pushStk_moved q false ((m.setArch q b).setArch q c) c w (Mach.arch_setArch_self _ _ _)
    (by rw [cds]; exact Nat.lt_of_le_of_lt h.ds (by decide))
  refine h.of_steps (f := .next false)
    (n := ((m.setArch q b).setArch q c).setArch q (c.moved false (w :: c.stk false) (c.ptr false + 1))) ?_ (fun _ => rfl)
    (.step _ _ (.step _ _ (.step _ _ .refl))) (fp_moved ((Arch.moved_fp c false _ _).trans ((Arch.moved_fp b true _ _).trans (Arch.moved_fp a true _ _))))
  rw [peekrBody, coreBind_ok _ _ _ _ _ (stackCheck_ok q false 0 1 m (h.bounds 0 (by decide) 1 (by decide))),
    coreBind_ok _ _ _ _ _ (stackCheck_ok q true 1 1 m h.swaps), coreBind_ok _ _ _ _ _ pop, coreBind_ok _ _ _ _ _ back,
    coreBind_ok _ _ _ _ _ push]
  rfl

/-! ### Decimal compares and checks of one word -/

theorem dcmp (h : Roomy q m) {k : BitVec 8} (one : k = 1) (good : ∀ w ∈ (m.arch q).ds, decBad [w] = none) :
    Alone q m (dcmpBody q k m) stays := by
  subst one
  have depth := h.depth
  obtain ⟨y, l, ds⟩ := List.exists_cons_of_length_pos (show 0 < (m.arch q).ds.length by omega)
  obtain ⟨x, rest, more⟩ := List.exists_cons_of_length_pos (show 0 < l.length by rw [ds, List.length_cons] at depth; omega)
  subst more
  have small := h.ds
  rw [ds, List.length_cons, List.length_cons] at small
  obtain ⟨n, o, pop, push, steps, move⟩ := pop_push q m [y, x] [w48 (decCmp [x] [y])] rest ds
    (h.bounds 2 (by decide) 1 (by decide)) (by rw [List.length_singleton]; omega)
  obtain ⟨z, all, push⟩ := pushAll_concat q [] _ n o push
  obtain ⟨-, rfl⟩ := coreOk_inj all
  have gx := good x (by rw [ds]; simp)
  have gy := good y (by rw [ds]; simp)
  have valid : decFault [x] [y] = none := by rw [decFault, gx, gy]
  refine h.of_steps (f := .next false) ?_ (fun _ => rfl) steps move.fp
  rw [dcmpBody, coreBind_ok _ _ _ _ _ (decWidth_ok 1 m (by decide) (by decide))]
  change (stackCheck q false 2 1 >>= fun _ => popN q 2 >>= fun l =>
    (match decFault (l.drop 1) (l.take 1) with
    | some d => coreExc Cause.ddata d
    | none => do
      pushStk q false (w48 (decCmp (l.drop 1) (l.take 1)))
      pure (Flow.next false))) m = _
  rw [coreBind_ok _ _ _ _ _ (stackCheck_ok q false 2 1 m (h.bounds 2 (by decide) 1 (by decide))),
    coreBind_ok _ _ _ _ _ (show popN q 2 m = .ok ([y, x], n) from pop)]
  change (match decFault [x] [y] with
    | some d => coreExc Cause.ddata d
    | none => do
      pushStk q false (w48 (decCmp [x] [y]))
      pure (.next false) : CoreAct Flow) n = _
  rw [valid]
  dsimp only
  rw [coreBind_ok _ _ _ _ _ push]
  rfl

theorem dchk (h : Roomy q m) {k : BitVec 8} (one : k = 1) : Alone q m (dchkBody q k m) stays := by
  subst one
  have depth := h.depth
  obtain ⟨x, rest, ds⟩ := List.exists_cons_of_length_pos (show 0 < (m.arch q).ds.length by omega)
  have small := h.ds
  rw [ds, List.length_cons] at small
  obtain ⟨n, o, pop, push, steps, move⟩ := pop_push q m [x] [truth (decBad [x]).isNone, x] rest ds
    (h.bounds 1 (by decide) 2 (by decide)) (by change 2 + _ ≤ _; omega)
  obtain ⟨z, all, push⟩ := pushAll_concat q [x] _ n o push
  refine h.of_steps (f := .next false) ?_ (fun _ => rfl) steps move.fp
  rw [dchkBody, coreBind_ok _ _ _ _ _ (decWidth_ok 1 m (by decide) (by decide))]
  change (stackCheck q false 1 2 >>= fun _ => popN q 1 >>= fun l => pushAll q l.reverse >>= fun _ =>
    pushStk q false (truth (decBad l).isNone) >>= fun _ => pure (Flow.next false)) m = _
  rw [coreBind_ok _ _ _ _ _ (stackCheck_ok q false 1 2 m (h.bounds 1 (by decide) 2 (by decide))),
    coreBind_ok _ _ _ _ _ (show popN q 1 m = .ok ([x], n) from pop),
    List.reverse_singleton, coreBind_ok _ _ _ _ _ all, coreBind_ok _ _ _ _ _ push]
  rfl

end Roomy

/-! ### Wrong paths and predictions -/

theorem apart_wrongFetch (m : Mach) (q : Nat) (quiet : m.Quiet) : Apart q m (m.wrongFetch q) := by
  have draw := (Within.draw q m).apart
  have drawn : Aside q m m.draw.2 := .of_counts (counts_draw q m)
  unfold Mach.wrongFetch
  dsimp only
  split
  · rename_i w n e
    have sound := (drawn.quiet quiet).1
    have fetched : Apart q m.draw.2 n := .of_front (sameFront_fetchWord _ _ _ _ _ sound e) (cored_fetchWord _ _ _ _ _ sound e)
    exact draw.trans (fetched.trans (.setSeat q n _))
  · exact draw

theorem apart_wrongFetches (q k : Nat) (m : Mach) (quiet : m.Quiet) : Apart q m (Mach.wrongFetches q k m) := by
  induction k generalizing m with
  | zero => exact .refl q m
  | succ k ih => exact (apart_wrongFetch m q quiet).trans (ih _ ((aside_wrongFetch m q quiet).quiet quiet))

theorem apart_wrongPath (m : Mach) (q : Nat) (quiet : m.Quiet) : Apart q m (m.wrongPath q) := by
  have drawn : Aside q m m.draw.2 := .of_counts (counts_draw q m)
  unfold Mach.wrongPath
  split
  · exact .refl q m
  · exact (Within.draw q m).apart.trans ((apart_wrongFetches q _ _ (drawn.quiet quiet)).trans (within_nsRetire _ q).apart)

/-- What a resolved branch changes: its seat, and what a wrong path displaces where the code is not barred. -/
structure Resolves (q : Nat) (m n : Mach) : Prop where
  aside : Aside q m n
  apart : Apart q m n
  mem : (m.arch q).bar = true → n.mem = m.mem

theorem condRetire_resolves (m : Mach) (q lin : Nat) (taken : Bool) (quiet : m.Quiet) : Resolves q m (m.condRetire q lin taken) := by
  refine ⟨aside_condRetire m q lin taken quiet, ?_, fun bar => ?_⟩
  · have counted : Within q m ((m.setSeat q ((m.seat q).condBranch lin taken).2).pmc q 0x04 1) :=
      (Within.setSeat q m _).trans (within_pmc _ q _ _)
    obtain ⟨⟨arch, reset⟩, stores, group⟩ := condBranch_keeps (m.seat q) lin taken
    have aside := (Aside.setSeat q m _ arch reset stores group).trans (aside_pmc _ q 0x04 1)
    unfold Mach.condRetire
    dsimp only
    split
    · exact counted.apart.trans ((within_pmc _ q 0x05 1).apart.trans
        (apart_wrongPath _ q ((aside_pmc _ q 0x05 1).quiet (aside.quiet quiet))))
    · exact counted.apart
  · have barred : (m.seat q).condBranch lin taken = (false, m.seat q) := if_pos bar
    unfold Mach.condRetire
    rw [barred]
    exact ((Within.setSeat q m _).trans (within_pmc _ q _ _)).mem

theorem within_indDecoded (m : Mach) (q : Nat) : Within q m (m.indDecoded q) := by
  unfold Mach.indDecoded
  split
  · exact (Within.draw q m).trans (within_pmc _ q _ _)
  · exact .refl q m

theorem indRetire_resolves (m : Mach) (q lin target : Nat) (quiet : m.Quiet) : Resolves q m (m.indRetire q lin target) := by
  refine ⟨aside_indRetire m q lin target quiet, ?_, fun bar => ?_⟩
  · obtain ⟨⟨arch, reset⟩, stores, group⟩ := indBranch_keeps (m.seat q) lin target
    have aside := Aside.setSeat q m _ arch reset stores group
    have set := Within.setSeat q m ((m.seat q).indBranch lin target).2
    unfold Mach.indRetire
    split <;> (rename_i e; rw [e] at set aside)
    · exact set.apart
    · exact set.apart.trans ((within_pmc _ q 0x06 1).apart.trans
        (apart_wrongPath _ q ((aside_pmc _ q 0x06 1).quiet (aside.quiet quiet))))
    · exact set.apart.trans (within_indDecoded _ q).apart
  · have barred : (m.seat q).indBranch lin target = (none, m.seat q) := if_pos (by
      rw [show (m.seat q).arch.bar = true from bar]; rfl)
    unfold Mach.indRetire
    rw [barred]
    exact ((Within.setSeat q m _).trans (within_indDecoded _ q)).mem

theorem Arch.moved_bar (a : Arch) (rs : Bool) (l : List Word) (p : Nat) : (a.moved rs l p).bar = a.bar := by cases rs <;> rfl

namespace Roomy

variable {stays : Prop}

/-- A branch resolved after its seat's stacks have moved. -/
theorem of_resolves (h : Roomy q m) {f : Flow} {n x : Mach} {r : Except Exc (Flow × Mach)} (run : r = .ok (f, x))
    (goes : ∀ len, (f.placed x q len).isSome) (steps : ArchSteps q m n) (fp : (n.arch q).fp = (m.arch q).fp)
    (bar : (n.arch q).bar = (m.arch q).bar) (resolves : Resolves q n x) (strays : stays → (m.arch q).bar = true) :
    Alone q m r stays :=
  ⟨f, x, run, goes, (Beside.of_steps steps).trans resolves.aside.beside, (Apart.of_steps steps).trans resolves.apart,
    fun y hy => h.young y (by rw [← fp, ← resolves.aside.counts.fp]; exact hy),
    fun stay => (resolves.mem (by rw [bar]; exact strays stay)).trans (Within.of_steps steps).mem⟩

theorem br (h : Roomy q m) (off : BitVec 16) : Alone q m (brBody q off m) stays :=
  h.of_steps (f := .jump (branchTarget (m.arch q).pc off)) rfl (fun _ => rfl) .refl rfl

theorem cond (h : Roomy q m) (z : Bool) (off : BitVec 16) (strays : stays → (m.arch q).bar = true) :
    Alone q m (condBody q z off m) stays := by
  have depth := h.depth
  obtain ⟨x, rest, ds⟩ := List.exists_cons_of_length_pos (show 0 < (m.arch q).ds.length by omega)
  let a := m.arch q
  let b := a.moved false rest (a.ptr false - 1)
  have pop := popStk_moved q false m a x rest rfl ds
  have body : condBody q z off m = .ok (if (x == 0#48) == z then .jump (branchTarget a.pc off) else .next false,
      (m.setArch q b).condRetire q (linearOf a.pc) ((x == 0#48) == z)) := by
    rw [condBody, coreBind_ok _ _ _ _ _ (getArch_eq q m),
      coreBind_ok _ _ _ _ _ (stackCheck_ok q false 1 0 m (h.bounds 1 (by decide) 0 (by decide))), coreBind_ok _ _ _ _ _ pop]
    rfl
  refine h.of_resolves body (fun len => by split <;> rfl) (.step m b .refl) (fp_moved (Arch.moved_fp a false _ _)) ?_
    (condRetire_resolves _ q _ _ (h.quiet.setArch b)) strays
  rw [Mach.arch_setArch_self]
  exact Arch.moved_bar a false _ _

theorem call (h : Roomy q m) (off : BitVec 16) : Alone q m (callBody q off m) stays := by
  have push := pushStk_moved q true m _ (w48 (nextPc (m.arch q).pc 3 (m.arch q).litk)) rfl (Nat.lt_succ_of_le h.rs)
  refine h.of_steps (f := .jump (branchTarget (m.arch q).pc off))
    (n := m.setArch q ((m.arch q).moved true (w48 (nextPc (m.arch q).pc 3 (m.arch q).litk) :: (m.arch q).stk true)
      ((m.arch q).ptr true + 1))) ?_ (fun _ => rfl) (.step m _ .refl)
    (fp_moved (Arch.moved_fp (m.arch q) true _ _))
  rw [callBody, coreBind_ok _ _ _ _ _ (getArch_eq q m), coreBind_ok _ _ _ _ _ (stackCheck_ok q true 0 1 m h.pushes),
    coreBind_ok _ _ _ _ _ push]
  rfl

theorem ret (h : Roomy q m) : Alone q m (retBody q m) stays := by
  obtain ⟨r, rest, rs⟩ := List.exists_cons_of_length_pos (show 0 < (m.arch q).rs.length from h.held)
  have format := h.rsFormat r (by rw [rs]; exact List.mem_cons_self ..)
  let b := (m.arch q).moved true rest ((m.arch q).ptr true - 1)
  have pop := popStk_moved q true m _ r rest rfl rs
  have within := (Within.setArch q m b).trans (within_indDecoded (m.setArch q b) q)
  have aside := aside_indDecoded (m.setArch q b) q
  refine ⟨.jump r.toNat, (m.setArch q b).indDecoded q, ?_, fun _ => rfl, (Beside.setArch q m b).trans aside.beside, within.apart,
    fun y hy => h.young y ?_, fun _ => within.mem⟩
  · rw [retBody, coreBind_ok _ _ _ _ _ (stackCheck_ok q true 1 0 m h.pops), coreBind_ok _ _ _ _ _ pop,
      coreBind_ok _ _ _ _ _ (needPc_ok r _ format)]
    rfl
  · rw [aside.counts.fp, Mach.arch_setArch_self] at hy
    rw [← Arch.moved_fp (m.arch q) true rest ((m.arch q).ptr true - 1)]
    exact hy

theorem jmpi (h : Roomy q m) (strays : stays → (m.arch q).bar = true) : Alone q m (jmpiBody q m) stays := by
  have depth := h.depth
  obtain ⟨x, rest, ds⟩ := List.exists_cons_of_length_pos (show 0 < (m.arch q).ds.length by omega)
  have format := h.dsFormat x (by rw [ds]; exact List.mem_cons_self ..)
  let a := m.arch q
  let b := a.moved false rest (a.ptr false - 1)
  have pop := popStk_moved q false m a x rest rfl ds
  refine h.of_resolves (f := .jump x.toNat) (x := (m.setArch q b).indRetire q (linearOf a.pc) x.toNat) ?_ (fun _ => rfl)
    (.step m b .refl) (fp_moved (Arch.moved_fp a false _ _)) ?_ (indRetire_resolves _ q _ _ (h.quiet.setArch b)) strays
  · rw [jmpiBody, coreBind_ok _ _ _ _ _ (getArch_eq q m),
      coreBind_ok _ _ _ _ _ (stackCheck_ok q false 1 0 m (h.bounds 1 (by decide) 0 (by decide))), coreBind_ok _ _ _ _ _ pop,
      coreBind_ok _ _ _ _ _ (needPc_ok x _ format)]
    rfl
  · rw [Mach.arch_setArch_self]
    exact Arch.moved_bar a false _ _

theorem calli (h : Roomy q m) (strays : stays → (m.arch q).bar = true) : Alone q m (calliBody q m) stays := by
  have depth := h.depth
  obtain ⟨x, rest, ds⟩ := List.exists_cons_of_length_pos (show 0 < (m.arch q).ds.length by omega)
  have format := h.dsFormat x (by rw [ds]; exact List.mem_cons_self ..)
  have bounds := h.bounds 1 (by decide) 0 (by decide)
  let a := m.arch q
  let b := a.moved false rest (a.ptr false - 1)
  have brs : b.stk true = a.rs := a.moved_stk_other false _ _
  let c := b.moved true (w48 (nextPc a.pc 1 a.litk) :: b.stk true) (b.ptr true + 1)
  have pop := popStk_moved q false m a x rest rfl ds
  have push := pushStk_moved q true (m.setArch q b) b (w48 (nextPc a.pc 1 a.litk)) (Mach.arch_setArch_self _ _ _)
    (by rw [brs]; exact Nat.lt_succ_of_le h.rs)
  refine h.of_resolves (f := .jump x.toNat) (x := ((m.setArch q b).setArch q c).indRetire q (linearOf a.pc) x.toNat) ?_
    (fun _ => rfl) (.step _ c (.step m b .refl)) (fp_moved ((Arch.moved_fp b true _ _).trans (Arch.moved_fp a false _ _))) ?_
    (indRetire_resolves _ q _ _ ((h.quiet.setArch b).setArch c)) strays
  · rw [calliBody, coreBind_ok _ _ _ _ _ (getArch_eq q m), coreBind_ok _ _ _ _ _ (pcFirst_ok q m _ x bounds pop format),
      coreBind_ok _ _ _ _ _ (stackCheck_ok q false 1 0 m bounds), coreBind_ok _ _ _ _ _ (stackCheck_ok q true 0 1 m h.pushes),
      coreBind_ok _ _ _ _ _ pop, coreBind_ok _ _ _ _ _ (needPc_ok x _ format), coreBind_ok _ _ _ _ _ push]
    rfl
  · rw [Mach.arch_setArch_self]
    exact (Arch.moved_bar b true _ _).trans (Arch.moved_bar a false _ _)

end Roomy

/-! ### The obligation -/

theorem CanRun.roomy (h : CanRun s q len m) (depth : 3 ≤ (s.toMach.arch q).ds.length) (held : 1 ≤ (s.toMach.arch q).rs.length)
    (ds : (s.toMach.arch q).ds.length ≤ 14) (rs : (s.toMach.arch q).rs.length ≤ 15)
    (bounds : ∀ k, k ≤ 3 → ∀ j, j ≤ 3 → (s.toMach.arch q).stackFault false k j = none)
    (swaps : (s.toMach.arch q).stackFault true 1 1 = none) (pushes : (s.toMach.arch q).stackFault true 0 1 = none)
    (pops : (s.toMach.arch q).stackFault true 1 0 = none) (rsFormat : ∀ w ∈ (s.toMach.arch q).rs, pcFormat w = true)
    (dsFormat : ∀ w ∈ (s.toMach.arch q).ds, pcFormat w = true) : Roomy q m := by
  have ha := h.arch
  refine ⟨h.fpYoung (by rw [ha]), ?_, ?_, ?_, ?_, ?_, ?_, ?_, ?_, ?_, ?_, h.quiet⟩ <;> rw [ha] <;> assumption

/-- The frame that `CoreFrame` states. -/
def FrameKept (s t : State) (q : Nat) (m : Mach) (strays : Prop) : Prop :=
  (¬ strays → ∀ k, octetAt t.mem k = octetAt m.mem k) ∧ t.regs = s.regs ∧ t.ledger = s.ledger ∧
  (∀ j, j ≠ q → (t.toMach.seat j).arch = (s.toMach.seat j).arch) ∧
  t.ses = s.ses ∧ t.tacc = s.tacc ∧ t.merge = s.merge ∧ t.sealing = s.sealing ∧ t.jobs = s.jobs ∧ t.lanes = s.lanes ∧
  t.xlanes = s.xlanes ∧ t.engines = s.engines ∧ t.notes = s.notes ∧ t.kx = s.kx ∧ t.sr = s.sr ∧ t.sent = s.sent ∧
  t.rt = s.rt ∧ t.now = s.now

theorem frameKept_of_apart {t : State} {strays : Prop} (apart : Apart q s.toMach t.toMach) (mem : ¬ strays → t.mem = m.mem) :
    FrameKept s t q m strays := by
  have c := apart.cored
  exact ⟨fun stay k => by rw [mem stay], (congrArg Mach.regs c : _), (congrArg Mach.ledger c : _), apart.others,
    (congrArg Mach.ses c : _), (congrArg Mach.tacc c : _), (congrArg Mach.merge c : _), (congrArg Mach.sealing c : _),
    (congrArg Mach.jobs c : _), (congrArg Mach.lanes c : _), (congrArg Mach.xlanes c : _), (congrArg Mach.engines c : _),
    (congrArg Mach.notes c : _), (congrArg Mach.kx c : _), (congrArg Mach.sr c : _), (congrArg Mach.sent c : _),
    (congrArg Mach.rt c : _), (congrArg Mach.now c : _)⟩

/-- Settles O12. -/
theorem coreFrame : Obligations.CoreFrame := by
  intro s t q m n6 n8 n16 n24
  have kept : ∀ {i : Instr} {len : Nat} {body : CoreAct Flow} {strays P : Prop},
      exec i s = .next { s with toMach := s.toMach.coreRun q.val len body } →
      (m.arch q.val = s.toMach.arch q.val → P → Roomy q.val m → Alone q.val m (body m) (¬ strays)) →
      CanRun s q.val len m → (s.toMach.seat q.val).group < 63 → 3 ≤ (s.toMach.arch q.val).ds.length →
      1 ≤ (s.toMach.arch q.val).rs.length → (s.toMach.arch q.val).ds.length ≤ 14 → (s.toMach.arch q.val).rs.length ≤ 15 →
      (∀ k, k ≤ 3 → ∀ j, j ≤ 3 → (s.toMach.arch q.val).stackFault false k j = none) →
      (s.toMach.arch q.val).stackFault true 1 1 = none → (s.toMach.arch q.val).stackFault true 0 1 = none →
      (s.toMach.arch q.val).stackFault true 1 0 = none → (∀ w ∈ (s.toMach.arch q.val).rs, pcFormat w = true) →
      (∀ w ∈ (s.toMach.arch q.val).ds, pcFormat w = true) → P → exec i s = .next t → FrameKept s t q.val m strays := by
    intro i len body strays P run alone h group depth held ds rs bounds swaps pushes pops rsFormat dsFormat p e
    have roomy := h.roomy depth held ds rs bounds swaps pushes pops rsFormat dsFormat
    obtain ⟨apart, mem⟩ := h.frame group (alone h.arch p roomy)
    rw [run] at e
    cases e
    exact frameKept_of_apart apart mem
  have barred : ∀ {i : Instr} {l : List Instr}, m.arch q.val = s.toMach.arch q.val → i ∈ l →
      ¬ (i ∈ l ∧ (s.toMach.arch q.val).bar = false) → (m.arch q.val).bar = true := by
    intro i l arch mem stays
    rw [arch]
    exact Bool.of_not_eq_false fun open_ => stays ⟨mem, open_⟩
  repeat' refine List.forall_mem_cons.mpr ⟨?_, ?_⟩
  · exact kept rfl fun _ _ h => h.stack (by decide) (by decide) fun _ _ => makes_pure le_rfl
  · exact kept rfl fun _ _ h => h.stack (by decide) (by decide) fun _ _ => makes_pure le_rfl
  · exact kept rfl fun _ _ h => h.stack (by decide) (by decide) fun _ _ => makes_pure le_rfl
  · exact kept rfl fun _ _ h => h.stack (by decide) (by decide) fun _ _ => makes_pure le_rfl
  · exact kept rfl fun _ _ h => h.of_steps (f := .next false) rfl (fun _ => rfl) .refl rfl
  · exact kept rfl fun _ _ h => h.stack (by decide) (by decide) fun _ _ => makes_pure le_rfl
  · exact kept rfl fun _ _ h => h.stack (by decide) (by decide) fun _ _ => makes_pure le_rfl
  · exact kept rfl fun _ _ h => h.stack (by decide) (by decide) fun _ _ => makes_pure le_rfl
  · exact kept rfl fun _ _ h => h.stack (by decide) (by decide) fun _ _ => makes_pure le_rfl
  · exact kept rfl fun _ _ h => h.stack (by decide) (by decide) fun _ _ => makes_pure le_rfl
  · exact kept rfl fun _ _ h => h.stack (by decide) (by decide) fun _ _ => makes_pure le_rfl
  · exact kept rfl fun _ _ h => h.stack (by decide) (by decide) fun _ _ => makes_pure le_rfl
  · exact kept rfl fun _ _ h => h.tor
  · exact kept rfl fun _ _ h => h.fromr
  · exact kept rfl fun _ _ h => h.peekr
  · exact kept rfl fun _ _ h => h.stack (by decide) (by decide) fun _ _ => makes_raiseV le_rfl
  · exact kept rfl fun _ _ h => h.stack (by decide) (by decide) fun _ _ => makes_raiseV le_rfl
  · exact kept rfl fun _ _ h => h.stack (by decide) (by decide) fun _ _ => makes_raiseV le_rfl
  · exact kept rfl fun _ _ h => h.stack (by decide) (by decide) fun _ _ => makes_raiseV le_rfl
  · exact kept rfl fun _ _ h => h.stack (by decide) (by decide) fun _ _ => makes_pure le_rfl
  · exact kept rfl fun _ _ h => h.stack (by decide) (by decide) fun _ _ => makes_pure le_rfl
  · exact kept rfl fun _ _ h => h.stack (by decide) (by decide) fun _ _ => makes_pure le_rfl
  · exact kept rfl fun _ _ h => h.stack (by decide) (by decide) fun _ _ => makes_pure le_rfl
  · exact kept rfl fun _ _ h => h.stack (by decide) (by decide) fun _ _ => makes_pure le_rfl
  · exact kept rfl fun _ _ h => h.stack (by decide) (by decide) fun _ _ => makes_pure le_rfl
  · exact kept rfl fun _ _ h => h.stack (by decide) (by decide) fun _ _ => makes_pure le_rfl
  · exact kept rfl fun _ _ h => h.stack (by decide) (by decide) fun _ _ => makes_pure le_rfl
  · exact kept rfl fun _ _ h => h.stack (by decide) (by decide) fun _ _ => makes_pure le_rfl
  · exact kept rfl fun _ _ h => h.stack (by decide) (by decide) fun _ _ => makes_pure le_rfl
  · exact kept rfl fun _ _ h => h.stack (by decide) (by decide) fun _ _ => makes_pure le_rfl
  · exact kept rfl fun _ _ h => h.stack (by decide) (by decide) fun _ _ => makes_pure le_rfl
  · exact kept rfl fun _ _ h => h.stack (by decide) (by decide) fun _ _ => makes_pure le_rfl
  · exact kept rfl fun _ _ h => h.stack (by decide) (by decide) fun _ _ => makes_pure le_rfl
  · exact kept rfl fun arch dec h => h.dcmp (dec ⟨n8, .inl rfl⟩).1 (by rw [arch]; exact (dec ⟨n8, .inl rfl⟩).2)
  · exact kept rfl fun _ dec h => h.dchk (dec ⟨n8, .inr rfl⟩).1
  · exact kept rfl fun _ _ h => h.fp (by decide) (by decide) fun _ _ => le_rfl
  · exact kept rfl fun _ _ h => h.fp (by decide) (by decide) fun _ _ => le_rfl
  · exact kept rfl fun _ _ h => h.fp (by decide) (by decide) fun _ _ => le_rfl
  · exact kept rfl fun _ _ h => h.fp (by decide) (by decide) fun _ _ => le_rfl
  · exact kept rfl fun _ _ h => h.fp (by decide) (by decide) fun _ _ => le_rfl
  · exact kept rfl fun _ _ h => h.fp (by decide) (by decide) fun _ _ => le_rfl
  · exact kept rfl fun _ _ h => h.fp (by decide) (by decide) fun _ _ => le_rfl
  · exact kept rfl fun _ _ h => h.fp (by decide) (by decide) fun _ _ => le_rfl
  · exact kept rfl fun _ _ h => h.fp (by decide) (by decide) fun _ _ => le_rfl
  · exact kept rfl fun _ _ h => h.fp (by decide) (by decide) fun _ _ => le_rfl
  · exact kept rfl fun _ _ h => h.fp (by decide) (by decide) fun _ _ => le_rfl
  · exact kept rfl fun _ _ h => h.br n16
  · exact kept rfl fun arch _ h => h.cond _ n16 (barred arch (by simp))
  · exact kept rfl fun arch _ h => h.cond _ n16 (barred arch (by simp))
  · exact kept rfl fun _ _ h => h.call n16
  · exact kept rfl fun _ _ h => h.ret
  · exact kept rfl fun arch _ h => h.jmpi (barred arch (by simp))
  · exact kept rfl fun arch _ h => h.calli (barred arch (by simp))
  · exact fun _ none => absurd none List.not_mem_nil

end Sys2Proof.Machine
end

section
/-! PROOFS. Registers and fields after a write, what an alert leaves as it was, and the seats and units of a cluster
(R302 to R316). -/

namespace Sys2Proof.Machine

open Sys2Proof

/-! ### Fields of a register -/

theorem fld_setFld_self (m : Mach) (a : Nat) (f : Fld) (v : Nat) (h : f.lo + fldWidth f ≤ 48) :
    (m.setFld a f v).fld a f = v % 2 ^ fldWidth f := by
  simp only [Mach.fld, Mach.setFld, Mach.reg_setReg, if_true]
  exact fget_fset_self _ _ _ h

theorem reg_setReg_of_ne (m : Mach) {a b : Nat} (v : Word) (h : a ≠ b) : (m.setReg a v).reg b = m.reg b := by
  rw [Mach.reg_setReg, if_neg h]

theorem fld_congr {m n : Mach} {a : Nat} (h : n.reg a = m.reg a) (f : Fld) : n.fld a f = m.fld a f := by
  rw [Mach.fld, h, Mach.fld]

/-! ### Alerts: interrupts, notices, stocktake triggers -/

/-- `n` is `m` after interrupts, notices and stocktake triggers: only their registers, the notices and the stocktake's own state
may differ (R411, R418, R420). -/
structure Alerts (m n : Mach) : Prop where
  rest : ∃ r t k, n = { m with regs := r, notes := t, stk := k }
  reg : ∀ a, a < 0x320000 → n.reg a = m.reg a

namespace Alerts

theorem refl (m : Mach) : Alerts m m := ⟨⟨_, _, _, rfl⟩, fun _ _ => rfl⟩

theorem trans {m n o : Mach} (h : Alerts m n) (g : Alerts n o) : Alerts m o := by
  obtain ⟨r, t, k, rfl⟩ := h.rest
  obtain ⟨r', t', k', rfl⟩ := g.rest
  exact ⟨⟨_, _, _, rfl⟩, fun a low => (g.reg a low).trans (h.reg a low)⟩

theorem setReg (m : Mach) (a : Nat) (v : Word) (h : 0x320000 ≤ a) : Alerts m (m.setReg a v) := by
  have plain : ledgerAddr a = false := by
    refine Bool.eq_false_iff.mpr fun listed => ?_
    simp [ledgerAddr, Reg.sealCtl, Reg.sealRsize, Reg.sealTail] at listed
    rcases listed with (low | ⟨-, top⟩) | top
    · omega
    · exact absurd (of_decide_eq_true top) (by omega)
    · exact absurd (of_decide_eq_true top) (by omega)
  refine ⟨⟨tabPut resetOf a v m.regs, m.notes, m.stk, ?_⟩, fun b low => reg_setReg_of_ne m v (by omega)⟩
  rw [Mach.setReg, plain]
  rfl

theorem setFld (m : Mach) (a : Nat) (f : Fld) (v : Nat) (h : 0x320000 ≤ a) : Alerts m (m.setFld a f v) := .setReg m a _ h

theorem count (m : Mach) (a k : Nat) (h : 0x320000 ≤ a) : Alerts m (m.count a k) := .setReg m a _ h

theorem raise (m : Mach) (i : Nat) : Alerts m (m.raise i) := by
  unfold Mach.raise
  split
  · exact .setReg m _ _ (by simp only [Reg.intStat]; omega)
  · exact .refl m

theorem notes (m : Mach) (t : Nat) (l : List Note) : Alerts m (m.setNoteq t l) := ⟨⟨_, _, _, rfl⟩, fun _ _ => rfl⟩

theorem stk (m : Mach) (x : Stk) : Alerts m { m with stk := x } := ⟨⟨_, _, _, rfl⟩, fun _ _ => rfl⟩

theorem notice (m : Mach) (t code : Nat) (arg : Word) : Alerts m (m.notice t code arg) := by
  unfold Mach.notice
  dsimp only
  split
  · exact .notes m t _
  · split
    · exact (count m (Reg.noteLost t) 1 (by simp only [Reg.noteLost]; omega)).trans
        (.setReg _ _ _ (by simp only [Reg.noteStat]; omega))
    · split
      · exact (notes m t _).trans (.raise _ _)
      · exact .notes m t _

theorem stkTrigger (m : Mach) (src : Nat) : Alerts m (m.stkTrigger src) := by
  have out : ∀ c : Bool, Alerts m (if c then { m with stk := { m.stk with out := some m.now } } else m) := by
    intro c
    cases c
    · exact .refl m
    · exact .stk m _
  unfold Mach.stkTrigger
  split
  · exact .refl m
  · refine (out (src ≠ 3 && m.bit Reg.stkCtl F.stkCtlOuten)).trans ?_
    by_cases locked : m.bit Reg.stkStat F.stkStatLocked = true
    · rw [if_pos locked]
      exact count _ Reg.stkMissed 1 (by decide)
    · rw [if_neg locked]
      exact (stk _ _).trans (setFld _ Reg.stkStat _ _ (by decide))

theorem faultEvent (m : Mach) (b : Nat) : Alerts m (m.faultEvent b) := by
  unfold Mach.faultEvent
  split
  · split
    · exact setFld m Reg.stkStat _ _ (by decide)
    · exact ((stk m _).trans (setFld _ Reg.stkStat _ _ (by decide))).trans (.stkTrigger _ _)
  · exact .refl m

variable {m n : Mach} (h : Alerts m n)
include h

theorem seats : n.seats = m.seats := by obtain ⟨_, _, _, rfl⟩ := h.rest; rfl
theorem mem : n.mem = m.mem := by obtain ⟨_, _, _, rfl⟩ := h.rest; rfl
theorem rotations : n.rotations = m.rotations := by obtain ⟨_, _, _, rfl⟩ := h.rest; rfl
theorem seat (q : Nat) : n.seat q = m.seat q := by rw [Mach.seat, h.seats, Mach.seat]
theorem fld (a : Nat) (f : Fld) (low : a < 0x320000) : n.fld a f = m.fld a f := fld_congr (h.reg a low) f

end Alerts

end Sys2Proof.Machine
end

section
/-! PROOFS. What every command but a few keeps of the module. -/

namespace Sys2Proof.Machine

open Sys2Proof

/-- What nearly every act of the module keeps, from a state `m` to a state `n`: memory stays canonical, RT, the tick, the pins and
MOD_STATE stand, and a fence latch that is set stays set (R20, R39, R149). With `calm`, neither memory nor what seats and devices
hold changes. -/
structure Keeps (calm : Bool) (m n : Mach) : Prop where
  wf : Memory.wf m.mem = true → Memory.wf n.mem = true
  rt : n.rt = m.rt
  now : n.now = m.now
  pins : n.pins = m.pins
  modes : n.reg Reg.modState = m.reg Reg.modState
  latch : m.twin.latch = true → n.twin.latch = true
  calm : calm = true → n.mem = m.mem ∧ n.seats = m.seats ∧ n.memst = m.memst

namespace Keeps

variable {c : Bool} {m x n o : Mach}

theorem refl (c : Bool) (m : Mach) : Keeps c m m := ⟨id, rfl, rfl, rfl, rfl, id, fun _ => ⟨rfl, rfl, rfl⟩⟩

theorem trans (h : Keeps c m n) (g : Keeps c n o) : Keeps c m o :=
  ⟨fun w => g.wf (h.wf w), g.rt.trans h.rt, g.now.trans h.now, g.pins.trans h.pins, g.modes.trans h.modes,
    fun w => g.latch (h.latch w), fun w =>
      ⟨(g.calm w).1.trans (h.calm w).1, (g.calm w).2.1.trans (h.calm w).2.1, (g.calm w).2.2.trans (h.calm w).2.2⟩⟩

theorem loose (h : Keeps c m n) : Keeps false m n :=
  ⟨h.wf, h.rt, h.now, h.pins, h.modes, h.latch, fun w => absurd w Bool.false_ne_true⟩

theorem becomes (h : Keeps c m n) (e : n = o) : Keeps c m o := e ▸ h

theorem ite {p : Prop} [Decidable p] {a b : Mach} (ha : Keeps c m a) (hb : Keeps c m b) : Keeps c m (if p then a else b) := by
  split
  · exact ha
  · exact hb

theorem foldl {β : Type} {f : Mach → β → Mach} {l : List β} (h : Keeps c m x)
    (step : ∀ y b, Keeps c m y → Keeps c m (f y b)) : Keeps c m (l.foldl f x) := by
  induction l generalizing x with
  | nil => exact h
  | cons b l ih => exact ih (step x b h)

/-- A change of other parts than memory, seats and devices. -/
theorem parts {led refs pps openFolio closing merge order judged ses tacc} {tw : Twin} {sealing jobs replies rawq
    plainq lanes xlanes engines tpass cpass carResets carDeletes srCarrels tenResets clearing notes stk units l2 l2dirty rotations rotAt
    sr kx kp uc en sent free held} (h : Keeps c m x) (latch : x.twin.latch = true → tw.latch = true := by exact id) :
    Keeps c m ⟨x.regs, led, x.mem, x.now, x.rt, refs, pps, x.pins, openFolio, closing, merge, order, judged, ses, tacc, tw, sealing, jobs,
      replies, rawq, plainq, lanes, xlanes, engines, tpass, cpass, carResets, carDeletes, srCarrels, tenResets, clearing, notes, stk,
      x.seats, units, l2, l2dirty, rotations, rotAt, x.memst, sr, kx, kp, uc, en, sent, free, held⟩ :=
  h.trans ⟨id, rfl, rfl, rfl, rfl, latch, fun _ => ⟨rfl, rfl, rfl⟩⟩

/-- A change of other parts than memory. -/
theorem units {led refs pps openFolio closing merge order judged ses tacc} {tw : Twin} {sealing jobs replies rawq
    plainq lanes xlanes engines tpass cpass carResets carDeletes srCarrels tenResets clearing notes stk seats units l2 l2dirty rotations
    rotAt memst sr kx kp uc en sent free held} (h : Keeps false m x) (latch : x.twin.latch = true → tw.latch = true := by exact id) :
    Keeps false m ⟨x.regs, led, x.mem, x.now, x.rt, refs, pps, x.pins, openFolio, closing, merge, order, judged, ses, tacc, tw, sealing,
      jobs, replies, rawq, plainq, lanes, xlanes, engines, tpass, cpass, carResets, carDeletes, srCarrels, tenResets, clearing, notes,
      stk, seats, units, l2, l2dirty, rotations, rotAt, memst, sr, kx, kp, uc, en, sent, free, held⟩ :=
  h.trans ⟨id, rfl, rfl, rfl, rfl, latch, fun w => absurd w Bool.false_ne_true⟩

/-- A change of any parts, memory left canonical. -/
theorem memory {mem led refs pps openFolio closing merge order judged ses tacc} {tw : Twin} {sealing jobs replies rawq
    plainq lanes xlanes engines tpass cpass carResets carDeletes srCarrels tenResets clearing notes stk seats units l2 l2dirty rotations
    rotAt memst sr kx kp uc en sent free held} (h : Keeps false m x) (wf : Memory.wf x.mem = true → Memory.wf mem = true)
    (latch : x.twin.latch = true → tw.latch = true := by exact id) :
    Keeps false m ⟨x.regs, led, mem, x.now, x.rt, refs, pps, x.pins, openFolio, closing, merge, order, judged, ses, tacc, tw, sealing,
      jobs, replies, rawq, plainq, lanes, xlanes, engines, tpass, cpass, carResets, carDeletes, srCarrels, tenResets, clearing, notes,
      stk, seats, units, l2, l2dirty, rotations, rotAt, memst, sr, kx, kp, uc, en, sent, free, held⟩ :=
  h.trans ⟨wf, rfl, rfl, rfl, rfl, latch, fun w => absurd w Bool.false_ne_true⟩

/-- A change of registers other than MOD_STATE. -/
theorem regs {r} (h : Keeps c m x) (modes : tabGet resetOf r Reg.modState = tabGet resetOf x.regs Reg.modState) :
    Keeps c m { x with regs := r } :=
  h.trans ⟨id, rfl, rfl, rfl, modes, id, fun _ => ⟨rfl, rfl, rfl⟩⟩

theorem setReg {a v} (h : Keeps c m x) (ha : a ≠ 3 := by decide) : Keeps c m (x.setReg a v) :=
  h.trans ⟨fun w => by simpa using w, by simp, by simp, by simp, reg_setReg_of_ne x v ha, fun w => by simpa using w, fun _ => by simp⟩

theorem setRegAt {a v} (h : Keeps c m x) (ha : a ≠ 3 := by show _ + _ ≠ _; omega) : Keeps c m (x.setReg a v) := h.setReg ha

theorem setFld {a f v} (h : Keeps c m x) (ha : a ≠ 3 := by decide) : Keeps c m (x.setFld a f v) := h.setReg ha

theorem setFldAt {a f v} (h : Keeps c m x) (ha : a ≠ 3 := by show _ + _ ≠ _; omega) : Keeps c m (x.setFld a f v) := h.setReg ha

theorem count {a k} (h : Keeps c m x) (ha : a ≠ 3 := by decide) : Keeps c m (x.count a k) := h.setReg ha

theorem countAt {a k} (h : Keeps c m x) (ha : a ≠ 3 := by show _ + _ ≠ _; omega) : Keeps c m (x.count a k) := h.setReg ha

theorem countSat {top a k} (h : Keeps c m x) (ha : a ≠ 3 := by decide) : Keeps c m (x.countSat top a k) := h.setReg ha

theorem countSatAt {top a k} (h : Keeps c m x) (ha : a ≠ 3 := by show _ + _ ≠ _; omega) : Keeps c m (x.countSat top a k) :=
  h.setReg ha

theorem setPair {hi lo v} (h : Keeps c m x) (hh : hi ≠ 3 := by decide) (hl : lo ≠ 3 := by decide) : Keeps c m (x.setPair hi lo v) :=
  (h.setReg hh).setReg hl

theorem setPairAt {hi lo v} (h : Keeps c m x) (hh : hi ≠ 3 := by show _ + _ ≠ _; omega) (hl : lo ≠ 3 := by show _ + _ ≠ _; omega) :
    Keeps c m (x.setPair hi lo v) := (h.setReg hh).setReg hl

theorem setRtAt {sec frac rt} (h : Keeps c m x) (hs : sec ≠ 3 := by show _ + _ ≠ _; omega)
    (hf : frac ≠ 3 := by show _ + _ ≠ _; omega) : Keeps c m (x.setRt sec frac rt) := (h.setReg hs).setReg hf

theorem setEff {a v} (h : Keeps c m x) : Keeps c m (x.setEff a v) := h.parts

theorem resetRegs {d p} (h : Keeps c m x) (kept : p 3 = false) : Keeps c m (x.resetRegs d p) :=
  h.regs (by rw [tabGet_clear]; simp [Reg.modState, kept])

theorem setCont {a v} (h : Keeps false m x) : Keeps false m (x.setCont a v) :=
  h.trans ⟨wf_setCont x a v, rfl, rfl, rfl, rfl, id, fun w => absurd w Bool.false_ne_true⟩

end Keeps

end Sys2Proof.Machine
end

section
/-! PROOFS. What the functions of the ledger keep. -/

-- One proof after the other: so many at once would need more threads than the check has memory for.
set_option Elab.async false

namespace Sys2Proof.Machine

open Sys2Proof

namespace Keeps

variable {c : Bool} {m x : Mach}

theorem setBoth {a v} (h : Keeps c m x) (ha : a ≠ 3 := by decide) : Keeps c m (x.setBoth a v) := (h.setReg ha).setEff

theorem setSeat {q s} (h : Keeps false m x) : Keeps false m (x.setSeat q s) := h.units

theorem setSess {s e} (h : Keeps c m x) : Keeps c m (x.setSess s e) := h.parts

theorem setLive {s e} (h : Keeps c m x) : Keeps c m (x.setLive s e) := h.parts

theorem setAcc {t e} (h : Keeps c m x) : Keeps c m (x.setAcc t e) := h.parts

theorem setEbell {b e} (h : Keeps c m x) : Keeps c m (x.setEbell b e) := h.parts

theorem setEgate {g w} (h : Keeps c m x) : Keeps c m (x.setEgate g w) := h.parts

theorem setEngine {e x1} (h : Keeps c m x) : Keeps c m (x.setEngine e x1) := h.parts

theorem setLane {l x1} (h : Keeps c m x) : Keeps c m (x.setLane l x1) := h.parts

theorem setXlane {l x1} (h : Keeps c m x) : Keeps c m (x.setXlane l x1) := h.parts

theorem setJob {x1 j} (h : Keeps c m x) : Keeps c m (x.setJob x1 j) := h.parts

theorem delJob {x1} (h : Keeps c m x) : Keeps c m (x.delJob x1) := h.parts

theorem setQueue {p q} (h : Keeps c m x) : Keeps c m (x.setQueue p q) := h.parts

theorem setPlain {p q} (h : Keeps c m x) : Keeps c m (x.setPlain p q) := h.parts

theorem setUnit {u x1} (h : Keeps c m x) : Keeps c m (x.setUnit u x1) := h.parts

theorem setNoteq {t q} (h : Keeps c m x) : Keeps c m (x.setNoteq t q) := h.parts

theorem draw (h : Keeps c m x) : Keeps c m x.draw.2 := h.parts

theorem setWord {tag a v} (h : Keeps false m x) : Keeps false m (x.setWord tag a v) := h.setCont

theorem setWords {tag a ws} (h : Keeps false m x) : Keeps false m (x.setWords tag a ws) := by
  induction ws generalizing a x with
  | nil => exact h
  | cons w ws ih => exact ih h.setWord

theorem mirDirty {line} (h : Keeps c m x) : Keeps c m (x.mirDirty line) := Keeps.ite h.parts h

theorem toGroup {line} (h : Keeps false m x) : Keeps false m (x.toGroup line) := by
  unfold Mach.toGroup
  extract_lets m1 src
  have hm1 : Keeps false m m1 := h.parts
  exact Keeps.ite hm1.units hm1

theorem writeLine {line ws} (h : Keeps false m x) : Keeps false m (x.writeLine line ws) := by
  unfold Mach.writeLine
  extract_lets m1
  have hm1 : Keeps false m m1 := h.foldl fun _ _ h => h.setCont
  exact Keeps.ite h ((Keeps.ite hm1.parts hm1.toGroup).mirDirty)

theorem snoopLine {q line} (h : Keeps false m x) : Keeps false m (x.snoopLine q line) := by
  unfold Mach.snoopLine
  refine h.foldl fun y b hy => ?_
  extract_lets x1
  have hx1 : Keeps false m x1 := by
    unfold x1
    split
    · exact hy.writeLine
    · exact hy
  exact Keeps.ite hy (Keeps.ite hx1 hx1.setSeat)

theorem snoopRead {q line} (h : Keeps false m x) : Keeps false m (x.snoopRead q line) := by
  unfold Mach.snoopRead
  refine h.foldl fun y b hy => ?_
  extract_lets src
  split
  · exact hy
  · split
    · exact hy.writeLine.setSeat
    · exact hy

theorem ledgerPut {a c1} (h : Keeps false m x) : Keeps false m (x.ledgerPut a c1) := Keeps.ite h h.snoopLine.setCont.toGroup

theorem send {t} (h : Keeps c m x) : Keeps c m (x.send t) := h.parts

theorem twinSend {x1} (h : Keeps c m x) : Keeps c m (x.twinSend x1) := Keeps.ite h.parts h

theorem put {a c1} (h : Keeps false m x) : Keeps false m (x.put a c1) := h.snoopLine.setCont.toGroup.mirDirty

theorem raise {i} (h : Keeps c m x) : Keeps c m (x.raise i) := Keeps.ite h.setRegAt h

theorem notice {t code arg} (h : Keeps c m x) : Keeps c m (x.notice t code arg) := by
  unfold Mach.notice
  extract_lets q m1
  have hm1 : Keeps c m m1 := h.setNoteq
  exact Keeps.ite h.setNoteq (Keeps.ite h.countAt.setRegAt (Keeps.ite hm1.raise hm1))

theorem notices {ts code arg} (h : Keeps c m x) : Keeps c m (x.notices ts code arg) := h.foldl fun _ _ h => h.notice

theorem stkTrigger {src} (h : Keeps c m x) : Keeps c m (x.stkTrigger src) := by
  unfold Mach.stkTrigger
  extract_lets src1 m1 src2
  have hm1 : Keeps c m m1 := Keeps.ite h.parts h
  exact Keeps.ite h (Keeps.ite hm1.count hm1.parts.setFld)

theorem faultEvent {b} (h : Keeps c m x) : Keeps c m (x.faultEvent b) := Keeps.ite (Keeps.ite h.setFld h.parts.setFld.stkTrigger) h

theorem makeReady {x1} (h : Keeps c m x) : Keeps c m (x.makeReady x1) := by
  unfold Mach.makeReady
  split
  · exact h
  · extract_lets ready tp cp src
    have hsrc : Keeps c m src := h.setJob
    exact hsrc.parts

theorem wakeJob {x1 code detail count} (h : Keeps c m x) : Keeps c m (x.wakeJob x1 code detail count) := by
  unfold Mach.wakeJob
  split
  · exact h
  · exact Keeps.ite h.setJob.makeReady h

theorem connSend {s typ flags body} (h : Keeps c m x) : Keeps c m (x.connSend s typ flags body) := by
  unfold Mach.connSend
  extract_lets e
  split
  · exact h
  · exact h.setLive.send

theorem bareNak {p f reason detail} (h : Keeps c m x) : Keeps c m (x.bareNak p f reason detail) := h.send.countAt

theorem connNak {s reason detail seq} (h : Keeps c m x) : Keeps c m (x.connNak s reason detail seq) := by
  unfold Mach.connNak
  split
  · exact h
  · exact h.connSend.countAt

theorem flushN {n s} (h : Keeps c m x) : Keeps c m (Mach.flushN n s x) := by
  induction n generalizing x with
  | zero => exact h
  | succ n ih =>
    unfold Mach.flushN
    extract_lets e
    split
    · exact h
    · refine Keeps.ite h ?_
      split
      · exact ih h.setLive.connSend
      · exact Keeps.ite h (ih h.setLive.connSend)

theorem flush {s} (h : Keeps c m x) : Keeps c m (x.flush s) := h.flushN

theorem queueEntry {s now r} (h : Keeps c m x) : Keeps c m (x.queueEntry s now r) := by
  unfold Mach.queueEntry
  extract_lets e
  split
  · exact h
  · exact h.setLive

theorem failSends {s} (h : Keeps c m x) : Keeps c m (x.failSends s) := by
  unfold Mach.failSends
  extract_lets hit m1 m2
  have hm1 : Keeps c m m1 := h.parts
  have hm2 : Keeps c m m2 := hm1.foldl fun _ _ h => Keeps.ite h h.wakeJob
  exact hm2.parts

theorem closeConn {s} (h : Keeps c m x) : Keeps c m (x.closeConn s) := by
  unfold Mach.closeConn
  extract_lets e
  split
  · exact h
  · exact h.setLive.failSends

theorem bye {s reason} (h : Keeps c m x) : Keeps c m (x.bye s reason) := by
  unfold Mach.bye
  split
  · exact h
  · exact h.connSend.closeConn

theorem byeAll {reason} (h : Keeps c m x) : Keeps c m (x.byeAll reason) := h.foldl fun _ _ h => h.bye

theorem closePort {p} (h : Keeps c m x) : Keeps c m (x.closePort p) := h.foldl fun _ _ h => h.closeConn

theorem creditTenant {t} (h : Keeps c m x) : Keeps c m (x.creditTenant t) := h.foldl fun _ _ h => Keeps.ite h.connSend h

theorem releaseItem {s j folio} (h : Keeps c m x) : Keeps c m (x.releaseItem s j folio) := by
  unfold Mach.releaseItem
  extract_lets l m1 e m2
  have hm1 : Keeps c m m1 := h.setSess
  have hm2 : Keeps c m m2 := hm1.setLive
  exact hm2.queueEntry

theorem replayN {n s es} (h : Keeps c m x) : Keeps c m (Mach.replayN n s es x) := by
  induction n generalizing x es with
  | zero => exact h
  | succ n ih =>
    unfold Mach.replayN
    refine Keeps.ite h ?_
    extract_lets now e
    split
    · exact h
    · exact ih h.setLive.connSend

theorem ackConn {s cum} (h : Keeps c m x) : Keeps c m (x.ackConn s cum) := by
  unfold Mach.ackConn
  extract_lets e
  split
  · exact h
  · extract_lets done ids c1 m1 acked m2
    have hm1 : Keeps c m m1 := h.setLive
    have hm2 : Keeps c m m2 := hm1.parts
    exact Keeps.ite h (hm2.foldl fun _ _ h => Keeps.ite h h.wakeJob)

theorem retransmit {s} (h : Keeps c m x) : Keeps c m (x.retransmit s) := by
  unfold Mach.retransmit
  extract_lets e
  split
  · exact h
  · extract_lets c1 lim fs m1
    have hm1 : Keeps c m m1 := h.setLive
    exact Keeps.ite h (Keeps.ite h.bye ((hm1.foldl fun _ _ h => h.send).countAt))

theorem epochFrame {s} (h : Keeps c m x) : Keeps c m (x.epochFrame s) := Keeps.ite h.setLive.send h

theorem epochSessions {prev} (h : Keeps c m x) : Keeps c m (x.epochSessions prev) := by
  unfold Mach.epochSessions
  extract_lets ids m1
  have hm1 : Keeps c m m1 := by
    unfold m1
    refine h.foldl fun y b hy => ?_
    exact hy.setLive
  exact Keeps.ite ((hm1.foldl fun _ _ h => h.flush).foldl fun _ _ h => h.epochFrame) hm1

theorem pendWrite {w} (h : Keeps c m x) : Keeps c m (x.pendWrite w) := h.parts

theorem sesErr {s k} (h : Keeps c m x) : Keeps c m (x.sesErr s k) := h.setLive

theorem sesCtlWrite {w s v} (h : Keeps c m x) : Keeps c m (x.sesCtlWrite w s v) := by
  unfold Mach.sesCtlWrite
  extract_lets m1 st m2 k
  have hm1 : Keeps c m m1 := Keeps.ite h.bye h
  have hm2 : Keeps c m m2 := Keeps.ite hm1.pendWrite hm1
  exact Keeps.ite h (Keeps.ite hm1.sesErr (Keeps.ite (Keeps.ite hm2.pendWrite.sesErr hm2.sesErr) hm2.sesErr))

theorem alarmReg {a mask v src evt} (h : Keeps c m x) (ha : a ≠ 3 := by decide) : Keeps c m (x.alarmReg a mask v src evt) := by
  unfold Mach.alarmReg
  extract_lets old new m1
  have hm1 : Keeps c m m1 := (h.setReg ha).raise
  exact Keeps.ite h (Keeps.ite hm1 hm1.faultEvent)

theorem twnAlarm {f b} (h : Keeps c m x) : Keeps c m (x.twnAlarm f b) := h.alarmReg

theorem sealAlarm {f b} (h : Keeps c m x) : Keeps c m (x.sealAlarm f b) := h.alarmReg

theorem memAlarm {f b} (h : Keeps c m x) : Keeps c m (x.memAlarm f b) := h.alarmReg

theorem refreshMir (h : Keeps c m x) : Keeps c m (x.refreshMir) := h.twnAlarm

theorem refreshTwn (h : Keeps c m x) : Keeps c m (x.refreshTwn) := by
  unfold Mach.refreshTwn
  extract_lets sk m1 m2 m3 m4 m5
  have hm1 : Keeps c m m1 := h.twnAlarm
  have hm2 : Keeps c m m2 := hm1.twnAlarm
  have hm3 : Keeps c m m3 := hm2.twnAlarm
  have hm4 : Keeps c m m4 := hm3.twnAlarm
  have hm5 : Keeps c m m5 := hm4.twnAlarm
  exact hm5.twnAlarm

theorem newKey (h : Keeps c m x) : Keeps c m (x.newKey) := h.parts

theorem setEpoch {e} (h : Keeps c m x) : Keeps c m (x.setEpoch e) := by
  unfold Mach.setEpoch
  extract_lets prev m0 m1 m2
  have hm0 : Keeps c m m0 := Keeps.ite h.newKey h
  have hm1 : Keeps c m m1 := hm0.setReg.count
  have hm2 : Keeps c m m2 := hm1.notices.raise
  exact Keeps.ite h hm2.faultEvent.epochSessions.refreshTwn

theorem sealLeave (h : Keeps c m x) : Keeps c m (x.sealLeave) := by
  unfold Mach.sealLeave
  extract_lets src m1 src1
  have hm1 : Keeps c m m1 := h.parts
  split
  · exact hm1
  · extract_lets m2
    have hm2 : Keeps c m m2 := hm1.parts
    exact hm2.setReg.setReg.setReg

theorem refreshRun (h : Keeps c m x) : Keeps c m (x.refreshRun) := h.setFld.setFld

theorem setRole {r} (h : Keeps c m x) : Keeps c m (x.setRole r) := by
  unfold Mach.setRole
  extract_lets old serve m1 cleared m2 m3 src m4
  have hm1 : Keeps c m m1 := Keeps.ite (h.foldl fun _ _ h => h.closeConn) h
  have hcleared : Keeps c m cleared := hm1.parts
  have hm2 : Keeps c m m2 := Keeps.ite hcleared.sealLeave hm1
  have hm3 : Keeps c m m3 := hm2.setFld.raise.faultEvent
  have hm4 : Keeps c m m4 := Keeps.ite hm3.parts hm3.parts
  exact Keeps.ite h hm4.refreshRun.refreshTwn

theorem setLease {b} (h : Keeps c m x) : Keeps c m (x.setLease b) := h.setFld

theorem renewLease (h : Keeps c m x) : Keeps c m (x.renewLease) := h.parts

theorem setPendingEpoch {p} (h : Keeps c m x) : Keeps c m (x.setPendingEpoch p) := h.parts.setFld

theorem endHandover (h : Keeps c m x) : Keeps c m (x.endHandover) := by
  unfold Mach.endHandover
  extract_lets src m1
  have hm1 : Keeps c m m1 := h.parts
  exact hm1.setFld.setFld

theorem fence (h : Keeps c m x) : Keeps c m (x.fence) := by
  unfold Mach.fence
  extract_lets m1 src m2
  have hm1 : Keeps c m m1 := h.byeAll
  have hm2 : Keeps c m m2 := (((hm1.parts (fun _ => rfl)).setLease).setPendingEpoch).endHandover
  exact Keeps.ite hm2.setRole hm2

theorem setPhase {p} (h : Keeps c m x) : Keeps c m (x.setPhase p) := h.setFld

theorem syncDiscard (h : Keeps c m x) : Keeps c m (x.syncDiscard) := by
  unfold Mach.syncDiscard
  extract_lets src m1
  have hm1 : Keeps c m m1 := h.parts
  exact hm1.setReg.setFld.setEpoch.twnAlarm

theorem fenceBarred (h : Keeps c m x) : Keeps c m (x.fenceBarred) := by
  unfold Mach.fenceBarred
  extract_lets m1 src m2
  have hm1 : Keeps c m m1 := h.fence
  have hm2 : Keeps c m m2 := hm1.parts
  exact Keeps.ite hm2.syncDiscard hm2

theorem ringWrite {t off ws} (h : Keeps false m x) : Keeps false m (x.ringWrite t off ws) := by
  induction ws generalizing off x with
  | nil => exact h
  | cons w ws ih => exact ih h.ledgerPut

theorem advance {t n} (h : Keeps c m x) : Keeps c m (x.advance t n) := h.setRegAt.setRegAt

theorem place {t n} (h : Keeps false m x) : Keeps false m (x.place t n).2 := h.ringWrite.advance.advance.setAcc

theorem reserveHeader {t} (h : Keeps false m x) : Keeps false m (x.reserveHeader t) := by
  unfold Mach.reserveHeader
  split
  · exact h
  · split
    · rename_i x off m1 heq
      have hheq : Keeps false m m1 := h.place.becomes (congrArg Prod.snd heq)
      exact hheq.setAcc

theorem writeRecord {i d accn body} (h : Keeps false m x) : Keeps false m (x.writeRecord i d accn body) := by
  unfold Mach.writeRecord
  extract_lets ws
  split
  · rename_i x off m1 heq
    have hheq : Keeps false m m1 := h.place.becomes (congrArg Prod.snd heq)
    extract_lets m2 a
    have hm2 : Keeps false m m2 := hheq.ringWrite
    exact hm2.setAcc

theorem gateCount {r} (h : Keeps c m x) : Keeps c m (x.gateCount r) := by
  unfold Mach.gateCount
  split
  · exact h.countAt
  · exact h.countAt
  · exact h

theorem takeAccn {t} (h : Keeps c m x) : Keeps c m (x.takeAccn t) := by
  unfold Mach.takeAccn
  extract_lets n m1 m2 a m3 src
  have hm1 : Keeps c m m1 := h.setPairAt
  have hm2 : Keeps c m m2 := Keeps.ite hm1.setFldAt hm1
  have hm3 : Keeps c m m3 := hm2.setAcc
  exact Keeps.ite hm3.notice.setAcc hm3

theorem joinFolio {i d accn} (h : Keeps c m x) : Keeps c m (x.joinFolio i d accn) := h.setAcc

theorem decide {i} (h : Keeps false m x) : Keeps false m (x.decide i).2.2 := by
  have h0 : Keeps false m ((x.gateCount (x.refusal i).2).reserveHeader i.ten) := h.gateCount.reserveHeader
  unfold Mach.decide
  extract_lets r m0
  split
  · exact (Keeps.ite (Keeps.ite h0.setAcc h0.writeRecord) h0).countAt
  · split
    · exact Keeps.ite h0.countAt.countAt h0.countAt.countAt.notice.setAcc
    · exact h0.takeAccn.writeRecord.countAt

theorem answerNow {i d accn folio} (h : Keeps c m x) : Keeps c m (x.answerNow i d accn folio) := h.queueEntry.flush

theorem logStored {s x1} (h : Keeps c m x) : Keeps c m (x.logStored s x1) := by
  unfold Mach.logStored
  extract_lets e m1 hit
  have hm1 : Keeps c m m1 := h.setLive
  refine hm1.foldl fun y b hy => ?_
  exact hy.setJob.wakeJob

theorem storedItem {s i} (h : Keeps c m x) : Keeps c m (x.storedItem s i) := by
  unfold Mach.storedItem
  extract_lets os vol ten res m1 src
  have hm1 : Keeps c m m1 := h.logStored
  exact Keeps.ite (Keeps.ite hm1 hm1.parts) hm1.notice

theorem judgeWork {i} (h : Keeps false m x) : Keeps false m (x.judgeWork i) := by
  unfold Mach.judgeWork
  extract_lets folio l e
  split
  · exact h.countAt.answerNow
  · split
    · exact Keeps.ite h.countAt.answerNow h.answerNow
    · split
      · exact h.answerNow
      · split
        · exact h
        · split
          · exact h.answerNow
          · split
            · rename_i x d n m1 heq
              have hheq : Keeps false m m1 := h.decide.becomes (congrArg (·.2.2) heq)
              extract_lets e1 m2
              have hm2 : Keeps false m m2 := hheq.setLive
              exact hm2.joinFolio

theorem accnDone {q status d n} (h : Keeps false m x) : Keeps false m (x.accnDone q status d n) := by
  unfold Mach.accnDone
  extract_lets src
  split
  · exact h.setSeat
  · exact h

theorem judgeCore {i} (h : Keeps false m x) : Keeps false m (x.judgeCore i) := by
  unfold Mach.judgeCore
  split
  · exact h.countAt.accnDone
  · split
    · rename_i x d n m1 heq
      have hheq : Keeps false m m1 := h.decide.becomes (congrArg (·.2.2) heq)
      exact hheq.joinFolio.accnDone

theorem judge {i} (h : Keeps false m x) : Keeps false m (x.judge i) := by
  unfold Mach.judge
  extract_lets src src1
  have hsrc : Keeps false m src := h.judgeCore
  have hsrc1 : Keeps false m src1 := h.judgeWork
  exact Keeps.ite (Keeps.ite h.accnDone h) (Keeps.ite hsrc.parts.count hsrc1.parts.count)

theorem release {t c1} (h : Keeps c m x) : Keeps c m (x.release t c1) := by
  unfold Mach.release
  extract_lets m1 m2 m3
  have hm1 : Keeps c m m1 := h.setRegAt
  have hm2 : Keeps c m m2 := Keeps.ite hm1.setPairAt hm1
  have hm3 : Keeps c m m3 := hm2.setPairAt
  exact hm3.foldl fun _ _ h => Keeps.ite h h.releaseItem

theorem releaseList {t cs} (h : Keeps c m x) : Keeps c m (Mach.releaseList t cs x) := by
  induction cs generalizing x with
  | nil => exact h
  | cons f cs ih =>
    unfold Mach.releaseList
    exact Keeps.ite (ih h.release.setAcc) h

theorem releaseAll (h : Keeps c m x) : Keeps c m (x.releaseAll) := by
  unfold Mach.releaseAll
  extract_lets m1
  have hm1 : Keeps c m m1 := h.foldl fun _ _ h => h.releaseList
  exact hm1.foldl fun _ _ h => h.flush

theorem placeReply {r} (h : Keeps c m x) : Keeps c m (x.placeReply r) := by
  unfold Mach.placeReply
  extract_lets e earlier
  split
  · exact h
  · extract_lets m1 m2 seq m3
    have hm1 : Keeps c m m1 := h.setLive
    have hm2 : Keeps c m m2 := hm1.connSend
    have hm3 : Keeps c m m3 := hm2.parts
    exact Keeps.ite h (Keeps.ite hm3.wakeJob hm2.parts)

theorem flushReplies (h : Keeps c m x) : Keeps c m (x.flushReplies) := h.foldl fun _ _ h => h.placeReply

theorem setBp {t f b} (h : Keeps c m x) : Keeps c m (x.setBp t f b) := by
  unfold Mach.setBp
  extract_lets m1
  have hm1 : Keeps c m m1 := h.setFldAt
  exact Keeps.ite hm1.creditTenant hm1

theorem refreshSpace {t} (h : Keeps c m x) : Keeps c m (x.refreshSpace t) := Keeps.ite h.setBp (Keeps.ite h.setBp h)

theorem ledgerWrite {a mask v} (h : Keeps c m x) (ha : a ≠ 3 := by decide) : Keeps c m (x.ledgerWrite a mask v) :=
  (h.setReg ha).pendWrite

theorem ledgerWriteAt {a mask v} (h : Keeps c m x) (ha : a ≠ 3 := by show _ + _ ≠ _; omega) : Keeps c m (x.ledgerWrite a mask v) :=
  h.ledgerWrite ha

theorem closeTenant {f forced t} (h : Keeps false m x) : Keeps false m (x.closeTenant f forced t) := by
  unfold Mach.closeTenant
  extract_lets m0 a root first hdr m1 stop c1 m2 m3 src m4
  have hm0 : Keeps false m m0 := h.reserveHeader
  have hm1 : Keeps false m m1 := hm0.ringWrite
  have hm2 : Keeps false m m2 := hm1.setAcc
  have hm3 : Keeps false m m3 := hm2.setRegAt
  have hm4 : Keeps false m m4 := hm3.parts
  exact Keeps.ite hm4.ledgerWriteAt.notice hm4

theorem closeTenants {f forced} (h : Keeps false m x) : Keeps false m (x.closeTenants f forced) := by
  unfold Mach.closeTenants
  extract_lets m1 m2 src
  have hm1 : Keeps false m m1 := h.foldl fun _ _ h => Keeps.ite h.closeTenant h
  have hm2 : Keeps false m m2 := hm1.setPair
  have hsrc : Keeps false m src := hm2.setReg
  exact hsrc.parts

theorem accError {t k} (h : Keeps c m x) : Keeps c m (x.accError t k) := h.setRegAt

theorem accTail {w t v} (h : Keeps c m x) : Keeps c m (x.accTail w t v) :=
  Keeps.ite h (Keeps.ite h.accError (Keeps.ite h.setRegAt.setRegAt.accError.refreshSpace h.accError))

theorem accRing {w t size v} (h : Keeps c m x) : Keeps c m (x.accRing w t size v) := by
  unfold Mach.accRing
  extract_lets base pages m1
  have hm1 : Keeps c m m1 := Keeps.ite h.setRegAt h.setRegAt
  exact Keeps.ite h (Keeps.ite h.accError (Keeps.ite h.accError (Keeps.ite h.accError (Keeps.ite h.accError
    hm1.setRegAt.setRegAt.setRegAt.accError))))

theorem accCtlSet {w t v} (h : Keeps c m x) : Keeps c m (x.accCtlSet w t v) :=
  Keeps.ite h (Keeps.ite h.accError (Keeps.ite h.accError (Keeps.ite h.accError h.ledgerWriteAt.accError)))

theorem accQuotaSet {w t v} (h : Keeps c m x) : Keeps c m (x.accQuotaSet w t v) :=
  Keeps.ite h (Keeps.ite h.accError h.ledgerWriteAt.accError)

theorem accNextSet {w t hi v} (h : Keeps c m x) : Keeps c m (x.accNextSet w t hi v) :=
  Keeps.ite h (Keeps.ite h.accError (Keeps.ite h.accError (Keeps.ite h.accError ((Keeps.ite h.setRegAt h.setRegAt).accError))))

theorem refreshSeal (h : Keeps c m x) : Keeps c m (x.refreshSeal) := by
  unfold Mach.refreshSeal
  extract_lets n m1 m2 full m3
  have hm1 : Keeps c m m1 := h.sealAlarm
  have hm2 : Keeps c m m2 := hm1.sealAlarm
  have hm3 : Keeps c m m3 := hm2.sealAlarm
  exact (Keeps.ite hm3.fence hm3).refreshRun

theorem startSign (h : Keeps c m x) : Keeps c m (x.startSign) := Keeps.ite h.parts h

theorem pauseSeal (h : Keeps c m x) : Keeps c m (x.pauseSeal) := h.parts.setFld.refreshRun

theorem resumeSeal (h : Keeps c m x) : Keeps c m (x.resumeSeal) := h.setFld.startSign.refreshRun

theorem sealFolioStart (h : Keeps c m x) : Keeps c m (x.sealFolioStart) := h.parts

theorem closeVolume {v closeRt mask forced valid sealed own} (h : Keeps c m x) :
    Keeps c m (x.closeVolume v closeRt mask forced valid sealed own) :=
  Keeps.ite h.parts.startSign.refreshSeal h.parts

theorem openVolume {forced} (h : Keeps c m x) : Keeps c m (x.openVolume forced) := h.parts

theorem rollWrite {off ws} (h : Keeps false m x) : Keeps false m (x.rollWrite off ws) := by
  induction ws generalizing off x with
  | nil => exact h
  | cons w ws ih => exact ih h.ledgerPut

theorem appendRecord {ws} (h : Keeps false m x) : Keeps false m (x.appendRecord ws) := by
  unfold Mach.appendRecord
  extract_lets size head p m1 off m2 m3 m4 src
  have hm1 : Keeps false m m1 := h.rollWrite
  have hm2 : Keeps false m m2 := hm1.rollWrite
  have hm3 : Keeps false m m3 := hm2.setReg
  have hm4 : Keeps false m m4 := hm3.setReg.setReg
  exact hm4.parts

theorem sendSeals {n} (h : Keeps c m x) : Keeps c m (Mach.sendSeals n x) := by
  induction n generalizing x with
  | zero => exact h
  | succ n ih =>
    unfold Mach.sendSeals
    split
    · exact h
    · exact Keeps.ite (ih (h.twinSend.parts)) h

theorem sealAppend (h : Keeps false m x) : Keeps false m (x.sealAppend) := by
  unfold Mach.sealAppend
  split
  · extract_lets no root ws u
    split
    · exact h
    · split
      · rename_i x off m1 heq
        have hheq : Keeps false m m1 := h.draw.becomes (congrArg Prod.snd heq)
        extract_lets sig m11 src m2
        have hm11 : Keeps false m m11 := hheq.appendRecord
        have hm2 : Keeps false m m2 := hm11.parts
        exact hm2.startSign.refreshSeal.sendSeals
  · exact h

theorem applyTailWait (h : Keeps c m x) : Keeps c m (x.applyTailWait) := by
  unfold Mach.applyTailWait
  extract_lets src
  split
  · exact Keeps.ite h.parts.setReg h
  · exact h

theorem takeSeal {pk ws} (h : Keeps false m x) : Keeps false m (Mach.takeSeal pk x ws) := by
  unfold Mach.takeSeal
  extract_lets no m1 src m2
  have hm1 : Keeps false m m1 := h.appendRecord.count.sealAlarm
  have hm2 : Keeps false m m2 := hm1.parts
  exact Keeps.ite h (Keeps.ite hm2.applyTailWait.refreshSeal h.count.sealAlarm)

theorem sealError {k} (h : Keeps c m x) : Keeps c m (x.sealError k) := h.setReg

theorem sealTailSet {w v} (h : Keeps c m x) : Keeps c m (x.sealTailSet w v) :=
  Keeps.ite h (Keeps.ite h.sealError (Keeps.ite h.setReg.sealError.refreshSeal.startSign h.sealError))

theorem sealCtlSet {w i v} (h : Keeps c m x) : Keeps c m (x.sealCtlSet w i v) := by
  unfold Mach.sealCtlSet
  exact Keeps.ite h (Keeps.ite h.sealError (Keeps.ite (Keeps.ite h.sealError h.setFld.ledgerWrite.sealError) (Keeps.ite h.sealError
    (Keeps.ite h.sealError (Keeps.ite h.sealError (Keeps.ite h.ledgerWrite.sealError h.ledgerWrite.sealError))))))

theorem moduleLost (h : Keeps c m x) : Keeps c m (x.moduleLost) := by
  unfold Mach.moduleLost
  extract_lets m1 src
  have hm1 : Keeps c m m1 := h.fenceBarred
  exact hm1.parts

theorem ledgerPoison (h : Keeps c m x) : Keeps c m (x.ledgerPoison) := h.moduleLost.memAlarm

theorem poison {a} (h : Keeps false m x) : Keeps false m (x.poison a) := by
  unfold Mach.poison
  extract_lets m1 m2
  have hm1 : Keeps false m m1 := h.setCont.count.setReg
  have hm2 : Keeps false m m2 := Keeps.ite hm1.raise hm1.memAlarm
  exact Keeps.ite hm2.ledgerPoison hm2

theorem stalled {y} (h : Keeps c m x) (g : Keeps c m y) : Keeps c m (x.stalled y) := Keeps.ite h g

theorem engPut {a c1} (h : Keeps false m x) : Keeps false m (x.engPut a c1) := Keeps.ite h.snoopLine.poison h.put

theorem metTable {p i} (h : Keeps false m x) : Keeps false m (x.metTable p i) := h.snoopRead

theorem metWord {c1 sr a} (h : Keeps false m x) : Keeps false m (x.metWord c1 sr a) := by
  unfold Mach.metWord
  extract_lets t1 l1 m1 m2
  have hm1 : Keeps false m m1 := h.metTable
  have hm2 : Keeps false m m2 := Keeps.ite hm1.metTable hm1
  split
  · exact hm2.snoopRead
  · exact hm2

theorem met {c1 sr a n} (h : Keeps false m x) : Keeps false m (x.met c1 sr a n) := Keeps.ite h (h.foldl fun _ _ h => h.metWord)

theorem carWrite {k sr a v y} (h : Keeps false m x) (done : x.carWrite k sr a v = .ok y) : Keeps false m y := by
  unfold Mach.carWrite at done
  cases hp : x.carPhys k sr a true with
  | error e => rw [hp] at done; cases done
  | ok p => rw [hp] at done; exact Except.ok.inj done ▸ h.engPut

theorem markPut {sr a v} (h : Keeps false m x) : Keeps false m (x.markPut sr a v).2 := by
  unfold Mach.markPut
  split
  · exact h
  · exact h.put

theorem logEntry {sr t v} (h : Keeps false m x) : Keeps false m (x.logEntry sr t v).2 := by
  unfold Mach.logEntry
  split
  · exact h
  · split
    · exact h.setFldAt
    · extract_lets head w
      split
      · rename_i m1 put
        exact h.markPut.becomes (congrArg Prod.snd put)
      · rename_i m1 put
        have hm1 : Keeps false m m1 := h.markPut.becomes (congrArg Prod.snd put)
        exact hm1.setRegAt.setFldAt

theorem markPage {sr t v} (h : Keeps false m x) : Keeps false m (x.markPage sr t v).2 := by
  unfold Mach.markPage
  extract_lets size a old
  split
  · exact h
  · split
    · exact Keeps.ite h h.setFldAt
    · split
      · exact h
      · split
        · exact h
        · split
          · rename_i m1 put
            exact h.markPut.becomes (congrArg Prod.snd put)
          · rename_i m1 put
            have hm1 : Keeps false m m1 := h.markPut.becomes (congrArg Prod.snd put)
            exact hm1.logEntry

theorem markAll {sr t as} (h : Keeps false m x) : Keeps false m (x.markAll sr t as).2 := by
  unfold Mach.markAll
  generalize (as.map fun a => a / 4096 % 2 ^ 28).eraseDups = pages
  suffices all : ∀ failed : Bool, Keeps false m
      (pages.foldl (fun y v => (y.1 || (y.2.markPage sr t v).1, (y.2.markPage sr t v).2)) (failed, x)).2 from all _
  intro failed
  induction pages generalizing failed x with
  | nil => exact h
  | cons p pages ih => exact ih h.markPage _

theorem carWrites {k sr l n} (h : Keeps false m x) : Keeps false m (Mach.carWrites k sr l n x).2.2 := by
  induction l generalizing n x with
  | nil => exact h
  | cons w l ih =>
    unfold Mach.carWrites
    split
    · rename_i done
      exact ih (h.carWrite done)
    · exact h

theorem jobWrites {t k sr l} (h : Keeps false m x) : Keeps false m (x.jobWrites t k sr l).2.2 := h.carWrites.markAll

theorem bellErr {b k} (h : Keeps c m x) : Keeps c m (x.bellErr b k) := h.setFldAt

theorem bellActSet {w b v} (h : Keeps c m x) : Keeps c m (x.bellActSet w b v) :=
  Keeps.ite h (Keeps.ite h.bellErr h.setRegAt.pendWrite.bellErr)

theorem bellTimeSet {w b frac v} (h : Keeps c m x) : Keeps c m (x.bellTimeSet w b frac v) := by
  unfold Mach.bellTimeSet
  extract_lets x
  have hx : Keeps c m x := Keeps.ite h.setRegAt h.setRegAt
  exact Keeps.ite h (Keeps.ite h.bellErr (Keeps.ite h.bellErr hx.pendWrite))

theorem gateKeySet {w g v} (h : Keeps c m x) : Keeps c m (x.gateKeySet w g v) :=
  Keeps.ite h (Keeps.ite h.setFldAt (Keeps.ite h.setFldAt (Keeps.ite h.setFldAt h.setRegAt.pendWrite.setFldAt)))

theorem applyBell {b time act} (h : Keeps c m x) : Keeps c m (x.applyBell b time act) := by
  unfold Mach.applyBell
  extract_lets old g m0 m1 h1 m01 m2
  have hm0 : Keeps c m m0 := Keeps.ite h.setRtAt (Keeps.ite h.setRtAt h)
  have hm1 : Keeps c m m1 := Keeps.ite (hm0.foldl fun _ _ h => h.wakeJob) h
  have hm01 : Keeps c m m01 := hm1.setRtAt
  have hm2 : Keeps c m m2 := Keeps.ite (Keeps.ite (Keeps.ite hm01.setRtAt hm01) (Keeps.ite hm1.setRtAt hm1)) hm1
  exact hm2.setEbell

theorem applyGate {g key} (h : Keeps c m x) : Keeps c m (x.applyGate g key) := by
  unfold Mach.applyGate
  extract_lets was m1
  have hm1 : Keeps c m m1 := h.setEgate
  exact Keeps.ite (Keeps.ite hm1 hm1.setFldAt) hm1.setFldAt

theorem applyReg {a mask v} (h : Keeps c m x) : Keeps c m (x.applyReg a mask v) := by
  unfold Mach.applyReg
  extract_lets m1 t
  have hm1 : Keeps c m m1 := h.setEff
  exact Keeps.ite hm1.setReg.setReg (Keeps.ite hm1.setBp hm1)

theorem freeSession {s} (h : Keeps c m x) : Keeps c m (x.freeSession s) := Keeps.ite h.setSess.setLive h.sesErr

theorem refreshSeeding (h : Keeps c m x) : Keeps c m (x.refreshSeeding) := h.setFld

theorem applyMirror {page set} (h : Keeps c m x) : Keeps c m (x.applyMirror page set) := by
  unfold Mach.applyMirror
  refine Keeps.refreshSeeding (Keeps.setFld (h.parts fun latch => ?_))
  split
  · split
    · exact latch
    · exact latch
  · exact latch

theorem applyWrite {w} (h : Keeps c m x) : Keeps c m (x.applyWrite w) := by
  unfold Mach.applyWrite
  split
  · exact h.applyBell
  · exact h.applyGate
  · exact h.applyReg
  · exact h.setSess
  · exact h.freeSession
  · exact h.applyMirror

theorem applyPend (h : Keeps c m x) : Keeps c m (x.applyPend) := by
  unfold Mach.applyPend
  extract_lets src m0
  have hm0 : Keeps c m m0 := h.parts
  exact (hm0.foldl fun _ _ h => h.applyWrite).refreshSeal

theorem keyRoll {tag} (h : Keeps c m x) : Keeps c m (x.keyRoll tag) := by
  unfold Mach.keyRoll
  extract_lets m1 m2
  have hm1 : Keeps c m m1 := h.foldl fun _ _ h => Keeps.ite h.setFldAt h
  have hm2 : Keeps c m m2 := hm1.setReg
  exact hm2.raise

theorem pursePeriod (h : Keeps c m x) : Keeps c m (x.pursePeriod) := by
  unfold Mach.pursePeriod
  extract_lets m1
  have hm1 : Keeps c m m1 := h.setReg
  exact hm1.setReg.setReg.count

theorem bellAction {act} (h : Keeps c m x) : Keeps c m (x.bellAction act) := by
  unfold Mach.bellAction
  extract_lets tgt
  split
  · exact h.setFldAt.setRegAt.setRegAt
  · exact h.setFldAt
  · exact h.setFldAt.raise
  · exact h.stkTrigger
  · exact h.keyRoll
  · exact h.pursePeriod
  · exact h

theorem bellAfter {b} (h : Keeps c m x) : Keeps c m (x.bellAfter b) := by
  unfold Mach.bellAfter
  extract_lets e n newer m1 t m11 src m2
  have hm1 : Keeps c m m1 := h.setEbell
  have hm11 : Keeps c m m11 := h.setEbell
  have hm2 : Keeps c m m2 := hm11.parts
  exact Keeps.ite (Keeps.ite hm1 hm1.setFldAt) (Keeps.ite hm2.setRtAt hm2)

theorem bellFire {b} (h : Keeps c m x) : Keeps c m (x.bellFire b) := by
  unfold Mach.bellFire
  extract_lets e st m1 m2
  have hm1 : Keeps c m m1 := h.setRegAt
  have hm2 : Keeps c m m2 := hm1.foldl fun _ _ h => h.wakeJob
  exact Keeps.ite hm2.bellAction.bellAfter h

theorem skipBells {old new} (h : Keeps c m x) : Keeps c m (x.skipBells old new) := h.parts

theorem tallyFree {a} (h : Keeps c m x) (ha : a ≠ 3 := by show _ + _ ≠ _; omega) : Keeps c m (x.tallyFree a).2 := h.draw.count ha

theorem talliesFree {l} (h : Keeps c m x) (hl : ∀ a ∈ l, 4 ≤ a := by simp +arith [Reg.enTally, blockTallies]) :
    Keeps c m (Mach.talliesFree l x).2 := by
  induction l generalizing x with
  | nil => exact h
  | cons a l ih =>
    obtain ⟨ha, hl⟩ := List.forall_mem_cons.mp hl
    exact ih (h.tallyFree (by omega)) hl

theorem tallyCluster {k} (h : Keeps c m x) : Keeps c m (x.tallyCluster k).2.2 := by
  unfold Mach.tallyCluster
  split
  rename_i m1 slots
  have hm1 : Keeps c m m1 := h.talliesFree.becomes (congrArg Prod.snd slots)
  split
  rename_i m2 rest
  have hm2 : Keeps c m m2 := hm1.tallyFree.becomes (congrArg Prod.snd rest)
  split
  rename_i m3 others
  have hm3 : Keeps c m m3 := hm2.draw.becomes (congrArg Prod.snd others)
  exact hm3.countAt

theorem tallyClusters {l} (h : Keeps c m x) : Keeps c m (Mach.tallyClusters l x).2.2 := by
  induction l generalizing x with
  | nil => exact h
  | cons a l ih => exact ih h.tallyCluster

theorem charge {last l left} (h : Keeps c m x) (ha : last ≠ 3 := by decide)
    (hl : ∀ a ∈ l, 4 ≤ a := by simp +arith [Reg.enTtally, Reg.enCtally]) : Keeps c m (Mach.charge last l left x).2 := by
  induction l generalizing left x with
  | nil => exact h.count ha
  | cons a l ih =>
    obtain ⟨hb, hl⟩ := List.forall_mem_cons.mp hl
    exact ih (h.draw.count (by omega)) hl

theorem tallyUpdate (h : Keeps c m x) : Keeps c m x.tallyUpdate.2 := by
  unfold Mach.tallyUpdate
  split
  rename_i m1 clusters
  have hm1 : Keeps c m m1 := h.tallyClusters.becomes (congrArg (·.2.2) clusters)
  split
  rename_i m2 ports
  have hm2 : Keeps c m m2 := hm1.talliesFree.becomes (congrArg Prod.snd ports)
  split
  rename_i m3 engines
  have hm3 : Keeps c m m3 := hm2.talliesFree.becomes (congrArg Prod.snd engines)
  split
  rename_i m4 fixed
  have hm4 : Keeps c m m4 := hm3.talliesFree.becomes (congrArg Prod.snd fixed)
  split
  rename_i m5 rest
  have hm5 : Keeps c m m5 := hm4.tallyFree.becomes (congrArg Prod.snd rest)
  dsimp only
  exact hm5.count.count.charge.count.charge.charge.count

theorem project {k d} (h : Keeps c m x) : Keeps c m (x.project k d) := by
  unfold Mach.project
  extract_lets h1 src m1
  have hm1 : Keeps c m m1 := h.parts
  split
  · exact h
  · split
    · split
      · rename_i x off m11 heq
        have hheq : Keeps c m m11 := hm1.draw.becomes (congrArg Prod.snd heq)
        exact hheq.setRegAt
    · exact hm1.setRegAt

theorem setClocks {f} (h : Keeps c m x) : Keeps c m (x.setClocks f) := h.setReg

theorem enAlarms {exceeded} (h : Keeps c m x) : Keeps c m (x.enAlarms exceeded) := by
  unfold Mach.enAlarms
  extract_lets old new m1
  have hm1 : Keeps c m m1 := h.setReg.raise
  exact Keeps.ite h (Keeps.ite hm1.notice hm1)

theorem plan (h : Keeps c m x) : Keeps c m x.plan := by
  have deferTo : ∀ d2 d3, Keeps c m { x with en := { x.en with defer2 := d2, defer3 := d3 } } := fun _ _ => h.parts
  unfold Mach.plan
  extract_lets p pr beyond above90 defer q1 q2 q3 d3 d2 m1 m2
  refine Keeps.ite (deferTo _ _).setClocks.enAlarms (Keeps.ite (deferTo _ _).setClocks.enAlarms (Keeps.enAlarms ?_))
  exact Keeps.ite (deferTo _ _).setClocks (Keeps.ite (deferTo _ _).setClocks (deferTo _ _).setClocks)

theorem energyBoundary (h : Keeps c m x) : Keeps c m (x.energyBoundary) := by
  unfold Mach.energyBoundary
  split
  · rename_i x fst ks m1 heq
    have hheq : Keeps c m m1 := h.tallyUpdate.becomes (congrArg Prod.snd heq)
    extract_lets spend m2 src
    have hm2 : Keeps c m m2 := hheq.foldl fun _ _ h => h.project
    exact hm2.parts.plan

theorem calibrate (h : Keeps c m x) : Keeps c m (x.calibrate) := Keeps.ite h.setFld.setFld.raise h

theorem gateApply {b auto on} (h : Keeps c m x) : Keeps c m (x.gateApply b auto on) := h.setRegAt

theorem gateRequest {sr b auto on} (h : Keeps c m x) : Keeps c m (x.gateRequest sr b auto on) := by
  unfold Mach.gateRequest
  extract_lets src m0 m1 m2
  have hm0 : Keeps c m m0 := h.parts
  have hm1 : Keeps c m m1 := h.parts
  have hm2 : Keeps c m m2 := hm1.setFldAt
  exact Keeps.ite ((Keeps.ite hm2 hm2.setFldAt).setFldAt) hm0.setFldAt.gateApply.setFldAt

theorem enGateSet {w b v} (h : Keeps c m x) : Keeps c m (x.enGateSet w b v) := Keeps.ite h h.gateRequest

theorem refreshHealth (h : Keeps c m x) : Keeps c m (x.refreshHealth) := h.parts

theorem stopShipping (h : Keeps c m x) : Keeps c m (x.stopShipping) := h.parts.refreshSeeding

theorem startSync (h : Keeps c m x) : Keeps c m (x.startSync) := by
  unfold Mach.startSync
  extract_lets src m1
  have hm1 : Keeps c m m1 := h.parts
  exact Keeps.ite h hm1.stopShipping.setRole.setEpoch.setLease.setFld.setReg.setPhase

theorem holdVolume {v closeRt valid} (h : Keeps c m x) : Keeps c m (x.holdVolume v closeRt valid) := h.parts

theorem holdForced {v rt} (h : Keeps c m x) : Keeps c m (x.holdForced v rt) := by
  unfold Mach.holdForced
  extract_lets src
  split
  · exact h
  · exact h.parts.holdVolume

theorem emptyFolios {n f} (h : Keeps false m x) : Keeps false m (Mach.emptyFolios n f x) := by
  induction n generalizing f x with
  | zero => exact h
  | succ n ih =>
    unfold Mach.emptyFolios
    extract_lets m0 m1 m2
    have hm1 : Keeps false m m1 := h.sealFolioStart.foldl fun _ _ h => Keeps.ite h.closeTenant h
    exact ih (Keeps.ite hm1.closeVolume.openVolume hm1)

theorem takeRole {r e} (h : Keeps false m x) : Keeps false m (x.takeRole r e) := by
  unfold Mach.takeRole
  extract_lets h1 src src1 m1 m2 src2 m3 m4 m5
  have hm1 : Keeps false m m1 := h.parts
  have hm2 : Keeps false m m2 := hm1.endHandover.setRole.setLease.setEpoch
  have hm3 : Keeps false m m3 := hm2.parts
  have hm4 : Keeps false m m4 := hm3.holdForced.emptyFolios.sealFolioStart
  have hm5 : Keeps false m m5 := Keeps.ite hm4.renewLease hm4
  exact hm5.releaseAll.startSign.refreshSeal

theorem confirmPending (h : Keeps c m x) : Keeps c m (x.confirmPending) := by
  unfold Mach.confirmPending
  split
  · exact h
  · exact h.setPendingEpoch.setEpoch.setLease.stopShipping

theorem promote (h : Keeps false m x) : Keeps false m (x.promote) := Keeps.ite h.takeRole h.fence

theorem goSolo (h : Keeps c m x) : Keeps c m (x.goSolo) := h.endHandover.setRole.setPendingEpoch.setEpoch.setLease.stopShipping

theorem losePath {b} (h : Keeps c m x) : Keeps c m (x.losePath b) := by
  unfold Mach.losePath
  extract_lets src m1 m2 m3
  have hm1 : Keeps c m m1 := Keeps.ite h.parts.setFld h.parts.setFld
  have hm2 : Keeps c m m2 := Keeps.ite hm1.setFld.twnAlarm hm1
  have hm3 : Keeps c m m3 := Keeps.ite hm2.syncDiscard hm2
  exact Keeps.ite hm3.refreshTwn.refreshHealth h

theorem linkDown (h : Keeps c m x) : Keeps c m (x.linkDown) := h.parts.losePath

theorem linkError (h : Keeps c m x) : Keeps c m (x.linkError) := by
  unfold Mach.linkError
  extract_lets n src m1
  have hm1 : Keeps c m m1 := h.parts.count
  exact Keeps.ite hm1.linkDown hm1

theorem twinRx {head code act} (h : Keeps c m x) (acts : Keeps c m (act x)) : Keeps c m (x.twinRx head code act) :=
  Keeps.ite h (Keeps.ite h.linkError (Keeps.ite h.count (Keeps.ite acts h)))

theorem confirmedBy {h1} (h : Keeps c m x) : Keeps c m (x.confirmedBy h1) := by
  unfold Mach.confirmedBy
  split
  · exact Keeps.ite h.confirmPending h
  · exact h

theorem outranked {h1} (h : Keeps c m x) : Keeps c m (x.outranked h1) := Keeps.ite h.fence.startSync h.fence

theorem syncHeard {h1} (h : Keeps c m x) : Keeps c m (x.syncHeard h1) :=
  Keeps.ite (Keeps.ite h.setPhase h) (Keeps.ite h.syncDiscard.setPhase h)

theorem roleHeard {h1} (h : Keeps false m x) : Keeps false m (x.roleHeard h1) :=
  Keeps.ite h.outranked (Keeps.ite h.promote (Keeps.ite h.startSync (Keeps.ite h.syncHeard h)))

theorem sendLines {ls} (h : Keeps c m x) : Keeps c m (x.sendLines ls) := by
  unfold Mach.sendLines
  extract_lets m1 src
  have hm1 : Keeps c m m1 := h.foldl fun _ _ h => h.twinSend
  exact hm1.parts

theorem sendSeeds (h : Keeps c m x) : Keeps c m (x.sendSeeds) := by
  unfold Mach.sendSeeds
  extract_lets now rest pages m1 src
  have hm1 : Keeps c m m1 := h.sendLines
  exact Keeps.ite hm1.parts h

theorem putShip {f g} (h : Keeps c m x) : Keeps c m (x.putShip f g) := h.parts

theorem shipBegin {s} (h : Keeps c m x) : Keeps c m (x.shipBegin s) := by
  unfold Mach.shipBegin
  extract_lets m1 m2
  have hm1 : Keeps c m m1 := h.twinSend
  have hm2 : Keeps c m m2 := hm1.foldl fun _ _ h => h.foldl fun _ _ h => h.twinSend
  exact hm2.twinSend

theorem shipOut {s} (h : Keeps c m x) : Keeps c m (x.shipOut s) := by
  unfold Mach.shipOut
  extract_lets m1 left rest m2 m3
  have hm1 : Keeps c m m1 := Keeps.ite h h.shipBegin
  have hm2 : Keeps c m m2 := hm1.sendLines
  have hm3 : Keeps c m m3 := hm2.twinSend
  exact Keeps.ite hm3.putShip.setReg.refreshMir hm2.putShip.refreshMir

theorem shipNext (h : Keeps c m x) : Keeps c m (x.shipNext) := by
  unfold Mach.shipNext
  extract_lets m1
  have hm1 : Keeps c m m1 := by
    unfold m1
    split
    · exact h.shipOut
    · exact h
  exact Keeps.ite hm1.sendSeeds h

theorem shipAll {n} (h : Keeps c m x) : Keeps c m (Mach.shipAll n x) := by
  induction n generalizing x with
  | zero => exact h
  | succ n ih => exact ih h.shipNext

theorem handoverFinish (h : Keeps c m x) : Keeps c m (x.handoverFinish) := by
  unfold Mach.handoverFinish
  extract_lets src
  split
  · exact Keeps.ite h.parts.twinSend h
  · exact h

theorem folioAcked {f e} (h : Keeps c m x) : Keeps c m (x.folioAcked f e) := by
  unfold Mach.folioAcked
  extract_lets m1 src m2 m3 m4
  have hm1 : Keeps c m m1 := h.setPair
  have hm2 : Keeps c m m2 := hm1.parts
  have hm3 : Keeps c m m3 := hm2.refreshSeeding
  have hm4 : Keeps c m m4 := Keeps.ite hm3.renewLease hm3
  exact Keeps.ite hm4.releaseAll.sendSeals.flushReplies.refreshMir h

theorem folioRedone {f} (h : Keeps c m x) : Keeps c m (x.folioRedone f) := Keeps.ite h.putShip h

theorem adoptBell {own b} (h : Keeps c m x) : Keeps c m (Mach.adoptBell own x b) := by
  unfold Mach.adoptBell
  extract_lets o m1
  have hm1 : Keeps c m m1 := h.setEbell
  exact Keeps.ite h.setEbell (Keeps.ite (hm1.foldl fun _ _ h => h.wakeJob) hm1)

theorem modeHeld {t} (h : Keeps c m x) : Keeps c m (x.modeHeld t) := by
  unfold Mach.modeHeld
  split
  · exact h.setFldAt.setEff
  · exact h

theorem adopt {l} (h : Keeps c m x) : Keeps c m (x.adopt l) := by
  unfold Mach.adopt
  extract_lets own keep r0 r1 regs eff tail moved m0 src m1 m2 m3
  have hm0 : Keeps c m m0 := Keeps.ite h.setReg.setReg h
  have hm1 : Keeps c m m1 := hm0.parts
  have hm2 : Keeps c m m2 := hm1.foldl fun _ _ h => h.adoptBell
  have hm3 : Keeps c m m3 := by
    unfold m3
    refine hm2.foldl fun y b hy => ?_
    extract_lets y1 z src1
    have hy1 : Keeps c m y1 := hy.setFldAt
    have hz : Keeps c m z := hy1.setFldAt.setFldAt
    exact hz.setAcc
  exact hm3.setFld.applyTailWait.refreshSeal

theorem holdFail {f} (h : Keeps c m x) : Keeps c m (x.holdFail f) := by
  unfold Mach.holdFail
  extract_lets n src m1
  have hm1 : Keeps c m m1 := h.parts
  split
  · rename_i x off m11 heq
    have hheq : Keeps c m m11 := hm1.draw.becomes (congrArg Prod.snd heq)
    extract_lets m3
    have hm3 : Keeps c m m3 := hheq.twinSend.refreshTwn
    exact Keeps.ite hm3.syncDiscard hm3

theorem holdBegin {f e mask} (h : Keeps c m x) : Keeps c m (x.holdBegin f e mask) := by
  unfold Mach.holdBegin
  extract_lets m1 src
  have hm1 : Keeps c m m1 := by
    unfold m1
    split
    · exact Keeps.ite h.holdFail h
    · exact h
  exact Keeps.ite hm1.parts hm1

theorem holdRecords {t off ws} (h : Keeps false m x) : Keeps false m (x.holdRecords t off ws) := by
  unfold Mach.holdRecords
  split
  · extract_lets src m1
    have hm1 : Keeps false m m1 := h.parts
    exact Keeps.ite hm1.ringWrite h
  · exact h

theorem holdState {l} (h : Keeps c m x) : Keeps c m (x.holdState l) := by
  unfold Mach.holdState
  split
  · exact h.parts
  · exact h

theorem copyConts {a cs} (h : Keeps false m x) : Keeps false m (x.copyConts a cs) := by
  induction cs generalizing a x with
  | nil => exact h
  | cons w cs ih => exact ih h.ledgerPut

theorem holdLines {addr cs} (h : Keeps false m x) : Keeps false m (x.holdLines addr cs) := Keeps.ite h.copyConts h

theorem holdRoots {h1 e skipped} (h : Keeps c m x) : Keeps c m (x.holdRoots h1 e skipped) := by
  unfold Mach.holdRoots
  extract_lets src src1 m1
  have hm1 : Keeps c m m1 := h.parts
  exact Keeps.ite hm1.holdVolume.refreshSeal hm1

theorem handoverTake (h : Keeps false m x) : Keeps false m (x.handoverTake) := by
  unfold Mach.handoverTake
  extract_lets m1
  have hm1 : Keeps false m m1 := h.takeRole
  split
  · exact Keeps.ite hm1.twinSend h
  · exact h

theorem holdFolio {h1 st e} (h : Keeps false m x) : Keeps false m (x.holdFolio h1 st e) := by
  unfold Mach.holdFolio
  extract_lets skipped src m1 m2 m3 m4
  have hm1 : Keeps false m m1 := h.parts
  have hm2 : Keeps false m m2 := hm1.holdForced.adopt
  have hm3 : Keeps false m m3 := hm2.foldl fun _ _ h => Keeps.ite h.setRegAt.modeHeld h
  have hm4 : Keeps false m m4 := hm3.holdRoots.setPair
  exact hm4.twinSend.handoverTake

theorem holdEnd {e} (h : Keeps false m x) : Keeps false m (x.holdEnd e) := by
  unfold Mach.holdEnd
  extract_lets src shut
  have hshut : Keeps false m shut := h.parts
  split
  · exact h
  · split
    · exact h.holdFail
    · split
      · exact hshut
      · split
        · split
          · rename_i x off m1 heq
            have hheq : Keeps false m m1 := hshut.draw.becomes (congrArg Prod.snd heq)
            exact hheq.twinSend
        · split
          · exact Keeps.ite h.holdFolio h.holdFail
          · exact h.holdFail

theorem agreeHandover {v} (h : Keeps c m x) : Keeps c m (x.agreeHandover v) := by
  unfold Mach.agreeHandover
  extract_lets src m1
  have hm1 : Keeps c m m1 := h.parts
  exact hm1.setFld.twinSend

theorem requestHandover (h : Keeps c m x) : Keeps c m (x.requestHandover) := Keeps.ite h.setFld.agreeHandover h

theorem handoverAsked {v} (h : Keeps c m x) : Keeps c m (x.handoverAsked v) := Keeps.ite h.agreeHandover h

theorem handoverAgreed {v} (h : Keeps c m x) : Keeps c m (x.handoverAgreed v) := Keeps.ite h.parts.setFld h

theorem handoverHeard {folio epoch} (h : Keeps false m x) : Keeps false m (x.handoverHeard folio epoch) := by
  unfold Mach.handoverHeard
  extract_lets src
  split
  · exact Keeps.ite h.parts.handoverTake h
  · exact h

theorem syncCheck {cfg} (h : Keeps c m x) : Keeps c m (x.syncCheck cfg) := Keeps.ite (Keeps.ite h.setPhase.twinSend h.syncDiscard) h

theorem sendBlocks {bs} (h : Keeps c m x) : Keeps c m (Mach.sendBlocks bs x) := by
  induction bs generalizing x with
  | nil => exact h
  | cons b bs ih => exact ih h.twinSend

theorem startCopy {s l} (h : Keeps c m x) : Keeps c m (x.startCopy s l) := by
  unfold Mach.startCopy
  extract_lets src m1
  have hm1 : Keeps c m m1 := h.parts
  exact hm1.twinSend.sendBlocks

theorem takeMark {s e} (h : Keeps c m x) : Keeps c m (x.takeMark s e) := by
  unfold Mach.takeMark
  extract_lets src src1 m1
  have hm1 : Keeps c m m1 := h.parts
  exact Keeps.ite hm1.setEpoch.setPhase.twnAlarm h

theorem rootsHeld (h : Keeps c m x) : Keeps c m (x.rootsHeld) := h.parts

theorem takeBulk {b remain} (h : Keeps false m x) : Keeps false m (x.takeBulk b remain) := by
  unfold Mach.takeBulk
  extract_lets m1 src m2 m3 src1 m4
  have hm1 : Keeps false m m1 := h.setFld
  have hm2 : Keeps false m m2 := by
    unfold m2
    split
    · exact hm1.adopt.setReg
    · exact hm1.copyConts
    · exact hm1.parts
    · extract_lets x
      have hx : Keeps false m x := hm1.parts
      exact hx.setReg.setReg.setReg
  have hm3 : Keeps false m m3 := hm2.setPhase.setPair
  have hm4 : Keeps false m m4 := hm3.parts
  split
  · split
    · refine Keeps.refreshSeal ?_
      refine Keeps.rootsHeld ?_
      refine hm4.foldl fun y b1 hy => ?_
      exact hy.setAcc.modeHeld
    · exact hm2
  · exact h

theorem mirError {k} (h : Keeps c m x) : Keeps c m (x.mirError k) := h.setFld

theorem mirPageSet {w v} (h : Keeps c m x) : Keeps c m (x.mirPageSet w v) :=
  Keeps.ite h (Keeps.ite h.mirError (Keeps.ite h.mirError (Keeps.ite h.mirError h.pendWrite.mirError)))

theorem initRequest (h : Keeps c m x) : Keeps c m (x.initRequest) := Keeps.ite h (Keeps.ite h.twnAlarm h.setFld.twnAlarm)

theorem twnCtlSet {w v} (h : Keeps c m x) : Keeps c m (x.twnCtlSet w v) := by
  unfold Mach.twnCtlSet
  extract_lets m1 m2 m3 m4
  have hm1 : Keeps c m m1 := h.setFld
  have hm2 : Keeps c m m2 := Keeps.ite hm1 hm1.setFld
  have hm3 : Keeps c m m3 := Keeps.ite hm2.initRequest hm2
  have hm4 : Keeps c m m4 := Keeps.ite hm3.requestHandover hm3
  exact Keeps.ite h (Keeps.ite hm4.fence hm4)

theorem handOver {c1} (h : Keeps c m x) : Keeps c m (x.handOver c1) := Keeps.ite h.startCopy (Keeps.ite h.parts.refreshMir h)

theorem boundaryRelease (h : Keeps c m x) : Keeps c m (x.boundaryRelease) := Keeps.ite h h.releaseAll.flushReplies

theorem closeDone {c1} (h : Keeps false m x) : Keeps false m (x.closeDone c1) := by
  unfold Mach.closeDone
  extract_lets m1 m2 v m3 m4
  have hm1 : Keeps false m m1 := h.closeTenants
  have hm2 : Keeps false m m2 := hm1.parts
  have hm3 : Keeps false m m3 := Keeps.ite hm2.closeVolume hm2
  have hm4 : Keeps false m m4 := hm3.handOver
  exact (Keeps.ite hm4.shipAll.handoverFinish hm4).boundaryRelease

theorem finishClosings {n} (h : Keeps false m x) : Keeps false m (Mach.finishClosings n x) := by
  induction n generalizing x with
  | zero => exact h
  | succ n ih =>
    unfold Mach.finishClosings
    split
    · exact Keeps.ite (ih h.closeDone) h
    · exact h

theorem emitOne (h : Keeps false m x) : Keeps false m (x.emitOne) := by
  unfold Mach.emitOne
  split
  · exact h
  · exact Keeps.ite h.parts.judge.finishClosings h

theorem emitDue {n} (h : Keeps false m x) : Keeps false m (Mach.emitDue n x) := by
  induction n generalizing x with
  | zero => exact h
  | succ n ih => exact ih h.emitOne

theorem refreshBacklog (h : Keeps c m x) : Keeps c m (x.refreshBacklog) := h.foldl fun _ _ h => h.setBp

theorem countSync {f} (h : Keeps c m x) : Keeps c m (x.countSync f) := by
  unfold Mach.countSync
  extract_lets n src m1
  have hm1 : Keeps c m m1 := h.parts
  exact Keeps.ite (Keeps.ite hm1.setPhase.setFld hm1) (Keeps.ite h.parts h)

theorem decideActive (h : Keeps c m x) : Keeps c m (x.decideActive) := h.parts

theorem startClose {forced rt next sealed} (h : Keeps c m x) : Keeps c m (x.startClose forced rt next sealed) := Keeps.ite h.parts h

theorem boundary {forced rt next} (h : Keeps false m x) : Keeps false m (x.boundary forced rt next) := by
  unfold Mach.boundary
  extract_lets m0 f m1 m2 src m3 src1 m4 m5 m6 m7
  have hm0 : Keeps false m m0 := Keeps.ite h h.emitDue
  have hm1 : Keeps false m m1 := hm0.startClose
  have hm2 : Keeps false m m2 := Keeps.ite hm1.openVolume hm1
  have hm3 : Keeps false m m3 := Keeps.ite hm2.parts hm2
  have hsrc1 : Keeps false m src1 := hm3.applyPend
  have hm4 : Keeps false m m4 := hsrc1.parts
  have hm5 : Keeps false m m5 := Keeps.ite hm4.sealFolioStart hm4
  have hm6 : Keeps false m m6 := (hm5.foldl fun _ _ h => h.refreshSpace).refreshBacklog
  have hm7 : Keeps false m m7 := hm6.countSync.decideActive.sendSeeds.energyBoundary
  exact hm7.finishClosings.boundaryRelease.refreshTwn

theorem folioClose (h : Keeps false m x) : Keeps false m (x.folioClose) := Keeps.ite h.boundary h

theorem handoverQuiesce (h : Keeps false m x) : Keeps false m (x.handoverQuiesce) := by
  unfold Mach.handoverQuiesce
  split
  · extract_lets late m1 m2 src m3 m4
    have hm1 : Keeps false m m1 := h.parts.byeAll
    have hm2 : Keeps false m m2 := hm1.foldl fun _ _ h => Keeps.ite h.accnDone h
    have hm3 : Keeps false m m3 := (hm2.parts (fun _ => rfl)).setFld
    have hm4 : Keeps false m m4 := Keeps.ite hm3.boundary hm3
    exact Keeps.ite hm4.shipAll.handoverFinish h
  · exact h

theorem folioCloses {n} (h : Keeps false m x) : Keeps false m (Mach.folioCloses n x) := by
  induction n generalizing x with
  | zero => exact h
  | succ n ih => exact ih h.folioClose

theorem timeNotice {code} (h : Keeps c m x) : Keeps c m (x.timeNotice code) := h.notices

theorem setRtState {s} (h : Keeps c m x) : Keeps c m (x.setRtState s) := by
  unfold Mach.setRtState
  extract_lets old m1 src m2 src1
  have hm1 : Keeps c m m1 := h.setFld.raise
  have hm2 : Keeps c m m2 := hm1.parts
  exact Keeps.ite h (Keeps.ite hm2.parts.setReg.timeNotice (Keeps.ite hm2.timeNotice hm2))

theorem wakeSkipped {lo hi} (h : Keeps c m x) : Keeps c m (x.wakeSkipped lo hi) := h.foldl fun _ _ h => h.wakeJob

theorem portDown {p} (h : Keeps c m x) : Keeps c m (x.portDown p) := Keeps.ite h.closePort.setRegAt.raise h

theorem portUp {p} (h : Keeps c m x) : Keeps c m (x.portUp p) := Keeps.ite h (Keeps.ite h.setFldAt h.setRegAt.raise)

theorem dropRaw {p} (h : Keeps c m x) : Keeps c m (x.dropRaw p) := h.setQueue.foldl fun _ _ h => Keeps.ite h h.wakeJob

theorem resetPort {p} (h : Keeps c m x) : Keeps c m (x.resetPort p) := by
  unfold Mach.resetPort
  exact h.closePort.portDown.dropRaw.setPlain.resetRegs (by simp; omega)

theorem portResetSet {w p v} (h : Keeps c m x) : Keeps c m (x.portResetSet w p v) := Keeps.ite h.resetPort h

theorem rxDrop {p} (h : Keeps c m x) : Keeps c m (x.rxDrop p) := h.countAt

theorem rxCount {p f} (h : Keeps c m x) : Keeps c m (x.rxCount p f) := Keeps.ite h.countAt h

theorem rxBad {p f detail} (h : Keeps c m x) : Keeps c m (x.rxBad p f detail) := by
  unfold Mach.rxBad
  extract_lets h1 m1
  have hm1 : Keeps c m m1 := h.countAt
  split
  · exact hm1.rxDrop
  · split
    · exact hm1.connNak
    · exact hm1.rxDrop

theorem rxTyped {p f typ act} (h : Keeps c m x) (acts : ∀ {y g}, Keeps c m y → Keeps c m (act y g)) :
    Keeps c m (x.rxTyped p f typ act) := by
  unfold Mach.rxTyped
  refine Keeps.ite h ?_
  split
  · exact Keeps.ite h.rxCount.rxBad h
  · exact Keeps.ite (acts h.rxCount.countAt) h
  · exact h

theorem openConn {p s g existed} (h : Keeps c m x) : Keeps c m (x.openConn p s g existed) := by
  unfold Mach.openConn
  extract_lets m1 l m2 e c1 m3 ctl m4
  have hm1 : Keeps c m m1 := h.closeConn
  have hm2 : Keeps c m m2 := hm1.setSess
  have hm3 : Keeps c m m3 := hm2.setLive
  have hm4 : Keeps c m m4 := hm3.connSend
  exact hm4.replayN.flushReplies

theorem newSes {s ten pid stream} (h : Keeps c m x) : Keeps c m (x.newSes s ten pid stream) := h.setSess.setLive

theorem hello {p g} (h : Keeps c m x) : Keeps c m (x.hello p g) := by
  unfold Mach.hello
  split
  · extract_lets full
    split
    · exact h.bareNak
    · split
      · exact h.bareNak
      · split
        · exact h.bareNak
        · split
          · exact Keeps.ite h.bareNak h.openConn
          · split
            · exact h.bareNak
            · extract_lets x
              have hx : Keeps c m x := h.newSes
              exact Keeps.ite hx.bareNak hx.openConn
  · exact h.rxDrop

theorem ackWithin {s n} (h : Keeps c m x) : Keeps c m (x.ackWithin s n) := by
  unfold Mach.ackWithin
  extract_lets e
  split
  · exact h
  · exact h.setLive

theorem heard {s g} (h : Keeps c m x) : Keeps c m (x.heard s g) := by
  unfold Mach.heard
  extract_lets e
  split
  · exact h
  · extract_lets m1 m2
    have hm1 : Keeps c m m1 := h.setLive
    have hm2 : Keeps c m m2 := hm1.ackConn.flush.flushReplies
    exact Keeps.ite hm2.ackWithin hm2

theorem onConn {p g act} (h : Keeps c m x) (acts : ∀ {y s}, Keeps c m y → Keeps c m (act y s)) : Keeps c m (x.onConn p g act) := by
  unfold Mach.onConn
  refine Keeps.ite h.rxDrop ?_
  split
  · exact h.bareNak
  · exact Keeps.ite h.heard.connNak (acts h.heard)

theorem inSequence {s g act} (h : Keeps c m x) (acts : Keeps c m (act x)) : Keeps c m (x.inSequence s g act) := by
  unfold Mach.inSequence
  extract_lets e
  split
  · exact h
  · exact Keeps.ite acts (Keeps.ite (Keeps.ite h h.setLive.connNak) h.connSend)

theorem takeSeq {s seq} (h : Keeps c m x) : Keeps c m (x.takeSeq s seq) := by
  unfold Mach.takeSeq
  extract_lets e
  split
  · exact h
  · exact h.setLive

theorem admitItems {p s frm pos is} (h : Keeps c m x) : Keeps c m (Mach.admitItems p s frm pos is x) := by
  induction is generalizing pos x with
  | nil => exact h
  | cons i is ih =>
    unfold Mach.admitItems
    extract_lets e
    split
    · exact h
    · exact Keeps.ite (ih h.setLive.storedItem) (ih (h.setLive.parts))

theorem data {p s g} (h : Keeps c m x) : Keeps c m (x.data p s g) := by
  unfold Mach.data
  refine h.inSequence ?_
  split
  · split
    · exact h.connNak
    · have admitted : ∀ {n is y}, Keeps c m y → Keeps c m ((Mach.admitItems p s n 0 is y).ackWithin s 4096) :=
        fun h => h.admitItems.ackWithin
      exact Keeps.ite (admitted h.takeSeq.parts).releaseAll.flushReplies (admitted h.takeSeq.parts)
  · exact h

theorem queuePlain {p f stamp} (h : Keeps c m x) : Keeps c m (x.queuePlain p f stamp) :=
  Keeps.ite h.rxDrop (Keeps.ite h.countAt h.setPlain.raise)

theorem txStamp {p sub} (h : Keeps c m x) : Keeps c m (x.txStamp p sub) := h.setRegAt.setRegAt

theorem frameLeft {p sub} (h : Keeps c m x) : Keeps c m (x.frameLeft p sub) := by
  unfold Mach.frameLeft
  split
  · exact h
  · extract_lets os m1 m2
    have hm1 : Keeps c m m1 := h.setQueue.send
    have hm2 : Keeps c m m2 := Keeps.ite hm1.txStamp hm1
    exact Keeps.ite (Keeps.ite hm2 hm2.wakeJob) h

theorem withConn {s act} (h : Keeps c m x) (acts : ∀ k, Keeps c m (act k)) : Keeps c m (x.withConn s act) := by
  unfold Mach.withConn
  split
  · exact acts _
  · exact h

theorem stkFireSet {w v} (h : Keeps c m x) : Keeps c m (x.stkFireSet w v) := Keeps.ite h.stkTrigger h

theorem stkArmSet {w v} (h : Keeps c m x) : Keeps c m (x.stkArmSet w v) := Keeps.ite h.setFld h

theorem stkLatched {src} (h : Keeps c m x) : Keeps c m (x.stkLatched src) := by
  unfold Mach.stkLatched
  extract_lets w src1 m1 m2
  have hm1 : Keeps c m m1 := h.parts
  have hm2 : Keeps c m m2 := hm1.setReg.setReg
  exact hm2.setReg.count.raise

theorem notePopSet {w t v} (h : Keeps c m x) : Keeps c m (x.notePopSet w t v) := Keeps.ite h.setNoteq h

theorem intRaiseSet {w v} (h : Keeps c m x) : Keeps c m (x.intRaiseSet w v) := Keeps.ite h.raise h

theorem mgmtWord {always v} (h : Keeps c m x) : Keeps c m (x.mgmtWord always v) := Keeps.ite h (Keeps.ite h.send h.send)

theorem mbIn {os} (h : Keeps c m x) : Keeps c m (x.mbIn os) := h.foldl fun _ _ h => h.setRegAt

theorem mboxWrite {os} (h : Keeps c m x) : Keeps c m (x.mboxWrite os) := Keeps.ite h (Keeps.ite h.send (Keeps.ite h h.mbIn.setReg))

theorem mboxRead (h : Keeps c m x) : Keeps c m (x.mboxRead) := Keeps.ite h (Keeps.ite h.send (Keeps.ite h.send.setFld h.send))

theorem seqRun {cls i} (h : Keeps c m x) : Keeps c m (x.seqRun cls i) := h.parts

theorem seqReset {cls i} (h : Keeps c m x) : Keeps c m (x.seqReset cls i) := h.parts

theorem jobPut {j l} (h : Keeps false m x) : Keeps false m (x.jobPut j l).2.2 := by
  unfold Mach.jobPut
  split
  · exact h
  · exact h.jobWrites

theorem writeStatus {j j2 j3} (h : Keeps false m x) : Keeps false m (x.writeStatus j j2 j3) := h.jobPut

theorem leaveEngine {e j} (h : Keeps c m x) : Keeps c m (x.leaveEngine e j) := by
  unfold Mach.leaveEngine
  split
  · rename_i x off m1 heq
    have hheq : Keeps c m m1 := h.draw.becomes (congrArg Prod.snd heq)
    extract_lets src m2
    have hm2 : Keeps c m m2 := hheq.setEngine.countAt
    exact hm2.parts

theorem offEngine {x1 j} (h : Keeps c m x) : Keeps c m (x.offEngine x1 j) := by
  unfold Mach.offEngine
  split
  · exact h.leaveEngine
  · exact h

theorem makeOldest {x1} (h : Keeps c m x) : Keeps c m (x.makeOldest x1) := by
  unfold Mach.makeOldest
  extract_lets m1
  have hm1 : Keeps c m m1 := h.makeReady
  split
  · exact hm1
  · exact hm1.parts

theorem freeJob {x1} (h : Keeps c m x) : Keeps c m (x.freeJob x1) := by
  unfold Mach.freeJob
  extract_lets src
  have hsrc : Keeps c m src := h.delJob
  exact hsrc.parts

theorem pumpCq {k n} (h : Keeps false m x) : Keeps false m (Mach.pumpCq k n x) := by
  induction n generalizing x with
  | zero => exact h
  | succ n ih =>
    unfold Mach.pumpCq
    refine Keeps.ite h ?_
    split
    · exact h
    · extract_lets head a
      split
      · rename_i m1 put
        have hm1 : Keeps false m m1 := h.jobPut.becomes (congrArg (·.2.2) put)
        exact hm1.setFldAt
      · rename_i m1 put
        have hm1 : Keeps false m m1 := h.jobPut.becomes (congrArg (·.2.2) put)
        extract_lets m2 m3
        have hm2 : Keeps false m m2 := hm1.setRegAt.setFldAt.countAt
        have hm3 : Keeps false m m3 := Keeps.ite hm2.raise hm2
        exact ih (Keeps.ite hm3.freeJob hm3.wakeJob)

theorem deliver {c1} (h : Keeps false m x) : Keeps false m (x.deliver c1) := h.pumpCq

theorem endJob {x1 code detail count a} (h : Keeps false m x) : Keeps false m (x.endJob x1 code detail count a) := by
  unfold Mach.endJob
  split
  · exact h
  · extract_lets j2 j3 m1 m2
    have hm1 : Keeps false m m1 := h.offEngine.writeStatus
    have hm2 : Keeps false m m2 := hm1.setJob
    exact hm2.parts.deliver

theorem dropJob {x1} (h : Keeps c m x) : Keeps c m (x.dropJob x1) := by
  unfold Mach.dropJob
  split
  · exact h
  · exact h.offEngine.freeJob.countAt

theorem pickJob {e} (h : Keeps c m x) : Keeps c m (x.pickJob e) := by
  unfold Mach.pickJob
  split
  · split
    · exact h.setJob.setEngine
    · exact h
  · exact h

theorem safePoint {e} (h : Keeps c m x) : Keeps c m (x.safePoint e) := by
  unfold Mach.safePoint
  extract_lets src
  split
  · exact h
  · split
    · exact h.setEngine
    · exact Keeps.ite h.dropJob h.leaveEngine.makeOldest

theorem ceRegs {e} (h : Keeps c m x) : Keeps c m (x.ceRegs e) := h.resetRegs (by
  rw [Bool.eq_false_iff]
  simp only [ne_eq, Bool.and_eq_true, decide_eq_true_eq]
  unfold Reg.ceStat
  omega)

theorem resetEngine {e detail} (h : Keeps false m x) : Keeps false m (x.resetEngine e detail) := by
  unfold Mach.resetEngine
  extract_lets src m1
  have hm1 : Keeps false m m1 := by
    unfold m1
    split
    · exact h
    · split
      · exact h.setEngine
      · exact Keeps.ite h.dropJob h.endJob
  exact hm1.ceRegs.seqReset

theorem faultEngine {e} (h : Keeps false m x) : Keeps false m (x.faultEngine e) := h.countAt.resetEngine

theorem ceCtlSet {w e v} (h : Keeps false m x) : Keeps false m (x.ceCtlSet w e v) := by
  unfold Mach.ceCtlSet
  extract_lets m1 m2
  have hm1 : Keeps false m m1 := h.setFldAt
  have hm2 : Keeps false m m2 := Keeps.ite (Keeps.ite hm1.parts hm1.resetEngine) hm1
  exact Keeps.ite h (Keeps.ite hm2 hm2.safePoint)

theorem quantumSet {w v} (h : Keeps c m x) : Keeps c m (x.quantumSet w v) := Keeps.ite h.setReg h

theorem setLaneB {b x1} (h : Keeps c m x) : Keeps c m (x.setLaneB b x1) := Keeps.ite h.setLane h.setXlane

theorem giveLane {b x1 j kind ws} (h : Keeps false m x) : Keeps false m (x.giveLane b x1 j kind ws) := by
  unfold Mach.giveLane
  extract_lets cipher src l a
  split
  · exact h.setLaneB
  · split
    · exact h.setLaneB
    · split
      · exact h.met.setLaneB
      · exact h.setLaneB

theorem takeLane {x1 j kind ws} (h : Keeps false m x) : Keeps false m (x.takeLane x1 j kind ws) := by
  unfold Mach.takeLane
  extract_lets cipher ls
  split
  · exact h.setJob
  · split
    · rename_i x1 off m1 heq
      have hheq : Keeps false m m1 := h.draw.becomes (congrArg Prod.snd heq)
      exact hheq.setJob.giveLane

theorem loadSlot {s h1 key} (h : Keeps c m x) : Keeps c m (x.loadSlot s h1 key) := by
  unfold Mach.loadSlot
  extract_lets stat lim m1 m2
  have hm1 : Keeps c m m1 := h.setRegAt.setRegAt.setPairAt
  have hm2 : Keeps c m m2 := hm1.setRegAt.setRegAt
  exact hm2.parts

theorem clearSlot {s} (h : Keeps c m x) : Keeps c m (x.clearSlot s) := h.setFldAt

theorem freeSlot {s} (h : Keeps c m x) : Keeps c m (x.freeSlot s) := by
  have cleared : ∀ l : List Nat, (∀ a ∈ l, 4 ≤ a) → ∀ y, Keeps c m y → Keeps c m (l.foldl (fun z a => z.setReg a 0) y) := by
    intro l
    induction l with
    | nil => exact fun _ y h => h
    | cons a l ih =>
      intro above y h
      obtain ⟨ha, above⟩ := List.forall_mem_cons.mp above
      exact ih above _ (h.setReg (by omega))
  exact (cleared _ (by simp +arith [Reg.kxSstat, Reg.kxSfixed, Reg.kxSctrHi, Reg.kxSctrLo, Reg.kxSused, Reg.kxSlimit]) x h).parts

theorem slotCleared {s} (h : Keeps c m x) : Keeps c m (x.slotCleared s) := Keeps.ite h.freeSlot h

theorem clearSrSlots (h : Keeps c m x) : Keeps c m (x.clearSrSlots) := by
  unfold Mach.clearSrSlots
  extract_lets m1
  have hm1 : Keeps c m m1 := h.foldl fun _ _ h => Keeps.ite h.freeSlot h
  exact hm1.parts

theorem invoke {s gcm} (h : Keeps c m x) : Keeps c m (x.invoke s gcm).2 := by
  have used : Keeps c m (if gcm then x.setPair (Reg.kxSctrHi s) (Reg.kxSctrLo s) (x.slotC s + 1) else x) := Keeps.ite h.setPairAt h
  exact Keeps.ite used.setRegAt.setFldAt used.setRegAt

theorem startCheck {l r} (h : Keeps c m x) (start : x.startCheck l = .ok r) : Keeps c m r.2.2 := by
  have same : ∀ {slots : List Nat} {iv : List Octet}, (.ok (slots, iv, x) : Except Nat (List Nat × List Octet × Mach)) = .ok r →
      Keeps c m r.2.2 := fun e => Except.ok.inj e ▸ h
  unfold Mach.startCheck at start
  extract_lets op at start
  split at start
  · split at start
    · cases start
    · split at start
      · cases start
      · split at start
        · split at start
          · exact same start
          · cases start
        · cases hs : x.slotFor l l.keySlot Usage.unwrap [2] with
          | error e => rw [hs] at start; cases start
          | ok u => rw [hs] at start; exact same start
  · split at start
    · split at start
      · cases start
      · split at start
        · cases start
        · cases hs : x.slotFor l l.dstSlot Usage.exportable [1, 2, 3] with
          | error e => rw [hs] at start; cases start
          | ok u =>
            rw [hs] at start
            replace start : (if l.len 4 < 32 + algKey (x.slotAlg l.dstSlot) then .error 7
              else if l.kek then .ok ([l.dstSlot], [], x)
              else do
                x.slotFor l l.keySlot Usage.wrap [2]
                .ok ([l.dstSlot, l.keySlot], [], (x.invoke l.keySlot false).2)) = Except.ok r := start
            split at start
            · cases start
            · split at start
              · exact same start
              · cases hk : x.slotFor l l.keySlot Usage.wrap [2] with
                | error e => rw [hk] at start; cases start
                | ok u => rw [hk] at start; exact Except.ok.inj start ▸ h.invoke
    · split at start
      · exact same start
      · split at start
        · cases start
        · split at start
          · cases start
          · rename_i usage algs _ _ _
            cases hs : x.slotFor l l.keySlot usage algs with
            | error e => rw [hs] at start; cases start
            | ok u =>
              rw [hs] at start
              replace start : (if Usage.invokes usage then .ok ([l.keySlot], (x.invoke l.keySlot (op = 1)).1,
                (x.invoke l.keySlot (op = 1)).2) else .ok ([l.keySlot], [], x)) = Except.ok r := start
              split at start
              · exact Except.ok.inj start ▸ h.invoke
              · exact same start

theorem settleStart {b} (h : Keeps c m x) : Keeps c m (x.settleStart b) := by
  unfold Mach.settleStart
  refine Keeps.ite ?_ h
  split
  · exact h.setLaneB
  · rename_i start
    exact (h.startCheck start).setLaneB

theorem lanesStart (h : Keeps c m x) : Keeps c m (x.lanesStart) := Keeps.ite (h.foldl fun _ _ h => h.settleStart) h

theorem laneDone {b} (h : Keeps c m x) : Keeps c m (x.laneDone b) := h.setLaneB.seqRun

theorem laneReg_ge (b : Nat) : 4 ≤ laneReg b := by
  unfold laneReg
  split
  · simp +arith [Reg.kxLstat]
  · simp +arith [Reg.cxLstat]

theorem laneCount {b r} (h : Keeps c m x) : Keeps c m (x.laneCount b r) := by
  have := laneReg_ge b
  unfold Mach.laneCount
  extract_lets m1 m2
  have hm1 : Keeps c m m1 := (h.count (by omega)).count (by omega)
  have hm2 : Keeps c m m2 := (hm1.count (by omega)).count
  exact Keeps.ite hm1 (Keeps.ite hm2.count hm2)

theorem faultCount_ne (b : Nat) : (if b ≤ 8 then Reg.kxFaults else Reg.cxFaults) ≠ 3 := by
  split
  · decide
  · decide

theorem laneFault {b y f n} (h : Keeps c m x) : Keeps c m (x.laneFault b y f n) := by
  have := laneReg_ge b
  unfold Mach.laneFault
  extract_lets m1
  have hm1 : Keeps c m m1 := h.setFld (by omega)
  exact (Keeps.ite (hm1.count (faultCount_ne b)) hm1).wakeJob

theorem laneSlots {r} (h : Keeps c m x) : Keeps c m (x.laneSlots r).2 := by
  unfold Mach.laneSlots
  extract_lets m1 m2
  have hm1 : Keeps c m m1 := by
    unfold m1
    split
    · exact h.parts
    · exact h
  have hm2 : Keeps c m m2 := by
    unfold m2
    split
    · exact hm1.clearSlot
    · exact hm1
  split
  · exact hm2
  · split
    · exact hm2.loadSlot
    · exact hm2

theorem laneOutput {l r} (h : Keeps false m x) : Keeps false m (x.laneOutput l r).2.2 := by
  unfold Mach.laneOutput
  extract_lets y
  split
  · exact h
  · exact h.jobWrites

theorem laneWrites {l r} (h : Keeps false m x) : Keeps false m (x.laneWrites l r).2.2 :=
  h.laneOutput.jobWrites.jobWrites.jobWrites

theorem laneAnswer {b x1 l r} (h : Keeps false m x) : Keeps false m (x.laneAnswer b x1 l r) := by
  unfold Mach.laneAnswer
  split
  · rename_i x1 fst val m1 heq
    have hheq : Keeps false m m1 := h.laneWrites.becomes (congrArg (·.2.2) heq)
    exact Keeps.ite hheq.laneCount.wakeJob hheq.wakeJob
  · rename_i x1 fst m1 heq
    have hheq : Keeps false m m1 := h.laneWrites.becomes (congrArg (·.2.2) heq)
    split
    · rename_i x2 bad m2 heq1
      have hheq1 : Keeps false m m2 := hheq.laneSlots.becomes (congrArg Prod.snd heq1)
      extract_lets code m3
      have hm3 : Keeps false m m3 := hheq1.laneCount
      exact Keeps.ite hm3.wakeJob hm3.wakeJob

theorem laneEnd {b f} (h : Keeps false m x) : Keeps false m (x.laneEnd b f) := by
  unfold Mach.laneEnd
  extract_lets l
  split
  · refine Keeps.ite h.laneDone (Keeps.ite h.laneFault.laneDone ?_)
    split
    · split
      rename_i m1 done
      have hm1 : Keeps false m m1 := h.laneWrites.becomes (congrArg (·.2.2) done)
      exact h.stalled hm1.laneFault.laneDone
    · exact h.stalled h.laneAnswer.laneDone
  · exact Keeps.ite h.laneDone (Keeps.ite h.laneFault.laneDone h)
  · exact h

theorem laneRegs {b} (h : Keeps c m x) : Keeps c m (x.laneRegs b) := by
  have := laneReg_ge b
  exact h.resetRegs (by simp; omega)

theorem resetLane {b} (h : Keeps c m x) : Keeps c m (x.resetLane b) := by
  unfold Mach.resetLane
  extract_lets m1
  have hm1 : Keeps c m m1 := by
    unfold m1
    split
    · exact Keeps.ite h h.wakeJob
    · exact h
  exact hm1.laneRegs.laneDone.seqReset

theorem laneCtlSet {w b v} (h : Keeps c m x) : Keeps c m (x.laneCtlSet w b v) := by
  have := laneReg_ge b
  unfold Mach.laneCtlSet
  refine Keeps.ite h ?_
  extract_lets m1
  have hm1 : Keeps c m m1 := h.setFld (by omega)
  exact Keeps.ite (Keeps.ite hm1.parts hm1.resetLane) hm1

theorem slotOwnSet {w s v} (h : Keeps c m x) : Keeps c m (x.slotOwnSet w s v) := Keeps.ite h h.setRegAt

theorem slotClrSet {w s v} (h : Keeps c m x) : Keeps c m (x.slotClrSet w s v) := Keeps.ite h h.lanesStart.clearSlot

theorem startCarReset {c1} (h : Keeps c m x) : Keeps c m (x.startCarReset c1) := by
  unfold Mach.startCarReset
  extract_lets m1 m2 gone m3
  have hm1 : Keeps c m m1 := h.setRegAt
  have hm2 : Keeps c m m2 := hm1.setFldAt.setFldAt
  have hm3 : Keeps c m m3 := hm2.foldl fun _ _ h => h.dropJob
  exact Keeps.ite h hm3.parts

theorem carRegs {k} (h : Keeps c m x) : Keeps c m (x.carRegs k) :=
  h.regs (by rw [tabGet_clear, if_neg (by
    simp only [Bool.and_eq_true, decide_eq_true_eq]
    unfold Reg.carStat Reg.modState
    omega)])

theorem carAnswer {t status c1} (h : Keeps c m x) : Keeps c m (x.carAnswer t status c1) := h.setRegAt

theorem freeCarrel {c1} (h : Keeps c m x) : Keeps c m (x.freeCarrel c1) := by
  unfold Mach.freeCarrel
  extract_lets t m1
  have hm1 : Keeps c m m1 := h.carRegs
  exact hm1.parts.carAnswer

theorem endTenReset {t} (h : Keeps c m x) : Keeps c m (x.endTenReset t) := Keeps.ite h.parts.setBp h

theorem carResetDone {c1} (h : Keeps c m x) : Keeps c m (x.carResetDone c1) := by
  unfold Mach.carResetDone
  extract_lets t m1 m2 m3
  have hm1 : Keeps c m m1 := h.parts
  have hm2 : Keeps c m m2 := hm1.setRegAt.setRegAt
  have hm3 : Keeps c m m3 := hm2.setFldAt.setFldAt.setFldAt
  exact Keeps.ite ((Keeps.ite hm3.freeCarrel hm3).endTenReset) h

theorem carResetBound {k} (h : Keeps false m x) : Keeps false m (x.carResetBound k) := by
  unfold Mach.carResetBound
  split
  · extract_lets m1
    have hm1 : Keeps false m m1 := h.foldl fun _ _ h => h.faultEngine
    exact Keeps.ite (hm1.foldl fun _ b h => (h.count (faultCount_ne b)).resetLane) h
  · exact h

theorem createCarrel {sr t pid} (h : Keeps c m x) : Keeps c m (x.createCarrel sr t pid) := by
  unfold Mach.createCarrel
  extract_lets k used st
  split
  · exact h.setFldAt
  · split
    · exact h.setFldAt
    · split
      · exact h.setFldAt
      · extract_lets m1 m2
        have hm1 : Keeps c m m1 := h.carRegs.setRegAt
        have hm2 : Keeps c m m2 := hm1.setRegAt.carAnswer
        exact Keeps.ite h.setFldAt (Keeps.ite hm2.parts hm2)

theorem deleteCarrel {sr t c1} (h : Keeps c m x) : Keeps c m (x.deleteCarrel sr t c1) := by
  unfold Mach.deleteCarrel
  extract_lets m1
  have hm1 : Keeps c m m1 := h.setFldAt.setFldAt
  exact Keeps.ite h.setFldAt hm1.parts.startCarReset

theorem carRequest {w t v} (h : Keeps c m x) : Keeps c m (x.carRequest w t v) :=
  Keeps.ite h (Keeps.ite h.createCarrel (Keeps.ite h.deleteCarrel h.setFldAt))

theorem carError {c1 k} (h : Keeps c m x) : Keeps c m (x.carError c1 k) := h.setRegAt

theorem carCtlSet {c1 v} (h : Keeps c m x) : Keeps c m (x.carCtlSet c1 v) := h.setRegAt.carError

theorem carCtxSet {c1 v} (h : Keeps c m x) : Keeps c m (x.carCtxSet c1 v) := Keeps.ite h.carError (Keeps.ite h.carError h.setRegAt.carError)

theorem carWinSet {k size v} (h : Keeps c m x) : Keeps c m (x.carWinSet k size v) := by
  unfold Mach.carWinSet
  extract_lets b n
  refine Keeps.ite h.carError (Keeps.carError (h.setReg ?_))
  split
  · show _ + _ ≠ _
    omega
  · show _ + _ ≠ _
    omega

theorem carCqSet {c1 size v} (h : Keeps c m x) : Keeps c m (x.carCqSet c1 size v) :=
  Keeps.ite h.carError (Keeps.ite ((Keeps.ite h.setRegAt h).carError) ((Keeps.ite h.setRegAt h).carError))

theorem carTailSet {c1 v} (h : Keeps false m x) : Keeps false m (x.carTailSet c1 v) := Keeps.ite h.carError h.setRegAt.carError.deliver

theorem carStatSet {c1 v} (h : Keeps false m x) : Keeps false m (x.carStatSet c1 v) := by
  unfold Mach.carStatSet
  extract_lets m1 m2
  have hm1 : Keeps false m m1 := Keeps.ite h.setFldAt h
  have hm2 : Keeps false m m2 := Keeps.ite hm1.setFldAt.deliver hm1
  exact hm2.carError

theorem carSet {w c1 o v} (h : Keeps false m x) : Keeps false m (x.carSet w c1 o v) := by
  unfold Mach.carSet
  split
  · exact h
  · split
    · exact h.carStatSet
    · exact h.carCtlSet
    · exact h.carCtxSet
    · exact Keeps.ite h.carWinSet h
    · exact Keeps.ite h.carWinSet h
    · exact h.carCqSet
    · exact h.carCqSet
    · exact h.carTailSet
    · exact Keeps.ite h.startCarReset.carError h.carError
    · exact h

theorem tenCtlSet {w t v} (h : Keeps c m x) : Keeps c m (x.tenCtlSet w t v) := by
  unfold Mach.tenCtlSet
  extract_lets a sr share mask m1 m2 d
  have hm1 : Keeps c m m1 := h.setRegAt
  have hm2 : Keeps c m m2 := Keeps.ite hm1.ledgerWriteAt hm1
  exact Keeps.ite h (Keeps.ite hm2.notice (Keeps.ite hm2 hm2.ledgerWriteAt))

theorem clearTenInts {t} (h : Keeps c m x) : Keeps c m (x.clearTenInts t) :=
  h.regs (by rw [tabGet_clear]; simp [Reg.modState, Reg.intStat])

theorem tenRegs {t} (h : Keeps c m x) : Keeps c m (x.tenRegs t) := by
  unfold Mach.tenRegs
  exact (h.resetRegs (by
    rw [Bool.eq_false_iff]
    simp only [ne_eq, Bool.or_eq_true, Bool.and_eq_true, decide_eq_true_eq]
    unfold Reg.tenStat Reg.noteStat
    omega)).setNoteq.clearTenInts.setFldAt

theorem startTenReset {t} (h : Keeps c m x) : Keeps c m (x.startTenReset t) := by
  unfold Mach.startTenReset
  extract_lets m1 m2 m3
  have hm1 : Keeps c m m1 := h.parts.setBp
  have hm2 : Keeps c m m2 := hm1.foldl fun _ _ h => h.startCarReset
  have hm3 : Keeps c m m3 := hm2.foldl fun _ _ h => h.setFldAt
  exact Keeps.ite h hm3.tenRegs.endTenReset

theorem tenResetSet {w t v} (h : Keeps c m x) : Keeps c m (x.tenResetSet w t v) := Keeps.ite h.startTenReset h

theorem newMarks {t} (h : Keeps c m x) : Keeps c m (x.newMarks t) := by
  unfold Mach.newMarks
  extract_lets c1 c11 m1 src
  have hm1 : Keeps c m m1 := h.setRegAt.setFldAt.setFldAt
  have hsrc : Keeps c m src := hm1.setRegAt
  exact hsrc.parts

theorem mplCtlSet {w t v} (h : Keeps c m x) : Keeps c m (x.mplCtlSet w t v) := by
  unfold Mach.mplCtlSet
  extract_lets m1
  have hm1 : Keeps c m m1 := h.setFldAt
  exact Keeps.ite h (Keeps.ite hm1.newMarks hm1)

theorem zeroWords {a n} (h : Keeps false m x) : Keeps false m (x.zeroWords a n) := by
  unfold Mach.zeroWords
  extract_lets lines m1
  have hm1 : Keeps false m m1 := h.foldl fun _ _ h => h.snoopLine
  exact hm1.memory (tabWf_clear _ _ _)

theorem clearDone {t} (h : Keeps false m x) : Keeps false m (x.clearDone t) := by
  unfold Mach.clearDone
  extract_lets m1
  have hm1 : Keeps false m m1 := h.zeroWords
  exact Keeps.ite hm1.parts.setRegAt h

theorem mplTailSet {w t v} (h : Keeps c m x) : Keeps c m (x.mplTailSet w t v) := Keeps.ite h h.setRegAt.setFldAt

theorem tenSet {w t o v} (h : Keeps c m x) : Keeps c m (x.tenSet w t o v) := by
  unfold Mach.tenSet
  split
  · exact h.tenCtlSet
  · exact Keeps.ite h.setRegAt h
  · exact h.carRequest
  · exact h.tenResetSet
  · exact Keeps.ite h.setRegAt h
  · exact h.mplTailSet
  · exact Keeps.ite h.setRegAt h
  · exact Keeps.ite h.setRegAt h
  · exact h.mplCtlSet
  · exact h

theorem setTraining {d} (h : Keeps false m x) : Keeps false m (x.setTraining d) := h.units.setFld

theorem failDevice {d cause} (h : Keeps false m x) : Keeps false m (x.failDevice d cause) := by
  unfold Mach.failDevice
  extract_lets g m1 src m2 s m21 m3
  have hm1 : Keeps false m m1 := h.setRegAt
  have hm2 : Keeps false m m2 := Keeps.ite hm1.setTraining (Keeps.ite hm1.units hm1)
  have hm21 : Keeps false m m21 := hm2.setFldAt
  have hm3 : Keeps false m m3 := Keeps.ite hm21.raise hm21.memAlarm
  exact Keeps.ite h ((Keeps.ite hm3.memAlarm hm3).refreshHealth)

theorem countRebuild {d} (h : Keeps false m x) : Keeps false m (x.countRebuild d) := by
  unfold Mach.countRebuild
  extract_lets sec n old src m1
  have hm1 : Keeps false m m1 := h.units
  exact Keeps.ite hm1.failDevice hm1

theorem poisonAll {line cs} (h : Keeps false m x) : Keeps false m (x.poisonAll line cs) := h.foldl fun _ _ h => Keeps.ite h h.poison

theorem correct {line cs} (h : Keeps c m x) : Keeps c m (x.correct line cs) := h.foldl fun _ _ h => h.count.countAt

theorem abandonTraining {g} (h : Keeps false m x) : Keeps false m (x.abandonTraining g) := by
  unfold Mach.abandonTraining
  split
  · exact h.setFldAt.setTraining
  · exact h

theorem readCheck {line e0} (h : Keeps false m x) : Keeps false m (x.readCheck line e0) := by
  unfold Mach.readCheck
  extract_lets g failed seen m1 e live multi m11
  have hm1 : Keeps false m m1 := Keeps.ite h h.abandonTraining
  have hm11 : Keeps false m m11 := hm1.correct
  split
  · exact hm11.poisonAll
  · split
    · exact Keeps.ite hm11.countRebuild hm11
    · split
      · exact Keeps.ite hm11.count.countRebuild hm11.poisonAll
      · exact hm11.poisonAll

theorem lineRead {line} (h : Keeps false m x) : Keeps false m (x.lineRead line) := Keeps.ite h.readCheck h

theorem trainStart (h : Keeps false m x) : Keeps false m (x.trainStart) := by
  unfold Mach.trainStart
  split
  · exact h
  · split
    · exact Keeps.ite h.units.setFldAt.setTraining h
    · exact h

theorem trainEnd {pass} (h : Keeps false m x) : Keeps false m (x.trainEnd pass) := by
  unfold Mach.trainEnd
  split
  · exact h
  · extract_lets m1 fails src m2
    have hm1 : Keeps false m m1 := h.setFldAt.setTraining
    have hm2 : Keeps false m m2 := hm1.units
    exact Keeps.ite hm2.countAt (Keeps.ite hm2.failDevice hm2)

theorem deviceFail {d cause} (h : Keeps false m x) : Keeps false m (x.deviceFail d cause) := Keeps.ite h.failDevice h

theorem scrubLine {e} (h : Keeps false m x) : Keeps false m (x.scrubLine e) := by
  unfold Mach.scrubLine
  extract_lets l m1 p src m2
  have hm1 : Keeps false m m1 := Keeps.ite h h.readCheck
  have hm2 : Keeps false m m2 := Keeps.ite hm1.units hm1
  exact Keeps.ite h hm2.setReg

theorem rewritePage {page tag} (h : Keeps false m x) : Keeps false m (x.rewritePage page tag) := by
  unfold Mach.rewritePage
  extract_lets m1 k
  have hm1 : Keeps false m m1 := h.foldl fun _ _ h => h.snoopLine
  exact hm1.memory (wf_spliceConts _ _ _)

theorem srCount (h : Keeps c m x) : Keeps c m (x.srCount) := h.setFld

theorem markSr {page set} (h : Keeps false m x) : Keeps false m (x.markSr page set) := by
  unfold Mach.markSr
  extract_lets m1 src
  have hm1 : Keeps false m m1 := h.rewritePage
  exact hm1.units.srCount

theorem srPageSet {w v} (h : Keeps false m x) : Keeps false m (x.srPageSet w v) := Keeps.ite h (Keeps.ite h.setFld h.units.setReg)

theorem srPageDone (h : Keeps false m x) : Keeps false m (x.srPageDone) := by
  unfold Mach.srPageDone
  split
  · exact h
  · extract_lets m1 src
    have hm1 : Keeps false m m1 := Keeps.ite h h.markSr
    exact hm1.units.setFld

theorem chgReqSet {w v} (h : Keeps false m x) : Keeps false m (x.chgReqSet w v) := by
  unfold Mach.chgReqSet
  extract_lets m1 p src
  have hm1 : Keeps false m m1 := h.setReg
  exact Keeps.ite h (Keeps.ite hm1 (Keeps.ite hm1.setReg hm1.units.setReg.setFld))

theorem wf_clearedChg (l : List Nat) (p : Nat) (mem : List Host.Cell) (h : Memory.wf mem = true) :
    Memory.wf (l.foldl (fun y i =>
      let k := contAt y (4096 * p + i)
      if k.chg then putCont y (4096 * p + i) { k with chg := false } else y) mem) = true := by
  induction l generalizing mem with
  | nil => exact h
  | cons i l ih =>
    refine ih _ ?_
    dsimp only
    split
    · exact wf_putCont _ _ _ h
    · exact h

theorem chgScanDone (h : Keeps false m x) : Keeps false m x.chgScanDone := by
  unfold Mach.chgScanDone
  split
  · exact h
  · rename_i p clear _
    extract_lets any m1
    have hm1 : Keeps false m m1 := by
      unfold m1
      split
      · exact h.memory (wf_clearedChg _ p _)
      · exact h
    exact hm1.units.setReg.setFld

theorem memInitDone {failed} (h : Keeps false m x) : Keeps false m (x.memInitDone failed) := by
  unfold Mach.memInitDone
  exact Keeps.ite ((h.memory fun _ => wf_nil).setFld.foldl fun _ _ h => h.failDevice) h

theorem memCtlSet {w v} (h : Keeps c m x) : Keeps c m (x.memCtlSet w v) := by
  unfold Mach.memCtlSet
  extract_lets a m1 h1 m2
  have hm1 : Keeps c m m1 := Keeps.ite h h.setFld
  have hm2 : Keeps c m m2 := Keeps.ite hm1.setFld hm1
  exact Keeps.ite h (Keeps.ite hm2 hm2.setFld)

theorem memAlarmSet {w v} (h : Keeps c m x) : Keeps c m (x.memAlarmSet w v) := Keeps.ite h.memAlarm h

end Keeps

end Sys2Proof.Machine
end

section
/-! PROOFS. What a core's acts keep. -/

-- One proof after the other: so many at once would need more threads than the check has memory for.
set_option Elab.async false

namespace Sys2Proof.Machine

open Sys2Proof

/-- What an action leaves, from a state that `m` keeps: a state that `m` keeps, also where it raises an exception. -/
def After (m : Mach) {α : Type} : Except Exc (α × Mach) → Prop
  | .ok r => Keeps false m r.2
  | .error e => Keeps false m e.at_

theorem After.ite {m : Mach} {α : Type} {p : Prop} [Decidable p] {a b : Except Exc (α × Mach)} (ha : After m a) (hb : After m b) :
    After m (if p then a else b) := by
  split
  · exact ha
  · exact hb

/-- An action keeps what `Keeps` says. -/
def Keeping {α : Type} (a : CoreAct α) : Prop := ∀ ⦃m x : Mach⦄, Keeps false m x → After m (a x)

namespace Keeping

variable {α β : Type}

theorem pure {r : α} : Keeping (Pure.pure r : CoreAct α) := fun _ _ h => h

theorem bind {a : CoreAct α} {b : α → CoreAct β} (ha : Keeping a) (hb : ∀ r, Keeping (b r)) : Keeping (a >>= b) := by
  intro m x h
  have done := ha h
  cases e : a x with
  | ok r => rw [coreBind_ok _ _ _ _ _ e]; rw [e] at done; exact hb r.1 done
  | error f => rw [coreBind_error e]; rw [e] at done; exact done

theorem ite {p : Prop} [Decidable p] {a b : CoreAct α} (ha : Keeping a) (hb : Keeping b) : Keeping (if p then a else b) := by
  split
  · exact ha
  · exact hb

theorem modMach {f : Mach → Mach} (hf : ∀ {m x}, Keeps false m x → Keeps false m (f x)) : Keeping (Machine.modMach f) :=
  fun _ _ h => hf h

/-- An action that only looks at the state. -/
theorem look {f : Mach → α} : Keeping (fun m => .ok (f m, m) : CoreAct α) := fun _ _ h => h

theorem coreExc {cause detail page : Nat} : Keeping (Machine.coreExc cause detail page : CoreAct α) := fun _ _ h => h

end Keeping

/-- What an instruction's body leaves: a state that `m` keeps, as is the state of an exception it raises or reports. -/
def Landed (m : Mach) : Except Exc (Flow × Mach) → Prop
  | .ok r => Keeps false m r.2 ∧ ∀ e, r.1 = .fault e → Keeps false m e.at_
  | .error e => Keeps false m e.at_

/-- An instruction's body keeps what `Keeps` says. -/
def Flowing (a : CoreAct Flow) : Prop := ∀ ⦃m x : Mach⦄, Keeps false m x → Landed m (a x)

/-- What follows a body passes its flow on. -/
def Passes (f : Flow) (a : CoreAct Flow) : Prop :=
  ∀ ⦃m x : Mach⦄, Keeps false m x → (∀ e, f = .fault e → Keeps false m e.at_) → Landed m (a x)

theorem Passes.pure {f : Flow} : Passes f (Pure.pure f) := fun _ _ h hf => ⟨h, hf⟩

theorem Passes.bind {α : Type} {f : Flow} {a : CoreAct α} {b : α → CoreAct Flow} (ha : Keeping a) (hb : ∀ r, Passes f (b r)) :
    Passes f (a >>= b) := by
  intro m x h hf
  have done := ha h
  cases e : a x with
  | ok r => rw [coreBind_ok _ _ _ _ _ e]; rw [e] at done; exact hb r.1 done hf
  | error f => rw [coreBind_error e]; rw [e] at done; exact done

namespace Flowing

variable {α : Type}

theorem pure {r : Flow} (plain : ∀ e, r ≠ .fault e := by exact fun _ e => nomatch e) : Flowing (Pure.pure r : CoreAct Flow) :=
  fun _ _ h => ⟨h, fun e f => absurd f (plain e)⟩

theorem bind {a : CoreAct α} {b : α → CoreAct Flow} (ha : Keeping a) (hb : ∀ r, Flowing (b r)) : Flowing (a >>= b) := by
  intro m x h
  have done := ha h
  cases e : a x with
  | ok r => rw [coreBind_ok _ _ _ _ _ e]; rw [e] at done; exact hb r.1 done
  | error f => rw [coreBind_error e]; rw [e] at done; exact done

theorem passes {a : CoreAct Flow} {b : Flow → CoreAct Flow} (ha : Flowing a) (hb : ∀ f, Passes f (b f)) : Flowing (a >>= b) := by
  intro m x h
  have done := ha h
  cases e : a x with
  | ok r => rw [coreBind_ok _ _ _ _ _ e]; rw [e] at done; exact hb r.1 done.1 done.2
  | error f => rw [coreBind_error e]; rw [e] at done; exact done

theorem ite {p : Prop} [Decidable p] {a b : CoreAct Flow} (ha : Flowing a) (hb : Flowing b) : Flowing (if p then a else b) := by
  split
  · exact ha
  · exact hb

theorem coreExc {cause detail page : Nat} : Flowing (Machine.coreExc cause detail page) := fun _ _ h => h

end Flowing

variable {c : Bool} {m x : Mach}

/-- A spill keeps what the access under it keeps. -/
theorem Keeping.asSpill {α : Type} {a : CoreAct α} (ha : Keeping a) : Keeping (Machine.asSpill a) := by
  intro m x h
  have done := ha h
  unfold Machine.asSpill
  cases e : a x with
  | ok r => rw [e] at done; exact done
  | error f => rw [e] at done; exact done

theorem Keeps.setArch {q a} (h : Keeps false m x) : Keeps false m (x.setArch q a) := h.setSeat

theorem Keeping.getArch {q} : Keeping (Machine.getArch q) := .look

theorem Keeping.setArch {q a} : Keeping (Machine.setArch q a) := .modMach fun h => h.setArch

theorem Keeps.pmc {q ev n} (h : Keeps false m x) : Keeps false m (x.pmc q ev n) := Keeps.ite h h.setArch

theorem Keeps.pmcFree {q fold} (h : Keeps false m x) : Keeps false m (x.pmcFree q fold) := by
  unfold Mach.pmcFree
  refine h.foldl fun y b hy => ?_
  split
  · split
    · rename_i x off m1 heq
      have hheq : Keeps false m m1 := hy.draw.becomes (congrArg Prod.snd heq)
      exact hheq.pmc
  · exact hy

theorem Keeps.noteNs {q e} (h : Keeps false m x) : Keeps false m (x.noteNs q e) := h.setSeat

theorem Keeps.clusterDrop {c1 line} (h : Keeps false m x) : Keeps false m (x.clusterDrop c1 line) := by
  unfold Mach.clusterDrop
  refine h.foldl fun y b hy => ?_
  extract_lets x1
  have hx1 : Keeps false m x1 := by
    unfold x1
    split
    · exact hy.writeLine
    · exact hy
  exact Keeps.ite hy (Keeps.ite hx1 hx1.setSeat)

theorem Keeps.stacksUse {k line} (h : Keeps false m x) : Keeps false m (x.stacksUse k line).2 := by
  unfold Mach.stacksUse
  extract_lets key set
  split
  · exact h.parts
  · split
    rename_i gone keep _
    extract_lets m1 m2
    have hm1 : Keeps false m m1 := by
      unfold m1
      split
      · exact h.clusterDrop
      · exact h
    have hm2 : Keeps false m m2 := hm1.parts
    dsimp only
    split
    · exact Keeps.ite hm2.toGroup hm2
    · exact hm2

theorem Keeps.fillsDone {q} (h : Keeps false m x) : Keeps false m (x.fillsDone q) := Keeps.ite h h.setSeat

theorem Keeps.writeBack {q} (h : Keeps false m x) : Keeps false m (x.writeBack q) := by
  unfold Mach.writeBack
  extract_lets s
  split
  · exact h.writeLine.setSeat
  · exact h

theorem Keeps.fill {q line} (h : Keeps false m x) : Keeps false m (x.fill q line).2 := by
  unfold Mach.fill
  extract_lets m1 i old dirty m2 s s1 lock m3
  have hm3 : Keeps false m m3 := (Keeps.ite h.fillsDone.writeBack.noteNs h.fillsDone).setSeat
  split
  rename_i hit m4 e
  have hm4 : Keeps false m m4 := hm3.stacksUse.becomes (congrArg Prod.snd e)
  exact Keeps.ite hm4 hm4.noteNs

theorem Keeps.nsAccess {q line} (h : Keeps false m x) : Keeps false m (x.nsAccess q line) :=
  Keeps.ite h.noteNs (Keeps.ite h.noteNs h.snoopRead.fill.noteNs)

theorem Keeps.nsCount {q e} (h : Keeps false m x) : Keeps false m (Mach.nsCount q x e) := by
  unfold Mach.nsCount
  split
  · refine Keeps.pmc ?_
    split
    · exact h.setSeat
    · exact h
  · exact h.pmc
  · exact h.pmc
  · exact h.pmc
  · exact h.pmc
  · exact h.pmc

theorem Keeps.nsRetire {q} (h : Keeps false m x) : Keeps false m (x.nsRetire q) := Keeps.ite h (h.setSeat.foldl fun _ _ h => h.nsCount)

theorem Keeps.settle {q line} (h : Keeps false m x) : Keeps false m (x.settle q line) := Keeps.ite h.fillsDone h

theorem Keeps.writeBackTo {q line n} (h : Keeps false m x) : Keeps false m (Mach.writeBackTo q line n x) := by
  induction n generalizing x with
  | zero => exact h
  | succ n ih =>
    unfold Mach.writeBackTo
    exact Keeps.ite (ih h.writeBack) h

theorem Keeps.cleanEnt {q i} (h : Keeps false m x) : Keeps false m (x.cleanEnt q i) := by
  unfold Mach.cleanEnt
  extract_lets e m1
  have hm1 : Keeps false m m1 := h.writeLine
  exact Keeps.ite hm1.setSeat h

theorem Keeps.dropEnt {q i} (h : Keeps false m x) : Keeps false m (x.dropEnt q i) := h.setSeat

theorem Keeps.cleanLine {q line} (h : Keeps false m x) : Keeps false m (x.cleanLine q line) := by
  unfold Mach.cleanLine
  extract_lets m1
  have hm1 : Keeps false m m1 := h.settle
  split
  · exact hm1.cleanEnt
  · exact hm1.writeBackTo

theorem Keeps.flushLine {q line} (h : Keeps false m x) : Keeps false m (x.flushLine q line) := by
  unfold Mach.flushLine
  extract_lets m1
  have hm1 : Keeps false m m1 := h.cleanLine
  split
  · exact hm1.dropEnt
  · exact hm1

theorem Keeps.cleanAll {line} (h : Keeps false m x) : Keeps false m (x.cleanAll line) := by
  unfold Mach.cleanAll
  extract_lets m1
  have hm1 : Keeps false m m1 := by
    unfold m1
    refine h.foldl fun y b hy => ?_
    split
    · exact Keeps.ite hy hy.writeLine.setSeat
    · exact hy
  exact Keeps.ite hm1.toGroup hm1

theorem Keeps.removeAll {line} (h : Keeps false m x) : Keeps false m (x.removeAll line) := by
  unfold Mach.removeAll
  extract_lets m1
  have hm1 : Keeps false m m1 := h.cleanAll.snoopLine
  exact hm1.units

theorem Keeps.nsStore {q a v} (h : Keeps false m x) : Keeps false m (x.nsStore q a v) := by
  unfold Mach.nsStore
  extract_lets line m1 s s0
  have hm1 : Keeps false m m1 := h.snoopLine
  refine Keeps.ite h.snoopLine.poison (Keeps.ite hm1.setSeat ?_)
  split
  rename_i i m2 e
  have hm2 : Keeps false m m2 := by
    split at e
    · exact hm1.setSeat.becomes (congrArg Prod.snd e)
    · exact hm1.setSeat.fill.becomes (congrArg Prod.snd e)
  exact hm2.setSeat

theorem Keeps.keepOld {q a} (h : Keeps false m x) : Keeps false m (x.keepOld q a) := Keeps.ite h h.setSeat

theorem Keeps.drainOne {q e} (h : Keeps false m x) : Keeps false m (Mach.drainOne q x e) := by
  unfold Mach.drainOne
  extract_lets line m0 m1
  have hm0 : Keeps false m m0 := h.keepOld
  have hm1 : Keeps false m m1 := Keeps.ite (Keeps.ite hm0.snoopLine.poison hm0.put) h.nsStore
  split
  · exact hm1
  · exact hm1.cleanLine
  · exact hm1.flushLine
  · exact hm1.cleanAll
  · exact hm1.removeAll

theorem Keeps.drain {q} (h : Keeps false m x) : Keeps false m (x.drain q) := Keeps.ite h (h.setSeat.foldl fun _ _ h => h.drainOne)

theorem Keeps.markStores {q line k} (h : Keeps false m x) : Keeps false m (x.markStores q line k) := Keeps.ite h h.setSeat

theorem Keeps.loseStores {q line} (h : Keeps false m x) : Keeps false m (x.loseStores q line) := Keeps.ite h h.setSeat

theorem Keeping.pageEntry {q sr root vpage} : Keeping (Machine.pageEntry q sr root vpage) := by
  intro m x h
  unfold Machine.pageEntry
  extract_lets s held rest put
  split
  · exact h.setSeat
  · exact h
  · refine After.ite h ?_
    split
    rename_i m1 e
    have hm1 : Keeps false m m1 := h.draw.becomes (congrArg Prod.snd e)
    refine After.ite hm1 ?_
    split
    · exact hm1.setSeat
    · exact hm1

theorem Keeping.xlate {q wld a k} : Keeping (Machine.xlate q wld a k) := by
  intro m x h
  unfold Machine.xlate
  extract_lets sr root va vp
  refine After.ite (After.ite h (After.ite h h)) ?_
  have held := Keeping.pageEntry (q := q) (sr := sr) (root := root) (vpage := vp) h
  split
  · rename_i e
    rw [e] at held
    exact held
  · rename_i e
    rw [e] at held
    exact After.ite held (After.ite held (After.ite held held))

theorem Keeping.checkCont {q wld a k p c} : Keeping (Machine.checkCont q wld a k p c) := by
  intro m x h
  exact After.ite h (After.ite h (After.ite h h))

theorem Keeps.lineSeen {q line} (h : Keeps false m x) : Keeps false m (x.lineSeen q line) := Keeps.ite h h.lineRead

theorem Keeping.loadAt {q wld a} : Keeping (Machine.loadAt q wld a) := by
  unfold Machine.loadAt
  exact .bind .xlate fun ⟨_, _⟩ => .bind (.modMach fun h => h.lineSeen) fun _ => .bind .look fun _ => .bind .checkCont fun _ =>
    .bind (.modMach fun h => h.nsAccess) fun _ => .pure

theorem Keeping.storeOk {q wld a k} : Keeping (Machine.storeOk q wld a k) :=
  .bind .xlate fun ⟨_, _⟩ => .bind (.modMach fun h => h.lineSeen) fun _ => .bind .look fun _ => .bind .checkCont fun _ => .pure

theorem Keeping.storePut {q wld p s k v} : Keeping (Machine.storePut q wld p s k v) := .modMach fun h => (Keeps.ite h h.nsAccess).setSeat

theorem Keeping.storeAt {q wld a k v} : Keeping (Machine.storeAt q wld a k v) := .bind .storeOk fun ⟨_, _⟩ => .storePut

theorem Keeping.stackCheck {q rs pops pushes} : Keeping (Machine.stackCheck q rs pops pushes) := by
  intro m x h
  unfold Machine.stackCheck
  split
  · exact h
  · exact h

theorem Keeping.popStk {q rs} : Keeping (Machine.popStk q rs) := by
  unfold Machine.popStk
  refine .bind .getArch fun a => ?_
  split
  · exact .bind .setArch fun _ => .pure
  · exact .bind (.asSpill .loadAt) fun _ => .bind .getArch fun _ => .bind .setArch fun _ => .pure

theorem Keeping.pushStk {q rs w} : Keeping (Machine.pushStk q rs w) := by
  unfold Machine.pushStk
  refine .bind .getArch fun a => ?_
  extract_lets rest
  have hrest : ∀ u, Keeping (rest u) := fun u => by
    unfold rest
    exact .bind .getArch fun _ => .setArch
  split
  · exact .bind (.asSpill .storeAt) fun _ => hrest ⟨⟩
  · exact hrest ⟨⟩

theorem Keeping.popN {q a} : Keeping (Machine.popN q a) := by
  unfold Machine.popN
  split
  · exact .pure
  · exact .bind .popStk fun _ => .bind .popN fun _ => .pure

theorem Keeping.pushAll {q a} : Keeping (Machine.pushAll q a) := by
  unfold Machine.pushAll
  split
  · exact .pure
  · exact .bind .pushStk fun _ => .pushAll

theorem Keeping.stackOp {q pops pushes f} (hf : ∀ l, Keeping (f l)) : Keeping (Machine.stackOp q pops pushes f) :=
  .bind .stackCheck fun _ => .bind .popN fun _ => .bind (hf _) fun _ => .pushAll

theorem Keeping.spillList {q wld p a} : Keeping (Machine.spillList q wld p a) := by
  unfold Machine.spillList
  split
  · exact .pure
  · exact .bind .spillList fun _ => .asSpill .storeAt

theorem Keeping.spillStk {q rs} : Keeping (Machine.spillStk q rs) :=
  .bind .getArch fun _ => .bind .spillList fun _ => .bind .getArch fun _ => .setArch

theorem Keeps.cluEvent {c1 cause seat src dst retries} (h : Keeps c m x) : Keeps c m (x.cluEvent c1 cause seat src dst retries) :=
  h.setRegAt.raise

theorem Keeps.setSeatState {q st} (h : Keeps c m x) : Keeps c m (x.setSeatState q st) := h.setFldAt

theorem Keeps.beginMove {q u cause} (h : Keeps false m x) : Keeps false m (x.beginMove q u cause) := by
  unfold Mach.beginMove
  exact h.setRegAt.setRegAt.setSeatState.setSeat

theorem Keeps.atCheckpoint {q} (h : Keeps false m x) : Keeps false m (x.atCheckpoint q) := by
  unfold Mach.atCheckpoint
  extract_lets s
  split
  · exact Keeps.ite h.beginMove h
  · exact Keeps.ite h.setSeatState.setSeat h

theorem Keeps.closeGroup {q} (h : Keeps false m x) : Keeps false m (x.closeGroup q) := by
  unfold Mach.closeGroup
  extract_lets m1 s m2 c1 u
  have hm1 : Keeps false m m1 := h.drain
  have hm2 : Keeps false m m2 := hm1.setSeat
  exact Keeps.ite hm2 hm2.countAt.setRegAt.cluEvent

theorem Keeps.endGroup {q} (h : Keeps false m x) : Keeps false m (x.endGroup q) := h.closeGroup.atCheckpoint

theorem Keeps.enterLevel {q h1 cause detail page spill xpc} (h : Keeps false m x) : Keeps false m (x.enterLevel q h1 cause detail page
  spill xpc) := by
  unfold Mach.enterLevel
  extract_lets m1 s src s1 psw a a1 ent
  have hm1 : Keeps false m m1 := h.nsRetire
  exact hm1.setSeat.endGroup

/-- Both ends of the spill of the level left. -/
theorem Keeps.spillsFor {q l} (h : Keeps false m x) :
    (∀ y, x.spillFor q l = .ok y → Keeps false m y) ∧ ∀ e, x.spillFor q l = .error e → Keeps false m e.at_ := by
  have spilt : Keeping (do spillStk q false; spillStk q true : CoreAct Unit) := .bind .spillStk fun _ => .spillStk
  have done := spilt h
  unfold Mach.spillFor
  split
  · exact ⟨fun y e => h.becomes (Except.ok.inj e), fun e f => nomatch f⟩
  · split
    · rename_i e
      rw [e] at done
      exact ⟨fun y g => Keeps.becomes done (Except.ok.inj g), fun e f => nomatch f⟩
    · rename_i e
      rw [e] at done
      exact ⟨fun _ f => (nomatch f), fun e g => Keeps.becomes done (congrArg Exc.at_ (Except.error.inj g))⟩

theorem Keeps.undo {q} {y : Mach} (h : Keeps false m y) : Keeps false m (x.undo q y) := h.setSeat.nsRetire

theorem Keeps.enterExc {q l e xpc} (h : Keeps false m x) : Keeps false m (x.enterExc q l e xpc) := by
  unfold Mach.enterExc
  obtain ⟨spilt, faulted⟩ := h.spillsFor (q := q) (l := l)
  split
  · exact (spilt _ ‹_›).enterLevel
  · exact Keeps.ite (faulted _ ‹_›).undo.enterLevel (faulted _ ‹_›).undo.enterLevel

theorem Keeps.takeExc {q e0 xpc} (h : Keeps false m x) : Keeps false m (x.takeExc q e0 xpc) := by
  unfold Mach.takeExc
  extract_lets a h1 e m1 src
  have hm1 : Keeps false m m1 := h.setArch
  exact Keeps.ite hm1.enterExc (Keeps.ite h.setSeat (Keeps.ite h hm1.enterExc))

theorem Keeps.fpDue {q now} (h : Keeps false m x) : Keeps false m (x.fpDue q now) := by
  unfold Mach.fpDue
  extract_lets a
  split
  · exact Keeps.ite h.takeExc h
  · exact h

theorem Keeps.takeInt {q} (h : Keeps false m x) : Keeps false m (x.takeInt q) := by
  unfold Mach.takeInt
  split
  · exact h
  · extract_lets sr last l
    refine Keeps.ite h.fpDue ?_
    obtain ⟨spilt, faulted⟩ := h.spillsFor (q := q) (l := l)
    split
    · exact (faulted _ ‹_›).undo.enterLevel
    · have other : last ≠ 3 := by
        unfold last
        split
        · show _ + _ ≠ _
          omega
        · show _ + _ ≠ _
          omega
      exact ((spilt _ ‹_›).setRegAt.setReg other).enterLevel

theorem Keeps.fetchLine {q l} (h : Keeps false m x) : Keeps false m (x.fetchLine q l) := by
  unfold Mach.fetchLine
  extract_lets s set m1
  have hm1 : Keeps false m m1 := h.setSeat
  split
  · exact hm1
  · split
    · rename_i x m11 heq
      have hheq : Keeps false m m11 := hm1.stacksUse.becomes (congrArg Prod.snd heq)
      exact hheq.noteNs
    · rename_i x m11 heq
      have hheq : Keeps false m m11 := hm1.stacksUse.becomes (congrArg Prod.snd heq)
      exact hheq.noteNs.noteNs

theorem Keeping.fetchWord {q pc} : Keeping (Machine.fetchWord q pc) := by
  unfold Machine.fetchWord
  exact .bind .getArch fun _ => .bind .xlate fun ⟨_, _⟩ => .bind (.modMach fun h => h.lineSeen) fun _ => .bind .look fun _ =>
    .bind .checkCont fun _ => .bind (.modMach fun h => Keeps.ite h.fetchLine h.setSeat.noteNs.fetchLine) fun _ => .pure

theorem Keeps.wrongFetch {q} (h : Keeps false m x) : Keeps false m (x.wrongFetch q) := by
  unfold Mach.wrongFetch
  split
  rename_i v m1 e
  have hm1 : Keeps false m m1 := h.draw.becomes (congrArg Prod.snd e)
  have fetched := Keeping.fetchWord (q := q) (pc := v % 2 ^ 43) hm1
  split
  · rename_i e
    rw [e] at fetched
    exact Keeps.setSeat fetched
  · exact hm1

theorem Keeps.wrongFetches {q n} (h : Keeps false m x) : Keeps false m (Mach.wrongFetches q n x) := by
  induction n generalizing x with
  | zero => exact h
  | succ n ih => exact ih h.wrongFetch

theorem Keeps.wrongPath {q} (h : Keeps false m x) : Keeps false m (x.wrongPath q) := by
  unfold Mach.wrongPath
  split
  · exact h
  · split
    · rename_i x off m1 heq
      have hheq : Keeps false m m1 := h.draw.becomes (congrArg Prod.snd heq)
      exact hheq.wrongFetches.nsRetire

theorem Keeps.countInstr {q fold} (h : Keeps false m x) : Keeps false m (x.countInstr q fold) := h.nsRetire.pmc.pmcFree

theorem Keeps.endInstr {q act} (h : Keeps false m x) : Keeps false m (x.endInstr q act) := by
  unfold Mach.endInstr
  extract_lets s src s1 m1
  have hm1 : Keeps false m m1 := h.setSeat
  exact Keeps.ite hm1.endGroup (Keeps.ite hm1.drain hm1)

theorem Keeps.retired {q act fold} (h : Keeps false m x) : Keeps false m (x.retired q act fold) := h.countInstr.endInstr

theorem Keeps.retire {q act fold} (h : Keeps false m x) : Keeps false m (x.retire q act fold) := h.retired.fpDue

theorem Keeps.goTo {q pc} (h : Keeps false m x) : Keeps false m (x.goTo q pc) := h.setArch

theorem Keeps.advancePc {q len} (h : Keeps false m x) : Keeps false m (x.advancePc q len) := h.setArch

theorem Keeps.coreEnd {q len pc r} (h : Keeps false m x) (landed : Landed m r) : Keeps false m (x.coreEnd q len pc r) := by
  match r, landed with
  | .error e, landed => exact (Keeps.undo landed).wrongPath.takeExc
  | .ok (.next act, m1), ⟨hm1, _⟩ => exact hm1.advancePc.retire
  | .ok (.solo, m1), ⟨hm1, _⟩ => exact hm1.advancePc.retire
  | .ok (.jump t, m1), ⟨hm1, _⟩ => exact hm1.goTo.retire
  | .ok (.done, m1), ⟨hm1, _⟩ => exact hm1.endInstr.fpDue
  | .ok (.hold, m1), ⟨hm1, _⟩ => exact hm1
  | .ok (.trap e, m1), ⟨hm1, _⟩ => exact Keeps.ite h hm1.retired.wrongPath.takeExc
  | .ok (.fault e, m1), ⟨_, he⟩ => exact (he e rfl).undo.wrongPath.takeExc
  | .ok (.again, m1), ⟨hm1, _⟩ => exact hm1.setSeat.takeInt

theorem Keeping.fetchInstr {q len pc} : Keeping (Machine.fetchInstr q len pc) := .bind .fetchWord fun _ => .ite .coreExc .pure

theorem Keeps.cleanUnit {q} (h : Keeps false m x) : Keeps false m (x.cleanUnit q) := by
  unfold Mach.cleanUnit
  extract_lets s m1 m2 src
  have hm1 : Keeps false m m1 := h.foldl fun _ _ h => Keeps.ite h.writeLine h
  have hm2 : Keeps false m m2 := hm1.foldl fun _ _ h => h.writeLine
  exact hm2.setSeat

theorem Keeps.resetSeat {q} (h : Keeps false m x) : Keeps false m (x.resetSeat q) := by
  unfold Mach.resetSeat
  extract_lets m1 a m2 m3 m4
  have hm1 : Keeps false m m1 := h.cleanUnit
  have hm2 : Keeps false m m2 := hm1.setSeat
  have hm3 : Keeps false m m3 := hm2.setRegAt
  have hm4 : Keeps false m m4 := hm3.setRegAt.setSeatState
  exact hm4.enterLevel

theorem Keeps.lateReset {q} (h : Keeps false m x) : Keeps false m (x.lateReset q) := Keeps.ite h.resetSeat h

theorem Keeps.coreRun {q len body} (h : Keeps false m x) (flow : Flowing body) : Keeps false m (x.coreRun q len body) := by
  have run : Flowing (do fetchInstr q len (x.arch q).pc; body : CoreAct Flow) := .bind .fetchInstr fun _ => flow
  exact Keeps.ite (Keeps.ite h.fpDue (h.stalled (h.coreEnd (run h))).lateReset) h

theorem Keeping.needLevel {q p} : Keeping (Machine.needLevel q p) := .bind .getArch fun _ => .ite .pure .coreExc

theorem Keeping.decWidth {n} : Keeping (Machine.decWidth n) := .ite .pure .coreExc

theorem Keeping.xferCount {n} : Keeping (Machine.xferCount n) := .ite .pure .coreExc

theorem Keeping.cellNamed {c} : Keeping (Machine.cellNamed c) := .ite .coreExc .pure

theorem Keeping.cellCheck {wld c write} : Keeping (Machine.cellCheck wld c write) := .bind .cellNamed fun _ => .ite .coreExc .pure

theorem Flowing.dsBody {q pops pushes f} (hf : ∀ l, Keeping (f l)) : Flowing (Machine.dsBody q pops pushes f) :=
  .bind (.stackOp hf) fun _ => .pure

theorem Flowing.oneBody {q f} : Flowing (Machine.oneBody q f) := .dsBody fun _ => .pure

theorem Flowing.twoBody {q f} : Flowing (Machine.twoBody q f) := .dsBody fun _ => .pure

theorem Flowing.twoBodyV {q f} : Flowing (Machine.twoBodyV q f) := .dsBody fun _ => .bind .getArch fun _ => .bind .setArch fun _ => .pure

theorem Flowing.divBody {q f} : Flowing (Machine.divBody q f) := by
  refine .dsBody fun l => ?_
  have rest : Keeping (do
      let r := f (l.getD 0 0) (l.getD 1 0)
      let a ← Machine.getArch q
      Machine.setArch q (a.raiseV r.2)
      Pure.pure [r.1]) := .bind .getArch fun _ => .bind .setArch fun _ => .pure
  exact .ite (.bind .coreExc fun _ => rest) rest

theorem Flowing.litBody {q w} : Flowing (Machine.litBody q w) := .dsBody fun _ => .pure

theorem Flowing.litwBody {q} : Flowing (Machine.litwBody q) := by
  unfold Machine.litwBody
  exact .dsBody fun _ => .bind .getArch fun _ => .bind .fetchWord fun _ => .bind (.modMach fun h => h.setSeat) fun _ =>
    .bind .getArch fun _ => .bind .setArch fun _ => .pure

theorem Keeping.readDepth {q d} : Keeping (Machine.readDepth q d) := by
  unfold Machine.readDepth
  refine .bind .getArch fun a => ?_
  extract_lets rest
  have hrest : ∀ u, Keeping (rest u) := fun u => by
    unfold rest
    split
    · exact .pure
    · exact .asSpill .loadAt
  split
  · exact .bind .coreExc fun _ => hrest ⟨⟩
  · exact hrest ⟨⟩

theorem Keeping.writeDepth {q d w} : Keeping (Machine.writeDepth q d w) := by
  unfold Machine.writeDepth
  refine .bind .getArch fun a => ?_
  extract_lets rest
  have hrest : ∀ u, Keeping (rest u) := fun u => by
    unfold rest
    exact .ite .setArch (.asSpill .storeAt)
  split
  · exact .bind .coreExc fun _ => hrest ⟨⟩
  · exact hrest ⟨⟩

theorem Flowing.pickBody {q} : Flowing (Machine.pickBody q) := .dsBody fun _ => .bind .readDepth fun _ => .pure

theorem Flowing.putBody {q} : Flowing (Machine.putBody q) := .dsBody fun _ => .bind .writeDepth fun _ => .pure

theorem Flowing.torBody {q} : Flowing (Machine.torBody q) :=
  .bind .stackCheck fun _ => .bind .stackCheck fun _ => .bind .popStk fun _ => .bind .pushStk fun _ => .pure

theorem Flowing.fromrBody {q} : Flowing (Machine.fromrBody q) :=
  .bind .stackCheck fun _ => .bind .stackCheck fun _ => .bind .popStk fun _ => .bind .pushStk fun _ => .pure

theorem Flowing.peekrBody {q} : Flowing (Machine.peekrBody q) :=
  .bind .stackCheck fun _ => .bind .stackCheck fun _ => .bind .popStk fun _ => .bind .pushStk fun _ => .bind .pushStk fun _ => .pure

theorem Flowing.illegalBody {q op op2} : Flowing (Machine.illegalBody q op op2) := by
  unfold Machine.illegalBody
  refine .bind .getArch fun a => ?_
  split
  · exact .coreExc
  · exact .ite .coreExc .pure

theorem Flowing.decBody {q n f} : Flowing (Machine.decBody q n f) := by
  unfold Machine.decBody
  refine .bind .decWidth fun k => .bind .stackCheck fun _ => .bind .popN fun l => ?_
  extract_lets db da
  split
  · exact .coreExc
  · refine .bind .pushAll fun _ => .bind .getArch fun a => .ite (.bind .setArch fun _ => ?_) .pure
    have trapped : Flowing (Pure.pure (.trap { cause := Cause.dovf, detail := dovfDetail a.pc 2 a.litk })) := .pure
    exact .ite (.ite (.bind .coreExc fun _ => trapped) trapped) .pure

theorem Flowing.dcmpBody {q n} : Flowing (Machine.dcmpBody q n) := by
  unfold Machine.dcmpBody
  refine .bind .decWidth fun k => ?_
  refine .bind .stackCheck fun _ => ?_
  refine .bind .popN fun l => ?_
  split
  · exact .coreExc
  · exact .bind .pushStk fun _ => .pure

theorem Flowing.dchkBody {q n} : Flowing (Machine.dchkBody q n) :=
  .bind .decWidth fun _ => .bind .stackCheck fun _ => .bind .popN fun _ => .bind .pushAll fun _ => .bind .pushStk fun _ => .pure

theorem Flowing.fpBody {q pops pushes f} : Flowing (Machine.fpBody q pops pushes f) :=
  .dsBody fun _ => .bind .getArch fun _ => .bind .setArch fun _ => .pure

theorem Flowing.fbarBody {q} : Flowing (Machine.fbarBody q) := .bind .getArch fun _ => .bind .setArch fun _ => .pure

end Sys2Proof.Machine
end

section
/-! PROOFS. What the acts of cores, lanes, registers and the strongroom keep. -/

-- One proof after the other: so many at once would need more threads than the check has memory for.
set_option Elab.async false

namespace Sys2Proof.Machine

open Sys2Proof

variable {c : Bool} {m x : Mach}

theorem Keeps.setUnitState {c1 u st seat} (h : Keeps c m x) : Keeps c m (x.setUnitState c1 u st seat) := h.setRegAt

theorem Keeps.startUnits {c1} (h : Keeps c m x) : Keeps c m (x.startUnits c1) := by
  unfold Mach.startUnits
  extract_lets m1
  have hm1 : Keeps c m m1 := h.foldl fun _ _ h => h.setUnitState
  exact hm1.foldl fun _ _ h => h.setUnitState.setFldAt

theorem Keeps.rollBack {q} (h : Keeps false m x) : Keeps false m (x.rollBack q) := h.setSeat

theorem Keeps.spillUnit {q} (h : Keeps false m x) : Keeps false m (x.spillUnit q) := by
  have spilt : Keeping (do spillStk q false; spillStk q true : CoreAct Unit) := .bind .spillStk fun _ => .spillStk
  have done := spilt h
  unfold Mach.spillUnit
  split
  · rename_i e
    rw [e] at done
    exact Keeps.drain done
  · exact h

theorem Keeps.freeUnit {c1 u cause fault} (h : Keeps c m x) : Keeps c m (x.freeUnit c1 u cause fault) := h.setRegAt

theorem Keeps.putSrWords {a ws} (h : Keeps false m x) : Keeps false m (x.putSrWords a ws) := by
  induction ws generalizing a x with
  | nil => exact h
  | cons w ws ih => exact ih (Keeps.ite h h.put)

theorem Keeps.parkSeat {q cause valid noSpare} (h : Keeps false m x) : Keeps false m (x.parkSeat q cause valid noSpare) := by
  unfold Mach.parkSeat
  extract_lets c1 u r locks m1 a m2 src m3 m31 m4
  have hm1 : Keeps false m m1 := h.rollBack.spillUnit.cleanUnit
  have hm2 : Keeps false m m2 := hm1.putSrWords
  have hm3 : Keeps false m m3 := hm2.setSeat
  have hm31 : Keeps false m m31 := by
    unfold m31
    split
    · exact hm3.setUnitState
    · exact hm3
  have hm4 : Keeps false m m4 := hm31.setSeatState.freeUnit
  exact hm4.cluEvent.notice.faultEvent

theorem Keeps.spareSeat {q cause} (h : Keeps false m x) : Keeps false m (x.spareSeat q cause) := by
  unfold Mach.spareSeat
  extract_lets m1 r src
  have hm1 : Keeps false m m1 := h.rollBack
  split
  · exact hm1.setSeat.beginMove
  · exact h.parkSeat

theorem Keeps.finishMove {q} (h : Keeps false m x) : Keeps false m (x.finishMove q) := by
  unfold Mach.finishMove
  extract_lets s c1 old locks m1 s1 src s2
  have hm1 : Keeps false m m1 := h.spillUnit.cleanUnit
  split
  · exact h
  · extract_lets m2 m3 m4
    have hm2 : Keeps false m m2 := hm1.setSeat.freeUnit.setUnitState
    have hm3 : Keeps false m m3 := hm2.setFldAt.setSeatState.countAt
    have hm4 : Keeps false m m4 := hm3.cluEvent.faultEvent.refreshHealth
    exact Keeps.ite hm4.resetSeat hm4.fpDue

theorem Keeps.mismatch {q cause} (h : Keeps false m x) : Keeps false m (x.mismatch q cause) := Keeps.ite h.spareSeat h.rollBack.setSeat

theorem Keeps.lockMismatch {q} (h : Keeps false m x) : Keeps false m (x.lockMismatch q) := Keeps.ite h.mismatch h

theorem Keeps.parityError {q left} (h : Keeps false m x) : Keeps false m (x.parityError q left) := Keeps.ite h (Keeps.ite h.parkSeat
  h.mismatch)

theorem Keeps.selfTest {q pass} (h : Keeps false m x) : Keeps false m (x.selfTest q pass) := Keeps.ite (Keeps.ite h.countAt h.spareSeat) h

theorem Keeps.railFault {q} (h : Keeps false m x) : Keeps false m (x.railFault q) := Keeps.ite h.spareSeat h

theorem Keeps.ownError {q both} (h : Keeps false m x) : Keeps false m (x.ownError q both) := Keeps.ite (Keeps.ite h.parkSeat h.spareSeat)
  h

theorem Keeps.nearError {q i c1} (h : Keeps false m x) : Keeps false m (x.nearError q i c1) := Keeps.ite h (Keeps.ite h.setSeat
  h.cleanEnt.poison)

theorem Keeps.icacheError {q line} (h : Keeps false m x) : Keeps false m (x.icacheError q line) := h.setSeat

theorem Keeps.stacksError {k line c1} (h : Keeps false m x) : Keeps false m (x.stacksError k line c1) := Keeps.ite h.toGroup.poison h

theorem Keeps.codeError {q site} (h : Keeps false m x) : Keeps false m (x.codeError q site) := by
  unfold Mach.codeError
  split
  · exact h.ownError
  · exact Keeps.ite h.nearError h
  · exact Keeps.ite h.icacheError h
  · exact Keeps.ite h.stacksError h

theorem Keeps.clusterFault {c1} (h : Keeps false m x) : Keeps false m (x.clusterFault c1) := Keeps.ite (h.foldl fun _ _ h => h.parkSeat) h

theorem Keeps.bistDone {c1 u pass} (h : Keeps c m x) : Keeps c m (x.bistDone c1 u pass) := by
  unfold Mach.bistDone
  extract_lets ok src m0 k src1 m1 m2 x m3
  have hm0 : Keeps c m m0 := h.setUnitState.setUnit
  have hm1 : Keeps c m m1 := hm0.setUnit
  have hm2 : Keeps c m m2 := Keeps.ite hm1 hm1.setFldAt.cluEvent
  have hx : Keeps c m x := hm2.parts
  have hm3 : Keeps c m m3 := Keeps.ite (Keeps.ite hx.setFldAt hx) hm2
  exact Keeps.ite h hm3.refreshHealth

theorem Keeps.rotateSeat {q u} (h : Keeps false m x) : Keeps false m (x.rotateSeat q u) := by
  unfold Mach.rotateSeat
  extract_lets c1 m1 src m2
  have hm1 : Keeps false m m1 := h.parts
  have hm2 : Keeps false m m2 := hm1.setSeat
  exact Keeps.ite hm2.atCheckpoint hm2

theorem Keeps.rotation {c1} (h : Keeps false m x) : Keeps false m (x.rotation c1) := by
  unfold Mach.rotation
  split
  · split
    · exact h.parts.rotateSeat
    · exact h
  · exact h

theorem Keeps.bistResult {c1 status u} (h : Keeps c m x) : Keeps c m (x.bistResult c1 status u) := h.setRegAt

theorem Keeps.bistReqSet {w c1 v} (h : Keeps false m x) : Keeps false m (x.bistReqSet w c1 v) := by
  unfold Mach.bistReqSet
  extract_lets k op q m1
  have hm1 : Keeps false m m1 := h.bistResult.setUnitState
  split
  · exact h
  · split
    · split
      · exact h.bistResult
      · split
        · exact h.bistResult
        · split
          · exact h.bistResult
          · split
            · exact h.bistResult
            · exact h.bistResult.rotateSeat
    · exact Keeps.ite (Keeps.ite h.bistResult (Keeps.ite h.bistResult hm1.parts)) h.bistResult

theorem Keeps.seatResetSet {w q v} (h : Keeps false m x) : Keeps false m (x.seatResetSet w q v) := by
  unfold Mach.seatResetSet
  extract_lets src c1
  split
  · exact h
  · split
    · exact Keeps.ite h.setSeat h.resetSeat
    · exact h.resetSeat
    · exact h.setSeat
    · split
      · exact h
      · exact h.setUnitState.setFldAt.resetSeat
    · exact h

theorem Keeps.dbgAct {q f} (h : Keeps false m x) (hf : ∀ {x}, Keeps false m x → Keeps false m (f x)) :
    Keeps false m (x.dbgAct q f) := Keeps.ite (hf h) (Keeps.ite h.send (hf h.setFldAt))

theorem Keeps.dbgHalt {q} (h : Keeps false m x) : Keeps false m (x.dbgHalt q) :=
  Keeps.ite h (h.dbgAct fun h => Keeps.ite h.setSeatState h.setSeat)

theorem Keeps.dbgResume {q} (h : Keeps false m x) : Keeps false m (x.dbgResume q) :=
  Keeps.ite (h.dbgAct fun h => h.setSeatState.setSeat) h

theorem Keeps.dbgStep {q} (h : Keeps false m x) : Keeps false m (x.dbgStep q) := Keeps.ite (h.dbgAct fun h => h.setSeat) h

theorem Keeping.dbgStack {q rs d} : Keeping (Machine.dbgStack q rs d) := by
  unfold Machine.dbgStack
  refine .bind .getArch fun a => ?_
  split
  · exact .pure
  · exact .loadAt

theorem Keeps.dbgRun {q a} (h : Keeps false m x) (ha : Keeping a) : Keeps false m (x.dbgRun q a) := by
  refine Keeps.ite h (h.dbgAct fun {y} h => ?_)
  have done := ha h
  split
  · rename_i e
    rw [e] at done
    exact (Keeps.send done).endGroup
  · rename_i e
    rw [e] at done
    exact Keeps.endGroup done
  · exact h.parts

theorem Keeping.dbgWriteBody {q t v} : Keeping (Machine.dbgWriteBody q t v) := by
  unfold Machine.dbgWriteBody
  refine .bind .getArch fun a => ?_
  extract_lets rest
  have hrest : ∀ u, Keeping (rest u) := fun u => by
    unfold rest
    exact .pure
  split
  · exact .bind .setArch fun _ => hrest ⟨⟩
  · split
    · exact .bind .setArch fun _ => hrest ⟨⟩
    · exact .bind .storeAt fun _ => hrest ⟨⟩
  · split
    · exact .bind .setArch fun _ => hrest ⟨⟩
    · exact .bind .storeAt fun _ => hrest ⟨⟩

theorem Keeps.dbgRead {q t} (h : Keeps false m x) : Keeps false m (x.dbgRead q t) := by
  unfold Mach.dbgRead
  split
  · exact h
  · split
    · exact h.send
    · split
      · exact h.send
      · exact h
    · split
      · exact h.send
      · exact h

theorem Keeping.dbgMemBody {q store a v} : Keeping (Machine.dbgMemBody q store a v) := by
  unfold Machine.dbgMemBody
  refine .bind .getArch fun x => ?_
  split
  · exact .bind .storeAt fun _ => .pure
  · exact .bind .loadAt fun _ => .pure

theorem Keeps.cluSet {w c1 o v} (h : Keeps false m x) : Keeps false m (x.cluSet w c1 o v) := by
  unfold Mach.cluSet
  extract_lets a m1 m2
  have hm1 : Keeps false m m1 := Keeps.ite h.setFldAt h
  have hm2 : Keeps false m m2 := hm1.setFldAt
  exact Keeps.ite (Keeps.ite (Keeps.ite hm2 hm2.setFldAt) hm1) (Keeps.ite h.bistReqSet (Keeps.ite (Keeps.ite h.setRegAt h) (Keeps.ite
    (Keeps.ite h.setFldAt.setFldAt h) (Keeps.ite h.seatResetSet h))))

theorem Keeps.flushTlb {q sr page} (h : Keeps false m x) : Keeps false m (x.flushTlb q sr page) := h.setSeat

theorem Keeps.selfSet {w q o v} (h : Keeps false m x) : Keeps false m (x.selfSet w q o v) := by
  unfold Mach.selfSet
  refine Keeps.ite h ?_
  split
  · exact Keeps.ite h h.setArch.flushTlb
  · exact Keeps.ite h h.setArch.flushTlb
  · exact h.flushTlb
  · exact Keeps.ite h.setArch.setSeat h.setArch
  · exact h.setArch
  · exact h.setArch
  · exact h.setArch
  · exact h.setArch
  · exact h

theorem Keeps.attrPortSet {p v} (h : Keeps c m x) : Keeps c m (x.attrPortSet p v) := h.resetPort.setFldAt

theorem Keeps.attrPinSet {v} (h : Keeps c m x) : Keeps c m (x.attrPinSet v) := h.setReg

theorem attrReg_ne (b : Nat) : attrReg b ≠ 3 := by
  unfold attrReg
  split
  · show _ + _ ≠ _
    omega
  · split
    · show _ + _ ≠ _
      omega
    · show _ + _ ≠ _
      omega

theorem Keeps.attrBlockSet {b v} (h : Keeps c m x) : Keeps c m (x.attrBlockSet b v) := by
  have hm1 : Keeps c m (x.setFld (attrReg b) F.srAttrPortPend 1) := h.setFld (attrReg_ne b)
  exact Keeps.ite hm1.setEngine hm1.setLaneB

theorem Keeps.attrDone {b} (h : Keeps c m x) : Keeps c m (x.attrDone b) := by
  unfold Mach.attrDone
  split
  · exact h
  · refine Keeps.ite h (Keeps.ite ?_ (Keeps.ite h (h.setLaneB.setReg (attrReg_ne b))))
    exact h.safePoint.setEngine.setReg (attrReg_ne b)

theorem Keeps.sealGo (h : Keeps c m x) : Keeps c m (x.sealGo) := Keeps.ite h h.resumeSeal

theorem Keeps.endLease {b} (h : Keeps c m x) : Keeps c m (x.endLease b) := by
  unfold Mach.endLease
  extract_lets src m1 m2
  have hm1 : Keeps c m m1 := h.parts
  have hm2 : Keeps c m m2 := by
    unfold m2
    split
    · exact hm1.gateRequest
    · exact hm1
  exact Keeps.ite hm2.sealGo hm2

theorem Keeps.leaseSet {b v} (h : Keeps c m x) : Keeps c m (x.leaseSet b v) := by
  unfold Mach.leaseSet
  extract_lets n src m1
  have hm1 : Keeps c m m1 := h.parts
  exact Keeps.ite h (Keeps.ite h.endLease (Keeps.ite hm1.pauseSeal hm1))

theorem Keeps.leaseExpiry {b} (h : Keeps c m x) : Keeps c m (x.leaseExpiry b) := by
  unfold Mach.leaseExpiry
  split
  · exact Keeps.ite h.endLease h
  · exact h

theorem Keeps.setMeas {k d} (h : Keeps c m x) : Keeps c m (x.setMeas k d) := h.foldl fun _ _ h => h.setRegAt

theorem Keeps.extendMeas {k d} (h : Keeps c m x) : Keeps c m (x.extendMeas k d) := h.setMeas

theorem Keeps.logMeas {k event d} (h : Keeps c m x) : Keeps c m (x.logMeas k event d) := Keeps.ite h.setReg h.parts.setReg

theorem Keeps.measure {k event d} (h : Keeps c m x) : Keeps c m (x.measure k event d) := h.setMeas.logMeas

theorem Keeps.loadVault {body} (h : Keeps false m x) : Keeps false m (x.loadVault body) :=
  (h.memory fun w => wf_spliceConts _ _ _ w).srCount

theorem Keeps.startMonitor {q} (h : Keeps false m x) : Keeps false m (x.startMonitor q) := h.resetSeat

theorem Keeps.swdLoad (h : Keeps c m x) : Keeps c m (x.swdLoad) := h.parts.setFld

theorem Keeps.dropSrJobs (h : Keeps c m x) : Keeps c m (x.dropSrJobs) := by
  unfold Mach.dropSrJobs
  extract_lets m1
  have hm1 : Keeps c m m1 := h.foldl fun _ _ h => h.dropJob
  exact hm1.foldl fun _ _ h => Keeps.ite h.laneDone h

theorem Keeps.stopSeat {q} (h : Keeps false m x) : Keeps false m (x.stopSeat q) := h.setSeat

theorem Keeps.restartHome (h : Keeps false m x) : Keeps false m (x.restartHome) := Keeps.ite h (Keeps.ite h.setSeat.enterLevel h.enterExc)

theorem Keeps.dropStaged (h : Keeps c m x) : Keeps c m (x.dropStaged) := Keeps.ite h h.parts.setFld

theorem Keeps.swdKick {v} (h : Keeps c m x) : Keeps c m (x.swdKick v) := Keeps.ite h.swdLoad h

theorem Keeps.resumeSeat {q} (h : Keeps false m x) : Keeps false m (x.resumeSeat q) := by
  unfold Mach.resumeSeat
  extract_lets s s0
  split
  · exact h
  · split
    · exact h.setSeat.enterLevel
    · exact h.setSeat.endGroup

theorem Keeps.restartDone (h : Keeps false m x) : Keeps false m (x.restartDone) := by
  unfold Mach.restartDone
  extract_lets src m1
  have hm1 : Keeps false m m1 := h.parts.setFld
  exact hm1.sealGo.foldl fun _ _ h => h.resumeSeat

theorem Keeps.startSeats (h : Keeps false m x) : Keeps false m (x.startSeats) := h.foldl fun _ _ h => Keeps.ite h.startMonitor h

theorem Keeps.startRole (h : Keeps c m x) : Keeps c m (x.startRole) := Keeps.ite h.setFld.setRole.setEpoch.setLease.sealFolioStart h

theorem Keeps.fuseCtlSet {v} (h : Keeps c m x) : Keeps c m (x.fuseCtlSet v) := by
  unfold Mach.fuseCtlSet
  extract_lets m1 op k f err run
  have hm1 : Keeps c m m1 := h.setReg
  have herr : ∀ e, Keeps c m (err m1 e) := fun _ => hm1.setReg
  have hrun : ∀ g, Keeps c m (run m1 g) := fun _ => hm1.parts.setReg.setFld
  refine Keeps.ite hm1 (Keeps.ite (herr 1) (Keeps.ite (herr 4) (Keeps.ite ?_ (Keeps.ite (hrun _) ?_))))
  · exact Keeps.ite (herr 2) (hrun _)
  · exact Keeps.ite (herr 3) (hrun _)

theorem Keeps.fuseDone (h : Keeps c m x) : Keeps c m (x.fuseDone) := by
  unfold Mach.fuseDone
  split
  · exact h.parts.setReg.setFld
  · exact h

theorem Keeps.attestStart {q nonce} (h : Keeps c m x) : Keeps c m (x.attestStart q nonce) := by
  unfold Mach.attestStart
  extract_lets n
  split
  · exact h
  · split
    · rename_i x off m1 heq
      have hheq : Keeps c m m1 := h.draw.becomes (congrArg Prod.snd heq)
      exact hheq.parts.setFld.pauseSeal

theorem Keeps.attestEnd {q} (h : Keeps c m x) : Keeps c m (x.attestEnd q) := Keeps.ite h.parts.setFld.sealGo h

theorem Keeps.mbStatSet {v} (h : Keeps c m x) : Keeps c m (x.mbStatSet v) := h.setReg

theorem Keeps.startsNow (h : Keeps c m x) : Keeps c m (x.startsNow) := Keeps.ite h.lanesStart h

theorem Keeps.laneGives {b r} (h : Keeps c m x) : Keeps c m (x.laneGives b r) := h.setLaneB

theorem Keeps.cipherMet {l} (h : Keeps false m x) : Keeps false m (x.cipherMet l) := h.met.met.met

theorem Keeps.slotJob {b op work} (h : Keeps false m x) : Keeps false m (x.slotJob b op work) :=
  Keeps.ite h.startsNow h.startsNow.cipherMet.laneGives

theorem Keeps.gcmEnc {b} (h : Keeps false m x) : Keeps false m (x.gcmEnc b) := h.slotJob

theorem Keeps.gcmDec {b} (h : Keeps false m x) : Keeps false m (x.gcmDec b) := h.slotJob

theorem Keeps.xts {b op} (h : Keeps false m x) : Keeps false m (x.xts b op) := h.slotJob

theorem Keeps.cmacGen {b} (h : Keeps false m x) : Keeps false m (x.cmacGen b) := h.slotJob

theorem Keeps.cmacVer {b} (h : Keeps false m x) : Keeps false m (x.cmacVer b) := h.slotJob

theorem Keeps.kwWrap {b} (h : Keeps false m x) : Keeps false m (x.kwWrap b) := h.slotJob

theorem Keeps.kwUnwrap {b} (h : Keeps false m x) : Keeps false m (x.kwUnwrap b) := h.slotJob

theorem Keeps.unwrapJob {b} (h : Keeps false m x) : Keeps false m (x.unwrapJob b) := by
  unfold Mach.unwrapJob
  extract_lets m1 l
  have hm1 : Keeps false m m1 := h.startsNow
  split
  · exact hm1
  · split
    · exact hm1.laneGives
    · exact hm1.cipherMet.laneGives

theorem Keeps.exportJob {b} (h : Keeps c m x) : Keeps c m (x.exportJob b) := by
  unfold Mach.exportJob
  extract_lets m1 l s
  have hm1 : Keeps c m m1 := h.startsNow
  split
  · exact hm1
  · split
    · exact hm1.laneGives
    · exact hm1.laneGives

theorem Keeps.srCipher {b op len f} (h : Keeps false m x) (hf : ∀ {x l}, Keeps false m x → Keeps false m (f x l)) :
    Keeps false m (x.srCipher b op len f) := by
  have hs := h.startsNow
  exact Keeps.ite hs (Keeps.ite hs.laneGives (Keeps.ite hs.laneGives (Keeps.ite hs.laneGives (Keeps.ite hs.laneGives
    (hf hs.cipherMet)))))

theorem Keeps.genKey {b} (h : Keeps false m x) : Keeps false m (x.genKey b) := h.srCipher fun h => h.draw.laneGives

theorem Keeps.kemKeygen {b} (h : Keeps false m x) : Keeps false m (x.kemKeygen b) := h.srCipher fun h => h.draw.laneGives

theorem Keeps.kemEncaps {b} (h : Keeps false m x) : Keeps false m (x.kemEncaps b) := h.srCipher fun h => h.draw.laneGives

theorem Keeps.kemDecaps {b} (h : Keeps false m x) : Keeps false m (x.kemDecaps b) := by
  refine h.srCipher fun h => ?_
  split
  · exact h.laneGives
  · exact h.laneGives

theorem Keeps.cipherBad {b} (h : Keeps c m x) : Keeps c m (x.cipherBad b) := by
  unfold Mach.cipherBad
  extract_lets m1 op
  have hm1 : Keeps c m m1 := h.startsNow
  exact Keeps.ite hm1.laneGives hm1

theorem Keeps.hashJob {b} (h : Keeps false m x) : Keeps false m (x.hashJob b) := h.met.laneGives

theorem Keeps.laneResult {b fault} (h : Keeps false m x) : Keeps false m (x.laneResult b fault) :=
  Keeps.ite h (Keeps.ite h.hashJob.laneEnd h.laneEnd)

theorem Keeps.packJob {b op f} (h : Keeps false m x) (hf : ∀ {l}, Keeps false m (f x l)) : Keeps false m (x.packJob b op f) :=
  Keeps.ite h (Keeps.ite h.laneGives (Keeps.ite h.laneGives hf))

theorem Keeps.frbPack {b} (h : Keeps false m x) : Keeps false m (x.frbPack b) := h.packJob h.met.laneGives

theorem Keeps.frbUnpack {b} (h : Keeps false m x) : Keeps false m (x.frbUnpack b) := h.packJob h.met.laneGives

theorem Keeps.deflPack {b} (h : Keeps false m x) : Keeps false m (x.deflPack b) := by
  refine h.packJob ?_
  intro l
  dsimp only
  split
  · exact h.laneGives
  · exact h.draw.met.laneGives

theorem Keeps.deflUnpack {b} (h : Keeps false m x) : Keeps false m (x.deflUnpack b) := by
  refine h.packJob ?_
  intro l
  dsimp only
  split
  · exact h.laneGives
  · split
    · exact h.laneGives
    · exact h.draw.met.met.laneGives

theorem Keeps.ucRes {e} (h : Keeps c m x) : Keeps c m (x.ucRes e) := h.setReg

theorem Keeps.tipLoad (h : Keeps c m x) : Keeps c m (x.tipLoad) := Keeps.ite h.ucRes (Keeps.ite h.ucRes h.parts.setFld.setFld)

theorem Keeps.tipLoadDone (h : Keeps c m x) : Keeps c m (x.tipLoadDone) := by
  unfold Mach.tipLoadDone
  extract_lets src
  split
  · exact h
  · extract_lets ws e m1 d src1 m2
    have hm1 : Keeps c m m1 := h.parts.setFld.setFld.ucRes
    have hm2 : Keeps c m m2 := hm1.parts.setFld
    exact Keeps.ite hm1 hm2.extendMeas.logMeas

theorem Keeps.tipActivate (h : Keeps c m x) : Keeps c m (x.tipActivate) := Keeps.ite h.ucRes (Keeps.ite h.ucRes h.setFld.setFld.ucRes)

theorem Keeps.tipActivated (h : Keeps c m x) : Keeps c m (x.tipActivated) := by
  unfold Mach.tipActivated
  split
  · exact h
  · extract_lets src m1 m2 m3
    have hm1 : Keeps c m m1 := h.parts
    have hm2 : Keeps c m m2 := hm1.foldl fun _ _ h => h.setRegAt
    have hm3 : Keeps c m m3 := hm2.setReg
    exact Keeps.ite h hm3.setFld.setFld.setFld.raise

theorem Keeps.ucCtlSet {w v} (h : Keeps c m x) : Keeps c m (x.ucCtlSet w v) := by
  unfold Mach.ucCtlSet
  extract_lets m1
  have hm1 : Keeps c m m1 := Keeps.ite h.tipLoad h
  exact Keeps.ite h (Keeps.ite hm1.tipActivate hm1)

theorem Keeps.sequencerFault {cls i} (h : Keeps false m x) : Keeps false m (x.sequencerFault cls i) := by
  unfold Mach.sequencerFault
  extract_lets m1
  have hm1 : Keeps false m m1 := h.count.seqReset
  split
  · exact hm1.faultEngine
  · exact hm1.moduleLost
  · exact Keeps.ite hm1.laneEnd h
  · exact Keeps.ite hm1.laneEnd h
  · exact Keeps.ite (Keeps.ite hm1.lockMismatch hm1.parityError) h

theorem Keeps.bySr {w y} (h : Keeps c m x) (g : Keeps c m y) : Keeps c m (x.bySr w y) := Keeps.ite g h

theorem Keeps.autoGate {b} (h : Keeps c m x) : Keeps c m (x.autoGate b) := Keeps.ite h.gateRequest h

theorem Keeps.autoUngate {b} (h : Keeps c m x) : Keeps c m (x.autoUngate b) := Keeps.ite h.gateRequest h

theorem Keeps.releaseHeld {b} (h : Keeps false m x) : Keeps false m (x.releaseHeld b) := by
  unfold Mach.releaseHeld
  extract_lets m1
  have hm1 : Keeps false m m1 := h.parts
  exact Keeps.ite (Keeps.ite hm1.resetEngine hm1.resetLane) h

theorem Keeps.tickWork (h : Keeps c m x) : Keeps c m (x.tickWork) := by
  unfold Mach.tickWork
  extract_lets m1 src m2 src1 m3
  have hm1 : Keeps c m m1 := Keeps.ite h.setReg h
  have hm2 : Keeps c m m2 := Keeps.ite hm1.parts hm1
  have hm3 : Keeps c m m3 := hm2.parts
  exact Keeps.ite hm3.setFld.refreshHealth.refreshMir hm2

theorem Keeps.tickEnd (h : Keeps c m x) : Keeps c m (x.tickEnd) := h.lanesStart.foldl fun _ _ h => h.setFldAt

theorem Keeps.unlock (h : Keeps c m x) : Keeps c m (x.unlock) := Keeps.ite h.setRtState h

theorem Keeps.reselect (h : Keeps c m x) : Keeps c m (x.reselect) := by
  unfold Mach.reselect
  extract_lets src m0
  have hm0 : Keeps c m m0 := h.parts
  exact Keeps.ite ((Keeps.ite hm0.setFld hm0).unlock) h

theorem Keeps.refLost {i} (h : Keeps c m x) : Keeps c m (x.refLost i) := by
  unfold Mach.refLost
  extract_lets m1
  have hm1 : Keeps c m m1 := h.parts.setFld
  split
  · exact h
  · split
    · split
      · exact hm1.setFld.unlock
      · exact hm1.unlock
    · exact hm1

theorem Keeps.refBack {i} (h : Keeps c m x) : Keeps c m (x.refBack i) := by
  unfold Mach.refBack
  extract_lets m1 src
  have hm1 : Keeps c m m1 := h.parts
  exact Keeps.ite h (Keeps.ite hm1.parts.setFld.setRtState hm1)

theorem Keeps.steer (h : Keeps c m x) : Keeps c m (x.steer) := by
  unfold Mach.steer
  split
  · split
    · rename_i x off m1 heq
      have hheq : Keeps c m m1 := h.draw.becomes (congrArg Prod.snd heq)
      exact hheq.setReg
  · exact h

theorem Keeps.ppsMissed (h : Keeps c m x) : Keeps c m (x.ppsMissed) := by
  unfold Mach.ppsMissed
  extract_lets src m1
  have hm1 : Keeps c m m1 := h.parts.setFld
  exact Keeps.ite (Keeps.ite hm1.setRtState (Keeps.ite hm1.setRtState hm1)) hm1

theorem Keeps.ppsOutlier (h : Keeps c m x) : Keeps c m (x.ppsOutlier) := by
  unfold Mach.ppsOutlier
  extract_lets src m1 m2
  have hm1 : Keeps c m m1 := h.parts
  have hm2 : Keeps c m m2 := hm1.setFld.countSat.raise
  exact Keeps.ite hm2.setRtState hm2

theorem Keeps.ppsAccepted {e} (h : Keeps c m x) : Keeps c m (x.ppsAccepted e) := by
  unfold Mach.ppsAccepted
  extract_lets src m1 m2 m3 src1
  have hm1 : Keeps c m m1 := h.parts
  have hm2 : Keeps c m m2 := hm1.steer
  have hm3 : Keeps c m m3 := hm2.setRtState
  exact Keeps.ite hm2.setRtState (Keeps.ite hm3.parts hm2)

theorem Keeps.ppsJudged {e} (h : Keeps c m x) : Keeps c m (x.ppsJudged e) := by
  unfold Mach.ppsJudged
  extract_lets c1 src m1
  have hm1 : Keeps c m m1 := h.parts.setReg
  exact Keeps.ite hm1.ppsOutlier hm1.ppsAccepted

theorem Keeps.ppsEnd (h : Keeps c m x) : Keeps c m (x.ppsEnd) := by
  unfold Mach.ppsEnd
  extract_lets src m1
  have hm1 : Keeps c m m1 := h.parts
  split
  · exact h
  · split
    · exact hm1.ppsMissed
    · exact hm1.ppsJudged

theorem Keeps.badLoad (h : Keeps c m x) : Keeps c m (x.badLoad) := h.setFld

theorem Keeps.ppsOff (h : Keeps c m x) : Keeps c m (x.ppsOff) := by
  unfold Mach.ppsOff
  extract_lets src m1
  have hm1 : Keeps c m m1 := h.parts.setFld
  exact Keeps.ite hm1.setRtState (Keeps.ite hm1.setRtState hm1)

theorem Keeps.soloToTwin {t} (h : Keeps c m x) : Keeps c m (x.soloToTwin t) := by
  unfold Mach.soloToTwin
  extract_lets src m1 m2 m3
  have hm1 : Keeps c m m1 := h.parts
  have hm2 : Keeps c m m2 := Keeps.ite hm1.setFldAt hm1
  have hm3 : Keeps c m m3 := Keeps.ite hm2.setEff hm2
  exact Keeps.ite hm3.notice hm1

theorem Keeps.fecCount {a} (h : Keeps c m x) : Keeps c m (x.fecCount a) := by
  unfold Mach.fecCount
  extract_lets p
  split
  · have other : a ≠ 3 := by
      rename_i met
      simp only [Bool.and_eq_true, decide_eq_true_eq] at met
      omega
    exact h.draw.count other
  · exact h

theorem Keeps.pRead {snap w a} (h : Keeps c m x) : Keeps c m (x.pRead snap w a).2 := by
  unfold Mach.pRead
  split
  · exact Keeps.ite h.setFld h
  · exact h.fecCount

theorem Keeps.store {a mask v} (h : Keeps c m x) (ha : a ≠ 3 := by decide) : Keeps c m (x.store a mask v) := h.setReg ha

theorem Keeps.storeAt {a mask v} (h : Keeps c m x) (ha : a ≠ 3 := by show _ + _ ≠ _; omega) : Keeps c m (x.store a mask v) :=
  h.setReg ha

theorem Keeps.clearBits {a mask v} (h : Keeps c m x) (ha : a ≠ 3 := by decide) : Keeps c m (x.clearBits a mask v) := h.setReg ha

theorem Keeps.clearBitsAt {a mask v} (h : Keeps c m x) (ha : a ≠ 3 := by show _ + _ ≠ _; omega) : Keeps c m (x.clearBits a mask v) :=
  h.setReg ha

theorem Keeps.storeIf {ok a mask v} (h : Keeps c m x) (ha : a ≠ 3 := by decide) : Keeps c m (x.storeIf ok a mask v) :=
  Keeps.ite (h.store ha) h

theorem Keeps.storeIfAt {ok a mask v} (h : Keeps c m x) (ha : a ≠ 3 := by show _ + _ ≠ _; omega) :
    Keeps c m (x.storeIf ok a mask v) := h.storeIf ha

theorem Keeps.prtSet {w p o v} (h : Keeps c m x) : Keeps c m (x.prtSet w p o v) := by
  unfold Mach.prtSet
  extract_lets m1
  have hm1 : Keeps c m m1 := Keeps.ite h h.portDown
  split
  · exact h
  · split
    · exact h.setRegAt
    · exact hm1.setRegAt
    · exact h.setRegAt
    · exact h.clearBitsAt
    · exact h.portResetSet
    · exact h

theorem Keeps.bellSet {w a v} (h : Keeps c m x) : Keeps c m (x.bellSet w a v) := by
  unfold Mach.bellSet
  extract_lets b
  split
  · split
    · exact h.bellTimeSet
    · exact h.bellTimeSet
    · exact h.bellActSet
    · exact h.clearBitsAt
  · exact Keeps.ite h.gateKeySet h

theorem Keeps.accSet {w t o v} (h : Keeps c m x) : Keeps c m (x.accSet w t o v) := by
  unfold Mach.accSet
  split
  · exact h.accCtlSet
  · exact h.accRing
  · exact h.accRing
  · exact h.accTail
  · exact h.accQuotaSet
  · exact h.accNextSet
  · exact h.accNextSet
  · exact h

theorem Keeps.twnSet {w o v} (h : Keeps c m x) : Keeps c m (x.twnSet w o v) := by
  unfold Mach.twnSet
  split
  · exact h.twnCtlSet
  · exact h.storeIf
  · exact h.mirPageSet
  · exact h.storeIf
  · exact h

theorem Keeps.sealSet {w o v} (h : Keeps c m x) : Keeps c m (x.sealSet w o v) := by
  unfold Mach.sealSet
  split
  · exact h.sealCtlSet
  · exact h.sealCtlSet
  · exact h.sealCtlSet
  · exact h.sealTailSet
  · exact h.storeIf
  · exact h

theorem Keeps.laneSet {w a v} (h : Keeps c m x) : Keeps c m (x.laneSet w a v) := by
  unfold Mach.laneSet
  split
  · next twin =>
    have other : a ≠ 3 := by
      rw [twin]
      decide
    exact h.storeIf other
  · refine Keeps.ite h.laneCtlSet (Keeps.ite h.laneCtlSet (Keeps.ite h.slotOwnSet (Keeps.ite h.slotClrSet h)))

theorem Keeps.memSet {w o v} (h : Keeps false m x) : Keeps false m (x.memSet w o v) := by
  unfold Mach.memSet
  split
  · exact h.memCtlSet
  · exact h.memAlarmSet
  · exact h.chgReqSet
  · exact h.srPageSet
  · exact h

theorem Keeps.enSet {w o v} (h : Keeps c m x) : Keeps c m (x.enSet w o v) := by
  unfold Mach.enSet
  exact Keeps.ite h (Keeps.ite h.store (Keeps.ite h.store (Keeps.ite h.store (Keeps.ite h.setReg (Keeps.ite h.storeAt (Keeps.ite
    h.enGateSet h))))))

theorem Keeps.stkSet {w o v} (h : Keeps c m x) : Keeps c m (x.stkSet w o v) := by
  unfold Mach.stkSet
  extract_lets pins
  split
  · exact h.clearBits
  · exact h.storeIf
  · exact h.stkFireSet
  · exact h.stkArmSet
  · exact h.store
  · exact h

theorem Keeps.routeSet {w i v} (h : Keeps c m x) : Keeps c m (x.routeSet w i v) := Keeps.ite h h.storeAt

theorem Keeps.intSet {w a v} (h : Keeps c m x) : Keeps c m (x.intSet w a v) := by
  unfold Mach.intSet
  extract_lets i t
  split
  · exact Keeps.ite h.routeSet (Keeps.ite h.clearBitsAt h)
  · split
    · exact h.intRaiseSet
    · split
      · split
        · exact Keeps.ite h.clearBitsAt h
        · exact h.notePopSet
        · exact h
      · exact h

theorem Keeping.drainStores {q} : Keeping (Machine.drainStores q) := .modMach fun h => h.drain

theorem Keeping.cohAt {p} : Keeping (Machine.cohAt p) := .look

theorem Keeping.seenAt {q p} : Keeping (Machine.seenAt q p) := .look

theorem Flowing.ldBody {q} : Flowing (Machine.ldBody q) := by
  unfold Machine.ldBody
  refine .bind ?_ fun _ => ?_
  · exact .stackOp fun _ => .bind .getArch fun _ => .bind .loadAt fun _ => .pure
  · exact .pure

theorem Flowing.stBody {q} : Flowing (Machine.stBody q) := by
  unfold Machine.stBody
  refine .bind ?_ fun _ => ?_
  · exact .stackOp fun _ => .bind .getArch fun _ => .bind .storeAt fun _ => .pure
  · exact .pure

theorem Keeping.casAt {q wld a e n} : Keeping (Machine.casAt q wld a e n) := by
  unfold Machine.casAt
  refine .bind .storeOk fun ⟨p, s⟩ => .bind .cohAt fun c => ?_
  have put : Keeping (do
      let x ← Machine.getArch q
      Machine.modMach fun m =>
        let m1 := m.nsAccess q (lineOf p)
        if c.pay = e then m1.nsStore q p (storeCont (x.psw wld) .store s n) else m1
      Pure.pure c.pay) :=
    .bind .getArch fun _ => .bind (.modMach fun h => Keeps.ite h.nsAccess.nsStore h.nsAccess) fun _ => .pure
  refine .ite (.bind .coreExc fun _ => ?_) ?_
  · exact .ite (.bind .coreExc fun _ => put) put
  · exact .ite (.bind .coreExc fun _ => put) put

theorem Flowing.casBody {q} : Flowing (Machine.casBody q) := by
  unfold Machine.casBody
  refine .bind .drainStores fun _ => ?_
  refine .bind ?_ fun _ => ?_
  · exact .stackOp fun _ => .bind .getArch fun _ => .bind .casAt fun _ => .pure
  · exact .pure

theorem Flowing.ildBody {q} : Flowing (Machine.ildBody q) := by
  unfold Machine.ildBody
  refine .bind .needLevel fun _ => ?_
  refine .bind ?_ fun _ => ?_
  · exact .stackOp fun _ => .bind .getArch fun _ => .bind .xlate fun ⟨_, _⟩ => .bind (.modMach fun h => h.lineSeen) fun _ =>
      .bind .seenAt fun _ => .bind .checkCont fun _ => .pure
  · exact .pure

theorem Flowing.istBody {q} : Flowing (Machine.istBody q) := by
  unfold Machine.istBody
  refine .bind .needLevel fun _ => ?_
  refine .bind ?_ fun _ => ?_
  · exact .stackOp fun _ => .bind .getArch fun _ => .bind .storeAt fun _ => .pure
  · exact .pure

theorem Keeping.pAccess {q p write} : Keeping (Machine.pAccess q p write) := by
  intro m x h
  unfold Machine.pAccess
  split
  · exact h
  · split
    · exact h
    · exact h
    · exact h

theorem Keeping.pReadAct {snap q p} : Keeping (Machine.pReadAct snap q p) := fun _ _ h => h.pRead

theorem Flowing.inBody {snap q} : Flowing (Machine.inBody snap q) := by
  unfold Machine.inBody
  refine .bind ?_ fun _ => ?_
  · exact .stackOp fun _ => .bind .pAccess fun _ => .bind .drainStores fun _ => .bind .pReadAct fun _ => .pure
  · exact .pure

theorem Keeping.loadN {q wld a a1} : Keeping (Machine.loadN q wld a a1) := by
  unfold Machine.loadN
  split
  · exact .pure
  · exact .bind .loadAt fun _ => .bind .loadN fun _ => .pure

theorem Keeping.peekTop {q} : Keeping (Machine.peekTop q) := .bind .getArch fun _ => .bind .popStk fun _ => .bind .setArch fun _ => .pure

theorem Keeps.accnEnter {q t w body} (h : Keeps false m x) : Keeps false m (x.accnEnter q t w body) := h.parts.setSeat

theorem Flowing.accnFinish {q status d n} : Flowing (Machine.accnFinish q status d n) := by
  unfold Machine.accnFinish
  refine .bind ?_ fun _ => ?_
  · exact .stackOp fun _ => .bind .getArch fun _ => .bind .storeAt fun _ => .bind .storeAt fun _ => .bind .storeAt fun _ => .pure
  · exact .pure

theorem Flowing.accnBody {q} : Flowing (Machine.accnBody q) := by
  unfold Machine.accnBody
  refine .bind .needLevel fun _ => ?_
  refine .bind (.modMach fun h => h.closeGroup) fun _ => ?_
  refine .bind .stackCheck fun _ => ?_
  refine .bind .peekTop fun top => ?_
  refine .bind .getArch fun x => ?_
  refine .bind .loadN fun w => ?_
  refine .bind .loadN fun body => ?_
  refine .bind .storeOk fun _ => ?_
  refine .bind .storeOk fun _ => ?_
  refine .bind .storeOk fun _ => ?_
  refine .bind .look fun t => ?_
  split
  · exact .accnFinish
  · exact .bind (.modMach fun h => h.accnEnter) fun _ => .pure

theorem Keeps.accnComplete {q} (h : Keeps false m x) : Keeps false m (x.accnComplete q) := by
  unfold Mach.accnComplete
  split
  · exact Keeps.ite (h.setSeat.coreEnd (Flowing.accnFinish h.setSeat)) h
  · exact h

theorem Keeps.freeCtx {p} (h : Keeps c m x) (e : x.freeCtx = some p) : Keeps c m p.2 := by
  unfold Mach.freeCtx at e
  extract_lets l at e
  clear_value l
  split at e
  · exact nomatch e
  · rw [← Option.some.inj e]
    exact h.draw

theorem Keeps.door {t pid sr a j0 j1} (h : Keeps c m x) : Keeps c m (x.door t pid sr a j0 j1).2 := by
  unfold Mach.door
  extract_lets no
  have refused : ∀ k, Keeps c m (no k).2 := fun _ => h.count (a := Reg.ceRefused)
  split
  · exact refused 5
  · split
    · exact refused 3
    · split
      · exact refused 3
      · split
        · exact refused 4
        · split
          · exact refused 1
          · split
            · exact refused 2
            · rename_i e
              have drawn : Keeps c m _ := h.freeCtx e
              exact drawn.setJob.makeReady.count.countAt

theorem Flowing.doorBody {q} : Flowing (Machine.doorBody q) := by
  unfold Machine.doorBody
  refine .bind .drainStores fun _ => .bind (.stackOp fun l => .bind .getArch fun a => .bind .loadAt fun _ => .bind .loadAt fun _ =>
    .bind .storeOk fun ⟨p, s⟩ => .bind (fun _ _ h => h.door) fun r => ?_) fun _ => .pure
  exact .ite (.bind .storePut fun _ => .pure) .pure

theorem Keeps.condRetire {q lin taken} (h : Keeps false m x) : Keeps false m (x.condRetire q lin taken) := by
  unfold Mach.condRetire
  split
  · extract_lets m1
    have hm1 : Keeps false m m1 := h.setSeat.pmc
    exact Keeps.ite hm1.pmc.wrongPath hm1

theorem Keeps.indDecoded {q} (h : Keeps false m x) : Keeps false m (x.indDecoded q) := by
  unfold Mach.indDecoded
  split
  · split
    · rename_i x off m1 heq
      have hheq : Keeps false m m1 := h.draw.becomes (congrArg Prod.snd heq)
      exact hheq.pmc
  · exact h

theorem Keeps.indRetire {q lin target} (h : Keeps false m x) : Keeps false m (x.indRetire q lin target) := by
  unfold Mach.indRetire
  split
  · exact h.setSeat
  · exact h.setSeat.pmc.wrongPath
  · exact h.setSeat.indDecoded

theorem Flowing.condBody {q z off} : Flowing (Machine.condBody q z off) := by
  refine .bind .getArch fun _ => .bind .stackCheck fun _ => .bind .popStk fun _ => .bind (.modMach fun h => h.condRetire) fun _ => ?_
  refine .pure fun e => ?_
  split
  · exact fun f => nomatch f
  · exact fun f => nomatch f

theorem Flowing.brBody {q off} : Flowing (Machine.brBody q off) := .bind .getArch fun _ => .pure

theorem Flowing.callBody {q off} : Flowing (Machine.callBody q off) :=
  .bind .getArch fun _ => .bind .stackCheck fun _ => .bind .pushStk fun _ => .pure

theorem Keeping.needPc {w} : Keeping (Machine.needPc w) := .ite .pure .coreExc

theorem Flowing.retBody {q} : Flowing (Machine.retBody q) :=
  .bind .stackCheck fun _ => .bind .popStk fun _ => .bind .needPc fun _ => .bind (.modMach fun h => h.indDecoded) fun _ => .pure

theorem Flowing.jmpiBody {q} : Flowing (Machine.jmpiBody q) := by
  unfold Machine.jmpiBody
  exact .bind .getArch fun _ => .bind .stackCheck fun _ => .bind .popStk fun _ => .bind .needPc fun _ => .bind (.modMach fun h =>
    h.indRetire) fun _ => .pure

theorem Keeping.pcFirst {q} : Keeping (Machine.pcFirst q) := by
  intro m x h
  unfold Machine.pcFirst
  split
  · exact After.ite h h
  · exact h

theorem Flowing.calliBody {q} : Flowing (Machine.calliBody q) := by
  unfold Machine.calliBody
  exact .bind .getArch fun _ => .bind .pcFirst fun _ => .bind .stackCheck fun _ => .bind .stackCheck fun _ => .bind .popStk fun _ =>
    .bind .needPc fun _ => .bind .pushStk fun _ => .bind (.modMach fun h => h.indRetire) fun _ => .pure

theorem Keeping.fpFirst {q} : Keeping (Machine.fpFirst q) := .bind .getArch fun _ => .ite .coreExc .pure

theorem Keeping.xferCheck {q h1 n} : Keeping (Machine.xferCheck q h1 n) := by
  unfold Machine.xferCheck
  refine .bind .getArch fun a => ?_
  split
  · exact .coreExc
  · exact .coreExc
  · exact .ite .coreExc .pure

theorem Keeping.leaveLevel {q h1 n} : Keeping (Machine.leaveLevel q h1 n) := by
  unfold Machine.leaveLevel
  refine .bind .getArch fun a => ?_
  split
  · exact .pure
  · exact .bind .popN fun _ => .bind .spillStk fun _ => .bind .spillStk fun _ => .pure

theorem Flowing.enterBody {q p cause mon n} : Flowing (Machine.enterBody q p cause mon n) := by
  unfold Machine.enterBody
  exact .bind .xferCount fun _ => .bind .needLevel fun _ => .bind .fpFirst fun _ => .bind .getArch fun _ => .bind .xferCheck fun _ =>
    .bind .leaveLevel fun _ => .bind (.modMach fun h => h.countInstr.enterLevel) fun _ => .bind .pushAll fun _ => .pure

theorem Keeps.returnTo {q h1 pc} (h : Keeps false m x) : Keeps false m (x.returnTo q h1 pc) := h.setSeat

theorem Flowing.returnBody {q p n} : Flowing (Machine.returnBody q p n) := by
  unfold Machine.returnBody
  refine .bind .needLevel fun _ => .bind .getArch fun a => ?_
  extract_lets l xpc
  have rest : Flowing (do
      Machine.needPc xpc
      Machine.xferCheck q l n
      let es ← Machine.leaveLevel q l n
      Machine.modMach fun m => (m.countInstr q false).returnTo q l xpc.toNat
      Machine.pushAll q es
      Pure.pure .done) :=
    .bind .needPc fun _ => .bind .xferCheck fun _ => .bind .leaveLevel fun _ =>
      .bind (.modMach fun h => h.countInstr.returnTo) fun _ => .bind .pushAll fun _ => .pure
  exact .ite (.bind .coreExc fun _ => rest) rest

theorem Flowing.getcBody {q c} : Flowing (Machine.getcBody q c) := by
  unfold Machine.getcBody
  refine .bind .getArch fun a => ?_
  extract_lets n b
  refine .bind .cellCheck fun _ => ?_
  have push : Flowing (do
      let x ← Machine.getArch q
      Machine.pushStk q false (x.cellValue b n)
      Pure.pure .solo) := .bind .getArch fun _ => .bind .pushStk fun _ => .pure
  have rest : Flowing (do
      Machine.stackCheck q false 0 1
      if (n = 1 || n = 2) && b = a.wld + 1 then Machine.spillStk q (n == 2)
      let x ← Machine.getArch q
      Machine.pushStk q false (x.cellValue b n)
      Pure.pure .solo) := .bind .stackCheck fun _ => .ite (.bind .spillStk fun _ => push) push
  exact .ite (.bind .fpFirst fun _ => rest) rest

theorem Keeping.reservedFirst {q n} : Keeping (Machine.reservedFirst q n) := by
  intro m x h
  unfold Machine.reservedFirst
  split
  · exact After.ite h h
  · exact h

theorem Keeping.tenCheck {q v} : Keeping (Machine.tenCheck q v) := fun _ _ h => After.ite h h

theorem Flowing.setcBody {q c} : Flowing (Machine.setcBody q c) := by
  unfold Machine.setcBody
  extract_lets n
  refine .bind .cellNamed fun _ => .bind .reservedFirst fun _ => .bind .getArch fun a => .bind .cellCheck fun _ => ?_
  have set : ∀ v, Flowing (do
      let x ← Machine.getArch q
      Machine.setArch q (setcWrite x (bankAt x.wld c) n v)
      Pure.pure .solo) := fun _ => .bind .getArch fun _ => .bind .setArch fun _ => .pure
  have checked : ∀ v, Flowing (do
      if n = 9 then Machine.tenCheck q v
      let x ← Machine.getArch q
      Machine.setArch q (setcWrite x (bankAt x.wld c) n v)
      Pure.pure .solo) := fun v => .ite (.bind .tenCheck fun _ => set v) (set v)
  have rest : Flowing (do
      Machine.stackCheck q false 1 0
      let v ← Machine.popStk q false
      if reservedBits n v then Machine.coreExc Cause.illegal 1
      if n = 9 then Machine.tenCheck q v
      let x ← Machine.getArch q
      Machine.setArch q (setcWrite x (bankAt x.wld c) n v)
      Pure.pure .solo) := .bind .stackCheck fun _ => .bind .popStk fun v => .ite (.bind .coreExc fun _ => checked v) (checked v)
  exact .ite (.bind .fpFirst fun _ => rest) rest

theorem Flowing.waitBody {q} : Flowing (Machine.waitBody q) :=
  .bind .needLevel fun _ => .bind .getArch fun _ => .bind .setArch fun _ => .pure

theorem Flowing.fenceBody {q} : Flowing (Machine.fenceBody q) := .bind (.modMach fun h => h.drain.fillsDone) fun _ => .pure

theorem Keeps.waitDone {q} (h : Keeps false m x) : Keeps false m (x.waitDone q) := Keeps.ite h.setArch.takeInt h

theorem Keeping.attestCall {q wld l} : Keeping (Machine.attestCall q wld l) := by
  refine .modMach fun h => ?_
  split
  · refine Keeps.ite ?_ h
    split
    · exact h.attestStart
    · exact h
  · exact h

theorem Flowing.callmBody {q n} : Flowing (Machine.callmBody q n) := by
  unfold Machine.callmBody
  exact .bind .getArch fun a => .passes .enterBody fun _ => .bind .getArch fun _ => .bind .attestCall fun _ => .pure

theorem Flowing.retmBody {q n} : Flowing (Machine.retmBody q n) := by
  unfold Machine.retmBody
  exact .bind .xferCount fun n => .passes .returnBody fun _ => .bind (.modMach fun h => h.attestEnd) fun _ => .pure

theorem Keeps.skipped {q} (h : Keeps false m x) : Keeps false m (x.skipped q) := h.setArch

theorem Keeps.nsClean {q line} (h : Keeps false m x) : Keeps false m (x.nsClean q line) := h.markStores.cleanLine

theorem Keeps.nsFlush {q line} (h : Keeps false m x) : Keeps false m (x.nsFlush q line) := h.markStores.flushLine

theorem Keeps.invalLine {q line} (h : Keeps false m x) : Keeps false m (x.invalLine q line) := by
  unfold Mach.invalLine
  extract_lets m1 src
  have hm1 : Keeps false m m1 := h.settle.loseStores
  split
  · exact hm1.dropEnt
  · exact hm1.setSeat

theorem Keeps.invalRange {q line} (h : Keeps false m x) : Keeps false m (x.invalRange q line) := by
  unfold Mach.invalRange
  extract_lets m1
  have hm1 : Keeps false m m1 := h.settle
  exact Keeps.ite hm1.skipped hm1.invalLine

theorem Keeps.flushRange {q line} (h : Keeps false m x) : Keeps false m (x.flushRange q line) := by
  unfold Mach.flushRange
  extract_lets m1
  have hm1 : Keeps false m m1 := h.settle
  exact Keeps.ite hm1.nsClean.skipped hm1.nsFlush

theorem Keeps.settleEnt {q i} (h : Keeps false m x) : Keeps false m (x.settleEnt q i) := Keeps.ite h.fillsDone h

theorem Keeps.nsCleanEnt {q i} (h : Keeps false m x) : Keeps false m (x.nsCleanEnt q i) := (Keeps.ite h.markStores h).cleanEnt

theorem Keeps.nsDropEnt {q i} (h : Keeps false m x) : Keeps false m (x.nsDropEnt q i) := (Keeps.ite h.loseStores h).dropEnt

theorem Keeps.nsFlushEnt {q i} (h : Keeps false m x) : Keeps false m (x.nsFlushEnt q i) := ((Keeps.ite h.markStores h).cleanEnt).dropEnt

theorem Keeps.lockEnt {q i vline} (h : Keeps false m x) : Keeps false m (x.lockEnt q i vline) := h.setSeat

theorem Keeps.nsLock {q line vline} (h : Keeps false m x) : Keeps false m (x.nsLock q line vline).2 := by
  unfold Mach.nsLock
  extract_lets y s
  have hy : Keeps false m y := h.settle
  split
  · exact hy
  · split
    · exact hy
    · split
      · exact hy.lockEnt
      · split
        · exact hy.setSeat.fill.fillsDone.setSeat.lockEnt
        · exact hy.snoopRead.fill.noteNs.lockEnt

theorem Keeps.nsUnlock {q line} (h : Keeps false m x) : Keeps false m (x.nsUnlock q line) := by
  unfold Mach.nsUnlock
  extract_lets m1 s
  have hm1 : Keeps false m m1 := h.settle
  split
  · exact Keeps.ite hm1.setSeat hm1.dropEnt
  · exact hm1

theorem Keeping.maintAddr {q a k} : Keeping (Machine.maintAddr q a k) := by
  unfold Machine.maintAddr
  exact .bind .getArch fun _ => .bind .xlate fun ⟨_, _⟩ => .bind (.modMach fun h => h.lineSeen) fun _ => .bind .seenAt fun _ =>
    .bind .checkCont fun _ => .pure

theorem Flowing.lineBody {q sup k f} (hf : ∀ {m x l}, Keeps false m x → Keeps false m (f x l)) :
    Flowing (Machine.lineBody q sup k f) :=
  .bind .needLevel fun _ => .bind (.stackOp fun _ => .bind .maintAddr fun _ => .bind (.modMach fun h => hf h) fun _ => .pure) fun _ => .pure

theorem Flowing.entryBody {q f} (hf : ∀ {m x i}, Keeps false m x → Keeps false m (f x i)) : Flowing (Machine.entryBody q f) :=
  .bind .needLevel fun _ => .bind (.stackOp fun _ => .bind (.modMach fun h => hf h.settleEnt) fun _ => .pure) fun _ => .pure

theorem Keeps.treatLines {f p n} (hf : ∀ {x l}, Keeps false m x → Keeps false m (f x l)) (h : Keeps false m x) :
    Keeps false m (Machine.treatLines f p n x) := by
  unfold Machine.treatLines
  exact h.foldl fun _ _ h => hf h

theorem Keeping.pageCheck {q wld a n k} : Keeping (Machine.pageCheck q wld a n k) := by
  unfold Machine.pageCheck
  refine .bind .xlate fun ⟨p, _⟩ => .bind (.modMach fun h => h.treatLines fun h => h.lineSeen) fun _ => ?_
  intro m x h
  show After m (match (List.range n).find? fun i => !x.keyPass q wld k (p + i) (x.seen q (p + i)) with
    | some _ => Machine.coreExc Cause.key k.keyDetail (a / 4096) x
    | none => .ok (p, x))
  split
  · exact h
  · exact h

theorem Flowing.rangeCut {q a n w} (h : Keeps false m x) (hw : ∀ e, w = .fault e → Keeps false m e.at_) :
    Landed m (Machine.rangeCut q a n w x) := by
  have pushed := Keeping.pushAll (q := q) (a := [w48 a, w48 n]) h
  unfold Machine.rangeCut
  split
  · rename_i e
    rw [e] at pushed
    exact ⟨pushed, hw⟩
  · rename_i e
    rw [e] at pushed
    exact pushed

theorem Flowing.rangePages {q wld k f first pages a n} (hf : ∀ {x l}, Keeps false m x → Keeps false m (f x l))
    (h : Keeps false m x) : Landed m (Machine.rangePages q wld k f first pages a n x) := by
  induction pages generalizing first a n x with
  | zero => exact ⟨h, fun _ e => nomatch e⟩
  | succ pages ih =>
    unfold Machine.rangePages
    extract_lets take
    have checked := Keeping.pageCheck (q := q) (wld := wld) (a := a) (n := take) (k := k) h
    split
    · exact rangeCut h fun _ e => nomatch e
    · split
      · rename_i e
        rw [e] at checked
        split
        · exact checked
        · exact rangeCut h fun _ g => Keeps.becomes checked (congrArg Exc.at_ (Flow.fault.inj g))
      · rename_i e
        rw [e] at checked
        extract_lets m2
        have hm2 : Keeps false m m2 := Keeps.treatLines hf checked
        split
        · exact ⟨hm2, fun _ e => nomatch e⟩
        · exact ih hm2

theorem Flowing.rangeBody {q sup k f} (hf : ∀ {m x l}, Keeps false m x → Keeps false m (f x l)) :
    Flowing (Machine.rangeBody q sup k f) := by
  unfold Machine.rangeBody
  refine .bind .needLevel fun _ => .bind .stackCheck fun _ => .bind .popN fun _ => .bind .getArch fun _ => ?_
  exact .ite .pure fun _ _ h => rangePages hf h

theorem Keeps.nsFilled {q i e} (h : Keeps false m x) : Keeps false m (x.nsFilled q i e) := by
  unfold Mach.nsFilled
  extract_lets x m1
  have hm1 : Keeps false m m1 := h.readCheck
  exact Keeps.ite hm1.setSeat h

theorem Keeps.writtenBack {q err} (h : Keeps false m x) : Keeps false m (x.writtenBack q err) := by
  unfold Mach.writtenBack
  split
  · exact h.stalled h.writeBack.readCheck
  · exact h

end Sys2Proof.Machine
end

section
/-! PROOFS. What the ends and waits of call slips keep. -/

-- One proof after the other: so many at once would need more threads than the check has memory for.
set_option Elab.async false

namespace Sys2Proof.Machine

open Sys2Proof

variable {c : Bool} {m x : Mach}

theorem Keeps.slipRead {snap j sp a v y} (h : Keeps false m x) (done : x.slipRead snap j sp a = .ok (v, y)) : Keeps false m y := by
  unfold Mach.slipRead at done
  split at done
  · cases read : x.carRead j.carrel j.sr a with
    | error r => rw [read] at done; exact nomatch done
    | ok w => rw [read] at done; exact h.met.becomes (congrArg Prod.snd (Except.ok.inj done))
  · split at done
    · exact nomatch done
    · exact h.pRead.becomes (congrArg Prod.snd (Except.ok.inj done))

theorem Keeps.slipMark {j sp as} (h : Keeps false m x) : Keeps false m (x.slipMark j sp as).2 := by
  unfold Mach.slipMark
  split
  · exact h.markAll
  · exact h

theorem Keeps.endSlip {e x1 w next keep r count} (h : Keeps false m x) : Keeps false m (x.endSlip e x1 w next keep r count) := by
  unfold Mach.endSlip
  split
  · exact h
  · extract_lets m1
    have hm1 : Keeps false m m1 := Keeps.ite h.writeStatus h
    exact Keeps.ite h (Keeps.ite h.endJob hm1.setJob.countAt)

theorem Keeps.slipEnd {e x1 j w n r count} (h : Keeps false m x) : Keeps false m (x.slipEnd e x1 j w n r count) := h.endSlip.seqRun

theorem Keeps.slipWoken {e x1 j w n} (h : Keeps false m x) : Keeps false m (x.slipWoken e x1 j w n) := h.slipEnd

theorem Keeps.slipWait {e x1 j wt folios} (h : Keeps c m x) : Keeps c m (x.slipWait e x1 j wt folios) := h.leaveEngine.setJob

theorem Keeps.awaitFound {e x1 j w a f} (h : Keeps false m x) : Keeps false m (x.awaitFound e x1 j w a f) := by
  unfold Mach.awaitFound
  extract_lets vs
  split
  · rename_i x1 fst val m1 heq
    have hheq : Keeps false m m1 := h.jobWrites.becomes (congrArg (·.2.2) heq)
    exact hheq.slipEnd
  · rename_i x1 fst m1 heq
    have hheq : Keeps false m m1 := h.jobWrites.becomes (congrArg (·.2.2) heq)
    exact hheq.slipEnd

theorem Keeps.slipAwaiting {e x1 j w n wt} (h : Keeps false m x) : Keeps false m (x.slipAwaiting e x1 j w n wt) := Keeps.ite h.slipEnd
  h.slipWait

theorem Keeps.setCc {x1 b} (h : Keeps c m x) : Keeps c m (x.setCc x1 b) := by
  unfold Mach.setCc
  split
  · exact h.setJob
  · exact h

theorem Keeps.retrySlip {x1 j} (h : Keeps c m x) : Keeps c m (x.retrySlip x1 j) := h.setJob.makeReady

theorem Keeps.slipWake {x1} (h : Keeps c m x) : Keeps c m (x.slipWake x1) := by
  unfold Mach.slipWake
  split
  · exact h
  · split
    · exact h
    · split
      · exact Keeps.ite h h.retrySlip
      · exact Keeps.ite h.retrySlip h
      · exact Keeps.ite h.wakeJob h

theorem Keeps.slipExpire {x1} (h : Keeps c m x) : Keeps c m (x.slipExpire x1) := by
  unfold Mach.slipExpire
  split
  · exact h
  · split
    · exact h
    · split
      · exact h
      · split
        · exact h.parts.wakeJob
        · exact h.setQueue.wakeJob
        · exact h.wakeJob

end Sys2Proof.Machine
end

section
/-! PROOFS. What register writes and the slips keep: RT may be loaded and the charter may commit. -/

namespace Sys2Proof.Machine

open Sys2Proof

/-- What an act keeps that may also change MOD_STATE and RT: canonical memory, the pins, and a fence latch that is set. -/
structure Sound (m n : Mach) : Prop where
  wf : Memory.wf m.mem = true → Memory.wf n.mem = true
  pins : n.pins = m.pins
  latch : m.twin.latch = true → n.twin.latch = true

/-- What a register write keeps besides: outside the charter the module stays outside it and RT does not fall (R48, R354). -/
structure Runs (m n : Mach) : Prop extends Sound m n where
  clock : m.phase ≠ 1 → n.phase ≠ 1 ∧ m.rt ≤ n.rt

variable {c : Bool} {m x n o : Mach}

theorem Keeps.phase (h : Keeps c m n) : n.phase = m.phase := congrArg (fun w => fget w F.modStatePhase) h.modes

theorem Keeps.sound (h : Keeps c m n) : Sound m n := ⟨h.wf, h.pins, h.latch⟩

theorem Keeps.runs (h : Keeps c m n) : Runs m n :=
  { h.sound with clock := fun p => ⟨by rwa [h.phase], Nat.le_of_eq h.rt.symm⟩ }

theorem Sound.trans (h : Sound m n) (g : Sound n o) : Sound m o :=
  ⟨fun w => g.wf (h.wf w), g.pins.trans h.pins, fun w => g.latch (h.latch w)⟩

namespace Runs

theorem refl (m : Mach) : Runs m m := (Keeps.refl false m).runs

theorem trans (h : Runs m n) (g : Runs n o) : Runs m o :=
  { h.toSound.trans g.toSound with
    clock := fun p => ⟨(g.clock (h.clock p).1).1, Nat.le_trans (h.clock p).2 (g.clock (h.clock p).1).2⟩ }

/-- What keeps the state an act has left is kept with it. -/
theorem via (h : Runs m x) (k : Keeps false x x → Keeps false x n) : Runs m n := h.trans (k (Keeps.refl false x)).runs

theorem becomes (h : Runs m n) (e : n = o) : Runs m o := e ▸ h

theorem ite {p : Prop} [Decidable p] {a b : Mach} (ha : Runs m a) (hb : Runs m b) : Runs m (if p then a else b) := by
  split
  · exact ha
  · exact hb

end Runs

/-- A step of the module where no MODULE reset, no supply and no end of a handover comes in is sound. -/
theorem Sound.via (h : Sound m x) (k : Keeps false x x → Keeps false x n) : Sound m n := h.trans (k (Keeps.refl false x)).sound

theorem Sound.setReg {a v} (h : Sound m x) : Sound m (x.setReg a v) :=
  h.trans ⟨fun w => by simpa using w, by simp, fun w => by simpa using w⟩

theorem Sound.setFld {a f v} (h : Sound m x) : Sound m (x.setFld a f v) := h.setReg

/-! ### The time (R48, R62) -/

/-- A change of RT alone, and what of the PPS goes with it. -/
theorem Sound.setTime {rt pps} (h : Sound m x) : Sound m { x with rt := rt, pps := pps } := h.trans ⟨id, rfl, id⟩

/-- What a load of RT leaves: the state after the folios that RT had reached, with the time loaded. -/
theorem Mach.loadRt_keeps (m : Mach) (secs st : Nat) :
    ∃ y, Keeps false m y ∧ ∃ pps, Keeps false { y with rt := secs % 2 ^ 40 * 2 ^ 24, pps := pps } (m.loadRt secs st) := by
  unfold Mach.loadRt
  extract_lets y new pps m1 m2
  refine ⟨y, (Keeps.refl false m).folioCloses, { y.pps with edge := none, fresh := false }, ?_⟩
  have timed : ∀ z : Mach, Keeps false z ((z.setFld Reg.rtStat F.rtStatEnd 0).setRtState st) :=
    fun z => (Keeps.refl false z).setFld.setRtState
  have hm2 : Keeps false { y with rt := new, pps := { y.pps with edge := none, fresh := false } } m2 := timed _
  clear_value m2
  exact Keeps.ite hm2.boundary.skipBells.wakeSkipped hm2.parts.skipBells

theorem Mach.loadRt_sound (secs st : Nat) : Sound m (m.loadRt secs st) := by
  obtain ⟨y, before, pps, after⟩ := m.loadRt_keeps secs st
  exact before.sound.setTime.trans after.sound

/-- A load of a time that is not earlier runs. -/
theorem Runs.loadRt {secs st : Nat} (h : Runs m x) (later : x.rt ≤ secs % 2 ^ 40 * 2 ^ 24) : Runs m (x.loadRt secs st) := by
  obtain ⟨y, before, pps, after⟩ := x.loadRt_keeps secs st
  have same : Mach.phase { y with rt := secs % 2 ^ 40 * 2 ^ 24, pps := pps } = y.phase := rfl
  refine h.trans { Mach.loadRt_sound secs st with clock := fun p => ⟨?_, ?_⟩ }
  · rwa [after.phase, same, before.phase]
  · rw [after.rt]
    exact later

theorem Runs.rtRequest {v : Word} (h : Runs m x) : Runs m (x.rtRequest v) := by
  unfold Mach.rtRequest
  extract_lets secs behind
  split
  · split
    · next charter =>
      refine h.trans { Mach.loadRt_sound secs 1 with clock := fun p => absurd ?_ p }
      simp only [Bool.and_eq_true, decide_eq_true_eq] at charter
      exact charter.2
    · exact h.via fun k => k.badLoad
  · split
    · split
      · next ahead =>
        have later : x.rt ≤ secs % 2 ^ 40 * 2 ^ 24 := by
          simp only [behind, Bool.and_eq_true, Bool.not_eq_true', decide_eq_false_iff_not] at ahead
          exact Nat.le_of_not_lt ahead.2
        exact h.loadRt later
      · exact h.via fun k => k.badLoad
    · exact h.via fun k => Keeps.ite (Keeps.ite k.setFld k.badLoad) k

theorem Runs.rtCtlSet {w : Who} {v : Word} (h : Runs m x) : Runs m (x.rtCtlSet w v) := by
  unfold Mach.rtCtlSet
  extract_lets moved m1 pps m2 m3
  have hm1 : Runs m m1 := h.via fun k => k.setFld.setFld.setFld
  have hm2 : Runs m m2 := hm1.via fun k => k.parts
  have hm3 : Runs m m3 := Runs.ite hm2 (hm2.via fun k => k.ppsOff)
  exact Runs.ite h hm3.rtRequest

theorem Runs.rtSet {w : Who} {o : Nat} {v : Word} (h : Runs m x) : Runs m (x.rtSet w o v) := by
  unfold Mach.rtSet
  split
  · exact h.via fun k => k.clearBits
  · exact h.rtCtlSet
  · exact h.via fun k => k.storeIf
  · exact h.via fun k => k.store
  · exact h

/-! ### The charter (R348, R354) -/

theorem Mach.commitCharter_sound : Sound m m.commitCharter := by
  unfold Mach.commitCharter
  extract_lets split m1 m2 m3
  have hm1 : Sound m m1 := (Keeps.refl false m).measure.sound
  have hm2 : Sound m m2 := hm1.setFld.setFld
  have hm3 : Sound m m3 := hm2.via fun k => k.foldl fun _ _ k => Keeps.ite k.startUnits k
  exact hm3.via fun k => k.startSeats.startRole.refreshRun.refreshTwn

theorem Runs.commitSet {v : Word} (h : Runs m x) : Runs m (x.commitSet v) := by
  unfold Mach.commitSet
  split
  · exact h
  · split
    · next charter =>
      extract_lets e m1
      have sound : Sound x (if e = 0 then m1.commitCharter else m1) := by
        have hm1 : Sound x m1 := (Keeps.refl false x).setReg.sound
        split
        · exact hm1.trans Mach.commitCharter_sound
        · exact hm1
      refine h.trans { sound with clock := fun p => absurd ?_ p }
      simp only [Bool.and_eq_true, decide_eq_true_eq] at charter
      exact charter.1
    · exact h.via fun k => Keeps.ite k.setReg.restartDone k.setReg

theorem Runs.srSet {o : Nat} {v : Word} (h : Runs m x) : Runs m (x.srSet o v) := by
  unfold Mach.srSet
  extract_lets a
  have other : a ≠ 3 := by
    show _ + _ ≠ _
    omega
  refine Runs.ite h.commitSet (h.via fun k => ?_)
  · have stored : ∀ w, Keeps false x (x.setReg a w) := fun _ => k.setReg other
    refine Keeps.ite k.swdKick (Keeps.ite (Keeps.ite k (stored _)) (Keeps.ite k.fuseCtlSet (Keeps.ite (stored _) ?_)))
    refine Keeps.ite (stored _) (Keeps.ite k.mbStatSet (Keeps.ite (stored _) (Keeps.ite (stored _) ?_)))
    refine Keeps.ite k.attrPortSet (Keeps.ite k.attrBlockSet (Keeps.ite k.attrBlockSet (Keeps.ite k.attrBlockSet ?_)))
    exact Keeps.ite k.attrPinSet (Keeps.ite (Keeps.ite k.leaseSet k) k)

/-! ### A register write (R11) -/

theorem Runs.pWrite {w : Who} {a : Nat} {v : Word} (h : Runs m x) : Runs m (x.pWrite w a v) := by
  unfold Mach.pWrite
  refine Runs.ite h (Runs.ite ?_ (Runs.ite h.rtSet ?_))
  · by_cases ok : (w.house && a = Reg.modAlerten) = true
    · have other : a ≠ 3 := by
        simp only [Bool.and_eq_true, decide_eq_true_eq] at ok
        rw [ok.2]
        decide
      exact h.via fun k => k.storeIf other
    · rw [Bool.not_eq_true] at ok
      rw [ok]
      exact h
  · refine Runs.ite (h.via fun k => k.bellSet) (Runs.ite (h.via fun k => k.prtSet) (Runs.ite ?_ (Runs.ite ?_ ?_)))
    · exact h.via fun k => Keeps.ite k.sesCtlWrite k
    · exact h.via fun k => Keeps.ite k.accSet k
    · refine Runs.ite (h.via fun k => k.twnSet) (Runs.ite (h.via fun k => k.tenSet) (Runs.ite (h.via fun k => k.carSet) ?_))
      refine Runs.ite (h.via fun k => Keeps.ite k.ceCtlSet k) (Runs.ite (h.via fun k => Keeps.ite k.quantumSet k) ?_)
      refine Runs.ite (h.via fun k => k.laneSet) (Runs.ite (h.via fun k => k.sealSet) (Runs.ite (h.via fun k => k.laneSet) ?_))
      refine Runs.ite (h.via fun k => k.memSet) (Runs.ite (h.via fun k => k.selfSet) (Runs.ite (h.via fun k => k.cluSet) ?_))
      refine Runs.ite (h.via fun k => k.enSet) (Runs.ite (h.via fun k => k.stkSet) (Runs.ite (h.via fun k => k.intSet) ?_))
      refine Runs.ite (Runs.ite (h.via fun k => k.ucCtlSet) ?_) (Runs.ite h.srSet h)
      by_cases ok : (w.sr && a = Reg.ucLoadaddr) = true
      · have other : a ≠ 3 := by
          simp only [Bool.and_eq_true, decide_eq_true_eq] at ok
          rw [ok.2]
          decide
        exact h.via fun k => k.storeIf other
      · rw [Bool.not_eq_true] at ok
        rw [ok]
        exact h

/-- What OUT leaves: done with the write, or an exception of a state that is kept. -/
def Written (m : Mach) : Except Exc (Flow × Mach) → Prop
  | .ok r => r.1 = .done ∧ Runs m r.2
  | .error e => Keeps false m e.at_

theorem Written.bind {α : Type} {a : CoreAct α} {b : α → CoreAct Flow} (ha : Keeping a)
    (hb : ∀ r m x, Keeps false m x → Written m (b r x)) (h : Keeps false m x) : Written m ((a >>= b) x) := by
  have done := ha h
  cases e : a x with
  | ok r => rw [coreBind_ok _ _ _ _ _ e]; rw [e] at done; exact hb r.1 m r.2 done
  | error f => rw [coreBind_error e]; rw [e] at done; exact done

theorem outBody_written {q : Nat} (h : Keeps false m x) : Written m (outBody q x) := by
  unfold outBody
  refine .bind .stackCheck (fun _ _ _ h => .bind .popN (fun _ _ _ h => ?_) h) h
  refine .bind .pAccess (fun _ _ _ h => .bind .drainStores (fun _ _ _ h => ?_) h) h
  exact ⟨rfl, (h.countInstr.advancePc.runs).pWrite⟩

theorem Runs.coreOut {q : Nat} : Runs m (m.coreRun q 1 (outBody q)) := by
  have out : Written m ((do fetchInstr q 1 (m.arch q).pc; outBody q : CoreAct Flow) m) :=
    .bind .fetchInstr (fun _ _ _ h => outBody_written h) (Keeps.refl false m)
  have ended : Runs m (m.coreEnd q 1 (m.arch q).pc ((do fetchInstr q 1 (m.arch q).pc; outBody q : CoreAct Flow) m)) := by
    generalize (do fetchInstr q 1 (m.arch q).pc; outBody q : CoreAct Flow) m = r at out
    match r, out with
    | .error e, kept => exact kept.undo.wrongPath.takeExc.runs
    | .ok (_, n), ⟨done, written⟩ =>
      cases done
      exact written.via fun k => k.endInstr.fpDue
  have stalled : Runs m (m.stalled (m.coreEnd q 1 (m.arch q).pc ((do fetchInstr q 1 (m.arch q).pc; outBody q : CoreAct Flow) m))) :=
    Runs.ite (.refl m) ended
  exact Runs.ite (Runs.ite ((Runs.refl m).via fun k => k.fpDue) (stalled.via fun k => k.lateReset)) (.refl m)

end Sys2Proof.Machine
end

section
/-! PROOFS. What the commands of a call slip keep. -/

namespace Sys2Proof.Machine

open Sys2Proof

/-- Whatever state an act gives is one that `m` runs to. -/
def Slipping (m : Mach) (a : Except SlipErr Mach) : Prop := ∀ n, a = .ok n → Runs m n

namespace Slipping

variable {m x : Mach}

theorem ok (h : Runs m x) : Slipping m (.ok x) := fun _ e => Except.ok.inj e ▸ h

theorem error {r : SlipErr} : Slipping m (.error r) := fun _ e => nomatch e

theorem bind {α : Type} {a : Except SlipErr α} {b : α → Except SlipErr Mach} (hb : ∀ v, a = .ok v → Slipping m (b v)) :
    Slipping m (a >>= b) := by
  cases e : a with
  | error r => exact error
  | ok v => exact hb v e

theorem ite {p : Prop} [Decidable p] {a b : Except SlipErr Mach} (ha : Slipping m a) (hb : Slipping m b) :
    Slipping m (if p then a else b) := by
  split
  · exact ha
  · exact hb

end Slipping

namespace Runs

variable {m x y : Mach}

/-! ### Words written for a slip -/

theorem slipWrite {j : Job} {sp a : Nat} {v : Word} (h : Runs m x) (done : x.slipWrite j sp a v = .ok y) : Runs m y := by
  unfold Mach.slipWrite at done
  split at done
  · split at done
    · exact Except.ok.inj done ▸ h
    · exact h.via fun k => k.carWrite done
  · split at done
    · exact nomatch done
    · exact Except.ok.inj done ▸ h.pWrite

theorem slipMark {j : Job} {sp : Nat} {as : List Nat} (h : Runs m x) : Runs m (x.slipMark j sp as).2 := h.via fun k => k.slipMark

theorem slipPut {j : Job} {sp a : Nat} {v : Word} (h : Runs m x) : Slipping m (x.slipPut j sp a v) := by
  unfold Mach.slipPut
  refine .bind fun n written => ?_
  split
  · exact .error
  · next marked => exact .ok ((h.slipWrite written).slipMark.becomes (congrArg Prod.snd marked))

theorem moveLoop {snap : Option Mach} {j : Job} {s d : Nat × Nat} {up : Bool} {n k : Nat} {l : List Nat} (h : Runs m x) :
    Runs m (Machine.moveLoop snap j s d up n k l x).2.2.2 := by
  induction k generalizing l x with
  | zero => exact h
  | succ k ih =>
    unfold Machine.moveLoop
    extract_lets i wrap
    split
    · exact h
    · next read =>
      have hr := h.via fun k => k.slipRead read
      split
      · exact hr
      · next written => exact ih (hr.slipWrite written)

theorem fillLoop {j : Job} {v : Word} {sp a n k : Nat} {l : List Nat} (h : Runs m x) :
    Runs m (Machine.fillLoop j v sp a n k l x).2.2.2 := by
  induction k generalizing l x with
  | zero => exact h
  | succ k ih =>
    unfold Machine.fillLoop
    extract_lets b
    split
    · exact h
    · next written => exact ih (h.slipWrite written)

theorem postLoop {j : Job} {sp a : Nat} {vs : List Word} {l : List Nat} (h : Runs m x) :
    Runs m (Machine.postLoop j sp vs a l x).2.2.2 := by
  induction vs generalizing a l x with
  | nil => exact h
  | cons v vs ih =>
    unfold Machine.postLoop
    split
    · exact h
    · next written => exact ih (h.slipWrite written)

theorem tryLock {j : Job} {a : Nat} {ok : Bool} (h : Runs m x) (done : x.tryLock j a = .ok (ok, y)) : Runs m y := by
  have all : ∀ v, x.carRead j.carrel j.sr a = .ok v → Runs m y := by
    intro v read
    have hmet : Runs m (x.met j.carrel j.sr a 1) := h.via fun k => k.met
    unfold Mach.tryLock at done
    rw [read] at done
    change (if v = 0 then do
        let m1 ← (x.met j.carrel j.sr a 1).slipPut j 0 a j.lockTag
        .ok (true, m1)
      else .ok (false, x.met j.carrel j.sr a 1)) = Except.ok (ok, y) at done
    split at done
    · cases put : (x.met j.carrel j.sr a 1).slipPut j 0 a j.lockTag with
      | error r => rw [put] at done; exact nomatch done
      | ok z => rw [put] at done; exact (hmet.slipPut z put).becomes (congrArg Prod.snd (Except.ok.inj done))
    · exact hmet.becomes (congrArg Prod.snd (Except.ok.inj done))
  cases read : x.carRead j.carrel j.sr a with
  | error r => unfold Mach.tryLock at done; rw [read] at done; exact nomatch done
  | ok v => exact all v read

/-! ### The frame of a slip -/

theorem slipEnd {e k : Nat} {j : Job} {w : Word} {n : Nat} {r : SlipErr} {count : Nat} (h : Runs m x) :
    Runs m (x.slipEnd e k j w n r count) := h.via fun k => k.slipEnd

theorem slipWoken {e k : Nat} {j : Job} {w : Word} {n : Nat} (h : Runs m x) : Runs m (x.slipWoken e k j w n) := h.slipEnd

theorem slipWait {e k : Nat} {j : Job} {wt : Wait} {folios : Nat} (h : Runs m x) : Runs m (x.slipWait e k j wt folios) :=
  h.via fun k => k.slipWait

theorem slipDo {e k : Nat} {j : Job} {w : Word} {n : Nat} {a : Except SlipErr Mach} (h : Runs m x) (ha : Slipping m a) :
    Runs m (x.slipDo e k j w n a) := by
  unfold Mach.slipDo
  split
  · exact h.via fun k => k.slipEnd.met
  · exact (ha _ rfl).via fun k => k.met

theorem slipRun {e : Nat} {is : Word → Bool} {f : Mach → Nat → Job → Word → Mach}
    (hf : ∀ {y k j w}, Runs m y → Runs m (f y k j w)) (h : Runs m x) : Runs m (x.slipRun e is f) := by
  unfold Mach.slipRun
  split
  · exact h
  · split
    · exact h
    · refine Runs.ite h (Runs.ite (h.via fun k => k.dropJob) ?_)
      split
      · exact h.via fun k => k.endJob
      · exact Runs.ite (Runs.ite h (hf (h.via fun k => k.met))) h

/-! ### The commands (R187 to R196) -/

section

variable {snap : Option Mach} {e k : Nat} {j : Job} {w : Word}

theorem slipMove (h : Runs m x) : Runs m (x.slipMove snap e k j w) := by
  unfold Mach.slipMove
  refine h.slipDo (.bind fun _ _ => .bind fun l _ => .bind fun ⟨ss, sa, n⟩ _ => .bind fun ⟨ds, da, dn⟩ _ => .bind fun _ _ => ?_)
  exact .ok h.moveLoop.slipMark.slipEnd

theorem slipFill (h : Runs m x) : Runs m (x.slipFill e k j w) := by
  unfold Mach.slipFill
  refine h.slipDo (.bind fun _ _ => .bind fun l _ => .bind fun ⟨sp, a, n⟩ _ => ?_)
  exact .ok h.fillLoop.slipMark.slipEnd

theorem slipLane {kind : Nat} (h : Runs m x) : Runs m (x.slipLane kind e k j w) :=
  Runs.ite h.slipWoken (h.slipDo (.bind fun _ _ => .bind fun _ _ => .bind fun _ _ => .ok (h.via fun k => k.leaveEngine.takeLane)))

theorem slipHash (h : Runs m x) : Runs m (x.slipHash e k j w) :=
  Runs.ite h.slipWoken (h.slipDo (.bind fun _ _ => .bind fun _ _ => .bind fun _ _ => .bind fun _ _ => .bind fun _ _ =>
    .ok (h.via fun k => k.leaveEngine.takeLane)))

theorem slipSend (h : Runs m x) : Runs m (x.slipSend e k j w) := by
  unfold Mach.slipSend
  extract_lets lists n s posted
  refine Runs.ite h.slipWoken (h.slipDo (.bind fun _ _ => .bind fun l _ => ?_))
  refine .bind fun _ _ => .bind fun _ _ => .bind fun es _ => .bind fun _ _ => .bind fun _ _ => .bind fun ws _ => .bind fun _ _ => ?_
  have hmet : Runs m (es.foldl (fun y x => y.met j.carrel j.sr x.1 x.2) x) := h.via fun k => k.foldl fun _ _ k => k.met
  refine .ite (.ok (hmet.via fun k => k.setJob.slipEnd)) (.ok (hmet.via fun k => k.slipWait.parts.flushReplies))

theorem slipRaw (h : Runs m x) : Runs m (x.slipRaw e k j w) := by
  unfold Mach.slipRaw
  extract_lets p posted
  refine Runs.ite h.slipWoken (h.slipDo (.bind fun _ _ => .bind fun l _ => ?_))
  refine .bind fun _ _ => .bind fun _ _ => .bind fun ⟨_, a, n⟩ _ => .bind fun _ _ => .bind fun ws _ => .bind fun _ _ => ?_
  have hmet : Runs m (x.met j.carrel j.sr a n) := h.via fun k => k.met
  exact .ite (.ok hmet.slipWait) (.ok (hmet.via fun k => Keeps.ite k.setQueue.slipEnd k.setQueue.slipWait))

theorem slipAwait (h : Runs m x) : Runs m (x.slipAwait e k j w) := by
  unfold Mach.slipAwait
  extract_lets s any
  refine Runs.ite h.slipWoken (h.slipDo (.bind fun _ _ => .bind fun l _ => .bind fun ⟨_, a⟩ _ => ?_))
  dsimp only
  split
  · exact .ok (h.via fun k => k.awaitFound)
  · refine .bind fun _ _ => ?_
    split
    · exact .ok (h.via fun k => k.awaitFound)
    · exact .ok h.slipWait

theorem slipBell (h : Runs m x) : Runs m (x.slipBell e k j w) :=
  Runs.ite h.slipWoken (h.slipDo (.bind fun _ _ => .bind fun _ _ => .bind fun _ _ => .ok h.slipWait))

theorem slipAwaiting {n : Nat} {wt : Wait} (h : Runs m x) : Runs m (x.slipAwaiting e k j w n wt) := h.via fun k => k.slipAwaiting

theorem slipFolio (h : Runs m x) : Runs m (x.slipFolio e k j w) :=
  Runs.ite h.slipWoken (h.slipDo (.bind fun _ _ => .ite (.bind fun _ _ => .ok h.slipAwaiting)
    (.bind fun _ _ => .bind fun _ _ => .ok h.slipAwaiting)))

theorem slipRt (h : Runs m x) : Runs m (x.slipRt e k j w) :=
  Runs.ite h.slipWoken (h.slipDo (.bind fun _ _ => .ite (.ok h.slipAwaiting) (.bind fun _ _ => .bind fun _ _ => .ok h.slipAwaiting)))

theorem slipTest (h : Runs m x) : Runs m (x.slipTest snap e k j w) := by
  unfold Mach.slipTest
  refine h.slipDo (.bind fun _ _ => .bind fun _ _ => .bind fun l _ => .bind fun ⟨sp, a⟩ _ => .bind fun ⟨v, y⟩ read => ?_)
  have hr : Runs m y := h.via fun k => k.slipRead read
  have tested : ∀ {z b}, Runs m z → Runs m ((z.setCc k b).endSlip e k w (j.slip + 4) true (0, 0) 0) :=
    fun hz => hz.via fun k => k.setCc.endSlip
  refine .ite (.bind fun z same => .ok (tested ?_)) (.bind fun z put => .ok (tested (hr.slipPut z put)))
  exact Except.ok.inj same ▸ hr

theorem slipJump (h : Runs m x) : Runs m (x.slipJump e k j w) := h.slipDo (.bind fun _ _ => .ok (h.via fun k => k.endSlip))

theorem slipJumpif (h : Runs m x) : Runs m (x.slipJumpif e k j w) := h.slipDo (.bind fun _ _ => .ok (h.via fun k => k.endSlip))

theorem slipPost (h : Runs m x) : Runs m (x.slipPost e k j w) := by
  unfold Mach.slipPost
  have hmet : Runs m (if nbit w.toNat 37 then x.met j.carrel j.sr (j.blk + 2) 2 else x) := Runs.ite (h.via fun k => k.met) h
  refine h.slipDo (.bind fun _ _ => .bind fun l _ => .bind fun ⟨sp, a⟩ _ => ?_)
  refine .ite (.bind fun vs _ => ?_) (.bind fun vs _ => ?_)
  · exact .ok hmet.postLoop.slipMark.slipEnd
  · exact .ok hmet.postLoop.slipMark.slipEnd

theorem slipLock (h : Runs m x) : Runs m (x.slipLock e k j w) := by
  refine Runs.ite h.slipWoken (h.slipDo (.bind fun _ _ => .bind fun l _ => .bind fun ⟨_, a⟩ _ => .bind fun ⟨ok, y⟩ locked => ?_))
  exact .ok (Runs.ite (h.tryLock locked).slipEnd (h.tryLock locked).slipWait)

theorem slipUnlock (h : Runs m x) : Runs m (x.slipUnlock e k j w) := by
  refine h.slipDo (.bind fun _ _ => .bind fun l _ => .bind fun ⟨_, a⟩ _ => .bind fun v _ => .bind fun _ _ => .bind fun z put => ?_)
  have hmet : Runs m (x.met j.carrel j.sr a 1) := h.via fun k => k.met
  exact .ok (hmet.slipPut z put).slipEnd

theorem slipNote (h : Runs m x) : Runs m (x.slipNote e k j w) := by
  unfold Mach.slipNote
  refine Runs.ite h.slipWoken (h.slipDo (.bind fun _ _ => ?_))
  extract_lets jn put m1
  have noted : Runs m m1 := h.via fun k => k.setJob.parts.deliver
  clear_value m1
  split
  · exact .ok noted
  · exact .ite (.ok (noted.via fun k => k.parts.setJob.slipEnd)) (.ok (noted.via fun k => k.leaveEngine))

theorem slipStop (h : Runs m x) : Runs m (x.slipStop e k j w) := h.slipDo (.bind fun _ _ => .ok (h.via fun k => k.endJob.countAt))

end

theorem lockAgain {k : Nat} (h : Runs m x) : Runs m (x.lockAgain k) := by
  unfold Mach.lockAgain
  split
  · exact h
  · split
    · refine Runs.ite h ?_
      split
      · exact h.via fun k => k.wakeJob
      · next locked => exact Runs.ite (Runs.ite h ((h.tryLock locked).via fun k => k.wakeJob)) (h.tryLock locked)
    · exact h

end Runs

end Sys2Proof.Machine
end

section
/-! PROOFS. What resets, the supplies, the boot, the time and the twin leave. -/

namespace Sys2Proof.Machine

open Sys2Proof

variable {b c : Bool} {m x n o : Mach}

/-! ### The twin's heartbeats (R133 to R161) -/

theorem Keeps.refreshPref (h : Keeps false m x) : Keeps false m x.refreshPref := h.setFld.twnAlarm

theorem Keeps.noteTwin {a : Heartbeat} (h : Keeps false m x) : Keeps false m (x.noteTwin a) :=
  Keeps.ite h.parts.setFld.setReg.refreshPref h.parts.setFld.setReg.refreshPref.twnAlarm

theorem Keeps.heardTwin {a : Heartbeat} (h : Keeps false m x) : Keeps false m (x.heardTwin a) :=
  h.noteTwin.confirmedBy.roleHeard.refreshTwn.refreshHealth

theorem Keeps.hearA {a : Heartbeat} (h : Keeps false m x) : Keeps false m (x.hearA a) :=
  Keeps.ite h.parts.setFld.setReg.setReg.setReg.heardTwin h.count

theorem Keeps.hearB {bits : Nat} (h : Keeps false m x) : Keeps false m (x.hearB bits) := by
  unfold Mach.hearB
  split
  · exact h.count
  · exact Keeps.ite h.parts.setFld.heardTwin h.count

/-! ### What every command leaves -/

/-- What every command leaves of a state `m`: memory canonical, RT not lower while VAUX lasts and outside the charter, and, for a
command that is not to clear it (`held`), the fence latch while the module is up. -/
structure Lasts (held : Bool) (m n : Mach) : Prop where
  wf : Memory.wf m.mem = true → Memory.wf n.mem = true
  clock : m.phase ≠ 1 → m.pins.vaux = true → n.pins.vaux = true → m.rt ≤ n.rt
  latch : held = true → m.up = true → m.twin.latch = true → n.twin.latch = true ∨ n.up = false

theorem Runs.lasts (h : Runs m n) : Lasts b m n := ⟨h.wf, fun p _ _ => (h.clock p).2, fun _ _ l => .inl (h.latch l)⟩

theorem Keeps.lasts (h : Keeps c m n) : Lasts b m n := h.runs.lasts

theorem Lasts.refl (m : Mach) : Lasts b m m := (Runs.refl m).lasts

theorem Lasts.ite {p : Prop} [Decidable p] {y z : Mach} (hy : Lasts b m y) (hz : Lasts b m z) : Lasts b m (if p then y else z) := by
  split
  · exact hy
  · exact hz

/-- A sound act that leaves RT. -/
theorem Sound.lasts (h : Sound m n) (rt : n.rt = m.rt) : Lasts b m n :=
  ⟨h.wf, fun _ _ _ => Nat.le_of_eq rt.symm, fun _ _ l => .inl (h.latch l)⟩

theorem Lasts.sound (h : Lasts b m x) (g : Sound x n) (rt : n.rt = x.rt) : Lasts b m n :=
  ⟨fun w => g.wf (h.wf w), fun p on still => rt ▸ h.clock p on (g.pins ▸ still), fun held up l =>
    (h.latch held up l).imp g.latch fun down => (congrArg (fun p : Pins => p.vaux && !p.inReset) g.pins).trans down⟩

theorem Lasts.via (h : Lasts b m x) (k : Keeps false x x → Keeps false x n) : Lasts b m n :=
  h.sound (k (Keeps.refl false x)).sound (k (Keeps.refl false x)).rt

theorem Mach.setFld_rt (m : Mach) (a : Nat) (f : Fld) (v : Nat) : (m.setFld a f v).rt = m.rt := by
  unfold Mach.setFld
  simp

theorem Lasts.setFld {a f v} (h : Lasts b m x) : Lasts b m (x.setFld a f v) :=
  h.sound (Keeps.refl false x).sound.setFld (Mach.setFld_rt x a f v)

/-- Pins that change alone. -/
theorem Lasts.pins {p : Pins} : Lasts b m { m with pins := p } := ⟨id, fun _ _ _ => Nat.le_refl _, fun _ _ l => .inl l⟩

/-- What is kept after pins that change alone. -/
theorem Lasts.pinned {p : Pins} (h : Keeps false { m with pins := p } n) : Lasts b m n :=
  ⟨h.wf, fun _ _ _ => Nat.le_of_eq h.rt.symm, fun _ _ l => .inl (h.latch l)⟩

/-! ### Supplies and resets (R41, R434 to R441) -/

/-- A MODULE reset leaves memory empty, RT as it stood and the module down. -/
theorem Lasts.moduleReset {cause : Nat} (rt : x.rt = m.rt) : Lasts b m (x.moduleReset cause) :=
  ⟨fun _ => rfl, fun _ _ _ => Nat.le_of_eq rt.symm, fun _ _ _ => .inr (Bool.and_false _)⟩

theorem Lasts.powerFault (rt : x.rt = m.rt) (hx : Lasts b m x) : Lasts b m x.powerFault := Lasts.ite (.moduleReset rt) hx

/-- Where VAUX is absent before or after, the module starts again. -/
theorem Lasts.powerUp (off : m.pins.vaux = false) : Lasts b m m.powerUp :=
  ⟨fun _ => rfl, fun _ on => absurd on (by rw [off]; exact Bool.false_ne_true), fun _ up => by simp [Mach.up, off] at up⟩

theorem Lasts.vauxLoss : Lasts b m { m.powerUp with pins := { m.powerUp.pins with vaux := false } } :=
  ⟨fun _ => rfl, fun _ _ on => absurd on Bool.false_ne_true, fun _ _ _ => .inr rfl⟩

theorem Lasts.resetEnd : Lasts b m m.resetEnd := by
  refine .ite (.refl m) (.ite (.refl m) ?_)
  exact Lasts.setFld (Lasts.setFld (Lasts.setFld ⟨id, fun _ _ _ => Nat.le_refl _, fun _ _ l => .inl l⟩))

theorem Lasts.trip {tj : Nat} : Lasts b m (m.trip tj) := by
  unfold Mach.trip
  split
  · exact .refl m
  · extract_lets pins m1 m2 m3
    have hm1 : Lasts b m m1 := .pinned (Keeps.refl false _).moduleLost
    have hm2 : Lasts b m m2 := hm1.via fun k => k.foldl fun _ _ k => k.portDown
    have hm3 : Lasts b m m3 := .ite (hm2.via fun k => k.linkDown) hm2
    exact hm3.via fun k => k.setReg

/-! ### Boot, restart and the charter (R348 to R357) -/

/-- An image that starts changes PHASE, and nothing that lasts. -/
theorem Mach.startImage_lasts {slot : Nat} {os : List Octet} : Lasts b m (m.startImage slot os) := by
  unfold Mach.startImage
  extract_lets n m1 m2 m3 m4 sr m5
  have hm3 : Lasts b m m3 := (Lasts.refl m).via fun k => k.loadVault.measure.measure.setReg.setReg
  have hm4 : Lasts b m m4 := hm3.setFld.via fun k => k.foldl fun _ _ k => k.startUnits
  exact hm4.via fun k => k.parts.startMonitor.swdLoad

/-- What lasts from a state that `m` keeps lasts from `m`. -/
theorem Lasts.after (k : Keeps c m x) (h : Lasts b x n) : Lasts b m n :=
  ⟨fun w => h.wf (k.wf w), fun p on still => k.rt ▸ h.clock (k.phase ▸ p) (k.pins ▸ on) still, fun held up l =>
    h.latch held ((congrArg (fun p : Pins => p.vaux && !p.inReset) k.pins).trans up) (k.latch l)⟩

theorem Lasts.bootVerify {os₁ os₂ : List Octet} : Lasts b m (m.bootVerify os₁ os₂) := by
  unfold Mach.bootVerify
  extract_lets ea m1 eb m2
  have hm1 : Keeps false m m1 := (Keeps.refl false m).setFld
  have hm2 : Keeps false m m2 := hm1.setFld
  refine .ite (.refl m) (.ite ((Keeps.refl false m).setReg (a := Reg.srBoot)).lasts ?_)
  exact .ite (.after hm1 Mach.startImage_lasts) (.ite (.after hm2 Mach.startImage_lasts) hm2.lasts)

theorem Lasts.restartSteps : Lasts b m m.restartSteps := by
  unfold Mach.restartSteps
  extract_lets m0 sr0 m1 m2 m3 m4 m5 y5 sr5 m6 img i d m7 m8
  have hm1 : Keeps false m m1 := (Keeps.refl false m).setFld.setFld.parts.pauseSeal
  have hm4 : Keeps false m m4 := ((hm1.foldl fun _ _ k => k.endLease).foldl fun _ _ k => k.stopSeat).dropSrJobs
  have hm6 : Keeps false m m6 := (hm4.foldl fun _ _ k => k.rewritePage).clearSrSlots.dropStaged.parts
  have hm8 : Keeps false m m8 := (Keeps.ite hm6.setMeas hm6.extendMeas).logMeas.countSat
  exact .ite (.moduleReset hm6.rt) hm8.parts.restartHome.swdLoad.lasts

theorem Lasts.swdExpiry : Lasts b m m.swdExpiry := by
  unfold Mach.swdExpiry
  split
  · exact .refl m
  · refine .ite (.refl m) ?_
    split
    · exact .ite (.moduleReset rfl) .restartSteps
    · exact .restartSteps

theorem Lasts.swdBound : Lasts b m m.swdBound := by
  unfold Mach.swdBound
  split
  · exact .ite (.moduleReset rfl) (.refl m)
  · exact .refl m

theorem Lasts.breach : Lasts b m m.breach := .ite (.refl m) (.moduleReset rfl)

/-! ### The time (R39 to R48) -/

/-- A tick leaves RT as it stood or one higher. -/
theorem Lasts.rtTick : Lasts b m m.rtTick := by
  unfold Mach.rtTick
  refine .ite (.refl m) ?_
  extract_lets y m1
  have hy : Keeps false m y := (Keeps.refl false m).tickEnd.reselect
  have ticked : Lasts b y m1 :=
    ⟨id, fun _ _ _ => by
      show y.rt ≤ if y.rt < rtLast then y.rt + 1 else y.rt
      split
      · omega
      · omega, fun _ _ l => .inl l⟩
  exact (Lasts.after hy ticked).via fun k => (Keeps.ite k.setFld k).tickWork

theorem Runs.ppsEdge {sub : Nat} : Runs m (m.ppsEdge sub) := by
  unfold Mach.ppsEdge
  extract_lets secs m1 m2
  have hm1 : Keeps false m m1 := (Keeps.refl false m).setFld
  have loaded : ¬ secs % 2 ^ 40 * 2 ^ 24 < m.rt → Runs m m2 := fun ahead =>
    hm1.runs.loadRt (by rw [hm1.rt]; exact Nat.le_of_not_lt ahead)
  clear_value m1 m2 secs
  split
  · exact .refl m
  · split
    · split
      · exact hm1.setFld.runs
      · next ahead => exact (loaded ahead).via fun k => k.parts
    · exact (Keeps.refl false m).parts.runs

/-! ### The end of a handover (R154, R155, R158) -/

/-- A fence latch that is cleared. -/
theorem Lasts.cleared {t : Twin} {sealing} : Lasts false m { m with twin := t, sealing := sealing } :=
  ⟨id, fun _ _ _ => Nat.le_refl _, fun held => nomatch held⟩

theorem Lasts.handoverTaken {epoch : Nat} : Lasts false m (m.handoverTaken epoch) := by
  unfold Mach.handoverTaken
  split
  · refine .ite ?_ (.refl m)
    exact Lasts.cleared.via fun k => k.endHandover.stopShipping.setLease.setRole.setEpoch.setFld.setPair
  · exact .refl m

theorem Lasts.handoverAborted {v : Nat} : Lasts false m (m.handoverAborted v) :=
  .ite (Lasts.cleared.via fun k => k.endHandover) (.refl m)

theorem Lasts.twinRx {head : TwinHead} {code : Nat} {act : Mach → Mach} (h : Lasts b m (act m)) : Lasts b m (m.twinRx head code act) :=
  .ite (.refl m) (.ite (Keeps.refl false m).linkError.lasts (.ite (Keeps.refl false m).count.lasts (.ite h (.refl m))))

end Sys2Proof.Machine
end

section
/-! PROOFS. What every command leaves: canonical memory, a time that does not fall, a fence latch that holds. -/

namespace Sys2Proof.Machine

open Sys2Proof

/-- The commands that end a handover or the synchronisation, and with it the fence latch (R154, R155, R158). -/
def clearsLatch : Instr → Bool
  | .syncComplete => true
  | .taken _ => true
  | .abortMsg _ => true
  | _ => false

section

variable {b : Bool} {f : Mach → Mach} {s t : State}

theorem lasts (h : s.lift f = .next t) (hf : ∀ m, Lasts b m (f m)) : Lasts b s.toMach t.toMach := by
  cases h
  exact hf s.toMach

theorem ran (h : s.lift f = .next t) (hf : ∀ {m}, Runs m m → Runs m (f m)) : Lasts b s.toMach t.toMach :=
  lasts h fun m => (hf (Runs.refl m)).lasts

theorem kept (h : s.lift f = .next t) (hf : ∀ {m}, Keeps false m m → Keeps false m (f m)) : Lasts b s.toMach t.toMach :=
  lasts h fun m => (hf (Keeps.refl false m)).lasts

theorem lasts_nakFrame {p : PortId} {r : RxFrame} (h : execNakFrame p r s = .next t) : Lasts b s.toMach t.toMach := by
  refine kept h fun k => k.rxTyped fun k => k.countAt.onConn fun k => ?_
  split
  · exact Keeps.ite k.retransmit k
  · exact k

theorem lasts_probeFrame {p : PortId} {r : RxFrame} (h : execProbeFrame p r s = .next t) : Lasts b s.toMach t.toMach := by
  refine kept h fun k => k.rxTyped fun k => k.onConn fun k => ?_
  split
  · exact Keeps.ite k k.connSend
  · exact k

theorem lasts_lcpFrameDiscard {p : PortId} {r : RxFrame} (h : execLcpFrameDiscard p r s = .next t) :
    Lasts b s.toMach t.toMach := by
  refine kept h fun k => Keeps.ite ?_ k
  split
  · exact k.rxCount.rxDrop
  · exact k

theorem lasts_plainFrame {p : PortId} {r : RxFrame} (h : execPlainFrame p r s = .next t) : Lasts b s.toMach t.toMach := by
  refine kept h fun k => Keeps.ite ?_ k
  split
  · exact k.rxCount.queuePlain
  · exact k

theorem lasts_ptpFrame {p : PortId} {r : RxFrame} (h : execPtpFrame p r s = .next t) : Lasts b s.toMach t.toMach := by
  refine kept h fun k => Keeps.ite ?_ k
  split
  · exact k.rxCount.queuePlain
  · exact k

theorem lasts_macControlFrame {p : PortId} {r : RxFrame} (h : execMacControlFrame p r s = .next t) :
    Lasts b s.toMach t.toMach := by
  refine kept h fun k => Keeps.ite ?_ k
  split
  · exact k.rxCount.rxDrop
  · exact k

theorem lasts_ackDue {ses : SesId} (h : execAckDue ses s = .next t) : Lasts b s.toMach t.toMach := by
  refine kept h fun k => k.withConn fun _ => ?_
  split
  · exact Keeps.ite k.connSend k
  · exact k

theorem lasts_handoverAbortTimeout (h : execHandoverAbortTimeout s = .next t) : Lasts b s.toMach t.toMach := by
  refine kept h fun k => ?_
  split
  · exact Keeps.ite k.twinSend.endHandover k
  · exact k

theorem lasts_twinAliveInLow (h : execTwinAliveInLow s = .next t) : Lasts b s.toMach t.toMach := by
  refine lasts h fun m => ?_
  extract_lets pins m1 m2
  have shown : Keeps false m1 m2 := (Keeps.refl false m1).setFld
  exact .ite (.pinned (Keeps.ite shown shown.twnAlarm).confirmPending) .pins

theorem lasts_ackTimeoutSolo (h : execAckTimeoutSolo s = .next t) : Lasts b s.toMach t.toMach := by
  refine kept h fun {m} k => ?_
  extract_lets late m1
  have alone : Keeps false m m1 := k.endHandover.setRole.setLease.setPendingEpoch
  exact Keeps.ite (Keeps.ite alone alone.confirmPending) k

theorem lasts_soloToActive (h : execSoloToActive s = .next t) : Lasts b s.toMach t.toMach := by
  refine kept h fun {m} k => ?_
  extract_lets twin m1 m2
  have active : Keeps false m m2 := k.parts.setRole.setLease.renewLease
  exact Keeps.ite (active.foldl fun _ _ k => k.soloToTwin).releaseAll.flushReplies k

theorem lasts_vauxRise (h : execVauxRise s = .next t) : Lasts b s.toMach t.toMach := by
  refine lasts h fun m => ?_
  split
  · exact .refl m
  · next off => exact .powerUp (Bool.not_eq_true _ ▸ off)

theorem lasts_stocktakeLatch (h : execStocktakeLatch s = .next t) : Lasts b s.toMach t.toMach := by
  unfold execStocktakeLatch at h
  split at h
  · split at h
    · cases h
      exact (Keeps.refl false s.toMach).stkLatched.lasts
    · cases h
      exact .refl _
  · cases h
    exact .refl _

end

/-- Every command keeps what lasts. -/
theorem exec_lasts {s t : State} : (c : Instr) → exec c s = .next t → Lasts (!clearsLatch c) s.toMach t.toMach
  | .rtTick, h => lasts (show execRtTick s = _ from h) fun _ => .rtTick
  | .refclkLoss a0, h => kept (show execRefclkLoss a0 s = _ from h) fun k => k.refLost
  | .refclkReturn a0, h => kept (show execRefclkReturn a0 s = _ from h) fun k => k.refBack
  | .ppsEdge a0, h => ran (show execPpsEdge a0 s = _ from h) fun _ => .ppsEdge
  | .ppsIntervalEnd, h => kept (show execPpsIntervalEnd s = _ from h) fun k => k.ppsEnd
  | .rtArm a0 a1, h => ran (show execRtArm a0 a1 s = _ from h) fun k => k.rtCtlSet
  | .rtLoadnow a0 a1, h => ran (show execRtLoadnow a0 a1 s = _ from h) fun k => k.rtCtlSet
  | .rtForce a0 a1, h => ran (show execRtForce a0 a1 s = _ from h) fun k => k.rtCtlSet
  | .rtRefselWrite a0 a1, h => ran (show execRtRefselWrite a0 a1 s = _ from h) fun k => k.rtCtlSet
  | .rtPpsenClear a0 a1, h => ran (show execRtPpsenClear a0 a1 s = _ from h) fun k => k.rtCtlSet
  | .bellActWrite a0 a1 a2, h => kept (show execBellActWrite a0 a1 a2 s = _ from h) fun k => k.bellActSet
  | .bellTimeWrite a0 a1 a2 a3, h => kept (show execBellTimeWrite a0 a1 a2 a3 s = _ from h) fun k => k.bellTimeSet
  | .gateKeyWrite a0 a1 a2, h => kept (show execGateKeyWrite a0 a1 a2 s = _ from h) fun k => k.gateKeySet
  | .bellFire a0, h => kept (show execBellFire a0 s = _ from h) fun k => k.bellFire
  | .folioClose, h => kept (show execFolioClose s = _ from h) fun k => k.folioClose
  | .tallyCalibration, h => kept (show execTallyCalibration s = _ from h) fun k => Keeps.ite k.calibrate k
  | .linkUp a0, h => kept (show execLinkUp a0 s = _ from h) fun k => k.portUp
  | .linkLoss a0, h => kept (show execLinkLoss a0 s = _ from h) fun k => k.portDown
  | .portReset a0 a1 a2, h => kept (show execPortReset a0 a1 a2 s = _ from h) fun k => k.portResetSet
  | .helloFrame a0 a1, h => kept (show execHelloFrame a0 a1 s = _ from h) fun k => k.rxTyped fun k => k.hello
  | .dataFrame a0 a1, h => kept (show execDataFrame a0 a1 s = _ from h) fun k => k.rxTyped fun k => k.onConn fun k => k.data
  | .ackFrame a0 a1, h => kept (show execAckFrame a0 a1 s = _ from h) fun k => k.rxTyped fun k => k.onConn fun k => k
  | .nakFrame _ _, h => lasts_nakFrame h
  | .creditFrame a0 a1, h => kept (show execCreditFrame a0 a1 s = _ from h) fun k => k.rxTyped fun k => k.onConn fun k => k.flushReplies
  | .byeFrame a0 a1, h => kept (show execByeFrame a0 a1 s = _ from h)
    fun k => k.rxTyped fun k => k.onConn fun k => k.inSequence k.takeSeq.connSend.closeConn
  | .probeFrame _ _, h => lasts_probeFrame h
  | .lcpFrameDiscard _ _, h => lasts_lcpFrameDiscard h
  | .plainFrame _ _, h => lasts_plainFrame h
  | .ptpFrame _ _, h => lasts_ptpFrame h
  | .macControlFrame _ _, h => lasts_macControlFrame h
  | .ackDue _, h => lasts_ackDue h
  | .retransmitTimeout a0, h => kept (show execRetransmitTimeout a0 s = _ from h) fun k => k.withConn fun _ => Keeps.ite k.retransmit k
  | .idleProbe a0, h => kept (show execIdleProbe a0 s = _ from h) fun k => k.withConn fun _ => Keeps.ite k.draw.setLive.connSend k
  | .idleTimeout a0, h => kept (show execIdleTimeout a0 s = _ from h) fun k => k.withConn fun _ => Keeps.ite k.bye k
  | .epochFrameRepeat a0, h => kept (show execEpochFrameRepeat a0 s = _ from h) fun k => k.epochFrame
  | .sesStorageWrite a0 a1 a2, h => kept (show execSesStorageWrite a0 a1 a2 s = _ from h) fun k => k.sesCtlWrite
  | .kick a0 a1 a2, h => kept (show execKick a0 a1 a2 s = _ from h) fun k => k.sesCtlWrite
  | .retire a0 a1 a2, h => kept (show execRetire a0 a1 a2 s = _ from h) fun k => k.sesCtlWrite
  | .mergeEmit, h => kept (show execMergeEmit s = _ from h) fun k => Keeps.ite k.emitOne k
  | .accTailWrite a0 a1 a2, h => kept (show execAccTailWrite a0 a1 a2 s = _ from h) fun k => k.accTail
  | .accRingWrite a0 a1 a2 a3, h => kept (show execAccRingWrite a0 a1 a2 a3 s = _ from h) fun k => k.accRing
  | .accCtlWrite a0 a1 a2, h => kept (show execAccCtlWrite a0 a1 a2 s = _ from h) fun k => k.accCtlSet
  | .accQuotaWrite a0 a1 a2, h => kept (show execAccQuotaWrite a0 a1 a2 s = _ from h) fun k => k.accQuotaSet
  | .accNextWrite a0 a1 a2 a3, h => kept (show execAccNextWrite a0 a1 a2 a3 s = _ from h) fun k => k.accNextSet
  | .accn a0, h => kept (show execAccn a0 s = _ from h) fun k => k.coreRun .accnBody
  | .accnComplete a0, h => kept (show execAccnComplete a0 s = _ from h) fun k => k.accnComplete
  | .twinLinkUp, h => kept (show execTwinLinkUp s = _ from h) fun k => Keeps.ite k.parts k
  | .twinLinkDown, h => kept (show execTwinLinkDown s = _ from h) fun k => Keeps.ite k.linkDown k
  | .twinAuth a0, h => kept (show execTwinAuth a0 s = _ from h) fun k => Keeps.ite k.parts.newKey k
  | .twinKeyRenew, h => kept (show execTwinKeyRenew s = _ from h) fun k => Keeps.ite k.newKey k
  | .heartbeatSend, h => kept (show execHeartbeatSend s = _ from h) fun k => Keeps.ite k.parts.twinSend k
  | .heartbeat a0 a1, h => kept (show execHeartbeat a0 a1 s = _ from h) fun k => k.twinRx k.hearA
  | .pulseFrameSend, h => kept (show execPulseFrameSend s = _ from h) fun k => Keeps.ite k.parts.send k
  | .pulseFrame a0, h => kept (show execPulseFrame a0 s = _ from h) fun k => Keeps.ite k.hearB k
  | .pulseInSilence, h => kept (show execPulseInSilence s = _ from h) fun k => Keeps.ite k.losePath k
  | .heartbeatTimeout a0, h => kept (show execHeartbeatTimeout a0 s = _ from h) fun k => Keeps.ite k.losePath k
  | .twinAliveInLow, h => lasts_twinAliveInLow h
  | .loopbackFail, h => kept (show execLoopbackFail s = _ from h) fun k => Keeps.ite k.fenceBarred.parts k
  | .folioShipment, h => kept (show execFolioShipment s = _ from h) fun k => k.shipNext.handoverFinish
  | .folioBegin a0 a1 a2, h => kept (show execFolioBegin a0 a1 a2 s = _ from h) fun k => k.twinRx k.holdBegin
  | .recordsMsg a0 a1 a2, h => kept (show execRecordsMsg a0 a1 a2 s = _ from h) fun k => k.twinRx k.holdRecords
  | .stateMsg a0, h => kept (show execStateMsg a0 s = _ from h) fun k => k.twinRx k.holdState
  | .linesMsg a0 a1, h => kept (show execLinesMsg a0 a1 s = _ from h) fun k => k.twinRx k.holdLines
  | .folioEnd a0 a1, h => kept (show execFolioEnd a0 a1 s = _ from h) fun k => k.twinRx k.holdEnd
  | .folioAck a0 a1, h => kept (show execFolioAck a0 a1 s = _ from h) fun k => k.twinRx k.folioAcked
  | .folioRedo a0 a1, h => kept (show execFolioRedo a0 a1 s = _ from h) fun k => k.twinRx k.folioRedone
  | .seals a0, h => kept (show execSeals a0 s = _ from h) fun k => k.twinRx (Keeps.ite (k.foldl fun _ _ k => k.takeSeal) k)
  | .ackTimeoutSolo, h => lasts_ackTimeoutSolo h
  | .leaseExpiry, h => kept (show execLeaseExpiry s = _ from h) fun k => Keeps.ite k.fence k
  | .takeoverPromotion, h => kept (show execTakeoverPromotion s = _ from h)
    fun k => Keeps.ite (Keeps.ite k.promote (Keeps.ite k.goSolo k)) k
  | .lostFence, h => kept (show execLostFence s = _ from h) fun k => Keeps.ite k.fence k
  | .twnFence a0 a1, h => kept (show execTwnFence a0 a1 s = _ from h) fun k => k.twnCtlSet
  | .twnInit a0 a1, h => kept (show execTwnInit a0 a1 s = _ from h) fun k => k.twnCtlSet
  | .handreq a0 a1, h => kept (show execHandreq a0 a1 s = _ from h) fun k => k.twnCtlSet
  | .handoverStart, h => kept (show execHandoverStart s = _ from h) fun k => Keeps.ite k.twinSend k
  | .handoverReq a0, h => kept (show execHandoverReq a0 s = _ from h) fun k => k.twinRx k.handoverAsked
  | .handoverAck a0, h => kept (show execHandoverAck a0 s = _ from h) fun k => k.twinRx k.handoverAgreed
  | .handoverQuiesce, h => kept (show execHandoverQuiesce s = _ from h) fun k => k.handoverQuiesce
  | .handoverDone a0 a1, h => kept (show execHandoverDone a0 a1 s = _ from h) fun k => k.twinRx k.handoverHeard
  | .taken a0, h => lasts (show execTaken a0 s = _ from h) fun _ => .twinRx .handoverTaken
  | .handoverAbortTimeout, h => lasts_handoverAbortTimeout h
  | .abortMsg a0, h => lasts (show execAbortMsg a0 s = _ from h) fun _ => .twinRx .handoverAborted
  | .syncCheckPass a0, h => kept (show execSyncCheckPass a0 s = _ from h) fun k => k.syncCheck
  | .syncReq, h => kept (show execSyncReq s = _ from h) fun k => Keeps.ite k.stopShipping.parts k
  | .syncMark a0 a1 a2, h => kept (show execSyncMark a0 a1 a2 s = _ from h) fun k => k.twinRx k.takeMark
  | .syncBulk a0 a1, h => kept (show execSyncBulk a0 a1 s = _ from h) fun k => k.twinRx k.takeBulk
  | .syncComplete, h => lasts (show execSyncComplete s = _ from h) fun m => .ite (Lasts.cleared.via fun k => k.setRole) (.refl m)
  | .soloToActive, h => lasts_soloToActive h
  | .twnMirpageWrite a0 a1, h => kept (show execTwnMirpageWrite a0 a1 s = _ from h) fun k => k.mirPageSet
  | .sealAppend, h => kept (show execSealAppend s = _ from h) fun k => Keeps.ite k.sealAppend k
  | .sealTailWrite a0 a1, h => kept (show execSealTailWrite a0 a1 s = _ from h) fun k => k.sealTailSet
  | .sealCtlWrite a0 a1 a2, h => kept (show execSealCtlWrite a0 a1 a2 s = _ from h) fun k => k.sealCtlSet
  | .door a0, h => kept (show execDoor a0 s = _ from h) fun k => k.coreRun .doorBody
  | .enginePick a0, h => kept (show execEnginePick a0 s = _ from h) fun k => k.pickJob
  | .quantumExpiry a0, h => kept (show execQuantumExpiry a0 s = _ from h) fun k => Keeps.ite k.safePoint k
  | .slipNop a0, h => ran (show execSlipNop a0 s = _ from h) fun k => k.slipRun fun k => k.slipDo (.bind fun _ _ => .ok k.slipEnd)
  | .slipMove a0, h => ran (show execSlipMove a0 s = _ from h) fun k => k.slipRun fun k => k.slipMove
  | .slipFill a0, h => ran (show execSlipFill a0 s = _ from h) fun k => k.slipRun fun k => k.slipFill
  | .slipSend a0, h => ran (show execSlipSend a0 s = _ from h) fun k => k.slipRun fun k => k.slipSend
  | .sendRaw a0, h => ran (show execSendRaw a0 s = _ from h) fun k => k.slipRun fun k => k.slipRaw
  | .await a0, h => ran (show execAwait a0 s = _ from h) fun k => k.slipRun fun k => k.slipAwait
  | .pack a0, h => ran (show execPack a0 s = _ from h) fun k => k.slipRun fun k => k.slipLane
  | .unpack a0, h => ran (show execUnpack a0 s = _ from h) fun k => k.slipRun fun k => k.slipLane
  | .crypt a0, h => ran (show execCrypt a0 s = _ from h) fun k => k.slipRun fun k => k.slipLane
  | .hash a0, h => ran (show execHash a0 s = _ from h) fun k => k.slipRun fun k => k.slipHash
  | .laneResult a0 a1 a2, h => kept (show execLaneResult a0 a1 a2 s = _ from h) fun k => Keeps.ite k.laneResult (Keeps.ite k.laneResult k)
  | .waitbell a0, h => ran (show execWaitbell a0 s = _ from h) fun k => k.slipRun fun k => k.slipBell
  | .waitfolio a0, h => ran (show execWaitfolio a0 s = _ from h) fun k => k.slipRun fun k => k.slipFolio
  | .waitrt a0, h => ran (show execWaitrt a0 s = _ from h) fun k => k.slipRun fun k => k.slipRt
  | .slipWaitWake a0, h => kept (show execSlipWaitWake a0 s = _ from h) fun k => k.slipWake
  | .slipTimeout a0, h => kept (show execSlipTimeout a0 s = _ from h) fun k => k.slipExpire
  | .slipTest a0, h => ran (show execSlipTest a0 s = _ from h) fun k => k.slipRun fun k => k.slipTest
  | .jump a0, h => ran (show execJump a0 s = _ from h) fun k => k.slipRun fun k => k.slipJump
  | .jumpif a0, h => ran (show execJumpif a0 s = _ from h) fun k => k.slipRun fun k => k.slipJumpif
  | .post a0, h => ran (show execPost a0 s = _ from h) fun k => k.slipRun fun k => k.slipPost
  | .lock a0, h => ran (show execLock a0 s = _ from h) fun k => k.slipRun fun k => k.slipLock
  | .lockRetry a0, h => ran (show execLockRetry a0 s = _ from h) fun k => k.lockAgain
  | .unlock a0, h => ran (show execUnlock a0 s = _ from h) fun k => k.slipRun fun k => k.slipUnlock
  | .slipNote a0, h => ran (show execSlipNote a0 s = _ from h) fun k => k.slipRun fun k => k.slipNote
  | .slipStop a0, h => ran (show execSlipStop a0 s = _ from h) fun k => k.slipRun fun k => k.slipStop
  | .slipReservedOpcode a0, h => ran (show execSlipReservedOpcode a0 s = _ from h) fun k => k.slipRun fun k => k.via fun k => k.endJob
  | .ceReset a0 a1 a2, h => kept (show execCeReset a0 a1 a2 s = _ from h) fun k => k.ceCtlSet
  | .clerkEngineFault a0, h => kept (show execClerkEngineFault a0 s = _ from h) fun k => Keeps.ite k.faultEngine k
  | .carrelCreate a0 a1 a2, h => kept (show execCarrelCreate a0 a1 a2 s = _ from h) fun k => k.carRequest
  | .carrelDelete a0 a1 a2, h => kept (show execCarrelDelete a0 a1 a2 s = _ from h) fun k => k.carRequest
  | .carrelBadop a0 a1 a2, h => kept (show execCarrelBadop a0 a1 a2 s = _ from h) fun k => k.carRequest
  | .carReset a0 a1 a2, h => kept (show execCarReset a0 a1 a2 s = _ from h) fun k => k.carSet
  | .carrelResetComplete a0, h => kept (show execCarrelResetComplete a0 s = _ from h) fun k => k.carResetDone
  | .carrelResetBound a0, h => kept (show execCarrelResetBound a0 s = _ from h) fun k => k.carResetBound
  | .tenReset a0 a1 a2, h => kept (show execTenReset a0 a1 a2 s = _ from h) fun k => k.tenResetSet
  | .carCqtailWrite a0 a1 a2, h => kept (show execCarCqtailWrite a0 a1 a2 s = _ from h) fun k => k.carSet
  | .cqerrClear a0 a1 a2, h => kept (show execCqerrClear a0 a1 a2 s = _ from h) fun k => k.carSet
  | .newepoch a0 a1 a2, h => kept (show execNewepoch a0 a1 a2 s = _ from h) fun k => k.mplCtlSet
  | .bitmapClearDone a0, h => kept (show execBitmapClearDone a0 s = _ from h) fun k => k.clearDone
  | .tenCtlWrite a0 a1 a2, h => kept (show execTenCtlWrite a0 a1 a2 s = _ from h) fun k => k.tenCtlSet
  | .interruptTake a0, h => kept (show execInterruptTake a0 s = _ from h) fun k => Keeps.ite k.takeInt k
  | .fpTrapReport a0, h => kept (show execFpTrapReport a0 s = _ from h) fun k => Keeps.ite k.fpDue k
  | .waitEnd a0, h => kept (show execWaitEnd a0 s = _ from h) fun k => k.waitDone
  | .lits a0 a1, h => kept (show execLits a0 a1 s = _ from h) fun k => k.coreRun .litBody
  | .lit8 a0 a1, h => kept (show execLit8 a0 a1 s = _ from h) fun k => k.coreRun .litBody
  | .lit16 a0 a1, h => kept (show execLit16 a0 a1 s = _ from h) fun k => k.coreRun .litBody
  | .lit24 a0 a1, h => kept (show execLit24 a0 a1 s = _ from h) fun k => k.coreRun .litBody
  | .litw a0, h => kept (show execLitw a0 s = _ from h) fun k => k.coreRun .litwBody
  | .nop a0, h => kept (show execNop a0 s = _ from h) fun k => k.coreRun .pure
  | .illegalOpcode a0 a1 a2, h => kept (show execIllegalOpcode a0 a1 a2 s = _ from h) fun k => Keeps.ite (k.coreRun .illegalBody) k
  | .dup a0, h => kept (show execDup a0 s = _ from h) fun k => k.coreRun (.dsBody fun _ => .pure)
  | .drop a0, h => kept (show execDrop a0 s = _ from h) fun k => k.coreRun (.dsBody fun _ => .pure)
  | .swap a0, h => kept (show execSwap a0 s = _ from h) fun k => k.coreRun (.dsBody fun _ => .pure)
  | .over a0, h => kept (show execOver a0 s = _ from h) fun k => k.coreRun (.dsBody fun _ => .pure)
  | .rot a0, h => kept (show execRot a0 s = _ from h) fun k => k.coreRun (.dsBody fun _ => .pure)
  | .nip a0, h => kept (show execNip a0 s = _ from h) fun k => k.coreRun (.dsBody fun _ => .pure)
  | .tuck a0, h => kept (show execTuck a0 s = _ from h) fun k => k.coreRun (.dsBody fun _ => .pure)
  | .pick a0, h => kept (show execPick a0 s = _ from h) fun k => k.coreRun .pickBody
  | .put a0, h => kept (show execPut a0 s = _ from h) fun k => k.coreRun .putBody
  | .tor a0, h => kept (show execTor a0 s = _ from h) fun k => k.coreRun .torBody
  | .fromr a0, h => kept (show execFromr a0 s = _ from h) fun k => k.coreRun .fromrBody
  | .peekr a0, h => kept (show execPeekr a0 s = _ from h) fun k => k.coreRun .peekrBody
  | .add a0, h => kept (show execAdd a0 s = _ from h) fun k => k.coreRun .twoBodyV
  | .sub a0, h => kept (show execSub a0 s = _ from h) fun k => k.coreRun .twoBodyV
  | .neg a0, h => kept (show execNeg a0 s = _ from h)
    fun k => k.coreRun (.dsBody fun _ => .bind .getArch fun _ => .bind .setArch fun _ => .pure)
  | .mul a0, h => kept (show execMul a0 s = _ from h) fun k => k.coreRun .twoBodyV
  | .mulhs a0, h => kept (show execMulhs a0 s = _ from h) fun k => k.coreRun .twoBody
  | .mulhu a0, h => kept (show execMulhu a0 s = _ from h) fun k => k.coreRun .twoBody
  | .divs a0, h => kept (show execDivs a0 s = _ from h) fun k => k.coreRun .divBody
  | .divu a0, h => kept (show execDivu a0 s = _ from h) fun k => k.coreRun .divBody
  | .rems a0, h => kept (show execRems a0 s = _ from h) fun k => k.coreRun .divBody
  | .remu a0, h => kept (show execRemu a0 s = _ from h) fun k => k.coreRun .divBody
  | .and a0, h => kept (show execAnd a0 s = _ from h) fun k => k.coreRun .twoBody
  | .or a0, h => kept (show execOr a0 s = _ from h) fun k => k.coreRun .twoBody
  | .xor a0, h => kept (show execXor a0 s = _ from h) fun k => k.coreRun .twoBody
  | .not a0, h => kept (show execNot a0 s = _ from h) fun k => k.coreRun .oneBody
  | .shl a0, h => kept (show execShl a0 s = _ from h) fun k => k.coreRun .twoBody
  | .shrl a0, h => kept (show execShrl a0 s = _ from h) fun k => k.coreRun .twoBody
  | .shra a0, h => kept (show execShra a0 s = _ from h) fun k => k.coreRun .twoBody
  | .rol a0, h => kept (show execRol a0 s = _ from h) fun k => k.coreRun .twoBody
  | .eq a0, h => kept (show execEq a0 s = _ from h) fun k => k.coreRun .twoBody
  | .lt a0, h => kept (show execLt a0 s = _ from h) fun k => k.coreRun .twoBody
  | .ltu a0, h => kept (show execLtu a0 s = _ from h) fun k => k.coreRun .twoBody
  | .zeq a0, h => kept (show execZeq a0 s = _ from h) fun k => k.coreRun .oneBody
  | .dadd a0 a1, h => kept (show execDadd a0 a1 s = _ from h) fun k => k.coreRun .decBody
  | .dsub a0 a1, h => kept (show execDsub a0 a1 s = _ from h) fun k => k.coreRun .decBody
  | .dcmp a0 a1, h => kept (show execDcmp a0 a1 s = _ from h) fun k => k.coreRun .dcmpBody
  | .dchk a0 a1, h => kept (show execDchk a0 a1 s = _ from h) fun k => k.coreRun .dchkBody
  | .fadd a0, h => kept (show execFadd a0 s = _ from h) fun k => k.coreRun .fpBody
  | .fsub a0, h => kept (show execFsub a0 s = _ from h) fun k => k.coreRun .fpBody
  | .fmul a0, h => kept (show execFmul a0 s = _ from h) fun k => k.coreRun .fpBody
  | .fdiv a0, h => kept (show execFdiv a0 s = _ from h) fun k => k.coreRun .fpBody
  | .fsqrt a0, h => kept (show execFsqrt a0 s = _ from h) fun k => k.coreRun .fpBody
  | .fma a0, h => kept (show execFma a0 s = _ from h) fun k => k.coreRun .fpBody
  | .fcmp a0, h => kept (show execFcmp a0 s = _ from h) fun k => k.coreRun .fpBody
  | .fcvti a0, h => kept (show execFcvti a0 s = _ from h) fun k => k.coreRun .fpBody
  | .fcvtf a0, h => kept (show execFcvtf a0 s = _ from h) fun k => k.coreRun .fpBody
  | .ftod a0, h => kept (show execFtod a0 s = _ from h) fun k => k.coreRun .fpBody
  | .ffromd a0, h => kept (show execFfromd a0 s = _ from h) fun k => k.coreRun .fpBody
  | .fbar a0, h => kept (show execFbar a0 s = _ from h) fun k => k.coreRun .fbarBody
  | .ld a0, h => kept (show execLd a0 s = _ from h) fun k => k.coreRun .ldBody
  | .st a0, h => kept (show execSt a0 s = _ from h) fun k => k.coreRun .stBody
  | .cas a0, h => kept (show execCas a0 s = _ from h) fun k => k.coreRun .casBody
  | .ild a0, h => kept (show execIld a0 s = _ from h) fun k => k.coreRun .ildBody
  | .ist a0, h => kept (show execIst a0 s = _ from h) fun k => k.coreRun .istBody
  | .inp a0, h => kept (show execInp a0 s = _ from h) fun k => k.coreRun .inBody
  | .outp a0, h => ran (show execOutp a0 s = _ from h) fun _ => .coreOut
  | .br a0 a1, h => kept (show execBr a0 a1 s = _ from h) fun k => k.coreRun .brBody
  | .bz a0 a1, h => kept (show execBz a0 a1 s = _ from h) fun k => k.coreRun .condBody
  | .bnz a0 a1, h => kept (show execBnz a0 a1 s = _ from h) fun k => k.coreRun .condBody
  | .call a0 a1, h => kept (show execCall a0 a1 s = _ from h) fun k => k.coreRun .callBody
  | .ret a0, h => kept (show execRet a0 s = _ from h) fun k => k.coreRun .retBody
  | .jmpi a0, h => kept (show execJmpi a0 s = _ from h) fun k => k.coreRun .jmpiBody
  | .calli a0, h => kept (show execCalli a0 s = _ from h) fun k => k.coreRun .calliBody
  | .callm a0 a1, h => kept (show execCallm a0 a1 s = _ from h) fun k => Keeps.ite k (k.coreRun .callmBody)
  | .retm a0 a1, h => kept (show execRetm a0 a1 s = _ from h) fun k => k.coreRun .retmBody
  | .svc a0 a1, h => kept (show execSvc a0 a1 s = _ from h) fun k => k.coreRun .enterBody
  | .rets a0 a1, h => kept (show execRets a0 a1 s = _ from h) fun k => k.coreRun (.bind .xferCount fun _ => .returnBody)
  | .eret a0, h => kept (show execEret a0 s = _ from h) fun k => k.coreRun .returnBody
  | .getc a0 a1, h => kept (show execGetc a0 a1 s = _ from h) fun k => k.coreRun .getcBody
  | .setc a0 a1, h => kept (show execSetc a0 a1 s = _ from h) fun k => k.coreRun .setcBody
  | .wait a0, h => kept (show execWait a0 s = _ from h) fun k => k.coreRun .waitBody
  | .fence a0, h => kept (show execFence a0 s = _ from h) fun k => k.coreRun .fenceBody
  | .ifence a0, h => kept (show execIfence a0 s = _ from h)
    fun k => k.coreRun (.bind .drainStores fun _ => .bind (.modMach fun k => k.setSeat) fun _ => .pure)
  | .nsca a0, h => kept (show execNsca a0 s = _ from h) fun k => k.coreRun (.lineBody fun k => k.nsClean)
  | .nsia a0, h => kept (show execNsia a0 s = _ from h) fun k => k.coreRun (.lineBody fun k => k.invalLine)
  | .nsfa a0, h => kept (show execNsfa a0 s = _ from h) fun k => k.coreRun (.lineBody fun k => k.nsFlush)
  | .nsce a0, h => kept (show execNsce a0 s = _ from h) fun k => k.coreRun (.entryBody fun k => k.nsCleanEnt)
  | .nsie a0, h => kept (show execNsie a0 s = _ from h) fun k => k.coreRun (.entryBody fun k => k.nsDropEnt)
  | .nsfe a0, h => kept (show execNsfe a0 s = _ from h) fun k => k.coreRun (.entryBody fun k => k.nsFlushEnt)
  | .nscr a0, h => kept (show execNscr a0 s = _ from h) fun k => k.coreRun (.rangeBody fun k => k.nsClean)
  | .nsir a0, h => kept (show execNsir a0 s = _ from h) fun k => k.coreRun (.rangeBody fun k => k.invalRange)
  | .nsfr a0, h => kept (show execNsfr a0 s = _ from h) fun k => k.coreRun (.rangeBody fun k => k.flushRange)
  | .nslock a0, h => kept (show execNslock a0 s = _ from h)
    fun k => k.coreRun (.bind .needLevel fun _ => .bind
      (.stackOp fun _ => .bind .maintAddr fun _ => .bind (fun _ _ k => k.nsLock) fun _ => .pure) fun _ => .pure)
  | .nsunlk a0, h => kept (show execNsunlk a0 s = _ from h) fun k => k.coreRun (.lineBody fun k => k.nsUnlock)
  | .l2ca a0, h => kept (show execL2ca a0 s = _ from h) fun k => k.coreRun (.lineBody fun k => k.markStores.cleanAll)
  | .l2fa a0, h => kept (show execL2fa a0 s = _ from h) fun k => k.coreRun (.lineBody fun k => k.markStores.removeAll)
  | .pflush a0, h => kept (show execPflush a0 s = _ from h) fun k => k.coreRun (.bind (.modMach fun k => k.setSeat) fun _ => .pure)
  | .pbar a0, h => kept (show execPbar a0 s = _ from h) fun k => k.coreRun (.bind .getArch fun _ => .bind .setArch fun _ => .pure)
  | .punbar a0, h => kept (show execPunbar a0 s = _ from h) fun k => k.coreRun (.bind .getArch fun _ => .bind .setArch fun _ => .pure)
  | .nsFillDone a0 a1 a2, h => kept (show execNsFillDone a0 a1 a2 s = _ from h) fun k => k.nsFilled
  | .evictionWritebackDone a0, h => kept (show execEvictionWritebackDone a0 s = _ from h) fun k => Keeps.ite k.writtenBack k
  | .coreXflushWrite a0 a1, h => kept (show execCoreXflushWrite a0 a1 s = _ from h) fun k => k.selfSet
  | .coreXrootWrite a0 a1 a2, h => kept (show execCoreXrootWrite a0 a1 a2 s = _ from h) fun k => k.selfSet
  | .lockstepMismatch a0, h => kept (show execLockstepMismatch a0 s = _ from h) fun k => k.lockMismatch
  | .sparingComplete a0, h => kept (show execSparingComplete a0 s = _ from h) fun k => k.finishMove
  | .comparatorSelftest a0 a1, h => kept (show execComparatorSelftest a0 a1 s = _ from h) fun k => k.selfTest
  | .dualRailViolation a0, h => kept (show execDualRailViolation a0 s = _ from h) fun k => k.railFault
  | .coreCodeError a0 a1, h => kept (show execCoreCodeError a0 a1 s = _ from h) fun k => k.codeError
  | .splitParityError a0 a1, h => kept (show execSplitParityError a0 a1 s = _ from h) fun k => k.parityError
  | .clusterFault a0, h => kept (show execClusterFault a0 s = _ from h) fun k => k.clusterFault
  | .bistComplete a0 a1 a2, h => kept (show execBistComplete a0 a1 a2 s = _ from h) fun k => k.bistDone
  | .rotation a0, h => kept (show execRotation a0 s = _ from h) fun k => k.rotation
  | .bistSeat a0 a1 a2, h => kept (show execBistSeat a0 a1 a2 s = _ from h) fun k => k.bistReqSet
  | .bistUnit a0 a1 a2, h => kept (show execBistUnit a0 a1 a2 s = _ from h) fun k => k.bistReqSet
  | .seatReset a0 a1 a2, h => kept (show execSeatReset a0 a1 a2 s = _ from h) fun k => k.seatResetSet
  | .debugHalt a0, h => kept (show execDebugHalt a0 s = _ from h) fun k => k.dbgHalt
  | .debugResume a0, h => kept (show execDebugResume a0 s = _ from h) fun k => k.dbgResume
  | .debugStep a0, h => kept (show execDebugStep a0 s = _ from h) fun k => k.dbgStep
  | .debugWrite a0 a1 a2, h => kept (show execDebugWrite a0 a1 a2 s = _ from h) fun k => k.dbgRun .dbgWriteBody
  | .debugMemoryAccess a0 a1 a2 a3, h => kept (show execDebugMemoryAccess a0 a1 a2 a3 s = _ from h) fun k => k.dbgRun .dbgMemBody
  | .debugRead a0 a1, h => kept (show execDebugRead a0 a1 s = _ from h) fun k => k.dbgRead
  | .deviceFail a0 a1, h => kept (show execDeviceFail a0 a1 s = _ from h) fun k => k.deviceFail
  | .deviceTrainingStart, h => kept (show execDeviceTrainingStart s = _ from h) fun k => k.trainStart
  | .deviceTrainingEnd a0, h => kept (show execDeviceTrainingEnd a0 s = _ from h) fun k => k.trainEnd
  | .patrolScrubLine a0, h => kept (show execPatrolScrubLine a0 s = _ from h) fun k => k.scrubLine
  | .memSrpageWrite a0 a1, h => kept (show execMemSrpageWrite a0 a1 s = _ from h) fun k => k.srPageSet
  | .chgScan a0 a1, h => kept (show execChgScan a0 a1 s = _ from h) fun k => k.chgReqSet
  | .chgScanDone, h => kept (show execChgScanDone s = _ from h) fun k => k.chgScanDone
  | .memInitComplete a0, h => kept (show execMemInitComplete a0 s = _ from h) fun k => k.memInitDone
  | .bootImageVerify a0 a1, h => lasts (show execBootImageVerify a0 a1 s = _ from h) fun _ => .bootVerify
  | .srAttrPortWrite a0 a1 a2, h => kept (show execSrAttrPortWrite a0 a1 a2 s = _ from h) fun k => k.bySr k.attrPortSet
  | .srAttrPinWrite a0 a1, h => kept (show execSrAttrPinWrite a0 a1 s = _ from h) fun k => k.bySr k.attrPinSet
  | .srAttrEngineWrite a0 a1 a2, h => kept (show execSrAttrEngineWrite a0 a1 a2 s = _ from h) fun k => Keeps.ite (k.bySr k.attrBlockSet) k
  | .attrChangeDone a0, h => kept (show execAttrChangeDone a0 s = _ from h) fun k => Keeps.ite k.attrDone k
  | .srLeaseWrite a0 a1 a2, h => kept (show execSrLeaseWrite a0 a1 a2 s = _ from h) fun k => Keeps.ite (k.bySr k.leaseSet) k
  | .srLeaseExpiry a0, h => kept (show execSrLeaseExpiry a0 s = _ from h) fun k => k.leaseExpiry
  | .swdKick a0 a1, h => kept (show execSwdKick a0 a1 s = _ from h) fun k => k.bySr k.swdKick
  | .swdExpiry, h => lasts (show execSwdExpiry s = _ from h) fun _ => .swdExpiry
  | .swdBoundExpiry, h => lasts (show execSwdBoundExpiry s = _ from h) fun _ => .swdBound
  | .charterCommit a0 a1, h => ran (show execCharterCommit a0 a1 s = _ from h) fun k => Runs.ite k.commitSet k
  | .restartCommit a0 a1, h => ran (show execRestartCommit a0 a1 s = _ from h) fun k => Runs.ite k.commitSet k
  | .fuseProgram a0 a1, h => kept (show execFuseProgram a0 a1 s = _ from h) fun k => k.bySr k.fuseCtlSet
  | .fuseRevoke a0 a1, h => kept (show execFuseRevoke a0 a1 s = _ from h) fun k => k.bySr k.fuseCtlSet
  | .fuseRaiseMinsvn a0 a1, h => kept (show execFuseRaiseMinsvn a0 a1 s = _ from h) fun k => k.bySr k.fuseCtlSet
  | .fuseBadop a0 a1, h => kept (show execFuseBadop a0 a1 s = _ from h) fun k => k.bySr k.fuseCtlSet
  | .fuseOpDone, h => kept (show execFuseOpDone s = _ from h) fun k => k.fuseDone
  | .meshBreach, h => lasts (show execMeshBreach s = _ from h) fun _ => .breach
  | .gcmEnc a0, h => kept (show execGcmEnc a0 s = _ from h) fun k => k.gcmEnc
  | .gcmDec a0, h => kept (show execGcmDec a0 s = _ from h) fun k => k.gcmDec
  | .xtsEnc a0, h => kept (show execXtsEnc a0 s = _ from h) fun k => k.xts
  | .xtsDec a0, h => kept (show execXtsDec a0 s = _ from h) fun k => k.xts
  | .cmacGen a0, h => kept (show execCmacGen a0 s = _ from h) fun k => k.cmacGen
  | .cmacVer a0, h => kept (show execCmacVer a0 s = _ from h) fun k => k.cmacVer
  | .kwWrap a0, h => kept (show execKwWrap a0 s = _ from h) fun k => k.kwWrap
  | .kwUnwrap a0, h => kept (show execKwUnwrap a0 s = _ from h) fun k => k.kwUnwrap
  | .unwrap a0, h => kept (show execUnwrap a0 s = _ from h) fun k => k.unwrapJob
  | .exportKey a0, h => kept (show execExportKey a0 s = _ from h) fun k => k.exportJob
  | .genkey a0, h => kept (show execGenkey a0 s = _ from h) fun k => k.genKey
  | .kemKeygen a0, h => kept (show execKemKeygen a0 s = _ from h) fun k => k.kemKeygen
  | .kemEncaps a0, h => kept (show execKemEncaps a0 s = _ from h) fun k => k.kemEncaps
  | .kemDecaps a0, h => kept (show execKemDecaps a0 s = _ from h) fun k => k.kemDecaps
  | .cipherBadop a0, h => kept (show execCipherBadop a0 s = _ from h) fun k => k.cipherBad
  | .kxSclr a0 a1 a2, h => kept (show execKxSclr a0 a1 a2 s = _ from h) fun k => k.slotClrSet
  | .slotClearDone a0, h => kept (show execSlotClearDone a0 s = _ from h) fun k => k.slotCleared
  | .kxLaneReset a0 a1 a2, h => kept (show execKxLaneReset a0 a1 a2 s = _ from h) fun k => k.laneCtlSet
  | .frbPack a0, h => kept (show execFrbPack a0 s = _ from h) fun k => k.frbPack
  | .frbUnpack a0, h => kept (show execFrbUnpack a0 s = _ from h) fun k => k.frbUnpack
  | .deflPack a0, h => kept (show execDeflPack a0 s = _ from h) fun k => k.deflPack
  | .deflUnpack a0, h => kept (show execDeflUnpack a0 s = _ from h) fun k => k.deflUnpack
  | .cxLaneReset a0 a1 a2, h => kept (show execCxLaneReset a0 a1 a2 s = _ from h) fun k => k.laneCtlSet
  | .tipinLoad a0 a1, h => kept (show execTipinLoad a0 a1 s = _ from h) fun k => k.ucCtlSet
  | .tipinLoadDone, h => kept (show execTipinLoadDone s = _ from h) fun k => k.tipLoadDone
  | .tipinActivate a0 a1, h => kept (show execTipinActivate a0 a1 s = _ from h) fun k => k.ucCtlSet
  | .tipinActivateDone, h => kept (show execTipinActivateDone s = _ from h) fun k => k.tipActivated
  | .sequencerFault a0 a1, h => kept (show execSequencerFault a0 a1 s = _ from h) fun k => Keeps.ite k.sequencerFault k
  | .enGateWrite a0 a1 a2, h => kept (show execEnGateWrite a0 a1 a2 s = _ from h) fun k => k.enGateSet
  | .autogateGate a0, h => kept (show execAutogateGate a0 s = _ from h) fun k => k.autoGate
  | .autogateUngate a0, h => kept (show execAutogateUngate a0 s = _ from h) fun k => k.autoUngate
  | .gatedActionRelease a0, h => kept (show execGatedActionRelease a0 s = _ from h) fun k => k.releaseHeld
  | .stkFire a0 a1, h => kept (show execStkFire a0 a1 s = _ from h) fun k => k.stkFireSet
  | .stktInEdge, h => kept (show execStktInEdge s = _ from h) fun k => Keeps.ite k.stkTrigger k
  | .stocktakeLatch, h => lasts_stocktakeLatch h
  | .stkArm a0 a1, h => kept (show execStkArm a0 a1 s = _ from h) fun k => k.stkArmSet
  | .notePop a0 a1 a2, h => kept (show execNotePop a0 a1 a2 s = _ from h) fun k => k.notePopSet
  | .intRaise a0 a1, h => kept (show execIntRaise a0 a1 s = _ from h) fun k => k.intRaiseSet
  | .vauxRise, h => lasts_vauxRise h
  | .vauxLoss, h => lasts (show execVauxLoss s = _ from h) fun _ => .vauxLoss
  | .pwrOkRise, h => lasts (show execPwrOkRise s = _ from h) fun _ => .pins
  | .pwrOkFall, h => lasts (show execPwrOkFall s = _ from h) fun _ => .powerFault rfl .pins
  | .vinUndervoltage, h => lasts (show execVinUndervoltage s = _ from h) fun m => .ite (.powerFault rfl (.refl m)) (.refl m)
  | .vioSbbLoss, h => lasts (show execVioSbbLoss s = _ from h) fun _ => .ite (.powerFault rfl .pins) .pins
  | .vioSbaLoss, h => lasts (show execVioSbaLoss s = _ from h) fun _ => .ite (.pinned (Keeps.refl false _).moduleLost) .pins
  | .resetNLow, h => lasts (show execResetNLow s = _ from h) fun _ => .ite (.moduleReset rfl) .pins
  | .resetNRise, h => lasts (show execResetNRise s = _ from h) fun _ => .pins
  | .moduleResetEnd, h => lasts (show execModuleResetEnd s = _ from h) fun _ => .resetEnd
  | .thermalTrip a0, h => lasts (show execThermalTrip a0 s = _ from h) fun _ => .trip
  | .alertResponse, h => kept (show execAlertResponse s = _ from h) fun k => Keeps.ite k.send k
  | .mgmtReadModPart, h => kept (show execMgmtReadModPart s = _ from h) fun k => k.mgmtWord
  | .mgmtReadSerialHi, h => kept (show execMgmtReadSerialHi s = _ from h) fun k => k.mgmtWord
  | .mgmtReadSerialLo, h => kept (show execMgmtReadSerialLo s = _ from h) fun k => k.mgmtWord
  | .mgmtReadModState, h => kept (show execMgmtReadModState s = _ from h) fun k => k.mgmtWord
  | .mgmtReadSrBoot, h => kept (show execMgmtReadSrBoot s = _ from h) fun k => k.mgmtWord
  | .mgmtReadSrRstcause, h => kept (show execMgmtReadSrRstcause s = _ from h) fun k => k.mgmtWord
  | .mgmtReadTwnStat, h => kept (show execMgmtReadTwnStat s = _ from h) fun k => k.mgmtWord
  | .mgmtReadTwnEpoch, h => kept (show execMgmtReadTwnEpoch s = _ from h) fun k => k.mgmtWord
  | .mgmtReadIntFault, h => kept (show execMgmtReadIntFault s = _ from h) fun k => k.mgmtWord
  | .mgmtReadRtStat, h => kept (show execMgmtReadRtStat s = _ from h) fun k => k.mgmtWord
  | .mgmtReadModTemp, h => kept (show execMgmtReadModTemp s = _ from h) fun k => k.mgmtWord
  | .mgmtReadModSupply, h => kept (show execMgmtReadModSupply s = _ from h) fun k => k.mgmtWord
  | .mgmtReadEnTotal, h => kept (show execMgmtReadEnTotal s = _ from h) fun k => k.mgmtWord
  | .mgmtUnlistedCommand a0, h => kept (show execMgmtUnlistedCommand a0 s = _ from h) fun k => Keeps.ite k.send k
  | .mboxWrite a0, h => kept (show execMboxWrite a0 s = _ from h) fun k => k.mboxWrite
  | .mboxRead, h => kept (show execMboxRead s = _ from h) fun k => k.mboxRead
  | .registerWrite a0 a1 a2, h => ran (show execRegisterWrite a0 a1 a2 s = _ from h) fun k => Runs.ite k k.pWrite
  | .twinAliveInHigh, h => lasts (show execTwinAliveInHigh s = _ from h)
    fun _ => .ite (.pinned (Keeps.refl false _).setFld.twnAlarm) .pins
  | .frameLeftPort a0 a1, h => kept (show execFrameLeftPort a0 a1 s = _ from h) fun k => k.frameLeft
  | .srpageMarkDone, h => kept (show execSrpageMarkDone s = _ from h) fun k => k.srPageDone
  | .vioSbaReturn, h => lasts (show execVioSbaReturn s = _ from h) fun _ => .ite (.pinned (Keeps.refl false _).setFld.twnAlarm) .pins
  | .vioSbbReturn, h => lasts (show execVioSbbReturn s = _ from h) fun _ => .pins

/-- A step keeps what lasts, but for the fence latch where its command ends a handover. -/
theorem step_lasts {s t : State} (h : step s = .next t) : Lasts false s.toMach t.toMach := by
  unfold step at h
  split at h
  · cases h
    exact .refl _
  · have done := exec_lasts _ h
    exact ⟨done.wf, done.clock, fun held => nomatch held⟩

/-- Settles O58: whatever changes memory puts canonical containers. -/
theorem stepKeepsMemoryCanonical : Obligations.StepKeepsMemoryCanonical := fun _ _ canonical h => (step_lasts h).wf canonical

/-- Settles O59: RT is only ticked on, loaded forward, or forced in the charter. -/
theorem rtNeverGoesBack : Obligations.RtNeverGoesBack := fun _ _ charter on h still => (step_lasts h).clock charter on still

/-- Settles O60: TAKEN, ABORT and the end of synchronisation aside, only a MODULE reset clears the latch. -/
theorem fenceLatchHolds : Obligations.FenceLatchHolds := by
  intro s t c up latch h
  by_cases ends : clearsLatch c = true
  · unfold clearsLatch at ends
    split at ends
    · exact .inr (.inr (.inl rfl))
    · exact .inr (.inr (.inr (.inl ⟨_, rfl⟩)))
    · exact .inr (.inr (.inr (.inr ⟨_, rfl⟩)))
    · exact nomatch ends
  · rw [Bool.not_eq_true] at ends
    exact ((exec_lasts c h).latch (by rw [ends]; rfl) up latch).imp id .inl

end Sys2Proof.Machine
end

section
/-! PROOFS. What a register and its fields read after a write to it and to others (R7, R11). -/

namespace Sys2Proof.Machine

open Sys2Proof

/-- What a command leaves, from what its effect gives. -/
theorem lift_next {s : State} {f : Mach → Mach} {n : Mach} (e : f s.toMach = n) : s.lift f = .next { s with toMach := n } := by
  rw [State.lift, e]

/-- Whether two fields share no bit. -/
def fieldsApart (f g : Fld) : Bool := f.lo + fldWidth f ≤ g.lo || g.lo + fldWidth g ≤ f.lo

/-- Whether a field lies within a word. -/
def fitsWord (f : Fld) : Bool := f.lo + fldWidth f ≤ 48

theorem fget_fset_same (w : Word) {f : Fld} (v : Nat) (h : fitsWord f = true) : fget (fset w f v) f = v % 2 ^ fldWidth f :=
  fget_fset_self w f v (of_decide_eq_true h)

theorem fget_fset_apart (w : Word) {f g : Fld} (v : Nat) (h : fitsWord g = true) (hd : fieldsApart f g = true) :
    fget (fset w f v) g = fget w g := by
  refine fget_fset_of_disjoint w f g v (of_decide_eq_true h) ?_
  simpa [fieldsApart] using hd

theorem fbit_fset_same (w : Word) {f : Fld} (v : Nat) (h : fitsWord f = true) (one : f.hi = f.lo) :
    fbit (fset w f v) f = decide (v % 2 = 1) := by
  rw [fbit, fget_fset_same w v h, fldWidth, one, Nat.sub_self, Nat.zero_add, Nat.pow_one]

theorem fbit_fset_apart (w : Word) {f g : Fld} (v : Nat) (h : fitsWord g = true) (hd : fieldsApart f g = true) :
    fbit (fset w f v) g = fbit w g := by
  rw [fbit, fget_fset_apart w v h hd, fbit]

section

variable (m : Mach) {a b : Nat} {f g : Fld} (v : Nat) (w : Word)

theorem reg_setReg_self : (m.setReg a w).reg a = w := by rw [Mach.reg_setReg, if_pos rfl]

theorem fld_setReg_self : (m.setReg a w).fld a f = fget w f := by rw [Mach.fld, reg_setReg_self]

theorem bit_setReg_self : (m.setReg a w).bit a f = fbit w f := by rw [Mach.bit, reg_setReg_self]

theorem fld_setReg_of_ne (h : a ≠ b) : (m.setReg a w).fld b g = m.fld b g := fld_congr (reg_setReg_of_ne m w h) g

theorem bit_setReg_of_ne (h : a ≠ b) : (m.setReg a w).bit b g = m.bit b g := by rw [Mach.bit, reg_setReg_of_ne m w h, Mach.bit]

theorem reg_setFld_of_ne (h : a ≠ b) : (m.setFld a f v).reg b = m.reg b := reg_setReg_of_ne m _ h

theorem fld_setFld_of_ne (h : a ≠ b) : (m.setFld a f v).fld b g = m.fld b g := fld_congr (reg_setFld_of_ne m v h) g

theorem bit_setFld_of_ne (h : a ≠ b) : (m.setFld a f v).bit b g = m.bit b g := bit_setReg_of_ne m _ h

theorem reg_setFld_self : (m.setFld a f v).reg a = fset (m.reg a) f v := reg_setReg_self m _

theorem fld_setFld_same (h : fitsWord f = true) : (m.setFld a f v).fld a f = v % 2 ^ fldWidth f :=
  fld_setFld_self m a f v (of_decide_eq_true h)

theorem fld_setFld_apart (h : fitsWord g = true) (hd : fieldsApart f g = true) : (m.setFld a f v).fld a g = m.fld a g := by
  rw [Mach.fld, reg_setFld_self, fget_fset_apart _ v h hd, Mach.fld]

theorem bit_setFld_same (h : fitsWord f = true) (one : f.hi = f.lo) : (m.setFld a f v).bit a f = decide (v % 2 = 1) := by
  rw [Mach.bit, reg_setFld_self, fbit_fset_same _ v h one]

theorem bit_setFld_apart (h : fitsWord g = true) (hd : fieldsApart f g = true) : (m.setFld a f v).bit a g = m.bit a g := by
  rw [Mach.bit, reg_setFld_self, fbit_fset_apart _ v h hd, Mach.bit]

theorem reg_count_self (k : Nat) : (m.count a k).reg a = w48 ((m.reg a).toNat + k) := reg_setReg_self m _

theorem reg_count_of_ne (k : Nat) (h : a ≠ b) : (m.count a k).reg b = m.reg b := reg_setReg_of_ne m _ h

theorem fld_count_of_ne (k : Nat) (h : a ≠ b) : (m.count a k).fld b g = m.fld b g := fld_congr (reg_count_of_ne m k h) g

theorem bit_count_of_ne (k : Nat) (h : a ≠ b) : (m.count a k).bit b g = m.bit b g := bit_setReg_of_ne m _ h

end

end Sys2Proof.Machine
end

section
/-! PROOFS. The core's own window (R229, R238). -/

namespace Sys2Proof.Machine

open Sys2Proof

variable {m : Mach} {q : Nat}

theorem seat_flushTlb (sr : Bool) (page : Option Nat) :
    (m.flushTlb q sr page).seat q = { m.seat q with
      tlb := (m.seat q).tlb.filter fun e => !(e.srRoot = sr && (page = none || page = some e.vpage)) } := by
  rw [Mach.flushTlb, Mach.seat_setSeat, if_pos rfl]

/-- A root register written from a level that may write it (R229). -/
theorem selfSet_root {v : Word} {sr : Bool} (level : taskLevel (m.arch q).wld = false) (may : sr = true → srLevel (m.arch q).wld = true)
    (aligned : fget v F.coreXrootPage % 4 = 0) :
    m.selfSet (m.coreWho q) q (b2n sr) v =
      (m.setArch q ((m.arch q).setReg (b2n sr) (v &&& (fmask F.coreXrootEn ||| fmask F.coreXrootPage)))).flushTlb q sr none := by
  have free : ¬ ((b2n sr = 1 && !(m.coreWho q).sr || decide (fget v F.coreXrootPage % 4 ≠ 0)) = true) := by
    cases sr
    · simp [b2n, aligned]
    · simp [b2n, aligned, Mach.coreWho, may rfl]
  cases sr
  · exact (if_neg (by simp [Mach.coreWho, level])).trans (if_neg free)
  · exact (if_neg (by simp [Mach.coreWho, level])).trans (if_neg free)

/-- Settles O16. -/
theorem translationRoots : Obligations.TranslationRoots := by
  intro s q v
  dsimp only
  intro level
  refine ⟨fun sr may aligned => ?_, ?_⟩
  · refine ⟨_, (lift_next (selfSet_root level may aligned) : execCoreXrootWrite q sr v s = _), ?_, ?_, ?_⟩
    · change ((Mach.flushTlb _ q.val sr none).seat q.val).arch.reg _ = _
      rw [seat_flushTlb]
      change ((s.toMach.setArch q.val _).arch q.val).reg _ = _
      rw [Mach.arch_setArch, if_pos rfl, Arch.reg_setReg, if_pos]
      cases sr <;> rfl
    · change ∀ e ∈ ((Mach.flushTlb _ q.val sr none).seat q.val).tlb, _
      rw [seat_flushTlb]
      intro e listed
      have kept := (List.mem_filter.mp listed).2
      simpa using kept
    · change ∀ e ∈ _, _ → e ∈ ((Mach.flushTlb _ q.val sr none).seat q.val).tlb
      rw [seat_flushTlb]
      intro e listed other
      refine List.mem_filter.mpr ⟨?_, by simp [other]⟩
      rw [Mach.setArch, Mach.seat_setSeat, if_pos rfl]
      exact listed
  · have flushed : s.toMach.selfSet (s.toMach.coreWho q.val) q.val 0x02 v =
        s.toMach.flushTlb q.val (srLevel (s.toMach.arch q.val).wld && fbit v F.coreXflushSr)
          (if fbit v F.coreXflushAll then none else some (fget v F.coreXflushPage)) :=
      if_neg (by simp [Mach.coreWho, level])
    refine ⟨_, (lift_next flushed : execCoreXflushWrite q v s = _), ?_, ?_⟩
    · change ((Mach.flushTlb _ q.val _ _).seat q.val).arch = _
      rw [seat_flushTlb]
      rfl
    · change ∀ e, e ∈ ((Mach.flushTlb _ q.val _ _).seat q.val).tlb ↔ _
      rw [seat_flushTlb]
      intro e
      rw [List.mem_filter]
      refine and_congr_right fun _ => ?_
      by_cases all : fbit v F.coreXflushAll = true
      · simp [all]
      · simp [all, imp_iff_not_or]

end Sys2Proof.Machine
end

section
/-! PROOFS. Fuses, the mesh and the MODULE reset (R357, R358, R435 to R437). -/

namespace Sys2Proof.Machine

open Sys2Proof

/-! ### Fuse operations -/

variable {m : Mach} {w : Who} {v : Word}

/-- SR_FUSECTL after a write while nothing runs: the written fields, and GO as it was. -/
def Mach.fuseWritten (m : Mach) (v : Word) : Mach :=
  m.setReg Reg.srFusectl (fset (v &&& (fmask F.srFusectlOp ||| fmask F.srFusectlSlot ||| fmask F.srFusectlSvn))
    F.srFusectlGo (m.fld Reg.srFusectl F.srFusectlGo))

/-- SR_FUSESTAT with its ERR given. -/
def Mach.fuseErr (m : Mach) (e : Nat) : Mach := m.setReg Reg.srFusestat (fset (m.reg Reg.srFusestat) F.srFusestatErr e)

/-- A fuse operation that runs, and the fuses it will leave. -/
def Mach.fuseRun (m : Mach) (g : Fuses) : Mach :=
  (({ m with sr := { m.sr with fuseOp := some g } } : Mach).setReg Reg.srFusestat
    (fset (fset 0 F.srFusestatErr 0) F.srFusestatBusy 1)).setFld Reg.srFusectl F.srFusectlGo 1

theorem fuseWord_op (op : Nat) (v : Word) (h : op < 4) : fget (fuseWord op v) F.srFusectlOp = op := by
  rw [fuseWord, fget_fset_same _ _ (by decide)]
  exact Nat.mod_eq_of_lt h

theorem fuseWord_go (op : Nat) (v : Word) : fbit (fuseWord op v) F.srFusectlGo = true := by
  rw [fuseWord, fbit_fset_apart _ _ (by decide) (by decide), fbit_fset_same _ _ (by decide) rfl]
  rfl

theorem fuseWord_slot (op : Nat) (v : Word) : fget (fuseWord op v) F.srFusectlSlot = fget v F.srFusectlSlot := by
  rw [fuseWord, fget_fset_apart _ _ (by decide) (by decide), fget_fset_apart _ _ (by decide) (by decide)]

theorem fuseWord_svn (op : Nat) (v : Word) : fget (fuseWord op v) F.srFusectlSvn = fget v F.srFusectlSvn := by
  rw [fuseWord, fget_fset_apart _ _ (by decide) (by decide), fget_fset_apart _ _ (by decide) (by decide)]

/-- A write of SR_FUSECTL that starts operation `op` while none runs. -/
theorem fuseCtlSet_eq (op : Nat) (h : op < 4) (idle : m.sr.fuseOp = none) :
    m.fuseCtlSet (fuseWord op v) =
      let x := m.fuseWritten (fuseWord op v)
      let f := m.sr.fuseNext
      let k := fget v F.srFusectlSlot
      if m.phase ≠ 1 then x.fuseErr 1
      else if op = 0 then x.fuseErr 4
      else if op = 1 then
        if tmem f.hashes (k + 1) then x.fuseErr 2
        else x.fuseRun { f with hashes := tabInsert (k + 1) ((List.range 11).map fun i => m.reg (Reg.srFusedata i)) f.hashes }
      else if op = 2 then x.fuseRun { f with revoked := f.revoked ||| 2 ^ k }
      else if fget v F.srFusectlSvn ≤ f.minsvn then x.fuseErr 3
      else x.fuseRun { f with minsvn := fget v F.srFusectlSvn } := by
  simp only [Mach.fuseCtlSet, fuseWord_op op v h, fuseWord_go, fuseWord_slot, fuseWord_svn, idle, Nat.add_sub_cancel]
  rfl

theorem fuseErr_err (x : Mach) (e : Nat) (h : e < 16) : (x.fuseErr e).fld Reg.srFusestat F.srFusestatErr = e := by
  rw [Mach.fuseErr, fld_setReg_self, fget_fset_same _ _ (by decide)]
  exact Nat.mod_eq_of_lt h

theorem fuseRun_reads (x : Mach) (g : Fuses) :
    (x.fuseRun g).sr = { x.sr with fuseOp := some g } ∧ (x.fuseRun g).bit Reg.srFusestat F.srFusestatBusy = true ∧
      (x.fuseRun g).fld Reg.srFusestat F.srFusestatErr = 0 ∧ (x.fuseRun g).bit Reg.srFusectl F.srFusectlGo = true := by
  refine ⟨by simp [Mach.fuseRun, Mach.setFld], ?_, ?_, ?_⟩
  · rw [Mach.fuseRun, bit_setFld_of_ne _ _ (by decide), bit_setReg_self, fbit_fset_same _ _ (by decide) rfl]
    rfl
  · rw [Mach.fuseRun, fld_setFld_of_ne _ _ (by decide), fld_setReg_self, fget_fset_apart _ _ (by decide) (by decide)]
    rfl
  · rw [Mach.fuseRun, bit_setFld_same _ _ (by decide) rfl]
    rfl

/-- A command that writes SR_FUSECTL leaves what the write gives. -/
theorem lift_fuse {s : State} {op : Nat} (sr : w.sr = true) {n : Mach}
    (e : s.toMach.fuseCtlSet (fuseWord op v) = n) :
    (s.lift fun m => m.bySr w (m.fuseCtlSet (fuseWord op v))) = .next { s with toMach := n } :=
  lift_next (f := fun m => m.bySr w (m.fuseCtlSet (fuseWord op v))) ((if_pos sr).trans e)

/-! ### The MODULE reset -/

/-- A register after a MODULE reset (R14, R436). -/
theorem reg_moduleReset (cause a : Nat) :
    (m.moduleReset cause).reg a = if auxReg a = true ∧ ledgerAddr a = false then m.reg a else resetOf a := by
  have filtered : tabGet resetOf (m.moduleReset cause).regs a = if auxReg a then tabGet resetOf m.regs a else resetOf a :=
    tabGet_filter resetOf auxReg m.regs a
  unfold Mach.reg
  rw [filtered]
  cases ledgerAddr a <;> cases auxReg a <;> rfl

theorem causeRank_pos {c : Nat} (h : c ≠ 5) : 0 < causeRank c := by
  unfold causeRank
  rw [List.findIdx?_cons, if_neg (by simpa using Ne.symm h)]
  cases List.findIdx? (fun x => decide (x = c)) [0, 1, 4, 3, 2] <;> simp

/-- A breach's cause ranks before every other (R437). -/
theorem moduleReset_breach : (m.moduleReset 5).pins.cause = 5 := by
  change (if m.pins.inReset && decide (causeRank m.pins.cause ≤ causeRank 5) then m.pins.cause else 5) = 5
  by_cases h : m.pins.cause = 5
  · rw [h, ite_self]
  · have late := causeRank_pos h
    rw [if_neg]
    have first : causeRank 5 = 0 := rfl
    simp [first]
    omega

/-- The mesh read breached. -/
theorem breach_eq (up : m.pins.vaux = true) :
    m.breach = (({ m with
      kx := [], kp := [], sr := { m.sr with keys := false }, memst := { m.memst with xts := 0 }
      pins := { m.pins with breached := true } } : Mach).setFld Reg.srRstcause F.srRstcauseMeshseen 1).moduleReset 5 := by
  simp [Mach.breach, up]

/-- Settles O22. -/
theorem fusesAndMesh : Obligations.FusesAndMesh := by
  refine ⟨fun s w v g sr => ?_, fun s up => ?_⟩
  · dsimp only
    have runs (op : Nat) (c : Instr)
        (hc : exec c s = s.lift fun m => m.bySr w (m.fuseCtlSet (fuseWord op v))) (f : Fuses)
        (e : s.toMach.fuseCtlSet (fuseWord op v) = (s.toMach.fuseWritten (fuseWord op v)).fuseRun f) :
        ∃ t, exec c s = .next t ∧ t.sr.fuseOp = some f ∧ t.sr.fuse = s.sr.fuse ∧
          t.toMach.bit Reg.srFusestat F.srFusestatBusy = true ∧ t.toMach.fld Reg.srFusestat F.srFusestatErr = 0 ∧
          t.toMach.bit Reg.srFusectl F.srFusectlGo = true := by
      obtain ⟨hsr, busy, err, go⟩ := fuseRun_reads (s.toMach.fuseWritten (fuseWord op v)) f
      have same : (s.toMach.fuseWritten (fuseWord op v)).sr = s.sr := by simp [Mach.fuseWritten]
      exact ⟨_, hc.trans (lift_fuse sr e), by simp [hsr], by simp [hsr, same], busy, err, go⟩
    have errs (op : Nat) (c : Instr)
        (hc : exec c s = s.lift fun m => m.bySr w (m.fuseCtlSet (fuseWord op v))) (k : Nat) (hk : k < 16)
        (e : s.toMach.fuseCtlSet (fuseWord op v) = (s.toMach.fuseWritten (fuseWord op v)).fuseErr k) :
        ∃ t, exec c s = .next t ∧ t.sr = s.sr ∧ t.toMach.fld Reg.srFusestat F.srFusestatErr = k :=
      ⟨_, hc.trans (lift_fuse sr e), by simp [Mach.fuseErr, Mach.fuseWritten], fuseErr_err _ k hk⟩
    refine ⟨fun idle charter => ⟨fun free => ?_, fun used => ?_, ?_, fun more => ?_, fun less => ?_, ?_⟩,
      fun idle phase => ?_, fun running => ?_⟩
    · exact runs 1 _ rfl _ (by simp [fuseCtlSet_eq, idle, charter, free])
    · exact errs 1 _ rfl 2 (by decide) (by simp [fuseCtlSet_eq, idle, charter, used])
    · exact runs 2 _ rfl _ (by simp [fuseCtlSet_eq, idle, charter])
    · exact runs 3 _ rfl _ (by simp [fuseCtlSet_eq, idle, charter, more])
    · exact errs 3 _ rfl 3 (by decide) (by simp [fuseCtlSet_eq, idle, charter, less])
    · exact errs 0 _ rfl 4 (by decide) (by simp [fuseCtlSet_eq, idle, charter])
    · have each (op : Nat) (h : op < 4) (c : Instr)
          (hc : exec c s = s.lift fun m => m.bySr w (m.fuseCtlSet (fuseWord op v))) :=
        errs op c hc 1 (by decide) (by simp [fuseCtlSet_eq op h idle, phase])
      simp only [List.forall_mem_cons]
      exact ⟨each 1 (by decide) _ rfl, each 2 (by decide) _ rfl, each 3 (by decide) _ rfl, each 0 (by decide) _ rfl,
        by simp⟩
    · have done : s.toMach.fuseDone = (({ s.toMach with sr := { s.sr with fuseNext := g, fuseOp := none } } : Mach).setReg
          Reg.srFusestat 0).setFld Reg.srFusectl F.srFusectlGo 0 := by simp [Mach.fuseDone, running]
      refine ⟨_, (lift_next done : execFuseOpDone s = _), by simp [Mach.setFld], ?_, ?_⟩
      · change (Mach.setFld _ _ _ _).bit _ _ = _
        rw [bit_setFld_of_ne _ _ (by decide), bit_setReg_self]
        rfl
      · change (Mach.setFld _ _ _ _).bit _ _ = _
        rw [bit_setFld_same _ _ (by decide) rfl]
        rfl
  · refine ⟨_, (lift_next (breach_eq up) : execMeshBreach s = _), rfl, rfl, rfl, rfl, moduleReset_breach, ?_, rfl⟩
    change (Mach.moduleReset _ 5).bit _ _ = _
    rw [Mach.bit, reg_moduleReset, if_pos (by decide), ← Mach.bit, bit_setFld_same _ _ (by decide) rfl]
    rfl

end Sys2Proof.Machine
end

section
/-! PROOFS. Stocktakes, notices and raised interrupts (R411 to R426). -/

namespace Sys2Proof.Machine

open Sys2Proof

variable {m : Mach} {w : Who} {v : Word} {src : Nat}

theorem nbit_or_one (v : Word) : nbit (v ||| 1).toNat 0 = true := by
  simp [nbit, BitVec.toNat_or]

/-- What a trigger does first while it joins none (R415). -/
def Mach.stkOuts (m : Mach) (src : Nat) : Mach :=
  if src ≠ 3 && m.bit Reg.stkCtl F.stkCtlOuten then { m with stk := { m.stk with out := some m.now } } else m

theorem stkOuts_rest (m : Mach) (src : Nat) : ∃ o, m.stkOuts src = { m with stk := { m.stk with out := o } } := by
  unfold Mach.stkOuts
  split
  · exact ⟨_, rfl⟩
  · exact ⟨m.stk.out, rfl⟩

/-- A trigger that joins none, while the snapshot is not locked, is due three ticks later (R411). -/
theorem stkTrigger_fires (alone : m.stkJoins = false) (free : m.bit Reg.stkStat F.stkStatLocked = false) :
    (m.stkTrigger src).stk.due = some (m.now + 3, src) ∧ (m.stkTrigger src).bit Reg.stkStat F.stkStatPending = true := by
  obtain ⟨o, ho⟩ := stkOuts_rest m src
  have e : m.stkTrigger src = { m.stkOuts src with stk := { (m.stkOuts src).stk with due := some (m.now + 3, src) } }.setFld
      Reg.stkStat F.stkStatPending 1 := by
    simp [Mach.stkTrigger, alone, free, Mach.stkOuts]
  rw [e, ho]
  refine ⟨by simp [Mach.setFld], ?_⟩
  rw [bit_setFld_same _ _ (by decide) rfl]
  rfl

/-- A trigger that joins none, while the snapshot is locked, is counted (R413). -/
theorem stkTrigger_misses (alone : m.stkJoins = false) (locked : m.bit Reg.stkStat F.stkStatLocked = true) :
    (m.stkTrigger src).stk.due = none ∧ (m.stkTrigger src).reg Reg.stkMissed = w48 ((m.reg Reg.stkMissed).toNat + 1) := by
  obtain ⟨o, ho⟩ := stkOuts_rest m src
  have e : m.stkTrigger src = (m.stkOuts src).count Reg.stkMissed := by
    simp [Mach.stkTrigger, alone, locked, Mach.stkOuts]
  have none : m.stk.due = none := by
    simp [Mach.stkJoins] at alone
    exact alone.1
  rw [e, ho]
  refine ⟨by simpa [Mach.count] using none, ?_⟩
  rw [reg_count_self]
  rfl

/-- The latch, apart from the interrupt it raises. -/
theorem stkLatched_stk (m : Mach) (src : Nat) :
    (m.stkLatched src).stk = { m.stk with due := none, last := some m.now } ∧ (m.stkLatched src).mem = m.mem ∧
      (m.stkLatched src).seats = m.seats := by
  unfold Mach.stkLatched Mach.raise
  simp [Mach.count]
  split <;> simp

/-- An interrupt raised changes no register but its status word. -/
theorem reg_raise_of_ne {i a : Nat} (h : a ≠ Reg.intStat i) : (m.raise i).reg a = m.reg a := by
  unfold Mach.raise
  split
  · exact reg_setReg_of_ne m _ h.symm
  · rfl

theorem intListed_of_le {i : Nat} (low : 512 ≤ i) (h : i < 1024) : intListed i = true := by
  have top : i ≤ 1023 := by omega
  simp [intListed, low, top]

/-- STK_STAT, the time and the count as the latch leaves them. -/
theorem stkLatched_regs (m : Mach) (src : Nat) :
    (m.stkLatched src).reg Reg.stkStat = fset (fset (fset (fset (m.reg Reg.stkStat) F.stkStatValid 1) F.stkStatLocked 1)
        F.stkStatPending 0) F.stkStatSrc src ∧
      (m.stkLatched src).reg Reg.stkTsec = w48 (secOf m.rt) ∧ (m.stkLatched src).reg Reg.stkTfrac = w48 (fracOf m.rt) ∧
      (m.stkLatched src).reg Reg.stkCount = w48 ((m.reg Reg.stkCount).toNat + 1) := by
  refine ⟨?_, ?_, ?_, ?_⟩
  · exact (reg_raise_of_ne (by decide)).trans (by simp (disch := decide) only [reg_count_of_ne, reg_setReg_of_ne, reg_setReg_self])
  · exact (reg_raise_of_ne (by decide)).trans (by simp (disch := decide) only [reg_count_of_ne, reg_setReg_of_ne, reg_setReg_self])
  · exact (reg_raise_of_ne (by decide)).trans (by simp (disch := decide) only [reg_count_of_ne, reg_setReg_self])
  · refine (reg_raise_of_ne (by decide)).trans ?_
    rw [reg_count_self]
    simp (disch := decide) only [reg_setReg_of_ne]
    rfl

/-- A source from 512 on raised. -/
theorem reg_raise_self {i : Nat} (low : 512 ≤ i) (h : i < 1024) : (m.raise i).reg (Reg.intStat i) =
    m.reg (Reg.intStat i) ||| (if nbit (m.reg (Reg.intStat i)).toNat 0 then 3 else 1) := by
  rw [Mach.raise, if_pos (intListed_of_le low h), reg_setReg_self]

theorem stkFireSet_house (house : w.house = true) : m.stkFireSet w (v ||| 1) = m.stkTrigger 2 := by
  rw [Mach.stkFireSet, house, nbit_or_one]
  rfl

theorem stkArmSet_house (house : w.house = true) (later : m.stk.last ≠ some m.now) :
    m.stkArmSet w (v ||| 1) = m.setFld Reg.stkStat F.stkStatLocked 0 := by
  rw [Mach.stkArmSet, house, nbit_or_one]
  simp [later]

/-- Settles O24. -/
theorem stocktakesAndNotices : Obligations.StocktakesAndNotices := by
  refine ⟨fun s w v => ?_, fun s w n v => ?_⟩
  · dsimp only
    have edge (up : s.toMach.up = true) (sba : s.pins.sba = true) (en : s.toMach.bit Reg.stkCtl F.stkCtlPinen = true) :
        exec .stktInEdge s = .next { s with toMach := s.toMach.stkTrigger 3 } :=
      (lift_next (by simp [up, sba, en]) : execStktInEdge s = _)
    refine ⟨fun alone => ⟨fun house free => ?_, fun house locked => ?_, fun up sba en => ⟨fun free => ?_, fun locked => ?_⟩⟩,
      fun at_ src due small up reached => ?_, fun house later => ?_, fun other => ?_⟩
    · obtain ⟨due, pending⟩ := stkTrigger_fires (src := 2) alone free
      exact ⟨_, (lift_next (stkFireSet_house house) : execStkFire w v s = _), due, pending, rfl⟩
    · obtain ⟨due, missed⟩ := stkTrigger_misses (src := 2) alone locked
      exact ⟨_, (lift_next (stkFireSet_house house) : execStkFire w v s = _), due, missed⟩
    · obtain ⟨due, pending⟩ := stkTrigger_fires (src := 3) alone free
      exact ⟨_, edge up sba en, due, pending, rfl⟩
    · obtain ⟨due, missed⟩ := stkTrigger_misses (src := 3) alone locked
      exact ⟨_, edge up sba en, due, missed⟩
    · have latched : exec .stocktakeLatch s = .next { s with toMach := s.toMach.stkLatched src, snap := some s.toMach } := by
        change execStocktakeLatch s = _
        simp [execStocktakeLatch, due, up, reached]
      obtain ⟨stk, mem, seats⟩ := stkLatched_stk s.toMach src
      obtain ⟨stat, tsec, tfrac, count⟩ := stkLatched_regs s.toMach src
      refine ⟨_, latched, rfl, by simp [stk], by simp [stk], ?_, ?_, ?_, ?_, tsec, tfrac, count, mem, seats⟩
      · rw [Mach.bit, stat]
        simp (disch := decide) only [fbit_fset_apart, fbit_fset_same]
        rfl
      · rw [Mach.bit, stat]
        simp (disch := decide) only [fbit_fset_apart, fbit_fset_same]
        rfl
      · rw [Mach.bit, stat]
        simp (disch := decide) only [fbit_fset_apart, fbit_fset_same]
        rfl
      · rw [Mach.fld, stat, fget_fset_same _ _ (by decide)]
        exact Nat.mod_eq_of_lt (small.trans (by decide))
    · refine ⟨_, (lift_next (stkArmSet_house house later) : execStkArm w v s = _), ?_, rfl⟩
      change (Mach.setFld _ _ _ _).bit _ _ = _
      rw [bit_setFld_same _ _ (by decide) rfl]
      rfl
    · exact ⟨(lift_next (by simp [Mach.stkFireSet, other]) : execStkFire w v s = _),
        (lift_next (by simp [Mach.stkArmSet, other]) : execStkArm w v s = _)⟩
  · dsimp only
    refine ⟨fun may => ?_, fun not => ?_, fun low may => ?_, fun not => ?_⟩
    · have popped : s.toMach.notePopSet w n.val (v ||| 1) = s.toMach.setNoteq n.val (s.toMach.noteq n.val).tail := by
        rw [Mach.notePopSet, may, nbit_or_one]
        rfl
      refine ⟨_, (lift_next popped : execNotePop w n v s = _), ?_, rfl, fun k other => ?_⟩
      · exact (tabGet_put _ _ _ _ _).trans (if_pos rfl)
      · exact (tabGet_put _ _ _ _ _).trans (if_neg other.symm)
    · exact (lift_next (n := s.toMach) (by simp [Mach.notePopSet, not]) : execNotePop w n v s = _)
    · have raised : s.toMach.intRaiseSet w v = s.toMach.raise (v.toNat % 1024) := by
        simp [Mach.intRaiseSet, low, may]
      exact ⟨_, (lift_next raised : execIntRaise w v s = _), reg_raise_self low (Nat.mod_lt _ (by decide)),
        fun a other => reg_raise_of_ne other⟩
    · refine (lift_next ?_ : execIntRaise w v s = _)
      rw [Mach.intRaiseSet]
      refine if_neg ?_
      rcases not with low | may
      · simp; omega
      · simp [may]

end Sys2Proof.Machine
end

section
/-! PROOFS. The management bus (R442 to R444). -/

namespace Sys2Proof.Machine

open Sys2Proof

/-! ### Octets in words -/

theorem octetsOfWord_of_six (a b c d e f : Octet) : octetsOfWord (w48 (natOfOctets [a, b, c, d, e, f])) = [a, b, c, d, e, f] := by
  have ha := a.isLt
  have hb := b.isLt
  have hc := c.isLt
  have hd := d.isLt
  have he := e.isLt
  have hf := f.isLt
  simp only [octetsOfWord, natOfOctets, List.foldl_cons, List.foldl_nil, w48, List.map_cons, List.map_nil, BitVec.toNat_ofNat,
    Nat.shiftRight_eq_div_pow]
  simp only [List.cons.injEq, and_true]
  refine ⟨?_, ?_, ?_, ?_, ?_, ?_⟩ <;> apply BitVec.eq_of_toNat_eq <;> rw [BitVec.toNat_ofNat] <;> omega

/-- Octets that fill their words read back from them. -/
theorem octetsOfWords_wordsOfOctets (k : Nat) (os : List Octet) (h : os.length = 6 * k) :
    octetsOfWords (wordsOfOctets k os) = os := by
  induction k generalizing os with
  | zero => simpa [wordsOfOctets, octetsOfWords] using (List.length_eq_zero_iff.mp h).symm
  | succ k ih =>
    match os, h with
    | a :: b :: c :: d :: e :: f :: rest, h =>
      have more : rest.length = 6 * k := by simp at h; omega
      have split : octetsOfWords (wordsOfOctets (k + 1) (a :: b :: c :: d :: e :: f :: rest)) =
          octetsOfWord (w48 (natOfOctets [a, b, c, d, e, f])) ++ octetsOfWords (wordsOfOctets k rest) := rfl
      rw [split, octetsOfWord_of_six, ih rest more]
      rfl

theorem length_wordsOfOctets (k : Nat) (os : List Octet) : (wordsOfOctets k os).length = k := by
  induction k generalizing os with
  | zero => rfl
  | succ k ih => rw [wordsOfOctets, List.length_cons, ih]

/-! ### The mailbox -/

variable {m : Mach} {os : List Octet}

/-- SR_MBIN after a Block Write (R444). -/
theorem mbIn_reads (m : Mach) (short : os.length ≤ 30) :
    ((octetsOfWords ((List.range 5).map fun i => (m.mbIn os).reg (Reg.srMbin i))).take os.length) = os := by
  let full := os ++ (octetsOfWords ((List.range 5).map fun i => m.reg (Reg.srMbin i))).drop os.length
  have fills : full.length = 30 := by simp [full]; omega
  have five := length_wordsOfOctets 5 full
  have back := octetsOfWords_wordsOfOctets 5 full fills
  have written : m.mbIn os = ((wordsOfOctets 5 full).zipIdx).foldl (fun x e => x.setReg (Reg.srMbin e.2) e.1) m := rfl
  match he : wordsOfOctets 5 full, five with
  | [a, b, c, d, e], _ =>
    have reads : ((List.range 5).map fun i => (m.mbIn os).reg (Reg.srMbin i)) = [a, b, c, d, e] := by
      rw [written, he]
      simp only [List.zipIdx_cons, List.zipIdx_nil, List.foldl_cons, List.foldl_nil]
      simp [List.range_succ, Reg.srMbin]
    rw [reads, ← he, back]
    exact List.take_left' rfl

theorem mbIn_sent (m : Mach) (os : List Octet) : (m.mbIn os).sent = m.sent := by
  have kept (l : List (Word × Nat)) (x : Mach) : (l.foldl (fun x e => x.setReg (Reg.srMbin e.2) e.1) x).sent = x.sent := by
    induction l generalizing x with
    | nil => rfl
    | cons e l ih => rw [List.foldl_cons, ih, Mach.setReg_sent]
  exact kept _ m

theorem mgmtWord_eq {always : Bool} {v : Word} (runs : m.mgmtRuns = true) : m.mgmtWord always v =
    m.send (if m.mgmtSr && !always then .mgmtNak else .mgmt (6 :: octetsOfWord v)) := by
  rw [Mach.mgmtWord, runs]
  cases m.mgmtSr && !always <;> rfl

/-- A Block Read of the full outbox (R444). -/
theorem mboxRead_full (runs : m.mgmtRuns = true) (sr : m.mgmtSr = true) (full : m.bit Reg.srMbstat F.srMbstatOutfull = true) :
    let n := m.fld Reg.srMbstat F.srMbstatOutlen
    m.mboxRead.sent = .mgmt (BitVec.ofNat 8 n :: (octetsOfWords ((List.range 5).map fun i => m.reg (Reg.srMbout i))).take n) :: m.sent ∧
      m.mboxRead.bit Reg.srMbstat F.srMbstatOutfull = false := by
  intro n
  generalize answer : Tx.mgmt (BitVec.ofNat 8 n :: (octetsOfWords ((List.range 5).map fun i => m.reg (Reg.srMbout i))).take n) = x
  have e : m.mboxRead = (m.send x).setFld Reg.srMbstat F.srMbstatOutfull 0 := by
    simp [Mach.mboxRead, runs, sr, full, ← answer, n]
  rw [e]
  refine ⟨by simp [Mach.setFld, Mach.send], ?_⟩
  rw [bit_setFld_same _ _ (by decide) rfl]
  rfl

/-- What a command that reads a register answers (R443). -/
theorem mgmtRead {s : State} {c : Instr} (runs : s.toMach.mgmtRuns = true) (v : Mach → Word)
    (hc : exec c s = s.lift fun m => m.mgmtWord false (v m)) :
    exec c s = .next { s with sent := (if s.toMach.mgmtSr then .mgmtNak else .mgmt (6 :: octetsOfWord (v s.toMach))) :: s.sent } := by
  refine hc.trans (lift_next (f := fun m => m.mgmtWord false (v m)) ((mgmtWord_eq runs).trans ?_))
  rw [Bool.not_false, Bool.and_true, Mach.send]

theorem mboxRead_next (s : State) : exec .mboxRead s = .next { s with toMach := s.toMach.mboxRead } := rfl

/-- Settles O26. -/
theorem managementBus : Obligations.ManagementBus := by
  refine ⟨fun s runs => ?_, fun s cmd os runs => ?_⟩
  · dsimp only
    refine ⟨?_, (lift_next ((mgmtWord_eq runs).trans ?_) : execMgmtReadSrBoot s = _)⟩
    · simp only [List.forall_mem_cons]
      exact ⟨mgmtRead runs (fun m => m.reg Reg.modPart) rfl, mgmtRead runs (fun m => m.reg Reg.modSerialHi) rfl,
        mgmtRead runs (fun m => m.reg Reg.modSerialLo) rfl, mgmtRead runs (fun m => m.reg Reg.modState) rfl,
        mgmtRead runs (fun m => m.reg Reg.srRstcause) rfl, mgmtRead runs (fun m => m.reg Reg.twnStat) rfl,
        mgmtRead runs (fun m => m.reg Reg.twnEpoch) rfl, mgmtRead runs Mach.intFaultRead rfl,
        mgmtRead runs (fun m => m.reg Reg.rtStat) rfl, mgmtRead runs Mach.modTempRead rfl,
        mgmtRead runs Mach.modSupplyRead rfl, mgmtRead runs (fun m => m.reg (Reg.enTally 0x42)) rfl, by simp⟩
    · rw [Bool.not_true, Bool.and_false]
      rfl
  · dsimp only
    have sends {c : Instr} {f : Mach → Mach} {x : Tx} (hc : exec c s = s.lift f) (e : f s.toMach = s.toMach.send x) :
        exec c s = .next { s with sent := x :: s.sent } := hc.trans (lift_next e)
    refine ⟨fun unlisted => ?_, fun low => ?_, fun open_ => ⟨?_, ?_⟩, fun sr => ⟨fun full => ?_, fun empty some short => ?_,
      fun full => ?_, fun empty => ?_⟩⟩
    · exact sends rfl (by simp [runs, unlisted])
    · exact sends rfl (by simp [runs, low])
    · exact sends (f := fun m => m.mboxWrite os) rfl (by simp [Mach.mboxWrite, runs, open_])
    · exact sends rfl (by simp [Mach.mboxRead, runs, open_])
    · exact sends (f := fun m => m.mboxWrite os) rfl (by simp [Mach.mboxWrite, runs, full])
    · have written : s.toMach.mboxWrite os = (s.toMach.mbIn os).setReg Reg.srMbstat
          (fset (fset (s.toMach.reg Reg.srMbstat) F.srMbstatInfull 1) F.srMbstatInlen os.length) := by
        simp [Mach.mboxWrite, runs, sr, empty, some, short]
      refine ⟨_, (lift_next written : execMboxWrite os s = _), ?_, ?_, ?_, ?_⟩
      · exact (Mach.setReg_sent _ _ _).trans (mbIn_sent _ os)
      · change (Mach.setReg _ _ _).bit _ _ = _
        rw [bit_setReg_self, fbit_fset_apart _ _ (by decide) (by decide), fbit_fset_same _ _ (by decide) rfl]
        rfl
      · change (Mach.setReg _ _ _).fld _ _ = _
        rw [fld_setReg_self, fget_fset_same _ _ (by decide)]
        exact Nat.mod_eq_of_lt (Nat.lt_of_le_of_lt short (by decide))
      · have kept : (List.range 5).map (fun i => ((s.toMach.mbIn os).setReg Reg.srMbstat
            (fset (fset (s.toMach.reg Reg.srMbstat) F.srMbstatInfull 1) F.srMbstatInlen os.length)).reg (Reg.srMbin i)) =
            (List.range 5).map fun i => (s.toMach.mbIn os).reg (Reg.srMbin i) := by
          refine List.map_congr_left fun i low => reg_setReg_of_ne _ _ ?_
          have := List.mem_range.mp low
          unfold Reg.srMbstat Reg.srMbin
          omega
        exact (congrArg (fun l => (octetsOfWords l).take os.length) kept).trans (mbIn_reads _ short)
    · obtain ⟨sent, out⟩ := mboxRead_full runs sr full
      exact ⟨_, (mboxRead_next s), out, sent⟩
    · exact sends rfl (by simp [Mach.mboxRead, runs, sr, empty])

end Sys2Proof.Machine
end

section
/-! PROOFS. What closing connections, frames sent, jobs woken, notices, interrupts and alarms leave as it was. -/

namespace Sys2Proof.Machine

open Sys2Proof

/-- `n` is `m` after acts of the sessions, wakes of jobs, notices, interrupts, stocktake triggers and changes of the registers that
`L` lists: beside them only the notices, the stocktake's own state, the connections, replies, jobs, the order of jobs and what
leaves the module may differ. -/
structure Signals (L : List Nat) (m n : Mach) : Prop where
  rest : ∃ r t k ses replies jobs tpass cpass order sent, n = { m with
    regs := r, notes := t, stk := k, ses := ses, replies := replies, jobs := jobs, tpass := tpass, cpass := cpass, order := order
    sent := sent }
  reg : ∀ a, a < 0x320000 → a ∉ L → n.reg a = m.reg a

namespace Signals

variable {L : List Nat} {m x n o : Mach}

theorem refl (L : List Nat) (m : Mach) : Signals L m m := ⟨⟨_, _, _, _, _, _, _, _, _, _, rfl⟩, fun _ _ _ => rfl⟩

theorem trans (h : Signals L m n) (g : Signals L n o) : Signals L m o := by
  obtain ⟨_, _, _, _, _, _, _, _, _, _, rfl⟩ := h.rest
  obtain ⟨_, _, _, _, _, _, _, _, _, _, rfl⟩ := g.rest
  exact ⟨⟨_, _, _, _, _, _, _, _, _, _, rfl⟩, fun a low out => (g.reg a low out).trans (h.reg a low out)⟩

theorem mono {K : List Nat} (h : Signals L m n) (sub : ∀ a ∈ L, a ∈ K) : Signals K m n :=
  ⟨h.rest, fun a low out => h.reg a low fun listed => out (sub a listed)⟩

theorem of_alerts (h : Alerts m n) : Signals L m n := by
  refine ⟨?_, fun a low _ => h.reg a low⟩
  obtain ⟨_, _, _, rfl⟩ := h.rest
  exact ⟨_, _, _, _, _, _, _, _, _, _, rfl⟩

theorem ite {p : Prop} [Decidable p] {a b : Mach} (ha : Signals L m a) (hb : Signals L m b) : Signals L m (if p then a else b) := by
  split
  · exact ha
  · exact hb

theorem foldl {β : Type} {f : Mach → β → Mach} {l : List β} (h : Signals L m x)
    (step : ∀ y b, Signals L m y → Signals L m (f y b)) : Signals L m (l.foldl f x) := by
  induction l generalizing x with
  | nil => exact h
  | cons b l ih => exact ih (step x b h)

/-- A change of the parts that may differ, registers apart. -/
theorem parts {t k ses replies jobs tpass cpass order sent} (h : Signals L m x) : Signals L m { x with
    notes := t, stk := k, ses := ses, replies := replies, jobs := jobs, tpass := tpass, cpass := cpass, order := order
    sent := sent } :=
  h.trans ⟨⟨_, _, _, _, _, _, _, _, _, _, rfl⟩, fun _ _ _ => rfl⟩

theorem setReg {a v} (h : Signals L m x) (listed : a ∈ L) (plain : ledgerAddr a = false := by decide) :
    Signals L m (x.setReg a v) := by
  refine h.trans ⟨⟨tabPut resetOf a v x.regs, x.notes, x.stk, x.ses, x.replies, x.jobs, x.tpass, x.cpass, x.order, x.sent, ?_⟩,
    fun b _ out => reg_setReg_of_ne x v fun e => out (e ▸ listed)⟩
  rw [Mach.setReg, plain]
  rfl

theorem setFld {a f v} (h : Signals L m x) (listed : a ∈ L) (plain : ledgerAddr a = false := by decide) :
    Signals L m (x.setFld a f v) := h.setReg listed plain

theorem count {a k} (h : Signals L m x) (listed : a ∈ L) (plain : ledgerAddr a = false := by decide) :
    Signals L m (x.count a k) := h.setReg listed plain

/-! ### Interrupts, notices, alarms -/

theorem raise {i} (h : Signals L m x) : Signals L m (x.raise i) := h.trans (of_alerts (.raise x i))

theorem notice {t code arg} (h : Signals L m x) : Signals L m (x.notice t code arg) := h.trans (of_alerts (.notice x t code arg))

theorem notices {ts code arg} (h : Signals L m x) : Signals L m (x.notices ts code arg) := h.foldl fun _ _ h => h.notice

theorem faultEvent {b} (h : Signals L m x) : Signals L m (x.faultEvent b) := h.trans (of_alerts (.faultEvent x b))

theorem alarmReg {a mask v src evt} (h : Signals L m x) (listed : a ∈ L) (plain : ledgerAddr a = false := by decide) :
    Signals L m (x.alarmReg a mask v src evt) := by
  unfold Mach.alarmReg
  extract_lets old new m1
  have hm1 : Signals L m m1 := (h.setReg listed plain).raise
  exact .ite h (.ite hm1 hm1.faultEvent)

theorem twnAlarm {f b} (h : Signals L m x) (listed : Reg.twnAlarm ∈ L) : Signals L m (x.twnAlarm f b) := h.alarmReg listed

theorem refreshTwn (h : Signals L m x) (listed : Reg.twnAlarm ∈ L) : Signals L m x.refreshTwn := by
  unfold Mach.refreshTwn
  extract_lets sk m1 m2 m3 m4 m5
  have hm1 : Signals L m m1 := h.twnAlarm listed
  have hm2 : Signals L m m2 := hm1.twnAlarm listed
  have hm3 : Signals L m m3 := hm2.twnAlarm listed
  have hm4 : Signals L m m4 := hm3.twnAlarm listed
  have hm5 : Signals L m m5 := hm4.twnAlarm listed
  exact hm5.twnAlarm listed

/-! ### Jobs and connections -/

theorem makeReady {j} (h : Signals L m x) : Signals L m (x.makeReady j) := by
  unfold Mach.makeReady
  split
  · exact h
  · exact h.parts

theorem wakeJob {j code detail count} (h : Signals L m x) : Signals L m (x.wakeJob j code detail count) := by
  unfold Mach.wakeJob
  split
  · exact h
  · exact .ite (makeReady h.parts) h

theorem send {t} (h : Signals L m x) : Signals L m (x.send t) := h.parts

theorem setLive {s e} (h : Signals L m x) : Signals L m (x.setLive s e) := h.parts

theorem connSend {s typ flags body} (h : Signals L m x) : Signals L m (x.connSend s typ flags body) := by
  unfold Mach.connSend
  extract_lets e
  split
  · exact h
  · exact h.setLive.send

theorem flushN {n s} (h : Signals L m x) : Signals L m (Mach.flushN n s x) := by
  induction n generalizing x with
  | zero => exact h
  | succ n ih =>
    unfold Mach.flushN
    extract_lets e
    split
    · exact h
    · refine .ite h ?_
      split
      · exact ih h.setLive.connSend
      · exact .ite h (ih h.setLive.connSend)

theorem flush {s} (h : Signals L m x) : Signals L m (x.flush s) := h.flushN

theorem failSends {s} (h : Signals L m x) : Signals L m (x.failSends s) := by
  unfold Mach.failSends
  extract_lets hit m1 m2
  have hm1 : Signals L m m1 := h.parts
  have hm2 : Signals L m m2 := hm1.foldl fun _ _ h => .ite h h.wakeJob
  exact hm2.parts

theorem closeConn {s} (h : Signals L m x) : Signals L m (x.closeConn s) := by
  unfold Mach.closeConn
  extract_lets e
  split
  · exact h
  · exact h.setLive.failSends

theorem bye {s reason} (h : Signals L m x) : Signals L m (x.bye s reason) := by
  unfold Mach.bye
  split
  · exact h
  · exact h.connSend.closeConn

theorem byeAll {reason} (h : Signals L m x) : Signals L m (x.byeAll reason) := h.foldl fun _ _ h => h.bye

theorem closePort {p} (h : Signals L m x) : Signals L m (x.closePort p) := h.foldl fun _ _ h => h.closeConn

theorem epochFrame {s} (h : Signals L m x) : Signals L m (x.epochFrame s) := .ite h.setLive.send h

theorem epochSessions {prev} (h : Signals L m x) : Signals L m (x.epochSessions prev) := by
  unfold Mach.epochSessions
  extract_lets ids m1
  have hm1 : Signals L m m1 := h.foldl fun _ _ h => h.setLive
  exact .ite ((hm1.foldl fun _ _ h => h.flush).foldl fun _ _ h => h.epochFrame) hm1

/-! ### What stands -/

section

variable (h : Signals L m n)
include h

theorem twin : n.twin = m.twin := by obtain ⟨_, _, _, _, _, _, _, _, _, _, rfl⟩ := h.rest; rfl
theorem pins : n.pins = m.pins := by obtain ⟨_, _, _, _, _, _, _, _, _, _, rfl⟩ := h.rest; rfl
theorem ledger : n.ledger = m.ledger := by obtain ⟨_, _, _, _, _, _, _, _, _, _, rfl⟩ := h.rest; rfl
theorem mem : n.mem = m.mem := by obtain ⟨_, _, _, _, _, _, _, _, _, _, rfl⟩ := h.rest; rfl
theorem seats : n.seats = m.seats := by obtain ⟨_, _, _, _, _, _, _, _, _, _, rfl⟩ := h.rest; rfl
theorem openFolio : n.openFolio = m.openFolio := by obtain ⟨_, _, _, _, _, _, _, _, _, _, rfl⟩ := h.rest; rfl
theorem closing : n.closing = m.closing := by obtain ⟨_, _, _, _, _, _, _, _, _, _, rfl⟩ := h.rest; rfl
theorem now : n.now = m.now := by obtain ⟨_, _, _, _, _, _, _, _, _, _, rfl⟩ := h.rest; rfl
theorem rt : n.rt = m.rt := by obtain ⟨_, _, _, _, _, _, _, _, _, _, rfl⟩ := h.rest; rfl
theorem sealing : n.sealing = m.sealing := by obtain ⟨_, _, _, _, _, _, _, _, _, _, rfl⟩ := h.rest; rfl
theorem merge : n.merge = m.merge := by obtain ⟨_, _, _, _, _, _, _, _, _, _, rfl⟩ := h.rest; rfl

theorem fld {a f} (low : a < 0x320000) (out : a ∉ L) : n.fld a f = m.fld a f := fld_congr (h.reg a low out) f

theorem bit {a f} (low : a < 0x320000) (out : a ∉ L) : n.bit a f = m.bit a f := by rw [Mach.bit, h.reg a low out, Mach.bit]

end

end Signals

end Sys2Proof.Machine
end

section
/-! PROOFS. Role, epoch, fence and paths (R137 to R149): what changes and what stands. -/

namespace Sys2Proof.Machine

open Sys2Proof

/-- The registers that a change of role, epoch, lease or path may write. -/
def roleRegs : List Nat :=
  [Reg.twnStat, Reg.twnEpoch, Reg.twnEpochs, Reg.twnAlarm, Reg.twnSync, Reg.twnCtl, Reg.accStat, Reg.sealStat, Reg.sealHead,
    Reg.sealLastv, Reg.sealLastno]

/-- `n` is `m` after changes of role, epoch, lease, path or synchronisation. -/
structure Turns (m n : Mach) : Prop where
  rest : ∃ x tw se cl, Signals roleRegs m x ∧ n = { x with twin := tw, sealing := se, closing := cl }

namespace Turns

variable {m x n o : Mach}

theorem of_signals (h : Signals roleRegs m n) : Turns m n := ⟨n, n.twin, n.sealing, n.closing, h, rfl⟩

theorem refl (m : Mach) : Turns m m := of_signals (.refl _ m)

theorem trans (h : Turns m n) (g : Turns n o) : Turns m o := by
  obtain ⟨x, tw, se, cl, hx, rfl⟩ := h.rest
  obtain ⟨y, tw', se', cl', hy, rfl⟩ := g.rest
  obtain ⟨r, t, k, ses, replies, jobs, tpass, cpass, order, sent, rfl⟩ := hy.rest
  refine ⟨{ x with
    regs := r, notes := t, stk := k, ses := ses, replies := replies, jobs := jobs, tpass := tpass, cpass := cpass, order := order
    sent := sent }, tw', se', cl', hx.trans ⟨⟨_, _, _, _, _, _, _, _, _, _, rfl⟩, hy.reg⟩, rfl⟩

theorem signals (h : Turns m x) (g : Signals roleRegs x n) : Turns m n := h.trans (of_signals g)

/-- A change of the twin's state, the seal engine's and the closing folios. -/
theorem parts {tw se cl} (h : Turns m x) : Turns m { x with twin := tw, sealing := se, closing := cl } :=
  h.trans ⟨x, tw, se, cl, .refl _ x, rfl⟩

/-- A change of the connections too. -/
theorem partsSes {ses tw se cl} (h : Turns m x) : Turns m { x with ses := ses, twin := tw, sealing := se, closing := cl } :=
  (h.signals (.parts (ses := ses) (.refl _ x))).parts

theorem ite {p : Prop} [Decidable p] {a b : Mach} (ha : Turns m a) (hb : Turns m b) : Turns m (if p then a else b) := by
  split
  · exact ha
  · exact hb

theorem setReg {a v} (h : Turns m x) (listed : a ∈ roleRegs := by decide) (plain : ledgerAddr a = false := by decide) :
    Turns m (x.setReg a v) := h.signals (.setReg (.refl _ x) listed plain)

theorem setFld {a f v} (h : Turns m x) (listed : a ∈ roleRegs := by decide) (plain : ledgerAddr a = false := by decide) :
    Turns m (x.setFld a f v) := h.setReg listed plain

theorem count {a k} (h : Turns m x) (listed : a ∈ roleRegs := by decide) (plain : ledgerAddr a = false := by decide) :
    Turns m (x.count a k) := h.setReg listed plain

theorem raise {i} (h : Turns m x) : Turns m (x.raise i) := h.signals (.raise (.refl _ x))

theorem notices {ts code arg} (h : Turns m x) : Turns m (x.notices ts code arg) := h.signals (.notices (.refl _ x))

theorem faultEvent {b} (h : Turns m x) : Turns m (x.faultEvent b) := h.signals (.faultEvent (.refl _ x))

theorem twnAlarm {f b} (h : Turns m x) : Turns m (x.twnAlarm f b) := h.signals (.twnAlarm (.refl _ x) (by decide))

theorem refreshTwn (h : Turns m x) : Turns m x.refreshTwn := h.signals (.refreshTwn (.refl _ x) (by decide))

theorem refreshHealth (h : Turns m x) : Turns m x.refreshHealth := h.parts

theorem refreshRun (h : Turns m x) : Turns m x.refreshRun := h.setFld.setFld

theorem byeAll {reason} (h : Turns m x) : Turns m (x.byeAll reason) := h.signals (.byeAll (.refl _ x))

theorem epochSessions {prev} (h : Turns m x) : Turns m (x.epochSessions prev) := h.signals (.epochSessions (.refl _ x))

theorem sealLeave (h : Turns m x) : Turns m x.sealLeave := by
  unfold Mach.sealLeave
  extract_lets src m1 src1
  have hm1 : Turns m m1 := h.parts
  split
  · exact hm1
  · extract_lets m2
    have hm2 : Turns m m2 := hm1.parts
    exact hm2.setReg.setReg.setReg

theorem setRole {r} (h : Turns m x) : Turns m (x.setRole r) := by
  unfold Mach.setRole
  extract_lets old serve m1 cleared m2 m3 src m4
  have hm1 : Turns m m1 := .ite (h.signals (.foldl (.refl _ x) fun _ _ h => h.closeConn)) h
  have hcleared : Turns m cleared := hm1.partsSes
  have hm2 : Turns m m2 := .ite hcleared.sealLeave hm1
  have hm3 : Turns m m3 := hm2.setFld.raise.faultEvent
  have hm4 : Turns m m4 := .ite hm3.parts hm3.parts
  exact .ite h hm4.refreshRun.refreshTwn

theorem newKey (h : Turns m x) : Turns m x.newKey := h.parts

theorem setEpoch {e} (h : Turns m x) : Turns m (x.setEpoch e) := by
  unfold Mach.setEpoch
  extract_lets prev m0 m1 m2
  have hm0 : Turns m m0 := .ite h.newKey h
  have hm1 : Turns m m1 := hm0.setReg.count
  have hm2 : Turns m m2 := hm1.notices.raise
  exact .ite h hm2.faultEvent.epochSessions.refreshTwn

theorem setLease {b} (h : Turns m x) : Turns m (x.setLease b) := h.setFld

theorem setPendingEpoch {p} (h : Turns m x) : Turns m (x.setPendingEpoch p) := h.parts.setFld

theorem endHandover (h : Turns m x) : Turns m x.endHandover := by
  unfold Mach.endHandover
  extract_lets src m1
  have hm1 : Turns m m1 := h.parts
  exact hm1.setFld.setFld

theorem fence (h : Turns m x) : Turns m x.fence := by
  unfold Mach.fence
  extract_lets m1 src m2
  have hm1 : Turns m m1 := h.byeAll
  have hm2 : Turns m m2 := ((hm1.parts.setLease).setPendingEpoch).endHandover
  exact .ite hm2.setRole hm2

theorem syncDiscard (h : Turns m x) : Turns m x.syncDiscard := by
  unfold Mach.syncDiscard
  extract_lets src m1
  have hm1 : Turns m m1 := h.parts
  exact hm1.setReg.setFld.setEpoch.twnAlarm

theorem fenceBarred (h : Turns m x) : Turns m x.fenceBarred := by
  unfold Mach.fenceBarred
  extract_lets m1 src m2
  have hm1 : Turns m m1 := h.fence
  have hm2 : Turns m m2 := hm1.parts
  exact .ite hm2.syncDiscard hm2

theorem moduleLost (h : Turns m x) : Turns m x.moduleLost := by
  unfold Mach.moduleLost
  extract_lets m1 src
  have hm1 : Turns m m1 := h.fenceBarred
  exact hm1.parts

theorem losePath {b} (h : Turns m x) : Turns m (x.losePath b) := by
  unfold Mach.losePath
  extract_lets src m1 m2 m3
  have hm1 : Turns m m1 := .ite h.parts.setFld h.parts.setFld
  have hm2 : Turns m m2 := .ite hm1.setFld.twnAlarm hm1
  have hm3 : Turns m m3 := .ite hm2.syncDiscard hm2
  exact .ite hm3.refreshTwn.refreshHealth h

theorem linkDown (h : Turns m x) : Turns m x.linkDown := h.parts.losePath

/-! ### What stands -/

section

variable (h : Turns m n)
include h

theorem reg {a} (low : a < 0x320000) (out : a ∉ roleRegs) : n.reg a = m.reg a := by
  obtain ⟨x, tw, se, cl, hx, rfl⟩ := h.rest
  exact hx.reg a low out

theorem fld {a f} (low : a < 0x320000) (out : a ∉ roleRegs) : n.fld a f = m.fld a f := fld_congr (h.reg low out) f

theorem bit {a f} (low : a < 0x320000) (out : a ∉ roleRegs) : n.bit a f = m.bit a f := by rw [Mach.bit, h.reg low out, Mach.bit]

theorem ledger : n.ledger = m.ledger := by obtain ⟨x, tw, se, cl, hx, rfl⟩ := h.rest; exact hx.ledger
theorem pins : n.pins = m.pins := by obtain ⟨x, tw, se, cl, hx, rfl⟩ := h.rest; exact hx.pins
theorem mem : n.mem = m.mem := by obtain ⟨x, tw, se, cl, hx, rfl⟩ := h.rest; exact hx.mem
theorem seats : n.seats = m.seats := by obtain ⟨x, tw, se, cl, hx, rfl⟩ := h.rest; exact hx.seats
theorem openFolio : n.openFolio = m.openFolio := by obtain ⟨x, tw, se, cl, hx, rfl⟩ := h.rest; exact hx.openFolio
theorem now : n.now = m.now := by obtain ⟨x, tw, se, cl, hx, rfl⟩ := h.rest; exact hx.now
theorem rt : n.rt = m.rt := by obtain ⟨x, tw, se, cl, hx, rfl⟩ := h.rest; exact hx.rt
theorem merge : n.merge = m.merge := by obtain ⟨x, tw, se, cl, hx, rfl⟩ := h.rest; exact hx.merge

end

end Turns

end Sys2Proof.Machine
end

section
/-! PROOFS. The role, the epoch and the fence latch after each change (R138 to R149). -/

namespace Sys2Proof.Machine

open Sys2Proof

variable (m : Mach)

/-! ### TWN_STAT and the twin's state through acts that leave them -/

theorem reg_refreshTwn {a : Nat} (low : a < 0x320000) (other : a ≠ Reg.twnAlarm) : m.refreshTwn.reg a = m.reg a :=
  (Signals.refreshTwn (.refl [Reg.twnAlarm] m) (by decide)).reg a low (by simpa using other)

theorem twin_refreshTwn : m.refreshTwn.twin = m.twin := (Signals.refreshTwn (.refl [Reg.twnAlarm] m) (by decide)).twin

theorem reg_twnAlarm {a : Nat} (f : Fld) (b : Bool) (low : a < 0x320000) (other : a ≠ Reg.twnAlarm) :
    (m.twnAlarm f b).reg a = m.reg a :=
  (Signals.twnAlarm (.refl [Reg.twnAlarm] m) (by decide)).reg a low (by simpa using other)

theorem twin_twnAlarm (f : Fld) (b : Bool) : (m.twnAlarm f b).twin = m.twin :=
  (Signals.twnAlarm (.refl [Reg.twnAlarm] m) (by decide)).twin

theorem reg_sealLeave_twnStat : m.sealLeave.reg Reg.twnStat = m.reg Reg.twnStat := by
  unfold Mach.sealLeave
  extract_lets src m1 src1
  split
  · rfl
  · extract_lets m2
    simp (disch := decide) only [reg_setReg_of_ne]
    rfl

theorem twin_sealLeave : m.sealLeave.twin = m.twin := by
  unfold Mach.sealLeave
  extract_lets src m1 src1
  split
  · rfl
  · extract_lets m2
    simp only [Mach.setReg_twin]
    rfl

/-- The closes of all connections. -/
theorem signals_closeAll (l : List Nat) : Signals [] m (l.foldl Mach.closeConn m) := .foldl (.refl _ m) fun _ _ h => h.closeConn

/-! ### Role -/

/-- What leaving ACTIVE and SOLO does first (R83, R149, R173). -/
def Mach.roleLeft (m : Mach) (serve : Bool) : Mach :=
  let m1 := if m.serving && !serve then m.openSessions.foldl Mach.closeConn m else m
  if m.serving && !serve then
    let cleared : Mach := { m1 with
      closing := []
      ses := m1.ses.map fun e => (e.1, { e.2 with stored := [], epochEnd := 0 }) }
    cleared.sealLeave
  else m1

theorem roleLeft_stands (serve : Bool) :
    (m.roleLeft serve).reg Reg.twnStat = m.reg Reg.twnStat ∧ (m.roleLeft serve).twin = m.twin := by
  unfold Mach.roleLeft
  extract_lets m1 cleared
  have hm1 : Signals [] m m1 := .ite (signals_closeAll m _) (.refl _ m)
  have stat : m1.reg Reg.twnStat = m.reg Reg.twnStat := hm1.reg _ (by decide) (by decide)
  split
  · exact ⟨(reg_sealLeave_twnStat _).trans stat, (twin_sealLeave _).trans hm1.twin⟩
  · exact ⟨stat, hm1.twin⟩

/-- TWN_STAT after a change of role. -/
theorem reg_setRole_twnStat {r : Nat} (change : r ≠ m.role) :
    (m.setRole r).reg Reg.twnStat = fset (m.reg Reg.twnStat) F.twnStatRole r := by
  obtain ⟨stat, -⟩ := roleLeft_stands m (r = 1 || r = 2)
  let m3 := (((m.roleLeft (r = 1 || r = 2)).setFld Reg.twnStat F.twnStatRole r).raise 16).faultEvent 0
  have hm3 : m3.reg Reg.twnStat = fset (m.reg Reg.twnStat) F.twnStatRole r := by
    rw [(Alerts.faultEvent _ 0).reg _ (by decide), (Alerts.raise _ 16).reg _ (by decide), reg_setFld_self, stat]
  have e : m.setRole r = (if r = 2 then { m3 with twin := { m3.twin with soloFrom := some m.openFolio } }
      else { m3 with twin := { m3.twin with soloFrom := none } } : Mach).refreshRun.refreshTwn := if_neg change
  rw [e, reg_refreshTwn _ (by decide) (by decide), Mach.refreshRun, reg_setFld_of_ne _ _ (by decide),
    reg_setFld_of_ne _ _ (by decide), ← hm3]
  split <;> rfl

/-- The twin's state after a change of role (R32). -/
theorem twin_setRole {r : Nat} (change : r ≠ m.role) :
    (m.setRole r).twin = { m.twin with soloFrom := if r = 2 then some m.openFolio else none } := by
  obtain ⟨-, twin⟩ := roleLeft_stands m (r = 1 || r = 2)
  let m3 := (((m.roleLeft (r = 1 || r = 2)).setFld Reg.twnStat F.twnStatRole r).raise 16).faultEvent 0
  have hm3 : m3.twin = m.twin := by
    have alerts : Signals [] _ m3 := Signals.faultEvent (Signals.raise (.refl [] _))
    rw [alerts.twin, Mach.setFld, Mach.setReg_twin, twin]
  have e : m.setRole r = (if r = 2 then { m3 with twin := { m3.twin with soloFrom := some m.openFolio } }
      else { m3 with twin := { m3.twin with soloFrom := none } } : Mach).refreshRun.refreshTwn := if_neg change
  rw [e, twin_refreshTwn, Mach.refreshRun, Mach.setFld, Mach.setFld, Mach.setReg_twin, Mach.setReg_twin, ← hm3]
  split <;> rfl

theorem setRole_same : m.setRole m.role = m := if_pos rfl

theorem role_setRole {r : Nat} (h : r < 8) : (m.setRole r).role = r := by
  by_cases same : r = m.role
  · rw [same, setRole_same]
  · rw [Mach.role, Mach.fld, reg_setRole_twnStat m same, fget_fset_same _ _ (by decide)]
    exact Nat.mod_eq_of_lt h

/-- A change of role leaves the other fields of TWN_STAT. -/
theorem fld_setRole {r : Nat} {f : Fld} (fits : fitsWord f = true) (apart : fieldsApart F.twnStatRole f = true) :
    (m.setRole r).fld Reg.twnStat f = m.fld Reg.twnStat f := by
  by_cases same : r = m.role
  · rw [same, setRole_same]
  · rw [Mach.fld, reg_setRole_twnStat m same, fget_fset_apart _ _ fits apart, Mach.fld]

theorem bit_setRole {r : Nat} {f : Fld} (fits : fitsWord f = true) (apart : fieldsApart F.twnStatRole f = true) :
    (m.setRole r).bit Reg.twnStat f = m.bit Reg.twnStat f := congrArg (· == 1) (fld_setRole m fits apart)

/-! ### Epoch -/

/-- A change of epoch leaves TWN_STAT, and of the twin's state renews the link's key at most. -/
theorem setEpoch_stands (e : Nat) : (m.setEpoch e).reg Reg.twnStat = m.reg Reg.twnStat ∧
    ∃ k n, (m.setEpoch e).twin = { m.twin with keyNo := k, keyMsgs := n } := by
  unfold Mach.setEpoch
  extract_lets prev m0 m1 m2
  split
  · exact ⟨rfl, _, _, rfl⟩
  · have hm2 : Signals [Reg.twnAlarm] m1 ((m2.faultEvent 0).epochSessions prev).refreshTwn :=
      .refreshTwn (.epochSessions (.faultEvent (.raise (.notices (.refl _ m1))))) (by decide)
    refine ⟨?_, ?_⟩
    · rw [hm2.reg _ (by decide) (by decide)]
      simp (disch := decide) only [m1, reg_count_of_ne, reg_setReg_of_ne]
      unfold m0
      split <;> rfl
    · rw [hm2.twin]
      simp only [m1, Mach.count, Mach.setReg_twin]
      unfold m0
      split
      · exact ⟨_, _, rfl⟩
      · exact ⟨_, _, rfl⟩

theorem epoch_setEpoch {e : Nat} (h : e < 2 ^ 48) : (m.setEpoch e).epoch = e := by
  unfold Mach.setEpoch
  extract_lets prev m0 m1 m2
  split
  next same => exact same.symm
  next =>
    have hm2 : Signals [Reg.twnAlarm] m1 ((m2.faultEvent 0).epochSessions prev).refreshTwn :=
      .refreshTwn (.epochSessions (.faultEvent (.raise (.notices (.refl _ m1))))) (by decide)
    rw [Mach.epoch, hm2.reg _ (by decide) (by decide)]
    simp (disch := decide) only [m1, reg_count_of_ne, reg_setReg_self]
    exact Nat.mod_eq_of_lt h

/-! ### The fence -/

/-- TWN_STAT of a module that fences, apart from its role. -/
def fencedStat (w : Word) : Word := fset (fset (fset w F.twnStatLease 0) F.twnStatPending 0) F.twnStatHandover 0

/-- The module before a fence takes its role away (R149). -/
def Mach.latched (m : Mach) : Mach :=
  let m1 := m.byeAll 5
  (({ m1 with twin := { m1.twin with latch := true } }.setLease false).setPendingEpoch none).endHandover

theorem reg_setPendingEpoch (p : Option Nat) :
    (m.setPendingEpoch p).reg Reg.twnStat = fset (m.reg Reg.twnStat) F.twnStatPending (b2n p.isSome) := reg_setFld_self _ _

theorem twin_setPendingEpoch (p : Option Nat) : (m.setPendingEpoch p).twin = { m.twin with pending := p } := Mach.setReg_twin _ _ _

theorem reg_endHandover : m.endHandover.reg Reg.twnStat = fset (m.reg Reg.twnStat) F.twnStatHandover 0 :=
  (reg_setFld_of_ne _ _ (by decide)).trans (reg_setFld_self _ _)

theorem twin_endHandover : m.endHandover.twin = { m.twin with hoVolume := none, hoDone := false } :=
  (Mach.setReg_twin _ _ _).trans (Mach.setReg_twin _ _ _)

theorem reg_latched_twnStat : m.latched.reg Reg.twnStat = fencedStat (m.reg Reg.twnStat) := by
  have hm1 : Signals [] m (m.byeAll 5) := .byeAll (.refl _ m)
  rw [Mach.latched, reg_endHandover, reg_setPendingEpoch, Mach.setLease, reg_setFld_self]
  exact congrArg fencedStat (hm1.reg _ (by decide) (by decide))

theorem twin_latched : m.latched.twin = { m.twin with latch := true, pending := none, hoVolume := none, hoDone := false } := by
  have hm1 : Signals [] m (m.byeAll 5) := .byeAll (.refl _ m)
  rw [Mach.latched, twin_endHandover, twin_setPendingEpoch, Mach.setLease, Mach.setFld, Mach.setReg_twin, ← hm1.twin]

/-- A field of TWN_STAT that a fence leaves. -/
theorem fld_latched {f : Fld} (fits : fitsWord f = true) (lease : fieldsApart F.twnStatLease f = true)
    (pending : fieldsApart F.twnStatPending f = true) (handover : fieldsApart F.twnStatHandover f = true) :
    m.latched.fld Reg.twnStat f = m.fld Reg.twnStat f := by
  rw [Mach.fld, reg_latched_twnStat, fencedStat, fget_fset_apart _ _ fits handover, fget_fset_apart _ _ fits pending,
    fget_fset_apart _ _ fits lease, Mach.fld]

theorem role_latched : m.latched.role = m.role := fld_latched m (by decide) (by decide) (by decide) (by decide)

theorem lease_latched : m.latched.lease = false := by
  rw [Mach.lease, Mach.bit, reg_latched_twnStat, fencedStat, fbit_fset_apart _ _ (by decide) (by decide),
    fbit_fset_apart _ _ (by decide) (by decide), fbit_fset_same _ _ (by decide) rfl]
  rfl

theorem fence_eq : m.fence = if m.role = 1 ∨ m.role = 2 ∨ m.role = 3 then m.latched.setRole 5 else m.latched := by
  have e : m.fence = if m.latched.role = 1 || m.latched.role = 2 || m.latched.role = 3 then m.latched.setRole 5 else m.latched := rfl
  rw [e, role_latched]
  simp [or_assoc]

/-- What a fence leaves (R149). -/
theorem fence_leaves : m.fence.role = (if m.role = 1 ∨ m.role = 2 ∨ m.role = 3 then 5 else m.role) ∧ m.fence.lease = false ∧
    m.fence.fld Reg.twnStat F.twnStatHandover = 0 ∧
    ∃ x, m.fence.twin = { m.twin with latch := true, pending := none, hoVolume := none, hoDone := false, soloFrom := x } := by
  have handover : m.latched.fld Reg.twnStat F.twnStatHandover = 0 := by
    rw [Mach.fld, reg_latched_twnStat, fencedStat, fget_fset_same _ _ (by decide)]
    rfl
  rw [fence_eq]
  split
  · refine ⟨role_setRole _ (by decide), (bit_setRole _ (by decide) (by decide)).trans (lease_latched m),
      (fld_setRole _ (by decide) (by decide)).trans handover, ?_⟩
    by_cases same : 5 = m.latched.role
    · exact ⟨m.twin.soloFrom, by rw [same, setRole_same, twin_latched]⟩
    · exact ⟨_, by rw [twin_setRole _ same, twin_latched]⟩
  · exact ⟨role_latched m, lease_latched m, handover, m.twin.soloFrom, twin_latched m⟩

/-! ### Losses -/

/-- The discard of a copy leaves the fields of TWN_STAT but SYNCED, and of the twin's state what no copy holds. -/
theorem syncDiscard_stands : m.syncDiscard.reg Reg.twnStat = fset (m.reg Reg.twnStat) F.twnStatSynced 0 ∧
    ∃ k n, m.syncDiscard.twin = { m.twin with hold := none, syncBounds := 0, fails := [], keyNo := k, keyMsgs := n } := by
  unfold Mach.syncDiscard
  extract_lets src m1
  obtain ⟨stat, k, n, twin⟩ := setEpoch_stands ((m1.setReg Reg.twnSync 0).setFld Reg.twnStat F.twnStatSynced 0) 0
  refine ⟨?_, k, n, ?_⟩
  · rw [reg_twnAlarm _ _ _ (by decide) (by decide), stat, reg_setFld_self, reg_setReg_of_ne _ _ (by decide)]
    rfl
  · rw [twin_twnAlarm, twin, Mach.setFld, Mach.setReg_twin, Mach.setReg_twin]

/-- A fence that lasts until a MODULE reset leaves the latch, no lease and, of a serving module, role FENCED (R149). -/
theorem fenceBarred_leaves : m.fenceBarred.role = (if m.role = 1 ∨ m.role = 2 ∨ m.role = 3 then 5 else m.role) ∧
    m.fenceBarred.lease = false ∧ m.fenceBarred.twin.latch = true ∧ m.fenceBarred.twin.barred = true := by
  obtain ⟨role, lease, -, x, twin⟩ := fence_leaves m
  unfold Mach.fenceBarred
  extract_lets m1 src m2
  split
  · obtain ⟨stat, k, n, held⟩ := syncDiscard_stands m2
    refine ⟨?_, ?_, ?_, ?_⟩
    · rw [Mach.role, Mach.fld, stat, fget_fset_apart _ _ (by decide) (by decide)]
      exact role
    · rw [Mach.lease, Mach.bit, stat, fbit_fset_apart _ _ (by decide) (by decide)]
      exact lease
    · rw [held]
      exact congrArg Twin.latch twin
    · rw [held]
  · exact ⟨role, lease, congrArg Twin.latch twin, rfl⟩

/-- What the loss of the module leaves (R33). -/
theorem moduleLost_leaves : m.moduleLost.role = (if m.role = 1 ∨ m.role = 2 ∨ m.role = 3 then 5 else m.role) ∧
    m.moduleLost.lease = false ∧ m.moduleLost.twin.latch = true ∧ m.moduleLost.twin.barred = true ∧
    m.moduleLost.twin.loopFailed = true := by
  obtain ⟨role, lease, latch, barred⟩ := fenceBarred_leaves m
  exact ⟨role, lease, latch, barred, rfl⟩

/-! ### Paths -/

/-- Fields of TWN_STAT that a lost path leaves: all but PATHA, PATHB, PEERROLE and SYNCED. -/
def pathLeaves (f : Fld) : Bool :=
  fitsWord f && fieldsApart F.twnStatPatha f && fieldsApart F.twnStatPathb f && fieldsApart F.twnStatPeerrole f &&
    fieldsApart F.twnStatSynced f

/-- A path marked lost. -/
def Mach.pathLost (m : Mach) (b : Bool) : Mach :=
  if b then { m with twin := { m.twin with lostAtB := m.now } }.setFld Reg.twnStat F.twnStatPathb 0
  else { m with twin := { m.twin with lostAtA := m.now } }.setFld Reg.twnStat F.twnStatPatha 0

/-- The field of a path. -/
def pathFld (b : Bool) : Fld := if b then F.twnStatPathb else F.twnStatPatha

theorem reg_pathLost (b : Bool) : (m.pathLost b).reg Reg.twnStat = fset (m.reg Reg.twnStat) (pathFld b) 0 := by
  cases b
  · exact reg_setFld_self _ _
  · exact reg_setFld_self _ _

theorem twin_pathLost (b : Bool) : ∃ la lb, (m.pathLost b).twin = { m.twin with lostAtA := la, lostAtB := lb } := by
  cases b
  · exact ⟨m.now, m.twin.lostAtB, by simp [Mach.pathLost, Mach.setFld]⟩
  · exact ⟨m.twin.lostAtA, m.now, by simp [Mach.pathLost, Mach.setFld]⟩

theorem reg_refreshHealth (a : Nat) : m.refreshHealth.reg a = m.reg a := rfl

theorem twin_refreshHealth : ∃ ha, m.refreshHealth.twin = { m.twin with healthyAt := ha } := ⟨_, rfl⟩

/-- What the loss of a path leaves (R147, R157): the path down, the fields of TWN_STAT but the paths', PEERROLE and SYNCED, and of
the twin's state what no path and no copy holds. -/
theorem losePath_leaves (b : Bool) :
    (m.losePath b).bit Reg.twnStat (pathFld b) = false ∧
    (∀ f, pathLeaves f = true → (m.losePath b).fld Reg.twnStat f = m.fld Reg.twnStat f) ∧
    ∃ la lb ho sb fs k n ha, (m.losePath b).twin = { m.twin with
      lostAtA := la, lostAtB := lb, hold := ho, syncBounds := sb, fails := fs, keyNo := k, keyMsgs := n, healthyAt := ha } := by
  by_cases up : (if b then m.pathB else m.pathA) = true
  · let m1 := m.pathLost b
    let m2 := if m1.bothLost then (m1.setFld Reg.twnStat F.twnStatPeerrole 0).twnAlarm F.twnAlarmAlivemis false else m1
    let m3 := if m2.role = 4 && m2.syncPhase ≠ 0 then m2.syncDiscard else m2
    have e : m.losePath b = m3.refreshTwn.refreshHealth := by
      unfold Mach.losePath
      exact if_pos up
    obtain ⟨la, lb, twin1⟩ := twin_pathLost m b
    have stat2 : ∀ f, fitsWord f = true → fieldsApart F.twnStatPeerrole f = true → m2.fld Reg.twnStat f = m1.fld Reg.twnStat f := by
      intro f fits apart
      unfold m2
      split
      · rw [Mach.fld, reg_twnAlarm _ _ _ (by decide) (by decide), reg_setFld_self, fget_fset_apart _ _ fits apart, Mach.fld]
      · rfl
    have twin2 : m2.twin = m1.twin := by
      unfold m2
      split
      · rw [twin_twnAlarm, Mach.setFld, Mach.setReg_twin]
      · rfl
    obtain ⟨statD, k, n, twinD⟩ := syncDiscard_stands m2
    have stat3 : ∀ f, fitsWord f = true → fieldsApart F.twnStatSynced f = true → m3.fld Reg.twnStat f = m2.fld Reg.twnStat f := by
      intro f fits apart
      unfold m3
      split
      · rw [Mach.fld, statD, fget_fset_apart _ _ fits apart, Mach.fld]
      · rfl
    have twin3 : ∃ ho sb fs k n, m3.twin = { m2.twin with hold := ho, syncBounds := sb, fails := fs, keyNo := k, keyMsgs := n } := by
      unfold m3
      split
      · exact ⟨_, _, _, _, _, twinD⟩
      · exact ⟨_, _, _, _, _, rfl⟩
    clear_value m3 m2
    have stat4 (f : Fld) : (m.losePath b).fld Reg.twnStat f = m3.fld Reg.twnStat f := by
      rw [e, Mach.fld, reg_refreshHealth, reg_refreshTwn m3 (by decide) (by decide), Mach.fld]
    refine ⟨?_, fun f leaves => ?_, ?_⟩
    · have clear : (m.losePath b).fld Reg.twnStat (pathFld b) = 0 := by
        rw [stat4, stat3 _ (by cases b <;> decide) (by cases b <;> decide), stat2 _ (by cases b <;> decide) (by cases b <;> decide),
          Mach.fld, reg_pathLost, fget_fset_same _ _ (by cases b <;> decide)]
        exact Nat.zero_mod _
      exact decide_eq_false fun one => absurd (one.symm.trans clear) (by decide)
    · simp only [pathLeaves, Bool.and_eq_true] at leaves
      obtain ⟨⟨⟨⟨fits, patha⟩, pathb⟩, peer⟩, synced⟩ := leaves
      rw [stat4, stat3 f fits synced, stat2 f fits peer, Mach.fld, reg_pathLost, fget_fset_apart _ _ fits, Mach.fld]
      cases b
      · exact patha
      · exact pathb
    · obtain ⟨ho, sb, fs, k, n, twin3⟩ := twin3
      obtain ⟨ha, health⟩ := twin_refreshHealth m3.refreshTwn
      exact ⟨la, lb, ho, sb, fs, k, n, ha, by rw [e, health, twin_refreshTwn, twin3, twin2, twin1]⟩
  · have e : m.losePath b = m := if_neg up
    refine ⟨?_, fun _ _ => by rw [e], m.twin.lostAtA, m.twin.lostAtB, m.twin.hold, m.twin.syncBounds, m.twin.fails, m.twin.keyNo,
      m.twin.keyMsgs, m.twin.healthyAt, by rw [e]⟩
    rw [e]
    cases b
    · exact Bool.eq_false_iff.mpr up
    · exact Bool.eq_false_iff.mpr up

end Sys2Proof.Machine
end

section
/-! PROOFS. Supplies, resets, fences and trips (R430 to R441). -/

namespace Sys2Proof.Machine

open Sys2Proof

variable {m : Mach}

/-! ### Ports that go down -/

theorem prtStat_inj {p q : Nat} (h : Reg.prtStat p = Reg.prtStat q) : p = q := by
  unfold Reg.prtStat at h
  omega

/-- A register after a port's link went down: the port's status with LINK, FECLOCK and ANDONE 0. -/
theorem reg_portDown (m : Mach) (p : Nat) {a : Nat} (low : a < 0x320000) (other : a ≠ Reg.prtStat p) :
    (m.portDown p).reg a = m.reg a := by
  unfold Mach.portDown
  split
  · extract_lets w
    rw [(Alerts.raise _ _).reg a low, reg_setReg_of_ne _ _ other.symm]
    exact (Signals.closePort (.refl [] m)).reg a low (by simp)
  · rfl

theorem portDown_stands (m : Mach) (p : Nat) : (m.portDown p).twin = m.twin ∧ (m.portDown p).pins = m.pins := by
  unfold Mach.portDown
  split
  · extract_lets w
    have closed : Signals [] m (m.closePort p) := .closePort (.refl _ m)
    have raised : Signals [] _ (((m.closePort p).setReg (Reg.prtStat p) w).raise (128 + p)) := .raise (.refl _ _)
    rw [raised.twin, raised.pins, Mach.setReg_twin, Mach.setReg_pins]
    exact ⟨closed.twin, closed.pins⟩
  · exact ⟨rfl, rfl⟩

theorem linkUp_portDown (m : Mach) {p q : Nat} (hq : q < 256) : (m.portDown p).linkUp q = if q = p then false else m.linkUp q := by
  have low : Reg.prtStat q < 0x320000 := by unfold Reg.prtStat; omega
  split
  next same =>
    subst same
    unfold Mach.portDown
    split
    next =>
      extract_lets w
      rw [Mach.linkUp, Mach.bit, (Alerts.raise _ _).reg _ low, reg_setReg_self, fbit_fset_apart _ _ (by decide) (by decide),
        fbit_fset_apart _ _ (by decide) (by decide), fbit_fset_same _ _ (by decide) rfl]
      rfl
    next down => exact Bool.eq_false_iff.mpr down
  next other =>
    have apart : Reg.prtStat q ≠ Reg.prtStat p := fun e => other (prtStat_inj e)
    rw [Mach.linkUp, Mach.bit, reg_portDown m p low apart, Mach.linkUp, Mach.bit]

/-- Ports that go down one after another. -/
theorem portsDown (l : List Nat) (m : Mach) (hl : ∀ p ∈ l, p < 256) :
    (∀ q < 256, (q ∈ l ∨ m.linkUp q = false) → (l.foldl Mach.portDown m).linkUp q = false) ∧
    (l.foldl Mach.portDown m).twin = m.twin ∧ (l.foldl Mach.portDown m).pins = m.pins ∧
    (l.foldl Mach.portDown m).reg Reg.twnStat = m.reg Reg.twnStat := by
  induction l generalizing m with
  | nil => exact ⟨fun q _ h => h.resolve_left (by simp), rfl, rfl, rfl⟩
  | cons p l ih =>
    obtain ⟨hp, hl⟩ := List.forall_mem_cons.mp hl
    obtain ⟨down, twin, pins, stat⟩ := ih (m.portDown p) hl
    obtain ⟨twin1, pins1⟩ := portDown_stands m p
    have stat1 : (m.portDown p).reg Reg.twnStat = m.reg Reg.twnStat :=
      reg_portDown m p (by decide) (by unfold Reg.twnStat Reg.prtStat; omega)
    refine ⟨fun q hq h => down q hq ?_, twin.trans twin1, pins.trans pins1, stat.trans stat1⟩
    rw [linkUp_portDown m hq]
    rcases h with listed | off
    · rcases List.mem_cons.mp listed with same | later
      · exact .inr (if_pos same)
      · exact .inl later
    · exact .inr (by simp [off])

/-! ### Thermal trip -/

/-- The loss of the module under a trip or a rail that fails: latch, fence, and the role of a serving module. -/
def Lost (serving : Bool) (n : Mach) : Prop :=
  n.twin.latch = true ∧ n.twin.barred = true ∧ n.twin.loopFailed = true ∧ n.lease = false ∧ (serving = true → n.role = 5)

theorem lost_moduleLost (m : Mach) : Lost m.serving m.moduleLost := by
  obtain ⟨role, lease, latch, barred, loop⟩ := moduleLost_leaves m
  refine ⟨latch, barred, loop, lease, fun serving => role.trans (if_pos ?_)⟩
  simp only [Mach.serving, Bool.or_eq_true, decide_eq_true_eq] at serving
  rcases serving with active | solo
  · exact .inl active
  · exact .inr (.inl solo)

/-- What keeps the latch's state and the role keeps the loss. -/
theorem Lost.of_stands {b : Bool} {m n : Mach} (h : Lost b m) (latch : n.twin.latch = m.twin.latch)
    (barred : n.twin.barred = m.twin.barred) (loop : n.twin.loopFailed = m.twin.loopFailed)
    (lease : n.fld Reg.twnStat F.twnStatLease = m.fld Reg.twnStat F.twnStatLease) (role : n.role = m.role) : Lost b n := by
  obtain ⟨h1, h2, h3, h4, h5⟩ := h
  exact ⟨latch.trans h1, barred.trans h2, loop.trans h3, (congrArg (decide <| · = 1) lease).trans h4,
    fun serving => role.trans (h5 serving)⟩

/-- What the twin link's going down leaves. -/
theorem linkDown_leaves (m : Mach) : m.linkDown.twin.linkUp = false ∧ m.linkDown.twin.authed = false ∧ m.linkDown.pathA = false ∧
    m.linkDown.twin.latch = m.twin.latch ∧ m.linkDown.twin.barred = m.twin.barred ∧ m.linkDown.twin.loopFailed = m.twin.loopFailed ∧
    ∀ f, pathLeaves f = true → m.linkDown.fld Reg.twnStat f = m.fld Reg.twnStat f := by
  unfold Mach.linkDown
  generalize hm : ({ m with twin := { m.twin with
      linkUp := false, authed := false, keyMsgs := 0
      ships := m.twin.ships.map fun s => if s.doneAt.isNone then { s with left := none } else s } } : Mach) = m1
  obtain ⟨path, stat, la, lb, ho, sb, fs, k, n, ha, twin⟩ := losePath_leaves m1 false
  have e1 : m1.twin.linkUp = false := hm ▸ rfl
  have e2 : m1.twin.authed = false := hm ▸ rfl
  have e3 : m1.twin.latch = m.twin.latch := hm ▸ rfl
  have e4 : m1.twin.barred = m.twin.barred := hm ▸ rfl
  have e5 : m1.twin.loopFailed = m.twin.loopFailed := hm ▸ rfl
  have e6 : ∀ f, m1.fld Reg.twnStat f = m.fld Reg.twnStat f := fun f => hm ▸ rfl
  rw [twin]
  exact ⟨e1, e2, path, e3, e4, e5, fun f h => (stat f h).trans (e6 f)⟩

/-- The twin link made idle where it is up. -/
def Mach.linkIdle (m : Mach) : Mach := if m.twin.linkUp then m.linkDown else m

theorem linkIdle_leaves (m : Mach) : m.linkIdle.twin.linkUp = false ∧
    m.linkIdle.twin.latch = m.twin.latch ∧ m.linkIdle.twin.barred = m.twin.barred ∧ m.linkIdle.twin.loopFailed = m.twin.loopFailed ∧
    (∀ f, pathLeaves f = true → m.linkIdle.fld Reg.twnStat f = m.fld Reg.twnStat f) ∧ Turns m m.linkIdle := by
  obtain ⟨down, -, -, latch, barred, loop, stat⟩ := linkDown_leaves m
  unfold Mach.linkIdle
  split
  next => exact ⟨down, latch, barred, loop, stat, .linkDown (.refl m)⟩
  next idle => exact ⟨Bool.eq_false_iff.mpr idle, rfl, rfl, rfl, fun _ _ => rfl, .refl m⟩

theorem linkUp_of_turns {m n : Mach} (h : Turns m n) {p : Nat} (hp : p < 256) : n.linkUp p = m.linkUp p := by
  refine h.bit (by unfold Reg.prtStat; omega) ?_
  simp only [roleRegs, Reg.prtStat, List.mem_cons, not_or]
  refine ⟨?_, ?_, ?_, ?_, ?_, ?_, ?_, ?_, ?_, ?_, ?_, by simp⟩ <;>
    simp only [Reg.twnStat, Reg.twnEpoch, Reg.twnEpochs, Reg.twnAlarm, Reg.twnSync, Reg.twnCtl, Reg.accStat, Reg.sealStat, Reg.sealHead,
      Reg.sealLastv, Reg.sealLastno] <;> omega

/-- The module as a thermal trip leaves it, but for MOD_TEMP. -/
def Mach.tripped (m : Mach) : Mach :=
  ((List.range 256).foldl Mach.portDown ({ m with pins := { m.pins with tripped := true } } : Mach).moduleLost).linkIdle

theorem tripped_leaves (m : Mach) : Lost m.serving m.tripped ∧ m.tripped.pins.tripped = true ∧ m.tripped.twin.linkUp = false ∧
    ∀ p < 256, m.tripped.linkUp p = false := by
  unfold Mach.tripped
  generalize hm : ({ m with pins := { m.pins with tripped := true } } : Mach) = m0
  have serving : m0.serving = m.serving := hm ▸ rfl
  have pins0 : m0.pins.tripped = true := hm ▸ rfl
  obtain ⟨down, twin, pins, stat⟩ := portsDown (List.range 256) m0.moduleLost fun p hp => List.mem_range.mp hp
  generalize (List.range 256).foldl Mach.portDown m0.moduleLost = m2 at down twin pins stat ⊢
  obtain ⟨idle, latch, barred, loop, fields, turns⟩ := linkIdle_leaves m2
  have lost2 : Lost m0.serving m2 := (lost_moduleLost m0).of_stands (by rw [twin]) (by rw [twin]) (by rw [twin])
    (fld_congr stat _) (fld_congr stat _)
  refine ⟨?_, ?_, idle, fun p hp => ?_⟩
  · rw [← serving]
    exact lost2.of_stands latch barred loop (fields _ (by decide)) (fields _ (by decide))
  · rw [turns.pins, pins, (Turns.moduleLost (.refl m0)).pins, pins0]
  · rw [linkUp_of_turns turns hp]
    exact down p hp (.inl (List.mem_range.mpr hp))

theorem trip_eq {tj : Nat} (up : m.up = true) (cool : m.pins.tripped = false) (hot : 920 ≤ sgn 12 tj) :
    m.trip tj = m.tripped.setReg Reg.modTemp (fset (fset (m.tripped.reg Reg.modTemp) F.modTempTrip 1) F.modTempPeak
      (hotter (m.tripped.fld Reg.modTemp F.modTempPeak) tj)) := by
  refine if_neg ?_
  simp [up, cool, hot]

/-- What a thermal trip leaves (R441). -/
theorem trip_leaves {tj : Nat} (up : m.up = true) (cool : m.pins.tripped = false) (hot : 920 ≤ sgn 12 tj) :
    Lost m.serving (m.trip tj) ∧ (m.trip tj).pins.tripped = true ∧ (m.trip tj).bit Reg.modTemp F.modTempTrip = true ∧
      (m.trip tj).twin.linkUp = false ∧ ∀ p < 256, (m.trip tj).linkUp p = false := by
  obtain ⟨lost, pins, idle, ports⟩ := tripped_leaves m
  rw [trip_eq up cool hot]
  generalize m.tripped = n at lost pins idle ports ⊢
  refine ⟨lost.of_stands (by rw [Mach.setReg_twin]) (by rw [Mach.setReg_twin]) (by rw [Mach.setReg_twin])
    (fld_setReg_of_ne _ _ (by decide)) (fld_setReg_of_ne _ _ (by decide)), by rw [Mach.setReg_pins, pins], ?_,
    by rw [Mach.setReg_twin, idle], fun p hp => ?_⟩
  · rw [bit_setReg_self, fbit_fset_apart _ _ (by decide) (by decide), fbit_fset_same _ _ (by decide) rfl]
    rfl
  · rw [Mach.linkUp, bit_setReg_of_ne _ _ (by unfold Reg.modTemp Reg.prtStat; omega)]
    exact ports p hp

/-! ### Supplies -/

/-- A module in reset with cause `c`, everything below MODULE at its reset value, the AUX domain and the fuses kept (R14, R436). -/
def ResetFrom (m n : Mach) (c : Nat) : Prop :=
  n.pins.inReset = true ∧ n.pins.cause = c ∧ n.mem = [] ∧ n.ledger = {} ∧ n.ses = [] ∧ n.jobs = [] ∧ n.seats = [] ∧ n.sr.keys = false ∧
    n.sr.fuse = m.sr.fuseNext ∧ ∀ a, n.reg a = if auxReg a = true ∧ ledgerAddr a = false then m.reg a else resetOf a

theorem resetFrom_moduleReset (c : Nat) (fresh : m.pins.inReset = false) : ResetFrom m (m.moduleReset c) c := by
  refine ⟨rfl, ?_, rfl, rfl, rfl, rfl, rfl, rfl, rfl, reg_moduleReset c⟩
  exact if_neg (by simp [fresh])

end Sys2Proof.Machine
end

section
/-! PROOFS. Supplies and resets, settled (R434 to R441). -/

namespace Sys2Proof.Machine

open Sys2Proof

variable {m : Mach}

/-- A write of a register that holds no ledger state changes the table of registers alone. -/
theorem setReg_regs (m : Mach) {a : Nat} (v : Word) (plain : ledgerAddr a = false) : ∃ r, m.setReg a v = { m with regs := r } := by
  rw [Mach.setReg, plain]
  exact ⟨_, rfl⟩

/-- The first input present, from input 0 on. -/
theorem find_firstRef {l : List Nat} {i : Nat} (h : i ∈ l) (small : i < 4) :
    ∃ k, ([0, 1, 2, 3].find? fun k => l.contains k && decide (k ≠ 4)) = some k ∧ k ∈ l ∧ k ≤ i := by
  by_cases h0 : 0 ∈ l
  · exact ⟨0, by simp [h0], h0, Nat.zero_le _⟩
  · by_cases h1 : 1 ∈ l
    · exact ⟨1, by simp [h0, h1], h1, Nat.pos_of_ne_zero fun e => h0 (e ▸ h)⟩
    · by_cases h2 : 2 ∈ l
      · refine ⟨2, by simp [h0, h1, h2], h2, ?_⟩
        have a : i ≠ 0 := fun e => h0 (e ▸ h)
        have b : i ≠ 1 := fun e => h1 (e ▸ h)
        omega
      · have a : i ≠ 0 := fun e => h0 (e ▸ h)
        have b : i ≠ 1 := fun e => h1 (e ▸ h)
        have c : i ≠ 2 := fun e => h2 (e ▸ h)
        have d : i = 3 := by omega
        subst d
        exact ⟨3, by simp [h0, h1, h2, h], h, le_refl _⟩

/-- The module as VAUX comes up, but for RT's input; `x` is the key of the marked pages drawn (R41, R333, R436). -/
def Mach.powered (m : Mach) (x : Nat) : Mach :=
  { now := m.now, refs := m.refs, sent := m.sent, free := m.free + 1, memst := { xts := x }
    units := m.units.filterMap fun e => if e.2.failed then some (e.1, { failed := true }) else none
    sr := { fuse := m.sr.fuseNext, fuseNext := m.sr.fuseNext },
    pins := { m.pins with vaux := true, inReset := true, cause := 0, tripped := false, pref := Config.twinPref } }

theorem powerUp_eq : ∃ x, m.powerUp = (m.powered x).setFld Reg.rtStat F.rtStatRefact (((m.powered x).firstRef 4).getD 0) := ⟨_, rfl⟩

theorem reg_powered (x a : Nat) : (m.powered x).reg a = resetOf a := by
  unfold Mach.reg
  cases ledgerAddr a <;> rfl

/-- A register after VAUX came up (R41). -/
theorem reg_powerUp {a : Nat} (other : a ≠ Reg.rtStat) : m.powerUp.reg a = resetOf a := by
  obtain ⟨x, e⟩ := powerUp_eq (m := m)
  rw [e, reg_setFld_of_ne _ _ other.symm, reg_powered]

/-- What else VAUX leaves. -/
theorem powerUp_leaves : m.powerUp.pins = { m.pins with vaux := true, inReset := true, cause := 0, tripped := false, pref := Config.twinPref } ∧
    m.powerUp.rt = 0 ∧ m.powerUp.mem = [] ∧ m.powerUp.ledger = {} ∧ m.powerUp.sr.fuse = m.sr.fuseNext := by
  obtain ⟨x, e⟩ := powerUp_eq (m := m)
  obtain ⟨r, written⟩ := setReg_regs (m.powered x) (a := Reg.rtStat) (fset ((m.powered x).reg Reg.rtStat) F.rtStatRefact
    (((m.powered x).firstRef 4).getD 0)) (by decide)
  rw [e, Mach.setFld, written]
  exact ⟨rfl, rfl, rfl, rfl, rfl⟩

/-- The input RT counts from once VAUX is there, and its state (R41). -/
theorem powerUp_refInUse : m.powerUp.rtState = 0 ∧ ∀ i ∈ m.refs, i < 4 → m.powerUp.refInUse ∈ m.refs ∧ m.powerUp.refInUse ≤ i := by
  obtain ⟨x, e⟩ := powerUp_eq (m := m)
  have refsel : (m.powered x).refsel = 0 := by
    rw [Mach.refsel, Mach.fld, reg_powered]
    decide
  have state : (m.powered x).fld Reg.rtStat F.rtStatState = 0 := by
    rw [Mach.fld, reg_powered]
    decide
  rw [e]
  refine ⟨(fld_setFld_apart _ _ (by decide) (by decide)).trans state, fun i listed small => ?_⟩
  obtain ⟨k, found, there, first⟩ := find_firstRef listed small
  have chosen : (m.powered x).firstRef 4 = some k := by
    rw [Mach.firstRef, refsel]
    exact found
  have shown : ((m.powered x).setFld Reg.rtStat F.rtStatRefact (((m.powered x).firstRef 4).getD 0)).refInUse = k := by
    rw [Mach.refInUse, fld_setFld_same _ _ (by decide), chosen]
    exact Nat.mod_eq_of_lt (Nat.lt_of_le_of_lt first small)
  rw [shown]
  exact ⟨there, first⟩

/-- The module once MODULE reset has ended. -/
theorem resetEnd_eq (pins : m.pins.inReset = true ∧ m.pins.vaux = true ∧ m.pins.pwrOk = true ∧ m.pins.resetN = true ∧ m.pins.sbb = true)
    (mesh : m.pins.breached = true → Config.meshBreached m.now = false) :
    ∃ x, m.resetEnd = ((x : Mach).setFld Reg.modState F.modStatePref (b2n (m.pins.pref && m.pins.sba))).setFld Reg.twnStat
        F.twnStatAlivein (b2n (m.pins.aliveIn && m.pins.sba)) ∧ x.pins = { m.pins with inReset := false, cause := 0, breached := false } ∧
      x.openFolio = folioOf m.rt ∧ x.fld Reg.srRstcause F.srRstcauseCause = m.pins.cause % 16 := by
  obtain ⟨h1, h2, h3, h4, h5⟩ := pins
  have closed : (m.pins.breached && Config.meshBreached m.now) = false := by
    cases hb : m.pins.breached
    · rfl
    · rw [mesh hb]
      rfl
  unfold Mach.resetEnd
  rw [if_neg (by simp [h1, h2, h3, h4, h5]), if_neg (by simp [closed])]
  extract_lets src src2 m1
  exact ⟨_, rfl, by simp [Mach.setFld, m1, src], by simp [Mach.setFld, m1], fld_setFld_same _ _ (by decide)⟩

/-- The return of VIO_SBA (R137, R430). -/
theorem sbaReturn_leaves (s : State) : ∃ n, exec .vioSbaReturn s = .next { s with toMach := n } ∧
    n.pins = { s.pins with sba := true } ∧ n.mem = s.mem ∧
    (s.toMach.up = true → s.pins.aliveIn = true → n.bit Reg.twnStat F.twnStatAlivein = true) := by
  by_cases high : (s.toMach.up && s.pins.aliveIn) = true
  · generalize hm : ({ s.toMach with pins := { s.pins with sba := true } } : Mach) = m1
    have e : exec .vioSbaReturn s =
        .next { s with toMach := (m1.setFld Reg.twnStat F.twnStatAlivein 1).twnAlarm F.twnAlarmAlivemis false } := by
      subst hm
      exact (lift_next (if_pos high) : execVioSbaReturn s = _)
    have alarms : Signals [Reg.twnAlarm, Reg.twnStat] m1 ((m1.setFld Reg.twnStat F.twnStatAlivein 1).twnAlarm F.twnAlarmAlivemis false) :=
      .twnAlarm (.setFld (.refl _ m1) (by decide)) (by decide)
    refine ⟨_, e, alarms.pins.trans (hm ▸ rfl), alarms.mem.trans (hm ▸ rfl), fun _ _ => ?_⟩
    rw [Mach.bit, reg_twnAlarm _ _ _ (by decide) (by decide), ← Mach.bit, bit_setFld_same _ _ (by decide) rfl]
    rfl
  · refine ⟨_, (lift_next (if_neg high) : execVioSbaReturn s = _), rfl, rfl, fun up alive => absurd ?_ high⟩
    rw [up, alive]
    rfl

/-- Settles O25. -/
theorem resetsAndPower : Obligations.ResetsAndPower := by
  refine ⟨fun s up fresh => ?_, fun s => ?_, fun s tj up => ?_⟩
  · have vaux : ∀ x : Mach, x.pins.vaux = true → x.powerFault = x.moduleReset 0 := fun x h => if_pos h
    refine ⟨?_, fun ok => ⟨?_, ?_⟩, fun sbb => ?_, ?_⟩
    · exact ⟨_, (lift_next (vaux _ up) : execPwrOkFall s = _), resetFrom_moduleReset 0 fresh, rfl⟩
    · exact ⟨_, (lift_next ((if_pos ok).trans (vaux _ up)) : execVinUndervoltage s = _), resetFrom_moduleReset 0 fresh⟩
    · exact ⟨_, (lift_next ((if_pos ok).trans (vaux _ up)) : execVioSbbLoss s = _), resetFrom_moduleReset 0 fresh, rfl⟩
    · exact ⟨_, (lift_next (if_pos (by simp [up, sbb])) : execResetNLow s = _), resetFrom_moduleReset 1 fresh, rfl⟩
    · obtain ⟨pins, -, mem, ledger, fuse⟩ := powerUp_leaves (m := s.toMach)
      exact ⟨_, rfl, rfl, congrArg Pins.inReset pins, fun a other => reg_powerUp other, mem, ledger, fuse⟩
  · dsimp only
    refine ⟨fun off => ?_, ⟨_, rfl, rfl, rfl, rfl⟩, ⟨_, rfl, rfl, rfl, rfl⟩, ⟨_, rfl, rfl, rfl, rfl⟩, ?_, fun h1 h2 h3 h4 h5 small mesh => ?_,
      fun lacks => ?_⟩
    · obtain ⟨state, input⟩ := powerUp_refInUse (m := s.toMach)
      obtain ⟨pins, rt, mem, -, fuse⟩ := powerUp_leaves (m := s.toMach)
      exact ⟨_, (lift_next (if_neg (by simp [off])) : execVauxRise s = _), congrArg Pins.vaux pins, congrArg Pins.inReset pins,
        congrArg Pins.cause pins, rt, fun a other => reg_powerUp other, mem, fuse, state, input⟩
    · obtain ⟨n, e, pins, mem, alive⟩ := sbaReturn_leaves s
      exact ⟨_, e, pins, mem, alive⟩
    · obtain ⟨x, e, pins, folio, cause⟩ := resetEnd_eq ⟨h1, h2, h3, h4, h5⟩ mesh
      refine ⟨_, (lift_next e : execModuleResetEnd s = _), ?_, ?_, ?_⟩
      · simp [Mach.up, Mach.setFld, pins, h2]
      · change (Mach.setFld _ _ _ _).fld _ _ = _
        rw [fld_setFld_of_ne _ _ (by decide), fld_setFld_of_ne _ _ (by decide), cause]
        exact Nat.mod_eq_of_lt (small.trans (by decide))
      · simp [Mach.setFld, folio]
    · refine (lift_next (n := s.toMach) ?_ : execModuleResetEnd s = _)
      unfold Mach.resetEnd
      split
      · rfl
      next all =>
        refine if_pos ?_
        simp only [Bool.not_eq_true', Bool.not_eq_false, Bool.and_eq_true] at all
        obtain ⟨⟨⟨⟨-, vaux⟩, ok⟩, n⟩, sbb⟩ := all
        simpa [vaux, ok, n, sbb] using lacks
  · dsimp only
    refine ⟨fun committed => ?_, fun cool hot => ?_, fun low => ?_⟩
    · have lost := lost_moduleLost ({ s.toMach with pins := { s.pins with sba := false } } : Mach)
      refine ⟨_, (lift_next (if_pos (by simp [up, committed])) : execVioSbaLoss s = _), lost, ?_⟩
      exact congrArg Pins.sba (Turns.moduleLost (.refl ({ s.toMach with pins := { s.pins with sba := false } } : Mach))).pins
    · obtain ⟨lost, tripped, shown, idle, ports⟩ := trip_leaves up cool hot
      exact ⟨_, rfl, lost, tripped, shown, idle, fun p => ports p.val p.isLt⟩
    · exact (lift_next (n := s.toMach) (if_pos (by simp [low])) : execThermalTrip tj s = _)

end Sys2Proof.Machine
end

section
/-! PROOFS. World attributes of ports, pins and blocks (R338, R340, R358). -/

namespace Sys2Proof.Machine

open Sys2Proof

variable {m n : Mach}

/-! ### The reset of a port -/

theorem Signals.rawq {L : List Nat} (h : Signals L m n) : n.rawq = m.rawq := by
  obtain ⟨_, _, _, _, _, _, _, _, _, _, rfl⟩ := h.rest; rfl

theorem Signals.plainq {L : List Nat} (h : Signals L m n) : n.plainq = m.plainq := by
  obtain ⟨_, _, _, _, _, _, _, _, _, _, rfl⟩ := h.rest; rfl

/-- A register after a reset of a domain: its reset value, or as it was (R14). -/
theorem reg_resetRegs (d : Domain) (p : Nat → Bool) (a : Nat) :
    (m.resetRegs d p).reg a = resetOf a ∨ (m.resetRegs d p).reg a = m.reg a := by
  unfold Mach.reg Mach.resetRegs
  cases ledgerAddr a
  · simp only [Bool.false_eq_true, if_false]
    rw [tabGet_clear]
    exact ite_eq_or_eq _ _ _
  · exact .inr rfl

theorem reset_prtStat_link {p : Nat} (hp : p < 256) : fbit (resetOf (Reg.prtStat p)) F.prtStatLink = false := by
  have all : ∀ i j : Fin 16, fbit (resetOf (Reg.prtStat (16 * i.val + j.val))) F.prtStatLink = false := by decide
  have here := all ⟨p / 16, by omega⟩ ⟨p % 16, Nat.mod_lt _ (by decide)⟩
  rwa [Nat.div_add_mod] at here

/-- A transmit queue dropped. -/
theorem dropRaw_leaves (m : Mach) (p : Nat) : Signals [] (m.setQueue p []) (m.dropRaw p) :=
  .foldl (.refl _ _) fun _ _ h => .ite h h.wakeJob

theorem signals_portDown (m : Mach) {p : Nat} (hp : p < 256) : Signals [Reg.prtStat p] m (m.portDown p) := by
  unfold Mach.portDown
  split
  · extract_lets w
    refine .raise (.setReg (.closePort (.refl _ m)) (by simp) ?_)
    unfold ledgerAddr Reg.prtStat Reg.sealCtl Reg.sealRsize Reg.sealTail
    simp
    omega
  · exact .refl _ m

/-- A port after its reset (R99). -/
theorem resetPort_leaves (m : Mach) {p : Nat} (hp : p < 256) :
    (m.resetPort p).linkUp p = false ∧ (m.resetPort p).queue p = [] ∧ (m.resetPort p).plain p = [] := by
  have down := signals_portDown (m.closePort p) hp
  have drop := dropRaw_leaves ((m.closePort p).portDown p) p
  have low : Reg.prtStat p < 0x320000 := by unfold Reg.prtStat; omega
  refine ⟨?_, ?_, ?_⟩
  · rw [Mach.linkUp, Mach.bit, Mach.resetPort]
    rcases reg_resetRegs (m := (((m.closePort p).portDown p).dropRaw p).setPlain p []) .port
      (fun a => 0x40000 + 0x100 * p ≤ a && a < 0x40100 + 0x100 * p) (Reg.prtStat p) with reset | kept
    · rw [reset, reset_prtStat_link hp]
    · rw [kept, ← Mach.bit]
      change (((m.closePort p).portDown p).dropRaw p).bit (Reg.prtStat p) F.prtStatLink = false
      rw [drop.bit low (by simp)]
      change ((m.closePort p).portDown p).linkUp p = false
      rw [linkUp_portDown _ hp, if_pos rfl]
  · change (((m.closePort p).portDown p).dropRaw p).queue p = []
    rw [Mach.queue, drop.rawq]
    exact (tabGet_put (fun _ => ([] : List RawTx)) p p [] _).trans (if_pos rfl)
  · exact (tabGet_put (fun _ => ([] : List PlainRx)) p p [] _).trans (if_pos rfl)

/-! ### Jobs and engines in their tables -/

theorem tfind_erase {α : Type} (k j : Nat) (t : List (Nat × α)) : tfind (tabErase k t) j = if j = k then none else tfind t j := by
  induction t with
  | nil => simp [tabErase, tfind]
  | cons e t ih =>
    obtain ⟨a, x⟩ := e
    simp only [tabErase, tfind] at ih ⊢
    by_cases h : a = k
    · by_cases hj : j = k
      · simp [hj]
      · have other : k ≠ j := Ne.symm hj
        simpa [List.filter_cons, h, hj, other] using ih
    · by_cases hj : a = j
      · simp [hj, show j ≠ k from hj ▸ h]
      · simpa [List.filter_cons, h, hj] using ih

/-- Entries changed in place. -/
theorem tfind_map {α : Type} (g : Nat × α → α) (t : List (Nat × α)) (k : Nat) :
    tfind (t.map fun e => (e.1, g e)) k = (tfind t k).map fun x => g (k, x) := by
  induction t with
  | nil => rfl
  | cons e t ih =>
    obtain ⟨a, x⟩ := e
    simp only [tfind, List.map_cons, List.find?_cons] at ih ⊢
    by_cases h : a = k
    · simp [h]
    · simpa [h] using ih

theorem job_setJob (m : Mach) (x y : Nat) (j : Job) : (m.setJob x j).job y = if y = x then some j else m.job y := by
  rw [Mach.job, Mach.setJob, tfind_insert, Mach.job]
  simp [eq_comm]

theorem job_delJob (m : Mach) (x y : Nat) : (m.delJob x).job y = if y = x then none else m.job y := tfind_erase x y m.jobs

theorem laneB_setLaneB (m : Mach) (b : Nat) (x : Lane) : (m.setLaneB b x).laneB b = x := by
  unfold Mach.laneB Mach.setLaneB
  split
  · exact (tabGet_put _ _ _ _ _).trans (if_pos rfl)
  · exact (tabGet_put _ _ _ _ _).trans (if_pos rfl)

/-- A job made ready. -/
theorem job_makeReady {x : Nat} {j : Job} (h : m.job x = some j) (y : Nat) :
    (m.makeReady x).job y = if y = x then some { j with st := .ready, ord := m.order } else m.job y := by
  unfold Mach.makeReady
  rw [h]
  exact job_setJob m x y _

theorem engines_makeReady (m : Mach) (x : Nat) : (m.makeReady x).engines = m.engines := by
  unfold Mach.makeReady
  split
  · rfl
  · rfl

/-- How a job back as the oldest of its carrel changes the jobs: `j` itself is the first, the ready ones of the carrel follow. -/
def oldestFirst (x : Nat) (j : Job) (e : Nat × Job) : Job :=
  if e.1 = x then { j with ord := 0 }
  else if e.2.carrel = j.carrel && e.2.st = .ready then { e.2 with ord := e.2.ord + 1 } else e.2

/-- A job back among the ready jobs is ready. -/
theorem job_makeOldest {x : Nat} {j : Job} (h : m.job x = some j) : ((m.makeOldest x).job x).map Job.st = some .ready := by
  unfold Mach.makeOldest
  extract_lets m1
  have ready : m1.job x = some { j with st := .ready, ord := m.order } := (job_makeReady h x).trans (if_pos rfl)
  rw [ready]
  have entries : ∀ r : Job, (m1.jobs.map fun e => if e.1 = x then (e.1, { r with ord := 0 })
      else if e.2.carrel = r.carrel && e.2.st = .ready then (e.1, { e.2 with ord := e.2.ord + 1 }) else e) =
      m1.jobs.map fun e => (e.1, oldestFirst x r e) := by
    intro r
    refine List.map_congr_left fun e _ => ?_
    unfold oldestFirst
    split
    · rfl
    · split <;> rfl
  change (tfind (m1.jobs.map _) x).map Job.st = _
  rw [entries, tfind_map]
  change ((m1.job x).map _).map Job.st = _
  rw [ready]
  simp [oldestFirst]

theorem engines_makeOldest (m : Mach) (x : Nat) : (m.makeOldest x).engines = m.engines := by
  unfold Mach.makeOldest
  extract_lets m1
  split
  · exact engines_makeReady m x
  · exact engines_makeReady m x

end Sys2Proof.Machine
end

section
/-! PROOFS. The attributes of engines and lanes, settled (R340). -/

namespace Sys2Proof.Machine

open Sys2Proof

variable {m : Mach} {b : Nat}

theorem attrReg_pos (gate : gateBlock b = true) : 0x380200 ≤ attrReg b ∧ attrReg b < 0x380250 := by
  simp only [gateBlock, Bool.or_eq_true, Bool.and_eq_true, decide_eq_true_eq] at gate
  unfold attrReg Reg.srAttrCe Reg.srAttrXl Reg.srAttrKl
  split
  · omega
  · split <;> omega

theorem fset_sr (w v : Word) : fbit (fset w F.srAttrPortSr (fget v F.srAttrPortSr)) F.srAttrPortSr = fbit v F.srAttrPortSr := by
  rw [fbit, fget_fset_same _ _ (by decide), fbit]
  refine congrArg (decide <| · = 1) (Nat.mod_eq_of_lt ?_)
  exact Nat.mod_lt _ (Nat.two_pow_pos _)

/-- A port's attribute written (R340). -/
theorem attrPortSet_leaves (m : Mach) {p : Nat} (hp : p < 256) (v : Word) :
    (m.attrPortSet p v).portSr p = fbit v F.srAttrPortSr ∧ (m.attrPortSet p v).linkUp p = false ∧
      (m.attrPortSet p v).queue p = [] ∧ (m.attrPortSet p v).plain p = [] := by
  obtain ⟨link, queue, plain⟩ := resetPort_leaves m hp
  refine ⟨?_, ?_, ?_, ?_⟩
  · rw [Mach.portSr, Mach.attrPortSet, Mach.bit, reg_setFld_self, fset_sr]
  · rw [Mach.linkUp, Mach.attrPortSet, bit_setFld_of_ne _ _ (by unfold Reg.srAttrPort Reg.prtStat; omega)]
    exact link
  · rw [Mach.queue, Mach.attrPortSet, Mach.setFld, Mach.setReg_rawq]
    exact queue
  · rw [Mach.plain, Mach.attrPortSet, Mach.setFld, Mach.setReg_plainq]
    exact plain

/-- A block's attribute written: the change pends (R340). -/
theorem attrBlockSet_leaves (m : Mach) (b : Nat) (v : Word) :
    (m.attrBlockSet b v).bit (attrReg b) F.srAttrPortPend = true ∧ (m.attrBlockSet b v).attrPending b = some (fbit v F.srAttrPortSr) ∧
      (m.attrBlockSet b v).blockSr b = m.blockSr b := by
  unfold Mach.attrBlockSet
  extract_lets on m1
  have pend : m1.bit (attrReg b) F.srAttrPortPend = true := by
    rw [bit_setFld_same _ _ (by decide) rfl]
    rfl
  have same : m1.blockSr b = m.blockSr b := by
    rw [Mach.blockSr, bit_setFld_apart _ _ (by decide) (by decide), Mach.blockSr]
  split
  next high => exact ⟨pend, by simp [Mach.attrPending, high, on], same⟩
  next low =>
    have read (x : Lane) (a : Nat) : (m1.setLaneB b x).reg a = m1.reg a := by
      unfold Mach.setLaneB
      split <;> rfl
    refine ⟨?_, ?_, ?_⟩
    · rw [Mach.bit, read]
      exact pend
    · rw [Mach.attrPending, if_neg low, laneB_setLaneB]
    · rw [Mach.blockSr, Mach.bit, read]
      exact same

/-- What an engine's safe point leaves of it: no job (R181, R213). -/
theorem leaveEngine_leaves (m : Mach) (e : Nat) (j : Job) : ((m.leaveEngine e j).engine e).job = none ∧
    (m.leaveEngine e j).jobs = m.jobs := by
  refine ⟨?_, ?_⟩
  · change ((Mach.count _ _ _).engine e).job = none
    rw [Mach.engine, Mach.count, Mach.setReg_engines]
    exact congrArg Engine.job ((tabGet_put (fun _ => ({} : Engine)) e e _ _).trans (if_pos rfl))
  · exact Mach.setReg_jobs _ _ _

/-- The change of an idle lane's attribute. -/
theorem attrDone_lane {on : Bool} (low : b < 16) (pending : m.attrPending b = some on) (open_ : m.gated b = false)
    (idle : (m.laneB b).job = none) :
    m.attrDone b = (m.setLaneB b { m.laneB b with attr := none }).setReg (attrReg b) (w48 (b2n on)) := by
  simp [Mach.attrDone, pending, open_, idle, show ¬ 16 ≤ b by omega]

theorem attrDone_engine {on : Bool} (high : 16 ≤ b) (pending : m.attrPending b = some on) (open_ : m.gated b = false) :
    m.attrDone b = ((m.safePoint (b - 16)).setEngine (b - 16) { (m.safePoint (b - 16)).engine (b - 16) with attr := none }).setReg
      (attrReg b) (w48 (b2n on)) := by
  simp [Mach.attrDone, pending, open_, high]

/-- A lane's or engine's change done: the attribute as it pended, and nothing pending any more. -/
theorem attrDone_shown {on : Bool} (pending : m.attrPending b = some on) (open_ : m.gated b = false)
    (idle : b < 16 → (m.laneB b).job = none) :
    (m.attrDone b).reg (attrReg b) = w48 (b2n on) ∧ (m.attrDone b).attrPending b = none := by
  by_cases low : b < 16
  · rw [attrDone_lane low pending open_ (idle low)]
    refine ⟨reg_setReg_self _ _, ?_⟩
    have lane (x : Mach) (v : Word) : (x.setReg (attrReg b) v).laneB b = x.laneB b := by simp [Mach.laneB, Mach.lane, Mach.xlane]
    rw [Mach.attrPending, if_neg (by omega), lane, laneB_setLaneB]
  · rw [attrDone_engine (by omega) pending open_]
    refine ⟨reg_setReg_self _ _, ?_⟩
    rw [Mach.attrPending, if_pos (by omega), Mach.engine, Mach.setReg_engines]
    exact congrArg Engine.attr ((tabGet_put (fun _ => ({} : Engine)) _ _ _ _).trans (if_pos rfl))

/-- The job of an engine whose attribute changes is ready again (R181, R340). -/
theorem attrDone_job {on : Bool} {x : Nat} {j : Job} (high : 16 ≤ b) (pending : m.attrPending b = some on) (open_ : m.gated b = false)
    (runs : (m.engine (b - 16)).job = some x) (job : m.job x = some j) (young : m.stale j = false) :
    ((m.attrDone b).engine (b - 16)).job = none ∧ ((m.attrDone b).job x).map Job.st = some .ready := by
  obtain ⟨idle, jobs⟩ := leaveEngine_leaves m (b - 16) j
  have point : m.safePoint (b - 16) = (m.leaveEngine (b - 16) j).makeOldest x := by simp [Mach.safePoint, runs, job, young]
  rw [attrDone_engine high pending open_, point]
  refine ⟨?_, ?_⟩
  · rw [Mach.engine, Mach.setReg_engines]
    refine (congrArg Engine.job ((tabGet_put (fun _ => ({} : Engine)) _ _ _ _).trans (if_pos rfl))).trans ?_
    rw [Mach.engine, engines_makeOldest]
    exact idle
  · rw [Mach.job, Mach.setReg_jobs]
    exact job_makeOldest ((congrArg (tfind · x) jobs).trans job)

/-- Settles O20. -/
theorem worldAttributes : Obligations.WorldAttributes := by
  intro s w p b v on
  dsimp only
  refine ⟨fun sr => ⟨?_, ?_, fun gate => ?_⟩, fun other => ?_, fun gate pending open_ => ?_⟩
  · exact ⟨_, (lift_next (if_pos sr) : execSrAttrPortWrite w p v s = _), attrPortSet_leaves s.toMach p.isLt v⟩
  · exact ⟨_, (lift_next (if_pos sr) : execSrAttrPinWrite w v s = _), reg_setReg_self _ _⟩
  · exact ⟨_, (lift_next ((if_pos gate).trans (if_pos sr)) : execSrAttrEngineWrite w b v s = _), attrBlockSet_leaves s.toMach b.val v⟩
  · have closed : ¬ w.sr = true := by simp [other]
    refine ⟨(lift_next (n := s.toMach) (if_neg closed) : execSrAttrPortWrite w p v s = _),
      (lift_next (n := s.toMach) (if_neg closed) : execSrAttrPinWrite w v s = _),
      (lift_next (n := s.toMach) ?_ : execSrAttrEngineWrite w b v s = _)⟩
    split
    · exact if_neg closed
    · rfl
  · have done : exec (.attrChangeDone b) s = .next { s with toMach := s.toMach.attrDone b.val } :=
      (lift_next (if_pos gate) : execAttrChangeDone b s = _)
    refine ⟨fun _ idle => ⟨_, done, attrDone_shown pending open_ fun _ => idle⟩,
      fun high _ => ⟨_, done, attrDone_shown pending open_ fun low => absurd low (by omega)⟩, fun x j high runs job young => ?_⟩
    obtain ⟨shown, -⟩ := attrDone_shown pending open_ fun low => absurd low (by omega)
    exact ⟨_, done, shown, attrDone_job high pending open_ runs job young⟩

end Sys2Proof.Machine
end

section
/-! PROOFS. What the acts of jobs, engines and lanes leave as it was (R180 to R213). -/

namespace Sys2Proof.Machine

open Sys2Proof

/-- The registers that the memory writes of jobs, their marks, completions and ends may change. -/
inductive JobReg : Nat → Prop
  | role {a : Nat} (listed : a ∈ roleRegs) : JobReg a
  | memory {a : Nat} (block : 0x2A0000 ≤ a ∧ a < 0x2C0000) : JobReg a
  | tenStat (t : Nat) : JobReg (Reg.tenStat t)
  | tenHead (t : Nat) : JobReg (Reg.tenMplhead t)
  | carStat (c : Nat) : JobReg (Reg.carStat c)
  | carHead (c : Nat) : JobReg (Reg.carCqhead c)
  | carDone (c : Nat) : JobReg (Reg.carDone c)
  | carDropped (c : Nat) : JobReg (Reg.carDropped c)
  | busy (e : Nat) : JobReg (Reg.ceBusy e)
  | domain {a : Nat} (block : 0x200000 ≤ a ∧ a < 0x204000 ∨ 0x240010 ≤ a ∧ a < 0x240090 ∨ 0x280010 ≤ a ∧ a < 0x280100) : JobReg a

/-- `n` is `m` after acts of jobs, engines and lanes: RT, the pins, the strongroom's state, the resets pending and the held requests
stand, and the registers of P-space that no such act writes. -/
structure Works (m n : Mach) : Prop where
  rest : ∃ r led mem closing ses twin sealing jobs replies rawq lanes xlanes engines tpass cpass order notes stk seats l2dirty memst kx uc
      sent free, n = { m with
    regs := r, ledger := led, mem := mem, closing := closing, ses := ses, twin := twin, sealing := sealing, jobs := jobs, replies := replies
    rawq := rawq, lanes := lanes, xlanes := xlanes, engines := engines, tpass := tpass, cpass := cpass, order := order, notes := notes
    stk := stk, seats := seats, l2dirty := l2dirty, memst := memst, kx := kx, uc := uc, sent := sent, free := free }
  reg : ∀ a, a < 0x320000 → ¬ JobReg a → n.reg a = m.reg a

namespace Works

variable {m x n o : Mach}

theorem refl (m : Mach) : Works m m :=
  ⟨⟨_, _, _, _, _, _, _, _, _, _, _, _, _, _, _, _, _, _, _, _, _, _, _, _, _, rfl⟩, fun _ _ _ => rfl⟩

theorem trans (h : Works m n) (g : Works n o) : Works m o := by
  obtain ⟨_, _, _, _, _, _, _, _, _, _, _, _, _, _, _, _, _, _, _, _, _, _, _, _, _, rfl⟩ := h.rest
  obtain ⟨_, _, _, _, _, _, _, _, _, _, _, _, _, _, _, _, _, _, _, _, _, _, _, _, _, rfl⟩ := g.rest
  exact ⟨⟨_, _, _, _, _, _, _, _, _, _, _, _, _, _, _, _, _, _, _, _, _, _, _, _, _, rfl⟩,
    fun a low out => (g.reg a low out).trans (h.reg a low out)⟩

theorem becomes (h : Works m n) (e : n = o) : Works m o := e ▸ h

theorem ite {p : Prop} [Decidable p] {a b : Mach} (ha : Works m a) (hb : Works m b) : Works m (if p then a else b) := by
  split
  · exact ha
  · exact hb

theorem foldl {β : Type} {f : Mach → β → Mach} {l : List β} (h : Works m x)
    (step : ∀ y b, Works m y → Works m (f y b)) : Works m (l.foldl f x) := by
  induction l generalizing x with
  | nil => exact h
  | cons b l ih => exact ih (step x b h)

/-- A change of the parts that may differ, registers apart. -/
theorem parts {mem closing ses twin sealing jobs replies rawq lanes xlanes engines tpass cpass order notes stk seats l2dirty memst kx uc
    sent free} (h : Works m x) : Works m { x with
    mem := mem, closing := closing, ses := ses, twin := twin, sealing := sealing, jobs := jobs, replies := replies
    rawq := rawq, lanes := lanes, xlanes := xlanes, engines := engines, tpass := tpass, cpass := cpass, order := order, notes := notes
    stk := stk, seats := seats, l2dirty := l2dirty, memst := memst, kx := kx, uc := uc, sent := sent, free := free } :=
  h.trans ⟨⟨_, _, _, _, _, _, _, _, _, _, _, _, _, _, _, _, _, _, _, _, _, _, _, _, _, rfl⟩, fun _ _ _ => rfl⟩

theorem turns (h : Works m x) (g : Turns x n) : Works m n := by
  obtain ⟨y, tw, se, cl, hy, rfl⟩ := g.rest
  obtain ⟨_, _, _, _, _, _, _, _, _, _, rfl⟩ := hy.rest
  exact h.trans ⟨⟨_, _, _, _, _, _, _, _, _, _, _, _, _, _, _, _, _, _, _, _, _, _, _, _, _, rfl⟩,
    fun a low out => hy.reg a low fun listed => out (.role listed)⟩

theorem setReg {a v} (h : Works m x) (may : JobReg a) : Works m (x.setReg a v) := by
  refine h.trans ⟨?_, fun b _ out => reg_setReg_of_ne x v fun e => out (e ▸ may)⟩
  unfold Mach.setReg
  split
  · exact ⟨_, _, _, _, _, _, _, _, _, _, _, _, _, _, _, _, _, _, _, _, _, _, _, _, _, rfl⟩
  · exact ⟨_, _, _, _, _, _, _, _, _, _, _, _, _, _, _, _, _, _, _, _, _, _, _, _, _, rfl⟩

theorem setFld {a f v} (h : Works m x) (may : JobReg a) : Works m (x.setFld a f v) := h.setReg may

theorem count {a k} (h : Works m x) (may : JobReg a) : Works m (x.count a k) := h.setReg may

theorem resetRegs {d p} (h : Works m x) (may : ∀ a, p a = true → JobReg a) : Works m (x.resetRegs d p) := by
  refine h.trans ⟨⟨_, _, _, _, _, _, _, _, _, _, _, _, _, _, _, _, _, _, _, _, _, _, _, _, _, rfl⟩, fun a _ out => ?_⟩
  unfold Mach.reg Mach.resetRegs
  cases ledgerAddr a
  · simp only [Bool.false_eq_true, if_false]
    rw [tabGet_clear]
    refine if_neg fun both => out (may a ?_)
    simp only [Bool.and_eq_true] at both
    exact both.1
  · rfl

theorem raise {i} (h : Works m x) : Works m (x.raise i) := h.turns (.raise (.refl x))

theorem memAlarm {f b} (h : Works m x) : Works m (x.memAlarm f b) := by
  have may : JobReg Reg.memAlarm := .memory (by decide)
  unfold Mach.memAlarm Mach.alarmReg
  extract_lets old new m1
  have hm1 : Works m m1 := (h.setReg may).raise
  exact .ite h (.ite hm1 (hm1.turns (.faultEvent (.refl m1))))

/-! ### Memory writes -/

theorem setCont {a c} (h : Works m x) : Works m (x.setCont a c) := h.parts

theorem toGroup {line} (h : Works m x) : Works m (x.toGroup line) := by
  unfold Mach.toGroup
  extract_lets m1 src
  exact .ite (parts h.parts) h.parts

theorem mirDirty {line} (h : Works m x) : Works m (x.mirDirty line) := .ite h.parts h

theorem writeLine {line ws} (h : Works m x) : Works m (x.writeLine line ws) := by
  unfold Mach.writeLine
  extract_lets m1
  have hm1 : Works m m1 := h.foldl fun _ _ h => h.setCont
  exact .ite h ((ite hm1.parts hm1.toGroup).mirDirty)

theorem setSeat {q s} (h : Works m x) : Works m (x.setSeat q s) := h.parts

theorem snoopLine {q line} (h : Works m x) : Works m (x.snoopLine q line) := by
  unfold Mach.snoopLine
  refine h.foldl fun y b hy => ?_
  extract_lets x1
  have hx1 : Works m x1 := by
    unfold x1
    split
    · exact hy.writeLine
    · exact hy
  exact .ite hy (.ite hx1 hx1.setSeat)

theorem put {a c} (h : Works m x) : Works m (x.put a c) := h.snoopLine.setCont.toGroup.mirDirty

theorem poison {a} (h : Works m x) : Works m (x.poison a) := by
  unfold Mach.poison
  extract_lets m1 m2
  have hm1 : Works m m1 := (h.setCont.count (.memory (by decide))).setReg (.memory (by decide))
  have hm2 : Works m m2 := .ite hm1.raise hm1.memAlarm
  exact .ite (memAlarm (hm2.turns (.moduleLost (.refl m2)))) hm2

theorem engPut {a c} (h : Works m x) : Works m (x.engPut a c) := .ite h.snoopLine.poison h.put

theorem carWrite {k sr a v y} (h : Works m x) (done : x.carWrite k sr a v = .ok y) : Works m y := by
  unfold Mach.carWrite at done
  cases hp : x.carPhys k sr a true with
  | error e => rw [hp] at done; cases done
  | ok p => rw [hp] at done; exact Except.ok.inj done ▸ h.engPut

theorem markPut {sr a v} (h : Works m x) : Works m (x.markPut sr a v).2 := by
  unfold Mach.markPut
  split
  · exact h
  · exact h.put

theorem logEntry {sr t v} (h : Works m x) : Works m (x.logEntry sr t v).2 := by
  unfold Mach.logEntry
  split
  · exact h
  · split
    · exact h.setFld (.tenStat t)
    · extract_lets head w
      split
      · rename_i m1 put
        exact h.markPut.becomes (congrArg Prod.snd put)
      · rename_i m1 put
        have hm1 : Works m m1 := h.markPut.becomes (congrArg Prod.snd put)
        exact (hm1.setReg (.tenHead t)).setFld (.tenStat t)

theorem markPage {sr t v} (h : Works m x) : Works m (x.markPage sr t v).2 := by
  unfold Mach.markPage
  extract_lets size a old
  split
  · exact h
  · split
    · exact .ite h (h.setFld (.tenStat t))
    · split
      · exact h
      · split
        · exact h
        · split
          · rename_i m1 put
            exact h.markPut.becomes (congrArg Prod.snd put)
          · rename_i m1 put
            have hm1 : Works m m1 := h.markPut.becomes (congrArg Prod.snd put)
            exact hm1.logEntry

theorem markAll {sr t as} (h : Works m x) : Works m (x.markAll sr t as).2 := by
  unfold Mach.markAll
  generalize (as.map fun a => a / 4096 % 2 ^ 28).eraseDups = pages
  suffices all : ∀ failed : Bool, Works m
      (pages.foldl (fun y v => (y.1 || (y.2.markPage sr t v).1, (y.2.markPage sr t v).2)) (failed, x)).2 from all _
  intro failed
  induction pages generalizing failed x with
  | nil => exact h
  | cons p pages ih => exact ih h.markPage _

theorem carWrites {k sr l n} (h : Works m x) : Works m (Mach.carWrites k sr l n x).2.2 := by
  induction l generalizing n x with
  | nil => exact h
  | cons w l ih =>
    unfold Mach.carWrites
    split
    · rename_i done
      exact ih (h.carWrite done)
    · exact h

theorem jobWrites {t k sr l} (h : Works m x) : Works m (x.jobWrites t k sr l).2.2 := h.carWrites.markAll

theorem jobPut {j l} (h : Works m x) : Works m (x.jobPut j l).2.2 := by
  unfold Mach.jobPut
  split
  · exact h
  · exact h.jobWrites

theorem writeStatus {j j2 j3} (h : Works m x) : Works m (x.writeStatus j j2 j3) := h.jobPut

/-! ### Jobs and engines -/

theorem setJob {c j} (h : Works m x) : Works m (x.setJob c j) := h.parts

theorem setEngine {e y} (h : Works m x) : Works m (x.setEngine e y) := h.parts

theorem setLaneB {b y} (h : Works m x) : Works m (x.setLaneB b y) := .ite h.parts h.parts

theorem wakeJob {j code detail count} (h : Works m x) : Works m (x.wakeJob j code detail count) :=
  h.turns (.of_signals (.wakeJob (.refl _ x)))

theorem makeReady {j} (h : Works m x) : Works m (x.makeReady j) := h.turns (.of_signals (.makeReady (.refl _ x)))

theorem leaveEngine {e j} (h : Works m x) : Works m (x.leaveEngine e j) := by
  unfold Mach.leaveEngine
  split
  · rename_i u m1 drawn
    have hm1 : Works m m1 := (h.parts (free := x.free + 1)).becomes (congrArg Prod.snd drawn)
    exact parts (count hm1.setEngine (.busy e))

theorem offEngine {c j} (h : Works m x) : Works m (x.offEngine c j) := by
  unfold Mach.offEngine
  split
  · exact h.leaveEngine
  · exact h

theorem makeOldest {c} (h : Works m x) : Works m (x.makeOldest c) := by
  unfold Mach.makeOldest
  extract_lets m1
  have hm1 : Works m m1 := h.makeReady
  split
  · exact hm1
  · exact hm1.parts

theorem freeJob {c} (h : Works m x) : Works m (x.freeJob c) := parts (h.parts (jobs := (x.delJob c).jobs))

theorem pumpCq {c k} (h : Works m x) : Works m (Mach.pumpCq c k x) := by
  induction k generalizing x with
  | zero => exact h
  | succ k ih =>
    unfold Mach.pumpCq
    refine .ite h ?_
    split
    · exact h
    · extract_lets head a
      split
      · rename_i m1 put
        have hm1 : Works m m1 := h.jobPut.becomes (congrArg (·.2.2) put)
        exact hm1.setFld (.carStat c)
      · rename_i m1 put
        have hm1 : Works m m1 := h.jobPut.becomes (congrArg (·.2.2) put)
        extract_lets m2 m3
        have hm2 : Works m m2 := ((hm1.setReg (.carHead c)).setFld (.carStat c)).count (.carDone c)
        have hm3 : Works m m3 := .ite hm2.raise hm2
        exact ih (.ite hm3.freeJob hm3.wakeJob)

theorem deliver {c} (h : Works m x) : Works m (x.deliver c) := h.pumpCq

theorem endJob {c code detail count a} (h : Works m x) : Works m (x.endJob c code detail count a) := by
  unfold Mach.endJob
  split
  · exact h
  · extract_lets j2 j3 m1 m2
    have hm1 : Works m m1 := h.offEngine.writeStatus
    have hm2 : Works m m2 := hm1.setJob
    exact deliver hm2.parts

theorem dropJob {c} (h : Works m x) : Works m (x.dropJob c) := by
  unfold Mach.dropJob
  split
  · exact h
  · exact h.offEngine.freeJob.count (.carDropped _)

theorem safePoint {e} (h : Works m x) : Works m (x.safePoint e) := by
  unfold Mach.safePoint
  extract_lets src
  split
  · exact h
  · split
    · exact h.setEngine
    · exact .ite h.dropJob h.leaveEngine.makeOldest

theorem seqRun {cls i} (h : Works m x) : Works m (x.seqRun cls i) := h.parts

theorem seqReset {cls i} (h : Works m x) : Works m (x.seqReset cls i) := h.parts

theorem ceRegs {e} (h : Works m x) (small : e < 64) : Works m (x.ceRegs e) := by
  refine h.resetRegs fun a within => .domain (.inl ?_)
  simp only [Bool.and_eq_true, decide_eq_true_eq] at within
  unfold Reg.ceStat at within
  omega

theorem resetEngine {e detail} (h : Works m x) (small : e < 64) : Works m (x.resetEngine e detail) := by
  unfold Mach.resetEngine
  extract_lets src m1
  have hm1 : Works m m1 := by
    unfold m1
    split
    · exact h
    · split
      · exact h.setEngine
      · exact .ite h.dropJob h.endJob
  exact (hm1.ceRegs small).seqReset

theorem laneDone {b} (h : Works m x) : Works m (x.laneDone b) := h.setLaneB.seqRun

theorem laneRegs {b} (h : Works m x) (small : b < 16) : Works m (x.laneRegs b) := by
  refine h.resetRegs fun a within => .domain (.inr ?_)
  simp only [Bool.and_eq_true, decide_eq_true_eq] at within
  obtain ⟨low, high⟩ := within
  unfold laneReg Reg.kxLstat Reg.cxLstat at low high
  split at low
  · rw [if_pos ‹_›] at high
    omega
  · rw [if_neg ‹_›] at high
    omega

theorem resetLane {b} (h : Works m x) (small : b < 16) : Works m (x.resetLane b) := by
  unfold Mach.resetLane
  extract_lets m1
  have hm1 : Works m m1 := by
    unfold m1
    split
    · exact .ite h h.wakeJob
    · exact h
  exact (hm1.laneRegs small).laneDone.seqReset

/-! ### What stands -/

section

variable (h : Works m n)
include h

theorem held : n.held = m.held := by
  obtain ⟨_, _, _, _, _, _, _, _, _, _, _, _, _, _, _, _, _, _, _, _, _, _, _, _, _, rfl⟩ := h.rest; rfl

end

end Works

end Sys2Proof.Machine
end

section
/-! PROOFS. Register writes and gating (R11, R12, R18, R19, R346, R406, R407). -/

namespace Sys2Proof.Machine

open Sys2Proof

variable {m : Mach} {w : Who}

/-! ### Plain registers -/

theorem reg_store_masked (m : Mach) (a : Nat) (mask v : Word) : (m.store a mask v).reg a &&& mask = v &&& mask := by
  rw [Mach.store, reg_setReg_self]
  ext i hi
  simp only [BitVec.getElem_and, BitVec.getElem_or, BitVec.getElem_not]
  cases mask[i] <;> simp

/-- What a write of a plain register gives: its written bits, and nothing else of registers, memory, cores and jobs. -/
def Wrote (m n : Mach) (a : Nat) (mask v : Word) : Prop :=
  n.reg a &&& mask = v &&& mask ∧ (∀ b, b ≠ a → n.reg b = m.reg b) ∧ n.mem = m.mem ∧ n.seats = m.seats ∧ n.jobs = m.jobs

theorem wrote_setReg {a : Nat} {mask v x : Word} (h : x &&& mask = v &&& mask) : Wrote m (m.setReg a x) a mask v :=
  ⟨by rw [reg_setReg_self, h], fun b other => reg_setReg_of_ne m x other.symm, by simp, by simp, by simp⟩

theorem wrote_store (a : Nat) (mask v : Word) : Wrote m (m.store a mask v) a mask v :=
  ⟨reg_store_masked m a mask v, fun b other => reg_setReg_of_ne m _ other.symm, by simp [Mach.store], by simp [Mach.store],
    by simp [Mach.store]⟩

/-- A register of P-space that only the strongroom may write. -/
theorem registerWrite_denied {s : State} {a : Nat} {v : Word} (h : (s.toMach.pCheck w a true).isSome = true) :
    exec (.registerWrite w a v) s = .next s :=
  (lift_next (n := s.toMach) (if_pos h) : execRegisterWrite w a v s = _)

/-- The row of a plain register: a requester that may not write it changes nothing, one that may gives its bits. -/
theorem registerWrite_row {s : State} {a : Nat} {v mask : Word} {may : Bool}
    (refused : may = false → (s.toMach.pCheck w a true).isSome = true ∨ s.toMach.pWrite w a v = s.toMach)
    (taken : may = true → (s.toMach.pCheck w a true).isSome = false ∧ Wrote s.toMach (s.toMach.pWrite w a v) a mask v) :
    ∃ t, exec (.registerWrite w a v) s = .next t ∧ (may = false → t = s) ∧
      (may = true → t.toMach.reg a &&& mask = v &&& mask ∧ (∀ b, b ≠ a → t.toMach.reg b = s.toMach.reg b) ∧ t.mem = s.mem ∧
        t.seats = s.seats ∧ t.jobs = s.jobs) := by
  cases may
  · refine ⟨s, ?_, fun _ => rfl, nofun⟩
    rcases refused rfl with stopped | same
    · exact registerWrite_denied stopped
    · by_cases stopped : (s.toMach.pCheck w a true).isSome = true
      · exact registerWrite_denied stopped
      · exact (lift_next (n := s.toMach) ((if_neg stopped).trans same) : execRegisterWrite w a v s = _)
  · obtain ⟨free, written⟩ := taken rfl
    exact ⟨_, (lift_next (if_neg (by simp [free])) : execRegisterWrite w a v s = _), nofun, fun _ => written⟩

theorem pCheck_sr {a : Nat} (low : a < 0x400000) (sr : srRegister a = true) : (m.pCheck w a true).isSome = !w.sr := by
  cases hw : w.sr <;> simp [Mach.pCheck, Mach.pDenied, sr, hw, show ¬ 0x400000 ≤ a by omega]

theorem pCheck_open {a : Nat} (low : a < 0x400000) (sr : srRegister a = false) : (m.pCheck w a true).isSome = false := by
  simp [Mach.pCheck, Mach.pDenied, sr, show ¬ 0x400000 ≤ a by omega]

/-- A register written through its address where the block stores what the requester may write. -/
theorem row_storeIf {s : State} {a : Nat} {v mask : Word} {may : Bool} (low : a < 0x400000)
    (check : srRegister a = true ∧ may = w.sr ∨ srRegister a = false)
    (e : s.toMach.pWrite w a v = s.toMach.storeIf may a mask v) :
    ∃ t, exec (.registerWrite w a v) s = .next t ∧ (may = false → t = s) ∧
      (may = true → t.toMach.reg a &&& mask = v &&& mask ∧ (∀ b, b ≠ a → t.toMach.reg b = s.toMach.reg b) ∧ t.mem = s.mem ∧
        t.seats = s.seats ∧ t.jobs = s.jobs) := by
  refine registerWrite_row (fun refused => .inr ?_) fun taken => ⟨?_, ?_⟩
  · rw [e, Mach.storeIf, refused]
    rfl
  · rcases check with ⟨sr, same⟩ | plain
    · rw [pCheck_sr low sr, ← same, taken]
      rfl
    · exact pCheck_open low plain
  · rw [e, Mach.storeIf, taken]
    exact wrote_store a mask v

theorem pWrite_rtNextsec (v : Word) : m.pWrite w Reg.rtNextsec v = m.storeIf w.sr Reg.rtNextsec 0xFFFFFFFFFF v := rfl
theorem pWrite_twnHoldoff (v : Word) : m.pWrite w Reg.twnHoldoff v = m.storeIf w.sr Reg.twnHoldoff 0xFFFF v := rfl
theorem pWrite_sealPeerkeyid (v : Word) : m.pWrite w Reg.sealPeerkeyid v = m.storeIf w.sr Reg.sealPeerkeyid (~~~ 0#48) v := rfl
theorem pWrite_ucLoadaddr (v : Word) : m.pWrite w Reg.ucLoadaddr v = m.storeIf (w.sr && true) Reg.ucLoadaddr 0xFFFFFFFF v := rfl
theorem pWrite_modAlerten (v : Word) : m.pWrite w Reg.modAlerten v = m.storeIf (w.house && true) Reg.modAlerten 0x3F v := rfl

theorem pWrite_enPurse (v : Word) : m.pWrite w Reg.enPurse v = m.storeIf w.house Reg.enPurse 0xFFFF v := by
  change m.enSet w 2 v = _
  cases house : w.house <;> simp [Mach.enSet, Mach.storeIf, house]

theorem pWrite_enPursenext (v : Word) : m.pWrite w Reg.enPursenext v = m.storeIf w.house Reg.enPursenext 0xFFFF v := by
  change m.enSet w 3 v = _
  cases house : w.house <;> simp [Mach.enSet, Mach.storeIf, house]

theorem pWrite_stkSnapaddr (v : Word) : m.pWrite w Reg.stkSnapaddr v = m.storeIf true Reg.stkSnapaddr 0xFFFFFFFF v := rfl

/-- The rows of a port's registers that a write reaches. -/
theorem prt_rows {p : Nat} (hp : p < 256) :
    ((regRow? (Reg.prtMac p)).isNone = false ∧ srRegister (Reg.prtMac p) = false) ∧
      (regRow? (Reg.prtTenmask p)).isNone = false ∧ srRegister (Reg.prtTenmask p) = false := by
  have all : ∀ i j : Fin 16, ((regRow? (Reg.prtMac (16 * i.val + j.val))).isNone = false ∧
      srRegister (Reg.prtMac (16 * i.val + j.val)) = false) ∧
      (regRow? (Reg.prtTenmask (16 * i.val + j.val))).isNone = false ∧ srRegister (Reg.prtTenmask (16 * i.val + j.val)) = false := by
    decide
  have here := all ⟨p / 16, by omega⟩ ⟨p % 16, Nat.mod_lt _ (by decide)⟩
  rwa [Nat.div_add_mod] at here

/-- A write of a port's register reaches the port. -/
theorem pWrite_prt {a p o : Nat} (low : 0x40000 ≤ a) (high : a < 0x60000) (block : (a - 0x40000) / 0x100 = p)
    (offset : (a - 0x40000) % 0x100 = o) (v : Word) (row : (regRow? a).isNone = false) : m.pWrite w a v = m.prtSet w p o v := by
  unfold Mach.pWrite
  rw [row, if_neg Bool.false_ne_true, if_neg (by omega), if_neg (by omega), if_neg (by omega), if_pos high, block, offset]

theorem row_prt {s : State} {a p : Nat} {v mask x : Word} (high : a < 0x60000) (plain : srRegister a = false)
    (e : s.toMach.pWrite w a v = if s.toMach.mayPort w p then s.toMach.setReg a x else s.toMach) (h : x &&& mask = v &&& mask) :
    ∃ t, exec (.registerWrite w a v) s = .next t ∧ (s.toMach.mayPort w p = false → t = s) ∧
      (s.toMach.mayPort w p = true → t.toMach.reg a &&& mask = v &&& mask ∧
        (∀ b, b ≠ a → t.toMach.reg b = s.toMach.reg b) ∧ t.mem = s.mem ∧ t.seats = s.seats ∧ t.jobs = s.jobs) := by
  refine registerWrite_row (fun refused => .inr ?_) fun taken => ⟨pCheck_open (by omega) plain, ?_⟩
  · rw [e, refused]
    rfl
  · rw [e, taken]
    exact wrote_setReg h

theorem prtSet_mac (p : Nat) (v : Word) : m.prtSet w p 1 v = if m.mayPort w p then m.setReg (Reg.prtMac p) v else m := by
  unfold Mach.prtSet
  cases may : m.mayPort w p
  · rfl
  · rfl

theorem prtSet_tenmask (p : Nat) (v : Word) :
    m.prtSet w p 3 v = if m.mayPort w p then m.setReg (Reg.prtTenmask p) (v &&& 0xFFFF) else m := by
  unfold Mach.prtSet
  cases may : m.mayPort w p
  · rfl
  · rfl

theorem pWrite_prtMac {p : Nat} (hp : p < 256) (v : Word) :
    m.pWrite w (Reg.prtMac p) v = if m.mayPort w p then m.setReg (Reg.prtMac p) v else m := by
  have low : 0x40000 ≤ Reg.prtMac p := by unfold Reg.prtMac; omega
  have high : Reg.prtMac p < 0x60000 := by unfold Reg.prtMac; omega
  have block : (Reg.prtMac p - 0x40000) / 0x100 = p := by unfold Reg.prtMac; omega
  have offset : (Reg.prtMac p - 0x40000) % 0x100 = 1 := by unfold Reg.prtMac; omega
  rw [pWrite_prt low high block offset v (prt_rows hp).1.1, prtSet_mac]

theorem pWrite_prtTenmask {p : Nat} (hp : p < 256) (v : Word) :
    m.pWrite w (Reg.prtTenmask p) v = if m.mayPort w p then m.setReg (Reg.prtTenmask p) (v &&& 0xFFFF) else m := by
  have low : 0x40000 ≤ Reg.prtTenmask p := by unfold Reg.prtTenmask; omega
  have high : Reg.prtTenmask p < 0x60000 := by unfold Reg.prtTenmask; omega
  have block : (Reg.prtTenmask p - 0x40000) / 0x100 = p := by unfold Reg.prtTenmask; omega
  have offset : (Reg.prtTenmask p - 0x40000) % 0x100 = 3 := by unfold Reg.prtTenmask; omega
  rw [pWrite_prt low high block offset v (prt_rows hp).2.1, prtSet_tenmask]

/-! ### Lanes -/

/-- A lane after its reset holds no job (R212). -/
theorem laneB_resetLane (m : Mach) (b : Nat) : ((m.resetLane b).laneB b).job = none := by
  unfold Mach.resetLane
  extract_lets m1
  generalize m1.laneRegs b = n
  change ((n.setLaneB b { attr := (n.laneB b).attr, idleFrom := n.now }).laneB b).job = none
  rw [laneB_setLaneB]

/-! ### Gating -/

variable {b : Nat}

theorem enGate_ne_srLease : Reg.enGate b ≠ Reg.srLease b ∧ Reg.srLease b ≠ Reg.enGate b := by
  unfold Reg.enGate Reg.srLease
  omega

/-- The state with no request of block `b` deferred, and DEFER 0 (R346). -/
def Mach.undeferred (m : Mach) (b : Nat) : Mach :=
  ({ m with sr := { m.sr with deferred := m.sr.deferred.filter fun d => d.1 ≠ b } } : Mach).setFld (Reg.srLease b) F.srLeaseDefer 0

theorem undeferred_leaves : (m.undeferred b).reg (Reg.enGate b) = m.reg (Reg.enGate b) ∧
    ((m.undeferred b).sr.deferred.any fun d => decide (d.1 = b) && !d.2.1) = false ∧ ∀ d ∈ (m.undeferred b).sr.deferred, d.1 ≠ b := by
  have deferred : (m.undeferred b).sr.deferred = m.sr.deferred.filter fun d => d.1 ≠ b := by simp [Mach.undeferred, Mach.setFld]
  have none : ∀ d ∈ (m.undeferred b).sr.deferred, d.1 ≠ b := by
    intro d listed
    rw [deferred] at listed
    simpa using (List.mem_filter.mp listed).2
  refine ⟨reg_setFld_of_ne _ _ (enGate_ne_srLease (b := b)).2, ?_, none⟩
  rw [List.any_eq_false]
  intro d listed
  simp [none d listed]

/-- A request that no lease defers is applied at once (R346, R406). -/
theorem gateRequest_applied {sr auto on : Bool} (free : (on && !sr && m.leaseHeld b) = false) :
    m.gateRequest sr b auto on = ((m.undeferred b).gateApply b auto on).setFld (Reg.enGate b) F.enGateRes 0 := by
  rw [Mach.gateRequest, free]
  rfl

/-- EN_GATE once a request has been applied. -/
def gateWord (w : Word) (auto on : Bool) : Word :=
  fset (if auto then fset w F.enGateAuto (b2n on) else fset w F.enGateReq (b2n on)) F.enGateGated
    (b2n (on || if auto then fbit w F.enGateReq else fbit w F.enGateAuto))

theorem reg_gateApplied (auto on : Bool) :
    (((m.undeferred b).gateApply b auto on).setFld (Reg.enGate b) F.enGateRes 0).reg (Reg.enGate b) =
      fset (gateWord (m.reg (Reg.enGate b)) auto on) F.enGateRes 0 := by
  obtain ⟨gate, none, -⟩ := undeferred_leaves (m := m) (b := b)
  rw [reg_setFld_self, Mach.gateApply, reg_setReg_self, gate, none]
  cases auto <;> simp [gateWord]

theorem fbit_b2n (w : Word) {f : Fld} (b : Bool) (h : fitsWord f = true) (one : f.hi = f.lo) : fbit (fset w f (b2n b)) f = b := by
  rw [fbit_fset_same _ _ h one]
  cases b <;> rfl

/-- A request applied: REQ or AUTO as asked, GATED as both say, RES 0 and nothing deferred. -/
theorem gateApplied_reads (b : Nat) (auto on : Bool) :
    let n := ((m.undeferred b).gateApply b auto on).setFld (Reg.enGate b) F.enGateRes 0
    n.bit (Reg.enGate b) (if auto then F.enGateAuto else F.enGateReq) = on ∧
      n.gated b = (on || m.bit (Reg.enGate b) (if auto then F.enGateReq else F.enGateAuto)) ∧
      n.fld (Reg.enGate b) F.enGateRes = 0 ∧ ∀ d ∈ n.sr.deferred, d.1 ≠ b := by
  intro n
  obtain ⟨-, -, none⟩ := undeferred_leaves (m := m) (b := b)
  have word : n.reg (Reg.enGate b) = _ := reg_gateApplied auto on
  refine ⟨?_, ?_, ?_, ?_⟩
  · rw [Mach.bit, word, gateWord, fbit_fset_apart _ _ (by cases auto <;> decide) (by cases auto <;> decide),
      fbit_fset_apart _ _ (by cases auto <;> decide) (by cases auto <;> decide)]
    cases auto
    · exact fbit_b2n _ on (by decide) rfl
    · exact fbit_b2n _ on (by decide) rfl
  · rw [Mach.gated, Mach.bit, word, gateWord, fbit_fset_apart _ _ (by decide) (by decide), fbit_b2n _ _ (by decide) rfl]
    cases auto <;> rfl
  · rw [Mach.fld, word, fget_fset_same _ _ (by decide)]
    rfl
  · have same : n.sr = (m.undeferred b).sr := by simp [n, Mach.setFld, Mach.gateApply]
    rw [same]
    exact none

/-- A request that a lease defers (R346). -/
theorem gateRequest_deferred (lease : m.leaseHeld b = true) :
    let n := m.gateRequest false b false true
    n.gated b = m.gated b ∧ n.bit (Reg.enGate b) F.enGateReq = true ∧ n.fld (Reg.enGate b) F.enGateRes = 1 ∧
      n.bit (Reg.srLease b) F.srLeaseDefer = true ∧ (b, false, true) ∈ n.sr.deferred := by
  intro n
  obtain ⟨ne, ne'⟩ := enGate_ne_srLease (b := b)
  let m1 : Mach := { m with sr := { m.sr with deferred := (m.sr.deferred.filter fun d => d.1 ≠ b) ++ [(b, false, true)] } }
  have e : n = ((m1.setFld (Reg.srLease b) F.srLeaseDefer 1).setFld (Reg.enGate b) F.enGateReq 1).setFld (Reg.enGate b) F.enGateRes 1 := by
    simp only [n, Mach.gateRequest, lease, m1]
    rfl
  rw [e]
  refine ⟨?_, ?_, ?_, ?_, ?_⟩
  · rw [Mach.gated, bit_setFld_apart _ _ (by decide) (by decide), bit_setFld_apart _ _ (by decide) (by decide),
      bit_setFld_of_ne _ _ ne']
    rfl
  · rw [bit_setFld_apart _ _ (by decide) (by decide), bit_setFld_same _ _ (by decide) rfl]
    rfl
  · rw [fld_setFld_same _ _ (by decide)]
    rfl
  · rw [bit_setFld_of_ne _ _ ne, bit_setFld_of_ne _ _ ne, bit_setFld_same _ _ (by decide) rfl]
    rfl
  · simp [Mach.setFld, m1]

theorem enGateSet_eq {v : Word} (block : gateBlock b = true) (house : w.house = true) (world : m.blockSr b = true → w.sr = true) :
    m.enGateSet w b v = m.gateRequest w.sr b false (fbit v F.enGateReq) := by
  refine if_neg ?_
  cases sr : w.sr
  · have open_ : m.blockSr b = false := Bool.eq_false_iff.mpr fun h => absurd ((world h).symm.trans sr) (by decide)
    simp [block, house, open_]
  · simp [block, house]

/-- A held request of a block that is no longer gated (R19). -/
theorem releaseHeld_leaves (small : b < 80) (held : m.held.contains b = true) (open_ : m.gated b = false) :
    (m.releaseHeld b).held = setDel b m.held ∧ (b < 16 → ((m.releaseHeld b).laneB b).job = none) := by
  have e : m.releaseHeld b = if 0x10 ≤ b then ({ m with held := setDel b m.held } : Mach).resetEngine (b - 0x10) 1
      else ({ m with held := setDel b m.held } : Mach).resetLane b := by
    rw [Mach.releaseHeld, held, open_]
    rfl
  rw [e]
  split
  next high =>
    exact ⟨(Works.resetEngine (.refl ({ m with held := setDel b m.held } : Mach)) (by omega)).held, fun low => absurd low (by omega)⟩
  next low =>
    refine ⟨(Works.resetLane (.refl ({ m with held := setDel b m.held } : Mach)) (by omega)).held, fun _ => ?_⟩
    exact laneB_resetLane _ b

/-- Settles O27. -/
theorem registerWritesAndGating : Obligations.RegisterWritesAndGating := by
  refine ⟨fun s w a v p => ⟨fun beyond => ?_, fun other sr => ?_, ?_⟩, fun s w b v => ?_⟩
  · exact registerWrite_denied (by simp [Mach.pCheck, beyond])
  · refine registerWrite_denied ?_
    by_cases beyond : 0x400000 ≤ a
    · simp [Mach.pCheck, beyond]
    · simp [Mach.pCheck, Mach.pDenied, beyond, other, sr]
  · simp only [List.forall_mem_cons]
    refine ⟨row_storeIf (by decide) (.inl ⟨by decide, rfl⟩) (pWrite_rtNextsec v),
      row_storeIf (by decide) (.inl ⟨by decide, rfl⟩) (pWrite_twnHoldoff v),
      row_storeIf (by decide) (.inl ⟨by decide, rfl⟩) (pWrite_sealPeerkeyid v),
      row_storeIf (by decide) (.inl ⟨by decide, rfl⟩) ((pWrite_ucLoadaddr v).trans (by rw [Bool.and_true])),
      row_storeIf (by decide) (.inr (by decide)) ((pWrite_modAlerten v).trans (by rw [Bool.and_true])),
      row_storeIf (by decide) (.inr (by decide)) (pWrite_enPurse v), row_storeIf (by decide) (.inr (by decide)) (pWrite_enPursenext v),
      by simpa using row_storeIf (by decide) (.inr (by decide)) (pWrite_stkSnapaddr v),
      row_prt (by unfold Reg.prtMac; omega) (prt_rows p.isLt).1.2 (pWrite_prtMac p.isLt v) rfl,
      row_prt (by unfold Reg.prtTenmask; omega) (prt_rows p.isLt).2.2 (pWrite_prtTenmask p.isLt v) ?_, by simp⟩
    rw [BitVec.and_assoc, BitVec.and_self]
  · intro m gate on block
    refine ⟨fun house world => ⟨fun free => ?_, fun asks open_ lease => ?_⟩, fun barred => ?_, fun up => ⟨?_, ?_⟩, fun held open_ => ?_⟩
    · have e : exec (.enGateWrite w b v) s = .next { s with toMach := s.toMach.gateRequest w.sr b.val false on } :=
        (lift_next (enGateSet_eq block house world) : execEnGateWrite w b v s = _)
      have applied : (on && !w.sr && s.toMach.leaseHeld b.val) = false := by
        rcases free with off | strong | none
        · rw [off]; rfl
        · rw [strong, Bool.not_true, Bool.and_false]; rfl
        · exact (congrArg (on && !w.sr && ·) none).trans (Bool.and_false _)
      obtain ⟨req, gated, res, none⟩ := gateApplied_reads (m := s.toMach) b.val false on
      rw [gateRequest_applied applied] at e
      exact ⟨_, e, req, gated, res, none⟩
    · have e : exec (.enGateWrite w b v) s = .next { s with toMach := s.toMach.gateRequest w.sr b.val false on } :=
        (lift_next (enGateSet_eq block house world) : execEnGateWrite w b v s = _)
      rw [asks, open_] at e
      exact ⟨_, e, gateRequest_deferred lease⟩
    · refine (lift_next (n := s.toMach) (if_pos ?_) : execEnGateWrite w b v s = _)
      rcases barred with out | ⟨sr, open_⟩
      · simp [out]
      · simp [show s.toMach.blockSr b.val = true from sr, open_]
    · intro k peer other world open_ shut auto idle since lease
      obtain ⟨req, gated, -, -⟩ := gateApplied_reads (m := s.toMach) b.val true true
      have asked : s.toMach.autoGate b.val = s.toMach.gateRequest false b.val true true := by
        refine if_pos ?_
        simp only [Bool.and_eq_true, Bool.not_eq_true', decide_eq_true_eq, List.any_eq_true]
        exact ⟨⟨⟨⟨⟨⟨up, block⟩, auto⟩, idle⟩, shut⟩, since⟩, k, peer, ⟨other, world⟩, open_⟩
      rw [gateRequest_applied (by simpa using lease)] at asked
      exact ⟨_, (lift_next asked : execAutogateGate b s = _), gated, req⟩
    · intro auto wants
      obtain ⟨req, gated, -, -⟩ := gateApplied_reads (m := s.toMach) b.val true false
      have asked : s.toMach.autoUngate b.val = s.toMach.gateRequest false b.val true false := by
        refine if_pos ?_
        simp only [Bool.and_eq_true]
        exact ⟨⟨⟨up, block⟩, auto⟩, wants⟩
      rw [gateRequest_applied rfl] at asked
      exact ⟨_, (lift_next asked : execAutogateUngate b s = _), req, gated⟩
    · obtain ⟨same, lane⟩ := releaseHeld_leaves b.isLt held open_
      refine ⟨_, (lift_next rfl : execGatedActionRelease b s = _), fun k => ?_, lane⟩
      change k ∈ (s.toMach.releaseHeld b.val).held ↔ _
      rw [same]
      simp [setDel, List.mem_filter]

end Sys2Proof.Machine
end

section
/-! PROOFS. Bells and gates as written (R56, R57, R61). -/

namespace Sys2Proof.Machine

open Sys2Proof

variable {m : Mach} {w : Who}

/-! ### The ledger through register writes -/

theorem ledger_setReg_plain {a : Nat} (v : Word) (plain : ledgerAddr a = false) : (m.setReg a v).ledger = m.ledger := by
  rw [Mach.setReg, plain]
  rfl

/-- A register write leaves the ledger but for its written registers. -/
theorem ledger_setReg (m : Mach) (a : Nat) (v : Word) : ∃ r, (m.setReg a v).ledger = { m.ledger with regs := r } := by
  unfold Mach.setReg
  split
  · exact ⟨_, rfl⟩
  · exact ⟨m.ledger.regs, rfl⟩

theorem pend_setReg (m : Mach) (a : Nat) (v : Word) : (m.setReg a v).ledger.pend = m.ledger.pend := by
  obtain ⟨r, e⟩ := ledger_setReg m a v
  rw [e]

theorem bells_setReg (m : Mach) (a : Nat) (v : Word) : (m.setReg a v).ledger.bells = m.ledger.bells := by
  obtain ⟨r, e⟩ := ledger_setReg m a v
  rw [e]

theorem gates_setReg (m : Mach) (a : Nat) (v : Word) : (m.setReg a v).ledger.gates = m.ledger.gates := by
  obtain ⟨r, e⟩ := ledger_setReg m a v
  rw [e]

theorem reg_pendWrite (m : Mach) (x : LWrite) (a : Nat) : (m.pendWrite x).reg a = m.reg a := rfl

theorem ledgerAddr_bellStat (b : Nat) : ledgerAddr (Reg.bellStat b) = false ∨ 0x22000 ≤ Reg.bellStat b := by
  by_cases small : Reg.bellStat b < 0x22000
  · left
    unfold ledgerAddr Reg.sealCtl Reg.sealRsize Reg.sealTail
    unfold Reg.bellStat at small ⊢
    simp
    omega
  · right
    omega

/-! ### Bell writes -/

variable {b : Nat}

theorem ledger_bellErr (small : b < 1024) (k : Nat) : (m.bellErr b k).ledger = m.ledger := by
  refine ledger_setReg_plain _ ((ledgerAddr_bellStat b).resolve_right ?_)
  unfold Reg.bellStat
  omega

theorem fld_bellErr {k : Nat} (h : k < 16) : (m.bellErr b k).fld (Reg.bellStat b) F.bellStatErr = k := by
  rw [Mach.bellErr, fld_setFld_same _ _ (by decide)]
  exact Nat.mod_eq_of_lt h

theorem bellCheck_small (m : Mach) (b : Nat) (v : Word) : m.bellCheck b v < 16 := by
  unfold Mach.bellCheck
  extract_lets old arm act tgt soon
  repeat' split
  all_goals decide

/-- A BELL_ACT write that passes its checks. -/
theorem bellActSet_taken (small : b < 1024) {v : Word} (sr : w.sr = true) (ok : m.bellCheck b v = 0) :
    let act := v &&& 0xFFFFFF800FFF
    let n := m.bellActSet w b v
    n.reg (Reg.bellAct b) = act ∧ n.ledger.pend = m.ledger.pend ++ [.bell b (m.bellTime b) act] ∧
      n.fld (Reg.bellStat b) F.bellStatErr = 0 ∧ n.ledger.bells = m.ledger.bells := by
  intro act n
  have e : n = ((m.setReg (Reg.bellAct b) act).pendWrite (.bell b (m.bellTime b) act)).bellErr b 0 := by
    simp only [n, Mach.bellActSet, sr, ok]
    rfl
  have apart : Reg.bellStat b ≠ Reg.bellAct b := by unfold Reg.bellStat Reg.bellAct; omega
  rw [e, ledger_bellErr small]
  refine ⟨?_, ?_, fld_bellErr (by decide), ?_⟩
  · rw [Mach.bellErr, reg_setFld_of_ne _ _ apart, reg_pendWrite, reg_setReg_self]
  · exact congrArg (· ++ [LWrite.bell b (m.bellTime b) act]) (pend_setReg m _ _)
  · exact bells_setReg m _ _

theorem bellActSet_refused {v : Word} (sr : w.sr = true) (fails : m.bellCheck b v ≠ 0) :
    m.bellActSet w b v = m.bellErr b (m.bellCheck b v) := by
  simp [Mach.bellActSet, sr, fails]

/-- The time register a BELL_ time write gives. -/
def Mach.bellTimed (m : Mach) (b : Nat) (frac : Bool) (v : Word) : Mach :=
  if frac then m.setReg (Reg.bellTfrac b) (w48 (v.toNat % 2 ^ 24)) else m.setReg (Reg.bellTsec b) (w48 (v.toNat % 2 ^ 40))

theorem bellTimeSet_taken {frac : Bool} {v : Word} (sr : w.sr = true) (open_ : m.ledgerBarred = false)
    (disarmed : m.bit (Reg.bellAct b) F.bellActArm = false) :
    m.bellTimeSet w b frac v =
      (m.bellTimed b frac v).pendWrite (.bell b ((m.bellTimed b frac v).bellTime b) (m.reg (Reg.bellAct b))) := by
  have act : (m.bellTimed b frac v).reg (Reg.bellAct b) = m.reg (Reg.bellAct b) := by
    unfold Mach.bellTimed
    split
    · exact reg_setReg_of_ne _ _ (by unfold Reg.bellTfrac Reg.bellAct; omega)
    · exact reg_setReg_of_ne _ _ (by unfold Reg.bellTsec Reg.bellAct; omega)
  rw [← act]
  simp only [Mach.bellTimeSet, sr, open_, disarmed]
  rfl

theorem bellTimeSet_armed {frac : Bool} {v : Word} (sr : w.sr = true) (open_ : m.ledgerBarred = false)
    (armed : m.bit (Reg.bellAct b) F.bellActArm = true) : m.bellTimeSet w b frac v = m.bellErr b 3 := by
  simp [Mach.bellTimeSet, sr, open_, armed]

/-! ### Gate keys -/

variable {g : Nat}

theorem gateStat_ne_gateKey : Reg.gateStat g ≠ Reg.gateKey g := by unfold Reg.gateStat Reg.gateKey; omega

/-- A GATE_KEY write that passes its checks. -/
theorem gateKeySet_taken {v : Word} (sr : w.sr = true) (open_ : m.ledgerBarred = false)
    (en : fbit (v &&& 0x800F00000FFF) F.gateKeyEn = true)
    (alone : ∀ h ∈ m.usedGates, h ≠ g → ¬ (fget (m.gateWritten h) F.gateKeyTenant = fget (v &&& 0x800F00000FFF) F.gateKeyTenant ∧
      fget (m.gateWritten h) F.gateKeyGame = fget (v &&& 0x800F00000FFF) F.gateKeyGame)) :
    let key := v &&& 0x800F00000FFF
    let n := m.gateKeySet w g v
    n.reg (Reg.gateKey g) = key ∧ n.ledger.pend = m.ledger.pend ++ [.gate g key] ∧
      n.fld (Reg.gateStat g) F.gateStatErr = 0 ∧ n.ledger.gates = m.ledger.gates := by
  intro key n
  have dup : (m.usedGates.any fun h => h ≠ g && fget (m.gateWritten h) F.gateKeyTenant = fget key F.gateKeyTenant &&
      fget (m.gateWritten h) F.gateKeyGame = fget key F.gateKeyGame) = false := by
    rw [List.any_eq_false]
    intro h listed both
    simp only [Bool.and_eq_true, decide_eq_true_eq] at both
    obtain ⟨⟨other, ten⟩, game⟩ := both
    exact alone h listed other ⟨ten, game⟩
  have e : n = ((m.setReg (Reg.gateKey g) key).pendWrite (.gate g key)).setFld (Reg.gateStat g) F.gateStatErr 0 := by
    change fbit key F.gateKeyEn = true at en
    simp only [n, Mach.gateKeySet]
    rw [sr, open_]
    change (if (!fbit key F.gateKeyEn && _) = true then _ else if (fbit key F.gateKeyEn && _) = true then _ else _) = _
    rw [en, dup]
    rfl
  rw [e]
  refine ⟨?_, ?_, ?_, ?_⟩
  · rw [reg_setFld_of_ne _ _ gateStat_ne_gateKey, reg_pendWrite, reg_setReg_self]
  · rw [Mach.setFld, pend_setReg]
    exact congrArg (· ++ [LWrite.gate g key]) (pend_setReg m _ _)
  · rw [fld_setFld_same _ _ (by decide)]
    rfl
  · rw [Mach.setFld, gates_setReg]
    exact gates_setReg m _ _

/-- Settles O30. -/
theorem bellAndGateWrites : Obligations.BellAndGateWrites := by
  intro s w b g v
  dsimp only
  refine ⟨fun sr => ⟨fun ok => ?_, fun fails => ?_, fun open_ disarmed frac => ?_, fun open_ armed frac => ?_,
    fun open_ en alone => ?_, fun barred => ?_⟩, fun other => ⟨?_, fun f => ?_, ?_⟩⟩
  · exact ⟨_, (lift_next rfl : execBellActWrite w b v s = _), bellActSet_taken b.isLt sr ok⟩
  · exact ⟨_, (lift_next (bellActSet_refused sr fails) : execBellActWrite w b v s = _), ledger_bellErr b.isLt _,
      fld_bellErr (bellCheck_small _ _ _)⟩
  · refine ⟨_, (lift_next (bellTimeSet_taken sr open_ disarmed) : execBellTimeWrite w b frac v s = _), fun sec => ?_, fun fr => ?_, ?_⟩
    · subst sec
      exact ⟨reg_setReg_self _ _, reg_setReg_of_ne _ _ (by unfold Reg.bellTsec Reg.bellTfrac; omega)⟩
    · subst fr
      exact ⟨reg_setReg_self _ _, reg_setReg_of_ne _ _ (by unfold Reg.bellTsec Reg.bellTfrac; omega)⟩
    · refine congrArg (· ++ [_]) ?_
      cases frac
      · exact pend_setReg _ _ _
      · exact pend_setReg _ _ _
  · exact ⟨_, (lift_next (bellTimeSet_armed sr open_ armed) : execBellTimeWrite w b frac v s = _), ledger_bellErr b.isLt _,
      fld_bellErr (by decide)⟩
  · exact ⟨_, (lift_next rfl : execGateKeyWrite w g v s = _), gateKeySet_taken sr open_ en alone⟩
  · have e : s.toMach.gateKeySet w g.val v = s.toMach.setFld (Reg.gateStat g.val) F.gateStatErr 7 := by
      simp [Mach.gateKeySet, sr, barred]
    refine ⟨_, (lift_next e : execGateKeyWrite w g v s = _), pend_setReg _ _ _, gates_setReg _ _ _,
      reg_setFld_of_ne _ _ gateStat_ne_gateKey, ?_⟩
    exact fld_setFld_same _ _ (by decide)
  · exact (lift_next (n := s.toMach) (if_pos (by simp [other])) : execBellActWrite w b v s = _)
  · exact (lift_next (n := s.toMach) (if_pos (by simp [other])) : execBellTimeWrite w b f v s = _)
  · exact (lift_next (n := s.toMach) (if_pos (by simp [other])) : execGateKeyWrite w g v s = _)

end Sys2Proof.Machine
end

section
/-! PROOFS. The accession registers (R112, R113, R129, R130). -/

namespace Sys2Proof.Machine

open Sys2Proof

variable {m : Mach} {w : Who} {t : Nat}

/-! ### Back-pressure -/

namespace Signals

variable {L : List Nat} {x : Mach}

theorem creditTenant (h : Signals L m x) : Signals L m (x.creditTenant t) := h.foldl fun _ _ h => .ite h.connSend h

theorem setBp {f b} (h : Signals L m x) (listed : Reg.accBp t ∈ L) (plain : ledgerAddr (Reg.accBp t) = false) :
    Signals L m (x.setBp t f b) :=
  .ite (h.setFld listed plain).creditTenant (h.setFld listed plain)

theorem refreshSpace (h : Signals L m x) (listed : Reg.accBp t ∈ L) (plain : ledgerAddr (Reg.accBp t) = false) :
    Signals L m (x.refreshSpace t) :=
  .ite (h.setBp listed plain) (.ite (h.setBp listed plain) h)

end Signals

/-! ### ACC_ERR -/

theorem ledgerAddr_accBp (small : t < 16) : ledgerAddr (Reg.accBp t) = false := by
  unfold ledgerAddr Reg.accBp Reg.sealCtl Reg.sealRsize Reg.sealTail
  simp
  omega

theorem ledgerAddr_accErr (small : t < 16) : ledgerAddr (Reg.accErr t) = false := by
  unfold ledgerAddr Reg.accErr Reg.sealCtl Reg.sealRsize Reg.sealTail
  simp
  omega

theorem reg_accError_self (k : Nat) : (m.accError t k).reg (Reg.accErr t) = w48 k := reg_setReg_self m _

theorem reg_accError_of_ne {a : Nat} (k : Nat) (h : a ≠ Reg.accErr t) : (m.accError t k).reg a = m.reg a :=
  reg_setReg_of_ne m _ h.symm

theorem ledger_accError (small : t < 16) (k : Nat) : (m.accError t k).ledger = m.ledger :=
  ledger_setReg_plain _ (ledgerAddr_accErr small)

/-- The command leaves a code in ACC_ERR and nothing else. -/
theorem leaves_accError {s : State} {f : Mach → Mach} {k : Nat} (e : f s.toMach = s.toMach.accError t k) :
    ∃ n, s.lift f = .next n ∧ n.toMach.reg (Reg.accErr t) = w48 k ∧
      ∀ a, a ≠ Reg.accErr t → n.toMach.reg a = s.toMach.reg a :=
  ⟨_, lift_next e, reg_accError_self k, fun _ => reg_accError_of_ne k⟩

/-! ### ACC_TAIL -/

/-- The offset a write of ACC_TAIL names is one at which it may stand (R113). -/
def Mach.tailTakes (m : Mach) (t off : Nat) : Prop :=
  m.ringWords t ≠ 0 ∧ off < m.ringWords t ∧
    ∃ e ∈ walkRing (fun o => m.word (m.ringAddr t o)) (m.ringWords t) (m.reg (Reg.accRelptr t)).toNat (m.ringWords t)
      (m.reg (Reg.accTail t)).toNat, e.1 = off ∧ (e.2 = 0xF ∨ e.2 = 0xE ∨ e.2 = 16)

theorem tailTakes_iff {off : Nat} : m.tailTakes t off ↔ (m.ringWords t ≠ 0 && off < m.ringWords t &&
    (walkRing (fun o => m.word (m.ringAddr t o)) (m.ringWords t) (m.reg (Reg.accRelptr t)).toNat (m.ringWords t)
      (m.reg (Reg.accTail t)).toNat).any fun e => e.1 = off && (e.2 = 0xF || e.2 = 0xE || e.2 = 16)) = true := by
  simp [Mach.tailTakes, List.any_eq_true, and_assoc, or_assoc]

theorem accTail_taken {v : Word} (small : t < 16) (open_ : m.ledgerBarred = false) (own : w.ofTen t = true)
    (ok : m.tailTakes t (v.toNat % 2 ^ 32)) :
    let size := m.ringWords t
    let off := v.toNat % 2 ^ 32
    let n := m.accTail w t v
    n.reg (Reg.accTail t) = w48 off ∧
      n.reg (Reg.accUsed t) = w48 ((m.reg (Reg.accUsed t)).toNat - (off + size - (m.reg (Reg.accTail t)).toNat) % size) ∧
      n.reg (Reg.accErr t) = 0 := by
  intro size off n
  have e : n = (((m.setReg (Reg.accTail t) (w48 off)).setReg (Reg.accUsed t) (w48 ((m.reg (Reg.accUsed t)).toNat -
      (off + size - (m.reg (Reg.accTail t)).toNat) % size))).accError t 0).refreshSpace t := by
    simp only [n, Mach.accTail, own, open_, Bool.not_true, Bool.false_eq_true, reduceIte]
    exact if_pos (tailTakes_iff.mp ok)
  have frame : Signals [Reg.accBp t] _ n := e ▸ Signals.refreshSpace (.refl _ _) (List.mem_singleton_self _) (ledgerAddr_accBp small)
  refine ⟨?_, ?_, ?_⟩
  · rw [frame.reg (Reg.accTail t) (by unfold Reg.accTail; omega) (by unfold Reg.accTail Reg.accBp; simp),
      reg_accError_of_ne _ (by unfold Reg.accTail Reg.accErr; omega),
      reg_setReg_of_ne _ _ (by unfold Reg.accUsed Reg.accTail; omega), reg_setReg_self]
  · rw [frame.reg (Reg.accUsed t) (by unfold Reg.accUsed; omega) (by unfold Reg.accUsed Reg.accBp; simp),
      reg_accError_of_ne _ (by unfold Reg.accUsed Reg.accErr; omega), reg_setReg_self]
  · rw [frame.reg (Reg.accErr t) (by unfold Reg.accErr; omega) (by unfold Reg.accErr Reg.accBp; simp), reg_accError_self]
    rfl

theorem accTail_refused {v : Word} (open_ : m.ledgerBarred = false) (own : w.ofTen t = true)
    (bad : ¬ m.tailTakes t (v.toNat % 2 ^ 32)) : m.accTail w t v = m.accError t 1 := by
  simp only [Mach.accTail, own, open_, Bool.not_true, Bool.false_eq_true, reduceIte]
  exact if_neg (mt tailTakes_iff.mpr bad)

/-! ### The ring and the next number -/

/-- The tenant is stopped and its ring empty (R129). -/
def Mach.ringIdle (m : Mach) (t : Nat) : Prop :=
  m.bit (Reg.accCtl t) F.accCtlEn = false ∧ m.accEn t = false ∧ m.reg (Reg.accUsed t) = 0

theorem ringIdle_iff : m.ringIdle t ↔ ¬ ((m.bit (Reg.accCtl t) F.accCtlEn || m.accEn t || m.reg (Reg.accUsed t) ≠ 0) = true) := by
  simp [Mach.ringIdle, and_assoc]

theorem accRing_running {size : Bool} {v : Word} (open_ : m.ledgerBarred = false) (sr : w.sr = true) (busy : ¬ m.ringIdle t) :
    m.accRing w t size v = m.accError t 2 := by
  simp only [Mach.accRing, sr, open_, Bool.not_true, Bool.false_eq_true, reduceIte]
  exact if_pos (not_not.mp (mt ringIdle_iff.mpr busy))

theorem accNextSet_running {hi : Bool} {v : Word} (open_ : m.ledgerBarred = false) (sr : w.sr = true) (busy : ¬ m.ringIdle t) :
    m.accNextSet w t hi v = m.accError t 2 := by
  simp only [Mach.accNextSet, sr, open_, Bool.not_true, Bool.false_eq_true, reduceIte]
  exact if_pos (not_not.mp (mt ringIdle_iff.mpr busy))

theorem accRing_taken {size : Bool} {v : Word} (open_ : m.ledgerBarred = false) (sr : w.sr = true) (idle : m.ringIdle t) :
    let base := if size then (m.reg (Reg.accDbbase t)).toNat else v.toNat % 2 ^ 32 / 4096 * 4096
    let pages := if size then v.toNat % 2 ^ 20 else (m.reg (Reg.accDbsize t)).toNat
    let n := m.accRing w t size v
    (pages = 0 ∨ 256 ≤ pages) → base + pages * 4096 ≤ memWords → m.ringOverlap t base pages = false →
      n.reg (Reg.accErr t) = 0 ∧
        n.reg (if size then Reg.accDbsize t else Reg.accDbbase t) = w48 (if size then pages else base) ∧
        n.reg (Reg.accHead t) = 0 ∧ n.reg (Reg.accTail t) = 0 ∧ n.reg (Reg.accRelptr t) = 0 := by
  intro base pages n sized inMem alone
  let m1 := if size then m.setReg (Reg.accDbsize t) (w48 pages) else m.setReg (Reg.accDbbase t) (w48 base)
  have e : n = (((m1.setReg (Reg.accHead t) 0).setReg (Reg.accTail t) 0).setReg (Reg.accRelptr t) 0).accError t 0 := by
    simp only [n, Mach.accRing, sr, open_, Bool.not_true, Bool.false_eq_true, reduceIte]
    refine (if_neg (ringIdle_iff.mp idle)).trans ((if_neg ?_).trans (if_neg ?_))
    · simp only [Bool.or_eq_true, Bool.and_eq_true, decide_eq_true_eq]
      change ¬ ((1 ≤ pages ∧ pages ≤ 255) ∨ memWords < base + pages * 4096)
      omega
    · change ¬ (m.ringOverlap t base pages = true)
      rw [alone]
      decide
  rw [e]
  refine ⟨reg_accError_self 0, ?_, ?_, ?_, ?_⟩
  · cases size <;> simp only [m1, Mach.accError, Mach.reg_setReg] <;>
      simp [Reg.accDbsize, Reg.accDbbase, Reg.accErr, Reg.accHead, Reg.accTail, Reg.accRelptr]
  all_goals
    simp only [Mach.accError, Mach.reg_setReg]
    simp [Reg.accErr, Reg.accHead, Reg.accTail, Reg.accRelptr]

theorem accNextSet_taken {hi : Bool} {v : Word} (open_ : m.ledgerBarred = false) (sr : w.sr = true) (idle : m.ringIdle t)
    (fresh : (m.acc t).issued = false) (unmarked : m.pair (Reg.accRelmarkHi t) (Reg.accRelmarkLo t) = 0) :
    let n := m.accNextSet w t hi v
    n.reg (Reg.accErr t) = 0 ∧
      n.reg (if hi then Reg.accNextHi t else Reg.accNextLo t) = if hi then w48 (v.toNat % 65536) else v := by
  intro n
  have e : n = (if hi then m.setReg (Reg.accNextHi t) (w48 (v.toNat % 65536)) else m.setReg (Reg.accNextLo t) v).accError t 0 := by
    simp only [n, Mach.accNextSet, sr, open_, Bool.not_true, Bool.false_eq_true, reduceIte]
    exact (if_neg (ringIdle_iff.mp idle)).trans (if_neg (by simp [fresh, unmarked]))
  rw [e]
  refine ⟨reg_accError_self 0, ?_⟩
  cases hi
  · exact (reg_accError_of_ne 0 (by simp [Reg.accNextLo, Reg.accErr])).trans (reg_setReg_self _ _)
  · exact (reg_accError_of_ne 0 (by simp [Reg.accNextHi, Reg.accErr])).trans (reg_setReg_self _ _)

/-! ### Writes that pend -/

/-- A field within the bits a ledger write may change reads as written. -/
theorem fget_merge {old v mask : Word} {f : Fld} (within : fmask f &&& mask = fmask f) :
    fget ((old &&& ~~~ mask) ||| (v &&& mask)) f = fget v f := by
  refine Nat.eq_of_testBit_eq fun i => ?_
  rw [testBit_fget, testBit_fget]
  by_cases inField : i < fldWidth f
  · by_cases inWord : f.lo + i < 48
    · have covered := congrArg (fun x : Word => x.getLsbD (f.lo + i)) within
      simp only [fmask, BitVec.getLsbD_and, BitVec.getLsbD_ofNat, Nat.testBit_shiftLeft, Nat.testBit_two_pow_sub_one] at covered
      simp [inWord, inField] at covered
      simp [covered, inWord]
    · simp [BitVec.getLsbD_of_ge _ _ (Nat.le_of_not_lt inWord)]
  · simp [inField]

theorem reg_ledgerWrite_self (a : Nat) (mask v : Word) :
    (m.ledgerWrite a mask v).reg a = (m.reg a &&& ~~~ mask) ||| (v &&& mask) := by
  rw [Mach.ledgerWrite, reg_pendWrite, reg_setReg_self]

theorem pend_ledgerWrite (a : Nat) (mask v : Word) :
    (m.ledgerWrite a mask v).ledger.pend = m.ledger.pend ++ [.reg a mask v] :=
  congrArg (· ++ [LWrite.reg a mask v]) (pend_setReg m _ _)

theorem eff_ledgerWrite (a : Nat) (mask v : Word) : (m.ledgerWrite a mask v).ledger.eff = m.ledger.eff := by
  obtain ⟨_, e⟩ := ledger_setReg m a ((m.reg a &&& ~~~ mask) ||| (v &&& mask))
  change (m.setReg a _).ledger.eff = m.ledger.eff
  rw [e]

/-- The bits of ACC_CTL a write gives. -/
def accCtlMask (v : Word) : Word :=
  fmask F.accCtlEn ||| fmask F.accCtlRefrec ||| fmask F.accCtlKey ||| fmask F.accCtlMinres |||
    (if fget v F.accCtlMaxbody > 248 then 0 else fmask F.accCtlMaxbody)

theorem accCtlMask_whole {v : Word} (fits : fget v F.accCtlMaxbody ≤ 248) : accCtlMask v = fmask F.accCtlEn |||
    fmask F.accCtlRefrec ||| fmask F.accCtlKey ||| fmask F.accCtlMinres ||| fmask F.accCtlMaxbody := by
  rw [accCtlMask, if_neg (Nat.not_lt.mpr fits)]

theorem accCtlSet_taken {v : Word} (open_ : m.ledgerBarred = false) (house : w.house = true)
    (ringed : fbit v F.accCtlEn = false ∨ m.bit (Reg.accCtl t) F.accCtlEn = true ∨
      (m.ringWords t ≠ 0 ∧ m.ringOverlap t (m.ringAddr t 0) (m.ringWords t / 4096) = false)) :
    m.accCtlSet w t v = (m.ledgerWrite (Reg.accCtl t) (accCtlMask v) v).accError t 0 := by
  have starts : fbit v F.accCtlEn = true → fbit (m.reg (Reg.accCtl t)) F.accCtlEn = false →
      m.ringWords t ≠ 0 ∧ m.ringOverlap t (m.ringAddr t 0) (m.ringWords t / 4096) = false := by
    intro en off
    rcases ringed with stop | on | placed
    · rw [en] at stop
      cases stop
    · rw [Mach.bit, off] at on
      cases on
    · exact placed
  simp only [Mach.accCtlSet, house, open_, Bool.not_true, Bool.false_eq_true, reduceIte]
  refine (if_neg ?_).trans ((if_neg ?_).trans rfl)
  · simp only [Bool.and_eq_true, Bool.not_eq_true', decide_eq_true_eq]
    rintro ⟨⟨en, off⟩, empty⟩
    exact (starts en off).1 empty
  · simp only [Bool.and_eq_true, Bool.not_eq_true']
    rintro ⟨⟨en, off⟩, laps⟩
    rw [(starts en off).2] at laps
    cases laps

theorem accCtlSet_reads {v : Word} (open_ : m.ledgerBarred = false) (house : w.house = true)
    (ringed : fbit v F.accCtlEn = false ∨ m.bit (Reg.accCtl t) F.accCtlEn = true ∨
      (m.ringWords t ≠ 0 ∧ m.ringOverlap t (m.ringAddr t 0) (m.ringWords t / 4096) = false))
    (fits : fget v F.accCtlMaxbody ≤ 248) {f : Fld}
    (within : fmask f &&& (fmask F.accCtlEn ||| fmask F.accCtlRefrec ||| fmask F.accCtlKey ||| fmask F.accCtlMinres |||
      fmask F.accCtlMaxbody) = fmask f) :
    (m.accCtlSet w t v).fld (Reg.accCtl t) f = fget v f := by
  rw [accCtlSet_taken open_ house ringed, Mach.fld, reg_accError_of_ne _ (by unfold Reg.accCtl Reg.accErr; omega),
    reg_ledgerWrite_self]
  exact fget_merge (accCtlMask_whole fits ▸ within)

theorem accQuotaSet_taken {v : Word} (small : t < 16) (open_ : m.ledgerBarred = false) (own : w.ofTen t = true) :
    let n := m.accQuotaSet w t v
    n.reg (Reg.accErr t) = 0 ∧ n.reg (Reg.accQuota t) &&& 0xFFFFFF = v &&& 0xFFFFFF ∧ n.quota t = m.quota t ∧
      n.ledger.pend = m.ledger.pend ++ [.reg (Reg.accQuota t) (w48 (2 ^ 24 - 1)) v] := by
  intro n
  have e : n = (m.ledgerWrite (Reg.accQuota t) (w48 (2 ^ 24 - 1)) v).accError t 0 := by
    simp [n, Mach.accQuotaSet, own, open_]
  rw [e]
  refine ⟨reg_accError_self 0, ?_, ?_, ?_⟩
  · rw [reg_accError_of_ne _ (by unfold Reg.accQuota Reg.accErr; omega)]
    exact reg_store_masked m _ _ v
  · rw [Mach.quota, ledger_accError small, Ledger.quota, Ledger.effReg, eff_ledgerWrite]
    rfl
  · rw [ledger_accError small, pend_ledgerWrite]

theorem accCtlSet_pends {v : Word} (small : t < 16) (open_ : m.ledgerBarred = false) (house : w.house = true)
    (ringed : fbit v F.accCtlEn = false ∨ m.bit (Reg.accCtl t) F.accCtlEn = true ∨
      (m.ringWords t ≠ 0 ∧ m.ringOverlap t (m.ringAddr t 0) (m.ringWords t / 4096) = false)) :
    let n := m.accCtlSet w t v
    n.reg (Reg.accErr t) = 0 ∧ n.accEn t = m.accEn t ∧ n.ledger.pend.length = m.ledger.pend.length + 1 := by
  intro n
  rw [show n = _ from accCtlSet_taken open_ house ringed]
  refine ⟨reg_accError_self 0, ?_, ?_⟩
  · rw [Mach.accEn, ledger_accError small, Ledger.accEn, Ledger.effReg, eff_ledgerWrite]
    rfl
  · rw [ledger_accError small, pend_ledgerWrite, List.length_append]
    rfl

/-- Settles O38. -/
theorem accessionRegisters : Obligations.AccessionRegisters := by
  intro s w n v b
  dsimp only
  have small := n.isLt
  refine ⟨fun open_ => ⟨fun own => ⟨fun ok => ?_, fun bad => ?_, ?_⟩, fun sr => ⟨fun busy => ⟨?_, ?_⟩, fun idle => ⟨?_, ?_⟩⟩,
    fun house ringed fits => ?_⟩, fun barred => ⟨fun own => ⟨?_, ?_⟩, fun sr => ⟨?_, ?_⟩, fun house => ?_⟩,
    fun other => ⟨?_, ?_⟩, fun other => ⟨?_, ?_⟩, fun other => ?_⟩
  · exact ⟨_, (lift_next rfl : execAccTailWrite w n v s = _), accTail_taken small open_ own ok⟩
  · exact leaves_accError (f := fun m => m.accTail w n.val v) (accTail_refused open_ own bad)
  · exact ⟨_, (lift_next rfl : execAccQuotaWrite w n v s = _), accQuotaSet_taken small open_ own⟩
  · exact leaves_accError (f := fun m => m.accRing w n.val b v) (accRing_running open_ sr busy)
  · exact leaves_accError (f := fun m => m.accNextSet w n.val b v) (accNextSet_running open_ sr busy)
  · exact fun sized inMem alone => ⟨_, (lift_next rfl : execAccRingWrite w n b v s = _), accRing_taken open_ sr idle sized inMem alone⟩
  · exact fun fresh unmarked => ⟨_, (lift_next rfl : execAccNextWrite w n b v s = _), accNextSet_taken open_ sr idle fresh unmarked⟩
  · obtain ⟨err, en, pends⟩ := accCtlSet_pends (v := v) small open_ house ringed
    refine ⟨_, (lift_next rfl : execAccCtlWrite w n v s = _), err, ?_, accCtlSet_reads open_ house ringed fits (by decide),
      accCtlSet_reads open_ house ringed fits (by decide), accCtlSet_reads open_ house ringed fits (by decide), en, pends⟩
    have bit := accCtlSet_reads (f := F.accCtlEn) open_ house ringed fits (by decide)
    rw [Mach.bit, fbit, ← Mach.fld, bit, fbit]
  · exact leaves_accError (f := fun m => m.accTail w n.val v) (by simp [Mach.accTail, own, barred])
  · exact leaves_accError (f := fun m => m.accQuotaSet w n.val v) (by simp [Mach.accQuotaSet, own, barred])
  · exact leaves_accError (f := fun m => m.accRing w n.val b v) (by simp [Mach.accRing, sr, barred])
  · exact leaves_accError (f := fun m => m.accNextSet w n.val b v) (by simp [Mach.accNextSet, sr, barred])
  · exact leaves_accError (f := fun m => m.accCtlSet w n.val v) (by simp [Mach.accCtlSet, house, barred])
  · exact (lift_next (n := s.toMach) (if_pos (by simp [other])) : execAccTailWrite w n v s = _)
  · exact (lift_next (n := s.toMach) (if_pos (by simp [other])) : execAccQuotaWrite w n v s = _)
  · exact (lift_next (n := s.toMach) (if_pos (by simp [other])) : execAccRingWrite w n b v s = _)
  · exact (lift_next (n := s.toMach) (if_pos (by simp [other])) : execAccNextWrite w n b v s = _)
  · exact (lift_next (n := s.toMach) (if_pos (by simp [other])) : execAccCtlWrite w n v s = _)

end Sys2Proof.Machine
end

section
/-! PROOFS. The seal engine (R165, R169, R171, R176). -/

namespace Sys2Proof.Machine

open Sys2Proof

/-! ### Memory writes -/

/-- `n` is `m` after memory writes of the module's units: memory, the near stores, the stacks' dirty lines, the write queue and
the lines due to the twin may differ, and nothing else. -/
structure Stores (m n : Mach) : Prop where
  rest : ∃ mem seats l2 st dirty, n = { m with
    mem := mem, seats := seats, l2dirty := l2, memst := st, twin := { m.twin with dirty := dirty } }

namespace Stores

variable {m x n o : Mach}

theorem refl (m : Mach) : Stores m m := ⟨m.mem, m.seats, m.l2dirty, m.memst, m.twin.dirty, rfl⟩

theorem trans (h : Stores m n) (g : Stores n o) : Stores m o := by
  obtain ⟨_, _, _, _, _, rfl⟩ := h.rest
  obtain ⟨_, _, _, _, _, rfl⟩ := g.rest
  exact ⟨_, _, _, _, _, rfl⟩

theorem ite {p : Prop} [Decidable p] {a b : Mach} (ha : Stores m a) (hb : Stores m b) : Stores m (if p then a else b) := by
  split
  · exact ha
  · exact hb

theorem foldl {β : Type} {f : Mach → β → Mach} {l : List β} (h : Stores m x)
    (step : ∀ y b, Stores m y → Stores m (f y b)) : Stores m (l.foldl f x) := by
  induction l generalizing x with
  | nil => exact h
  | cons b l ih => exact ih (step x b h)

theorem parts {mem seats l2 st} (h : Stores m x) :
    Stores m { x with mem := mem, seats := seats, l2dirty := l2, memst := st } :=
  h.trans ⟨mem, seats, l2, st, x.twin.dirty, rfl⟩

theorem setCont {a c} (h : Stores m x) : Stores m (x.setCont a c) := h.parts

theorem toGroup {line} (h : Stores m x) : Stores m (x.toGroup line) := by
  unfold Mach.toGroup
  extract_lets m1 src
  exact .ite (parts h.parts) h.parts

theorem mirDirty {line} (h : Stores m x) : Stores m (x.mirDirty line) :=
  .ite (h.trans ⟨x.mem, x.seats, x.l2dirty, x.memst, setIns line x.twin.dirty, rfl⟩) h

theorem writeLine {line ws} (h : Stores m x) : Stores m (x.writeLine line ws) := by
  unfold Mach.writeLine
  extract_lets m1
  have hm1 : Stores m m1 := h.foldl fun _ _ h => h.setCont
  exact .ite h ((ite hm1.parts hm1.toGroup).mirDirty)

theorem setSeat {q s} (h : Stores m x) : Stores m (x.setSeat q s) := h.parts

theorem snoopLine {q line} (h : Stores m x) : Stores m (x.snoopLine q line) := by
  unfold Mach.snoopLine
  refine h.foldl fun y b hy => ?_
  extract_lets x1
  have hx1 : Stores m x1 := by
    unfold x1
    split
    · exact hy.writeLine
    · exact hy
  exact .ite hy (.ite hx1 hx1.setSeat)

theorem put {a c} (h : Stores m x) : Stores m (x.put a c) := h.snoopLine.setCont.toGroup.mirDirty

theorem ledgerPut {a c} (h : Stores m x) : Stores m (x.ledgerPut a c) := .ite h h.snoopLine.setCont.toGroup

theorem rollWrite {off ws} (h : Stores m x) : Stores m (x.rollWrite off ws) := by
  induction ws generalizing x off with
  | nil => exact h
  | cons w ws ih => exact ih h.ledgerPut

theorem ringWrite {t off ws} (h : Stores m x) : Stores m (x.ringWrite t off ws) := by
  induction ws generalizing x off with
  | nil => exact h
  | cons w ws ih => exact ih h.ledgerPut

include m

theorem regs (h : Stores m n) : n.regs = m.regs := by obtain ⟨_, _, _, _, _, rfl⟩ := h.rest; rfl
theorem ledger (h : Stores m n) : n.ledger = m.ledger := by obtain ⟨_, _, _, _, _, rfl⟩ := h.rest; rfl
theorem reg (h : Stores m n) (a : Nat) : n.reg a = m.reg a := by obtain ⟨_, _, _, _, _, rfl⟩ := h.rest; rfl
theorem bit (h : Stores m n) (a : Nat) (f : Fld) : n.bit a f = m.bit a f := by obtain ⟨_, _, _, _, _, rfl⟩ := h.rest; rfl
theorem fld (h : Stores m n) (a : Nat) (f : Fld) : n.fld a f = m.fld a f := by obtain ⟨_, _, _, _, _, rfl⟩ := h.rest; rfl
theorem eff (h : Stores m n) (a : Nat) : n.eff a = m.eff a := by obtain ⟨_, _, _, _, _, rfl⟩ := h.rest; rfl
theorem sealing (h : Stores m n) : n.sealing = m.sealing := by obtain ⟨_, _, _, _, _, rfl⟩ := h.rest; rfl
theorem now (h : Stores m n) : n.now = m.now := by obtain ⟨_, _, _, _, _, rfl⟩ := h.rest; rfl

end Stores

/-! ### The seal engine's parts -/

variable {m : Mach} {w : Who}

theorem appendRecord_leaves (m : Mach) (ws : List Word) :
    let size := max 1 m.rollWords
    let head := (m.reg Reg.sealHead).toNat
    let n := m.appendRecord ws
    n.reg Reg.sealHead = w48 (((head + padNeed m.rollWords head 800) % size + 800) % size) ∧
      n.reg Reg.sealLastv = ws.getD 1 0 ∧ n.reg Reg.sealLastno = ws.getD 5 0 := by
  intro size head n
  refine ⟨?_, ?_, ?_⟩
  · exact (reg_setReg_of_ne _ _ (by decide)).trans ((reg_setReg_of_ne _ _ (by decide)).trans (reg_setReg_self _ _))
  · exact (reg_setReg_of_ne _ _ (by decide)).trans (reg_setReg_self _ _)
  · unfold n Mach.appendRecord
    extract_lets _ _ _ m1 _ m2 m3 _
    change m3.reg Reg.sealLastno = _
    exact reg_setReg_self _ _

theorem startSign_leaves (m : Mach) : m.startSign.sealing.queue = m.sealing.queue ∧ ∀ a, m.startSign.reg a = m.reg a := by
  unfold Mach.startSign
  split
  · exact ⟨rfl, fun _ => rfl⟩
  · exact ⟨rfl, fun _ => rfl⟩

theorem sendSeals_leaves (k : Nat) (m : Mach) :
    (Mach.sendSeals k m).sealing.queue = m.sealing.queue ∧ ∀ a, (Mach.sendSeals k m).reg a = m.reg a := by
  induction k generalizing m with
  | zero => exact ⟨rfl, fun _ => rfl⟩
  | succ k ih =>
    rw [Mach.sendSeals]
    split
    · exact ⟨rfl, fun _ => rfl⟩
    next u us _ =>
      split
      · extract_lets size off m1
        have sent : m1.sealing.queue = m.sealing.queue ∧ ∀ a, m1.reg a = m.reg a := by
          unfold m1 Mach.twinSend
          split
          · exact ⟨rfl, fun _ => rfl⟩
          · exact ⟨rfl, fun _ => rfl⟩
        obtain ⟨queue, regs⟩ := ih { m1 with sealing := { m1.sealing with unsent := us } }
        exact ⟨queue.trans sent.1, fun a => (regs a).trans (sent.2 a)⟩
      · exact ⟨rfl, fun _ => rfl⟩

namespace Signals

variable {L : List Nat} {x : Mach}

theorem sealAlarm {f b} (h : Signals L m x) (listed : Reg.sealStat ∈ L) : Signals L m (x.sealAlarm f b) := h.alarmReg listed

theorem refreshRun (h : Signals L m x) (listed : Reg.sealStat ∈ L) (acc : Reg.accStat ∈ L) : Signals L m x.refreshRun :=
  (h.setFld acc).setFld listed

/-- The roll and the queue shown, the queue not full. -/
theorem refreshSeal (h : Signals L m x) (listed : Reg.sealStat ∈ L) (acc : Reg.accStat ∈ L) (room : x.sealing.queue.length < 1024) :
    Signals L m x.refreshSeal := by
  unfold Mach.refreshSeal
  extract_lets n m1 m2 full m3
  have notFull : ¬ full := by
    unfold full
    split <;> omega
  rw [if_neg notFull]
  exact (((h.sealAlarm listed).sealAlarm listed).sealAlarm listed).refreshRun listed acc

end Signals

namespace Turns

variable {x : Mach}

theorem sealAlarm {f b} (h : Turns m x) : Turns m (x.sealAlarm f b) := h.signals (.sealAlarm (.refl _ x) (by decide))

theorem refreshSeal (h : Turns m x) : Turns m x.refreshSeal := by
  unfold Mach.refreshSeal
  extract_lets n m1 m2 full m3
  have h3 : Turns m m3 := h.sealAlarm.sealAlarm.sealAlarm
  exact (Turns.ite h3.fence h3).refreshRun

end Turns

/-! ### A record appended -/

theorem sealAppend_appends {r : RootVol} {q : List RootVol} {d : Nat} (queue : m.sealing.queue = r :: q)
    (signed : m.sealing.signDone = some d) (due : d ≤ m.now) (serve : m.serving = true) (going : m.sealPaused = false)
    (room : 1600 ≤ m.rollWords - m.rollUsed) (short : q.length < 1024) :
    let size := m.rollWords
    let head := (m.reg Reg.sealHead).toNat
    let n := m.sealAppend
    n.reg Reg.sealLastno = w48 ((m.reg Reg.sealLastno).toNat + 1) ∧ n.reg Reg.sealLastv = w48 r.volume ∧
      n.reg Reg.sealHead = w48 (((head + padNeed size head 800) % size + 800) % size) ∧ n.sealing.queue = q := by
  intro size head n
  have sized : max 1 m.rollWords = size := Nat.max_eq_right (by omega)
  have waits : (m.now < d || !m.serving || m.sealPaused || m.rollWords - m.rollUsed < 1600) = false := by
    simp [serve, going]
    omega
  obtain ⟨sig, u, e⟩ : ∃ (sig : List Word) (u : SealRec),
      let ws := sealWords r m.epoch (m.reg Reg.sealKeyid) ((m.reg Reg.sealLastno).toNat + 1)
        (if (m.reg Reg.sealLastno).toNat + 1 = 1 then 0 else m.sealing.prev) (volumeRoot r.volume r.mask r.roots)
      let m1 := m.draw.2.appendRecord (ws ++ sig)
      n = Mach.sendSeals 1100 (Mach.startSign { m1 with sealing := { m1.sealing with
        queue := q, signDone := none, unsent := m1.sealing.unsent ++ [u] } }).refreshSeal := by
    unfold n Mach.sealAppend
    rw [queue, signed]
    dsimp only
    rw [waits]
    exact ⟨_, _, rfl⟩
  extract_lets ws m1 at e
  generalize hm2 : ({ m1 with sealing := { m1.sealing with
    queue := q, signDone := none, unsent := m1.sealing.unsent ++ [u] } } : Mach) = m2 at e
  obtain ⟨started, kept⟩ := startSign_leaves m2
  have queue2 : m2.startSign.sealing.queue = q := by rw [started, ← hm2]
  have shown : Signals [Reg.sealStat, Reg.accStat] m2.startSign m2.startSign.refreshSeal :=
    .refreshSeal (.refl _ _) (by decide) (by decide) (by rw [queue2]; exact short)
  obtain ⟨sentQueue, sentRegs⟩ := sendSeals_leaves 1100 m2.startSign.refreshSeal
  have same : ∀ a, a < 0x320000 → a ∉ [Reg.sealStat, Reg.accStat] → n.reg a = m1.reg a := fun a low out => by
    rw [e, sentRegs, shown.reg a low out, kept, ← hm2]
    rfl
  obtain ⟨hd, lastv, lastno⟩ := appendRecord_leaves m.draw.2 (ws ++ sig)
  refine ⟨?_, ?_, ?_, ?_⟩
  · rw [same _ (by decide) (by decide), lastno]
    rfl
  · rw [same _ (by decide) (by decide), lastv]
    rfl
  · rw [same _ (by decide) (by decide), hd]
    change w48 (((head + padNeed size head 800) % max 1 m.rollWords + 800) % max 1 m.rollWords) = _
    rw [sized]
  · rw [e, sentQueue, shown.sealing, queue2]

/-! ### SEAL_TAIL and SEAL_CTL -/

theorem reg_sealError_self (k : Nat) : (m.sealError k).reg Reg.sealErr = w48 k := reg_setReg_self m _

theorem reg_sealError_of_ne {a : Nat} (k : Nat) (h : a ≠ Reg.sealErr) : (m.sealError k).reg a = m.reg a :=
  reg_setReg_of_ne m _ h.symm

theorem ledger_sealError (k : Nat) : (m.sealError k).ledger = m.ledger := ledger_setReg_plain _ (by decide)

/-- The command leaves a code in SEAL_ERR and nothing else. -/
theorem leaves_sealError {s : State} {f : Mach → Mach} {k : Nat} (e : f s.toMach = s.toMach.sealError k) :
    ∃ n, s.lift f = .next n ∧ n.toMach.reg Reg.sealErr = w48 k ∧ ∀ a, a ≠ Reg.sealErr → n.toMach.reg a = s.toMach.reg a :=
  ⟨_, lift_next e, reg_sealError_self k, fun _ => reg_sealError_of_ne k⟩

/-- The offset a write of SEAL_TAIL names is one at which it may stand (R171). -/
def Mach.sealTailTakes (m : Mach) (off : Nat) : Prop :=
  m.rollWords ≠ 0 ∧ off < m.rollWords ∧
    ∃ e ∈ walkRing (fun o => m.word (m.rollAddr o)) m.rollWords (m.reg Reg.sealHead).toNat m.rollWords (m.reg Reg.sealTail).toNat,
      e.1 = off ∧ (e.2 = 5 ∨ e.2 = 0xE ∨ e.2 = 16)

theorem sealTailTakes_iff {off : Nat} : m.sealTailTakes off ↔ (m.rollWords ≠ 0 && off < m.rollWords &&
    (walkRing (fun o => m.word (m.rollAddr o)) m.rollWords (m.reg Reg.sealHead).toNat m.rollWords
      (m.reg Reg.sealTail).toNat).any fun e => e.1 = off && (e.2 = 5 || e.2 = 0xE || e.2 = 16)) = true := by
  simp [Mach.sealTailTakes, List.any_eq_true, and_assoc, or_assoc]

theorem sealTailSet_taken {v : Word} (open_ : m.ledgerBarred = false) (house : w.house = true)
    (ok : m.sealTailTakes (v.toNat % 2 ^ 32)) :
    let n := m.sealTailSet w v
    n.reg Reg.sealTail = w48 (v.toNat % 2 ^ 32) ∧ n.reg Reg.sealErr = 0 := by
  intro n
  have e : n = ((((m.setReg Reg.sealTail (w48 (v.toNat % 2 ^ 32))).sealError 0).refreshSeal).startSign) := by
    simp only [n, Mach.sealTailSet, house, open_, Bool.not_true, Bool.false_eq_true, reduceIte]
    exact if_pos (sealTailTakes_iff.mp ok)
  rw [e]
  have shown := Turns.refreshSeal (.refl ((m.setReg Reg.sealTail (w48 (v.toNat % 2 ^ 32))).sealError 0))
  refine ⟨?_, ?_⟩
  · rw [(startSign_leaves _).2, shown.reg (by decide) (by decide), reg_sealError_of_ne _ (by decide), reg_setReg_self]
  · rw [(startSign_leaves _).2, shown.reg (by decide) (by decide), reg_sealError_self]
    rfl

theorem sealTailSet_refused {v : Word} (open_ : m.ledgerBarred = false) (house : w.house = true)
    (bad : ¬ m.sealTailTakes (v.toNat % 2 ^ 32)) : m.sealTailSet w v = m.sealError 1 := by
  simp only [Mach.sealTailSet, house, open_, Bool.not_true, Bool.false_eq_true, reduceIte]
  exact if_neg (mt sealTailTakes_iff.mpr bad)

/-- A field outside the bits a ledger write may change stands. -/
theorem fget_merge_apart {old v mask : Word} {f : Fld} (apart : fmask f &&& mask = 0) :
    fget ((old &&& ~~~ mask) ||| (v &&& mask)) f = fget old f := by
  refine Nat.eq_of_testBit_eq fun i => ?_
  rw [testBit_fget, testBit_fget]
  by_cases inField : i < fldWidth f
  · by_cases inWord : f.lo + i < 48
    · have covered := congrArg (fun x : Word => x.getLsbD (f.lo + i)) apart
      simp only [fmask, BitVec.getLsbD_and, BitVec.getLsbD_ofNat, Nat.testBit_shiftLeft, Nat.testBit_two_pow_sub_one] at covered
      simp [inWord, inField] at covered
      simp [covered, inWord]
    · simp [BitVec.getLsbD_of_ge _ _ (Nat.le_of_not_lt inWord)]
  · simp [inField]

theorem sealCtlSet_enables {v : Word} (open_ : m.ledgerBarred = false) (sr : w.sr = true)
    (ringed : fbit v F.sealCtlEn = false ∨ m.reg Reg.sealRsize ≠ 0) :
    let n := m.sealCtlSet w 0 v
    n.reg Reg.sealErr = 0 ∧ n.bit Reg.sealCtl F.sealCtlEn = fbit v F.sealCtlEn ∧
      n.fld Reg.sealCtl F.sealCtlKey = fget v F.sealCtlKey ∧ n.ledger.eff = m.ledger.eff ∧
      n.ledger.pend = m.ledger.pend ++ [.reg Reg.sealCtl (fmask F.sealCtlEn) v] := by
  intro n
  have e : n = ((m.setFld Reg.sealCtl F.sealCtlKey (fget v F.sealCtlKey)).ledgerWrite Reg.sealCtl (fmask F.sealCtlEn) v).sealError 0 := by
    simp only [n, Mach.sealCtlSet, sr, open_, Bool.not_true, Bool.false_eq_true, reduceIte]
    refine if_neg ?_
    simp only [Bool.and_eq_true, decide_eq_true_eq]
    rintro ⟨en, empty⟩
    rcases ringed with off | sized
    · rw [off] at en
      cases en
    · exact sized (BitVec.eq_of_toNat_eq empty)
  obtain ⟨regs, led⟩ := ledger_setReg m Reg.sealCtl (fset (m.reg Reg.sealCtl) F.sealCtlKey (fget v F.sealCtlKey))
  rw [e]
  refine ⟨reg_sealError_self 0, ?_, ?_, ?_, ?_⟩
  · rw [Mach.bit, reg_sealError_of_ne _ (by decide), reg_ledgerWrite_self, fbit, fget_merge (by decide), fbit]
  · rw [Mach.fld, reg_sealError_of_ne _ (by decide), reg_ledgerWrite_self, fget_merge_apart (by decide), reg_setFld_self,
      fget_fset_same _ _ (by decide)]
    exact Nat.mod_eq_of_lt (Nat.mod_lt _ (by decide))
  · rw [ledger_sealError, eff_ledgerWrite, Mach.setFld, led]
  · rw [ledger_sealError, pend_ledgerWrite, Mach.setFld, led]

theorem sealCtlSet_unringed {v : Word} (open_ : m.ledgerBarred = false) (sr : w.sr = true) (en : fbit v F.sealCtlEn = true)
    (empty : m.reg Reg.sealRsize = 0) : m.sealCtlSet w 0 v = m.sealError 4 := by
  simp [Mach.sealCtlSet, sr, open_, en, empty]

/-- The roll is off and empty (R176). -/
def Mach.rollIdle (m : Mach) : Prop :=
  m.bit Reg.sealCtl F.sealCtlEn = false ∧ fbit (m.eff Reg.sealCtl) F.sealCtlEn = false ∧ m.rollUsed = 0

theorem rollIdle_iff :
    m.rollIdle ↔ ¬ ((m.bit Reg.sealCtl F.sealCtlEn || fbit (m.eff Reg.sealCtl) F.sealCtlEn || m.rollUsed ≠ 0) = true) := by
  simp [Mach.rollIdle, and_assoc]

theorem sealCtlSet_running {i : Nat} {v : Word} (open_ : m.ledgerBarred = false) (sr : w.sr = true) (place : i ≠ 0)
    (busy : ¬ m.rollIdle) : m.sealCtlSet w i v = m.sealError 2 := by
  simp only [Mach.sealCtlSet, sr, open_, place, Bool.not_true, Bool.false_eq_true, reduceIte]
  exact if_pos (not_not.mp (mt rollIdle_iff.mpr busy))

theorem sealCtlSet_places {i : Nat} {v : Word} (open_ : m.ledgerBarred = false) (sr : w.sr = true) (place : i ≠ 0)
    (idle : m.rollIdle) :
    let base := if i = 1 then v.toNat % 2 ^ 32 / 4096 * 4096 else (m.reg Reg.sealRbase).toNat
    let pages := if i = 1 then (m.reg Reg.sealRsize).toNat else v.toNat % 2 ^ 20
    let n := m.sealCtlSet w i v
    (pages = 0 ∨ 64 ≤ pages) → base + pages * 4096 ≤ memWords → m.rollOverlap base pages = false →
      n.reg Reg.sealErr = 0 ∧ n.ledger.eff = m.ledger.eff ∧ n.ledger.pend.length = m.ledger.pend.length + 1 := by
  intro base pages n sized inMem alone
  have e : ∃ a mask x, n = (m.ledgerWrite a mask x).sealError 0 := by
    have plain : n = if i = 1 then (m.ledgerWrite Reg.sealRbase (w48 0xFFFFF000) (w48 base)).sealError 0
        else (m.ledgerWrite Reg.sealRsize (w48 0xFFFFF) (w48 pages)).sealError 0 := by
      simp only [n, Mach.sealCtlSet, sr, open_, place, Bool.not_true, Bool.false_eq_true, reduceIte]
      rw [if_neg (rollIdle_iff.mp idle), if_neg, if_neg]
      · change ¬ (m.rollOverlap base pages = true)
        rw [alone]
        decide
      · simp only [Bool.or_eq_true, Bool.and_eq_true, decide_eq_true_eq]
        change ¬ ((1 ≤ pages ∧ pages ≤ 63) ∨ memWords < base + pages * 4096)
        omega
    rw [plain]
    split
    · exact ⟨_, _, _, rfl⟩
    · exact ⟨_, _, _, rfl⟩
  obtain ⟨a, mask, x, e⟩ := e
  rw [e, ledger_sealError, eff_ledgerWrite, pend_ledgerWrite, List.length_append]
  exact ⟨reg_sealError_self 0, rfl, rfl⟩

/-- Settles O39. -/
theorem sealEngine : Obligations.SealEngine := by
  intro s w v r q d
  dsimp only
  refine ⟨fun up queue signed due serve going room short => ?_, fun open_ => ⟨fun house ok => ?_, fun house bad => ?_,
    fun sr => ⟨fun ringed => ?_, fun en empty => ?_, fun i place => ⟨fun busy => ?_, fun idle sized inMem alone => ?_⟩⟩⟩,
    fun barred => ⟨fun house => ?_, fun sr i => ?_⟩, fun other => ?_, fun other i => ?_⟩
  · exact ⟨_, (lift_next (if_pos up) : execSealAppend s = _), sealAppend_appends queue signed due serve going room short⟩
  · exact ⟨_, (lift_next rfl : execSealTailWrite w v s = _), sealTailSet_taken open_ house ok⟩
  · exact leaves_sealError (f := fun m => m.sealTailSet w v) (sealTailSet_refused open_ house bad)
  · exact ⟨_, (lift_next rfl : execSealCtlWrite w 0 v s = _), sealCtlSet_enables open_ sr ringed⟩
  · exact leaves_sealError (f := fun m => m.sealCtlSet w 0 v) (sealCtlSet_unringed open_ sr en empty)
  · exact leaves_sealError (f := fun m => m.sealCtlSet w i.val v) (sealCtlSet_running open_ sr (by omega) busy)
  · exact ⟨_, (lift_next rfl : execSealCtlWrite w i v s = _), sealCtlSet_places open_ sr (by omega) idle sized inMem alone⟩
  · exact leaves_sealError (f := fun m => m.sealTailSet w v) (by simp [Mach.sealTailSet, house, barred])
  · exact leaves_sealError (f := fun m => m.sealCtlSet w i.val v) (by simp [Mach.sealCtlSet, sr, barred])
  · exact (lift_next (n := s.toMach) (if_pos (by simp [other])) : execSealTailWrite w v s = _)
  · exact (lift_next (n := s.toMach) (if_pos (by simp [other])) : execSealCtlWrite w i v s = _)

end Sys2Proof.Machine
end

section
/-! PROOFS. Carrel requests (R204 to R206, R214, R342). -/

namespace Sys2Proof.Machine

open Sys2Proof

variable {m : Mach} {w : Who}

/-! ### Reset values of carrel registers -/

theorem carRows_shape : ∀ r ∈ regMapCar, r.s1 = 64 ∧ r.n2 = 1 ∧ r.s2 = 1 ∧
    (r.base % 64 = 0 ∨ r.base % 64 = 7 ∨ r.base % 64 = 8 → r.reset = 0) := by decide

/-- CAR_STAT, CAR_CQHEAD and CAR_CQTAIL read 0 after a reset. -/
theorem resetOf_car {a : Nat} (lo : 0x100000 ≤ a) (hi : a < 0x140000) (k : a % 64 = 0 ∨ a % 64 = 7 ∨ a % 64 = 8) :
    resetOf a = 0 := by
  have row : ∀ r, regRow? a = some r → r.reset = 0 := by
    intro r found
    have block : blockRows a = regMapCar := by
      unfold blockRows
      iterate 9 rw [if_neg (by omega)]
      rw [if_pos (by omega)]
    rw [regRow?, block] at found
    obtain ⟨s1, n2, s2, zero⟩ := carRows_shape r (List.mem_of_find?_eq_some found)
    have holds := List.find?_some found
    simp only [rowHas, s1, n2, s2, Bool.and_eq_true, decide_eq_true_eq, Nat.div_one] at holds
    obtain ⟨⟨⟨above, _⟩, first⟩, _⟩ := holds
    exact zero (by omega)
  have others : a ≠ Reg.modPart ∧ a ≠ Reg.modSerialHi ∧ a ≠ Reg.modSerialLo ∧ a ≠ Reg.sealKeyid ∧ a ≠ Reg.ucRomid := by
    unfold Reg.modPart Reg.modSerialHi Reg.modSerialLo Reg.sealKeyid Reg.ucRomid
    omega
  obtain ⟨part, hi', lo', key, rom⟩ := others
  rw [resetOf, if_neg part, if_neg hi', if_neg lo', if_neg key, if_neg rom]
  split
  next r found => exact row r found
  · rfl

theorem reg_carRegs (m : Mach) {c a : Nat} (plain : ledgerAddr a = false) :
    (m.carRegs c).reg a = if Reg.carStat c ≤ a ∧ a < Reg.carStat c + 0x40 ∧ a ≠ Reg.carGen c then resetOf a else m.reg a := by
  rw [Mach.reg, plain, Mach.carRegs, Mach.reg, plain]
  simp only [Bool.false_eq_true, reduceIte, tabGet_clear, Bool.and_eq_true, decide_eq_true_eq, and_assoc, ne_eq,
    decide_not, Bool.not_eq_true', decide_eq_false_iff_not]

theorem ledgerAddr_car {a : Nat} (lo : 0x100000 ≤ a) (hi : a < 0x260000) : ledgerAddr a = false := by
  unfold ledgerAddr Reg.sealCtl Reg.sealRsize Reg.sealTail
  simp
  omega

/-! ### Jobs discarded -/

/-- `n` is `m` after jobs were discarded: registers but CAR_DROPPED and CE_BUSY stand, and all beside the jobs, the engines and
their turns. -/
structure Drops (m n : Mach) : Prop where
  rest : ∃ r led jobs replies rawq engines tpass cpass free, n = { m with
    regs := r, ledger := { m.ledger with regs := led }, jobs := jobs, replies := replies, rawq := rawq, engines := engines
    tpass := tpass, cpass := cpass, free := free }
  reg : ∀ a, (∀ c, a ≠ Reg.carDropped c) → (∀ e, a ≠ Reg.ceBusy e) → n.reg a = m.reg a

namespace Drops

variable {x n o : Mach}

theorem refl (m : Mach) : Drops m m :=
  ⟨⟨m.regs, m.ledger.regs, m.jobs, m.replies, m.rawq, m.engines, m.tpass, m.cpass, m.free, rfl⟩, fun _ _ _ => rfl⟩

theorem trans (h : Drops m n) (g : Drops n o) : Drops m o := by
  obtain ⟨_, _, _, _, _, _, _, _, _, rfl⟩ := h.rest
  obtain ⟨_, _, _, _, _, _, _, _, _, rfl⟩ := g.rest
  exact ⟨⟨_, _, _, _, _, _, _, _, _, rfl⟩, fun a d b => (g.reg a d b).trans (h.reg a d b)⟩

theorem parts {jobs replies rawq engines tpass cpass free} (h : Drops m x) : Drops m { x with
    jobs := jobs, replies := replies, rawq := rawq, engines := engines, tpass := tpass, cpass := cpass, free := free } :=
  h.trans ⟨⟨x.regs, x.ledger.regs, jobs, replies, rawq, engines, tpass, cpass, free, rfl⟩, fun _ _ _ => rfl⟩

theorem count {a k} (h : Drops m x) (may : (∃ c, a = Reg.carDropped c) ∨ ∃ e, a = Reg.ceBusy e) : Drops m (x.count a k) := by
  refine h.trans ⟨?_, fun b dropped busy => reg_setReg_of_ne x _ fun e => ?_⟩
  · unfold Mach.count Mach.setReg
    split
    · exact ⟨x.regs, _, x.jobs, x.replies, x.rawq, x.engines, x.tpass, x.cpass, x.free, rfl⟩
    · exact ⟨_, x.ledger.regs, x.jobs, x.replies, x.rawq, x.engines, x.tpass, x.cpass, x.free, rfl⟩
  · rcases may with ⟨c, d⟩ | ⟨c, d⟩
    · exact dropped c (e ▸ d)
    · exact busy c (e ▸ d)

theorem leaveEngine {e j} (h : Drops m x) : Drops m (x.leaveEngine e j) := by
  unfold Mach.leaveEngine
  split
  · rename_i u m1 drawn
    have e1 : m1 = { x with free := x.free + 1 } := (congrArg Prod.snd drawn).symm
    subst e1
    have h1 : Drops m { x with free := x.free + 1 } := h.parts
    exact parts (count h1.parts (.inr ⟨e, rfl⟩))

theorem offEngine {c j} (h : Drops m x) : Drops m (x.offEngine c j) := by
  unfold Mach.offEngine
  split
  · exact h.leaveEngine
  · exact h

theorem freeJob {c} (h : Drops m x) : Drops m (x.freeJob c) := parts (h.parts (jobs := (x.delJob c).jobs))

theorem dropJob {c} (h : Drops m x) : Drops m (x.dropJob c) := by
  unfold Mach.dropJob
  split
  · exact h
  · exact h.offEngine.freeJob.count (.inl ⟨_, rfl⟩)

theorem dropAll {l : List Nat} (h : Drops m x) : Drops m (l.foldl Mach.dropJob x) := by
  induction l generalizing x with
  | nil => exact h
  | cons c l ih => exact ih h.dropJob

include m

theorem mem (h : Drops m n) : n.mem = m.mem := by obtain ⟨_, _, _, _, _, _, _, _, _, rfl⟩ := h.rest; rfl
theorem now (h : Drops m n) : n.now = m.now := by obtain ⟨_, _, _, _, _, _, _, _, _, rfl⟩ := h.rest; rfl
theorem carResets (h : Drops m n) : n.carResets = m.carResets := by obtain ⟨_, _, _, _, _, _, _, _, _, rfl⟩ := h.rest; rfl
theorem carDeletes (h : Drops m n) : n.carDeletes = m.carDeletes := by obtain ⟨_, _, _, _, _, _, _, _, _, rfl⟩ := h.rest; rfl
theorem tenResets (h : Drops m n) : n.tenResets = m.tenResets := by obtain ⟨_, _, _, _, _, _, _, _, _, rfl⟩ := h.rest; rfl

theorem carReg (h : Drops m n) {a : Nat} (hi : a < 0x140000) (k : a % 64 ≠ 14) : n.reg a = m.reg a :=
  h.reg a (fun c e => k (by rw [e, Reg.carDropped]; omega)) (fun c e => by rw [e, Reg.ceBusy] at hi; omega)

end Drops

theorem tabErase_absent {α : Type} {k : Nat} {t : List (Nat × α)} (none_ : tfind t k = none) : tabErase k t = t := by
  have absent : ∀ y ∈ t, y.1 ≠ k := by
    intro y listed e
    rw [tfind, Option.map_eq_none_iff, List.find?_eq_none] at none_
    exact none_ y listed (by simp [e])
  exact List.filter_eq_self.mpr fun y listed => by simp [absent y listed]

theorem jobs_offEngine (m : Mach) (x : Nat) (j : Job) : (m.offEngine x j).jobs = m.jobs := by
  unfold Mach.offEngine
  split
  · simp [Mach.leaveEngine, Mach.draw, Mach.count, Mach.setEngine]
  · rfl

theorem jobs_dropJob (m : Mach) (x : Nat) : (m.dropJob x).jobs = tabErase x m.jobs := by
  unfold Mach.dropJob
  split
  next none_ => exact (tabErase_absent none_).symm
  next j _ =>
    rw [Mach.count, Mach.setReg_jobs]
    change tabErase x (m.offEngine x j).jobs = _
    rw [jobs_offEngine]

theorem mem_jobs_dropAll {l : List Nat} {y : Nat × Job} (left : y ∈ (l.foldl Mach.dropJob m).jobs) : y ∈ m.jobs ∧ y.1 ∉ l := by
  induction l generalizing m with
  | nil => exact ⟨left, List.not_mem_nil⟩
  | cons x l ih =>
    obtain ⟨there, out⟩ := ih left
    rw [jobs_dropJob, tabErase, List.mem_filter] at there
    obtain ⟨was, other⟩ := there
    exact ⟨was, by simpa [out] using other⟩

/-! ### A carrel reset -/

theorem tfind_insert_self {α : Type} (k : Nat) (v : α) (t : List (Nat × α)) : tfind (tabInsert k v t) k = some v := by
  rw [tfind_insert, if_pos rfl]

theorem carStat_ne_carGen (c d : Nat) : Reg.carStat c ≠ Reg.carGen d := by unfold Reg.carStat Reg.carGen; omega

/-- The registers a carrel reset writes at once: the generation one higher, the state RESETTING and CQERR clear (R213). -/
def Mach.resetting (m : Mach) (c : Nat) : Mach :=
  ((m.setReg (Reg.carGen c) (w48 ((m.carGen c + 1) % 65536))).setFld (Reg.carStat c) F.carStatState 2).setFld (Reg.carStat c)
    F.carStatCqerr 0

theorem startCarReset_ready {c : Nat} (ready : m.carState c = 1) :
    let gone := ((m.resetting c).jobs.filter fun j => j.2.carrel = c && j.2.st ≠ .running).map Prod.fst
    let x := gone.foldl Mach.dropJob (m.resetting c)
    m.startCarReset c = { x with carResets := tabInsert c m.now x.carResets } :=
  if_neg (by simp [ready])

theorem startCarReset_goesOn {c : Nat} (busy : m.carState c ≠ 1) : m.startCarReset c = m := if_pos busy

theorem resetting_shows (m : Mach) (c : Nat) :
    (m.resetting c).carState c = 2 ∧ (m.resetting c).carGen c = (m.carGen c + 1) % 65536 ∧
      (m.resetting c).bit (Reg.carStat c) F.carStatCqerr = false ∧ (m.resetting c).carTen c = m.carTen c := by
  refine ⟨?_, ?_, ?_, ?_⟩
  · exact (fld_setFld_apart _ _ (by decide) (by decide)).trans (fld_setFld_same _ _ (by decide))
  · rw [Mach.carGen, Mach.resetting, reg_setFld_of_ne _ _ (carStat_ne_carGen c c), reg_setFld_of_ne _ _ (carStat_ne_carGen c c),
      reg_setReg_self, w48, BitVec.toNat_ofNat, Nat.mod_mod_of_dvd _ (by decide), Nat.mod_mod]
  · exact bit_setFld_same _ _ (by decide) rfl
  · exact (fld_setFld_apart _ _ (by decide) (by decide)).trans ((fld_setFld_apart _ _ (by decide) (by decide)).trans
      (fld_setReg_of_ne _ _ (carStat_ne_carGen c c).symm))

theorem reg_resetting_of_ne {a c : Nat} (gen : a ≠ Reg.carGen c) (stat : a ≠ Reg.carStat c) : (m.resetting c).reg a = m.reg a := by
  rw [Mach.resetting, reg_setFld_of_ne _ _ stat.symm, reg_setFld_of_ne _ _ stat.symm, reg_setReg_of_ne _ _ gen.symm]

theorem resetting_stands (m : Mach) (c : Nat) : (m.resetting c).mem = m.mem ∧ (m.resetting c).jobs = m.jobs ∧
    (m.resetting c).carDeletes = m.carDeletes ∧ (m.resetting c).carResets = m.carResets ∧
      (m.resetting c).tenResets = m.tenResets := by
  simp [Mach.resetting, Mach.setFld]

/-- What the start of a carrel reset leaves. -/
structure CarReset (c : Nat) (m n : Mach) : Prop where
  state : n.carState c = 2
  gen : n.carGen c = (m.carGen c + 1) % 65536
  cqerr : n.bit (Reg.carStat c) F.carStatCqerr = false
  jobs : ∀ y ∈ n.jobs, y.2.carrel = c → y.2.st = .running
  since : tfind n.carResets c = some m.now
  mem : n.mem = m.mem
  deletes : n.carDeletes = m.carDeletes
  tenResets : n.tenResets = m.tenResets
  reg : ∀ a, a < 0x140000 → a % 64 ≠ 14 → a ≠ Reg.carGen c → a ≠ Reg.carStat c → n.reg a = m.reg a

theorem carReset_of_start {c : Nat} (small : c < 4096) (ready : m.carState c = 1) : CarReset c m (m.startCarReset c) := by
  rw [startCarReset_ready ready]
  generalize hg : ((m.resetting c).jobs.filter fun j => j.2.carrel = c && j.2.st ≠ .running).map Prod.fst = gone
  have drops : Drops (m.resetting c) (gone.foldl Mach.dropJob (m.resetting c)) := .dropAll (.refl _)
  obtain ⟨mem, jobs, deletes, resets, tens⟩ := resetting_stands m c
  obtain ⟨state, gen, cqerr, _⟩ := resetting_shows m c
  have stat : (gone.foldl Mach.dropJob (m.resetting c)).reg (Reg.carStat c) = (m.resetting c).reg (Reg.carStat c) :=
    drops.carReg (by unfold Reg.carStat; omega) (by unfold Reg.carStat; omega)
  have genReg : (gone.foldl Mach.dropJob (m.resetting c)).reg (Reg.carGen c) = (m.resetting c).reg (Reg.carGen c) :=
    drops.carReg (by unfold Reg.carGen; omega) (by unfold Reg.carGen; omega)
  refine ⟨(fld_congr stat _).trans state, ?_, ?_, fun y left ofC => ?_, tfind_insert_self _ _ _, drops.mem.trans mem,
    drops.carDeletes.trans deletes, drops.tenResets.trans tens, fun a low k notGen notStat => ?_⟩
  · exact (congrArg (fun v : Word => v.toNat % 65536) genReg).trans gen
  · exact (congrArg (fbit · F.carStatCqerr) stat).trans cqerr
  · obtain ⟨there, out⟩ := mem_jobs_dropAll left
    by_contra idle
    refine out (hg ▸ List.mem_map.mpr ⟨y, List.mem_filter.mpr ⟨there, ?_⟩, rfl⟩)
    simp [ofC, idle]
  · exact (drops.carReg low k).trans (reg_resetting_of_ne notGen notStat)

/-! ### TEN_CARREQ -/

variable {t : Nat}

/-- A status is given and nothing else. -/
def Answered (t status : Nat) (m n : Mach) : Prop :=
  n.fld (Reg.tenCarres t) F.tenCarresStatus = status ∧ n.mem = m.mem ∧ n.jobs = m.jobs ∧
    ∀ a, a ≠ Reg.tenCarres t → n.reg a = m.reg a

theorem answered_setFld {status : Nat} (small : status < 16) :
    Answered t status m (m.setFld (Reg.tenCarres t) F.tenCarresStatus status) :=
  ⟨(fld_setFld_same _ _ (by decide)).trans (Nat.mod_eq_of_lt small), by simp [Mach.setFld], by simp [Mach.setFld],
    fun _ other => reg_setFld_of_ne _ _ other.symm⟩

/-- The carrels of a tenant. -/
def Mach.carsOf (m : Mach) (k : Nat) : List Nat := m.usedCars.filter fun y => m.carTen y = k

theorem createCarrel_pid {sr : Bool} {pid : Nat}
    (dup : ∃ y ∈ m.carsOf (if sr then 0 else t), m.fld (Reg.carStat y) F.carStatPid = pid) :
    m.createCarrel sr t pid = m.setFld (Reg.tenCarres t) F.tenCarresStatus 3 := by
  obtain ⟨y, mine, e⟩ := dup
  obtain ⟨used, ten⟩ := List.mem_filter.mp mine
  exact if_pos (List.any_eq_true.mpr ⟨y, used, by simpa [e] using ten⟩)

/-- Past the check of the PID. -/
theorem createCarrel_newPid {sr : Bool} {pid : Nat}
    (fresh : ∀ y ∈ m.carsOf (if sr then 0 else t), m.fld (Reg.carStat y) F.carStatPid ≠ pid) :
    (m.usedCars.any fun c => m.carTen c = (if sr then 0 else t) && m.fld (Reg.carStat c) F.carStatPid = pid) = false := by
  rw [List.any_eq_false]
  intro y used both
  obtain ⟨ten, e⟩ := Bool.and_eq_true_iff.mp both
  exact fresh y (List.mem_filter.mpr ⟨used, ten⟩) (of_decide_eq_true e)

theorem createCarrel_most {sr : Bool} {pid : Nat}
    (fresh : ∀ y ∈ m.carsOf (if sr then 0 else t), m.fld (Reg.carStat y) F.carStatPid ≠ pid)
    (most : (m.reg (Reg.tenCarmax (if sr then 0 else t))).toNat % 8192 ≤ (m.carsOf (if sr then 0 else t)).length) :
    m.createCarrel sr t pid = m.setFld (Reg.tenCarres t) F.tenCarresStatus 2 := by
  have dup := createCarrel_newPid fresh
  unfold Mach.createCarrel
  extract_lets k used
  rw [if_neg (by rw [dup]; decide)]
  exact if_pos most

/-- Past the checks of the PID and of the tenant's number of carrels, no entry free. -/
theorem createCarrel_none {sr : Bool} {pid : Nat}
    (fresh : ∀ y ∈ m.carsOf (if sr then 0 else t), m.fld (Reg.carStat y) F.carStatPid ≠ pid)
    (room : (m.carsOf (if sr then 0 else t)).length < (m.reg (Reg.tenCarmax (if sr then 0 else t))).toNat % 8192)
    (found : (findLt 4096 fun c => !m.usedCars.contains c) = none) :
    m.createCarrel sr t pid = m.setFld (Reg.tenCarres t) F.tenCarresStatus 1 := by
  have dup := createCarrel_newPid fresh
  have few := Nat.not_le.mpr room
  unfold Mach.carsOf at few
  unfold Mach.createCarrel
  rw [if_neg (by rw [dup]; decide)]
  rw [if_neg few]
  rw [found]

/-- Past the checks of the PID and of the tenant's number of carrels, the lowest free entry found. -/
theorem createCarrel_some {sr : Bool} {pid c : Nat}
    (fresh : ∀ y ∈ m.carsOf (if sr then 0 else t), m.fld (Reg.carStat y) F.carStatPid ≠ pid)
    (room : (m.carsOf (if sr then 0 else t)).length < (m.reg (Reg.tenCarmax (if sr then 0 else t))).toNat % 8192)
    (found : (findLt 4096 fun c => !m.usedCars.contains c) = some c) :
    let k := if sr then 0 else t
    m.createCarrel sr t pid =
      if !m.bit (Reg.tenCtl k) F.tenCtlEn || tmem m.tenResets k then m.setFld (Reg.tenCarres t) F.tenCarresStatus 5
      else
        let m1 := (m.carRegs c).setReg (Reg.carGen c) (w48 ((m.carGen c + 1) % 65536))
        let st := fset (fset (fset 0 F.carStatState 1) F.carStatTenant k) F.carStatPid pid
        let m2 := (m1.setReg (Reg.carStat c) st).carAnswer t 0 c
        if sr then { m2 with srCarrels := setIns c m2.srCarrels } else m2 := by
  intro k
  have dup := createCarrel_newPid fresh
  have few := Nat.not_le.mpr room
  unfold Mach.carsOf at few
  unfold Mach.createCarrel
  rw [if_neg (by rw [dup]; decide)]
  rw [if_neg few]
  rw [found]

/-- The lowest free entry. -/
def Mach.lowestFree (m : Mach) (y : Nat) : Prop := y < 4096 ∧ y ∉ m.usedCars ∧ ∀ z, z < y → z ∈ m.usedCars

theorem findLt_lowestFree {y : Nat} (free : m.lowestFree y) : (findLt 4096 fun c => !m.usedCars.contains c) = some y := by
  obtain ⟨small, out, lower⟩ := free
  rw [findLt, List.find?_range_eq_some]
  refine ⟨by simpa using out, List.mem_range.mpr small, fun z below => ?_⟩
  simpa using lower z below

theorem findLt_none {n : Nat} {p : Nat → Bool} (no : ∀ y, y < n → p y = false) : findLt n p = none :=
  List.find?_eq_none.mpr fun y listed => by simp [no y (List.mem_range.mp listed)]

theorem findLt_allUsed (all : ∀ y, y < 4096 → y ∈ m.usedCars) : (findLt 4096 fun c => !m.usedCars.contains c) = none :=
  findLt_none fun y small => by rw [List.contains_iff_mem.mpr (all y small), Bool.not_true]

theorem tenCarres_low (small : t < 16) : Reg.tenCarres t < 0x100000 := by
  unfold Reg.tenCarres
  omega

theorem mem_setIns_self (k : Nat) (l : List Nat) : k ∈ setIns k l := by
  induction l with
  | nil => exact List.mem_singleton_self k
  | cons a l ih =>
    rw [setIns]
    split
    · exact List.mem_cons_self
    · split
      next e => exact e ▸ List.mem_cons_self
      · exact List.mem_cons_of_mem a ih

/-- A carrel created in entry `y` (R204). -/
theorem createCarrel_taken {sr : Bool} {pid y : Nat} (small : t < 16) (narrow : pid < 2 ^ 24)
    (fresh : ∀ y ∈ m.carsOf (if sr then 0 else t), m.fld (Reg.carStat y) F.carStatPid ≠ pid)
    (room : (m.carsOf (if sr then 0 else t)).length < (m.reg (Reg.tenCarmax (if sr then 0 else t))).toNat % 8192)
    (en : m.bit (Reg.tenCtl (if sr then 0 else t)) F.tenCtlEn = true) (quiet : tmem m.tenResets (if sr then 0 else t) = false)
    (free : m.lowestFree y) :
    let n := m.createCarrel sr t pid
    n.carState y = 1 ∧ n.carTen y = (if sr then 0 else t) ∧ n.fld (Reg.carStat y) F.carStatPid = pid ∧
      n.carGen y = (m.carGen y + 1) % 65536 ∧ n.reg (Reg.carCqhead y) = 0 ∧ n.reg (Reg.carCqtail y) = 0 ∧
      n.reg (Reg.tenCarres t) = w48 y ∧ n.mem = m.mem ∧ (sr = true → y ∈ n.srCarrels) ∧
      (sr = false → n.srCarrels = m.srCarrels) := by
  intro n
  obtain ⟨y_small, _, _⟩ := id free
  let k := if sr then 0 else t
  have k_small : k < 16 := by unfold k; split <;> omega
  let st := fset (fset (fset 0 F.carStatState 1) F.carStatTenant k) F.carStatPid pid
  let x := ((m.carRegs y).setReg (Reg.carGen y) (w48 ((m.carGen y + 1) % 65536))).setReg (Reg.carStat y) st
  let m2 := x.carAnswer t 0 y
  have e : n = if sr then { m2 with srCarrels := setIns y m2.srCarrels } else m2 := by
    have e1 := createCarrel_some fresh room (findLt_lowestFree free)
    dsimp only at e1
    rw [en, quiet] at e1
    exact e1
  have low := tenCarres_low small
  have shows : ∀ a, 0x100000 ≤ a → n.reg a = x.reg a := by
    intro a above
    have e1 : m2.reg a = x.reg a := reg_setReg_of_ne x _ (by omega)
    rw [e, ← e1]
    split
    · rfl
    · rfl
  have stat : n.reg (Reg.carStat y) = st := by
    rw [shows _ (by unfold Reg.carStat; omega), reg_setReg_self]
  have other : ∀ j, 0 < j → j < 64 → j ≠ 9 → n.reg (0x100000 + 0x40 * y + j) = resetOf (0x100000 + 0x40 * y + j) := by
    intro j pos narrow notGen
    rw [shows _ (by omega), reg_setReg_of_ne _ _ (by unfold Reg.carStat; omega), reg_setReg_of_ne _ _ (by unfold Reg.carGen; omega),
      reg_carRegs m (ledgerAddr_car (by omega) (by omega)), if_pos (by unfold Reg.carStat Reg.carGen; omega)]
  refine ⟨?_, ?_, ?_, ?_, ?_, ?_, ?_, ?_, ?_, ?_⟩
  · rw [Mach.carState, Mach.fld, stat, fget_fset_apart _ _ (by decide) (by decide), fget_fset_apart _ _ (by decide) (by decide),
      fget_fset_same _ _ (by decide)]
    rfl
  · rw [Mach.carTen, Mach.fld, stat, fget_fset_apart _ _ (by decide) (by decide), fget_fset_same _ _ (by decide)]
    exact Nat.mod_eq_of_lt k_small
  · rw [Mach.fld, stat, fget_fset_same _ _ (by decide)]
    exact Nat.mod_eq_of_lt narrow
  · rw [Mach.carGen, shows _ (by unfold Reg.carGen; omega), reg_setReg_of_ne _ _ (carStat_ne_carGen y y), reg_setReg_self, w48, BitVec.toNat_ofNat, Nat.mod_mod_of_dvd _ (by decide),
      Nat.mod_mod]
  · have z := other 7 (by decide) (by decide) (by decide)
    rw [resetOf_car (by omega) (by omega) (by omega)] at z
    rw [← z, Reg.carCqhead]
    congr 1
    omega
  · have z := other 8 (by decide) (by decide) (by decide)
    rw [resetOf_car (by omega) (by omega) (by omega)] at z
    rw [← z, Reg.carCqtail]
    congr 1
    omega
  · have e1 : m2.reg (Reg.tenCarres t) = w48 y := by rw [show m2 = x.carAnswer t 0 y from rfl, Mach.carAnswer, reg_setReg_self,
      Nat.zero_mul, Nat.zero_add]
    rw [e, ← e1]
    split
    · rfl
    · rfl
  · rw [e]
    split
    · simp [m2, x, Mach.carAnswer, Mach.carRegs]
    · simp [m2, x, Mach.carAnswer, Mach.carRegs]
  · intro on
    rw [e, if_pos on]
    exact mem_setIns_self _ _
  · intro off
    rw [e, off]
    simp [m2, x, Mach.carAnswer, Mach.carRegs]

theorem createCarrel_full {sr : Bool} {pid : Nat}
    (fresh : ∀ y ∈ m.carsOf (if sr then 0 else t), m.fld (Reg.carStat y) F.carStatPid ≠ pid)
    (room : (m.carsOf (if sr then 0 else t)).length < (m.reg (Reg.tenCarmax (if sr then 0 else t))).toNat % 8192)
    (all : ∀ y, y < 4096 → y ∈ m.usedCars) :
    m.createCarrel sr t pid = m.setFld (Reg.tenCarres t) F.tenCarresStatus 1 :=
  createCarrel_none fresh room (findLt_allUsed all)

/-- The tenant is not enabled or its reset goes on. -/
theorem createCarrel_off {y : Nat} (free : m.lowestFree y) {sr : Bool} {pid : Nat}
    (fresh : ∀ y ∈ m.carsOf (if sr then 0 else t), m.fld (Reg.carStat y) F.carStatPid ≠ pid)
    (room : (m.carsOf (if sr then 0 else t)).length < (m.reg (Reg.tenCarmax (if sr then 0 else t))).toNat % 8192)
    (off : m.bit (Reg.tenCtl (if sr then 0 else t)) F.tenCtlEn = false ∨ tmem m.tenResets (if sr then 0 else t) = true) :
    m.createCarrel sr t pid = m.setFld (Reg.tenCarres t) F.tenCarresStatus 5 :=
  (createCarrel_some fresh room (findLt_lowestFree free)).trans (if_pos (by rcases off with off | off <;> simp [off]))

/-! ### A delete -/

theorem deleteCarrel_refused {sr : Bool} {c : Nat} (bad : m.carState c = 0 ∨ m.carTen c ≠ t) :
    m.deleteCarrel sr t c = m.setFld (Reg.tenCarres t) F.tenCarresStatus 4 :=
  if_pos (by rcases bad with bad | bad <;> simp [bad])

/-- The tenant shown busy with the deletion of carrel `c`. -/
def Mach.deleting (m : Mach) (t c : Nat) : Mach :=
  let m1 := (m.setFld (Reg.tenCarres t) F.tenCarresBusy 1).setFld (Reg.tenCarres t) F.tenCarresCarrel c
  { m1 with carDeletes := if m1.carDeletes.contains c then m1.carDeletes else m1.carDeletes ++ [c] }

theorem deleteCarrel_starts {sr : Bool} {c : Nat} (held : m.carState c ≠ 0) (own : m.carTen c = t)
    (may : sr = true ∨ m.srCarrels.contains c = false) : m.deleteCarrel sr t c = (m.deleting t c).startCarReset c := by
  refine if_neg ?_
  rcases may with may | may
  · simp [held, own, may]
  · rw [may]
    simp [held, own]

theorem deleting_shows (m : Mach) {c : Nat} (small : t < 16) (narrow : c < 4096) :
    let n := m.deleting t c
    n.bit (Reg.tenCarres t) F.tenCarresBusy = true ∧ n.fld (Reg.tenCarres t) F.tenCarresCarrel = c ∧ c ∈ n.carDeletes ∧
      n.mem = m.mem ∧ ∀ a, 0x100000 ≤ a → n.reg a = m.reg a := by
  intro n
  have low := tenCarres_low small
  refine ⟨?_, ?_, ?_, ?_, fun a above => ?_⟩
  · exact (bit_setFld_apart _ _ (by decide) (by decide)).trans (bit_setFld_same _ _ (by decide) rfl)
  · exact (fld_setFld_same _ _ (by decide)).trans (Nat.mod_eq_of_lt narrow)
  · unfold n Mach.deleting
    dsimp only
    split
    next listed => exact List.contains_iff_mem.mp listed
    · exact List.mem_append_right _ (List.mem_singleton_self c)
  · simp [n, Mach.deleting, Mach.setFld]
  · exact (reg_setFld_of_ne _ _ (by omega)).trans (reg_setFld_of_ne _ _ (by omega))

theorem deleteCarrel_taken {sr : Bool} {c : Nat} (small : t < 16) (narrow : c < 4096)
    (held : m.carState c = 1 ∨ m.carState c = 2) (own : m.carTen c = t) (may : sr = true ∨ m.srCarrels.contains c = false) :
    let n := m.deleteCarrel sr t c
    n.bit (Reg.tenCarres t) F.tenCarresBusy = true ∧ n.fld (Reg.tenCarres t) F.tenCarresCarrel = c ∧ n.carState c = 2 ∧
      c ∈ n.carDeletes ∧ n.mem = m.mem ∧ n.carGen c = if m.carState c = 1 then (m.carGen c + 1) % 65536 else m.carGen c := by
  intro n
  have e : n = (m.deleting t c).startCarReset c := deleteCarrel_starts (by omega) own may
  obtain ⟨busy, named, listed, mem, above⟩ := deleting_shows m small narrow
  have low := tenCarres_low small
  have state : (m.deleting t c).carState c = m.carState c := fld_congr (above _ (by unfold Reg.carStat; omega)) _
  have gen : (m.deleting t c).carGen c = m.carGen c :=
    congrArg (fun v : Word => v.toNat % 65536) (above (Reg.carGen c) (by unfold Reg.carGen; omega))
  rcases held with ready | resets
  · have r := carReset_of_start narrow (state.trans ready)
    rw [← e] at r
    have res : n.reg (Reg.tenCarres t) = (m.deleting t c).reg (Reg.tenCarres t) :=
      r.reg _ (by omega) (by unfold Reg.tenCarres; omega) (by unfold Reg.carGen; omega) (by unfold Reg.carStat; omega)
    refine ⟨(congrArg (fbit · F.tenCarresBusy) res).trans busy, (fld_congr res _).trans named, r.state, r.deletes ▸ listed,
      r.mem.trans mem, ?_⟩
    rw [r.gen, gen, if_pos ready]
  · rw [startCarReset_goesOn (by omega)] at e
    rw [e]
    exact ⟨busy, named, state.trans resets, listed, mem, by rw [gen, if_neg (by omega)]⟩

/-! ### The request -/

/-- A request of a tenant with none in progress. -/
theorem carRequest_taken {v : Word} (own : w.ofTen t = true) (free : m.bit (Reg.tenCarres t) F.tenCarresBusy = false) :
    m.carRequest w t v = if fget v F.tenCarreqOp = 1 then m.createCarrel w.sr t (fget v F.tenCarreqPid)
      else if fget v F.tenCarreqOp = 2 then m.deleteCarrel w.sr t (fget v F.tenCarreqCarrel)
      else m.setFld (Reg.tenCarres t) F.tenCarresStatus 6 :=
  if_neg (by simp [own, free])

theorem carRequest_ignored {v : Word} (no : w.ofTen t = false ∨ m.bit (Reg.tenCarres t) F.tenCarresBusy = true) :
    m.carRequest w t v = m :=
  if_pos (by rcases no with no | no <;> simp [no])

theorem carRequest_create {v : Word} (own : w.ofTen t = true) (free : m.bit (Reg.tenCarres t) F.tenCarresBusy = false) :
    m.carRequest w t (fset v F.tenCarreqOp 1) = m.createCarrel w.sr t (fget v F.tenCarreqPid) := by
  rw [carRequest_taken own free, fget_fset_same _ _ (by decide), fget_fset_apart _ _ (by decide) (by decide)]
  rfl

theorem carRequest_delete {v : Word} (own : w.ofTen t = true) (free : m.bit (Reg.tenCarres t) F.tenCarresBusy = false) :
    m.carRequest w t (fset v F.tenCarreqOp 2) = m.deleteCarrel w.sr t (fget v F.tenCarreqCarrel) := by
  rw [carRequest_taken own free, fget_fset_same _ _ (by decide), if_neg (by decide), if_pos (by decide),
    fget_fset_apart _ _ (by decide) (by decide)]

/-- The value a reserved request writes. -/
def badRequest (v : Word) : Word :=
  if fget v F.tenCarreqOp = 1 || fget v F.tenCarreqOp = 2 then fset v F.tenCarreqOp 0 else v

theorem carRequest_bad {v : Word} (own : w.ofTen t = true) (free : m.bit (Reg.tenCarres t) F.tenCarresBusy = false) :
    m.carRequest w t (badRequest v) = m.setFld (Reg.tenCarres t) F.tenCarresStatus 6 := by
  have op : fget (badRequest v) F.tenCarreqOp ≠ 1 ∧ fget (badRequest v) F.tenCarreqOp ≠ 2 := by
    unfold badRequest
    split
    · rw [fget_fset_same _ _ (by decide)]
      decide
    next other => simpa using other
  rw [carRequest_taken own free, if_neg op.1, if_neg op.2]

theorem fget_lt (v : Word) (f : Fld) : fget v f < 2 ^ fldWidth f := Nat.mod_lt _ (Nat.two_pow_pos _)

/-- Settles O50. -/
theorem carrelRequests : Obligations.CarrelRequests := by
  intro s w k v
  dsimp only
  have small := k.isLt
  have pid : fget v F.tenCarreqPid < 2 ^ 24 := fget_lt v _
  have car : fget v F.tenCarreqCarrel < 4096 := fget_lt v _
  refine ⟨fun own free => ?_, fun no i listed => ?_⟩
  · have create := carRequest_create (v := v) own free
    have delete_ := carRequest_delete (v := v) own free
    refine ⟨fun fresh room en quiet y low => ?_, fun dup => ?_, fun fresh most => ?_,
      fun fresh room => ⟨fun all => ?_, fun some_ off => ?_⟩, fun bad => ?_, fun held mine may => ?_, ?_⟩
    · exact ⟨_, (lift_next create : execCarrelCreate w k v s = _), createCarrel_taken small pid fresh room en quiet low⟩
    · exact ⟨_, (lift_next (create.trans (createCarrel_pid dup)) : execCarrelCreate w k v s = _), answered_setFld (by decide)⟩
    · exact ⟨_, (lift_next (create.trans (createCarrel_most fresh most)) : execCarrelCreate w k v s = _), answered_setFld (by decide)⟩
    · exact ⟨_, (lift_next (create.trans (createCarrel_full fresh room all)) : execCarrelCreate w k v s = _), answered_setFld (by decide)⟩
    · obtain ⟨y, low⟩ := some_
      exact ⟨_, (lift_next (create.trans (createCarrel_off low fresh room off)) : execCarrelCreate w k v s = _), answered_setFld (by decide)⟩
    · exact ⟨_, (lift_next (delete_.trans (deleteCarrel_refused bad)) : execCarrelDelete w k v s = _), answered_setFld (by decide)⟩
    · exact ⟨_, (lift_next delete_ : execCarrelDelete w k v s = _), deleteCarrel_taken small car held mine may⟩
    · exact ⟨_, (lift_next (carRequest_bad own free) : execCarrelBadop w k v s = _), answered_setFld (by decide)⟩
  · have same : ∀ x, s.lift (fun m => m.carRequest w k.val x) = .next s := fun x => lift_next (n := s.toMach) (carRequest_ignored no)
    simp only [List.mem_cons, List.not_mem_nil, or_false] at listed
    rcases listed with rfl | rfl | rfl
    · exact same _
    · exact same _
    · exact same _

end Sys2Proof.Machine
end

section
/-! PROOFS. The memory writes of jobs and their marks (R187, R216, R217), and what coherence does where no unit holds a changed copy
(R289, R291). -/

namespace Sys2Proof.Machine

open Sys2Proof

/-! ### The writes of jobs -/

/-- `n` is `m` after memory writes for a job of tenant `t` and the marks of the pages written: beside what `Stores` lists, only
TEN_STAT and TEN_MPLHEAD of the tenant may differ. -/
structure Marked (t : Nat) (m n : Mach) : Prop where
  rest : ∃ x r, Stores m x ∧ n = { x with regs := r }
  reg : ∀ a, a ≠ Reg.tenStat t → a ≠ Reg.tenMplhead t → n.reg a = m.reg a

namespace Marked

variable {t : Nat} {m x n o : Mach}

theorem refl (t : Nat) (m : Mach) : Marked t m m := ⟨⟨m, m.regs, .refl m, rfl⟩, fun _ _ _ => rfl⟩

theorem trans (h : Marked t m n) (g : Marked t n o) : Marked t m o := by
  refine ⟨?_, fun a stat hd => (g.reg a stat hd).trans (h.reg a stat hd)⟩
  obtain ⟨x, r, hx, rfl⟩ := h.rest
  obtain ⟨y, r', hy, rfl⟩ := g.rest
  obtain ⟨_, _, _, _, _, rfl⟩ := hx.rest
  obtain ⟨_, _, _, _, _, rfl⟩ := hy.rest
  exact ⟨_, r', ⟨⟨_, _, _, _, _, rfl⟩⟩, rfl⟩

theorem ite {p : Prop} [Decidable p] {a b : Mach} (ha : Marked t m a) (hb : Marked t m b) : Marked t m (if p then a else b) := by
  split
  · exact ha
  · exact hb

theorem stores (h : Marked t m x) (g : Stores x n) : Marked t m n :=
  h.trans ⟨⟨n, n.regs, g, rfl⟩, fun a _ _ => g.reg a⟩

theorem ledgerAddr_tenStat (t : Nat) : ledgerAddr (Reg.tenStat t) = false := by
  unfold ledgerAddr Reg.tenStat Reg.sealCtl Reg.sealRsize Reg.sealTail
  simp
  omega

theorem ledgerAddr_tenMplhead (t : Nat) : ledgerAddr (Reg.tenMplhead t) = false := by
  unfold ledgerAddr Reg.tenMplhead Reg.sealCtl Reg.sealRsize Reg.sealTail
  simp
  omega

theorem becomes (h : Marked t m n) (e : n = o) : Marked t m o := e ▸ h

theorem setReg {a v} (h : Marked t m x) (may : a = Reg.tenStat t ∨ a = Reg.tenMplhead t) : Marked t m (x.setReg a v) := by
  refine h.trans ⟨⟨x, tabPut resetOf a v x.regs, .refl x, ?_⟩, fun b stat hd => reg_setReg_of_ne x v fun e => ?_⟩
  · have plain : ledgerAddr a = false := by
      rcases may with rfl | rfl
      · exact ledgerAddr_tenStat t
      · exact ledgerAddr_tenMplhead t
    rw [Mach.setReg, plain]
    rfl
  · rcases may with e' | e'
    · exact stat (e ▸ e')
    · exact hd (e ▸ e')

theorem setFld {a f v} (h : Marked t m x) (may : a = Reg.tenStat t ∨ a = Reg.tenMplhead t) : Marked t m (x.setFld a f v) :=
  h.setReg may

theorem markPut {sr a v} (h : Marked t m x) : Marked t m (x.markPut sr a v).2 := by
  unfold Mach.markPut
  split
  · exact h
  · exact h.stores (.put (.refl x))

theorem logEntry {sr v} (h : Marked t m x) : Marked t m (x.logEntry sr t v).2 := by
  unfold Mach.logEntry
  split
  · exact h
  · split
    · exact h.setFld (.inl rfl)
    · extract_lets hd w
      split
      · rename_i m1 put
        exact h.markPut.becomes (congrArg Prod.snd put)
      · rename_i m1 put
        have hm1 : Marked t m m1 := h.markPut.becomes (congrArg Prod.snd put)
        exact (hm1.setReg (.inr rfl)).setFld (.inl rfl)

theorem markPage {sr v} (h : Marked t m x) : Marked t m (x.markPage sr t v).2 := by
  unfold Mach.markPage
  extract_lets size a old
  split
  · exact h
  · split
    · exact .ite h (h.setFld (.inl rfl))
    · split
      · exact h
      · split
        · exact h
        · split
          · rename_i m1 put
            exact h.markPut.becomes (congrArg Prod.snd put)
          · rename_i m1 put
            have hm1 : Marked t m m1 := h.markPut.becomes (congrArg Prod.snd put)
            exact hm1.logEntry

theorem markAll {sr as} (h : Marked t m x) : Marked t m (x.markAll sr t as).2 := by
  unfold Mach.markAll
  suffices all : ∀ (l : List Nat) (p : Bool × Mach), Marked t m p.2 → Marked t m (l.foldl (fun x v =>
      let r := x.2.markPage sr t v
      (x.1 || r.1, r.2)) p).2 from all _ _ h
  intro l
  induction l with
  | nil => exact fun _ h => h
  | cons v l ih => exact fun p hp => ih _ hp.markPage

end Marked

/-- A job's write never poisons: an open-world job may not reach a marked page, and a strongroom job's write there has tag 0b10. -/
theorem carWrite_puts {m n : Mach} {c : Nat} {sr : Bool} {a : Nat} {v : Word} (done : m.carWrite c sr a v = .ok n) :
    ∃ p, m.carPhys c sr a true = .ok p ∧ n = m.put p (m.carCont c sr p v) := by
  unfold Mach.carWrite at done
  cases found : m.carPhys c sr a true with
  | error e =>
    rw [found] at done
    cases done
  | ok p =>
    rw [found] at done
    injection done with e
    refine ⟨p, rfl, ?_⟩
    have reach : m.engBarred sr p = false := by
      unfold Mach.carPhys at found
      split at found
      · cases found
      · extract_lets k at found
        split at found
        · cases found
        next p' _ barred =>
          have same : p' = p := by
            split at found
            · simpa using found
            · split at found
              · cases found
              · simpa using found
          simp only [Bool.or_eq_true, Bool.and_eq_true, not_or] at barred
          rw [← same]
          exact Bool.not_eq_true _ |>.mp barred.2
    rw [← e]
    refine if_neg fun bad => ?_
    simp only [Bool.and_eq_true, decide_eq_true_eq, ne_eq] at bad
    obtain ⟨marked, tag⟩ := bad
    cases sr with
    | true => exact tag (by simp [Mach.carCont, marked])
    | false => simp [Mach.engBarred, marked] at reach

section

variable {m x n : Mach}

theorem Stores.carWrite {k sr a v y} (h : Stores m x) (done : x.carWrite k sr a v = .ok y) : Stores m y := by
  obtain ⟨p, _, rfl⟩ := carWrite_puts done
  exact h.put

theorem Stores.carWrites {c sr l k} (h : Stores m x) : Stores m (Mach.carWrites c sr l k x).2.2 := by
  induction l generalizing x k with
  | nil => exact h
  | cons e l ih =>
    rw [Mach.carWrites]
    split
    next y done => exact ih (h.carWrite done)
    · exact h

theorem Marked.jobWrites {t c sr l} (h : Marked t m x) : Marked t m (x.jobWrites t c sr l).2.2 :=
  (h.stores (.carWrites (.refl x))).markAll

theorem Marked.jobPut {j l} (h : Marked j.ten m x) : Marked j.ten m (x.jobPut j l).2.2 := by
  unfold Mach.jobPut
  split
  · exact h
  · exact h.jobWrites

namespace Marked

variable {t : Nat} (h : Marked t m n)
include h

theorem jobs : n.jobs = m.jobs := by obtain ⟨_, _, ⟨_, _, _, _, _, rfl⟩, rfl⟩ := h.rest; rfl
theorem ledger : n.ledger = m.ledger := by obtain ⟨_, _, ⟨_, _, _, _, _, rfl⟩, rfl⟩ := h.rest; rfl
theorem engines : n.engines = m.engines := by obtain ⟨_, _, ⟨_, _, _, _, _, rfl⟩, rfl⟩ := h.rest; rfl
theorem lanes : n.lanes = m.lanes := by obtain ⟨_, _, ⟨_, _, _, _, _, rfl⟩, rfl⟩ := h.rest; rfl
theorem xlanes : n.xlanes = m.xlanes := by obtain ⟨_, _, ⟨_, _, _, _, _, rfl⟩, rfl⟩ := h.rest; rfl

/-- Registers of the carrel block, of a tenant of the part. -/
theorem carReg (small : t < 16) {a : Nat} (above : 0x100000 ≤ a) : n.reg a = m.reg a :=
  h.reg a (by unfold Reg.tenStat; omega) (by unfold Reg.tenMplhead; omega)

end Marked

end

/-! ### No unit holds a changed copy -/

theorem mem_tabPut {α : Type} [DecidableEq α] {d : Nat → α} {k : Nat} {v : α} {t : List (Nat × α)} {e : Nat × α}
    (h : e ∈ tabPut d k v t) : e.2 = v ∨ e ∈ t := by
  unfold tabPut at h
  split at h
  · exact .inr (List.mem_filter.mp h).1
  · rcases mem_tabInsert k v t e h with rfl | old
    · exact .inl rfl
    · exact .inr old

/-- A seat that holds no changed copy. -/
def Seat.clean (s : Seat) : Prop := ∀ i, s.dirtyOf i = none

theorem clean_iff (s : Seat) : s.clean ↔ (∀ e ∈ s.ns, e.2.valid = false) ∧ s.evb = [] := by
  constructor
  · intro clean
    constructor
    · intro e listed
      by_contra valid
      have none_ := clean e.2.line
      unfold Seat.dirtyOf at none_
      split at none_
      · cases none_
      next absent =>
        exact List.find?_eq_none.mp absent e listed (by simpa using valid)
    · cases held : s.evb with
      | nil => rfl
      | cons e l =>
        have none_ := clean e.line
        unfold Seat.dirtyOf at none_
        rw [held] at none_
        split at none_
        · cases none_
        · simp at none_
  · rintro ⟨invalid, empty⟩ i
    have absent : (s.ns.find? fun e => e.2.valid && e.2.line = i) = none :=
      List.find?_eq_none.mpr fun e listed => by simp [invalid e listed]
    unfold Seat.dirtyOf
    rw [absent, empty]
    rfl

theorem clean_dropLine {s : Seat} (h : s.clean) (line : Nat) : (s.dropLine line).clean := by
  obtain ⟨invalid, empty⟩ := (clean_iff s).mp h
  refine (clean_iff _).mpr ⟨fun e listed => ?_, ?_⟩
  · obtain ⟨there, _⟩ := List.mem_filter.mp listed
    obtain ⟨o, old, e'⟩ := List.mem_map.mp there
    rw [invalid o old] at e'
    simp only [Bool.false_and, Bool.false_eq_true, reduceIte] at e'
    rw [← e']
    exact invalid o old
  · simp [Seat.dropLine, empty]

theorem clean_default : ({} : Seat).clean := fun _ => rfl

section

variable {m : Mach}

theorem seat_clean (h : NoCopies m) (q : Nat) : (m.seat q).clean := by
  unfold NoCopies at h
  unfold Mach.seat
  generalize m.seats = l at h
  induction l with
  | nil => exact clean_default
  | cons e l ih =>
    obtain ⟨first, rest⟩ := List.forall_mem_cons.mp h
    rw [tabGet]
    split
    · exact first
    · exact ih rest

theorem noCopies_setSeat (h : NoCopies m) {s : Seat} (clean : s.clean) (q : Nat) : NoCopies (m.setSeat q s) := by
  intro y listed
  rcases mem_tabPut (d := fun _ => ({} : Seat)) (k := q) (v := s) (t := m.seats) listed with e | old
  · rw [e]
    exact clean
  · exact h y old

/-- A line dropped from units that hold no changed copy: memory and all beside the units stand, and none holds a changed copy. -/
theorem snoopLine_noCopies (h : NoCopies m) (q : Option Nat) (line : Nat) :
    ∃ seats, m.snoopLine q line = { m with seats := seats } ∧ NoCopies { m with seats := seats } := by
  rw [snoopLine_eq]
  suffices walk : ∀ (l : List (Nat × Seat)) (x : Mach), (∀ e ∈ l, e.2.clean) → NoCopies x →
      ∃ seats, l.foldl (Mach.snoopOne q line) x = { x with seats := seats } ∧ NoCopies { x with seats := seats } from
    walk m.seats m h h
  intro l
  induction l with
  | nil => exact fun x _ hx => ⟨x.seats, rfl, hx⟩
  | cons e l ih =>
    intro x cleans hx
    obtain ⟨first, rest⟩ := List.forall_mem_cons.mp cleans
    have one : ∃ seats, Mach.snoopOne q line x e = { x with seats := seats } ∧ NoCopies { x with seats := seats } := by
      unfold Mach.snoopOne
      rw [first line]
      split
      · exact ⟨x.seats, rfl, hx⟩
      · dsimp only
        split
        · exact ⟨x.seats, rfl, hx⟩
        · exact ⟨_, rfl, noCopies_setSeat hx (clean_dropLine (seat_clean hx e.1) line) e.1⟩
    obtain ⟨seats, e1, h1⟩ := one
    obtain ⟨seats', e2, h2⟩ := ih _ rest h1
    exact ⟨seats', by rw [List.foldl_cons, e1, e2], h2⟩

theorem coh_noCopies (h : NoCopies m) (a : Nat) : m.coh a = m.cont a := by
  unfold Mach.coh
  have absent : (m.seats.findSome? fun e => e.2.dirtyCont a) = none := by
    rw [List.findSome?_eq_none_iff]
    intro e listed
    rw [Seat.dirtyCont, h e listed]
  rw [absent]

theorem mirDirty_eq (m : Mach) (line : Nat) : ∃ dirty, m.mirDirty line = { m with twin := { m.twin with dirty := dirty } } := by
  unfold Mach.mirDirty
  split
  · exact ⟨_, rfl⟩
  · exact ⟨m.twin.dirty, rfl⟩

theorem toGroup_eq (m : Mach) (line : Nat) : ∃ l2 st, m.toGroup line = { m with l2dirty := l2, memst := st } := by
  unfold Mach.toGroup
  extract_lets m1
  split
  · exact ⟨_, _, rfl⟩
  · exact ⟨_, _, rfl⟩

/-- A write of an engine where no unit holds a changed copy: its container changes and no other. -/
theorem put_noCopies (h : NoCopies m) (a : Nat) (c : Cont) :
    NoCopies (m.put a c) ∧ ∀ b, (m.put a c).cont b = if a = b then c else m.cont b := by
  obtain ⟨seats, e1, none_⟩ := snoopLine_noCopies h none (lineOf a)
  obtain ⟨l2, st, e2⟩ := toGroup_eq (({ m with seats := seats } : Mach).setCont a c) (lineOf a)
  obtain ⟨dirty, e3⟩ := mirDirty_eq ({ ({ m with seats := seats } : Mach).setCont a c with l2dirty := l2, memst := st }) (lineOf a)
  have e : m.put a c = { ({ ({ m with seats := seats } : Mach).setCont a c with l2dirty := l2, memst := st } : Mach) with
      twin := { m.twin with dirty := dirty } } := by
    rw [Mach.put, e1, e2, e3]
    rfl
  rw [e]
  exact ⟨none_, fun b => cont_setCont { m with seats := seats } a b c⟩

/-! ### Words zeroed -/

theorem snoopLines_noCopies (h : NoCopies m) (lines : List Nat) :
    ∃ seats, lines.foldl (fun x l => x.snoopLine none l) m = { m with seats := seats } ∧ NoCopies { m with seats := seats } := by
  induction lines generalizing m with
  | nil => exact ⟨m.seats, rfl, h⟩
  | cons l lines ih =>
    obtain ⟨seats, e1, h1⟩ := snoopLine_noCopies h none l
    obtain ⟨seats', e2, h2⟩ := ih h1
    exact ⟨seats', by rw [List.foldl_cons, e1, e2], h2⟩

/-- The payload octets that `zeroWords` clears. -/
def Mach.zeroed (m : Mach) (a n k : Nat) : Bool :=
  8 * a ≤ k && k < 8 * (a + n) && 2 ≤ k % 8 && !m.srAddr (k / 8) && !vaultAddr (k / 8)

theorem contAt_clearPay {mem : List Host.Cell} {p : Nat → Bool} {a : Nat} (stays : p (8 * a + 1) = false) {z : Bool}
    (pay : ∀ i, 2 ≤ i → i < 8 → p (8 * a + i) = z) :
    contAt (tabClear p mem) a = if z then { contAt mem a with pay := 0 } else contAt mem a := by
  have octs : ∀ i, 2 ≤ i → i < 8 → octetAt (tabClear p mem) (8 * a + i) = if z then 0 else octetAt mem (8 * a + i) := by
    intro i lo hi
    simp only [octetAt, tabGet_clear, pay i lo hi, cellDefault]
  have hd : octetAt (tabClear p mem) (8 * a + 1) = octetAt mem (8 * a + 1) := by
    simp only [octetAt, tabGet_clear, stays, Bool.false_eq_true, reduceIte]
  simp only [contAt, List.range, List.range.loop, List.map, Nat.add_assoc, Nat.reduceAdd, Nat.add_zero, hd,
    octs 2 (by decide) (by decide), octs 3 (by decide) (by decide), octs 4 (by decide) (by decide), octs 5 (by decide) (by decide),
    octs 6 (by decide) (by decide), octs 7 (by decide) (by decide)]
  cases z
  · rfl
  · simp [natOfOctets, w48]

theorem zeroWords_noCopies (h : NoCopies m) (a n : Nat) :
    ∃ seats, m.zeroWords a n = { m with seats := seats, mem := tabClear (m.zeroed a n) m.mem } := by
  unfold Mach.zeroWords
  extract_lets lines m1
  obtain ⟨seats, e, _⟩ := snoopLines_noCopies h lines.eraseDups
  refine ⟨seats, ?_⟩
  rw [show m1 = { m with seats := seats } from e]
  rfl

theorem cont_zeroWords (h : NoCopies m) (a n b : Nat) :
    (m.zeroWords a n).cont b =
      if a ≤ b ∧ b < a + n ∧ m.srAddr b = false ∧ vaultAddr b = false then { m.cont b with pay := 0 } else m.cont b := by
  obtain ⟨seats, e⟩ := zeroWords_noCopies h a n
  rw [e]
  have pay : ∀ i, 2 ≤ i → i < 8 → m.zeroed a n (8 * b + i) = (a ≤ b && b < a + n && !m.srAddr b && !vaultAddr b) := by
    intro i lo hi
    have word : (8 * b + i) / 8 = b := by omega
    have off : 2 ≤ (8 * b + i) % 8 := by omega
    have above : 8 * a ≤ 8 * b + i ↔ a ≤ b := by omega
    have below : 8 * b + i < 8 * (a + n) ↔ b < a + n := by omega
    simp only [Mach.zeroed, word, off, above, below, decide_true, Bool.and_true]
  have kept : m.zeroed a n (8 * b + 1) = false := by
    have off : (8 * b + 1) % 8 = 1 := by omega
    simp [Mach.zeroed, off]
  refine (contAt_clearPay kept pay).trans ?_
  simp only [Bool.and_eq_true, decide_eq_true_eq, Bool.not_eq_true', and_assoc]
  rfl

end

end Sys2Proof.Machine
end

section
/-! PROOFS. The completion ring's tail, the marked-page log's epochs and TEN_CTL (R12, R31, R202, R211, R219, R222). -/

namespace Sys2Proof.Machine

open Sys2Proof

variable {m : Mach} {w : Who} {c : Nat}

/-! ### The completion ring -/

/-- No job of the carrel has a completion to deliver. -/
def Mach.silent (m : Mach) (c : Nat) : Prop := ∀ y ∈ m.jobs, y.2.carrel = c → y.2.delivers = false

theorem nextDone_silent (quiet : m.silent c) : m.nextDone c = none := by
  have none_ : (m.jobs.filter fun e => e.2.carrel = c && e.2.delivers) = [] := by
    refine List.filter_eq_nil_iff.mpr fun e listed both => ?_
    obtain ⟨ofC, done⟩ := Bool.and_eq_true_iff.mp both
    rw [quiet e listed (of_decide_eq_true ofC)] at done
    cases done
  rw [Mach.nextDone, none_]
  rfl

theorem pumpCq_silent (quiet : m.silent c) (k : Nat) : Mach.pumpCq c k m = m := by
  cases k with
  | zero => rfl
  | succ k =>
    rw [Mach.pumpCq, nextDone_silent quiet]
    split
    · rfl
    · rfl

theorem deliver_silent (quiet : m.silent c) : m.deliver c = m := pumpCq_silent quiet _

/-- The words of a completion entry at the addresses that hold it. -/
def Job.entryAt (j : Job) (a : Nat) : List (Nat × Word) :=
  (List.range 4).zip j.entryWords |>.map fun e => ((a + e.1) % 2 ^ 40, e.2)

/-- The address of the completion ring's next entry. -/
def Mach.cqNext (m : Mach) (c : Nat) : Nat :=
  (m.reg (Reg.carCqbase c)).toNat + 4 * ((m.reg (Reg.carCqhead c)).toNat % m.cqEntries c)

/-- An entry shown written: the head moved on, NEW set, CAR_DONE counted, CARREL-DONE raised where it is asked for. -/
def Mach.cqMoved (m : Mach) (c hd ten : Nat) : Mach :=
  let m2 := ((m.setReg (Reg.carCqhead c) (w48 hd)).setFld (Reg.carStat c) F.carStatNew 1).count (Reg.carDone c)
  if m2.bit (Reg.carCtl c) F.carCtlInten then m2.raise (32 + ten) else m2

theorem pumpCq_delivers {k n x : Nat} {j : Job} {m1 : Mach} (clear : m.bit (Reg.carStat c) F.carStatCqerr = false)
    (room : m.cqFull c = false) (next : m.nextDone c = some (x, j)) (put : m.jobPut j (j.entryAt (m.cqNext c)) = (n, none, m1)) :
    let m3 := m1.cqMoved c (((m.reg (Reg.carCqhead c)).toNat % m.cqEntries c + 1) % m.cqEntries c) j.ten
    Mach.pumpCq c (k + 1) m = Mach.pumpCq c k (if j.st = .held then m3.freeJob x else m3.wakeJob x 0 0) := by
  unfold Job.entryAt Mach.cqNext at put
  rw [Mach.pumpCq, next, clear, room, if_neg (by decide)]
  dsimp only
  rw [put]
  rfl

theorem alerts_cqMoved (m : Mach) (c hd ten : Nat) :
    Alerts (((m.setReg (Reg.carCqhead c) (w48 hd)).setFld (Reg.carStat c) F.carStatNew 1).count (Reg.carDone c))
      (m.cqMoved c hd ten) := by
  unfold Mach.cqMoved
  extract_lets m2
  split
  · exact .raise m2 _
  · exact .refl m2

theorem cqMoved_leaves (m : Mach) {c : Nat} (small : c < 4096) (hd ten : Nat) :
    let n := m.cqMoved c hd ten
    n.reg (Reg.carCqhead c) = w48 hd ∧ n.bit (Reg.carStat c) F.carStatNew = true ∧ n.mem = m.mem ∧ n.jobs = m.jobs := by
  intro n
  have frame := alerts_cqMoved m c hd ten
  have jobs : n.jobs = m.jobs := by
    obtain ⟨_, _, _, e⟩ := frame.rest
    unfold n
    rw [e]
    simp [Mach.count, Mach.setFld]
  refine ⟨?_, ?_, frame.mem.trans (by simp [Mach.count, Mach.setFld]), jobs⟩
  · rw [frame.reg _ (by unfold Reg.carCqhead; omega), reg_count_of_ne _ _ (by unfold Reg.carDone Reg.carCqhead; omega),
      reg_setFld_of_ne _ _ (by unfold Reg.carStat Reg.carCqhead; omega), reg_setReg_self]
  · rw [Mach.bit, frame.reg _ (by unfold Reg.carStat; omega), ← Mach.bit,
      bit_count_of_ne _ _ (by unfold Reg.carDone Reg.carStat; omega), bit_setFld_same _ _ (by decide) rfl]
    rfl

theorem nextDone_single {x : Nat} {j : Job} (only : m.jobs = [(x, j)]) (ofC : j.carrel = c) (held : j.st = .held) :
    m.nextDone c = some (x, j) := by
  have done : j.delivers = true := by simp [Job.delivers, held]
  rw [Mach.nextDone, only, List.filter_cons_of_pos (by simp [ofC, done])]
  rfl

/-! ### Writes of a carrel's registers -/

theorem carSet_barred {o : Nat} {v : Word} (no : m.mayCar w c = false) : m.carSet w c o v = m := if_pos (by simp [no])

theorem carSet_stat {v : Word} (may : m.mayCar w c = true) : m.carSet w c 0x00 v = m.carStatSet c v := if_neg (by simp [may])

theorem carSet_tail {v : Word} (may : m.mayCar w c = true) : m.carSet w c 0x08 v = m.carTailSet c v := if_neg (by simp [may])

theorem mayCar_reads {x : Nat} {v : Word} (no : m.mayCar w c = false) : m.carSet w c x v = m := carSet_barred no

theorem carTailSet_refused {v : Word} (bad : m.cqEntries c ≤ v.toNat % 65536 ∨ m.cqUsed c <
    (v.toNat % 65536 + m.cqEntries c - (m.reg (Reg.carCqtail c)).toNat % m.cqEntries c) % m.cqEntries c) :
    m.carTailSet c v = m.carError c 1 :=
  if_pos (by simpa using bad)

theorem carTailSet_taken {v : Word} (within : v.toNat % 65536 < m.cqEntries c)
    (fits : (v.toNat % 65536 + m.cqEntries c - (m.reg (Reg.carCqtail c)).toNat % m.cqEntries c) % m.cqEntries c ≤ m.cqUsed c) :
    m.carTailSet c v = ((m.setReg (Reg.carCqtail c) (w48 (v.toNat % 65536))).carError c 0).deliver c := by
  refine if_neg ?_
  simp only [Bool.or_eq_true, decide_eq_true_eq, not_or]
  exact ⟨Nat.not_le.mpr within, Nat.not_lt.mpr fits⟩

theorem not_jobReg_carCqtail (small : c < 4096) : ¬ JobReg (Reg.carCqtail c) := by
  intro may
  generalize e : Reg.carCqtail c = a at may
  unfold Reg.carCqtail at e
  cases may with
  | role listed =>
    have : ∀ b ∈ roleRegs, b < 0x100000 ∨ 0x140000 ≤ b := by decide
    have := this a listed
    omega
  | memory block => omega
  | tenStat t => unfold Reg.tenStat at e; omega
  | tenHead t => unfold Reg.tenMplhead at e; omega
  | carStat d => unfold Reg.carStat at e; omega
  | carHead d => unfold Reg.carCqhead at e; omega
  | carDone d => unfold Reg.carDone at e; omega
  | carDropped d => unfold Reg.carDropped at e; omega
  | busy b => unfold Reg.ceBusy at e; omega
  | domain block => omega

theorem carTailSet_shows {v : Word} (small : c < 4096) (within : v.toNat % 65536 < m.cqEntries c)
    (fits : (v.toNat % 65536 + m.cqEntries c - (m.reg (Reg.carCqtail c)).toNat % m.cqEntries c) % m.cqEntries c ≤ m.cqUsed c) :
    (m.carTailSet c v).reg (Reg.carCqtail c) = w48 (v.toNat % 65536) ∧
      (m.silent c → (m.carTailSet c v).reg (Reg.carErr c) = 0 ∧ (m.carTailSet c v).mem = m.mem) := by
  rw [carTailSet_taken within fits]
  constructor
  · rw [(Works.deliver (.refl _)).reg _ (by unfold Reg.carCqtail; omega) (not_jobReg_carCqtail small), Mach.carError,
      reg_setReg_of_ne _ _ (by unfold Reg.carErr Reg.carCqtail; omega), reg_setReg_self]
  · intro quiet
    have quiet' : ((m.setReg (Reg.carCqtail c) (w48 (v.toNat % 65536))).carError c 0).silent c := by
      simpa [Mach.silent, Mach.carError] using quiet
    rw [deliver_silent quiet']
    exact ⟨reg_setReg_self _ _, by simp [Mach.carError]⟩

/-- A write of CAR_STAT that clears CQERR. -/
theorem carStatSet_clears (m : Mach) (c : Nat) (v : Word) :
    m.carStatSet c (fset v F.carStatCqerr 1) = (((if fbit v F.carStatNew then m.setFld (Reg.carStat c) F.carStatNew 0 else m).setFld
      (Reg.carStat c) F.carStatCqerr 0).deliver c).carError c 0 := by
  unfold Mach.carStatSet
  rw [fbit_fset_same _ _ (by decide) rfl, fbit_fset_apart _ _ (by decide) (by decide)]
  rfl

theorem carStatSet_silent {v : Word} (quiet : m.silent c) :
    let n := m.carStatSet c (fset v F.carStatCqerr 1)
    n.bit (Reg.carStat c) F.carStatCqerr = false ∧ n.mem = m.mem := by
  intro n
  generalize hm1 : (if fbit v F.carStatNew then m.setFld (Reg.carStat c) F.carStatNew 0 else m) = m1
  have stands : m1.jobs = m.jobs ∧ m1.mem = m.mem := by
    rw [← hm1]
    split
    · simp [Mach.setFld]
    · exact ⟨rfl, rfl⟩
  have quiet1 : (m1.setFld (Reg.carStat c) F.carStatCqerr 0).silent c := by
    simpa [Mach.silent, Mach.setFld, stands.1] using quiet
  have e : n = (m1.setFld (Reg.carStat c) F.carStatCqerr 0).carError c 0 := by
    rw [← deliver_silent quiet1, ← hm1]
    exact carStatSet_clears m c v
  rw [e]
  constructor
  · rw [Mach.carError, bit_setReg_of_ne _ _ (by unfold Reg.carErr Reg.carStat; omega), bit_setFld_same _ _ (by decide) rfl]
    rfl
  · simpa [Mach.carError, Mach.setFld] using stands.2

/-- CQERR cleared delivers the one entry that waited. -/
theorem carStatSet_delivers {v : Word} {x : Nat} {j : Job} {m1 : Mach} (small : c < 4096) (only : m.jobs = [(x, j)])
    (ofC : j.carrel = c) (held : j.st = .held) (ended : j.wait = .none) (kept : fbit v F.carStatNew = false)
    (room : m.cqFull c = false)
    (put : (m.setFld (Reg.carStat c) F.carStatCqerr 0).jobPut j
      [((m.cqNext c + 0) % 2 ^ 40, w48 j.blk), ((m.cqNext c + 1) % 2 ^ 40, j.tag), ((m.cqNext c + 2) % 2 ^ 40, j.j2),
        ((m.cqNext c + 3) % 2 ^ 40, j.j3)] = (4, none, m1)) :
    let n := m.carStatSet c (fset v F.carStatCqerr 1)
    n.jobs = [] ∧ n.mem = m1.mem ∧
      n.reg (Reg.carCqhead c) = w48 (((m.reg (Reg.carCqhead c)).toNat % m.cqEntries c + 1) % m.cqEntries c) ∧
      n.bit (Reg.carStat c) F.carStatNew = true := by
  intro n
  have same : ∀ a, a ≠ Reg.carStat c → (m.setFld (Reg.carStat c) F.carStatCqerr 0).reg a = m.reg a := fun a other =>
    reg_setFld_of_ne _ _ other.symm
  have size := same (Reg.carCqsize c) (by unfold Reg.carCqsize Reg.carStat; omega)
  have head_ := same (Reg.carCqhead c) (by unfold Reg.carCqhead Reg.carStat; omega)
  have base := same (Reg.carCqbase c) (by unfold Reg.carCqbase Reg.carStat; omega)
  have tail := same (Reg.carCqtail c) (by unfold Reg.carCqtail Reg.carStat; omega)
  generalize hx : m.setFld (Reg.carStat c) F.carStatCqerr 0 = x0 at *
  have clear : x0.bit (Reg.carStat c) F.carStatCqerr = false := by
    rw [← hx, bit_setFld_same _ _ (by decide) rfl]
    rfl
  have jobs : x0.jobs = [(x, j)] := by simpa [← hx, Mach.setFld] using only
  have entries : x0.cqEntries c = m.cqEntries c := by rw [Mach.cqEntries, size, Mach.cqEntries]
  have room0 : x0.cqFull c = false := by
    simpa [Mach.cqFull, Mach.cqUsed, entries, head_, tail] using room
  have words : j.entryAt (x0.cqNext c) = [((m.cqNext c + 0) % 2 ^ 40, w48 j.blk), ((m.cqNext c + 1) % 2 ^ 40, j.tag),
      ((m.cqNext c + 2) % 2 ^ 40, j.j2), ((m.cqNext c + 3) % 2 ^ 40, j.j3)] := by
    rw [Job.entryAt, Job.entryWords, ended, Mach.cqNext, base, head_, entries]
    rfl
  have steps := pumpCq_delivers (k := x0.jobs.length) clear room0 (nextDone_single jobs ofC held) (words ▸ put)
  dsimp only at steps
  rw [if_pos held, head_, entries] at steps
  have marked : Marked j.ten x0 m1 := (Marked.jobPut (.refl _ _)).becomes (congrArg (·.2.2) put)
  obtain ⟨hd, new, mem, jobs3⟩ := cqMoved_leaves m1 small (((m.reg (Reg.carCqhead c)).toNat % m.cqEntries c + 1) % m.cqEntries c) j.ten
  generalize m1.cqMoved c (((m.reg (Reg.carCqhead c)).toNat % m.cqEntries c + 1) % m.cqEntries c) j.ten = m3 at *
  have gone : (m3.freeJob x).jobs = [] := by
    change tabErase x m3.jobs = []
    rw [jobs3, marked.jobs, jobs]
    simp [tabErase]
  have quiet : (m3.freeJob x).silent c := fun y listed => by
    rw [gone] at listed
    cases listed
  have e : n = (m3.freeJob x).carError c 0 := by
    have e1 := carStatSet_clears m c v
    rw [kept, if_neg (by decide), hx, Mach.deliver, steps, pumpCq_silent quiet] at e1
    exact e1
  rw [e]
  refine ⟨?_, ?_, ?_, ?_⟩
  · simpa [Mach.carError] using gone
  · rw [Mach.carError, Mach.setReg_mem]
    exact mem
  · rw [Mach.carError, reg_setReg_of_ne _ _ (by unfold Reg.carErr Reg.carCqhead; omega)]
    exact hd
  · rw [Mach.carError, bit_setReg_of_ne _ _ (by unfold Reg.carErr Reg.carStat; omega)]
    exact new

/-! ### The marked-page log -/

variable {t : Nat}

theorem newMarks_leaves (m : Mach) (t : Nat) :
    let n := m.newMarks t
    t ∈ n.clearing ∧ n.mem = m.mem ∧
      n.fld (Reg.tenMplctl t) F.tenMplctlEpochno = (m.fld (Reg.tenMplctl t) F.tenMplctlEpochno + 1) % 256 ∧
      n.bit (Reg.tenMplctl t) F.tenMplctlClearing = true ∧ n.fld (Reg.tenStat t) F.tenStatLogcnt = 0 ∧
      n.bit (Reg.tenStat t) F.tenStatLogovf = false ∧ n.reg (Reg.tenMpltail t) = m.reg (Reg.tenMplhead t) := by
  intro n
  let k := m.reg (Reg.tenMplctl t)
  let k1 := fset (fset (fset k F.tenMplctlEpochno (fget k F.tenMplctlEpochno + 1)) F.tenMplctlNewepoch 1) F.tenMplctlClearing 1
  let m1 := ((m.setReg (Reg.tenMplctl t) k1).setFld (Reg.tenStat t) F.tenStatLogcnt 0).setFld (Reg.tenStat t) F.tenStatLogovf 0
  have shows : ∀ a, a ≠ Reg.tenMpltail t → n.reg a = m1.reg a := fun a other => reg_setReg_of_ne m1 _ other.symm
  have ctl : n.reg (Reg.tenMplctl t) = k1 := by
    rw [shows _ (by unfold Reg.tenMplctl Reg.tenMpltail; omega), reg_setFld_of_ne _ _ (by unfold Reg.tenStat Reg.tenMplctl; omega),
      reg_setFld_of_ne _ _ (by unfold Reg.tenStat Reg.tenMplctl; omega), reg_setReg_self]
  have stat : n.reg (Reg.tenStat t) = m1.reg (Reg.tenStat t) := shows _ (by unfold Reg.tenStat Reg.tenMpltail; omega)
  refine ⟨mem_setIns_self _ _, ?_, ?_, ?_, ?_, ?_, ?_⟩
  · simp [n, Mach.newMarks, Mach.setFld]
  · rw [Mach.fld, ctl, fget_fset_apart _ _ (by decide) (by decide), fget_fset_apart _ _ (by decide) (by decide),
      fget_fset_same _ _ (by decide)]
    rfl
  · rw [Mach.bit, ctl, fbit_fset_same _ _ (by decide) rfl]
    rfl
  · rw [Mach.fld, stat, ← Mach.fld, fld_setFld_apart _ _ (by decide) (by decide), fld_setFld_same _ _ (by decide)]
    rfl
  · rw [Mach.bit, stat, ← Mach.bit, bit_setFld_same _ _ (by decide) rfl]
    rfl
  · have head_ : m1.reg (Reg.tenMplhead t) = m.reg (Reg.tenMplhead t) := by
      rw [reg_setFld_of_ne _ _ (by unfold Reg.tenStat Reg.tenMplhead; omega),
        reg_setFld_of_ne _ _ (by unfold Reg.tenStat Reg.tenMplhead; omega),
        reg_setReg_of_ne _ _ (by unfold Reg.tenMplctl Reg.tenMplhead; omega)]
    rw [← head_]
    exact reg_setReg_self m1 _

theorem mplCtlSet_newEpoch {v : Word} (own : w.ofTen t = true) :
    m.mplCtlSet w t (fset v F.tenMplctlNewepoch 1) =
      (m.setFld (Reg.tenMplctl t) F.tenMplctlEn (fget v F.tenMplctlEn)).newMarks t := by
  unfold Mach.mplCtlSet
  rw [if_neg (by simp [own]), fbit_fset_same _ _ (by decide) rfl, fget_fset_apart _ _ (by decide) (by decide)]
  rfl

theorem newEpoch_leaves {v : Word} (own : w.ofTen t = true) :
    let n := m.mplCtlSet w t (fset v F.tenMplctlNewepoch 1)
    t ∈ n.clearing ∧ n.mem = m.mem ∧
      n.fld (Reg.tenMplctl t) F.tenMplctlEpochno = (m.fld (Reg.tenMplctl t) F.tenMplctlEpochno + 1) % 256 ∧
      n.bit (Reg.tenMplctl t) F.tenMplctlClearing = true ∧ n.fld (Reg.tenStat t) F.tenStatLogcnt = 0 ∧
      n.bit (Reg.tenStat t) F.tenStatLogovf = false ∧ n.reg (Reg.tenMpltail t) = m.reg (Reg.tenMplhead t) := by
  intro n
  obtain ⟨listed, mem, epoch, busy, cnt, ovf, tail⟩ :=
    newMarks_leaves (m.setFld (Reg.tenMplctl t) F.tenMplctlEn (fget v F.tenMplctlEn)) t
  rw [show n = _ from mplCtlSet_newEpoch own]
  refine ⟨listed, mem.trans (by simp [Mach.setFld]), ?_, busy, cnt, ovf, ?_⟩
  · rw [epoch, fld_setFld_apart _ _ (by decide) (by decide)]
  · rw [tail, reg_setFld_of_ne _ _ (by unfold Reg.tenMplctl Reg.tenMplhead; omega)]

theorem not_mem_setDel (k : Nat) (l : List Nat) : k ∉ setDel k l := by simp [setDel]

theorem clearDone_leaves (clearing : m.clearing.contains t = true) (none_ : NoCopies m) :
    let lo := (m.reg (Reg.tenMpbmbase t)).toNat
    let size := (m.reg (Reg.tenMpbmsize t)).toNat * 4096
    let n := m.clearDone t
    t ∉ n.clearing ∧ n.bit (Reg.tenMplctl t) F.tenMplctlClearing = false ∧ n.bit (Reg.tenMplctl t) F.tenMplctlNewepoch = false ∧
      ∀ a, n.cont a =
        if lo ≤ a ∧ a < lo + size ∧ m.srAddr a = false ∧ vaultAddr a = false then { m.cont a with pay := 0 } else m.cont a := by
  intro lo size n
  have e : n = ({ m.zeroWords lo size with clearing := setDel t (m.zeroWords lo size).clearing } : Mach).setReg (Reg.tenMplctl t)
      (fset (fset ((m.zeroWords lo size).reg (Reg.tenMplctl t)) F.tenMplctlNewepoch 0) F.tenMplctlClearing 0) :=
    if_pos clearing
  rw [e]
  refine ⟨?_, ?_, ?_, fun a => ?_⟩
  · rw [Mach.setReg_clearing]
    exact not_mem_setDel t _
  · rw [bit_setReg_self, fbit_fset_same _ _ (by decide) rfl]
    rfl
  · rw [bit_setReg_self, fbit_fset_apart _ _ (by decide) (by decide), fbit_fset_same _ _ (by decide) rfl]
    rfl
  · rw [Mach.cont, Mach.setReg_mem]
    exact cont_zeroWords none_ lo size a

/-! ### TEN_CTL -/

/-- A word with the bits of a mask taken from another. -/
def merged (old mask v : Word) : Word := (old &&& ~~~ mask) ||| (v &&& mask)

theorem merged_merged (old a b v : Word) : merged (merged old a v) b v = merged old (a ||| b) v := by
  ext i hi
  simp only [merged, BitVec.getElem_and, BitVec.getElem_or, BitVec.getElem_not]
  cases a[i] <;> cases b[i] <;> simp

theorem merged_within {old mask v k : Word} (within : k &&& mask = k) : merged old mask v &&& k = v &&& k := by
  ext i hi
  have bit := congrArg (fun x : Word => x[i]) within
  simp only [merged, BitVec.getElem_and, BitVec.getElem_or, BitVec.getElem_not] at bit ⊢
  cases hk : k[i] <;> simp_all

theorem merged_apart {old mask v k : Word} (apart : k &&& mask = 0) : merged old mask v &&& k = old &&& k := by
  ext i hi
  have bit := congrArg (fun x : Word => x[i]) apart
  simp only [merged, BitVec.getElem_and, BitVec.getElem_or, BitVec.getElem_not] at bit ⊢
  cases hk : k[i] <;> simp_all

/-- The bits of TEN_CTL that a write gives: those of the strongroom, of the house, of a share that is not reserved, and the two
ledger settings. -/
def tenCtlMask (sr house share nvt dur : Bool) : Word :=
  (if sr then fmask F.tenCtlEn ||| fmask F.tenCtlCert ||| fmask F.tenCtlInspect else 0) |||
    (if house then (if share then fmask F.tenCtlShare else 0) ||| fmask F.tenCtlKeys else 0) |||
    (if nvt then fmask F.tenCtlNvt else 0) ||| (if dur then fmask F.tenCtlDur else 0)

theorem tenCtlMask_nvt : ∀ sr house share, tenCtlMask sr house share false false ||| fmask F.tenCtlNvt =
    tenCtlMask sr house share true false := by decide

theorem tenCtlMask_dur : ∀ sr house share nvt, tenCtlMask sr house share nvt false ||| fmask F.tenCtlDur =
    tenCtlMask sr house share nvt true := by decide

theorem eff_setReg (m : Mach) (a : Nat) (v : Word) : (m.setReg a v).ledger.eff = m.ledger.eff := by
  obtain ⟨_, e⟩ := ledger_setReg m a v
  rw [e]

theorem tenCtlSet_writes {v : Word} (small : t < 16) (own : w.ofTen t = true) :
    let n := m.tenCtlSet w t v
    (∃ nvt dur, n.reg (Reg.tenCtl t) =
        merged (m.reg (Reg.tenCtl t)) (tenCtlMask w.sr w.house (fget v F.tenCtlShare ≠ 0) nvt dur) v) ∧
      n.ledger.eff = m.ledger.eff := by
  intro n
  let a := Reg.tenCtl t
  let share : Bool := fget v F.tenCtlShare ≠ 0
  let mask := (if w.sr then fmask F.tenCtlEn ||| fmask F.tenCtlCert ||| fmask F.tenCtlInspect else 0) |||
    (if w.house then (if fget v F.tenCtlShare = 0 then 0 else fmask F.tenCtlShare) ||| fmask F.tenCtlKeys else 0)
  let m1 := m.setReg a (merged (m.reg a) mask v)
  let m2 := if w.house && !m1.ledgerBarred then m1.ledgerWrite a (fmask F.tenCtlNvt) v else m1
  have masks : mask = tenCtlMask w.sr w.house share false false := by
    unfold mask tenCtlMask share
    by_cases zero : fget v F.tenCtlShare = 0
    · simp [zero]
    · simp [zero]
  have reg1 : m1.reg a = merged (m.reg a) (tenCtlMask w.sr w.house share false false) v := masks ▸ reg_setReg_self m _
  have h2 : (∃ nvt, m2.reg a = merged (m.reg a) (tenCtlMask w.sr w.house share nvt false) v) ∧ m2.ledger.eff = m.ledger.eff := by
    unfold m2
    split
    · refine ⟨⟨true, ?_⟩, (eff_ledgerWrite _ _ _).trans (eff_setReg _ _ _)⟩
      rw [reg_ledgerWrite_self, reg1]
      exact (merged_merged _ _ _ _).trans (congrArg (merged _ · v) (tenCtlMask_nvt _ _ _))
    · exact ⟨⟨false, reg1⟩, eff_setReg _ _ _⟩
  obtain ⟨⟨nvt, reg2⟩, eff2⟩ := h2
  have low : a < 0x320000 := by unfold a Reg.tenCtl; omega
  have e : n = if fget v F.tenCtlDur = 2 && m2.role ≠ 2 then m2.notice t 3 2
      else if fget v F.tenCtlDur = 3 || m2.ledgerBarred then m2
      else m2.ledgerWrite a (fmask F.tenCtlDur) v := if_neg (by simp [own])
  rw [e]
  split
  · have told : Alerts m2 (m2.notice t 3 2) := .notice m2 _ _ _
    refine ⟨⟨nvt, false, (told.reg a low).trans reg2⟩, ?_⟩
    obtain ⟨_, _, _, e'⟩ := told.rest
    rw [e']
    exact eff2
  · split
    · exact ⟨⟨nvt, false, reg2⟩, eff2⟩
    · refine ⟨⟨nvt, true, ?_⟩, (eff_ledgerWrite _ _ _).trans eff2⟩
      rw [reg_ledgerWrite_self, reg2]
      exact (merged_merged _ _ _ _).trans (congrArg (merged _ · v) (tenCtlMask_dur _ _ _ _))

theorem tenCtlMask_sr : ∀ house share nvt dur, (fmask F.tenCtlEn ||| fmask F.tenCtlCert ||| fmask F.tenCtlInspect) &&&
    tenCtlMask true house share nvt dur = fmask F.tenCtlEn ||| fmask F.tenCtlCert ||| fmask F.tenCtlInspect := by decide

theorem tenCtlMask_open : ∀ house share nvt dur, (fmask F.tenCtlEn ||| fmask F.tenCtlCert ||| fmask F.tenCtlInspect) &&&
    tenCtlMask false house share nvt dur = 0 := by decide

theorem tenCtlMask_keys : ∀ sr share nvt dur, fmask F.tenCtlKeys &&& tenCtlMask sr true share nvt dur = fmask F.tenCtlKeys ∧
    fmask F.tenCtlKeys &&& tenCtlMask sr false share nvt dur = 0 := by decide

theorem tenCtlMask_share : ∀ sr nvt dur, fmask F.tenCtlShare &&& tenCtlMask sr true true nvt dur = fmask F.tenCtlShare ∧
    fmask F.tenCtlShare &&& tenCtlMask sr true false nvt dur = 0 ∧
    ∀ share, fmask F.tenCtlShare &&& tenCtlMask sr false share nvt dur = 0 := by decide

theorem fget_merged_within {old mask v : Word} {f : Fld} (within : fmask f &&& mask = fmask f) : fget (merged old mask v) f = fget v f :=
  fget_merge within

theorem fget_merged_apart {old mask v : Word} {f : Fld} (apart : fmask f &&& mask = 0) : fget (merged old mask v) f = fget old f :=
  fget_merge_apart apart

theorem tenCtlSet_reads {v : Word} (small : t < 16) (own : w.ofTen t = true) :
    let ten := Reg.tenCtl t
    let sr := fmask F.tenCtlEn ||| fmask F.tenCtlCert ||| fmask F.tenCtlInspect
    let n := m.tenCtlSet w t v
    n.reg ten &&& sr = (if w.sr then v else m.reg ten) &&& sr ∧
      n.fld ten F.tenCtlKeys = (if w.house = true then fget v F.tenCtlKeys else m.fld ten F.tenCtlKeys) ∧
      n.fld ten F.tenCtlShare =
        (if w.house = true ∧ fget v F.tenCtlShare ≠ 0 then fget v F.tenCtlShare else m.fld ten F.tenCtlShare) ∧
      n.mode t = m.mode t := by
  intro ten sr n
  obtain ⟨⟨nvt, dur, e⟩, eff⟩ := tenCtlSet_writes (m := m) (v := v) small own
  refine ⟨?_, ?_, ?_, by rw [Mach.mode, Ledger.mode, Ledger.effReg, eff]; rfl⟩
  · rw [e]
    cases w.sr with
    | true => exact merged_within (tenCtlMask_sr _ _ _ _)
    | false => exact merged_apart (tenCtlMask_open _ _ _ _)
  · rw [Mach.fld, e]
    cases w.house with
    | true => exact fget_merged_within (tenCtlMask_keys _ _ _ _).1
    | false => exact fget_merged_apart (tenCtlMask_keys _ _ _ _).2
  · rw [Mach.fld, e]
    obtain ⟨given, reserved, barred⟩ := tenCtlMask_share w.sr nvt dur
    cases w.house with
    | false =>
      rw [if_neg (by simp)]
      exact fget_merged_apart (barred _)
    | true =>
      by_cases zero : fget v F.tenCtlShare = 0
      · rw [if_neg (by simp [zero]), decide_eq_false (not_not.mpr zero)]
        exact fget_merged_apart reserved
      · rw [if_pos ⟨rfl, zero⟩, decide_eq_true zero]
        exact fget_merged_within given

/-- Settles O52. -/
theorem tenantRegisters : Obligations.TenantRegisters := by
  intro s w k c v
  dsimp only
  have car := c.isLt
  have ten := k.isLt
  refine ⟨fun may => ⟨fun bad => ?_, fun within fits => ?_, fun quiet => ?_,
    fun x j m1 only ofC _ held ended kept _ room put => ?_⟩, fun no => ⟨?_, ?_⟩, fun own => ?_, fun other => ?_,
    fun clearing none_ => ?_, fun idle => ?_, fun own => ?_, fun other => ?_⟩
  · refine ⟨_, (lift_next ((carSet_tail may).trans (carTailSet_refused bad)) : execCarCqtailWrite w c v s = _), reg_setReg_self _ _,
      reg_setReg_of_ne _ _ ?_, Mach.setReg_jobs _ _ _⟩
    unfold Reg.carErr Reg.carCqtail
    omega
  · exact ⟨_, (lift_next (carSet_tail may) : execCarCqtailWrite w c v s = _), carTailSet_shows car within fits⟩
  · exact ⟨_, (lift_next (carSet_stat may) : execCqerrClear w c v s = _), carStatSet_silent quiet⟩
  · exact ⟨_, (lift_next (carSet_stat may) : execCqerrClear w c v s = _), carStatSet_delivers car only ofC held ended kept room put⟩
  · exact (lift_next (carSet_barred no) : execCarCqtailWrite w c v s = _)
  · exact (lift_next (carSet_barred no) : execCqerrClear w c v s = _)
  · exact ⟨_, (lift_next rfl : execNewepoch w k v s = _), newEpoch_leaves own⟩
  · exact (lift_next (n := s.toMach) (if_pos (by simp [other])) : execNewepoch w k v s = _)
  · exact ⟨_, (lift_next rfl : execBitmapClearDone k s = _), clearDone_leaves clearing none_⟩
  · exact (lift_next (n := s.toMach) (if_neg (by rw [idle]; decide)) : execBitmapClearDone k s = _)
  · exact ⟨_, (lift_next rfl : execTenCtlWrite w k v s = _), tenCtlSet_reads ten own⟩
  · exact (lift_next (n := s.toMach) (if_pos (by simp [other])) : execTenCtlWrite w k v s = _)

end Sys2Proof.Machine
end

section
/-! PROOFS. Ports (R64 to R67, R79, R83, R99, R190). -/

namespace Sys2Proof.Machine

open Sys2Proof

variable {m : Mach} {p : Nat}

/-! ### Interrupts pending -/

/-- A raised source that is listed is pending. -/
theorem pending_raise {i : Nat} (listed : intListed i = true) : nbit ((m.raise i).reg (Reg.intStat i)).toNat 0 = true := by
  rw [Mach.raise, if_pos listed, reg_setReg_self]
  split
  · simp [nbit, BitVec.toNat_or]
  · exact nbit_or_one _

theorem intListed_port (small : p < 256) : intListed (128 + p) = true := by
  simp [intListed]
  omega

/-! ### Connections that close -/

theorem live_setLive (m : Mach) (s k : Nat) (e : SesLive) : (m.setLive s e).live k = if k = s then e else m.live k := by
  refine (tabGet_put (fun _ => ({} : SesLive)) s k e m.ses).trans ?_
  simp only [eq_comm]
  rfl

theorem ses_makeReady (m : Mach) (x : Nat) : (m.makeReady x).ses = m.ses := by
  unfold Mach.makeReady
  split
  · rfl
  · rfl

theorem ses_wakeJob (m : Mach) (x code detail count : Nat) : (m.wakeJob x code detail count).ses = m.ses := by
  unfold Mach.wakeJob
  split
  · rfl
  · split
    · exact ses_makeReady _ _
    · rfl

theorem ses_failSends (m : Mach) (s : Nat) : (m.failSends s).ses = m.ses := by
  unfold Mach.failSends
  extract_lets hit m1 m2
  have walk : ∀ (l : List ReplyWait) (x : Mach),
      (l.foldl (fun x r => if r.posted && r.placed.isSome then x else x.wakeJob r.ctx 0x08 1) x).ses = x.ses := by
    intro l
    induction l with
    | nil => exact fun _ => rfl
    | cons r l ih =>
      intro x
      rw [List.foldl_cons, ih]
      split
      · rfl
      · exact ses_wakeJob _ _ _ _ _
  exact walk hit m1

theorem conn_closeConn (m : Mach) (s k : Nat) : ((m.closeConn s).live k).conn = if k = s then none else (m.live k).conn := by
  unfold Mach.closeConn
  extract_lets e
  split
  next none_ =>
    split
    next same => exact same ▸ none_
    · rfl
  next c _ =>
    rw [Mach.live, ses_failSends, ← Mach.live, live_setLive]
    split
    · rfl
    · rfl

theorem conn_closeConns (l : List Nat) (m : Mach) (k : Nat) :
    ((l.foldl Mach.closeConn m).live k).conn = if k ∈ l then none else (m.live k).conn := by
  induction l generalizing m with
  | nil => simp
  | cons s l ih =>
    rw [List.foldl_cons, ih, conn_closeConn]
    by_cases later : k ∈ l
    · simp [later]
    · by_cases same : k = s
      · simp [same]
      · simp [later, same]

theorem mem_portSessions {k : Nat} {c : Conn} (open_ : (m.live k).conn = some c) (here : c.port = p) : k ∈ m.portSessions p := by
  have listed : (k, m.live k) ∈ m.ses := by
    refine (mem_of_tabGet (fun _ => ({} : SesLive)) m.ses k).resolve_left fun default_ => ?_
    change m.live k = {} at default_
    rw [default_] at open_
    cases open_
  refine List.mem_map.mpr ⟨_, List.mem_filter.mpr ⟨listed, ?_⟩, rfl⟩
  rw [open_]
  exact decide_eq_true here

/-- No connection on the port stands open. -/
def Mach.portClosed (m : Mach) (p : Nat) : Prop := ∀ k c, (m.live k).conn = some c → c.port ≠ p

theorem portClosed_closePort (m : Mach) (p : Nat) : (m.closePort p).portClosed p := by
  intro k c open_ here
  rw [Mach.closePort, conn_closeConns] at open_
  split at open_
  · cases open_
  next out => exact out (mem_portSessions open_ here)

theorem Mach.portClosed_of_ses {n : Mach} (h : m.portClosed p) (e : n.ses = m.ses) : n.portClosed p := by
  unfold Mach.portClosed Mach.live at *
  rwa [e]

theorem ses_raise (m : Mach) (i : Nat) : (m.raise i).ses = m.ses := by
  unfold Mach.raise
  split
  · exact Mach.setReg_ses _ _ _
  · rfl

/-! ### Links -/

theorem portUp_rises (small : p < 256) (up : m.up = true) (committed : m.committed = true) (en : m.portEn p = true)
    (down : m.linkUp p = false) (cool : m.pins.tripped = false)
    (may : ¬ (m.fld (Reg.prtCtl p) F.prtCtlMode = 2 ∧ m.fld (Reg.prtCtl p) F.prtCtlFec = 2)) :
    (m.portUp p).linkUp p = true ∧ nbit ((m.portUp p).reg (Reg.intStat (128 + p))).toNat 0 = true := by
  unfold Mach.portUp
  rw [if_neg (by simp [up, committed, en, down, cool])]
  extract_lets k w
  rw [if_neg (by simpa [Mach.fld] using may)]
  refine ⟨?_, pending_raise (intListed_port small)⟩
  rw [Mach.linkUp, Mach.bit, (Alerts.raise _ _).reg _ (by unfold Reg.prtStat; omega), reg_setReg_self,
    fbit_fset_apart _ _ (by decide) (by decide), fbit_fset_apart _ _ (by decide) (by decide),
    fbit_fset_apart _ _ (by decide) (by decide), fbit_fset_same _ _ (by decide) rfl]
  rfl

theorem portUp_refused (up : m.up = true) (committed : m.committed = true) (en : m.portEn p = true)
    (down : m.linkUp p = false) (cool : m.pins.tripped = false)
    (bad : m.fld (Reg.prtCtl p) F.prtCtlMode = 2 ∧ m.fld (Reg.prtCtl p) F.prtCtlFec = 2) :
    m.portUp p = m.setFld (Reg.prtStat p) F.prtStatCfgerr 1 := by
  unfold Mach.portUp
  rw [if_neg (by simp [up, committed, en, down, cool])]
  exact if_pos (by simpa [Mach.fld] using bad)

theorem portDown_closes (small : p < 256) (up : m.linkUp p = true) :
    (m.portDown p).linkUp p = false ∧ (m.portDown p).portClosed p ∧
      nbit ((m.portDown p).reg (Reg.intStat (128 + p))).toNat 0 = true := by
  refine ⟨(linkUp_portDown m small).trans (if_pos rfl), ?_, ?_⟩
  · unfold Mach.portDown
    rw [if_pos up]
    extract_lets w
    exact Mach.portClosed_of_ses (portClosed_closePort m p) ((ses_raise _ _).trans (Mach.setReg_ses _ _ _))
  · unfold Mach.portDown
    rw [if_pos up]
    exact pending_raise (intListed_port small)

/-! ### Port resets -/

theorem portClosed_portDown (h : m.portClosed p) : (m.portDown p).portClosed p := by
  unfold Mach.portDown
  split
  · extract_lets w
    exact Mach.portClosed_of_ses (portClosed_closePort m p) ((ses_raise _ _).trans (Mach.setReg_ses _ _ _))
  · exact h

theorem ses_dropRaw (m : Mach) (p : Nat) : (m.dropRaw p).ses = m.ses := by
  unfold Mach.dropRaw
  extract_lets q
  have walk : ∀ (l : List RawTx) (x : Mach),
      (l.foldl (fun x r => if r.posted then x else x.wakeJob r.ctx 0x08 1) x).ses = x.ses := by
    intro l
    induction l with
    | nil => exact fun _ => rfl
    | cons r l ih =>
      intro x
      rw [List.foldl_cons, ih]
      split
      · rfl
      · exact ses_wakeJob _ _ _ _ _
  exact walk q (m.setQueue p [])

theorem portRows : ∀ i j : Fin 16, ((regRow? (Reg.prtRxframes (16 * i.val + j.val))).map fun r => (r.dom, r.reset)) =
    some (.port, 0) ∧ ((regRow? (Reg.prtCtl (16 * i.val + j.val))).map RegRow.dom) ≠ some .port := by decide

theorem ledgerAddr_port {k : Nat} (small : p < 256) (offset : k < 256) : ledgerAddr (0x40000 + 0x100 * p + k) = false := by
  unfold ledgerAddr Reg.sealCtl Reg.sealRsize Reg.sealTail
  simp
  omega

theorem portRow (small : p < 256) : ((regRow? (Reg.prtRxframes p)).map fun r => (r.dom, r.reset)) = some (.port, 0) ∧
    ((regRow? (Reg.prtCtl p)).map RegRow.dom) ≠ some .port := by
  have here := portRows ⟨p / 16, by omega⟩ ⟨p % 16, Nat.mod_lt _ (by decide)⟩
  rwa [Nat.div_add_mod] at here

theorem resetOf_prtRxframes (small : p < 256) : resetOf (Reg.prtRxframes p) = 0 := by
  have others : Reg.prtRxframes p ≠ Reg.modPart ∧ Reg.prtRxframes p ≠ Reg.modSerialHi ∧ Reg.prtRxframes p ≠ Reg.modSerialLo ∧
      Reg.prtRxframes p ≠ Reg.sealKeyid ∧ Reg.prtRxframes p ≠ Reg.ucRomid := by
    unfold Reg.prtRxframes Reg.modPart Reg.modSerialHi Reg.modSerialLo Reg.sealKeyid Reg.ucRomid
    omega
  obtain ⟨part, hi, lo, key, rom⟩ := others
  obtain ⟨row, _⟩ := portRow small
  rw [resetOf, if_neg part, if_neg hi, if_neg lo, if_neg key, if_neg rom]
  split
  next r found =>
    rw [found] at row
    exact congrArg Prod.snd (Option.some.inj row)
  · rfl

theorem signals_closePort (m : Mach) (p : Nat) : Signals [] m (m.closePort p) := .closePort (.refl _ m)

theorem resetPort_regs (m : Mach) (small : p < 256) :
    (m.resetPort p).reg (Reg.prtRxframes p) = 0 ∧ (m.resetPort p).reg (Reg.prtCtl p) = m.reg (Reg.prtCtl p) := by
  obtain ⟨row, ctl⟩ := portRow small
  have frames : ledgerAddr (Reg.prtRxframes p) = false := ledgerAddr_port (k := 8) small (by decide) ▸ by
    unfold Reg.prtRxframes; congr 1; omega
  have plainCtl : ledgerAddr (Reg.prtCtl p) = false := ledgerAddr_port (k := 2) small (by decide) ▸ by
    unfold Reg.prtCtl; congr 1; omega
  generalize hx : (((m.closePort p).portDown p).dropRaw p).setPlain p [] = x
  have e : m.resetPort p = x.resetRegs .port fun a => 0x40000 + 0x100 * p ≤ a && a < 0x40100 + 0x100 * p := by rw [← hx]; rfl
  rw [e]
  constructor
  · rw [Mach.reg, frames, Mach.resetRegs]
    simp only [Bool.false_eq_true, reduceIte]
    rw [tabGet_clear, if_pos, resetOf_prtRxframes small]
    cases found : regRow? (Reg.prtRxframes p) with
    | none =>
      rw [found] at row
      cases row
    | some r =>
      rw [found] at row
      have dom : r.dom = .port := congrArg Prod.fst (Option.some.inj row)
      simp [dom, Reg.prtRxframes]
  · have kept : x.reg (Reg.prtCtl p) = m.reg (Reg.prtCtl p) := by
      have low : Reg.prtCtl p < 0x320000 := by unfold Reg.prtCtl; omega
      rw [← hx]
      change (((m.closePort p).portDown p).dropRaw p).reg (Reg.prtCtl p) = _
      rw [(dropRaw_leaves _ p).reg _ low (by simp)]
      change ((m.closePort p).portDown p).reg (Reg.prtCtl p) = _
      rw [reg_portDown _ p low (by unfold Reg.prtCtl Reg.prtStat; omega), (signals_closePort m p).reg _ low (by simp)]
    rw [← kept, Mach.reg, plainCtl, Mach.resetRegs, Mach.reg, plainCtl]
    simp only [Bool.false_eq_true, reduceIte]
    rw [tabGet_clear, if_neg]
    cases found : regRow? (Reg.prtCtl p) with
    | none => simp
    | some r =>
      rw [found] at ctl
      have dom : r.dom ≠ .port := fun d => ctl (congrArg some d)
      simp [dom]

theorem resetPort_closes (m : Mach) (p : Nat) : (m.resetPort p).portClosed p := by
  refine Mach.portClosed_of_ses (portClosed_portDown (portClosed_closePort m p)) ?_
  exact ses_dropRaw _ _

/-! ### Frames outside LCP -/

variable {f : RxFrame}

/-- A frame of a class that is judged has a good FCS. -/
theorem fcsOk_of_classify {c : RxClass} (is : m.classify p f = c) (judged : c ≠ .drop) : f.fcsOk = true := by
  by_contra bad
  refine judged (is ▸ ?_)
  unfold Mach.classify
  extract_lets k et dst n typ
  rw [if_pos (by simp [bad])]

theorem rxCount_counts (ok : f.fcsOk = true) : m.rxCount p f = m.count (Reg.prtRxframes p) := if_pos ok

theorem rxCount_stands (m : Mach) (p : Nat) (f : RxFrame) : (m.rxCount p f).sent = m.sent ∧ (m.rxCount p f).ses = m.ses ∧
    (m.rxCount p f).plainq = m.plainq ∧ ∀ a, a ≠ Reg.prtRxframes p → (m.rxCount p f).reg a = m.reg a := by
  unfold Mach.rxCount
  split
  · exact ⟨by simp [Mach.count], by simp [Mach.count], by simp [Mach.count], fun a other => reg_count_of_ne _ _ other.symm⟩
  · exact ⟨rfl, rfl, rfl, fun _ _ => rfl⟩

theorem plain_count (m : Mach) (a k p : Nat) : (m.count a k).plain p = m.plain p := by simp [Mach.plain, Mach.count]

theorem prtCtl_ne_prtRxframes : Reg.prtCtl p ≠ Reg.prtRxframes p := by unfold Reg.prtCtl Reg.prtRxframes; omega

/-- A plain frame counted and queued, counted as dropped from a full queue, or dropped where the port takes none (R66). -/
theorem plainFrame_taken (small : p < 256) (ok : f.fcsOk = true) (stamp : Option (Nat × Nat)) :
    let n := (m.rxCount p f).queuePlain p f stamp
    n.reg (Reg.prtRxframes p) = w48 ((m.reg (Reg.prtRxframes p)).toNat + 1) ∧
      (m.bit (Reg.prtCtl p) F.prtCtlPlain = true → (m.plain p).length < 64 →
        nbit (n.reg (Reg.intStat (128 + p))).toNat 0 = true ∧ n.plain p = m.plain p ++ [{ octs := f.octs, stamp := stamp }]) ∧
      (m.bit (Reg.prtCtl p) F.prtCtlPlain = true → 64 ≤ (m.plain p).length →
        n.plain p = m.plain p ∧ n.reg (Reg.prtPlaindrop p) = w48 ((m.reg (Reg.prtPlaindrop p)).toNat + 1)) ∧
      (m.bit (Reg.prtCtl p) F.prtCtlPlain = false →
        n.reg (Reg.prtRxdrop p) = w48 ((m.reg (Reg.prtRxdrop p)).toNat + 1) ∧ n.plain p = m.plain p) := by
  intro n
  let x := m.count (Reg.prtRxframes p)
  have en : n = x.queuePlain p f stamp := congrArg (fun y : Mach => y.queuePlain p f stamp) (rxCount_counts ok)
  have takes : x.bit (Reg.prtCtl p) F.prtCtlPlain = m.bit (Reg.prtCtl p) F.prtCtlPlain :=
    bit_count_of_ne _ _ prtCtl_ne_prtRxframes.symm
  have held : x.plain p = m.plain p := plain_count _ _ _ _
  have e : n = if !m.bit (Reg.prtCtl p) F.prtCtlPlain then x.rxDrop p
      else if 64 ≤ (m.plain p).length then x.count (Reg.prtPlaindrop p)
      else (x.setPlain p (m.plain p ++ [{ octs := f.octs, stamp := stamp }])).raise (128 + p) := by
    rw [en, Mach.queuePlain, takes, held]
  have frames : x.reg (Reg.prtRxframes p) = w48 ((m.reg (Reg.prtRxframes p)).toNat + 1) := reg_count_self _ _
  refine ⟨?_, fun on room => ?_, fun on full => ?_, fun off => ?_⟩
  · rw [e]
    split
    · rw [Mach.rxDrop, reg_count_of_ne _ _ (by unfold Reg.prtRxdrop Reg.prtRxframes; omega), frames]
    · split
      · rw [reg_count_of_ne _ _ (by unfold Reg.prtPlaindrop Reg.prtRxframes; omega), frames]
      · rw [(Alerts.raise _ _).reg _ (by unfold Reg.prtRxframes; omega)]
        exact frames
  · rw [e, on, Bool.not_true, if_neg Bool.false_ne_true, if_neg (Nat.not_le.mpr room)]
    refine ⟨pending_raise (intListed_port small), ?_⟩
    rw [Mach.plain, (Signals.raise (.refl [] _)).plainq]
    exact (tabGet_put (fun _ => ([] : List PlainRx)) p p _ _).trans (if_pos rfl)
  · rw [e, on, Bool.not_true, if_neg Bool.false_ne_true, if_pos full, plain_count, held, reg_count_self]
    refine ⟨rfl, ?_⟩
    rw [reg_count_of_ne _ _ (by unfold Reg.prtRxframes Reg.prtPlaindrop; omega)]
  · rw [e, off, Bool.not_false, if_pos rfl, Mach.rxDrop, reg_count_self, plain_count, held]
    refine ⟨?_, rfl⟩
    rw [reg_count_of_ne _ _ (by unfold Reg.prtRxframes Reg.prtRxdrop; omega)]

/-- A frame dropped. -/
theorem frameDropped (m : Mach) (p : Nat) (f : RxFrame) :
    let n := (m.rxCount p f).rxDrop p
    n.reg (Reg.prtRxdrop p) = w48 ((m.reg (Reg.prtRxdrop p)).toNat + 1) ∧ n.sent = m.sent ∧ n.ses = m.ses ∧
      (f.fcsOk = true → n.reg (Reg.prtRxframes p) = w48 ((m.reg (Reg.prtRxframes p)).toNat + 1)) := by
  intro n
  obtain ⟨sent, ses, _, regs⟩ := rxCount_stands m p f
  refine ⟨?_, ?_, ?_, fun ok => ?_⟩
  · rw [show n = (m.rxCount p f).count (Reg.prtRxdrop p) from rfl, reg_count_self, regs _ (by unfold Reg.prtRxframes Reg.prtRxdrop; omega)]
  · simpa [n, Mach.rxDrop, Mach.count] using sent
  · simpa [n, Mach.rxDrop, Mach.count] using ses
  · rw [show n = (m.rxCount p f).count (Reg.prtRxdrop p) from rfl, reg_count_of_ne _ _ (by unfold Reg.prtRxframes Reg.prtRxdrop; omega), rxCount_counts ok,
      reg_count_self]

/-! ### The oldest raw frame leaves -/

theorem job_wakeJob {x : Nat} {j : Job} (here : m.job x = some j) (waits : j.st = .waiting) (code detail count : Nat) :
    ((m.wakeJob x code detail count).job x).map Job.st = some .ready := by
  unfold Mach.wakeJob
  rw [here]
  dsimp only
  rw [if_pos waits, job_makeReady ((job_setJob _ _ _ _).trans (if_pos rfl)), if_pos rfl]
  rfl

theorem sent_wakeJob (m : Mach) (x code detail count : Nat) : (m.wakeJob x code detail count).sent = m.sent := by
  unfold Mach.wakeJob Mach.makeReady
  split
  · rfl
  · split
    · split
      · rfl
      · rfl
    · rfl

theorem txStamp_stands (m : Mach) (p sub : Nat) : (m.txStamp p sub).sent = m.sent ∧ (m.txStamp p sub).rawq = m.rawq ∧
    (m.txStamp p sub).jobs = m.jobs := by
  simp [Mach.txStamp]

theorem frameLeft_leaves {r : RawTx} {l : List RawTx} (queued : m.queue p = r :: l) (up : m.up = true) (en : m.portEn p = true)
    (link : m.linkUp p = true) (sub : Nat) :
    let os := r.octs ++ List.replicate (60 - r.octs.length) 0
    let n := m.frameLeft p sub
    n.queue p = l ∧ n.sent = .raw p (os ++ fcsOctets os) :: m.sent ∧
      ∀ j, r.posted = false → m.job r.ctx = some j → j.st = .waiting → (n.job r.ctx).map Job.st = some .ready := by
  intro os n
  let m1 := (m.setQueue p l).send (.raw p (os ++ fcsOctets os))
  let m2 := if m1.bit (Reg.prtCtl p) F.prtCtlPtp && isPtpEvent r.octs then m1.txStamp p sub else m1
  have e : n = if r.posted then m2 else m2.wakeJob r.ctx 0 0 := by
    unfold n Mach.frameLeft
    rw [queued]
    exact if_pos (by simp [up, en, link])
  have stands : m2.sent = m1.sent ∧ m2.rawq = m1.rawq ∧ m2.jobs = m1.jobs := by
    unfold m2
    split
    · exact txStamp_stands m1 p sub
    · exact ⟨rfl, rfl, rfl⟩
  obtain ⟨sent, rawq, jobs⟩ := stands
  have front : m1.queue p = l := (tabGet_put (fun _ => ([] : List RawTx)) p p l m.rawq).trans (if_pos rfl)
  rw [e]
  refine ⟨?_, ?_, fun j here at_ waits => ?_⟩
  · split
    · rw [Mach.queue, rawq]
      exact front
    · rw [Mach.queue, (Signals.wakeJob (.refl [] m2)).rawq, rawq]
      exact front
  · split
    · exact sent
    · exact (sent_wakeJob _ _ _ _ _).trans sent
  · rw [here, if_neg Bool.false_ne_true]
    refine job_wakeJob (j := j) ?_ waits _ _ _
    rw [Mach.job, jobs]
    exact at_

section

variable {s : State} {q : PortId}

theorem exec_plainFrame (takes : s.toMach.receives q.val = true) (is : s.toMach.classify q.val f = .plain) :
    exec (.plainFrame q f) s = .next { s with toMach := (s.toMach.rxCount q.val f).queuePlain q.val f none } := by
  refine (lift_next ?_ : execPlainFrame q f s = _)
  rw [if_pos takes, is]

theorem exec_ptpFrame (takes : s.toMach.receives q.val = true) (is : s.toMach.classify q.val f = .ptp) :
    exec (.ptpFrame q f) s =
      .next { s with toMach := (s.toMach.rxCount q.val f).queuePlain q.val f (some (s.toMach.rt, f.sub % 60)) } := by
  refine (lift_next ?_ : execPtpFrame q f s = _)
  rw [if_pos takes, is]

theorem exec_macFrame (takes : s.toMach.receives q.val = true) (is : s.toMach.classify q.val f = .mac) :
    exec (.macControlFrame q f) s = .next { s with toMach := (s.toMach.rxCount q.val f).rxDrop q.val } := by
  refine (lift_next ?_ : execMacControlFrame q f s = _)
  rw [if_pos takes, is]

theorem exec_discard (takes : s.toMach.receives q.val = true) (is : s.toMach.classify q.val f = .drop) :
    exec (.lcpFrameDiscard q f) s = .next { s with toMach := (s.toMach.rxCount q.val f).rxDrop q.val } := by
  refine (lift_next ?_ : execLcpFrameDiscard q f s = _)
  rw [if_pos takes, is]

/-- What a command that counts and queues a frame leaves, where the port takes plain frames, where its queue is full and where it
takes none. -/
theorem plainRow {c : Instr} {stamp : Option (Nat × Nat)} (small : p < 256) (ok : f.fcsOk = true)
    (e : exec c s = .next { s with toMach := (s.toMach.rxCount p f).queuePlain p f stamp }) :
    let m := s.toMach
    let counts := fun (t : State) => t.toMach.reg (Reg.prtRxframes p) = w48 ((m.reg (Reg.prtRxframes p)).toNat + 1)
    (m.bit (Reg.prtCtl p) F.prtCtlPlain = true → (m.plain p).length < 64 →
      ∃ t, exec c s = .next t ∧ counts t ∧ nbit (t.toMach.reg (Reg.intStat (128 + p))).toNat 0 = true ∧
        t.toMach.plain p = m.plain p ++ [{ octs := f.octs, stamp := stamp }]) ∧
    (m.bit (Reg.prtCtl p) F.prtCtlPlain = true → 64 ≤ (m.plain p).length →
      ∃ t, exec c s = .next t ∧ counts t ∧ t.toMach.plain p = m.plain p ∧
        t.toMach.reg (Reg.prtPlaindrop p) = w48 ((m.reg (Reg.prtPlaindrop p)).toNat + 1)) ∧
    (m.bit (Reg.prtCtl p) F.prtCtlPlain = false →
      ∃ t, exec c s = .next t ∧ counts t ∧
        t.toMach.reg (Reg.prtRxdrop p) = w48 ((m.reg (Reg.prtRxdrop p)).toNat + 1) ∧ t.toMach.plain p = m.plain p) := by
  intro m counts
  obtain ⟨frames, room, full, off⟩ := plainFrame_taken (m := m) small ok stamp
  exact ⟨fun on few => ⟨_, e, frames, room on few⟩, fun on many => ⟨_, e, frames, full on many⟩,
    fun none_ => ⟨_, e, frames, off none_⟩⟩

end

/-- Settles O33. -/
theorem portEvents : Obligations.PortEvents := by
  intro s w p f v sub
  dsimp only
  have small := p.isLt
  refine ⟨fun up committed en down cool => ⟨fun may => ?_, fun bad => ?_⟩, fun link => ?_, fun may => ?_, fun no => ?_,
    fun takes => ⟨?_, fun is => ?_, fun is => ?_⟩, fun r l queued up en link => ?_⟩
  · exact ⟨_, (lift_next rfl : execLinkUp p s = _), portUp_rises small up committed en down cool may⟩
  · refine ⟨_, (lift_next (portUp_refused up committed en down cool bad) : execLinkUp p s = _), ?_, ?_⟩
    · rw [Mach.linkUp, bit_setFld_apart _ _ (by decide) (by decide)]
      exact down
    · exact bit_setFld_same _ _ (by decide) rfl
  · exact ⟨_, (lift_next rfl : execLinkLoss p s = _), portDown_closes small link⟩
  · have e : s.toMach.portResetSet w p.val (v ||| 1) = s.toMach.resetPort p.val := if_pos (by rw [may, nbit_or_one]; rfl)
    obtain ⟨down, queue, plain⟩ := resetPort_leaves s.toMach small
    exact ⟨_, (lift_next e : execPortReset w p v s = _), down, resetPort_closes _ _, queue, plain, resetPort_regs _ small⟩
  · exact (lift_next (n := s.toMach) (if_neg (by simp [no])) : execPortReset w p v s = _)
  · intro row listed
    simp only [List.mem_cons, List.not_mem_nil, or_false] at listed
    rcases listed with rfl | rfl
    · intro is
      exact plainRow small (fcsOk_of_classify is RxClass.noConfusion) (exec_plainFrame takes is)
    · intro is
      exact plainRow small (fcsOk_of_classify is RxClass.noConfusion) (exec_ptpFrame takes is)
  · obtain ⟨drops, sent, _, counts⟩ := frameDropped s.toMach p.val f
    exact ⟨_, exec_macFrame takes is, counts (fcsOk_of_classify is RxClass.noConfusion), drops, sent⟩
  · obtain ⟨drops, sent, ses, _⟩ := frameDropped s.toMach p.val f
    exact ⟨_, exec_discard takes is, drops, sent, ses⟩
  · exact ⟨_, (lift_next rfl : execFrameLeftPort p sub s = _), frameLeft_leaves queued up en link sub⟩

end Sys2Proof.Machine
end

section
/-! PROOFS. Connection timers and SES_CTL (R83 to R87, R94, R102). -/

namespace Sys2Proof.Machine

open Sys2Proof

variable {m : Mach} {s : Nat} {c : Conn} {w : Who}

/-! ### A frame on a connection -/

/-- The frame that `connSend` sends. -/
def Mach.frameOf (m : Mach) (s : Nat) (c : Conn) (typ flags : Nat) (body : LcpBody) : LcpFrame :=
  { dst := c.peer.toNat, src := (m.reg (Reg.prtMac c.port)).toNat, typ := typ, flags := flags
    session := s, epoch := m.epoch, seq := (c.txseq + 1) % 2 ^ 32, cumack := c.rxseq
    credit := limitOf (m.live s) { c with stored := [] } % 65536, body := body }

/-- The connection after `connSend`. -/
def Mach.connAfter (m : Mach) (s : Nat) (c : Conn) (typ flags : Nat) (body : LcpBody) : Conn :=
  let c2 := { c with stored := [], lim := limitOf (m.live s) { c with stored := [] }, ackBy := none }
  if sequenced typ then
    { c2 with txseq := (c.txseq + 1) % 2 ^ 32, unacked := c.unacked ++ [m.frameOf s c typ flags body],
              progressAt := if c.unacked.isEmpty then m.now else c.progressAt }
  else c2

theorem connSend_open (open_ : (m.live s).conn = some c) (typ flags : Nat) (body : LcpBody) :
    m.connSend s typ flags body =
      (m.setLive s { m.live s with conn := some (m.connAfter s c typ flags body) }).send (.lcp c.port (m.frameOf s c typ flags body)) := by
  unfold Mach.connSend
  extract_lets e
  rw [show e.conn = some c from open_]
  rfl

theorem live_send (m : Mach) (t : Tx) (k : Nat) : (m.send t).live k = m.live k := rfl

theorem live_setLive_self (m : Mach) (s : Nat) (e : SesLive) : (m.setLive s e).live s = e := by rw [live_setLive, if_pos rfl]

theorem conn_connSend (open_ : (m.live s).conn = some c) (typ flags : Nat) (body : LcpBody) :
    ((m.connSend s typ flags body).live s).conn = some (m.connAfter s c typ flags body) := by
  rw [connSend_open open_, live_send, live_setLive_self]

theorem sent_connSend (open_ : (m.live s).conn = some c) (typ flags : Nat) (body : LcpBody) :
    (m.connSend s typ flags body).sent = .lcp c.port (m.frameOf s c typ flags body) :: m.sent := by
  rw [connSend_open open_]
  rfl

theorem sent_failSends (m : Mach) (s : Nat) : (m.failSends s).sent = m.sent := by
  unfold Mach.failSends
  extract_lets hit m1 m2
  have walk : ∀ (l : List ReplyWait) (x : Mach),
      (l.foldl (fun x r => if r.posted && r.placed.isSome then x else x.wakeJob r.ctx 0x08 1) x).sent = x.sent := by
    intro l
    induction l with
    | nil => exact fun _ => rfl
    | cons r l ih =>
      intro x
      rw [List.foldl_cons, ih]
      split
      · rfl
      · exact sent_wakeJob _ _ _ _ _
  exact walk hit m1

theorem sent_closeConn (m : Mach) (s : Nat) : (m.closeConn s).sent = m.sent := by
  unfold Mach.closeConn
  extract_lets e
  split
  · rfl
  · exact sent_failSends _ _

/-- A BYE of the module closes the connection and is the last that left. -/
theorem bye_leaves (open_ : (m.live s).conn = some c) (reason : Nat) :
    ((m.bye s reason).live s).conn = none ∧
      (m.bye s reason).sent = .lcp c.port (m.frameOf s c 9 0 (.bye reason)) :: m.sent := by
  have e : m.bye s reason = (m.connSend s 9 0 (.bye reason)).closeConn s := by
    unfold Mach.bye
    rw [open_]
  rw [e]
  exact ⟨(conn_closeConn _ _ _).trans (if_pos rfl), (sent_closeConn _ _).trans (sent_connSend open_ _ _ _)⟩

/-! ### Timers -/

theorem withConn_open (open_ : (m.live s).conn = some c) (act : Conn → Mach) : m.withConn s act = act c := by
  unfold Mach.withConn
  rw [open_]

theorem sends_count (fs : List LcpFrame) (p : Nat) (m : Mach) :
    (fs.foldl (fun x f => x.send (.lcp p f)) m).sent.length = m.sent.length + fs.length ∧
      (fs.foldl (fun x f => x.send (.lcp p f)) m).ses = m.ses := by
  induction fs generalizing m with
  | nil => exact ⟨rfl, rfl⟩
  | cons f fs ih =>
    obtain ⟨len, ses⟩ := ih (m.send (.lcp p f))
    refine ⟨?_, ses⟩
    rw [List.foldl_cons, len, List.length_cons]
    change m.sent.length + 1 + fs.length = _
    omega

theorem retransmit_again (open_ : (m.live s).conn = some c) (some_ : c.unacked ≠ []) (few : c.retx < 8) :
    let n := m.retransmit s
    ∃ d, (n.live s).conn = some d ∧ d.retx = c.retx + 1 ∧ d.progressAt = m.now ∧
      n.sent.length = m.sent.length + c.unacked.length := by
  intro n
  let c1 := { c with stored := [] }
  let lim := limitOf (m.live s) c1
  let fs := c.unacked.map fun f => { f with epoch := m.epoch, cumack := c.rxseq, credit := lim % 65536 }
  let d : Conn := { c1 with lim := lim, ackBy := none, unacked := fs, retx := c.retx + 1, progressAt := m.now }
  have e : n = (fs.foldl (fun x f => x.send (.lcp c.port f)) (m.setLive s { m.live s with conn := some d })).count
      (Reg.prtRetx c.port) fs.length := by
    unfold n Mach.retransmit
    extract_lets e
    rw [show e.conn = some c from open_]
    exact (if_neg (by simpa using some_)).trans (if_neg (Nat.not_le.mpr few))
  obtain ⟨len, ses⟩ := sends_count fs c.port (m.setLive s { m.live s with conn := some d })
  refine ⟨d, ?_, rfl, rfl, ?_⟩
  · rw [e, Mach.live, Mach.count, Mach.setReg_ses, ses, ← Mach.live, live_setLive_self]
  · rw [e, Mach.count, Mach.setReg_sent, len, List.length_map]
    rfl

theorem retransmit_ninth (open_ : (m.live s).conn = some c) (some_ : c.unacked ≠ []) (many : 8 ≤ c.retx) :
    m.retransmit s = m.bye s 4 := by
  unfold Mach.retransmit
  extract_lets e
  rw [show e.conn = some c from open_]
  exact (if_neg (by simpa using some_)).trans (if_pos many)

/-- The state with the peer probed. -/
def Mach.probed (m : Mach) (s : Nat) (c : Conn) : Mach :=
  m.draw.2.setLive s { m.draw.2.live s with conn := some { c with probed := true } }

theorem conn_probed (m : Mach) (s : Nat) (c : Conn) : ((m.probed s c).live s).conn = some { c with probed := true } := by
  rw [Mach.probed, live_setLive_self]

/-! ### SES_CTL -/

theorem sesCtlWrite_ignored {v : Word} (no : (m.sess s).used = false ∨ w.openTen (m.sess s).ten = false) : m.sesCtlWrite w s v = m :=
  if_pos (by rcases no with no | no <;> simp [no])

/-- The pending STORAGE value joined where it changes. -/
def Mach.storageSet (m : Mach) (s : Nat) (v : Word) : Mach :=
  if fbit v F.sesCtlStorage ≠ m.storageWritten s then m.pendWrite (.storage s (fbit v F.sesCtlStorage)) else m

theorem sesCtlWrite_plain {v : Word} (used : (m.sess s).used = true) (own : w.openTen (m.sess s).ten = true)
    (open_ : m.ledgerBarred = false) (stays : fbit v F.sesCtlKick = false) :
    m.sesCtlWrite w s v =
      if fbit v F.sesCtlRetire then
        if (m.storageSet s v).retireErr s = 0 then ((m.storageSet s v).pendWrite (.retire s)).sesErr s 0
        else (m.storageSet s v).sesErr s ((m.storageSet s v).retireErr s)
      else (m.storageSet s v).sesErr s 0 := by
  unfold Mach.sesCtlWrite
  rw [if_neg (by simp [used, own]), stays]
  dsimp only
  rw [if_neg Bool.false_ne_true, open_, if_neg Bool.false_ne_true]
  rfl

theorem sesCtlWrite_barred {v : Word} (used : (m.sess s).used = true) (own : w.openTen (m.sess s).ten = true)
    (barred : m.ledgerBarred = true) (stays : fbit v F.sesCtlKick = false) : m.sesCtlWrite w s v = m.sesErr s 3 := by
  unfold Mach.sesCtlWrite
  rw [if_neg (by simp [used, own]), stays]
  dsimp only
  rw [if_neg Bool.false_ne_true, if_pos barred]

theorem sesErr_leaves (m : Mach) (s k : Nat) : ((m.sesErr s k).live s).err = k ∧ (m.sesErr s k).ledger = m.ledger ∧
    (m.sesErr s k).sent = m.sent ∧ ((m.sesErr s k).live s).conn = (m.live s).conn := by
  refine ⟨?_, rfl, rfl, ?_⟩
  · rw [Mach.sesErr, live_setLive_self]
  · rw [Mach.sesErr, live_setLive_self]

theorem live_pendWrite (m : Mach) (x : LWrite) (k : Nat) : (m.pendWrite x).live k = m.live k := rfl

theorem storageSet_same {v : Word} (same : fbit v F.sesCtlStorage = m.storageWritten s) : m.storageSet s v = m :=
  if_neg (not_not.mpr same)

theorem sesCtlWrite_retire {v : Word} (used : (m.sess s).used = true) (own : w.openTen (m.sess s).ten = true)
    (open_ : m.ledgerBarred = false) (stays : fbit v F.sesCtlKick = false)
    (same : fbit v F.sesCtlStorage = m.storageWritten s) :
    m.sesCtlWrite w s (fset v F.sesCtlRetire 1) =
      if m.retireErr s = 0 then (m.pendWrite (.retire s)).sesErr s 0 else m.sesErr s (m.retireErr s) := by
  have kick : fbit (fset v F.sesCtlRetire 1) F.sesCtlKick = false := (fbit_fset_apart _ _ (by decide) (by decide)).trans stays
  have storage : fbit (fset v F.sesCtlRetire 1) F.sesCtlStorage = m.storageWritten s :=
    (fbit_fset_apart _ _ (by decide) (by decide)).trans same
  have retire : fbit (fset v F.sesCtlRetire 1) F.sesCtlRetire = true := (fbit_fset_same _ _ (by decide) rfl).trans (by decide)
  rw [sesCtlWrite_plain used own open_ kick, storageSet_same storage, if_pos retire]

theorem live_kicked {v : Word} (used : (m.sess s).used = true) (own : w.openTen (m.sess s).ten = true)
    (open_ : (m.live s).conn = some c) (kick : fbit v F.sesCtlKick = true) (stays : fbit v F.sesCtlRetire = false) :
    let n := m.sesCtlWrite w s v
    (n.live s).conn = none ∧ n.sent = .lcp c.port (m.frameOf s c 9 0 (.bye 2)) :: m.sent := by
  intro n
  obtain ⟨closed, sent⟩ := bye_leaves open_ 2
  obtain ⟨x, k, e, ses, sentX⟩ : ∃ (x : Mach) (k : Nat), n = x.sesErr s k ∧ x.ses = (m.bye s 2).ses ∧ x.sent = (m.bye s 2).sent := by
    unfold n Mach.sesCtlWrite
    rw [if_neg (by simp [used, own]), kick, if_pos rfl]
    dsimp only
    rw [stays, if_neg Bool.false_ne_true]
    split
    · exact ⟨_, _, rfl, rfl, rfl⟩
    · split
      · exact ⟨_, _, rfl, rfl, rfl⟩
      · exact ⟨_, _, rfl, rfl, rfl⟩
  obtain ⟨_, _, sentE, conn⟩ := sesErr_leaves x s k
  rw [e]
  refine ⟨?_, sentE.trans (sentX.trans sent)⟩
  rw [conn, Mach.live, ses]
  exact closed

/-! ### EPOCH frames to an idle peer -/

theorem epochFrame_due (idle : (m.live s).conn = none) (used : (m.sess s).used = true) (early : m.openFolio < (m.live s).epochEnd)
    (serve : m.serving = true) (latch : m.twin.latch = false) (link : m.linkUp (m.sess s).port = true)
    (once : (m.live s).epochFolio ≠ some m.openFolio) :
    let l := m.sess s
    m.epochFrame s = (m.setLive s { m.live s with epochFolio := some m.openFolio }).send (.lcp l.port
      { dst := l.peer.toNat, src := (m.reg (Reg.prtMac l.port)).toNat, typ := 6, session := s, epoch := m.epoch
        body := .epoch (m.live s).epochPrev m.role }) := by
  exact if_pos (by simp [idle, used, early, serve, latch, link, once])

/-- Settles O35. -/
theorem sessionEvents : Obligations.SessionEvents := by
  refine ⟨fun s k c => ?_, fun s w k v c => ?_⟩
  · dsimp only
    refine ⟨fun open_ => ⟨fun b due past => ?_, fun some_ late => ⟨fun few => ?_, fun many => ?_⟩, fun fresh quiet => ?_,
      fun dead => ?_⟩, fun idle used early serve latch link once => ?_⟩
    · refine ⟨_, _, (lift_next ((withConn_open open_ _).trans ?_) : execAckDue k s = _),
        ⟨_, congrArg List.head? (sent_connSend open_ 3 0 .none), rfl, rfl⟩, conn_connSend open_ 3 0 .none, rfl⟩
      rw [due]
      exact if_pos past
    · obtain ⟨d, conn, retx, at_, sent⟩ := retransmit_again open_ some_ few
      refine ⟨_, d, (lift_next ((withConn_open open_ _).trans ?_) : execRetransmitTimeout k s = _), conn, retx, at_, sent⟩
      exact if_pos (by simp [some_, late])
    · obtain ⟨closed, sent⟩ := bye_leaves open_ 4
      refine ⟨_, (lift_next ((withConn_open open_ _).trans ?_) : execRetransmitTimeout k s = _), closed,
        ⟨_, congrArg List.head? sent, rfl, rfl⟩⟩
      exact (if_pos (by simp [some_, late])).trans (retransmit_ninth open_ some_ many)
    · have probing := conn_probed s.toMach k.val c
      refine ⟨_, _, (lift_next ((withConn_open open_ _).trans (if_pos (by simp [fresh, quiet]))) : execIdleProbe k s = _),
        ⟨_, congrArg List.head? (sent_connSend probing 10 0 _), rfl, rfl⟩, conn_connSend probing 10 0 _, rfl⟩
    · obtain ⟨closed, sent⟩ := bye_leaves open_ 3
      exact ⟨_, (lift_next ((withConn_open open_ _).trans (if_pos dead)) : execIdleTimeout k s = _), closed,
        ⟨_, congrArg List.head? sent, rfl, rfl⟩⟩
    · refine ⟨_, (lift_next (epochFrame_due idle used early serve latch link once) : execEpochFrameRepeat k s = _), ?_,
        ⟨_, rfl, rfl, rfl⟩⟩
      rw [live_send, live_setLive_self]
  · dsimp only
    refine ⟨fun used own => ⟨fun open_ => ⟨fun ⟨stays, keeps⟩ change => ?_, fun stays same => ⟨fun idle none_ => ?_, fun conn => ?_,
      fun idle some_ => ?_⟩⟩, fun barred ⟨stays, _⟩ => ?_, fun open_ keeps => ?_⟩, fun no => ⟨?_, ?_, ?_⟩⟩
    · refine ⟨_, (lift_next (sesCtlWrite_plain used own open_ stays) : execSesStorageWrite w k v s = _), ?_⟩
      rw [if_neg (by rw [keeps]; decide), Mach.storageSet, if_pos change]
      exact ⟨(sesErr_leaves _ _ _).1, rfl⟩
    · have free : s.toMach.retireErr k.val = 0 := by simp [Mach.retireErr, idle, none_]
      refine ⟨_, (lift_next ((sesCtlWrite_retire used own open_ stays same).trans (if_pos free)) : execRetire w k v s = _),
        (sesErr_leaves _ _ _).1, rfl⟩
    · have taken : s.toMach.retireErr k.val = 1 := if_pos (Option.isSome_iff_ne_none.mpr conn)
      refine ⟨_, (lift_next ((sesCtlWrite_retire used own open_ stays same).trans (if_neg (by rw [taken]; decide))) :
        execRetire w k v s = _), (sesErr_leaves _ _ _).1.trans taken, rfl⟩
    · have pends : s.toMach.retireErr k.val = 2 := by simp [Mach.retireErr, idle, some_]
      refine ⟨_, (lift_next ((sesCtlWrite_retire used own open_ stays same).trans (if_neg (by rw [pends]; decide))) :
        execRetire w k v s = _), (sesErr_leaves _ _ _).1.trans pends, rfl⟩
    · exact ⟨_, (lift_next (sesCtlWrite_barred used own barred stays) : execSesStorageWrite w k v s = _),
        (sesErr_leaves _ _ _).1, rfl⟩
    · obtain ⟨closed, sent⟩ := live_kicked (v := fset v F.sesCtlKick 1) used own open_ (fbit_fset_same _ _ (by decide) rfl)
        ((fbit_fset_apart _ _ (by decide) (by decide)).trans keeps)
      exact ⟨_, (lift_next rfl : execKick w k v s = _), closed, _, sent, rfl, rfl⟩
    · exact (lift_next (sesCtlWrite_ignored no) : execSesStorageWrite w k v s = _)
    · exact (lift_next (sesCtlWrite_ignored no) : execKick w k v s = _)
    · exact (lift_next (sesCtlWrite_ignored no) : execRetire w k v s = _)

end Sys2Proof.Machine
end

section
/-! PROOFS. LCP frames received (R79, R82 to R89). -/

namespace Sys2Proof.Machine

open Sys2Proof

/-! ### What traffic on the connections leaves -/

/-- Connection `d` is `c` after traffic: the same peer, sequence and count received, a limit that never goes back (R86, R89). -/
structure Conn.Follows (c d : Conn) : Prop where
  port : d.port = c.port
  peer : d.peer = c.peer
  rxseq : d.rxseq = c.rxseq
  nextOrd : d.nextOrd = c.nextOrd
  lim : c.lim ≤ d.lim
  nakFolio : d.nakFolio = c.nakFolio

theorem Conn.Follows.refl (c : Conn) : c.Follows c := ⟨rfl, rfl, rfl, rfl, Nat.le_refl _, rfl⟩

theorem Conn.Follows.trans {c d e : Conn} (h : c.Follows d) (g : d.Follows e) : c.Follows e :=
  ⟨g.port.trans h.port, g.peer.trans h.peer, g.rxseq.trans h.rxseq, g.nextOrd.trans h.nextOrd, h.lim.trans g.lim,
    g.nakFolio.trans h.nakFolio⟩

/-- `n` is `m` after frames sent, acknowledgements and releases: each open connection stays open, session keys and peers stand,
what was sent stays sent, and the merge and the clock stand. -/
structure Flows (m n : Mach) : Prop where
  conn : ∀ k c, (m.live k).conn = some c → ∃ d, (n.live k).conn = some d ∧ c.Follows d
  sess : ∀ k, (n.sess k).used = (m.sess k).used ∧ (n.sess k).ten = (m.sess k).ten ∧ (n.sess k).pid = (m.sess k).pid ∧
    (n.sess k).stream = (m.sess k).stream ∧ (n.sess k).peer = (m.sess k).peer ∧ (n.sess k).port = (m.sess k).port
  sent : ∃ l, n.sent = l ++ m.sent
  merge : n.merge = m.merge
  rt : n.rt = m.rt
  now : n.now = m.now

namespace Flows

variable {m x n o : Mach}

/-- The connections, the session keys, what was sent, the merge and the clock stand. -/
theorem of_eq (ses : n.ses = m.ses) (led : n.ledger.sessions = m.ledger.sessions) (sent : n.sent = m.sent) (merge : n.merge = m.merge)
    (rt : n.rt = m.rt) (now : n.now = m.now) : Flows m n := by
  have live : ∀ k, n.live k = m.live k := fun k => by rw [Mach.live, ses, Mach.live]
  have keys : ∀ k, n.sess k = m.sess k := fun k => by rw [Mach.sess, led, Mach.sess]
  exact ⟨fun k c h => ⟨c, (live k).symm ▸ h, .refl c⟩, fun k => by rw [keys k]; exact ⟨rfl, rfl, rfl, rfl, rfl, rfl⟩,
    ⟨[], sent⟩, merge, rt, now⟩

theorem refl (m : Mach) : Flows m m := of_eq rfl rfl rfl rfl rfl rfl

theorem trans (h : Flows m n) (g : Flows n o) : Flows m o := by
  refine ⟨fun k c open_ => ?_, fun k => ?_, ?_, g.merge.trans h.merge, g.rt.trans h.rt, g.now.trans h.now⟩
  · obtain ⟨d, at_, cd⟩ := h.conn k c open_
    obtain ⟨e, at', de⟩ := g.conn k d at_
    exact ⟨e, at', cd.trans de⟩
  · obtain ⟨u, t, p, s, q, r⟩ := h.sess k
    obtain ⟨u', t', p', s', q', r'⟩ := g.sess k
    exact ⟨u'.trans u, t'.trans t, p'.trans p, s'.trans s, q'.trans q, r'.trans r⟩
  · obtain ⟨l, e⟩ := h.sent
    obtain ⟨l', e'⟩ := g.sent
    exact ⟨l' ++ l, by rw [e', e, List.append_assoc]⟩

theorem ite {p : Prop} [Decidable p] {a b : Mach} (ha : Flows m a) (hb : Flows m b) : Flows m (if p then a else b) := by
  split
  · exact ha
  · exact hb

theorem foldl {β : Type} {f : Mach → β → Mach} {l : List β} (h : Flows m x)
    (step : ∀ y b, Flows m y → Flows m (f y b)) : Flows m (l.foldl f x) := by
  induction l generalizing x with
  | nil => exact h
  | cons b l ih => exact ih (step x b h)

theorem send {t} (h : Flows m x) : Flows m (x.send t) :=
  h.trans ⟨fun _ c open_ => ⟨c, open_, .refl c⟩, fun _ => ⟨rfl, rfl, rfl, rfl, rfl, rfl⟩, ⟨[t], rfl⟩, rfl, rfl, rfl⟩

/-- The entry of a session changed, its connection at most as traffic changes it. -/
theorem setLive {s e} (h : Flows m x) (keeps : ∀ c, (x.live s).conn = some c → ∃ d, e.conn = some d ∧ c.Follows d) :
    Flows m (x.setLive s e) := by
  refine h.trans ⟨fun k c open_ => ?_, fun _ => ⟨rfl, rfl, rfl, rfl, rfl, rfl⟩, ⟨[], rfl⟩, rfl, rfl, rfl⟩
  rw [live_setLive]
  split
  next same => exact keeps c (same ▸ open_)
  · exact ⟨c, open_, .refl c⟩

/-- The entry of a session changed but for its connection. -/
theorem setLive_conn {s e} (h : Flows m x) (same : e.conn = (x.live s).conn) : Flows m (x.setLive s e) :=
  h.setLive fun c open_ => ⟨c, same.trans open_, .refl c⟩

theorem signals {L : List Nat} (h : Flows m x) (g : Signals L x n) (ses : n.ses = x.ses) (sent : n.sent = x.sent) : Flows m n :=
  h.trans (of_eq ses (by rw [g.ledger]) sent g.merge g.rt g.now)

theorem wakeJob {j code detail count} (h : Flows m x) : Flows m (x.wakeJob j code detail count) :=
  h.signals (L := []) (.wakeJob (.refl _ x)) (ses_wakeJob _ _ _ _ _) (sent_wakeJob _ _ _ _ _)

theorem count {a k} (h : Flows m x) (plain : ledgerAddr a = false) : Flows m (x.count a k) :=
  h.trans (of_eq (by simp [Mach.count]) (by rw [Mach.count, ledger_setReg_plain _ plain]) (by simp [Mach.count])
    (by simp [Mach.count]) (by simp [Mach.count]) (by simp [Mach.count]))

end Flows

section

variable {m x : Mach} {s : Nat} {c : Conn}

theorem le_limitOf (e : SesLive) (c : Conn) : c.lim ≤ limitOf e c := Nat.le_max_left _ _

theorem follows_connAfter (m : Mach) (s : Nat) (c : Conn) (typ flags : Nat) (body : LcpBody) :
    c.Follows (m.connAfter s c typ flags body) := by
  have lim : c.lim ≤ limitOf (m.live s) { c with stored := [] } := le_limitOf (m.live s) { c with stored := [] }
  unfold Mach.connAfter
  extract_lets c2
  split
  · exact ⟨rfl, rfl, rfl, rfl, lim, rfl⟩
  · exact ⟨rfl, rfl, rfl, rfl, lim, rfl⟩

theorem connSend_closed (closed : (m.live s).conn = none) (typ flags : Nat) (body : LcpBody) : m.connSend s typ flags body = m := by
  unfold Mach.connSend
  extract_lets e
  rw [show e.conn = none from closed]

theorem follows_answer (e : SesLive) (c : Conn) (out : Option (Nat × Nat) × RelEntry) : c.Follows (answer e c out) := by
  unfold answer
  split
  · split
    · exact ⟨rfl, rfl, rfl, rfl, Nat.le_refl _, rfl⟩
    · exact .refl c
  · exact ⟨rfl, rfl, rfl, rfl, Nat.le_refl _, rfl⟩

theorem follows_answers {β : Type} (e : SesLive) (g : β → Option (Nat × Nat) × RelEntry) (l : List β) (c : Conn) :
    c.Follows (l.foldl (fun a r => answer e a (g r)) c) := by
  induction l generalizing c with
  | nil => exact .refl c
  | cons r l ih => exact (follows_answer e c (g r)).trans (ih _)

namespace Flows

theorem connSend {typ flags body} (h : Flows m x) : Flows m (x.connSend s typ flags body) := by
  cases open_ : (x.live s).conn with
  | none =>
    rw [connSend_closed open_]
    exact h
  | some c =>
    rw [connSend_open open_]
    refine (h.setLive fun d at_ => ⟨_, rfl, ?_⟩).send
    rw [open_] at at_
    exact Option.some.inj at_ ▸ follows_connAfter x s c typ flags body

theorem flushN {n} (h : Flows m x) : Flows m (Mach.flushN n s x) := by
  induction n generalizing x with
  | zero => exact h
  | succ n ih =>
    unfold Mach.flushN
    extract_lets e
    split
    · exact h
    next c open_ =>
      refine .ite h ?_
      split
      · refine ih (Flows.connSend (h.setLive fun d at_ => ⟨_, rfl, ?_⟩))
        rw [show (x.live s).conn = some c from open_] at at_
        exact Option.some.inj at_ ▸ ⟨rfl, rfl, rfl, rfl, Nat.le_refl _, rfl⟩
      · refine .ite h (ih (Flows.connSend (h.setLive fun d at_ => ⟨_, rfl, ?_⟩)))
        rw [show (x.live s).conn = some c from open_] at at_
        exact Option.some.inj at_ ▸ follows_answers e id _ c

theorem flush (h : Flows m x) : Flows m (x.flush s) := h.flushN

theorem replayN {n es} (h : Flows m x) : Flows m (Mach.replayN n s es x) := by
  induction n generalizing x es with
  | zero => exact h
  | succ n ih =>
    unfold Mach.replayN
    refine .ite h ?_
    extract_lets now e
    split
    · exact h
    next c open_ =>
      refine ih (Flows.connSend (h.setLive fun d at_ => ⟨_, rfl, ?_⟩))
      rw [show (x.live s).conn = some c from open_] at at_
      exact Option.some.inj at_ ▸ follows_answers e (fun r => (none, r)) now c

/-- The replies and jobs changed. -/
theorem parts {replies jobs} (h : Flows m x) : Flows m { x with replies := replies, jobs := jobs } :=
  h.trans (of_eq rfl rfl rfl rfl rfl rfl)

theorem ackConn {cum} (h : Flows m x) : Flows m (x.ackConn s cum) := by
  unfold Mach.ackConn
  extract_lets e
  split
  · exact h
  next c open_ =>
    extract_lets done ids c1 m1 acked m2
    refine .ite h (foldl (parts (h.setLive fun d at_ => ⟨_, rfl, ?_⟩)) fun y r hy => .ite hy hy.wakeJob)
    rw [show (x.live s).conn = some c from open_] at at_
    exact Option.some.inj at_ ▸ ⟨rfl, rfl, rfl, rfl, Nat.le_refl _, rfl⟩

theorem placeReply {r} (h : Flows m x) : Flows m (x.placeReply r) := by
  unfold Mach.placeReply
  extract_lets e
  split
  · exact h
  next c open_ =>
    extract_lets m1 m2 seq m3
    have h1 : Flows m m1 := by
      refine h.setLive fun d at_ => ⟨_, rfl, ?_⟩
      rw [show (x.live r.ses).conn = some c from open_] at at_
      exact Option.some.inj at_ ▸ ⟨rfl, rfl, rfl, rfl, Nat.le_refl _, rfl⟩
    have h2 : Flows m m2 := h1.connSend
    exact .ite h (.ite (wakeJob (h2.parts)) h2.parts)

theorem flushReplies (h : Flows m x) : Flows m x.flushReplies := h.foldl fun _ _ h => h.placeReply

theorem ackWithin {k} (h : Flows m x) : Flows m (x.ackWithin s k) := by
  unfold Mach.ackWithin
  extract_lets e
  split
  · exact h
  next c open_ =>
    extract_lets by_
    refine h.setLive fun d at_ => ⟨_, rfl, ?_⟩
    rw [show (x.live s).conn = some c from open_] at at_
    exact Option.some.inj at_ ▸ ⟨rfl, rfl, rfl, rfl, Nat.le_refl _, rfl⟩

/-! #### Releases -/

theorem setReg {a v} (h : Flows m x) : Flows m (x.setReg a v) := by
  refine h.trans (of_eq (by simp) ?_ (by simp) (by simp) (by simp) (by simp))
  obtain ⟨_, e⟩ := ledger_setReg x a v
  rw [e]

theorem setPair {a b v} (h : Flows m x) : Flows m (x.setPair a b v) := h.setReg.setReg

theorem setAcc {t e} (h : Flows m x) : Flows m (x.setAcc t e) := h.trans (of_eq rfl rfl rfl rfl rfl rfl)

theorem queueEntry {now r} (h : Flows m x) : Flows m (x.queueEntry s now r) := by
  unfold Mach.queueEntry
  extract_lets e
  split
  · exact h
  next c open_ => exact h.setLive_conn rfl

/-- A session's table and its highest id changed. -/
theorem setSess_key {e : LSes} (h : Flows m x) (used : e.used = (x.sess s).used) (ten : e.ten = (x.sess s).ten)
    (pid : e.pid = (x.sess s).pid) (stream : e.stream = (x.sess s).stream) (peer : e.peer = (x.sess s).peer)
    (port : e.port = (x.sess s).port) : Flows m (x.setSess s e) := by
  refine h.trans ⟨fun k c open_ => ⟨c, open_, .refl c⟩, fun k => ?_, ⟨[], rfl⟩, rfl, rfl, rfl⟩
  rw [Mach.sess_setSess]
  split
  next same =>
    subst same
    exact ⟨used, ten, pid, stream, peer, port⟩
  · exact ⟨rfl, rfl, rfl, rfl, rfl, rfl⟩

theorem releaseItem {j folio} (h : Flows m x) : Flows m (x.releaseItem s j folio) := by
  unfold Mach.releaseItem
  extract_lets l m1 e m2
  have h1 : Flows m m1 := h.setSess_key rfl rfl rfl rfl rfl rfl
  have h2 : Flows m m2 := h1.setLive_conn rfl
  exact h2.queueEntry

theorem release {t k} (h : Flows m x) : Flows m (x.release t k) := by
  unfold Mach.release
  extract_lets m1 m2 m3
  have h2 : Flows m m2 := .ite h.setReg.setPair h.setReg
  exact foldl h2.setPair fun y j hy => .ite hy hy.releaseItem

theorem releaseList {t l} (h : Flows m x) : Flows m (Mach.releaseList t l x) := by
  induction l generalizing x with
  | nil => exact h
  | cons k l ih =>
    unfold Mach.releaseList
    extract_lets m1
    exact .ite (ih (setAcc h.release)) h

theorem releaseAll (h : Flows m x) : Flows m x.releaseAll := by
  unfold Mach.releaseAll
  extract_lets m1
  have h1 : Flows m m1 := h.foldl fun _ _ h => h.releaseList
  exact h1.foldl fun _ _ h => h.flush

theorem notice {t code arg} (h : Flows m x) : Flows m (x.notice t code arg) := by
  obtain ⟨_, _, _, e⟩ := (Alerts.notice x t code arg).rest
  rw [e]
  exact h.trans (of_eq rfl rfl rfl rfl rfl rfl)

theorem logStored {e} (h : Flows m x) : Flows m (x.logStored s e) := by
  unfold Mach.logStored
  extract_lets old m1 hit
  have h1 : Flows m m1 := h.setLive_conn rfl
  exact h1.foldl fun y j hy => wakeJob (hy.trans (of_eq rfl rfl rfl rfl rfl rfl))

theorem storedItem {i} (h : Flows m x) : Flows m (x.storedItem s i) := by
  unfold Mach.storedItem
  extract_lets os vol ten res m1
  have h1 : Flows m m1 := h.logStored
  exact .ite (.ite h1 (h1.trans (of_eq rfl rfl rfl rfl rfl rfl))) h1.notice

end Flows

/-! ### Registers through the traffic -/

namespace Signals

variable {L : List Nat}

theorem ackConn {cum} (h : Signals L m x) : Signals L m (x.ackConn s cum) := by
  unfold Mach.ackConn
  extract_lets e
  split
  · exact h
  · extract_lets done ids c1 m1 acked m2
    have h1 : Signals L m m1 := h.setLive
    exact .ite h (foldl h1.parts fun y r hy => .ite hy hy.wakeJob)

theorem placeReply {r} (h : Signals L m x) : Signals L m (x.placeReply r) := by
  unfold Mach.placeReply
  extract_lets e
  split
  · exact h
  · extract_lets m1 m2 seq m3
    have h2 : Signals L m m2 := h.setLive.connSend
    exact .ite h (.ite (wakeJob h2.parts) h2.parts)

theorem flushReplies (h : Signals L m x) : Signals L m x.flushReplies := h.foldl fun _ _ h => h.placeReply

theorem ackWithin {k} (h : Signals L m x) : Signals L m (x.ackWithin s k) := by
  unfold Mach.ackWithin
  extract_lets e
  split
  · exact h
  · exact h.setLive

theorem heard {g} (h : Signals L m x) : Signals L m (x.heard s g) := by
  unfold Mach.heard
  extract_lets e
  split
  · exact h
  · extract_lets m1 m2
    have h2 : Signals L m m2 := (ackConn h.setLive).flush.flushReplies
    exact .ite h2.ackWithin h2

end Signals

/-! ### A frame heard -/

/-- The connection with a frame heard: the peer is not silent, and CREDIT applies. -/
def Mach.heardConn (m : Mach) (c : Conn) (g : LcpFrame) : Conn :=
  { c with rxAt := m.now, probed := false, plim := raiseLimit c.plim g.credit }

/-- A frame heard, before its acknowledgements act. -/
def Mach.hears (m : Mach) (s : Nat) (c : Conn) (g : LcpFrame) : Mach :=
  m.setLive s { m.live s with conn := some (m.heardConn c g) }

theorem heard_open {g : LcpFrame} (open_ : (m.live s).conn = some c) : m.heard s g =
    if nbit g.flags 5 then ((((m.hears s c g).ackConn s g.cumack).flush s).flushReplies).ackWithin s 64
    else (((m.hears s c g).ackConn s g.cumack).flush s).flushReplies := by
  unfold Mach.heard
  extract_lets e
  rw [show e.conn = some c from open_]
  rfl

theorem Flows.heard {g : LcpFrame} (h : Flows m x) : Flows m (x.heard s g) := by
  cases open_ : (x.live s).conn with
  | none =>
    unfold Mach.heard
    extract_lets e
    rw [show e.conn = none from open_]
    exact h
  | some c =>
    rw [heard_open open_]
    have h1 : Flows m (x.hears s c g) := h.setLive fun d at_ => ⟨_, rfl, by
      rw [open_] at at_
      exact Option.some.inj at_ ▸ ⟨rfl, rfl, rfl, rfl, Nat.le_refl _, rfl⟩⟩
    have h2 := h1.ackConn (s := s) (cum := g.cumack) |>.flush (s := s) |>.flushReplies
    exact .ite h2.ackWithin h2

theorem flush_idle {c : Conn} (open_ : (m.live s).conn = some c) (queue : (m.live s).outq = []) (due : c.epochDue = none) :
    m.flush s = m := by
  unfold Mach.flush Mach.flushN
  extract_lets e
  rw [show e.conn = some c from open_]
  dsimp only
  rw [due, show e.outq = [] from queue]
  dsimp only
  split
  · rfl
  · rfl

theorem flushReplies_none (none_ : m.replies = []) : m.flushReplies = m := by rw [Mach.flushReplies, none_]; rfl

/-- An acknowledgement on a connection for which no reply waits. -/
theorem ackConn_leaves {cum : Nat} (open_ : (m.live s).conn = some c) (none_ : m.replies = []) (sane : seqLt c.txseq cum = false) :
    let acked := c.unacked.filter fun f => seqLt cum f.seq
    let n := m.ackConn s cum
    (∃ d, (n.live s).conn = some d ∧ d.unacked = acked ∧ d.rxAt = c.rxAt ∧ d.plim = c.plim ∧ d.epochDue = c.epochDue ∧
      d.port = c.port ∧ (acked = c.unacked → d.retx = c.retx)) ∧ (n.live s).outq = (m.live s).outq ∧ n.replies = [] ∧ n.sent = m.sent := by
  intro acked n
  by_cases idle : (c.unacked.filter fun f => !seqLt cum f.seq) = []
  · have e : n = m := by
      unfold n Mach.ackConn
      extract_lets e
      rw [show e.conn = some c from open_]
      exact if_pos (by simp [idle])
    have all : acked = c.unacked := by
      refine List.filter_eq_self.mpr fun f listed => ?_
      have := List.filter_eq_nil_iff.mp idle f listed
      simpa using this
    rw [e]
    exact ⟨⟨c, open_, all.symm, rfl, rfl, rfl, rfl, fun _ => rfl⟩, rfl, none_, rfl⟩
  · obtain ⟨delivered, jobs, e⟩ : ∃ delivered jobs, n = { m.setLive s { m.live s with
        conn := some { c with unacked := acked, retx := 0, progressAt := m.now }, delivered := delivered } with
        replies := [], jobs := jobs } := by
      unfold n Mach.ackConn
      extract_lets e
      rw [show e.conn = some c from open_]
      dsimp only
      rw [if_neg (by simpa [sane] using idle)]
      simp only [Mach.setLive, none_, List.filter_nil, List.foldl_nil]
      exact ⟨_, _, rfl⟩
    have live : n.live s = { m.live s with
        conn := some { c with unacked := acked, retx := 0, progressAt := m.now }, delivered := delivered } := by
      rw [e]
      exact live_setLive_self m s _
    rw [live]
    refine ⟨⟨_, rfl, rfl, rfl, rfl, rfl, rfl, fun all => ?_⟩, rfl, by rw [e], by rw [e]; rfl⟩
    refine absurd ?_ idle
    rw [List.filter_eq_nil_iff]
    intro f listed
    have := List.filter_eq_self.mp all f listed
    simp [this]

end

end Sys2Proof.Machine
end

section
/-! PROOFS. LCP frames received, by type (R79 to R90). -/

namespace Sys2Proof.Machine

open Sys2Proof

variable {m x : Mach} {p k : Nat} {f : RxFrame} {g : LcpFrame} {c : Conn}

/-! ### Steps before the connection -/

/-- The state that has counted an LCP frame. -/
def Mach.received (m : Mach) (p : Nat) (f : RxFrame) : Mach := (m.rxCount p f).count (Reg.prtRxlcp p)

/-- `x` is `m` with counters of a port changed. -/
structure Counted (p : Nat) (m x : Mach) : Prop where
  rest : ∃ r, x = { m with regs := r }
  reg : ∀ a, a ≠ Reg.prtRxframes p → a ≠ Reg.prtRxlcp p → a ≠ Reg.prtNakrx p → x.reg a = m.reg a

theorem Counted.count {n a : Nat} (h : Counted p m x) (small : p < 256)
    (may : a = Reg.prtRxframes p ∨ a = Reg.prtRxlcp p ∨ a = Reg.prtNakrx p) : Counted p m (x.count a n) := by
  obtain ⟨r, rfl⟩ := h.rest
  have plain : ledgerAddr a = false := by
    rcases may with rfl | rfl | rfl
    · exact ledgerAddr_port (k := 8) small (by decide) ▸ by unfold Reg.prtRxframes; congr 1; omega
    · exact ledgerAddr_port (k := 9) small (by decide) ▸ by unfold Reg.prtRxlcp; congr 1; omega
    · exact ledgerAddr_port (k := 12) small (by decide) ▸ by unfold Reg.prtNakrx; congr 1; omega
  refine ⟨?_, fun b n1 n2 n3 => (reg_count_of_ne _ _ ?_).trans (h.reg b n1 n2 n3)⟩
  · rw [Mach.count, Mach.setReg, plain]
    exact ⟨_, rfl⟩
  · rcases may with rfl | rfl | rfl
    · exact n1.symm
    · exact n2.symm
    · exact n3.symm

theorem counted_received (m : Mach) (small : p < 256) (f : RxFrame) : Counted p m (m.received p f) := by
  have start : Counted p m m := ⟨⟨m.regs, rfl⟩, fun _ _ _ _ => rfl⟩
  have first : Counted p m (m.rxCount p f) := by
    unfold Mach.rxCount
    split
    · exact start.count small (.inl rfl)
    · exact start
  exact first.count small (.inr (.inl rfl))

theorem Counted.low (h : Counted p m x) {a : Nat} (low : a < 0x40000 ∨ 0x50000 ≤ a) (small : p < 256) : x.reg a = m.reg a :=
  h.reg a (by unfold Reg.prtRxframes; omega) (by unfold Reg.prtRxlcp; omega) (by unfold Reg.prtNakrx; omega)

theorem Counted.serving (h : Counted p m x) (small : p < 256) : x.serving = m.serving := by
  have stat : x.reg Reg.twnStat = m.reg Reg.twnStat := h.low (by decide) small
  rw [Mach.serving, Mach.role, fld_congr stat, Mach.serving, Mach.role]

theorem Counted.epoch (h : Counted p m x) (small : p < 256) : x.epoch = m.epoch := by
  rw [Mach.epoch, h.low (by decide) small, Mach.epoch]

theorem Counted.live (h : Counted p m x) (k : Nat) : x.live k = m.live k := by obtain ⟨r, rfl⟩ := h.rest; rfl

theorem rxTyped_lcp {typ : Nat} {act : Mach → LcpFrame → Mach} (takes : m.receives p = true) (is : m.classify p f = .lcp g)
    (typed : g.typ = typ) : m.rxTyped p f typ act = act (m.received p f) g := by
  unfold Mach.rxTyped
  rw [takes, is]
  exact if_pos typed

theorem onConn_hears (serve : x.serving = true) (latch : x.twin.latch = false) (conn : x.connOf p g.session g.src = some k)
    (act : Mach → Nat → Mach)
    (permitted : if g.typ = 2 then g.epoch = (x.heard k g).epoch else g.epoch ≤ (x.heard k g).epoch) :
    x.onConn p g act = act (x.heard k g) k := by
  unfold Mach.onConn
  rw [serve, latch, conn]
  rw [if_neg (by decide)]
  dsimp only
  refine if_neg ?_
  split at permitted
  next data =>
    rw [if_pos data]
    exact not_not.mpr permitted
  next other =>
    rw [if_neg other]
    exact Nat.not_lt.mpr permitted

theorem epoch_heard (x : Mach) (k : Nat) (g : LcpFrame) : (x.heard k g).epoch = x.epoch := by
  rw [Mach.epoch, (Signals.heard (L := []) (.refl _ x)).reg _ (by decide) (by simp), Mach.epoch]

theorem connOf_open (conn : m.connOf p g.session g.src = some k) (open_ : (m.live k).conn = some c) : c.port = p := by
  unfold Mach.connOf at conn
  split at conn
  next d at_ =>
    split at conn
    next both =>
      have same : g.session = k := Option.some.inj conn
      rw [same, open_] at at_
      rw [Option.some.inj at_]
      exact of_decide_eq_true (Bool.and_eq_true_iff.mp both).1
    · cases conn
  · cases conn

/-- The state after the steps before a frame's own action, on its connection. -/
structure Heard (p k : Nat) (c : Conn) (g : LcpFrame) (m x y : Mach) : Prop where
  counted : Counted p m x
  is : y = x.heard k g
  openBefore : (m.live k).conn = some c
  port : c.port = p

theorem Heard.flows (h : Heard p k c g m x y) : Flows m y := by
  obtain ⟨r, e⟩ := h.counted.rest
  have first : Flows m x := by rw [e]; exact .of_eq rfl rfl rfl rfl rfl rfl
  rw [h.is]
  exact first.heard

theorem Heard.open (h : Heard p k c g m x y) : ∃ d, (y.live k).conn = some d ∧ c.Follows d := h.flows.conn k c h.openBefore

/-! ### DATA -/

theorem length_mergeAdd (i : MergeItem) (l : List MergeItem) : (mergeAdd i l).length = l.length + 1 := by
  induction l with
  | nil => rfl
  | cons a l ih =>
    unfold mergeAdd
    split
    · rw [List.length_cons, ih, List.length_cons]
    · rfl

/-- An item other than STORED joins the merge. -/
theorem admitItems_work {i : LcpItem} (frm : Nat) (l : List LcpItem) (pos : Nat) (open_ : (m.live k).conn = some c)
    (work : i.itype ≠ 2) : ∃ y, Mach.admitItems p k frm pos (i :: l) m = Mach.admitItems p k frm (pos + 1) l
      { m.setLive k { m.live k with conn := some { c with nextOrd := c.nextOrd + 1, unans := c.unans ++ [(c.nextOrd, i.id)] } } with
        merge := mergeAdd y m.merge } := by
  rw [Mach.admitItems]
  extract_lets e
  rw [show e.conn = some c from open_]
  dsimp only
  rw [if_neg work]
  exact ⟨_, rfl⟩

theorem admitItems_stored {i : LcpItem} (frm : Nat) (l : List LcpItem) (pos : Nat) (open_ : (m.live k).conn = some c)
    (stored : i.itype = 2) : Mach.admitItems p k frm pos (i :: l) m = Mach.admitItems p k frm (pos + 1) l
      ((m.setLive k { m.live k with conn := some { c with nextOrd := c.nextOrd + 1, stored := c.stored ++ [c.nextOrd] } }).storedItem
        k i) := by
  rw [Mach.admitItems]
  extract_lets e
  rw [show e.conn = some c from open_]
  exact if_pos stored

theorem admitItems_leaves (frm : Nat) (l : List LcpItem) (pos : Nat) (m : Mach) (c : Conn) (open_ : (m.live k).conn = some c) :
    let n := Mach.admitItems p k frm pos l m
    (∃ d, (n.live k).conn = some d ∧ d.rxseq = c.rxseq ∧ d.nextOrd = c.nextOrd + l.length) ∧
      n.merge.length = m.merge.length + (l.filter fun i => i.itype ≠ 2).length := by
  induction l generalizing m c pos with
  | nil => exact ⟨⟨c, open_, rfl, rfl⟩, rfl⟩
  | cons i l ih =>
    intro n
    unfold n
    by_cases stored : i.itype = 2
    · rw [admitItems_stored frm l pos open_ stored, List.filter_cons_of_neg (by simp [stored]), List.length_cons]
      let c1 : Conn := { c with nextOrd := c.nextOrd + 1, stored := c.stored ++ [c.nextOrd] }
      let m1 := m.setLive k { m.live k with conn := some c1 }
      have kept : Flows m1 (m1.storedItem k i) := .storedItem (.refl m1)
      obtain ⟨c2, h2, follows⟩ := kept.conn k c1 (by rw [live_setLive_self])
      obtain ⟨⟨d, h3, rx, ord⟩, len⟩ := ih (pos + 1) (m1.storedItem k i) c2 h2
      refine ⟨⟨d, h3, rx.trans follows.rxseq, ?_⟩, len.trans (by rw [kept.merge]; rfl)⟩
      rw [ord, follows.nextOrd]
      change c.nextOrd + 1 + l.length = _
      omega
    · obtain ⟨y, e⟩ := admitItems_work (p := p) frm l pos open_ stored
      rw [e, List.filter_cons_of_pos (by simp [stored]), List.length_cons, List.length_cons]
      obtain ⟨⟨d, h3, rx, ord⟩, len⟩ := ih (pos + 1) { m.setLive k { m.live k with
          conn := some { c with nextOrd := c.nextOrd + 1, unans := c.unans ++ [(c.nextOrd, i.id)] } } with
            merge := mergeAdd y m.merge } { c with nextOrd := c.nextOrd + 1, unans := c.unans ++ [(c.nextOrd, i.id)] }
        (live_setLive_self m k _ ▸ rfl)
      refine ⟨⟨d, h3, rx, ord.trans ?_⟩, len.trans ?_⟩
      · change c.nextOrd + 1 + l.length = _
        omega
      · change (mergeAdd y m.merge).length + _ = _
        rw [length_mergeAdd]
        omega

/-! ### Registers that a frame heard leaves -/

theorem regs_makeReady (m : Mach) (j : Nat) : (m.makeReady j).regs = m.regs := by
  unfold Mach.makeReady
  split
  · rfl
  · rfl

theorem regs_wakeJob (m : Mach) (j code detail count : Nat) : (m.wakeJob j code detail count).regs = m.regs := by
  unfold Mach.wakeJob
  split
  · rfl
  · split
    · exact regs_makeReady _ _
    · rfl

theorem regs_connSend (m : Mach) (s typ flags : Nat) (body : LcpBody) : (m.connSend s typ flags body).regs = m.regs := by
  cases open_ : (m.live s).conn with
  | none => rw [connSend_closed open_]
  | some c =>
    rw [connSend_open open_]
    rfl

theorem regs_flushN (n s : Nat) (m : Mach) : (Mach.flushN n s m).regs = m.regs := by
  induction n generalizing m with
  | zero => rfl
  | succ n ih =>
    unfold Mach.flushN
    extract_lets e
    split
    · rfl
    · split
      · rfl
      · split
        · exact (ih _).trans ((regs_connSend _ _ _ _ _).trans rfl)
        · split
          · rfl
          · exact (ih _).trans ((regs_connSend _ _ _ _ _).trans rfl)

theorem regs_foldl {β : Type} {h : Mach → β → Mach} (step : ∀ y b, (h y b).regs = y.regs) (l : List β) (m : Mach) :
    (l.foldl h m).regs = m.regs := by
  induction l generalizing m with
  | nil => rfl
  | cons b l ih => exact (ih _).trans (step m b)

theorem regs_ackConn (m : Mach) (s cum : Nat) : (m.ackConn s cum).regs = m.regs := by
  unfold Mach.ackConn
  extract_lets e
  split
  · rfl
  · extract_lets done ids c1 m1 acked m2
    split
    · rfl
    · refine (regs_foldl (fun y r => ?_) acked m2).trans rfl
      split
      · rfl
      · exact regs_wakeJob _ _ _ _ _

theorem regs_placeReply (m : Mach) (r : ReplyWait) : (m.placeReply r).regs = m.regs := by
  unfold Mach.placeReply
  extract_lets e
  split
  · rfl
  · extract_lets m1 m2 seq m3
    have h2 : m2.regs = m.regs := (regs_connSend _ _ _ _ _).trans rfl
    split
    · rfl
    · split
      · exact (regs_wakeJob _ _ _ _ _).trans h2
      · exact h2

theorem regs_ackWithin (m : Mach) (s k : Nat) : (m.ackWithin s k).regs = m.regs := by
  unfold Mach.ackWithin
  extract_lets e
  split
  · rfl
  · rfl

theorem regs_heard (m : Mach) (s : Nat) (g : LcpFrame) : (m.heard s g).regs = m.regs := by
  cases open_ : (m.live s).conn with
  | none =>
    unfold Mach.heard
    extract_lets e
    rw [show e.conn = none from open_]
  | some c =>
    rw [heard_open open_]
    have rest : ((((m.hears s c g).ackConn s g.cumack).flush s).flushReplies).regs = m.regs :=
      (regs_foldl regs_placeReply _ _).trans ((regs_flushN _ _ _).trans (regs_ackConn _ _ _))
    split
    · exact (regs_ackWithin _ _ _).trans rest
    · exact rest

theorem reg_heard (m : Mach) (s : Nat) (g : LcpFrame) (a : Nat) : (m.heard s g).reg a = m.reg a := by
  rw [Mach.reg, regs_heard, (Signals.heard (L := []) (.refl _ m)).ledger, Mach.reg]

/-! ### The steps before the connection's own action -/

/-- A state with counters of the port changed, on which a frame meets its connection. -/
theorem Counted.hears (h : Counted p m x) (small : p < 256) (serve : m.serving = true) (latch : m.twin.latch = false)
    (conn : m.connOf p g.session g.src = some k) (open_ : (m.live k).conn = some c)
    (permitted : if g.typ = 2 then g.epoch = m.epoch else g.epoch ≤ m.epoch) (act : Mach → Nat → Mach) :
    x.onConn p g act = act (x.heard k g) k ∧ Heard p k c g m x (x.heard k g) := by
  have epoch : (x.heard k g).epoch = m.epoch := (epoch_heard x k g).trans (h.epoch small)
  refine ⟨onConn_hears ((h.serving small).trans serve) ?_ ?_ act (by rw [epoch]; exact permitted),
    h, rfl, open_, connOf_open conn open_⟩
  · obtain ⟨r, rfl⟩ := h.rest
    exact latch
  · obtain ⟨r, rfl⟩ := h.rest
    exact conn

theorem Heard.reg {y : Mach} (h : Heard p k c g m x y) (a : Nat) : y.reg a = x.reg a := by rw [h.is, reg_heard]

theorem busy_heard {y : Mach} (h : Heard p k c g m x y) (l : List LcpItem) (free : m.busy k l = none) : y.busy k l = none := by
  obtain ⟨d, at_, follows⟩ := h.open
  obtain ⟨-, ten, -⟩ := h.flows.sess k
  have pressed : y.backPressed (y.sess k).ten = m.backPressed (m.sess k).ten := by
    rw [ten, Mach.backPressed, h.reg, h.counted.reg _ (by unfold Reg.accBp Reg.prtRxframes; omega)
      (by unfold Reg.accBp Reg.prtRxlcp; omega) (by unfold Reg.accBp Reg.prtNakrx; omega), Mach.backPressed]
  unfold Mach.busy at free ⊢
  rw [h.openBefore] at free
  rw [at_]
  dsimp only at free ⊢
  rw [pressed]
  split at free
  · cases free
  next calm =>
    split at free
    · cases free
    next room =>
      rw [if_neg calm, if_neg]
      rw [follows.nextOrd]
      have := follows.lim
      omega

/-! ### DATA (R79, R86, R90) -/

theorem inSequence_next {d : Conn} {act : Mach → Mach} (at_ : (m.live k).conn = some d) (next_ : g.seq = (d.rxseq + 1) % 2 ^ 32) :
    m.inSequence k g act = act m := by
  unfold Mach.inSequence
  extract_lets e
  rw [show e.conn = some d from at_]
  exact if_pos next_

theorem inSequence_ahead {d : Conn} {act : Mach → Mach} (at_ : (m.live k).conn = some d) (not : g.seq ≠ (d.rxseq + 1) % 2 ^ 32)
    (ahead : seqLt d.rxseq g.seq = true) (once : d.nakFolio ≠ some (folioOf m.rt)) :
    m.inSequence k g act =
      (m.setLive k { m.live k with conn := some { d with nakFolio := some (folioOf m.rt) } }).connNak k 4 0 g.seq := by
  unfold Mach.inSequence
  extract_lets e
  rw [show e.conn = some d from at_]
  exact (if_neg not).trans ((if_pos ahead).trans (if_neg once))

theorem takeSeq_open {d : Conn} (at_ : (m.live k).conn = some d) (seq : Nat) :
    m.takeSeq k seq = m.setLive k { m.live k with conn := some { d with rxseq := seq } } := by
  unfold Mach.takeSeq
  extract_lets e
  rw [show e.conn = some d from at_]

theorem connNak_open (open_ : (m.live k).conn = some c) (reason detail seq : Nat) :
    m.connNak k reason detail seq = (m.connSend k 4 0 (.nak reason detail seq)).count (Reg.prtNaktx c.port) := by
  unfold Mach.connNak
  rw [open_]

theorem data_taken {l : List LcpItem} (open_ : (m.live k).conn = some c) (body : g.body = .items l)
    (next_ : g.seq = (c.rxseq + 1) % 2 ^ 32) (free : m.busy k l = none) :
    let n := m.data p k g
    (∃ d, (n.live k).conn = some d ∧ d.rxseq = g.seq ∧ d.nextOrd = c.nextOrd + l.length) ∧
      n.merge.length = m.merge.length + (l.filter fun i => i.itype ≠ 2).length := by
  intro n
  let m1 : Mach := { m.takeSeq k g.seq with order := m.order + 1 }
  have h1 : (m1.live k).conn = some { c with rxseq := g.seq } := by
    change ((m.takeSeq k g.seq).live k).conn = _
    rw [takeSeq_open open_, live_setLive_self]
  have merge1 : m1.merge = m.merge := by
    change (m.takeSeq k g.seq).merge = _
    rw [takeSeq_open open_]
    rfl
  obtain ⟨⟨d, h2, rx, ord⟩, len⟩ := admitItems_leaves (p := p) m.order l 0 m1 _ h1
  have flows : Flows (Mach.admitItems p k m.order 0 l m1) n := by
    unfold n Mach.data
    rw [inSequence_next open_ next_, body]
    dsimp only
    rw [free]
    have first : Flows (Mach.admitItems p k m.order 0 l m1) ((Mach.admitItems p k m.order 0 l m1).ackWithin k 4096) :=
      (Flows.refl _).ackWithin
    exact .ite first.releaseAll.flushReplies first
  obtain ⟨e, at_, follows⟩ := flows.conn k d h2
  exact ⟨⟨e, at_, follows.rxseq.trans rx, follows.nextOrd.trans ord⟩, by rw [flows.merge, len, merge1]⟩

theorem data_ahead (open_ : (m.live k).conn = some c) (not : g.seq ≠ (c.rxseq + 1) % 2 ^ 32) (ahead : seqLt c.rxseq g.seq = true)
    (once : c.nakFolio ≠ some (folioOf m.rt)) :
    let n := m.data p k g
    ∃ d, (n.live k).conn = some d ∧ d.rxseq = c.rxseq ∧ n.merge = m.merge ∧
      ∃ r, n.sent.head? = some (.lcp c.port r) ∧ r.typ = 4 ∧ r.body = .nak 4 0 g.seq := by
  intro n
  let c1 : Conn := { c with nakFolio := some (folioOf m.rt) }
  let m1 := m.setLive k { m.live k with conn := some c1 }
  have h1 : (m1.live k).conn = some c1 := by rw [live_setLive_self]
  have e : n = (m1.connSend k 4 0 (.nak 4 0 g.seq)).count (Reg.prtNaktx c.port) :=
    (inSequence_ahead open_ not ahead once).trans (connNak_open h1 _ _ _)
  rw [e, connSend_open h1]
  refine ⟨m1.connAfter k c1 4 0 (.nak 4 0 g.seq), ?_, ?_, ?_, m1.frameOf k c1 4 0 (.nak 4 0 g.seq), ?_, rfl, rfl⟩
  · rw [Mach.count, Mach.live, Mach.setReg_ses, ← Mach.live, live_send, live_setLive_self]
  · exact (follows_connAfter m1 k c1 4 0 _).rxseq
  · simp [Mach.count, Mach.send, Mach.setLive, m1]
  · simp [Mach.count, Mach.send, Mach.setLive, c1]

/-! ### ACK, CREDIT and NAK (R86 to R89) -/

/-- A frame heard on a connection with nothing to send. -/
theorem heard_quiet (open_ : (m.live k).conn = some c) (queue : (m.live k).outq = []) (due : c.epochDue = none) (none_ : m.replies = [])
    (sane : seqLt c.txseq g.cumack = false) :
    let acked := c.unacked.filter fun f => seqLt g.cumack f.seq
    let n := m.heard k g
    (∃ d, (n.live k).conn = some d ∧ d.unacked = acked ∧ d.rxAt = m.now ∧ d.plim = raiseLimit c.plim g.credit ∧ d.port = c.port ∧
      (acked = c.unacked → d.retx = c.retx)) ∧ n.replies = [] ∧ n.sent = m.sent := by
  intro acked n
  have h1 : ((m.hears k c g).live k).conn = some (m.heardConn c g) := by rw [Mach.hears, live_setLive_self]
  obtain ⟨⟨d, at_, un, rx, plim, stands, port, retx⟩, outq, replies, sent⟩ :=
    ackConn_leaves (cum := g.cumack) h1 (show (m.hears k c g).replies = [] from none_) sane
  have empty : ((m.hears k c g).ackConn k g.cumack |>.live k).outq = [] := by
    rw [outq, Mach.hears, live_setLive_self]
    exact queue
  have e : n = if nbit g.flags 5 then ((m.hears k c g).ackConn k g.cumack).ackWithin k 64 else (m.hears k c g).ackConn k g.cumack := by
    unfold n
    rw [heard_open open_, flush_idle at_ empty (stands.trans due), flushReplies_none replies]
  rw [e]
  split
  · unfold Mach.ackWithin
    extract_lets f
    rw [show f.conn = some d from at_]
    dsimp only
    rw [live_setLive_self]
    exact ⟨⟨_, rfl, un, rx, plim, port, retx⟩, replies, sent⟩
  · exact ⟨⟨d, at_, un, rx, plim, port, retx⟩, replies, sent⟩

theorem reg_sends (fs : List LcpFrame) (p a : Nat) (m : Mach) :
    (fs.foldl (fun x f => x.send (.lcp p f)) m).reg a = m.reg a := by
  induction fs generalizing m with
  | nil => rfl
  | cons f fs ih => exact (ih _).trans rfl

theorem reg_retransmit {a : Nat} (open_ : (m.live k).conn = some c) (few : c.retx < 8) (other : a ≠ Reg.prtRetx c.port) :
    (m.retransmit k).reg a = m.reg a := by
  unfold Mach.retransmit
  extract_lets e
  rw [show e.conn = some c from open_]
  dsimp only
  split
  · rfl
  · rw [if_neg (by omega), reg_count_of_ne _ _ other.symm, reg_sends]
    rfl

theorem retransmit_none (open_ : (m.live k).conn = some c) (none_ : c.unacked = []) : m.retransmit k = m := by
  unfold Mach.retransmit
  extract_lets e
  rw [show e.conn = some c from open_]
  exact if_pos (by simp [none_])

end Sys2Proof.Machine
end

section
/-! PROOFS. LCP frames received: the answers of O34. -/

namespace Sys2Proof.Machine

open Sys2Proof

variable {m x y : Mach} {p k : Nat} {f : RxFrame} {g : LcpFrame} {c : Conn}

/-! ### HELLO (R82, R93) -/

/-- The frame is a HELLO response on session `k` to the sender of `g`. -/
structure Greets (k : Nat) (g : LcpFrame) (existed : Bool) (r : LcpFrame) : Prop where
  typ : r.typ = 1
  session : r.session = k
  dst : r.dst = (w48 g.src).toNat
  flags : r.flags = if existed then 0xC0 else 0x80

theorem openConn_opens (m : Mach) (p k : Nat) (g : LcpFrame) (existed : Bool) :
    let n := m.openConn p k g existed
    (∃ d, (n.live k).conn = some d ∧ d.port = p ∧ d.peer = w48 g.src) ∧ (n.sess k).port = p ∧ (n.sess k).peer = w48 g.src ∧
      ((n.sess k).used = (m.sess k).used ∧ (n.sess k).ten = (m.sess k).ten ∧ (n.sess k).pid = (m.sess k).pid ∧
        (n.sess k).stream = (m.sess k).stream) ∧
      ∃ r, .lcp p r ∈ n.sent ∧ Greets k g existed r := by
  intro n
  unfold n Mach.openConn
  extract_lets m1 l m2 e c m3 ctl m4
  have h3 : (m3.live k).conn = some c := by
    unfold m3
    rw [live_setLive_self]
  have sess3 : m3.sess k = { l with peer := w48 g.src, port := p } := by
    change m2.sess k = _
    unfold m2
    rw [Mach.sess_setSess, if_pos rfl]
  have old : l = m.sess k := by
    unfold l m1
    rw [Mach.sess, (Signals.closeConn (L := []) (.refl _ m)).ledger, Mach.sess]
  have first : Flows m3 m4 := (Flows.refl m3).connSend
  have second : Flows m4 (Mach.replayN 17 k (m4.replayEntries k) m4).flushReplies := (Flows.refl m4).replayN.flushReplies
  have all := first.trans second
  obtain ⟨d, at_, follows⟩ := all.conn k c h3
  obtain ⟨used, ten, pid, stream, peer, port⟩ := all.sess k
  obtain ⟨more, sent⟩ := second.sent
  rw [sess3] at used ten pid stream peer port
  rw [old] at used ten pid stream
  refine ⟨⟨d, at_, follows.port, follows.peer⟩, port, peer, ⟨used, ten, pid, stream⟩,
    m3.frameOf k c 1 (if existed then 0xC0 else 0x80)
      (.helloRsp l.pid l.ten l.stream (fget ctl F.prtCtlIdle) (fget ctl F.prtCtlRto) l.h), ?_, ⟨rfl, rfl, rfl, rfl⟩⟩
  rw [sent]
  refine List.mem_append_right _ ?_
  unfold m4
  rw [sent_connSend h3]
  exact List.mem_cons_self

section

variable {pid ten stream : Nat}

theorem hello_known (body : g.body = .helloReq pid ten stream) (serve : m.serving = true) (latch : m.twin.latch = false)
    (epoch : g.epoch ≤ m.epoch) (ours : m.portSr p = false) (mask : nbit (m.reg (Reg.prtTenmask p)).toNat ten = true)
    (few : (m.portSessions p).length < 16) (known : m.sessOf ten pid stream = some k) : m.hello p g = m.openConn p k g true := by
  unfold Mach.hello
  rw [body]
  dsimp only
  rw [serve, latch, if_neg (by decide), if_neg (by omega), ours, mask, if_neg (by decide), known]
  exact if_neg (by simp [few])

theorem hello_new (body : g.body = .helloReq pid ten stream) (serve : m.serving = true) (latch : m.twin.latch = false)
    (epoch : g.epoch ≤ m.epoch) (ours : m.portSr p = false) (mask : nbit (m.reg (Reg.prtTenmask p)).toNat ten = true)
    (few : (m.portSessions p).length < 16) (unknown : m.sessOf ten pid stream = none) (free : m.freeSes = some k) :
    m.hello p g = (m.newSes k ten pid stream).openConn p k g false := by
  unfold Mach.hello
  rw [body]
  dsimp only
  rw [serve, latch, if_neg (by decide), if_neg (by omega), ours, mask, if_neg (by decide), unknown]
  dsimp only
  rw [free]
  exact if_neg (by simp [few])

theorem hello_masked (body : g.body = .helloReq pid ten stream) (serve : m.serving = true) (latch : m.twin.latch = false)
    (epoch : g.epoch ≤ m.epoch) (ours : m.portSr p = false) (mask : nbit (m.reg (Reg.prtTenmask p)).toNat ten = false) :
    m.hello p g = m.bareNak p g 2 2 := by
  unfold Mach.hello
  rw [body]
  dsimp only
  rw [serve, latch, if_neg (by decide), if_neg (by omega), ours, mask]
  exact if_pos (by decide)

end

theorem bareNak_leaves (m : Mach) (small : p < 256) (g : LcpFrame) (reason detail : Nat) :
    let n := m.bareNak p g reason detail
    n.ses = m.ses ∧ n.ledger = m.ledger ∧
      ∃ r, n.sent = .lcp p r :: m.sent ∧ r.typ = 4 ∧ r.body = .nak reason detail g.seq ∧ r.dst = g.src := by
  intro n
  have plain : ledgerAddr (Reg.prtNaktx p) = false := by
    rw [show Reg.prtNaktx p = 0x40000 + 0x100 * p + 11 by unfold Reg.prtNaktx; omega]
    exact ledgerAddr_port small (by decide)
  unfold n Mach.bareNak Mach.count
  rw [ledger_setReg_plain _ plain, Mach.setReg_ses, Mach.setReg_sent]
  exact ⟨rfl, rfl, _, rfl, rfl, rfl, rfl⟩

/-! ### BYE and PROBE (R78, R83) -/

theorem bye_taken (open_ : (m.live k).conn = some c) (next_ : g.seq = (c.rxseq + 1) % 2 ^ 32) :
    let n := m.inSequence k g fun z => ((z.takeSeq k g.seq).connSend k 3 0 .none).closeConn k
    (n.live k).conn = none ∧ ∃ r, n.sent.head? = some (.lcp c.port r) ∧ r.typ = 3 ∧ r.cumack = g.seq := by
  intro n
  unfold n
  rw [inSequence_next open_ next_, takeSeq_open open_]
  have taken : ((m.setLive k { m.live k with conn := some { c with rxseq := g.seq } }).live k).conn = some { c with rxseq := g.seq } := by
    rw [live_setLive_self]
  refine ⟨(conn_closeConn _ _ _).trans (if_pos rfl), ?_⟩
  rw [sent_closeConn, sent_connSend taken]
  exact ⟨_, rfl, rfl, rfl⟩

theorem frame_probe {echo a b : Nat} {s : State} {p : PortId} {k : SesId} (takes : s.toMach.receives p.val = true)
    (is : s.toMach.classify p.val f = .lcp g) (serve : s.toMach.serving = true) (latch : s.toMach.twin.latch = false)
    (conn : s.toMach.connOf p.val g.session g.src = some k.val) (open_ : (s.toMach.live k.val).conn = some c)
    (epoch : g.epoch ≤ s.toMach.epoch) (typ : g.typ = 10) (body : g.body = .probe echo a b) (asks : nbit g.flags 7 = false) :
    ∃ t, exec (.probeFrame p f) s = .next t ∧ ∃ r, t.sent.head? = some (.lcp p.val r) ∧ r.typ = 10 ∧ r.flags = 0x80 ∧
      r.body = .probe echo (secOf s.toMach.rt) (fracOf s.toMach.rt) := by
  let x := s.toMach.received p.val f
  obtain ⟨acts, heard⟩ := (counted_received s.toMach p.isLt f).hears p.isLt serve latch conn open_
    (by rw [if_neg (by omega)]; exact epoch) fun y ses =>
      match g.body with
      | .probe echo _ _ => if nbit g.flags 7 then y else y.connSend ses 10 0x80 (.probe echo (secOf y.rt) (fracOf y.rt))
      | _ => y
  refine ⟨_, (lift_next ((rxTyped_lcp takes is typ).trans acts) : execProbeFrame p f s = _), ?_⟩
  obtain ⟨d, at_, follows⟩ := heard.open
  rw [body, asks]
  dsimp only
  rw [if_neg Bool.false_ne_true]
  change ∃ r, ((x.heard k.val g).connSend k.val 10 0x80 _).sent.head? = some (.lcp p.val r) ∧ _
  rw [sent_connSend at_, follows.port, heard.port, heard.flows.rt]
  exact ⟨_, rfl, rfl, rfl, rfl⟩

theorem frame_bye {s : State} {p : PortId} {k : SesId} (takes : s.toMach.receives p.val = true)
    (is : s.toMach.classify p.val f = .lcp g) (serve : s.toMach.serving = true) (latch : s.toMach.twin.latch = false)
    (conn : s.toMach.connOf p.val g.session g.src = some k.val) (open_ : (s.toMach.live k.val).conn = some c)
    (epoch : g.epoch ≤ s.toMach.epoch) (typ : g.typ = 9) (next_ : g.seq = (c.rxseq + 1) % 2 ^ 32) :
    ∃ t, exec (.byeFrame p f) s = .next t ∧ (t.toMach.live k.val).conn = none ∧
      ∃ r, t.sent.head? = some (.lcp p.val r) ∧ r.typ = 3 ∧ r.cumack = g.seq := by
  obtain ⟨acts, heard⟩ := (counted_received s.toMach p.isLt f).hears p.isLt serve latch conn open_
    (by rw [if_neg (by omega)]; exact epoch) fun y ses =>
      y.inSequence ses g fun z => ((z.takeSeq ses g.seq).connSend ses 3 0 .none).closeConn ses
  obtain ⟨d, at_, follows⟩ := heard.open
  obtain ⟨closed, r, sent, typR, cum⟩ := bye_taken at_ (follows.rxseq.symm ▸ next_)
  rw [follows.port, heard.port] at sent
  exact ⟨_, (lift_next ((rxTyped_lcp takes is typ).trans acts) : execByeFrame p f s = _), closed, r, sent, typR, cum⟩

/-! ### The clauses on a connection -/

section

variable {s : State} {p : PortId} {k : SesId}

theorem frame_data {l : List LcpItem} (takes : s.toMach.receives p.val = true)
    (is : s.toMach.classify p.val f = .lcp g) (serve : s.toMach.serving = true) (latch : s.toMach.twin.latch = false)
    (conn : s.toMach.connOf p.val g.session g.src = some k.val) (open_ : (s.toMach.live k.val).conn = some c)
    (typ : g.typ = 2) (body : g.body = .items l) (epoch : g.epoch = s.toMach.epoch) :
    (g.seq = (c.rxseq + 1) % 2 ^ 32 → s.toMach.busy k.val l = none →
      ∃ t d, exec (.dataFrame p f) s = .next t ∧ (t.toMach.live k.val).conn = some d ∧ d.rxseq = g.seq ∧
        d.nextOrd = c.nextOrd + l.length ∧ t.merge.length = s.merge.length + (l.filter fun i => i.itype ≠ 2).length) ∧
    (g.seq ≠ (c.rxseq + 1) % 2 ^ 32 → seqLt c.rxseq g.seq = true → c.nakFolio ≠ some (folioOf s.toMach.rt) →
      ∃ t d, exec (.dataFrame p f) s = .next t ∧ (t.toMach.live k.val).conn = some d ∧ d.rxseq = c.rxseq ∧ t.merge = s.merge ∧
        ∃ r, t.sent.head? = some (.lcp p.val r) ∧ r.typ = 4 ∧ r.body = .nak 4 0 g.seq) := by
  obtain ⟨acts, heard⟩ := (counted_received s.toMach p.isLt f).hears p.isLt serve latch conn open_
    (by rw [if_pos typ]; exact epoch) fun y ses => y.data p.val ses g
  have runs := (lift_next ((rxTyped_lcp takes is typ).trans acts) : execDataFrame p f s = _)
  obtain ⟨d, at_, follows⟩ := heard.open
  refine ⟨fun next_ free => ?_, fun not ahead once => ?_⟩
  · obtain ⟨⟨e, at', rx, ord⟩, len⟩ := data_taken (p := p.val) at_ body (follows.rxseq.symm ▸ next_) (busy_heard heard l free)
    exact ⟨_, e, runs, at', rx, ord.trans (by rw [follows.nextOrd]), len.trans (by rw [heard.flows.merge])⟩
  · obtain ⟨e, at', rx, merge, r, sent, typR, bodyR⟩ := data_ahead (p := p.val) at_ (follows.rxseq.symm ▸ not)
      (follows.rxseq.symm ▸ ahead) (by rw [follows.nakFolio, heard.flows.rt]; exact once)
    rw [follows.port, heard.port] at sent
    exact ⟨_, e, runs, at', rx.trans follows.rxseq, merge.trans heard.flows.merge, r, sent, typR, bodyR⟩

theorem Heard.quiet {m x y : Mach} {p k : Nat} (h : Heard p k c g m x y) (queue : (m.live k).outq = []) (due : c.epochDue = none)
    (none_ : m.replies = []) (sane : seqLt c.txseq g.cumack = false) :
    let acked := c.unacked.filter fun f => seqLt g.cumack f.seq
    (∃ d, (y.live k).conn = some d ∧ d.unacked = acked ∧ d.rxAt = m.now ∧ d.plim = raiseLimit c.plim g.credit ∧ d.port = c.port ∧
      (acked = c.unacked → d.retx = c.retx)) ∧ y.replies = [] ∧ y.sent = m.sent := by
  obtain ⟨r, e⟩ := h.counted.rest
  rw [h.is, e]
  exact heard_quiet (m := { m with regs := r }) h.openBefore queue due none_ sane

theorem frame_ack (takes : s.toMach.receives p.val = true)
    (is : s.toMach.classify p.val f = .lcp g) (serve : s.toMach.serving = true) (latch : s.toMach.twin.latch = false)
    (conn : s.toMach.connOf p.val g.session g.src = some k.val) (open_ : (s.toMach.live k.val).conn = some c)
    (epoch : g.epoch ≤ s.toMach.epoch) (queue : (s.toMach.live k.val).outq = []) (due : c.epochDue = none) (none_ : s.replies = [])
    (sane : seqLt c.txseq g.cumack = false) :
    ∀ row ∈ ([(3, .ackFrame p f), (7, .creditFrame p f)] : List (Nat × Instr)), g.typ = row.1 →
      ∃ t d, exec row.2 s = .next t ∧ (t.toMach.live k.val).conn = some d ∧
        d.unacked = (c.unacked.filter fun x => seqLt g.cumack x.seq) ∧ d.rxAt = s.toMach.now ∧
        d.plim = raiseLimit c.plim g.credit ∧ t.sent = s.sent := by
  have hears := fun data : g.typ ≠ 2 => (counted_received s.toMach p.isLt f).hears p.isLt serve latch conn open_
    (by rw [if_neg data]; exact epoch)
  intro row listed typ
  simp only [List.mem_cons, List.not_mem_nil, or_false] at listed
  rcases listed with rfl | rfl
  · obtain ⟨acts, heard⟩ := hears (by omega) fun y _ => y
    obtain ⟨⟨d, at_, un, rx, plim, -⟩, -, sent⟩ := heard.quiet queue due none_ sane
    exact ⟨_, d, (lift_next ((rxTyped_lcp takes is typ).trans acts) : execAckFrame p f s = _), at_, un, rx, plim, sent⟩
  · obtain ⟨acts, heard⟩ := hears (by omega) fun y _ => y.flushReplies
    obtain ⟨⟨d, at_, un, rx, plim, -⟩, replies, sent⟩ := heard.quiet queue due none_ sane
    exact ⟨_, d, (lift_next ((rxTyped_lcp takes is typ).trans (acts.trans (flushReplies_none replies))) : execCreditFrame p f s = _),
      at_, un, rx, plim, sent⟩

theorem frame_nak {reason detail seq : Nat} (takes : s.toMach.receives p.val = true)
    (is : s.toMach.classify p.val f = .lcp g) (serve : s.toMach.serving = true) (latch : s.toMach.twin.latch = false)
    (conn : s.toMach.connOf p.val g.session g.src = some k.val) (open_ : (s.toMach.live k.val).conn = some c)
    (epoch : g.epoch ≤ s.toMach.epoch) (queue : (s.toMach.live k.val).outq = []) (due : c.epochDue = none) (none_ : s.replies = [])
    (sane : seqLt c.txseq g.cumack = false) (typ : g.typ = 4) (body : g.body = .nak reason detail seq)
    (all : (c.unacked.filter fun x => seqLt g.cumack x.seq) = c.unacked) (few : c.retx < 8) :
    ∃ t d, exec (.nakFrame p f) s = .next t ∧ (t.toMach.live k.val).conn = some d ∧
      t.toMach.reg (Reg.prtNakrx p.val) = w48 ((s.toMach.reg (Reg.prtNakrx p.val)).toNat + 1) ∧
      (reason = 4 → (c.unacked.filter fun x => seqLt g.cumack x.seq) ≠ [] → d.retx = c.retx + 1 ∧
        t.sent.length = s.sent.length + (c.unacked.filter fun x => seqLt g.cumack x.seq).length) ∧
      (reason ≠ 4 → d.retx = c.retx ∧ t.sent = s.sent) := by
  have small : p.val < 256 := p.isLt
  have plain : ledgerAddr (Reg.prtNakrx p.val) = false := by
    rw [show Reg.prtNakrx p.val = 0x40000 + 0x100 * p.val + 12 by unfold Reg.prtNakrx; omega]
    exact ledgerAddr_port small (by decide)
  have received : (s.toMach.received p.val f).reg (Reg.prtNakrx p.val) = s.toMach.reg (Reg.prtNakrx p.val) := by
    have frames : (s.toMach.rxCount p.val f).reg (Reg.prtNakrx p.val) = s.toMach.reg (Reg.prtNakrx p.val) := by
      unfold Mach.rxCount
      split
      · exact reg_count_of_ne _ _ (by unfold Reg.prtRxframes Reg.prtNakrx; omega)
      · rfl
    exact (reg_count_of_ne _ _ (by unfold Reg.prtRxlcp Reg.prtNakrx; omega)).trans frames
  obtain ⟨acts, heard⟩ := ((counted_received s.toMach small f).count (n := 1) small (.inr (.inr rfl))).hears small serve latch conn open_
    (by rw [if_neg (by omega)]; exact epoch) fun y ses => match g.body with
      | .nak r _ _ => if r = 4 then y.retransmit ses else y
      | _ => y
  have counts : (((s.toMach.received p.val f).count (Reg.prtNakrx p.val)).heard k.val g).reg (Reg.prtNakrx p.val)
      = w48 ((s.toMach.reg (Reg.prtNakrx p.val)).toNat + 1) := by
    rw [heard.reg, reg_count_self, received]
  obtain ⟨⟨d, at_, un, -, -, port, retx⟩, -, sent⟩ := heard.quiet queue due none_ sane
  have runs := (lift_next ((rxTyped_lcp takes is typ).trans acts) : execNakFrame p f s = _)
  rw [body] at runs
  dsimp only at runs
  by_cases four : reason = 4
  · rw [if_pos four] at runs
    by_cases empty : d.unacked = []
    · rw [retransmit_none at_ empty] at runs
      exact ⟨_, d, runs, at_, counts, fun _ some_ => absurd (un.symm.trans empty) some_, fun other => absurd four other⟩
    · have less : d.retx < 8 := by rw [retx all]; exact few
      obtain ⟨e, at', again, -, len⟩ := retransmit_again at_ empty less
      refine ⟨_, e, runs, at', ?_, fun _ _ => ⟨by rw [again, retx all], ?_⟩, fun other => absurd four other⟩
      · exact (reg_retransmit at_ less (by unfold Reg.prtNakrx Reg.prtRetx; omega)).trans counts
      · rw [← un, ← sent]
        exact len
  · rw [if_neg four] at runs
    exact ⟨_, d, runs, at_, counts, fun is4 => absurd is4 four, fun _ => ⟨retx all, sent⟩⟩

theorem hello_greets {m : Mach} {p k pid ten stream : Nat} (body : g.body = .helloReq pid ten stream) (serve : m.serving = true)
    (latch : m.twin.latch = false) (epoch : g.epoch ≤ m.epoch) (ours : m.portSr p = false)
    (mask : nbit (m.reg (Reg.prtTenmask p)).toNat ten = true) (few : (m.portSessions p).length < 16)
    (found : m.sessOf ten pid stream = some k ∨ (m.sessOf ten pid stream = none ∧ m.freeSes = some k)) :
    let n := m.hello p g
    ∃ d, (n.live k).conn = some d ∧ d.port = p ∧ d.peer = w48 g.src ∧ (n.sess k).port = p ∧ (n.sess k).peer = w48 g.src ∧
      (m.sessOf ten pid stream = none → (n.sess k).used = true ∧ (n.sess k).ten = ten ∧ (n.sess k).pid = pid ∧
        (n.sess k).stream = stream) ∧
      ∃ r, .lcp p r ∈ n.sent ∧ r.typ = 1 ∧ r.session = k ∧ r.dst = (w48 g.src).toNat ∧
        r.flags = if m.sessOf ten pid stream = none then 0x80 else 0xC0 := by
  intro n
  unfold n
  rcases found with known | ⟨unknown, free⟩
  · obtain ⟨⟨d, at_, port, peer⟩, sport, speer, -, q, sent, greets⟩ := openConn_opens m p k g true
    rw [hello_known body serve latch epoch ours mask few known, known]
    exact ⟨d, at_, port, peer, sport, speer, fun none_ => absurd none_ (by simp), q, sent, greets.typ, greets.session, greets.dst,
      greets.flags⟩
  · obtain ⟨⟨d, at_, port, peer⟩, sport, speer, ⟨used, tenN, pidN, streamN⟩, q, sent, greets⟩ :=
      openConn_opens (m.newSes k ten pid stream) p k g false
    have new : (m.newSes k ten pid stream).sess k = { used := true, ten := ten, pid := pid, stream := stream } :=
      (Mach.sess_setSess _ _ _ _).trans (if_pos rfl)
    rw [new] at used tenN pidN streamN
    rw [hello_new body serve latch epoch ours mask few unknown free, unknown]
    exact ⟨d, at_, port, peer, sport, speer, fun _ => ⟨used, tenN, pidN, streamN⟩, q, sent, greets.typ, greets.session, greets.dst,
      greets.flags⟩

theorem frame_hello {pid ten stream : Nat} (takes : s.toMach.receives p.val = true)
    (is : s.toMach.classify p.val f = .lcp g) (serve : s.toMach.serving = true) (latch : s.toMach.twin.latch = false)
    (typ : g.typ = 1) (body : g.body = .helloReq pid ten stream) (epoch : g.epoch ≤ s.toMach.epoch)
    (ours : s.toMach.portSr p.val = false) :
    (nbit (s.toMach.reg (Reg.prtTenmask p.val)).toNat ten = true → (s.toMach.portSessions p.val).length < 16 →
      (s.toMach.sessOf ten pid stream = some k.val ∨ (s.toMach.sessOf ten pid stream = none ∧ s.toMach.freeSes = some k.val)) →
      ∃ t d, exec (.helloFrame p f) s = .next t ∧ (t.toMach.live k.val).conn = some d ∧ d.port = p.val ∧ d.peer = w48 g.src ∧
        (t.toMach.sess k.val).port = p.val ∧ (t.toMach.sess k.val).peer = w48 g.src ∧
        (s.toMach.sessOf ten pid stream = none → (t.toMach.sess k.val).used = true ∧ (t.toMach.sess k.val).ten = ten ∧
          (t.toMach.sess k.val).pid = pid ∧ (t.toMach.sess k.val).stream = stream) ∧
        ∃ r, .lcp p.val r ∈ t.sent ∧ r.typ = 1 ∧ r.session = k.val ∧ r.dst = (w48 g.src).toNat ∧
          r.flags = if s.toMach.sessOf ten pid stream = none then 0x80 else 0xC0) ∧
    (nbit (s.toMach.reg (Reg.prtTenmask p.val)).toNat ten = false →
      ∃ t, exec (.helloFrame p f) s = .next t ∧ t.ses = s.ses ∧ t.ledger = s.ledger ∧
        ∃ r, t.sent = .lcp p.val r :: s.sent ∧ r.typ = 4 ∧ r.body = .nak 2 2 g.seq ∧ r.dst = g.src) := by
  have small : p.val < 256 := p.isLt
  have counted := counted_received s.toMach small f
  have mask : (s.toMach.received p.val f).reg (Reg.prtTenmask p.val) = s.toMach.reg (Reg.prtTenmask p.val) :=
    counted.reg _ (by unfold Reg.prtTenmask Reg.prtRxframes; omega) (by unfold Reg.prtTenmask Reg.prtRxlcp; omega)
      (by unfold Reg.prtTenmask Reg.prtNakrx; omega)
  have srv := (counted.serving small).trans serve
  have early : g.epoch ≤ (s.toMach.received p.val f).epoch := by rw [counted.epoch small]; exact epoch
  have own : (s.toMach.received p.val f).portSr p.val = false := by
    rw [Mach.portSr, Mach.bit, counted.low (a := Reg.srAttrPort p.val) (by unfold Reg.srAttrPort; omega) small]
    exact ours
  have runs : ∀ {n}, (s.toMach.received p.val f).hello p.val g = n → execHelloFrame p f s = .next { s with toMach := n } := fun e =>
    lift_next ((rxTyped_lcp takes is typ).trans e)
  obtain ⟨r, e⟩ := counted.rest
  rw [e] at mask srv early own runs
  refine ⟨fun listed few found => ?_, fun masked => ?_⟩
  · obtain ⟨d, at_⟩ := hello_greets body srv latch early own (mask.symm ▸ listed) few found
    exact ⟨_, d, runs rfl, at_⟩
  · obtain ⟨ses, ledger, q, sent, typR, bodyR, dst⟩ := bareNak_leaves { s.toMach with regs := r } small g 2 2
    exact ⟨_, runs (hello_masked body srv latch early own (mask.symm ▸ masked)), ses, ledger, q, sent, typR, bodyR, dst⟩

end

/-- Settles O34: each type of frame received, by its command. -/
theorem lcpFrames : Obligations.LcpFrames := by
  intro s p f g k c m e takes is serve latch
  refine ⟨fun pid ten stream typ body epoch ours => frame_hello takes is serve latch typ body epoch ours, fun conn open_ epoch =>
    ⟨fun l typ body now => frame_data takes is serve latch conn open_ typ body now, fun queue due none_ sane =>
      ⟨frame_ack takes is serve latch conn open_ epoch queue due none_ sane, fun reason detail seq typ body all few =>
        frame_nak takes is serve latch conn open_ epoch queue due none_ sane typ body all few⟩,
      frame_bye takes is serve latch conn open_ epoch, fun echo a b typ body asks =>
        frame_probe takes is serve latch conn open_ epoch typ body asks⟩⟩

end Sys2Proof.Machine
end

section
/-! PROOFS. Memory devices, training and patrol scrub (R324, R328 to R332). -/

namespace Sys2Proof.Machine

open Sys2Proof

variable {m : Mach}

/-! ### A device that fails -/

/-- `n` is `m` with memory device `d` failed for a cause. -/
structure DevFailed (d cause : Nat) (m n : Mach) : Prop where
  dev : n.reg (Reg.memDev d) = fset (fset (m.reg (Reg.memDev d)) F.memDevState 2) F.memDevFailcause cause
  grp : n.reg (Reg.memGrp (d / 9)) = fset (m.reg (Reg.memGrp (d / 9))) F.memGrpState (min 2 (m.grpState (d / 9) + 1))
  reg : ∀ a, a < 0x320000 → a ≠ Reg.memDev d → a ≠ Reg.memGrp (d / 9) → a ≠ Reg.memStat → a ≠ Reg.memAlarm → n.reg a = m.reg a
  init : n.bit Reg.memStat F.memStatInit = m.bit Reg.memStat F.memStatInit
  mem : n.mem = m.mem
  seats : n.seats = m.seats
  memst : ∃ t w, n.memst = { m.memst with training := t, writeQ := w } ∧ (m.memst.training = some d ∨ m.memst.training = none → t = none)

theorem reg_setTraining_of_ne {d : Option Nat} {a : Nat} (h : a ≠ Reg.memStat) : (m.setTraining d).reg a = m.reg a :=
  reg_setFld_of_ne _ _ h.symm

theorem failDevice_fails {d : Nat} (small : d < 18) (alive : m.devState d ≠ 2) (cause : Nat) :
    DevFailed d cause m (m.failDevice d cause) := by
  unfold Mach.failDevice
  rw [if_neg alive]
  extract_lets g m1 st m2 s m2' m3
  have h1 : ∀ a, a ≠ Reg.memDev d → m1.reg a = m.reg a := fun a other => reg_setReg_of_ne m _ other.symm
  have dev1 : m1.reg (Reg.memDev d) = _ := reg_setReg_self m _
  have h2 : (∀ a, a ≠ Reg.memStat → m2.reg a = m1.reg a) ∧ m2.bit Reg.memStat F.memStatInit = m1.bit Reg.memStat F.memStatInit ∧
      m2.mem = m.mem ∧ m2.seats = m.seats ∧
      ∃ t w, m2.memst = { m.memst with training := t, writeQ := w } ∧ (m.memst.training = some d ∨ m.memst.training = none → t = none) := by
    unfold m2
    split
    · refine ⟨fun a other => reg_setTraining_of_ne other, bit_setFld_apart _ _ (by decide) (by decide), ?_, ?_, none,
        [], ?_, fun _ => rfl⟩
      · simp [Mach.setTraining, Mach.setFld, m1]
      · simp [Mach.setTraining, Mach.setFld, m1]
      · simp [Mach.setTraining, Mach.setFld, m1]
    next other =>
      split
      · refine ⟨fun _ _ => rfl, rfl, by simp [m1], by simp [m1], m.memst.training, [], ?_, ?_⟩
        · change { st with writeQ := [] } = _
          rw [show st = m.memst from Mach.setReg_memst _ _ _]
        · exact fun case => case.resolve_left other
      · refine ⟨fun _ _ => rfl, rfl, by simp [m1], by simp [m1], m.memst.training, m.memst.writeQ, Mach.setReg_memst _ _ _, ?_⟩
        exact fun case => case.resolve_left other
  obtain ⟨reg2, init2, mem2, seats2, memst2⟩ := h2
  have grpStat : Reg.memGrp g ≠ Reg.memStat := by unfold Reg.memGrp Reg.memStat; omega
  have grpDev : Reg.memGrp g ≠ Reg.memDev d := by unfold Reg.memGrp Reg.memDev; omega
  have reg2' : ∀ a, a ≠ Reg.memGrp g → m2'.reg a = m2.reg a := fun a other => reg_setFld_of_ne _ _ other.symm
  have grp2' : m2'.reg (Reg.memGrp g) = fset (m2.reg (Reg.memGrp g)) F.memGrpState s := reg_setFld_self _ _
  have alarms : Signals [Reg.memAlarm] m2' (if s = 2 then m3.memAlarm F.memAlarmBroken true else m3) := by
    have first : Signals [Reg.memAlarm] m2' m3 := .ite (.raise (.refl _ _)) (.alarmReg (.refl _ _) (by simp))
    exact .ite (first.alarmReg (by simp)) first
  have regs : ∀ a, a < 0x320000 → a ≠ Reg.memAlarm →
      (if s = 2 then m3.memAlarm F.memAlarmBroken true else m3).refreshHealth.reg a = m2'.reg a := fun a low other =>
    alarms.reg a low (by simpa using other)
  obtain ⟨r, n, k, ses, replies, jobs, tp, cp, order, sent, e⟩ := alarms.rest
  have devLow : Reg.memDev d < 0x320000 := by unfold Reg.memDev; omega
  have devStat : Reg.memDev d ≠ Reg.memStat := by unfold Reg.memDev Reg.memStat; omega
  have devAlarm : Reg.memDev d ≠ Reg.memAlarm := by unfold Reg.memDev Reg.memAlarm; omega
  refine ⟨?_, ?_, fun a low nd ng ns na => ?_, ?_, ?_, ?_, ?_⟩
  · rw [regs _ devLow devAlarm, reg2' _ grpDev.symm, reg2 _ devStat, dev1]
  · rw [regs _ (by unfold Reg.memGrp; omega) (by unfold Reg.memGrp Reg.memAlarm; omega), grp2', reg2 _ grpStat, h1 _ grpDev]
  · rw [regs a low na, reg2' a ng, reg2 a ns, h1 a nd]
  · rw [Mach.bit, regs _ (by decide) (by decide), reg2' _ grpStat.symm, ← Mach.bit, init2, Mach.bit, h1 _ devStat.symm, Mach.bit]
  · rw [e]
    exact (Mach.setReg_mem _ _ _).trans mem2
  · rw [e]
    exact (Mach.setReg_seats _ _ _).trans seats2
  · rw [e]
    obtain ⟨t, w, at_, none_⟩ := memst2
    exact ⟨t, w, (Mach.setReg_memst _ _ _).trans at_, none_⟩

namespace DevFailed

variable {d cause : Nat} {n : Mach}

theorem devState_self (h : DevFailed d cause m n) : n.devState d = 2 := by
  rw [Mach.devState, Mach.fld, h.dev, fget_fset_apart _ _ (by decide) (by decide), fget_fset_same _ _ (by decide)]
  rfl

theorem failcause (h : DevFailed d cause m n) : n.fld (Reg.memDev d) F.memDevFailcause = cause % 8 := by
  rw [Mach.fld, h.dev, fget_fset_same _ _ (by decide)]
  rfl

theorem grpState_self (h : DevFailed d cause m n) : n.grpState (d / 9) = min 2 (m.grpState (d / 9) + 1) := by
  rw [Mach.grpState, Mach.fld, h.grp, fget_fset_same _ _ (by decide)]
  exact Nat.mod_eq_of_lt (Nat.lt_of_le_of_lt (Nat.min_le_left 2 _) (by decide))

theorem reg_bank (h : DevFailed d cause m n) {a : Nat} (low : 0x2A0003 ≤ a) (high : a < 0x2A0080) : n.reg a = m.reg a :=
  h.reg a (by omega) (by unfold Reg.memDev; omega) (by unfold Reg.memGrp; omega) (by unfold Reg.memStat; omega)
    (by unfold Reg.memAlarm; omega)

theorem devState_other (h : DevFailed d cause m n) (small : d < 18) {e : Nat} (range : e < 18) (other : e ≠ d) :
    n.devState e = m.devState e :=
  fld_congr (h.reg _ (by unfold Reg.memDev; omega) (by unfold Reg.memDev; omega) (by unfold Reg.memDev Reg.memGrp; omega)
    (by unfold Reg.memDev Reg.memStat; omega) (by unfold Reg.memDev Reg.memAlarm; omega)) _

end DevFailed

end Sys2Proof.Machine
end

section
/-! PROOFS. Memory devices, training and patrol scrub: the commands (R324, R328 to R332). -/

namespace Sys2Proof.Machine

open Sys2Proof

variable {m : Mach}

/-! ### Training (R330) -/

theorem devState_setFld (m : Mach) {d : Nat} (v : Nat) (small : v < 4) (e : Nat) :
    (m.setFld (Reg.memDev d) F.memDevState v).devState e = if e = d then v else m.devState e := by
  split
  next same =>
    rw [same, Mach.devState, fld_setFld_same _ _ (by decide)]
    exact Nat.mod_eq_of_lt small
  next other => exact fld_setFld_of_ne _ _ (by unfold Reg.memDev; omega)

theorem devState_setTraining (t : Option Nat) (e : Nat) : (m.setTraining t).devState e = m.devState e :=
  fld_congr (reg_setTraining_of_ne (by unfold Reg.memDev Reg.memStat; omega)) _

theorem memst_setTraining (t : Option Nat) : (m.setTraining t).memst =
    { m.memst with training := t, writeQ := if t.isSome then m.memst.writeQ else [] } := Mach.setReg_memst _ _ _

theorem trainStart_begins {d : Nat} (up : m.memUp = true) (none_ : m.memst.training = none) (turn : m.memst.nextTrain = d) (small : d < 18)
    (may : m.mayTrain d = true) (folio : m.rt % 4096 = 0) (due : m.trainDue d = true) :
    let n := m.trainStart
    n.devState d = 1 ∧ n.memst.training = some d ∧ n.memst.nextTrain = (d + 1) % 18 ∧ ∀ e, e ≠ d → n.devState e = m.devState e := by
  intro n
  have first : (((List.range 18).map fun k => (m.memst.nextTrain + k) % 18).find? m.mayTrain) = some d := by
    rw [turn, List.range_succ_eq_map, List.map_cons, Nat.add_zero, Nat.mod_eq_of_lt small]
    exact List.find?_cons_of_pos may
  have e : n = (({ m with memst := { m.memst with nextTrain := (d + 1) % 18, trainAt := tabPut (fun _ => 0) d m.now m.memst.trainAt } } :
      Mach).setFld (Reg.memDev d) F.memDevState 1).setTraining (some d) := by
    unfold n Mach.trainStart
    rw [up, none_, folio, if_neg (by decide), first]
    exact if_pos due
  rw [e, memst_setTraining, devState_setTraining, devState_setFld _ _ (by decide), if_pos rfl]
  refine ⟨rfl, rfl, by rw [Mach.setFld, Mach.setReg_memst], fun e' other => ?_⟩
  rw [devState_setTraining, devState_setFld _ _ (by decide), if_neg other]
  rfl

/-- The state with the training of device `d` over and its failures in succession counted. -/
def Mach.trained (m : Mach) (d fails : Nat) : Mach :=
  let x := (m.setFld (Reg.memDev d) F.memDevState 0).setTraining none
  { x with memst := { x.memst with trainFails := tabPut (fun _ => 0) d fails x.memst.trainFails } }

theorem trainEnd_eq {d : Nat} (training : m.memst.training = some d) (pass : Bool) :
    m.trainEnd pass = if pass then (m.trained d 0).count (Reg.memDevtrain d)
      else if 2 ≤ tabGet (fun _ => 0) m.memst.trainFails d + 1 then
        (m.trained d (tabGet (fun _ => 0) m.memst.trainFails d + 1)).failDevice d 2
      else m.trained d (tabGet (fun _ => 0) m.memst.trainFails d + 1) := by
  unfold Mach.trainEnd
  rw [training]
  cases pass
  · rfl
  · rfl

theorem trained_leaves (m : Mach) (d fails : Nat) :
    let n := m.trained d fails
    (∀ e, n.devState e = if e = d then 0 else m.devState e) ∧ n.memst.training = none ∧
      tabGet (fun _ => 0) n.memst.trainFails d = fails ∧
      (∀ a, a ≠ Reg.memStat → a ≠ Reg.memDev d → n.reg a = m.reg a) := by
  refine ⟨fun e => ?_, ?_, ?_, fun a ns nd => ?_⟩
  · exact (devState_setTraining none e).trans (devState_setFld m 0 (by decide) e)
  · change ((m.setFld (Reg.memDev d) F.memDevState 0).setTraining none).memst.training = none
    rw [memst_setTraining]
  · exact (tabGet_put (fun _ => (0 : Nat)) _ _ _ _).trans (if_pos rfl)
  · exact (reg_setTraining_of_ne ns).trans (reg_setFld_of_ne _ _ nd.symm)

/-! ### Patrol scrub (R325, R332) -/

theorem mem_memAlarm (m : Mach) (f : Fld) (b : Bool) : (m.memAlarm f b).mem = m.mem := by
  have h : Signals [Reg.memAlarm] m (m.memAlarm f b) := .alarmReg (.refl _ m) (by simp)
  exact h.mem

theorem mem_raise (m : Mach) (i : Nat) : (m.raise i).mem = m.mem := by
  unfold Mach.raise
  split
  · exact Mach.setReg_mem _ _ _
  · rfl

theorem mem_moduleLost (m : Mach) : m.moduleLost.mem = m.mem := (Turns.moduleLost (.refl m)).mem

theorem mem_poison (m : Mach) (a : Nat) : (m.poison a).mem = (m.setCont a poisonCont).mem := by
  unfold Mach.poison
  extract_lets m1 m2
  have h1 : m1.mem = (m.setCont a poisonCont).mem := by simp [m1, Mach.count]
  have h2 : m2.mem = m1.mem := by
    unfold m2
    split
    · exact mem_raise _ _
    · exact mem_memAlarm _ _ _
  split
  · exact (mem_memAlarm _ _ _).trans ((mem_moduleLost _).trans (h2.trans h1))
  · exact h2.trans h1

theorem cont_poison (m : Mach) (a b : Nat) : (m.poison a).cont b = if a = b then poisonCont else m.cont b := by
  rw [Mach.cont, mem_poison, ← Mach.cont, cont_setCont]

theorem readCheck_multi {l c : Nat} {rebuilds : Bool} (alive : ∀ j < 9, m.devState (devOf (l % 2) j) ≠ 2)
    (idle : m.trainStripe (l % 2) = none) :
    m.readCheck l { multi := [c], rebuilds := rebuilds } =
      if rebuilds then (m.count Reg.memRebuilt).countRebuild (devOf (l % 2) (c / 8)) else m.poisonAll l [c] := by
  have none_ : ((List.range 9).filter fun j => decide (m.devState (devOf (l % 2) j) = 2)) = [] := by
    rw [List.filter_eq_nil_iff]
    intro j listed
    simpa using alive j (List.mem_range.mp listed)
  unfold Mach.readCheck groupOf
  extract_lets g failed seen n e live multi m1
  have seen_ : seen = { multi := [c], rebuilds := rebuilds } := by
    unfold seen
    rw [show m.trainStripe g = none from idle]
  have fails : failed = [] := none_
  have still : n = m := by
    unfold n
    rw [seen_, if_neg (by simp), Mach.abandonTraining, show m.trainStripe g = none from idle]
  have err : e = { multi := [c], rebuilds := rebuilds } := by
    unfold e
    rw [seen_]
    rfl
  have meets : multi = [c] := by
    unfold multi live
    rw [err, fails]
    rfl
  have same : m1 = m := by
    unfold m1
    rw [still, err]
    rfl
  rw [fails, meets, same, err]
  dsimp only
  cases rebuilds
  · rfl
  · rfl

theorem readCheck_good {l : Nat} (alive : ∀ j < 9, m.devState (devOf (l % 2) j) ≠ 2) : m.readCheck l {} = m := by
  have none_ : ((List.range 9).filter fun j => decide (m.devState (devOf (l % 2) j) = 2)) = [] := by
    rw [List.filter_eq_nil_iff]
    intro j listed
    simpa using alive j (List.mem_range.mp listed)
  unfold Mach.readCheck groupOf
  extract_lets g failed seen n e live multi m1
  have good : seen.single = [] ∧ seen.multi = [] ∧ seen.parity = false := by
    unfold seen
    split
    · exact ⟨rfl, rfl, rfl⟩
    · exact ⟨rfl, rfl, rfl⟩
  obtain ⟨single, meets, parity⟩ := good
  have still : n = m := by
    unfold n
    rw [meets]
    rfl
  have err : e = seen := by
    unfold e
    rw [meets]
    rfl
  have empty : multi = [] := by
    unfold multi
    rw [err, meets]
    rfl
  have same : m1 = m := by
    unfold m1
    rw [still, err, single]
    rfl
  rw [show failed = [] from none_, empty, same, err, parity]
  rfl

theorem countRebuild_leaves {d : Nat} (small : d < 18) (alive : m.devState d ≠ 2) :
    (m.countRebuild d).mem = m.mem ∧ (m.countRebuild d).reg Reg.memRebuilt = m.reg Reg.memRebuilt := by
  unfold Mach.countRebuild
  extract_lets sec n st old m1
  split
  · obtain h : DevFailed d 1 m1 (m1.failDevice d 1) := failDevice_fails (m := m1) small alive 1
    exact ⟨h.mem, h.reg_bank (by decide) (by decide)⟩
  · exact ⟨rfl, rfl⟩

/-- The scrubber at the line after that of `m`. -/
structure ScrubMoved (m n : Mach) : Prop where
  line : n.fld Reg.memScrub F.memScrubLine = (m.fld Reg.memScrub F.memScrubLine + 1) % 2 ^ 26
  passes : n.fld Reg.memScrub F.memScrubPasses =
    (m.fld Reg.memScrub F.memScrubPasses + (m.fld Reg.memScrub F.memScrubLine + 1) / 2 ^ 26) % 2 ^ 16

theorem scrubLine_moves (up : m.memUp = true) (due : m.fld Reg.memScrub F.memScrubLine = 0 → m.memst.scrubAt ≤ m.now) (e : LineErr)
    (x : Mach) (checked : (if m.heldDirty (m.fld Reg.memScrub F.memScrubLine) then m
      else m.readCheck (m.fld Reg.memScrub F.memScrubLine) e) = x) :
    ScrubMoved m (m.scrubLine e) ∧ (m.scrubLine e).mem = x.mem ∧ ∀ a, a ≠ Reg.memScrub → (m.scrubLine e).reg a = x.reg a := by
  have shape : ∃ y v, m.scrubLine e = y.setReg Reg.memScrub (fset (fset 0 F.memScrubPasses
      (m.fld Reg.memScrub F.memScrubPasses + (m.fld Reg.memScrub F.memScrubLine + 1) / 2 ^ 26)) F.memScrubLine
        (m.fld Reg.memScrub F.memScrubLine + 1)) ∧ y = { x with memst := v } := by
    unfold Mach.scrubLine
    extract_lets l m1 p st m2
    rw [if_neg]
    · have h1 : m1 = x := checked
      refine ⟨m2, m2.memst, rfl, ?_⟩
      unfold m2
      rw [h1]
      split
      · rfl
      · rfl
    · rw [up]
      simp only [Bool.not_true, Bool.false_or, Bool.and_eq_true, decide_eq_true_eq]
      intro ⟨zero, early⟩
      have := due zero
      omega
  obtain ⟨y, v, eq, rfl⟩ := shape
  rw [eq]
  refine ⟨⟨?_, ?_⟩, Mach.setReg_mem _ _ _, fun a other => reg_setReg_of_ne _ _ other.symm⟩
  · rw [fld_setReg_self, fget_fset_same _ _ (by decide)]
    rfl
  · rw [fld_setReg_self, fget_fset_apart _ _ (by decide) (by decide), fget_fset_same _ _ (by decide)]
    rfl

/-! ### Stripes (R324) -/

theorem zero_xor_word (x : BitVec 64) : 0 ^^^ x = x := BitVec.zero_xor

theorem foldl_xor (f : Nat → BitVec 64) (l : List Nat) (x : BitVec 64) :
    l.foldl (fun x k => x ^^^ f k) x = x ^^^ l.foldl (fun x k => x ^^^ f k) 0 := by
  induction l generalizing x with
  | nil => simp
  | cons k l ih => rw [List.foldl_cons, ih, List.foldl_cons, ih (0 ^^^ f k), ← BitVec.xor_assoc, zero_xor_word]

theorem foldl_xor_filter (f : Nat → BitVec 64) {l : List Nat} {j : Nat} (once : l.Nodup) (listed : j ∈ l) :
    l.foldl (fun x k => x ^^^ f k) 0 = f j ^^^ (l.filter fun k => decide (k ≠ j)).foldl (fun x k => x ^^^ f k) 0 := by
  induction l with
  | nil => cases listed
  | cons k l ih =>
    obtain ⟨out, once'⟩ := List.nodup_cons.mp once
    rw [List.foldl_cons, foldl_xor, zero_xor_word]
    by_cases same : k = j
    · subst same
      rw [List.filter_cons_of_neg (by simp), List.filter_eq_self.mpr]
      intro i member
      simpa using fun e : i = k => out (e ▸ member)
    · rw [List.filter_cons_of_pos (by simpa using same), List.foldl_cons, foldl_xor _ _ (0 ^^^ f k), zero_xor_word,
        ih once' ((List.mem_cons.mp listed).resolve_left (Ne.symm same)), ← BitVec.xor_assoc, BitVec.xor_comm (f k),
        BitVec.xor_assoc]

theorem rebuilt_stripe (m : Mach) (line i : Nat) {j : Nat} (range : j < 8) : m.rebuilt line j i = m.stripe line j i := by
  have parity : m.parity line i = m.stripe line j i ^^^
      ((List.range 8).filter fun k => decide (k ≠ j)).foldl (fun x k => x ^^^ m.stripe line k i) 0 :=
    foldl_xor_filter (fun k => m.stripe line k i) List.nodup_range (List.mem_range.mpr range)
  rw [Mach.rebuilt, foldl_xor (fun k => m.stripe line k i), parity, BitVec.xor_assoc, BitVec.xor_self, BitVec.xor_zero]

/-! ### The commands -/

theorem device_fails (s : State) (d : DevId) (up : s.toMach.memUp = true) (alive : s.toMach.devState d.val ≠ 2) :
    ∃ t, exec (.deviceFail d 3) s = .next t ∧ t.toMach.devState d.val = 2 ∧
      t.toMach.fld (Reg.memDev d.val) F.memDevFailcause = 3 ∧
      t.toMach.grpState (d.val / 9) = min 2 (s.toMach.grpState (d.val / 9) + 1) ∧
      ∀ e : DevId, e ≠ d → t.toMach.devState e.val = s.toMach.devState e.val := by
  have h := failDevice_fails d.isLt alive 3
  have e : s.toMach.deviceFail d.val 3 = s.toMach.failDevice d.val 3 := by
    unfold Mach.deviceFail
    rw [up]
    rfl
  exact ⟨_, (lift_next e : execDeviceFail d 3 s = _), h.devState_self, h.failcause, h.grpState_self, fun f other =>
    h.devState_other d.isLt f.isLt fun same => other (Fin.ext same)⟩

theorem device_trained (s : State) (d : DevId) (training : s.toMach.memst.training = some d.val) :
    (∃ t, exec (.deviceTrainingEnd true) s = .next t ∧ t.toMach.devState d.val = 0 ∧ t.toMach.memst.training = none ∧
      t.toMach.reg (Reg.memDevtrain d.val) = w48 ((s.toMach.reg (Reg.memDevtrain d.val)).toNat + 1)) ∧
    (tabGet (fun _ => 0) s.toMach.memst.trainFails d.val = 0 →
      ∃ t, exec (.deviceTrainingEnd false) s = .next t ∧ t.toMach.devState d.val = 0 ∧ t.toMach.memst.training = none ∧
        tabGet (fun _ => 0) t.memst.trainFails d.val = 1) ∧
    (tabGet (fun _ => 0) s.toMach.memst.trainFails d.val = 1 →
      ∃ t, exec (.deviceTrainingEnd false) s = .next t ∧ t.toMach.devState d.val = 2 ∧ t.toMach.memst.training = none ∧
        t.toMach.fld (Reg.memDev d.val) F.memDevFailcause = 2 ∧
        t.toMach.grpState (d.val / 9) = min 2 (s.toMach.grpState (d.val / 9) + 1)) := by
  refine ⟨?_, fun zero => ?_, fun one => ?_⟩
  · obtain ⟨dev, none_, -, regs⟩ := trained_leaves s.toMach d.val 0
    refine ⟨_, (lift_next (trainEnd_eq training true) : execDeviceTrainingEnd true s = _), ?_, ?_, ?_⟩
    · exact (fld_count_of_ne _ _ (by unfold Reg.memDevtrain Reg.memDev; omega)).trans ((dev d.val).trans (if_pos rfl))
    · exact (congrArg MemSt.training (Mach.setReg_memst _ _ _)).trans none_
    · refine (reg_count_self _ _).trans ?_
      rw [regs _ (by unfold Reg.memDevtrain Reg.memStat; omega) (by unfold Reg.memDevtrain Reg.memDev; omega)]
  · obtain ⟨dev, none_, fails, -⟩ := trained_leaves s.toMach d.val 1
    have e := trainEnd_eq training false
    rw [zero] at e
    exact ⟨_, (lift_next e : execDeviceTrainingEnd false s = _), (dev d.val).trans (if_pos rfl), none_, fails⟩
  · obtain ⟨dev, none_, -, regs⟩ := trained_leaves s.toMach d.val 2
    have e := trainEnd_eq training false
    rw [one] at e
    have alive : (s.toMach.trained d.val 2).devState d.val ≠ 2 := by
      rw [dev, if_pos rfl]
      decide
    have h := failDevice_fails d.isLt alive 2
    obtain ⟨t, w, st, stays⟩ := h.memst
    refine ⟨_, (lift_next e : execDeviceTrainingEnd false s = _), h.devState_self, ?_, h.failcause, ?_⟩
    · exact (congrArg MemSt.training st).trans (stays (.inr none_))
    · refine h.grpState_self.trans ?_
      rw [Mach.grpState, fld_congr (regs _ (by unfold Reg.memGrp Reg.memStat; omega) (by unfold Reg.memGrp Reg.memDev; omega)),
        Mach.grpState]

/-- Settles O17: device failure and training by `failDevice`, the scrub by the read check of a group that serves. -/
theorem memoryDevicesAndScrub : Obligations.MemoryDevicesAndScrub := by
  refine ⟨fun s d => ⟨device_fails s d, fun up none_ turn may folio due => ?_, device_trained s d⟩, ?_,
    fun m line j i range _ => rebuilt_stripe m line i range⟩
  · obtain ⟨dev, training, next_, others⟩ := trainStart_begins up none_ turn d.isLt may folio due
    exact ⟨_, (lift_next rfl : execDeviceTrainingStart s = _), dev, training, next_, fun e other =>
      others e.val fun same => other (Fin.ext same)⟩
  · intro s c m l line up due alive range
    have moves := scrubLine_moves up due
    refine ⟨fun held e => ?_, ?_, fun free idle => ⟨?_, ?_⟩⟩
    · obtain ⟨moved, mem, -⟩ := moves e m (if_pos held)
      exact ⟨_, (lift_next rfl : execPatrolScrubLine e s = _), ⟨moved.line, moved.passes⟩, mem⟩
    · obtain ⟨moved, mem, -⟩ := moves {} m (by rw [readCheck_good alive, ite_self])
      exact ⟨_, (lift_next rfl : execPatrolScrubLine {} s = _), ⟨moved.line, moved.passes⟩, mem⟩
    · have small : devOf (l % 2) (c / 8) < 18 := by unfold devOf; omega
      have works : (m.count Reg.memRebuilt).devState (devOf (l % 2) (c / 8)) ≠ 2 := by
        rw [Mach.devState, fld_count_of_ne _ _ (by unfold Reg.memRebuilt Reg.memDev; omega)]
        exact alive _ (by omega)
      obtain ⟨mem1, reg1⟩ := countRebuild_leaves small works
      obtain ⟨moved, mem, regs⟩ := moves { multi := [c] } _
        ((if_neg (by rw [show m.heldDirty _ = false from free]; decide)).trans ((readCheck_multi alive idle).trans (if_pos rfl)))
      refine ⟨_, (lift_next rfl : execPatrolScrubLine { multi := [c] } s = _), ⟨moved.line, moved.passes⟩,
        mem.trans (mem1.trans (Mach.setReg_mem _ _ _)), ?_⟩
      rw [regs _ (by decide), reg1, reg_count_self]
    · obtain ⟨moved, mem, -⟩ := moves { multi := [c], rebuilds := false } _
        ((if_neg (by rw [show m.heldDirty _ = false from free]; decide)).trans ((readCheck_multi alive idle).trans (if_neg (by decide))))
      have cont : ∀ a, (m.scrubLine { multi := [c], rebuilds := false }).cont a = (m.poisonAll l [c]).cont a := fun a => by
        rw [Mach.cont, mem, Mach.cont]
      refine ⟨_, (lift_next rfl : execPatrolScrubLine { multi := [c], rebuilds := false } s = _), ⟨moved.line, moved.passes⟩, ?_,
        fun a other => ?_⟩
      · rw [cont, Mach.poisonAll, List.foldl_cons, List.foldl_nil]
        split
        · assumption
        · rw [cont_poison, if_pos rfl]
          decide
      · rw [cont, Mach.poisonAll, List.foldl_cons, List.foldl_nil]
        split
        · rfl
        · rw [cont_poison, if_neg (Ne.symm other)]

end Sys2Proof.Machine
end

section
/-! PROOFS. Memory spliced, scanned and cleared of copies (R323, R333, R334). -/

namespace Sys2Proof.Machine

open Sys2Proof

/-! ### Octets of spliced memory -/

theorem tabGet_absent {α : Type} (d : Nat → α) {t : List (Nat × α)} {j : Nat} (h : ∀ e ∈ t, e.1 ≠ j) : tabGet d t j = d j := by
  induction t with
  | nil => rfl
  | cons e t ih =>
    obtain ⟨first, rest⟩ := List.forall_mem_cons.mp h
    rw [tabGet, if_neg first, ih rest]

theorem tabGet_append_right {α : Type} (d : Nat → α) {t u : List (Nat × α)} {j : Nat} (h : ∀ e ∈ t, e.1 ≠ j) :
    tabGet d (t ++ u) j = tabGet d u j := by
  induction t with
  | nil => rfl
  | cons e t ih =>
    obtain ⟨first, rest⟩ := List.forall_mem_cons.mp h
    rw [List.cons_append, tabGet, if_neg first, ih rest]

theorem tabGet_append_left {α : Type} (d : Nat → α) {t u : List (Nat × α)} {j : Nat} (h : ∀ e ∈ u, e.1 ≠ j) :
    tabGet d (t ++ u) j = tabGet d t j := by
  induction t with
  | nil => exact tabGet_absent d h
  | cons e t ih =>
    rw [List.cons_append, tabGet, tabGet, ih]

theorem octetAt_cellsOf (os : List Octet) (k j : Nat) (low : k ≤ j) : octetAt (cellsOf os k) j = os.getD (j - k) 0 := by
  induction os generalizing k with
  | nil => rfl
  | cons o os ih =>
    have rest : k ≠ j → octetAt (cellsOf os (k + 1)) j = (o :: os).getD (j - k) 0 := fun other => by
      rw [ih (k + 1) (by omega), show j - k = (j - (k + 1)) + 1 by omega, List.getD_cons_succ]
    unfold cellsOf
    by_cases here : k = j
    · subst here
      rw [Nat.sub_self, List.getD_cons_zero]
      split
      next zero =>
        rw [octetAt, tabGet_absent, zero]
        intro e listed
        have := (cellsOf_ge _ _ e listed).1
        omega
      · exact if_pos rfl
    · split
      · exact rest here
      · exact (if_neg here).trans (rest here)

theorem octetAt_spliceConts (mem : List Host.Cell) (a : Nat) (cs : List Cont) (j : Nat) :
    octetAt (spliceConts mem a cs) j =
      if 8 * a ≤ j ∧ j < 8 * (a + cs.length) then (contsOctets cs).getD (j - 8 * a) 0 else octetAt mem j := by
  have cells : ∀ e ∈ cellsOf (contsOctets cs) (8 * a), 8 * a ≤ e.1 ∧ e.1 < 8 * (a + cs.length) := fun e listed => by
    obtain ⟨low, high, -⟩ := cellsOf_ge _ _ e listed
    rw [length_contsOctets] at high
    omega
  have before : ∀ e ∈ mem.filter fun e => decide (e.1 < 8 * a), e.1 < 8 * a := fun e listed =>
    of_decide_eq_true (List.mem_filter.mp listed).2
  have after : ∀ e ∈ mem.filter fun e => decide (8 * (a + cs.length) ≤ e.1), 8 * (a + cs.length) ≤ e.1 := fun e listed =>
    of_decide_eq_true (List.mem_filter.mp listed).2
  unfold octetAt spliceConts
  by_cases high : 8 * (a + cs.length) ≤ j
  · rw [if_neg (by omega), tabGet_append_right, tabGet_filter cellDefault (fun k => decide (8 * (a + cs.length) ≤ k)),
      if_pos (decide_eq_true high)]
    intro e listed
    rcases List.mem_append.mp listed with first | second
    · have := before e first
      omega
    · have := cells e second
      omega
  · rw [tabGet_append_left]
    · by_cases low : 8 * a ≤ j
      · rw [if_pos ⟨low, by omega⟩, tabGet_append_right]
        · exact octetAt_cellsOf _ _ _ low
        · intro e listed
          have := before e listed
          omega
      · rw [if_neg (by omega), tabGet_append_left, tabGet_filter cellDefault (fun k => decide (k < 8 * a)),
          if_pos (decide_eq_true (by omega))]
        intro e listed
        have := cells e listed
        omega
    · intro e listed
      have := after e listed
      omega

theorem contAt_congr {mem mem' : List Host.Cell} {a : Nat} (h : ∀ i, 1 ≤ i → i < 8 → octetAt mem (8 * a + i) = octetAt mem' (8 * a + i)) :
    contAt mem a = contAt mem' a := by
  have pays : ((List.range 6).map fun i => octetAt mem (8 * a + 2 + i)) = (List.range 6).map fun i => octetAt mem' (8 * a + 2 + i) :=
    List.map_congr_left fun i listed => by
      have := List.mem_range.mp listed
      rw [Nat.add_assoc, h (2 + i) (by omega) (by omega)]
  unfold contAt
  rw [h 1 (by omega) (by omega), pays]

theorem getD_contsOctets_replicate (c : Cont) (n i k : Nat) (range : k < n) (small : i < 8) :
    (contsOctets (List.replicate n c)).getD (8 * k + i) 0 = ((0 : Octet) :: contOctets c).getD i 0 := by
  have len : ((0 : Octet) :: contOctets c).length = 8 := by simp
  have step : ∀ n, contsOctets (List.replicate (n + 1) c) = ((0 : Octet) :: contOctets c) ++ contsOctets (List.replicate n c) := fun n => by
    rw [contsOctets, List.replicate_succ, List.flatMap_cons, contsOctets]
  induction n generalizing k with
  | zero => omega
  | succ n ih =>
    rw [step]
    cases k with
    | zero =>
      rw [List.getD_append _ _ _ _ (by omega)]
      congr 1
      omega
    | succ k =>
      rw [List.getD_append_right _ _ _ _ (by omega), len, show 8 * (k + 1) + i - 8 = 8 * k + i by omega]
      exact ih k (by omega)

/-- A container of spliced memory. -/
theorem contAt_splice_replicate (mem : List Host.Cell) (a n : Nat) (c : Cont) (b : Nat) :
    contAt (spliceConts mem a (List.replicate n c)) b = if a ≤ b ∧ b < a + n then c else contAt mem b := by
  split
  next inside =>
    refine Eq.trans (contAt_congr (mem' := putCont mem b c) fun i low high => ?_) (contAt_putCont mem b c)
    rw [octetAt_spliceConts, octetAt_putCont, List.length_replicate, if_pos (by omega), if_pos (by omega),
      show 8 * b + i - 8 * a = 8 * (b - a) + i by omega, getD_contsOctets_replicate c n i (b - a) (by omega) high,
      show i = (i - 1) + 1 by omega, List.getD_cons_succ]
    congr 1
    omega
  next outside =>
    refine contAt_congr fun i low high => ?_
    rw [octetAt_spliceConts, List.length_replicate, if_neg (by omega)]

/-! ### Lines that no unit holds changed -/

/-- No unit holds a changed copy of a line that `P` names. -/
def LinesFree (P : Nat → Prop) (m : Mach) : Prop := ∀ e ∈ m.seats, ∀ l, P l → e.2.dirtyOf l = none

theorem dirtyOf_none (s : Seat) (l : Nat) :
    s.dirtyOf l = none ↔ (∀ e ∈ s.ns, (e.2.valid && decide (e.2.line = l)) = false) ∧ ∀ e ∈ s.evb, e.line ≠ l := by
  unfold Seat.dirtyOf
  split
  next e found =>
    refine iff_of_false (by simp) fun ⟨absent, _⟩ => ?_
    have := List.find?_some found
    rw [absent e (List.mem_of_find?_eq_some found)] at this
    cases this
  next absent =>
    rw [List.find?_eq_none] at absent
    rw [Option.map_eq_none_iff, List.find?_eq_none]
    constructor
    · exact fun none_ => ⟨fun e listed => by simpa using absent e listed, fun e listed => by simpa using none_ e listed⟩
    · exact fun ⟨_, none_⟩ e listed => by simpa using none_ e listed

theorem dirtyOf_dropLine {s : Seat} {l : Nat} (line : Nat) (h : s.dirtyOf l = none) : (s.dropLine line).dirtyOf l = none := by
  obtain ⟨ns, evb⟩ := (dirtyOf_none s l).mp h
  refine (dirtyOf_none _ l).mpr ⟨fun e listed => ?_, fun e listed => ?_⟩
  · obtain ⟨old, there, e'⟩ := List.mem_map.mp (List.mem_filter.mp listed).1
    split at e'
    · have invalid : old.2.emptied.valid = false := by
        unfold NsEnt.emptied
        split
        · rfl
        · rfl
      rw [← e', invalid]
      rfl
    · rw [← e']
      exact ns old there
  · obtain ⟨old, there, e'⟩ := List.mem_map.mp listed
    have other := evb old (List.mem_filter.mp there).1
    split at e'
    · rw [← e']
      exact other
    · rw [← e']
      exact other

section

variable {m : Mach} {P : Nat → Prop}

theorem seat_free (h : LinesFree P m) (q : Nat) {l : Nat} (named : P l) : (m.seat q).dirtyOf l = none := by
  unfold LinesFree at h
  unfold Mach.seat
  generalize m.seats = t at h
  induction t with
  | nil => rfl
  | cons e t ih =>
    obtain ⟨first, rest⟩ := List.forall_mem_cons.mp h
    rw [tabGet]
    split
    · exact first l named
    · exact ih rest

theorem snoopLine_free (h : LinesFree P m) {line : Nat} (named : P line) :
    ∃ seats, m.snoopLine none line = { m with seats := seats } ∧ LinesFree P { m with seats := seats } := by
  rw [snoopLine_eq]
  suffices walk : ∀ (t : List (Nat × Seat)) (x : Mach), (∀ e ∈ t, e.2.dirtyOf line = none) → LinesFree P x →
      ∃ seats, t.foldl (Mach.snoopOne none line) x = { x with seats := seats } ∧ LinesFree P { x with seats := seats } from
    walk m.seats m (fun e listed => h e listed line named) h
  intro t
  induction t with
  | nil => exact fun x _ hx => ⟨x.seats, rfl, hx⟩
  | cons e t ih =>
    intro x cleans hx
    obtain ⟨first, rest⟩ := List.forall_mem_cons.mp cleans
    have one : ∃ seats, Mach.snoopOne none line x e = { x with seats := seats } ∧ LinesFree P { x with seats := seats } := by
      unfold Mach.snoopOne
      rw [first, if_neg (by simp)]
      dsimp only
      split
      · exact ⟨x.seats, rfl, hx⟩
      · refine ⟨_, rfl, fun y listed l named' => ?_⟩
        rcases mem_tabPut (d := fun _ => ({} : Seat)) (k := e.1) (v := (x.seat e.1).dropLine line) (t := x.seats) listed with e' | old
        · rw [e']
          exact dirtyOf_dropLine line (seat_free hx e.1 named')
        · exact hx y old l named'
    obtain ⟨seats, e1, h1⟩ := one
    obtain ⟨seats', e2, h2⟩ := ih _ rest h1
    exact ⟨seats', by rw [List.foldl_cons, e1, e2], h2⟩

theorem snoopLines_free (h : LinesFree P m) (f : Nat → Nat) {l : List Nat} (named : ∀ i ∈ l, P (f i)) :
    ∃ seats, l.foldl (fun x i => x.snoopLine none (f i)) m = { m with seats := seats } := by
  induction l generalizing m with
  | nil => exact ⟨m.seats, rfl⟩
  | cons i l ih =>
    obtain ⟨first, rest⟩ := List.forall_mem_cons.mp named
    obtain ⟨seats, e, h1⟩ := snoopLine_free h first
    obtain ⟨seats', e'⟩ := ih h1 rest
    exact ⟨seats', by rw [List.foldl_cons, e, e']⟩

/-- A page rewritten that no unit holds changed. -/
theorem rewritePage_leaves {p : Nat} (free : LinesFree (fun l => l / 64 = p) m) (tag : Nat) :
    ∃ seats mem, m.rewritePage p tag = { m with seats := seats, mem := mem } ∧
      ∀ a, contAt mem a = if a / 4096 = p then { key := 0, tag := BitVec.ofNat 2 tag, chg := false, pay := 0 } else m.cont a := by
  obtain ⟨seats, e⟩ := snoopLines_free free (fun i => 64 * p + i) (l := List.range 64) fun i listed => by
    have := List.mem_range.mp listed
    omega
  refine ⟨seats, _, by rw [Mach.rewritePage, e], fun a => ?_⟩
  rw [contAt_splice_replicate]
  refine if_congr ?_ rfl rfl
  omega

end

end Sys2Proof.Machine
end

section
/-! PROOFS. Marked pages, change-bit scans and the end of memory's initialisation (R333 to R335). -/

namespace Sys2Proof.Machine

open Sys2Proof

variable {m : Mach}

theorem mem_setIns (j k : Nat) (l : List Nat) : j ∈ setIns k l ↔ j = k ∨ j ∈ l := by
  induction l with
  | nil => simp [setIns]
  | cons a l ih =>
    unfold setIns
    split
    · simp
    · split
      next same =>
        subst same
        simp
      · rw [List.mem_cons, List.mem_cons, ih]
        tauto

/-! ### Change bits (R334) -/

/-- A container with CHG cleared where asked. -/
def unchanged (c : Cont) : Cont := { c with chg := false }

theorem tfind_clearChg (ws : List (Nat × Cont)) (k : Nat) : tfind (clearChg ws) k = (tfind ws k).map unchanged := by
  unfold tfind clearChg
  rw [List.find?_map, Option.map_map, Option.map_map]
  rfl

theorem dirtyOf_clearChg (s : Seat) (p l : Nat) :
    (s.clearChg p).dirtyOf l = if l / 64 = p then (s.dirtyOf l).map clearChg else s.dirtyOf l := by
  have ns : ((s.clearChg p).ns.find? fun e => e.2.valid && decide (e.2.line = l)) =
      ((s.ns.find? fun e => e.2.valid && decide (e.2.line = l)).map fun e =>
        if e.2.line / 64 = p then (e.1, { e.2 with words := clearChg e.2.words }) else e) := by
    unfold Seat.clearChg
    rw [List.find?_map]
    congr 1
    refine congrArg (fun f => s.ns.find? f) (funext fun e => ?_)
    simp only [Function.comp]
    split
    · rfl
    · rfl
  have evb : ((s.clearChg p).evb.find? fun e => decide (e.line = l)) =
      ((s.evb.find? fun e => decide (e.line = l)).map fun e => if e.line / 64 = p then { e with words := clearChg e.words } else e) := by
    unfold Seat.clearChg
    rw [List.find?_map]
    congr 1
    refine congrArg (fun f => s.evb.find? f) (funext fun e => ?_)
    simp only [Function.comp]
    split
    · rfl
    · rfl
  unfold Seat.dirtyOf
  rw [ns, evb]
  cases first : s.ns.find? fun e => e.2.valid && decide (e.2.line = l) with
  | some e =>
    have at_ : e.2.line = l := by
      have := List.find?_some first
      simp only [Bool.and_eq_true, decide_eq_true_eq] at this
      exact this.2
    simp only [Option.map_some, at_]
    split
    · rfl
    · rfl
  | none =>
    simp only [Option.map_none]
    cases second : s.evb.find? fun e => decide (e.line = l) with
    | some e =>
      have at_ : e.line = l := by simpa using List.find?_some second
      simp only [Option.map_some, at_]
      split
      · rfl
      · rfl
    | none => simp

theorem dirtyCont_clearChg (s : Seat) (p a : Nat) :
    (s.clearChg p).dirtyCont a = if a / 4096 = p then (s.dirtyCont a).map unchanged else s.dirtyCont a := by
  have line : lineOf a / 64 = a / 4096 := by
    unfold lineOf
    rw [Nat.div_div_eq_div_mul]
  unfold Seat.dirtyCont
  rw [dirtyOf_clearChg, line]
  by_cases here : a / 4096 = p
  · rw [if_pos here, if_pos here]
    cases s.dirtyOf (lineOf a) with
    | none => rfl
    | some ws => exact tfind_clearChg ws _
  · rw [if_neg here, if_neg here]

theorem contAt_scan (l : List Nat) (p : Nat) (mem : List Host.Cell) (a : Nat) :
    contAt (l.foldl (fun x i => if (contAt x (4096 * p + i)).chg then
        putCont x (4096 * p + i) { contAt x (4096 * p + i) with chg := false } else x) mem) a =
      if ∃ i ∈ l, a = 4096 * p + i then unchanged (contAt mem a) else contAt mem a := by
  induction l generalizing mem with
  | nil => simp
  | cons i l ih =>
    rw [List.foldl_cons, ih]
    have one : contAt (if (contAt mem (4096 * p + i)).chg then
        putCont mem (4096 * p + i) { contAt mem (4096 * p + i) with chg := false } else mem) a =
          if a = 4096 * p + i then unchanged (contAt mem a) else contAt mem a := by
      split
      · split
        next here => rw [here, contAt_putCont, unchanged]
        next other => exact contAt_putCont_ne _ _ _ _ (Ne.symm other)
      next clear =>
        split
        next here =>
          rw [here, unchanged]
          simp only [Bool.not_eq_true] at clear
          rw [← clear]
        · rfl
    rw [one]
    by_cases here : a = 4096 * p + i
    · rw [if_pos here, if_pos (show ∃ j ∈ i :: l, a = 4096 * p + j from ⟨i, List.mem_cons_self, here⟩)]
      split
      · rfl
      · rfl
    · rw [if_neg here]
      refine if_congr ?_ rfl rfl
      simp [here]

/-- The state at the end of a scan that clears. -/
def Mach.scanned (m : Mach) (p : Nat) (clear : Bool) : Mach :=
  if clear then
    { m with
      seats := m.seats.map fun e => (e.1, e.2.clearChg p)
      mem := (List.range 4096).foldl (fun x i =>
        let c := contAt x (4096 * p + i)
        if c.chg then putCont x (4096 * p + i) { c with chg := false } else x) m.mem }
  else m

theorem findSome_clearChg (l : List (Nat × Seat)) (p a : Nat) :
    ((l.map fun e => (e.1, e.2.clearChg p)).findSome? fun e => e.2.dirtyCont a) =
      if a / 4096 = p then (l.findSome? fun e => e.2.dirtyCont a).map unchanged else l.findSome? fun e => e.2.dirtyCont a := by
  induction l with
  | nil => simp
  | cons e l ih =>
    rw [List.map_cons, List.findSome?_cons, List.findSome?_cons, ih]
    dsimp only
    rw [dirtyCont_clearChg]
    by_cases here : a / 4096 = p
    · rw [if_pos here, if_pos here, if_pos here]
      cases e.2.dirtyCont a with
      | none => rfl
      | some c => rfl
    · rw [if_neg here, if_neg here, if_neg here]

theorem coh_scanned (m : Mach) (p : Nat) (clear : Bool) (a : Nat) :
    (m.scanned p clear).coh a = if clear = true ∧ a / 4096 = p then unchanged (m.coh a) else m.coh a := by
  unfold Mach.scanned
  cases clear with
  | false => simp
  | true =>
    rw [if_pos rfl]
    unfold Mach.coh Mach.cont
    dsimp only
    rw [findSome_clearChg, contAt_scan]
    have page : (∃ i ∈ List.range 4096, a = 4096 * p + i) ↔ a / 4096 = p := by
      constructor
      · rintro ⟨i, listed, rfl⟩
        have := List.mem_range.mp listed
        omega
      · intro here
        exact ⟨a % 4096, List.mem_range.mpr (Nat.mod_lt _ (by decide)), by omega⟩
    by_cases here : a / 4096 = p
    · rw [if_pos here, if_pos (page.mpr here), if_pos ⟨rfl, here⟩]
      cases m.seats.findSome? fun e => e.2.dirtyCont a with
      | none => rfl
      | some c => rfl
    · rw [if_neg here, if_neg fun some_ => here (page.mp some_), if_neg fun both => here both.2]

theorem chgScanDone_leaves {p : Nat} {clear : Bool} (scan : m.memst.chgScan = some (p, clear)) :
    let n := m.chgScanDone
    n.memst.chgScan = none ∧ n.bit Reg.memChgres F.memChgresBusy = false ∧ n.bit Reg.memChgreq F.memChgreqGo = false ∧
      (n.bit Reg.memChgres F.memChgresAny = true ↔ ∃ a, a / 4096 = p ∧ (m.coh a).chg = true) ∧
      ∀ a, n.coh a = if clear = true ∧ a / 4096 = p then unchanged (m.coh a) else m.coh a := by
  intro n
  let any := (List.range 4096).any fun i => (m.coh (4096 * p + i)).chg
  have e : n = (({ m.scanned p clear with memst := { (m.scanned p clear).memst with chgScan := none } } : Mach).setReg Reg.memChgres
      (fset 0 F.memChgresAny (b2n any))).setFld Reg.memChgreq F.memChgreqGo 0 := by
    unfold n Mach.chgScanDone
    rw [scan]
    rfl
  have found : any = true ↔ ∃ a, a / 4096 = p ∧ (m.coh a).chg = true := by
    unfold any
    rw [List.any_eq_true]
    constructor
    · rintro ⟨i, listed, changed⟩
      have := List.mem_range.mp listed
      exact ⟨4096 * p + i, by omega, changed⟩
    · rintro ⟨a, here, changed⟩
      exact ⟨a % 4096, List.mem_range.mpr (Nat.mod_lt _ (by decide)), by rw [← here, Nat.div_add_mod]; exact changed⟩
  rw [e]
  refine ⟨?_, ?_, ?_, ?_, fun a => ?_⟩
  · simp [Mach.setFld]
  · rw [bit_setFld_of_ne _ _ (by decide), Mach.bit, reg_setReg_self, fbit_fset_apart _ _ (by decide) (by decide)]
    rfl
  · rw [bit_setFld_same _ _ (by decide) rfl]
    rfl
  · rw [bit_setFld_of_ne _ _ (by decide), Mach.bit, reg_setReg_self, fbit_fset_same _ _ (by decide) rfl, ← found]
    cases any
    · decide
    · decide
  · rw [← coh_scanned]
    simp [Mach.coh, Mach.cont, Mach.setFld]

theorem chgReqSet_starts {w : Who} (v : Word) (house : w.house = true) (idle : m.bit Reg.memChgres F.memChgresBusy = false)
    (sees : m.srPage (fget v F.memChgreqPage) = true → w.sr = true) :
    let n := m.chgReqSet w (fset v F.memChgreqGo 1)
    n.bit Reg.memChgres F.memChgresBusy = true ∧ n.bit Reg.memChgreq F.memChgreqGo = true ∧
      n.memst.chgScan = some (fget v F.memChgreqPage, fbit v F.memChgreqClear) ∧ n.mem = m.mem := by
  intro n
  have page : fget (fset v F.memChgreqGo 1) F.memChgreqPage = fget v F.memChgreqPage := fget_fset_apart _ _ (by decide) (by decide)
  have clear : fbit (fset v F.memChgreqGo 1) F.memChgreqClear = fbit v F.memChgreqClear := fbit_fset_apart _ _ (by decide) (by decide)
  have go : fbit (fset v F.memChgreqGo 1) F.memChgreqGo = true := (fbit_fset_same _ _ (by decide) rfl).trans (by decide)
  obtain ⟨x, e, mem, memst⟩ : ∃ x : Mach, n = (({ x with memst := { x.memst with
      chgScan := some (fget v F.memChgreqPage, fbit v F.memChgreqClear) } } : Mach).setReg Reg.memChgres
        (fset 0 F.memChgresBusy 1)).setFld Reg.memChgreq F.memChgreqGo 1 ∧ x.mem = m.mem ∧ x.memst = m.memst := by
    unfold n Mach.chgReqSet
    extract_lets m1 p st
    refine ⟨m1, ?_, Mach.setReg_mem _ _ _, Mach.setReg_memst _ _ _⟩
    have seen : m.srPage p = true → w.sr = true := by
      unfold p
      rw [page]
      exact sees
    have may : ¬ ((m.srPage p && !w.sr) = true) := by simpa using seen
    rw [house, idle, if_neg (by decide), go, if_neg (by decide), if_neg may, clear, show p = fget v F.memChgreqPage from page]
  rw [e]
  refine ⟨?_, ?_, ?_, ?_⟩
  · rw [bit_setFld_of_ne _ _ (by decide), Mach.bit, reg_setReg_self]
    decide
  · exact (bit_setFld_same _ _ (by decide) rfl).trans (by decide)
  · simp [Mach.setFld]
  · simpa [Mach.setFld] using mem

/-! ### Marked pages (R333) -/

theorem srPageSet_starts {w : Who} {v : Word} (sr : w.sr = true) (idle : m.bit Reg.memSrstat F.memSrstatBusy = false)
    (apart : m.srOverlap (fget v F.memSrpagePage) = false) :
    let n := m.srPageSet w v
    n.bit Reg.memSrstat F.memSrstatBusy = true ∧ n.fld Reg.memSrstat F.memSrstatErr = 0 ∧
      n.memst.srMark = some (fget v F.memSrpagePage, fbit v F.memSrpageSet) ∧ n.mem = m.mem := by
  intro n
  have e : n = ({ m with memst := { m.memst with srMark := some (fget v F.memSrpagePage, fbit v F.memSrpageSet) } } : Mach).setReg
      Reg.memSrstat (fset (fset (m.reg Reg.memSrstat) F.memSrstatErr 0) F.memSrstatBusy 1) := by
    unfold n Mach.srPageSet
    rw [sr, idle, if_neg (by decide), apart]
    rfl
  rw [e]
  refine ⟨?_, ?_, ?_, ?_⟩
  · rw [Mach.bit, reg_setReg_self, fbit_fset_same _ _ (by decide) rfl]
    rfl
  · rw [fld_setReg_self, fget_fset_apart _ _ (by decide) (by decide), fget_fset_same _ _ (by decide)]
    rfl
  · simp
  · simp

theorem srPageDone_eq {p : Nat} {set : Bool} (mark : m.memst.srMark = some (p, set)) (plain : vaultAddr (4096 * p) = false) :
    m.srPageDone =
      ({ m.markSr p set with memst := { (m.markSr p set).memst with srMark := none } } : Mach).setFld Reg.memSrstat F.memSrstatBusy 0 := by
  unfold Mach.srPageDone
  rw [mark]
  simp only [plain, Bool.false_eq_true, if_false]

theorem markSr_leaves {p : Nat} {set : Bool} {tag : Nat} {seats : List (Nat × Seat)} {mem : List Host.Cell}
    (is : tag = if set then 2 else 0) (rewritten : m.rewritePage p tag = { m with seats := seats, mem := mem }) :
    (m.markSr p set).memst.srPages = (if set then setIns p m.memst.srPages else setDel p m.memst.srPages) ∧
      (m.markSr p set).mem = mem := by
  unfold Mach.markSr
  rw [← is, rewritten]
  exact ⟨congrArg MemSt.srPages (Mach.setReg_memst _ _ _), Mach.setReg_mem _ _ _⟩

theorem srPageDone_leaves {p : Nat} {set : Bool} (mark : m.memst.srMark = some (p, set)) (outside : p < 0xFFE00)
    (free : ∀ e ∈ m.seats, ∀ l, l / 64 = p → e.2.dirtyOf l = none) :
    let n := m.srPageDone
    n.memst.srMark = none ∧ n.bit Reg.memSrstat F.memSrstatBusy = false ∧ (∀ x, n.srPage x = if x = p then set else m.srPage x) ∧
      ∀ a, n.cont a = if a / 4096 = p then { key := 0, tag := if set then 2 else 0, chg := false, pay := 0 } else m.cont a := by
  intro n
  obtain ⟨seats, mem, rewritten, conts⟩ := rewritePage_leaves free (if set then 2 else 0)
  have vault : vaultAddr (4096 * p) = false := by
    unfold vaultAddr
    rw [decide_eq_false (by omega), Bool.false_and]
  obtain ⟨regs, memY⟩ := markSr_leaves rfl rewritten
  have e : n = _ := srPageDone_eq mark vault
  rw [e]
  refine ⟨by simp [Mach.setFld], (bit_setFld_same _ _ (by decide) rfl).trans (by decide), fun x => ?_, fun a => ?_⟩
  · rw [Mach.srPage, Mach.setFld, Mach.setReg_memst]
    dsimp only
    rw [regs, Mach.srPage, Bool.eq_iff_iff]
    cases set with
    | true =>
      simp only [if_true, List.contains_iff_mem, mem_setIns]
      split
      next same => simp [same]
      next other => simp [other]
    | false =>
      simp only [Bool.false_eq_true, if_false, List.contains_iff_mem, setDel, List.mem_filter]
      split
      next same => simp [same]
      next other => simp [other]
  · rw [Mach.cont, Mach.setFld, Mach.setReg_mem]
    dsimp only
    rw [memY, conts]
    cases set
    · rfl
    · rfl

/-! ### The end of initialisation (R335) -/

theorem failDevice_failed {d : Nat} (failed : m.devState d = 2) (cause : Nat) : m.failDevice d cause = m := if_pos failed

theorem failDevices_leaves (l : List Nat) (small : ∀ d ∈ l, d < 18) (m : Mach) :
    let n := l.foldl (fun x d => x.failDevice d 2) m
    n.mem = m.mem ∧ n.bit Reg.memStat F.memStatInit = m.bit Reg.memStat F.memStatInit ∧
      (∀ d < 18, m.devState d = 2 → n.devState d = 2) ∧ ∀ d ∈ l, n.devState d = 2 := by
  induction l generalizing m with
  | nil => exact ⟨rfl, rfl, fun _ _ failed => failed, fun _ listed => nomatch listed⟩
  | cons d l ih =>
    obtain ⟨range, rest⟩ := List.forall_mem_cons.mp small
    obtain ⟨mem, init, stays, all⟩ := ih rest (m.failDevice d 2)
    have one : (m.failDevice d 2).mem = m.mem ∧ (m.failDevice d 2).bit Reg.memStat F.memStatInit = m.bit Reg.memStat F.memStatInit ∧
        (∀ e < 18, m.devState e = 2 → (m.failDevice d 2).devState e = 2) ∧ (m.failDevice d 2).devState d = 2 := by
      by_cases failed : m.devState d = 2
      · rw [failDevice_failed failed]
        exact ⟨rfl, rfl, fun _ _ h => h, failed⟩
      · have h := failDevice_fails range failed 2
        refine ⟨h.mem, h.init, fun e small' old => ?_, h.devState_self⟩
        by_cases same : e = d
        · exact same ▸ h.devState_self
        · exact (h.devState_other range small' same).trans old
    obtain ⟨mem1, init1, stays1, self1⟩ := one
    refine ⟨mem.trans mem1, init.trans init1, fun e small' old => stays e small' (stays1 e small' old), fun e listed => ?_⟩
    rcases List.mem_cons.mp listed with rfl | later
    · exact stays e range self1
    · exact all e later

/-- Settles O18: a page's 4,096 containers spliced into memory, and the scan's walk over them. -/
theorem markedPagesAndScans : Obligations.MarkedPagesAndScans := by
  refine ⟨fun s w v p set => ⟨fun sr idle apart => ?_, fun other => ?_, fun mark outside free => ?_⟩,
    fun s w v p clear l => ⟨fun house idle sees => ?_, fun scan => ?_, fun up init => ?_⟩⟩
  · exact ⟨_, (lift_next rfl : execMemSrpageWrite w v s = _), srPageSet_starts sr idle apart⟩
  · exact (lift_next (n := s.toMach) (if_pos (by rw [other]; rfl)) : execMemSrpageWrite w v s = _)
  · exact ⟨_, (lift_next rfl : execSrpageMarkDone s = _), srPageDone_leaves mark outside free⟩
  · exact ⟨_, (lift_next rfl : execChgScan w v s = _), chgReqSet_starts v house idle sees⟩
  · exact ⟨_, (lift_next rfl : execChgScanDone s = _), chgScanDone_leaves scan⟩
  · let m := s.toMach
    let st := { m.memst with trainAt := (List.range 18).foldl (fun t d => tabPut (fun _ => 0) d m.now t) m.memst.trainAt, scrubAt := m.now }
    have e : m.memInitDone (l.map Fin.val) = (l.map Fin.val).foldl (fun x d => x.failDevice d 2)
        ({ m with mem := [], memst := st }.setFld Reg.memStat F.memStatInit 0) := if_pos (by rw [up, init]; rfl)
    obtain ⟨mem, init', -, all⟩ := failDevices_leaves (l.map Fin.val) (by
      intro d listed
      obtain ⟨e, -, rfl⟩ := List.mem_map.mp listed
      exact e.isLt) ({ m with mem := [], memst := st }.setFld Reg.memStat F.memStatInit 0)
    refine ⟨_, (lift_next e : execMemInitComplete l s = _), init'.trans ((bit_setFld_same _ _ (by decide) rfl).trans (by decide)),
      mem.trans (Mach.setReg_mem _ _ _), fun d listed => all d.val (List.mem_map_of_mem listed)⟩

end Sys2Proof.Machine
end

section
/-! PROOFS. Seats reset, moved and cleaned (R232, R308, R316). -/

namespace Sys2Proof.Machine

open Sys2Proof

variable {m : Mach} {q : Nat}

/-! ### What a reset of a seat changes -/

/-- Registers outside the clusters' blocks and the interrupt block; above them, those whose address no CLU_UNIT has. -/
def SeatFrame (a : Nat) : Prop := a < 0x2C0000 ∨ (a % 4 ≠ 0 ∧ 0x380000 ≤ a)

/-- `n` is `m` with units cleaned and seats changed: memory, the seats and the clusters' registers. -/
structure Reseats (m n : Mach) : Prop where
  rest : ∃ r mem seats l2, ∃ st : MemSt, ∃ dirty, n = { m with
    regs := r, mem := mem, seats := seats, l2dirty := l2, memst := { st with srPages := m.memst.srPages }
    twin := { m.twin with dirty := dirty } }
  reg : ∀ a, SeatFrame a → n.reg a = m.reg a

namespace Reseats

variable {x n o : Mach}

theorem refl (m : Mach) : Reseats m m := ⟨⟨m.regs, m.mem, m.seats, m.l2dirty, m.memst, m.twin.dirty, rfl⟩, fun _ _ => rfl⟩

theorem trans (h : Reseats m n) (g : Reseats n o) : Reseats m o := by
  obtain ⟨_, _, _, _, _, _, rfl⟩ := h.rest
  obtain ⟨_, _, _, _, _, _, rfl⟩ := g.rest
  exact ⟨⟨_, _, _, _, _, _, rfl⟩, fun a ha => (g.reg a ha).trans (h.reg a ha)⟩

theorem foldl {β : Type} {f : Mach → β → Mach} {l : List β} (h : Reseats m x)
    (step : ∀ y b, Reseats m y → Reseats m (f y b)) : Reseats m (l.foldl f x) := by
  induction l generalizing x with
  | nil => exact h
  | cons b l ih => exact ih (step x b h)

theorem ite {p : Prop} [Decidable p] {a b : Mach} (ha : Reseats m a) (hb : Reseats m b) : Reseats m (if p then a else b) := by
  split
  · exact ha
  · exact hb

theorem parts {mem seats l2} (h : Reseats m x) : Reseats m { x with mem := mem, seats := seats, l2dirty := l2 } :=
  h.trans ⟨⟨x.regs, mem, seats, l2, x.memst, x.twin.dirty, rfl⟩, fun _ _ => rfl⟩

theorem setSeat {s} (h : Reseats m x) : Reseats m (x.setSeat q s) := h.parts (mem := x.mem) (l2 := x.l2dirty)

theorem toGroup {line} (h : Reseats m x) : Reseats m (x.toGroup line) := by
  unfold Mach.toGroup
  extract_lets m1 st
  have h1 : Reseats m m1 := h.parts (mem := x.mem) (seats := x.seats)
  refine .ite (h1.trans ⟨⟨m1.regs, m1.mem, m1.seats, m1.l2dirty, { st with writeQ := setIns line st.writeQ }, m1.twin.dirty, rfl⟩,
    fun _ _ => rfl⟩) h1

theorem mirDirty {line} (h : Reseats m x) : Reseats m (x.mirDirty line) :=
  .ite (h.trans ⟨⟨x.regs, x.mem, x.seats, x.l2dirty, x.memst, setIns line x.twin.dirty, rfl⟩, fun _ _ => rfl⟩) h

theorem setCont {a c} (h : Reseats m x) : Reseats m (x.setCont a c) := h.parts (seats := x.seats) (l2 := x.l2dirty)

theorem writeLine {line ws} (h : Reseats m x) : Reseats m (x.writeLine line ws) := by
  unfold Mach.writeLine
  extract_lets m1
  have h1 : Reseats m m1 := h.foldl fun _ _ h => h.setCont
  exact .ite h (mirDirty (.ite (h1.parts (mem := m1.mem) (seats := m1.seats)) h1.toGroup))

theorem cleanUnit (h : Reseats m x) : Reseats m (x.cleanUnit q) := by
  unfold Mach.cleanUnit
  extract_lets s m1 m2
  have h1 : Reseats m m1 := h.foldl fun _ _ h => .ite h.writeLine h
  have h2 : Reseats m m2 := h1.foldl fun _ _ h => h.writeLine
  exact h2.setSeat

theorem setReg {a v} (h : Reseats m x) (low : 0x2C0000 ≤ a) (named : a < 0x380000 ∨ a % 4 = 0) : Reseats m (x.setReg a v) := by
  have plain : ledgerAddr a = false := by
    unfold ledgerAddr Reg.sealCtl Reg.sealRsize Reg.sealTail
    simp
    omega
  refine h.trans ⟨?_, fun b hb => reg_setReg_of_ne _ _ ?_⟩
  · rw [Mach.setReg, plain]
    exact ⟨_, x.mem, x.seats, x.l2dirty, x.memst, x.twin.dirty, rfl⟩
  · unfold SeatFrame at hb
    omega

theorem setSeatState {v} (h : Reseats m x) (small : q < 64) : Reseats m (x.setSeatState q v) :=
  h.setReg (by unfold Reg.cluSeat; omega) (by unfold Reg.cluSeat cluOf; omega)

theorem cluUnit {c u v} (h : Reseats m x) (small : c < 4) : Reseats m (x.setReg (Reg.cluUnit c u) v) :=
  h.setReg (by unfold Reg.cluUnit; omega) (.inr (by unfold Reg.cluUnit; omega))

theorem beginMove {u cause} (h : Reseats m x) (small : q < 64) : Reseats m (x.beginMove q u cause) := by
  unfold Mach.beginMove
  extract_lets c old mk
  have h1 : Reseats m (mk (mk x old) u) := (h.cluUnit (by unfold c cluOf; omega)).cluUnit (by unfold c cluOf; omega)
  exact (h1.setSeatState small).setSeat

theorem atCheckpoint (h : Reseats m x) (small : q < 64) : Reseats m (x.atCheckpoint q) := by
  unfold Mach.atCheckpoint
  extract_lets s
  split
  · exact .ite (h.beginMove small) h
  · exact .ite (h.setSeatState small).setSeat h

section

variable {n : Mach} (h : Reseats m n)
include h

theorem fld {a : Nat} (frame : SeatFrame a) (f : Fld) : n.fld a f = m.fld a f := fld_congr (h.reg a frame) f
theorem bit {a : Nat} (frame : SeatFrame a) (f : Fld) : n.bit a f = m.bit a f := by rw [Mach.bit, h.reg a frame, Mach.bit]
theorem sr : n.sr = m.sr := by obtain ⟨_, _, _, _, _, _, rfl⟩ := h.rest; rfl
theorem now : n.now = m.now := by obtain ⟨_, _, _, _, _, _, rfl⟩ := h.rest; rfl
theorem srPages : n.memst.srPages = m.memst.srPages := by obtain ⟨_, _, _, _, _, _, rfl⟩ := h.rest; rfl

end

end Reseats

/-! ### A seat reset (R232, R316) -/

/-- The state of a seat reset before the monitor is entered: cleaned, in no group, at its first level with the monitor's VEC. -/
def Mach.blanked (m : Mach) (q : Nat) : Mach :=
  let a : Arch := ({ } : Arch).setCell 5 0xB (m.reg Reg.srMonvec)
  let m1 := m.cleanUnit q
  ((((m1.setSeat q { arch := a, ckpt := a, rotTo := (m1.seat q).rotTo }).setReg (Reg.intSeatlast (cluOf q) (q % 16)) 0).setReg
    (Reg.intSeatlastSr (cluOf q) (q % 16)) 0)).setSeatState q 1

theorem reseats_blanked (small : q < 64) : Reseats m (m.blanked q) :=
  ((((Reseats.refl m).cleanUnit.setSeat.setReg (by unfold Reg.intSeatlast; omega) (by unfold Reg.intSeatlast cluOf; omega)).setReg
    (by unfold Reg.intSeatlastSr; omega) (by unfold Reg.intSeatlastSr cluOf; omega)).setSeatState small)

theorem seat_blanked (m : Mach) (q : Nat) : (m.blanked q).seat q =
    { arch := ({ } : Arch).setCell 5 0xB (m.reg Reg.srMonvec), ckpt := ({ } : Arch).setCell 5 0xB (m.reg Reg.srMonvec)
      rotTo := ((m.cleanUnit q).seat q).rotTo } := by
  unfold Mach.blanked Mach.setSeatState
  rw [seat_setFld, Mach.seat_setReg, Mach.seat_setReg, Mach.seat_setSeat, if_pos rfl]

theorem resetSeat_eq (m : Mach) (q : Nat) : m.resetSeat q = (m.blanked q).enterLevel q 4 Cause.reset 0 0 false 0 := rfl

theorem setLevel_rest (x : Seat) (h : Nat) : (x.setLevel h).stores = x.stores ∧ (x.setLevel h).retries = x.retries ∧
    (x.setLevel h).ns = x.ns ∧ (x.setLevel h).haltReq = x.haltReq ∧ (x.setLevel h).rotTo = x.rotTo := by
  unfold Seat.setLevel Seat.worldChange
  split
  · exact ⟨rfl, rfl, rfl, rfl, rfl⟩
  · exact ⟨rfl, rfl, rfl, rfl, rfl⟩

theorem closeGroup_calm (m : Mach) (q : Nat) (stores : (m.seat q).stores = []) (retries : (m.seat q).retries = 0) :
    m.closeGroup q =
      m.setSeat q { m.seat q with ckpt := (m.seat q).arch, group := 0, retries := 0, fresh := false } := by
  unfold Mach.closeGroup
  rw [drain_nil m q stores]
  exact if_pos retries

/-- A group that ends with no store waiting and no retry in progress. -/
theorem endGroup_calm (m : Mach) (q : Nat) (s : Seat) (stores : s.stores = []) (retries : s.retries = 0) :
    (m.setSeat q s).endGroup q =
      ((m.setSeat q s).setSeat q { s with ckpt := s.arch, group := 0, retries := 0, fresh := false }).atCheckpoint q := by
  have here : (m.setSeat q s).seat q = s := by rw [Mach.seat_setSeat, if_pos rfl]
  rw [Mach.endGroup, closeGroup_calm _ _ (by rw [here, stores]) (by rw [here, retries]), here]

/-- The seat that enters handling level `h`, before its group ends. -/
def Seat.entering (s : Seat) (h cause detail page : Nat) (spill : Bool) (xpc : Nat) : Seat :=
  let s1 := s.setLevel h
  { s1 with
    arch := s1.arch.entered s.arch.wld h cause detail page spill xpc
    entry := if !srLevel s.arch.wld && srLevel h then some (s.arch.wld, xpc, cause == Cause.callm) else s1.entry }

theorem enterLevel_eq (m : Mach) (q h cause detail page : Nat) (spill : Bool) (xpc : Nat) :
    m.enterLevel q h cause detail page spill xpc =
      ((m.nsRetire q).setSeat q (((m.nsRetire q).seat q).entering h cause detail page spill xpc)).endGroup q := by
  rw [Seat.entering, Arch.entered, Arch.atHandler]
  simp only [decide_eq_true_iff]
  rfl

theorem entering_rest (s : Seat) (h cause detail page : Nat) (spill : Bool) (xpc : Nat) :
    let n := s.entering h cause detail page spill xpc
    n.stores = s.stores ∧ n.retries = s.retries ∧ n.ns = s.ns ∧ n.haltReq = s.haltReq ∧ n.rotTo = s.rotTo := setLevel_rest s h

theorem nsRetire_none (h : (m.seat q).acc = []) : m.nsRetire q = m := by
  unfold Mach.nsRetire
  rw [h]
  rfl

/-- The monitor entered on a seat reset. -/
theorem enterLevel_blanked (m : Mach) (q : Nat) : ∃ s0 s : Seat,
    m.resetSeat q = (((m.blanked q).setSeat q s0).setSeat q s).atCheckpoint q ∧
      s.ns = [] ∧ s.haltReq = false ∧ s.rotTo = ((m.cleanUnit q).seat q).rotTo := by
  have seat := seat_blanked m q
  obtain ⟨stores, retries, ns, halt, rot⟩ := entering_rest ((m.blanked q).seat q) 4 Cause.reset 0 0 false 0
  rw [resetSeat_eq, enterLevel_eq, nsRetire_none (by rw [seat])]
  generalize ((m.blanked q).seat q).entering 4 Cause.reset 0 0 false 0 = s1 at stores retries ns halt rot
  rw [seat] at stores retries ns halt rot
  exact ⟨_, _, endGroup_calm _ _ s1 stores retries, ns, halt, rot⟩

theorem rotTo_cleanUnit (m : Mach) (q : Nat) : ((m.cleanUnit q).seat q).rotTo = (m.seat q).rotTo := by
  have writes : ∀ {β : Type} (l : List β) (f : Mach → β → Mach) (x : Mach), (∀ y b, (f y b).seat q = y.seat q) →
      (l.foldl f x).seat q = x.seat q := fun l f x step => by
    induction l generalizing x with
    | nil => rfl
    | cons b l ih => exact (ih _).trans (step x b)
  unfold Mach.cleanUnit
  extract_lets s m1 m2 t
  rw [Mach.seat_setSeat, if_pos rfl]
  have h1 : m1.seat q = m.seat q := writes _ _ m fun y b => by
    split
    · exact seat_writeLine _ _ _ _
    · rfl
  have h2 : m2.seat q = m1.seat q := writes _ _ m1 fun y b => seat_writeLine _ _ _ _
  change t.rotTo = _
  exact congrArg Seat.rotTo (show t = m.seat q from h2.trans h1)

theorem reseats_resetSeat (small : q < 64) : Reseats m (m.resetSeat q) := by
  obtain ⟨s0, s, e, -⟩ := enterLevel_blanked m q
  rw [e]
  exact (reseats_blanked small).setSeat.setSeat.atCheckpoint small

/-- The architected state of a seat reset: the monitor at its vector. -/
theorem resetSeat_arch (m : Mach) (q : Nat) :
    let b := (m.resetSeat q).arch q
    b.wld = 4 ∧ b.pc = (m.reg Reg.srMonvec).toNat % 2 ^ 40 * 8 ∧ b.ds = [] ∧ b.rs = [] ∧ b.cell 5 0xE = 0 ∧
      fget (b.cell 5 0xD) ⟨47, 40⟩ = 0 ∧ fbit (b.cell 5 7) Psw.xa = true := by
  have seat := seat_blanked m q
  have arch : (m.blanked q).arch q = ({ } : Arch).setCell 5 0xB (m.reg Reg.srMonvec) := congrArg Seat.arch seat
  have h := enterLevel_enters (m.blanked q) q 4 Cause.reset 0 0 false 0 (by rw [seat]) (by rw [arch]; rfl)
  rw [← resetSeat_eq, arch] at h
  have vec : (({ } : Arch).setCell 5 0xB (m.reg Reg.srMonvec)).cell 5 0xB = m.reg Reg.srMonvec := by
    rw [Arch.cell_setCell]
    rfl
  have wld : (({ } : Arch).setCell 5 0xB (m.reg Reg.srMonvec)).wld = 4 := rfl
  refine ⟨h.wld, ?_, h.ds.trans (ite_self _), h.rs.trans (ite_self _), ?_, ?_, ?_⟩
  · rw [h.pc, vec]
    rfl
  · rw [h.cell 5 0xE (by decide)]
    rfl
  · rw [h.cell 5 0xD (by decide), wld]
    exact (by decide : fget (w48 (Cause.reset * 2 ^ 40 + 0 % 256 * 2 ^ 32 + 4 * 2 ^ 29 + b2n false * 2 ^ 28 + 0 % 2 ^ 28)) ⟨47, 40⟩ = 0)
  · rw [h.cell 5 7 (by decide)]
    refine (fbit_fset_apart (f := Psw.ie) (g := Psw.xa) _ 0 (by decide) (by decide)).trans ?_
    rw [fbit_fset_same _ _ (by decide) rfl]
    rfl

/-- A reset of a seat that no rotation waits for. -/
theorem resetSeat_calm (calm : (m.seat q).rotTo = none) :
    ((m.resetSeat q).seat q).ns = [] ∧ (m.resetSeat q).seatState q = 1 := by
  obtain ⟨s0, s, e, ns, halt, rot⟩ := enterLevel_blanked m q
  have here : (((m.blanked q).setSeat q s0).setSeat q s).seat q = s := by rw [Mach.seat_setSeat, if_pos rfl]
  have still : (((m.blanked q).setSeat q s0).setSeat q s).atCheckpoint q = ((m.blanked q).setSeat q s0).setSeat q s := by
    unfold Mach.atCheckpoint
    rw [here]
    dsimp only
    rw [rot, rotTo_cleanUnit, calm]
    dsimp only
    rw [halt]
    rfl
  rw [e, still, here]
  refine ⟨ns, ?_⟩
  change (m.blanked q).seatState q = 1
  unfold Mach.blanked Mach.setSeatState Mach.seatState
  rw [fld_setFld_same _ _ (by decide)]
  rfl

end Sys2Proof.Machine
end

section
/-! PROOFS. The clusters' registers through memory traffic, and seats parked (R308, R310). -/

namespace Sys2Proof.Machine

open Sys2Proof

/-- The clusters' registers of `n` are those of `m`. -/
def CluStays (m n : Mach) : Prop := ∀ a, 0x2C0000 ≤ a → a < 0x2D0000 → n.reg a = m.reg a

namespace CluStays

variable {m x n o : Mach} {q line : Nat}

theorem refl (m : Mach) : CluStays m m := fun _ _ _ => rfl

theorem trans (h : CluStays m n) (g : CluStays n o) : CluStays m o := fun a low high => (g a low high).trans (h a low high)

theorem ite {p : Prop} [Decidable p] {a b : Mach} (ha : CluStays m a) (hb : CluStays m b) : CluStays m (if p then a else b) := by
  split
  · exact ha
  · exact hb

theorem foldl {β : Type} {f : Mach → β → Mach} {l : List β} (h : CluStays m x)
    (step : ∀ y b, CluStays m y → CluStays m (f y b)) : CluStays m (l.foldl f x) := by
  induction l generalizing x with
  | nil => exact h
  | cons b l ih => exact ih (step x b h)

/-- Registers and the ledger stand. -/
theorem of_eq (h : CluStays m x) (regs : n.regs = x.regs) (ledger : n.ledger = x.ledger) : CluStays m n :=
  fun a low high => by rw [Mach.reg, regs, ledger, ← Mach.reg, h a low high]

theorem becomes {y : Mach} (h : CluStays m y) (e : y = x) : CluStays m x := e ▸ h

theorem setReg {a v} (h : CluStays m x) (other : a < 0x2C0000 ∨ 0x2D0000 ≤ a) : CluStays m (x.setReg a v) :=
  fun b low high => (reg_setReg_of_ne _ _ (by omega)).trans (h b low high)

theorem setFld {a f v} (h : CluStays m x) (other : a < 0x2C0000 ∨ 0x2D0000 ≤ a) : CluStays m (x.setFld a f v) := h.setReg other

theorem count {a k} (h : CluStays m x) (other : a < 0x2C0000 ∨ 0x2D0000 ≤ a) : CluStays m (x.count a k) := h.setReg other

theorem stores (h : CluStays m x) (g : Stores x n) : CluStays m n := fun a low high => (g.reg a).trans (h a low high)

theorem signals {L : List Nat} (h : CluStays m x) (g : Signals L x n) (out : ∀ a ∈ L, a < 0x2C0000 := by decide) : CluStays m n :=
  fun a low high => (g.reg a (by omega) fun listed => by have := out a listed; omega).trans (h a low high)

theorem turns (h : CluStays m x) (g : Turns x n) : CluStays m n := fun a low high => by
  obtain ⟨y, _, _, _, hy, e⟩ := g.rest
  have out : ∀ b ∈ roleRegs, b < 0x2C0000 := by decide
  have same : n.reg a = y.reg a := by
    rw [e]
    rfl
  rw [same, hy.reg a (by omega) fun listed => by have := out a listed; omega]
  exact h a low high

theorem setSeat {s} (h : CluStays m x) : CluStays m (x.setSeat q s) := h.of_eq rfl rfl

theorem setCont {a c} (h : CluStays m x) : CluStays m (x.setCont a c) := h.of_eq rfl rfl

theorem writeLine {ws} (h : CluStays m x) : CluStays m (x.writeLine line ws) := h.stores (.writeLine (.refl x))

theorem toGroup (h : CluStays m x) : CluStays m (x.toGroup line) := h.stores (.toGroup (.refl x))

theorem snoopLine {p} (h : CluStays m x) : CluStays m (x.snoopLine p line) := h.stores (.snoopLine (.refl x))

theorem put {a c} (h : CluStays m x) : CluStays m (x.put a c) := h.stores (.put (.refl x))

theorem memAlarm {f b} (h : CluStays m x) : CluStays m (x.memAlarm f b) :=
  h.signals (L := [Reg.memAlarm]) (.alarmReg (.refl _ x) (by simp))

theorem raise {i} (h : CluStays m x) : CluStays m (x.raise i) := h.signals (L := []) (.raise (.refl _ x))

theorem poison {a} (h : CluStays m x) : CluStays m (x.poison a) := by
  unfold Mach.poison
  extract_lets m1 m2
  have h1 : CluStays m m1 := (h.setCont.count (by decide)).setReg (by decide)
  have h2 : CluStays m m2 := .ite h1.raise h1.memAlarm
  exact .ite (memAlarm (h2.turns (.moduleLost (.refl m2)))) h2

/-! ### Lines read -/

theorem failDevice {d cause} (h : CluStays m x) (small : d < 18) : CluStays m (x.failDevice d cause) := by
  by_cases failed : x.devState d = 2
  · rw [failDevice_failed failed]
    exact h
  · have f := failDevice_fails small failed cause
    exact fun a low high => (f.reg a (by omega) (by unfold Reg.memDev; omega) (by unfold Reg.memGrp; omega)
      (by unfold Reg.memStat; omega) (by unfold Reg.memAlarm; omega)).trans (h a low high)

theorem countRebuild {d} (h : CluStays m x) (small : d < 18) : CluStays m (x.countRebuild d) := by
  unfold Mach.countRebuild
  extract_lets sec n st old m1
  have h1 : CluStays m m1 := h.of_eq rfl rfl
  exact .ite (h1.failDevice small) h1

theorem poisonAll {cs} (h : CluStays m x) : CluStays m (x.poisonAll line cs) := h.foldl fun _ _ h => .ite h h.poison

/-- A line read without an error of its own. -/
theorem lineRead (h : CluStays m x) : CluStays m (x.lineRead line) := by
  unfold Mach.lineRead
  refine .ite ?_ h
  unfold Mach.readCheck
  extract_lets g failed seen y e live multi m1
  have good : seen.single = [] ∧ seen.multi = [] ∧ seen.parity = false := by
    unfold seen
    split
    · exact ⟨rfl, rfl, rfl⟩
    · exact ⟨rfl, rfl, rfl⟩
  obtain ⟨single, meets, parity⟩ := good
  have still : y = x := by
    unfold y
    rw [meets]
    rfl
  have err : e = seen := by
    unfold e
    rw [meets]
    rfl
  have same : m1 = x := by
    unfold m1
    rw [still, err, single]
    rfl
  have none_ : multi = [] := by
    unfold multi
    rw [err, meets]
    rfl
  rw [same, none_, err, parity]
  exact .ite h.poisonAll h

theorem lineSeen (h : CluStays m x) : CluStays m (x.lineSeen q line) := .ite h h.lineRead

/-! ### Near stores and stacks -/

theorem mirDirty (h : CluStays m x) : CluStays m (x.mirDirty line) := h.stores (.mirDirty (.refl x))

theorem noteNs {e} (h : CluStays m x) : CluStays m (x.noteNs q e) := h.setSeat

theorem clusterDrop {k} (h : CluStays m x) : CluStays m (x.clusterDrop k line) := by
  unfold Mach.clusterDrop
  refine h.foldl fun y b hy => ?_
  extract_lets x1
  have h1 : CluStays m x1 := by
    unfold x1
    split
    · exact hy.writeLine
    · exact hy
  exact .ite hy (.ite h1 h1.setSeat)

theorem stacksUse {k} (h : CluStays m x) : CluStays m (x.stacksUse k line).2 := by
  unfold Mach.stacksUse
  extract_lets key set
  split
  · exact h.of_eq rfl rfl
  · split
    rename_i gone keep _
    extract_lets m1 m2
    have h1 : CluStays m m1 := by
      unfold m1
      split
      · exact h.clusterDrop
      · exact h
    have h2 : CluStays m m2 := h1.of_eq rfl rfl
    dsimp only
    split
    · exact .ite h2.toGroup h2
    · exact h2

theorem fillsDone (h : CluStays m x) : CluStays m (x.fillsDone q) := .ite h h.setSeat

theorem writeBack (h : CluStays m x) : CluStays m (x.writeBack q) := by
  unfold Mach.writeBack
  extract_lets s
  split
  · exact h.writeLine.setSeat
  · exact h

theorem snoopRead {p} (h : CluStays m x) : CluStays m (x.snoopRead p line) := by
  unfold Mach.snoopRead
  refine h.foldl fun y b hy => .ite hy ?_
  split
  · exact hy.writeLine.setSeat
  · exact hy

theorem fill (h : CluStays m x) : CluStays m (x.fill q line).2 := by
  unfold Mach.fill
  extract_lets m1 i old dirty m2 s s1 lock m3
  have h3 : CluStays m m3 := (ite h.fillsDone.writeBack.noteNs h.fillsDone).setSeat
  split
  rename_i hit m4 e
  have h4 : CluStays m m4 := h3.stacksUse.becomes (congrArg Prod.snd e)
  exact .ite h4 h4.noteNs

theorem nsAccess (h : CluStays m x) : CluStays m (x.nsAccess q line) := .ite h.noteNs (.ite h.noteNs h.snoopRead.fill.noteNs)

theorem settle (h : CluStays m x) : CluStays m (x.settle q line) := .ite h.fillsDone h

theorem writeBackTo {n : Nat} (h : CluStays m x) : CluStays m (Mach.writeBackTo q line n x) := by
  induction n generalizing x with
  | zero => exact h
  | succ n ih =>
    unfold Mach.writeBackTo
    exact .ite (ih h.writeBack) h

theorem cleanEnt {i} (h : CluStays m x) : CluStays m (x.cleanEnt q i) := by
  unfold Mach.cleanEnt
  extract_lets e m1
  have h1 : CluStays m m1 := h.writeLine
  exact .ite h1.setSeat h

theorem cleanLine (h : CluStays m x) : CluStays m (x.cleanLine q line) := by
  unfold Mach.cleanLine
  extract_lets m1
  have h1 : CluStays m m1 := h.settle
  split
  · exact h1.cleanEnt
  · exact h1.writeBackTo

theorem flushLine (h : CluStays m x) : CluStays m (x.flushLine q line) := by
  unfold Mach.flushLine
  extract_lets m1
  have h1 : CluStays m m1 := h.cleanLine
  split
  · exact h1.setSeat
  · exact h1

theorem cleanAll (h : CluStays m x) : CluStays m (x.cleanAll line) := by
  unfold Mach.cleanAll
  extract_lets m1
  have h1 : CluStays m m1 := by
    refine h.foldl fun y b hy => ?_
    split
    · exact .ite hy hy.writeLine.setSeat
    · exact hy
  exact .ite h1.toGroup h1

theorem removeAll (h : CluStays m x) : CluStays m (x.removeAll line) := by
  unfold Mach.removeAll
  extract_lets m1
  have h1 : CluStays m m1 := h.cleanAll.snoopLine
  exact h1.of_eq rfl rfl

theorem nsStore {a v} (h : CluStays m x) : CluStays m (x.nsStore q a v) := by
  unfold Mach.nsStore
  extract_lets line m1 s s0
  have h1 : CluStays m m1 := h.snoopLine
  refine .ite h.snoopLine.poison (.ite h1.setSeat ?_)
  split
  rename_i i m2 e
  have h2 : CluStays m m2 := by
    split at e
    · exact h1.setSeat.becomes (congrArg Prod.snd e)
    · exact h1.setSeat.fill.becomes (congrArg Prod.snd e)
  exact h2.setSeat

theorem keepOld {a} (h : CluStays m x) : CluStays m (x.keepOld q a) := .ite h h.setSeat

theorem drainOne {e} (h : CluStays m x) : CluStays m (Mach.drainOne q x e) := by
  unfold Mach.drainOne
  extract_lets line m0 m1
  have h0 : CluStays m m0 := h.keepOld
  have h1 : CluStays m m1 := .ite (.ite h0.snoopLine.poison h0.put) h.nsStore
  split
  · exact h1
  · exact h1.cleanLine
  · exact h1.flushLine
  · exact h1.cleanAll
  · exact h1.removeAll

theorem drain (h : CluStays m x) : CluStays m (x.drain q) := .ite h (h.setSeat.foldl fun _ _ h => h.drainOne)

theorem cleanUnit (h : CluStays m x) : CluStays m (x.cleanUnit q) := by
  unfold Mach.cleanUnit
  extract_lets s m1 m2
  have h1 : CluStays m m1 := h.foldl fun _ _ h => .ite h.writeLine h
  have h2 : CluStays m m2 := h1.foldl fun _ _ h => h.writeLine
  exact h2.setSeat

theorem putSrWords {ws a} (h : CluStays m x) : CluStays m (x.putSrWords a ws) := by
  induction ws generalizing x a with
  | nil => exact h
  | cons w ws ih => exact ih (.ite h h.put)

end CluStays

/-! ### Spills -/

/-- An act of a core whose success leaves the clusters' registers. -/
def Leaving {α : Type} (f : CoreAct α) : Prop := ∀ {m : Mach} {r : α} {n : Mach}, f m = .ok (r, n) → CluStays m n

namespace Leaving

variable {α β : Type}

theorem pure {r : α} : Leaving (Pure.pure r : CoreAct α) := fun {m _ _} h => by
  cases h
  exact .refl m

theorem bind {f : CoreAct α} {g : α → CoreAct β} (hf : Leaving f) (hg : ∀ r, Leaving (g r)) : Leaving (f >>= g) := fun {m r n} h => by
  cases e : f m with
  | error x =>
    rw [coreBind_error e] at h
    cases h
  | ok y =>
    rw [coreBind_ok _ _ _ _ _ e] at h
    exact (hf e).trans (hg _ h)

theorem modMach {f : Mach → Mach} (hf : ∀ m, CluStays m (f m)) : Leaving (Machine.modMach f) := fun {m _ _} h => by
  cases h
  exact hf m

theorem getArch {q} : Leaving (Machine.getArch q) := fun {m _ _} h => by
  cases h
  exact .refl m

theorem setArch {q a} : Leaving (Machine.setArch q a) := modMach fun m => (CluStays.refl m).setSeat

theorem asSpill {f : CoreAct α} (hf : Leaving f) : Leaving (Machine.asSpill f) := fun {m r n} h => by
  unfold Machine.asSpill at h
  cases e : f m with
  | error x =>
    rw [e] at h
    cases h
  | ok y =>
    rw [e] at h
    cases h
    exact hf e

theorem pageEntry {q sr root vp} : Leaving (Machine.pageEntry q sr root vp) := fun {m r n} h => by
  unfold Machine.pageEntry at h
  extract_lets s held rest put at h
  have start := CluStays.refl m
  split at h
  · cases h
    exact start.setSeat
  · cases h
  · split at h
    · cases h
      exact start
    · split at h
      rename_i m1 e
      have h1 : CluStays m m1 := (start.of_eq (n := m.draw.2) rfl rfl).becomes (congrArg Prod.snd e)
      split at h
      · cases h
        exact h1
      · split at h
        · cases h
          exact h1.setSeat
        · cases h

theorem xlate {q wld a k} : Leaving (Machine.xlate q wld a k) := fun {m r n} h => by
  unfold Machine.xlate at h
  extract_lets sr root va vp at h
  split at h
  · split at h
    · cases h
    · split at h
      · cases h
      · cases h
        exact .refl m
  · split at h
    · cases h
    next e m1 found =>
      extract_lets p at h
      have h1 : CluStays m m1 := pageEntry found
      split at h
      · cases h
      · split at h
        · cases h
        · split at h
          · cases h
          · cases h
            exact h1

theorem checkCont {q wld a k p c} : Leaving (Machine.checkCont q wld a k p c) := fun {m r n} h => by
  unfold Machine.checkCont at h
  extract_lets vp at h
  split at h
  · cases h
  · split at h
    · cases h
    · split at h
      · cases h
      · cases h
        exact .refl m

theorem storeAt {q wld a k v} : Leaving (Machine.storeAt q wld a k v) := by
  unfold Machine.storeAt Machine.storeOk Machine.storePut
  refine bind (bind xlate fun r => bind (modMach fun m => (CluStays.refl m).lineSeen) fun _ =>
    bind (fun {m _ _} h => by cases h; exact .refl m) fun c => bind checkCont fun _ => pure) fun r => ?_
  refine modMach fun m => ?_
  extract_lets m1
  have h1 : CluStays m m1 := .ite (.refl m) (CluStays.refl m).nsAccess
  exact h1.setSeat

theorem spillList {q wld p l} : Leaving (Machine.spillList q wld p l) := by
  induction l generalizing p with
  | nil => exact pure
  | cons w l ih =>
    unfold Machine.spillList
    exact bind ih fun _ => asSpill storeAt

theorem spillStk {q rs} : Leaving (Machine.spillStk q rs) := by
  unfold Machine.spillStk
  exact bind getArch fun a => bind spillList fun _ => bind getArch fun b => setArch

end Leaving

theorem CluStays.spillUnit {m x : Mach} {q : Nat} (h : CluStays m x) : CluStays m (x.spillUnit q) := by
  unfold Mach.spillUnit
  split
  next r m1 done => exact (h.trans (Leaving.bind Leaving.spillStk (fun _ => Leaving.spillStk) done)).drain
  · exact h

end Sys2Proof.Machine
end

section
/-! PROOFS. Seats parked, units tested and rotated, seats reset (R310 to R316). -/

namespace Sys2Proof.Machine

open Sys2Proof

variable {m : Mach} {q : Nat}

/-! ### Parking (R310, R313) -/

theorem cluSeat_ne_cluUnit {c k u : Nat} (small : k < 16) : Reg.cluSeat c k ≠ Reg.cluUnit c u := by
  unfold Reg.cluSeat Reg.cluUnit
  omega

theorem seatState_congr {m n : Mach} (h : ∀ a, 0x2C0000 ≤ a → a < 0x2D0000 → n.reg a = m.reg a) (small : q < 64) :
    n.seatState q = m.seatState q :=
  fld_congr (h _ (by unfold Reg.cluSeat; omega) (by unfold Reg.cluSeat cluOf; omega)) _

theorem unitOf_congr {m n : Mach} (h : ∀ a, 0x2C0000 ≤ a → a < 0x2D0000 → n.reg a = m.reg a) (small : q < 64) :
    n.unitOf q = m.unitOf q :=
  fld_congr (h _ (by unfold Reg.cluSeat; omega) (by unfold Reg.cluSeat cluOf; omega)) _

theorem seatState_setReg_of_ne {a : Nat} (v : Word) (other : a ≠ Reg.cluSeat (cluOf q) (q % 16)) :
    (m.setReg a v).seatState q = m.seatState q := fld_congr (reg_setReg_of_ne m v other) _

theorem seatState_setSeatState (m : Mach) {v : Nat} (fits : v < 8) (p : Nat) (small : p < 64) (small' : q < 64) :
    (m.setSeatState q v).seatState p = if p = q then v else m.seatState p := by
  unfold Mach.setSeatState
  split
  next same =>
    subst same
    rw [Mach.seatState, fld_setFld_same _ _ (by decide)]
    exact Nat.mod_eq_of_lt fits
  next other => exact seatState_setReg_of_ne _ (by unfold Reg.cluSeat cluOf; omega)

theorem cluLastev_ne (c c' k : Nat) : Reg.cluLastev c ≠ Reg.cluSeat c' k := by
  unfold Reg.cluLastev Reg.cluSeat
  omega

theorem seatState_cluEvent (m : Mach) (c e s x y r : Nat) (small : q < 64) :
    (m.cluEvent c e s x y r).seatState q = m.seatState q :=
  (seatState_congr (CluStays.raise (.refl _)) small).trans (seatState_setReg_of_ne _ (cluLastev_ne _ _ _))

/-- A parked seat; the others of its cluster stand. -/
theorem seatState_parkSeat (m : Mach) (cause : Nat) (valid noSpare : Bool) (small : q < 64) (p : Nat) (near : p / 16 = q / 16) :
    (m.parkSeat q cause valid noSpare).seatState p = if p = q then 4 else m.seatState p := by
  have small' : p < 64 := by omega
  have c : cluOf p = cluOf q := near
  have apart : ∀ u, Reg.cluUnit (cluOf q) u ≠ Reg.cluSeat (cluOf p) (p % 16) := fun u => by
    rw [c]
    exact (cluSeat_ne_cluUnit (by omega)).symm
  unfold Mach.parkSeat
  extract_lets c u r locks m1 a m2 s0 m3 m3' m4
  have h1 : CluStays m m1 := ((CluStays.refl m).setSeat (q := q)).spillUnit.cleanUnit
  have h3 : CluStays m m3 := h1.putSrWords.setSeat
  have s3 : m3'.seatState p = m.seatState p := by
    unfold m3'
    split
    · exact (seatState_setReg_of_ne _ (apart _)).trans (seatState_congr h3 small')
    · exact seatState_congr h3 small'
  have s4 : m4.seatState p = if p = q then 4 else m.seatState p := by
    refine (seatState_setReg_of_ne _ (apart _)).trans ?_
    rw [seatState_setSeatState _ (by decide) _ small' small, s3]
  have rest : CluStays (m4.cluEvent c cause (q % 16) u 0 r)
      (((m4.cluEvent c cause (q % 16) u 0 r).notice a.ten 8 (w48 q)).faultEvent 2) :=
    (CluStays.refl _).signals (L := []) (.faultEvent (.notice (.refl _ _)))
  rw [seatState_congr rest small', seatState_cluEvent _ _ _ _ _ _ _ small', s4]

theorem seatState_parks (l : List Nat) (c : Nat) (range : c < 4) (near : ∀ q ∈ l, q / 16 = c) (m : Mach) (p : Nat) (there : p / 16 = c) :
    (l.foldl (fun x q => x.parkSeat q 9 false false) m).seatState p = if p ∈ l then 4 else m.seatState p := by
  induction l generalizing m with
  | nil => simp
  | cons q l ih =>
    obtain ⟨first, rest⟩ := List.forall_mem_cons.mp near
    rw [List.foldl_cons, ih rest, seatState_parkSeat m 9 false false (by omega) p (by omega)]
    by_cases later : p ∈ l
    · rw [if_pos later, if_pos (List.mem_cons_of_mem _ later)]
    · rw [if_neg later]
      exact if_congr (by simp [later]) rfl rfl

theorem clusterFault_parks {c k : Nat} (up : m.up = true) (range : c < 4) (small : k < 16) (used : m.seatState (16 * c + k) ≠ 0) :
    (m.clusterFault c).seatState (16 * c + k) = 4 := by
  have e : m.clusterFault c = (m.usedSeats c).foldl (fun x q => x.parkSeat q 9 false false) m := if_pos up
  have near : ∀ q ∈ m.usedSeats c, q / 16 = c := fun q listed => by
    obtain ⟨i, range', rfl⟩ := List.mem_map.mp (List.mem_filter.mp listed).1
    have := List.mem_range.mp range'
    omega
  rw [e, seatState_parks _ c range near m _ (by omega)]
  by_cases parked : m.seatState (16 * c + k) = 4
  · rw [parked, ite_self]
  · refine if_pos (List.mem_filter.mpr ⟨List.mem_map.mpr ⟨k, List.mem_range.mpr small, rfl⟩, ?_⟩)
    simp [used, parked]

/-! ### Tests of units (R311, R315) -/

theorem fld_setUnitState (m : Mach) (c u st seat : Nat) :
    (m.setUnitState c u st seat).fld (Reg.cluUnit c u) F.cluUnitState = st % 8 := by
  rw [Mach.setUnitState, fld_setReg_self, fget_fset_apart _ _ (by decide) (by decide), fget_fset_same _ _ (by decide)]
  rfl

theorem reg_cluEvent_of_ne (m : Mach) (c e s x y r : Nat) {a : Nat} (low : 0x2C0000 ≤ a) (high : a < 0x2D0000) (other : a ≠ Reg.cluLastev c) :
    (m.cluEvent c e s x y r).reg a = m.reg a :=
  (CluStays.raise (.refl _) a low high).trans (reg_setReg_of_ne _ _ other.symm)

theorem bistDone_leaves {c u : Nat} (range : c < 4) (small : u < 20) (up : m.up = true)
    (bist : m.fld (Reg.cluUnit c u) F.cluUnitState = 2) (pass : Bool) :
    (m.bistDone c u pass).fld (Reg.cluUnit c u) F.cluUnitState = if pass && m.fld (Reg.cluUnit c u) F.cluUnitFaults < 2 then 1 else 3 := by
  let a := Reg.cluUnit c u
  let ok := pass && decide (m.fld a F.cluUnitFaults < 2)
  have low : 0x2C0000 ≤ a := by unfold a Reg.cluUnit; omega
  have high : a < 0x2D0000 := by unfold a Reg.cluUnit; omega
  have lastev : a ≠ Reg.cluLastev c := by unfold a Reg.cluUnit Reg.cluLastev; omega
  have bistres : Reg.cluBistres c ≠ a := by unfold a Reg.cluUnit Reg.cluBistres; omega
  unfold Mach.bistDone
  rw [if_neg (by simp [up, bist])]
  extract_lets ok' unit0 m0 k unit1 m1 m2 x m3
  have h1 : m1.fld a F.cluUnitState = if ok then 1 else 3 := by
    refine Eq.trans (b := (m.setUnitState c u (if ok then 1 else 3) 0).fld a F.cluUnitState) rfl ?_
    rw [fld_setUnitState]
    split
    · rfl
    · rfl
  have h2 : m2.fld a F.cluUnitState = m1.fld a F.cluUnitState := by
    unfold m2
    split
    · rfl
    · rw [Mach.fld, reg_cluEvent_of_ne _ _ _ _ _ _ _ low high lastev, ← Mach.fld]
      exact fld_setFld_apart _ _ (by decide) (by decide)
  have h3 : m3.fld a F.cluUnitState = m2.fld a F.cluUnitState := by
    unfold m3
    split
    · split
      · exact fld_setFld_of_ne _ _ bistres
      · rfl
    · rfl
  exact Eq.trans (b := m3.fld a F.cluUnitState) rfl (h3.trans (h2.trans h1))

theorem bistUnit_starts {w : Who} {c k : Nat} {v : Word} (house : w.house = true) (named : fget v F.cluBistreqUnit = k)
    (calm : tmem m.rotations c = false) (range : k < m.unitCount c) (spare : m.fld (Reg.cluUnit c k) F.cluUnitState = 1) :
    let n := m.bistReqSet w c (fset v F.cluBistreqOp 2)
    n.fld (Reg.cluUnit c k) F.cluUnitState = 2 ∧ n.fld (Reg.cluBistres c) F.cluBistresStatus = 1 ∧
      n.fld (Reg.cluBistres c) F.cluBistresUnit = k := by
  intro n
  have unit : fget (fset v F.cluBistreqOp 2) F.cluBistreqUnit = k := (fget_fset_apart _ _ (by decide) (by decide)).trans named
  have op : fget (fset v F.cluBistreqOp 2) F.cluBistreqOp = 2 := (fget_fset_same _ _ (by decide)).trans rfl
  have apart : Reg.cluUnit c k ≠ Reg.cluBistres c := by unfold Reg.cluUnit Reg.cluBistres; omega
  have small : k < 32 := named ▸ fget_lt v F.cluBistreqUnit
  let x := (m.bistResult c 1 k).setUnitState c k 2 0
  have e : n = { x with rotations := tabInsert c k x.rotations } := by
    unfold n Mach.bistReqSet
    rw [unit, op, house]
    simp only [Bool.not_true, Bool.false_eq_true, reduceIte]
    rw [if_neg (by decide), calm, if_neg (by decide), if_neg (by simp [spare]; omega)]
  rw [e]
  refine ⟨fld_setUnitState _ _ _ _ _, ?_, ?_⟩
  · refine (fld_congr (reg_setReg_of_ne _ _ apart) _).trans ?_
    rw [Mach.bistResult, fld_setReg_self, fget_fset_apart _ _ (by decide) (by decide), fget_fset_same _ _ (by decide)]
    rfl
  · refine (fld_congr (reg_setReg_of_ne _ _ apart) _).trans ?_
    rw [Mach.bistResult, fld_setReg_self, fget_fset_same _ _ (by decide)]
    exact Nat.mod_eq_of_lt small

/-! ### Rotations (R314) -/

/-- A rotation that waits for its seat's checkpoint. -/
theorem rotateSeat_waits {u : Nat} (inside : (m.seat q).group ≠ 0) :
    ((m.rotateSeat q u).seat q).rotTo = some u ∧ tfind (m.rotateSeat q u).rotations (cluOf q) = some (m.unitOf q) ∧
      (m.rotateSeat q u).regs = m.regs ∧ (m.rotateSeat q u).ledger = m.ledger := by
  let m1 : Mach := { m with rotations := tabInsert (cluOf q) (m.unitOf q) m.rotations }
  have e : m.rotateSeat q u = m1.setSeat q { m.seat q with rotTo := some u } := by
    have here : (m1.setSeat q { m.seat q with rotTo := some u }).seat q = { m.seat q with rotTo := some u } := by
      rw [Mach.seat_setSeat, if_pos rfl]
    unfold Mach.rotateSeat
    refine if_neg ?_
    change ¬ ((decide (((m1.setSeat q { m.seat q with rotTo := some u }).seat q).group = 0) &&
      decide (((m1.setSeat q { m.seat q with rotTo := some u }).seat q).retries = 0)) = true)
    rw [here]
    simp [inside]
  rw [e]
  exact ⟨by rw [Mach.seat_setSeat, if_pos rfl], (tfind_insert _ _ _ _).trans (if_pos rfl), rfl, rfl⟩

theorem bistSeat_starts {w : Who} {c u : Nat} {v : Word} (range : c < 4) (house : w.house = true) (calm : tmem m.rotations c = false)
    (exists_ : fget v F.cluBistreqUnit < m.seatCount c) (runs : m.seatState (16 * c + fget v F.cluBistreqUnit) = 1)
    (spare : m.spareUnit c = some u) (inside : (m.seat (16 * c + fget v F.cluBistreqUnit)).group ≠ 0) :
    let q := 16 * c + fget v F.cluBistreqUnit
    let n := m.bistReqSet w c (fset v F.cluBistreqOp 1)
    (n.seat q).rotTo = some u ∧ n.fld (Reg.cluBistres c) F.cluBistresStatus = 1 ∧
      n.fld (Reg.cluBistres c) F.cluBistresUnit = m.unitOf q % 32 ∧ tfind n.rotations c = some (m.unitOf q) := by
  intro q n
  have unit : fget (fset v F.cluBistreqOp 1) F.cluBistreqUnit = fget v F.cluBistreqUnit := fget_fset_apart _ _ (by decide) (by decide)
  have op : fget (fset v F.cluBistreqOp 1) F.cluBistreqOp = 1 := (fget_fset_same _ _ (by decide)).trans rfl
  have count : m.seatCount c ≤ 16 := by
    unfold Mach.seatCount
    split
    · decide
    · decide
  have small : fget v F.cluBistreqUnit < 16 := by omega
  have cluster : cluOf q = c := by unfold q cluOf; omega
  have place : q % 16 = fget v F.cluBistreqUnit := by unfold q; omega
  have there : m.seatExists q = true := by
    unfold Mach.seatExists
    rw [place, cluster]
    simp [exists_, range]
  let x := m.bistResult c 1 (m.unitOf q)
  have e : n = x.rotateSeat q u := by
    unfold n Mach.bistReqSet
    rw [unit, op, house]
    simp only [Bool.not_true, Bool.false_eq_true, reduceIte, calm, Nat.mod_eq_of_lt small]
    rw [if_neg (by rw [show m.seatExists (16 * c + fget v F.cluBistreqUnit) = true from there, runs]; simp; omega),
      if_neg (by simp [runs]), spare]
  have seat : x.seat q = m.seat q := Mach.seat_setReg _ _ _ _
  have under : x.unitOf q = m.unitOf q :=
    fld_congr (reg_setReg_of_ne _ _ (by rw [cluster]; unfold Reg.cluBistres Reg.cluSeat; omega)) _
  obtain ⟨rot, rots, regs, ledger⟩ := rotateSeat_waits (m := x) (q := q) (u := u) (by rw [seat]; exact inside)
  rw [under, cluster] at rots
  have bistres : n.reg (Reg.cluBistres c) = fset (fset 0 F.cluBistresStatus 1) F.cluBistresUnit (m.unitOf q) := by
    rw [e, Mach.reg, regs, ledger, ← Mach.reg]
    exact reg_setReg_self _ _
  rw [Mach.fld, Mach.fld, bistres, e]
  refine ⟨rot, ?_, ?_, rots⟩
  · rw [fget_fset_apart _ _ (by decide) (by decide), fget_fset_same _ _ (by decide)]
    rfl
  · exact fget_fset_same _ _ (by decide)

/-- A walk that keeps what it has or takes the next ends with one of those it met. -/
theorem foldl_choice {P : Nat → Prop} {g : Option Nat → Nat → Option Nat} (takes : ∀ b p, g b p = some p ∨ g b p = b) {l : List Nat}
    (hl : ∀ p ∈ l, P p) {b : Option Nat} (hb : ∀ p, b = some p → P p) {r : Nat} (e : l.foldl g b = some r) : P r := by
  induction l generalizing b with
  | nil => exact hb r e
  | cons p l ih =>
    obtain ⟨first, rest⟩ := List.forall_mem_cons.mp hl
    refine ih rest (fun p' e' => ?_) e
    rcases takes b p with new | old
    · exact Option.some.inj (new.symm.trans e') ▸ first
    · exact hb p' (old ▸ e')

theorem oldestSeat_near {c : Nat} (named : m.oldestSeat c = some q) : q / 16 = c := by
  have near : ∀ p ∈ ((List.range 16).map (16 * c + ·)).filter fun q => decide (m.seatState q = 1), p / 16 = c := fun p listed => by
    obtain ⟨i, range, rfl⟩ := List.mem_map.mp (List.mem_filter.mp listed).1
    have := List.mem_range.mp range
    omega
  refine foldl_choice (P := fun p => p / 16 = c) (fun b p => ?_) near (fun _ h => absurd h (by simp)) named
  split
  · exact .inl rfl
  · split
    · exact .inl rfl
    · exact .inr rfl

theorem rotation_starts {c u : Nat} (up : m.up = true) (on : m.bit (Reg.cluCtl c) F.cluCtlRoten = true) (due : m.rotationDue c = true)
    (spares : 2 ≤ (m.unitsIn c 1).length) (calm : tmem m.rotations c = false) (oldest : m.oldestSeat c = some q)
    (spare : m.spareUnit c = some u) (inside : (m.seat q).group ≠ 0) :
    ((m.rotation c).seat q).rotTo = some u ∧ tfind (m.rotation c).rotations c = some (m.unitOf q) := by
  let x : Mach := { m with rotAt := tabPut (fun _ => 0) c m.now m.rotAt }
  have e : m.rotation c = x.rotateSeat q u := by
    unfold Mach.rotation
    rw [if_pos (by simp [up, on, due, spares, calm]), oldest, spare]
  obtain ⟨rot, rots, -⟩ := rotateSeat_waits (m := x) (q := q) (u := u) inside
  rw [e]
  exact ⟨rot, (oldestSeat_near oldest ▸ rots : _)⟩

/-! ### Seat resets (R316) -/

theorem seatResetSet_resets {w : Who} {v : Word} (sr : w.sr = true)
    (ready : (m.seatState q = 1 ∧ (m.seat q).retries = 0) ∨ m.seatState q = 2) : m.seatResetSet w q (v ||| 1) = m.resetSeat q := by
  have go : nbit (v ||| 1).toNat 0 = true := nbit_or_one v
  have house : w.house = true := by
    unfold Who.house
    rw [sr]
    rfl
  unfold Mach.seatResetSet
  rw [go, house, sr]
  rw [if_neg (by simp)]
  rcases ready with ⟨runs, calm⟩ | halted
  · rw [runs]
    exact if_neg (by simp [calm])
  · rw [halted]
    rfl

/-- Settles O14: a parked seat's state through the writes of its park record, and the monitor's entry on a seat reset. -/
theorem seatsAndUnits : Obligations.SeatsAndUnits := by
  refine ⟨fun s q c _ => ⟨fun live locked => ?_, fun live split_ => ?_, fun up => ?_⟩, fun s w c k pass v =>
    ⟨fun up bist => ?_, fun house named calm range spare => ?_, fun u house calm exists_ runs spare inside => ?_,
      fun q u up on due spares calm oldest spare inside => ?_⟩, fun s w q v sr ready rot => ?_⟩
  · have e : s.toMach.codeError q.val (.own true) = s.toMach.parkSeat q.val 4 false false := by
      unfold Mach.codeError Mach.ownError
      simp only [live, show s.toMach.locked (cluOf q.val) = true from locked, Bool.and_self, reduceIte]
    exact ⟨_, (lift_next e : execCoreCodeError q (.own true) s = _), (seatState_parkSeat _ _ _ _ q.isLt _ rfl).trans (if_pos rfl)⟩
  · have e : s.toMach.parityError q.val true = s.toMach.parkSeat q.val 8 false false := by
      unfold Mach.parityError
      simp only [live, show s.toMach.locked (cluOf q.val) = false from split_, Bool.not_true, Bool.or_self, Bool.false_eq_true, reduceIte]
    exact ⟨_, (lift_next e : execSplitParityError q true s = _), (seatState_parkSeat _ _ _ _ q.isLt _ rfl).trans (if_pos rfl)⟩
  · exact ⟨_, (lift_next rfl : execClusterFault c s = _), fun k used => clusterFault_parks up c.isLt k.isLt used⟩
  · exact ⟨_, (lift_next rfl : execBistComplete c k pass s = _), bistDone_leaves c.isLt k.isLt up bist pass⟩
  · exact ⟨_, (lift_next rfl : execBistUnit w c v s = _), bistUnit_starts house named calm range spare⟩
  · exact ⟨_, (lift_next rfl : execBistSeat w c v s = _), bistSeat_starts c.isLt house calm exists_ runs spare inside⟩
  · exact ⟨_, (lift_next rfl : execRotation c s = _), rotation_starts up on due spares calm oldest spare inside⟩
  · have e := seatResetSet_resets (v := v) sr ready
    obtain ⟨wld, pc, ds, rs, xpc, cause, xa⟩ := resetSeat_arch s.toMach q.val
    obtain ⟨ns, state⟩ := resetSeat_calm (q := q.val) rot
    generalize s.toMach.resetSeat q.val = n at e wld pc ds rs xpc cause xa ns state
    exact ⟨_, (lift_next e : execSeatReset w q v s = _), wld, pc, ds, rs, xpc, cause, xa, ns, state⟩

end Sys2Proof.Machine
end

section
/-! PROOFS. Retries and the move to a spare (R307 to R309, R312, R313). -/

namespace Sys2Proof.Machine

open Sys2Proof

variable {m : Mach} {q : Nat}

/-! ### Retries and the start of a move -/

theorem mismatch_retries {cause : Nat} (old : (m.seat q).fresh = false) (few : (m.seat q).retries < 3) :
    let n := m.mismatch q cause
    let y := n.seat q
    y.arch = (m.seat q).ckpt ∧ y.stores = [] ∧ y.group = 0 ∧ y.retries = (m.seat q).retries + 1 ∧ n.seatState q = m.seatState q := by
  intro n
  have e : n = (m.rollBack q).setSeat q { (m.rollBack q).seat q with retries := (m.seat q).retries + 1 } := by
    unfold n Mach.mismatch
    exact if_neg (by simp [old]; omega)
  have rolled : (m.rollBack q).seat q = { m.seat q with arch := (m.seat q).ckpt, stores := [], group := 0 } := by
    rw [Mach.rollBack, Mach.seat_setSeat, if_pos rfl]
  rw [e, Mach.seat_setSeat, if_pos rfl, rolled]
  exact ⟨rfl, rfl, rfl, rfl, rfl⟩

/-- A seat on the move to unit `u`, from its checkpoint. -/
structure Moves (q u cause : Nat) (m n : Mach) : Prop where
  arch : (n.seat q).arch = (m.seat q).ckpt
  stores : (n.seat q).stores = []
  moving : (n.seat q).moving = some u
  moveCause : (n.seat q).moveCause = cause
  moveRetries : (n.seat q).moveRetries = (m.seat q).retries
  state : n.seatState q = 3

theorem spareSeat_moves {u : Nat} (small : q < 64) (cause : Nat) (free : (m.seat q).rotTo = none) (spare : m.spareUnit (cluOf q) = some u) :
    Moves q u cause m (m.spareSeat q cause) := by
  let x := (m.rollBack q).setSeat q { (m.rollBack q).seat q with moveRetries := (m.seat q).retries, retries := 0 }
  have e : m.spareSeat q cause = x.beginMove q u cause := by
    unfold Mach.spareSeat
    rw [free]
    dsimp only
    rw [spare]
  have rolled : (m.rollBack q).seat q = { m.seat q with arch := (m.seat q).ckpt, stores := [], group := 0 } := by
    rw [Mach.rollBack, Mach.seat_setSeat, if_pos rfl]
  have seat : (x.beginMove q u cause).seat q = { x.seat q with moving := some u, moveCause := cause, rotTo := none } := by
    unfold Mach.beginMove
    rw [Mach.seat_setSeat, if_pos rfl]
  have here : x.seat q = { m.seat q with
      arch := (m.seat q).ckpt, stores := [], group := 0, moveRetries := (m.seat q).retries, retries := 0 } := by
    unfold x
    rw [Mach.seat_setSeat, if_pos rfl, rolled]
  rw [here] at seat
  rw [e]
  refine ⟨by rw [seat], by rw [seat], by rw [seat], by rw [seat], by rw [seat], ?_⟩
  unfold Mach.beginMove
  extract_lets c mk old
  refine (seatState_congr (fun a _ _ => Mach.reg_setSeat _ _ _ a) small).trans ?_
  rw [seatState_setSeatState _ (by decide) _ small small, if_pos rfl]

/-! ### Errors in a near store (R326) -/

theorem seats_memAlarm (m : Mach) (f : Fld) (b : Bool) : (m.memAlarm f b).seats = m.seats := by
  have h : Signals [Reg.memAlarm] m (m.memAlarm f b) := .alarmReg (.refl _ m) (by simp)
  obtain ⟨_, _, _, _, _, _, _, _, _, _, e⟩ := h.rest
  rw [e]

theorem seats_poison (m : Mach) (a : Nat) : (m.poison a).seats = m.seats := by
  unfold Mach.poison
  extract_lets m1 m2
  have h1 : m1.seats = m.seats := by simp [m1, Mach.count, Mach.setCont]
  have h2 : m2.seats = m1.seats := by
    unfold m2
    split
    · exact (seats_raise _ _).1
    · exact seats_memAlarm _ _ _
  have lost : m2.moduleLost.seats = m2.seats := by
    obtain ⟨x, tw, se, cl, hx, e⟩ := (Turns.moduleLost (.refl m2)).rest
    obtain ⟨_, _, _, _, _, _, _, _, _, _, rfl⟩ := hx.rest
    rw [e]
  split
  · exact (seats_memAlarm _ _ _).trans (lost.trans (h2.trans h1))
  · exact h2.trans h1

theorem nearError_leaves {i c : Nat} (valid : ((m.seat q).ent i).valid = true) :
    let e := (m.seat q).ent i
    let n := m.nearError q i c
    if e.words = [] then (n.seat q).ent i = { e with filling := true }
    else ((n.seat q).ent i).words = [] ∧ n.cont (64 * e.line + c) = poisonCont := by
  intro e n
  by_cases clean : e.words = []
  · rw [if_pos clean]
    have eq : n = m.setSeat q ((m.seat q).setEnt i { e with filling := true }) := by
      unfold n Mach.nearError
      exact (if_neg (by simp [valid])).trans (if_pos (List.isEmpty_iff.mpr clean))
    rw [eq, Mach.seat_setSeat, if_pos rfl, Seat.ent_setEnt]
  · rw [if_neg clean]
    have eq : n = (m.cleanEnt q i).poison (64 * e.line + c) := by
      unfold n Mach.nearError
      exact (if_neg (by simp [valid])).trans (if_neg (by simpa using clean))
    have seat : n.seat q = (m.seat q).setEnt i { e with words := [] } := by
      rw [eq, Mach.seat, seats_poison, ← Mach.seat, cleanEnt_eq m q i valid clean, Mach.seat_setSeat, if_pos rfl]
    rw [seat, Seat.ent_setEnt]
    exact ⟨rfl, by rw [eq, cont_poison, if_pos rfl]⟩

/-! ### The end of a move (R308, R311) -/

theorem arch_spillUnit (ds : (m.arch q).ds = []) (rs : (m.arch q).rs = []) (stores : (m.seat q).stores = []) :
    (m.spillUnit q).arch q = m.arch q := by
  have same : ∀ x : Mach, (x.setArch q (x.arch q)).seat q = x.seat q := fun x => by
    rw [Mach.setArch, Mach.seat_setSeat, if_pos rfl]
    rfl
  let x := m.setArch q (m.arch q)
  have archX : x.arch q = m.arch q := congrArg Seat.arch (same m)
  have done : (do spillStk q false; spillStk q true : CoreAct Unit) m = .ok ((), x.setArch q (x.arch q)) :=
    (coreBind_ok _ _ _ _ _ (spillStk_nil q false m ds)).trans (spillStk_nil q true x (by rw [archX]; exact rs))
  have seat : (x.setArch q (x.arch q)).seat q = m.seat q := (same x).trans (same m)
  unfold Mach.spillUnit
  rw [done]
  dsimp only
  rw [drain_nil _ _ (by rw [seat]; exact stores)]
  exact congrArg Seat.arch seat

theorem arch_cleanUnit (m : Mach) (q : Nat) : (m.cleanUnit q).arch q = m.arch q := by
  have writes : ∀ {β : Type} (l : List β) (f : Mach → β → Mach) (x : Mach), (∀ y b, (f y b).seat q = y.seat q) →
      (l.foldl f x).seat q = x.seat q := fun l f x step => by
    induction l generalizing x with
    | nil => rfl
    | cons b l ih => exact (ih _).trans (step x b)
  unfold Mach.cleanUnit
  extract_lets s m1 m2 t
  rw [Mach.arch, Mach.seat_setSeat, if_pos rfl]
  have h1 : m1.seat q = m.seat q := writes _ _ m fun y b => by
    split
    · exact seat_writeLine _ _ _ _
    · rfl
  have h2 : m2.seat q = m1.seat q := writes _ _ m1 fun y b => seat_writeLine _ _ _ _
  change t.arch = _
  exact congrArg Seat.arch (show t = m.seat q from h2.trans h1)

theorem fpDue_none (h : (m.arch q).fp = none) (now : Bool) : m.fpDue q now = m := by
  unfold Mach.fpDue
  extract_lets a
  rw [show a.fp = none from h]

/-- The registers of units and seats at the end of a move of seat `k` of a cluster, which it counts. -/
def Mach.movedTo (m : Mach) (c k old u cause : Nat) (fault : Bool) : Mach :=
  (((((m.freeUnit c old cause fault).setUnitState c u 0 k).setFld (Reg.cluSeat c k) F.cluSeatUnit u).setFld
    (Reg.cluSeat c k) F.cluSeatState 1)).count (Reg.cluSparings c)

/-- The registers at the end of a move of seat `q` from unit `old` to unit `u`. -/
structure Moved (c k old u cause : Nat) (m n : Mach) : Prop where
  seat : n.fld (Reg.cluSeat c k) F.cluSeatUnit = u ∧ n.fld (Reg.cluSeat c k) F.cluSeatState = 1
  new : n.fld (Reg.cluUnit c u) F.cluUnitState = 0
  freed : n.fld (Reg.cluUnit c old) F.cluUnitState = 2
  sparings : n.reg (Reg.cluSparings c) = w48 ((m.reg (Reg.cluSparings c)).toNat + 1)

theorem moved_regs {c k old u cause : Nat} (m : Mach) (fault : Bool) (small : k < 16) (fits : u < 20) (other : u ≠ old) :
    Moved c k old u cause m (m.movedTo c k old u cause fault) := by
  unfold Mach.movedTo
  have sparings : ∀ j, Reg.cluSparings c ≠ Reg.cluSeat c j := fun j => by unfold Reg.cluSparings Reg.cluSeat; omega
  have sparingsU : ∀ v, Reg.cluSparings c ≠ Reg.cluUnit c v := fun v => by unfold Reg.cluSparings Reg.cluUnit; omega
  have units : Reg.cluUnit c u ≠ Reg.cluUnit c old := by unfold Reg.cluUnit; omega
  refine ⟨⟨?_, ?_⟩, ?_, ?_, ?_⟩
  · rw [fld_count_of_ne _ _ (sparings k), fld_setFld_apart _ _ (by decide) (by decide), fld_setFld_same _ _ (by decide)]
    exact Nat.mod_eq_of_lt (Nat.lt_of_lt_of_le fits (by decide))
  · rw [fld_count_of_ne _ _ (sparings k), fld_setFld_same _ _ (by decide)]
    rfl
  · rw [fld_count_of_ne _ _ (sparingsU u), fld_setFld_of_ne _ _ (cluSeat_ne_cluUnit small), fld_setFld_of_ne _ _ (cluSeat_ne_cluUnit small),
      fld_setUnitState]
  · rw [fld_count_of_ne _ _ (sparingsU old), fld_setFld_of_ne _ _ (cluSeat_ne_cluUnit small),
      fld_setFld_of_ne _ _ (cluSeat_ne_cluUnit small), Mach.setUnitState, fld_congr (reg_setReg_of_ne _ _ units), Mach.freeUnit]
    rw [fld_setReg_self, fget_fset_apart _ _ (by decide) (by decide), fget_fset_apart _ _ (by decide) (by decide),
      fget_fset_apart _ _ (by decide) (by decide), fget_fset_same _ _ (by decide)]
    rfl
  · rw [reg_count_self, reg_setFld_of_ne _ _ (sparings k).symm, reg_setFld_of_ne _ _ (sparings k).symm, Mach.setUnitState,
      reg_setReg_of_ne _ _ (sparingsU u).symm, Mach.freeUnit, reg_setReg_of_ne _ _ (sparingsU old).symm]

/-- A seat as it starts on the unit it moved to. -/
def Seat.arrived (s : Seat) : Seat :=
  { s.clearPrediction with
    ckpt := s.arch, group := 0, stores := [], acc := [], istOld := [], word := none, tlb := [], l1i := [], moving := none
    fresh := true, moveRetries := 0, noSpare := false, resetReq := false }

theorem Seat.moving_arrived (s : Seat) : s.arrived.moving = none :=
  rfl

theorem Seat.arch_arrived (s : Seat) : s.arrived.arch = s.arch :=
  rfl

theorem finishMove_eq {u : Nat} {m1 : Mach} (moving : (m.seat q).moving = some u) (calm : (m.seat q).resetReq = false)
    (clean : (m.spillUnit q).cleanUnit q = m1) :
    m.finishMove q = ((((m1.setSeat q (relock (m1.seat q) (m.seat q).lockList).arrived).movedTo (cluOf q) (q % 16) (m.unitOf q) u
      (m.seat q).moveCause ((m.seat q).moveCause ≠ 5)).cluEvent (cluOf q) (m.seat q).moveCause (q % 16) (m.unitOf q) u
        (m.seat q).moveRetries).faultEvent 2).refreshHealth.fpDue q true := by
  simp only [Mach.finishMove, clean, moving, calm, Bool.false_eq_true, if_false, Mach.movedTo, Mach.setSeatState, Seat.arrived]

theorem arch_relock (s : Seat) (l : List (Nat × Nat × Bool)) : (relock s l).arch = s.arch :=
  rfl

theorem finishMove_form {u : Nat} (moving : (m.seat q).moving = some u) (calm : (m.seat q).resetReq = false) :
    ∃ s : Seat, m.finishMove q = (((((((m.spillUnit q).cleanUnit q).setSeat q s).movedTo (cluOf q) (q % 16) (m.unitOf q) u
      (m.seat q).moveCause ((m.seat q).moveCause ≠ 5)).cluEvent (cluOf q) (m.seat q).moveCause (q % 16) (m.unitOf q) u
        (m.seat q).moveRetries).faultEvent 2).refreshHealth).fpDue q true ∧
      s.moving = none ∧ s.arch = ((m.spillUnit q).cleanUnit q).arch q :=
  ⟨_, finishMove_eq moving calm rfl, Seat.moving_arrived _, (Seat.arch_arrived _).trans (arch_relock _ _)⟩

theorem finishMove_ends {u : Nat} (small : q < 64) (moving : (m.seat q).moving = some u) (calm : (m.seat q).resetReq = false)
    (fp : (m.arch q).fp = none) (fits : u < 20) (other : u ≠ m.unitOf q) (ds : (m.arch q).ds = []) (rs : (m.arch q).rs = [])
    (stores : (m.seat q).stores = []) :
    let n := m.finishMove q
    n.unitOf q = u ∧ n.seatState q = 1 ∧ (n.seat q).moving = none ∧ n.fld (Reg.cluUnit (q / 16) u) F.cluUnitState = 0 ∧
      n.fld (Reg.cluUnit (q / 16) (m.unitOf q)) F.cluUnitState = 2 ∧
      n.reg (Reg.cluSparings (q / 16)) = w48 ((m.reg (Reg.cluSparings (q / 16))).toNat + 1) := by
  intro n
  let m1 := (m.spillUnit q).cleanUnit q
  have stays : CluStays m m1 := (CluStays.refl m).spillUnit.cleanUnit
  have arch : m1.arch q = m.arch q := (arch_cleanUnit _ _).trans (arch_spillUnit ds rs stores)
  obtain ⟨s, e, movingS, archS⟩ := finishMove_form moving calm
  replace archS : s.arch = m.arch q := archS.trans arch
  obtain ⟨⟨unit, state⟩, new, freed, sparings⟩ := moved_regs (cause := (m.seat q).moveCause) (k := q % 16) (c := cluOf q)
    (m1.setSeat q s) ((m.seat q).moveCause ≠ 5) (by omega) fits other
  have seatX : ((m1.setSeat q s).movedTo (cluOf q) (q % 16) (m.unitOf q) u (m.seat q).moveCause ((m.seat q).moveCause ≠ 5)).seat q = s := by
    simp only [Mach.movedTo, Mach.count, Mach.setFld, Mach.setUnitState, Mach.freeUnit, Mach.seat_setReg, Mach.seat_setSeat, if_true]
  generalize (m1.setSeat q s).movedTo (cluOf q) (q % 16) (m.unitOf q) u (m.seat q).moveCause
    ((m.seat q).moveCause ≠ 5) = x at e unit state new freed sparings seatX
  let y := x.cluEvent (cluOf q) (m.seat q).moveCause (q % 16) (m.unitOf q) u (m.seat q).moveRetries
  have same : Signals [] y (y.faultEvent 2) := .faultEvent (.refl _ _)
  have seatZ : ((y.faultEvent 2).refreshHealth).seat q = s := by
    obtain ⟨_, _, _, _, _, _, _, _, _, _, e'⟩ := same.rest
    rw [e']
    exact (seat_cluEvent _ _ _ _ _ _ _ _).trans seatX
  have ends : n = (y.faultEvent 2).refreshHealth := e.trans (fpDue_none (by rw [Mach.arch, seatZ, archS]; exact fp) true)
  have reg : ∀ a, 0x2C0000 ≤ a → a < 0x2D0000 → a ≠ Reg.cluLastev (cluOf q) → n.reg a = x.reg a := fun a low high apart => by
    rw [ends]
    exact (same.reg a (by omega) (by simp)).trans (reg_cluEvent_of_ne _ _ _ _ _ _ _ low high apart)
  have old : m.unitOf q < 32 := fget_lt _ F.cluSeatUnit
  have seatReg : n.reg (Reg.cluSeat (cluOf q) (q % 16)) = x.reg (Reg.cluSeat (cluOf q) (q % 16)) :=
    reg _ (by unfold Reg.cluSeat; omega) (by unfold Reg.cluSeat cluOf; omega) (cluLastev_ne _ _ _).symm
  have unitReg : ∀ v, v < 32 → n.reg (Reg.cluUnit (cluOf q) v) = x.reg (Reg.cluUnit (cluOf q) v) := fun v range =>
    reg _ (by unfold Reg.cluUnit; omega) (by unfold Reg.cluUnit cluOf; omega) (by unfold Reg.cluUnit Reg.cluLastev; omega)
  refine ⟨(fld_congr seatReg _).trans unit, (fld_congr seatReg _).trans state, ?_, (fld_congr (unitReg u (by omega)) _).trans new,
    (fld_congr (unitReg _ old) _).trans freed, ?_⟩
  · rw [ends, seatZ, movingS]
  · refine (reg _ (by unfold Reg.cluSparings; omega) (by unfold Reg.cluSparings; omega)
      (by unfold Reg.cluSparings Reg.cluLastev; omega)).trans (sparings.trans ?_)
    exact congrArg (fun w : Word => w48 (w.toNat + 1)) (stays _ (by unfold Reg.cluSparings; omega) (by unfold Reg.cluSparings cluOf; omega))

theorem moves_of {s : State} {i : Instr} {n : Mach} {u cause : Nat} (e : exec i s = .next { s with toMach := n })
    (h : Moves q u cause s.toMach n) : ∃ t, exec i s = .next t ∧
      let y := t.toMach.seat q
      y.arch = (s.toMach.seat q).ckpt ∧ y.stores = [] ∧ y.moving = some u ∧ y.moveCause = cause ∧
        y.moveRetries = (s.toMach.seat q).retries ∧ t.toMach.seatState q = 3 :=
  ⟨_, e, h.arch, h.stores, h.moving, h.moveCause, h.moveRetries, h.state⟩

theorem upOf {m : Mach} (live : m.seatLive q = true) : m.up = true := (Bool.and_eq_true_iff.mp live).1

/-- Settles O13: retries and moves from the checkpoint, the end of a move by its registers, near-store errors by the entry met. -/
theorem lockstepAndSparing : Obligations.LockstepAndSparing := by
  constructor
  · intro s q u m x c retried moves live
    refine ⟨fun old few => ⟨fun locked => ?_, fun split_ => ?_⟩, fun free spare => ⟨fun locked three => ?_, fun locked runs => ?_,
      fun locked => ⟨?_, ?_⟩⟩, fun locked runs => ?_, fun i k => ?_⟩
    · have e : m.lockMismatch q.val = m.mismatch q.val 2 := if_pos (by rw [live]; exact locked)
      exact ⟨_, (lift_next e : execLockstepMismatch q s = _), mismatch_retries old few⟩
    · have e : m.parityError q.val false = m.mismatch q.val 7 := by
        unfold Mach.parityError
        simp only [live, show m.locked (cluOf q.val) = false from split_, Bool.not_true, Bool.or_self, Bool.false_eq_true, reduceIte]
      exact ⟨_, (lift_next e : execSplitParityError q false s = _), mismatch_retries old few⟩
    · have e : m.lockMismatch q.val = m.spareSeat q.val 2 :=
        (if_pos (by rw [live]; exact locked)).trans (if_pos (by simp [x, m] at three ⊢; omega))
      exact moves_of (lift_next e : execLockstepMismatch q s = _) (spareSeat_moves q.isLt 2 free spare)
    · have e : m.selfTest q.val false = m.spareSeat q.val 3 :=
        (if_pos (by simp [upOf live, runs, show m.locked (cluOf q.val) = true from locked])).trans (if_neg Bool.false_ne_true)
      exact moves_of (lift_next e : execComparatorSelftest q false s = _) (spareSeat_moves q.isLt 3 free spare)
    · have e : m.railFault q.val = m.spareSeat q.val 3 := if_pos (by rw [live]; exact locked)
      exact moves_of (lift_next e : execDualRailViolation q s = _) (spareSeat_moves q.isLt 3 free spare)
    · have e : m.codeError q.val (.own false) = m.spareSeat q.val 4 :=
        (if_pos (by rw [live]; exact locked)).trans (if_neg Bool.false_ne_true)
      exact moves_of (lift_next e : execCoreCodeError q (.own false) s = _) (spareSeat_moves q.isLt 4 free spare)
    · have e : m.selfTest q.val true = m.count (Reg.cluSelftest (cluOf q.val)) :=
        (if_pos (by simp [upOf live, runs, show m.locked (cluOf q.val) = true from locked])).trans (if_pos rfl)
      exact ⟨_, (lift_next e : execComparatorSelftest q true s = _), reg_count_self _ _⟩
    · intro e up valid
      have e' : m.codeError q.val (.nearStore i k) = m.nearError q.val i.val k.val := if_pos up
      exact ⟨_, (lift_next e' : execCoreCodeError q (.nearStore i k) s = _), nearError_leaves valid⟩
  · intro s q u m x c moving calm fp fits other ds rs stores _ _
    exact ⟨_, (lift_next rfl : execSparingComplete q s = _), finishMove_ends q.isLt moving calm fp fits other ds rs stores⟩

end Sys2Proof.Machine
end

section
/-! PROOFS. The jobs that run and the upper registers through acts of roles and sessions. -/

namespace Sys2Proof.Machine

open Sys2Proof

/-- A table of jobs changes only in the fate of POSTED items and by jobs woken from their wait. -/
inductive JobSteps (l : List (Nat × Job)) : List (Nat × Job) → Prop
  | refl : JobSteps l l
  | posted {l' : List (Nat × Job)} (h : JobSteps l l') (f : Job → List (Nat × Nat × Bool)) :
      JobSteps l (l'.map fun e => (e.1, { e.2 with posted := f e.2 }))
  | wake {l' : List (Nat × Job)} (h : JobSteps l l') {c : Nat} {k : Job} (r : Job) (there : tfind l' c = some k) (waits : k.st = .waiting)
      (ready : r.st = .ready ∧ r.wait = .none) : JobSteps l (tabInsert c r l')

/-- The jobs that do not wait stand, but for the fate of their POSTED items; jobs that wait may be woken. -/
def JobsKept (m n : Mach) : Prop := JobSteps m.jobs n.jobs

/-- `n` is `m` after acts that leave the jobs that do not wait and the registers above the interrupt block. -/
structure High (m n : Mach) : Prop where
  reg : ∀ a, 0x350000 ≤ a → n.reg a = m.reg a
  jobs : JobsKept m n

theorem ledgerAddr_high {a : Nat} (high : 0x350000 ≤ a) : ledgerAddr a = false := by
  refine Bool.eq_false_iff.mpr fun listed => ?_
  simp [ledgerAddr, Reg.sealCtl, Reg.sealRsize, Reg.sealTail] at listed
  rcases listed with (below | ⟨-, top⟩) | top
  · omega
  · exact absurd (of_decide_eq_true top) (by omega)
  · exact absurd (of_decide_eq_true top) (by omega)

theorem JobSteps.trans {l l' l'' : List (Nat × Job)} (h : JobSteps l l') (g : JobSteps l' l'') : JobSteps l l'' := by
  induction g with
  | refl => exact h
  | posted _ f ih => exact ih.posted f
  | wake _ r there waits ready ih => exact ih.wake r there waits ready

/-- An entry that a table's change writes twice. -/
theorem tabInsert_twice {α : Type} (k : Nat) (v u : α) (t : List (Nat × α)) : tabInsert k u (tabInsert k v t) = tabInsert k u t := by
  induction t with
  | nil => simp [tabInsert]
  | cons e t ih =>
    obtain ⟨a, y⟩ := e
    by_cases before : k < a
    · simp [tabInsert, before]
    · by_cases same : a = k
      · simp [tabInsert, same]
      · simp [tabInsert, before, same, ih]

namespace JobsKept

variable {m x n o : Mach}

theorem of_jobs (e : n.jobs = m.jobs) : JobsKept m n := by
  rw [JobsKept, e]
  exact .refl

theorem refl (m : Mach) : JobsKept m m := of_jobs rfl

theorem trans (h : JobsKept m n) (g : JobsKept n o) : JobsKept m o := JobSteps.trans h g

theorem foldl {β : Type} {f : Mach → β → Mach} {l : List β} (h : JobsKept m x) (step : ∀ y b, JobsKept m y → JobsKept m (f y b)) :
    JobsKept m (l.foldl f x) := by
  induction l generalizing x with
  | nil => exact h
  | cons b l ih => exact ih (step x b h)

/-- A job that does not wait stands, but for its POSTED items. -/
theorem job (h : JobsKept m n) (c : Nat) (j : Job) (at_ : m.job c = some j) (runs : j.st ≠ .waiting) :
    ∃ p, n.job c = some { j with posted := p } := by
  rw [JobsKept] at h
  unfold Mach.job at at_ ⊢
  generalize n.jobs = l at h ⊢
  induction h with
  | refl => exact ⟨j.posted, at_⟩
  | posted _ f ih =>
    obtain ⟨p, hp⟩ := ih
    exact ⟨_, (tfind_map _ _ c).trans (congrArg _ hp)⟩
  | @wake l' _ d k r there waits ready ih =>
    obtain ⟨p, hp⟩ := ih
    have other : d ≠ c := fun same => by
      subst same
      exact runs ((congrArg Job.st (Option.some.inj (hp.symm.trans there))).trans waits)
    exact ⟨p, (tfind_insert d c r _).trans ((if_neg other).trans hp)⟩

theorem none (h : JobsKept m n) (c : Nat) (free : m.job c = Option.none) : n.job c = Option.none := by
  rw [JobsKept] at h
  unfold Mach.job at free ⊢
  generalize n.jobs = l at h ⊢
  induction h with
  | refl => exact free
  | posted _ f ih => exact (tfind_map _ _ c).trans (congrArg _ ih)
  | @wake l' _ d k r there waits ready ih =>
    have other : d ≠ c := fun same => by
      subst same
      exact nomatch ih.symm.trans there
    exact (tfind_insert d c r _).trans ((if_neg other).trans ih)

theorem wakeJob {c code detail count} (h : JobsKept m x) : JobsKept m (x.wakeJob c code detail count) := by
  unfold Mach.wakeJob
  cases at_ : x.job c with
  | none => exact h
  | some k =>
    dsimp only
    split
    next waits =>
      unfold Mach.makeReady
      rw [(job_setJob x c c _).trans (if_pos rfl)]
      have step := JobSteps.wake h { k with
        st := .ready, wait := .none, woken := true, wokenRes := code * 65536 + detail, wokenCount := count, deadline := Option.none
        ord := x.order } at_ waits ⟨rfl, rfl⟩
      rw [JobsKept, ← tabInsert_twice] at *
      exact step
    next => exact h

theorem failSends {s} (h : JobsKept m x) : JobsKept m (x.failSends s) := by
  unfold Mach.failSends
  extract_lets hit m1 m2
  have h1 : JobsKept m m1 := h.trans (of_jobs rfl)
  have h2 : JobsKept m m2 := h1.foldl fun y b h => by
    split
    · exact h
    · exact h.wakeJob
  exact h2.posted fun j => j.posted.map fun p => if p.1 = s then (p.1, p.2.1, true) else p

end JobsKept

/-! ### Sessions, by the registers and the jobs -/

theorem regs_failSends (m : Mach) (s : Nat) : (m.failSends s).regs = m.regs := by
  unfold Mach.failSends
  extract_lets hit m1 m2
  change m2.regs = m1.regs
  unfold m2
  refine regs_foldl (fun y b => ?_) hit m1
  split
  · rfl
  · exact regs_wakeJob _ _ _ _ _

theorem regs_closeConn (m : Mach) (s : Nat) : (m.closeConn s).regs = m.regs := by
  unfold Mach.closeConn
  extract_lets e
  split
  · rfl
  · exact regs_failSends _ _

/-- `n` has the registers and the jobs of `m`. -/
structure Quiet (m n : Mach) : Prop where
  regs : n.regs = m.regs
  jobs : n.jobs = m.jobs

namespace Quiet

variable {m x n o : Mach}

theorem refl (m : Mach) : Quiet m m := ⟨rfl, rfl⟩

theorem trans (h : Quiet m n) (g : Quiet n o) : Quiet m o := ⟨g.regs.trans h.regs, g.jobs.trans h.jobs⟩

theorem foldl {β : Type} {f : Mach → β → Mach} {l : List β} (h : Quiet m x) (step : ∀ y b, Quiet y (f y b)) : Quiet m (l.foldl f x) := by
  induction l generalizing x with
  | nil => exact h
  | cons b l ih => exact ih (h.trans (step x b))

theorem setLive {s e} (h : Quiet m x) : Quiet m (x.setLive s e) := h.trans ⟨rfl, rfl⟩

theorem connSend {s typ flags body} (h : Quiet m x) : Quiet m (x.connSend s typ flags body) := by
  unfold Mach.connSend
  extract_lets e
  split
  · exact h
  · exact h.trans ⟨rfl, rfl⟩

theorem flushN {n s} (h : Quiet m x) : Quiet m (Mach.flushN n s x) := by
  induction n generalizing x with
  | zero => exact h
  | succ n ih =>
    unfold Mach.flushN
    extract_lets e
    split
    · exact h
    · split
      · exact h
      · split
        · exact ih h.setLive.connSend
        · split
          · exact h
          · exact ih h.setLive.connSend

theorem epochSessions {prev} (h : Quiet m x) : Quiet m (x.epochSessions prev) := by
  unfold Mach.epochSessions
  extract_lets ids m1
  have h1 : Quiet m m1 := h.foldl fun y b => setLive (refl y)
  split
  · have frame : ∀ (y : Mach) (s : Nat), Quiet y (y.epochFrame s) := fun y s => by
      unfold Mach.epochFrame
      extract_lets e l
      split
      · exact ⟨rfl, rfl⟩
      · exact refl y
    exact foldl (foldl h1 fun y s => flushN (refl y)) frame
  · exact h1

end Quiet

namespace High

variable {m x n o : Mach}

theorem refl (m : Mach) : High m m := ⟨fun _ _ => rfl, .refl m⟩

theorem trans (h : High m n) (g : High n o) : High m o := ⟨fun a ha => (g.reg a ha).trans (h.reg a ha), h.jobs.trans g.jobs⟩

theorem of_regs (h : High m x) (e : n.regs = x.regs) (kept : JobsKept x n) : High m n :=
  h.trans ⟨fun a ha => by rw [Mach.reg, Mach.reg, ledgerAddr_high ha, e]; rfl, kept⟩

theorem quiet (h : High m x) (e : Quiet x n) : High m n := h.of_regs e.regs (.of_jobs e.jobs)

/-- A change of other parts than registers and jobs. -/
theorem parts (h : High m x) (regs : n.regs = x.regs := by rfl) (jobs : n.jobs = x.jobs := by rfl) : High m n := h.quiet ⟨regs, jobs⟩

theorem ite {p : Prop} [Decidable p] {a b : Mach} (ha : High m a) (hb : High m b) : High m (if p then a else b) := by
  split
  · exact ha
  · exact hb

theorem foldl {β : Type} {f : Mach → β → Mach} {l : List β} (h : High m x) (step : ∀ y, ∀ b ∈ l, High m y → High m (f y b)) :
    High m (l.foldl f x) := by
  induction l generalizing x with
  | nil => exact h
  | cons b l ih => exact ih (step x b (by simp) h) fun y c hc => step y c (by simp [hc])

theorem setReg {a v} (h : High m x) (low : a < 0x350000 := by decide) : High m (x.setReg a v) :=
  h.trans ⟨fun b hb => reg_setReg_of_ne _ _ (by omega), .of_jobs (Mach.setReg_jobs _ _ _)⟩

theorem setFld {a f v} (h : High m x) (low : a < 0x350000 := by decide) : High m (x.setFld a f v) := h.setReg low

theorem count {a k} (h : High m x) (low : a < 0x350000 := by decide) : High m (x.count a k) := h.setReg low

theorem raise {i} (h : High m x) : High m (x.raise i) := by
  unfold Mach.raise
  split
  next listed =>
    simp only [intListed, Bool.or_eq_true, Bool.and_eq_true, decide_eq_true_eq] at listed
    exact h.setReg (by unfold Reg.intStat; omega)
  next => exact h

theorem notice {t code arg} (h : High m x) (tenant : t < 16) : High m (x.notice t code arg) := by
  unfold Mach.notice
  extract_lets q m1
  have hm1 : High m m1 := h.parts
  refine .ite h.parts (.ite ((h.count ?_).setReg ?_) (.ite hm1.raise hm1))
  · unfold Reg.noteLost
    omega
  · unfold Reg.noteStat
    omega

theorem notices {code arg} (h : High m x) : High m (x.notices x.enabledTenants code arg) :=
  h.foldl fun _ _ listed h => h.notice (List.mem_range.mp (List.mem_filter.mp listed).1)

theorem stkTrigger {src} (h : High m x) : High m (x.stkTrigger src) := by
  unfold Mach.stkTrigger
  extract_lets st m1
  have hm1 : High m m1 := .ite h.parts h
  exact .ite h (.ite hm1.count (setFld (a := Reg.stkStat) hm1.parts))

theorem faultEvent {b} (h : High m x) : High m (x.faultEvent b) :=
  .ite (.ite h.setFld (stkTrigger (setFld h.parts))) h

theorem closeConn {s} (h : High m x) : High m (x.closeConn s) := by
  refine h.of_regs (regs_closeConn x s) ?_
  unfold Mach.closeConn
  extract_lets e
  split
  · exact .refl x
  · exact JobsKept.failSends (.of_jobs rfl)

theorem byeAll {reason} (h : High m x) : High m (x.byeAll reason) := h.foldl fun y s _ h => by
  unfold Mach.bye
  split
  · exact h
  · exact (h.quiet (.connSend (.refl _))).closeConn

theorem alarmReg {a mask v src evt} (h : High m x) (low : a < 0x350000 := by decide) :
    High m (x.alarmReg a mask v src evt) := by
  unfold Mach.alarmReg
  extract_lets old new m1
  have hm1 : High m m1 := (h.setReg low).raise
  exact .ite h (.ite hm1 hm1.faultEvent)

theorem twnAlarm {f b} (h : High m x) : High m (x.twnAlarm f b) := h.alarmReg

theorem refreshTwn (h : High m x) : High m x.refreshTwn := by
  unfold Mach.refreshTwn
  extract_lets sk m1 m2 m3 m4 m5
  have hm1 : High m m1 := h.twnAlarm
  have hm2 : High m m2 := hm1.twnAlarm
  have hm3 : High m m3 := hm2.twnAlarm
  have hm4 : High m m4 := hm3.twnAlarm
  have hm5 : High m m5 := hm4.twnAlarm
  exact hm5.twnAlarm

theorem refreshRun (h : High m x) : High m x.refreshRun := h.setFld.setFld

theorem sealLeave (h : High m x) : High m x.sealLeave := by
  unfold Mach.sealLeave
  extract_lets src m1 src1
  have hm1 : High m m1 := h.parts
  split
  · exact hm1
  · extract_lets m2
    have hm2 : High m m2 := hm1.parts
    exact hm2.setReg.setReg.setReg

theorem setRole {r} (h : High m x) : High m (x.setRole r) := by
  unfold Mach.setRole
  extract_lets old serve m1 cleared m2 m3 src m4
  have hm1 : High m m1 := .ite (h.foldl fun _ _ _ h => h.closeConn) h
  have hcleared : High m cleared := hm1.parts
  have hm2 : High m m2 := .ite hcleared.sealLeave hm1
  have hm3 : High m m3 := hm2.setFld.raise.faultEvent
  have hm4 : High m m4 := .ite hm3.parts hm3.parts
  exact .ite h hm4.refreshRun.refreshTwn

theorem setEpoch {e} (h : High m x) : High m (x.setEpoch e) := by
  unfold Mach.setEpoch
  extract_lets prev m0 m1 m2
  have hm0 : High m m0 := .ite h.parts h
  have hm1 : High m m1 := hm0.setReg.count
  have hm2 : High m m2 := hm1.notices.raise
  exact .ite h (refreshTwn (hm2.faultEvent.quiet (.epochSessions (.refl _))))

theorem setLease {b} (h : High m x) : High m (x.setLease b) := h.setFld

theorem endHandover (h : High m x) : High m x.endHandover := by
  unfold Mach.endHandover
  extract_lets src m1
  have hm1 : High m m1 := h.parts
  exact hm1.setFld.setFld

theorem setPendingEpoch {p} (h : High m x) : High m (x.setPendingEpoch p) := (parts (n := { x with twin := _ }) h).setFld

theorem fence (h : High m x) : High m x.fence := by
  unfold Mach.fence
  extract_lets m1 src m2
  have hm1 : High m m1 := h.byeAll
  have hm2 : High m m2 := endHandover (setPendingEpoch (setLease (x := { m1 with twin := { m1.twin with latch := true } }) hm1.parts))
  exact .ite hm2.setRole hm2

theorem syncDiscard (h : High m x) : High m x.syncDiscard := by
  unfold Mach.syncDiscard
  extract_lets src m1
  have hm1 : High m m1 := h.parts
  exact hm1.setReg.setFld.setEpoch.twnAlarm

theorem moduleLost (h : High m x) : High m x.moduleLost := by
  unfold Mach.moduleLost
  extract_lets m1
  refine parts (x := m1) ?_
  unfold m1 Mach.fenceBarred
  extract_lets m2 src m3
  have hm3 : High m m3 := h.fence.parts
  exact .ite hm3.syncDiscard hm3

end High

end Sys2Proof.Machine
end

section
/-! PROOFS. Boot and the charter's commit (R140, R335, R352, R354). -/

namespace Sys2Proof.Machine

open Sys2Proof

variable {m n o : Mach}

/-! ### Measurements (R353) -/

/-- `n` is `m` with measurements and entries of their log written. -/
structure Measured (m n : Mach) : Prop where
  rest : ∃ r log, n = { m with regs := r, sr := { m.sr with log := log } }
  reg : ∀ a, a < 0x380020 → n.reg a = m.reg a

namespace Measured

theorem refl (m : Mach) : Measured m m := ⟨⟨m.regs, m.sr.log, rfl⟩, fun _ _ => rfl⟩

theorem trans (h : Measured m n) (g : Measured n o) : Measured m o := by
  obtain ⟨_, _, rfl⟩ := h.rest
  obtain ⟨_, _, rfl⟩ := g.rest
  exact ⟨⟨_, _, rfl⟩, fun a ha => (g.reg a ha).trans (h.reg a ha)⟩

theorem setReg {a : Nat} {v : Word} (h : Measured m n) (high : 0x380020 ≤ a) : Measured m (n.setReg a v) := by
  refine h.trans ⟨?_, fun b hb => reg_setReg_of_ne _ _ (by omega)⟩
  rw [Mach.setReg, ledgerAddr_high (by omega)]
  exact ⟨_, n.sr.log, rfl⟩

theorem setMeas (h : Measured m n) (k d : Nat) : Measured m (n.setMeas k d) := by
  unfold Mach.setMeas
  generalize (List.range 11).zip (hashWords d) = l
  induction l generalizing n with
  | nil => exact h
  | cons e l ih => exact ih (h.setReg (by unfold Reg.srMeas; omega))

theorem logMeas (h : Measured m n) (k event d : Nat) : Measured m (n.logMeas k event d) := by
  unfold Mach.logMeas
  split
  · exact h.setReg (a := Reg.srLogcnt) (by decide)
  · extract_lets l0 e sr
    have h1 : Measured m { n with sr := { sr with log := n.sr.log ++ [e] } } := h.trans ⟨⟨n.regs, _, rfl⟩, fun _ _ => rfl⟩
    exact h1.setReg (a := Reg.srLogcnt) (by decide)

theorem measure (h : Measured m n) (k event d : Nat) : Measured m (n.measure k event d) := (h.setMeas k d).logMeas k event d

end Measured

/-! ### The fields of an image that passes -/

theorem natOfOctets_lt (l : List Octet) : natOfOctets l < 256 ^ l.length := by
  have step : ∀ (l : List Octet) (n k : Nat), n < 256 ^ k → l.foldl (fun a o => a * 256 + o.toNat) n < 256 ^ (k + l.length) := by
    intro l
    induction l with
    | nil => exact fun n k h => h
    | cons o l ih =>
      intro n k h
      have := o.isLt
      have next : n * 256 + o.toNat < 256 ^ (k + 1) := by rw [pow_succ]; omega
      rw [List.foldl_cons, List.length_cons, Nat.add_comm l.length, ← Nat.add_assoc]
      exact ih _ _ next
  simpa [natOfOctets] using step l 0 0 (by decide)

theorem octField_lt (os : List Octet) (i k : Nat) : octField os i k < 256 ^ k :=
  Nat.lt_of_lt_of_le (natOfOctets_lt _) (Nat.pow_le_pow_right (by decide) (List.length_take_le _ _))

theorem imgKeysel_le {os : List Octet} (good : m.imageErr os = 0) : imgKeysel os ≤ 4 := by
  by_contra high
  unfold Mach.imageErr at good
  extract_lets n k at good
  have wide : (4 < k || m.bootHash k ≠ some (hashWords (sha3_512 (imgPk os)).toNat)) = true := by
    rw [Bool.or_eq_true, decide_eq_true_eq]
    exact .inl (Nat.lt_of_not_le high)
  rw [if_pos wide] at good
  split at good
  · exact absurd good (by decide)
  · split at good
    · exact absurd good (by decide)
    · exact absurd good (by decide)

theorem imageErr_lt (m : Mach) (os : List Octet) : m.imageErr os < 7 := by
  unfold Mach.imageErr
  extract_lets n k
  repeat' split
  all_goals decide

/-! ### An image that passed starts -/

theorem reseats_startUnits {c : Nat} (h : Reseats m n) (small : c < 4) : Reseats m (n.startUnits c) := by
  unfold Mach.startUnits
  extract_lets m1
  have units : ∀ {x : Mach} {u st s : Nat}, Reseats m x → Reseats m (x.setUnitState c u st s) := fun h => h.cluUnit small
  have h1 : Reseats m m1 := h.foldl fun _ _ h => units h
  have seats : ∀ {l : List Nat} {x : Mach}, Reseats m x → (∀ k ∈ l, k < 16) → Reseats m (l.foldl (fun (x : Mach) k =>
      (x.setUnitState c (n.startUnit c k) 0 k).setFld (Reg.cluSeat c k) F.cluSeatUnit (n.startUnit c k)) x) := fun {l} => by
    induction l with
    | nil => exact fun h _ => h
    | cons k l ih =>
      intro x h few
      have : k < 16 := few k (by simp)
      exact ih ((units h).setReg (by unfold Reg.cluSeat; omega) (.inl (by unfold Reg.cluSeat; omega))) fun k' listed =>
        few k' (by simp [listed])
  refine seats h1 fun k listed => ?_
  have := List.mem_range.mp listed
  unfold Mach.seatCount at this
  split at this
  all_goals omega

theorem srPages_setReg (m : Mach) (a : Nat) (v : Word) : (m.setReg a v).memst = m.memst := Mach.setReg_memst _ _ _

/-- SR_BOOT of an image that starts from a slot. -/
def bootWord (w : Word) (slot : Nat) (os : List Octet) : Word :=
  fset (fset (fset w F.srBootSlot slot) F.srBootKeysel (imgKeysel os)) F.srBootSvn (imgSvn os)

/-- What the start of an image leaves (R352). -/
structure Started (slot : Nat) (os : List Octet) (m n : Mach) : Prop where
  phase : n.phase = 1
  boot : n.reg Reg.srBoot = bootWord (m.reg Reg.srBoot) slot os
  keys : n.sr.keys = true
  swd : n.sr.swdEnd = some (m.now + 1677722)
  wld : (n.arch 0).wld = 4
  pc : (n.arch 0).pc = (w48 (0xFFE00000 + imgEntry os)).toNat % 2 ^ 40 * 8
  pages : ∀ p, 0xFFE00 ≤ p → p < 2 ^ 20 → n.srPage p = true

theorem swdLoad_leaves (m : Mach) : m.swdLoad.sr = { m.sr with swdEnd := some (m.now + 1677722) } ∧ m.swdLoad.memst = m.memst ∧
    (∀ q, m.swdLoad.seat q = m.seat q) ∧ ∀ a, a ≠ Reg.srStat → m.swdLoad.reg a = m.reg a := by
  unfold Mach.swdLoad
  refine ⟨Mach.setReg_sr _ _ _, Mach.setReg_memst _ _ _, fun q => ?_, fun a ne => reg_setFld_of_ne _ _ (Ne.symm ne)⟩
  rw [seat_setFld]
  rfl

theorem startImage_starts (m : Mach) (slot : Nat) (os : List Octet) : Started slot os m (m.startImage slot os) := by
  unfold Mach.startImage
  extract_lets len m1 m2 m3 m4 sr m5
  have h1 : m1.reg Reg.srBoot = m.reg Reg.srBoot ∧ m1.now = m.now ∧ ∀ p, 0xFFE00 ≤ p → p < 2 ^ 20 → p ∈ m1.memst.srPages := by
    refine ⟨reg_setFld_of_ne _ _ (by decide), Mach.setReg_now _ _ _, fun p low top => ?_⟩
    unfold m1 Mach.loadVault
    rw [Mach.srCount, Mach.setFld, Mach.setReg_memst]
    exact List.mem_append_right _ (List.mem_map.mpr ⟨p - 0xFFE00, List.mem_range.mpr (by omega), by omega⟩)
  obtain ⟨boot1, now1, pages1⟩ := h1
  have h2 : Measured m1 m2 := ((Measured.refl m1).measure _ _ _).measure _ _ _
  have h4 : Reseats (m3.setFld Reg.modState F.modStatePhase 1) m4 :=
    reseats_startUnits (reseats_startUnits (reseats_startUnits (reseats_startUnits (.refl _) (by decide)) (by decide)) (by decide))
      (by decide)
  have h5 : Reseats m5 (m5.startMonitor 0) := reseats_resetSeat (by decide)
  have monvec : m5.reg Reg.srMonvec = w48 (0xFFE00000 + imgEntry os) := by
    refine (h4.reg _ (.inr (by decide))).trans ((reg_setFld_of_ne _ _ (by decide)).trans ?_)
    rw [reg_setReg_of_ne _ _ (by decide), reg_setReg_self]
  have boot : m5.reg Reg.srBoot = bootWord (m.reg Reg.srBoot) slot os := by
    refine (h4.reg _ (.inr (by decide))).trans ((reg_setFld_of_ne _ _ (by decide)).trans ?_)
    rw [reg_setReg_self, h2.reg _ (by decide), boot1, bootWord]
  have phase : m5.fld Reg.modState F.modStatePhase = 1 := by
    refine (h4.fld (.inl (by decide)) _).trans ((fld_setFld_same _ _ (by decide)).trans rfl)
  have rest : m4.now = m.now ∧ m4.memst.srPages = m1.memst.srPages := by
    obtain ⟨r, log, e⟩ := h2.rest
    refine ⟨h4.now.trans ?_, h4.srPages.trans ?_⟩
    · simp only [Mach.setFld, Mach.setReg_now, m3]
      rw [e]
      exact now1
    · simp only [Mach.setFld, Mach.setReg_memst, m3]
      rw [e]
  obtain ⟨wld, pc, -⟩ := resetSeat_arch m5 0
  rw [← Mach.startMonitor] at wld pc
  have keys : m5.sr.keys = true := rfl
  have now5 : m5.now = m.now := rest.1
  have pages5 : ∀ p, 0xFFE00 ≤ p → p < 2 ^ 20 → p ∈ m5.memst.srPages := fun p low top => rest.2 ▸ pages1 p low top
  clear_value m5
  generalize m5.startMonitor 0 = m6 at h5 wld pc
  obtain ⟨sr6, memst6, seat6, reg6⟩ := swdLoad_leaves m6
  refine ⟨?_, ?_, ?_, ?_, ?_, ?_, fun p low top => ?_⟩
  · exact (fld_congr (reg6 _ (by decide)) _).trans ((h5.fld (.inl (by decide)) _).trans phase)
  · exact (reg6 _ (by decide)).trans ((h5.reg _ (.inr (by decide))).trans boot)
  · rw [sr6]
    dsimp only
    rw [h5.sr]
    exact keys
  · rw [sr6]
    dsimp only
    rw [h5.now, now5]
  · rw [Mach.arch, seat6]
    exact wld
  · rw [Mach.arch, seat6, ← monvec]
    exact pc
  · rw [Mach.srPage, memst6]
    exact List.contains_iff_mem.mpr (h5.srPages.symm ▸ pages5 p low top)

theorem Started.fields {slot : Nat} {os : List Octet} (h : Started slot os m n) (few : slot < 2) (key : imgKeysel os ≤ 4) :
    n.fld Reg.srBoot F.srBootSlot = slot ∧ n.fld Reg.srBoot F.srBootKeysel = imgKeysel os ∧ n.fld Reg.srBoot F.srBootSvn = imgSvn os ∧
      n.fld Reg.srBoot F.srBootErra = m.fld Reg.srBoot F.srBootErra ∧ n.fld Reg.srBoot F.srBootErrb = m.fld Reg.srBoot F.srBootErrb := by
  have svn : imgSvn os < 65536 := octField_lt os 12 2
  unfold Mach.fld
  rw [h.boot, bootWord]
  refine ⟨?_, ?_, ?_, ?_, ?_⟩
  · rw [fget_fset_apart _ _ (by decide) (by decide), fget_fset_apart _ _ (by decide) (by decide), fget_fset_same _ _ (by decide)]
    exact Nat.mod_eq_of_lt few
  · rw [fget_fset_apart _ _ (by decide) (by decide), fget_fset_same _ _ (by decide)]
    exact Nat.mod_eq_of_lt (Nat.lt_of_le_of_lt key (by decide))
  · rw [fget_fset_same _ _ (by decide)]
    exact Nat.mod_eq_of_lt svn
  all_goals rw [fget_fset_apart _ _ (by decide) (by decide), fget_fset_apart _ _ (by decide) (by decide),
    fget_fset_apart _ _ (by decide) (by decide)]

theorem Started.entry {slot : Nat} {os : List Octet} (h : Started slot os m n) : (n.arch 0).pc = (0xFFE00000 + imgEntry os) * 8 := by
  have low : imgEntry os < 4294967296 := octField_lt os 20 4
  rw [h.pc]
  simp only [w48, BitVec.toNat_ofNat]
  omega

/-! ### The results of boot -/

section

variable {a b : List Octet} (up : m.memUp = true) (rom : m.phase = 0) (first : m.fld Reg.srBoot F.srBootErra = 7)
include up rom first

theorem bootVerify_broken (broken : m.grpState 0 = 2 ∨ m.grpState 1 = 2) :
    m.bootVerify a b = m.setReg Reg.srBoot (fset (fset (m.reg Reg.srBoot) F.srBootErra 8) F.srBootErrb 8) := by
  unfold Mach.bootVerify
  rw [if_neg (by simp [up, rom, first]), if_pos (by simpa using broken)]

theorem bootVerify_first (sound : m.grpState 0 ≠ 2 ∧ m.grpState 1 ≠ 2) (good : m.imageErr a = 0) :
    m.bootVerify a b = (m.setFld Reg.srBoot F.srBootErra 0).startImage 0 a := by
  unfold Mach.bootVerify
  rw [if_neg (by simp [up, rom, first]), if_neg (by simpa using sound)]
  simp only [good, if_true]

theorem bootVerify_second (sound : m.grpState 0 ≠ 2 ∧ m.grpState 1 ≠ 2) (bad : m.imageErr a ≠ 0) :
    m.bootVerify a b =
      let m2 := (m.setFld Reg.srBoot F.srBootErra (m.imageErr a)).setFld Reg.srBoot F.srBootErrb (m.imageErr b)
      if m.imageErr b = 0 then m2.startImage 1 b else m2 := by
  unfold Mach.bootVerify
  rw [if_neg (by simp [up, rom, first]), if_neg (by simpa using sound)]
  simp only [bad, if_false]

end

/-! ### The charter commits -/

/-- Of four clusters, the bits of those in split mode. -/
def splitBits (m : Mach) : Nat := [0, 1, 2, 3].foldl (fun a c => a + b2n (m.bit (Reg.cluCtl c) F.cluCtlSplit) * 2 ^ c) 0

theorem nbit_splitBits (m : Mach) (c : CluId) : nbit (splitBits m % 2 ^ fldWidth F.modStateSplit) c.val =
    m.bit (Reg.cluCtl c.val) F.cluCtlSplit := by
  have bits : ∀ (b0 b1 b2 b3 : Bool) (c : Fin 4),
      nbit ((0 + b2n b0 * 2 ^ 0 + b2n b1 * 2 ^ 1 + b2n b2 * 2 ^ 2 + b2n b3 * 2 ^ 3) % 2 ^ fldWidth F.modStateSplit) c.val =
        [b0, b1, b2, b3][c.val] := by decide
  refine (bits _ _ _ _ c).trans ?_
  match c with
  | 0 => rfl
  | 1 => rfl
  | 2 => rfl
  | 3 => rfl

theorem reseats_startSeats (m : Mach) : Reseats m m.startSeats := by
  unfold Mach.startSeats
  refine Reseats.foldl (.refl m) fun y q h => ?_
  split
  next starts =>
    simp only [Mach.seatExists, Bool.and_eq_true, decide_eq_true_eq] at starts
    obtain ⟨-, -, small⟩ := starts
    exact h.trans (reseats_resetSeat (by unfold cluOf at small; omega))
  next => exact h

theorem turns_startRole (m : Mach) : Turns m m.startRole := by
  unfold Mach.startRole
  split
  · exact Turns.parts ((((Turns.refl m).setFld).setRole).setEpoch).setLease
  · exact .refl m

theorem high_startRole (m : Mach) : High m m.startRole := by
  unfold Mach.startRole
  split
  · have start : High m (m.setFld Reg.twnCtl F.twnCtlInit 0) := (High.refl m).setFld
    exact start.setRole.setEpoch.setLease.parts
  · exact .refl m

theorem role_startRole (m : Mach) : (m.bit Reg.twnCtl F.twnCtlInit = true → m.startRole.role = 2 ∧ m.startRole.epoch = 1) ∧
    (m.bit Reg.twnCtl F.twnCtlInit = false → m.startRole.role = m.role) := by
  refine ⟨fun init => ?_, fun plain => ?_⟩
  · have e : m.startRole = ((((m.setFld Reg.twnCtl F.twnCtlInit 0).setRole 2).setEpoch 1).setLease true).sealFolioStart := if_pos init
    have reg : ∀ (x : Mach) a, x.sealFolioStart.reg a = x.reg a := fun _ _ => rfl
    generalize m.setFld Reg.twnCtl F.twnCtlInit 0 = x at e
    rw [e]
    refine ⟨?_, ?_⟩
    · rw [Mach.role, Mach.fld, reg, ← Mach.fld, Mach.setLease, fld_setFld_apart _ _ (by decide) (by decide),
        fld_congr (setEpoch_stands _ 1).1]
      exact role_setRole x (by decide)
    · rw [Mach.epoch, reg, Mach.setLease, reg_setFld_of_ne _ _ (by decide)]
      exact epoch_setEpoch _ (by decide)
  · have e : m.startRole = m := if_neg (Bool.eq_false_iff.mp plain)
    rw [e]

/-- What the charter's commit leaves. -/
structure Committed (m n : Mach) : Prop where
  phase : n.phase = 2
  result : n.reg Reg.srCommit = m.reg Reg.srCommit
  split_ : ∀ c : CluId, nbit (n.fld Reg.modState F.modStateSplit) c.val = m.bit (Reg.cluCtl c.val) F.cluCtlSplit
  init : m.bit Reg.twnCtl F.twnCtlInit = true → n.role = 2 ∧ n.epoch = 1
  plain : m.bit Reg.twnCtl F.twnCtlInit = false → n.role = m.role

theorem commitCharter_commits (m : Mach) : Committed m m.commitCharter := by
  unfold Mach.commitCharter
  extract_lets split m1 m2 m3
  have h1 : Measured m m1 := (Measured.refl m).measure _ _ _
  have units : ∀ {y : Mach} {c : Nat}, c < 4 → Reseats m2 y → Reseats m2 (if nbit split c then y.startUnits c else y) :=
    fun small h => .ite (reseats_startUnits h small) h
  have h3 : Reseats m2 m3.startSeats :=
    (units (by decide) (units (by decide) (units (by decide) (units (by decide) (.refl m2))))).trans (reseats_startSeats m3)
  have starts := role_startRole m3.startSeats
  have turns : Turns m3.startSeats m3.startSeats.startRole := turns_startRole _
  have high : High m3.startSeats m3.startSeats.startRole := high_startRole _
  generalize m3.startSeats.startRole = x at starts turns high
  have modes : x.refreshRun.refreshTwn.reg Reg.modState = m2.reg Reg.modState :=
    (turns.refreshRun.refreshTwn.reg (by decide) (by decide)).trans (h3.reg _ (.inl (by decide)))
  have stat : ∀ a, a < 0x320000 → a ∉ [Reg.twnAlarm, Reg.accStat, Reg.sealStat] → x.refreshRun.refreshTwn.reg a = x.reg a := fun a low out => by
    simp only [List.mem_cons, List.not_mem_nil, or_false, not_or] at out
    obtain ⟨alarm, acc, seals⟩ := out
    rw [reg_refreshTwn _ low alarm, Mach.refreshRun, reg_setFld_of_ne _ _ (Ne.symm seals), reg_setFld_of_ne _ _ (Ne.symm acc)]
  have before : ∀ a, a < 0x2C0000 → a ≠ Reg.modState → m3.startSeats.reg a = m.reg a := fun a low ne => by
    rw [h3.reg a (.inl low), reg_setFld_of_ne _ _ (Ne.symm ne), reg_setFld_of_ne _ _ (Ne.symm ne), h1.reg a (by omega)]
  have initBit : m3.startSeats.bit Reg.twnCtl F.twnCtlInit = m.bit Reg.twnCtl F.twnCtlInit := by
    rw [Mach.bit, before _ (by decide) (by decide), Mach.bit]
  rw [initBit] at starts
  refine ⟨?_, ?_, fun c => ?_, fun init => ?_, fun plain => ?_⟩
  · rw [Mach.phase, fld_congr modes, fld_setFld_same _ _ (by decide)]
    rfl
  · have last : x.refreshRun.refreshTwn.reg Reg.srCommit = x.reg Reg.srCommit := (High.refl x).refreshRun.refreshTwn.reg _ (by decide)
    rw [last, high.reg _ (by decide), h3.reg _ (.inr (by decide)), reg_setFld_of_ne _ _ (by decide), reg_setFld_of_ne _ _ (by decide),
      h1.reg _ (by decide)]
  · rw [fld_congr modes, fld_setFld_apart _ _ (by decide) (by decide), fld_setFld_same _ _ (by decide)]
    exact nbit_splitBits m c
  · obtain ⟨role, epoch⟩ := starts.1 init
    exact ⟨(fld_congr (stat _ (by decide) (by decide)) _).trans role, (congrArg BitVec.toNat (stat _ (by decide) (by decide))).trans epoch⟩
  · refine (fld_congr (stat _ (by decide) (by decide)) _).trans ((starts.2 plain).trans ?_)
    exact fld_congr (before _ (by decide) (by decide)) _

theorem charterCommit_results {s : State} {w : Who} {v : Word} (sr : w.sr = true) (calm : s.toMach.restarting = false) :
    let m := s.toMach
    (m.phase = 1 → m.commitErr = 0 →
      ∃ t, exec (.charterCommit w v) s = .next t ∧ t.toMach.phase = 2 ∧ t.toMach.reg Reg.srCommit = 0 ∧
        (∀ c : CluId, nbit (t.toMach.fld Reg.modState F.modStateSplit) c.val = m.bit (Reg.cluCtl c.val) F.cluCtlSplit) ∧
        (m.bit Reg.twnCtl F.twnCtlInit = true → t.toMach.role = 2 ∧ t.toMach.epoch = 1) ∧
        (m.bit Reg.twnCtl F.twnCtlInit = false → t.toMach.role = m.role)) ∧
    (m.phase = 1 → m.commitErr ≠ 0 →
      ∃ t, exec (.charterCommit w v) s = .next t ∧ t.toMach.phase = 1 ∧ t.toMach.reg Reg.srCommit = w48 m.commitErr) ∧
    (m.phase ≠ 1 →
      ∃ t, exec (.charterCommit w v) s = .next t ∧ t.toMach.phase = m.phase ∧ t.toMach.reg Reg.srCommit = 1) := by
  intro m
  have go : fbit (fset v F.srCommitGo 1) F.srCommitGo = true := by rw [fbit_fset_same _ _ (by decide) rfl]; rfl
  have e : ∀ n, m.commitSet (fset v F.srCommitGo 1) = n → execCharterCommit w v s = .next { s with toMach := n } := fun n h =>
    lift_next ((if_pos sr).trans h)
  have asked : m.commitSet (fset v F.srCommitGo 1) =
      if m.phase = 1 then if m.commitErr = 0 then (m.setReg Reg.srCommit (w48 m.commitErr)).commitCharter
        else m.setReg Reg.srCommit (w48 m.commitErr)
      else m.setReg Reg.srCommit 1 := by
    unfold Mach.commitSet
    rw [go]
    simp only [show m.restarting = false from calm, Bool.not_true, Bool.not_false, Bool.and_true, Bool.false_eq_true, if_false,
      decide_eq_true_eq]
  refine ⟨fun charter good => ?_, fun charter bad => ?_, fun other => ?_⟩
  · have h := commitCharter_commits (m.setReg Reg.srCommit (w48 m.commitErr))
    generalize (m.setReg Reg.srCommit (w48 m.commitErr)).commitCharter = n at asked h
    have stands : ∀ a, a ≠ Reg.srCommit → (m.setReg Reg.srCommit (w48 m.commitErr)).reg a = m.reg a := fun a ne =>
      reg_setReg_of_ne _ _ (Ne.symm ne)
    have init : (m.setReg Reg.srCommit (w48 m.commitErr)).bit Reg.twnCtl F.twnCtlInit = m.bit Reg.twnCtl F.twnCtlInit := by
      rw [Mach.bit, stands _ (by decide), Mach.bit]
    refine ⟨_, e _ (asked.trans ((if_pos charter).trans (if_pos good))), h.phase, ?_, fun c => ?_, fun on => h.init (init.trans on),
      fun off => (h.plain (init.trans off)).trans (fld_congr (stands _ (by decide)) _)⟩
    · rw [h.result, reg_setReg_self, good]
      rfl
    · rw [h.split_ c, Mach.bit, stands _ (by unfold Reg.cluCtl Reg.srCommit; omega), Mach.bit]
  · exact ⟨_, e _ (asked.trans ((if_pos charter).trans (if_neg bad))), (fld_setReg_of_ne _ _ (by decide)).trans charter,
      reg_setReg_self _ _⟩
  · exact ⟨_, e _ (asked.trans (if_neg other)), fld_setReg_of_ne _ _ (by decide), reg_setReg_self _ _⟩

/-- Settles O19: the start of an image and the charter's commit by the registers, seats and pages they leave. -/
theorem bootAndCharter : Obligations.BootAndCharter := by
  constructor
  · intro s a b m up rom first started
    have started_of : ∀ {x n : Mach} {slot : Nat} {os : List Octet}, Started slot os x n → slot < 2 → m.imageErr os = 0 → x.now = m.now →
        started { s with toMach := n } slot os := fun h few good now => by
      obtain ⟨slot, key, svn, -, -⟩ := h.fields few (imgKeysel_le good)
      exact ⟨h.phase, slot, key, svn, h.keys, now ▸ h.swd, h.wld, h.entry, h.pages⟩
    have errA := imageErr_lt m a
    have errB := imageErr_lt m b
    refine ⟨fun g0 g1 => ⟨fun good => ?_, fun bad good => ?_, fun bad worse => ?_⟩, fun broken => ?_⟩
    · have e := bootVerify_first (b := b) up rom first ⟨g0, g1⟩ good
      have h := startImage_starts (m.setFld Reg.srBoot F.srBootErra 0) 0 a
      generalize (m.setFld Reg.srBoot F.srBootErra 0).startImage 0 a = n at e h
      obtain ⟨-, -, -, err, -⟩ := h.fields (by decide) (imgKeysel_le good)
      refine ⟨_, (lift_next e : execBootImageVerify a b s = _),
        started_of h (by decide) good (Mach.setReg_now _ _ _), err.trans ?_⟩
      rw [fld_setFld_same _ _ (by decide)]
      rfl
    · have e := (bootVerify_second (b := b) up rom first ⟨g0, g1⟩ bad).trans (if_pos good)
      have h := startImage_starts ((m.setFld Reg.srBoot F.srBootErra (m.imageErr a)).setFld Reg.srBoot F.srBootErrb (m.imageErr b)) 1 b
      generalize ((m.setFld Reg.srBoot F.srBootErra (m.imageErr a)).setFld Reg.srBoot F.srBootErrb (m.imageErr b)).startImage 1 b = n at e h
      obtain ⟨-, -, -, err, err2⟩ := h.fields (by decide) (imgKeysel_le good)
      refine ⟨_, (lift_next e : execBootImageVerify a b s = _), started_of h (by decide) good ?_, err.trans ?_, err2.trans ?_⟩
      · exact (Mach.setReg_now _ _ _).trans (Mach.setReg_now _ _ _)
      · rw [fld_setFld_apart _ _ (by decide) (by decide), fld_setFld_same _ _ (by decide)]
        exact Nat.mod_eq_of_lt (Nat.lt_trans errA (by decide))
      · rw [fld_setFld_same _ _ (by decide), good]
        rfl
    · have e := (bootVerify_second (b := b) up rom first ⟨g0, g1⟩ bad).trans (if_neg worse)
      refine ⟨_, (lift_next e : execBootImageVerify a b s = _), ?_, ?_, ?_, ?_, ?_⟩
      · exact (fld_setFld_of_ne _ _ (by decide)).trans ((fld_setFld_of_ne _ _ (by decide)).trans rom)
      · exact (Mach.setReg_seats _ _ _).trans (Mach.setReg_seats _ _ _)
      · exact (Mach.setReg_mem _ _ _).trans (Mach.setReg_mem _ _ _)
      · refine (fld_setFld_apart _ _ (by decide) (by decide)).trans ((fld_setFld_same _ _ (by decide)).trans ?_)
        exact Nat.mod_eq_of_lt (Nat.lt_trans errA (by decide))
      · exact (fld_setFld_same _ _ (by decide)).trans (Nat.mod_eq_of_lt (Nat.lt_trans errB (by decide)))
    · refine ⟨_, (lift_next (bootVerify_broken up rom first broken) : execBootImageVerify a b s = _), ?_, ?_, ?_⟩
      · exact (fld_setReg_of_ne _ _ (by decide)).trans rom
      · refine (fld_setReg_self _ _).trans ((fget_fset_apart _ _ (by decide) (by decide)).trans ((fget_fset_same _ _ (by decide)).trans rfl))
      · exact (fld_setReg_self _ _).trans ((fget_fset_same _ _ (by decide)).trans rfl)
  · intro s w v sr calm m
    exact charterCommit_results sr calm

end Sys2Proof.Machine
end

section
/-! PROOFS. What words written for a job leave as it was (R182, R187, R216). -/

namespace Sys2Proof.Machine

open Sys2Proof

/-- The registers that words written for a job, and their marks, may change, the tenants' as `T` names them. -/
inductive PutReg (T : Nat → Prop) : Nat → Prop
  | role {a : Nat} (listed : a ∈ roleRegs) : PutReg T a
  | memory {a : Nat} (block : 0x2A0000 ≤ a ∧ a < 0x2C0000) : PutReg T a
  | tenStat {t : Nat} (named : T t) : PutReg T (Reg.tenStat t)
  | tenHead {t : Nat} (named : T t) : PutReg T (Reg.tenMplhead t)

/-- `n` is `m` after words written for jobs of the tenants `T`: engines stand, the jobs that do not wait stand, no eviction buffer and no write queue
of a training fills. -/
structure Puts (T : Nat → Prop) (m n : Mach) : Prop where
  engines : n.engines = m.engines
  jobs : JobsKept m n
  reg : ∀ a, a < 0x320000 ∨ 0x350000 ≤ a → ¬ PutReg T a → n.reg a = m.reg a
  idle : m.memst.training = none → n.memst.training = none ∧ n.memst.writeQ = m.memst.writeQ
  buffers : (∀ y ∈ m.seats, y.2.evb = []) → ∀ y ∈ n.seats, y.2.evb = []

namespace Puts

variable {T : Nat → Prop} {m x n o : Mach}

theorem refl (m : Mach) : Puts T m m := ⟨rfl, .refl m, fun _ _ _ => rfl, fun h => ⟨h, rfl⟩, id⟩

theorem trans (h : Puts T m n) (g : Puts T n o) : Puts T m o :=
  ⟨g.engines.trans h.engines, h.jobs.trans g.jobs, fun a low out => (g.reg a low out).trans (h.reg a low out),
    fun t => ⟨(g.idle (h.idle t).1).1, (g.idle (h.idle t).1).2.trans (h.idle t).2⟩, fun b => g.buffers (h.buffers b)⟩

theorem becomes (h : Puts T m n) (e : n = o) : Puts T m o := e ▸ h

theorem ite {p : Prop} [Decidable p] {a b : Mach} (ha : Puts T m a) (hb : Puts T m b) : Puts T m (if p then a else b) := by
  split
  · exact ha
  · exact hb

theorem foldl {β : Type} {f : Mach → β → Mach} {l : List β} (h : Puts T m x) (step : ∀ y b, Puts T m y → Puts T m (f y b)) :
    Puts T m (l.foldl f x) := by
  induction l generalizing x with
  | nil => exact h
  | cons b l ih => exact ih (step x b h)

/-- A change of memory and of parts that no job sees. -/
theorem parts {mem l2dirty twin} (h : Puts T m x) : Puts T m { x with mem := mem, l2dirty := l2dirty, twin := twin } :=
  h.trans ⟨rfl, .of_jobs rfl, fun _ _ _ => rfl, fun t => ⟨t, rfl⟩, id⟩

theorem setReg {a v} (h : Puts T m x) (may : PutReg T a) : Puts T m (x.setReg a v) :=
  h.trans ⟨Mach.setReg_engines _ _ _, .of_jobs (Mach.setReg_jobs _ _ _), fun b _ out => reg_setReg_of_ne x v fun e => out (e ▸ may),
    fun t => by rw [Mach.setReg_memst]; exact ⟨t, rfl⟩, fun b => by rw [Mach.setReg_seats]; exact b⟩

theorem setFld {a f v} (h : Puts T m x) (may : PutReg T a) : Puts T m (x.setFld a f v) := h.setReg may

theorem count {a k} (h : Puts T m x) (may : PutReg T a) : Puts T m (x.count a k) := h.setReg may

theorem turns (h : Puts T m x) (t : Turns x n) (k : High x n) : Puts T m n := by
  refine h.trans ⟨?_, k.jobs, fun a range out => ?_, fun idle => ?_, fun empty => ?_⟩
  · obtain ⟨y, tw, se, cl, hy, rfl⟩ := t.rest
    obtain ⟨_, _, _, _, _, _, _, _, _, _, rfl⟩ := hy.rest
    rfl
  · exact range.elim (fun low => t.reg low fun listed => out (.role listed)) (k.reg a)
  · have same : n.memst = x.memst := by
      obtain ⟨y, tw, se, cl, hy, rfl⟩ := t.rest
      obtain ⟨_, _, _, _, _, _, _, _, _, _, rfl⟩ := hy.rest
      rfl
    rw [same]
    exact ⟨idle, rfl⟩
  · rw [t.seats]
    exact empty

theorem memAlarm {f b} (h : Puts T m x) : Puts T m (x.memAlarm f b) := by
  have may : PutReg T Reg.memAlarm := .memory (by decide)
  unfold Mach.memAlarm Mach.alarmReg
  extract_lets old new m1
  have hm1 : Puts T m m1 := (h.setReg may).turns (.raise (.refl _)) (.raise (.refl _))
  exact .ite h (.ite hm1 (hm1.turns (.faultEvent (.refl m1)) (.faultEvent (.refl m1))))

/-! ### Memory writes -/

theorem setCont {a c} (h : Puts T m x) : Puts T m (x.setCont a c) := h.parts

theorem toGroup {line} (h : Puts T m x) : Puts T m (x.toGroup line) := by
  refine h.trans ?_
  unfold Mach.toGroup
  extract_lets m1 src
  have hm1 : Puts T x m1 := (refl x).parts
  split
  next waits =>
    refine ⟨rfl, .of_jobs rfl, fun _ _ _ => rfl, fun idle => ?_, id⟩
    unfold Mach.queues at waits
    rw [show m1.memst.training = none from idle] at waits
    exact absurd waits Bool.false_ne_true
  next => exact hm1

theorem mirDirty {line} (h : Puts T m x) : Puts T m (x.mirDirty line) := .ite h.parts h

theorem writeLine {line ws} (h : Puts T m x) : Puts T m (x.writeLine line ws) := by
  unfold Mach.writeLine
  extract_lets m1
  have hm1 : Puts T m m1 := h.foldl fun _ _ h => h.setCont
  exact .ite h ((ite hm1.parts hm1.toGroup).mirDirty)

theorem seat_evb (empty : ∀ y ∈ x.seats, y.2.evb = []) (q : Nat) : (x.seat q).evb = [] := by
  rcases mem_of_tabGet (fun _ => ({} : Seat)) x.seats q with absent | there
  · rw [Mach.seat, absent]
  · exact empty _ there

theorem setSeat {q s} (h : Puts T m x) (less : (x.seat q).evb = [] → s.evb = []) : Puts T m (x.setSeat q s) := by
  refine h.trans ⟨rfl, .of_jobs rfl, fun _ _ _ => rfl, fun t => ⟨t, rfl⟩, fun empty y listed => ?_⟩
  rcases mem_tabPut (show y ∈ tabPut (fun _ => ({} : Seat)) q s x.seats from listed) with same | old
  · rw [same]
    exact less (seat_evb empty q)
  · exact empty y old

theorem snoopLine {q line} (h : Puts T m x) : Puts T m (x.snoopLine q line) := by
  unfold Mach.snoopLine
  refine h.foldl fun y b hy => ?_
  extract_lets x1
  have hx1 : Puts T m x1 := by
    unfold x1
    split
    · exact hy.writeLine
    · exact hy
  refine .ite hy (.ite hx1 (hx1.setSeat fun empty => ?_))
  unfold Seat.dropLine
  rw [empty]
  rfl

theorem put {a c} (h : Puts T m x) : Puts T m (x.put a c) := h.snoopLine.setCont.toGroup.mirDirty

theorem poison {a} (h : Puts T m x) : Puts T m (x.poison a) := by
  unfold Mach.poison
  extract_lets m1 m2
  have hm1 : Puts T m m1 := (h.setCont.count (.memory (by decide))).setReg (.memory (by decide))
  have hm2 : Puts T m m2 := .ite (hm1.turns (.raise (.refl _)) (.raise (.refl _))) hm1.memAlarm
  exact .ite (memAlarm (hm2.turns (.moduleLost (.refl m2)) (.moduleLost (.refl m2)))) hm2

theorem engPut {a c} (h : Puts T m x) : Puts T m (x.engPut a c) := .ite h.snoopLine.poison h.put

theorem carWrite {k sr a v y} (h : Puts T m x) (done : x.carWrite k sr a v = .ok y) : Puts T m y := by
  unfold Mach.carWrite at done
  cases hp : x.carPhys k sr a true with
  | error e => rw [hp] at done; cases done
  | ok p => rw [hp] at done; exact Except.ok.inj done ▸ h.engPut

theorem markPut {sr a v} (h : Puts T m x) : Puts T m (x.markPut sr a v).2 := by
  unfold Mach.markPut
  split
  · exact h
  · exact h.put

theorem logEntry {sr t v} (h : Puts T m x) (named : T t) : Puts T m (x.logEntry sr t v).2 := by
  unfold Mach.logEntry
  split
  · exact h
  · split
    · exact h.setFld (.tenStat named)
    · extract_lets head w
      split
      next m1 put => exact h.markPut.becomes (congrArg Prod.snd put)
      next m1 put =>
        have hm1 : Puts T m m1 := h.markPut.becomes (congrArg Prod.snd put)
        exact (hm1.setReg (.tenHead named)).setFld (.tenStat named)

theorem markPage {sr t v} (h : Puts T m x) (named : T t) : Puts T m (x.markPage sr t v).2 := by
  unfold Mach.markPage
  extract_lets size a old
  split
  · exact h
  · split
    · exact .ite h (h.setFld (.tenStat named))
    · split
      · exact h
      · split
        · exact h
        · split
          next m1 put => exact h.markPut.becomes (congrArg Prod.snd put)
          next m1 put =>
            have hm1 : Puts T m m1 := h.markPut.becomes (congrArg Prod.snd put)
            exact hm1.logEntry named

theorem markAll {sr t as} (h : Puts T m x) (named : T t) : Puts T m (x.markAll sr t as).2 := by
  unfold Mach.markAll
  generalize (as.map fun a => a / 4096 % 2 ^ 28).eraseDups = pages
  suffices all : ∀ failed : Bool, Puts T m
      (pages.foldl (fun y v => (y.1 || (y.2.markPage sr t v).1, (y.2.markPage sr t v).2)) (failed, x)).2 from all _
  intro failed
  induction pages generalizing failed x with
  | nil => exact h
  | cons p pages ih => exact ih (h.markPage named) _

theorem carWrites {k sr l n} (h : Puts T m x) : Puts T m (Mach.carWrites k sr l n x).2.2 := by
  induction l generalizing n x with
  | nil => exact h
  | cons w l ih =>
    unfold Mach.carWrites
    split
    next done => exact ih (h.carWrite done)
    next => exact h

theorem jobWrites {t k sr l} (h : Puts T m x) (named : T t) : Puts T m (x.jobWrites t k sr l).2.2 := h.carWrites.markAll named

theorem jobPut {j l} (h : Puts T m x) (named : T j.ten) : Puts T m (x.jobPut j l).2.2 := by
  unfold Mach.jobPut
  split
  · exact h
  · exact h.jobWrites named

theorem writeStatus {j j2 j3} (h : Puts T m x) (named : T j.ten) : Puts T m (x.writeStatus j j2 j3) := h.jobPut named

end Puts

end Sys2Proof.Machine
end

section
/-! PROOFS. The end of a job, of a slip, and what waits and completions leave (R180 to R183, R193, R196 to R199). -/

namespace Sys2Proof.Machine

open Sys2Proof

/-- The registers that slips and the ends of jobs may change, CE_SLIPS apart. -/
inductive SlipReg : Nat → Prop
  | put {a : Nat} (may : PutReg (fun _ => True) a) : SlipReg a
  | carStat (c : Nat) : SlipReg (Reg.carStat c)
  | carHead (c : Nat) : SlipReg (Reg.carCqhead c)
  | carDone (c : Nat) : SlipReg (Reg.carDone c)
  | carDropped (c : Nat) : SlipReg (Reg.carDropped c)
  | busy (e : Nat) : SlipReg (Reg.ceBusy e)

theorem not_putReg {T : Nat → Prop} {a : Nat} (range : 0x100000 ≤ a) (memory : a < 0x260000 ∨ 0x2C0000 ≤ a) (tenant : a % 0x400 ≠ 0 ∧ a % 0x400 ≠ 9) :
    ¬ PutReg T a := fun may => by
  cases may with
  | role listed =>
    have low : ∀ b ∈ roleRegs, b < 0x100000 ∨ 0x260000 ≤ b ∧ b < 0x2C0000 := by decide
    have := low _ listed
    omega
  | memory block => omega
  | tenStat named => unfold Reg.tenStat at tenant; omega
  | tenHead named => unfold Reg.tenMplhead at tenant; omega

theorem not_slipReg {a : Nat} (range : 0x200000 ≤ a) (memory : a < 0x260000 ∨ 0x2C0000 ≤ a)
    (place : a % 64 = 4 ∨ a % 64 = 6) : ¬ SlipReg a := fun may => by
  cases may with
  | put may => exact not_putReg (by omega) memory (by omega) may
  | carStat c => unfold Reg.carStat at place; omega
  | carHead c => unfold Reg.carCqhead at place; omega
  | carDone c => unfold Reg.carDone at place; omega
  | carDropped c => unfold Reg.carDropped at place; omega
  | busy e => unfold Reg.ceBusy at place; omega

theorem not_slipReg_ceSlips (e : EngId) : ¬ SlipReg (Reg.ceSlips e.val) :=
  not_slipReg (by unfold Reg.ceSlips; omega) (.inl (by unfold Reg.ceSlips; omega)) (.inl (by unfold Reg.ceSlips; omega))

theorem ceSlips_lt (e : EngId) : Reg.ceSlips e.val < 0x320000 := by unfold Reg.ceSlips; omega

/-- `n` is `m` after acts of slips and jobs: registers of other blocks stand, and no eviction buffer and no write queue of a training
fills. -/
structure Clerks (m n : Mach) : Prop where
  reg : ∀ a, a < 0x320000 ∨ 0x350000 ≤ a → ¬ SlipReg a → n.reg a = m.reg a
  idle : m.memst.training = none → n.memst.training = none ∧ n.memst.writeQ = m.memst.writeQ
  buffers : (∀ y ∈ m.seats, y.2.evb = []) → ∀ y ∈ n.seats, y.2.evb = []

theorem PutReg.wider {T : Nat → Prop} {a : Nat} (h : PutReg T a) : PutReg (fun _ => True) a := by
  cases h with
  | role listed => exact .role listed
  | memory block => exact .memory block
  | tenStat _ => exact .tenStat trivial
  | tenHead _ => exact .tenHead trivial

theorem Puts.clerks {T : Nat → Prop} {m n : Mach} (h : Puts T m n) : Clerks m n :=
  ⟨fun a range out => h.reg a range fun may => out (.put may.wider), h.idle, h.buffers⟩

namespace Clerks

variable {m x n o : Mach}

theorem refl (m : Mach) : Clerks m m := (Puts.refl (T := fun _ => True) m).clerks

theorem trans (h : Clerks m n) (g : Clerks n o) : Clerks m o :=
  ⟨fun a low out => (g.reg a low out).trans (h.reg a low out),
    fun t => ⟨(g.idle (h.idle t).1).1, (g.idle (h.idle t).1).2.trans (h.idle t).2⟩, fun b => g.buffers (h.buffers b)⟩

theorem puts {T : Nat → Prop} (h : Clerks m x) (g : Puts T x n) : Clerks m n := h.trans g.clerks

/-- A change of parts that are neither registers, seats nor memory devices. -/
theorem parts {jobs order engines replies rawq uc free tpass cpass lanes xlanes} (h : Clerks m x) : Clerks m { x with
    jobs := jobs, order := order, engines := engines, replies := replies, rawq := rawq, uc := uc, free := free, tpass := tpass
    cpass := cpass, lanes := lanes, xlanes := xlanes } :=
  h.trans ⟨fun _ _ _ => rfl, fun t => ⟨t, rfl⟩, id⟩

theorem ite {p : Prop} [Decidable p] {a b : Mach} (ha : Clerks m a) (hb : Clerks m b) : Clerks m (if p then a else b) := by
  split
  · exact ha
  · exact hb

theorem setReg {a v} (h : Clerks m x) (may : SlipReg a) : Clerks m (x.setReg a v) :=
  h.trans ⟨fun b _ out => reg_setReg_of_ne x v fun e => out (e ▸ may), fun t => by rw [Mach.setReg_memst]; exact ⟨t, rfl⟩,
    fun b => by rw [Mach.setReg_seats]; exact b⟩

theorem setFld {a f v} (h : Clerks m x) (may : SlipReg a) : Clerks m (x.setFld a f v) := h.setReg may

theorem count {a k} (h : Clerks m x) (may : SlipReg a) : Clerks m (x.count a k) := h.setReg may

theorem raise {i} (h : Clerks m x) : Clerks m (x.raise i) := h.puts ((Puts.refl (T := fun _ => True) x).turns (.raise (.refl x)) (.raise (.refl x)))

theorem setJob {c j} (h : Clerks m x) : Clerks m (x.setJob c j) := h.parts

theorem setEngine {e y} (h : Clerks m x) : Clerks m (x.setEngine e y) := h.parts

theorem makeReady {c} (h : Clerks m x) : Clerks m (x.makeReady c) := by
  unfold Mach.makeReady
  split
  · exact h
  · exact h.parts

theorem wakeJob {c code detail count} (h : Clerks m x) : Clerks m (x.wakeJob c code detail count) := by
  unfold Mach.wakeJob
  split
  · exact h
  · exact .ite h.setJob.makeReady h

theorem freeJob {c} (h : Clerks m x) : Clerks m (x.freeJob c) := h.parts (jobs := (x.delJob c).jobs)

theorem leaveEngine {e j} (h : Clerks m x) : Clerks m (x.leaveEngine e j) := by
  unfold Mach.leaveEngine
  exact parts ((h.parts (free := x.free + 1)).setEngine.count (.busy e))

theorem offEngine {c j} (h : Clerks m x) : Clerks m (x.offEngine c j) := by
  unfold Mach.offEngine
  split
  · exact h.leaveEngine
  · exact h

theorem seqRun {cls i} (h : Clerks m x) : Clerks m (x.seqRun cls i) := h.parts

theorem pumpCq {c k} (h : Clerks m x) : Clerks m (Mach.pumpCq c k x) := by
  induction k generalizing x with
  | zero => exact h
  | succ k ih =>
    unfold Mach.pumpCq
    split
    · exact h
    · split
      · exact h
      next y j _ =>
        extract_lets head a
        split
        next m1 put =>
          have h1 : Clerks m m1 := h.puts (((Puts.refl x).jobPut (T := fun _ => True) trivial).becomes (congrArg (fun r => r.2.2) put))
          exact h1.setFld (.carStat c)
        next m1 put =>
          extract_lets m2 m3
          have h1 : Clerks m m1 := h.puts (((Puts.refl x).jobPut (T := fun _ => True) trivial).becomes (congrArg (fun r => r.2.2) put))
          have h2 : Clerks m m2 := ((h1.setReg (.carHead c)).setFld (.carStat c)).count (.carDone c)
          have h3 : Clerks m m3 := .ite h2.raise h2
          exact ih (.ite h3.freeJob h3.wakeJob)

theorem deliver {c} (h : Clerks m x) : Clerks m (x.deliver c) := h.pumpCq

theorem writeStatus {j j2 j3} (h : Clerks m x) : Clerks m (x.writeStatus j j2 j3) := h.puts ((Puts.refl x).writeStatus (T := fun _ => True) trivial)

theorem endJob {c code detail count a} (h : Clerks m x) : Clerks m (x.endJob c code detail count a) := by
  unfold Mach.endJob
  split
  · exact h
  · extract_lets j2 j3 m1 m2
    have h1 : Clerks m m1 := h.offEngine.writeStatus
    have h2 : Clerks m m2 := h1.setJob
    exact deliver h2.parts

theorem dropJob {c} (h : Clerks m x) : Clerks m (x.dropJob c) := by
  unfold Mach.dropJob
  split
  · exact h
  · exact h.offEngine.freeJob.count (.carDropped _)

end Clerks

/-! ### The job through its own end -/

variable {m n x : Mach}

theorem engines_setReg (m : Mach) (a : Nat) (v : Word) (e : Nat) : (m.setReg a v).engine e = m.engine e := by
  rw [Mach.engine, Mach.setReg_engines, Mach.engine]

theorem job_setReg (m : Mach) (a : Nat) (v : Word) (c : Nat) : (m.setReg a v).job c = m.job c := by
  rw [Mach.job, Mach.setReg_jobs, Mach.job]

theorem engine_raise (m : Mach) (i e : Nat) : (m.raise i).engine e = m.engine e := by
  unfold Mach.raise
  split
  · exact engines_setReg _ _ _ _
  · rfl

theorem job_raise (m : Mach) (i c : Nat) : (m.raise i).job c = m.job c := by
  unfold Mach.raise
  split
  · exact job_setReg _ _ _ _
  · rfl

theorem Puts.engine {T : Nat → Prop} (h : Puts T m n) (e : Nat) : n.engine e = m.engine e := by rw [Mach.engine, h.engines, Mach.engine]

/-- The completion entry of a job that has ended is delivered or held. -/
def Ended (o : Option Job) (j2 j3 : Word) : Prop := o = none ∨ ∃ k, o = some k ∧ k.st = .held ∧ k.j2 = j2 ∧ k.j3 = j3

theorem Ended.kept {c : Nat} {j2 j3 : Word} (h : Ended (m.job c) j2 j3) (kept : JobsKept m n) : Ended (n.job c) j2 j3 := by
  rcases h with free | ⟨k, there, held, e2, e3⟩
  · exact .inl (kept.none c free)
  · obtain ⟨p, hp⟩ := kept.job c k there (by rw [held]; decide)
    exact .inr ⟨_, hp, held, e2, e3⟩

theorem pumpCq_leaves (c k : Nat) (m : Mach) : (∀ e, (Mach.pumpCq c k m).engine e = m.engine e) ∧
    ∀ y j2 j3, Ended (m.job y) j2 j3 → Ended ((Mach.pumpCq c k m).job y) j2 j3 := by
  induction k generalizing m with
  | zero => exact ⟨fun _ => rfl, fun _ _ _ => id⟩
  | succ k ih =>
    unfold Mach.pumpCq
    split
    · exact ⟨fun _ => rfl, fun _ _ _ => id⟩
    · split
      · exact ⟨fun _ => rfl, fun _ _ _ => id⟩
      next y j _ =>
        extract_lets head a
        split
        next m1 put =>
          have h1 : Puts (fun _ => True) m m1 := ((Puts.refl m).jobPut trivial).becomes (congrArg (fun r => r.2.2) put)
          exact ⟨fun e => (engines_setReg _ _ _ _).trans (h1.engine e), fun z j2 j3 h =>
            ((h.kept h1.jobs).kept (.of_jobs (Mach.setReg_jobs _ _ _)))⟩
        next m1 put =>
          extract_lets m2 m3
          have h1 : Puts (fun _ => True) m m1 := ((Puts.refl m).jobPut trivial).becomes (congrArg (fun r => r.2.2) put)
          have e3 : ∀ e, m3.engine e = m.engine e := fun e => by
            refine Eq.trans ?_ (h1.engine e)
            have e2 : m2.engine e = m1.engine e :=
              (engines_setReg _ _ _ _).trans ((engines_setReg _ _ _ _).trans (engines_setReg _ _ _ _))
            unfold m3
            split
            · exact (engine_raise _ _ _).trans e2
            · exact e2
          have j3 : JobsKept m m3 := by
            have j2 : JobsKept m1 m2 := ((JobsKept.of_jobs (Mach.setReg_jobs _ _ _)).trans (.of_jobs (Mach.setReg_jobs _ _ _))).trans
              (.of_jobs (Mach.setReg_jobs _ _ _))
            refine h1.jobs.trans (j2.trans ?_)
            unfold m3
            split
            · exact (High.raise (.refl m2)).jobs
            · exact .refl m2
          obtain ⟨engines, jobs⟩ := ih (if j.st = .held then m3.freeJob y else m3.wakeJob y 0 0)
          refine ⟨fun e => (engines e).trans (Eq.trans ?_ (e3 e)), fun z r2 r3 h => jobs z r2 r3 ?_⟩
          · split
            · rfl
            · unfold Mach.wakeJob
              split
              · rfl
              · split
                · rw [Mach.engine, engines_makeReady]
                  rfl
                · rfl
          · have there : Ended (m3.job z) r2 r3 := h.kept j3
            split
            · have free : (m3.freeJob y).job z = if z = y then none else m3.job z := job_delJob m3 y z
              rw [free]
              split
              · exact .inl rfl
              · exact there
            · exact there.kept (.wakeJob (.refl m3))

/-- A job that has ended with a status, held for its completion. -/
def Job.ended (j : Job) (j2 j3 : Word) (ord : Nat) : Job :=
  { j with st := .held, wait := .none, deadline := none, woken := false, j2 := j2, j3 := j3, ord := ord }

/-- A job that runs on engine `e` ends: it leaves the engine, and its status stands for the completion. -/
theorem endJob_ends {c e : Nat} {j : Job} (job : m.job c = some j) (only : m.engineOf c = some e) (code detail count a : Nat) :
    ((m.endJob c code detail count a).engine e).job = none ∧
      Ended ((m.endJob c code detail count a).job c) (j2Word code a) (j3Word detail count) := by
  unfold Mach.endJob
  rw [job]
  dsimp only
  have off : m.offEngine c j = m.leaveEngine e j := by
    unfold Mach.offEngine
    rw [only]
  rw [off]
  obtain ⟨idle, -⟩ := leaveEngine_leaves m e j
  have h1 : Puts (· = j.ten) (m.leaveEngine e j) ((m.leaveEngine e j).writeStatus j (j2Word code a) (j3Word detail count)) := (Puts.refl _).writeStatus rfl
  generalize (m.leaveEngine e j).writeStatus j (j2Word code a) (j3Word detail count) = m1 at h1
  let x : Mach := { m1.setJob c (j.ended (j2Word code a) (j3Word detail count) m1.order) with order := m1.order + 1 }
  change ((x.deliver j.carrel).engine e).job = none ∧ Ended ((x.deliver j.carrel).job c) _ _
  obtain ⟨engines, jobs⟩ := pumpCq_leaves j.carrel (x.jobs.length + 1) x
  have job : x.job c = some (j.ended (j2Word code a) (j3Word detail count) m1.order) := (job_setJob m1 c c _).trans (if_pos rfl)
  have engine : x.engine e = m1.engine e := rfl
  exact ⟨(congrArg Engine.job ((engines e).trans (engine.trans (h1.engine e)))).trans idle,
    jobs c _ _ (.inr ⟨_, job, rfl, rfl, rfl⟩)⟩

/-- A job dropped that runs on engine `e`. -/
theorem dropJob_drops {c e : Nat} {j : Job} (job : m.job c = some j) (only : m.engineOf c = some e) :
    ((m.dropJob c).engine e).job = none ∧ (m.dropJob c).job c = none ∧ (m.dropJob c).mem = m.mem ∧
      (m.dropJob c).reg (Reg.carDropped j.carrel) = w48 ((m.reg (Reg.carDropped j.carrel)).toNat + 1) := by
  have eq : m.dropJob c = ((m.leaveEngine e j).freeJob c).count (Reg.carDropped j.carrel) := by
    unfold Mach.dropJob
    rw [job]
    dsimp only
    unfold Mach.offEngine
    rw [only]
  obtain ⟨idle, -⟩ := leaveEngine_leaves m e j
  have mem : (m.leaveEngine e j).mem = m.mem := Mach.setReg_mem _ _ _
  have reg : (m.leaveEngine e j).reg (Reg.carDropped j.carrel) = m.reg (Reg.carDropped j.carrel) :=
    reg_setReg_of_ne _ _ (by unfold Reg.ceBusy Reg.carDropped; omega)
  rw [eq]
  generalize m.leaveEngine e j = x at idle mem reg
  refine ⟨?_, ?_, ?_, ?_⟩
  · rw [Mach.count, engines_setReg]
    exact idle
  · rw [Mach.count, job_setReg]
    exact (job_delJob x c c).trans (if_pos rfl)
  · exact (Mach.setReg_mem _ _ _).trans mem
  · have same : (x.freeJob c).reg (Reg.carDropped j.carrel) = x.reg (Reg.carDropped j.carrel) := rfl
    rw [reg_count_self, same, reg]

/-! ### The end of a slip (R183) -/

/-- What a slip that ends and lets its job go on leaves. -/
structure SlipDone (m n : Mach) (e c : Nat) (j : Job) (next : Nat) (err : Bool) : Prop where
  job : ∃ p, n.job c = some { j.after next err with posted := p }
  engine : (n.engine e).job = some c
  slips : n.reg (Reg.ceSlips e) = w48 ((m.reg (Reg.ceSlips e)).toNat + 1)
  reg : ∀ a, a < 0x320000 ∨ 0x350000 ≤ a → ¬ PutReg (· = j.ten) a → a ≠ Reg.ceSlips e → n.reg a = m.reg a
  idle : m.memst.training = none → n.memst.training = none ∧ n.memst.writeQ = m.memst.writeQ
  buffers : (∀ y ∈ m.seats, y.2.evb = []) → ∀ y ∈ n.seats, y.2.evb = []

/-- The slip of a running job ends: OK, or in an error that is skipped. -/
theorem endSlip_goes {e : EngId} {c : Nat} {j : Job} {w : Word} {next count : Nat} {keep : Bool} {r : SlipErr}
    (job : m.job c = some j) (engine : (m.engine e.val).job = some c) (running : j.st = .running)
    (skips : r.1 = 0 ∨ (nbit w.toNat 39 = true ∧ skippable r.1 = true)) :
    SlipDone m (m.endSlip e.val c w next keep r count) e.val c j next (if r.1 ≠ 0 then true else if keep then j.err else false) ∧
      (nbit w.toNat 38 = false → (m.endSlip e.val c w next keep r count).mem = m.mem) := by
  have goes : (r.1 ≠ 0 && !(nbit w.toNat 39 && skippable r.1)) = false := by
    rcases skips with ok | ⟨skip, may⟩
    · simp [ok]
    · simp [skip, may]
  unfold Mach.endSlip
  rw [job]
  dsimp only
  rw [if_neg (by simp [engine, running]), goes, if_neg Bool.false_ne_true]
  generalize hm1 : (if nbit w.toNat 38 then m.writeStatus j (j2Word r.1 j.slip) (j3Word r.2 count) else m) = m1
  have h1 : Puts (· = j.ten) m m1 := by
    rw [← hm1]
    exact .ite ((Puts.refl m).writeStatus rfl) (.refl m)
  refine ⟨⟨⟨j.posted, ?_⟩, ?_, ?_, fun a range out other => ?_, fun t => ?_, fun b => ?_⟩, fun plain => ?_⟩
  · rw [Mach.count, job_setReg]
    exact (job_setJob m1 c c _).trans (if_pos rfl)
  · rw [Mach.count, engines_setReg]
    exact (congrArg Engine.job (h1.engine e.val)).trans engine
  · rw [reg_count_self]
    exact congrArg (fun v : Word => w48 (v.toNat + 1)) (h1.clerks.reg _ (.inl (ceSlips_lt e)) (not_slipReg_ceSlips e))
  · rw [reg_count_of_ne _ _ (Ne.symm other)]
    exact h1.reg a range out
  · rw [Mach.count, Mach.setReg_memst]
    exact h1.idle t
  · rw [Mach.count, Mach.setReg_seats]
    exact h1.buffers b
  · rw [Mach.count, Mach.setReg_mem, ← hm1, plain]
    rfl

end Sys2Proof.Machine
end

section
/-! PROOFS. How a slip is met, and the slips that move nothing (R182 to R186, R194, R196). -/

namespace Sys2Proof.Machine

open Sys2Proof

variable {m n : Mach} {e : EngId} {x : Nat} {j : Job} {w : Word} {op : Nat} {l : List Word}

/-! ### A slip met -/

/-- Nothing waits in an eviction buffer or a write queue: what a steady state keeps through a slip. -/
structure Tame (m : Mach) : Prop where
  idle : m.memst.training = none
  queue : m.memst.writeQ.length ≤ 2048
  buffers : ∀ y ∈ m.seats, y.2.evb = []

theorem Steady.tame (h : Steady m) : Tame m := ⟨h.idle.1, h.idle.2, h.buffers⟩

theorem Clerks.tame (h : Clerks m n) (t : Tame m) : Tame n :=
  ⟨(h.idle t.idle).1, by rw [(h.idle t.idle).2]; exact t.queue, h.buffers t.buffers⟩

theorem SlipDone.tame {next : Nat} {err : Bool} (h : SlipDone m n e.val x j next err) (t : Tame m) : Tame n :=
  ⟨(h.idle t.idle).1, by rw [(h.idle t.idle).2]; exact t.queue, h.buffers t.buffers⟩

theorem Tame.met (h : Tame m) (c : Nat) (sr : Bool) (a k : Nat) : m.met c sr a k = m :=
  if_pos (List.all_eq_true.mpr fun y listed => by rw [h.buffers y listed]; rfl)

theorem Tame.stalled (h : Tame n) (mirror : m.mirLate = false) : m.stalled n = n :=
  if_neg (by simp only [mirror, Bool.false_and, Bool.false_or, decide_eq_true_eq]; have := h.queue; omega)

/-- An engine meets a slip that it runs. -/
theorem slipRun_of (at_ : AtSlip m e.val x j w op l) {is : Word → Bool} (runs : is w = true) (f : Mach → Nat → Job → Word → Mach)
    (tame : Tame (f m x j w)) : m.slipRun e.val is f = f m x j w := by
  obtain ⟨up, engine, -, job, running, young, -, fetch, -, -, -, steady⟩ := at_
  unfold Mach.slipRun
  rw [engine]
  dsimp only
  rw [job]
  dsimp only
  rw [if_neg (by simp [up, running]), young, if_neg Bool.false_ne_true, fetch]
  dsimp only
  rw [if_pos runs, steady.tame.met]
  exact tame.stalled steady.mirror

theorem slipOf_of (at_ : AtSlip m e.val x j w op l) (f : Mach → Nat → Job → Word → Mach) (tame : Tame (f m x j w)) :
    m.slipOf e.val op f = f m x j w := slipRun_of at_ (decide_eq_true at_.code) f tame

theorem slipDo_ok {k : Nat} {act : Except SlipErr Mach} (h : act = .ok n) (tame : Tame n) : m.slipDo e.val x j w k act = n := by
  subst h
  unfold Mach.slipDo
  exact tame.met _ _ _ _

theorem slipDo_error {k : Nat} {act : Except SlipErr Mach} {r : SlipErr} (h : act = .error r) (tame : Tame (m.slipEnd e.val x j w k r 0)) :
    m.slipDo e.val x j w k act = m.slipEnd e.val x j w k r 0 := by
  subst h
  unfold Mach.slipDo
  exact tame.met _ _ _ _

/-! ### The checks of a slip word -/

theorem and_high {a k : Nat} (c : Nat) (low : a < 2 ^ k) : a &&& c * 2 ^ k = 0 := by
  refine Nat.eq_of_testBit_eq fun i => ?_
  rw [Nat.testBit_and, Nat.zero_testBit, Nat.testBit_mul_two_pow]
  by_cases high : k ≤ i
  · rw [Nat.testBit_lt_two_pow (Nat.lt_of_lt_of_le low (Nat.pow_le_pow_right (by decide) high)), Bool.false_and]
  · rw [decide_eq_false high, Bool.false_and, Bool.and_false]

theorem slipCheck_ok {fl o : Nat} (flags : slipFlags w &&& (63 - fl) = 0) (operand : slipOperand w &&& (2 ^ 32 - 1 - o) = 0) :
    slipCheck w fl o = .ok () := by
  rw [slipCheck, if_neg (not_not.mpr flags), if_neg (not_not.mpr operand)]

theorem slipFlags_lt (w : Word) : slipFlags w < 64 := by
  unfold slipFlags nbits
  exact Nat.mod_lt _ (by decide)

theorem flags_none (none : slipFlags w = 0) (fl : Nat) : slipFlags w &&& (63 - fl) = 0 := by rw [none, Nat.zero_and]

theorem flags_upper (upper : slipFlags w % 16 = 0) : slipFlags w &&& (63 - 48) = 0 :=
  (Nat.and_two_pow_sub_one_eq_mod _ 4).trans upper

theorem operand_none (none : slipOperand w = 0) (o : Nat) : slipOperand w &&& (2 ^ 32 - 1 - o) = 0 := by rw [none, Nat.zero_and]

theorem operand_any : slipOperand w &&& (2 ^ 32 - 1 - (2 ^ 32 - 1)) = 0 := by rw [Nat.sub_self, Nat.and_zero]

/-! ### Slips that end or go on -/

/-- What the end of a job with a status leaves. -/
structure JobEnded (m n : Mach) (e x : Nat) (j2 j3 : Word) : Prop where
  engine : (n.engine e).job = none
  job : Ended (n.job x) j2 j3
  clerks : Clerks m n

theorem AtSlip.ends (at_ : AtSlip m e.val x j w op l) (code detail count a : Nat) :
    JobEnded m (m.endJob x code detail count a) e.val x (j2Word code a) (j3Word detail count) := by
  obtain ⟨engine, job⟩ := endJob_ends at_.job at_.only code detail count a
  exact ⟨engine, job, (Clerks.refl m).endJob⟩

theorem JobEnded.endsWith {t : State} {j2 j3 : Word} (h : JobEnded m t.toMach e.val x j2 j3) : EndsWith t e.val x j2 j3 := ⟨h.engine, h.job⟩

theorem SlipDone.goesOn {t : State} {next : Nat} {err : Bool} (h : SlipDone m t.toMach e.val x j next err) :
    GoesOn t e.val x j next err := ⟨h.job, h.engine⟩

/-- A slip ends OK, or in an error that is skipped. -/
theorem slipEnd_goes {k count : Nat} {r : SlipErr} (job : m.job x = some j) (engine : (m.engine e.val).job = some x) (running : j.st = .running)
    (skips : r.1 = 0 ∨ (nbit w.toNat 39 = true ∧ skippable r.1 = true)) :
    SlipDone m (m.slipEnd e.val x j w k r count) e.val x j (j.slip + 1 + k) (r.1 ≠ 0) ∧
      (nbit w.toNat 38 = false → (m.slipEnd e.val x j w k r count).mem = m.mem) := by
  obtain ⟨⟨job', engine', slips, reg, idle, buffers⟩, mem⟩ :=
    endSlip_goes (w := w) (next := j.slip + 1 + k) (count := count) (keep := false) job engine running skips
  have err : (if r.1 ≠ 0 then true else if false = true then j.err else false) = decide (r.1 ≠ 0) := by
    by_cases ok : r.1 = 0
    · simp [ok]
    · simp [ok]
  rw [err] at job'
  exact ⟨⟨job', engine', slips, reg, idle, buffers⟩, mem⟩

/-- A slip ends in an error that is not skipped: the job ends. -/
theorem slipEnd_ends {k count : Nat} {r : SlipErr} (job : m.job x = some j) (engine : (m.engine e.val).job = some x)
    (only : m.engineOf x = some e.val) (running : j.st = .running) (bad : r.1 ≠ 0) (stops : (nbit w.toNat 39 && skippable r.1) = false) :
    JobEnded m (m.slipEnd e.val x j w k r count) e.val x (j2Word r.1 j.slip) (j3Word r.2 count) := by
  have eq : m.endSlip e.val x w (j.slip + 1 + k) false r count = m.endJob x r.1 r.2 count j.slip := by
    unfold Mach.endSlip
    rw [job]
    dsimp only
    rw [if_neg (by simp [engine, running]), if_pos (by simp [bad, stops])]
  obtain ⟨idle, ended⟩ := endJob_ends job only r.1 r.2 count j.slip
  have clerks : Clerks m (m.endJob x r.1 r.2 count j.slip) := (Clerks.refl m).endJob
  rw [Mach.slipEnd, eq]
  generalize m.endJob x r.1 r.2 count j.slip = n at idle ended clerks
  exact ⟨idle, ended, clerks.seqRun⟩

/-! ### Slips that move nothing -/

section

variable (at_ : AtSlip m e.val x j w op l)
include at_

theorem AtSlip.tame : Tame m := at_.steady.tame

/-- A slip whose commands check out and that ends with the job going on. -/
theorem AtSlip.done {k : Word → Nat} {act : Mach → Nat → Job → Word → Except SlipErr Mach} (h : act m x j w = .ok n) (tame : Tame n) :
    m.slipOf e.val op (fun m x j w => m.slipDo e.val x j w (k w) (act m x j w)) = n := by
  have eq : m.slipDo e.val x j w (k w) (act m x j w) = n := slipDo_ok h tame
  exact (slipOf_of at_ (fun m x j w => m.slipDo e.val x j w (k w) (act m x j w)) (by rw [eq]; exact tame)).trans eq

/-- A slip whose checks fail in an error that is not skipped. -/
theorem AtSlip.fails {k : Word → Nat} {act : Mach → Nat → Job → Word → Except SlipErr Mach} {r : SlipErr} (h : act m x j w = .error r)
    (bad : r.1 ≠ 0) (stops : (nbit w.toNat 39 && skippable r.1) = false) :
    JobEnded m (m.slipOf e.val op (fun m x j w => m.slipDo e.val x j w (k w) (act m x j w))) e.val x (j2Word r.1 j.slip) (j3Word r.2 0) := by
  have ends := slipEnd_ends (k := k w) (count := 0) at_.job at_.engine at_.only at_.running bad stops
  have eq : m.slipDo e.val x j w (k w) (act m x j w) = m.slipEnd e.val x j w (k w) r 0 := slipDo_error h (ends.clerks.tame at_.tame)
  rw [slipOf_of at_ (fun m x j w => m.slipDo e.val x j w (k w) (act m x j w)) (by rw [eq]; exact ends.clerks.tame at_.tame), eq]
  exact ends

end

section

variable (at_ : AtSlip m e.val x j w op l)
include at_

theorem AtSlip.goes (k : Nat) : SlipDone m (m.slipEnd e.val x j w k (0, 0) 0) e.val x j (j.slip + 1 + k) false ∧
    (nbit w.toNat 38 = false → (m.slipEnd e.val x j w k (0, 0) 0).mem = m.mem) :=
  slipEnd_goes (r := (0, 0)) at_.job at_.engine at_.running (.inl rfl)

theorem AtSlip.branches (next : Nat) : SlipDone m (m.endSlip e.val x w next true (0, 0) 0) e.val x j next j.err :=
  (endSlip_goes (r := (0, 0)) (keep := true) at_.job at_.engine at_.running (.inl rfl)).1

end

theorem nop_goes (at_ : AtSlip m e.val x j w 0 []) (flags : slipFlags w = 0) (operand : slipOperand w = 0) :
    m.slipOf e.val 0 (fun m x j w => m.slipDo e.val x j w 0 do
        slipCheck w 0 0
        .ok (m.slipEnd e.val x j w 0 (0, 0) 0)) = m.slipEnd e.val x j w 0 (0, 0) 0 := by
  refine at_.done (k := fun _ => 0) ?_ ((at_.goes 0).1.tame at_.tame)
  rw [slipCheck_ok (flags_none flags 0) (operand_none operand 0)]
  rfl

theorem jump_goes (at_ : AtSlip m e.val x j w 0xD []) (flags : slipFlags w = 0) :
    m.slipOf e.val 0xD (fun m x j w => m.slipJump e.val x j w) =
      m.endSlip e.val x w (slipTarget j (sgn 32 (slipOperand w))) true (0, 0) 0 := by
  refine at_.done (k := fun _ => 0) ?_ ((at_.branches _).tame at_.tame)
  rw [slipCheck_ok (flags_none flags 0) operand_any]
  rfl

theorem jumpif_goes (at_ : AtSlip m e.val x j w 0xE []) (flags : slipFlags w % 16 = 0) (operand : slipOperand w < 2 ^ 24) :
    m.slipOf e.val 0xE (fun m x j w => m.slipJumpif e.val x j w) =
      m.endSlip e.val x w (if jumpCond j (slipFlags w / 16) then slipTarget j (sgn 24 (slipOperand w)) else j.slip + 1) true (0, 0) 0 := by
  have mode : nbits w.toNat 37 36 = slipFlags w / 16 := by
    unfold slipFlags nbits
    omega
  rw [← mode]
  refine at_.done (k := fun _ => 0) ?_ ((at_.branches _).tame at_.tame)
  rw [slipCheck_ok (flags_upper flags) (and_high 255 operand)]
  rfl

theorem job_setCc (there : m.job x = some j) (b : Bool) : m.setCc x b = m.setJob x { j with cc := b } := by
  unfold Mach.setCc
  rw [there]

theorem test_goes {a : Nat} {v : Word} {snap : Option Mach} (at_ : AtSlip m e.val x j w 0xC l) (three : l.length = 3)
    (flags : slipFlags w = 0) (operand : slipOperand w < 0x40000) (still : slipOperand w % 65536 = 0)
    (addr : slipAddr true (l.getD 0 0) = .ok (0, a)) (read : m.carRead j.carrel j.sr a = .ok v) :
    let b := testRel (slipOperand w / 65536) (v &&& l.getD 1 0).toNat (l.getD 2 0).toNat
    let n := (m.setJob x { j with cc := b }).endSlip e.val x w (j.slip + 4) true (0, 0) 0
    m.slipOf e.val 0xC (fun m x j w => m.slipTest snap e.val x j w) = n ∧ SlipDone m n e.val x { j with cc := b } (j.slip + 4) j.err := by
  intro b n
  have done : SlipDone (m.setJob x { j with cc := b }) n e.val x { j with cc := b } (j.slip + 4) j.err :=
    (endSlip_goes (j := { j with cc := b }) (r := (0, 0)) (keep := true) ((job_setJob m x x _).trans (if_pos rfl)) at_.engine at_.running
      (.inl rfl)).1
  have done' : SlipDone m n e.val x { j with cc := b } (j.slip + 4) j.err := ⟨done.job, done.engine, done.slips, done.reg, done.idle, done.buffers⟩
  refine ⟨at_.done (k := fun _ => 3) ?_ (done'.tame at_.tame), done'⟩
  have rel : nbits w.toNat 19 16 = slipOperand w / 65536 := by
    unfold slipOperand nbits at *
    omega
  have words := at_.words
  rw [three] at words
  have reads : m.slipRead snap j 0 a = .ok (v, m) := by
    unfold Mach.slipRead
    rw [if_pos rfl, read]
    exact congrArg (fun y => Except.ok (v, y)) (at_.tame.met _ _ _ _)
  have unmoved : w48 (v.toNat + unsgn 48 (sgn 16 0)) = v := BitVec.ofNat_toNat 48 v |>.trans (BitVec.setWidth_eq v)
  have few : slipOperand w / 65536 ≤ 3 := by omega
  rw [slipCheck_ok (flags_none flags 0) (and_high (k := 20) 0xFFF (by omega))]
  simp only [bind, Except.bind, rel, slipFail, decide_eq_false (Nat.not_lt.mpr few), Bool.false_eq_true, if_false, words, addr, reads, still,
    if_true, unmoved, job_setCc at_.job, n, b]

theorem stop_ends (at_ : AtSlip m e.val x j w 0x13 []) (flags : slipFlags w = 0) :
    let n := m.slipOf e.val 0x13 (fun m x j w => m.slipStop e.val x j w)
    JobEnded m (m.endJob x 0 0 (slipOperand w) j.slip) e.val x (j2Word 0 j.slip) (j3Word 0 (slipOperand w)) ∧
      n = (m.endJob x 0 0 (slipOperand w) j.slip).count (Reg.ceSlips e.val) := by
  intro n
  have ends := at_.ends 0 0 (slipOperand w) j.slip
  refine ⟨ends, at_.done (k := fun _ => 0) ?_ ?_⟩
  · rw [slipCheck_ok (flags_none flags 0) operand_any]
    rfl
  · have tame := ends.clerks.tame at_.tame
    exact ⟨by rw [Mach.count, Mach.setReg_memst]; exact tame.idle, by rw [Mach.count, Mach.setReg_memst]; exact tame.queue,
      by rw [Mach.count, Mach.setReg_seats]; exact tame.buffers⟩

/-! ### Slips of an old generation, and slip words that cannot be fetched -/

/-- The commands of slips, by the engine's meeting of the slip. -/
theorem slipCommands_run {s : State} {c : Instr} (listed : c ∈ slipCommands e) :
    ∃ is f, exec c s = s.lift fun m => m.slipRun e.val is f := by
  simp only [slipCommands, List.mem_cons, List.not_mem_nil, or_false] at listed
  rcases listed with rfl | rfl | rfl | rfl | rfl | rfl | rfl | rfl | rfl | rfl | rfl | rfl | rfl | rfl | rfl | rfl | rfl | rfl | rfl | rfl |
    rfl | rfl
  all_goals exact ⟨_, _, rfl⟩

section

variable (up : m.up = true) (engine : (m.engine e.val).job = some x) (job : m.job x = some j) (running : j.st = .running)
include up engine job running

theorem slipRun_stale (old : m.stale j = true) (is : Word → Bool) (f : Mach → Nat → Job → Word → Mach) :
    m.slipRun e.val is f = m.dropJob x := by
  unfold Mach.slipRun
  rw [engine]
  dsimp only
  rw [job]
  dsimp only
  rw [if_neg (by simp [up, running]), if_pos old]

theorem slipRun_lost {r : SlipErr} (young : m.stale j = false) (lost : m.carRead j.carrel j.sr j.slip = .error r) (is : Word → Bool)
    (f : Mach → Nat → Job → Word → Mach) : m.slipRun e.val is f = m.endJob x r.1 r.2 0 j.slip := by
  unfold Mach.slipRun
  rw [engine]
  dsimp only
  rw [job]
  dsimp only
  rw [if_neg (by simp [up, running]), young, if_neg Bool.false_ne_true, lost]

end

theorem JobEnded.counted {j2 j3 : Word} (h : JobEnded m n e.val x j2 j3) {t : State} (done : t.toMach = n.count (Reg.ceSlips e.val)) :
    EndsWith t e.val x j2 j3 ∧ t.toMach.reg (Reg.ceSlips e.val) = w48 ((m.reg (Reg.ceSlips e.val)).toNat + 1) := by
  refine ⟨⟨?_, ?_⟩, ?_⟩
  · rw [done, Mach.count, engines_setReg]
    exact h.engine
  · rw [done, Mach.count, job_setReg]
    exact h.job
  · rw [done, reg_count_self, h.clerks.reg _ (.inl (ceSlips_lt e)) (not_slipReg_ceSlips e)]

/-- Settles O45: each slip by what it makes of the job that stands before it. -/
theorem slipControl : Obligations.SlipControl := by
  intro s e x j w l m slips
  refine ⟨fun at_ => ⟨fun flags operand => ?_, fun flags => ?_⟩, fun at_ three flags operand still a v addr read => ?_, fun at_ flags => ?_,
    fun at_ flags operand => ?_, fun at_ flags => ?_, fun high at_ => ?_, fun up engine only job running _ _ c listed => ?_⟩
  · obtain ⟨done, mem⟩ := at_.goes 0
    have run := nop_goes at_ flags operand
    generalize m.slipEnd e.val x j w 0 (0, 0) 0 = n at done mem run
    exact ⟨_, (lift_next run : execSlipNop e s = _), done.goesOn, done.slips, mem⟩
  · have fails : slipCheck w 0 0 = .error (2, 1) := if_pos (by
      have := slipFlags_lt w
      rw [show 63 - 0 = 2 ^ 6 - 1 from rfl, Nat.and_two_pow_sub_one_eq_mod]
      omega)
    have ends := at_.fails (k := fun _ => 0) (act := fun m x j w => do
      slipCheck w 0 0
      .ok (m.slipEnd e.val x j w 0 (0, 0) 0)) (r := (2, 1)) (by rw [fails]; rfl) (by decide) (by rw [Bool.and_comm]; rfl)
    generalize run : m.slipOf e.val 0 _ = n at ends
    exact ⟨_, (lift_next run : execSlipNop e s = _), ends.endsWith⟩
  · obtain ⟨run, done⟩ := test_goes (snap := s.snap) at_ three flags operand still addr read
    generalize Mach.endSlip _ e.val x w (j.slip + 4) true (0, 0) 0 = n at run done
    exact ⟨_, (lift_next run : execSlipTest e s = _), done.goesOn⟩
  · have run := jump_goes at_ flags
    have done := at_.branches (slipTarget j (sgn 32 (slipOperand w)))
    generalize m.endSlip e.val x w _ true (0, 0) 0 = n at run done
    exact ⟨_, (lift_next run : execJump e s = _), done.goesOn⟩
  · have run := jumpif_goes at_ flags operand
    have done := at_.branches (if jumpCond j (slipFlags w / 16) then slipTarget j (sgn 24 (slipOperand w)) else j.slip + 1)
    generalize m.endSlip e.val x w _ true (0, 0) 0 = n at run done
    exact ⟨_, (lift_next run : execJumpif e s = _), done.goesOn⟩
  · obtain ⟨ends, run⟩ := stop_ends at_ flags
    generalize m.endJob x 0 0 (slipOperand w) j.slip = n at ends run
    exact ⟨_, (lift_next run : execSlipStop e s = _), ends.counted rfl⟩
  · have ends := at_.ends 2 0 0 j.slip
    have run : m.slipRun e.val (fun w => 0x14 ≤ slipOp w) (fun m x j _ => m.endJob x 2 0 0 j.slip) = m.endJob x 2 0 0 j.slip :=
      slipRun_of at_ (decide_eq_true high) (fun m x j _ => m.endJob x 2 0 0 j.slip) (ends.clerks.tame at_.tame)
    generalize m.endJob x 2 0 0 j.slip = n at ends run
    exact ⟨_, (lift_next run : execSlipReservedOpcode e s = _), ends.endsWith⟩
  · obtain ⟨is, f, cmd⟩ := slipCommands_run (s := s) listed
    refine ⟨fun old => ?_, fun r young lost => ?_⟩
    · obtain ⟨idle, gone, mem, dropped⟩ := dropJob_drops job only
      have run := slipRun_stale up engine job running old is f
      generalize m.dropJob x = n at idle gone mem dropped run
      exact ⟨_, cmd.trans (lift_next run), gone, idle, mem, dropped⟩
    · obtain ⟨idle, ended⟩ := endJob_ends job only r.1 r.2 0 j.slip
      have run := slipRun_lost up engine job running young lost is f
      generalize m.endJob x r.1 r.2 0 j.slip = n at idle ended run
      exact ⟨_, cmd.trans (lift_next run), idle, ended⟩

end Sys2Proof.Machine
end
